-- ==== Sys2Proof/Word.lean ====
section
/-! DEFINITION. The word types of the module: all multi-byte data is little-endian (R28), bit 0 is the least significant bit (R29). -/

namespace Sys2Proof

/-- A 32-bit word of a Ransa packet, a register or a fabric lane. -/
abbrev Word := BitVec 32

/-- A byte of memory. -/
abbrev Byte := BitVec 8

end Sys2Proof
end

