-- ==== Sys2Proof/Syntax.lean ====
section
/-! DEFINITION. The commands of the module: one constructor of `Instr` per row of spec/opcode_table.json, and the operand types they carry.
A row of "Command Reference" (chapter 16) names a command that COMMAND_START has started; its parameter words stand in the
command's packet (R693), which the state holds. An event row carries what arrives from outside the module. -/

namespace Sys2Proof

/-- The two masters (chapter 15): the host through one PCIe function, or the Tether master over MCTP. -/
inductive Sender where
  | host (fn : Nat)
  | tether
  deriving DecidableEq, Repr

/-- One outstanding command: its master, and the slot (host, R640) or the message's arrival number (Tether, R654). -/
structure CmdRef where
  sender : Sender
  key : Nat
  deriving DecidableEq, Repr

/-- The two carriers of SPDM (R862, R863). -/
inductive Carrier where
  | doe
  | mctp
  deriving DecidableEq, Repr

/-- What the parts of the main side report during one main-side start (Table 22-1, Table 22-3). -/
structure StartReport where
  railsOk : Bool := true
  refStable : Bool := true
  /-- the verdict of each steward core's own image check (R857) -/
  imageVotes : List Bool := [true, true, true]
  /-- calibration records that fail their check, by key `port * 256 + index` -/
  badCalib : List Nat := []
  /-- (tile, physical lane) pairs that fail the tile self-test (R904) -/
  laneFails : List (Nat × Nat) := []
  /-- tiles whose march test or geometry unit fails (R905) -/
  tileFails : List Nat := []
  /-- an HBM channel that fails training twice (R906) -/
  hbmFail : Option Nat := none
  /-- (kind, instance) of engine nodes that fail STARTUP_SELFTEST (R907) -/
  engineFails : List (Nat × Nat) := []
  deriving DecidableEq, Repr

/-- The kinds of function reset (R910, Table 22-4). -/
inductive FunctionResetKind where
  | flr
  | vfEnableCleared
  deriving DecidableEq, Repr

/-- A landmark entry (Table 9-2). -/
structure Landmark where
  id : Word := 0
  genBorn : Word := 0
  genDead : Word := 0xFFFFFFFF
  anchor : Word := 0
  pos : List Word := [0, 0, 0]
  dir : List Word := [0, 0, 0]
  sigma : BitVec 16 := 0
  obs : BitVec 16 := 0
  repIndex : BitVec 16 := 0xFFFF
  kind : Byte := 0
  flags : Byte := 0
  lastSeen : Word := 0
  deriving DecidableEq, Repr

/-- A keyframe entry (Table 9-3). -/
structure Keyframe where
  id : Word := 0
  genBorn : Word := 0
  genDead : Word := 0xFFFFFFFF
  session : BitVec 16 := 0
  flags : BitVec 16 := 0
  tValid : BitVec 64 := 0
  pos : List (BitVec 64) := [0, 0, 0]
  quat : List Word := [0x3F800000, 0, 0, 0]
  sigma : List (BitVec 16) := [0, 0, 0, 0, 0, 0]
  streamMask : Word := 0
  nFeatures : Word := 0
  featureBytes : Word := 0
  vecId : Word := 0xFFFFFFFF
  prevKf : Word := 0xFFFFFFFF
  deriving DecidableEq, Repr

/-- A pose-graph edge (Table 9-4). -/
structure Edge where
  id : Word := 0
  genBorn : Word := 0
  genDead : Word := 0xFFFFFFFF
  fromKf : Word := 0
  toKf : Word := 0
  type : Byte := 0
  pos : List Word := [0, 0, 0]
  quat : List Word := [0x3F800000, 0, 0, 0]
  info : List (BitVec 16) := [0, 0, 0, 0, 0, 0]
  deriving DecidableEq, Repr

/-- One change that reaches a map's commit sequencer (R386, R705). An added entry's ID is assigned by the module (R383);
the IDs inside `addKeyframe`'s landmarks and edges that name the new keyframe hold 0xFFFFFFFE until then. -/
inductive MapChange where
  | addLandmark (e : Landmark)
  | updateLandmark (e : Landmark)
  | deleteLandmark (id : Word)
  | addKeyframe (e : Keyframe) (features : List Byte) (vector : List Word) (lms : List Landmark) (edges : List Edge)
  | updateKeyframe (e : Keyframe)
  | deleteKeyframe (id : Word)
  | addEdge (e : Edge)
  | deleteEdge (id : Word)
  deriving DecidableEq, Repr

/-- The real-valued part of a POSE_FAST body (Table 2-9): binary32 words and 2^-20 m fixed point, as a pair band places it. -/
structure PoseFast where
  pos : List (BitVec 64) := [0, 0, 0]
  quat : List Word := [0x3F800000, 0, 0, 0]
  vel : List Word := [0, 0, 0]
  rate : List Word := [0, 0, 0]
  posSd : Word := 0
  attSd : Word := 0
  deriving DecidableEq, Repr

/-- The window state that the working band publishes for a frame set (R500), from which POSE_OPT is built (Table 2-10). -/
structure WindowState where
  pos : List (BitVec 64) := [0, 0, 0]
  quat : List Word := [0x3F800000, 0, 0, 0]
  vel : List Word := [0, 0, 0]
  gyroBias : List Word := [0, 0, 0]
  accelBias : List Word := [0, 0, 0]
  cov : List Word := []
  landmarksUsed : Nat := 0
  iterations : Nat := 0
  cost : Word := 0
  deriving DecidableEq, Repr

/-- One row of an association cost matrix (R348): a landmark, its observations, and what the fast-pose prediction gives for it. Pixels are
level-0 pixels times 2^16, covariances their squares (xx, xy, yy), and `rate` is the change of the predicted pixel per second. -/
structure AssocRow where
  landmark : Word
  observations : Nat
  predU : Int
  predV : Int
  cov : List Int
  rate : List Int := [0, 0]
  /-- Dd against each corner of the stream, for a landmark without a stored descriptor of that kind: binary, then learned (R350) -/
  dd : List (Nat × Nat) := []
  deriving DecidableEq, Repr

/-- One entry of the track list of a frame set (Table 2-11). -/
structure TrackEntry where
  trackId : Word := 0
  landmark : Word := 0xFFFFFFFF
  u : BitVec 16 := 0
  v : BitVec 16 := 0
  stream : Nat := 0
  status : Nat := 0
  frames : Nat := 0
  deriving DecidableEq, Repr

/-- One moving object of a frame set (Table 2-11), as the track level measures it. -/
structure ObjectObs where
  objectId : Word := 0
  centre : List Word := [0, 0, 0]
  velocity : List Word := [0, 0, 0]
  extent : List Word := [0, 0, 0]
  supporting : Nat := 0
  deriving DecidableEq, Repr

/-- What the optimisation measures of one feature track of a frame set (R353, R357, R359): the track, its pixel, its corner in the corner list of
its stream, its normalised squared residual after the last iteration times 100, and its parallax in hundredths of a degree. -/
structure TrackObs where
  trackId : Word := 0
  u : BitVec 16 := 0
  v : BitVec 16 := 0
  stream : Nat := 0
  corner : Option Nat := none
  /-- the FLOW_ID of its point in the stream, where one carries it (R305) -/
  flow : Option Word := none
  lost : Bool := false
  chi2x100 : Nat := 0
  parallaxCdeg : Nat := 0
  deriving DecidableEq, Repr

/-- How a moving-object candidate stands to an object, or to the other candidates of a group (R359): the largest distance to the features in mm,
and the largest velocity difference in hundredths of a standard deviation. -/
structure JoinMeasure where
  track : Word := 0
  objectId : Word := 0
  distanceMm : Nat := 0
  velocityCsigma : Nat := 0
  deriving DecidableEq, Repr

/-- A point of the latest closed sweep of a lidar port as it projects into a camera stream (R345): level-0 pixel times 16, and its depth in units
of 2^-20 m. -/
structure ProjPoint where
  port : Nat := 16
  u : Int := 0
  v : Int := 0
  depth : Nat := 0
  /-- the object in whose extent the point lies (R344) -/
  object : Option Word := none
  deriving DecidableEq, Repr

/-- An edge or plane feature of a closed sweep (R354): its place in W in units of 2^-16 m. -/
structure LidarFeature where
  plane : Bool := false
  pos : List Int := [0, 0, 0]
  /-- the object in whose extent its points lie (R344) -/
  object : Option Word := none
  deriving DecidableEq, Repr

/-- A change that the pipeline asks of the map, and the tracks that its new landmarks come from, in order (R353, R361). -/
structure PipeChange where
  change : MapChange
  tracks : List Word := []
  deriving DecidableEq, Repr

/-- What the optimisation of a frame set measures for the keyframe rule of R358. -/
structure KeyframeMeasure where
  /-- time since the last keyframe, ns -/
  sinceLast : Nat
  /-- window landmarks observed, of those the last keyframe observed -/
  observed : Nat
  ofLast : Nat
  /-- distance from the last keyframe in mm, and rotation in hundredths of a degree -/
  distanceMm : Nat
  rotationCdeg : Nat
  deriving DecidableEq, Repr

/-- Work of the built-in pipeline's firmware programs (chapters 2, 8 and 11) that a band's step completes. The numbers that the
firmware's programs compute from sensor data, and for which the spec states no exact function, arrive here as operands. -/
inductive StageEvent where
  /-- depth of the corners of one stream of a frame set from the projected points of the latest sweep and the disparity image (R345 to R347);
  `resident` says whether depth completion's weights were resident at its rendezvous (R100) -/
  | depth (frameSet stream : Nat) (resident : Bool) (points : List ProjPoint)
  /-- association of one stream of a frame set (R348 to R353); `limit` is how many rows the allotment solved, none when all; `resident` says
  whether the learned descriptors' weights were resident at the rendezvous that starts the stage (R100, R629) -/
  | associate (frameSet stream : Nat) (resident : Bool) (rows : List AssocRow) (limit : Option Nat)
  /-- the window optimisation of a frame set ends and publishes its state (R355, R500) with its keyframe decision and map changes; `embedded` says
  whether the place embedding's weights were resident at its rendezvous (R100) -/
  | publish (frameSet : Nat) (w : WindowState) (kf : KeyframeMeasure) (changes : List PipeChange) (embedded : Bool)
  /-- the optimisation of a frame set starts: its snapshot, its samples and its landmarks are fixed (Table 9-6, R356, R368); `cands` lists the
  active landmarks with their observations -/
  | optimiseStart (frameSet : Nat) (cands : List (Word × Nat))
  /-- a pair band places its POSE_FAST record and six tile signatures in its compare buffer (R502) -/
  | placeFast (outIndex : Nat) (pose : PoseFast) (sigs : List (BitVec 64))
  /-- a pair band places its POSE_OPT record and six tile signatures in its compare buffer (R502) -/
  | placeOpt (frameSet : Nat) (sigs : List (BitVec 64)) (fault : Bool)
  /-- the track level after the last iteration of a frame set (R353, R357, R359 to R362): its tracks, the candidates that are near an object, the
  groups of candidates that agree among themselves with the object that each would found, and the objects as measured -/
  | tracks (frameSet : Nat) (tracks : List TrackObs) (joins : List JoinMeasure) (groups : List (Word × List JoinMeasure)) (obs : List ObjectObs)
  /-- edge and plane features of the latest closed sweep of a port, by local curvature (R354) -/
  | lidarFeatures (port : Nat) (features : List LidarFeature)
  /-- a correction state of a refined sensor (R364): shift in 0.001 mm and 0.001 mrad, and whether it exceeds 3 standard deviations -/
  | refine (port index : Nat) (posUm rotUrad : Nat) (beyond3Sigma : Bool) (position rotation : List Word)
  /-- the residual of a wheel or CAN constraint (R342): normalised squared residual times 100 -/
  | wheelGate (port index : Nat) (chi2x100 : Nat)
  /-- the fabric writes PRED_DU, PRED_DV and HINT of a point-list entry (R306) -/
  | hint (stream point : Nat) (predDu predDv : BitVec 16) (hint : Byte)
  /-- a lidar sweep closes because the azimuth wraps (R344) -/
  | sweepWrap (port : Nat)
  /-- the fabric's readers of a frame set's buffers have ended (R181) -/
  | releaseBuffers (frameSet : Nat)
  deriving DecidableEq, Repr

/-- What happens to a band's step beside its own columns. -/
structure StepIO where
  /-- units whose check fails in this attempt (R588): logical tile, and logical lane 0 to 63 or 64 for the geometry unit -/
  failing : List (Nat × Nat) := []
  /-- rows whose read finds an uncorrectable codeword (R783): (logical tile, row) -/
  badRows : List (Nat × Nat) := []
  /-- rows whose read finds one symbol in error (R781) -/
  corrected : Nat := 0
  /-- whether a rewritten bad row fails its write test (Table 19-3) -/
  rowTestFails : Bool := false
  /-- work of the firmware's pipeline program completed by this step -/
  stage : Option StageEvent := none
  deriving DecidableEq, Repr

/-- What a patrol read or a granule read finds (R781 to R783). -/
inductive ReadResult where
  | intact
  | corrected
  | uncorrectable
  deriving DecidableEq, Repr

/-- Where a patrol read is made (R782): a tile-store row, a commons row, or an HBM codeword by channel, region,
row and location within the row. -/
inductive PatrolPlace where
  | tileRow (tile row : Nat)
  | commonsRow (bank row : Nat)
  | hbm (channel region row location : Nat)
  deriving DecidableEq, Repr

/-- A line of a camera as its long packet carries it: data type and samples; YUV422 8-bit carries U, Y, V, Y in turn (R167). -/
structure VideoLine where
  dataType : Byte := 0x2A
  px : List Nat := []
  deriving DecidableEq, Repr

/-- A PTP message (R115). A Sync that a SLAVE port receives is a row of its own. -/
inductive PtpKind where
  | announce (clockClass : Nat) (gm : BitVec 64)
  | delayReq
  | delayResp
  | followUp
  | pdelayReq
  | pdelayResp
  | sync
  | pdelayRespFollowUp
  deriving DecidableEq, Repr

/-- What an interval's measurement finds at one tile (R822, R823). -/
structure TileSample where
  tile : Nat
  /-- delays of its four replica lines, to 1 ps -/
  lines : List Nat := []
  /-- time from issue to the tile's last acknowledge, summed in ps over the steps of the interval neither stretched nor retried, and their number;
  for a tile in no band the steps are those of the 1 µs built-in exercise sequence -/
  stepPs : Nat := 0
  steps : Nat := 0
  deriving DecidableEq, Repr

/-- What the cadence monitors and the energy ledger measured over one planning interval (R716, R476, R822). -/
structure IntervalReport where
  /-- energy on the 12 V main input in the interval, µJ -/
  mainUj : Nat
  /-- energy attributed to each context, µJ -/
  ctxUj : List Nat := []
  /-- measured step rate of each band, Msteps/s (R476) -/
  bandRates : List (Nat × Nat) := []
  /-- static power per tile of each band, mW, measured while the band waits at rendezvous (R733) -/
  staticMw : List (Nat × Nat) := []
  /-- keyframes of each context in 100 s, the units of the embedding stage (Table 17-4) -/
  keyframes : List (Nat × Nat) := []
  /-- the tiles' cadence and the replica line of each clocked island other than 7, ps (R822, R823) -/
  tiles : List TileSample := []
  islands : List (Nat × Nat) := []
  deriving DecidableEq, Repr

/-- One packet of MCTP over SMBus as it stands on the bus (R680, R682): its transmission unit, header fields, and whether its PEC is right. -/
structure SmbusPacket where
  som : Bool := true
  eom : Bool := true
  seq : BitVec 2 := 0
  tag : BitVec 3 := 0
  owner : Bool := true
  payload : List Byte := []
  pecOk : Bool := true
  deriving DecidableEq, Repr

/-- Quantities gathered for a margin re-planning (Table 20-1). -/
structure MarginReport where
  /-- lowest predicted floor rate, Msteps/s, and its tile -/
  rSlow : Nat
  tile : Nat
  /-- voltage sensitivity of that tile, Msteps/s per mV, times 1,000 -/
  s1000 : Nat
  /-- projected life in 0.01 years by the fit of R830 -/
  life : Nat
  tjMean : BitVec 8 := 0
  tjMax : BitVec 8 := 0
  deriving DecidableEq, Repr

/-- A line or bus that can be held low (Table 23-8). -/
inductive HeldLine where
  | cameraI2c (port : Nat) (sda : Bool)
  | smbus (dat : Bool)
  deriving DecidableEq, Repr

/-- One correction of a verified loop (R395): a keyframe and its new pose. -/
structure KfCorrection where
  kf : Word
  pos : List (BitVec 64)
  quat : List Word
  shift : Word
  deriving DecidableEq, Repr

/-- The verdict of the geometric verification of a candidate (R42, Table 2-12). -/
structure LoopVerdict where
  passed : Bool
  relPos : List (BitVec 64) := [0, 0, 0]
  relQuat : List Word := [0x3F800000, 0, 0, 0]
  inliers : Word := 0
  distance : Word := 0
  maxShift : Word := 0
  corrections : List KfCorrection := []
  deriving DecidableEq, Repr

/-- The commands and events of the module: one constructor per row of spec/opcode_table.json, in its order. -/
inductive Instr where
  -- protocol, 0x00xx
  | hello (c : CmdRef)
  | queryCaps (c : CmdRef)
  | abort (c : CmdRef)
  | domainClaim (c : CmdRef)
  | domainRelease (c : CmdRef)
  | expertEnable (c : CmdRef)
  | expertDisable (c : CmdRef)
  | expertPolicy (c : CmdRef)
  -- sessions, 0x01xx
  | startSession (c : CmdRef)
  | stopSession (c : CmdRef)
  | setStageMode (c : CmdRef)
  | sessionStatus (c : CmdRef)
  -- sensors, 0x02xx
  | portClaim (c : CmdRef)
  | portRelease (c : CmdRef)
  | portConfig (c : CmdRef)
  | portStatus (c : CmdRef)
  | portTiming (c : CmdRef)
  | camI2cXfer (c : CmdRef) (acked : Nat) (dataIn : List Byte)
  | formatWrite (c : CmdRef)
  | triggerClaim (c : CmdRef)
  -- time and Reel, 0x03xx
  | timeGet (c : CmdRef)
  | timeSet (c : CmdRef)
  | timeAdjust (c : CmdRef)
  | timeSetIncrement (c : CmdRef)
  | clockReset (c : CmdRef)
  | ptpConfig (c : CmdRef)
  | reelWrite (c : CmdRef)
  | reelArm (c : CmdRef)
  | reelDisarm (c : CmdRef)
  | reelRead (c : CmdRef)
  -- filter chain, 0x04xx
  | filterBind (c : CmdRef)
  | filterPreset (c : CmdRef)
  | filterLoad (c : CmdRef)
  | filterSwap (c : CmdRef)
  | filterThreshold (c : CmdRef)
  | filterRead (c : CmdRef)
  -- vision, 0x05xx
  | remapLoad (c : CmdRef)
  | stereoConfig (c : CmdRef)
  | chainConfig (c : CmdRef)
  | featureConfig (c : CmdRef)
  | descPatternLoad (c : CmdRef)
  | quadrilleLoad (c : CmdRef)
  | quadrilleRun (c : CmdRef)
  | visionRead (c : CmdRef)
  -- fusion and calibration, 0x06xx
  | rigWrite (c : CmdRef)
  | rigRead (c : CmdRef)
  | fusionConfig (c : CmdRef)
  | calibRead (c : CmdRef)
  | calibCommit (c : CmdRef)
  -- map store, 0x07xx
  | mapCreate (c : CmdRef)
  | mapDestroy (c : CmdRef)
  | mapQuery (c : CmdRef)
  | mapEdit (c : CmdRef)
  | mapLend (c : CmdRef)
  | mapRecall (c : CmdRef)
  | mapMerge (c : CmdRef)
  | mapExport (c : CmdRef)
  | mapImport (c : CmdRef)
  -- search, 0x08xx
  | indexCreate (c : CmdRef)
  | indexDestroy (c : CmdRef)
  | searchInsert (c : CmdRef)
  | searchQuery (c : CmdRef)
  -- fabric, 0x09xx
  | contextAdmit (c : CmdRef)
  | contextRelease (c : CmdRef)
  | contextStatus (c : CmdRef)
  -- memory objects, 0x0Axx
  | hostWindowSet (c : CmdRef)
  | objCreate (c : CmdRef)
  | objDestroy (c : CmdRef)
  | objWrite (c : CmdRef)
  | objRead (c : CmdRef)
  | objSeal (c : CmdRef)
  | objShare (c : CmdRef)
  | objUnshare (c : CmdRef)
  | objMove (c : CmdRef)
  | objPromote (c : CmdRef)
  | objEvict (c : CmdRef)
  | objPin (c : CmdRef)
  | objUnpin (c : CmdRef)
  | windowBind (c : CmdRef)
  | streamBind (c : CmdRef)
  | objQuery (c : CmdRef)
  | objReload (c : CmdRef)
  -- energy and power, 0x0Bxx
  | powerCapSet (c : CmdRef)
  | energyAccountSet (c : CmdRef)
  | ballastSet (c : CmdRef)
  | worklevelLoad (c : CmdRef)
  | vfCurveLoad (c : CmdRef)
  | powerStateSet (c : CmdRef)
  | energyStatus (c : CmdRef)
  -- health and safe stop, 0x0Cxx
  | safeStop (c : CmdRef)
  | safeStopClear (c : CmdRef)
  | healthStatus (c : CmdRef)
  | marginReplan (c : CmdRef)
  | ageingRead (c : CmdRef)
  | eventRead (c : CmdRef)
  -- security and firmware, 0x0Dxx
  | identityRead (c : CmdRef)
  | fwStatus (c : CmdRef)
  | fwStage (c : CmdRef)
  | fwActivate (c : CmdRef)
  | ownerKeyTransfer (c : CmdRef)
  -- diagnostics, 0x0Exx
  | diagTileStatus (c : CmdRef)
  | diagBandStatus (c : CmdRef)
  | diagCounters (c : CmdRef)
  | diagFaultInject (c : CmdRef)
  -- carriers
  | slotArm (fn slot : Nat) (word0 : Word) (placed : List (Nat × Byte))
  | slotWriteLost (fn slot index : Nat) (value : Word)
  | registerWrite (fn offset : Nat) (value : Word)
  | commandStart (who : Sender)
  | commandReply (c : CmdRef)
  /-- `body` is what follows the message type, and for a Ransa message what follows the enterprise number (R682) -/
  | mctpMessageReceived (eid : Byte) (peer address : BitVec 7) (khz : Nat) (packets : List SmbusPacket)
  | setEndpointId (force : Bool) (eid : Byte)
  | getEndpointId (src : Byte)
  | getMctpVersionSupport (src msgType : Byte)
  | getMessageTypeSupport (src : Byte)
  | getVendorDefinedMessageSupport (src selector : Byte)
  -- SPDM
  | getVersion (via : Carrier)
  | getCapabilities (via : Carrier)
  | negotiateAlgorithms (via : Carrier) (baseAsym baseHash measHash measSpec : Word)
  | getDigests (via : Carrier)
  | getCertificate (via : Carrier) (slot offset length : Nat)
  | challenge (via : Carrier) (slot : Nat) (nonce : List Byte) (summary : Nat)
  | getMeasurements (via : Carrier) (index : Nat) (signed : Bool) (nonce : List Byte)
  -- PCIe, resets and start-up
  | pcieConfigRequest (fn reg : Nat) (write : Option Word)
  | perstAssert
  | perstDeassert
  | functionReset (fn : Nat) (kind : FunctionResetKind)
  | vauxApplied
  | vauxLow
  | mainSideStart (r : StartReport)
  | startupDone
  -- supplies and protection
  | mainSupplyOutOfRange (high : Bool)
  | mainSupplyReturn
  | mainSupplyDropout
  | inputReversed (input : Nat)
  | supplyFlagPoll
  | vsensOutOfRange (high : Bool)
  | vsensBackInRange
  | supplyOvercurrent (port : Nat)
  | supplyShort (port : Nat)
  | supplyOpenLoad (port : Nat)
  | supplyBackFeed (port : Nat)
  | tripCountClear (port : Nat)
  | outputCompare (output : Nat) (pin : Bool)
  | outputRestoreTry (output : Nat) (pin : Bool)
  | lineHeldLow (line : HeldLine)
  | dphyLineStuck (port pin : Nat)
  | encoderLineOpen (port pin : Nat)
  | canLineOpen (port pin : Nat)
  | canPairSwapped (port : Nat)
  | thermalWarning (sensor : Byte) (cause : Nat)
  | thermalShutdown (sensor : Byte) (temperature : Byte)
  -- timebase, Reel and network time
  | timebaseTick
  | imu0Sample (raw : List Word) (delivered : Bool)
  | ppsInEdge
  | ppsOutRise
  | ppsOutFall
  | reelPulseRise (entry : Nat)
  | reelPulseFall (entry : Nat)
  | ptpSyncReceived (port : Nat) (gm : BitVec 64) (clockClass : Nat) (offset : Int) (udp : Bool)
  | ptpMessageReceived (port : Nat) (kind : PtpKind) (udp : Bool)
  | ptpMessageSent (port : Nat) (kind : PtpKind) (udp : Bool)
  | syncTimeout
  | arpIcmpRequest (port : Nat) (icmp : Bool) (target : Word)
  -- clocks and voltages
  | clockSourceLost (source : Nat)
  | clockSourceStable (source : Nat)
  | clockSourceReturn (island : Nat)
  | pllLockLost (island : Nat)
  | islandResume (island : Nat)
  | voltageTransition (island : Nat)
  -- sensor ports
  | sensorDetected (port : Nat)
  | detectTimeout (port : Nat)
  | retryPeriod (port : Nat)
  /-- per data lane 0 to 3: its high-speed entry arrives as LP-10 then LP-00, its sync byte arrives as 0x47, or offset by one bit (R171) -/
  | trainingDone (port : Nat) (lp10 sync47 offset : BitVec 4)
  | trainingTimeout (port : Nat)
  | portStall (port : Nat)
  /-- `headerErrors` counts the corrected packet headers since the last camera event of the stream (R169) -/
  | frameStart (port vc headerErrors : Nat)
  /-- the lines of long packets as received, each with its data type (R167) -/
  | stripLanded (stream : Nat) (lines : List VideoLine) (headerErrors : Nat)
  | frameEnd (stream : Nat) (lines : List VideoLine) (embedded : List (List Byte)) (headerErrors : Nat) (bad : Bool)
  | closeDeadline (ctx : Nat)
  /-- `tags` counts the IEEE 802.1Q tags of the frame, which the port strips (R184) -/
  | lidarPacket (port : Nat) (source : Word) (udpPort : BitVec 16) (tags : Nat) (payload : List Byte)
  | lidarSweepTimeout (port : Nat)
  | imuBurst (port : Nat) (ok : Bool) (burst : List Byte)
  | canFrame (port : Nat) (id : Word) (brs : Bool) (error : Bool) (payload : List Byte)
  | canSignalStale (port signal : Nat)
  | encoderStandstill (port : Nat)
  | encoderVerifyWindow (port agree disagree : Nat)
  | filterInputSample (channel : Nat)
  -- vision engines
  | remapCellRow (stream row inst : Nat) (checkFails : Bool)
  | pyramidRow (stream level row inst : Nat) (checkFails : Bool)
  | stereoStrip (ctx pair strip : Nat) (checkFails : Bool)
  | cornerCellRow (stream row inst : Nat) (checkFails : Bool)
  | descriptorUnit (stream corner inst : Nat) (checkFails : Bool)
  | flowPoint (stream point inst : Nat) (checkFails : Bool)
  | featureBlockDone (stream : Nat)
  | engineRecoveryGraph (kind inst : Nat) (passed : Bool)
  | quadrilleNode (node : Nat) (output : List Byte) (checkFails : Bool)
  -- fabric
  | bandStep (band : Nat) (io : StepIO)
  | moveComplete (band tile flag : Nat)
  | codePageLoaded (band page : Nat) (failed : Bool)
  | rendezvousComplete (rv : Nat)
  | streamLayerResident (ctx stream tile : Nat)
  | fabricRendezvousLate (band : Nat)
  -- pose pair and dependability
  | pairCommit (ctx : Nat) (refNearerSecond : Bool)
  | carrierDeadline (ctx : Nat)
  | degradedRecord (ctx : Nat) (pose : PoseFast)
  | poseCoverDeadline (ctx frameSet : Nat) (propagated : WindowState)
  | stepTimeout (band tile : Nat)
  | laneSubstitutionDone (tile : Nat)
  | tileRepairDone (tile : Nat)
  | checkpointRollback (band : Nat)
  | patrolRead (place : PatrolPlace) (result : ReadResult)
  | hbmRowRetired (channel region row : Nat) (pprFree : Bool)
  | stewardFault (core : Nat)
  | stewardRejoin (core : Nat)
  -- Promenade and records
  | granuleMove (result : ReadResult) (retryFails : Bool)
  | copyGranuleFree (obj tier : Nat)
  | objectRestreamed (obj tier granule : Nat) (homeReadFails : Bool)
  | heldRecordExpiry
  -- map store and search
  | mapCommit (map : Nat)
  | tombstoneFree (map : Nat)
  | generationSweep (map : Nat)
  | mapDeltaWrite (ctx : Nat)
  | loopQueryIssue (ctx : Nat) (kf : Word) (vector : List Word)
  | loopVerify (ctx : Nat) (verdict : LoopVerdict)
  /-- `badPages`: pages that the scan finds with an uncorrectable error (R455): map, kind, list, page -/
  | searchScan (badPages : List (Nat × Nat × Nat × Nat))
  | searchPassEnd (query : Nat)
  -- energy
  | planningIntervalEnd (r : IntervalReport)
  | energyHorizonPassed
  | bridleGrantPeriod (draws : List (Nat × Nat)) (unmeteredMw : Nat)
  | powerDroop (mask : BitVec 3)
  | droopRecovery
  | autoIdle
  | marginReplanDaily
  | marginReplanned (r : MarginReport)
  | healthPeriod (ctx : Nat)
  | eventHealthRecord
  -- firmware update
  | fwCoreRebootDone (core : Nat)
  | fwSwitchPoint
  | fwBandSwap (band : Nat)
  | fwFlashVerified
  | fwUpdateRolledBack
  | recoveryWriteDone (ok : Bool)
  -- edges and link
  | quadratureEdge (port : Nat) (lineB level : Bool) (pulseNs : Nat)
  | hostLinkDown
  | hostLinkUp
  deriving DecidableEq, Repr

end Sys2Proof
end

