-- ==== Sys2Proof/Decode.lean ====
section
/-! DEFINITION. Words of the opcode table. No row of spec/opcode_table.json gives bits (the module's commands are packets and events,
not instruction words), so no word spells a command. -/

namespace Sys2Proof

/-- The command that a word of the opcode table spells: none, because no row of the table gives bits. -/
def decodeTableWord (_nbits _w : Nat) : Option Instr := none

end Sys2Proof
end

