-- ==== Sys2Proof/Config.lean ====
section
/-! DEFINITION. What the spec leaves open: constants without a body, so that no proof can see a value (see the assumption log, entry 16).
Each is applied to the operands it depends on, or to the counter `State.free` for a fresh value each time. -/

namespace Sys2Proof.Config

/-- A fresh undefined value; the argument is the step's free counter. -/
opaque freeNat : Nat → Nat

/-- The DETAIL of a refusal for which the spec names none, by opcode and status (Table 15-9). -/
opaque openDetail : Nat → Nat → BitVec 16

/-- The context word that EVENT_READ returns for an event of the whole module (Table 16-16 names no value). -/
opaque eventContext : Nat → Word

/-- The module serial number, 16 ASCII characters as four words (HELLO, R852). -/
opaque serial : Nat → Word

/-- The firmware build number that QUERY_CAPS reports for a firmware version (Table 16-2 names no relation). -/
opaque fwBuild : Word → BitVec 16

/-- MCTP: the version of a supported message type, and the enterprise number and command set version (R681, DSP0236). -/
opaque mctpVersion : Byte → Word
opaque enterprise : Nat → Byte

/-- A value that the spec leaves open: the first argument names the place (assumption 16 lists them), the second what it depends on. -/
opaque openVal : Nat → Nat → Nat

/-- The PTP servo: how far it slews (bounded by R130), its frequency estimate, and its filter of PPS_IN offsets (R130, R114). -/
opaque servoSlew : Nat → Nat
opaque servoEstimate : Nat → BitVec 40
opaque servoFilter : List Int → Int

/-- The error of a firmware stamp (bounded by R120, R121 at ±20 µs). -/
opaque stampError : Nat → Int

end Sys2Proof.Config
end

