-- ==== Sys2Proof/Machine/Table.lean ====
section
/-! DEFINITION. Tables: plain association lists, keys strictly rising. They hold numbered state of the module sparsely: an item that
is not listed has the value that its own accessor names. -/

namespace Sys2Proof.Machine

/-- A table from numbers to values, kept in rising order of its keys. -/
abbrev Tab (α : Type) := List (Nat × α)

variable {α β : Type}

/-- The value listed under `k`, if any. -/
def Tab.get? : Tab α → Nat → Option α
  | [], _ => none
  | (j, x) :: t, k => if j = k then some x else Tab.get? t k

/-- The value listed under `k`, or `d`. -/
def Tab.getD (t : Tab α) (k : Nat) (d : α) : α := (Tab.get? t k).getD d

/-- `t` with `x` under `k`, inserted where the order of the keys puts it. -/
def Tab.put : Tab α → Nat → α → Tab α
  | [], k, x => [(k, x)]
  | (j, y) :: t, k, x =>
    if k < j then (k, x) :: (j, y) :: t
    else if k = j then (k, x) :: t
    else (j, y) :: Tab.put t k x

/-- `t` without any entry under `k`. -/
def Tab.del : Tab α → Nat → Tab α
  | [], _ => []
  | (j, y) :: t, k => if j = k then Tab.del t k else (j, y) :: Tab.del t k

/-- Write `x` under `k`, listing nothing when `x` is what an unlisted key reads as. -/
def Tab.write [DecidableEq α] (dflt : α) (t : Tab α) (k : Nat) (x : α) : Tab α :=
  if x = dflt then Tab.del t k else Tab.put (Tab.del t k) k x

/-- Whether `k` is listed. -/
def Tab.has (t : Tab α) (k : Nat) : Bool := (Tab.get? t k).isSome

/-- Apply `f` to the value under `k`, or to `d` where none is listed. -/
def Tab.upd (t : Tab α) (k : Nat) (d : α) (f : α → α) : Tab α := Tab.put t k (f (Tab.getD t k d))

/-- Apply `f` to every listed value. -/
def Tab.mapVals (t : Tab α) (f : Nat → α → β) : Tab β := t.map fun e => (e.1, f e.1 e.2)

/-- Keep the entries that satisfy `p`. -/
def Tab.keep (t : Tab α) (p : Nat → α → Bool) : Tab α := t.filter fun e => p e.1 e.2

/-- The lowest number below `n` that is not listed. -/
def Tab.lowestFree (t : Tab α) (n : Nat) : Option Nat := (List.range n).find? fun k => !(Tab.has t k)

/-- Keys strictly rising. -/
def Tab.sorted : Tab α → Bool
  | [] => true
  | [_] => true
  | (i, _) :: (j, y) :: t => decide (i < j) && Tab.sorted ((j, y) :: t)

/-- The canonical form of an addressed memory: keys strictly rising and no entry equal to what an unlisted key reads as. -/
def Tab.canonical [DecidableEq α] (dflt : α) (t : Tab α) : Bool :=
  Tab.sorted t && t.all fun e => decide (e.2 ≠ dflt)

end Sys2Proof.Machine
end

