-- ==== Sys2Proof/Machine/Bits.lean ====
section
/-! DEFINITION. Bit fields, byte order, sign extension, saturation and the two CRCs. All multi-byte data is little-endian (R28). -/

namespace Sys2Proof.Machine

/-- Bits `hi` down to `lo` of `w` as a number. -/
def fld {n : Nat} (w : BitVec n) (hi lo : Nat) : Nat := w.toNat / 2 ^ lo % 2 ^ (hi + 1 - lo)

/-- Whether bit `i` of `w` is set. -/
def bit {n : Nat} (w : BitVec n) (i : Nat) : Bool := w.getLsbD i

/-- `x` as a word, its low 32 bits. -/
def w32 (x : Nat) : Word := BitVec.ofNat 32 x

/-- The low 32 bits of an integer in two's complement. -/
def wInt (x : Int) : Word := BitVec.ofInt 32 x

/-- A number of `n` bits read as two's complement. -/
def sext (n x : Nat) : Int := if x % 2 ^ n < 2 ^ (n - 1) then Int.ofNat (x % 2 ^ n) else Int.ofNat (x % 2 ^ n) - 2 ^ n

/-- `x` held to the range `lo` to `hi`. -/
def clampInt (lo hi x : Int) : Int := if x < lo then lo else if x > hi then hi else x

/-- `x` held to at most `2 ^ n - 1`. -/
def satU (n x : Nat) : Nat := min x (2 ^ n - 1)

/-- The `n` low bytes of `x`, least significant first. -/
def leBytes : Nat → Nat → List Byte
  | 0, _ => []
  | n + 1, x => BitVec.ofNat 8 x :: leBytes n (x / 256)

/-- The number whose bytes, least significant first, are `b`. -/
def ofLe : List Byte → Nat
  | [] => 0
  | b :: t => b.toNat + 256 * ofLe t

/-- The number whose bytes, most significant first, are `b`. -/
def ofBe (b : List Byte) : Nat := ofLe b.reverse

/-- `n` bytes of `b` from offset `i`, zero where `b` is shorter. -/
def slice (b : List Byte) (i n : Nat) : List Byte := ((b.drop i).take n) ++ List.replicate (n - (b.drop i).length) 0

/-- The little-endian number of `n` bytes at offset `i`. -/
def leAt (b : List Byte) (i n : Nat) : Nat := ofLe (slice b i n)

/-- The little-endian 32-bit word at offset `i`. -/
def wordAt (b : List Byte) (i : Nat) : Word := w32 (leAt b i 4)

/-- The four bytes of a word. -/
def wBytes (w : Word) : List Byte := leBytes 4 w.toNat

/-- The bytes of a list of words. -/
def wordsBytes (l : List Word) : List Byte := l.flatMap wBytes

/-- `n` words read from bytes. -/
def bytesWords (n : Nat) (b : List Byte) : List Word := (List.range n).map fun i => wordAt b (4 * i)

/-- Cut a list into pieces of `k` (`fuel` bounds their number). -/
def chunks {α : Type} (k : Nat) : Nat → List α → List (List α)
  | 0, _ => []
  | _ + 1, [] => []
  | fuel + 1, l => l.take k :: chunks k fuel (l.drop k)

/-- Zero bytes. -/
def zeros (n : Nat) : List Byte := List.replicate n 0

/-- The bits that are set in `w`, as rising numbers below `n`. -/
def setBits (n w : Nat) : List Nat := (List.range n).filter fun i => w.testBit i

/-- The mask with the bits of `l` set. -/
def maskOf (l : List Nat) : Nat := l.eraseDups.foldl (fun a i => a ||| 2 ^ i) 0

/-- `l` with position `i` replaced, filled up with `d` where `l` is shorter. -/
def setAt {α : Type} (d : α) (l : List α) (i : Nat) (x : α) : List α :=
  (List.range (max l.length (i + 1))).map fun j => if j = i then x else l.getD j d

/-- Division rounded up. -/
def ceilDiv (a b : Nat) : Nat := (a + b - 1) / b

/-- One bit of a reflected CRC with polynomial `poly`. -/
def crcStep (poly c : Nat) : Nat := if c % 2 = 1 then Nat.xor (c / 2) poly else c / 2

/-- One byte of a reflected CRC. -/
def crcByte (poly c : Nat) (b : Byte) : Nat :=
  let x := Nat.xor c b.toNat
  crcStep poly (crcStep poly (crcStep poly (crcStep poly (crcStep poly (crcStep poly (crcStep poly (crcStep poly x)))))))

/-- CRC-32 of IEEE 802.3: reflected, initial and final value all ones. -/
def crc32 (b : List Byte) : Word := w32 (Nat.xor (b.foldl (crcByte 0xEDB88320) 0xFFFFFFFF) 0xFFFFFFFF)

/-- ECMA-182 CRC-64 in its reflected form with initial and final value all ones. -/
def crc64 (b : List Byte) : BitVec 64 :=
  BitVec.ofNat 64 (Nat.xor (b.foldl (crcByte 0xC96C5795D7870F42) 0xFFFFFFFFFFFFFFFF) 0xFFFFFFFFFFFFFFFF)

/-- The integer square root by bisection on `k` bits: the largest `r` below `2 ^ k` with `r * r ≤ x`. -/
def isqrtBits (x : Nat) : Nat → Nat → Nat
  | 0, r => r
  | k + 1, r => if (r + 2 ^ k) * (r + 2 ^ k) ≤ x then isqrtBits x k (r + 2 ^ k) else isqrtBits x k r

/-- The integer square root, rounded down. -/
def isqrt (x : Nat) : Nat := isqrtBits x (x.log2 / 2 + 1) 0

/-- Insert by a strict order, after the elements that are not greater (a stable insertion). -/
def insertBy {α : Type} (lt : α → α → Bool) (x : α) : List α → List α
  | [] => [x]
  | y :: t => if lt x y then x :: y :: t else y :: insertBy lt x t

/-- Stable insertion sort by a strict order. -/
def sortBy {α : Type} (lt : α → α → Bool) (l : List α) : List α := l.foldl (fun acc x => insertBy lt x acc) []

/-- The sum of a list of numbers. -/
def total (l : List Nat) : Nat := l.foldl (· + ·) 0

/-- The least element of a list, or `d`. -/
def minD (d : Nat) : List Nat → Nat
  | [] => d
  | x :: t => t.foldl min x

/-- The greatest element of a list, or `d`. -/
def maxD (d : Nat) : List Nat → Nat
  | [] => d
  | x :: t => t.foldl max x

end Sys2Proof.Machine
end

