-- ==== Sys2Proof/Machine/Float.lean ====
section
/-! DEFINITION. Number formats and exact arithmetic of the fabric (chapter 13): layouts (Table 13-2), rounding (Table 13-4), the results
and ARITH_FLAGS of each operation on one element, and the rounding of the long accumulator (R579). -/

namespace Sys2Proof.Machine

/-- A decoded number: a NaN, an infinity, or (-1)^neg * m * 2^e exactly. -/
inductive FVal where
  | nan
  | inf (neg : Bool)
  | fin (neg : Bool) (m : Nat) (e : Int)
  deriving DecidableEq, Repr

/-- A format of Table 13-2. `special` is 0 for a format with infinities and NaNs, 1 for E4M3 (NaN only), 2 for a format with neither. -/
structure FFmt where
  ebits : Nat
  mbits : Nat
  bias : Nat
  special : Nat
  nan : Nat
  deriving DecidableEq, Repr

def e4m3 : FFmt := ⟨4, 3, 7, 1, 0x7F⟩
def e5m2 : FFmt := ⟨5, 2, 15, 0, 0x7E⟩
def e2m3 : FFmt := ⟨2, 3, 1, 2, 0⟩
def e3m2 : FFmt := ⟨3, 2, 3, 2, 0⟩
def e2m1 : FFmt := ⟨2, 1, 1, 2, 0⟩
def b16 : FFmt := ⟨5, 10, 15, 0, 0x7E00⟩
def bf16 : FFmt := ⟨8, 7, 127, 0, 0x7FC0⟩
def b32 : FFmt := ⟨8, 23, 127, 0, 0x7FC00000⟩

def FFmt.signBit (f : FFmt) : Nat := 2 ^ (f.ebits + f.mbits)
def FFmt.width (f : FFmt) : Nat := f.ebits + f.mbits + 1
/-- The encoding of positive infinity. -/
def FFmt.infBits (f : FFmt) : Nat := (2 ^ f.ebits - 1) * 2 ^ f.mbits
/-- The encoding of the largest finite value. -/
def FFmt.maxFinite (f : FFmt) : Nat :=
  if f.special = 0 then f.infBits - 1 else if f.special = 1 then f.signBit - 2 else f.signBit - 1

/-- What an encoding denotes (R557). -/
def FFmt.decode (f : FFmt) (x : Nat) : FVal :=
  let a := x % f.signBit
  let neg := decide (x / f.signBit % 2 = 1)
  let e := a / 2 ^ f.mbits
  let m := a % 2 ^ f.mbits
  if a > f.maxFinite then (if f.special = 0 ∧ m = 0 then .inf neg else .nan)
  else if e = 0 then .fin neg m (1 - Int.ofNat f.bias - Int.ofNat f.mbits)
  else .fin neg (2 ^ f.mbits + m) (Int.ofNat e - Int.ofNat f.bias - Int.ofNat f.mbits)

/-- How an inexact magnitude is rounded: to nearest even, to the neighbour below, or to the neighbour above. -/
inductive Rnd where
  | nearest
  | below
  | above
  deriving DecidableEq, Repr

/-- `m * 2^e`, plus something smaller than any bit of it when `sticky`, in units of `2^q`, rounded. -/
def roundUnits (r : Rnd) (m : Nat) (e q : Int) (sticky : Bool) : Nat :=
  let sh := (q - e).toNat
  let n := if q ≤ e then m * 2 ^ (e - q).toNat else m / 2 ^ sh
  let twice := if q ≤ e then 0 else 2 * (m % 2 ^ sh)
  let unit := if q ≤ e then 1 else 2 ^ sh
  let inexact := decide (twice ≠ 0) || sticky
  match r with
  | .below => n
  | .above => if inexact then n + 1 else n
  | .nearest => if unit < twice ∨ (unit = twice ∧ (sticky ∨ n % 2 = 1)) then n + 1 else n

/-- The result of an operation on one element: its bits and the ARITH_FLAGS it raises (Table 12-17). -/
structure FRes where
  bits : Nat := 0
  fl : Nat := 0
  deriving DecidableEq, Repr

/-- ARITH_FLAGS bits (Table 12-17). -/
def fINV : Nat := 1
def fOVF : Nat := 2
def fSAT : Nat := 4
def fDIV0 : Nat := 8
def fLA : Nat := 16

def FFmt.nanRes (f : FFmt) (inv : Bool) : FRes := ⟨f.nan, if inv then fINV else 0⟩
def FFmt.infRes (f : FFmt) (neg : Bool) (fl : Nat) : FRes := ⟨(if neg then f.signBit else 0) + f.infBits, fl⟩
def FFmt.maxRes (f : FFmt) (neg : Bool) (fl : Nat) : FRes := ⟨(if neg then f.signBit else 0) + f.maxFinite, fl⟩
def FFmt.zeroRes (f : FFmt) (neg : Bool) : FRes := ⟨if neg then f.signBit else 0, 0⟩

/-- Round a finite magnitude to a format; beyond the largest finite value it is an infinity with OVF, or in an FP8 format the largest
finite value with OVF (Table 13-5). -/
def FFmt.round (f : FFmt) (r : Rnd) (neg : Bool) (m : Nat) (e : Int) (sticky : Bool) : FRes :=
  let qmin := 1 - Int.ofNat f.bias - Int.ofNat f.mbits
  let q := if m = 0 then qmin else max qmin (e + Int.ofNat m.log2 - Int.ofNat f.mbits)
  let bits := (q - qmin).toNat * 2 ^ f.mbits + roundUnits r m e q sticky
  if bits > f.maxFinite then (if f.width = 8 then f.maxRes neg fOVF else f.infRes neg fOVF)
  else ⟨(if neg then f.signBit else 0) + bits, 0⟩

/-- Write a value in a format, to nearest even. -/
def FFmt.ofVal (f : FFmt) : FVal → FRes
  | .nan => f.nanRes false
  | .inf neg => if f.special = 0 then f.infRes neg 0 else f.maxRes neg fOVF
  | .fin neg m e => f.round .nearest neg m e false

/-! ### Exact operations -/

def FVal.isNan : FVal → Bool
  | .nan => true
  | _ => false
def FVal.isZero : FVal → Bool
  | .fin _ m _ => m == 0
  | _ => false
def FVal.neg : FVal → FVal
  | .nan => .nan
  | .inf n => .inf !n
  | .fin n m e => .fin (!n) m e
/-- The signed integer of a finite value in units of `2^q`, exact for `q` at or below its exponent. -/
def FVal.units (q : Int) : FVal → Int
  | .fin n m e => (if n then -1 else 1) * Int.ofNat (m * 2 ^ (e - q).toNat)
  | _ => 0
def FVal.exp : FVal → Int
  | .fin _ m e => if m = 0 then 1024 else e
  | _ => 1024
def FVal.sign : FVal → Bool
  | .fin n _ _ => n
  | .inf n => n
  | .nan => false
/-- A signed integer times `2^q`; an exact zero is +0. -/
def FVal.ofInt (x q : Int) : FVal := .fin (decide (x < 0)) x.natAbs q

/-- An exact product; the second part is the invalid case 0 times infinity (R562). -/
def FVal.mul (a b : FVal) : FVal × Bool :=
  match a, b with
  | .nan, _ => (.nan, false)
  | _, .nan => (.nan, false)
  | .inf n, b => if b.isZero then (.nan, true) else (.inf (xor n b.sign), false)
  | a, .inf n => if a.isZero then (.nan, true) else (.inf (xor n a.sign), false)
  | .fin n m e, .fin k l h => (.fin (xor n k) (m * l) (e + h), false)

/-- The exact sum of a list: a NaN, an infinity, or a finite value; infinities of both signs are invalid (R562, R570). A zero total is
+0 unless every addend is -0 (assumption 32). -/
def fsum (l : List FVal) : FVal × Bool :=
  if l.any FVal.isNan then (.nan, false)
  else
    let pos := l.contains (.inf false)
    let neg := l.contains (.inf true)
    if pos ∧ neg then (.nan, true)
    else if pos then (.inf false, false)
    else if neg then (.inf true, false)
    else
      let q := l.foldl (fun q x => min q x.exp) 1024
      let t := l.foldl (fun a x => a + x.units q) (0 : Int)
      if t = 0 ∧ l.all FVal.sign then (.fin true 0 q, false) else (FVal.ofInt t q, false)

/-- Write a value and its invalid mark. -/
def FFmt.put (f : FFmt) (v : FVal × Bool) : FRes :=
  match v.1 with
  | .nan => f.nanRes v.2
  | x => f.ofVal x

def fAdd (f : FFmt) (a b : Nat) : FRes := f.put (fsum [f.decode a, f.decode b])
def fSub (f : FFmt) (a b : Nat) : FRes := f.put (fsum [f.decode a, (f.decode b).neg])
def fMul (f : FFmt) (a b : Nat) : FRes := f.put ((f.decode a).mul (f.decode b))
/-- VA × VB + VC rounded once; a NaN operand hides an invalid product (R562). -/
def fFma (f : FFmt) (a b c : Nat) : FRes :=
  let p := (f.decode a).mul (f.decode b)
  if (f.decode c).isNan then f.nanRes false
  else if p.2 then f.nanRes true
  else f.put (fsum [p.1, f.decode c])

/-- Comparison of two numbers, neither a NaN: -0 below +0 when `zeros` (R563). -/
def fLt (a b : FVal) (zeros : Bool) : Bool :=
  match a, b with
  | .nan, _ => false
  | _, .nan => false
  | .inf n, .inf k => n && !k
  | .inf n, _ => n
  | _, .inf k => !k
  | a, b =>
    let q := min a.exp b.exp
    decide (a.units q < b.units q) || (zeros && decide (a.units q = b.units q) && a.sign && !b.sign)

/-- Equality of two numbers; +0 equals -0 (R563). -/
def fEq (a b : FVal) : Bool := !a.isNan && !b.isNan && !fLt a b false && !fLt b a false

def fMin (f : FFmt) (a b : Nat) : FRes :=
  if (f.decode a).isNan then f.ofVal (f.decode b) else if (f.decode b).isNan then f.ofVal (f.decode a)
  else ⟨if fLt (f.decode b) (f.decode a) true then b else a, 0⟩
def fMax (f : FFmt) (a b : Nat) : FRes :=
  if (f.decode a).isNan then f.ofVal (f.decode b) else if (f.decode b).isNan then f.ofVal (f.decode a)
  else ⟨if fLt (f.decode a) (f.decode b) true then b else a, 0⟩
def fAbs (f : FFmt) (a : Nat) : FRes := if (f.decode a).isNan then f.nanRes false else ⟨a % f.signBit, 0⟩
def fNeg (f : FFmt) (a : Nat) : FRes := if (f.decode a).isNan then f.nanRes false else ⟨Nat.xor a f.signBit, 0⟩

/-- Which neighbour a faithful result takes: a function of the operands (R564, R592) that the spec leaves open (assumption 16). -/
def faithful (place key : Nat) : Rnd := if Config.openVal place key % 2 = 0 then .below else .above

/-- a / b rounded by `r` (R583). -/
def fQuot (f : FFmt) (r : Rnd) (a b : FVal) : FRes :=
  match a, b with
  | .nan, _ => f.nanRes false
  | _, .nan => f.nanRes false
  | .inf _, .inf _ => f.nanRes true
  | .inf n, b => f.infRes (xor n b.sign) 0
  | a, .inf n => f.zeroRes (xor n a.sign)
  | .fin n m e, .fin k l h =>
    if l = 0 then (if m = 0 then f.nanRes true else f.infRes (xor n k) fDIV0)
    else f.round r (xor n k) (m * 2 ^ 64 / l) (e - h - 64) (decide (m * 2 ^ 64 % l ≠ 0))

def fDiv (f : FFmt) (a b : Nat) : FRes := fQuot f .nearest (f.decode a) (f.decode b)
/-- RCP: faithful (Table 13-4). -/
def fRcp (f : FFmt) (a : Nat) : FRes := fQuot f (faithful 5 (a * 64 + f.mbits)) (.fin false 1 0) (f.decode a)

/-- The square root, correctly rounded; of -0 it is -0, below -0 it is invalid (R562, R583). -/
def fSqrt (f : FFmt) (a : Nat) : FRes :=
  match f.decode a with
  | .nan => f.nanRes false
  | .inf n => if n then f.nanRes true else f.infRes false 0
  | .fin n m e =>
    if m = 0 then f.zeroRes n
    else if n then f.nanRes true
    else
      let odd := (e % 2).toNat
      let m' := m * 2 ^ (64 + odd)
      f.round .nearest false (isqrt m') ((e - Int.ofNat odd) / 2 - 32) (decide (isqrt m' * isqrt m' ≠ m'))

/-- RSQRT: faithful; of ±0 it is ±∞ with DIV0 (R583). -/
def fRsqrt (f : FFmt) (a : Nat) : FRes :=
  match f.decode a with
  | .nan => f.nanRes false
  | .inf n => if n then f.nanRes true else f.zeroRes false
  | .fin n m e =>
    if m = 0 then f.infRes n fDIV0
    else if n then f.nanRes true
    else
      let odd := (e % 2).toNat
      let m' := m * 2 ^ odd
      let r := isqrt (2 ^ 128 / m')
      f.round (faithful 6 (a * 64 + f.mbits)) false r (-((e - Int.ofNat odd) / 2) - 64) (decide (r * r * m' ≠ 2 ^ 128))

/-! ### Element types of the V slot (Table 12-9) -/

/-- The float format of a TYPE code. -/
def vFloat (t : Nat) : Option FFmt := if t = 1 then some b32 else if t = 3 then some b16 else if t = 4 then some bf16 else none
/-- Element width of a TYPE code. -/
def vWidth (t : Nat) : Nat := if t ≤ 1 then 32 else if t ≤ 4 then 16 else 8
/-- Elements per lane. -/
def vCount (t : Nat) : Nat := 32 / vWidth t
/-- Element `k` of a lane word (R554: from the least significant bits upward). -/
def elem (t : Nat) (w : Word) (k : Nat) : Nat := w.toNat / 2 ^ (vWidth t * k) % 2 ^ vWidth t

/-- Pack element results into a lane word and join their flags. -/
def packElems (width : Nat) (l : List FRes) : Word × Nat :=
  (w32 (l.foldr (fun r a => r.bits % 2 ^ width + 2 ^ width * a) 0), l.foldl (fun a r => a ||| r.fl) 0)

/-- An integer result that wraps (R555). -/
def iWrap (n : Nat) (x : Int) : FRes := ⟨(x % 2 ^ n).toNat, 0⟩
/-- An integer result that saturates to `n` bits and then sets SAT. -/
def iSat (n : Nat) (x : Int) : FRes :=
  let lo : Int := -(2 ^ (n - 1))
  let hi : Int := 2 ^ (n - 1) - 1
  ⟨(clampInt lo hi x % 2 ^ n).toNat, if x < lo ∨ hi < x then fSAT else 0⟩

/-- Integer element operations of the V slot (R555, R556); `none` where the operation has no integer form. -/
def iOp (op n a b c : Nat) : Option FRes :=
  let x := sext n a
  let y := sext n b
  match op with
  | 0x01 => some (iWrap n (x + y))
  | 0x02 => some (iWrap n (x - y))
  | 0x03 => some (iWrap n (x * y))
  | 0x04 => some (iWrap n (x * y / 2 ^ n))
  | 0x05 => some (iWrap n (x * y + sext n c))
  | 0x06 => some ⟨if y < x then b else a, 0⟩
  | 0x07 => some ⟨if x < y then b else a, 0⟩
  | 0x08 => some (iWrap n (Int.ofNat x.natAbs))
  | 0x09 => some (iWrap n (-x))
  | _ => none

/-- Float element operations of the V slot; `none` where the operation has no form in this format. -/
def fOp (op : Nat) (f : FFmt) (a b c : Nat) : Option FRes :=
  match op with
  | 0x01 => some (fAdd f a b)
  | 0x02 => some (fSub f a b)
  | 0x03 => some (fMul f a b)
  | 0x05 => some (fFma f a b c)
  | 0x06 => some (fMin f a b)
  | 0x07 => some (fMax f a b)
  | 0x08 => some (fAbs f a)
  | 0x09 => some (fNeg f a)
  | 0x0A => if f = bf16 then none else some (fRcp f a)
  | 0x0B => if f = bf16 then none else some (fRsqrt f a)
  | 0x0C => if f = bf16 then none else some (fSqrt f a)
  | 0x0D => if f = bf16 then none else some (fDiv f a b)
  | _ => none

/-- Shifts and POPC on one element of width `n`: the whole amount counts (R556). -/
def bitOp (op n a amount : Nat) : Option FRes :=
  match op with
  | 0x14 => some ⟨if n ≤ amount then 0 else a * 2 ^ amount % 2 ^ n, 0⟩
  | 0x15 => some ⟨if n ≤ amount then 0 else a / 2 ^ amount, 0⟩
  | 0x16 => some (iWrap n (sext n a / 2 ^ min amount n))
  | 0x17 => some ⟨(setBits n a).length, 0⟩
  | _ => none

/-- An element result that the spec does not state (a TYPE the operation has no form for): open, by its operands (assumption 16). -/
def openElem (op t a b c : Nat) : FRes :=
  ⟨Config.openVal 7 ((((op * 8 + t) * 2 ^ 32 + a) * 2 ^ 32 + b) * 2 ^ 32 + c) % 2 ^ vWidth t, 0⟩

/-- One element of an element-wise operation. -/
def elemOp (op t a b c amount : Nat) : FRes :=
  let r := if 0x14 ≤ op then bitOp op (vWidth t) a amount
    else match vFloat t with
      | some f => fOp op f a b c
      | none => if t = 0 ∨ t = 2 ∨ t = 5 then iOp op (vWidth t) a b c else none
  r.getD (openElem op t a b c)

/-- An element-wise operation on a lane; `imm` is the immediate shift amount. -/
def laneOp (op t : Nat) (a b c : Word) (imm : Option Nat) : Word × Nat :=
  packElems (vWidth t) ((List.range (vCount t)).map fun k =>
    elemOp op t (elem t a k) (elem t b k) (elem t c k) (imm.getD (elem t b k)))

/-- A compare on one lane (R563). For a packed TYPE the spec names no joint result of the elements: open unless they agree (16). -/
def laneCmp (op t : Nat) (a b : Word) : Bool :=
  let r := (List.range (vCount t)).map fun k =>
    match vFloat t with
    | some f =>
      let x := f.decode (elem t a k)
      let y := f.decode (elem t b k)
      if op = 0x18 then fEq x y else if op = 0x19 then fLt x y false else fLt x y false || fEq x y
    | none =>
      let x := sext (vWidth t) (elem t a k)
      let y := sext (vWidth t) (elem t b k)
      if op = 0x18 then decide (x = y) else if op = 0x19 then decide (x < y) else decide (x ≤ y)
  if r.all id then true else if r.any id = false then false
  else decide (Config.openVal 8 (((op * 8 + t) * 2 ^ 32 + a.toNat) * 2 ^ 32 + b.toNat) % 2 = 1)

/-! ### Conversion (R565 to R568) -/

/-- Convergent right shift: to nearest, one half to even (R566). -/
def convergent (x : Int) (sh : Nat) : Int :=
  let n : Int := roundUnits .nearest x.natAbs 0 (Int.ofNat sh) false
  if x < 0 then -n else n

/-- A finite value rounded to an integer, to nearest even. -/
def FVal.toInt : FVal → Int
  | .fin n m e => (if n then -1 else 1) * Int.ofNat (roundUnits .nearest m e 0 false)
  | _ => 0

/-- The float format of a CVT target code. -/
def cvtFloat (t : Nat) : Option FFmt := if t = 6 then some e4m3 else if t = 7 then some e5m2 else vFloat t
def cvtWidth (t : Nat) : Nat := if 6 ≤ t then 8 else vWidth t

/-- Convert one element from TYPE `t` to target `u` with SHIFT `sh`. -/
def cvtElem (t u sh x : Nat) : FRes :=
  match vFloat t, cvtFloat u with
  | some f, some g => g.ofVal (f.decode x)
  | some f, none =>
    match f.decode x with
    | .nan => ⟨0, fSAT⟩
    | .inf neg => iSat (cvtWidth u) (if neg then -(2 ^ 64) else 2 ^ 64)
    | v => iSat (cvtWidth u) v.toInt
  | none, some g =>
    let y := sext (vWidth t) x
    if y = 0 then g.zeroRes false else g.ofVal (FVal.ofInt y 0)
  | none, none => iSat (cvtWidth u) (convergent (sext (vWidth t) x) sh)

/-- CVT of a lane: n elements packed from bit 0, zeros above (R565). -/
def laneCvt (t u sh : Nat) (a : Word) : Word × Nat :=
  let n := min (vCount t) (32 / cvtWidth u)
  packElems (cvtWidth u) ((List.range n).map fun k => cvtElem t u sh (elem t a k))

/-! ### The matrix unit (R569 to R571) -/

/-- The format of a matrix FMT code: element bits, elements and, for a float, its format (Table 12-8). -/
def mFormat (fmt : Nat) : Nat × Nat × Option FFmt :=
  match fmt with
  | 0 => (8, 32, none)
  | 1 => (4, 64, none)
  | 2 => (8, 32, some e4m3)
  | 3 => (8, 32, some e5m2)
  | 4 => (16, 16, some bf16)
  | 5 => (16, 16, some b16)
  | 6 => (8, 32, some e4m3)
  | 7 => (8, 32, some e5m2)
  | 8 => (6, 32, some e2m3)
  | 9 => (6, 32, some e3m2)
  | 10 => (4, 32, some e2m1)
  | 11 => (8, 32, none)
  | _ => (32, 4, some b32)

/-- The value of one matrix element (Table 13-2). -/
def mElem (fmt x : Nat) : FVal :=
  let f := mFormat fmt
  match f.2.2 with
  | some g => g.decode x
  | none => FVal.ofInt (sext f.1 x) (if fmt = 11 then -6 else 0)

/-- The lane's dot product, exact: a NaN or the sum of the products, and whether a product was invalid; `sa` and `sw` are the E8M0
scales of an MX format (R570, R571). -/
def mDot (fmt sa sw : Nat) (acts wts : List Nat) : FVal × Bool :=
  if 6 ≤ fmt ∧ fmt ≤ 11 ∧ (sa = 255 ∨ sw = 255) then (.nan, false)
  else
    let ps := (acts.zip wts).map fun p => (mElem fmt p.1).mul (mElem fmt p.2)
    let nanIn := (acts ++ wts).any fun x => (mElem fmt x).isNan
    let r := fsum (ps.map (·.1))
    let inv := !nanIn && (ps.any (·.2) || r.2)
    match r.1 with
    | .fin n m e => (.fin n m (if 6 ≤ fmt ∧ fmt ≤ 11 then e + Int.ofNat sa + Int.ofNat sw - 254 else e), false)
    | x => (x, inv)

/-- The binary32 entry after adding an exact dot product to it (R570). -/
def entryAdd (entry : Word) (d : FVal × Bool) : FRes :=
  let e := b32.decode entry.toNat
  if e.isNan ∨ d.1.isNan then b32.nanRes (d.2 && !e.isNan) else b32.put (fsum [e, d.1])

/-- The INT32 entry after adding an exact sum to it, saturating (R569). -/
def entryAddInt (entry : Word) (x : Int) : FRes := iSat 32 (entry.toInt + x)

end Sys2Proof.Machine
end

