-- ==== Sys2Proof/Machine/Geometry.lean ====
section
/-! DEFINITION. The geometry unit (R584 to R586, Tables 12-11, 13-8): exact dyadic arithmetic on its operands, and results that are open
within the accuracy bounds. A bound that involves a sine, a cosine or an arc is kept only as the range of the component (assumption 16). -/

namespace Sys2Proof.Machine

/-- An exact dyadic number n * 2^e. -/
structure Dy where
  n : Int := 0
  e : Int := 0
  deriving DecidableEq, Repr

def Dy.scaled (a : Dy) (q : Int) : Int := a.n * 2 ^ (a.e - q).toNat
def Dy.add (a b : Dy) : Dy := ⟨a.scaled (min a.e b.e) + b.scaled (min a.e b.e), min a.e b.e⟩
def Dy.mul (a b : Dy) : Dy := ⟨a.n * b.n, a.e + b.e⟩
def Dy.neg (a : Dy) : Dy := ⟨-a.n, a.e⟩
def Dy.sub (a b : Dy) : Dy := a.add b.neg
def Dy.abs (a : Dy) : Dy := ⟨Int.ofNat a.n.natAbs, a.e⟩
def Dy.le (a b : Dy) : Bool := decide (a.scaled (min a.e b.e) ≤ b.scaled (min a.e b.e))
def Dy.sum (l : List Dy) : Dy := l.foldl Dy.add ⟨0, 0⟩
def Dy.sq (a : Dy) : Dy := a.mul a
def Dy.pow2 (k : Int) : Dy := ⟨1, k⟩

/-- A subnormal binary32 becomes zero of the same sign (R560). -/
def flush32 (x : Nat) : Nat := if x / 2 ^ 23 % 256 = 0 then x / 2 ^ 31 * 2 ^ 31 else x

/-- The exact value of a finite binary32 word, flushed. -/
def Dy.ofWord (w : Word) : Dy :=
  match b32.decode (flush32 w.toNat) with
  | .fin neg m e => ⟨if neg then -(Int.ofNat m) else Int.ofNat m, e⟩
  | _ => ⟨0, 0⟩

def Dy.val (d : Dy) : FVal := .fin (decide (d.n < 0)) d.n.natAbs d.e

/-- Round an exact result; a subnormal result is flushed (R560). -/
def Dy.round (r : Rnd) (d : Dy) : FRes :=
  let x := b32.round r (decide (d.n < 0)) d.n.natAbs d.e false
  { x with bits := flush32 x.bits }

def isFinite32 (w : Nat) : Bool := w / 2 ^ 23 % 256 != 255

/-- An open component: a number that the spec leaves open, kept where `ok` holds of its value, else `dflt` (assumption 16). -/
def openComp (key : Nat) (ok : Dy → Bool) (dflt : FRes) : FRes :=
  let c := flush32 (Config.openVal 14 key % 2 ^ 32)
  if isFinite32 c && ok (Dy.ofWord (w32 c)) then ⟨c, 0⟩ else dflt

/-- Exact numerators of a product of two quaternions (R33). -/
def quatMul (a b : List Dy) : List Dy :=
  let p (i j : Nat) := (a.getD i {}).mul (b.getD j {})
  [Dy.sum [p 0 0, (p 1 1).neg, (p 2 2).neg, (p 3 3).neg],
   Dy.sum [p 0 1, p 1 0, p 2 3, (p 3 2).neg],
   Dy.sum [p 0 2, (p 1 3).neg, p 2 0, p 3 1],
   Dy.sum [p 0 3, p 1 2, (p 2 1).neg, p 3 0]]

/-- The same rotation with w not below 0 (R34). -/
def canonQuat (q : List Word) : List Word :=
  let w := (q.getD 0 0).toNat
  if 0x80000000 < w ∧ w ≤ 0xFF800000 then q.map fun x => x ^^^ 0x80000000 else q

def normSq (l : List Dy) : Dy := Dy.sum (l.map Dy.sq)

/-- Numerators of the rotation matrix of a quaternion, row-major, over its squared norm. -/
def quatMat (q : List Dy) : List Dy :=
  let p (i j : Nat) := (q.getD i {}).mul (q.getD j {})
  let two (d : Dy) := d.add d
  [Dy.sum [p 0 0, p 1 1, (p 2 2).neg, (p 3 3).neg], two ((p 1 2).sub (p 0 3)), two ((p 1 3).add (p 0 2)),
   two ((p 1 2).add (p 0 3)), Dy.sum [p 0 0, (p 1 1).neg, p 2 2, (p 3 3).neg], two ((p 2 3).sub (p 0 1)),
   two ((p 1 3).sub (p 0 2)), two ((p 2 3).add (p 0 1)), Dy.sum [p 0 0, (p 1 1).neg, (p 2 2).neg, p 3 3]]

/-- Products whose exact sum is entry (i, j) of a product of 3 x 3 matrices. -/
def matEntry (a b : List Dy) (wa wb i j : Nat) : Dy :=
  Dy.sum ((List.range 3).map fun k => (a.getD (wa * i + k) {}).mul (b.getD (wb * k + j) {}))

/-- Row `i` of a 3 x n matrix times a vector. -/
def matVec (a v : List Dy) (w i : Nat) : Dy := Dy.sum ((List.range 3).map fun k => (a.getD (w * i + k) {}).mul (v.getD k {}))

/-- A comparison c ≤ t * sqrt n2. -/
def leRoot (c t n2 : Dy) : Bool :=
  if c.n ≤ 0 then (if 0 ≤ t.n then true else (t.sq.mul n2).le c.sq) else (if t.n ≤ 0 then false else c.sq.le (t.sq.mul n2))

/-- The norm lies within the range for which Table 13-8 gives its bounds (R586). -/
def normOk (n2 : Dy) : Bool := (Dy.sq ⟨1023, -10⟩).le n2 && n2.le (Dy.sq ⟨1025, -10⟩)

/-- A component num / den that may lie within `b2` of its exact value (`b2` is the square of the bound), else the nearest value. -/
def boundedQuot (key : Nat) (bounded : Bool) (num den b2 : Dy) : FRes :=
  openComp key (fun c => !bounded || ((c.mul den).sub num).sq.le (b2.mul den.sq))
    (let r := fQuot b32 .nearest num.val den.val
     { r with bits := flush32 r.bits })

/-- Result registers of an operation of Table 12-11. -/
def gDest (op : Nat) : Nat :=
  match op with
  | 1 => 4 | 2 => 4 | 3 => 3 | 4 => 4 | 5 => 4 | 6 => 3 | 7 => 7 | 8 => 6 | 9 => 9 | 10 => 9 | 11 => 3 | 12 => 3 | 13 => 12
  | _ => 0

/-- Source registers of the two groups of an operation. -/
def gSrc (op : Nat) : Nat × Nat :=
  match op with
  | 1 => (4, 4) | 2 => (4, 0) | 3 => (4, 3) | 4 => (4, 0) | 5 => (3, 0) | 6 => (4, 0) | 7 => (6, 0) | 8 => (7, 0) | 9 => (4, 0)
  | 10 => (9, 9) | 11 => (9, 3) | 12 => (12, 3) | 13 => (12, 12)
  | _ => (0, 0)

/-- Latency of an operation (Table 12-11). -/
def gLatency (op : Nat) : Nat :=
  match op with
  | 1 => 2 | 2 => 1 | 3 => 3 | 4 => 3 | 5 => 4 | 6 => 4 | 7 => 6 | 8 => 6 | 9 => 2 | 10 => 4 | 11 => 2 | 12 => 2 | 13 => 4
  | _ => 1

/-- Component `i` of an operation on finite operands. -/
def gComp (op key i : Nat) (wa : List Word) (a b : List Dy) : FRes :=
  let key := key * 16 + i
  let q := a.take 4
  let n2 := normSq q
  let one := (Dy.pow2 (-22)).add ⟨1, 0⟩
  let unitOk := fun (c : Dy) => c.abs.le one && (i != 0 || decide (0 ≤ c.n))
  let fused := fun (d : Dy) => d.round (faithful 15 key)
  let anyFinite : FRes :=
    let c := flush32 (Config.openVal 14 key % 2 ^ 32)
    if isFinite32 c then ⟨c, 0⟩ else b32.infRes (decide (2 ^ 31 ≤ c)) fOVF
  match op with
  | 1 => openComp key (fun c => (c.sub ((quatMul a b).getD i {})).sq.le ((Dy.pow2 (-44)).mul ((normSq a).mul (normSq b))))
      (((quatMul a b).getD i {}).round .nearest)
  | 2 => ⟨flush32 (if i = 0 then (wa.getD i 0).toNat else Nat.xor (wa.getD i 0).toNat 0x80000000), 0⟩
  | 3 => boundedQuot key (normOk n2) (matVec (quatMat q) b 3 i) n2 ((Dy.pow2 (-42)).mul (normSq b))
  | 4 =>
    let s := decide ((q.getD 0 {}).n < 0)
    let c := if s then (q.getD i {}).neg else q.getD i {}
    let d := Dy.pow2 (-23)
    openComp key (fun x => unitOk x && (!normOk n2 || (leRoot c (x.add d) n2 && leRoot c.neg ((x.sub d).neg) n2)))
      (b32.round .nearest (decide (c.n < 0)) (isqrt ((c.sq.scaled (min c.sq.e n2.e)).toNat * 2 ^ 128 / (n2.scaled (min c.sq.e n2.e)).toNat)) (-64) true)
  | 5 => openComp key unitOk ⟨if i = 0 then 0x3F800000 else 0, 0⟩
  | 6 => openComp key (fun c => c.abs.le ⟨3294200, -20⟩) ⟨0, 0⟩
  | 7 => if i < 4 then openComp key unitOk ⟨if i = 0 then 0x3F800000 else 0, 0⟩ else anyFinite
  | 8 => if i < 3 then anyFinite else openComp key (fun c => c.abs.le ⟨3294200, -20⟩) ⟨0, 0⟩
  | 9 => boundedQuot key (normOk n2) ((quatMat q).getD i {}) n2 (Dy.pow2 (-44))
  | 10 => fused (matEntry a b 3 3 (i / 3) (i % 3))
  | 11 => fused (matVec a b 3 i)
  | 12 => fused ((matVec a b 4 i).add (a.getD (4 * i + 3) {}))
  | 13 => fused (if i % 4 = 3 then (matEntry a b 4 4 (i / 4) 3).add (a.getD (4 * (i / 4) + 3) {}) else matEntry a b 4 4 (i / 4) (i % 4))
  | _ => ⟨0, 0⟩

/-- The destination group of an operation on one lane and the flags it raises (R584, R585). -/
def gLane (op : Nat) (wa wb : List Word) : List FRes :=
  let src := wa ++ wb
  let vals := src.map fun w => b32.decode w.toNat
  let nans (inv : Bool) := List.replicate (gDest op) (b32.nanRes inv)
  let finite := vals.all fun v => match v with
    | .fin _ _ _ => true
    | _ => false
  if !finite then nans (!vals.any FVal.isNan)
  else
    let a := wa.map Dy.ofWord
    let q := if op = 8 then a.take 4 else a
    if [3, 4, 6, 8, 9].contains op ∧ (Dy.pow2 (-120)).le (normSq (q.take 4)) = false then nans true
    else
      let key := src.foldl (fun k w => k * 2 ^ 32 + (flush32 w.toNat)) op
      (List.range (gDest op)).map fun i => gComp op key i wa a (wb.map Dy.ofWord)

end Sys2Proof.Machine
end

