-- ==== Sys2Proof/Machine/State.lean ====
section
/-! DEFINITION. The state of the module as plain data, every piece named with the rule that gives it, and the state right after reset.
Each field's comment reads: width; rule (file); reset value. `DC n` is a DESIGN CHOICE of assumption log entry n, `MODEL` marks a
field that is the model's own bookkeeping. Tables (`Tab`) list what differs from the default of their entry type. -/

namespace Sys2Proof.Machine

/-! ### Commands, slots and the two masters (chapter 15) -/

/-- How far an outstanding command has come (R654, R657). -/
inductive CmdPhase where
  | armed
  | running
  | ended
  deriving DecidableEq, Repr

/-- A reply before it is written (Table 15-4). -/
structure Reply where
  status : BitVec 16 := 0 -- 16; R690 (15); none
  detail : BitVec 16 := 0 -- 16; R690 (15); none
  commitTime : BitVec 64 := 0 -- 64; Table 15-4 (15); none
  body : List Word := [] -- words; R694 (16); none
  inlineOut : List Byte := [] -- bytes; R683 (15); none
  deriving DecidableEq, Repr

/-- One outstanding command (R646, R654). -/
structure Cmd where
  ref : CmdRef := ⟨.tether, 0⟩ -- -; R640, R682 (15); none
  words : List Word := [] -- up to 128 words; R640, R693 (15, 16); none
  inlineIn : List Byte := [] -- bytes; R683 (15); none
  eid : Byte := 0 -- 8; R682 (15); none
  peer : BitVec 7 := 0 -- 7, SMBus address of the requester; R682 (15); none
  mtag : BitVec 3 := 0 -- 3, message tag; R682 (15); none
  phase : CmdPhase := .armed -- -; R654, R657 (15); none
  begun : Bool := false -- MODEL: its effect has begun; R656; none
  committed : Bool := false -- 1; R657 (15); none
  commitTime : BitVec 64 := 0 -- 64; Table 15-4 (15); none
  reply : Option Reply := none -- -; R642 (15); none
  work : List Nat := [] -- MODEL: channels, granules or nodes the command still waits for; R703, R614, R325; none
  started : Nat := 0 -- MODEL: tick at which the command started; R655; none
  deriving DecidableEq, Repr

/-- BAR0 of one PCIe function and what belongs to the function (Tables 15-1, 15-2). -/
structure FnRegs where
  slots : Tab Word := [] -- 32 x 128 x 32; Table 15-1 (15); 0 DC 1
  slotBusy : Word := 0 -- 32; Table 15-1 (15); 0 (R639)
  slotDone : Word := 0 -- 32; Table 15-1 (15); 0 DC 1
  writeLost : Bool := false -- 1; Table 15-2 (15); 0
  ready : Bool := false -- 1; Table 15-2 (15); 0
  hostMinor : Byte := 0 -- 8; R19, R881 (00, 21); 0 DC 1
  fwMinor : Byte := 0 -- 8; R881 (21); 0 DC 1
  expert : BitVec 16 := 0 -- 16; Table 15-1, R664 (15); 0
  policy : BitVec 16 := 0 -- 16; R662 (15); 0
  msix : Tab Word := [] -- 32 x 32; Table 15-1 (15); 0 PRESUMED (PCIe base specification; vector control resets masked, DC 1)
  pba : Byte := 0 -- 8; Table 15-1 (15); 0 DC 1
  deriving DecidableEq, Repr

/-- A raised event (R99, R679). -/
structure Event where
  code : BitVec 16 := 0 -- 16; R99 (02); none
  detail : BitVec 16 := 0 -- 16; R99 (02); none
  ctx : Option Nat := none -- 3, none for an event of the whole module; Table 16-16 (16); none
  mask : Byte := 0xFF -- contexts whose sessions report it; R99, R158, R633 (02, 03, 14); none
  time : BitVec 64 := 0 -- 64; Table 16-16 (16); none
  deriving DecidableEq, Repr

/-- Something that leaves the module. -/
inductive OutMsg where
  | msix (fn vector : Nat)
  | mctp (eid : Byte) (msgType : Byte) (body : List Byte)
  /-- a Ransa reply: endpoint, SMBus address of the requester, packets (R680, R682) -/
  | ransaReply (eid : Byte) (peer : BitVec 7) (packets : List SmbusPacket)
  | spdm (via : Carrier) (body : List Byte)
  | pcieCompletion (fn reg : Nat) (crs : Bool)
  | ethernet (port kind : Nat) (stamp : Nat)
  /-- an acknowledge, or an error frame, of a CAN port in ACK mode (R202) -/
  | can (port : Nat) (ack : Bool)
  | i2c (port : Nat) (address : Nat) (bytes : List Byte)
  | i2cFree (port : Nat)
  | smbusReset
  deriving DecidableEq, Repr

/-- The state of the Tether side (R668 to R684). -/
structure TetherS where
  endpoint : Option Byte := none -- 8; R676 (15); none open
  expert : BitVec 16 := 0 -- 16; R664 (15); 0
  minor : Byte := 0 -- 8; R19 (00); 0 DC 1
  claims : BitVec 16 := 0 -- 16; R668 (15); 0
  nextKey : Nat := 0 -- MODEL: arrival number of the next message; R654; 0
  eid : Byte := 0 -- 8; R681 (15); 0 PRESUMED (null EID of DSP0236, DC 1)
  queue : List Event := [] -- 64 events; R679 (15); empty
  dropped : Nat := 0 -- count; R679, Table 16-16 (15, 16); 0
  spdmDoe : Nat := 0 -- 2; R864 (21); 0 (no GET_VERSION yet)
  spdmMctp : Nat := 0 -- 2; R864 (21); 0 (no GET_VERSION yet)
  deriving DecidableEq, Repr

/-! ### Life of the module (chapters 22 to 24) -/

/-- Where the main side stands (Tables 22-1 to 22-4). -/
inductive MainPhase where
  | off
  | starting
  | ready
  | failed (cause : Nat)
  | recovery
  deriving DecidableEq, Repr

/-- Supplies, start-up, resets and power state. -/
structure LifeS where
  vaux : Bool := true -- 1; R892 (22); on (the reset is the power-on reset that VAUX causes, Table 22-4)
  v12 : Bool := false -- 1; R895 (22); absent DC 2
  vsensOk : Bool := true -- 1; R933 (23); in range DC 2
  vsensBack : Option Nat := none -- MODEL: tick at which VSENS came back in range; R935; none
  main : MainPhase := .off -- -; R892, R893 (22); off
  startTick : Nat := 0 -- MODEL: tick of the 12 V application; R896, Table 22-5; 0
  startKind : Nat := 1 -- 4; R918, Table 22-5 (22); 1 power-on
  needOrder : Bool := false -- 1; Table 22-3, R752, R966 (22, 17, 24); 0
  powerState : Nat := 3 -- 4; Table 17-6 (17); 3 MAIN_OFF while only VAUX is present (R893)
  safeStop : Bool := false -- 1; R672, R914 (15, 22); 0
  perst : Bool := true -- 1; Table 23-3 (23); asserted (pull-down)
  linkUp : Bool := false -- 1; R900 (22); down
  vfEnable : Bool := false -- 1; Table 22-4 (22); 0 PRESUMED (PCIe base specification, DC 2)
  perstReset : Bool := false -- MODEL: a PERST# reset has been carried out and PERST# has not been deasserted since; R918; 0
  bootTick : Nat := 0 -- MODEL: tick at which step 3 of the start ends; Table 22-1; 0
  xoTaken : Bool := false -- MODEL: the always-on island has switched to XO since VAUX; R892; 0
  reversed : List Nat := [] -- 3 flags; R930 (23); clear
  thermalPending : Option (Byte × Byte) := none -- -; R966 (24); none
  imageVotes : List Bool := [] -- 3; R857 (21); none
  idleSince : Option Nat := none -- MODEL: tick of the last session's end; R749; none
  fabricHot : Bool := false -- 1; Table 24-6 (24); 0
  hbmHot : Bool := false -- 1; Table 24-6 (24); 0
  coldHold : Bool := false -- 1; Table 24-6 (24); 0
  orderCodeA : Bool := true -- 1; Table 0-6 (00); NHM-2604-A DC 2
  deriving DecidableEq, Repr

/-- One output with pin comparison (Table 23-8). Number: 0 to 19 TRG, 20 PPS_OUT, 21 to 24 IMU1 SYNC, SCLK, MOSI, CS#, 25 to 28 the same of IMU2,
29 and 30 GPIO0 and GPIO1, 31 TETHER_ALERT#. -/
structure OutputS where
  off : Bool := false -- 1; R945 (23); 0
  mismatches : Nat := 0 -- 2; R945 (23); 0
  deriving DecidableEq, Repr

/-! ### Timebase and Reel (chapter 3) -/

/-- The four time states (Table 3-2). -/
inductive TimeState where
  | free
  | acquiring
  | locked
  | holdover
  deriving DecidableEq, Repr

/-- Device time, the servo and PPS (R105 to R137, R972, R973). -/
structure TimeS where
  ticks : Nat := 0 -- MODEL: ticks since the timebase started; R107, R111, R715; 0
  seconds : BitVec 48 := 0 -- 48; R106 (03); 0
  nanos : Word := 0 -- 32; R106 (03); 0
  frac : Word := 0 -- 32; chapter 3 text (03); 0 DC 3
  inc : BitVec 40 := 0x0200000000 -- 40; Table 3-1 (03); 0x02_0000_0000
  held : Bool := false -- 1; R137 (03); 0
  state : TimeState := .free -- 2; R106 (03); FREE
  source : Nat := 0 -- 2; Table 16-7 (16); 0 NONE DC 3
  dot1as : Bool := false -- 1; Table 16-7 (16); 0 DC 3
  udp : Bool := false -- 1; Table 16-7 (16); 0 DC 3
  noInitialStep : Bool := false -- 1; R132 (03); INITIAL_STEP set (default)
  roles : List Nat := [0, 0, 0, 0] -- 4 x 2; R117 (03); DISABLED DC 3
  domain : Byte := 0 -- 8; R119 (03); 0 DC 3
  logSync : Byte := 0xFD -- 8 signed; R119 (03); -3
  jumpLimitUs : Nat := 1000 -- 20; R127 (03); 1,000
  ppsWidthUs : Nat := 100000 -- 19; R113 (03); 100,000
  forceInitial : Bool := false -- 1; R133 (03); 0
  fromFree : Bool := false -- 1; R132 (03); 0
  offsets : List Int := [] -- servo history; R130 (03); empty
  filtered : Int := 0 -- last filtered offset, ns; R114 (03); 0 DC 3
  uncertainty : Nat := 0 -- ns; R114 (03); 0 DC 3
  estimate : Option (BitVec 40) := none -- 40; R130, R973 (03); none formed
  lockedInc : BitVec 40 := 0x0200000000 -- 40; Table 3-2 (03); as INCREMENT
  everLocked : Bool := false -- MODEL: a lock has been declared since reset; Table 3-2; 0
  goodCount : Nat := 0 -- 5; Table 3-2 (03); 0
  correcting : Bool := false -- 1, in HOLDOVER a correction is under way; R131 (03); 0
  first : Bool := false -- 1, the first offset has not come yet; R132 (03); 0
  secOffset : Int := 0 -- whole seconds by PTP, for PPS_IN with PTP seconds; Table 3-2 (03); 0 DC 3
  gm : Option (BitVec 64) := none -- 64; R131 (03); none
  gmClass : Nat := 248 -- 8; R118 (03); 248 DC 3
  traceable : Bool := false -- 1; R118 (03); 0
  lastSync : Nat := 0 -- MODEL: tick of the last valid Sync; R122; 0
  ppsInStamp : Option Nat := none -- 64; R112 (03); none
  ppsHigh : Bool := false -- 1; R113 (03); 0
  ppsRise : Nat := 0 -- MODEL: tick of the last rise; R972; 0
  ppsMarked : Option Nat := none -- last second marked; R972 (03); none
  ppsDue : Bool := false -- MODEL: the last tick reached a whole second by its ordinary advance; R972; 0
  imuCount : Nat := 0 -- 17, ticks since the last IMU0 sample tick; R111 (03); 0
  imu0Due : Bool := false -- MODEL: the last tick is an IMU0 sample tick; R111; 0
  ptpStamps : Tab Nat := [] -- latest firmware stamp per port, kind of event message and direction; R120 (03); empty
  deriving DecidableEq, Repr

/-- One Reel entry (Table 3-3) and its pulse. -/
structure ReelEntry where
  start : BitVec 64 := 0 -- 64; Table 3-3 (03); 0
  period : Word := 0 -- 32; Table 3-3 (03); 0
  width : Word := 0 -- 32; Table 3-3 (03); 0
  count : Word := 0 -- 32; Table 3-3 (03); 0
  target : Byte := 0 -- 8; Table 3-3 (03); 0
  control : Byte := 0 -- 8; Table 3-3 (03); 0
  owner : Nat := 0xFF -- 8; Table 3-3 (03); 0xFF free
  state : Nat := 0 -- 8; Table 3-3 (03); 0 free
  fired : Word := 0 -- 32; Table 3-3 (03); 0
  session : Bool := false -- 1; R702 (16); 0
  nextPulse : Nat := 0 -- number of the next pulse; R143, R149 (03); 0
  gaps : List (Nat × Nat) := [] -- pulse numbers passed over; R149 (03); empty
  pulses : List (Nat × Nat) := [] -- high pulses: target and MODEL tick of the fall; R143, R148 (03); none
  lastRise : Option Nat := none -- MODEL: tick of the last rise; R974; none
  lastNumber : Nat := 0 -- MODEL: number of the latest pulse; R143; 0
  lastInstant : Nat := 0 -- Reel instant of the latest pulse, ns; R143 (03); 0
  prevInstant : Nat := 0 -- Reel instant of the pulse before it, ns; R190 (04); 0
  deriving DecidableEq, Repr

/-! ### Sensor ports (chapters 4 and 23) -/

/-- Table 4-2. -/
inductive PortState where
  | off
  | detecting
  | training
  | idle
  | streaming
  | fault
  deriving DecidableEq, Repr

/-- One sensor port: its state, its settings and its switched supply. -/
structure PortS where
  state : PortState := .off -- 3; Table 4-2 (04); OFF
  reason : Nat := 0 -- 4; Table 4-11 (04); 0
  owner : Option Nat := none -- 3; R52 (01); none
  bound : Bool := false -- 1; R161 (04); 0
  errors : Nat := 0 -- 32; Table 16-5, R951 (16, 23); 0
  camCfg : Word := 0x0A208000 + 0x3FA -- 32; Table 4-4 (04); fields' resets of Table 4-4
  ipv4 : Word := 0 -- 32; R185 (04); none
  phySlave : Bool := false -- 1; R183 (04); MASTER
  lidarSrc : Word := 0 -- 32; R186 (04); none
  udpPort : BitVec 16 := 0 -- 16; R186 (04); 0 DC 4
  spiMhz : Nat := 1 -- 5; Table 16-5 (16); 1 DC 4
  spiMode3 : Bool := false -- 1; Table 16-5 (16); 0 DC 4
  sampleHz : Nat := 0 -- 13; R979 (04); none configured
  glitch : Nat := 5 -- 6; R195 (04); 5 (100 ns)
  swap : Bool := false -- 1; R199 (04); 0 DC 4
  swapCfg : Bool := false -- 1; R200 (04); 0 DC 4
  metres : Word := 0 -- 32; R196 (04); 0 DC 4
  wheel : Nat := 0 -- 3; Table 16-5 (16); 0 DC 4
  canNominal : Nat := 500 -- 11; R201 (04); 500 DC 4
  canData : Nat := 0 -- 13; R980 (04); 0
  canAck : Bool := false -- 1; R202 (04); listen-only
  canTerm : Bool := false -- 1; R202 (04); off
  detectMs : Option Nat := none -- 16; R160, Table 4-3 (04); the kind's default
  retryMs : Nat := 1000 -- 16; R160 (04); 1,000
  trigUs : Nat := 5000 -- 15; R177 (04); 5,000
  since : Nat := 0 -- MODEL: tick of the entry into the state; R159, R938; 0
  lastData : Nat := 0 -- MODEL: tick of the last arrival; Table 4-3; 0
  polBefore : BitVec 5 := 0 -- POL_INV on entry to TRAINING; R171 (04); 0
  supplyOn : Bool := false -- 1; R924 (23); off
  supplyStop : Bool := false -- 1; R978, R756 (04, 17); 0
  latched : Bool := false -- 1; R939 (23); 0
  trips : List Nat := [] -- MODEL: ticks of the counted trips; R939; none
  openLoad : Bool := false -- 1; R937 (23); 0
  restoreDue : Bool := false -- 1; R941 (23); 0
  faultSignal : Bool := false -- 1; R947 (23); 0
  faultPin : Nat := 0 -- 12, connector * 128 + pin of that fault; Table 23-9 (23); 0 DC 4
  faultAt : Nat := 0 -- MODEL: tick at which that fault was last detected; R947; 0
  faulted : Bool := false -- 1, FAULT since the last IDLE or STREAMING; R162 (04); 0
  retries : Nat := 0 -- MODEL: retries made since the entry to FAULT; R938; 0
  boundAt : Nat := 0 -- MODEL: tick of the binding; R978; 0
  count : Word := 0 -- 32 signed; R195 (04); 0 DC 4
  latchedCount : Word := 0 -- 32; R196 (04); 0 DC 4
  prevLatched : Word := 0 -- 32; R212 (05); 0 DC 4
  latchTime : Nat := 0 -- ns; R196 (04); 0 DC 4
  lineA : Bool := false -- 1; R195 (04); 0 DC 4
  lineB : Bool := false -- 1; R195 (04); 0 DC 4
  verifying : Bool := true -- 1; R197 (04); VERIFYING
  standstill : Bool := false -- 1; R197 (04); 0
  lastCountChange : Nat := 0 -- MODEL: tick of the last count change; R197; 0
  verifyAt : Nat := 0 -- MODEL: tick at which the window of R198 began; R198; 0
  verifyLatches : Nat := 0 -- MODEL: latches in that window; R198; 0
  discardSpeed : Bool := false -- 1; R948 (23); 0
  failedBursts : Nat := 0 -- 4; R194 (04); 0
  swapFault : Bool := false -- 1; R949 (23); 0
  lastStamp : Option Nat := none -- MODEL: stamp of the last sample of an external IMU; R213; none
  losses : List (Nat × Nat) := [] -- MODEL: (tick, count) of lost packets or failed bursts in the last second; R191, Table 4-11; none
  lastSeq : Option Word := none -- 32; R191 (04); none
  deriving DecidableEq, Repr

/-- A format slot of a context (R187): kind 0 lidar, 1 CAN, 2 IMU, and its bytes. -/
structure FormatSlot where
  kind : Nat := 0 -- 2; Table 16-5 (16); none
  bytes : List Byte := [] -- bytes; Tables 4-6, 4-10, 16-6 (04, 16); none
  deriving DecidableEq, Repr

/-- One timed lidar point of an open or closed sweep (R187 to R190, R333): its time of validity, its sensor-frame position in metres, and its
intensity, each the field times its SCALE. -/
structure LidarPoint where
  time : Int := 0 -- ns; R189, R190, R333 (04, 08); none
  pos : List Dy := [] -- 3 numbers, m; Tables 4-6, 4-7, 4-9 (04); none
  intensity : Dy := {} -- number; Table 4-7 (04); none
  deriving DecidableEq, Repr

/-- The lidar stream of an Ethernet port. -/
structure LidarS where
  points : List LidarPoint := [] -- points; R344 (08); empty
  firstTick : Option Nat := none -- MODEL: tick of the sweep's first point; R344; none
  latest : List LidarPoint := [] -- latest closed sweep; R345 (08); empty
  taken : Bool := false -- MODEL: its features have been taken; R354; 0
  deriving DecidableEq, Repr

/-- One CAN signal (R203 to R205). -/
structure CanSignal where
  raw : Nat := 0 -- 32; R203 (04); 0 DC 4
  value : Dy := {} -- raw × SCALE + OFFSET; R203 (04); 0 DC 4
  stamp : Nat := 0 -- ns; R121 (03); 0 DC 4
  tick : Nat := 0 -- MODEL: tick of the last valid value; R205; 0
  stale : Bool := false -- 1; R205 (04); 0
  arrived : Bool := false -- 1; R203 (04); 0
  deriving DecidableEq, Repr

/-- The alignment test of a free-running sensor (R372 to R374). -/
structure AlignS where
  anchor : Option Nat := none -- ns; R372 (08); none
  k : Nat := 0 -- count; R372 (08); 0
  last : Nat := 0 -- ns; R372 (08); 0
  devs : List Int := [] -- 16; R372 (08); empty
  unaligned : Bool := false -- 1; R373 (08); 0
  good : Nat := 0 -- 8; R374 (08); 0
  deriving DecidableEq, Repr

/-! ### Filter chain (chapter 5) -/

/-- A coefficient set (Table 5-5). -/
structure CoeffSet where
  taps : Nat := 0 -- 9; Table 5-5 (05); none
  decim : Nat := 1 -- 6; Table 5-5 (05); none
  outShift : Nat := 0 -- 5; Table 5-5 (05); none
  delayNs : Nat := 0 -- 32; Table 5-5 (05); none
  xfade : Nat := 16 -- 9; Table 5-5 (05); none
  coeff : List Int := [] -- 16 each; Table 5-5 (05); none
  preset : Option Nat := none -- 2; R227 (05); none
  deriving DecidableEq, Repr

/-- One output sample of a channel (Table 5-3). -/
structure FilterOut where
  tInput : Nat := 0 -- 64; Table 5-3 (05); none
  groupDelay : Nat := 0 -- 32; Table 5-3 (05); none
  value : Int := 0 -- 24; Table 5-3 (05); none
  index : Word := 0 -- 32; Table 5-3 (05); none
  flags : BitVec 16 := 0 -- 16; Table 5-3 (05); none
  channel : Nat := 0 -- 8; Table 5-3 (05); none
  deriving DecidableEq, Repr

/-- A change of coefficients under way on a channel (R225 to R233). -/
inductive FilterChange where
  | none
  /-- a swap waiting for its first incoming output (R225): a preset's code and its set, none for a FILTER_SWAP -/
  | swapWait (preset : Option (Nat × CoeffSet))
  /-- a cross-fade at output j of X (R226), by the code of the preset -/
  | fading (j x : Nat) (preset : Option Nat)
  /-- a preset waiting for the next input of a channel with no running set (R981) -/
  | startWait (set : CoeffSet) (preset : Nat)
  /-- a rate change waiting for the last old output (R231) -/
  | rateWait (set : CoeffSet) (preset : Nat)
  /-- a rate change whose new outputs are withheld (R232): the time of validity of the last old output -/
  | rateGap (lastValid : Int)
  deriving DecidableEq, Repr

/-- One filter channel F0 to F31. -/
structure ChannelS where
  source : Byte := 0xFF -- 8; Table 5-1 (05); 0xFF
  axis : Nat := 0 -- 4; Table 5-1 (05); 0
  route : Nat := 0 -- 2; Table 5-1 (05); 0
  mode : Nat := 1 -- 3; Table 5-1 (05); 1
  activeB : Bool := false -- 1; Table 5-1 (05); 0
  filling : Bool := true -- 1; Table 5-1 (05); 1
  holder : Option Nat := none -- 3; R209 (05); none
  bySession : Bool := false -- 1; R209 (05); 0
  setA : Option CoeffSet := none -- -; R223 (05); none
  setB : Option CoeffSet := none -- -; R223 (05); none
  running : Bool := false -- 1; R981 (05); 0
  history : List (Int × Bool × Bool) := [] -- 384 samples with SATURATED and INPUT_HELD marks; chapter 5 text (05); empty
  inputs : Nat := 0 -- MODEL: inputs since filling started; R219, R225; 0
  phase : Nat := 0 -- MODEL: inputs since the last output; R216; 0
  change : FilterChange := .none -- -; R228, R233 (05); none
  presetCmd : Option CmdRef := none -- MODEL: the command waiting on the channel; R703, R229; none
  outIndex : Word := 0 -- 32; Table 5-3 (05); 0
  outputs : Nat := 0 -- MODEL: outputs handed on since the session started or the binding; Table 16-8; 0
  lastOut : Option FilterOut := none -- 24 bytes; Table 5-3 (05); none
  lastInput : Int := 0 -- 24; R213 (05); 0 DC 5
  groupDelay : Nat := 0 -- 32; R217 (05); 0 DC 5
  saturated : Nat := 0 -- count; R211, Table 16-8 (05, 16); 0
  satPending : Nat := 0 -- count since the last report; R982 (05); 0
  satLast : Option Nat := none -- MODEL: tick of the last saturation; R982; none
  satReport : Option Nat := none -- MODEL: tick of the last FILTER_SATURATED; R982; none
  hold : Nat := 1600 -- 16; R234 (05); 1,600
  log2W : Nat := 8 -- 4; R234 (05); 8
  envShift : Nat := 6 -- 4; R234 (05); 6
  peakWin : List Nat := [] -- HOLD values; R234 (05); empty
  rmsWin : List Nat := [] -- W values; R234 (05); empty
  env : Nat := 0 -- E, 12 fraction bits; R234 (05); 0
  thrQuantity : Nat := 0 -- 2; R235 (05); 0 DC 5
  thrCount : Nat := 0 -- 8; Table 16-8 (16); 0 (disabled)
  thrUpper : Int := 0 -- 24; R235 (05); 0 DC 5
  thrLower : Int := 0 -- 24; R235 (05); 0 DC 5
  thrBeyond : Nat := 0 -- 8; R235 (05); 0
  thrWithin : Nat := 0 -- 8; R235 (05); 0
  thrArmed : Bool := true -- 1; R236 (05); armed
  thrLast : Option Nat := none -- MODEL: tick of the last FILTER_THRESHOLD; R235; none
  due : Option (Int × Bool × Nat × Bool) := none -- MODEL: sample the source delivered and not yet taken: converted value, saturated, stamp, held; R211; none
  changeNow : Bool := false -- MODEL: a rate change of the source's channels falls on the delivered sample; R231; 0
  deriving DecidableEq, Repr

/-! ### Vision (chapters 6 and 7) -/

/-- A remap grid (Tables 6-2, 6-3). -/
structure Grid where
  srcW : Nat := 0 -- 16; Table 6-2 (06); none
  srcH : Nat := 0 -- 16; Table 6-2 (06); none
  outW : Nat := 0 -- 16; Table 6-2 (06); none
  outH : Nat := 0 -- 16; Table 6-2 (06); none
  version : Word := 0 -- 32; Table 6-2 (06); none
  u16 : Bool := false -- 2; Table 6-2 (06); none
  inShift : Nat := 0 -- 4; Table 6-2 (06); none
  nodes : List (Int × Int) := [] -- 64 each; Table 6-3 (06); none
  noSource : List Nat := [] -- node indexes marked no source; Table 6-3 (06); none
  deriving DecidableEq, Repr

/-- The state of a frame buffer (R181). -/
inductive BufState where
  | free
  | filling
  | ready
  | held
  deriving DecidableEq, Repr

/-- One row of a level: its pixels and its hole plane. -/
structure PixRow where
  px : List Nat := [] -- 8 or 16 each; R258 (06); none
  holes : List Bool := [] -- 1 each; R259 (06); none
  deriving DecidableEq, Repr

/-- A corner of a cell row before selection (R296). -/
structure Corner where
  score : Nat := 0 -- 16; Table 7-3 (07); none
  cell : Nat := 0 -- 16; R294 (07); none
  y : Nat := 0 -- 16; Table 7-3 (07); none
  x : Nat := 0 -- 16; Table 7-3 (07); none
  deriving DecidableEq, Repr

/-- A described corner (R298, R301): direction bin, descriptor and patch. -/
structure DescOut where
  bin : Nat := 0 -- 5; R298 (07); none
  desc : List Byte := [] -- 32 x 8; R299 (07); none
  patch : List Int := [] -- signed 8 bits each; R301 (07); none
  hole : Bool := false -- 1; R301 (07); none
  deriving DecidableEq, Repr

/-- A flow result (Table 7-7). -/
structure FlowRes where
  id : Word := 0 -- 32; Table 7-7 (07); none
  u : Nat := 0 -- 32; Table 7-7 (07); none
  v : Nat := 0 -- 32; Table 7-7 (07); none
  status : Nat := 0 -- 8; Table 7-7 (07); none
  iters : Nat := 0 -- 8; Table 7-7 (07); none
  error : Nat := 0 -- 16; Table 7-7 (07); none
  deriving DecidableEq, Repr

/-- FEAT_CFG (Table 7-2). -/
structure FeatCfg where
  cornerLevel : Nat := 0 -- 8; Table 7-2 (07); 0
  arc : Nat := 9 -- 8; Table 7-2 (07); 9
  cell : Nat := 1 -- 8; Table 7-2 (07); 1
  thresh : Nat := 20 -- 16; Table 7-2 (07); 20
  border : Nat := 18 -- 8; Table 7-2 (07); 18
  descMode : Nat := 1 -- 8; Table 7-2 (07); 1
  patchSize : Nat := 1 -- 8; Table 7-2 (07); 1
  patchFlags : Byte := 3 -- 8; Table 7-2 (07); 0x03
  flowLevels : Nat := 4 -- 8; Table 7-2 (07); 4
  win : Nat := 2 -- 8; Table 7-2 (07); 2
  maxIter : Nat := 8 -- 8; Table 7-2 (07); 8
  gapLimit : Nat := 2 -- 8; Table 7-2 (07); 2
  flowPoints : Nat := 1024 -- 16; Table 7-2 (07); 1,024
  maxErr : Nat := 192 -- 16; Table 7-2 (07); 192
  minEig : Nat := 16 -- 16; Table 7-2 (07); 16
  minSep : Nat := 8 -- 8; Table 7-2 (07); 8
  fbTol : Nat := 0 -- 8; Table 7-2 (07); 0
  maxDisp : Nat := 256 -- 16; Table 7-2 (07); 256
  deriving DecidableEq, Repr

/-- The chain descriptor's written fields (Table 6-6). -/
structure ChainCfg where
  role : Nat := 0 -- 8; Table 6-6 (06); 0
  pair : Nat := 0xFF -- 8; Table 6-6 (06); 0xFF
  remapEn : Bool := true -- 1; Table 6-6 (06); DC 6
  levelMask : Byte := 0x0F -- 6; Table 6-6 (06); DC 6
  next : Byte := 7 -- 3; Table 6-6 (06); DC 6
  deriving DecidableEq, Repr

/-- A disparity image (R277). -/
structure DispImage where
  level : Nat := 0 -- 8; R277 (06); none
  minDisp : Nat := 0 -- 8; R277 (06); none
  numDisp : Nat := 0 -- 8; R277 (06); none
  gridLeft : Word := 0 -- 32; R277 (06); none
  gridRight : Word := 0 -- 32; R277 (06); none
  rows : Tab (List Nat) := [] -- lines of 16-bit values; R277 (06); none
  codes : List Nat := [0, 0, 0, 0, 0] -- 5 x 32; R277 (06); 0
  deriving DecidableEq, Repr

/-- One frame buffer with its companion buffer (R179 to R181, R260, R312). -/
structure FrameBuf where
  state : BufState := .free -- 2; R181 (04); FREE
  order : Nat := 0 -- MODEL: order in which the buffer became FREE, or took its frame; R181, R314; 0
  frame : Nat := 0 -- MODEL: number of the frame in its stream; R303; 0
  tSof : Nat := 0 -- 64; Table 4-5 (04); 0 DC 6
  tEof : Nat := 0 -- 64; Table 4-5 (04); 0 DC 6
  reel : Nat := 0 -- 64; Table 4-5 (04); 0
  frameSet : Word := 0 -- 32; Table 4-5 (04); 0 DC 6
  flags : Byte := 0 -- 8; Table 4-5 (04); 0 DC 6
  hdrErrors : Nat := 0 -- 32; Table 4-5 (04); 0 DC 6
  lines : List (List Nat) := [] -- stored pixels; R180 (04); empty
  strips : List (Nat × Nat) := [] -- MODEL: lines landed with each strip, and its tick; R241; empty
  received : Nat := 0 -- MODEL: received lines before BAYER_BIN; R168, R169; 0
  oddLine : List Nat := [] -- MODEL: received line that waits for the second line of its cell; R168; empty
  embedded : List (List Byte) := [] -- lines; R180 (04); empty
  complete : Bool := false -- MODEL: the Frame End has come; R242; 0
  gridVersion : Word := 0 -- 32; R260 (06); 0 DC 6
  grid : Option Grid := none -- the grid of the whole frame; R252 (06); none
  levels : Tab (Tab PixRow) := [] -- level sets; R255 (06); empty
  levelMask : Byte := 0 -- 6; R260 (06); 0 DC 6
  quota : Option Nat := none -- 13; R294 (07); none latched
  corners : Tab (List Corner) := [] -- per cell row; R296 (07); empty
  descs : Tab DescOut := [] -- per corner; R298, R301 (07); empty
  pairedSet : Word := 0xFFFFFFFF -- 32; R312 (07); 0xFFFF_FFFF
  flow : Tab FlowRes := [] -- results; Table 7-7 (07); empty
  done : Option Word := none -- 32; R312 (07); none
  chain : ChainCfg := {} -- the descriptor in force for the frame; R280 (06); stream's
  feat : FeatCfg := {} -- the FEAT_CFG in force for the frame; R289 (07); stream's
  begun : Bool := false -- MODEL: the first strip has landed; R280; 0
  patchLevel : Option Nat := none -- 2; R300 (07); none latched
  skipped : Bool := false -- features of the frame are not computed; R314 (07); 0
  stereo : Nat := 0 -- MODEL: 0 not started, 1 being matched, 2 ended or not to be matched; R279, R314; 0
  disp : Option DispImage := none -- left stream's companion buffer; R277 (06); none
  flowPair : Option (Option Word) := none -- MODEL: frame set of the paired earlier frame, once flow has started; R303, R312; none
  fabricDone : Bool := false -- the fabric's readers have released the frame; R181 (04); 0
  deriving DecidableEq, Repr

/-- A point-list entry (Table 7-5). -/
structure FlowPt where
  id : Word := 0 -- 32; Table 7-5 (07); none
  u : Nat := 0 -- 32; Table 7-5 (07); none
  v : Nat := 0 -- 32; Table 7-5 (07); none
  predDu : BitVec 16 := 0 -- 16; Table 7-5 (07); none
  predDv : BitVec 16 := 0 -- 16; Table 7-5 (07); none
  hint : Byte := 0 -- 8; Table 7-5 (07); none
  deriving DecidableEq, Repr

/-- One bound stream (R174 to R182, R280, R289). -/
structure StreamS where
  ctx : Nat := 0 -- 3; R174 (04); none
  port : Nat := 0 -- 8; R174 (04); none
  vc : Nat := 0 -- 2; R166 (04); none
  role : Nat := 0 -- 2; Table 16-4 (16); 0
  pair : Nat := 0xFF -- 8; Table 16-4 (16); 0xFF
  width : Nat := 64 -- 16; R174 (04); none
  height : Nat := 64 -- 16; R174 (04); none
  dataType : Byte := 0x2A -- 8; R167 (04); none
  divisor : Nat := 1 -- 8; Table 16-4 (16); none
  binned : Bool := false -- 1; R168 (04); 0
  keepEmbedded : Bool := false -- 1; R180 (04); 0
  master : Bool := false -- 1; Table 16-4 (16); 0
  entry : Option Nat := none -- Reel entry of the camera; R702 (16); none
  bufs : Tab FrameBuf := [] -- BUFFERS; R179 (04); FREE
  nbufs : Nat := 4 -- 4; R179 (04); 4
  cur : Option Nat := none -- buffer being filled; R181 (04); none
  grid : Option Grid := none -- active grid slot; R251 (06); none
  shadow : Option (Grid × Nat) := none -- shadow slot and its commit time; R251 (06); none
  chain : ChainCfg := {} -- -; R280 (06); profile's
  chainNext : Option ChainCfg := none -- written, waiting for the next frame; R280 (06); none
  feat : FeatCfg := {} -- -; R289 (07); Table 7-2 defaults
  featNext : Option FeatCfg := none -- written, waiting for the next frame; R289 (07); none
  points : List FlowPt := [] -- closed point list; R304 (07); empty
  pointsSet : Option Word := none -- frame set of the closed point list; R303 (07); none
  prevBuf : Option Nat := none -- buffer of the paired earlier frame; R303 (07); none
  flowId : Word := 0 -- 32; R305 (07); 0 DC 6
  frames : Nat := 0 -- MODEL: frames of the stream started; R303, Table 7-12; 0
  pointsFrame : Nat := 0 -- MODEL: number of the frame whose point list closed last; R303, Table 7-12; 0
  clock : Nat := 0 -- MODEL: counts buffer changes; R181; 0
  dropEvents : Nat := 0 -- count of dropped frames; R169 (04); 0
  deriving DecidableEq, Repr

/-- STEREO_CFG of one pair (Table 6-4) and its matching. -/
structure PairCfg where
  ctx : Nat := 0 -- 3; R262 (06); none
  left : Nat := 0 -- 8; Table 6-4 (06); none
  right : Nat := 0 -- 8; Table 6-4 (06); none
  minDisp : Nat := 0 -- 8; Table 6-4 (06); 0
  numDisp : Nat := 3 -- 8; Table 6-4 (06); 3
  p1 : Nat := 8 -- 8; Table 6-4 (06); 8
  p2 : Nat := 96 -- 8; Table 6-4 (06); 96
  adaptShift : Nat := 0xFF -- 8; Table 6-4 (06); 0xFF
  uniq : Nat := 10 -- 8; Table 6-4 (06); 10
  texThresh : Nat := 4 -- 8; Table 6-4 (06); 4
  lrTol : Nat := 1 -- 8; Table 6-4 (06); 1
  flags : Byte := 0 -- 8; Table 6-4 (06); 0x00
  level : Nat := 1 -- 8; R263 (06); starting level
  satLevel : Nat := 255 -- 16; Table 6-4 (06); largest of OUT_FORMAT
  next : List Byte := [] -- written block waiting for the next frame set; R262 (06); none
  frameSet : Option Word := none -- frame set being matched; R279 (06); none
  deriving DecidableEq, Repr

/-- One engine (kind, number) outside its pool or retired (R318 to R320, R818, R819). Key: kind * 16 + number. -/
structure EngineS where
  out : Bool := false -- 1; R318 (07); in the pool
  retired : Bool := false -- 1; R320 (07); 0
  lastFail : Option Nat := none -- MODEL: tick of the last check failure; R320; none
  deriving DecidableEq, Repr

/-- A Quadrille graph node (Table 7-11). -/
structure QNode where
  kind : Nat := 0 -- 4; Table 7-11 (07); none
  inst : Byte := 0xFF -- 8; Table 7-11 (07); none
  pred : List Byte := [] -- 4 x 8; Table 7-11 (07); none
  check : Bool := false -- 1; Table 7-11 (07); none
  stopOnFail : Bool := false -- 1; Table 7-11 (07); none
  inAddr : Nat := 0 -- 64; Table 7-11 (07); none
  outAddr : Nat := 0 -- 64; Table 7-11 (07); none
  cfgOffset : Nat := 0 -- 16; Table 7-11 (07); none
  crc : Word := 0 -- 32; Table 7-11 (07); none
  deriving DecidableEq, Repr

/-- Quadrille (R321 to R325). -/
structure QuadrilleS where
  slots : Tab (List QNode) := [] -- slots 8 to 15; chapter 7 text (07); empty
  running : Option (Nat × CmdRef) := none -- slot and command; R325 (07); none
  results : Tab Nat := [] -- per node: 1 passed, 2 CRC, 3 check; R322 (07); empty
  mem : Tab Byte := [] -- outputs of nodes in context 0's reservation; Table 7-11 (07); undefined until written DC 6
  deriving DecidableEq, Repr

/-! ### Fusion and sessions (chapters 2 and 8) -/

/-- A sensor entry (Table 8-2). -/
structure SensorEntry where
  port : Byte := 0 -- 8; Table 8-2 (08); none
  index : Byte := 0 -- 8; Table 8-2 (08); none
  flags : Byte := 0 -- 8; Table 8-2 (08); none
  origin : Byte := 0 -- 8; Table 8-2 (08); none
  position : List Word := [0, 0, 0] -- 3 x 32; Table 8-2 (08); none
  rotation : List Word := [0x3F800000, 0, 0, 0] -- 4 x 32; Table 8-2 (08); none
  params : List Word := [0, 0, 0, 0] -- 4 x 32; Table 8-2 (08); none
  timeOffset : Word := 0 -- 32 signed; Table 8-2 (08); none
  lineTime : Word := 0 -- 32; Table 8-2 (08); none
  nominal : Word := 0 -- 32; Table 8-2 (08); none
  deriving DecidableEq, Repr

/-- A record of the calibration store: 64 bytes and the device time written (R837). -/
structure CalibRec where
  bytes : List Byte := [] -- 64 x 8; Tables 8-2, 20-5, 20-6 (08, 20); none
  time : BitVec 64 := 0 -- 64; R837 (20); none
  effective : Nat := 0 -- MODEL: device time from which an IMU0 record applies; R846; 0
  deriving DecidableEq, Repr

/-- FUSION_CONFIG (Table 8-6). -/
structure FusionCfg where
  retro : Nat := 200 -- 16; Table 8-6 (08); 200
  gate : Nat := 921 -- 16; Table 8-6 (08); 921
  newCost : Nat := 320 -- 16; Table 8-6 (08); 320
  descWeight : Nat := 8 -- 8; Table 8-6 (08); 8
  geoWeight : Nat := 4 -- 8; Table 8-6 (08); 4
  huber : Nat := 134 -- 16; Table 8-6 (08); 134
  outlier : Nat := 599 -- 16; Table 8-6 (08); 599
  objConfirm : Nat := 3 -- 8; Table 8-6 (08); 3
  objCoast : Nat := 10 -- 8; Table 8-6 (08); 10
  alignSamples : Nat := 32 -- 8; Table 8-6 (08); 32
  flags : Byte := 3 -- 8; Table 8-6 (08); 0x03
  applyPeriod : Nat := 10 -- 16; Table 8-6 (08); 10
  refinePos : Nat := 2 -- 16; Table 8-6 (08); 2
  refineRot : Nat := 10 -- 16; Table 8-6 (08); 10
  wheelGate : Nat := 1083 -- 16; Table 8-6 (08); 1,083
  lidarRadius : Nat := 2 -- 8; Table 8-6 (08); 2
  dispSigma : Nat := 16 -- 8; Table 8-6 (08); 16
  deriving DecidableEq, Repr

/-- An output ring (R82 to R88). -/
structure Ring where
  base : Nat := 0 -- 64; R83 (02); none
  log2 : Nat := 16 -- 5; R83 (02); none
  seq : Word := 0 -- 32; R87 (02); 0
  cell : Nat := 1 -- next free cell; R84 (02); 1
  lastSeq : Word := 0 -- SEQ of the last record; Table 16-3 (16); 0 DC 7
  deriving DecidableEq, Repr

/-- A moving object (R359 to R362). -/
structure ObjTrack where
  obs : ObjectObs := {} -- 48 bytes; Table 2-11 (02); none
  state : Nat := 0 -- 8; Table 2-11 (02); 0 tentative
  sets : Nat := 0 -- frame sets with 6 supporting features; R360 (08); 0
  coast : Nat := 0 -- frame sets of coasting; R360 (08); 0
  frames : Nat := 0 -- frames tracked; Table 2-11 (02); 0
  deriving DecidableEq, Repr

/-- What stands in for an IMU axis in a span without a usable output (R338). -/
inductive Bridge where
  /-- the same axis of another IMU, with the row of the rotation that carries it through both entries, over its denominator -/
  | imu (port : Nat) (row : List Dy) (den : Dy)
  /-- wheel and CAN speeds, for the forward axis: the sensor keys -/
  | speeds (keys : List Nat)
  /-- the axis's last usable output, with its noise density times 100 -/
  | held (value : Int)
  deriving DecidableEq, Repr

/-- One missing span of a fused IMU axis (R338). -/
structure BridgedSpan where
  port : Nat := 0 -- 8; R338 (08); none
  axis : Nat := 0 -- 3; R338 (08); none
  from_ : Int := 0 -- ns; R338 (08); none
  to_ : Int := 0 -- ns; R338 (08); none
  how : Bridge := .held 0 -- R338 (08); none
  deriving DecidableEq, Repr

/-- One step of a preintegration (R336): the time of validity of a gyroscope x output, and the six axes at that time as quotients of integers;
an axis whose span is bridged holds none. -/
structure ImuStep where
  port : Nat := 0 -- 8; R336 (08); none
  time : Int := 0 -- ns; R336 (08); none
  axes : List (Option (Int × Int)) := [] -- 6 quotients in the unit of R211; R336 (08); none
  deriving DecidableEq, Repr

/-- A factor of the window beside reprojection and preintegration (R341, R343, R354, R355). -/
inductive Factor where
  /-- velocity at a sensor's POSITION along its rolling direction: key, time, value in m/s, position, rotation, σ word -/
  | velocity (key : Nat) (time : Int) (value : Dy) (position rotation : List Word) (sigma : Word)
  /-- yaw rate: key, time, value -/
  | yawRate (key : Nat) (time : Int) (value : Dy)
  /-- yaw rate from a steering angle and the wheelbase -/
  | steering (key : Nat) (time : Int) (angle wheelbase : Dy)
  | zeroVelocity
  /-- lateral and vertical velocity held near zero at a position -/
  | nonHolonomic (position : List Word)
  /-- a lidar feature and its nearest neighbour in the submap: point to plane, or point to line -/
  | lidar (plane : Bool) (feature neighbour : List Int)
  /-- the extrinsic prior of a refined sensor: its key and its entry's pose -/
  | extrinsic (key : Nat) (position rotation : List Word)
  /-- the prior left by marginalisation -/
  | marginal
  deriving DecidableEq, Repr

/-- A factor with the standard deviation of its stamp (R334), in units of 0.1 ns; 0 where the factor has no stamp of its own. -/
structure StampedFactor where
  factor : Factor := .marginal -- R355 (08); none
  stampSd : Nat := 0 -- 0.1 ns: 12 hardware, 115,000 firmware; R334 (08); none
  deriving DecidableEq, Repr

/-- What a window optimisation solves, fixed at its start (R334 to R343, R354 to R357, R394). -/
structure WindowProblem where
  length : Nat := 0 -- keyframes: the work level latched; R62, R355 (01, 08); none
  landmarks : List Word := [] -- 30,000 at most; R356, R394 (08, 09); none
  imu : List ImuStep := [] -- R336 (08); none
  bridges : List BridgedSpan := [] -- R338 (08); none
  factors : List StampedFactor := [] -- R355 (08); none
  huber : Nat := 134 -- × 0.01; R357 (08); the session's
  outlier : Nat := 599 -- × 0.01; R357 (08); the session's
  deriving DecidableEq, Repr

/-- The depth of a corner (R347): in units of 2^-20 m, and what it comes from. -/
structure CornerDepth where
  depth : Nat := 0 -- 2^-20 m; R347 (08); none
  lidar : Bool := false -- 1; R345 (08); none
  stereo : Bool := false -- 1; R346 (08); none
  deriving DecidableEq, Repr

/-- One frame set of a session. -/
structure FrameSet where
  instant : Nat := 0 -- Reel instant, ns; R151 (03); none
  valid : Int := 0 -- T_VALID of its records, ns; Table 8-4 (08); none
  expected : List Nat := [] -- streams expected in the set; R74, R375 (02, 08); none
  readoutEnd : Nat := 0 -- latest expected end of readout, ns; R74 (02); none
  contrib : List Nat := [] -- streams that contributed; R43, Table 2-10 (01, 02); none
  depths : Tab CornerDepth := [] -- key stream * 65536 + corner; R347 (08); none
  learnedDesc : Bool := false -- 1, the descriptor stage ran learned; R350 (08); none
  problem : WindowProblem := {} -- R355 (08); none
  oldest : Int := 0 -- oldest contribution, ns; R335 (08); none
  landed : List Nat := [] -- streams whose readout ended; R74 (02); none
  closed : Option Nat := none -- latency start: device time of the close; R36, R75 (01, 02); none
  partialIn : Bool := false -- 1; R75 (02); 0
  assoc : Tab (List (Word × Nat)) := [] -- per stream: landmark and corner; R351, R353 (08); none
  classical : Bool := false -- 1; R102 (02); 0
  started : Bool := false -- MODEL: its optimisation has started; R368; 0
  published : Option WindowState := none -- R500 (11); none
  kfId : Word := 0xFFFFFFFF -- 32; Table 2-10 (02); none
  mapGen : Word := 0 -- 32; Table 9-6 (09); none
  tracks : List TrackEntry := [] -- R95 (02); none
  revised : Bool := false -- 1; R369 (08); 0
  covered : Bool := false -- 1; R797 (19); 0
  committed : Bool := false -- 1; R55 (01); 0
  abandoned : Bool := false -- 1; R73 (02); 0
  deriving DecidableEq, Repr

/-- What a sample of fusion carries (Table 8-3). -/
inductive SampleData where
  /-- an output of an IMU axis, and whether it is usable (R337) -/
  | imu (axis : Nat) (value : Int) (usable : Bool)
  /-- an encoder speed, in the unit of R211 -/
  | wheel (value : Int)
  /-- a CAN signal: KIND, value, and whether it carries a sign -/
  | can (kind : Nat) (value : Dy) (signed : Bool)
  | sweep
  deriving DecidableEq, Repr

/-- A sample handed to fusion and not yet in an optimisation (R367, R368). -/
structure FusionSample where
  valid : Int := 0 -- ns; R367 (08); none
  handed : Nat := 0 -- ns; R367 (08); none
  late : Bool := false -- 1; R367 (08); none
  key : Nat := 0 -- 16, sensor; R327 (08); none
  firmware : Bool := false -- 1, firmware stamp; R334 (08); none
  data : SampleData := .sweep -- Table 8-3 (08); none
  deriving DecidableEq, Repr

/-- A feature track of a session (R103, R353, R359, R361). -/
structure TrackS where
  landmark : Word := 0xFFFFFFFF -- 32; Table 2-11 (02); none
  stream : Nat := 0 -- 5; Table 2-11 (02); none
  flow : Option Word := none -- 32, FLOW_ID of its point; R305, R348 (07, 08); none
  frames : Nat := 0 -- 16; Table 2-11 (02); 0
  hasDepth : Bool := false -- 1; R359 (08); 0
  parallax : Nat := 0 -- greatest parallax of two views, 0.01°; R353 (08); 0
  beyond : Nat := 0 -- consecutive frame sets beyond OUTLIER_CHI2; R359 (08); 0
  object : Option Word := none -- object that the track is a feature of; R361 (08); none
  classical : Bool := false -- 1, begun on classical descriptors; R103 (02); 0
  deriving DecidableEq, Repr

/-- A feature of the window's local lidar submap (R354). -/
structure SubmapPoint where
  valid : Int := 0 -- ns, time of validity of its sweep; R354 (08); none
  feature : LidarFeature := {} -- R354 (08); none
  deriving DecidableEq, Repr

/-- A mapping session of a context. -/
structure SessionS where
  number : BitVec 16 := 0 -- 16; Table 2-6 (02); none
  profile : Nat := 0 -- index into Table 2-1; R68 (02); none
  stopping : Bool := false -- 1; Table 16-3 (16); 0
  stopCmds : List CmdRef := [] -- MODEL: the STOP_SESSION commands that wait; R73; none
  stopped : Bool := false -- MODEL: the stop has committed, and its records are still on their way; R73; 0
  map : Nat := 0 -- 4; R382 (09); none
  region : Byte := 0 -- 8; Table 10-4 (10); 0
  rate : Nat := 3000 -- 16, 0.01 Hz; Table 16-3 (16); none
  periodNs : Nat := 0 -- P of R702 (16); none
  healthMs : Nat := 100 -- 14; R99 (02); 100
  healthLast : Nat := 0 -- MODEL: tick of the last periodic HEALTH record; R99; 0
  nprobe : Nat := 32 -- 11; Table 16-3 (16); 32
  rings : List Ring := [] -- 4; R82 (02); none
  streams : List Nat := [] -- stream numbers in order of binding; R174 (04); none
  ports : List Nat := [] -- bound ports; R159 (04); none
  bindings : List (List Byte) := [] -- 16 bytes each; Table 16-4 (16); none
  bands : List Nat := [] -- R71 (02); none
  channels : List Nat := [] -- R208 (05); none
  entries : List Nat := [] -- Reel entries; R702 (16); none
  masterEntry : Option Nat := none -- FRAME_MASTER entry; R151 (03); none
  classicalMask : BitVec 3 := 0 -- ordered by SET_STAGE_MODE; R100, R101 (02); 0
  unavailable : BitVec 3 := 0 -- stages whose weights are WEIGHTS_UNAVAILABLE; R100 (02); 0
  descLearned : Bool := true -- learned descriptors in use; R103 (02); 1
  levels : List Nat := [1, 8, 1, 12, 2, 10, 32] -- level per stage code; Tables 2-2, 17-4 (02, 17); starting levels
  ceilings : List Nat := [1, 8, 1, 12, 2, 10, 32] -- R736 (17); starting levels
  lowStereo : Nat := 0 -- R283 (06); none
  kCorr : Nat := 65536 -- k, in 1/65536; R734 (17); 1.0
  loweredAgo : Nat := 100 -- MODEL: intervals since the session lowered a level, 100 at most; R735; 100
  predMw : Nat := 0 -- the planner's prediction for the interval under way, mW; R734 (17); 0
  fusion : FusionCfg := {} -- R376 (08); defaults
  fusionNext : Option FusionCfg := none -- waits for the next association; R376 (08); none
  sets : Tab FrameSet := [] -- frame sets not yet committed; R74 (02); none
  nextSet : Nat := 0 -- MODEL: pulses of the FRAME_MASTER entry since START_SESSION; R151; 0
  setsClosed : Nat := 0 -- 32; Table 16-3 (16); 0
  optValid : Option Int := none -- T_VALID of the latest POSE_OPT, ns; R367 (08); none
  optState : Option WindowState := none -- latest optimised state; R38 (01); none
  optGen : Word := 0 -- 32, map generation of that state; R798 (19); 0 DC 7
  optStateValid : Int := 0 -- its T_VALID; Table 8-4 (08); 0 DC 7
  optClassical : Bool := false -- 1, that state had a classical stand-in; R102 (02); 0
  newMap : Bool := false -- 1, the map is new: W is fixed by the first POSE_OPT; R330 (08); 0
  samples : List FusionSample := [] -- handed over, waiting for an optimisation; R368 (08); none
  imuRecent : List FusionSample := [] -- MODEL: IMU outputs of the latest optimisation, the interpolation's neighbours; R336; none
  windowLms : List Word := [] -- active landmarks of the window; R356, R394 (08, 09); none
  tracks : Tab TrackS := [] -- by TRACK_ID; R353, R359 (08); none
  submap : List SubmapPoint := [] -- R354 (08); empty
  lidarDue : List StampedFactor := [] -- lidar features that wait for an optimisation; R354 (08); none
  loopLast : Option Nat := none -- MODEL: tick of the last loop-closure query; R77; none
  weights : List (Nat × Bool) := [] -- objects claimed and pinned at the start, and whether the claim is the session's own; R622 (14); none
  windowOldest : Option Int := none -- oldest state of the window, ns; R368 (08); none
  lateDropped : Nat := 0 -- 32; Table 2-13 (02); 0
  revised : Nat := 0 -- 32; Table 2-13 (02); 0
  fastOut : Nat := 0 -- MODEL: IMU0 filter outputs since the session started; R81; 0
  fastDue : List (Nat × Int × Nat) := [] -- MODEL: IMU0 output indexes whose POSE_FAST is due, their times of validity and sample times; R81, R37; none
  gaps : List (Int × Int × Bool) := [] -- MODEL: rate-change gaps of fused channels, and whether of IMU0; R339; none
  worstLatency : Nat := 0 -- 32 ns; Table 2-13 (02); 0
  retriesSeen : Nat := 0 -- lane step retries up to the last HEALTH record; R591 (13); those at the start
  linkDropped : Nat := 0 -- 32; R92 (02); 0
  objects : List ObjTrack := [] -- R360 (08); none
  lastKf : Word := 0xFFFFFFFF -- 32; Table 9-3 (09); none
  activeKfs : List Word := [] -- keyframes of the active window; R355, R393 (08, 09); none
  kfTimes : List Int := [] -- MODEL: T_VALID of those keyframes, ns; R368; none
  refinedAt : Tab Nat := [] -- MODEL: tick of the last application per sensor key; R364; none
  slipSince : Tab Nat := [] -- MODEL: twice the tick since which a wheel stays excluded, one more once WHEEL_SLIP is raised; R342; none
  deltaGen : Word := 0 -- GEN_TO of the last MAP_DELTA; R402 (09); generation at start
  loopCand : List (Word × Word) := [] -- (KF_QUERY, KF_MATCH) candidates waiting; R457 (10); none
  coveredCount : Nat := 0 -- frame sets covered since the last event; Table 19-6 (19); 0
  coveredLast : Option Nat := none -- MODEL: tick of the last POSE_COVERED; R799; none
  unaligned : List Nat := [] -- keys port * 256 + index of UNALIGNED sensors; R375 (08); none
  withdrawn : Bool := false -- 1; R407 (09); 0
  truncated : Tab Nat := [] -- MODEL: tick of the last ASSOC_TRUNCATED per stream; R352; none
  deriving DecidableEq, Repr

/-- A record held while the host link is down (R92). -/
structure HeldRec where
  ctx : Nat := 0 -- 3; R92 (02); none
  ring : Nat := 0 -- 2; R92 (02); none
  tick : Nat := 0 -- MODEL: tick at which it was held; R92; none
  start : Option Nat := none -- MODEL: latency start of a POSE_OPT; R36; none
  bytes : List Byte := [] -- R92 (02); none
  deriving DecidableEq, Repr

/-! ### Map store and search (chapters 9 and 10) -/

/-- A feature block (Table 9-5) and where it lies (R415). -/
structure FeatBlock where
  bytes : List Byte := [] -- Table 9-5 (09); none
  inHost : Bool := false -- 1; R612 (14); 0
  lastRead : Nat := 0 -- MODEL: order of last read; R415; 0
  deriving DecidableEq, Repr

/-- One entry of an inverted list (Table 10-3). -/
structure VecEntry where
  vecId : Word := 0 -- 32; Table 10-3 (10); none
  genBorn : Word := 0 -- 32; Table 10-3 (10); none
  genDead : Word := 0xFFFFFFFF -- 32; Table 10-3 (10); none
  kf : Word := 0 -- 32; Table 10-3 (10); none
  tag : BitVec 64 := 0 -- 64; Table 10-4 (10); none
  code : List Byte := [] -- M; Table 10-3 (10); none
  deriving DecidableEq, Repr

/-- A place-recognition index (Table 10-1). -/
structure IndexS where
  metric : Nat := 0 -- 8; Table 10-1 (10); none
  m : Nat := 64 -- 8; Table 10-1 (10); 64
  d : Nat := 256 -- 16; Table 10-1 (10); none
  nlist : Nat := 256 -- 32; Table 10-1 (10); none
  cap : Nat := 0 -- 32; Table 10-1 (10); none
  codebookId : BitVec 64 := 0 -- 64; Table 10-1 (10); none
  centroids : List (BitVec 16) := [] -- NLIST x D; R429 (10); none
  codebooks : List (BitVec 16) := [] -- M x 256 x D/M; R429 (10); none
  lists : Tab (List VecEntry) := [] -- inverted lists; R431 (10); empty
  retired : List (Nat × Nat) := [] -- (list, page) retired; R455 (10); none
  nextVec : Word := 0 -- 32; R432 (10); 0 DC 8
  deriving DecidableEq, Repr

/-- Who holds a snapshot (Table 9-6). -/
inductive SnapHolder where
  | command (c : CmdRef)
  | query (q : Nat)
  | stage (ctx n : Nat)
  deriving DecidableEq, Repr

/-- An open snapshot (R390). -/
structure Snapshot where
  gen : Word := 0 -- 32; R390 (09); none
  holder : SnapHolder := .stage 0 0 -- -; Table 9-6 (09); none
  seq : Nat := 0 -- MODEL: order of opening; R397; none
  deriving DecidableEq, Repr

/-- The IDs that one commit changed (R96, R401). -/
structure CommitLog where
  gen : Word := 0 -- 32; R401 (09); none
  lmAdd : List Word := [] -- R96 (02); none
  lmUpd : List Word := [] -- R96 (02); none
  lmDel : List Word := [] -- R96 (02); none
  kfAdd : List Word := [] -- R96 (02); none
  kfDel : List Word := [] -- R96 (02); none
  edgeAdd : List Word := [] -- R96 (02); none
  valid : Option Nat := none -- T_VALID of the frame set that ordered it; Table 8-4 (08); none
  classical : Bool := false -- 1, a frame set with a classical stand-in ordered it; R102 (02); 0
  deriving DecidableEq, Repr

/-- What a queued item asks of the commit that carries it. -/
inductive QueuedOp where
  | change (c : MapChange)
  /-- SEARCH_INSERT: a vector for a keyframe (R434) -/
  | vector (kf : Word) (kind : Nat) (tag : BitVec 64) (vec : List Word)
  /-- a keyframe's vector is gone (INDEX_DESTROY, R455) -/
  | dropVector (kf : Word) (kind : Nat)
  /-- a keyframe's feature block is discarded (R417) -/
  | discard (kf : Word)
  /-- a verified loop's correction (R395) -/
  | correct (ctx : Nat) (kfQuery kfMatch : Word) (v : LoopVerdict)
  /-- MAP_MERGE: source map, its generation, T_WT_WS and the host's pairs (R408, R410) -/
  | merge (source : Nat) (gen : Word) (t : List Word) (pairs : List Edge)
  deriving DecidableEq, Repr

/-- Who sent an item to the sequencer. -/
inductive ChangeOrigin where
  | pipeline (ctx : Nat)
  | command (c : CmdRef) (item : Nat)
  | internal
  deriving DecidableEq, Repr

/-- An item that waits for the next commit (R387). -/
structure QueuedChange where
  op : QueuedOp := .discard 0 -- R386 (09); none
  origin : ChangeOrigin := .internal -- R707 (16); none
  valid : Option Nat := none -- T_VALID of the frame set that ordered it; Table 8-4 (08); none
  classical : Bool := false -- 1, that frame set had a classical stand-in; R102 (02); 0
  deriving DecidableEq, Repr

/-- One map (R378 to R407). -/
structure MapS where
  owner : Nat := 0 -- 3; R378 (09); none
  lmCap : Nat := 0 -- R379 (09); none
  kfCap : Nat := 0 -- R379 (09); none
  edgeCap : Nat := 0 -- R379 (09); none
  featPool : Nat := 0 -- bytes; R379 (09); none
  headroom : Nat := 25 -- 7, in 0.25 %; R381 (09); 25
  gen : Word := 0 -- 32; R388 (09); 0
  lms : List Landmark := [] -- versions; R381 (09); empty
  kfs : List Keyframe := [] -- versions; R381 (09); empty
  edges : List Edge := [] -- versions; R381 (09); empty
  feats : Tab FeatBlock := [] -- by KF_ID; R414 (09); empty
  nextLm : Word := 0 -- 32; R383 (09); 0 DC 8
  nextKf : Word := 0 -- 32; R383 (09); 0 DC 8
  nextEdge : Word := 0 -- 32; R383 (09); 0 DC 8
  lent : Byte := 0 -- 8; R404 (09); none
  snaps : List Snapshot := [] -- R390 (09); none
  snapSeq : Nat := 0 -- MODEL: snapshots opened so far; R397; 0
  queue : List QueuedChange := [] -- R387 (09); empty
  lastCommit : Option Nat := none -- MODEL: tick of the last commit's start; R387; none
  log : List CommitLog := [] -- R401 (09); empty
  indexes : Tab IndexS := [] -- by KIND; R424 (10); none
  withdrawn : Bool := false -- 1; R407 (09); 0
  readClock : Nat := 0 -- MODEL: counts feature-block reads; R415; 0
  discarded : Nat := 0 -- count since the last event; Table 9-12 (09); 0
  dropped : Nat := 0 -- count since the last event; Table 9-12 (09); 0
  sweepDue : Word := 0 -- MODEL: generation of the last sweep pass; R400; 0
  gravity : Bool := true -- 1, z of W against gravity; Table 9-7, R330 (09, 08); 1 DC 8
  deriving DecidableEq, Repr

/-- One TAG filter term (Table 10-5): TAG and mask and value, and the sense. -/
structure TagTerm where
  mask : BitVec 64 := 0 -- 64; Table 10-5 (10); none
  lo : BitVec 64 := 0 -- 64; Table 10-5 (10); none
  hi : BitVec 64 := 0 -- 64; Table 10-5 (10); none
  range : Bool := false -- 1; Table 10-5 (10); none
  deriving DecidableEq, Repr

/-- One query of the search engine (R440 to R448). -/
structure QueryS where
  ctx : Nat := 0 -- 3; R453 (10); none
  cmd : Option CmdRef := none -- the SEARCH_QUERY, none for a loop-closure query; R456 (10); none
  kf : Word := 0xFFFFFFFF -- the query keyframe of a loop-closure query; R456 (10); none
  map : Nat := 0 -- 4; Table 10-5 (10); none
  kind : Nat := 0 -- 1; Table 10-5 (10); none
  k : Nat := 8 -- 16; Table 10-5 (10); 8
  nprobe : Nat := 32 -- 16; Table 10-5 (10); 32
  widen : Bool := false -- 1; Table 10-5 (10); 0
  limit : Nat := 32 -- 16; Table 10-5 (10); NPROBE
  overfetch : Nat := 4 -- 8; Table 10-5 (10); 4
  terms : List TagTerm := [] -- Table 10-5 (10); none
  vector : List Word := [] -- binary32; R441 (10); none
  gen : Option Word := none -- snapshot; R437 (10); none before its start
  order : List Nat := [] -- lists by ascending coarse distance; R441 (10); none
  scanned : Nat := 0 -- lists scanned; R445 (10); 0
  passes : Nat := 0 -- 4; R447 (10); 0
  passCands : List (Word × VecEntry) := [] -- candidates of the pass (distance, entry); R444 (10); none
  survivors : List (Word × VecEntry) := [] -- R446 (10); none
  skipped : Bool := false -- 1; R447, R455 (10); 0
  scanning : Bool := false -- 1; R448 (10); 0
  aborting : Bool := false -- 1; R708 (16); 0
  deriving DecidableEq, Repr

/-! ### Fabric (chapters 11 to 13) -/

/-- A long accumulator of one lane (R572 to R580). -/
structure LongAcc where
  n : BitVec 256 := 0 -- 256; R572 (13); 0 DC 9
  anchor : Int := 0 -- 9; R573 (13); 0 DC 9
  nonfinite : Bool := false -- 1; Table 13-6 (13); 0 DC 9
  addsFull : Bool := false -- 1; Table 13-6 (13); 0 DC 9
  high : Nat := 0 -- 15; Table 13-6 (13); 0 DC 9
  low : Nat := 0 -- 15; Table 13-6 (13); 0 DC 9
  adds : Nat := 0 -- 32; R577 (13); 0 DC 9
  deriving DecidableEq, Repr

/-- One physical tile (Tables 11-2, 11-3, 11-5, 12-17). -/
structure TileS where
  state : Nat := 0 -- 2; Table 11-5 (11); R905 at each main-side start; 0 DC 9
  band : Option Nat := none -- 4; Table 11-5 (11); none
  logical : Nat := 0 -- 6; Table 11-5 (11); 0
  retired : List Nat := [] -- RET_A, RET_B; Table 11-2 (11); none DC 9 (fuses)
  retry : Nat := 0 -- 14; Table 11-2 (11); 0
  epoch : Nat := 0 -- MODEL: admission that last took the tile; R482, R526; 0
  slice : Nat := 0 -- MODEL: number of the slice loaded; R550; 0
  v : Tab Word := [] -- 64 x 64 x 32, key reg * 64 + lane; Table 11-3 (11); undefined (R526)
  s : Tab Word := [] -- 32 x 32; Table 11-3 (11); 0 (R526)
  p : Tab (BitVec 64) := [] -- 8 x 64; Table 11-3 (11); 0 (R526)
  acc : Tab Word := [] -- 8 x 64 x 64 x 32, key bank * 4096 + entry * 64 + lane; Table 11-3 (11); undefined (R526)
  la : Tab LongAcc := [] -- 4 x 64, key index * 64 + lane; Table 11-3 (11); undefined (R581)
  weights : Tab (List Word) := [] -- 256 rows of 64 words; Table 11-3 (11); undefined (R526)
  rows : Tab (List Word) := [] -- 8,192 rows of 64 words; Table 11-3 (11); 0 (R903), undefined when taken by an admission (R482)
  undef : Bool := false -- MODEL: unlisted rows are undefined (R482) and not cleared (R903); 0
  restored : Bool := false -- MODEL: unlisted S and P registers are what a checkpoint restored, not 0; R793; 0
  flags : Tab Nat := [] -- 16 move flags; R542 (12); 0 (R526)
  arith : BitVec 5 := 0 -- 5; Table 12-17 (12); 0
  sig : BitVec 64 := 0 -- 64; R501 (11); 0 DC 9
  deriving DecidableEq, Repr

/-- What a write does when it lands (R507, R511). -/
inductive LandAct where
  | vreg (tile reg lane : Nat) (x : Word)
  | sreg (tile reg : Nat) (x : Word)
  | preg (tile reg : Nat) (mask bits : BitVec 64)
  | accSet (tile bank entry lane : Nat) (x : Word)
  | accInt (tile bank entry lane : Nat) (zeroFirst : Bool) (sum : Int)
  | accFloat (tile bank entry lane : Nat) (zeroFirst : Bool) (dot : FVal) (invalid : Bool)
  | laMac (tile index lane : Nat) (zeroFirst : Bool) (products : List (FVal × Bool))
  | laInit (tile index lane : Nat) (anchor : Int)
  | wrow (tile row : Nat) (x : List Word)
  | rowWrite (tile row : Nat) (mask : BitVec 64) (x : List Word)
  | arrival (tile row : Nat) (x : List Word)
  | commons (logical row : Nat) (x : List Word)
  | flag (tile : Nat) (bits : Nat)
  | sign (tile row : Nat) (x : List Word)
  | flagClear (tile : Nat)
  deriving DecidableEq, Repr

/-- A write in flight (R507, R511, R512). -/
structure InFlight where
  land : Nat := 0 -- landing step; R507 (12); none
  slot : Nat := 0 -- order of R511: S 0, M 1, V 2, G 3, L0 4, L1 5, arrivals 6; none
  issue : Nat := 0 -- issue step; R512 (12); none
  act : LandAct := .flagClear 0 -- R507 (12); none
  deriving DecidableEq, Repr

/-- A move in flight (R541 to R545). -/
structure MoveS where
  tile : Nat := 0 -- logical tile; R542 (12); none
  flag : Nat := 0 -- 4; Table 12-14 (12); none
  isIn : Bool := true -- MVIN or MVOUT; R541 (12); none
  obj : Nat := 0 -- slot of the bound object; R606 (14); none
  offset : Nat := 0 -- units of 256 B; Table 12-16 (12); none
  row : Nat := 0 -- first tile row; Table 12-16 (12); none
  data : List (List Word) := [] -- rows read by MVOUT at issue; R540 (12); none
  nrows : Nat := 1 -- rows; Table 12-16 (12); none
  suppressed : Bool := false -- 1; R545 (12); 0
  seq : Nat := 0 -- MODEL: order of issue; R544; none
  deriving DecidableEq, Repr

/-- A band (Table 11-6) and its program's progress. -/
structure BandS where
  ctx : Nat := 0 -- 3; Table 11-6 (11); 0
  role : Nat := 0 -- 2; Table 11-6 (11); 0
  tiles : List Nat := [] -- physical tiles in logical order; R479 (11); none
  partner : Nat := 0 -- 4; Table 11-6 (11); 0
  program : Bool := false -- 1: steps its own columns; 0: firmware's pipeline program; R700 (16); 0
  pc : Nat := 0 -- program address; R526 (12); 0
  delay : Option Nat := none -- target of a taken branch after its delay column; R519 (12); none
  loops : List (Nat × Nat × Nat) := [] -- (first, last, count left), 4 max; R520 (12); empty
  step : Nat := 0 -- MODEL: steps issued; R470; 0
  started : Bool := false -- first step issued; R709 (16); 0
  halted : Bool := false -- R524 (12); 0
  waiting : Option Nat := none -- WAITING and RV_ID; Table 11-6 (11); none
  waitSince : Nat := 0 -- MODEL: tick at which the wait began; R497; 0
  lateRaised : Bool := false -- R497 (11); 0
  lastRv : Nat := 0 -- RV_ID; Table 11-6 (11); 0
  rate : Nat := 0 -- STEP_RATE; Table 11-6 (11); 0
  overruns : Nat := 0 -- 16; Table 11-6 (11); 0
  stretched : Nat := 0 -- stretched steps of the segment; R475 (11); 0
  overrunRaised : Bool := false -- R475 (11); 0
  segment : Nat := 0 -- START of the segment under way; R473 (11); 0
  fails : Tab Nat := [] -- consecutive failed attempts of the step per unit, key logical tile * 65 + lane (64 geometry); R590 (13); none
  inflight : List InFlight := [] -- R507 (12); empty
  moves : List MoveS := [] -- R542 (12); empty
  moveSeq : Nat := 0 -- MODEL: moves issued; R544; 0
  stopped : Bool := false -- in retry, substitution, repair or rollback; R498 (11); 0
  stall : Bool := false -- waits for a code page; R530 (12); 0
  lowRate : Option Nat := none -- low-rate episode: intervals; R477 (11); none
  pool : Int := 0 -- charge pool, nJ; R740 (17); 0
  frames : Tab Nat := [] -- code page held by frame; R527 (12); empty
  loading : List Nat := [] -- code pages being loaded; R529 (12); none
  ckptValid : List Bool := [false, false] -- validity of the two checkpoint copies; R791 (19); invalid
  ckptNewest : Nat := 0 -- newest copy; R791 (19); 0
  ckptSeg : List Nat := [0, 0] -- address at which the segment after each copy starts; R794 (19); 0
  ckptTiles : List (Nat × Nat) := [] -- (copy, logical tile) written since the last arrival; R791 (19); none
  deriving DecidableEq, Repr

/-- A rendezvous (R493 to R496): its members and each member's arrival count. -/
structure RvS where
  members : List Nat := [] -- bands; R493 (11); none
  counts : Tab (BitVec 16) := [] -- arrival counts; R496 (11); 0
  deriving DecidableEq, Repr

/-- A parsed program image of a context (Tables 12-18 to 12-21). -/
structure ImageS where
  sha : List Byte := [] -- BODY_SHA512; Table 12-18 (12); none
  bands : List (List Nat) := [] -- per program band: band, role, tiles, commons rows, checkpoint rows, first slice, RV_MASK; Table 12-19 (12); none
  segments : List (List Nat) := [] -- band, rv, start, steps, stretch, ns at the floor rate; Table 12-20 (12); none
  slices : List (List Nat) := [] -- band, logical, flags, columns, code offset, code CRC; Table 12-21 (12); none
  code : List Byte := [] -- the image's bytes; R505 (12); none
  deriving DecidableEq, Repr

/-- A weight stream (Table 14-4, R623 to R629). -/
structure WStream where
  obj : Word := 0 -- 32; Table 14-4 (14); none
  band : Nat := 0 -- 8; Table 14-4 (14); none
  advRv : Nat := 0 -- 8; Table 14-4 (14); none
  flag : Nat := 0 -- 8; Table 14-4 (14); none
  bufRows : Nat := 1 -- 16; Table 14-4 (14); none
  buf0 : Nat := 0 -- 16; Table 14-4 (14); none
  buf1 : Nat := 0 -- 16; Table 14-4 (14); none
  layers : List (Nat × Nat) := [] -- (LAYER_OFFSET, ROWS); Table 14-4 (14); none
  j : Nat := 0 -- layer index; R625 (14); 0
  b : Nat := 0 -- buffer index; R625 (14); 0
  held : List (Option Nat) := [none, none] -- layer held by each buffer; R625 (14); none
  fills : List (Nat × Nat × List Nat) := [] -- fills under way: buffer, layer, logical tiles not yet filled; R624, R625 (14); none
  arrived : Bool := false -- the band has arrived at ADV_RV; R626 (14); 0
  deriving DecidableEq, Repr

/-- A context (R46, R47, chapter 14). -/
structure CtxS where
  session : Option SessionS := none -- R67 (02); none
  image : Option ImageS := none -- R700 (16); none
  admitCmd : Option CmdRef := none -- MODEL: the CONTEXT_ADMIT that waits for the first steps; R709; none
  bands : List Nat := [] -- R49 (01); none
  banks : List Nat := [] -- commons banks; R487 (11); none
  hbmGranules : Nat := 0 -- T2 reservation; R594 (14); 0
  hbmUsed : Nat := 0 -- granules charged; R597 (14); 0
  t1Used : Nat := 0 -- granules charged; R597 (14); 0
  t3Used : Nat := 0 -- granules charged; R597 (14); 0
  share : Nat := 0 -- energy share, mW; R728 (17); 0
  searchRate : Nat := 0 -- units/s; R452 (10); 0
  window : List (Nat × Nat) := [] -- host window extents (address, bytes); R595 (14); none
  windows : Tab Word := [] -- window to OBJ_ID; R606 (14); none
  streams : Tab WStream := [] -- R623 (14); none
  formats : Tab FormatSlot := [] -- 8; R187 (04); empty
  rig : Tab SensorEntry := [] -- RIG_WRITE entries by key; R329 (08); none
  rigDue : List (Nat × SensorEntry × Nat) := [] -- written, waiting for their frame set: key, entry, commit time; R331 (08); none
  inUse : Tab SensorEntry := [] -- entries in use by the session, refined ones included; R327, R365 (08); none
  align : Tab AlignS := [] -- R372 (08); none
  pattern : List Int := [] -- 256 pairs of offsets, empty for the firmware pattern; R299 (07); firmware's
  pairs : Tab PairCfg := [] -- stereo pairs; R262 (06); none
  canSignals : Tab CanSignal := [] -- key port * 32 + entry; R203 (04); none
  hostFeatBytes : Nat := 0 -- feature bytes in the host window; R415 (09); 0
  stereoLoad : Nat := 0 -- reserved stereo pixels/s; R283 (06); 0
  deriving DecidableEq, Repr

/-! ### Memory objects and Promenade (chapter 14) -/

/-- A copy of a read-only object in T1 or T2 (R614 to R620). -/
structure CopyS where
  have_ : List Nat := [] -- granules present, ascending; R609 (14); none
  claims : Byte := 0 -- 8; R614 (14); 0
  pins : Tab Nat := [] -- pins per context; R616 (14); none
  modulePin : Bool := false -- 1; R632 (14); 0
  freeing : Bool := false -- 1; R619 (14); 0
  bad : List Nat := [] -- granules that failed to read; R631 (14); none
  deriving DecidableEq, Repr

/-- A memory object (Table 14-2). -/
structure ObjS where
  id : Word := 0 -- 32; Table 14-2 (14); none
  owner : Nat := 0 -- 3; Table 14-2 (14); none
  granules : Nat := 1 -- 17; Table 14-2 (14); none
  kind : Nat := 0 -- 8; Table 14-2 (14); none
  home : Nat := 2 -- 8; Table 14-2 (14); 2
  class_ : Nat := 4 -- 8; Table 14-2 (14); 4
  sealed_ : Bool := false -- 1; R603 (14); 0
  epoch : Nat := 0 -- MODEL: creation number, names its undefined contents; R597; none
  data : Tab Byte := [] -- bytes of the object; R597 (14); undefined until written DC 10
  share : Byte := 0 -- 8; R605 (14); 0
  copies : Tab CopyS := [] -- by tier 1, 2; R604 (14); none
  moving : Option (Nat × List Nat × CmdRef × Bool) := none -- target tier, granules switched, command, moving back; R601 (14); none
  poisoned : List Nat := [] -- granules of a DATA object; R636 (14); none
  homeBad : List Nat := [] -- granules of the home that failed to read; R632 (14); none
  unavailable : Bool := false -- 1; R633 (14); 0
  deriving DecidableEq, Repr

/-- What Promenade has been asked to do with one granule (R44, R609). -/
inductive MoveJob where
  | objMove (slot granule : Nat)
  | moveBack (slot granule : Nat)
  | copyFill (slot tier granule : Nat)
  | featOut (map : Nat) (kf : Word)
  | featIn (map : Nat) (kf : Word)
  | regionMove (channel region row : Nat)
  /-- a move of a band (R541), by its order of issue -/
  | bandMove (band seq : Nat)
  /-- a load of a code page (R531) -/
  | codePage (band page : Nat)
  /-- one tile's rows of a stream's fill (R624, R625, R628) -/
  | streamFill (ctx stream buffer tile : Nat)
  /-- the freeing of a copy (R619) -/
  | copyFree (slot tier : Nat)
  deriving DecidableEq, Repr

/-- A pending granule move (R44). -/
structure MoveReq where
  class_ : Nat := 4 -- 1 to 4; R44 (01); none
  seq : Nat := 0 -- order requested; R44 (01); none
  job : MoveJob := .objMove 0 0 -- R609 (14); none
  deriving DecidableEq, Repr

/-! ### Energy, clocks, dependability, ageing, security (chapters 17 to 21) -/

/-- Ledger, budget, planner and Bridle. -/
structure PowerS where
  cap : Nat := 75000 -- 17, mW; R719, R915 (17, 22); 75,000
  ballast : Nat := 50 -- 8, 0.1 %; R720, R915 (17, 22); 50
  tetherCap : Nat := 75000 -- cap last set under the Tether's control; R915 (22); 75,000
  tetherBallast : Nat := 50 -- R915 (22); 50
  account : Option (Nat × Nat) := none -- E in µJ and horizon, ns; R724 (17); none
  accountTick : Nat := 0 -- MODEL: tick at which the account was set; R725; 0
  predictedMw : Nat := 0 -- the planner's prediction, mW; R725 (17); 0 DC 11
  history : List Nat := [] -- module power of the last 10,000 intervals, mW; R725 (17); empty
  modulePower : Nat := 0 -- mW; R717 (17); 0 DC 11
  lowestRaised : Bool := false -- MODEL: ENERGY_ACCOUNT cause 2 raised and still true; Table 17-8; 0
  allots : Tab Nat := [] -- allotment of each context, mW; R735 (17); 0 DC 11
  emptyRaised : Bool := false -- MODEL: ENERGY_ACCOUNT cause 3 raised; Table 17-8; 0
  table : List Byte := [] -- work-level table, empty for the firmware's; R732 (17); firmware's
  grants : Tab Nat := [] -- units of 125 mW by consumer: bands 0 to 15, 16 vision, 17 search, 18 HBM; R738 (17); 0 DC 11
  floors : Tab Nat := [] -- floor grants, units of 125 mW; Table 17-5 (17); 0 DC 11
  pools : Tab Int := [] -- charge pools of vision, search and HBM, nJ; R740 (17); 0 DC 11
  grantTick : Nat := 0 -- MODEL: tick of the last grant period; R738; 0
  ramping : Bool := false -- grants rise by 125 mW per period; R743 (17); 0
  droop : Bool := false -- 1; R741 (17); 0
  droopAt : Nat := 0 -- MODEL: tick of the latest droop; R743; 0
  droopRaised : Option Nat := none -- MODEL: tick of the last POWER_DROOP; R744; none
  recoveries : List (Nat × Nat) := [] -- recoveries drawing on the Ballast (id, start tick); R746 (17); none
  hotHold : Bool := false -- planner holds the lowest levels; Table 24-6 (24); 0
  intervalEnd : Nat := 0 -- MODEL: tick of the last interval's end; R715; 0
  deriving DecidableEq, Repr

/-- A clock source (R758 to R763). -/
structure SourceS where
  present : Bool := true -- 1; R762 (18); DC 12
  stable : Bool := false -- 1; R761, R892 (18, 22); not judged stable yet
  since : Nat := 0 -- MODEL: tick at which it was judged stable; R766; 0
  deriving DecidableEq, Repr

/-- A clocked island (Table 18-1) and its sequencer (R772 to R778). -/
structure IslandS where
  alt : Bool := false -- 1; R764 (18); 0
  parked : Bool := false -- 1; R768 (18); 0
  lostAt : Nat := 0 -- MODEL: tick of the loss; Table 18-6; 0
  pllLost : Bool := false -- 1; R768 (18); 0
  mhz : Nat := 0 -- clock; R772 (18); 0 DC 12
  mv : Nat := 0 -- supply; R772 (18); 0 DC 12
  target : Option (Nat × Nat) := none -- transition under way; R774 (18); none
  waiting : Option (Nat × Nat) := none -- latest waiting request; R774 (18); none
  curve : List (Nat × Nat) := [] -- loaded curve, empty for the firmware's; R778 (18); firmware's
  deriving DecidableEq, Repr

/-- A tile repair (Table 19-2). -/
structure RepairS where
  band : Nat := 0 -- R793 (19); none
  cause : Nat := 0 -- 4; Table 19-6 (19); none
  start : Nat := 0 -- MODEL: tick of the detection; R793; none
  replacement : Option Nat := none -- R793 (19); none
  logical : Nat := 0 -- R480 (11); none
  deriving DecidableEq, Repr

/-- A record and six signatures in a compare buffer (R502). -/
structure CompareBuf where
  isOpt : Bool := false -- R502 (11); none
  key : Nat := 0 -- OUT_INDEX or frame set; R499 (11); none
  fast : PoseFast := {} -- R500 (11); none
  opt : WindowState := {} -- R500 (11); none
  cover : Bool := false -- R797 (19); none
  differs : Bool := false -- record that does not follow from the inputs (a faulty band); R800 (19); none
  sigs : List (BitVec 64) := [] -- six; R502 (11); none
  deriving DecidableEq, Repr

/-- A partnered pair (R499 to R503, R800 to R808). -/
structure PairS where
  bandA : Nat := 0 -- R71 (02); none
  bandB : Nat := 0 -- R71 (02); none
  state : Nat := 0 -- 2; Table 2-13 (02); 0
  carrier : Option Nat := none -- Table 19-6 (19); none
  needCopy : List Nat := [] -- bands that wait for the carrier's state: suspects and bands in tile repair; R801 to R803 (19); none
  suspects : List (Nat × Nat) := [] -- MODEL: (band, tick) of suspect namings; R801; none
  bufA : List CompareBuf := [] -- R502 (11); empty
  bufB : List CompareBuf := [] -- R502 (11); empty
  deriving DecidableEq, Repr

/-- Repair, memory and steward state (chapter 19). -/
structure DepS where
  corrected : Nat := 0 -- 32; R781, Table 16-18 (19, 16); 0
  uncorrectable : Nat := 0 -- 32; Table 16-18 (16); 0
  retries : Nat := 0 -- 32; Table 16-18 (16); 0
  retiredLanes : Nat := 0 -- 32; Table 16-18 (16); 0
  retiredHbm : Nat := 0 -- 32; Table 16-18 (16); 0
  subst : Tab (Nat × Nat) := [] -- lane substitutions under way: tile to (lane, start tick); R785 (19); none
  repairs : Tab RepairS := [] -- by failed tile; R793 (19); none
  rollbacks : List Nat := [] -- bands that roll back; R813 (19); none
  reserve : Nat := 4096 -- regions; R816 (19); 4,096
  hbmRetired : List (Nat × Nat) := [] -- (channel, region); R814 (19); none
  rowHistory : List (Nat × Nat × Nat × Nat × Nat) := [] -- MODEL: corrections (channel, region, row, location, tick); R814; none
  toRetire : List (Nat × Nat × Nat) := [] -- (channel, region, row) whose region has been moved; R815 (19); none
  hbmTaken : Nat := 0 -- unreserved HBM granules that replace lost regions; R817 (19); 0
  voting : List Bool := [true, true, true] -- 3; R809 (19); all
  lost : List Nat := [] -- HBM granules lost with no replacement; R817 (19); none
  deriving DecidableEq, Repr

/-- One ageing ledger entry (Table 20-3). -/
structure LedgerEntry where
  kind : Nat := 7 -- 8; Table 20-3 (20); none
  subject : Nat := 0 -- 8; Table 20-3 (20); none
  subject2 : Nat := 0 -- 16; Table 20-3 (20); none
  opTime : Nat := 0 -- 32; Table 20-3 (20); none
  deviceTime : BitVec 64 := 0 -- 64; Table 20-3 (20); none
  vReq : Int := 0 -- 16; Table 20-3 (20); none
  vSet : Nat := 0 -- 16; Table 20-3 (20); none
  rSlow : Nat := 0 -- 16; Table 20-3 (20); none
  tjMean : Byte := 0 -- 8; Table 20-3 (20); none
  tjMax : Byte := 0 -- 8; Table 20-3 (20); none
  torn : Bool := false -- CRC not verified; R833 (20); 0
  deriving DecidableEq, Repr

/-- The factory's records of IMU0 (chapter 20 text: always written at the factory). Their values are not given: identity pose and matrix, zero
noise and bias (assumption 13). -/
def factoryImu0 : Tab CalibRec :=
  let z (n : Nat) : List Byte := List.replicate n 0
  let one : List Byte := [0, 0, 0x80, 0x3F]
  let matrix (index : Byte) : CalibRec :=
    { bytes := [32, index, 0, 1] ++ one ++ z 12 ++ one ++ z 12 ++ one ++ z 24 }
  [(32 * 256, { bytes := [32, 0, 0, 1] ++ z 12 ++ one ++ z 44 }), (32 * 256 + 0x80, matrix 0x80), (32 * 256 + 0x81, matrix 0x81)]

/-- What the module last measured at a tile (R822, R823). -/
structure TileCadence where
  lines : List Nat := [] -- 4, ps; R822 (20); none
  handshake : Nat := 0 -- ps; R823 (20); 0 DC 13
  deriving DecidableEq, Repr

/-- Margins, ageing ledger and calibration store (chapter 20). -/
structure AgeS where
  ledger : List LedgerEntry := [] -- 16,384; R832 (20); empty DC 13 (flash)
  dropped : Nat := 0 -- 32; R834 (20); 0 DC 13
  opTicks : Nat := 0 -- operation, ticks; R825 (20); 0 DC 13
  sinceDaily : Nat := 0 -- MODEL: operation since the last daily re-planning; R825; 0
  replan : Option (Bool × List CmdRef) := none -- running re-planning: apply, joined commands; R829 (20); none
  vSet : Nat := 800 -- 10, mV; R899 (22); 800
  vTarget : Nat := 800 -- V_SET ordered; R828 (20); 800
  margin : Int := 80 -- mV; R831 (20); 80 DC 13
  lowRaised : List Nat := [] -- thresholds passed; R831 (20); none
  tiles : Tab TileCadence := [] -- 64; R822, R823 (20); empty DC 13
  islandLines : Tab Nat := [] -- ps, by island 0 to 6; R822 (20); empty DC 13
  before : Tab CalibRec := [] -- MODEL: IMU0 records in force until the committed one applies; R846; none
  store : Tab CalibRec := factoryImu0 -- by key port * 256 + index; R836 (20); factoryImu0 DC 13 (flash)
  deriving DecidableEq, Repr

/-- Identity, boot, staging and update (chapter 21). -/
structure SecS where
  flash : List Byte := [] -- image region; chapter 21 text (21); DC 14
  flashValid : Bool := true -- R853 (21); valid DC 14
  runVersion : Word := 0 -- 32; Table 16-17 (16); 0 DC 14
  runMinor : Nat := 0 -- 8; R881 (21); 0 DC 14
  prev : Option (Word × Nat) := none -- VERSION and protocol minor of the flash image once an update has switched; R887 (21); none
  staged : List Byte := [] -- staged image; R872 (21); none
  stagedOk : Bool := false -- verified; R714 (16); 0
  stagedNext : Nat := 0 -- next OFFSET; R713 (16); 0
  stagedBanks : List Nat := [] -- commons banks; R872 (21); none
  svn : Nat := 0 -- 6; R856 (21); 0 DC 14
  ownerHash : List Byte := [] -- 64 bytes, empty for zero; chapter 21 text (21); zero (at shipment)
  ownerSeq : Word := 0 -- 32; R867 (21); 0 DC 14
  stage : Nat := 0 -- 4; Table 21-6 (21); 0
  actCmd : Option CmdRef := none -- the FW_ACTIVATE; R877 (21); none
  coresNew : List Bool := [false, false, false] -- cores on the staged image; Table 21-6 (21); none
  swapped : List Nat := [] -- bands swapped; R882 (21); none
  faultRollback : Bool := false -- R887 (21); 0
  rolling : Bool := false -- rollback under way; R887 (21); 0
  heldReset : List Nat := [] -- resets held in stage 7; R886 (21); none
  atBoot : List (List Byte) := [] -- measurement blocks 1, 2 and 4 as at the last boot; Table 21-4 (21); none
  deriving DecidableEq, Repr

/-- The state of the module. -/
structure State where
  pending : List Instr := [] -- MODEL: commands that wait, first in first out; -; empty
  cmds : List Cmd := [] -- outstanding commands in the order armed; R654 (15); none
  fns : Tab FnRegs := [] -- 8 functions; Table 15-1 (15); FnRegs
  tether : TetherS := {} -- R668 to R684 (15); TetherS
  outbox : List OutMsg := [] -- MODEL: what has left the module, newest first; R643, R682; empty
  hostMem : Tab Byte := [] -- host memory as the module reaches it over PCIe; R648, R88; unlisted bytes read 0 DC 15
  hostBad : List (Nat × Nat) := [] -- host ranges whose reads fail (address, bytes); R650, R596; none
  life : LifeS := {} -- chapters 22 to 24; LifeS
  outputs : Tab OutputS := [] -- R944 (23); OutputS
  events : List Event := [] -- raised and not yet written to HEALTH rings; R99 (02); none
  eventLimit : Tab Nat := [] -- MODEL: tick of the last event per rate-limited key; R951; none
  time : TimeS := {} -- chapter 3; TimeS
  reel : Tab ReelEntry := [] -- 64; Table 3-3 (03); free
  targets : Tab Nat := [] -- holder of targets 12 to 21; R140 (03); none
  ports : Tab PortS := [] -- 29; Table 4-1 (04); PortS
  lidars : Tab LidarS := [] -- by port; R186 (04); LidarS
  filters : Tab ChannelS := [] -- 32; R207 (05); ChannelS
  imu0 : List Word := [] -- latest corrected IMU0 sample; R838 (20); none
  streams : Tab StreamS := [] -- 24; R174 (04); none bound
  engines : Tab EngineS := [] -- R318 (07); EngineS
  quad : QuadrilleS := {} -- R321 (07); QuadrilleS
  ctxs : Tab CtxS := [] -- 8; R46 (01); CtxS
  nextSession : Nat := 1 -- MODEL: next session number; Table 2-6; 1 DC 7
  held : List HeldRec := [] -- R92 (02); empty
  linkDownTick : Option Nat := none -- MODEL: tick of HOST_LINK_DOWN; R92; none
  maps : Tab MapS := [] -- 16; R378 (09); none
  queries : Tab QueryS := [] -- R448 (10); none
  nextQuery : Nat := 0 -- MODEL: next query number; R448; 0
  tiles : Tab TileS := [26, 27, 54, 55].map fun t => (t, { state := 1 }) -- 56; Table 11-3 (11); TileS, 52 in service and 4 spares (R905, Table 16-2) DC 9
  bands : Tab BandS := [] -- 16; Table 11-6 (11); none allocated
  rvs : Tab RvS := [] -- 64; R493 (11); RvS
  commons : Tab (List Word) := [] -- 64 banks x 2,048 rows, key bank * 2048 + row; chapter 11 text (11); 0 (R903)
  objs : Tab ObjS := [] -- key owner * 4096 + slot; R597 (14); none
  reuse : Tab Nat := [] -- reuse count per object slot; Table 14-2 (14); 0
  jobs : List MoveReq := [] -- Promenade's pending moves; R44 (01); empty
  jobSeq : Nat := 0 -- MODEL: moves requested; R44; 0
  pairs : Tab PairS := [] -- by context; R495 (11); none
  power : PowerS := {} -- chapter 17; PowerS
  sources : List SourceS := [{}, {}] -- REF, XO; R758 (18); SourceS
  islands : Tab IslandS := [(7, { alt := true })] -- 8; Table 18-1, R892 (18, 22); island 7 on the on-die RC oscillator, else IslandS
  dep : DepS := {} -- chapter 19; DepS
  age : AgeS := {} -- chapter 20; AgeS
  sec : SecS := {} -- chapter 21; SecS
  epoch : Nat := 0 -- MODEL: counts admissions and object creations; R482, R597; 0
  free : Nat := 0 -- MODEL: counter of free values; -; 0 DC 16
  deriving DecidableEq, Repr

/-- Why the machine stops. -/
inductive Fault where
  /-- Raised by SLOT_ARM, SLOT_WRITE_LOST and REGISTER_WRITE for an offset outside BAR0's 32 KiB or a function above 7, which the
  spec does not give the module (Table 15-1, R46). Safe: the machine stops where the module has no such register. -/
  | outsideBar0
  deriving DecidableEq, Repr

/-- Why a command is refused by the model itself. -/
inductive Refusal where
  /-- Raised by an arm of `exec` whose command has no meaning yet. Safe. -/
  | notModelled (mnemonic : String)
  deriving DecidableEq, Repr

/-- The module right after the power-on reset that VAUX causes (Table 22-4): the always-on island starts, the main side is off. -/
def State.reset : State := {}

end Sys2Proof.Machine
end

