-- ==== Sys2Proof/Machine/Ops.lean ====
section
/-! DEFINITION. The shared operations: access to the numbered parts of the state, device time, raising an event (R99, R679), the
outstanding commands and their replies (chapter 15), host memory and scatter lists (R648 to R651), and MSI-X messages (R652). -/

namespace Sys2Proof.Machine

/-- The outcome of a command on the state. -/
abbrev Out := Host.Outcome State Fault Refusal

/-! ### Numbered parts of the state -/

def State.fnAt (s : State) (n : Nat) : FnRegs := Tab.getD s.fns n {}
def State.updFn (s : State) (n : Nat) (f : FnRegs → FnRegs) : State := { s with fns := Tab.upd s.fns n {} f }
def State.ctxAt (s : State) (n : Nat) : CtxS := Tab.getD s.ctxs n {}
def State.updCtx (s : State) (n : Nat) (f : CtxS → CtxS) : State := { s with ctxs := Tab.upd s.ctxs n {} f }
def State.portAt (s : State) (n : Nat) : PortS := Tab.getD s.ports n {}
def State.updPort (s : State) (n : Nat) (f : PortS → PortS) : State := { s with ports := Tab.upd s.ports n {} f }
def State.chanAt (s : State) (n : Nat) : ChannelS := Tab.getD s.filters n {}
def State.updChan (s : State) (n : Nat) (f : ChannelS → ChannelS) : State := { s with filters := Tab.upd s.filters n {} f }
def State.reelAt (s : State) (n : Nat) : ReelEntry := Tab.getD s.reel n {}
def State.updReel (s : State) (n : Nat) (f : ReelEntry → ReelEntry) : State := { s with reel := Tab.upd s.reel n {} f }
def State.streamAt (s : State) (n : Nat) : StreamS := Tab.getD s.streams n {}
/-- Change a stream that is bound; an unbound number stays unbound. -/
def State.updStream (s : State) (n : Nat) (f : StreamS → StreamS) : State :=
  if Tab.has s.streams n then { s with streams := Tab.upd s.streams n {} f } else s
def State.tileAt (s : State) (n : Nat) : TileS := Tab.getD s.tiles n {}
def State.updTile (s : State) (n : Nat) (f : TileS → TileS) : State := { s with tiles := Tab.upd s.tiles n {} f }
def State.bandAt (s : State) (n : Nat) : BandS := Tab.getD s.bands n {}
/-- Change a band that is allocated. -/
def State.updBand (s : State) (n : Nat) (f : BandS → BandS) : State :=
  if Tab.has s.bands n then { s with bands := Tab.upd s.bands n {} f } else s
def State.mapAt (s : State) (n : Nat) : MapS := Tab.getD s.maps n {}
/-- Change a map that exists. -/
def State.updMap (s : State) (n : Nat) (f : MapS → MapS) : State :=
  if Tab.has s.maps n then { s with maps := Tab.upd s.maps n {} f } else s
/-- Change an object that exists, by key `owner * 4096 + slot`. -/
def State.updObj (s : State) (k : Nat) (f : ObjS → ObjS) : State :=
  if Tab.has s.objs k then { s with objs := Tab.upd s.objs k {} f } else s
def State.islandAt (s : State) (n : Nat) : IslandS := Tab.getD s.islands n {}
def State.updIsland (s : State) (n : Nat) (f : IslandS → IslandS) : State := { s with islands := Tab.upd s.islands n {} f }
def State.outputAt (s : State) (n : Nat) : OutputS := Tab.getD s.outputs n {}
def State.updOutput (s : State) (n : Nat) (f : OutputS → OutputS) : State := { s with outputs := Tab.upd s.outputs n {} f }
def State.engineAt (s : State) (k : Nat) : EngineS := Tab.getD s.engines k {}
def State.updEngine (s : State) (k : Nat) (f : EngineS → EngineS) : State := { s with engines := Tab.upd s.engines k {} f }
/-- The session of a context, running or stopping. -/
def State.sessionAt (s : State) (n : Nat) : Option SessionS := (s.ctxAt n).session
/-- Change the session of a context that has one. -/
def State.updSession (s : State) (n : Nat) (f : SessionS → SessionS) : State :=
  match (s.ctxAt n).session with
  | some x => s.updCtx n fun c => { c with session := some (f x) }
  | none => s
def State.mapLife (s : State) (f : LifeS → LifeS) : State := { s with life := f s.life }
def State.mapTime (s : State) (f : TimeS → TimeS) : State := { s with time := f s.time }
def State.mapPower (s : State) (f : PowerS → PowerS) : State := { s with power := f s.power }
def State.mapDep (s : State) (f : DepS → DepS) : State := { s with dep := f s.dep }
def State.mapAge (s : State) (f : AgeS → AgeS) : State := { s with age := f s.age }
def State.mapSec (s : State) (f : SecS → SecS) : State := { s with sec := f s.sec }
def State.mapTether (s : State) (f : TetherS → TetherS) : State := { s with tether := f s.tether }

/-- The contexts that run a session, in rising order. -/
def State.sessionCtxs (s : State) : List Nat := (List.range 8).filter fun n => (s.sessionAt n).isSome

/-- A step that changes each state of a list of numbers in turn. -/
def forEach {α : Type} (l : List α) (f : α → State → State) (s : State) : State := l.foldl (fun t x => f x t) s

/-- The next value of the free counter, and the state with it used up. -/
def State.takeFree (s : State) : Nat × State := (s.free, { s with free := s.free + 1 })

/-! ### Time -/

/-- Device time in nanoseconds since the device epoch (R30, R106). -/
def State.devNs (s : State) : Nat := s.time.seconds.toNat * 1000000000 + s.time.nanos.toNat

/-- Device time as a 64-bit count of nanoseconds (R30). -/
def State.devTime (s : State) : BitVec 64 := BitVec.ofNat 64 s.devNs

/-- Timebase ticks since tick `t`; one tick is 2 ns (R107). -/
def State.since (s : State) (t : Nat) : Nat := s.time.ticks - t

/-- Ticks of a number of milliseconds and of microseconds. -/
def msTicks (n : Nat) : Nat := n * 500000
def usTicks (n : Nat) : Nat := n * 500

/-! ### Charge pools (R740) -/

/-- Consumers 16 vision, 17 search and 18 HBM start a unit of work only while their pool is not negative (R740). -/
def State.poolOk (s : State) (consumer : Nat) : Bool := decide (0 ≤ Tab.getD s.power.pools consumer 0)

/-- A unit of work debits its consumer's pool by the energy last measured for one unit, which is open (R740, assumption 16). -/
def State.spend (s : State) (consumer : Nat) : State :=
  { s with free := s.free + 1,
           power := { s.power with pools := Tab.upd s.power.pools consumer 0 (· - Int.ofNat (Config.openVal 30 (s.free * 32 + consumer) % 65536)) } }

/-! ### Events (R99, R679) -/

/-- Put an event into the Tether queue, 64 deep; on overflow the oldest is dropped and counted (R679). -/
def TetherS.pushEvent (t : TetherS) (e : Event) : TetherS :=
  if t.queue.length < 64 then { t with queue := t.queue ++ [e] }
  else { t with queue := t.queue.drop 1 ++ [e], dropped := t.dropped + 1 }

/-- Raise an event: it waits for its HEALTH records (R99) and is queued for the Tether session (R679). -/
def State.raiseEvent (s : State) (e : Event) : State :=
  { s with events := s.events ++ [e], tether := s.tether.pushEvent e }

/-- Raise an event of the whole module. -/
def State.raise (s : State) (code detail : Nat) : State :=
  s.raiseEvent { code := BitVec.ofNat 16 code, detail := BitVec.ofNat 16 detail, time := s.devTime }

/-- Raise an event that names one context. -/
def State.raiseCtx (s : State) (n code detail : Nat) : State :=
  s.raiseEvent { code := BitVec.ofNat 16 code, detail := BitVec.ofNat 16 detail, ctx := some n,
                 mask := BitVec.ofNat 8 (2 ^ n), time := s.devTime }

/-- Raise an event in the contexts of a mask (R633); it carries the lowest of them. -/
def State.raiseMask (s : State) (mask code detail : Nat) : State :=
  s.raiseEvent { code := BitVec.ofNat 16 code, detail := BitVec.ofNat 16 detail, ctx := (setBits 8 mask).head?,
                 mask := BitVec.ofNat 8 mask, time := s.devTime }

/-- Raise an event only into the Tether queue (R873). -/
def State.raiseTether (s : State) (code detail : Nat) : State :=
  s.mapTether fun t => t.pushEvent { code := BitVec.ofNat 16 code, detail := BitVec.ofNat 16 detail, time := s.devTime }

/-- Whether an event under `key` may be raised again: none was within the last second (R951). -/
def State.eventFree (s : State) (key : Nat) : Bool :=
  match Tab.get? s.eventLimit key with
  | none => true
  | some t => decide (msTicks 1000 ≤ s.since t)

/-- Raise an event at most once per second under a key; a repeat is answered by `other` (R951 counts it). -/
def State.raiseOncePerSecond (s : State) (key : Nat) (ctx : Option Nat) (code detail : Nat) (other : State → State) : State :=
  if s.eventFree key then
    let s := { s with eventLimit := Tab.put s.eventLimit key s.time.ticks }
    match ctx with
    | some n => s.raiseCtx n code detail
    | none => s.raise code detail
  else other s

/-! ### Outstanding commands (chapter 15) -/

/-- A word of the packet; words at or beyond LENGTH read as zero (R644). -/
def Cmd.w (m : Cmd) (i : Nat) : Word :=
  if i < max 3 (fld (m.words.getD 0 0) 11 0) then m.words.getD i 0 else 0
def Cmd.opcode (m : Cmd) : Nat := fld (m.w 0) 31 16
def Cmd.cls (m : Cmd) : Nat := fld (m.w 0) 15 14
def Cmd.len (m : Cmd) : Nat := fld (m.w 0) 11 0
def Cmd.tag (m : Cmd) : Nat := fld (m.w 1) 31 16
/-- The CONTEXT field of the header. -/
def Cmd.ctxField (m : Cmd) : Nat := fld (m.w 1) 15 8
def Cmd.abortBit (m : Cmd) : Bool := bit (m.w 1) 1
def Cmd.irq (m : Cmd) : Bool := bit (m.w 1) 0
def Cmd.major (m : Cmd) : Nat := fld (m.w 2) 31 24
def Cmd.minor (m : Cmd) : Nat := fld (m.w 2) 23 16
/-- The context the command acts for: the function's own over PCIe (R46, R645), the one named by the Tether. -/
def Cmd.ctx (m : Cmd) : Nat := m.ctxField
def Cmd.isTether (m : Cmd) : Bool := decide (m.ref.sender = .tether)

def State.findCmd (s : State) (c : CmdRef) : Option Cmd := s.cmds.find? fun m => decide (m.ref = c)
def State.updCmd (s : State) (c : CmdRef) (f : Cmd → Cmd) : State :=
  { s with cmds := s.cmds.map fun m => if m.ref = c then f m else m }
def State.delCmd (s : State) (c : CmdRef) : State := { s with cmds := s.cmds.filter fun m => decide (m.ref ≠ c) }

/-- A command of "Command Reference" acts while it is started and names this opcode; otherwise nothing comes about. -/
def onCmd (op : Nat) (c : CmdRef) (s : State) (k : Cmd → State → State) : Out :=
  match s.findCmd c with
  | some m =>
    if m.phase = .running ∧ m.opcode = op ∧ m.begun = false then .next (k m (s.updCmd c fun x => { x with begun := true }))
    else .next s
  | none => .next s

/-- An event row acts only where its trigger holds. -/
def onTrigger (p : Bool) (s : State) (k : State → State) : Out := if p then .next (k s) else .next s

/-- End a command with a reply that its carrier has still to write (R642, R657). -/
def State.endCmd (s : State) (c : CmdRef) (r : Reply) : State :=
  s.updCmd c fun m => { m with phase := .ended, reply := some r }

/-- Mark a command as committed now (R657, Table 15-4). -/
def State.commit (s : State) (c : CmdRef) : State :=
  s.updCmd c fun m => if m.committed then m else { m with committed := true, commitTime := s.devTime }

/-- The commit time of an outstanding command, zero when it has not committed. -/
def State.commitTimeOf (s : State) (c : CmdRef) : BitVec 64 :=
  match s.findCmd c with
  | some m => if m.committed then m.commitTime else 0
  | none => 0

/-- Commit (if not yet) and end with status and DETAIL of class "done", a body and inline output (R657, R694). -/
def State.done (s : State) (c : CmdRef) (status detail : Nat := 0) (body : List Word := []) (inlineOut : List Byte := []) : State :=
  let s := s.commit c
  s.endCmd c { status := BitVec.ofNat 16 status, detail := BitVec.ofNat 16 detail, commitTime := s.commitTimeOf c,
               body := body, inlineOut := inlineOut }

/-- End without a commit: a refusal, or an end of class "ended" (R656, R691, R694). -/
def State.refuse (s : State) (c : CmdRef) (status detail : Nat) : State :=
  s.endCmd c { status := BitVec.ofNat 16 status, detail := BitVec.ofNat 16 detail }

/-- Refuse with a status for which the spec names no DETAIL: that value is left open (assumption 17). -/
def State.refuseOpen (s : State) (c : CmdRef) (status : Nat) : State :=
  s.endCmd c { status := BitVec.ofNat 16 status,
               detail := Config.openDetail (match s.findCmd c with | some m => m.opcode | none => 0) status }

/-- Status codes (Table 15-8). -/
def OK : Nat := 0x0000
def OK_PARTIAL : Nat := 0x0001
def OK_DEGRADED : Nat := 0x0002
def BUSY : Nat := 0x0100
def CROSSFADE_BUSY : Nat := 0x0101
def BAD_OPCODE : Nat := 0x0200
def BAD_PARAM : Nat := 0x0201
def NOT_OWNER : Nat := 0x0202
def EXPERT_LOCKED : Nat := 0x0203
def FILTER_RUNNING : Nat := 0x0204
def TIME_JUMP_REFUSED : Nat := 0x0205
def NO_RESERVATION : Nat := 0x0206
def VERSION_MISMATCH : Nat := 0x0207
def ABORTED : Nat := 0x0300
def DATA_POISONED : Nat := 0x0301
def WEIGHTS_UNAVAILABLE : Nat := 0x0302
def ABORT_TOO_LATE : Nat := 0x0400
def UNKNOWN_TAG : Nat := 0x0401

/-- Refuse for the parameter field in word `i` (R698). -/
def State.badWord (s : State) (c : CmdRef) (i : Nat) : State := s.refuse c BAD_PARAM (0x100 + i)

/-! ### Host memory and scatter references -/

/-- Whether the module can read `n` bytes at `a`: the link is up and no range in which reads fail is touched (R650). -/
def State.hostReadable (s : State) (a n : Nat) : Bool :=
  s.life.linkUp && s.hostBad.all fun r => decide (a + n ≤ r.1 ∨ r.1 + r.2 ≤ a)

/-- `n` bytes of host memory at `a`; a byte that nothing has written reads as 0 (assumption 15). -/
def readHost (m : Tab Byte) (a n : Nat) : List Byte := (List.range n).map fun i => Tab.getD m (a + i) 0

/-- Write bytes into host memory in rising order; the list keeps its canonical form. -/
def writeHost (m : Tab Byte) (a : Nat) : List Byte → Tab Byte
  | [] => m
  | b :: t => writeHost (Tab.write 0 m a b) (a + 1) t

def State.hostWrite (s : State) (a : Nat) (b : List Byte) : State := { s with hostMem := writeHost s.hostMem a b }

/-- What a scatter reference turns out to be. -/
inductive SgList where
  | extents (l : List (Nat × Nat))
  | bad
  | poisoned
  deriving DecidableEq, Repr

/-- Walk lists chained by LINK; `todo` holds (address of the next entry, entries left) of the lists still open (Table 15-5, R648). -/
def sgWalk (s : State) : Nat → List (Nat × Nat) → List (Nat × Nat) → Nat → SgList
  | 0, _, _, _ => .bad
  | _ + 1, [], acc, _ => .extents acc.reverse
  | fuel + 1, (_, 0) :: rest, acc, n => sgWalk s fuel rest acc n
  | fuel + 1, (a, k + 1) :: rest, acc, n =>
    if s.hostReadable a 16 then
      let e := readHost s.hostMem a 16
      let addr := leAt e 0 8
      let len := leAt e 8 4
      if leAt e 12 4 % 2 = 1 then
        if 1 ≤ len ∧ len ≤ 256 ∧ addr % 16 = 0 then sgWalk s fuel ((addr, len) :: (a + 16, k) :: rest) acc n else .bad
      else if addr % 4 = 0 ∧ len % 4 = 0 ∧ 4 ≤ len ∧ len ≤ 0x10000000 ∧ n < 65536 then
        sgWalk s fuel ((a + 16, k) :: rest) ((addr, len) :: acc) (n + 1)
      else .bad
    else .poisoned

/-- LIST_ADDR, ENTRIES and TOTAL_BYTES of the scatter reference at word `i` (R696). -/
def Cmd.sgAddr (m : Cmd) (i : Nat) : Nat := (m.w i).toNat + 2 ^ 32 * (m.w (i + 1)).toNat
def Cmd.sgEntries (m : Cmd) (i : Nat) : Nat := (m.w (i + 2)).toNat
def Cmd.sgTotal (m : Cmd) (i : Nat) : Nat := (m.w (i + 3)).toNat
/-- Whether the reference names inline data of a side-band command (R683). -/
def Cmd.sgInline (m : Cmd) (i : Nat) : Bool := m.isTether && m.sgEntries i == 0

/-- The data extents of the scatter reference at word `i` (R648); no entries and no bytes name no data (assumption 21). -/
def sgExtents (m : Cmd) (i : Nat) (s : State) : SgList :=
  if m.sgEntries i = 0 ∧ m.sgTotal i = 0 then .extents []
  else if m.sgEntries i = 0 ∨ 256 < m.sgEntries i ∨ m.sgAddr i % 16 ≠ 0 ∨ 0xFFFFFFFC < m.sgTotal i then .bad
  else match sgWalk s 262144 [(m.sgAddr i, m.sgEntries i)] [] 0 with
    | .extents l => if total (l.map (·.2)) = m.sgTotal i then .extents l else .bad
    | r => r

/-- The bytes that a scatter reference names, or why there are none: `none` reads failing (R650), `some none` an invalid reference. -/
inductive SgData where
  | bytes (b : List Byte)
  | bad
  | poisoned
  deriving DecidableEq, Repr

/-- Read the input data of the scatter reference at word `i`. -/
def sgIn (m : Cmd) (i : Nat) (s : State) : SgData :=
  if m.sgInline i then .bytes (slice m.inlineIn 0 (m.sgTotal i))
  else match sgExtents m i s with
    | .extents l =>
      if l.all fun e => s.hostReadable e.1 e.2 then .bytes (l.flatMap fun e => readHost s.hostMem e.1 e.2) else .poisoned
    | .bad => .bad
    | .poisoned => .poisoned

/-- Write bytes over the extents of a list, in their order, as far as both reach (R651). -/
def writeExtents (mem : Tab Byte) : List (Nat × Nat) → List Byte → Tab Byte
  | [], _ => mem
  | (a, n) :: t, b => writeExtents (writeHost mem a (b.take n)) t (b.drop n)

/-- Write output data to the scatter reference at word `i`, at most TOTAL_BYTES of it (R651); the second part is inline output. -/
def sgOut (m : Cmd) (i : Nat) (b : List Byte) (s : State) : State × List Byte :=
  if m.sgInline i then (s, b.take (m.sgTotal i))
  else match sgExtents m i s with
    | .extents l => ({ s with hostMem := writeExtents s.hostMem l (b.take (m.sgTotal i)) }, [])
    | _ => (s, [])

/-- Continue with the input bytes of the reference at word `i`, or end the command under R648 or R650. -/
def withSg (m : Cmd) (i : Nat) (s : State) (k : List Byte → State) : State :=
  match sgIn m i s with
  | .bytes b => k b
  | .bad => s.refuse m.ref BAD_PARAM 0x0004
  | .poisoned => s.refuse m.ref DATA_POISONED 0x0001

/-- Write output and end: OK, or OK_PARTIAL when the output is larger than TOTAL_BYTES (R651). -/
def State.doneOut (s : State) (m : Cmd) (i : Nat) (b : List Byte) (body : List Word) : State :=
  let o := sgOut m i b s
  o.1.done m.ref (if b.length ≤ m.sgTotal i then OK else OK_PARTIAL) 0 body o.2

/-! ### Messages that leave the module -/

def State.send (s : State) (x : OutMsg) : State := { s with outbox := x :: s.outbox }

/-- A word of a function's MSI-X table; the vector control words reset masked (assumption 1). -/
def FnRegs.msixWord (f : FnRegs) (i : Nat) : Word := Tab.getD f.msix i (if i % 4 = 3 then 1 else 0)

/-- Send an MSI-X message, or set its pending bit while the vector is masked (R652, R653). -/
def State.msix (s : State) (fn v : Nat) : State :=
  if bit ((s.fnAt fn).msixWord (4 * v + 3)) 0 then s.updFn fn fun f => { f with pba := f.pba ||| BitVec.ofNat 8 (2 ^ v) }
  else s.send (.msix fn v)

end Sys2Proof.Machine
end

