-- ==== Sys2Proof/Machine/Operands.lean ====
section
/-! DEFINITION. Operand forms of the commands: the class, marks and scatter references of every opcode (chapter 16), parameter
ranges and defaults (R695), and the checks that COMMAND_START makes (R656, R697). -/

namespace Sys2Proof.Machine

/-- What the tables of chapter 16 give an opcode: class (0 basic, 1 expert, 2 service), marks S, T and A (R699), and the words at
which its scatter references stand (R696). -/
structure OpInfo where
  cls : Nat := 0
  status : Bool := false
  tether : Bool := false
  abortable : Bool := false
  sgIn : List Nat := []
  sgOut : List Nat := []
  deriving DecidableEq, Repr

/-- Commands of 0x00xx. -/
def opRows00 : Tab OpInfo :=
  [(0x0001, { status := true, tether := true }) /- HELLO -/,
   (0x0002, { status := true, tether := true }) /- QUERY_CAPS -/,
   (0x0003, {}) /- ABORT -/,
   (0x0004, { tether := true }) /- DOMAIN_CLAIM -/,
   (0x0005, { tether := true }) /- DOMAIN_RELEASE -/,
   (0x0006, {}) /- EXPERT_ENABLE -/,
   (0x0007, {}) /- EXPERT_DISABLE -/,
   (0x0008, {}) /- EXPERT_POLICY -/]

/-- Commands of 0x01xx. -/
def opRows01 : Tab OpInfo :=
  [(0x0100, { abortable := true, sgIn := [23] }) /- START_SESSION -/,
   (0x0101, {}) /- STOP_SESSION -/,
   (0x0102, {}) /- SET_STAGE_MODE -/,
   (0x0103, { status := true }) /- SESSION_STATUS -/]

/-- Commands of 0x02xx. -/
def opRows02 : Tab OpInfo :=
  [(0x0200, {}) /- PORT_CLAIM -/,
   (0x0201, {}) /- PORT_RELEASE -/,
   (0x0202, {}) /- PORT_CONFIG -/,
   (0x0203, { status := true }) /- PORT_STATUS -/,
   (0x0204, { cls := 1 }) /- PORT_TIMING -/,
   (0x0205, {}) /- CAM_I2C_XFER -/,
   (0x0206, { cls := 1, sgIn := [4] }) /- FORMAT_WRITE -/,
   (0x0207, {}) /- TRIGGER_CLAIM -/]

/-- Commands of 0x03xx. -/
def opRows03 : Tab OpInfo :=
  [(0x0300, { status := true }) /- TIME_GET -/,
   (0x0301, { cls := 1 }) /- TIME_SET -/,
   (0x0302, { cls := 1 }) /- TIME_ADJUST -/,
   (0x0303, { cls := 1 }) /- TIME_SET_INCREMENT -/,
   (0x0304, { cls := 1 }) /- CLOCK_RESET -/,
   (0x0305, {}) /- PTP_CONFIG -/,
   (0x0306, { cls := 1 }) /- REEL_WRITE -/,
   (0x0307, { cls := 1 }) /- REEL_ARM -/,
   (0x0308, { cls := 1 }) /- REEL_DISARM -/,
   (0x0309, { status := true }) /- REEL_READ -/]

/-- Commands of 0x04xx. -/
def opRows04 : Tab OpInfo :=
  [(0x0400, { cls := 1 }) /- FILTER_BIND -/,
   (0x0401, { abortable := true }) /- FILTER_PRESET -/,
   (0x0402, { cls := 1, sgIn := [4] }) /- FILTER_LOAD -/,
   (0x0403, { cls := 1, abortable := true }) /- FILTER_SWAP -/,
   (0x0404, { cls := 1 }) /- FILTER_THRESHOLD -/,
   (0x0405, { status := true }) /- FILTER_READ -/]

/-- Commands of 0x05xx. -/
def opRows05 : Tab OpInfo :=
  [(0x0500, { cls := 1, sgIn := [4] }) /- REMAP_LOAD -/,
   (0x0501, { cls := 1 }) /- STEREO_CONFIG -/,
   (0x0502, { cls := 1 }) /- CHAIN_CONFIG -/,
   (0x0503, { cls := 1 }) /- FEATURE_CONFIG -/,
   (0x0504, { cls := 1, sgIn := [4] }) /- DESC_PATTERN_LOAD -/,
   (0x0505, { cls := 1, sgIn := [4] }) /- QUADRILLE_LOAD -/,
   (0x0506, { cls := 1, abortable := true, sgOut := [4] }) /- QUADRILLE_RUN -/,
   (0x0507, { status := true }) /- VISION_READ -/]

/-- Commands of 0x06xx. -/
def opRows06 : Tab OpInfo :=
  [(0x0600, { cls := 1 }) /- RIG_WRITE -/,
   (0x0601, { status := true }) /- RIG_READ -/,
   (0x0602, { cls := 1 }) /- FUSION_CONFIG -/,
   (0x0603, { status := true }) /- CALIB_READ -/,
   (0x0604, { cls := 1 }) /- CALIB_COMMIT -/]

/-- Commands of 0x07xx. -/
def opRows07 : Tab OpInfo :=
  [(0x0700, {}) /- MAP_CREATE -/,
   (0x0701, {}) /- MAP_DESTROY -/,
   (0x0702, { status := true, abortable := true, sgOut := [6] }) /- MAP_QUERY -/,
   (0x0703, { cls := 1, abortable := true, sgIn := [4], sgOut := [8] }) /- MAP_EDIT -/,
   (0x0704, {}) /- MAP_LEND -/,
   (0x0705, {}) /- MAP_RECALL -/,
   (0x0706, { abortable := true, sgIn := [11], sgOut := [15] }) /- MAP_MERGE -/,
   (0x0707, { status := true, abortable := true, sgOut := [4] }) /- MAP_EXPORT -/,
   (0x0708, { abortable := true, sgIn := [9] }) /- MAP_IMPORT -/]

/-- Commands of 0x08xx. -/
def opRows08 : Tab OpInfo :=
  [(0x0800, { cls := 1, sgIn := [11] }) /- INDEX_CREATE -/,
   (0x0801, {}) /- INDEX_DESTROY -/,
   (0x0802, { sgIn := [4], sgOut := [8] }) /- SEARCH_INSERT -/,
   (0x0803, { status := true, abortable := true, sgIn := [3], sgOut := [7] }) /- SEARCH_QUERY -/]

/-- Commands of 0x09xx. -/
def opRows09 : Tab OpInfo :=
  [(0x0900, { cls := 1, abortable := true, sgIn := [3] }) /- CONTEXT_ADMIT -/,
   (0x0901, { cls := 1 }) /- CONTEXT_RELEASE -/,
   (0x0902, { status := true }) /- CONTEXT_STATUS -/]

/-- Commands of 0x0Axx. -/
def opRows0A : Tab OpInfo :=
  [(0x0A00, { sgOut := [3] }) /- HOST_WINDOW_SET -/,
   (0x0A01, {}) /- OBJ_CREATE -/,
   (0x0A02, {}) /- OBJ_DESTROY -/,
   (0x0A03, { abortable := true, sgIn := [5] }) /- OBJ_WRITE -/,
   (0x0A04, { abortable := true, sgOut := [5] }) /- OBJ_READ -/,
   (0x0A05, {}) /- OBJ_SEAL -/,
   (0x0A06, {}) /- OBJ_SHARE -/,
   (0x0A07, {}) /- OBJ_UNSHARE -/,
   (0x0A08, { cls := 1, abortable := true }) /- OBJ_MOVE -/,
   (0x0A09, { abortable := true }) /- OBJ_PROMOTE -/,
   (0x0A0A, {}) /- OBJ_EVICT -/,
   (0x0A0B, {}) /- OBJ_PIN -/,
   (0x0A0C, {}) /- OBJ_UNPIN -/,
   (0x0A0D, { cls := 1 }) /- WINDOW_BIND -/,
   (0x0A0E, { cls := 1, sgIn := [4] }) /- STREAM_BIND -/,
   (0x0A0F, { status := true }) /- OBJ_QUERY -/,
   (0x0A10, { abortable := true, sgIn := [4] }) /- OBJ_RELOAD -/]

/-- Commands of 0x0Bxx. -/
def opRows0B : Tab OpInfo :=
  [(0x0B00, { tether := true }) /- POWER_CAP_SET -/,
   (0x0B01, {}) /- ENERGY_ACCOUNT_SET -/,
   (0x0B02, { cls := 1 }) /- BALLAST_SET -/,
   (0x0B03, { cls := 1, sgIn := [3] }) /- WORKLEVEL_LOAD -/,
   (0x0B04, { cls := 1, sgIn := [4] }) /- VF_CURVE_LOAD -/,
   (0x0B05, { tether := true }) /- POWER_STATE_SET -/,
   (0x0B06, { status := true, tether := true }) /- ENERGY_STATUS -/]

/-- Commands of 0x0Cxx. -/
def opRows0C : Tab OpInfo :=
  [(0x0C00, { tether := true }) /- SAFE_STOP -/,
   (0x0C01, { tether := true }) /- SAFE_STOP_CLEAR -/,
   (0x0C02, { status := true, tether := true }) /- HEALTH_STATUS -/,
   (0x0C03, {}) /- MARGIN_REPLAN -/,
   (0x0C04, { status := true, tether := true, sgOut := [3] }) /- AGEING_READ -/,
   (0x0C05, { status := true, tether := true }) /- EVENT_READ -/]

/-- Commands of 0x0Dxx. -/
def opRows0D : Tab OpInfo :=
  [(0x0D00, { status := true, tether := true, sgOut := [4] }) /- IDENTITY_READ -/,
   (0x0D01, { status := true, tether := true }) /- FW_STATUS -/,
   (0x0D02, { cls := 2, abortable := true, sgIn := [5] }) /- FW_STAGE -/,
   (0x0D03, { cls := 2, abortable := true }) /- FW_ACTIVATE -/,
   (0x0D04, { cls := 2, sgIn := [3] }) /- OWNER_KEY_TRANSFER -/]

/-- Commands of 0x0Exx. -/
def opRows0E : Tab OpInfo :=
  [(0x0E00, { status := true }) /- DIAG_TILE_STATUS -/,
   (0x0E01, { status := true }) /- DIAG_BAND_STATUS -/,
   (0x0E02, { status := true }) /- DIAG_COUNTERS -/,
   (0x0E03, { cls := 1 }) /- DIAG_FAULT_INJECT -/]

/-- Every opcode of "Command Reference". -/
def opTable : Tab OpInfo :=
  opRows00 ++ opRows01 ++ opRows02 ++ opRows03 ++ opRows04 ++ opRows05 ++ opRows06 ++ opRows07 ++ opRows08 ++ opRows09 ++ opRows0A ++ opRows0B ++ opRows0C ++ opRows0D ++ opRows0E

def opInfo (op : Nat) : Option OpInfo := Tab.get? opTable op

/-- The domain of an opcode (Table 15-6); 0 stands for the protocol, which is always accepted. -/
def opDomain (op : Nat) : Nat := if op = 0x0C00 ∨ op = 0x0C01 then 0x0F else op / 256

/-- Domains of module scope (Table 15-6). -/
def moduleScope (d : Nat) : Bool := [0x03, 0x0B, 0x0D, 0x0F].contains d

/-- Whether an ABORT may name the command: it carries ABORTABLE and its opcode has mark A (R699). -/
def Cmd.abortable (m : Cmd) : Bool :=
  m.abortBit && (match opInfo m.opcode with | some o => o.abortable | none => false)

/-- A field with a default: zero outside the range selects the default, another value outside it is refused (R695). -/
def withDefault (x lo hi d : Nat) : Option Nat :=
  if lo ≤ x ∧ x ≤ hi then some x else if x = 0 then some d else none

/-- A field without a default: a value outside the range is refused, zero included (R695). -/
def inRange (x lo hi : Nat) : Option Nat := if lo ≤ x ∧ x ≤ hi then some x else none

/-- Whether the Tether master controls domain `d` (R668). -/
def State.tetherOwns (s : State) (d : Nat) : Bool := bit s.tether.claims d

/-- Whether the expert class is enabled for a master in domain `d` (R661). -/
def State.expertOn (s : State) (who : Sender) (d : Nat) : Bool :=
  match who with
  | .host n => bit (s.fnAt n).expert d
  | .tether => bit s.tether.expert d

/-- Whether HELLO has completed with OK for the sender of a command (R21, R676). -/
def State.helloDone (s : State) (m : Cmd) : Bool :=
  match m.ref.sender with
  | .host n => (s.fnAt n).ready
  | .tether => decide (s.tether.endpoint = some m.eid)

/-- Ownership of the opcode's domain (R59, R666, R667, R671, R672): the NOT_OWNER detail when it is refused. -/
def notOwnerDetail (m : Cmd) (o : OpInfo) (s : State) : Option Nat :=
  let d := opDomain m.opcode
  let own := s.tetherOwns d
  let detail := (if own then 256 else 0) + d
  if d = 0 ∨ o.status then none
  else match m.ref.sender with
    | .tether => if m.opcode = 0x0C00 ∨ own then none else some detail
    | .host n => if own ∨ (n ≠ 0 ∧ moduleScope d) then some detail else none

/-- Outstanding commands of the same master and function that came before `m` (R646, R654). -/
def earlier (m : Cmd) (s : State) : List Cmd :=
  (s.cmds.takeWhile fun x => decide (x.ref ≠ m.ref)).filter fun x => decide (x.ref.sender = m.ref.sender)

/-- HELLO, QUERY_CAPS, ABORT, status reads and service commands (R665, R902). -/
def earlyOk (m : Cmd) (o : OpInfo) : Bool :=
  m.opcode == 0x0001 || m.opcode == 0x0002 || m.opcode == 0x0003 || o.status || o.cls == 2

/-- Whether stage 3 to 7 of a firmware update is under way (R885). -/
def State.updating (s : State) : Bool := decide (3 ≤ s.sec.stage ∧ s.sec.stage ≤ 7)

/-- Whether step 3 of the main-side start has ended (Table 22-1). -/
def State.step3Ended (s : State) : Bool := decide (s.life.bootTick ≤ s.time.ticks)

/-- The state of the module that forbids a command: the DETAIL of its BUSY (R665, R675, R678, R885, R902, R909). R675 does not bear on what the
tether core serves while the main side is off or starting (assumption 27). -/
def busyDetail (m : Cmd) (o : OpInfo) (s : State) : Option Nat :=
  let served := m.isTether && o.tether
  let life : Option Nat :=
    match s.life.main with
    | .off => if o.tether then none else some 1
    | .starting => if (earlyOk m o && s.step3Ended) || served then none else some 7
    | .failed _ => if earlyOk m o || served then none else some 8
    | .recovery => if earlyOk m o then none else some 4
    | .ready => none
  match life with
  | some d => some d
  | none =>
    if s.life.safeStop ∧ s.life.main ≠ .off ∧ s.life.main ≠ .starting ∧ ¬ (opDomain m.opcode = 0 ∨ o.status ∨ m.opcode = 0x0C00 ∨ m.opcode = 0x0C01) then some 3
    else if s.updating ∧ [0x0100, 0x0900, 0x0D02, 0x0D03].contains m.opcode then some 6
    else none

/-- Scatter references of a command are checked at its start (R648, R650, R683); DESC_PATTERN_LOAD with the restore bit has none. -/
def sgCheck (m : Cmd) (o : OpInfo) (s : State) : Option (Nat × Nat) :=
  if m.opcode = 0x0504 ∧ bit (m.w 3) 0 then none
  else if m.opcode = 0x0604 then none
  else (o.sgIn ++ o.sgOut).findSome? fun i =>
    if m.sgInline i then (if 3584 < m.sgTotal i then some (BAD_PARAM, 0x0006) else none)
    else match sgExtents m i s with
      | .extents _ => none
      | .bad => some (BAD_PARAM, 0x0004)
      | .poisoned => some (DATA_POISONED, 0x0001)

/-- Every check made at a command's start, in the order of R656 (assumption 18): the status and DETAIL of a refusal. The DETAIL of the VERSION_MISMATCH given
before HELLO, and for another major after it, is open (DESIGN CHOICE, entry 17: Table 15-9 names none). -/
def startCheck (m : Cmd) (s : State) : Option (Nat × Nat) :=
  let mismatch := some (VERSION_MISMATCH, (Config.openDetail m.opcode VERSION_MISMATCH).toNat)
  if m.len < 3 ∨ 128 < m.len then some (BAD_PARAM, 0x0001)
  else if m.isTether ∧ (3584 < m.inlineIn.length ∨ 4096 < 5 + 4 * m.words.length + m.inlineIn.length) then some (BAD_PARAM, 0x0006)
  else if s.helloDone m = false ∧ m.opcode ≠ 0x0001 ∧ m.opcode ≠ 0x0002 then mismatch
  else if s.helloDone m ∧ m.opcode ≠ 0x0001 ∧ m.major ≠ 1 then mismatch
  else match opInfo m.opcode with
  | none => some (BAD_OPCODE, 0x0001)
  | some o =>
    if m.cls ≠ o.cls then some (BAD_OPCODE, 0x0002)
    else if m.isTether = false ∧ (m.opcode = 0x0004 ∨ m.opcode = 0x0005 ∨ m.opcode = 0x0C05) then some (BAD_OPCODE, 0x0003)
    else if m.isTether ∧ m.opcode = 0x0008 then some (BAD_OPCODE, 0x0003)
    else if o.cls = 1 ∧ s.expertOn m.ref.sender (opDomain m.opcode) = false then some (EXPERT_LOCKED, 256 * opDomain m.opcode)
    else match notOwnerDetail m o s with
    | some d => some (NOT_OWNER, d)
    | none =>
      if (earlier m s).any fun x => x.tag == m.tag then some (BAD_PARAM, 0x0003)
      else if (match m.ref.sender with
          | .host n => decide (m.ctxField ≠ n)
          | .tether => decide (o.status = false ∧ m.ctxField ≠ 0)) then some (BAD_PARAM, 0x0002)
      else if m.isTether ∧ m.opcode = 0x0001 ∧ s.tether.endpoint.isSome ∧ s.tether.endpoint ≠ some m.eid
          ∧ (earlier m s).any (fun x => decide (some x.eid = s.tether.endpoint)) then some (BUSY, 0x0002)
      else if m.isTether ∧ 8 ≤ (earlier m s).length then some (BUSY, 0x0005)
      else match busyDetail m o s with
      | some d => some (BUSY, d)
      | none => sgCheck m o s

end Sys2Proof.Machine
end

