-- ==== Sys2Proof/Machine/Flags.lean ====
section
/-! DEFINITION. Status words computed from the state: the registers of BAR0 (Tables 15-1, 15-2) and the pins that show a state. -/

namespace Sys2Proof.Machine

/-- Whether the main side is powered. -/
def State.mainOn (s : State) : Bool := decide (s.life.main ≠ .off)

/-- FUNC_STATUS of a function (Table 15-2). -/
def funcStatus (s : State) (fn : Nat) : Word :=
  let f := s.fnAt fn
  w32 ((if f.writeLost then 128 else 0) + (if s.life.safeStop then 64 else 0)
    + (if s.life.main = .recovery then 32 else 0)
    + (if fn = 0 ∨ f.policy ≠ 0 then 16 else 0) + fn % 8 * 2 + (if f.ready then 1 else 0))

/-- DOMAIN_OWNER: bit d set while the Tether master controls domain d (Table 15-1). -/
def domainOwner (s : State) : Word := s.tether.claims.setWidth 32

/-- EXPERT_STATE of a master (Table 15-1, Table 16-1). -/
def expertState (s : State) (who : Sender) : Word :=
  match who with
  | .host n => (s.fnAt n).expert.setWidth 32
  | .tether => s.tether.expert.setWidth 32

/-- A read of a function's BAR0 at a byte offset (Table 15-1); reserved offsets read zero. -/
def bar0Read (s : State) (fn offset : Nat) : Word :=
  let f := s.fnAt fn
  if offset < 0x4000 then Tab.getD f.slots (offset / 4) 0
  else if offset = 0x4000 then funcStatus s fn
  else if offset = 0x4004 then f.slotBusy
  else if offset = 0x4008 then f.slotDone
  else if offset = 0x400C then domainOwner s
  else if offset = 0x4010 then expertState s (.host fn)
  else if 0x6000 ≤ offset ∧ offset < 0x6080 then f.msixWord ((offset - 0x6000) / 4)
  else if offset = 0x7000 then f.pba.setWidth 32
  else 0

/-- TETHER_ALERT# is driven low while an unread event is queued, unless its driver is off (R679, R712, R945). -/
def tetherAlertLow (s : State) : Bool := !s.tether.queue.isEmpty && !(s.outputAt 31).off

/-- Tiles of a state of Table 11-5. -/
def tilesIn (s : State) (st : Nat) : List Nat := (List.range 56).filter fun n => (s.tileAt n).state == st

/-- The module's protocol minor toward a master: a function that has completed HELLO keeps the one agreed (R18, R881). -/
def State.minorOf (s : State) (who : Sender) : Nat :=
  match who with
  | .host n => if (s.fnAt n).ready then (s.fnAt n).fwMinor.toNat else s.sec.runMinor
  | .tether => s.sec.runMinor

/-! ### Requests to the voltage sequencer (R772 to R776) -/

/-- The supply of an island at a frequency by its curve (R776). The firmware's curves are not given (assumption 16, place 52); above the last
point of a loaded curve the last point stands. -/
def State.curveVolt (s : State) (island mhz : Nat) : Nat :=
  match (s.islandAt island).curve with
  | [] => 650 + Config.openVal 52 (65536 * island + mhz) % 251
  | c => match c.find? fun p => decide (mhz ≤ p.1) with
    | some p => p.2
    | none => (c.getLastD (0, 0)).2

/-- A request for a frequency of an island (R774): carried out next, or kept as the latest that waits. -/
def State.requestFreq (s : State) (island mhz : Nat) : State :=
  let goal := (mhz, s.curveVolt island mhz)
  let x := s.islandAt island
  if x.target.isNone ∧ x.mhz = mhz then s
  else s.updIsland island fun x => if x.target.isNone then { x with target := some goal } else { x with waiting := some goal }

/-- The word clock that the fastest configured lane rate of the claimed cameras needs, in MHz (Table 18-1). -/
def State.wordClock (s : State) : Nat :=
  maxD 0 (((List.range 12).filter fun p => (s.portAt p).owner.isSome).map fun p => ceilDiv (10 * fld (s.portAt p).camCfg 7 0) 8)

end Sys2Proof.Machine
end

