-- ==== Sys2Proof/Machine/Records.lean ====
section
/-! DEFINITION. Records and output rings (R82 to R99, R152, R153): the record header, the writes that place a record, the records held
while the host link is down, and the ageing ledger's appends (R832 to R835). -/

namespace Sys2Proof.Machine

/-- FLAGS of a record (Table 2-8). -/
structure RecFlags where
  single : Bool := false
  partialIn : Bool := false
  classical : Bool := false
  rateChange : Bool := false
  unaligned : Bool := false
  degraded : Bool := false
  revised : Bool := false
  deriving DecidableEq, Repr

def RecFlags.word (f : RecFlags) : Nat :=
  (if f.single then 64 else 0) + (if f.partialIn then 32 else 0) + (if f.classical then 16 else 0) + (if f.rateChange then 8 else 0)
    + (if f.unaligned then 4 else 0) + (if f.degraded then 2 else 0) + (if f.revised then 1 else 0)

/-- What a record says beside its body (Table 2-6). -/
structure RecHead where
  type : Nat
  tValid : Int
  oldest : Int
  flags : RecFlags := {}
  source : Nat := 0
  /-- the latency start of a POSE_OPT (R36) -/
  start : Option Nat := none
  deriving DecidableEq, Repr

/-- Cells of a record whose body has `n` bytes: header, body, and 4 bytes for the trailer (R88, R95). -/
def recCells (n : Nat) : Nat := ceilDiv (48 + n + 4) 64

/-- A time in nanoseconds as a 64-bit field. -/
def timeField (t : Int) : Nat := (t % 2 ^ 64).toNat

/-- The bytes of a record: header, body, zeros, trailer (Table 2-6, R88). -/
def recBytes (h : RecHead) (seq : Word) (commit : Nat) (ctx : Nat) (session : BitVec 16) (body : List Byte) : List Byte :=
  let cells := recCells body.length
  let age := min (Int.ofNat commit - h.oldest).toNat 0xFFFFFFFF
  leBytes 2 h.type ++ leBytes 2 cells ++ wBytes seq ++ leBytes 8 (timeField h.tValid) ++ leBytes 8 commit ++ leBytes 4 age
    ++ leBytes 4 h.flags.word ++ leBytes 1 ctx ++ leBytes 1 1 ++ leBytes 2 session.toNat ++ leBytes 4 h.source ++ zeros 8
    ++ body ++ zeros (64 * cells - 52 - body.length) ++ wBytes seq

/-- The PAD record of `cells` cells: its SEQ and trailer are zero (Table 2-7); its other bytes are zero (assumption 7). -/
def padBytes (cells : Nat) : List Byte := leBytes 2 0 ++ leBytes 2 cells ++ zeros (64 * cells - 4)

/-- Cells of a ring (R84). -/
def Ring.cells (r : Ring) : Nat := 2 ^ (r.log2 - 6)

/-- Where a record of `n` cells starts, and how many cells a PAD record fills first (R85). -/
def Ring.fit (r : Ring) (n : Nat) : Nat × Nat := if r.cell + n ≤ r.cells then (r.cell, 0) else (1, r.cells - r.cell)

/-- Write a record's bytes to ring `k` of the session of context `n`, then the ring head (R85, R88, Table 2-5). -/
def State.ringWrite (s : State) (n k : Nat) (bytes : List Byte) : State :=
  match s.sessionAt n with
  | none => s
  | some x =>
    let r := x.rings.getD k {}
    let cells := bytes.length / 64
    let f := r.fit cells
    let s := if f.2 = 0 then s else s.hostWrite (r.base + 64 * r.cell) (padBytes f.2)
    let s := s.hostWrite (r.base + 64 * f.1) bytes
    let s := s.hostWrite r.base (slice bytes 4 4 ++ leBytes 4 f.1 ++ slice bytes 16 8 ++ zeros 48)
    s.updSession n fun y => { y with rings := setAt {} y.rings k { r with cell := f.1 + cells } }

/-- A POSE_OPT is complete in host memory: its sensor-to-pose latency runs to now (R36). -/
def State.noteLatency (s : State) (n : Nat) (start : Option Nat) : State :=
  match start with
  | some t => s.updSession n fun x => { x with worstLatency := max x.worstLatency (s.devNs - t) }
  | none => s

/-- Commit a record to ring `k` (0 pose, 1 track, 2 map, 3 health) of context `n`: it takes the ring's next SEQ (R87) and is written,
or held while the host link is down (R92). -/
def State.record (s : State) (n k : Nat) (h : RecHead) (body : List Byte) : State :=
  match s.sessionAt n with
  | none => s
  | some x =>
    let r := x.rings.getD k {}
    let b := recBytes h r.seq s.devNs n x.number body
    let s := s.updSession n fun y => { y with rings := setAt {} y.rings k { r with seq := r.seq + 1, lastSeq := r.seq } }
    let s := if r.seq = 0xFFFFFFFF then s.raise 0x8305 (3 + k) else s
    if s.life.linkUp then (s.ringWrite n k b).noteLatency n h.start
    else { s with held := s.held ++ [{ ctx := n, ring := k, tick := s.time.ticks, start := h.start, bytes := b }] }

/-- Write every held record, in the order in which it was held. -/
def State.flushHeld (s : State) : State :=
  let l := s.held
  forEach l (fun h s => (s.ringWrite h.ctx h.ring h.bytes).noteLatency h.ctx h.start) { s with held := [] }

/-! ### The ageing ledger (R832 to R835) -/

/-- Drop every second margin entry among the oldest half of the margin entries (R834). -/
def thinLedger (l : List LedgerEntry) : List LedgerEntry × Nat :=
  let half := (l.filter fun e => e.kind == 1).length / 2
  let r := l.foldl (fun (a : List LedgerEntry × Nat × Nat) e =>
    if e.kind = 1 ∧ a.2.1 < half then
      (if a.2.1 % 2 = 1 then (a.1, a.2.1 + 1, a.2.2 + 1) else (a.1 ++ [e], a.2.1 + 1, a.2.2))
    else (a.1 ++ [e], a.2.1, a.2.2)) ([], 0, 0)
  (r.1, r.2.2)

/-- OP_TIME in units of 0.1 h (Table 20-3). -/
def State.opTime (s : State) : Nat := s.age.opTicks / 180000000000

/-- Append an entry to the ageing ledger (R832, R834). -/
def State.ledger (s : State) (e : LedgerEntry) : State :=
  let e := { e with opTime := s.opTime, deviceTime := s.devTime }
  let t := if s.age.ledger.length < 16384 then (s.age.ledger, 0) else thinLedger s.age.ledger
  s.mapAge fun a => { a with ledger := t.1 ++ [e], dropped := a.dropped + t.2 }

end Sys2Proof.Machine
end

