-- ==== Sys2Proof/Machine/Ageing.lean ====
section
/-! DEFINITION. Margin re-planning and the ageing ledger's read (R822 to R835). -/

namespace Sys2Proof.Machine

/-- A re-planning is requested, or joins the one that runs (R825, R829). -/
def requestReplan (apply : Bool) (l : List CmdRef) (s : State) : State :=
  s.mapAge fun a => { a with replan := match a.replan with
    | some (x, k) => some (x || apply, k ++ l)
    | none => some (apply, l) }

/-- FABRIC_RATE_LOW (R477): the low-rate episodes at the end of a planning interval, for a band and its measured rate. -/
def lowRateEpisode (band rate : Nat) (s : State) : State :=
  if Tab.has s.bands band = false then s
  else if 1050 ≤ rate then s.updBand band fun b => { b with lowRate := none }
  else match (s.bandAt band).lowRate with
    | none =>
      requestReplan true [] ((s.updBand band fun b => { b with lowRate := some 0 }).raiseCtx (s.bandAt band).ctx 0x8903 (band * 4096 + min 4095 rate))
    | some k =>
      let s := s.updBand band fun b => { b with lowRate := some (k + 1) }
      if (k + 1) % 1000 = 0 then requestReplan true [] s else s

/-- The measurement of an interval (R822, R823): the four replica lines and the handshake time of every tile, and the line of every clocked island
but 7. A tile whose interval held no step to count keeps its handshake time (DESIGN CHOICE, entry 13). -/
def measureCadence (r : IntervalReport) (s : State) : State :=
  s.mapAge fun a =>
    { a with tiles := r.tiles.foldl (fun t x => if 64 ≤ x.tile then t else Tab.upd t x.tile {} fun q =>
               { q with lines := x.lines.take 4, handshake := if x.steps = 0 then q.handshake else x.stepPs / x.steps }) a.tiles
             islandLines := r.islands.foldl (fun t e => if 7 ≤ e.1 then t else Tab.put t e.1 e.2) a.islandLines }

/-- One 10 mV step of the fabric supply toward the ordered V_SET (R828). -/
def vSetStep (s : State) : State :=
  s.mapAge fun a => { a with vSet := if a.vSet < a.vTarget then min a.vTarget (a.vSet + 10) else max a.vTarget (a.vSet - 10) }

/-- MARGIN_REPLAN (R827, R829). -/
def execMarginReplan (c : CmdRef) (s : State) : Out :=
  onCmd 0x0C03 c s fun m s =>
    if m.ctx ≠ 0 then s.refuseOpen c NOT_OWNER else requestReplan (bit (m.w 3) 0) [c] s

/-- A day of operation in ticks. -/
def opDay : Nat := 43200000000000

/-- MARGIN_REPLAN_DAILY (R825): after every 24 h of operation. -/
def execMarginReplanDaily (s : State) : Out :=
  onTrigger (s.mainOn && decide (opDay ≤ s.age.sinceDaily)) s fun s =>
    requestReplan true [] (s.mapAge fun a => { a with sinceDaily := a.sinceDaily - opDay })

/-- V_REQ in mV, rounded up (Table 20-1). -/
def MarginReport.vReq (r : MarginReport) : Int := 810 - (Int.ofNat r.rSlow - 1050) * 1000 / Int.ofNat r.s1000

/-- V_SET of a re-planning (Table 20-1). -/
def vSetOf (vReq : Int) : Nat := (min 880 (max 800 vReq)).toNat

/-- MARGIN_LOW for every threshold that the remaining margin has now reached for the first time (R831). -/
def marginLow (s : State) : State :=
  forEach [40, 20, 0] (fun t s =>
    if s.age.margin ≤ Int.ofNat t ∧ s.age.lowRaised.contains t = false then
      (s.mapAge fun a => { a with lowRaised := t :: a.lowRaised }).raise 0x8C11 t
    else s) s

/-- An applied re-planning: V_SET is ordered, a margin entry is written and the events are raised (R827, R831, R832). -/
def applyReplan (r : MarginReport) (s : State) : State :=
  let v := MarginReport.vReq r
  let s := s.mapAge fun a => { a with vTarget := vSetOf v, margin := 880 - v }
  let s := s.ledger { kind := 1, subject := r.tile, vReq := v, vSet := vSetOf v, rSlow := r.rSlow, tjMean := r.tjMean, tjMax := r.tjMax }
  marginLow (s.raise 0x8C10 ((880 - v) % 65536).toNat)

/-- MARGIN_REPLANNED (R826 to R832): the running re-planning completes with the quantities measured. One that reports only changes nothing
(assumption 13). -/
def execMarginReplanned (r : MarginReport) (s : State) : Out :=
  match s.age.replan with
  | none => .next s
  | some (apply, l) =>
    onTrigger (decide (0 < r.s1000)) s fun s =>
      let s := s.mapAge fun a => { a with replan := none }
      let s := if apply then applyReplan r s else s
      let life := if (s.age.ledger.filter fun e => e.kind == 1).length < 7 then 0xFFFFFFFF else r.life
      forEach l (fun c s => s.done c OK 0 [wInt (880 - MarginReport.vReq r), w32 life]) s

/-- The 32 bytes of a ledger entry (Table 20-3). -/
def LedgerEntry.bytes (e : LedgerEntry) : List Byte :=
  let b := leBytes 1 e.kind ++ leBytes 1 e.subject ++ leBytes 2 e.subject2 ++ leBytes 4 e.opTime ++ leBytes 8 e.deviceTime.toNat
    ++ leBytes 2 (e.vReq % 65536).toNat ++ leBytes 2 e.vSet ++ leBytes 2 e.rSlow ++ [e.tjMean, e.tjMax] ++ zeros 4
  b ++ wBytes (crc32 b)

/-- AGEING_READ's data (R835, R970); the exponent n of the fuses is not given (assumption 16, place 54). -/
def ageingBytes (s : State) : List Byte :=
  let l := s.age.ledger.filter fun e => !e.torn
  leBytes 4 l.length ++ leBytes 4 s.opTime ++ leBytes 4 s.age.dropped ++ leBytes 4 880 ++ leBytes 4 (Config.openVal 54 0) ++ leBytes 4 1500
    ++ zeros 8 ++ l.flatMap LedgerEntry.bytes

/-- AGEING_READ (R835). -/
def execAgeingRead (c : CmdRef) (s : State) : Out :=
  onCmd 0x0C04 c s fun m s => let b := ageingBytes s
    s.doneOut m 3 b [w32 (min b.length (m.sgTotal 3))]

end Sys2Proof.Machine
end

