-- ==== Sys2Proof/Machine/Presets.lean ====
section
/-! DEFINITION. The filter presets (R220, Table 5-4): their figures, the bounds of R220 on a set, and one set per preset that meets them. -/

namespace Sys2Proof.Machine

/-- Output rate and taps of a preset: JIG, POLKA, WALTZ, PAVANE (Table 5-4). -/
def presetFigures (p : Nat) : Nat × Nat := [(3200, 32), (1600, 64), (800, 128), (200, 384)].getD p (1600, 64)

/-- The bands of a preset at 6,400 Hz (R220, Table 5-4) as t = 4096 · √(1 − cos(2πf / 6400)): half of the −3 dB point, that point less and plus
5 %, and half of the output rate, each rounded towards its band. -/
def presetBands (p : Nat) : Nat × Nat × Nat × Nat :=
  [(1544, 2842, 3112, 4096), (793, 1495, 1649, 2217), (397, 754, 834, 1131), (102, 194, 215, 285)].getD p (0, 0, 0, 0)

/-- The squared gain of a symmetric set of even length, by the half from its centre outwards, at the frequency t: with x = cos(2πf / 6400) =
1 − t² / 2^24 it is 2(1 + x)(Σ c_k V_k(x))² / 2^28, where V_0 = 1, V_1 = 2x − 1 and V_(k+1) = 2x V_k − V_(k−1). -/
def gainSq (inner : List Int) (t : Nat) : Dy :=
  let x : Dy := ⟨2 ^ 24 - Int.ofNat (t * t), -24⟩
  let x2 := x.add x
  let r := inner.foldl (fun (a : Dy × Dy × Dy) c => (a.2.1, (x2.mul a.2.1).sub a.1, a.2.2.add (a.2.1.mul ⟨c, 0⟩))) (⟨1, 0⟩, ⟨1, 0⟩, ⟨0, 0⟩)
  ((x2.add ⟨2, 0⟩).mul r.2.2.sq).mul (Dy.pow2 (-28))

/-- `a · d ≤ n`. -/
def Dy.scaleLe (d : Dy) (a n : Int) : Bool := (d.mul ⟨a, 0⟩).le ⟨n, 0⟩

/-- The bounds of R220 on a preset's first half, outermost coefficient first: sum 8,192 for half the set, the −3 dB point, the ripple of the passband and
the attenuation, at 33 and 513 frequencies of the two bands (DESIGN CHOICE, entry 5: the ripple is counted from the gain at DC, and the bounds between
those frequencies are not tested), in 16-bit coefficients whose magnitudes fit R215. -/
def presetOk (p : Nat) (half : List Int) : Bool :=
  let inner := half.reverse
  let b := presetBands p
  decide (half.foldl (· + ·) 0 = 8192) && decide (total (half.map Int.natAbs) ≤ 65536) && half.all (fun c => decide (-32768 ≤ c ∧ c ≤ 32767))
    && !(gainSq inner b.2.1).scaleLe 1000000 501186 && (gainSq inner b.2.2.1).scaleLe 1000000 501187
    && (List.range 33).all (fun j => let g := gainSq inner (b.1 * j / 32); g.scaleLe 1000000 1059253 && !g.scaleLe 1000000 944060)
    && (List.range 513).all fun j => (gainSq inner (b.2.2.2 + (5792 - b.2.2.2) * j / 512)).scaleLe 1000 1

/-- One half of a set that meets the bounds for JIG, outermost coefficient first. -/
def jigHalf : List Int :=
  [-16, -31, 6, 84, 86, -74, -243, -127, 292, 527, 55, -863, -1059, 493, 3370, 5692]

/-- One half of a set that meets the bounds for POLKA, outermost coefficient first. -/
def polkaHalf : List Int :=
  [-3, -11, -18, -19, -12, 5, 29, 50, 58, 44, 5, -50, -104, -133, -116, -47, 64, 183, 264, 264, 157, -46, -296, -510]
    ++ [-592, -462, -79, 533, 1288, 2052, 2673, 3021]

/-- One half of a set that meets the bounds for WALTZ, outermost coefficient first. -/
def waltzHalf : List Int :=
  [-1, -3, -5, -7, -8, -10, -10, -10, -8, -4, 0, 6, 12, 18, 24, 28, 30, 29, 25, 18, 8, -4, -18, -33]
    ++ [-47, -58, -66, -68, -63, -52, -34, -11, 18, 48, 78, 105, 126, 137, 137, 124, 97, 57, 5, -54, -118, -179, -233, -274]
    ++ [-295, -291, -259, -195, -98, 28, 182, 357, 547, 743, 935, 1113, 1269, 1395, 1482, 1527]

/-- One half of a set that meets the bounds for PAVANE, outermost coefficient first. -/
def pavaneHalf : List Int :=
  [2, 2, 2, 3, 3, 3, 3, 3, 3, 3, 4, 4, 4, 4, 4, 4, 3, 3, 3, 3, 3, 3, 2, 2]
    ++ [1, 1, 1, 0, 0, -1, -1, -2, -3, -3, -4, -5, -5, -6, -7, -7, -8, -9, -9, -10, -10, -11, -11, -12]
    ++ [-12, -12, -12, -12, -12, -12, -12, -12, -12, -11, -11, -10, -9, -9, -8, -7, -6, -5, -3, -2, -1, 1, 3, 4]
    ++ [6, 7, 9, 11, 13, 14, 16, 18, 19, 21, 22, 24, 25, 26, 28, 28, 29, 30, 31, 31, 31, 31, 31, 30]
    ++ [30, 29, 28, 26, 25, 23, 21, 19, 16, 14, 11, 8, 5, 1, -2, -6, -10, -13, -17, -21, -25, -29, -33, -37]
    ++ [-41, -45, -49, -52, -56, -59, -62, -65, -67, -69, -71, -72, -73, -74, -74, -73, -72, -71, -69, -67, -64, -61, -56, -52]
    ++ [-47, -41, -35, -28, -20, -12, -4, 5, 15, 24, 35, 46, 57, 69, 81, 93, 105, 118, 131, 144, 158, 171, 184, 197]
    ++ [211, 224, 237, 249, 262, 274, 286, 297, 308, 319, 329, 339, 347, 356, 363, 370, 377, 382, 387, 391, 394, 397, 398, 399]

/-- The fallback half of a preset. -/
def presetHalf (p : Nat) : List Int := [jigHalf, polkaHalf, waltzHalf, pavaneHalf].getD p polkaHalf

/-- A preset's coefficients: symmetric and within R220. The spec leaves the values to the firmware version (assumption 16, place 44): any that meet the
bounds; open values that do not meet them stand for the set above. -/
def presetCoeff (version p : Nat) : List Int :=
  let half := (List.range ((presetFigures p).2 / 2)).map fun i => sext 16 (Config.openVal 44 ((version * 4 + p) * 256 + i))
  let half := if presetOk p half then half else presetHalf p
  half ++ half.reverse

end Sys2Proof.Machine
end

