-- ==== Sys2Proof/Machine/Timebase.lean ====
section
/-! DEFINITION. Device time, its servo and its commands (chapter 3): ticks, PPS, PTP, TIME and CLOCK commands. -/

namespace Sys2Proof.Machine

/-- Whether any context has a session running or stopping (R129, R133). -/
def State.anySession (s : State) : Bool := !s.sessionCtxs.isEmpty

/-- INCREMENT's accepted range (R109). -/
def incMin : Nat := 0x01FFBE76C9
def incMax : Nat := 0x0200418937

/-- A firmware stamp of now, within ±20 µs (R120, R121), and the state with the free value used up. -/
def firmwareStamp (s : State) : Nat × State :=
  let e := clampInt (-20000) 20000 (Config.stampError s.free)
  ((Int.ofNat s.devNs + e).toNat, { s with free := s.free + 1 })

/-! ### Ticks -/

/-- The accumulator in units of 2^-32 ns within the second (R107). -/
def TimeS.acc (t : TimeS) : Nat := t.nanos.toNat * 2 ^ 32 + t.frac.toNat

/-- One tick of the timebase: INCREMENT is added, NANOSECONDS carries into SECONDS (R107). -/
def TimeS.advance (t : TimeS) : TimeS :=
  let a := t.acc + t.inc.toNat
  let carry := decide (1000000000 * 2 ^ 32 ≤ a)
  let a := if carry then a - 1000000000 * 2 ^ 32 else a
  let due := decide (t.imuCount + 1 = 78125)
  { t with seconds := if carry then t.seconds + 1 else t.seconds, nanos := w32 (a / 2 ^ 32), frac := w32 a,
           ppsDue := carry, imuCount := if due then 0 else t.imuCount + 1, imu0Due := due }

/-- TIMEBASE_TICK (R107): elapsed time counts while VAUX is on; device time advances while its clock runs (R137). -/
def execTimebaseTick (s : State) : Out :=
  onTrigger s.life.vaux s fun s =>
    let s := s.mapTime fun t => { t with ticks := t.ticks + 1 }
    let s := if s.mainOn ∧ s.life.powerState ≠ 3 then s.mapAge fun a => { a with opTicks := a.opTicks + 1, sinceDaily := a.sinceDaily + 1 } else s
    if s.mainOn ∧ s.time.held = false then s.mapTime TimeS.advance
    else s.mapTime fun t => { t with ppsDue := false, imu0Due := false }

/-! ### PPS -/

/-- PPS_OUT_RISE (R113, R972): on a whole second reached by ordinary advance and later than the last second marked. A whole second that comes while an
earlier pulse is still high, which only a forward step can bring about, gets no rise (DESIGN CHOICE, entry 3: the spec does not say). -/
def execPpsOutRise (s : State) : Out :=
  onTrigger (s.time.ppsDue && !s.time.ppsHigh && (match s.time.ppsMarked with
      | none => true
      | some m => decide (m < s.time.seconds.toNat))) s fun s =>
    s.mapTime fun t => { t with ppsHigh := true, ppsRise := t.ticks, ppsMarked := some t.seconds.toNat, ppsDue := false }

/-- PPS_OUT_FALL (R113): after PPS_WIDTH, counted in ticks. -/
def execPpsOutFall (s : State) : Out :=
  onTrigger (s.time.ppsHigh && decide (usTicks s.time.ppsWidthUs ≤ s.since s.time.ppsRise)) s fun s =>
    s.mapTime fun t => { t with ppsHigh := false }

/-! ### Steps of device time -/

/-- The programmed instant of a pulse (R143). -/
def ReelEntry.instant (e : ReelEntry) (n : Nat) : Nat := e.start.toNat + n * e.period.toNat

/-- The number after `n` that may still be used: R149 passes over some. -/
def ReelEntry.after (e : ReelEntry) (n : Nat) : Nat :=
  (sortBy (fun a b => decide (a.1 < b.1)) e.gaps).foldl (fun k g => if g.1 ≤ k ∧ k ≤ g.2 then g.2 + 1 else k) (n + 1)

/-- Whether COUNT is used up at pulse number `n`. -/
def ReelEntry.doneAt (e : ReelEntry) (n : Nat) : Bool := decide (e.count ≠ 0 ∧ e.count.toNat ≤ n)

/-- A forward step from `old` to `new` passes over pulse instants of an armed entry: one pulse keeps its number, the rest are never
used (R149). The second part says whether REEL_PULSE_SHIFTED is raised. -/
def ReelEntry.passOver (e : ReelEntry) (old new : Nat) : ReelEntry × Bool :=
  let p := e.period.toNat
  let n := if p ≠ 0 ∧ e.instant e.nextPulse ≤ old then e.after (e.nextPulse + (old - e.instant e.nextPulse) / p) else e.nextPulse
  if e.state ≠ 2 ∨ e.doneAt n ∨ new ≤ e.instant n ∨ (p = 0 ∧ e.instant n ≤ old) then (e, false)
  else
    let m := if p = 0 then n else n + (new - 1 - e.instant n) / p
    let m := if e.count = 0 then m else min m (e.count.toNat - 1)
    ({ e with gaps := if n < m then e.gaps ++ [(n + 1, m)] else e.gaps }, true)

/-- Set device time to `ns` with no fraction change (R136). -/
def TimeS.setNs (t : TimeS) (ns : Nat) : TimeS :=
  { t with seconds := BitVec.ofNat 48 (ns / 1000000000), nanos := w32 (ns % 1000000000), ppsDue := false }

/-- A number of microseconds for TIME_STEPPED: two's complement, saturating at ±32,767 (Table 3-6). -/
def steppedDetail (step : Int) : Nat := ((clampInt (-32767) 32767 (Int.tdiv step 1000)) % 65536).toNat

/-- A step of device time: its value changes at once (R136), pulses passed over are shifted (R149), TIME_STEPPED is raised. A negative step below 0 wraps
modulo 2^48 s, the width of SECONDS (DESIGN CHOICE, entry 3: R126 names no lower end). -/
def stepTime (step : Int) (s : State) : State :=
  if step = 0 then s
  else
    let old := s.devNs
    let new := ((Int.ofNat old + step) % (2 ^ 48 * 1000000000)).toNat
    let s := s.mapTime fun t => t.setNs new
    let s := s.raise 0x8303 (steppedDetail step)
    if step < 0 then s
    else forEach (List.range 64) (fun i s =>
      let r := (s.reelAt i).passOver old new
      if r.2 then (s.updReel i fun _ => r.1).raise 0x8306 i else s) s

/-! ### The servo -/

/-- The slave port, if any (R117). -/
def slavePort (s : State) : Option Nat := (List.range 4).find? fun p => s.time.roles.getD p 0 == 1

/-- Enter HOLDOVER on the last locked INCREMENT (Table 3-2, R122, R130). Before any lock it is the servo's estimate, or the INCREMENT in force where the
servo has formed none (DESIGN CHOICE, entry 3: Table 3-2 names no INCREMENT for this case). -/
def enterHoldover (cause : Nat) (s : State) : State :=
  let last := if s.time.everLocked then s.time.lockedInc else s.time.estimate.getD s.time.inc
  (s.mapTime fun t => { t with state := .holdover, correcting := false, goodCount := 0, lockedInc := last, inc := last }).raise 0x8301 cause

/-- A correction by slewing: INCREMENT moves at most 200 ppm away from the estimate, against the offset (R130). -/
def slew (f : Int) (s : State) : State :=
  let est := (s.time.estimate.getD s.time.inc).toNat
  let d := min (Config.servoSlew s.free) (est * 200 / 1000000)
  let inc := if f = 0 then est else if f > 0 then est - d else est + d
  let s := { s with free := s.free + 1 }
  s.mapTime fun t => { t with inc := BitVec.ofNat 40 (max incMin (min incMax inc)) }

/-- A correction by a step of minus the offset (R130, R132). -/
def stepCorrect (f : Int) (s : State) : State :=
  let s := stepTime (-f) s
  s.mapTime fun t => { t with goodCount := 0, inc := t.estimate.getD t.inc }

/-- Declare lock (Table 3-2, R118). -/
def declareLock (s : State) : State :=
  let tr := decide ((s.time.source = 1 ∨ s.time.source = 2) ∧ s.time.gmClass = 6)
  let d := if s.time.source = 1 then (slavePort s).getD 0 else 0x00FF
  (s.mapTime fun t => { t with state := .locked, correcting := false, traceable := tr, everLocked := true, lockedInc := t.estimate.getD t.inc }).raise 0x8300 d

/-- A correction within JUMP_LIMIT, and the count toward LOCKED (R130, R131). -/
def correctWithin (f : Int) (s : State) : State :=
  if 100000 < f.natAbs ∧ ¬ (f > 0 ∧ s.anySession) then stepCorrect f s
  else
    let s := slew f s
    let n := if f.natAbs < 50000 then s.time.goodCount + 1 else 0
    let s := s.mapTime fun t => { t with goodCount := n }
    if 16 ≤ n ∧ (s.time.state = .acquiring ∨ s.time.state = .holdover) then declareLock s else s

/-- The servo takes a filtered offset (R130 to R132). An offset of 100 µs or less that lies beyond a JUMP_LIMIT set below 100 µs meets the first and
the third bullet of R130; it is refused (DESIGN CHOICE, entry 3). A forced INITIAL_STEP ends once it has been applied (R133). -/
def servoEvaluate (f : Int) (s : State) : State :=
  let est := max incMin (min incMax (Config.servoEstimate s.free).toNat)
  let s := { s with free := s.free + 1 }
  let s := s.mapTime fun t => { t with filtered := f, estimate := some (BitVec.ofNat 40 est),
                                       lockedInc := if t.state = .locked then BitVec.ofNat 40 est else t.lockedInc,
                                       uncertainty := Config.openVal 1 s.free }
  let limit := s.time.jumpLimitUs * 1000
  let first := s.time.first
  let jump := first && !s.anySession && s.time.state == .acquiring &&
    (s.time.forceInitial || (s.time.fromFree && !s.time.noInitialStep))
  let s := if first then s.mapTime fun t => { t with first := false, forceInitial := t.forceInitial && !jump } else s
  if jump then stepCorrect f s
  else if limit < f.natAbs then
    match s.time.state with
    | .holdover =>
      if s.time.correcting then
        (s.mapTime fun t => { t with correcting := false, goodCount := 0, inc := t.lockedInc }).raise 0x8302 (min 0xFFFF (f.natAbs / 1000000))
      else s
    | .free => s
    | _ => enterHoldover 2 (s.raise 0x8302 (min 0xFFFF (f.natAbs / 1000000)))
  else match s.time.state with
    | .free => s
    | .holdover =>
      if s.time.correcting then correctWithin f s
      else correctWithin f (s.mapTime fun t => { t with correcting := true, goodCount := 0 })
    | _ => correctWithin f s

/-- A grandmaster is seen. GM_CHANGED when another one was known before: the first one ever seen raises none (DESIGN CHOICE, entry 3). The count toward
LOCKED starts again, but in HOLDOVER it runs from the correction whoever the grandmaster is (R131). -/
def seeGrandmaster (gm : BitVec 64) (cls : Nat) (s : State) : State :=
  let changed := decide (s.time.gm.isSome ∧ s.time.gm ≠ some gm)
  let s := s.mapTime fun t => { t with gm := some gm, gmClass := cls, goodCount := if changed && t.state != .holdover then 0 else t.goodCount,
                                       offsets := if changed then [] else t.offsets }
  if changed then s.raise 0x8304 0 else s

/-- PPS_IN_EDGE (R112): captured at the first tick after the edge; with a PPS_IN source the servo takes its phase, and each edge counts as one sync
interval of Table 3-2 (DESIGN CHOICE, entry 3: the table speaks of Sync messages only). -/
def execPpsInEdge (s : State) : Out :=
  onTrigger (s.mainOn && !s.time.held) s fun s =>
    let s := s.mapTime fun t => { t with ppsInStamp := some s.devNs }
    if s.time.source = 2 ∨ s.time.source = 3 then
      let ns : Int := Int.ofNat s.time.nanos.toNat
      let phase := if ns < 500000000 then ns else ns - 1000000000
      let raw := phase + (if s.time.source = 2 then s.time.secOffset * 1000000000 else 0)
      let h := raw :: s.time.offsets.take 15
      servoEvaluate (if s.time.first then raw else Config.servoFilter h) (s.mapTime fun t => { t with offsets := h })
    else s

/-- SYNC_TIMEOUT (R122): no valid Sync for 3 s. -/
def execSyncTimeout (s : State) : Out :=
  onTrigger (s.mainOn && decide (s.time.source = 1 ∨ s.time.source = 2) && decide (s.time.state = .acquiring ∨ s.time.state = .locked)
    && decide (msTicks 3000 ≤ s.since s.time.lastSync)) s (enterHoldover 1)

/-- clockClass served on MASTER ports (R118). -/
def clockClass (s : State) : Nat :=
  match s.time.state with
  | .locked => if s.time.traceable then 6 else 248
  | .holdover => if s.time.traceable then 7 else 248
  | _ => 248

/-- Whether PTP runs on a port over a transport: Ethernet always, UDP only where PTP_CONFIG selects it and the port has an IPv4 address (R116, R185); a
FAULT of the port stops it only for an electrical reason. -/
def ptpAlive (port : Nat) (udp : Bool) (s : State) : Bool :=
  let q := s.portAt (16 + port)
  s.mainOn && decide (port < 4) && (!udp || (s.time.udp && !s.time.dot1as && q.ipv4 != 0)) && !(q.state == .fault && q.reason == 4)

/-- A number for each kind of Ethernet frame in `OutMsg.ethernet`; 6 and 7 are ARP and ICMP. -/
def ptpKindCode : PtpKind → Nat
  | .announce _ _ => 0
  | .delayReq => 1
  | .delayResp => 2
  | .followUp => 3
  | .pdelayReq => 4
  | .pdelayResp => 5
  | .sync => 8
  | .pdelayRespFollowUp => 9

/-- Whether the configured profile has the message: delay request-response, or peer delay under 802.1AS (R115). -/
def ptpProfileHas (k : PtpKind) (s : State) : Bool :=
  match k with
  | .delayReq | .delayResp => !s.time.dot1as
  | .pdelayReq | .pdelayResp | .pdelayRespFollowUp => s.time.dot1as
  | _ => true

/-- Where the stamp of an event message is kept: by port, kind and direction. -/
def stampKey (port : Nat) (k : PtpKind) (sent : Bool) : Nat := port * 32 + 2 * ptpKindCode k + (if sent then 1 else 0)

/-- Stamp an event message (R120). -/
def stampPtp (port : Nat) (k : PtpKind) (sent : Bool) (s : State) : State :=
  let r := firmwareStamp s
  r.2.mapTime fun t => { t with ptpStamps := Tab.put t.ptpStamps (stampKey port k sent) r.1 }

/-- The stamp of an event message of a port. -/
def State.ptpStamp (s : State) (port : Nat) (k : PtpKind) (sent : Bool) : Nat := Tab.getD s.time.ptpStamps (stampKey port k sent) 0

/-- PTP_SYNC_RECEIVED (R120, R131): `offset` is the servo's filtered offset after this Sync, device time less grandmaster time, in ns. Every Sync on the
SLAVE port is stamped; with a PTP source, or with seconds from PTP, the servo takes it. -/
def execPtpSyncReceived (port : Nat) (gm : BitVec 64) (clockClass : Nat) (offset : Int) (udp : Bool) (s : State) : Out :=
  onTrigger (ptpAlive port udp s && decide (s.time.roles.getD port 0 = 1)) s fun s =>
    let s := stampPtp port .sync false s
    if s.time.held ∨ ¬ (s.time.source = 1 ∨ s.time.source = 2) then s
    else
      let s := seeGrandmaster gm clockClass (s.mapTime fun t => { t with lastSync := t.ticks })
      if s.time.source = 1 then servoEvaluate offset s
      else s.mapTime fun t => { t with secOffset := Int.fdiv (offset + 500000000) 1000000000 }

/-- PTP_MESSAGE_RECEIVED (R115, R116, R120): event messages are stamped; an Announce on the SLAVE port names the grandmaster. -/
def execPtpMessageReceived (port : Nat) (kind : PtpKind) (udp : Bool) (s : State) : Out :=
  onTrigger (ptpAlive port udp s && decide (s.time.roles.getD port 0 ≠ 0) && ptpProfileHas kind s) s fun s =>
    match kind with
    | .announce cls gm => if s.time.roles.getD port 0 = 1 then seeGrandmaster gm cls s else s
    | .delayReq | .pdelayReq | .pdelayResp | .sync => stampPtp port kind false s
    | .delayResp | .followUp | .pdelayRespFollowUp => s

/-- PTP_MESSAGE_SENT (R115, R118, R120): a message leaves a port in the role that sends it. Announce carries the clockClass; an event message its own
stamp; a follow-up the transmit stamp of the message it follows, as a two-step clock; a response the receive stamp of its request. -/
def execPtpMessageSent (port : Nat) (kind : PtpKind) (udp : Bool) (s : State) : Out :=
  let role := s.time.roles.getD port 0
  let maySend := match kind with
    | .announce _ _ | .sync => role == 2
    | .followUp => role == 2 && Tab.has s.time.ptpStamps (stampKey port .sync true)
    | .delayResp => role == 2 && Tab.has s.time.ptpStamps (stampKey port .delayReq false)
    | .delayReq => role == 1
    | .pdelayReq => role != 0
    | .pdelayResp => role != 0 && Tab.has s.time.ptpStamps (stampKey port .pdelayReq false)
    | .pdelayRespFollowUp => role != 0 && Tab.has s.time.ptpStamps (stampKey port .pdelayResp true)
  onTrigger (ptpAlive port udp s && maySend && ptpProfileHas kind s) s fun s =>
    let out (s : State) (v : Nat) := s.send (.ethernet port (ptpKindCode kind) v)
    match kind with
    | .announce _ _ => out s (clockClass s)
    | .sync | .delayReq | .pdelayReq => let s := stampPtp port kind true s; out s (s.ptpStamp port kind true)
    | .pdelayResp => out (stampPtp port kind true s) (s.ptpStamp port .pdelayReq false)
    | .followUp => out s (s.ptpStamp port .sync true)
    | .delayResp => out s (s.ptpStamp port .delayReq false)
    | .pdelayRespFollowUp => out s (s.ptpStamp port .pdelayResp true)

/-! ### Commands -/

/-- Numbers of the time states in TIME_GET (Table 16-7, in the order of Table 3-2). -/
def timeStateCode : TimeState → Nat
  | .free => 0
  | .acquiring => 1
  | .locked => 2
  | .holdover => 3

/-- TIME_GET (R114). -/
def execTimeGet (c : CmdRef) (s : State) : Out :=
  onCmd 0x0300 c s fun _ s =>
    let t := s.time
    s.done c OK 0 [t.nanos, t.seconds.setWidth 32, (t.seconds >>> 32).setWidth 32, t.inc.setWidth 32, (t.inc >>> 32).setWidth 32,
      w32 (timeStateCode t.state), wInt (clampInt (-2147483648) 2147483647 t.filtered), w32 (satU 32 t.uncertainty),
      w32 (t.source + 256 * (match slavePort s with | some p => p | none => Config.openVal 2 0 % 4))]

/-- A host's step: BUSY with a source (R125), TIME_JUMP_REFUSED beyond JUMP_LIMIT or backward in a session (R128, R129). -/
def hostStep (c : CmdRef) (step : Int) (s : State) : State :=
  if s.time.source ≠ 0 then s.refuseOpen c BUSY
  else if s.time.jumpLimitUs * 1000 < step.natAbs ∨ (step < 0 ∧ s.anySession) then s.refuseOpen c TIME_JUMP_REFUSED
  else (stepTime step (s.commit c)).done c

/-- NANOSECONDS and SECONDS of a packet from word `i`: the word that fails, or the time in ns. -/
def timeParam (m : Cmd) (i : Nat) : Nat ⊕ Nat :=
  if 1000000000 ≤ (m.w i).toNat then .inl i
  else if 0x10000 ≤ (m.w (i + 2)).toNat then .inl (i + 1)
  else .inr (((m.w (i + 1)).toNat + 2 ^ 32 * (m.w (i + 2)).toNat) * 1000000000 + (m.w i).toNat)

/-- TIME_SET (R125, R126, R128, R129). -/
def execTimeSet (c : CmdRef) (s : State) : Out :=
  onCmd 0x0301 c s fun m s =>
    match timeParam m 3 with
    | .inl i => s.badWord c i
    | .inr ns => hostStep c (Int.ofNat ns - Int.ofNat s.devNs) s

/-- TIME_ADJUST (R126, R128, R129). -/
def execTimeAdjust (c : CmdRef) (s : State) : Out :=
  onCmd 0x0302 c s fun m s => hostStep c (sext 64 ((m.w 3).toNat + 2 ^ 32 * (m.w 4).toNat)) s

/-- INCREMENT from its two words (Table 3-1). -/
def incParam (m : Cmd) (i : Nat) : Nat := (m.w i).toNat + 2 ^ 32 * fld (m.w (i + 1)) 7 0

/-- TIME_SET_INCREMENT (R109, R110, R125). -/
def execTimeSetIncrement (c : CmdRef) (s : State) : Out :=
  onCmd 0x0303 c s fun m s =>
    let inc := incParam m 3
    if inc < incMin ∨ incMax < inc then s.badWord c 3
    else if s.time.source ≠ 0 then s.refuseOpen c BUSY
    else (s.mapTime fun t => { t with inc := BitVec.ofNat 40 inc, estimate := some (BitVec.ofNat 40 inc) }).done c

/-- CLOCK_RESET on the Reel: armed entries become written, FIRED becomes zero, a high pulse completes its WIDTH (R134). -/
def resetReel (s : State) : State :=
  { s with reel := s.reel.map fun e => (e.1, { e.2 with state := if e.2.state = 2 then 1 else e.2.state, fired := 0, gaps := [] }) }

/-- The servo after CLOCK_RESET: ACQUIRING with a source, else FREE; the next offset is the first one (R133). -/
def servoRestart (fromFree : Bool) (s : State) : State :=
  s.mapTime fun t => { t with state := if t.source ≠ 0 then .acquiring else .free, goodCount := 0, correcting := false, offsets := [],
                              first := decide (t.source ≠ 0), fromFree := fromFree, estimate := none, lastSync := t.ticks }

/-- CLOCK_RESET (R133, R134). MODE 0 is no step: COMMIT_TIME is the time that it loads, and the last second marked stays as it is, so that PPS_OUT stays
low until a later second (both DESIGN CHOICE, entry 3: R133 and R972 do not say). -/
def execClockReset (c : CmdRef) (s : State) : Out :=
  onCmd 0x0304 c s fun m s =>
    let count := (s.reel.filter fun e => e.2.state == 2).length
    let finish := fun (s : State) => (s.raise 0x8307 count).done c OK 0 [w32 count]
    if bit (m.w 3) 0 then
      if s.anySession then s.refuseOpen c BUSY
      else finish (servoRestart false ((resetReel s).mapTime fun t => { t with forceInitial := true }))
    else match timeParam m 4 with
      | .inl i => s.badWord c i
      | .inr ns =>
        let inc := incParam m 7
        if inc < incMin ∨ incMax < inc then s.badWord c 7
        else if s.anySession then s.refuseOpen c BUSY
        else finish (servoRestart true ((resetReel s).mapTime fun t => { t.setNs ns with frac := 0, inc := BitVec.ofNat 40 inc }))

/-- The fields of PTP_CONFIG, or the word that fails (R116, R117, R119, R127, R113). -/
def ptpParams (m : Cmd) : Nat ⊕ (List Nat × Nat × Nat) :=
  let roles := (List.range 4).map fun i => fld (m.w 4) (2 * i + 1) (2 * i)
  let dot1as := bit (m.w 3) 2
  let sync := sext 8 (fld (m.w 5) 15 8)
  if dot1as ∧ bit (m.w 3) 3 then .inl 3
  else if roles.contains 3 ∨ 1 < (roles.filter (· == 1)).length then .inl 4
  else if 127 < fld (m.w 5) 7 0 ∨ (dot1as ∧ fld (m.w 5) 7 0 ≠ 0) ∨ sync < -3 ∨ 1 < sync then .inl 5
  else match withDefault (m.w 6).toNat 1 1000000 1000, withDefault (m.w 7).toNat 1 500000 100000 with
    | none, _ => .inl 6
    | _, none => .inl 7
    | some j, some p => .inr (roles, j, p)

/-- INCREMENT when the source is disabled: the servo's frequency estimate (R973). -/
def restingInc (t : TimeS) : BitVec 40 :=
  match t.state with
  | .free => t.inc
  | .holdover => t.lockedInc
  | _ => t.estimate.getD t.inc

/-- PTP_CONFIG (R117, R124, R973). A change from one enabled source to another, or a source enabled in HOLDOVER, keeps the time state, the lock and the
estimate (DESIGN CHOICE, entry 3: Table 3-2 names ACQUIRING only where a source is enabled from FREE). -/
def execPtpConfig (c : CmdRef) (s : State) : Out :=
  onCmd 0x0305 c s fun m s =>
    match ptpParams m with
    | .inl i => s.badWord c i
    | .inr (roles, j, p) =>
      let src := fld (m.w 3) 1 0
      let s := s.mapTime fun t =>
        { t with roles := roles, jumpLimitUs := j, ppsWidthUs := p, dot1as := bit (m.w 3) 2, udp := bit (m.w 3) 3,
                 noInitialStep := bit (m.w 3) 4, domain := BitVec.ofNat 8 (fld (m.w 5) 7 0), logSync := BitVec.ofNat 8 (fld (m.w 5) 15 8),
                 source := src }
      let s := s.mapTime fun t =>
        if src = 0 then { t with inc := restingInc t, state := .free, first := false, correcting := false, goodCount := 0 }
        else if t.state = .free then { t with state := .acquiring, first := true, fromFree := true, goodCount := 0, estimate := none,
                                              offsets := [], lastSync := t.ticks }
        else t
      s.done c

end Sys2Proof.Machine
end

