-- ==== Sys2Proof/Machine/Reel.lean ====
section
/-! DEFINITION. The Reel table's commands and the fall of a pulse (chapter 3, R138 to R150, R975, R976). -/

namespace Sys2Proof.Machine

/-- The context that holds a Reel target (R140): TRG0 to TRG11 with their camera port, the others claimed one by one. -/
def targetHolder (s : State) (t : Nat) : Option Nat :=
  if t < 12 then (s.portAt t).owner else Tab.get? s.targets t

/-- The first field of a Reel entry that fails, as the word of REEL_WRITE it stands in (Table 3-3, R139). -/
def reelBadWord (period width count target : Nat) : Option Nat :=
  if period % 2 = 1 ∨ (period = 0 ∧ count ≠ 1) ∨ (period ≠ 0 ∧ (period < 100 ∨ 4294967294 < period)) then some 6
  else if width % 2 = 1 ∨ width < 2 ∨ (period ≠ 0 ∧ period ≤ width) then some 7
  else if 21 < target then some 9
  else none

/-- REEL_WRITE (R138 to R141, R147, R975). -/
def execReelWrite (c : CmdRef) (s : State) : Out :=
  onCmd 0x0306 c s fun m s =>
    let n := fld (m.w 3) 7 0
    let target := fld (m.w 9) 7 0
    if 63 < n ∧ n ≠ 0xFF then s.badWord c 3
    else match reelBadWord (m.w 6).toNat (m.w 7).toNat (m.w 8).toNat target with
    | some i => s.badWord c i
    | none =>
      match targetHolder s target with
      | none => s.badWord c 9
      | some h =>
        if h ≠ m.ctx then s.refuseOpen c BUSY
        else match (if n = 0xFF then (List.range 64).find? (fun i => (s.reelAt i).state == 0) else some n) with
        | none => s.refuseOpen c NO_RESERVATION
        | some n =>
          let e := s.reelAt n
          if e.state = 2 ∨ (e.state = 1 ∧ e.owner ≠ m.ctx) then s.refuseOpen c BUSY
          else
            (s.updReel n fun e =>
              { start := (m.w 5 ++ m.w 4), period := m.w 6, width := m.w 7, count := m.w 8, target := BitVec.ofNat 8 target,
                control := BitVec.ofNat 8 (fld (m.w 9) 8 8), owner := m.ctx, state := 1, pulses := e.pulses,
                lastRise := e.lastRise, lastInstant := e.lastInstant }).done c OK 0 [w32 n]

/-- The first pulse number that an entry emits when it is armed at device time `now`: the first instant at least 10 µs later when START
has passed (R146); none when a counted entry starts too soon. -/
def armNumber (e : ReelEntry) (now : Nat) : Option Nat :=
  let st := e.start.toNat
  if e.count ≠ 0 then (if st < now + 10000 then none else some 0)
  else if st < now then some (ceilDiv (now + 10000 - st) e.period.toNat) else some 0

/-- REEL_ARM (R146, R147, R975). The rise of the entry's last pulse still holds back its next one (R974). -/
def execReelArm (c : CmdRef) (s : State) : Out :=
  onCmd 0x0307 c s fun m s =>
    let n := fld (m.w 3) 5 0
    let e := s.reelAt n
    if e.state = 0 then s.badWord c 3
    else if e.owner ≠ m.ctx then s.refuseOpen c BUSY
    else if e.state = 2 then s.done c
    else match armNumber e s.devNs with
      | none => s.refuseOpen c BAD_PARAM
      | some k => (s.updReel n fun e => { e with state := 2, fired := 0, nextPulse := k, gaps := [] }).done c

/-- Free a Reel entry; its high pulses complete (R138, R148), and its last rise still holds back its next one (R974). -/
def ReelEntry.freed (e : ReelEntry) : ReelEntry := { pulses := e.pulses, lastRise := e.lastRise, lastInstant := e.lastInstant }

/-- REEL_DISARM (R138, R148, R975). -/
def execReelDisarm (c : CmdRef) (s : State) : Out :=
  onCmd 0x0308 c s fun m s =>
    let n := fld (m.w 3) 5 0
    let e := s.reelAt n
    if e.state = 0 then s.badWord c 3
    else if e.owner ≠ m.ctx then s.refuseOpen c BUSY
    else if bit (m.w 3) 8 then (s.updReel n ReelEntry.freed).done c
    else (s.updReel n fun e => { e with state := 1, gaps := [] }).done c

/-- REEL_READ: the entry in the layout of Table 3-3; a free entry reads zero but for OWNER 0xFF (R138). -/
def execReelRead (c : CmdRef) (s : State) : Out :=
  onCmd 0x0309 c s fun m s =>
    let e := s.reelAt (fld (m.w 3) 5 0)
    s.done c OK 0 [e.start.setWidth 32, (e.start >>> 32).setWidth 32, e.period, e.width, e.count,
      w32 (e.target.toNat + 256 * e.control.toNat + 65536 * (e.owner % 256) + 0x1000000 * e.state), e.fired, 0]

/-- Whether a context holds an entry, written or armed, for a target (R976). -/
def hasEntryFor (s : State) (ctx target : Nat) : Bool :=
  s.reel.any fun e => e.2.state != 0 && e.2.owner == ctx && e.2.target.toNat == target

/-- TRIGGER_CLAIM (R140, R976). -/
def execTriggerClaim (c : CmdRef) (s : State) : Out :=
  onCmd 0x0207 c s fun m s =>
    let t := fld (m.w 3) 7 0
    if t < 12 ∨ 21 < t then s.badWord c 3
    else
      let h := Tab.get? s.targets t
      if bit (m.w 3) 8 then
        if h = none then s.done c
        else if h ≠ some m.ctx ∨ hasEntryFor s m.ctx t then s.refuseOpen c BUSY
        else { s with targets := Tab.del s.targets t }.done c
      else if h ≠ none ∧ h ≠ some m.ctx then s.refuseOpen c BUSY
      else { s with targets := Tab.put s.targets t m.ctx }.done c

/-- The compared output behind a Reel target (Table 3-4, Table 23-8). -/
def outputOfTarget (t : Nat) : Nat := if t < 20 then t else if t = 20 then 21 else 25

/-- Whether a Reel output is high: some pulse on it is (R145), and its driver is not off (R945). -/
def reelHigh (s : State) (target : Nat) : Bool :=
  (s.reel.any fun e => e.2.pulses.any fun p => p.1 == target) && !(s.outputAt (outputOfTarget target)).off

/-- REEL_PULSE_FALL: WIDTH / 2 ticks after the rise (R143, R148). -/
def execReelPulseFall (entry : Nat) (s : State) : Out :=
  onTrigger ((s.reelAt entry).pulses.any fun p => decide (p.2 ≤ s.time.ticks)) s fun s =>
    s.updReel entry fun e => { e with pulses := e.pulses.filter fun p => decide (s.time.ticks < p.2) }

end Sys2Proof.Machine
end

