-- ==== Sys2Proof/Machine/Ports.lean ====
section
/-! DEFINITION. The sensor ports: their states, commands and switched supplies (chapter 4), and the faults of supplies and signals
(chapter 23). -/

namespace Sys2Proof.Machine

/-! ### Kinds and codes (Table 4-1) -/

def isCamera (p : Nat) : Bool := decide (p < 12)
def isEthernet (p : Nat) : Bool := decide (16 ≤ p) && decide (p < 20)
def isExtImu (p : Nat) : Bool := p == 33 || p == 34
def isEncoder (p : Nat) : Bool := decide (48 ≤ p) && decide (p < 56)
def isCan (p : Nat) : Bool := p == 64 || p == 65
/-- The 29 port codes. -/
def isPort (p : Nat) : Bool := isCamera p || isEthernet p || p == 32 || isExtImu p || isEncoder p || isCan p
/-- Ports with a switched supply (Table 23-1). -/
def hasSupply (p : Nat) : Bool := isCamera p || isEncoder p || isExtImu p

/-- Numbers of the port states (Table 4-2 in its order from 0). -/
def portStateCode : PortState → Nat
  | .off => 0
  | .detecting => 1
  | .training => 2
  | .idle => 3
  | .streaming => 4
  | .fault => 5

/-- DETECT_TIMEOUT in ms: as set, else the kind's default (Table 4-3). -/
def detectMsOf (s : State) (p : Nat) : Nat :=
  match (s.portAt p).detectMs with
  | some n => n
  | none => if isCamera p then 500 else if isEthernet p then 2000 else if isExtImu p then 50 else if isEncoder p then 100 else 1000

/-- Whether the port's supply is to be on (Table 23-1, R923, R933, R939, R978). -/
def supplyWanted (s : State) (p : Nat) : Bool :=
  let q := s.portAt p
  hasSupply p && q.owner.isSome && (!isCamera p || bit q.camCfg 26) && !q.supplyStop && !q.latched && s.life.vsensOk && s.mainOn

/-- Put the supply of a port as Table 23-1 has it. -/
def setSupply (p : Nat) (s : State) : State := s.updPort p fun q => { q with supplyOn := supplyWanted s p }

/-! ### Entering states -/

/-- An event that names a port is the owning context's (assumption 22). -/
def raisePort (p code detail : Nat) (s : State) : State :=
  match (s.portAt p).owner with
  | some n => s.raiseCtx n code detail
  | none => s.raise code detail

/-- Count a fault in the port's error count (Table 16-5). -/
def countError (p : Nat) (s : State) : State := s.updPort p fun q => { q with errors := satU 32 (q.errors + 1) }

/-- Raise an event of Table 23-9 for a port at most once per second for one cause; repeats are counted (R951). -/
def raisePortLimited (p code detail : Nat) (s : State) : State :=
  s.raiseOncePerSecond (code * 65536 + detail) (s.portAt p).owner code detail (countError p)

/-- The same for a pin that belongs to no port: repeats raise nothing. -/
def raisePinLimited (code detail : Nat) (s : State) : State :=
  s.raiseOncePerSecond (code * 65536 + detail) none code detail fun s => s

/-- Enter FAULT with a reason and raise PORT_STATE (R162); a port already in FAULT keeps its entry. The channels that it
feeds start filling again (R213), and its open sweep is dropped (R161). -/
def enterFault (p reason : Nat) (s : State) : State :=
  if (s.portAt p).state = .fault then s
  else
    let s := s.updPort p fun q => { q with state := .fault, reason := reason, since := s.time.ticks, faulted := true, retries := 0,
                                           standstill := false, failedBursts := 0, lastStamp := none }
    let s := { s with filters := Tab.mapVals s.filters fun _ c => if c.source.toNat = p then { c with filling := true, inputs := 0, phase := 0, due := none } else c }
    let s := { s with lidars := Tab.mapVals s.lidars fun k l => if k = p then { l with points := [], firstTick := none } else l }
    raisePort p 0x8200 (p * 256 + 5 * 16 + reason) s

/-- Whether a port feeds no channel: it is in FAULT, or on its way back from FAULT (R213). -/
def feedsNothing (s : State) (p : Nat) : Bool := (s.portAt p).state == .fault || (s.portAt p).faulted

/-- Enter DETECTING: the supply turns on (R924, R938). -/
def enterDetecting (p : Nat) (s : State) : State :=
  setSupply p (s.updPort p fun q => { q with state := .detecting, since := s.time.ticks, openLoad := false })

/-- A port is ready: STREAMING when a session binds it, else IDLE (Table 4-2); its return is reported (R162, R941, R947). -/
def portReady (p : Nat) (s : State) : State :=
  let q := s.portAt p
  let s := if q.faultSignal then
      raisePort p 0x8F02 (q.faultPin * 16 + 5) (s.updPort p fun q => { q with faultSignal := false, swapFault := false })
    else s
  if q.bound then
    let s := s.updPort p fun q => { q with state := .streaming, since := s.time.ticks, lastData := s.time.ticks, faulted := false,
                                           restoreDue := false, discardSpeed := q.faulted }
    let s := if q.faulted then raisePort p 0x8200 (p * 256 + 4 * 16) s else s
    if q.restoreDue then raisePort p 0x8F01 (p * 256 + 5) s else s
  else s.updPort p fun q => { q with state := .idle, since := s.time.ticks, faulted := false, restoreDue := false }

/-- SENSOR_DETECTED (Table 4-3): a camera goes to TRAINING, any other kind is ready. A signal fault must have been absent for 100 ms
(R947). -/
def execSensorDetected (port : Nat) (s : State) : Out :=
  onTrigger (isPort port && (s.portAt port).state == .detecting
      && (!(s.portAt port).faultSignal || decide (msTicks 100 ≤ s.since (s.portAt port).faultAt))) s fun s =>
    let s := s.updPort port fun q => { q with openLoad := false }
    if isCamera port then
      s.updPort port fun q => { q with state := .training, since := s.time.ticks, polBefore := BitVec.ofNat 5 (fld q.camCfg 20 16) }
    else portReady port s

/-- DETECT_TIMEOUT: FAULT with reason 1, or 4 when the supply showed an open load (R937). -/
def execDetectTimeout (port : Nat) (s : State) : Out :=
  onTrigger (isPort port && port != 32 && (s.portAt port).state == .detecting
      && decide (msTicks (detectMsOf s port) ≤ s.since (s.portAt port).since)) s fun s =>
    enterFault port (if (s.portAt port).openLoad then 4 else 1) s

/-- RETRY_PERIOD: DETECTING again, on the schedule counted from the entry to FAULT; a latched supply is left off (R160, R938, R939). -/
def execRetryPeriod (port : Nat) (s : State) : Out :=
  let q := s.portAt port
  onTrigger (isPort port && q.state == .fault && q.owner.isSome
      && decide (msTicks ((q.retries + 1) * q.retryMs) ≤ s.since q.since)
      && (!hasSupply port || s.life.vsensOk)) s fun s =>
    if q.latched then s.updPort port fun q => { q with retries := s.since q.since / msTicks q.retryMs }
    else enterDetecting port s

/-- The data lanes that a port has enabled (Table 4-4). -/
def dataLanes (cfg : Word) : Nat := [1, 2, 4, 4].getD (fld cfg 9 8) 4

/-- The polarity found (R171): a data lane by its LP-10 entry or its sync byte 0x47, the clock lane (bit 4) when every enabled data lane shows a sync byte
offset by one bit; a lane that is not enabled keeps its bit (DESIGN CHOICE, entry 4). -/
def polarityFound (cfg : Word) (lp10 sync47 offset : BitVec 4) : BitVec 5 :=
  let lanes := List.range (dataLanes cfg)
  let held := fld cfg 20 16
  BitVec.ofNat 5 (total ((List.range 4).map fun i => if (if lanes.contains i then bit (lp10 ||| sync47) i else held.testBit i) then 2 ^ i else 0)
    + if lanes.all fun i => bit offset i then 16 else 0)

/-- TRAINING_DONE (R171 to R173, R978): polarity and deskew are found; with POL_AUTO the polarity found is kept. -/
def execTrainingDone (port : Nat) (lp10 sync47 offset : BitVec 4) (s : State) : Out :=
  onTrigger (isCamera port && (s.portAt port).state == .training) s fun s =>
    let q := s.portAt port
    let polarity := polarityFound q.camCfg lp10 sync47 offset
    let s := if bit q.camCfg 15 then
        let s := s.updPort port fun q => { q with camCfg := (q.camCfg &&& ~~~ 0x001F0000) ||| w32 (polarity.toNat * 65536) }
        if polarity ≠ q.polBefore then raisePort port 0x8201 (port * 256 + polarity.toNat) s else s
      else s
    portReady port s

/-- The frame period of a bound stream, ns: of its trigger, or NOMINAL_PERIOD of its entry where the module does not trigger it (Table 8-2). -/
def StreamS.periodNs (s : State) (x : SessionS) (t : StreamS) : Nat :=
  if t.divisor = 0 then (Tab.getD (s.ctxAt t.ctx).inUse (t.port * 256 + t.vc) {}).nominal.toNat else x.periodNs * t.divisor

/-- The frame period of the streams bound on a camera port, the shortest of them, ns (R978, Table 4-3). -/
def portFrameNs (s : State) (p : Nat) : Nat :=
  match (s.portAt p).owner with
  | none => 0
  | some n =>
    match s.sessionAt n with
    | none => 0
    | some x => minD x.periodNs ((s.streams.filter fun e => e.2.port == p && e.2.ctx == n).map fun e => e.2.periodNs s x)

/-- TRAINING_TIMEOUT: 4 frame periods of the bound stream without a valid frame, from the binding or the entry (R978). -/
def execTrainingTimeout (port : Nat) (s : State) : Out :=
  let q := s.portAt port
  onTrigger (isCamera port && q.state == .training && q.bound
      && decide (4 * portFrameNs s port ≤ 2 * s.since (max q.boundAt q.since))) s (enterFault port 3)

/-- The stall limit of a STREAMING port in ns, if its kind has one (Table 4-3). -/
def stallNs (s : State) (p : Nat) : Option Nat :=
  if isCamera p then some (3 * portFrameNs s p)
  else if isEthernet p then some 200000000
  else if p = 32 then some 1562500
  else if isExtImu p then (if (s.portAt p).sampleHz = 0 then none else some (10 * 1000000000 / (s.portAt p).sampleHz))
  else none

/-- PORT_STALL: nothing has arrived for the limit of Table 4-3 (R161, R162). -/
def execPortStall (port : Nat) (s : State) : Out :=
  let q := s.portAt port
  onTrigger (q.state == .streaming && (match stallNs s port with
      | some n => decide (n ≤ 2 * s.since q.lastData)
      | none => false)) s (enterFault port 2)

/-! ### Commands, 0x02xx -/

/-- PORT_CLAIM (R52, R164): another context's claim is BUSY; an unclaimed port enters DETECTING. The last fault reason starts at 0 for the new claim (DESIGN
CHOICE, entry 4: R159 does not say what it shows then). -/
def execPortClaim (c : CmdRef) (s : State) : Out :=
  onCmd 0x0200 c s fun m s =>
    let p := fld (m.w 3) 7 0
    if isPort p = false then s.badWord c 3
    else match (s.portAt p).owner with
      | some n => if n = m.ctx then s.done c else s.refuseOpen c BUSY
      | none => (enterDetecting p (s.updPort p fun q => { q with owner := some m.ctx, reason := 0, supplyStop := false, faulted := false })).done c

/-- A released port: OFF, its supply off, its latch and trip count cleared, SWAP as configured (R940, R942, R200). -/
def PortS.released (q : PortS) (now : Nat) : PortS :=
  { q with state := .off, owner := none, bound := false, supplyOn := false, supplyStop := false, latched := false, trips := [],
           openLoad := false, restoreDue := false, faultSignal := false, faulted := false, swapFault := false, swap := q.swapCfg, since := now }

/-- PORT_RELEASE (R163, R976, R977). -/
def execPortRelease (c : CmdRef) (s : State) : Out :=
  onCmd 0x0201 c s fun m s =>
    let p := fld (m.w 3) 7 0
    if isPort p = false then s.badWord c 3
    else match (s.portAt p).owner with
      | none => s.done c
      | some n =>
        if n ≠ m.ctx ∨ (s.portAt p).bound ∨ (isCamera p ∧ hasEntryFor s n p) then s.refuseOpen c BUSY
        else (s.updPort p fun q => q.released s.time.ticks).done c

/-- Who may set a port (R977): `none` when the sender may, else the refusal. -/
def portSetRefusal (m : Cmd) (p : Nat) (s : State) : Option (State → State) :=
  if isPort p = false ∨ p = 32 then some fun s => s.badWord m.ref 3
  else match (s.portAt p).owner with
    | some n => if n ≠ m.ctx then some fun s => s.refuseOpen m.ref BUSY
      else if (s.portAt p).state = .streaming then some fun s => s.refuseOpen m.ref BUSY else none
    | none => if m.ctx ≠ 0 then some fun s => s.refuseOpen m.ref NOT_OWNER else none

/-- The settings of PORT_CONFIG by kind: the word that fails, or the change (Table 16-5, R170, R979, R980). -/
def portSettings (m : Cmd) (p : Nat) : Nat ⊕ (PortS → PortS) :=
  if isCamera p then
    let w := m.w 4
    if fld w 9 8 = 2 ∨ fld w 7 0 < 8 ∨ 0xFA < fld w 7 0 ∨ fld w 28 27 = 3 then .inl 4
    else .inr fun q => { q with camCfg := w &&& 0x1FFF83FF }
  else if isEthernet p then
    .inr fun q => { q with ipv4 := m.w 4, phySlave := bit (m.w 5) 0, lidarSrc := m.w 6, udpPort := (m.w 7).setWidth 16 }
  else if isExtImu p then
    let mhz := fld (m.w 4) 4 0
    let hz := fld (m.w 4) 31 16
    if mhz < 1 ∨ 20 < mhz ∨ hz < 1 ∨ 8000 < hz then .inl 4
    else .inr fun q => { q with spiMhz := mhz, spiMode3 := bit (m.w 4) 5, sampleHz := hz }
  else if isEncoder p then
    if 50 < fld (m.w 4) 5 0 then .inl 4
    else .inr fun q => { q with glitch := fld (m.w 4) 5 0, swap := bit (m.w 4) 8, swapCfg := bit (m.w 4) 8, metres := m.w 5, wheel := fld (m.w 6) 2 0 }
  else
    let nom := fld (m.w 4) 10 0
    let dat := fld (m.w 5) 12 0
    if nom < 125 ∨ 1000 < nom then .inl 4
    else if dat ≠ 0 ∧ (dat < nom ∨ 5000 < dat) then .inl 5
    else .inr fun q => { q with canNominal := nom, canData := dat, canAck := bit (m.w 6) 0, canTerm := bit (m.w 6) 1 }

/-- PORT_CONFIG (R163, R170, R940, R977, R979, R980). -/
def execPortConfig (c : CmdRef) (s : State) : Out :=
  onCmd 0x0202 c s fun m s =>
    let p := fld (m.w 3) 7 0
    match portSetRefusal m p s with
    | some r => r s
    | none =>
      match portSettings m p with
      | .inl i => s.badWord c i
      | .inr f =>
        let s := s.updPort p fun q => if q.latched then { f q with latched := false, trips := [] } else f q
        let s := if isCamera p then s.requestFreq 2 s.wordClock else s
        (if (s.portAt p).state = .fault then s else setSupply p s).done c

/-- PORT_STATUS (R159). -/
def execPortStatus (c : CmdRef) (s : State) : Out :=
  onCmd 0x0203 c s fun m s =>
    let p := fld (m.w 3) 7 0
    if isPort p = false then s.badWord c 3
    else
      let q := s.portAt p
      s.done c OK 0 [w32 (portStateCode q.state + 256 * q.reason + 65536 * (q.owner.getD 0xFF)),
        if isCamera p then q.camCfg
        else if isEncoder p then w32 ((if q.swap then 1 else 0) + (if q.verifying then 2 else 0)) else 0, w32 q.errors]

/-- PORT_TIMING (R160, R177, R977). -/
def execPortTiming (c : CmdRef) (s : State) : Out :=
  onCmd 0x0204 c s fun m s =>
    let p := fld (m.w 3) 7 0
    match portSetRefusal m p s with
    | some r => r s
    | none =>
      let d := (m.w 4).toNat
      match withDefault (m.w 5).toNat 100 60000 1000, withDefault (m.w 6).toNat 100 30000 5000 with
      | r, t =>
        if d ≠ 0 ∧ (d < 10 ∨ 60000 < d) then s.badWord c 4
        else match r, t with
          | none, _ => s.badWord c 5
          | _, none => s.badWord c 6
          | some r, some t =>
            (s.updPort p fun q => { q with detectMs := if d = 0 then none else some d, retryMs := r, trigUs := t }).done c

/-- CAM_I2C_XFER (R163, R977, Table 16-5): `acked` is how many bytes were transferred before a NACK, `dataIn` what was read. -/
def execCamI2cXfer (c : CmdRef) (acked : Nat) (dataIn : List Byte) (s : State) : Out :=
  onCmd 0x0205 c s fun m s =>
    let p := fld (m.w 3) 7 0
    let wr := fld (m.w 4) 6 0
    let rd := fld (m.w 4) 14 8
    if isCamera p = false then s.badWord c 3
    else if 64 < wr ∨ 64 < rd then s.badWord c 4
    else if (s.portAt p).state = .off ∨ (s.portAt p).owner ≠ some m.ctx then s.refuseOpen c BUSY
    else
      let n := min acked (wr + rd)
      let bytes := (wordsBytes ((List.range 16).map fun i => m.w (5 + i))).take (min n wr)
      let got := slice dataIn 0 (n - wr)
      let s := s.send (.i2c p (fld (m.w 3) 14 8) bytes)
      let body := bytesWords (ceilDiv got.length 4) got
      if n < wr + rd then s.done c OK_PARTIAL n body else s.done c OK 0 body

/-! ### Switched supplies (Table 23-6) -/

/-- Whether a trip is counted: VSENS is in range and came back at least 10 ms ago (R935). -/
def tripCounts (s : State) : Bool :=
  s.life.vsensOk && (match s.life.vsensBack with
    | none => true
    | some t => decide (msTicks 10 ≤ s.since t))

/-- A trip with cause 1 or 2: supply off, FAULT with reason 4; the third within 60 s latches it (R936, R939). -/
def supplyTrip (p cause : Nat) (s : State) : State :=
  let s := s.updPort p fun q => { q with supplyOn := false, restoreDue := true }
  let s := raisePortLimited p 0x8F01 (p * 256 + cause) s
  let s := enterFault p 4 s
  if tripCounts s then
    let recent := s.time.ticks :: (s.portAt p).trips.filter fun t => decide (s.since t < msTicks 60000)
    let s := s.updPort p fun q => { q with trips := recent }
    if 3 ≤ recent.length then raisePort p 0x8F01 (p * 256 + 4) (s.updPort p fun q => { q with latched := true }) else s
  else s

/-- SUPPLY_OVERCURRENT (R936, R939). -/
def execSupplyOvercurrent (port : Nat) (s : State) : Out := onTrigger (hasSupply port && (s.portAt port).supplyOn) s (supplyTrip port 1)

/-- SUPPLY_SHORT (R936, R939). -/
def execSupplyShort (port : Nat) (s : State) : Out := onTrigger (hasSupply port && (s.portAt port).supplyOn) s (supplyTrip port 2)

/-- SUPPLY_OPEN_LOAD: the supply stays on and detection continues (R936, R937). -/
def execSupplyOpenLoad (port : Nat) (s : State) : Out :=
  onTrigger (hasSupply port && (s.portAt port).supplyOn) s fun s =>
    raisePortLimited port 0x8F01 (port * 256 + 3) (s.updPort port fun q => { q with openLoad := q.openLoad || q.state == .detecting })

/-- SUPPLY_BACK_FEED: the switch blocks reverse current, the supply state is unchanged (Table 23-6). -/
def execSupplyBackFeed (port : Nat) (s : State) : Out :=
  onTrigger (hasSupply port && s.mainOn) s (raisePortLimited port 0x8F01 (port * 256 + 6))

/-- TRIP_COUNT_CLEAR: 60 s without a trip (R940). -/
def execTripCountClear (port : Nat) (s : State) : Out :=
  onTrigger (!(s.portAt port).trips.isEmpty && !(s.portAt port).latched
      && (s.portAt port).trips.all fun t => decide (msTicks 60000 ≤ s.since t)) s fun s =>
    s.updPort port fun q => { q with trips := [] }

/-- The ports with a switched supply. -/
def supplyPorts : List Nat := List.range 12 ++ [33, 34] ++ (List.range 8).map (· + 48)

/-- VSENS_OUT_OF_RANGE: every switched supply off, every claimed port that has one to FAULT with reason 4 (R933, R934). -/
def execVsensOutOfRange (high : Bool) (s : State) : Out :=
  onTrigger (s.life.vsensOk && s.life.vaux) s fun s =>
    let s := s.mapLife fun l => { l with vsensOk := false }
    let s := raisePinLimited 0x8F00 (if high then 5 else 4) s
    forEach supplyPorts (fun p s =>
      let q := s.portAt p
      let s := s.updPort p fun q => { q with supplyOn := false }
      if s.mainOn ∧ q.owner.isSome ∧ q.supplyStop = false then enterFault p 4 (s.updPort p fun q => { q with restoreDue := true }) else s) s

/-- VSENS_BACK_IN_RANGE: within 9 V to 16 V for 10 ms (R934). -/
def execVsensBackInRange (s : State) : Out :=
  onTrigger (!s.life.vsensOk && s.life.vaux) s fun s =>
    raisePinLimited 0x8F00 6 (s.mapLife fun l => { l with vsensOk := true, vsensBack := some s.time.ticks })

/-- INPUT_REVERSED: the protection controller sets its flag (R930); input 0 12V_MAIN, 1 VSENS, 2 VAUX. -/
def execInputReversed (input : Nat) (s : State) : Out :=
  onTrigger (decide (input < 3) && !s.life.reversed.contains input) s fun s =>
    s.mapLife fun l => { l with reversed := input :: l.reversed }

/-- Read and clear the flags of the protection controller; SUPPLY_FAULT for each that is set (R931). -/
def pollReversed (s : State) : State :=
  let set := (List.range 3).filter s.life.reversed.contains
  forEach set (fun i s => raisePinLimited 0x8F00 (i + 1) s) (s.mapLife fun l => { l with reversed := [] })

/-- SUPPLY_FLAG_POLL: every 10 ms while the tether core runs (R931). -/
def execSupplyFlagPoll (s : State) : Out := onTrigger s.life.vaux s pollReversed

/-! ### Signal faults (Table 23-8) -/

/-- Connector and pin of a compared output, as connector * 128 + pin (Tables 23-3 to 23-5, 23-9). -/
def outputPin (o : Nat) : Nat :=
  if o < 12 then (o + 4) * 128 + 21
  else if o < 16 then 3 * 128 + (o - 2)
  else if o < 20 then 3 * 128 + (o - 1)
  else if o = 20 then 3 * 128 + 8
  else if o < 29 then 20 * 128 + (if o < 25 then 0 else 8) + (match (o - 21) % 4 with | 0 => 7 | 1 => 2 | 2 => 3 | _ => 5)
  else if o = 29 then 3 * 128 + 20
  else if o = 30 then 3 * 128 + 21
  else 3 * 128 + 4

/-- GPIO0: ready for sessions and not in safe stop; GPIO1: in safe stop; both low while the main side is off (R927). -/
def gpio0 (s : State) : Bool := decide (s.life.main = .ready) && !s.life.safeStop
def gpio1 (s : State) : Bool := s.mainOn && s.life.safeStop

/-- The level that an output drives (R944); an SPI output at its idle level, MOSI's being left open. -/
def drivenLevel (s : State) (o : Nat) : Bool :=
  if o < 20 then reelHigh s o
  else if o = 20 then s.time.ppsHigh
  else if o = 21 then reelHigh s 20
  else if o = 25 then reelHigh s 21
  else if o = 22 then (s.portAt 33).spiMode3
  else if o = 26 then (s.portAt 34).spiMode3
  else if o = 23 ∨ o = 27 then Config.openVal 3 o % 2 == 1
  else if o = 24 ∨ o = 28 then true
  else if o = 29 then gpio0 s
  else if o = 30 then gpio1 s
  else s.tether.queue.isEmpty

/-- The IMU port that an SPI output belongs to. -/
def outputImu (o : Nat) : Option Nat :=
  if 22 ≤ o ∧ o ≤ 24 then some 33 else if 26 ≤ o ∧ o ≤ 28 then some 34 else none

/-- An output is turned off with cause 1; an IMU port whose SPI output is off enters FAULT (R945, Table 23-8). -/
def outputFails (o : Nat) (s : State) : State :=
  let s := s.updOutput o fun x => { x with off := true, mismatches := 0 }
  let s := raisePinLimited 0x8F02 (outputPin o * 16 + 1) s
  match outputImu o with
  | some p => if (s.portAt p).owner.isSome ∧ (s.portAt p).state ≠ .off then enterFault p 4 s else s
  | none => s

/-- OUTPUT_COMPARE: `pin` is the level found; three disagreements in a row turn the output off (R944, R945). TETHER_ALERT# is compared
while it is driven low, for 1 ms (Table 23-8). -/
def execOutputCompare (output : Nat) (pin : Bool) (s : State) : Out :=
  onTrigger (decide (output < 32) && !(s.outputAt output).off && (s.mainOn || output == 31)) s fun s =>
    if output = 31 then (if drivenLevel s 31 = false ∧ pin then outputFails 31 s else s)
    else if pin = drivenLevel s output then s.updOutput output fun x => { x with mismatches := 0 }
    else if (s.outputAt output).mismatches = 2 then outputFails output s
    else s.updOutput output fun x => { x with mismatches := x.mismatches + 1 }

/-- The level that the driver of an output would drive, were it on. -/
def wouldDrive (s : State) (o : Nat) : Bool := drivenLevel { s with outputs := Tab.del s.outputs o } o

/-- OUTPUT_RESTORE_TRY: driven for one comparison each second; when it agrees the output is restored with cause 5 (R945). -/
def execOutputRestoreTry (output : Nat) (pin : Bool) (s : State) : Out :=
  onTrigger ((s.outputAt output).off && decide (output < 32)) s fun s =>
    if pin = wouldDrive s output then (s.updOutput output fun _ => {}).raise 0x8F02 (outputPin output * 16 + 5) else s

/-- A line fault of Table 23-8 puts a port into FAULT with reason 4 and its recovery under R947. -/
def lineFault (p pin cause : Nat) (s : State) : State :=
  let s := s.updPort p fun q => { q with faultSignal := true, faultPin := pin, faultAt := s.time.ticks }
  let s := raisePortLimited p 0x8F02 (pin * 16 + cause) s
  enterFault p 4 s

/-- Whether a port is in use, so that its lines are watched. -/
def lineWatched (s : State) (p : Nat) : Bool := (s.portAt p).owner.isSome && (s.portAt p).state != .off

/-- DPHY_LINE_STUCK: outside the LP range for 1 ms in LP state (Table 23-8). -/
def execDphyLineStuck (port pin : Nat) (s : State) : Out :=
  onTrigger (isCamera port && lineWatched s port) s (lineFault port ((port + 4) * 128 + pin) 4)

/-- ENCODER_LINE_OPEN: open, or P shorted to N, for 1 ms (Table 23-8). -/
def execEncoderLineOpen (port pin : Nat) (s : State) : Out :=
  onTrigger (isEncoder port && lineWatched s port) s (lineFault port (20 * 128 + pin) 3)

/-- CAN_LINE_OPEN: outside 1.0 V to 4.0 V while recessive for 10 ms (Table 23-8). -/
def execCanLineOpen (port pin : Nat) (s : State) : Out :=
  onTrigger (isCan port && lineWatched s port) s (lineFault port (20 * 128 + pin) 3)

/-- CAN_PAIR_SWAPPED: the port sends nothing in ACK mode while the swap is detected (R949). -/
def execCanPairSwapped (port : Nat) (s : State) : Out :=
  onTrigger (isCan port && lineWatched s port) s fun s =>
    lineFault port (20 * 128 + (if port = 64 then 17 else 20)) 6 (s.updPort port fun q => { q with swapFault := true })

/-- LINE_HELD_LOW: low for 35 ms. A camera's CAM_I2C_XFER ends OK_PARTIAL and nine clocks free the bus; the SMBus interface releases the
bus and resets (Table 23-8). -/
def execLineHeldLow (line : HeldLine) (s : State) : Out :=
  match line with
  | .smbus dat => onTrigger s.life.vaux s fun s => (raisePinLimited 0x8F02 ((3 * 128 + (if dat then 2 else 1)) * 16 + 2) s).send .smbusReset
  | .cameraI2c p sda =>
    match s.cmds.find? fun m => m.phase == .running && m.opcode == 0x0205 && !m.begun && fld (m.w 3) 7 0 == p with
    | none => .next s
    | some m =>
      if isCamera p then
        let s := s.done m.ref OK_PARTIAL (Config.openVal 4 s.free % 65536)
        let s := { s with free := s.free + 1 }
        .next ((raisePortLimited p 0x8F02 (((p + 4) * 128 + (if sda then 20 else 19)) * 16 + 2) s).send (.i2cFree p))
      else .next s

/-! ### Encoders (R195 to R199) -/

/-- The change of count for a move of the quadrature lines: A leading B counts up (assumption 23), four counts per cycle. -/
def quadStep (a b a' b' : Bool) : Int :=
  if a = a' ∧ b = b' then 0
  else if a ≠ a' then (if a' = b' then -1 else 1)
  else (if a' = b' then 1 else -1)

/-- QUADRATURE_EDGE: one line of an encoder changes; pulses shorter than the glitch filter are rejected, SWAP exchanges A and B (R195). The levels are
followed in every state, and counted while the port is ready. -/
def execQuadratureEdge (port : Nat) (lineB level : Bool) (pulseNs : Nat) (s : State) : Out :=
  let q := s.portAt port
  onTrigger (isEncoder port && decide (q.glitch * 20 ≤ pulseNs)) s fun s =>
    let counts := q.owner.isSome && (q.state == .idle || q.state == .streaming)
    let a' := if lineB then q.lineA else level
    let b' := if lineB then level else q.lineB
    let d := if !counts then 0 else if q.swap then quadStep q.lineB q.lineA b' a' else quadStep q.lineA q.lineB a' b'
    s.updPort port fun q => { q with lineA := a', lineB := b', count := q.count + wInt d,
                                     lastCountChange := if d = 0 then q.lastCountChange else s.time.ticks,
                                     standstill := if d = 0 then q.standstill else false }

/-- ENCODER_STANDSTILL: the count of a verifying encoder has stayed unchanged for 100 ms (R197). -/
def execEncoderStandstill (port : Nat) (s : State) : Out :=
  let q := s.portAt port
  onTrigger (isEncoder port && q.state == .streaming && decide (msTicks 100 ≤ s.since q.lastCountChange)) s fun s =>
    s.updPort port fun q => { q with standstill := true }

/-- The window of R198 begins anew: at the binding, at a change of SWAP, and at each latch slower than 0.5 m/s. -/
def PortS.restartVerify (q : PortS) (now : Nat) : PortS := { q with verifyAt := now, verifyLatches := 0 }

/-- ENCODER_VERIFY_WINDOW: the latches of at least 2 s, all at 0.5 m/s or more, compared in sign with the fast pose; agreement ends VERIFYING, disagreement
toggles SWAP, and either way another window follows where VERIFYING goes on (R198, R199). -/
def execEncoderVerifyWindow (port agree disagree : Nat) (s : State) : Out :=
  let q := s.portAt port
  let n := q.verifyLatches
  onTrigger (isEncoder port && q.state == .streaming && q.verifying && decide (msTicks 2000 ≤ s.since q.verifyAt) && decide (0 < n)
      && decide (agree + disagree ≤ n)) s fun s =>
    let s := s.updPort port fun q => q.restartVerify s.time.ticks
    if 95 * n ≤ 100 * agree then s.updPort port fun q => { q with verifying := false }
    else if 95 * n ≤ 100 * disagree then
      raisePort port 0x8203 (port * 256 + (if q.swap then 0 else 1)) (s.updPort port fun q => { q with swap := !q.swap })
    else s

/-- ARP_ICMP_REQUEST: a port answers for its static IPv4 address while its PHY runs (R184, R185). -/
def execArpIcmpRequest (port : Nat) (icmp : Bool) (target : Word) (s : State) : Out :=
  let q := s.portAt (16 + port)
  let phy := s.time.roles.getD port 0 != 0 || (q.owner.isSome && q.state != .off)
  let electrical := q.state == .fault && q.reason == 4
  onTrigger (decide (port < 4) && s.mainOn && phy && !electrical && q.ipv4 != 0 && q.ipv4 == target) s fun s =>
    s.send (.ethernet port (if icmp then 7 else 6) target.toNat)

end Sys2Proof.Machine
end

