-- ==== Sys2Proof/Machine/Profiles.lean ====
section
/-! DEFINITION. The built-in profiles (Table 2-1) and the stages' work levels (Tables 2-2, 17-4). -/

namespace Sys2Proof.Machine

/-- A row of Table 2-1. -/
structure Profile where
  name : List Nat
  pose : Bool
  preset : Nat := 1
  fastHz : Nat := 800
  working : Nat
  lidar : Bool := false
  multi : Bool := true
  stereo : Nat := 1
  window : Nat := 12
  deriving DecidableEq, Repr

/-- The profiles in the order of Table 2-1; names in ASCII. -/
def profiles : List Profile :=
  [{ name := [0x56, 0x49, 0x4F, 0x5F, 0x53, 0x54, 0x45, 0x52, 0x45, 0x4F], pose := true, working := 10, multi := false },
   { name := [0x53, 0x4C, 0x41, 0x4D, 0x5F, 0x4D, 0x55, 0x4C, 0x54, 0x49], pose := true, fastHz := 1600, working := 34 },
   { name := [0x53, 0x4C, 0x41, 0x4D, 0x5F, 0x4C, 0x49, 0x44, 0x41, 0x52], pose := true, fastHz := 1600, working := 38, lidar := true },
   { name := [0x53, 0x55, 0x52, 0x56, 0x45, 0x59], pose := true, preset := 2, working := 40, lidar := true, stereo := 0, window := 24 },
   { name := [0x4D, 0x41, 0x50, 0x5F, 0x4D, 0x41, 0x49, 0x4E, 0x54, 0x41, 0x49, 0x4E], pose := false, working := 16, fastHz := 0 },
   { name := [0x52, 0x45, 0x4C, 0x4F, 0x43, 0x5F, 0x53, 0x45, 0x52, 0x56, 0x45], pose := false, working := 4, fastHz := 0 }]

def profileAt (i : Nat) : Profile := profiles.getD i { name := [], pose := false, working := 4 }

def SessionS.prof (x : SessionS) : Profile := profileAt x.profile

/-- MAP_MAINTAIN and RELOC_SERVE. -/
def SessionS.maintain (x : SessionS) : Bool := x.profile == 4
def SessionS.reloc (x : SessionS) : Bool := x.profile == 5

/-- The level of a stage code (Table 17-4). -/
def SessionS.level (x : SessionS) (code : Nat) : Nat := x.levels.getD code 0

/-- Least and greatest level, and whether a higher level is less work (Tables 2-2, 17-4). -/
def levelRange (code : Nat) : Nat × Nat × Bool :=
  match code with
  | 0 => (0, 2, true)
  | 1 => (1, 16, false)
  | 2 => (0, 3, true)
  | 3 => (4, 24, false)
  | 4 => (0, 3, true)
  | 5 => (1, 40, false)
  | _ => (4, 128, false)

/-- The next level below or above in work: `less` asks for less work; none at the end of the range. -/
def stepLevel (code level : Nat) (less : Bool) : Option Nat :=
  let r := levelRange code
  let up := less == r.2.2
  let next := if code = 6 then (if up then level * 2 else level / 2) else if up then level + 1 else level - 1
  if r.1 ≤ next ∧ next ≤ r.2.1 ∧ next ≠ level then some next else none

/-- The starting levels of a profile (Table 2-2). -/
def Profile.levels (p : Profile) : List Nat := [p.stereo, 8, 1, p.window, 2, 10, 32]

/-- Whether level `a` of a stage does more work than level `b` (Table 17-4). -/
def moreWork (code a b : Nat) : Bool := if (levelRange code).2.2 then decide (a < b) else decide (b < a)

/-- The levels of a stage's range (Table 17-4). -/
def rangeLevels (code : Nat) : List Nat :=
  let r := levelRange code
  if code = 6 then [4, 8, 16, 32, 64, 128] else (List.range (r.2.1 + 1 - r.1)).map (· + r.1)

/-- Entry `i` of a work-level table (Table 17-3). -/
def levelEntry (b : List Byte) (i : Nat) : List Byte := slice b (32 + 16 * i) 16

/-- The entry of a stage and level: E_DYN and STEPS. -/
def tableCost (b : List Byte) (code level : Nat) : Option (Nat × Nat) :=
  ((List.range (leAt b 0 2)).find? fun i => leAt (levelEntry b i) 0 1 == code && leAt (levelEntry b i) 1 1 == level).map fun i =>
    (leAt (levelEntry b i) 4 4, leAt (levelEntry b i) 8 4)

/-! ### Schedules in steps (R63, R64, R78, R79, R80, R474) -/

/-- Equivalent steps as time at the floor step rate of 1.05 Gsteps/s, in ns rounded up (R63, R474). -/
def floorNs (steps : Nat) : Nat := ceilDiv (steps * 20) 21

/-- The latency bound of a stage of the optimised path that runs on the fabric, ns (Table 2-3); the other stages of Table 17-4 have none. -/
def stageBound (code : Nat) : Option Nat := if code = 2 then some 120000 else if code = 3 then some 600000 else none

/-- The parts of Tables 2-3 and 2-4 that are fixed in steps, with their bounds in ns: association, the commit comparison, propagation. -/
def fixedParts : List (Nat × Nat) := [(231000, 220000), (10500, 10000), (42000, 40000)]

/-- E_DYN and STEPS of a stage's level: the loaded table's, else the firmware table's, whose values are not given (assumption 16, place 50); its STEPS
keep the bounds of Table 2-3. -/
def State.levelCost (s : State) (code level : Nat) : Nat × Nat :=
  if s.power.table = [] then
    (Config.openVal 50 (512 * code + 2 * level) % 2 ^ 32,
     Config.openVal 50 (512 * code + 2 * level + 1) % (match stageBound code with | some b => b * 21 / 20 + 1 | none => 2 ^ 32))
  else (tableCost s.power.table code level).getD (0, 0)

/-- Whether a stage's schedule at a level meets its latency bound at the floor step rate (R64). -/
def State.levelFits (s : State) (code level : Nat) : Bool := (stageBound code).all fun b => decide (floorNs (s.levelCost code level).2 ≤ b)

/-- Admission's check of the schedules of a pose-producing session: every fixed part, and every stage at the level of its range that needs the most steps
(R63, R78). -/
def State.schedulesFit (s : State) : Bool :=
  fixedParts.all (fun p => decide (floorNs p.1 ≤ p.2)) && (List.range 7).all fun k => (rangeLevels k).all fun l => s.levelFits k l

/-- The TARGET byte of a stage in a work-level table; the firmware's table holds 0xFF (Table 17-2). -/
def targetByte (table : List Byte) (code : Nat) : Nat := if table = [] then 0xFF else leAt table (12 + code) 1

/-- A session's ceilings on its stages: the TARGET byte, or its starting level (R736). -/
def ceilingsOf (table : List Byte) (starting : List Nat) : List Nat :=
  (List.range 7).map fun k => if targetByte table k = 0xFF then starting.getD k 0 else targetByte table k

/-- The levels at which a session starts: no stage does more work than its ceiling (R736). -/
def startLevels (starting ceilings : List Nat) : List Nat :=
  (List.range 7).map fun k => if moreWork k (starting.getD k 0) (ceilings.getD k 0) then ceilings.getD k 0 else starting.getD k 0

end Sys2Proof.Machine
end

