-- ==== Sys2Proof/Machine/Samples.lean ====
section
/-! DEFINITION. Samples on their way to fusion: the sensor entries (R327), lateness and age (R367, R368), the alignment test of free-running
sensors (R371 to R375), the conversion of R211, and the input samples of the filter channels. -/

namespace Sys2Proof.Machine

/-- The key of a sensor: port and index. -/
def sensorKey (port index : Nat) : Nat := port * 256 + index

/-- The entry that the session uses for a sensor (R327, R331). -/
def State.entryOf (s : State) (n key : Nat) : SensorEntry := Tab.getD (s.ctxAt n).inUse key {}

/-- TIME_OFFSET of a sensor in ns (Table 8-2). -/
def SensorEntry.offset (e : SensorEntry) : Int := e.timeOffset.toInt

/-- A quotient of integers rounded to nearest, ties to even. -/
def roundDiv (a : Int) (n : Nat) : Int :=
  let q := a / Int.ofNat n
  let r := 2 * (a % Int.ofNat n)
  if r < Int.ofNat n ∨ (r = Int.ofNat n ∧ q % 2 = 0) then q else q + 1

/-- The time of validity of level-0 line `y` after that of line 0 (Tables 8-2, 8-3): LINE_TIME counts for a rolling shutter only. -/
def SensorEntry.lineNs (e : SensorEntry) (y : Nat) : Int :=
  if bit e.flags 1 then roundDiv (Int.ofNat (e.lineTime.toNat * y)) 1000 else 0

/-- Whether a sample is an output that fusion treats as missing (R337). -/
def SampleData.missing : SampleData → Bool
  | .imu _ _ usable => !usable
  | .wheel _ => false
  | .can _ _ _ => false
  | .sweep => false

/-- The Reel target of the sync input of an external IMU (Table 3-4), and the entry armed on it, if any (R193). -/
def imuTarget (port : Nat) : Nat := if port = 33 then 20 else 21
def State.imuSync (s : State) (port : Nat) : Option ReelEntry :=
  (s.reel.find? fun e => e.2.target.toNat == imuTarget port && e.2.state == 2).map (·.2)

/-- Hand a sample over to fusion with its stamp, whether the stamp is a firmware stamp (R334), and what it carries: its lateness and age are judged
here; one too old, or before the window, is dropped and counted (R367, R368). A sensor that is UNALIGNED feeds no fusion (R373). -/
def State.handSample (s : State) (n key : Nat) (stamp : Int) (firmware : Bool) (data : SampleData) : State :=
  match s.sessionAt n with
  | none => s
  | some x =>
    let valid := stamp + (s.entryOf n key).offset
    let now := s.devNs
    if x.unaligned.contains key then s
    else if data.missing then s.updSession n fun y => { y with samples := y.samples ++ [{ valid := valid, handed := now, key := key, data := data }] }
    else if Int.ofNat (x.fusion.retro * 1000000) < Int.ofNat now - valid ∨ x.windowOldest.any (fun t => decide (valid < t)) = true then
      s.updSession n fun y => { y with lateDropped := y.lateDropped + 1 }
    else s.updSession n fun y =>
      { y with samples := y.samples ++ [{ valid := valid, handed := now, late := x.optValid.any (fun t => decide (valid < t)), key := key,
                                          firmware := firmware, data := data }] }

/-- The alignment test at a stamp of a free-running sensor (R372 to R374); the second part says that the sample is discarded. -/
def State.alignSample (s : State) (n port index stamp : Nat) : State × Bool :=
  let key := sensorKey port index
  let nom := (s.entryOf n key).nominal.toNat
  let a := Tab.getD (s.ctxAt n).align key {}
  let put (s : State) (a : AlignS) := s.updCtx n fun c => { c with align := Tab.put c.align key a }
  if nom = 0 then (s, false)
  else match a.anchor with
  | none => (put s { a with anchor := some stamp, k := 0, last := stamp, devs := [0] }, false)
  | some anchor =>
    let d := roundDiv (Int.ofNat stamp - Int.ofNat a.last) nom
    if d = 0 then (s.updPort port fun q => { q with errors := satU 32 (q.errors + 1) }, true)
    else
      let k := (Int.ofNat a.k + d).toNat
      let devs := (a.devs ++ [Int.ofNat stamp - Int.ofNat (anchor + k * nom)]).drop (a.devs.length + 1 - 16)
      let sum := devs.foldl (· + ·) 0
      let a := { a with k := k, last := stamp, devs := devs }
      if nom * devs.length < sum.natAbs then
        let s := put s { a with anchor := none, devs := [], unaligned := true, good := 0 }
        if a.unaligned then (s, false)
        else ((s.updSession n fun x => { x with unaligned := x.unaligned ++ [key] }).raiseCtx n 0x8600 key, false)
      else if a.unaligned then
        let good := if 4 * sum.natAbs ≤ nom * devs.length then a.good + 1 else 0
        if ((s.sessionAt n).getD {}).fusion.alignSamples ≤ good then
          let s := put s { a with unaligned := false, good := 0 }
          ((s.updSession n fun x => { x with unaligned := x.unaligned.filter fun k => k != key }).raiseCtx n 0x8601 key, false)
        else (put s { a with good := good }, false)
      else (put s a, false)

/-! ### Filter inputs (R211 to R213) -/

def s24Max : Int := 8388607
def s24Min : Int := -8388608

/-- An exact number times 2^k, rounded to the nearest integer with ties to even (R211). -/
def Dy.roundScaled (d : Dy) (k : Int) : Int :=
  let e := d.e + k
  if 0 ≤ e then d.n * 2 ^ e.toNat else roundDiv d.n (2 ^ (-e).toNat)

/-- The conversion of R211: the value in the unit 2^-k, saturated to 24 bits, and whether it saturated. -/
def toInput (d : Dy) (k : Int) : Int × Bool :=
  let x := d.roundScaled k
  (clampInt s24Min s24Max x, decide (x < s24Min ∨ s24Max < x))

/-- The conversion of a binary32 word; an infinity saturates, and what a NaN gives is open (assumption 16, place 43). -/
def wordInput (w : Word) (k : Int) : Int × Bool :=
  if isFinite32 w.toNat then
    toInput ⟨(if bit w 31 then -1 else 1) * (Int.ofNat (if fld w 30 23 = 0 then fld w 22 0 else 2 ^ 23 + fld w 22 0)), Int.ofNat (max 1 (fld w 30 23)) - 150⟩ k
  else if fld w 22 0 = 0 then (if bit w 31 then s24Min else s24Max, true)
  else (sext 24 (Config.openVal 43 w.toNat), true)

/-- Fraction bits of the input unit of an axis (Table 5-2). -/
def axisBits (axis : Nat) : Int := if axis < 3 then 18 else 16

/-- Deliver one sample of a source to every channel bound to it: `value` gives the converted value of an axis, none a sample that the source
failed to deliver, which the previous input replaces (R213). -/
def State.deliver (s : State) (port stamp : Nat) (value : Nat → Option (Int × Bool)) : State :=
  { s with filters := Tab.mapVals s.filters fun _ c =>
      if c.source.toNat = port ∧ c.holder.isSome then
        match value c.axis with
        | some v => { c with due := some (v.1, v.2, stamp, false), changeNow := false }
        | none => { c with due := some (c.lastInput, false, stamp, true), changeNow := false }
      else c }

end Sys2Proof.Machine
end

