-- ==== Sys2Proof/Machine/Filter.lean ====
section
/-! DEFINITION. The inertial filter chain (chapter 5): the channels' inputs and outputs, swaps and rate changes, the detector, and the commands
of 0x04xx. -/

namespace Sys2Proof.Machine

/-! ### Coefficient sets -/

def CoeffSet.symmetric (c : CoeffSet) : Bool := c.coeff == c.coeff.reverse

/-- Input rate of a source (R212, R979). -/
def inputHz (s : State) (src : Nat) : Nat := if isExtImu src then (s.portAt src).sampleHz else 6400

/-- Group delay of a set at an input rate (R217). -/
def CoeffSet.group (c : CoeffSet) (hz : Nat) : Nat :=
  if c.symmetric then (roundDiv (Int.ofNat ((c.taps - 1) * 1000000000)) (2 * hz)).toNat else c.delayNs

/-- A preset's set at a source's rate, none when it does not fit (R220, R221). -/
def presetSet (s : State) (p src : Nat) : Option CoeffSet :=
  let f := presetFigures p
  let hz := inputHz s src
  if hz ≠ 0 ∧ hz % f.1 = 0 ∧ hz / f.1 ≤ 32 then
    some { taps := f.2, decim := hz / f.1, outShift := 14, xfade := 64, coeff := presetCoeff s.sec.runVersion.toNat p, preset := some p }
  else none

/-- A coefficient set in bytes (Table 5-5). -/
def parseCoeff (b : List Byte) : CoeffSet :=
  let n := leAt b 0 2
  { taps := n, decim := leAt b 2 1, outShift := leAt b 3 1, delayNs := leAt b 4 4, xfade := leAt b 8 2,
    coeff := (List.range (min n 384)).map fun i => sext 16 (leAt b (16 + 2 * i) 2) }

/-- Whether a loaded set is one that Table 5-5, R215 and R217 accept. -/
def CoeffSet.ok (c : CoeffSet) : Bool :=
  decide (1 ≤ c.taps ∧ c.taps ≤ 384 ∧ 1 ≤ c.decim ∧ c.decim ≤ 32 ∧ c.outShift ≤ 31 ∧ 16 ≤ c.xfade ∧ c.xfade ≤ 256
    ∧ total (c.coeff.map Int.natAbs) ≤ 131072) && (c.symmetric || c.delayNs != 0)

/-! ### Instances -/

def ChannelS.instA (c : ChannelS) (b : Bool) : Option CoeffSet := if b then c.setB else c.setA
def ChannelS.putInst (c : ChannelS) (b : Bool) (x : Option CoeffSet) : ChannelS := if b then { c with setB := x } else { c with setA := x }
/-- The running instance's set; none without a running set (R981). -/
def ChannelS.runSet (c : ChannelS) : Option CoeffSet := if c.running then c.instA c.activeB else none
def ChannelS.stopSet (c : ChannelS) : Option CoeffSet := c.instA (!c.activeB)

/-- Start an instance: it fills under R219. -/
def ChannelS.start (c : ChannelS) (b : Bool) (mode : Nat) : ChannelS :=
  { c with activeB := b, running := true, mode := mode, filling := true, inputs := 0, phase := 0, change := .none }

/-- Whether a cross-fade is in progress (R228), and whether a rate change is under way (R233). -/
def ChannelS.fadeOn (c : ChannelS) : Bool := match c.change with | .swapWait _ => true | .fading _ _ _ => true | _ => false
def ChannelS.rateOn (c : ChannelS) : Bool := match c.change with | .rateWait _ _ => true | .rateGap _ => true | _ => false

/-- Input samples that a filling channel needs: TAPS of its running set, and of the incoming one of a cross-fade (R213, R219, R226). -/
def ChannelS.need (c : ChannelS) : Nat :=
  match c.change, c.stopSet with
  | .fading _ _ _, some k => max k.taps ((c.runSet.map (·.taps)).getD 0)
  | _, _ => (c.runSet.map (·.taps)).getD 0

/-- FILLING (Table 5-1): the running instance has not yet received TAPS input samples. -/
def ChannelS.fills (c : ChannelS) : Bool := c.filling || c.runSet.any fun k => decide (c.inputs < k.taps)

/-- Whether the running instance's output falls on the delivered sample, counting that sample (R216, R219). -/
def ChannelS.dueNow (c : ChannelS) (extra : Nat) : Bool :=
  match c.runSet with
  | none => false
  | some k => if c.filling then decide (c.need ≤ c.inputs + extra) else decide (k.decim ≤ c.phase + extra)

/-- A value saturated to 24 bits and whether it saturated. -/
def sat24 (x : Int) : Int × Bool := (clampInt s24Min s24Max x, decide (x < s24Min ∨ s24Max < x))

/-- The output of a set over the history, newest sample first: value, saturation of the output, and the marks of the window (R214, R216). -/
def firOut (k : CoeffSet) (hist : List (Int × Bool × Bool)) : Int × Bool × Bool × Bool :=
  let w := hist.take k.taps
  let acc := (k.coeff.zip w).foldl (fun a p => a + p.1 * p.2.1) 0
  let v := sat24 (convergent acc k.outShift)
  (v.1, v.2, w.any (·.2.1), w.any (·.2.2))

/-! ### The detector and the thresholds (R234 to R236) -/

def magnitude (v : Int) : Nat := min v.natAbs 8388607

def ChannelS.peak (c : ChannelS) : Nat := maxD 0 c.peakWin
/-- The root of the exact mean, rounded to nearest with ties to even. -/
def ChannelS.rms (c : ChannelS) : Nat :=
  let n := c.rmsWin.length
  if n = 0 then 0
  else
    let sum := total (c.rmsWin.map fun v => v * v)
    let r := isqrt (sum / n)
    if n * (2 * r + 1) ^ 2 < 4 * sum ∨ (4 * sum = n * (2 * r + 1) ^ 2 ∧ r % 2 = 1) then r + 1 else r
def ChannelS.envelope (c : ChannelS) : Nat := (roundDiv (Int.ofNat c.env) 4096).toNat

/-- Feed an output to the detector. -/
def ChannelS.detect (c : ChannelS) (v : Int) : ChannelS :=
  let a := magnitude v
  { c with peakWin := (a :: c.peakWin).take c.hold,
           rmsWin := (v.natAbs :: c.rmsWin).take (2 ^ c.log2W),
           env := (Int.ofNat c.env + roundDiv (Int.ofNat (a * 4096) - Int.ofNat c.env) (2 ^ c.envShift)).toNat }

/-- Restart the threshold pair; restart the whole detector (R236). -/
def ChannelS.rearm (c : ChannelS) : ChannelS := { c with thrArmed := true, thrBeyond := 0, thrWithin := 0 }
def ChannelS.restartDetector (c : ChannelS) : ChannelS := { c with peakWin := [], rmsWin := [], env := 0 }.rearm

/-- Raise an event of a channel in the context that holds it. -/
def raiseChan (ch code low : Nat) (s : State) : State :=
  match (s.chanAt ch).holder with
  | some n => s.raiseCtx n code (ch * 256 + low)
  | none => s

/-- Test the threshold pair after an output (R235). -/
def threshold (ch : Nat) (v : Int) (s : State) : State :=
  let c := s.chanAt ch
  if c.thrCount = 0 then s
  else
    let q : Int := [v, Int.ofNat c.peak, Int.ofNat c.rms, Int.ofNat c.envelope].getD c.thrQuantity v
    let above := decide (c.thrUpper < q)
    let below := decide (q < c.thrLower)
    if c.thrArmed = false then
      let within := if above ∨ below then 0 else c.thrWithin + 1
      if c.thrCount ≤ within then s.updChan ch ChannelS.rearm else s.updChan ch fun c => { c with thrWithin := within }
    else if above ∨ below then
      let beyond := min 255 (c.thrBeyond + 1)
      if c.thrCount ≤ beyond ∧ c.thrLast.all (fun t => decide (msTicks 100 ≤ s.since t)) = true then
        raiseChan ch 0x8400 (c.thrQuantity * 64 + (if above then 1 else 0))
          (s.updChan ch fun c => { c with thrArmed := false, thrWithin := 0, thrBeyond := beyond, thrLast := some s.time.ticks })
      else s.updChan ch fun c => { c with thrBeyond := beyond }
    else s.updChan ch fun c => { c with thrBeyond := 0 }

/-- Count one saturation and report it (R211, R982); an input's saturation also counts in FILTER_READ. -/
def countSaturation (ch : Nat) (input : Bool) (s : State) : State :=
  let c := s.chanAt ch
  let fresh := c.satLast.all fun t => decide (msTicks 1000 ≤ s.since t)
  let pend := (if fresh then 0 else c.satPending) + 1
  let report := fresh || c.satReport.all fun t => decide (msTicks 1000 ≤ s.since t)
  let s := s.updChan ch fun c =>
    { c with saturated := if input then satU 32 (c.saturated + 1) else c.saturated, satLast := some s.time.ticks,
             satPending := if report then 0 else pend, satReport := if report then some s.time.ticks else c.satReport }
  if report then raiseChan ch 0x8401 (min pend 255) s else s

/-! ### Outputs -/

/-- A fused channel's time offset: its sensor's TIME_OFFSET (Table 8-3). -/
def chanOffset (s : State) (n : Nat) (c : ChannelS) : Int := (s.entryOf n (sensorKey c.source.toNat 0)).offset

/-- Hand an output to fusion (R210, R218, R337, R339): its sample, its rate-change gap, and the POSE_FAST that falls due (R81, R222). -/
def handOutput (ch : Nat) (o : FilterOut) (prev : Option FilterOut) (s : State) : State :=
  let c := s.chanAt ch
  match c.holder with
  | none => s
  | some n =>
    match s.sessionAt n with
    | none => s
    | some x =>
      if c.route = 1 ∨ x.prof.pose = false then s
      else
        let valid := Int.ofNat o.tInput - Int.ofNat o.groupDelay
        let off := chanOffset s n c
        let imu0 := c.source == 32
        let s := match bit o.flags 0, prev with
          | true, some p => s.updSession n fun x => { x with gaps := x.gaps ++ [(Int.ofNat p.tInput - Int.ofNat p.groupDelay + off, valid + off, imu0)] }
          | _, _ => s
        let src := c.source.toNat
        let s := if isEncoder src && (s.portAt src).verifying then s
          else s.handSample n (sensorKey src 0) valid (isExtImu src && (s.imuSync src).isNone)
            (if isEncoder src then .wheel o.value else .imu c.axis o.value (!bit o.flags 1))
        if imu0 ∧ c.axis = 0 ∧ c.bySession then
          let k := match c.runSet with | some r => max 1 (6400 / r.decim / x.prof.fastHz) | none => 1
          s.updSession n fun x =>
            { x with fastOut := x.fastOut + 1, fastDue := if o.index.toNat % k = 0 then x.fastDue ++ [(o.index.toNat, valid + off, o.tInput)] else x.fastDue }
        else s

/-- A channel of a FILTER_PRESET or FILTER_SWAP has taken its change: the command commits at the earliest such sample and ends with the last
(R229, R703). -/
def channelChanged (ch stamp : Nat) (s : State) : State :=
  match (s.chanAt ch).presetCmd with
  | none => s
  | some c =>
    let s := s.updChan ch fun x => { x with presetCmd := none }
    let s := s.updCmd c fun m =>
      { m with work := m.work.filter fun k => k != ch, committed := true, commitTime := if m.committed then m.commitTime else BitVec.ofNat 64 stamp }
    match s.findCmd c with
    | some m => if m.work = [] then s.done c else s
    | none => s

/-- Begin the cross-fade of a waiting swap when the incoming set is primed (R225, R229). -/
def beginFade (ch stamp : Nat) (s : State) : State :=
  let c := s.chanAt ch
  match c.change with
  | .swapWait p =>
    let set := match p with | some e => some e.2 | none => c.stopSet
    match set with
    | none => s
    | some k =>
      if k.taps ≤ c.inputs then
        channelChanged ch stamp (s.updChan ch fun c => { c.putInst (!c.activeB) (some k) with change := .fading 1 k.xfade (p.map (·.1)) })
      else s
  | _ => s

/-- What the output of a channel is: value, group delay, flags without RATE_CHANGE, and whether it saturated (R216, R226). -/
def outputOf (c : ChannelS) (hz : Nat) : Int × Nat × Nat × Bool :=
  match c.runSet with
  | none => (0, 0, 0, false)
  | some k =>
    let a := firOut k c.history
    let ga := k.group hz
    match c.change, c.stopSet with
    | .fading j x _, some k2 =>
      let b := firOut k2 c.history
      let v := sat24 (roundDiv (a.1 * (Int.ofNat x - Int.ofNat j) + b.1 * Int.ofNat j) x)
      let g := (roundDiv (Int.ofNat (ga * (x - j) + k2.group hz * j)) x).toNat
      let sat := a.2.1 || b.2.1 || v.2
      (v.1, g, (if sat || a.2.2.1 || b.2.2.1 then 2 else 0) + (if a.2.2.2 || b.2.2.2 then 4 else 0) + 8, sat)
    | _, _ => (a.1, ga, (if a.2.1 || a.2.2.1 then 2 else 0) + (if a.2.2.2 then 4 else 0), a.2.1)

/-- After an output: the end of a cross-fade (R227), or the change of rate, whose last old output this was (R231). -/
def afterOutput (ch stamp : Nat) (valid : Int) (s : State) : State :=
  let c := s.chanAt ch
  match c.change with
  | .fading j x p =>
    if x ≤ j then
      let b := !c.activeB
      raiseChan ch 0x8403 (if b then 1 else 0) (s.updChan ch fun c => { c with activeB := b, mode := p.getD 4, change := .none })
    else s.updChan ch fun c => { c with change := .fading (j + 1) x p }
  | .rateWait k p =>
    channelChanged ch stamp (s.updChan ch fun c =>
      { (c.putInst (!c.activeB) (some k)) with activeB := !c.activeB, mode := p, change := .rateGap valid, changeNow := false })
  | _ => s

/-- One output of a channel on the sample stamped `stamp` (R216 to R219, R226, R232). -/
def channelOutput (ch stamp : Nat) (s : State) : State :=
  let s := beginFade ch stamp s
  let c := s.chanAt ch
  let v := outputOf c (inputHz s c.source.toNat)
  let valid := Int.ofNat stamp - Int.ofNat v.2.1
  let s := if v.2.2.2 then countSaturation ch false s else s
  let s := s.updChan ch fun c => { c with filling := false, phase := 0 }
  let gap := match c.change with | .rateGap l => some l | _ => none
  let primed := match c.runSet with | some k => decide (k.taps ≤ c.inputs) | none => false
  if gap.any (fun l => decide (valid ≤ l) || !primed) then s
  else
    let s := if gap.isSome then
        raiseChan ch 0x8402 c.mode (s.updChan ch fun c => { c with change := .none }.restartDetector)
      else s
    let o : FilterOut := { tInput := stamp, groupDelay := v.2.1, value := v.1, index := c.outIndex,
                           flags := BitVec.ofNat 16 (v.2.2.1 + (if gap.isSome then 1 else 0)), channel := ch }
    let prev := c.lastOut
    let s := s.updChan ch fun c =>
      { c with outIndex := c.outIndex + 1, outputs := c.outputs + 1, lastOut := some o, groupDelay := v.2.1 }.detect v.1
    let s := if c.outIndex = 0xFFFFFFFF ∧ c.source = 32 ∧ c.axis = 0 then
        s.raise 0x8305 2
      else s
    let s := threshold ch v.1 s
    let s := handOutput ch o prev s
    afterOutput ch stamp valid s

/-- Whether the rate change of a channel falls on the delivered sample: its own next output, or that of another channel of its command and
source, is on it (R231, R703). -/
def rateDue (s : State) (ch : Nat) : Bool :=
  let c := s.chanAt ch
  match c.change with
  | .rateWait _ _ =>
    c.changeNow || s.filters.any fun e =>
      e.2.source == c.source && e.2.presetCmd == c.presetCmd && e.2.due.isSome && e.2.dueNow 1
        && (match e.2.change with | .rateWait _ _ => true | _ => false)
  | _ => false

/-- Take the sample delivered to a channel (R211, R213, R216, R219, R231, R981). -/
def takeInput (ch : Nat) (s : State) : State :=
  let c := s.chanAt ch
  match c.due with
  | none => s
  | some (v, sat, stamp, held) =>
    let forced := rateDue s ch || (c.dueNow 1 && (match c.change with | .rateWait _ _ => true | _ => false))
    let s := if forced then
        { s with filters := Tab.mapVals s.filters fun _ e =>
            if e.source == c.source && e.presetCmd == c.presetCmd && e.due.isSome then { e with changeNow := true } else e }
      else s
    let s := match c.change with
      | .startWait k p => channelChanged ch stamp (s.updChan ch fun c => (c.putInst (!c.activeB) (some k)).start (!c.activeB) p)
      | _ => s
    let s := if sat then countSaturation ch true s else s
    let s := s.updChan ch fun c =>
      { c with due := none, lastInput := v, history := ((v, sat, held) :: c.history).take 384, inputs := c.inputs + 1, phase := c.phase + 1 }
    let c := s.chanAt ch
    if c.dueNow 0 ∨ (forced ∧ c.filling = false) then channelOutput ch stamp s
    else if forced then afterOutput ch stamp (Int.ofNat stamp - Int.ofNat ((c.runSet.map fun k => k.group (inputHz s c.source.toNat)).getD 0)) s
    else s

/-- FILTER_INPUT_SAMPLE: a channel takes its delivered sample. -/
def execFilterInputSample (channel : Nat) (s : State) : Out :=
  onTrigger (decide (channel < 32) && (s.chanAt channel).due.isSome) s (takeInput channel)

/-- Take whatever samples of a source are still waiting, so that none is lost. -/
def takeWaiting (port : Nat) (s : State) : State :=
  forEach (List.range 32) (fun ch s => if (s.chanAt ch).source.toNat = port then takeInput ch s else s) s

/-! ### Commands -/

/-- Continue with a channel that the sender's context holds (R209, R983). -/
def withChan (m : Cmd) (s : State) (ch : Nat) (k : ChannelS → State) : State :=
  match (s.chanAt ch).holder with
  | none => s.badWord m.ref 3
  | some n => if n = m.ctx then k (s.chanAt ch) else s.refuseOpen m.ref BUSY

/-- A newly bound channel: the preset when it fits, else no running set (R208, R981, R983). -/
def newChannel (s : State) (n src axis route preset : Nat) (bySession : Bool) : ChannelS :=
  let c : ChannelS := { source := BitVec.ofNat 8 src, axis := axis, route := route, holder := some n, bySession := bySession, mode := 4 }
  match presetSet s preset src with
  | some k => { c with mode := preset, setA := some k, running := true, groupDelay := k.group (inputHz s src) }
  | none => c

/-- A channel bound anew by its holder (R983): a set of its own stays, a preset is taken at the new source's rate, and one that does not fit it leaves
the channel without a running set (R221, R981). -/
def rebound (s : State) (q : ChannelS) (src axis route : Nat) : ChannelS :=
  let q := { q with source := BitVec.ofNat 8 src, axis := axis, route := route, filling := true, inputs := 0, phase := 0, outIndex := 0, outputs := 0,
                    history := [], due := none, lastOut := none, change := .none }.restartDetector
  match q.runSet.bind (·.preset) with
  | none => q
  | some p =>
    match presetSet s p src with
    | some k => q.putInst q.activeB (some k)
    | none => { q.putInst q.activeB none with running := false, mode := 4 }

/-- A change that waits on a channel ends unmade, and the command that asked for it waits for the channel no longer (R209, R703, R983). -/
def dropChange (ch : Nat) (s : State) : State :=
  let q := s.chanAt ch
  match q.presetCmd, decide (q.change = .none) with
  | some c, false =>
    let s := { s with filters := Tab.put s.filters ch { q with presetCmd := none, change := .none } }
    let s := s.updCmd c fun m => { m with work := m.work.filter fun k => k != ch }
    (match s.findCmd c with
    | some m => if m.work ≠ [] then s else if m.committed then s.done c else s.refuseOpen c ABORTED
    | none => s)
  | _, _ => s

/-- A channel is free again (R209). -/
def freeChannel (ch : Nat) (s : State) : State :=
  let s := dropChange ch s
  { s with filters := Tab.put s.filters ch {} }

/-- FILTER_BIND (R209, R210, R979, R983). -/
def execFilterBind (c : CmdRef) (s : State) : Out :=
  onCmd 0x0400 c s fun m s =>
    let rel := bit (m.w 3) 8
    let any := bit (m.w 3) 9
    let src := fld (m.w 4) 31 24
    let axis := fld (m.w 4) 23 20
    let route := fld (m.w 4) 19 18
    if rel ∧ any then s.badWord c 3
    else match (if any then (List.range 32).find? (fun i => (s.chanAt i).holder.isNone) else some (fld (m.w 3) 4 0)) with
    | none => s.refuseOpen c NO_RESERVATION
    | some ch =>
      let q := s.chanAt ch
      let busy := q.holder.isSome && (q.holder != some m.ctx || q.bySession || q.fadeOn || q.rateOn)
      if rel then
        if q.holder = none then s.done c OK 0 [w32 ch]
        else if busy then s.refuseOpen c BUSY
        else (freeChannel ch s).done c OK 0 [w32 ch]
      else if !((src == 32 || isExtImu src) && decide (axis ≤ 5) || (isEncoder src && axis == 0)) || route == 3
          || (isExtImu src && (s.portAt src).sampleHz == 0) then s.badWord c 4
      else if busy then s.refuseOpen c BUSY
      else
        let s := if q.holder = none then s else dropChange ch s
        let new := if q.holder = none then newChannel s m.ctx src axis route 1 false else rebound s (s.chanAt ch) src axis route
        { s with filters := Tab.put s.filters ch new }.done c OK 0 [w32 ch]

/-- Why FILTER_PRESET is refused for a channel of its mask, if it is. -/
def presetRefusal (m : Cmd) (p : Nat) (s : State) (ch : Nat) : Option (State → State) :=
  let q := s.chanAt ch
  match q.holder with
  | none => some fun s => s.badWord m.ref 3
  | some n =>
    if n ≠ m.ctx then some fun s => s.refuseOpen m.ref BUSY
    else if (presetSet s p q.source.toNat).isNone then some fun s => s.badWord m.ref 4
    else match q.change with
      | .none => none
      | .startWait _ _ => some fun s => s.refuseOpen m.ref BUSY
      | .rateWait _ _ => some fun s => s.refuseOpen m.ref BUSY
      | .rateGap _ => some fun s => s.refuseOpen m.ref BUSY
      | _ => some fun s => s.refuse m.ref CROSSFADE_BUSY (Config.openDetail m.opcode CROSSFADE_BUSY).toNat

/-- FILTER_PRESET (R221, R228 to R233, R703, R981, R983): each channel of the mask waits for its own sample. -/
def execFilterPreset (c : CmdRef) (s : State) : Out :=
  onCmd 0x0401 c s fun m s =>
    let p := fld (m.w 4) 2 0
    let chans := setBits 32 (m.w 3).toNat
    if chans = [] then s.badWord c 3
    else if 3 < p then s.badWord c 4
    else match chans.findSome? fun ch => presetRefusal m p s ch with
    | some f => f s
    | none =>
      let s := s.updCmd c fun m => { m with work := chans }
      forEach chans (fun ch s => s.updChan ch fun q =>
        match presetSet s p q.source.toNat with
        | none => q
        | some k =>
          { q with presetCmd := some c,
                   change := match q.runSet with
                     | none => .startWait k p
                     | some r => if r.decim = k.decim then .swapWait (some (p, k)) else .rateWait k p }) s

/-- FILTER_LOAD (R214, R215, R217, R223, R233, R981). -/
def execFilterLoad (c : CmdRef) (s : State) : Out :=
  onCmd 0x0402 c s fun m s =>
    let ch := fld (m.w 3) 4 0
    let b := bit (m.w 3) 8
    withChan m s ch fun q =>
      if q.rateOn then s.refuseOpen c BUSY
      else if q.fadeOn ∨ (q.running ∧ q.activeB = b) then s.refuseOpen c FILTER_RUNNING
      else withSg m 4 s fun d =>
        let k := parseCoeff d
        if k.ok = false ∨ d.length < 16 + 2 * k.taps then s.badWord c 4
        else (s.updChan ch fun q => q.putInst b (some k)).done c

/-- FILTER_SWAP (R224 to R229, R233, R981): on a channel with no running set the stopped instance starts at once. -/
def execFilterSwap (c : CmdRef) (s : State) : Out :=
  onCmd 0x0403 c s fun m s =>
    let ch := fld (m.w 3) 4 0
    withChan m s ch fun q =>
      if q.rateOn then s.refuseOpen c BUSY
      else if q.fadeOn then s.refuseOpen c CROSSFADE_BUSY
      else match q.change with
      | .startWait _ _ => s.refuseOpen c BUSY
      | _ =>
        match q.runSet with
        | none =>
          if q.stopSet.isSome then (s.updChan ch fun q => q.start (!q.activeB) 4).done c
          else if (q.instA q.activeB).isSome then (s.updChan ch fun q => q.start q.activeB 4).done c
          else s.badWord c 3
        | some r =>
          if q.stopSet.any fun k => k.decim == r.decim then
            (s.updCmd c fun m => { m with work := [ch] }).updChan ch fun q => { q with change := .swapWait none, presetCmd := some c }
          else s.badWord c 3

/-- An ABORT of a FILTER_PRESET or FILTER_SWAP before its commit: every channel keeps what it had (R229, R703). -/
def abortFilter (c : CmdRef) (s : State) : State :=
  { s with filters := Tab.mapVals s.filters fun _ q => if q.presetCmd = some c then { q with change := .none, presetCmd := none, changeNow := false } else q }.refuseOpen c ABORTED

/-- FILTER_THRESHOLD (R234, R235, R984). -/
def execFilterThreshold (c : CmdRef) (s : State) : Out :=
  onCmd 0x0404 c s fun m s =>
    let ch := fld (m.w 3) 4 0
    let hold := withDefault (fld (m.w 6) 15 0) 1 65535 1600
    let lw := withDefault (fld (m.w 6) 19 16) 4 12 8
    let es := withDefault (fld (m.w 6) 27 24) 1 12 6
    let lim (w : Word) : Bool := decide (s24Min ≤ w.toInt ∧ w.toInt ≤ s24Max)
    withChan m s ch fun _ =>
      if lim (m.w 4) = false then s.badWord c 4
      else if lim (m.w 5) = false then s.badWord c 5
      else match hold, lw, es with
        | some hold, some lw, some es =>
          (s.updChan ch fun q =>
            { q with thrQuantity := fld (m.w 3) 9 8, thrCount := fld (m.w 3) 23 16, thrUpper := (m.w 4).toInt, thrLower := (m.w 5).toInt,
                     peakWin := if q.hold = hold then q.peakWin else [], rmsWin := if q.log2W = lw then q.rmsWin else [],
                     env := if q.envShift = es then q.env else 0, hold := hold, log2W := lw, envShift := es }.rearm).done c
        | _, _, _ => s.badWord c 6

/-- FILTER_CH_CFG (Table 5-1). -/
def ChannelS.cfg (q : ChannelS) : Word :=
  w32 (q.source.toNat * 2 ^ 24 + q.axis * 2 ^ 20 + q.route * 2 ^ 18 + q.mode * 2 ^ 15 + (if q.activeB then 2 ^ 14 else 0)
    + (if q.fadeOn then 2 ^ 13 else 0) + (if q.fills then 2 ^ 12 else 0))

/-- FILTER_READ (R209, R234, Table 16-8). -/
def execFilterRead (c : CmdRef) (s : State) : Out :=
  onCmd 0x0405 c s fun m s =>
    let q := s.chanAt (fld (m.w 3) 4 0)
    s.done c OK 0 [q.cfg, w32 q.peak, w32 q.rms, w32 q.envelope, w32 q.groupDelay,
      if q.outputs = 0 then 0xFFFFFFFF else q.outIndex - 1, w32 q.saturated]

end Sys2Proof.Machine
end

