-- ==== Sys2Proof/Machine/Pixels.lean ====
section
/-! DEFINITION. The vision engines' arithmetic on pixels: remap (R246 to R250), pyramid (R255 to R259), corners (R291 to R296), descriptors
and patches (R297 to R301). -/

namespace Sys2Proof.Machine

/-! ### Levels -/

/-- A level of a frame: its rows by line. -/
abbrev Level := Tab PixRow

def Level.px (l : Level) (x y : Nat) : Nat := (Tab.getD l y {}).px.getD x 0
def Level.hole (l : Level) (x y : Nat) : Bool := (Tab.getD l y {}).holes.getD x false

/-- Width or height of level `n` (R255). -/
def levelSize (w : Nat) : Nat → Nat
  | 0 => w
  | n + 1 => ceilDiv (levelSize w n) 2

/-- An index beyond an edge is reflected without repeating the edge pixel (R256). -/
def reflect (n : Nat) (i : Int) : Nat :=
  let i := if i < 0 then -i else i
  let k := i.toNat
  if k < n then k else (2 * (Int.ofNat n - 1) - i).toNat

/-! ### Remap (R246 to R250) -/

def Grid.nodesX (g : Grid) : Nat := g.outW / 16 + 1
def Grid.nodesY (g : Grid) : Nat := ceilDiv g.outH 16 + 1

/-- Node (i, j): SRC_X, SRC_Y and whether it is marked no source. The nodes of a grid that the module made itself are open
(assumption 16). -/
def Grid.node (g : Grid) (i j : Nat) : Int × Int × Bool :=
  let k := j * g.nodesX + i
  match g.nodes[k]? with
  | some p => (p.1, p.2, g.noSource.contains k)
  | none =>
    let r (c : Nat) := sext 32 (Config.openVal 39 ((g.version.toNat * 2 ^ 32 + k) * 2 + c))
    (r 0, r 1, decide (r 0 = -2147483648))

/-- The source position of an output pixel in 1/64 pixel, and whether a node of its cell has no source (R246, R247). -/
def Grid.source (g : Grid) (x y : Nat) : Int × Int × Bool :=
  let i := x / 16
  let j := y / 16
  let a : Int := Int.ofNat (x % 16)
  let b : Int := Int.ofNat (y % 16)
  let n00 := g.node i j
  let n10 := g.node (i + 1) j
  let n01 := g.node i (j + 1)
  let n11 := g.node (i + 1) (j + 1)
  let mix (f : Int × Int × Bool → Int) : Int :=
    convergent ((16 - a) * (16 - b) * f n00 + a * (16 - b) * f n10 + (16 - a) * b * f n01 + a * b * f n11) 18
  (mix (·.1), mix (·.2.1), n00.2.2 || n10.2.2 || n01.2.2 || n11.2.2)

/-- Whether an output pixel is a hole (R247). -/
def Grid.isHole (g : Grid) (p : Int × Int × Bool) : Bool :=
  p.2.2 || decide (p.1 < 0 ∨ p.2.1 < 0 ∨ (Int.ofNat g.srcW - 1) * 64 < p.1 ∨ (Int.ofNat g.srcH - 1) * 64 < p.2.1)

/-- The weighted sum of R248 at a position in 1/64 pixel of an image of `w` by `h` pixels. -/
def bilinear (px : Nat → Nat → Nat) (w h : Nat) (u v : Int) : Nat :=
  let xs := (u / 64).toNat
  let ys := (v / 64).toNat
  let fx := (u % 64).toNat
  let fy := (v % 64).toNat
  let x1 := min (xs + 1) (w - 1)
  let y1 := min (ys + 1) (h - 1)
  (64 - fx) * (64 - fy) * px xs ys + fx * (64 - fy) * px x1 ys + (64 - fx) * fy * px xs y1 + fx * fy * px x1 y1

/-- An output pixel; none is a hole (R248). -/
def Grid.pixel (g : Grid) (px : Nat → Nat → Nat) (x y : Nat) : Option Nat :=
  let p := g.source x y
  if g.isHole p then none
  else some (min (convergent (Int.ofNat (bilinear px g.srcW g.srcH p.1 p.2.1)) (12 + g.inShift)).toNat (if g.u16 then 65535 else 255))

/-- Output lines of a cell row: 16, fewer in the last row of a grid. -/
def Grid.rowLines (g : Grid) (row : Nat) : Nat := min 16 (g.outH - 16 * row)

/-- The last source line that a cell row reads (R243). -/
def Grid.lastLine (g : Grid) (row : Nat) : Nat :=
  maxD 0 ((List.range (g.rowLines row)).flatMap fun b => (List.range g.outW).map fun x =>
    let p := g.source x (16 * row + b)
    if g.isHole p then 0 else min ((p.2.1 / 64).toNat + 1) (g.srcH - 1))

/-- The first source line that a cell row reads (R245). -/
def Grid.firstLine (g : Grid) (row : Nat) : Nat :=
  minD 0 ((List.range (g.rowLines row)).flatMap fun b => (List.range g.outW).filterMap fun x =>
    let p := g.source x (16 * row + b)
    if g.isHole p then none else some (p.2.1 / 64).toNat)

/-- An output line; `en` clear is the identity grid of R250. -/
def remapLine (g : Grid) (en : Bool) (px : Nat → Nat → Nat) (y : Nat) : PixRow :=
  if en then
    let l := (List.range g.outW).map fun x => g.pixel px x y
    { px := l.map fun p => p.getD 0, holes := l.map fun p => p.isNone }
  else { px := (List.range g.outW).map fun x => px x y / 2 ^ g.inShift, holes := [] }

/-! ### Pyramid (R256, R257) -/

def kernel5 : List Nat := [1, 4, 6, 4, 1]

/-- A pixel of the next level of an image of `w` by `h` pixels. -/
def pyramidPixel (l : Level) (w h x y : Nat) : Nat :=
  let c := l.px (2 * x) (2 * y)
  let s := total ((List.range 5).flatMap fun j => (List.range 5).map fun i =>
    let u := reflect w (Int.ofNat (2 * x + i) - 2)
    let v := reflect h (Int.ofNat (2 * y + j) - 2)
    kernel5.getD i 0 * kernel5.getD j 0 * (if l.hole u v then c else l.px u v))
  (convergent (Int.ofNat s) 8).toNat

def pyramidHole (l : Level) (w h x y : Nat) : Bool :=
  [(0, 0), (1, 0), (0, 1), (1, 1)].any fun d => l.hole (reflect w (Int.ofNat (2 * x + d.1))) (reflect h (Int.ofNat (2 * y + d.2)))

def pyramidLine (l : Level) (w h y : Nat) : PixRow :=
  let n := ceilDiv w 2
  { px := (List.range n).map fun x => pyramidPixel l w h x y, holes := (List.range n).map fun x => pyramidHole l w h x y }

/-! ### Corners (R291 to R296) -/

/-- The circle of radius 3, in order around. -/
def circle16 : List (Int × Int) :=
  [(0, -3), (1, -3), (2, -2), (3, -1), (3, 0), (3, 1), (2, 2), (1, 3), (0, 3), (-1, 3), (-2, 2), (-3, 1), (-3, 0), (-3, -1), (-2, -2), (-1, -3)]

/-- Whether `n` contiguous places of a ring hold. -/
def arcOf (n : Nat) (l : List Bool) : Bool :=
  (List.range l.length).any fun i => (List.range n).all fun k => l.getD ((i + k) % l.length) false

/-- The score of a pixel, 0 unless it is a candidate (R291, R292). -/
def cornerScore (l : Level) (w h : Nat) (f : FeatCfg) (x y : Nat) : Nat :=
  if x < f.border ∨ y < f.border ∨ w ≤ x + f.border ∨ h ≤ y + f.border ∨ l.hole x y then 0
  else
    let ring := circle16.map fun d => ((Int.ofNat x + d.1).toNat, (Int.ofNat y + d.2).toNat)
    if ring.any fun p => l.hole p.1 p.2 then 0
    else
      let c := l.px x y
      let v := ring.map fun p => l.px p.1 p.2
      let above := v.map fun k => decide (c + f.thresh < k)
      let below := v.map fun k => decide (k + f.thresh < c)
      if arcOf f.arc above then min 65535 (total (v.map fun k => k - c - f.thresh))
      else if arcOf f.arc below then min 65535 (total (v.map fun k => c - k - f.thresh))
      else 0

/-- Whether a candidate survives suppression (R293). -/
def cornerKept (sc : Int → Int → Nat) (x y : Nat) : Bool :=
  let s := sc x y
  let x : Int := x
  let y : Int := y
  decide (0 < s ∧ sc (x - 1) (y - 1) < s ∧ sc x (y - 1) < s ∧ sc (x + 1) (y - 1) < s ∧ sc (x - 1) y < s ∧ sc (x + 1) y ≤ s
    ∧ sc (x - 1) (y + 1) ≤ s ∧ sc x (y + 1) ≤ s ∧ sc (x + 1) (y + 1) ≤ s)

/-- Cell edge in pixels (Table 7-2). -/
def FeatCfg.cellEdge (f : FeatCfg) : Nat := 32 * 2 ^ f.cell
def cellsX (f : FeatCfg) (w : Nat) : Nat := ceilDiv w f.cellEdge
def cellRows (f : FeatCfg) (h : Nat) : Nat := ceilDiv h f.cellEdge

/-- Higher score first, then raster order (R294). -/
def strongerCorner (a b : Corner) : Bool :=
  decide (b.score < a.score ∨ (a.score = b.score ∧ (a.y < b.y ∨ (a.y = b.y ∧ a.x < b.x))))

/-- The corners kept in a cell row under a quota (R294, R296). -/
def cornerRow (l : Level) (w h : Nat) (f : FeatCfg) (quota row : Nat) : List Corner :=
  let e := f.cellEdge
  let n := cellsX f w
  let kc := ceilDiv quota (n * cellRows f h)
  let sc (x y : Int) : Nat := if x < 0 ∨ y < 0 then 0 else cornerScore l w h f x.toNat y.toNat
  (List.range n).flatMap fun c =>
    let here := (List.range e).flatMap fun b => (List.range e).filterMap fun a =>
      let x := c * e + a
      let y := row * e + b
      if x < w ∧ y < h ∧ cornerKept sc x y then some { score := sc x y, cell := row * n + c, y := y, x := x : Corner } else none
    (sortBy strongerCorner here).take kc

/-- The corner list of a frame: the lowest-scoring corners beyond the quota are dropped (R295). -/
def cornerList (quota : Nat) (rows : Tab (List Corner)) : List Corner :=
  let all := rows.flatMap (·.2)
  let keep := (sortBy strongerCorner all).take quota
  all.filter keep.contains

/-! ### Orientation and descriptors (R297 to R299) -/

/-- cos(k * 11.25°) scaled by 2^64, for k from 0 to 8. -/
def cosQuarter : List Int :=
  [18446744073709551616, 18092295058859852118, 17042569291174129989, 15337907143211554842, 13043817825332782212, 10248461903483781989,
   7059263338087549767, 3598781241489102189, 0]

/-- Cosine and sine of bin `k`, scaled by 2^64. -/
def cosBin (k : Nat) : Int :=
  let k := k % 32
  if k ≤ 8 then cosQuarter.getD k 0 else if k ≤ 16 then -(cosQuarter.getD (16 - k) 0)
  else if k ≤ 24 then -(cosQuarter.getD (k - 16) 0) else cosQuarter.getD (32 - k) 0
def sinBin (k : Nat) : Int := cosBin (k + 24)

/-- The orientation bin of a corner: the bin whose direction is nearest to (m10, m01) (R297). -/
def orientBin (l : Level) (w h x y : Nat) : Nat :=
  let pts := (List.range 31).flatMap fun (j : Nat) => (List.range 31).filterMap fun (i : Nat) =>
    let dx : Int := Int.ofNat i - 15
    let dy : Int := Int.ofNat j - 15
    if dx * dx + dy * dy ≤ 225 then some (dx, dy, Int.ofNat (l.px (reflect w (Int.ofNat x + dx)) (reflect h (Int.ofNat y + dy)))) else none
  let m10 := pts.foldl (fun s p => s + p.1 * p.2.2) 0
  let m01 := pts.foldl (fun s p => s + p.2.1 * p.2.2) 0
  ((List.range 32).foldl (fun (best : Nat × Int) k =>
    let d := m10 * cosBin k + m01 * sinBin k
    if best.2 < d then (k, d) else best) (0, m10 * cosBin 0 + m01 * sinBin 0)).1

/-- A number scaled by 2^64 rounded to the nearest integer, ties away from zero (R299). -/
def roundAway (x : Int) : Int := if 0 ≤ x then (x + 2 ^ 63) / 2 ^ 64 else -((-x + 2 ^ 63) / 2 ^ 64)

/-- A point of the pattern: the context's, or the firmware's, whose offsets the spec does not give (assumption 16). -/
def patternPoint (pat : List Int) (k : Nat) : Int × Int :=
  if pat = [] then
    let r (c : Nat) : Int := Int.ofNat (Config.openVal 40 (2 * k + c) % 27) - 13
    if r 0 * r 0 + r 1 * r 1 ≤ 169 then (r 0, r 1) else (0, 0)
  else (pat.getD (2 * k) 0, pat.getD (2 * k + 1) 0)

def rotated (p : Int × Int) (bin : Nat) : Int × Int :=
  (roundAway (p.1 * cosBin bin - p.2 * sinBin bin), roundAway (p.1 * sinBin bin + p.2 * cosBin bin))

/-- The 5 × 5 box about a point: the sum with holes as 0, and whether it touches a hole (R298). -/
def boxSum (l : Level) (w h : Nat) (x y : Int) : Nat × Bool :=
  let pts := (List.range 5).flatMap fun (j : Nat) => (List.range 5).map fun (i : Nat) =>
    (reflect w (x + Int.ofNat i - 2), reflect h (y + Int.ofNat j - 2))
  (total (pts.map fun p => if l.hole p.1 p.2 then 0 else l.px p.1 p.2), pts.any fun p => l.hole p.1 p.2)

/-- The 256 bits of a descriptor, and HOLE (R298). -/
def describe (l : Level) (w h : Nat) (pat : List Int) (bin x y : Nat) : List Byte × Bool :=
  let pairs := (List.range 256).map fun k =>
    let at' (i : Nat) := let o := rotated (patternPoint pat i) bin; boxSum l w h (Int.ofNat x + o.1) (Int.ofNat y + o.2)
    let a := at' (2 * k)
    let b := at' (2 * k + 1)
    (decide (a.1 < b.1), a.2 || b.2)
  ((List.range 32).map fun i => BitVec.ofNat 8 (total ((List.range 8).map fun b => if (pairs.getD (8 * i + b) (false, false)).1 then 2 ^ b else 0)),
   pairs.any (·.2))

/-- A quotient rounded to nearest, one half to even. -/
def divEven (a : Int) (n : Nat) : Int :=
  let q := a / Int.ofNat n
  let r := 2 * (a % Int.ofNat n)
  if r < Int.ofNat n ∨ (r = Int.ofNat n ∧ q % 2 = 0) then q else q + 1

/-- Patch edge in pixels. -/
def FeatCfg.patchEdge (f : FeatCfg) : Nat := 16 * (f.patchSize + 1)

/-- The sample positions of a patch in 1/64 pixel, row-major (R300). The sampling grid is centred so that the offsets run from minus half the
edge, and a rotated offset is taken to 1/64 pixel (assumption 6). -/
def patchPoints (f : FeatCfg) (bin : Nat) (u v : Int) : List (Int × Int) :=
  let e := f.patchEdge
  (List.range e).flatMap fun (j : Nat) => (List.range e).map fun (i : Nat) =>
    let ox : Int := Int.ofNat i - Int.ofNat (e / 2)
    let oy : Int := Int.ofNat j - Int.ofNat (e / 2)
    if bit f.patchFlags 0 then
      (u + roundAway (64 * (ox * cosBin bin - oy * sinBin bin)), v + roundAway (64 * (ox * sinBin bin + oy * cosBin bin)))
    else (u / 64 * 64 + 64 * ox, v / 64 * 64 + 64 * oy)

/-- The pixels along one axis of `n` pixels that a sample is interpolated from, with their weights in 1/64: indices beyond an edge are reflected (R248,
R256, R300). -/
def tapsAt (n : Nat) (u : Int) : List (Nat × Nat) :=
  let f := (u % 64).toNat
  if f = 0 then [(reflect n (u / 64), 64)] else [(reflect n (u / 64), 64 - f), (reflect n (u / 64 + 1), f)]

/-- The last line of a level of `h` lines that a patch reads. -/
def patchLast (f : FeatCfg) (h bin : Nat) (u v : Int) : Nat :=
  maxD 0 ((patchPoints f bin u v).flatMap fun p => (tapsAt h p.2).map (·.1))

/-- A sample of a patch, and whether it is a hole sample: one of the pixels that it is interpolated from is a hole (R300; DEDUCED, entry 6). -/
def patchSample (l : Level) (w h : Nat) (p : Int × Int) : Nat × Bool :=
  let taps := (tapsAt w p.1).flatMap fun a => (tapsAt h p.2).map fun b => (a, b)
  if taps.any fun t => l.hole t.1.1 t.2.1 then (0, true)
  else ((convergent (Int.ofNat (total (taps.map fun t => t.1.2 * t.2.2 * l.px t.1.1 t.2.1))) 12).toNat, false)

/-- The patch of a corner at the level of the learned descriptors (R300, R301). -/
def patchOf (l : Level) (w h : Nat) (u16 : Bool) (f : FeatCfg) (bin : Nat) (u v : Int) : List Int × Bool :=
  let vals := (patchPoints f bin u v).map (patchSample l w h)
  let mean := Int.ofNat (total (vals.map (·.1)))
  let n := f.patchEdge * f.patchEdge
  let samples := vals.map fun p =>
    if p.2 then 0
    else if bit f.patchFlags 1 then clampInt (-128) 127 (divEven (Int.ofNat p.1 * Int.ofNat n - mean) n)
    else Int.ofNat (if u16 then p.1 / 256 else p.1)
  (samples, vals.any (·.2))

end Sys2Proof.Machine
end

