-- ==== Sys2Proof/Machine/Rig.lean ====
section
/-! DEFINITION. Sensor entries and records of the calibration store (R327 to R331, R836 to R842), and the remap grids that the module makes
itself (R839, R254). -/

namespace Sys2Proof.Machine

/-! ### Keys and layouts -/

/-- Whether RIG_WRITE knows a port and INDEX (Table 8-2): a camera's virtual channel, a CAN signal entry, zero otherwise. -/
def rigKey (port index : Nat) : Bool :=
  isPort port && (if isCamera port then decide (index < 4) else if isCan port then decide (index < 32) else index == 0)

/-- IMU0, C0 and C1 are privileged (R328). -/
def privilegedPort (port : Nat) : Bool := port == 32 || port == 0 || port == 1

/-- A key of the calibration store (Table 20-4). -/
def storeKey (port index : Nat) : Bool :=
  if port = 32 then index == 0 || index == 0x80 || index == 0x81
  else if port = 0 ∨ port = 1 then index == 0 || index == 0x80
  else rigKey port index

/-- A sensor entry in bytes (Table 8-2). -/
def SensorEntry.ofBytes (b : List Byte) : SensorEntry :=
  { port := BitVec.ofNat 8 (leAt b 0 1), index := BitVec.ofNat 8 (leAt b 1 1), flags := BitVec.ofNat 8 (leAt b 2 1 % 4),
    origin := BitVec.ofNat 8 (leAt b 3 1), position := bytesWords 3 (b.drop 4), rotation := bytesWords 4 (b.drop 16),
    params := bytesWords 4 (b.drop 32), timeOffset := wordAt b 48, lineTime := wordAt b 52, nominal := wordAt b 56 }

/-- The entry's bytes; the module writes a quaternion with w not below 0 (R34). -/
def SensorEntry.bytes (e : SensorEntry) : List Byte :=
  [e.port, e.index, e.flags, e.origin] ++ wordsBytes e.position ++ wordsBytes (canonQuat e.rotation) ++ wordsBytes e.params
    ++ wBytes e.timeOffset ++ wBytes e.lineTime ++ wBytes e.nominal ++ zeros 4

/-- The record of a key in the calibration store. -/
def State.storeRec (s : State) (key : Nat) : Option CalibRec := Tab.get? s.age.store key

/-- The entry with which a sensor starts a session of a context (R328, R329): the RIG_WRITE entry, else the store's record. -/
def State.rigEntry (s : State) (n port index : Nat) : Option SensorEntry :=
  let key := sensorKey port index
  let stored := if rigKey port index then (s.storeRec key).map fun r => SensorEntry.ofBytes r.bytes else none
  if privilegedPort port then stored
  else match Tab.get? (s.ctxAt n).rig key with
    | some e => some e
    | none => stored

/-- The entry in use (Table 16-10, R365): the session's for a bound sensor, else the one with which a session would start. -/
def State.entryInUse (s : State) (n port index : Nat) : Option SensorEntry :=
  match (if (s.sessionAt n).isSome then Tab.get? (s.ctxAt n).inUse (sensorKey port index) else none) with
  | some e => some e
  | none => s.rigEntry n port index

/-! ### Checks of a committed record (R842) -/

/-- Whether words are finite binary32 values. -/
def allFinite (l : List Word) : Bool := l.all fun w => isFinite32 w.toNat

/-- A quaternion normalised, with w not below 0, as the geometry unit's normalise gives it (R842, assumption 13). -/
def normQuat (q : List Word) : List Word := (gLane 4 q []).map fun r => w32 r.bits

/-- Whether a quaternion's norm lies within 1 ± 2^-10 (R842). -/
def quatOk (q : List Word) : Bool := allFinite q && normOk (normSq (q.map Dy.ofWord))

/-- The determinant of a 3 x 3 matrix of binary32 values exceeds 0.5 (R842). -/
def matrixOk (m : List Word) : Bool :=
  let d (i : Nat) := Dy.ofWord (m.getD i 0)
  let minor (a b c e : Nat) := ((d a).mul (d b)).sub ((d c).mul (d e))
  let det := Dy.sum [(d 0).mul (minor 4 8 5 7), ((d 1).mul (minor 3 8 5 6)).neg, (d 2).mul (minor 3 7 4 6)]
  allFinite m && !(det.le ⟨1, -1⟩)

/-- Replace bytes of a record. -/
def overlay (b : List Byte) (off : Nat) (x : List Byte) : List Byte := b.take off ++ x ++ b.drop (off + x.length)

/-- The record that CALIB_COMMIT writes (R837, R842), or the offset of the field that fails. -/
def commitRecord (s : State) (port index : Nat) (b : List Byte) : Nat ⊕ List Byte :=
  let info := match s.time.state with | .free => 0 | .acquiring => 1 | .locked => 2 | .holdover => 3
  let head (flags : Nat) (b : List Byte) := overlay (overlay b 0 (leBytes 1 port ++ leBytes 1 index ++ leBytes 1 flags ++ leBytes 1 2)) 60 (leBytes 4 info)
  if index < 0x80 then
    let q := bytesWords 4 (b.drop 16)
    if quatOk q then .inr (head (leAt b 2 1 % 4) (overlay b 16 (wordsBytes (normQuat q)))) else .inl 16
  else if port = 32 then
    if matrixOk (bytesWords 9 (b.drop 4)) then .inr (head 0 (overlay b 56 (zeros 4))) else .inl 4
  else
    let q := bytesWords 4 (b.drop 40)
    if quatOk q then .inr (head 0 (overlay b 40 (wordsBytes (normQuat q)))) else .inl 40

/-! ### Grids -/

/-- An exact quotient of two dyadic numbers in 1/65536, rounded to nearest with ties to even; none for a denominator of 0 or below. -/
def Dy.q16 (num den : Dy) : Option Int :=
  if den.n ≤ 0 then none
  else
    let e := min num.e den.e
    some (roundDiv (num.scaled e * 65536) (den.scaled e).toNat)

/-- The source of output pixel (u, v) of an anchor camera (R839): the rectified ray by the PARAMS of the INDEX 0 record, rotated by the inverse
of Q_RECT_RAW, through the raw radial-tangential model (Table 20-6). The ray is kept homogeneous, so that all is exact until the rounding. -/
def anchorSource (rect raw : List Byte) (u v : Nat) : Option (Int × Int) :=
  let p (i : Nat) := Dy.ofWord (wordAt rect (32 + 4 * i))
  let k (i : Nat) := Dy.ofWord (wordAt raw (4 + 4 * i))
  let m := quatMat ((bytesWords 4 (raw.drop 40)).map Dy.ofWord)
  let ray := [((Dy.mk (Int.ofNat u) 0).sub (p 2)).mul (p 1), ((Dy.mk (Int.ofNat v) 0).sub (p 3)).mul (p 0), (p 0).mul (p 1)]
  let row (i : Nat) := Dy.sum ((List.range 3).map fun j => (m.getD (3 * j + i) {}).mul (ray.getD j {}))
  let x := row 0
  let y := row 1
  let z := row 2
  let z2 := z.sq
  let z4 := z2.sq
  let z5 := z4.mul z
  let r2 := x.sq.add y.sq
  let r4 := r2.sq
  let radial := Dy.sum [z4.mul z2, (k 4).mul (r2.mul z4), (k 5).mul (r4.mul z2), (k 6).mul (r4.mul r2)]
  let two (d : Dy) := d.add d
  let xy := x.mul y
  let dx := (two ((k 7).mul xy)).add ((k 8).mul (r2.add (two x.sq)))
  let dy := ((k 7).mul (r2.add (two y.sq))).add (two ((k 8).mul xy))
  let z7 := z5.mul z2
  let px (f c a d : Dy) := (f.mul ((a.mul radial).add (z5.mul d))).add (c.mul z7)
  if z.n ≤ 0 then none
  else match Dy.q16 (px (k 0) (k 2) x dx) z7, Dy.q16 (px (k 1) (k 3) y dy) z7 with
    | some a, some b => if -2147483648 < a ∧ a < 2147483648 ∧ -2147483648 < b ∧ b < 2147483648 then some (a, b) else none
    | _, _ => none

/-- A grid that the module makes for a stream: its nodes, its version and its output format are open (assumptions 6 and 16, places 39 and 46). -/
def madeGrid (x : StreamS) (version : Nat) : Grid :=
  { srcW := x.width, srcH := x.height, outW := x.width, outH := x.height, version := w32 version,
    u16 := Config.openVal 46 (2 * version) % 2 == 1, inShift := Config.openVal 46 (2 * version + 1) % 9 }

/-- The grid of an anchor camera from its records (R839); a node that the model cannot place is open. -/
def anchorGrid (x : StreamS) (version : Nat) (rect raw : List Byte) : Grid :=
  let g := madeGrid x version
  let node (i : Nat) : Int × Int :=
    match anchorSource rect raw (16 * (i % g.nodesX)) (16 * (i / g.nodesX)) with
    | some p => p
    | none => (sext 32 (Config.openVal 39 (2 * i)), sext 32 (Config.openVal 39 (2 * i + 1)))
  { g with nodes := (List.range (g.nodesX * g.nodesY)).map node }

/-- Whether a stream is that of an anchor camera whose records are complete. -/
def isAnchor (x : StreamS) : Bool := decide (x.port < 2) && x.vc == 0

/-- The grid that the module makes for a stream now. -/
def State.gridFor (s : State) (x : StreamS) (version : Nat) : Grid :=
  match s.storeRec (sensorKey x.port 0), s.storeRec (sensorKey x.port 0x80) with
  | some r, some w => if isAnchor x then anchorGrid x version r.bytes w.bytes else madeGrid x version
  | _, _ => madeGrid x version

/-- Make a stream's grid anew in its shadow slot (R251, R254, R839); an output format already in use is kept. -/
def regenerate (st : Nat) (s : State) : State :=
  let f := s.takeFree
  let x := f.2.streamAt st
  let old := match x.shadow with | some e => e.1 | none => x.grid.getD {}
  let g := f.2.gridFor x (Config.openVal 46 (1000000 + f.1))
  f.2.updStream st fun x => { x with shadow := some ({ g with u16 := old.u16, inShift := old.inShift }, s.devNs) }

/-- The streams of a context that a camera port and virtual channel feed. -/
def camStreams (s : State) (n port vc : Nat) : List Nat :=
  (s.streams.filter fun e => e.2.ctx == n && e.2.port == port && e.2.vc == vc).map (·.1)

/-- The two streams of a stereo pair, other than the anchor pair, of which a camera is a member (R254, R331). -/
def refinedPair (s : State) (n port vc : Nat) : List Nat :=
  let mine := camStreams s n port vc
  match (s.ctxAt n).pairs.find? fun e => mine.contains e.2.left || mine.contains e.2.right with
  | some e => if isAnchor (s.streamAt e.2.left) && isAnchor (s.streamAt e.2.right) then [] else [e.2.left, e.2.right]
  | none => []

/-- A new entry of a bound sensor waits for its frame set (R331); a paired camera's grids are made anew. -/
def entryChanged (n port index : Nat) (e : SensorEntry) (s : State) : State :=
  let key := sensorKey port index
  if (s.sessionAt n).isSome && Tab.has (s.ctxAt n).inUse key then
    forEach (if isCamera port then refinedPair s n port index else []) regenerate
      (s.updCtx n fun c => { c with rigDue := c.rigDue ++ [(key, e, s.devNs)] })
  else s

end Sys2Proof.Machine
end

