-- ==== Sys2Proof/Machine/ObjAccess.lean ====
section
/-! DEFINITION. Reaching memory objects: identifiers, contents and windows (R597 to R608, R636). -/

namespace Sys2Proof.Machine

/-- Bytes of a granule. -/
def granuleBytes : Nat := 65536

/-- The key of an OBJ_ID in the object table: owner context and slot (Table 14-2). -/
def objKey (id : Word) : Nat := fld id 14 12 * 4096 + fld id 11 0

/-- The object that an OBJ_ID names, with its key. -/
def State.objOf (s : State) (id : Word) : Option (Nat × ObjS) :=
  match Tab.get? s.objs (objKey id) with
  | some o => if o.id = id then some (objKey id, o) else none
  | none => none

/-- DATA objects are writable; READ_ONLY, WEIGHTS and CODE are not (Table 14-2). -/
def ObjS.isData (o : ObjS) : Bool := o.kind == 0

/-- Whether a context owns the object or has been lent it (R605). -/
def ObjS.usable (o : ObjS) (n : Nat) : Bool := o.owner == n || bit o.share n

/-- A byte of an object; what nothing has written is open (assumption 10). -/
def ObjS.byte (o : ObjS) (a : Nat) : Byte :=
  match Tab.get? o.data a with
  | some b => b
  | none => BitVec.ofNat 8 (Config.openVal 9 (o.epoch * 2 ^ 33 + a))

/-- `n` bytes of an object from `a`. -/
def ObjS.bytes (o : ObjS) (a n : Nat) : List Byte := (List.range n).map fun i => o.byte (a + i)

/-- Write bytes into an object from `a`. -/
def putBytes (t : Tab Byte) (a : Nat) : List Byte → Tab Byte
  | [] => t
  | b :: l => putBytes (Tab.put t a b) (a + 1) l

/-- Write bytes into an object; a write that covers every byte of a poisoned granule clears its mark (R636). -/
def ObjS.write (o : ObjS) (a : Nat) (b : List Byte) : ObjS :=
  { o with data := putBytes o.data a b,
           poisoned := o.poisoned.filter fun g => !decide (a ≤ g * granuleBytes ∧ (g + 1) * granuleBytes ≤ a + b.length) }

/-- Granules that a range of bytes touches. -/
def granulesOf (a n : Nat) : List Nat :=
  if n = 0 then [] else (List.range ((a + n - 1) / granuleBytes + 1)).filter fun g => decide (a / granuleBytes ≤ g)

/-- Whether a granule has an intact copy in some tier (R631 to R633). -/
def ObjS.intact (o : ObjS) (g : Nat) : Bool :=
  if o.isData then !o.poisoned.contains g
  else !o.homeBad.contains g || o.copies.any fun c => c.2.have_.contains g && !c.2.bad.contains g

/-- Whether every granule of a range can be read intact. -/
def ObjS.readable (o : ObjS) (a n : Nat) : Bool := (granulesOf a n).all o.intact

/-- The object that a move of a context reaches through a window (R606, R607, R483): rows from `offset`, in units of 256 B. A move out
reaches only a DATA object (R600, R603). -/
def State.windowReach (s : State) (n window offset rows : Nat) (out : Bool) : Option Nat :=
  match Tab.get? (s.ctxAt n).windows window with
  | none => none
  | some id =>
    match s.objOf id with
    | none => none
    | some (k, o) =>
      if 256 * (offset + rows) ≤ o.granules * granuleBytes ∧ (out = false ∨ o.isData) then some k else none

/-- 64 words as 256 bytes of a row, and back. -/
def rowBytes (r : List Word) : List Byte := wordsBytes r
def bytesRow (b : List Byte) : List Word := bytesWords 64 b

end Sys2Proof.Machine
end

