-- ==== Sys2Proof/Machine/Repair.lean ====
section
/-! DEFINITION. Faults and repair (chapter 19): recoveries that draw on the Ballast (R746, R747), lane substitution, tile repair,
checkpoint rollback, patrol reads, HBM retirement and the steward cores. -/

namespace Sys2Proof.Machine

/-! ### Recoveries -/

/-- Names of recoveries: tile repairs, lane substitutions, resynchronisations, engine re-runs (R746). -/
def recTile (t : Nat) : Nat := 1000 + t
def recLane (t : Nat) : Nat := 2000 + t
def recPair (n : Nat) : Nat := 3000 + n
/-- The re-run of an engine unit (R318): kind, stream or pair, and the unit's number. -/
def recUnit (kind stream unit : Nat) : Nat := 4000 + (unit * 32 + stream) * 8 + kind

/-- A recovery begins to draw on the Ballast (R746). -/
def State.recoveryStart (s : State) (id : Nat) : State :=
  if s.power.recoveries.any fun r => r.1 == id then s
  else s.mapPower fun p => { p with recoveries := p.recoveries ++ [(id, s.time.ticks)] }

/-- A recovery ends: BALLAST_SPENT gives the duration of the draw in ms (R747). -/
def State.recoveryEnd (s : State) (id : Nat) : State :=
  match s.power.recoveries.find? fun r => r.1 == id with
  | some r =>
    (s.mapPower fun p => { p with recoveries := p.recoveries.filter fun x => x.1 != id }).raise 0x8B03
      (satU 16 (s.since r.2 / msTicks 1))
  | none => s

/-! ### Tiles, bands and pairs -/

/-- East half (T28 to T55). -/
def eastTile (t : Nat) : Bool := decide (28 ≤ t)

/-- Spare lanes of a tile not yet used (Table 11-2). -/
def TileS.sparesLeft (t : TileS) : Nat := 2 - t.retired.length

/-- The physical lane that carries logical lane `i` (R461). -/
def TileS.physicalLane (t : TileS) (i : Nat) : Nat := ((List.range 66).filter fun l => !t.retired.contains l).getD i 0

/-- Tiles chosen as replacements of running repairs. -/
def State.takenSpares (s : State) : List Nat := s.dep.repairs.filterMap fun r => r.2.replacement

/-- The tile that replaces `t` (R480, Table 19-2): a free spare of its half, else of the other half, else a free in-service tile. -/
def State.chooseReplacement (s : State) (t : Nat) : Option Nat :=
  let free (st : Nat) := (tilesIn s st).filter fun x => (s.tileAt x).band.isNone && !s.takenSpares.contains x
  match (free 1).find? fun x => eastTile x == eastTile t with
  | some x => some x
  | none => match (free 1).head? with
    | some x => some x
    | none => (free 0).head?

/-- The pair of a context's bands that holds band `b`. -/
def State.pairOf (s : State) (b : Nat) : Option (Nat × PairS) := s.pairs.find? fun p => decide (p.2.bandA = b ∨ p.2.bandB = b)

def PairS.other (p : PairS) (b : Nat) : Nat := if b = p.bandA then p.bandB else p.bandA

def State.updPair (s : State) (n : Nat) (f : PairS → PairS) : State :=
  if Tab.has s.pairs n then { s with pairs := Tab.upd s.pairs n {} f } else s

/-- A band of a pair waits for the carrier's state (R792, R802). -/
def State.needsCopy (s : State) (b : Nat) : State :=
  match s.pairOf b with
  | some (n, _) => s.updPair n fun p => { p with needCopy := p.needCopy.filter (· != b) ++ [b] }
  | none => s

/-- A band of a pair waits for no state any more. -/
def State.copyMade (s : State) (b : Nat) : State :=
  match s.pairOf b with
  | some (n, _) => s.updPair n fun p => { p with needCopy := p.needCopy.filter (· != b) }
  | none => s

/-- Give a pair a state and raise PAIR_STATE (Table 19-6). -/
def State.pairState (s : State) (n state cause : Nat) (carrier : Option Nat) : State :=
  (s.updPair n fun p => { p with state := state, carrier := carrier }).raiseCtx n 0x8C03
    (n * 4096 + carrier.getD 15 * 256 + cause * 16 + state)

/-- A band of a pair enters a recovery: its partner carries, unless it is itself in a recovery (R804, R806). -/
def State.partnerCarries (s : State) (b : Nat) : State :=
  match s.pairOf b with
  | some (n, p) =>
    if p.state = 3 ∨ (s.bandAt (p.other b)).stopped ∨ (p.state ≠ 0 ∧ p.carrier = some (p.other b)) then s
    else s.pairState n 1 3 (some (p.other b))
  | none => s

/-- Whether a recovery of the band is still under way: repair, lane substitution, rollback, or a suspect that waits for its copy. -/
def State.inRecovery (s : State) (b : Nat) : Bool :=
  s.dep.repairs.any (fun r => r.2.band == b) || s.dep.rollbacks.contains b
    || s.dep.subst.any (fun r => (s.tileAt r.1).band == some b)
    || (match s.pairOf b with
        | some (_, p) => p.needCopy.contains b
        | none => false)

/-- The band goes on once no recovery of it is left. -/
def State.resumeBand (s : State) (b : Nat) : State :=
  if s.inRecovery b then s else s.updBand b fun x => { x with stopped := false, fails := [] }

/-- Choose the replacement of a tile in repair; none left: SPARES_EXHAUSTED with [1] set (R796). -/
def State.assignReplacement (s : State) (t : Nat) : State :=
  match s.chooseReplacement t with
  | some r => s.mapDep fun d => { d with repairs := Tab.upd d.repairs t {} fun x => { x with replacement := some r } }
  | none => s.raise 0x8C09 (t * 1024 + 2)

/-- Hand the tile of band `b` at a logical index to tile repair (Table 19-2 steps 1 to 3, R989). A fault in the replacement of a
running repair retires it and restarts the repair with the next one (R795). -/
def State.tileRepair (s : State) (b logical cause : Nat) : State :=
  let t := (s.bandAt b).tiles.getD logical 0
  match Tab.get? s.dep.repairs t with
  | some r =>
    match r.replacement with
    | some x =>
      let s := (s.updTile x fun y => { y with state := 2 }).ledger { kind := 3, subject := x }
      ((s.mapDep fun d => { d with repairs := Tab.upd d.repairs t {} fun y => { y with replacement := none } }).needsCopy b).assignReplacement t
    | none => s
  | none =>
    let s := (s.updTile t fun x => { x with state := 3 }).ledger { kind := 3, subject := t }
    let s := s.mapDep fun d => { d with repairs := Tab.put d.repairs t { band := b, cause := cause, start := s.time.ticks, logical := logical },
                                        subst := Tab.del d.subst t }
    let s := ((s.updBand b fun x => { x with stopped := true }).recoveryStart (recTile t)).needsCopy b
    let s := s.assignReplacement t
    let r := ((Tab.getD s.dep.repairs t {}).replacement).getD (Config.openVal 12 t % 64)
    (s.raise 0x8C01 (t * 1024 + r * 16 + cause)).partnerCarries b

/-- A persistent failure of a unit (R590, R785, R787, R788): logical lane 0 to 63, or 64 for the geometry unit. -/
def State.persistentFailure (s : State) (b logical lane : Nat) : State :=
  let t := (s.bandAt b).tiles.getD logical 0
  if Tab.has s.dep.subst t then s
  else if lane = 64 then s.tileRepair b logical 2
  else if (s.tileAt t).sparesLeft = 0 then (s.raise 0x8C09 (t * 1024 + 1)).tileRepair b logical 1
  else
    let s := s.mapDep fun d => { d with subst := Tab.put d.subst t ((s.tileAt t).physicalLane lane, s.time.ticks) }
    ((s.updBand b fun x => { x with stopped := true }).recoveryStart (recLane t)).partnerCarries b

/-- LANE_SUBSTITUTION_DONE (R785, R786): the lane is retired, its logical lanes move up, and the band completes the failed step. -/
def execLaneSubstitutionDone (tile : Nat) (s : State) : Out :=
  match Tab.get? s.dep.subst tile with
  | none => .next s
  | some (lane, _) =>
    let s := s.updTile tile fun t => { t with retired := t.retired ++ [lane] }
    let s := s.mapDep fun d => { d with subst := Tab.del d.subst tile, retiredLanes := d.retiredLanes + 1 }
    let s := (s.raise 0x8C00 (tile * 1024 + lane)).ledger { kind := 2, subject := tile, subject2 := lane }
    let s := s.recoveryEnd (recLane tile)
    match (s.tileAt tile).band with
    | some b => .next (s.resumeBand b)
    | none => .next s

/-! ### Tile repair and rollback -/

/-- A tile whose contents are undefined (R482, R526). -/
def TileS.scratch (t : TileS) (epoch : Nat) : TileS :=
  { t with epoch := epoch, v := [], s := [], p := [], acc := [], la := [], weights := [], rows := [], undef := true, restored := false,
           flags := [], arith := 0 }

/-- The address at which a restore of the band resumes: after its newest valid checkpoint, else after the other, else its start (R791). -/
def BandS.restorePc (b : BandS) : Nat :=
  if b.ckptValid.getD b.ckptNewest false then b.ckptSeg.getD b.ckptNewest 0
  else if b.ckptValid.getD (1 - b.ckptNewest) false then b.ckptSeg.getD (1 - b.ckptNewest) 0
  else 0

/-- Restore a band from its checkpoint (R791, R794). The spec does not say which of a tile's state a checkpoint holds: all of it is
left open (assumption 9). -/
def State.restoreCheckpoint (s : State) (b : Nat) : State :=
  let e := s.epoch + 1
  let s := { s with epoch := e }
  let pc := (s.bandAt b).restorePc
  let s := forEach (s.bandAt b).tiles (fun t s => s.updTile t fun x =>
    { x.scratch e with restored := true, arith := BitVec.ofNat 5 (Config.openVal 13 (e * 64 + t)) }) s
  s.updBand b fun x => { x with pc := pc, segment := pc, stretched := 0, overrunRaised := false, delay := none, loops := [],
                                inflight := [], moves := [], stall := false, ckptTiles := [] }

/-- Whether a band is one of a partnered pair. -/
def BandS.isPair (b : BandS) : Bool := b.role == 2 || b.role == 3

/-- Whether a repaired band may resume: the band of a session's pair waits for its copy (R802), unless its partner waits for one too, so that
no band carries (R808, assumption 36). -/
def State.mayFinish (s : State) (b : Nat) : Bool :=
  match s.pairOf b with
  | some (_, p) => (s.bandAt b).program || !p.needCopy.contains b || p.needCopy.contains (p.other b)
  | none => true

/-- The members of a firmware rendezvous meet there and go on at once (R50, R495). Which of 56 to 59 serves a checkpoint or a repair, and which of 60 to 63 a
swap, the spec leaves open: the band's number modulo 4 picks it (DESIGN CHOICE, entry 9). -/
def State.meetFirmware (s : State) (rv : Nat) (members : List Nat) : State :=
  let s := { s with rvs := Tab.upd s.rvs rv {} fun r =>
    { members := members, counts := members.foldl (fun c m => Tab.upd c m 0 (· + 1)) r.counts } }
  forEach members (fun m s => s.updBand m fun b => { b with lastRv := rv }) s

/-- TILE_REPAIR_DONE (Table 19-2 steps 4 to 7): the replacement takes the failed tile's band and logical index. -/
def execTileRepairDone (tile : Nat) (s : State) : Out :=
  match Tab.get? s.dep.repairs tile with
  | none => .next s
  | some r =>
    match r.replacement with
    | none => .next s
    | some x =>
      let b := s.bandAt r.band
      onTrigger (s.mayFinish r.band) s fun s =>
        let old := s.tileAt tile
        let s := { s with epoch := s.epoch + 1 }
        let s := s.updTile x fun t => { (t.scratch s.epoch) with state := 0, band := some r.band, logical := r.logical, slice := old.slice }
        let s := s.updTile tile fun t => { t with state := 2, band := none }
        let s := s.updBand r.band fun y => { y with tiles := setAt 0 y.tiles r.logical x }
        let s := s.mapDep fun d => { d with repairs := Tab.del d.repairs tile }
        let s := if b.isPair ∧ eastTile x ≠ decide (b.role = 3) then s.raiseCtx b.ctx 0x8904 (r.band * 4096 + x) else s
        let s := if b.isPair then s else s.restoreCheckpoint r.band
        let s := (s.raise 0x8C02 (x * 1024 + min 255 (s.since r.start / msTicks 1))).recoveryEnd (recTile tile)
        ((s.meetFirmware (56 + r.band % 4) [r.band]).copyMade r.band).resumeBand r.band

/-- CHECKPOINT_ROLLBACK (Table 19-3, R813). -/
def execCheckpointRollback (band : Nat) (s : State) : Out :=
  onTrigger (s.dep.rollbacks.contains band) s fun s =>
    let s := s.mapDep fun d => { d with rollbacks := d.rollbacks.filter (· != band) }
    ((s.meetFirmware (56 + band % 4) [band]).restoreCheckpoint band).resumeBand band

/-- STEP_TIMEOUT (R789): the tile at a logical index has not acknowledged its step for 50 µs. -/
def execStepTimeout (band tile : Nat) (s : State) : Out :=
  onTrigger (Tab.has s.bands band && decide (tile < (s.bandAt band).tiles.length) && !(s.bandAt band).halted) s fun s =>
    s.tileRepair band tile 3

/-- A band reads an uncorrectable row of tile store or of its commons (Table 19-3): a pair band is suspect, another band rolls back; a
row that fails its write test sends the tile to repair with cause 4. -/
def State.badRow (s : State) (b logical : Nat) (testFails : Bool) : State :=
  let t := (s.bandAt b).tiles.getD logical 0
  let s := (s.mapDep fun d => { d with uncorrectable := d.uncorrectable + 1 }).raise 0x8C05 t
  if testFails then s.tileRepair b logical 4
  else if (s.bandAt b).isPair then
    match s.pairOf b with
    | some (n, p) =>
      let s := ((s.updBand b fun x => { x with stopped := true }).recoveryStart (recPair n)).needsCopy b
      if (s.bandAt (p.other b)).stopped then s else s.pairState n 1 1 (some (p.other b))
    | none => s
  else
    (s.mapDep fun d => { d with rollbacks := d.rollbacks.filter (· != b) ++ [b] }).updBand b fun x => { x with stopped := true }

/-! ### Memory (R781 to R784, R812 to R817) -/

/-- The fill of a stream that lacks a tile in a buffer, with its object, while it can go on (R625, R626, R633). -/
def State.fillOf (s : State) (ctx stream buffer tile : Nat) : Option (WStream × (Nat × Nat × List Nat) × ObjS) :=
  match Tab.get? (s.ctxAt ctx).streams stream with
  | none => none
  | some w =>
    match w.fills.find? fun f => f.1 == buffer && f.2.2.contains tile, s.objOf w.obj with
    | some f, some (_, o) =>
      let layer := w.layers.getD f.2.1 (0, 0)
      if !o.unavailable && o.readable (256 * (layer.1 + tile * layer.2)) (256 * layer.2) then some (w, f, o) else none
    | _, _ => none

/-- Whether what a pending move was requested for is still to be done: a move of a band may have been dropped with its band or its step, a fill may have
been stopped, a copy may have been claimed again. -/
def State.jobLive (s : State) : MoveJob → Bool
  | .bandMove b q => (s.bandAt b).moves.any fun m => m.seq == q
  | .codePage b p => (s.bandAt b).loading.contains p
  | .streamFill n st buf t => (s.fillOf n st buf t).isSome
  | .copyFree k tier => match Tab.get? s.objs k with
    | some o => Tab.has o.copies tier && (Tab.getD o.copies tier {}).freeing
    | none => false
  | .objMove _ _ => true
  | .moveBack _ _ => true
  | .copyFill _ _ _ => true
  | .featOut _ _ => true
  | .featIn _ _ => true
  | .regionMove _ _ _ => true

/-- A Promenade job (R44): class 1 is served first. -/
def State.requestMove (s : State) (cls : Nat) (j : MoveJob) : State :=
  if s.jobs.any fun r => decide (r.job = j) && s.jobLive j then s
  else { s with jobs := (s.jobs.filter fun r => decide (r.job ≠ j)) ++ [{ class_ := cls, seq := s.jobSeq, job := j }], jobSeq := s.jobSeq + 1 }

/-- The pending move that is served next: lowest class, then first requested (R44). -/
def State.nextJob (s : State) : Option MoveReq :=
  (sortBy (fun a b => decide (a.class_ < b.class_ ∨ (a.class_ = b.class_ ∧ a.seq < b.seq))) (s.jobs.filter fun r => s.jobLive r.job)).head?

/-- Whether a move is the one that is served next, and the state once it has been served. -/
def State.serves (s : State) (j : MoveJob) : Bool := s.nextJob.any fun r => decide (r.job = j)
def State.served (s : State) (j : MoveJob) : State := { s with jobs := s.jobs.filter fun r => decide (r.job ≠ j) && s.jobLive r.job }

/-- 24 h in ticks. -/
def dayTicks : Nat := 24 * 3600 * 500000000

/-- Corrections of an HBM row that call for its retirement (R814): two distinct locations within 24 h, or four at one location. -/
def rowWorn (h : List (Nat × Nat × Nat × Nat × Nat)) (ch reg row now : Nat) : Bool :=
  let l := h.filter fun e => e.1 == ch && e.2.1 == reg && e.2.2.1 == row
  let recent := l.filter fun e => decide (now - e.2.2.2.2 ≤ dayTicks)
  decide (2 ≤ (recent.map fun e => e.2.2.2.1).eraseDups.length)
    || l.any fun e => decide (4 ≤ (l.filter fun x => x.2.2.2.1 == e.2.2.2.1).length)

/-- PATROL_READ (R781 to R783, R814). -/
def execPatrolRead (place : PatrolPlace) (result : ReadResult) (s : State) : Out :=
  onTrigger s.mainOn s fun s =>
    match result with
    | .intact => s
    | .corrected =>
      let s := s.mapDep fun d => { d with corrected := d.corrected + 1 }
      match place with
      | .hbm ch reg row loc =>
        let s := s.mapDep fun d => { d with rowHistory := d.rowHistory ++ [(ch, reg, row, loc, s.time.ticks)] }
        if rowWorn s.dep.rowHistory ch reg row s.time.ticks then s.requestMove 1 (.regionMove ch reg row) else s
      | _ => s
    | .uncorrectable =>
      let s := s.mapDep fun d => { d with uncorrectable := d.uncorrectable + 1 }
      match place with
      | .tileRow t _ => s.raise 0x8C05 t
      | .commonsRow b _ => s.raise 0x8C05 (0x4000 + b)
      | .hbm ch reg row _ => (s.raise 0x8C05 (0x8000 + ch)).requestMove 1 (.regionMove ch reg row)

/-- Take a region of the firmware reserve, or with none left an HBM granule that no context has reserved (R816, R817). -/
def State.takeRegion (s : State) : State :=
  if s.dep.reserve = 0 then s.mapDep fun d => { d with hbmTaken := d.hbmTaken + 1 }
  else
    let s := s.mapDep fun d => { d with reserve := d.reserve - 1 }
    if [512, 64, 0].contains s.dep.reserve then s.raise 0x8C07 s.dep.reserve else s

/-- HBM_ROW_RETIRED (R815): with a free repair resource the row is repaired and its region returns to the reserve. -/
def execHbmRowRetired (channel region row : Nat) (pprFree : Bool) (s : State) : Out :=
  onTrigger (s.dep.toRetire.contains (channel, region, row)) s fun s =>
    let s := s.mapDep fun d => { d with toRetire := d.toRetire.filter (· != (channel, region, row)) }
    let s := if pprFree then s.mapDep fun d => { d with reserve := min 4096 (d.reserve + 1) }
      else s.mapDep fun d => { d with hbmRetired := d.hbmRetired ++ [(channel, region)], retiredHbm := d.retiredHbm + 1 }
    let s := s.ledger { kind := 4, subject := channel, subject2 := (if pprFree then 0 else 32768) + region % 32768 }
    s.raise 0x8C06 (channel * 4096 + (if pprFree then 0 else 1))

/-! ### Stewards (R809 to R811) -/

def State.votingCount (s : State) : Nat := (s.dep.voting.filter id).length

/-- STEWARD_FAULT (R810): the core leaves the vote; from stage 3 to stage 6 of an update it is rolled back (R887). -/
def execStewardFault (core : Nat) (s : State) : Out :=
  onTrigger (s.mainOn && s.dep.voting.getD core false) s fun s =>
    let s := s.mapDep fun d => { d with voting := setAt false d.voting core false }
    let s := if 3 ≤ s.sec.stage ∧ s.sec.stage ≤ 6 then s.mapSec fun x => { x with rolling := true, faultRollback := true } else s
    s.raise 0x8C08 (core * 16 + s.votingCount)

/-- STEWARD_REJOIN (R810); a core that an update has taken out of the vote rejoins with its stages. -/
def execStewardRejoin (core : Nat) (s : State) : Out :=
  onTrigger (s.mainOn && decide (core < 3) && !s.dep.voting.getD core true && !decide (3 ≤ s.sec.stage ∧ s.sec.stage ≤ 5)) s fun s =>
    let s := s.mapDep fun d => { d with voting := setAt false d.voting core true }
    s.raise 0x8C08 (core * 16 + s.votingCount)

end Sys2Proof.Machine
end

