-- ==== Sys2Proof/Machine/Resources.lean ====
section
/-! DEFINITION. What admission reserves (R47, R478, R487, R594, R728, R729, R452): HBM granules, commons banks, energy shares, search rates,
tiles and bands, and their return. -/

namespace Sys2Proof.Machine

/-! ### Memory reservations -/

/-- Granules of HBM for contexts (Table 16-2, R817). -/
def State.hbmPool (s : State) : Nat := 0x54000 - s.dep.hbmTaken

/-- Granules a context takes from the pool: its reservation, or what it has been charged without one (assumption 9). -/
def CtxS.hbmHeld (c : CtxS) : Nat := max c.hbmGranules c.hbmUsed

def State.hbmFree (s : State) : Nat := s.hbmPool - total ((List.range 8).map fun n => (s.ctxAt n).hbmHeld)

/-- Whether `g` granules more fit the context's HBM reservation: that of its CONTEXT_ADMIT, else the pool. -/
def State.hbmFits (s : State) (n g : Nat) : Bool :=
  let c := s.ctxAt n
  if c.hbmGranules ≠ 0 then decide (c.hbmUsed + g ≤ c.hbmGranules) else decide (g ≤ s.hbmFree)

/-- Granules that the context's commons banks hold (R594). -/
def CtxS.t1Total (c : CtxS) : Nat := 8 * c.banks.length

/-- Granules of the host window (R595). -/
def CtxS.t3Total (c : CtxS) : Nat := total (c.window.map (·.2)) / 65536

/-- Whether `g` granules more fit the reservation of a tier. -/
def State.tierFits (s : State) (n tier g : Nat) : Bool :=
  let c := s.ctxAt n
  if tier = 1 then decide (c.t1Used + g ≤ c.t1Total) else if tier = 2 then s.hbmFits n g else decide (c.t3Used + g ≤ c.t3Total)

/-- Charge granules of a tier to a context, or return them. -/
def State.charge (s : State) (n tier g : Nat) : State :=
  s.updCtx n fun c =>
    if tier = 1 then { c with t1Used := c.t1Used + g } else if tier = 2 then { c with hbmUsed := c.hbmUsed + g }
    else { c with t3Used := c.t3Used + g }
def State.credit (s : State) (n tier g : Nat) : State :=
  s.updCtx n fun c =>
    if tier = 1 then { c with t1Used := c.t1Used - g } else if tier = 2 then { c with hbmUsed := c.hbmUsed - g }
    else { c with t3Used := c.t3Used - g }

/-- Commons banks 0 to 55 that neither a context nor the staged image holds (R487, R872). -/
def State.freeBanks (s : State) : List Nat :=
  (List.range 56).filter fun b => !s.sec.stagedBanks.contains b && (List.range 8).all fun n => !(s.ctxAt n).banks.contains b

/-! ### Energy and search -/

/-- The Ballast in mW (R720). -/
def State.ballastMw (s : State) : Nat := s.power.cap * s.power.ballast / 1000

/-- The cap less the Ballast. -/
def State.capLess (s : State) : Nat := s.power.cap - s.ballastMw

/-- The sum of the admitted energy shares. -/
def State.shares (s : State) : Nat := total ((List.range 8).map fun n => (s.ctxAt n).share)

/-- R729. -/
def State.energyFits (s : State) (mw : Nat) : Bool := decide (8000 + s.shares + mw ≤ s.capLess)

/-- The search engine's units per second at the floor point (R451, R452). -/
def searchCap : Nat := 928000000
def State.searchFits (s : State) (u : Nat) : Bool :=
  decide (total ((List.range 8).map fun n => (s.ctxAt n).searchRate) + u ≤ searchCap)

/-! ### Tiles and bands (R478, R479, R49) -/

/-- Whether a context is admitted: by START_SESSION or by CONTEXT_ADMIT. -/
def CtxS.admitted (c : CtxS) : Bool := c.session.isSome || c.image.isSome

/-- In-service tiles in no band, and not chosen as a replacement, outside `used`. -/
def State.freeTiles (s : State) (used : List Nat) : List Nat :=
  (tilesIn s 0).filter fun t => (s.tileAt t).band.isNone && !used.contains t && !s.takenSpares.contains t

/-- Tiles for each requested (tiles, role), in order (R478); none when one cannot be placed. -/
def placeTiles (s : State) : List Nat → List (Nat × Nat) → Option (List (List Nat))
  | _, [] => some []
  | used, (k, role) :: rest =>
    let l := (s.freeTiles used).filter fun t => if role = 2 then !eastTile t else if role = 3 then eastTile t else true
    if l.length < k then none
    else match placeTiles s (used ++ l.take k) rest with
      | some r => some (l.take k :: r)
      | none => none

/-- Band numbers that no context holds (R49). -/
def State.freeBands (s : State) : List Nat := (List.range 16).filter fun b => !Tab.has s.bands b

/-- Give a context its bands: `req` gives (tiles, role, RV_MASK) per band, `place` the tiles, `slices` the slice of each tile. -/
def State.allocBands (s : State) (n : Nat) (req : List (Nat × Nat × Nat)) (place : List (List Nat)) (program : Bool) : State :=
  let nums := s.freeBands.take req.length
  let e := s.epoch + 1
  let s := { s with epoch := e }
  let find (role : Nat) := (nums.zip req).find? fun x => x.2.2.1 == role
  let partner (role : Nat) : Nat := match find (5 - role) with
    | some x => x.1
    | none => 0
  let s := forEach (List.range req.length) (fun i s =>
    let r := req.getD i (0, 0, 0)
    let b := nums.getD i 0
    let ts := place.getD i []
    let s := { s with bands := Tab.put s.bands b { ctx := n, role := r.2.1, tiles := ts, program := program,
                                                   partner := if r.2.1 = 2 ∨ r.2.1 = 3 then partner r.2.1 else 0 } }
    forEach (List.range ts.length) (fun k s =>
      s.updTile (ts.getD k 0) fun t => { t.scratch e with band := some b, logical := k, sig := 0 }) s) s
  let s := forEach (List.range 6) (fun k s =>
    let m := (List.range req.length).filterMap fun i =>
      if (req.getD i (0, 0, 0)).2.2.testBit k then some (nums.getD i 0) else none
    { s with rvs := Tab.put s.rvs (6 * n + k) { members := m } }) s
  let s := match find 2, find 3 with
    | some a, some b =>
      { s with rvs := Tab.put s.rvs (48 + n) { members := [a.1, b.1] }, pairs := Tab.put s.pairs n { bandA := a.1, bandB := b.1 } }
    | _, _ => s
  s.updCtx n fun c => { c with bands := nums }

/-- Free a context's bands: its tiles go to retention, a tile in repair is retired at once (R482, R989). -/
def State.freeBandsOf (s : State) (n : Nat) : State :=
  let bs := (s.ctxAt n).bands
  let mine := s.dep.repairs.filter fun r => bs.contains r.2.band
  let s := forEach mine (fun r s => (s.updTile r.1 fun t => { t with state := 2, band := none }).recoveryEnd (recTile r.1)) s
  let subs := s.dep.subst.filter fun r => match (s.tileAt r.1).band with
    | some b => bs.contains b
    | none => false
  let s := forEach subs (fun r s => s.recoveryEnd (recLane r.1)) s
  let s := s.recoveryEnd (recPair n)
  let s := { s with jobs := s.jobs.filter fun r => match r.job with
    | .bandMove b _ => !bs.contains b
    | .codePage b _ => !bs.contains b
    | _ => true }
  let s := s.mapDep fun d => { d with repairs := d.repairs.filter (fun r => !bs.contains r.2.band),
                                      subst := d.subst.filter (fun r => !(subs.map (·.1)).contains r.1),
                                      rollbacks := d.rollbacks.filter fun b => !bs.contains b }
  let s := forEach bs (fun b s =>
    let s := forEach (s.bandAt b).tiles (fun t s => s.updTile t fun x => { x with band := none, logical := 0 }) s
    { s with bands := Tab.del s.bands b }) s
  let s := forEach (List.range 6) (fun k s => { s with rvs := Tab.del s.rvs (6 * n + k) }) s
  let rvs := Tab.mapVals (Tab.del s.rvs (48 + n)) fun k r => if 56 ≤ k then { r with counts := Tab.keep r.counts fun b _ => !bs.contains b } else r
  { s with rvs := rvs, pairs := Tab.del s.pairs n }.updCtx n fun c => { c with bands := [], streams := [] }

/-- Return everything an admission reserved, but the context's charges (R710). -/
def State.releaseAdmission (s : State) (n : Nat) : State :=
  (s.freeBandsOf n).updCtx n fun c =>
    { c with image := none, admitCmd := none, banks := [], hbmGranules := 0, share := 0, searchRate := 0 }

/-! ### Power states of Table 17-6 -/

/-- A command that needs a block that is not powered returns the module to ACTIVE before it commits (R750). -/
def State.wake (s : State) : State :=
  if s.life.powerState = 1 ∨ s.life.powerState = 2 then
    (s.mapLife fun l => { l with powerState := 0, idleSince := none }).raise 0x8B04 0
  else s.mapLife fun l => { l with idleSince := none }

/-- The last session or program of every context has ended: IDLE follows in 1 s (R749). -/
def State.noteIdle (s : State) : State :=
  if (List.range 8).all fun n => !(s.ctxAt n).admitted then s.mapLife fun l => { l with idleSince := some s.time.ticks } else s

end Sys2Proof.Machine
end

