-- ==== Sys2Proof/Machine/Stereo.lean ====
section
/-! DEFINITION. Semi-global matching (R264 to R277): costs, aggregation, disparity and its codes. -/

namespace Sys2Proof.Machine

/-- Disparities searched (Table 6-4). -/
def PairCfg.count (c : PairCfg) : Nat := 64 * (c.numDisp + 1)

/-- The census of a pixel: 62 comparisons in a window of 9 by 7 (R264). -/
def census (l : Level) (w h x y : Nat) : List Bool :=
  let c := l.px x y
  (List.range 63).filterMap fun k =>
    if k = 31 then none
    else
      let u := reflect w (Int.ofNat x + Int.ofNat (k % 9) - 4)
      let v := reflect h (Int.ofNat y + Int.ofNat (k / 9) - 3)
      some (!l.hole u v && decide (c < l.px u v))

/-- One pair of levels of `w` by `h` pixels. -/
structure Views where
  left : Level
  right : Level
  w : Nat
  h : Nat
  deriving DecidableEq, Repr

/-- The matching costs of a left pixel over the range: 63 is never the winner (R265). -/
def Views.costs (v : Views) (c : PairCfg) (x y : Nat) : List Nat :=
  let a := census v.left v.w v.h x y
  (List.range c.count).map fun k =>
    let d := c.minDisp + k
    if x < d ∨ v.right.hole (x - d) y then 63
    else ((a.zip (census v.right v.w v.h (x - d) y)).filter fun p => p.1 != p.2).length

/-- P2' between two pixels (R267). -/
def Views.penalty (v : Views) (c : PairCfg) (x y x' y' : Nat) : Nat :=
  if c.adaptShift = 0xFF then c.p2
  else
    let a := v.left.px x y
    let b := v.left.px x' y'
    max (c.p1 + 1) (c.p2 - min 255 ((max a b - min a b) / 2 ^ c.adaptShift))

/-- The costs along the path that enters a pixel by (dx, dy): `stop` is the line on which an ascending path restarts (R266, R269). -/
def Views.path (v : Views) (c : PairCfg) (dx dy : Int) (stop : Nat) : Nat → Nat → Nat → List Nat
  | 0, x, y => v.costs c x y
  | fuel + 1, x, y =>
    let x' := Int.ofNat x - dx
    let y' := Int.ofNat y - dy
    if x' < 0 ∨ y' < 0 ∨ Int.ofNat v.w ≤ x' ∨ Int.ofNat v.h ≤ y' ∨ (dy < 0 ∧ Int.ofNat stop < y') then v.costs c x y
    else
      let prev := Views.path v c dx dy stop fuel x'.toNat y'.toNat
      let m := minD 0 prev
      let p2 := v.penalty c x y x'.toNat y'.toNat
      (v.costs c x y).zipIdx.map fun e =>
        let k := e.2
        let near := (if k = 0 then [] else [prev.getD (k - 1) 0 + c.p1]) ++ (if k + 1 < prev.length then [prev.getD (k + 1) 0 + c.p1] else [])
        e.1 + minD 0 ([prev.getD k 0, m + p2] ++ near) - m

/-- The eight directions: two horizontal, three that descend, three that ascend (R266, R269). -/
def directions : List (Int × Int) := [(1, 0), (-1, 0), (0, 1), (1, 1), (-1, 1), (0, -1), (1, -1), (-1, -1)]

/-- The aggregated costs of a pixel of a strip of 8 lines (R268, R269). -/
def Views.aggregate (v : Views) (c : PairCfg) (x y : Nat) : List Nat :=
  let last := min (y / 8 * 8 + 7) (v.h - 1)
  let stop := min (last + 8) (v.h - 1)
  let ls := directions.map fun d => v.path c d.1 d.2 stop (v.w + v.h) x y
  (List.range c.count).map fun k => min 65535 (total (ls.map fun l => l.getD k 0))

/-- The least of the candidates that may win, the smaller disparity on a tie (R265, R271). -/
def winner (costs sums : List Nat) : Option Nat :=
  (List.range sums.length).foldl (fun (b : Option Nat) k =>
    if costs.getD k 63 = 63 then b
    else match b with
    | none => some k
    | some j => if sums.getD k 0 < sums.getD j 0 then some k else some j) none

/-- The right-view disparity of a right pixel (R274). -/
def Views.rightDisparity (v : Views) (c : PairCfg) (x y : Nat) : Nat :=
  let l := (List.range c.count).filterMap fun k =>
    let d := c.minDisp + k
    if x + d < v.w then some (d, (v.aggregate c (x + d) y).getD k 65535) else none
  match l with
  | [] => c.minDisp
  | e :: t => (t.foldl (fun (b : Nat × Nat) x => if x.2 < b.2 then x else b) e).1

/-- The offset of a winner inside the range, in 1/16 (R272). -/
def subOffset (sums : List Nat) (k : Nat) : Int :=
  if k = 0 ∨ sums.length ≤ k + 1 then 0
  else
    let a := Int.ofNat (sums.getD (k - 1) 0)
    let b := Int.ofNat (sums.getD k 0)
    let e := Int.ofNat (sums.getD (k + 1) 0)
    let den := 2 * (a - 2 * b + e)
    if den ≤ 0 then 0 else clampInt (-8) 8 (divEven (16 * (a - e)) den.toNat)

/-- The disparity code of a left pixel (R271 to R275). -/
def Views.disparity (v : Views) (c : PairCfg) (x y : Nat) : Nat :=
  let costs := v.costs c x y
  let sums := v.aggregate c x y
  match winner costs sums with
  | none => 0xFFFF
  | some k =>
    let d := c.minDisp + k
    if v.left.hole x y then 0xFFFF
    else if c.satLevel ≤ v.left.px x y ∨ c.satLevel ≤ v.right.px (x - d) y then 0xFFFB
    else if c.texThresh ≠ 0 ∧ maxD 0 costs - minD 0 costs < c.texThresh then 0xFFFD
    else if c.lrTol ≠ 0xFF ∧ c.lrTol < (Int.ofNat d - Int.ofNat (v.rightDisparity c (x - d) y)).natAbs then 0xFFFE
    else if c.uniq ≠ 0 ∧ (List.range sums.length).any (fun j =>
        decide ((j + 1 < k ∨ k + 1 < j) ∧ 100 * sums.getD j 0 < (100 + c.uniq) * sums.getD k 0)) then 0xFFFC
    else (clampInt 0 0xFFF (16 * Int.ofNat d + subOffset sums k)).toNat

/-- A pixel after the median of its valid neighbours (R276). -/
def medianAt (rows : Tab (List Nat)) (x y : Nat) : Nat :=
  let here := (Tab.getD rows y []).getD x 0xFFFF
  if 0xFFF < here then here
  else
    let l := (List.range 9).filterMap fun k =>
      let u := Int.ofNat x + Int.ofNat (k % 3) - 1
      let w := Int.ofNat y + Int.ofNat (k / 3) - 1
      if u < 0 ∨ w < 0 then none
      else match (Tab.getD rows w.toNat [])[u.toNat]? with
        | some p => if p ≤ 0xFFF then some p else none
        | none => none
    (sortBy (fun a b => decide (a < b)) l).getD ((l.length - 1) / 2) here

def medianImage (rows : Tab (List Nat)) : Tab (List Nat) :=
  Tab.mapVals rows fun y r => (List.range r.length).map fun x => medianAt rows x y

/-- The counts of the five special codes 0xFFFB to 0xFFFF (R277). -/
def codeCounts (rows : Tab (List Nat)) : List Nat :=
  (List.range 5).map fun k => total (rows.map fun r => (r.2.filter fun p => p == 0xFFFB + k).length)

end Sys2Proof.Machine
end

