-- ==== Sys2Proof/Machine/Flow.lean ====
section
/-! DEFINITION. The flow engine's arithmetic on one point (R307 to R310): its window, the solution of G·δ = b, and the statuses of Table 7-6 in their
order. Positions at a level are in 1/64 pixel. -/

namespace Sys2Proof.Machine

/-- Window edge in pixels (Table 7-2). -/
def FeatCfg.winEdge (f : FeatCfg) : Nat := [7, 9, 11, 15].getD f.win 11

/-- The initial guess of a point, level-0 pixels in 1/65536 (R307). -/
def FlowPt.guess (p : FlowPt) : Int × Int :=
  let d (x : BitVec 16) : Int := if bit p.hint 0 then sext 16 x.toNat * 4096 else 0
  (Int.ofNat p.u + d p.predDu, Int.ofNat p.v + d p.predDv)

/-- A level of a frame with its size. -/
structure FlowView where
  level : Level := []
  w : Nat := 0
  h : Nat := 0
  deriving DecidableEq, Repr

/-- The two frames of a tracking step at one level, and the point's place in the earlier one. -/
structure FlowPair where
  prev : FlowView := {}
  cur : FlowView := {}
  start : Int × Int := (0, 0)
  deriving DecidableEq, Repr

/-- The sample positions of a window, row-major. -/
def windowPoints (f : FeatCfg) (p : Int × Int) : List (Int × Int) :=
  let half := Int.ofNat ((f.winEdge - 1) / 2)
  (List.range f.winEdge).flatMap fun j => (List.range f.winEdge).map fun i => (p.1 + 64 * (Int.ofNat i - half), p.2 + 64 * (Int.ofNat j - half))

/-- Whether a window leaves the image. -/
def FlowView.leaves (v : FlowView) (f : FeatCfg) (p : Int × Int) : Bool :=
  let half := Int.ofNat (64 * ((f.winEdge - 1) / 2))
  decide (p.1 - half < 0 ∨ p.2 - half < 0 ∨ Int.ofNat (64 * (v.w - 1)) < p.1 + half ∨ Int.ofNat (64 * (v.h - 1)) < p.2 + half)

/-- Whether a window touches a hole: some pixel that one of its samples is interpolated from is one. -/
def FlowView.touchesHole (v : FlowView) (f : FeatCfg) (p : Int × Int) : Bool :=
  (windowPoints f p).any fun q =>
    let x := (q.1 / 64).toNat
    let y := (q.2 / 64).toNat
    (if q.1 % 64 = 0 then [x] else [x, x + 1]).any fun a => (if q.2 % 64 = 0 then [y] else [y, y + 1]).any fun b => v.level.hole a b

/-- OUT_OF_IMAGE or HOLE at a position (Table 7-6). The windows in both frames count (DEDUCED, entry 6: the engine reads both). -/
def FlowPair.blocked (v : FlowPair) (f : FeatCfg) (p : Int × Int) : Option Nat :=
  if v.cur.leaves f p || v.prev.leaves f v.start then some 1
  else if v.cur.touchesHole f p || v.prev.touchesHole f v.start then some 2
  else none

/-- The residuals of a window: earlier less current sample by the interpolation of R248, times 2^12. -/
def FlowPair.residuals (v : FlowPair) (f : FeatCfg) (p : Int × Int) : List Int :=
  let at' (u : FlowView) (q : Int × Int) := Int.ofNat (bilinear u.level.px u.w u.h q.1 q.2)
  ((windowPoints f v.start).zip (windowPoints f p)).map fun q => at' v.prev q.1 - at' v.cur q.2

/-- The gradient at a sample of a window: the spec gives no gradient operator, so that it is open (entry 16, place 41). -/
def flowGradient (key i : Nat) : Int × Int :=
  (sext 16 (Config.openVal 41 ((key * 256 + i) * 2) % 65536), sext 16 (Config.openVal 41 ((key * 256 + i) * 2 + 1) % 65536))

/-- One iteration: SINGULAR, or δ in 1/64 pixel, rounded convergently (R309). The smaller eigenvalue of G divided by WIN² is held against MIN_EIG without a
root; where G has no inverse δ is open. -/
def FlowPair.solve (v : FlowPair) (f : FeatCfg) (key : Nat) (p : Int × Int) : Option (Int × Int) :=
  let e := ((v.residuals f p).zipIdx).map fun r => (r.1, flowGradient key r.2)
  let sum (g : Int × Int × Int → Int) : Int := (e.map g).foldl (· + ·) 0
  let a := sum fun r => r.2.1 * r.2.1
  let b := sum fun r => r.2.1 * r.2.2
  let c := sum fun r => r.2.2 * r.2.2
  let t := a + c - 2 * Int.ofNat (f.minEig * f.winEdge * f.winEdge)
  if t < 0 ∨ t * t < (a - c) * (a - c) + 4 * b * b then none
  else
    let bx := sum fun r => r.1 * r.2.1
    let byy := sum fun r => r.1 * r.2.2
    let det := a * c - b * b
    if det ≤ 0 then some (sext 16 (Config.openVal 41 (key * 512 + 510) % 65536), sext 16 (Config.openVal 41 (key * 512 + 511) % 65536))
    else some (divEven (64 * (c * bx - b * byy)) (4096 * det.toNat), divEven (64 * (a * byy - b * bx)) (4096 * det.toNat))

/-- Where tracking stands at a level. -/
structure FlowRun where
  pos : Int × Int := (0, 0)
  delta : Int × Int := (1, 1)
  iters : Nat := 0
  status : Option Nat := none
  deriving DecidableEq, Repr

/-- Whether a position lies more than `limit` (1/64 pixel of level 0) from the initial guess, both at level `n`. -/
def farFrom (n : Nat) (limit : Nat) (p g : Int × Int) : Bool :=
  let d (a b : Int) : Int := (a - b) * 2 ^ n
  decide (Int.ofNat (limit * limit) < d p.1 g.1 * d p.1 g.1 + d p.2 g.2 * d p.2 g.2)

/-- The iterations of a level (R309, statuses 1 to 4 of R310): they end at once, when δ is zero, or after MAX_ITER. -/
def FlowPair.iterate (v : FlowPair) (f : FeatCfg) (n key : Nat) (guess : Int × Int) : Nat → FlowRun → FlowRun
  | 0, r => { r with status := v.blocked f r.pos }
  | k + 1, r =>
    match v.blocked f r.pos with
    | some st => { r with status := some st }
    | none =>
      if r.delta = (0, 0) then r
      else match v.solve f (key * 32 + k) r.pos with
        | none => { r with status := some 3 }
        | some d =>
          let p := (r.pos.1 + d.1, r.pos.2 + d.2)
          let r := { r with pos := p, delta := d, iters := r.iters + 1 }
          if farFrom n (64 * f.maxDisp) p guess then { r with status := some 4 } else FlowPair.iterate v f n key guess k r

/-- A level-0 position in 1/65536 pixel at level `n`, in 1/64 pixel. -/
def atFlowLevel (n : Nat) (p : Int × Int) : Int × Int := (convergent p.1 (10 + n), convergent p.2 (10 + n))

/-- Tracking from the coarsest level to level 0: the run, and the level at which it ended. The position is doubled from one level to the next (R309). -/
def trackFlow (views : Nat → FlowView × FlowView) (f : FeatCfg) (key : Nat) (start guess : Int × Int) : FlowRun × Nat :=
  let levels := (List.range f.flowLevels).reverse
  levels.foldl (fun (a : FlowRun × Nat) n =>
    if a.1.status.isSome then a
    else
      let v : FlowPair := { prev := (views n).1, cur := (views n).2, start := atFlowLevel n start }
      let p := if n + 1 = f.flowLevels then atFlowLevel n guess else (2 * a.1.pos.1, 2 * a.1.pos.2)
      (v.iterate f n (key * 8 + n) (atFlowLevel n guess) f.maxIter { pos := p, iters := a.1.iters }, n)) ({}, 0)

/-- The result of a point (R307, R309, R310). Beside the gradients, ERROR of a point that ended before level 0 is open. The way back for FB_FAIL starts
with the previous position as its guess (DESIGN CHOICE, entry 6); a way back that ends with a status of its own is a miss. -/
def flowResult (views : Nat → FlowView × FlowView) (f : FeatCfg) (p : FlowPt) (free : Nat) : FlowRes :=
  let start := (Int.ofNat p.u, Int.ofNat p.v)
  let word (x : Int) : Nat := (x % 2 ^ 32).toNat
  let open_ := Config.openVal 41 (free * 2 ^ 24) % 65536
  if bit p.hint 1 then { id := p.id, u := word p.guess.1, v := word p.guess.2, status := 8, iters := 0, error := open_ }
  else
    let r := trackFlow views f (2 * free + 2) start p.guess
    let scale : Int := 1024 * 2 ^ r.2
    let res (st err : Nat) : FlowRes :=
      { id := p.id, u := word (r.1.pos.1 * scale), v := word (r.1.pos.2 * scale), status := st, iters := min 255 r.1.iters, error := min 65535 err }
    match r.1.status with
    | some st => res st open_
    | none =>
      let v : FlowPair := { prev := (views 0).1, cur := (views 0).2, start := atFlowLevel 0 start }
      let sum := total ((v.residuals f r.1.pos).map (·.natAbs))
      let area := f.winEdge * f.winEdge
      let err := (divEven (Int.ofNat sum) (256 * area)).toNat
      if f.maxErr * 256 * area < sum then res 5 err
      else if r.1.delta ≠ (0, 0) then res 6 err
      else if f.fbTol = 0 then res 0 err
      else
        let found := (r.1.pos.1 * 1024, r.1.pos.2 * 1024)
        let back := trackFlow (fun n => ((views n).2, (views n).1)) f (2 * free + 3) found start
        if back.1.status.isSome || farFrom 0 (4 * f.fbTol) back.1.pos (atFlowLevel 0 start) then res 7 err else res 0 err

/-- The last row of a level of `h` lines that a point needs, and that row scaled to level 0 (R308). -/
def FlowPt.lastRow (f : FeatCfg) (p : FlowPt) (n h : Nat) : Nat :=
  min (h - 1) (((p.guess.2 + Int.ofNat (2 ^ n * (f.winEdge * 32768 + 65536) + f.maxDisp * 65536)) / Int.ofNat (65536 * 2 ^ n)).toNat)

end Sys2Proof.Machine
end

