-- ==== Sys2Proof/Machine/Stored.lean ====
section
/-! DEFINITION. The stored forms of what the vision engines write to HBM: lines at their pitch, hole planes, level sets (R259, R260), disparity images
(R277), corner, descriptor, point-list and flow entries (Tables 7-3 to 7-5, 7-7) and the feature block (R312). State holds each of them as values; these are
the bytes of the same things. Where a rule names the fields of a header without offsets they stand in the order in which the rule names them, 4 bytes each
(DESIGN CHOICE, entry 6). -/

namespace Sys2Proof.Machine

/-- Bytes filled with zeros to a length. -/
def padTo (n : Nat) (b : List Byte) : List Byte := b ++ zeros (n - b.length)

/-- The pitch of a line: its length rounded up to 256 B (R259, R260, R277). -/
def pitch (n : Nat) : Nat := ceilDiv n 256 * 256

/-- A line of a level: one byte per pixel for U8, two for U16 (R258, R260). -/
def pixelLine (u16 : Bool) (r : PixRow) : List Byte :=
  let b := r.px.flatMap fun p => if u16 then leBytes 2 p else leBytes 1 p
  padTo (pitch b.length) b

/-- A line of a hole plane of `w` pixels: one bit per pixel from bit 0, padded to 256 B (R259). -/
def holeLine (w : Nat) (r : PixRow) : List Byte :=
  let n := ceilDiv w 8
  padTo (pitch n) ((List.range n).map fun i =>
    BitVec.ofNat 8 (total ((List.range 8).map fun b => if r.holes.getD (8 * i + b) false then 2 ^ b else 0)))

/-- The levels of a level set, in order. -/
def FrameBuf.stored (b : FrameBuf) : List Nat := (List.range 6).filter fun n => bit b.levelMask n

/-- The header of a level set (R260): FRAME_SET, GRID_VERSION, level count. -/
def levelHeader (b : FrameBuf) : List Byte := wBytes b.frameSet ++ wBytes b.gridVersion ++ leBytes 4 b.stored.length

/-- A level set as it is stored: each level's lines, then its hole plane. -/
def levelSetBytes (b : FrameBuf) : List Byte :=
  let g := b.grid.getD {}
  levelHeader b ++ b.stored.flatMap fun n =>
    let l := Tab.getD b.levels n []
    l.flatMap (fun r => pixelLine g.u16 r.2) ++ l.flatMap fun r => holeLine (levelSize g.outW n) r.2

/-- A line of disparity values (R277). -/
def dispLine (l : List Nat) : List Byte := let b := l.flatMap (leBytes 2); padTo (pitch b.length) b

/-- The 64-byte header of a disparity image (R277). -/
def dispHeader (frameSet : Word) (d : DispImage) : List Byte :=
  padTo 64 (wBytes frameSet ++ leBytes 4 d.level ++ leBytes 4 d.minDisp ++ leBytes 4 d.numDisp ++ wBytes d.gridLeft ++ wBytes d.gridRight
    ++ d.codes.flatMap (leBytes 4))

/-- A disparity image as it is stored. -/
def dispBytes (frameSet : Word) (d : DispImage) : List Byte := dispHeader frameSet d ++ d.rows.flatMap fun r => dispLine r.2

/-- A corner entry (Table 7-3): X [15:0], Y [31:16], CELL [47:32], SCORE [63:48]. -/
def cornerBytes (c : Corner) : List Byte := leBytes 8 (c.x % 2 ^ 16 + c.y % 2 ^ 16 * 2 ^ 16 + c.cell % 2 ^ 16 * 2 ^ 32 + c.score % 2 ^ 16 * 2 ^ 48)

/-- A descriptor entry (Table 7-4). -/
def descBytes (c : Corner) (d : DescOut) : List Byte :=
  cornerBytes c ++ leBytes 1 d.bin ++ leBytes 1 (if d.hole then 1 else 0) ++ zeros 6 ++ padTo 32 d.desc

/-- A patch: its samples, row-major, one byte each (R300, R301). -/
def patchBytes (d : DescOut) : List Byte := d.patch.map fun v => BitVec.ofInt 8 v

/-- A point-list entry (Table 7-5). -/
def pointBytes (p : FlowPt) : List Byte :=
  wBytes p.id ++ leBytes 4 p.u ++ leBytes 4 p.v ++ leBytes 2 p.predDu.toNat ++ leBytes 2 p.predDv.toNat ++ [p.hint] ++ zeros 7

/-- A flow result entry (Table 7-7). -/
def flowBytes (r : FlowRes) : List Byte := wBytes r.id ++ leBytes 4 r.u ++ leBytes 4 r.v ++ leBytes 1 r.status ++ leBytes 1 r.iters ++ leBytes 2 r.error

/-- The feature block of a stream's frame (R312): its header, then the lists; DONE is zero until it is written. -/
def featureBlock (b : FrameBuf) : List Byte :=
  let cs := b.corners.flatMap (·.2)
  let ds := cs.zipIdx.filterMap fun c => (Tab.get? b.descs c.2).map fun d => (c.1, d)
  let patches := ds.filter fun d => d.2.patch != []
  wBytes b.frameSet ++ wBytes b.pairedSet ++ leBytes 4 (b.quota.getD 0) ++ leBytes 4 cs.length ++ leBytes 4 ds.length ++ leBytes 4 patches.length
    ++ leBytes 4 b.flow.length ++ wBytes (b.done.getD 0)
    ++ cs.flatMap cornerBytes ++ ds.flatMap (fun d => descBytes d.1 d.2) ++ patches.flatMap (fun d => patchBytes d.2) ++ b.flow.flatMap fun r => flowBytes r.2

/-- The companion buffer of a frame buffer (R260, R277, R302, R312). -/
def FrameBuf.companion (b : FrameBuf) : List Byte :=
  levelSetBytes b ++ (match b.disp with | some d => dispBytes b.frameSet d | none => []) ++ featureBlock b

end Sys2Proof.Machine
end

