-- ==== Sys2Proof/Machine/Vision.lean ====
section
/-! DEFINITION. The vision engines' units, their faults, Quadrille, and the vision commands (chapters 6 and 7, 0x05xx of chapter 16). A unit
is one step: its row starts only when the lines it reads are there, and takes the oldest frame of its stream that lacks the unit. -/

namespace Sys2Proof.Machine

/-! ### Instances (R238, Table 7-1, R318 to R320, R818, R819) -/

/-- Instances of each kind: remap, pyramid, stereo, corner, descriptor, flow. -/
def engineCount (kind : Nat) : Nat := [8, 4, 1, 12, 8, 8].getD kind 0

/-- Whether an instance is in its pool. -/
def State.inPool (s : State) (kind inst : Nat) : Bool := decide (inst < engineCount kind) && !(s.engineAt (kind * 16 + inst)).out

def State.poolSize (s : State) (kind : Nat) : Nat := ((List.range (engineCount kind)).filter fun i => s.inPool kind i).length

/-- The nodes of a built-in graph (chapter 7 text): the spec gives the kind that slots 1 to 6 test and not how many nodes (assumption 6). -/
def builtinGraph (slot : Nat) : List QNode :=
  List.replicate (1 + Config.openVal 42 slot % 64) { kind := slot - 1, inst := 0xFF, pred := [0xFF, 0xFF, 0xFF, 0xFF] }

/-- The graph of a slot; none in slot 0, which runs at start-up, in slot 7, and in an empty slot. -/
def graphAt (s : State) (slot : Nat) : List QNode := if 1 ≤ slot ∧ slot ≤ 6 then builtinGraph slot else Tab.getD s.quad.slots slot []

/-- The instance that a node runs on: the one that it names, or for 0xFF the last of its kind. -/
def QNode.instance_ (q : QNode) : Nat := if q.inst = 0xFF then engineCount q.kind - 1 else q.inst.toNat

/-- Whether the running graph holds an instance (R41): no chain descriptor starts it then. -/
def State.quadHolds (s : State) (kind inst : Nat) : Bool :=
  s.quad.running.any fun r => (graphAt s r.1).any fun q => q.kind == kind && q.instance_ == inst

/-- Whether an instance may take a unit of a stream. -/
def State.engineFree (s : State) (kind inst : Nat) : Bool := s.inPool kind inst && !s.quadHolds kind inst

/-- Whether a session that produces pose records runs (R323). -/
def State.poseSession (s : State) : Bool := s.sessionCtxs.any fun n => match s.sessionAt n with | some x => x.prof.pose | none => false

/-- Whether an instance failed a check within the last 24 h of operation (R320, R818). -/
def State.failedToday (s : State) (kind inst : Nat) : Bool :=
  match (s.engineAt (kind * 16 + inst)).lastFail with
  | some t => decide (s.age.opTicks < t + dayTicks)
  | none => false

/-- Retire an instance: cause 2, and an entry of the ageing ledger (R320, Table 20-3). -/
def State.retireEngine (s : State) (kind inst : Nat) : State :=
  ((s.updEngine (kind * 16 + inst) fun e => { e with out := true, retired := true }).raise 0x8504 (kind * 4096 + inst * 256 + 2)).ledger
    { kind := 5, subject := kind * 16 + inst }

/-- A check failure: the instance leaves the pool, or is retired on its second failure within 24 h of operation (R318, R320). The stereo engine
leaves the pool only on that second failure (R818); then no pair is matched. -/
def State.engineFails (s : State) (kind inst : Nat) : State :=
  let again := s.failedToday kind inst
  let s := s.updEngine (kind * 16 + inst) fun e => { e with lastFail := some s.age.opTicks }
  if kind = 2 then
    if again then
      let s := (s.updEngine 32 fun e => { e with out := true }).raise 0x8504 (2 * 4096 + 1)
      { s with streams := Tab.mapVals s.streams fun _ x => { x with bufs := Tab.mapVals x.bufs fun _ b => if b.stereo = 1 then { b with stereo := 2, disp := none } else b },
               ctxs := Tab.mapVals s.ctxs fun _ c => { c with pairs := Tab.mapVals c.pairs fun _ p => { p with frameSet := none } } }
    else s
  else if again then s.retireEngine kind inst
  else (s.updEngine (kind * 16 + inst) fun e => { e with out := true }).raise 0x8504 (kind * 4096 + inst * 256 + 1)

/-- One unit of an engine: a unit whose check fails is discarded and runs again (R318, R319, R740, R746). -/
def engineUnit (kind inst stream unit : Nat) (checkFails : Bool) (s : State) (k : State → State) : State :=
  let s := s.spend 16
  if checkFails then (s.engineFails kind inst).recoveryStart (recUnit kind stream unit)
  else (k s).recoveryEnd (recUnit kind stream unit)

/-- ENGINE_RECOVERY_GRAPH (R320, R323, R819). -/
def execEngineRecoveryGraph (kind inst : Nat) (passed : Bool) (s : State) : Out :=
  let e := s.engineAt (kind * 16 + inst)
  onTrigger (decide (inst < engineCount kind) && e.out && !e.retired && (kind != 2 || !s.poseSession) && s.mainOn) s fun s =>
    if passed then (s.updEngine (kind * 16 + inst) fun e => { e with out := false }).raise 0x8505 (kind * 4096 + inst * 256)
    else s.retireEngine kind inst

/-! ### Frames in the engines -/

def FrameBuf.g (b : FrameBuf) : Grid := b.grid.getD {}
def FrameBuf.w (b : FrameBuf) (n : Nat) : Nat := levelSize b.g.outW n
def FrameBuf.h (b : FrameBuf) (n : Nat) : Nat := levelSize b.g.outH n
def FrameBuf.level (b : FrameBuf) (n : Nat) : Level := Tab.getD b.levels n []
def FrameBuf.rows (b : FrameBuf) (n : Nat) : Nat := (b.level n).length
/-- Whether `k` lines of a level are there, or all of them. -/
def FrameBuf.hasRows (b : FrameBuf) (n k : Nat) : Bool := decide (min k (b.h n) ≤ b.rows n)

/-- The levels that are computed: those of the mask (R255). -/
def levelsOf (m : Byte) : List Nat := (List.range 6).filter fun n => bit m n

/-- The rows of a level that a reader of it can have: the stored ones, or of a level that LEVEL_MASK omits those that follow from the level before, which
the pyramid engine forms on its way to a higher level and does not store (R255; DEDUCED, entry 6). -/
def FrameBuf.virt (b : FrameBuf) : Nat → Level
  | 0 => b.level 0
  | n + 1 =>
    if bit b.chain.levelMask (n + 1) then b.level (n + 1)
    else
      let src := b.virt n
      ((List.range (b.h (n + 1))).takeWhile fun y => decide (min (2 * y + 3) (b.h n) ≤ src.length)).map fun y => (y, pyramidLine src (b.w n) (b.h n) y)

/-- Whether `k` rows of a level, stored or formed, are there, or all of them. -/
def FrameBuf.canRead (b : FrameBuf) (n k : Nat) : Bool := decide (min k (b.h n) ≤ (b.virt n).length)

def FrameBuf.levelsDone (b : FrameBuf) : Bool := b.begun && (levelsOf b.chain.levelMask).all fun n => b.hasRows n (b.h n)

/-- The corners of the rows closed so far, in the order of the list (R296). -/
def FrameBuf.cornerAll (b : FrameBuf) : List Corner := b.corners.flatMap (·.2)

def FrameBuf.usesCorners (b : FrameBuf) : Bool := bit b.chain.next 0
def FrameBuf.usesDescs (b : FrameBuf) : Bool := bit b.chain.next 0 && bit b.chain.next 1 && b.feat.descMode != 0
def FrameBuf.usesFlow (b : FrameBuf) : Bool := bit b.chain.next 2

def FrameBuf.cornersDone (b : FrameBuf) : Bool := !b.usesCorners || decide (cellRows b.feat (b.h b.feat.cornerLevel) ≤ b.corners.length)
def FrameBuf.featWanted (b : FrameBuf) : Bool := b.begun && !b.skipped && decide (b.chain.next.toNat % 8 ≠ 0)

/-- Whether any engine of NEXT has started the frame (R314). -/
def FrameBuf.featStarted (b : FrameBuf) : Bool := !b.corners.isEmpty || !b.descs.isEmpty || !b.flow.isEmpty || b.done.isSome

/-- The earlier frame with a closed point list lies within GAP_LIMIT frames (R303). -/
def StreamS.paired (x : StreamS) (b : FrameBuf) : Bool := x.prevBuf.isSome && decide (b.frame ≤ x.pointsFrame + b.feat.gapLimit)

/-- The oldest frame that satisfies `p`, by buffer number. -/
def StreamS.oldest (x : StreamS) (p : FrameBuf → Bool) : Option (Nat × FrameBuf) :=
  (sortBy (fun a b => decide (a.2.order < b.2.order)) (x.bufs.filter fun e => decide (e.2.state ≠ .free) && p e.2)).head?

def StreamS.updBuf (x : StreamS) (k : Nat) (f : FrameBuf → FrameBuf) : StreamS := { x with bufs := Tab.upd x.bufs k {} f }
def State.updBuf (s : State) (n k : Nat) (f : FrameBuf → FrameBuf) : State := s.updStream n fun x => x.updBuf k f

/-- Whether every reader of a frame has ended with it (R181). -/
def FrameBuf.finished (b : FrameBuf) (stereoOut : Bool) : Bool :=
  b.complete && b.fabricDone && (b.chain.role == 0 || b.stereo == 2 || stereoOut)
    && (b.skipped || !b.featWanted || b.done.isSome) && (b.levelsDone || b.skipped || !b.begun)

/-- Free the buffers of a stream that every reader has released; the buffer of the closed point list stays HELD for the next frame's flow
(R181, R303). -/
def settleStream (n : Nat) (s : State) : State :=
  let out := !s.inPool 2 0
  s.updStream n fun x =>
    (List.range x.nbufs).foldl (fun x k =>
      match Tab.get? x.bufs k with
      | some b =>
        if b.state ≠ .free ∧ x.prevBuf ≠ some k ∧ b.finished out then
          { x with bufs := Tab.put x.bufs k { order := x.clock }, clock := x.clock + 1 }
        else x
      | none => x) x

/-! ### The order of pending work (R241, R287) -/

/-- The tick at which the strip landed that holds a source line. -/
def FrameBuf.landTick (b : FrameBuf) (line : Nat) : Nat :=
  match b.strips.find? fun e => decide (line < e.1) with
  | some e => e.2
  | none => (b.strips.getLast?.map (·.2)).getD 0

/-- Rows of level 0 that the first `k` rows of a level rest on (R243). -/
def FrameBuf.rowsBelow (b : FrameBuf) : Nat → Nat → Nat
  | 0, k => min k (b.h 0)
  | n + 1, k => FrameBuf.rowsBelow b n (min (2 * k + 1) (b.h n))

/-- The last source line that cell row `row` needs (R243, R250). -/
def FrameBuf.lastSource (b : FrameBuf) (row : Nat) : Nat := if b.chain.remapEn then b.g.lastLine row else min (16 * row + 15) (b.g.srcH - 1)

/-- The landing tick of the strip that the first `k` rows of a level wait for. -/
def FrameBuf.dueTick (b : FrameBuf) (n k : Nat) : Nat := b.landTick (b.lastSource ((b.rowsBelow n k - 1) / 16))

/-- Whether a stream belongs to a session that produces pose records. -/
def State.poseStream (s : State) (st : Nat) : Bool := ((s.sessionAt (s.streamAt st).ctx).map (·.prof.pose)).getD false

/-- Whether a unit of one stream goes before a unit of another, by the landing tick of their strips (R241). -/
def State.workBefore (s : State) (a ta b tb : Nat) : Bool :=
  let pa := s.poseStream a
  let pb := s.poseStream b
  decide ((pa = true ∧ pb = false) ∨ (pa = pb ∧ (ta < tb ∨ (ta = tb ∧ a < b))))

/-- Whether no other stream has a unit for the engine that goes before this stream's; `pending` gives the landing tick of a unit that can start. -/
def State.goesFirst (s : State) (pending : State → Nat → Option Nat) (st : Nat) : Bool :=
  (s.streams.filter fun e => e.1 != st).all fun e =>
    match pending s e.1, pending s st with
    | some u, some t => !s.workBefore e.1 u st t
    | _, _ => true

/-! ### Remap and pyramid -/

/-- The frame of a stream that remap works on. -/
def StreamS.remapNext (x : StreamS) : Option (Nat × FrameBuf) := x.oldest fun b => b.begun && decide (b.rows 0 < b.h 0)

/-- The remap unit of a stream that can start. -/
def remapPending (s : State) (st : Nat) : Option Nat :=
  match (s.streamAt st).remapNext with
  | some (_, b) =>
    let last := b.lastSource (b.rows 0 / 16)
    if b.complete || decide (last < b.lines.length) then some (b.landTick last) else none
  | none => none

/-- The frame of a stream that the pyramid engine works on at a level. -/
def StreamS.pyramidNext (x : StreamS) (level : Nat) : Option (Nat × FrameBuf) :=
  x.oldest fun b => b.begun && (levelsOf b.chain.levelMask).contains level && decide (b.rows level < b.h level)

/-- The pyramid unit of a stream that can start, the earliest over the levels. -/
def pyramidPending (s : State) (st : Nat) : Option Nat :=
  ([1, 2, 3, 4, 5].filterMap fun level =>
    match (s.streamAt st).pyramidNext level with
    | some (_, b) => if b.canRead (level - 1) (2 * b.rows level + 3) then some (b.dueTick level (b.rows level + 1)) else none
    | none => none).min?

/-- REMAP_CELL_ROW (R243, R246 to R252): 16 output lines, once the source line that the row reads has landed. -/
def execRemapCellRow (stream row inst : Nat) (checkFails : Bool) (s : State) : Out :=
  match (s.streamAt stream).remapNext with
  | none => .next s
  | some (k, b) =>
    let g := b.g
    onTrigger (s.engineFree 0 inst && s.poolOk 16 && b.rows 0 == 16 * row && (b.complete || decide (b.lastSource row < b.lines.length))
        && s.goesFirst remapPending stream) s fun s =>
      engineUnit 0 inst stream row checkFails s fun s =>
        let px (x y : Nat) := (b.lines.getD y []).getD x 0
        let new := (List.range (min 16 (b.h 0 - 16 * row))).map fun i => (16 * row + i, remapLine g b.chain.remapEn px (16 * row + i))
        settleStream stream (s.updBuf stream k fun b =>
          { b with state := .held, levels := Tab.put b.levels 0 (b.level 0 ++ new), gridVersion := g.version, levelMask := b.levelMask ||| 1 })

/-- PYRAMID_ROW (R243, R255 to R259): one line of a level of LEVEL_MASK, once its rows of the level before exist. -/
def execPyramidRow (stream level row inst : Nat) (checkFails : Bool) (s : State) : Out :=
  match (s.streamAt stream).pyramidNext level with
  | none => .next s
  | some (k, b) =>
    onTrigger (s.engineFree 1 inst && s.poolOk 16 && decide (1 ≤ level) && b.rows level == row && b.canRead (level - 1) (2 * row + 3)
        && s.goesFirst pyramidPending stream) s fun s =>
      engineUnit 1 inst stream (level * 65536 + row) checkFails s fun s =>
        let new := pyramidLine (b.virt (level - 1)) (b.w (level - 1)) (b.h (level - 1)) row
        settleStream stream (s.updBuf stream k fun b =>
          { b with state := .held, levels := Tab.put b.levels level (b.level level ++ [(row, new)]),
                   levelMask := b.levelMask ||| BitVec.ofNat 8 (2 ^ level) })

/-! ### Stereo -/

def State.pairCfgAt (s : State) (n p : Nat) : Option PairCfg := Tab.get? (s.ctxAt n).pairs p
def State.updPairCfg (s : State) (n p : Nat) (f : PairCfg → PairCfg) : State :=
  match s.pairCfgAt n p with
  | some c => s.updCtx n fun x => { x with pairs := Tab.put x.pairs p (f c) }
  | none => s

/-- A STEREO_CFG block written into a pair (Table 6-4); LEVEL is read only. -/
def PairCfg.ofBytes (c : PairCfg) (b : List Byte) : PairCfg :=
  { c with left := leAt b 0 1, right := leAt b 1 1, minDisp := leAt b 2 1, numDisp := leAt b 3 1, p1 := leAt b 4 1, p2 := leAt b 5 1,
           adaptShift := leAt b 6 1, uniq := leAt b 7 1, texThresh := leAt b 8 1, lrTol := leAt b 9 1, flags := BitVec.ofNat 8 (leAt b 10 1 % 4),
           satLevel := leAt b 12 2, next := [] }

/-- The matched level latched at a frame set: the session's work level, not below its lowest level, and in both masks (R263, R284). -/
def matchedLevel (want low : Nat) (a b : Byte) : Nat :=
  let l := max want low
  let ok (n : Nat) : Bool := bit a n && bit b n
  ([l, l + 1, l + 2].find? fun n => decide (n ≤ 2) && ok n).getD (((List.range l).reverse.find? fun n => decide (low ≤ n) && ok n).getD l)

/-- Start a frame set on a pair: its configuration and level are taken (R262, R263). -/
def startPair (n p : Nat) (kl kr lv : Nat) (c : PairCfg) (bl br : FrameBuf) (s : State) : State :=
  let s := s.updPairCfg n p fun _ => { c with level := lv, frameSet := some bl.frameSet }
  let s := s.updBuf c.right kr fun b => { b with stereo := 1, state := .held }
  s.updBuf c.left kl fun b =>
    { b with stereo := 1, state := .held,
             disp := some { level := lv, minDisp := c.minDisp, numDisp := c.numDisp, gridLeft := bl.gridVersion, gridRight := br.gridVersion } }

/-- What a pair's next strip works on. -/
structure PairWork where
  cfg : PairCfg := {}
  kl : Nat := 0
  bl : FrameBuf := {}
  kr : Nat := 0
  br : FrameBuf := {}
  /-- the matched level, latched when the frame set started (R263) -/
  level : Nat := 0
  strip : Nat := 0
  deriving DecidableEq, Repr

/-- Lines of the matched level that the strip reads (R270). -/
def PairWork.lines (w : PairWork) : Nat := 8 * w.strip + 19

/-- The frame set that a pair is being matched on goes on; without one the oldest that both streams hold starts, with the configuration written for it
(R262, R263, R279). -/
def stereoWork (s : State) (n p : Nat) : Option PairWork :=
  match s.pairCfgAt n p with
  | none => none
  | some c0 =>
    let pick (c : PairCfg) (st : Nat) (q : FrameBuf → Bool) : Option (Nat × FrameBuf × Nat × FrameBuf) :=
      match (s.streamAt c.left).oldest fun b => b.begun && b.stereo == st && q b with
      | none => none
      | some (kl, bl) => ((s.streamAt c.right).oldest fun b => b.begun && b.stereo == st && b.frameSet == bl.frameSet).map fun r => (kl, bl, r.1, r.2)
    match pick c0 1 fun b => c0.frameSet == some b.frameSet with
    | some (kl, bl, kr, br) => some { cfg := c0, kl := kl, bl := bl, kr := kr, br := br, level := c0.level, strip := (bl.disp.getD {}).rows.length / 8 }
    | none =>
      let c := if c0.next ≠ [] then c0.ofBytes c0.next else c0
      let x := (s.sessionAt n).getD {}
      (pick c 0 fun _ => true).map fun r =>
        { cfg := c, kl := r.1, bl := r.2.1, kr := r.2.2.1, br := r.2.2.2,
          level := matchedLevel (x.level 0) x.lowStereo r.2.1.chain.levelMask r.2.2.2.chain.levelMask }

def PairWork.ready (w : PairWork) : Bool := w.bl.hasRows w.level w.lines && w.br.hasRows w.level w.lines

/-- The stereo unit that can start of the pair whose left stream is `st`. -/
def stereoPending (s : State) (st : Nat) : Option Nat :=
  let n := (s.streamAt st).ctx
  match (s.ctxAt n).pairs.find? fun e => e.2.left == st with
  | none => none
  | some e =>
    match stereoWork s n e.1 with
    | some w => if w.ready then some (max (w.bl.dueTick w.level w.lines) (w.br.dueTick w.level w.lines)) else none
    | none => none

/-- Rows of 256 B in the tile stores of a session's working band: where the window lies that COPY_TILE writes is open, since no program of a session is
given (R262, R302, entry 16, place 62). -/
def copyTile (n what row : Nat) (bytes : List Byte) (s : State) : State :=
  match (((s.sessionAt n).getD {}).bands.find? fun b => (s.bandAt b).role == 1) with
  | none => s
  | some bn =>
    let tiles := (s.bandAt bn).tiles
    let tile := tiles.getD (Config.openVal 62 (n * 4 + 2 * what) % max 1 tiles.length) 0
    let base := Config.openVal 62 (n * 4 + 2 * what + 1)
    let k := ceilDiv bytes.length 256
    s.updTile tile fun t => { t with rows := (List.range k).foldl (fun r i =>
      Tab.put r ((base + row + i) % 8192) (bytesWords 64 (padTo 256 (slice bytes (256 * i) 256)))) t.rows }

/-- STEREO_STRIP (R264 to R277): 8 lines of the left view at the matched level, once both streams hold the lines that the strip reads. A strip whose check
fails runs again, the first one too (R318). -/
def execStereoStrip (ctx pair strip : Nat) (checkFails : Bool) (s : State) : Out :=
  match stereoWork s ctx pair with
  | none => .next s
  | some w =>
    let c := w.cfg
    let lv := w.level
    onTrigger (s.engineFree 2 0 && s.poolOk 16 && w.ready && w.strip == strip && s.goesFirst stereoPending c.left) s fun s =>
      let s := if strip = 0 then startPair ctx pair w.kl w.kr lv c w.bl w.br s else s
      engineUnit 2 0 (ctx * 6 + pair) strip checkFails s fun s =>
        let v : Views := { left := w.bl.level lv, right := w.br.level lv, w := w.bl.w lv, h := w.bl.h lv }
        let new := (List.range (min 8 (v.h - 8 * strip))).map fun i => (8 * strip + i, (List.range v.w).map fun u => v.disparity c u (8 * strip + i))
        let rows := (if strip = 0 then [] else (w.bl.disp.getD {}).rows) ++ new
        let s := s.updBuf c.left w.kl fun b => { b with disp := b.disp.map fun d => { d with rows := rows } }
        let copy (l : Tab (List Nat)) (s : State) :=
          if bit c.flags 1 then forEach l (fun r s => copyTile ctx 1 (r.1 * ceilDiv (2 * v.w) 256) (dispLine r.2) s) s else s
        if v.h ≤ 8 * strip + 8 then
          let rows := if bit c.flags 0 then medianImage rows else rows
          let s := copy rows (s.updBuf c.left w.kl fun b => { b with stereo := 2, disp := b.disp.map fun d => { d with rows := rows, codes := codeCounts rows } })
          let s := s.updBuf c.right w.kr fun b => { b with stereo := 2 }
          settleStream c.right (settleStream c.left (s.updPairCfg ctx pair fun c => { c with frameSet := none }))
        else copy new s

/-! ### Corners and descriptors -/

/-- The frame of a stream that the corner engine works on, and its cell row's lines. -/
def StreamS.cornerNext (x : StreamS) : Option (Nat × FrameBuf) := x.oldest fun b => b.featWanted && !b.cornersDone && b.done.isNone
def FrameBuf.cornerLines (b : FrameBuf) : Nat := b.feat.cellEdge * (b.corners.length + 1) + 4

/-- The corner unit of a stream that can start. -/
def cornerPending (s : State) (st : Nat) : Option Nat :=
  match (s.streamAt st).cornerNext with
  | some (_, b) => if b.hasRows b.feat.cornerLevel b.cornerLines then some (b.dueTick b.feat.cornerLevel b.cornerLines) else none
  | none => none

/-- CORNER_CELL_ROW (R291 to R296, R311): one row of cells; the first row latches QUOTA (R294). -/
def execCornerCellRow (stream row inst : Nat) (checkFails : Bool) (s : State) : Out :=
  match (s.streamAt stream).cornerNext with
  | none => .next s
  | some (k, b) =>
    let n := b.feat.cornerLevel
    onTrigger (s.engineFree 3 inst && s.poolOk 16 && b.corners.length == row && b.hasRows n b.cornerLines && s.goesFirst cornerPending stream) s fun s =>
      engineUnit 3 inst stream row checkFails s fun s =>
        let quota := b.quota.getD (256 * ((s.sessionAt (s.streamAt stream).ctx).getD {}).level 1)
        settleStream stream (s.updBuf stream k fun b =>
          { b with state := .held, quota := some quota,
                   corners := Tab.put b.corners row (cornerRow (b.level n) (b.w n) (b.h n) b.feat quota row) })

/-- The position of a corner at another level in 1/64 pixel (R300). -/
def atLevel (c n m : Nat) : Int := Int.ofNat (c * 64 * 2 ^ n / 2 ^ m)

/-- The frame of a stream that the descriptor engine works on. -/
def StreamS.descNext (x : StreamS) : Option (Nat × FrameBuf) :=
  x.oldest fun b => b.featWanted && b.usesDescs && !(b.cornersDone && decide (b.cornerAll.length ≤ b.descs.length)) && b.done.isNone

/-- What a corner's descriptor and patch are taken at. -/
structure DescWork where
  bin : Nat := 0
  /-- the learned-descriptor work level, latched (R62, R300) -/
  level : Nat := 0
  u : Int := 0
  v : Int := 0
  deriving DecidableEq, Repr

def FrameBuf.descWork (b : FrameBuf) (level : Nat) (c : Corner) : DescWork :=
  let n := b.feat.cornerLevel
  let lv := b.patchLevel.getD level
  { bin := orientBin (b.level n) (b.w n) (b.h n) c.x c.y, level := lv, u := atLevel c.x n lv, v := atLevel c.y n lv }

/-- Whether the levels hold the lines that a corner's descriptor and patch read (Table 7-8). -/
def FrameBuf.descReady (b : FrameBuf) (d : DescWork) (c : Corner) : Bool :=
  b.hasRows b.feat.cornerLevel (c.y + 16) && (decide (b.feat.descMode < 2) || b.canRead d.level (patchLast b.feat (b.h d.level) d.bin d.u d.v + 1))

/-- The learned-descriptor work level of the session of a stream. -/
def State.descLevel (s : State) (st : Nat) : Nat := ((s.sessionAt (s.streamAt st).ctx).getD {}).level 2

/-- The descriptor unit of a stream that can start. -/
def descPending (s : State) (st : Nat) : Option Nat :=
  match (s.streamAt st).descNext with
  | some (_, b) =>
    ((b.cornerAll.zipIdx.filter fun c => !(Tab.has b.descs c.2) && b.descReady (b.descWork (s.descLevel st) c.1) c.1).map fun c =>
      b.dueTick b.feat.cornerLevel (c.1.y + 16)).min?
  | none => none

/-- DESCRIPTOR_UNIT (R297 to R301, R311): the descriptor and the patch of one corner of a closed cell row. -/
def execDescriptorUnit (stream corner inst : Nat) (checkFails : Bool) (s : State) : Out :=
  match (s.streamAt stream).descNext with
  | none => .next s
  | some (k, b) =>
    match b.cornerAll[corner]? with
    | none => .next s
    | some c =>
      let n := b.feat.cornerLevel
      let d := b.descWork (s.descLevel stream) c
      onTrigger (s.engineFree 4 inst && s.poolOk 16 && !(Tab.has b.descs corner) && b.descReady d c && s.goesFirst descPending stream) s fun s =>
        engineUnit 4 inst stream corner checkFails s fun s =>
          let pat := (s.ctxAt (s.streamAt stream).ctx).pattern
          let o := if b.feat.descMode = 2 then (List.replicate 32 0, false) else describe (b.level n) (b.w n) (b.h n) pat d.bin c.x c.y
          let p := if b.feat.descMode < 2 then ([], false) else patchOf (b.virt d.level) (b.w d.level) (b.h d.level) b.g.u16 b.feat d.bin d.u d.v
          settleStream stream (s.updBuf stream k fun b =>
            { b with state := .held, patchLevel := some d.level,
                     descs := Tab.put b.descs corner { bin := d.bin, desc := o.1, patch := p.1, hole := o.2 || p.2 } })

/-! ### Flow -/

/-- Whether every level holds the rows that a point needs (R308). -/
def FrameBuf.flowRows (b : FrameBuf) (p : FlowPt) : Bool := (List.range b.feat.flowLevels).all fun n => b.hasRows n (p.lastRow b.feat n (b.h n) + 1)

/-- The last needed row of a point, scaled to level 0 (R308). -/
def FrameBuf.flowKey (b : FrameBuf) (p : FlowPt) : Nat := maxD 0 ((List.range b.feat.flowLevels).map fun n => p.lastRow b.feat n (b.h n) * 2 ^ n)

/-- The frame of a stream that the flow engine works on, and the earlier frame that it is paired with (R303). -/
def StreamS.flowNext (x : StreamS) : Option (Nat × FrameBuf × FrameBuf) :=
  match x.oldest fun b => b.featWanted && b.done.isNone, x.prevBuf with
  | some (k, b), some j => if b.usesFlow && x.paired b then some (k, b, Tab.getD x.bufs j {}) else none
  | _, _ => none

/-- The point that starts next: the one of lowest last needed row, then in list order (R308). -/
def StreamS.flowPoint (x : StreamS) (b : FrameBuf) : Option (Nat × FlowPt) :=
  (sortBy (fun (a c : Nat × FlowPt) => decide (b.flowKey a.2 < b.flowKey c.2 ∨ (b.flowKey a.2 = b.flowKey c.2 ∧ a.1 < c.1)))
    ((x.points.zipIdx.map fun e => (e.2, e.1)).filter fun e => !(Tab.has b.flow e.1))).head?

/-- The flow unit of a stream that can start. -/
def flowPending (s : State) (st : Nat) : Option Nat :=
  match (s.streamAt st).flowNext with
  | some (_, b, _) =>
    match (s.streamAt st).flowPoint b with
    | some p => if b.flowRows p.2 then some (maxD 0 ((List.range b.feat.flowLevels).map fun n => b.dueTick n (p.2.lastRow b.feat n (b.h n) + 1))) else none
    | none => none
  | none => none

/-- A level of the earlier and of the current frame. -/
def flowViews (prev b : FrameBuf) (n : Nat) : FlowView × FlowView :=
  let v (x : FrameBuf) : FlowView := { level := x.level n, w := x.w n, h := x.h n }
  (v prev, v b)

/-- FLOW_POINT (R303, R306 to R310): one point of the closed point list; its hint is read here. -/
def execFlowPoint (stream point inst : Nat) (checkFails : Bool) (s : State) : Out :=
  let x := s.streamAt stream
  match x.flowNext with
  | none => .next s
  | some (k, b, prev) =>
    match x.flowPoint b with
    | none => .next s
    | some (i, p) =>
      onTrigger (s.engineFree 5 inst && s.poolOk 16 && i == point && b.flowRows p && s.goesFirst flowPending stream) s fun s =>
        engineUnit 5 inst stream point checkFails s fun s =>
          let f := s.takeFree
          f.2.updBuf stream k fun b =>
            { b with state := .held, flowPair := some x.pointsSet, flow := Tab.put b.flow point (flowResult (flowViews prev b) b.feat p f.1) }

/-! ### The feature block and the point list -/

/-- The next FLOW_ID that no point of the list carries (R305). -/
def nextFlowId (l : List FlowPt) : Nat → Word → Word
  | 0, i => i
  | k + 1, i => if l.any fun p => p.id == i then nextFlowId l k (i + 1) else i

/-- Add the corners to a point list in their order, each at least MIN_SEP from every point, up to FLOW_POINTS points (R304, R305). -/
def addCorners (f : FeatCfg) : List Corner → List FlowPt → Word → List FlowPt × Word
  | [], l, i => (l, i)
  | c :: t, l, i =>
    let u := c.x * 2 ^ f.cornerLevel * 65536
    let v := c.y * 2 ^ f.cornerLevel * 65536
    let far := l.all fun p =>
      let du := Int.ofNat u - Int.ofNat p.u
      let dv := Int.ofNat v - Int.ofNat p.v
      decide (Int.ofNat (f.minSep * 65536) ^ 2 ≤ du * du + dv * dv)
    if l.length < f.flowPoints ∧ far then
      let id := nextFlowId l (l.length + 1) i
      addCorners f t (l ++ [{ id := id, u := u, v := v }]) (id + 1)
    else addCorners f t l i

/-- The point list built at the end of a frame (R304). -/
def buildPoints (f : FeatCfg) (flow : Tab FlowRes) (corners : List Corner) (counter : Word) : List FlowPt × Word :=
  let tracked := sortBy (fun (a b : FlowRes) => decide (a.id < b.id)) ((flow.map (·.2)).filter fun r => r.status == 0)
  addCorners f (sortBy strongerCorner corners) (tracked.map fun r => { id := r.id, u := r.u, v := r.v : FlowPt }) counter

/-- FEATURE_BLOCK_DONE (R295, R302 to R305, R312): every list of the oldest frame is complete; DONE is also what the fabric's completion flag stands for
(R313). -/
def execFeatureBlockDone (stream : Nat) (s : State) : Out :=
  let x := s.streamAt stream
  match x.oldest fun b => b.featWanted && b.done.isNone with
  | none => .next s
  | some (k, b) =>
    let all := b.cornerAll
    let paired := b.usesFlow && x.paired b
    onTrigger (b.complete && b.levelsDone && b.cornersDone && (!b.usesDescs || decide (all.length ≤ b.descs.length))
        && (!paired || decide (x.points.length ≤ b.flow.length))) s fun s =>
      let keep := cornerList (b.quota.getD 0) b.corners
      let idx := (List.range all.length).filter fun i => match all[i]? with | some c => keep.contains c | none => false
      let descs : Tab DescOut := idx.zipIdx.filterMap fun e => (Tab.get? b.descs e.1).map fun d => (e.2, d)
      let s := if bit b.feat.patchFlags 2 then
          forEach descs (fun e s =>
            copyTile x.ctx 0 (e.1 * ceilDiv (b.feat.patchEdge * b.feat.patchEdge) 256) (patchBytes e.2) s) s
        else s
      let s := s.updBuf stream k fun b =>
        { b with corners := Tab.mapVals b.corners fun _ r => r.filter keep.contains, descs := descs, done := some b.frameSet,
                 pairedSet := if paired then x.pointsSet.getD 0xFFFFFFFF else 0xFFFFFFFF }
      let s := if b.usesFlow then
          let l := buildPoints b.feat b.flow keep x.flowId
          let s := s.updStream stream fun x => { x with points := l.1, flowId := l.2, pointsSet := some b.frameSet, pointsFrame := b.frame, prevBuf := some k }
          if paired then s else s.raiseCtx x.ctx 0x8503 (stream * 256 + min 255 (b.frame - x.pointsFrame))
        else s
      settleStream stream s

/-! ### Commands on streams -/

/-- Continue with a bound stream of the sender's context, named by W3 [4:0]. -/
def withStream (m : Cmd) (s : State) (k : Nat → StreamS → State) : State :=
  let n := fld (m.w 3) 4 0
  match Tab.get? s.streams n with
  | some x => if x.ctx = m.ctx then k n x else s.badWord m.ref 3
  | none => s.badWord m.ref 3

/-- A remap grid in bytes (Tables 6-2, 6-3). -/
def parseGrid (b : List Byte) : Grid :=
  let g : Grid := { srcW := leAt b 0 2, srcH := leAt b 2 2, outW := leAt b 4 2, outH := leAt b 6 2, version := wordAt b 12,
                    u16 := leAt b 16 1 % 4 == 1, inShift := leAt b 16 1 / 16 }
  let n := g.nodesX * g.nodesY
  let nodes := (List.range n).map fun i => (sext 32 (leAt b (32 + 8 * i) 4), sext 32 (leAt b (36 + 8 * i) 4))
  { g with nodes := nodes, noSource := (List.range n).filter fun i => leAt b (32 + 8 * i) 4 == 0x80000000 }

/-- The latest grid of a stream: the shadow's when one waits. -/
def StreamS.latestGrid (x : StreamS) : Grid := match x.shadow with | some e => e.1 | none => x.grid.getD {}
/-- The latest chain descriptor and FEAT_CFG written. -/
def StreamS.latestChain (x : StreamS) : ChainCfg := x.chainNext.getD x.chain
def StreamS.latestFeat (x : StreamS) : FeatCfg := x.featNext.getD x.feat

/-- The other stream of a stream's pair. -/
def partnerStream (s : State) (n : Nat) (x : StreamS) : Option StreamS :=
  match (s.ctxAt x.ctx).pairs.find? fun e => e.2.left == n || e.2.right == n with
  | some e => Tab.get? s.streams (if e.2.left = n then e.2.right else e.2.left)
  | none => none

/-- Whether a grid is one that R245 accepts for a stream. -/
def gridOk (s : State) (n : Nat) (x : StreamS) (b : List Byte) : Bool :=
  let g := parseGrid b
  decide (64 ≤ g.outW ∧ g.outW ≤ 8192 ∧ g.outW % 16 = 0 ∧ 64 ≤ g.outH ∧ g.outH ≤ 8192 ∧ g.outH % 2 = 0
    ∧ leAt b 8 2 = g.nodesX ∧ leAt b 10 2 = g.nodesY ∧ leAt b 16 1 % 4 < 2 ∧ g.inShift ≤ 8
    ∧ g.srcW = x.width ∧ g.srcH = x.height ∧ 32 + 8 * (g.nodesX * g.nodesY) ≤ b.length)
  && (match partnerStream s n x with
      | some y => decide (y.latestGrid.outW = g.outW ∧ y.latestGrid.outH = g.outH)
      | none => true)
  && (List.range (ceilDiv g.outH 16)).all fun row => decide (g.lastLine row < g.firstLine row + 512)

/-- REMAP_LOAD (R244, R245, R251, R253). -/
def execRemapLoad (c : CmdRef) (s : State) : Out :=
  onCmd 0x0500 c s fun m s =>
    withStream m s fun n x =>
      withSg m 4 s fun b =>
        if gridOk s n x b = false then s.badWord c 4
        else if x.shadow.isSome then s.refuseOpen c BUSY
        else (s.updStream n fun x => { x with shadow := some (parseGrid b, s.devNs) }).done c

/-- The bytes of `k` words of a command from word `i`. -/
def Cmd.bytesAt (m : Cmd) (i k : Nat) : List Byte := wordsBytes ((List.range k).map fun j => m.w (i + j))

/-- Put a default where a field of `n` bytes at `off` holds zero (R695). -/
def zeroDefault (b : List Byte) (off n dflt : Nat) : List Byte :=
  if leAt b off n = 0 then b.take off ++ leBytes n dflt ++ b.drop (off + n) else b

/-- Whether two streams are driven by Reel entries with the same START and PERIOD (R261). -/
def sameTrigger (s : State) (a b : StreamS) : Bool :=
  match a.entry, b.entry with
  | some i, some j => decide ((s.reelAt i).start = (s.reelAt j).start ∧ (s.reelAt i).period = (s.reelAt j).period)
  | _, _ => false

/-- The largest value of a stream's OUT_FORMAT (Table 6-4). -/
def StreamS.largest (x : StreamS) : Nat := if x.latestGrid.u16 then 65535 else 255

/-- The word of STEREO_CONFIG that fails, if one does (Table 6-4, R261, R245). -/
def stereoBad (s : State) (ctx : Nat) (b : List Byte) : Option Nat :=
  let l := Tab.get? s.streams (leAt b 0 1)
  let r := Tab.get? s.streams (leAt b 1 1)
  let ok : Bool := match l, r with
    | some l, some r => l.ctx == ctx && r.ctx == ctx && leAt b 0 1 != leAt b 1 1 && sameTrigger s l r
        && l.latestGrid.outW == r.latestGrid.outW && l.latestGrid.outH == r.latestGrid.outH
    | _, _ => false
  if !ok ∨ 192 < leAt b 2 1 ∨ 3 < leAt b 3 1 ∨ 256 < leAt b 2 1 + 64 * (leAt b 3 1 + 1) then some 4
  else if 63 < leAt b 4 1 ∨ leAt b 5 1 ≤ leAt b 4 1 ∨ (15 < leAt b 6 1 ∧ leAt b 6 1 ≠ 0xFF) ∨ 50 < leAt b 7 1 then some 5
  else if 62 < leAt b 8 1 ∨ (15 < leAt b 9 1 ∧ leAt b 9 1 ≠ 0xFF) then some 6
  else none

/-- STEREO_CONFIG (R261, R262): the block waits for the next frame set of the pair. -/
def execStereoConfig (c : CmdRef) (s : State) : Out :=
  onCmd 0x0501 c s fun m s =>
    let p := fld (m.w 3) 2 0
    if (s.pairCfgAt m.ctx p).isNone then s.badWord c 3
    else
      let b := zeroDefault (zeroDefault (m.bytesAt 4 4) 4 1 8) 5 1 96
      let b := zeroDefault b 12 2 (s.streamAt (leAt b 0 1)).largest
      match stereoBad s m.ctx b with
      | some i => s.badWord c i
      | none => (s.updPairCfg m.ctx p fun x => { x with next := b }).done c

/-- The word of CHAIN_CONFIG that fails, if one does (Table 6-6, R281): a stereo stream keeps the whole stereo range of Table 2-2, levels 0 to 2. -/
def chainBad (s : State) (n : Nat) (x : StreamS) (b : List Byte) : Option Nat :=
  let role := leAt b 1 1
  let pair := leAt b 2 1
  let mask := BitVec.ofNat 8 (leAt b 4 1)
  let agrees : Bool :=
    if role = 0 then pair == 0xFF && !((s.ctxAt x.ctx).pairs.any fun e => e.2.left == n || e.2.right == n)
    else match s.pairCfgAt x.ctx pair with
      | some p => (role == 1 && p.left == n) || (role == 2 && p.right == n)
      | none => false
  if 23 < leAt b 0 1 ∨ !agrees then some 4
  else if bit mask 0 = false ∨ (role ≠ 0 ∧ ((List.range 3).any fun l => !(bit mask l)) = true) then some 5
  else none

/-- CHAIN_CONFIG (R280, R281): the descriptor waits for the next frame of the stream. -/
def execChainConfig (c : CmdRef) (s : State) : Out :=
  onCmd 0x0502 c s fun m s =>
    withStream m s fun n x =>
      let b := m.bytesAt 4 8
      match chainBad s n x b with
      | some i => s.badWord c i
      | none => (s.updStream n fun x =>
          { x with chainNext := some { role := leAt b 1 1, pair := leAt b 2 1, remapEn := leAt b 3 1 % 2 == 1, levelMask := BitVec.ofNat 8 (leAt b 4 1 % 64),
                                       next := BitVec.ofNat 8 (leAt b 5 1 % 8) } }).done c

/-- A FEAT_CFG block (Table 7-2) with the defaults of R695. -/
def parseFeat (b : List Byte) : FeatCfg :=
  let d (off n dflt : Nat) := if leAt b off n = 0 then dflt else leAt b off n
  { cornerLevel := leAt b 1 1, arc := d 2 1 9, cell := leAt b 3 1, thresh := d 4 2 20, border := d 6 1 18, descMode := leAt b 7 1,
    patchSize := leAt b 8 1, patchFlags := BitVec.ofNat 8 (leAt b 9 1 % 8), flowLevels := d 10 1 4, win := leAt b 11 1, maxIter := d 12 1 8,
    gapLimit := d 13 1 2, flowPoints := d 14 2 1024, maxErr := d 16 2 192, minEig := leAt b 18 2, minSep := leAt b 20 1, fbTol := leAt b 21 1,
    maxDisp := d 22 2 256 }

/-- The word of FEATURE_CONFIG that fails, if one does (R290). -/
def featBad (x : StreamS) (stream : Nat) (f : FeatCfg) : Option Nat :=
  let m := x.latestChain.levelMask
  let g := x.latestGrid
  let cells := cellsX f (levelSize g.outW f.cornerLevel) * cellRows f (levelSize g.outH f.cornerLevel)
  if 23 < stream ∨ 3 < f.cornerLevel ∨ bit m f.cornerLevel = false ∨ f.arc < 9 ∨ 12 < f.arc ∨ 2 < f.cell ∨ 4096 < cells then some 4
  else if f.border < 3 ∨ 64 < f.border ∨ 3 < f.descMode ∨ (f.descMode % 2 = 1 ∧ f.border < 18) then some 5
  else if 3 < f.patchSize ∨ 4 < f.flowLevels ∨ ((List.range f.flowLevels).any fun l => !(bit m l)) = true ∨ 3 < f.win then some 6
  else if 16 < f.maxIter ∨ 4 < f.gapLimit ∨ f.flowPoints < 64 ∨ 8192 < f.flowPoints ∨ f.flowPoints % 64 ≠ 0 then some 7
  else if 32 < f.minSep ∨ 1024 < f.maxDisp then some 9
  else none

/-- FEATURE_CONFIG (R289, R290): the block waits for the next frame of the stream. -/
def execFeatureConfig (c : CmdRef) (s : State) : Out :=
  onCmd 0x0503 c s fun m s =>
    withStream m s fun n x =>
      let b := m.bytesAt 4 8
      match featBad x (leAt b 0 1) (parseFeat b) with
      | some i => s.badWord c i
      | none => (s.updStream n fun x => { x with featNext := some (parseFeat b) }).done c

/-- DESC_PATTERN_LOAD (R299). -/
def execDescPatternLoad (c : CmdRef) (s : State) : Out :=
  onCmd 0x0504 c s fun m s =>
    if (s.sessionAt m.ctx).isSome then s.refuseOpen c BUSY
    else if bit (m.w 3) 0 then (s.updCtx m.ctx fun x => { x with pattern := [] }).done c
    else withSg m 4 s fun b =>
      let l := (List.range 1024).map fun i => sext 8 (leAt b i 1)
      if b.length ≠ 1024 then s.badWord c 7
      else if (List.range 512).any fun i => decide (169 < l.getD (2 * i) 0 ^ 2 + l.getD (2 * i + 1) 0 ^ 2) then s.badWord c 4
      else (s.updCtx m.ctx fun x => { x with pattern := l }).done c

/-- The chain descriptor in bytes (Table 6-6). -/
def chainBytes (n : Nat) (x : StreamS) : List Byte :=
  let c := x.latestChain
  leBytes 1 n ++ leBytes 1 c.role ++ leBytes 1 c.pair ++ leBytes 1 (if c.remapEn then 1 else 0) ++ [c.levelMask, c.next] ++ zeros 2
    ++ wBytes (x.grid.getD {}).version ++ wBytes (match x.shadow with | some e => e.1.version | none => 0xFFFFFFFF) ++ zeros 16

/-- FEAT_CFG in bytes (Table 7-2). -/
def featBytes (n : Nat) (f : FeatCfg) : List Byte :=
  leBytes 1 n ++ leBytes 1 f.cornerLevel ++ leBytes 1 f.arc ++ leBytes 1 f.cell ++ leBytes 2 f.thresh ++ leBytes 1 f.border ++ leBytes 1 f.descMode
    ++ leBytes 1 f.patchSize ++ [f.patchFlags] ++ leBytes 1 f.flowLevels ++ leBytes 1 f.win ++ leBytes 1 f.maxIter ++ leBytes 1 f.gapLimit
    ++ leBytes 2 f.flowPoints ++ leBytes 2 f.maxErr ++ leBytes 2 f.minEig ++ leBytes 1 f.minSep ++ leBytes 1 f.fbTol ++ leBytes 2 f.maxDisp ++ zeros 8

/-- STEREO_CFG in bytes (Table 6-4). -/
def stereoBytes (c : PairCfg) : List Byte :=
  let c := if c.next = [] then c else c.ofBytes c.next
  leBytes 1 c.left ++ leBytes 1 c.right ++ leBytes 1 c.minDisp ++ leBytes 1 c.numDisp ++ leBytes 1 c.p1 ++ leBytes 1 c.p2 ++ leBytes 1 c.adaptShift
    ++ leBytes 1 c.uniq ++ leBytes 1 c.texThresh ++ leBytes 1 c.lrTol ++ [c.flags] ++ leBytes 1 c.level ++ leBytes 2 c.satLevel ++ zeros 2

/-- VISION_READ (Table 16-9): W5 to W12 hold the block; a STEREO_CFG is followed by zeros. -/
def execVisionRead (c : CmdRef) (s : State) : Out :=
  onCmd 0x0507 c s fun m s =>
    let what := fld (m.w 3) 9 8
    if what = 2 then
      match s.pairCfgAt m.ctx (fld (m.w 3) 4 0) with
      | some p => s.done c OK 0 (bytesWords 8 (stereoBytes p))
      | none => s.badWord c 3
    else if what = 3 then s.badWord c 3
    else withStream m s fun n x => s.done c OK 0 (bytesWords 8 (if what = 0 then chainBytes n x else featBytes n x.latestFeat))

/-! ### Quadrille (R321 to R325) -/

/-- A graph node in bytes (Table 7-11). -/
def parseNode (b : List Byte) : QNode :=
  { kind := leAt b 0 1 / 16, inst := BitVec.ofNat 8 (leAt b 1 1), pred := slice b 2 4, check := bit (wordAt b 6) 0, stopOnFail := bit (wordAt b 6) 1,
    inAddr := leAt b 8 8, outAddr := leAt b 16 8, cfgOffset := leAt b 24 2, crc := wordAt b 28 }

/-- Whether a graph is one that R321 and Table 7-11 accept. Its header is NODES, PARAM_LEN and GRAPH_VERSION as three words (assumption 6). -/
def graphOk (s : State) (b : List Byte) : Bool :=
  let n := leAt b 0 4
  let limit := 65536 * (s.ctxAt 0).hbmHeld
  decide (1 ≤ n ∧ n ≤ 64 ∧ b.length = 16 + 32 * n + leAt b 4 4) && (List.range n).all fun i =>
    let q := parseNode (slice b (16 + 32 * i) 32)
    decide (q.kind ≤ 5 ∧ (q.inst = 0xFF ∨ q.inst.toNat < engineCount q.kind) ∧ q.inAddr < limit ∧ q.outAddr < limit ∧ q.cfgOffset ≤ leAt b 4 4)
      && q.pred.all fun p => p == 0xFF || decide (p.toNat < i)

/-- QUADRILLE_LOAD (R321). -/
def execQuadrilleLoad (c : CmdRef) (s : State) : Out :=
  onCmd 0x0505 c s fun m s =>
    let slot := fld (m.w 3) 3 0
    if m.ctx ≠ 0 then s.refuseOpen c NOT_OWNER
    else if slot < 8 then s.badWord c 3
    else if s.quad.running.any fun r => r.1 == slot then s.refuseOpen c BUSY
    else withSg m 4 s fun b =>
      if graphOk s b = false then s.badWord c 4
      else
        let nodes := (List.range (leAt b 0 4)).map fun i => parseNode (slice b (16 + 32 * i) 32)
        { s with quad := { s.quad with slots := Tab.put s.quad.slots slot nodes } }.done c

/-- Whether a node runs on the one instance of its kind that the graph may take beside a pose session (R323): that of the graph's first node of the kind. -/
def heldBack (g : List QNode) (q : QNode) : Bool := (g.find? fun p => p.kind == q.kind).any fun p => p.instance_ == q.instance_

/-- QUADRILLE_RUN (R321, R323): it ends with its last node. A graph that names two instances of a kind finds none held back for the second. -/
def execQuadrilleRun (c : CmdRef) (s : State) : Out :=
  onCmd 0x0506 c s fun m s =>
    let slot := fld (m.w 3) 3 0
    let g := graphAt s slot
    if m.ctx ≠ 0 then s.refuseOpen c NOT_OWNER
    else if g = [] then s.badWord c 3
    else if s.quad.running.isSome ∨ (s.poseSession ∧ (g.any fun q => q.kind == 2 || !heldBack g q || decide (s.poolSize q.kind < engineCount q.kind)) = true) then s.refuseOpen c BUSY
    else { s with quad := { s.quad with running := some (slot, c), results := [] } }

/-- Whether a node may start: it has not run and all its predecessors have passed (R322). -/
def nodeReady (g : List QNode) (res : Tab Nat) (i : Nat) : Bool :=
  match g[i]? with
  | some q => !(Tab.has res i) && q.pred.all fun p => p == 0xFF || Tab.getD res p.toNat 0 == 1
  | none => false

/-- End the running graph: 0 passed, 1 failed (R322, R325). -/
def State.endGraph (s : State) (slot : Nat) (c : CmdRef) (g : List QNode) : State :=
  let res := s.quad.results
  let failed := (List.range g.length).any fun i => decide (2 ≤ Tab.getD res i 0)
  let s := ({ s with quad := { s.quad with running := none } }).raise 0x8506 (slot * 256 + (if failed then 1 else 0))
  match s.findCmd c with
  | some m =>
    s.doneOut m 4 ((List.range g.length).map fun i => BitVec.ofNat 8 (Tab.getD res i 0)) [w32 (if failed then 1 else 0), w32 res.length]
  | none => s

/-- An ABORT of a QUADRILLE_RUN (R325): the running graph ends when it is this command's; one that has not taken its graph yet just ends. -/
def State.abortGraph (s : State) (c : CmdRef) : State :=
  match s.quad.running with
  | some (slot, d) =>
    if d = c then (({ s with quad := { s.quad with running := none } }).raise 0x8506 (slot * 256 + 2)).refuseOpen c ABORTED else s.refuseOpen c ABORTED
  | none => s.refuseOpen c ABORTED

/-- QUADRILLE_NODE (R322, R323): the ready node of lowest index runs on its instance, or on the last of its kind; beside a pose session that started
after the graph, a node of the stereo engine or of a second instance of a kind waits. The graph ends when no node is ready. A node that fails without STOP_ON_FAIL leaves its successors unrun as well, since they start only when it has passed. -/
def execQuadrilleNode (node : Nat) (output : List Byte) (checkFails : Bool) (s : State) : Out :=
  match s.quad.running with
  | none => .next s
  | some (slot, c) =>
    let g := graphAt s slot
    let q := g.getD node {}
    let allowed := !s.poseSession || (q.kind != 2 && heldBack g q)
    onTrigger (((List.range g.length).find? fun i => nodeReady g s.quad.results i) == some node && s.poolOk 16 && allowed) s fun s =>
      let s := s.spend 16
      let inst := q.instance_
      let r := if checkFails then 3 else if q.check ∧ crc32 output ≠ q.crc then 2 else 1
      let s := if checkFails ∧ s.inPool q.kind inst then s.engineFails q.kind inst else s
      let mem := if 8 ≤ slot ∧ checkFails = false then putBytes s.quad.mem q.outAddr output else s.quad.mem
      let s := { s with quad := { s.quad with results := Tab.put s.quad.results node r, mem := mem } }
      if (List.range g.length).any fun i => nodeReady g s.quad.results i then s else s.endGraph slot c g

end Sys2Proof.Machine
end

