-- ==== Sys2Proof/Machine/Ingest.lean ====
section
/-! DEFINITION. What arrives at the module: Reel pulses and frame sets (chapters 2 and 3), camera frames, lidar packets, inertial samples
and CAN frames (chapter 4), and FORMAT_WRITE. -/

namespace Sys2Proof.Machine

/-! ### Sessions, streams and bindings -/

/-- The session of a context that binds a port, by its binding entry (Table 16-4). -/
def bindingOf (s : State) (port : Nat) : Option (Nat × List Byte) :=
  match (s.portAt port).owner with
  | none => none
  | some n =>
    match s.sessionAt n with
    | none => none
    | some x => (x.bindings.find? fun b => leAt b 0 1 == port).map fun b => (n, b)

/-- The Reel entry that drives the sync input of a binding, if one does (R190, R193, R702). -/
def syncEntry (s : State) (n : Nat) (b : List Byte) : Option Nat :=
  let t := leAt b 12 1
  match s.sessionAt n with
  | none => none
  | some x => if t < 12 ∨ 21 < t then none else x.entries.find? fun e => (s.reelAt e).target.toNat == t && (s.reelAt e).state != 0

/-- The streams of a session, by number. -/
def sessionStreams (s : State) (n : Nat) : List (Nat × StreamS) := s.streams.filter fun e => e.2.ctx == n

/-- The sensor key of a camera stream. -/
def StreamS.key (x : StreamS) : Nat := sensorKey x.port x.vc

/-- Whether a stream is expected in frame set `k`: a triggered camera whose turn it is, or a free-running camera that is aligned and runs at the
frame-set rate (R74, R76, R375). -/
def expectedIn (s : State) (n k : Nat) (x : StreamS) : Bool :=
  let p := ((s.sessionAt n).getD {}).periodNs
  if x.divisor ≠ 0 then decide (k % x.divisor = 0)
  else !(((s.sessionAt n).getD {}).unaligned.contains x.key) && decide (2 * (s.entryOf n x.key).nominal.toNat < 3 * p)

/-! ### Closing a frame set (R74, R75, R278, R314) -/

/-- A frame set ends for a stream that contributes nothing to it: no features, no matching, no fabric reader. -/
def FrameBuf.excluded (b : FrameBuf) : FrameBuf := { b with skipped := true, stereo := 2, fabricDone := true }

/-- Match nothing for a pair in a frame set: the buffers of its two streams wait for no matching. -/
def unpair (n p : Nat) (set : Word) (s : State) : State :=
  match s.pairCfgAt n p with
  | none => s
  | some c =>
    let clear (x : StreamS) : StreamS := { x with bufs := Tab.mapVals x.bufs fun _ b => if b.state ≠ .free ∧ b.frameSet = set ∧ b.stereo ≠ 2 then { b with stereo := 2, disp := none } else b }
    let s := (s.updStream c.left clear).updStream c.right clear
    settleStream c.right (settleStream c.left (s.updPairCfg n p fun c => if c.frameSet = some set then { c with frameSet := none } else c))

/-- FEATURES_SKIPPED cause 1: a frame of a stream with feature work contributes nothing to its frame set (R314). -/
def lateFeatures (n st : Nat) (s : State) : State :=
  if (s.streamAt st).chain.next.toNat % 8 ≠ 0 then s.raiseCtx n 0x8502 (st * 256 + 1) else s

/-- A stream is missing from a frame set: FEATURES_SKIPPED cause 1, and its pair is not matched (R278, R314). -/
def missStream (n : Nat) (set : Word) (st : Nat) (s : State) : State :=
  let s := s.updStream st fun x => { x with bufs := Tab.mapVals x.bufs fun _ b => if b.state ≠ .free ∧ b.frameSet = set then b.excluded else b }
  let s := lateFeatures n st s
  settleStream st s

/-- The pairs of which a stream of the list is a member. -/
def pairsOf (s : State) (n : Nat) (l : List Nat) : List Nat :=
  ((s.ctxAt n).pairs.filter fun e => l.contains e.2.left || l.contains e.2.right).map (·.1)

/-- Close a frame set now: the streams that have not landed contribute nothing (R74, R75). -/
def closeSet (n k : Nat) (s : State) : State :=
  match s.sessionAt n with
  | none => s
  | some x =>
    let f := Tab.getD x.sets k {}
    let missing := f.expected.filter fun st => !f.landed.contains st
    let s := s.updSession n fun x =>
      { x with sets := Tab.put x.sets k { f with closed := some s.devNs, partialIn := !missing.isEmpty }, setsClosed := (x.setsClosed + 1) % 2 ^ 32 }
    let s := forEach missing (fun st s => missStream n (w32 k) st s) s
    forEach (pairsOf s n missing) (fun p s => unpair n p (w32 k) (s.raiseCtx n 0x8501 (p * 256 + 1))) s

/-- A stream has landed in a frame set; the set closes with its last expected stream (R74). A frame after the close contributes nothing (R314, R370). -/
def landStream (n k st : Nat) (s : State) : State :=
  match s.sessionAt n with
  | none => s
  | some x =>
    match Tab.get? x.sets k with
    | none => s
    | some f =>
      if f.closed.isSome then (if f.expected.contains st then s else missStream n (w32 k) st s)
      else
        let f := { f with expected := if f.expected.contains st then f.expected else f.expected ++ [st], landed := f.landed ++ [st] }
        let s := s.updSession n fun x => { x with sets := Tab.put x.sets k f }
        if f.expected.all f.landed.contains then closeSet n k s else s

/-- CLOSE_DEADLINE (R74, R75): the oldest open frame set of a context, 500 µs after its latest expected end of readout. -/
def execCloseDeadline (ctx : Nat) (s : State) : Out :=
  match s.sessionAt ctx with
  | none => .next s
  | some x =>
    match (sortBy (fun (a b : Nat × FrameSet) => decide (a.2.instant < b.2.instant)) (x.sets.filter fun e => e.2.closed.isNone)).head? with
    | none => .next s
    | some (k, f) => onTrigger (decide (f.readoutEnd + 500000 ≤ s.devNs)) s (closeSet ctx k)

/-! ### Reel pulses -/

/-- Whether the shadow grid of a stream may become active at a Reel instant (R251): 1 ms after its commit, and for a pair both grids together. -/
def gridReady (s : State) (st : Nat) (x : StreamS) (instant : Nat) : Bool :=
  let ready (y : StreamS) : Bool := y.shadow.all fun g => decide (g.2 + 1000000 ≤ instant)
  x.shadow.isSome && ready x && (match partnerStream s st x with | some y => ready y | none => true)

/-- Activate the grids and the sensor entries that take effect at a frame set (R251, R331, R840). -/
def applyAtSet (n instant : Nat) (s : State) : State :=
  let go := (sessionStreams s n).filter fun e => gridReady s e.1 e.2 instant
  let s := forEach go (fun e s =>
    match e.2.shadow with
    | some g => (s.updStream e.1 fun x => { x with grid := some g.1, shadow := none }).raiseCtx n 0x8500 (e.1 * 256 + g.1.version.toNat % 256)
    | none => s) s
  s.updCtx n fun c =>
    let due := c.rigDue.filter fun e => decide (e.2.2 + 1000000 ≤ instant)
    { c with rigDue := c.rigDue.filter (fun e => !decide (e.2.2 + 1000000 ≤ instant)), inUse := due.foldl (fun t e => Tab.put t e.1 e.2.1) c.inUse }

/-- T_VALID of the POSE_OPT and TRACK_LIST of a frame set, by the entry and the grid that the set uses (Table 8-4). -/
def setValid (s : State) (n instant : Nat) : Int :=
  match (sessionStreams s n).find? fun e => e.2.master with
  | some (_, x) =>
    let e := s.entryOf n x.key
    let h := match x.grid with
      | some g => if (x.chainNext.getD x.chain).remapEn then g.outH else g.srcH
      | none => x.height
    Int.ofNat instant + e.offset + e.lineNs (h / 2)
  | none => Int.ofNat instant

/-- The latest expected end of readout of a frame set (R74). How long a camera reads out is not given (assumption 16, place 60). -/
def expectedEnd (s : State) (instant : Nat) (streams : List Nat) : Nat :=
  instant + maxD 0 (streams.map fun st => Config.openVal 60 ((s.streamAt st).height * 65536 + st) % 2 ^ 30)

/-- Begin frame set `k` of a session at a Reel instant (R151, R152, R335); COUNTER_WRAP also where the pulses passed over hold the wrap (R149). -/
def beginSet (n k : Nat) (s : State) : State :=
  match s.sessionAt n with
  | none => s
  | some x =>
    if x.stopping then s
    else
      let num := k % 2 ^ 32
      let s := if 2 ^ 32 ≤ k ∧ (x.nextSet + (2 ^ 32 - 1)) / 2 ^ 32 ≤ k / 2 ^ 32 then s.raise 0x8305 1 else s
      let s := applyAtSet n s.devNs s
      let here := sessionStreams s n
      let early := here.filter fun e => e.2.bufs.any fun b => b.2.state != .free && b.2.complete && b.2.frameSet == w32 num && !b.2.skipped
      let due := (here.filter fun e => expectedIn s n k e.2).map (·.1)
      let f : FrameSet := { instant := s.devNs, expected := due, valid := setValid s n s.devNs, readoutEnd := expectedEnd s s.devNs due }
      let s := s.updSession n fun x => { x with sets := Tab.put x.sets num f, nextSet := k + 1 }
      forEach early (fun e s => landStream n num e.1 s) s

/-- REEL_PULSE_RISE (R142, R143, R149, R151, R974): the next pulse of an armed entry. -/
def execReelPulseRise (entry : Nat) (s : State) : Out :=
  let e := s.reelAt entry
  let n := e.nextPulse
  onTrigger (decide (entry < 64) && s.mainOn && !s.time.held && e.state == 2 && !e.doneAt n && decide (e.instant n ≤ s.devNs)
      && e.lastRise.all (fun t => decide (e.period.toNat / 2 ≤ s.since t))) s fun s =>
    let s := s.updReel entry fun e =>
      { e with pulses := e.pulses ++ [(e.target.toNat, s.time.ticks + e.width.toNat / 2)], lastRise := some s.time.ticks,
               prevInstant := e.lastInstant, lastInstant := s.devNs, lastNumber := n, fired := e.fired + 1, nextPulse := e.after n }
    if bit e.control 0 then
      forEach (s.sessionCtxs.filter fun c => ((s.sessionAt c).getD {}).masterEntry == some entry) (fun c s => beginSet c n s) s
    else s

/-! ### Camera frames -/

/-- The stream of a port and a virtual channel (R166, R174). -/
def streamOf (s : State) (port vc : Nat) : Option (Nat × StreamS) := s.streams.find? fun e => e.2.port == port && e.2.vc == vc

/-- Drop a frame: its buffer is free again, its pair is not matched (R169, R181). -/
def dropFrame (st k cause : Nat) (s : State) : State :=
  let x := s.streamAt st
  let b := Tab.getD x.bufs k {}
  let s := s.updStream st fun x =>
    { x with bufs := Tab.put x.bufs k { order := x.clock }, clock := x.clock + 1, cur := none, dropEvents := x.dropEvents + 1 }
  let s := s.raiseCtx x.ctx 0x8202 (st * 256 + cause)
  forEach (pairsOf s x.ctx [st]) (fun p s => unpair x.ctx p b.frameSet s) s

/-- The frame set of a frame: of a triggered camera the one of the latest pulse within TRIG_WINDOW (R177), else the nearest to the stamp within
half a frame period, the next programmed one included (R178). -/
def setOfFrame (s : State) (x : StreamS) (stamp : Nat) : Option (Nat × Nat) :=
  match s.sessionAt x.ctx with
  | none => none
  | some y =>
    match x.entry with
    | some e =>
      let r := s.reelAt e
      if r.lastRise.isSome ∧ r.lastInstant ≤ stamp ∧ stamp ≤ r.lastInstant + (s.portAt x.port).trigUs * 1000 then
        (y.sets.find? fun f => f.2.instant == r.lastInstant).map fun f => (f.1, f.2.instant)
      else none
    | none =>
      let next := match y.masterEntry with
        | some e => let r := s.reelAt e; if r.state = 2 then [(r.nextPulse % 2 ^ 32, r.instant r.nextPulse)] else []
        | none => []
      let all := y.sets.map (fun f => (f.1, f.2.instant)) ++ next
      let off (f : Nat × Nat) : Nat := (Int.ofNat stamp - Int.ofNat f.2).natAbs
      let near := all.filter fun f => decide (2 * off f ≤ (s.entryOf x.ctx x.key).nominal.toNat)
      (sortBy (fun a b => decide (off a < off b)) near).head?

/-- Count the corrected packet headers of a port (R169). -/
def countHeaders (p k : Nat) (s : State) : State := s.updPort p fun q => { q with errors := satU 32 (q.errors + k) }

/-- The grid of a frame of a frame set (R251, R252): a frame that starts before its set's Reel instant already takes the shadow grid that the set makes
active. -/
def gridOfFrame (s : State) (st instant : Nat) : Option Grid :=
  let x := s.streamAt st
  if s.devNs < instant ∧ gridReady s st x instant then x.shadow.map (·.1) else x.grid

/-- FRAME_START (R176 to R178, R181, R182): the frame is stamped, finds its frame set and takes the oldest FREE buffer. -/
def execFrameStart (port vc headerErrors : Nat) (s : State) : Out :=
  match streamOf s port vc with
  | none => .next s
  | some (st, x) =>
    let s := countHeaders port headerErrors s
    onTrigger ((s.portAt port).state == .streaming) s fun s =>
      let s := s.updPort port fun q => { q with lastData := s.time.ticks }
      let s := match x.cur with | some k => dropFrame st k 3 s | none => s
      let s := s.updStream st fun x => { x with frames := x.frames + 1 }
      let free := x.divisor == 0
      let stamp := if free then firmwareStamp s else (s.devNs, s)
      let s := stamp.2
      let al := if free then s.alignSample x.ctx port vc stamp.1 else (s, false)
      let s := al.1
      let x := s.streamAt st
      if al.2 then s
      else match setOfFrame s x stamp.1 with
      | none => (s.updStream st fun x => { x with dropEvents := x.dropEvents + 1 }).raiseCtx x.ctx 0x8202 (st * 256 + 4)
      | some (num, instant) =>
        let bufs := (List.range x.nbufs).map fun k => (k, Tab.getD x.bufs k {})
        match (sortBy (fun (a b : Nat × FrameBuf) => decide (a.2.order < b.2.order)) (bufs.filter fun e => e.2.state == .free)).head? with
        | none => (s.updStream st fun x => { x with dropEvents := x.dropEvents + 1 }).raiseCtx x.ctx 0x8202 (st * 256 + 1)
        | some (k, _) =>
          let set := match s.sessionAt x.ctx with | some y => Tab.getD y.sets num {} | none => {}
          let closed := set.closed.isSome
          let s := if closed ∧ set.expected.contains st = false then lateFeatures x.ctx st s else s
          let b : FrameBuf := { state := .filling, order := x.clock, frame := x.frames, tSof := stamp.1, reel := instant, frameSet := w32 num,
                                flags := if free then 1 else 0, grid := gridOfFrame s st instant, chain := x.chain, feat := x.feat }
          s.updStream st fun x => { x with bufs := Tab.put x.bufs k (if closed then b.excluded else b), clock := x.clock + 1, cur := some k }

/-- Bits of a stored pixel of a data type (R167, R180); YUV422 keeps the luma. -/
def pixelBits (dt : Byte) : Nat := if dt = 0x2B then 10 else if dt = 0x2C then 12 else if dt = 0x2E then 16 else 8

/-- A line cut to `n` pixels of `bits` bits. -/
def fitLine (n bits : Nat) (l : List Nat) : List Nat := (List.range n).map fun i => l.getD i 0 % 2 ^ bits

/-- The pixels that a port takes from a line (R167): a line of another data type than the stream's is discarded (DESIGN CHOICE, entry 4, for a type that
the port accepts), and of YUV422, sent as U, Y, V, Y, the luma is kept. -/
def linePixels (l : VideoLine) (dt : Byte) : Option (List Nat) :=
  if l.dataType ≠ dt then none
  else if dt = 0x1E then some ((List.range (l.px.length / 2)).map fun i => l.px.getD (2 * i + 1) 0)
  else some l.px

/-- The stored lines that received lines make (R167, R168): with BAYER_BIN two lines make one of half the width. -/
def storeLines (x : StreamS) (b : FrameBuf) (lines : List VideoLine) : FrameBuf :=
  let bits := pixelBits x.dataType
  (lines.filterMap fun l => linePixels l x.dataType).foldl (fun b l =>
    let b := { b with received := b.received + 1 }
    if x.binned then
      let l := fitLine (2 * x.width) bits l
      if b.received % 2 = 1 then { b with oddLine := l }
      else if x.height ≤ b.lines.length then b
      else { b with lines := b.lines ++ [(List.range x.width).map fun i =>
        (b.oddLine.getD (2 * i) 0 + b.oddLine.getD (2 * i + 1) 0 + l.getD (2 * i) 0 + l.getD (2 * i + 1) 0) / 4] }
    else if x.height ≤ b.lines.length then b
    else { b with lines := b.lines ++ [fitLine x.width bits l] }) b

/-- The first strip of a frame has landed: written descriptors take effect (R280, R289); earlier frames that no engine of NEXT has started, and
frame sets that the stereo engine has not started, are passed over (R279, R314). -/
def firstStrip (st k : Nat) (s : State) : State :=
  let s := s.updStream st fun x => { x with chain := x.chainNext.getD x.chain, chainNext := none, feat := x.featNext.getD x.feat, featNext := none }
  let x := s.streamAt st
  let s := s.updBuf st k fun b =>
    { b with begun := true, chain := x.chain, feat := x.feat, grid := b.grid.map fun g => if x.chain.remapEn then g else { g with outW := g.srcW, outH := g.srcH } }
  let older := x.bufs.filter fun e => e.1 != k && e.2.state != .free && e.2.begun
  let late := older.filter fun e => e.2.featWanted && !e.2.featStarted
  let s := forEach late (fun e s => (s.updBuf st e.1 fun b => { b with skipped := true }).raiseCtx x.ctx 0x8502 (st * 256 + 2)) s
  let unmatched := older.filter fun e => e.2.chain.role != 0 && e.2.stereo == 0
  let s := forEach unmatched (fun e s => unpair x.ctx e.2.chain.pair e.2.frameSet (s.raiseCtx x.ctx 0x8501 (e.2.chain.pair * 256 + 2))) s
  settleStream st s

/-- STRIP_LANDED (R242): 16 lines of the frame under way are in HBM. -/
def execStripLanded (stream : Nat) (lines : List VideoLine) (headerErrors : Nat) (s : State) : Out :=
  let x := s.streamAt stream
  match x.cur with
  | none => .next s
  | some k =>
    let old := Tab.getD x.bufs k {}
    let new := storeLines x old lines
    onTrigger ((s.portAt x.port).state == .streaming && new.lines.length == old.lines.length + 16) s fun s =>
      let s := countHeaders x.port headerErrors (s.updPort x.port fun q => { q with lastData := s.time.ticks })
      let s := s.updBuf stream k fun _ => { new with strips := old.strips ++ [(new.lines.length, s.time.ticks)] }
      if new.begun then s else firstStrip stream k s

/-- FRAME_END (R167, R169, R176, R180, R242): the last strip passes on; a bad or short frame is discarded. The corrected headers of a frame that has no
buffer are counted too. -/
def execFrameEnd (stream : Nat) (lines : List VideoLine) (embedded : List (List Byte)) (headerErrors : Nat) (bad : Bool) (s : State) : Out :=
  let x := s.streamAt stream
  match x.cur with
  | none => onTrigger (Tab.has s.streams stream) s (countHeaders x.port headerErrors)
  | some k =>
    onTrigger ((s.portAt x.port).state == .streaming) s fun s =>
      let new := storeLines x (Tab.getD x.bufs k {}) lines
      let s := s.updPort x.port fun q => { q with lastData := s.time.ticks, errors := satU 32 (q.errors + if bad then 1 else 0) }
      let s := countHeaders x.port headerErrors s
      if bad then dropFrame stream k 2 s
      else if new.lines.length < x.height then dropFrame stream k 3 s
      else
        let s := s.updBuf stream k fun _ =>
          { new with strips := new.strips ++ [(new.lines.length, s.time.ticks)], complete := true, tEof := s.devNs, hdrErrors := headerErrors, state := if new.state = .filling then .ready else new.state,
                     embedded := if x.keepEmbedded then embedded.take 4 else [], flags := if x.keepEmbedded then new.flags ||| 2 else new.flags }
        let s := if new.begun then s else firstStrip stream k s
        let s := s.updStream stream fun x => { x with cur := none }
        let s := if new.skipped then s else landStream x.ctx new.frameSet.toNat stream s
        settleStream stream s

/-! ### Field specifications (Table 4-7) -/

/-- Bytes of a field type. -/
def fieldSize (t : Nat) : Nat := if t = 1 then 1 else if t = 2 ∨ t = 4 then 2 else 4

/-- The offset of a field in the payload, by its level, for block `b` and point `p`. -/
def fieldAt (fmt : List Byte) (spec b p : Nat) : Nat :=
  let block := leAt fmt 2 2 + b * leAt fmt 6 2
  let level := leAt fmt (spec + 3) 1
  leAt fmt spec 2 + (if level = 0 then 0 else if level = 1 then block else block + leAt fmt 8 2 + p * leAt fmt 11 1)

/-- The raw value of a field, 32 bits; an absent field is 0. -/
def fieldRaw (fmt payload : List Byte) (spec b p : Nat) : Word :=
  let t := leAt fmt (spec + 2) 1
  let v := leAt payload (fieldAt fmt spec b p) (fieldSize t)
  if t = 0 then 0 else if t = 4 then wInt (sext 16 v) else w32 v

/-- The exact value of a field before its scale. -/
def fieldValue (fmt payload : List Byte) (spec b p : Nat) : Dy :=
  let t := leAt fmt (spec + 2) 1
  let w := fieldRaw fmt payload spec b p
  if t = 6 then Dy.ofWord w else if t = 4 ∨ t = 5 then ⟨w.toInt, 0⟩ else ⟨Int.ofNat w.toNat, 0⟩

/-- A field times its SCALE (Table 4-7). -/
def fieldScaled (fmt payload : List Byte) (spec b p : Nat) : Dy := (fieldValue fmt payload spec b p).mul (Dy.ofWord (wordAt fmt (spec + 4)))

/-- The TIME field times its SCALE, rounded to a whole number of nanoseconds. -/
def fieldNs (fmt payload : List Byte) (spec b p : Nat) : Int := (fieldScaled fmt payload spec b p).roundScaled 0

/-! ### Lidar (R186 to R191, R344) -/

/-- Losses of a port within the last second, with `k` more now. -/
def addLoss (p k : Nat) (s : State) : State :=
  s.updPort p fun q => { q with losses := (q.losses.filter fun e => decide (s.since e.1 < msTicks 1000)) ++ [(s.time.ticks, k)] }

/-- The key under which the losses of a port are reported once per second. -/
def lossKey (code port : Nat) : Nat := code * 65536 + port

def lossCount (s : State) (p : Nat) : Nat := min 255 (total ((s.portAt p).losses.map (·.2)))

/-- The gap in PACKET_SEQ: packets lost before this one (R191). -/
def seqGap (fmt payload : List Byte) (last : Option Word) : Nat :=
  match last with
  | none => 0
  | some l =>
    let n := 2 ^ (8 * fieldSize (leAt fmt 58 1))
    let d := (fieldRaw fmt payload 56 0 0).toNat % n + n - l.toNat % n
    if 2 ≤ d % n ∧ d % n < n / 2 then d % n - 1 else 0

/-- The time of a point (R189, R190): from the firmware stamp, or from the latest sync pulse before receipt, or from the pulse before that. -/
def pointTime (fmt payload : List Byte) (stamp : Nat) (sync : Option ReelEntry) (b p : Nat) : Int :=
  let t := if leAt fmt 50 1 = 0 then 0 else fieldNs fmt payload 48 b p
  if leAt fmt 13 1 = 0 then Int.ofNat stamp + t
  else match sync with
    | none => Int.ofNat stamp + t
    | some r =>
      let x := Int.ofNat r.lastInstant + t
      if Int.ofNat stamp < x then Int.ofNat r.prevInstant + t else x

/-- A key for an open value from an exact number. -/
def Dy.key (d : Dy) : Nat := (w32 d.n.natAbs).toNat * 1024 + (d.e + 512).toNat % 512 * 2 + (if d.n < 0 then 1 else 0)

/-- The place of a point in the sensor's frame (GEOMETRY, Table 4-6): Cartesian as it stands; spherical from range, azimuth and elevation, whose sines are
open within the range (assumption 16, place 61). -/
def pointPos (fmt : List Byte) (f : List Dy) : List Dy :=
  if leAt fmt 12 1 = 0 then f
  else
    let r := f.getD 0 {}
    (List.range 3).map fun i =>
      let c : Dy := ⟨sext 32 (Config.openVal 61 ((((f.map Dy.key).foldl (fun k x => k * 2 ^ 42 + x) 0)) * 4 + i)), r.e - 30⟩
      if c.abs.le r.abs then c else ⟨0, 0⟩

/-- The points of a packet; a raw range of 0 is no return where the format says so (Tables 4-6, 4-7). The elevation of a point beyond the table
is open (assumption 16, place 45). -/
def packetPoints (fmt payload : List Byte) (offset : Int) (stamp : Nat) (sync : Option ReelEntry) : List LidarPoint :=
  (List.range (leAt fmt 4 2)).flatMap fun b => (List.range (leAt fmt 10 1)).filterMap fun p =>
    let x := fieldRaw fmt payload 16 b p
    let n := leAt fmt 14 1
    let polar := leAt fmt 12 1 = 1
    let z := if n = 0 ∨ ¬ polar then fieldScaled fmt payload 32 b p else Dy.ofWord (if p < n then wordAt fmt (64 + 4 * p) else w32 (Config.openVal 45 p))
    if polar ∧ leAt fmt 15 1 % 2 = 1 ∧ x = 0 then none
    else some { time := pointTime fmt payload stamp sync b p + offset, pos := pointPos fmt [fieldScaled fmt payload 16 b p, fieldScaled fmt payload 24 b p, z],
                intensity := fieldScaled fmt payload 40 b p }

/-- Bytes of the frame that carries a UDP payload over IPv4 without options, its tags and check sequence among them (R184). -/
def frameBytes (tags : Nat) (payload : List Byte) : Nat := 18 + 4 * tags + 28 + payload.length

/-- LIDAR_PACKET (R184, R186 to R191): a datagram to the port's own address that matches its stream is decoded into timed points of the open sweep. -/
def execLidarPacket (port : Nat) (source : Word) (udpPort : BitVec 16) (tags : Nat) (payload : List Byte) (s : State) : Out :=
  let q := s.portAt port
  match bindingOf s port with
  | none => .next s
  | some (n, bd) =>
    onTrigger (isEthernet port && q.state == .streaming && q.ipv4 != 0 && q.lidarSrc == source && q.udpPort == udpPort
        && decide (frameBytes tags payload ≤ 9018)) s fun s =>
      let fmt := (Tab.getD (s.ctxAt n).formats (leAt bd 1 1) {}).bytes
      let s := s.updPort port fun q => { q with lastData := s.time.ticks }
      if leAt fmt 0 2 ≠ 0 ∧ payload.length ≠ leAt fmt 0 2 then countError port s
      else
        let f := firmwareStamp s
        let s := f.2
        let al := if leAt fmt 13 1 = 0 then s.alignSample n port 0 f.1 else (s, false)
        let s := al.1
        if al.2 then s
        else
          let gap := if leAt fmt 58 1 = 0 then 0 else seqGap fmt payload q.lastSeq
          let s := s.updPort port fun q => { q with lastSeq := some (fieldRaw fmt payload 56 0 0) }
          let s := if gap = 0 then s else
            let s := addLoss port gap s
            s.raiseOncePerSecond (lossKey 0x8204 port) (some n) 0x8204 (port * 256 + lossCount s port) fun s => s
          let pts := packetPoints fmt payload (s.entryOf n (sensorKey port 0)).offset f.1 ((syncEntry s n bd).map s.reelAt)
          { s with lidars := Tab.upd s.lidars port {} fun l =>
              { l with points := l.points ++ pts, firstTick := if pts = [] then l.firstTick else some (l.firstTick.getD s.time.ticks) } }

/-- Close the sweep of a STREAMING port: it is handed to fusion at the time of its last point, which holds TIME_OFFSET already (R161, R344, R345,
Table 8-3). A port that does not stream contributes nothing. -/
def closeSweep (port : Nat) (s : State) : State :=
  let l := Tab.getD s.lidars port {}
  if (s.portAt port).state ≠ .streaming then { s with lidars := Tab.put s.lidars port { latest := l.latest, taken := l.taken } }
  else
    let s := { s with lidars := Tab.put s.lidars port { latest := l.points } }
    match bindingOf s port, l.points.getLast? with
    | some (n, b), some p =>
      let key := sensorKey port 0
      s.handSample n key (p.time - (s.entryOf n key).offset) (leAt (Tab.getD (s.ctxAt n).formats (leAt b 1 1) {}).bytes 13 1 == 0) .sweep
    | _, _ => s

/-- LIDAR_SWEEP_TIMEOUT: 200 ms after the sweep's first point (R344). -/
def execLidarSweepTimeout (port : Nat) (s : State) : Out :=
  onTrigger ((Tab.getD s.lidars port {}).firstTick.any fun t => decide (msTicks 200 ≤ s.since t)) s (closeSweep port)

/-! ### Inertial samples and encoder latches -/

/-- The IMU0 record in force: a committed one applies from its time on (R846). -/
def imuRecord (s : State) (index : Nat) : List Byte :=
  let key := sensorKey 32 index
  let r := Tab.getD s.age.store key {}
  if r.effective ≤ s.devNs then r.bytes else (Tab.getD s.age.before key {}).bytes

/-- MATRIX × (raw − BIAS) in binary32, each row summed from the left (R838). -/
def correctImu (rec_ : List Byte) (raw : List Word) : List Word :=
  let d := (List.range 3).map fun k => (fSub b32 (raw.getD k 0).toNat (wordAt rec_ (40 + 4 * k)).toNat).bits
  (List.range 3).map fun i =>
    let p (k : Nat) := (fMul b32 (wordAt rec_ (4 + 12 * i + 4 * k)).toNat (d.getD k 0)).bits
    w32 (fAdd b32 (fAdd b32 (p 0) (p 1)).bits (p 2)).bits

/-- Latch the count of every encoder and deliver its speed (R195, R196, R212); the first speed after an outage is discarded (R948). A speed below
0.5 m/s begins the window of R198 anew. -/
def latchEncoder (p : Nat) (s : State) : State :=
  let q := s.portAt p
  let stamp := s.devNs
  let speed := ((⟨(q.count - q.latchedCount).toInt * 6400, 0⟩ : Dy).mul (Dy.ofWord q.metres))
  let s := s.updPort p fun q =>
    let q := if (Dy.pow2 (-1)).le speed.abs && !q.discardSpeed then { q with verifyLatches := q.verifyLatches + 1 } else q.restartVerify s.time.ticks
    { q with prevLatched := q.latchedCount, latchedCount := q.count, latchTime := stamp,
             discardSpeed := q.discardSpeed && !(q.state == .idle || q.state == .streaming) }
  if feedsNothing s p then s
  else
    (takeWaiting p s).deliver p stamp fun _ => if q.discardSpeed then none else some (toInput speed 16)

/-- The pose record of IMU0 in force reaches the sessions that bind it (R846). -/
def imuEntry (s : State) : State :=
  forEach s.sessionCtxs (fun n s =>
    let key := sensorKey 32 0
    if Tab.has (s.ctxAt n).inUse key && decide (0 < (Tab.getD s.age.store key {}).effective) then
      s.updCtx n fun c => { c with inUse := Tab.put c.inUse key (SensorEntry.ofBytes (imuRecord s 0)) }
    else s) s

/-- A sample of IMU0 that has arrived: corrected and delivered to its channels, unless the port is in FAULT (R211, R213, R838). -/
def takeImu0 (raw : List Word) (s : State) : State :=
  let gyro := correctImu (imuRecord s 0x80) (raw.take 3)
  let accel := correctImu (imuRecord s 0x81) (raw.drop 3)
  let l := gyro ++ accel
  let s := s.updPort 32 fun q => { q with lastData := s.time.ticks }
  let s := { s with imu0 := l }
  if feedsNothing s 32 then s else s.deliver 32 s.devNs fun a => some (wordInput (l.getD a 0) (axisBits a))

/-- The encoder ports. -/
def encoderPorts : List Nat := [48, 49, 50, 51, 52, 53, 54, 55]

/-- IMU0_SAMPLE (R111, R196, R212, R213, R838): the sample tick of IMU0; a sample that fails to arrive is replaced by the previous one. -/
def execImu0Sample (raw : List Word) (delivered : Bool) (s : State) : Out :=
  onTrigger (s.time.imu0Due && s.mainOn) s fun s =>
    let s := s.mapTime fun t => { t with imu0Due := false }
    let s := takeWaiting 32 (forEach encoderPorts latchEncoder (imuEntry s))
    if delivered then takeImu0 raw s
    else if feedsNothing s 32 then s
    else s.deliver 32 s.devNs fun _ => none

/-- The format slot of an external IMU: the one its binding names, else the owner's lowest slot that holds an IMU format (Table 16-4). -/
def imuFormat (s : State) (port : Nat) : Option (List Byte) :=
  match bindingOf s port with
  | some (n, b) => (Tab.get? (s.ctxAt n).formats (leAt b 1 1)).map (·.bytes)
  | none =>
    match (s.portAt port).owner with
    | some n => ((s.ctxAt n).formats.find? fun e => e.2.kind == 2).map (·.2.bytes)
    | none => none

/-- One axis of a burst (Table 16-6): two's complement, little-endian (R28), times SCALE, in the unit of R211. -/
def burstValue (fmt burst : List Byte) (axis : Nat) : Int × Bool :=
  let o := 16 + 6 * axis
  let n := leAt fmt (o + 1) 1 + 2
  toInput ((⟨sext (8 * n) (leAt burst (leAt fmt o 1) n), 0⟩ : Dy).mul (Dy.ofWord (wordAt fmt (o + 2)))) (axisBits axis)

/-- The samples that an external IMU failed to make ready since its last one, each replaced by the one before it (R213): their stamps lie a sample period
apart. -/
def missedSamples (port stamp : Nat) (s : State) : State :=
  let q := s.portAt port
  let hz := q.sampleHz
  match q.lastStamp with
  | none => s
  | some t =>
    let k := (roundDiv (Int.ofNat ((stamp - t) * hz)) 1000000000).toNat - 1
    forEach (List.range (min k hz)) (fun i s =>
      (takeWaiting port s).deliver port (t + (roundDiv (Int.ofNat ((i + 1) * 1000000000)) hz).toNat) fun _ => none) s

/-- IMU_BURST (R192 to R194, R213): an external IMU is read on its data-ready edge; it is stamped with the sync pulse that caused it, or by firmware. -/
def execImuBurst (port : Nat) (ok : Bool) (burst : List Byte) (s : State) : Out :=
  let q := s.portAt port
  match imuFormat s port with
  | none => .next s
  | some fmt =>
    onTrigger (isExtImu port && (q.state == .idle || q.state == .streaming)) s fun s =>
      let sync := (s.imuSync port).bind fun r => if r.lastRise.isSome then some r.lastInstant else none
      let st := match sync with | some t => (t, s) | none => firmwareStamp s
      let s := (missedSamples port st.1 st.2).updPort port fun q => { q with lastStamp := some st.1 }
      if ok then
        let s := s.updPort port fun q => { q with lastData := s.time.ticks, failedBursts := 0 }
        let al := match sync, bindingOf s port with | none, some (n, _) => s.alignSample n port 0 st.1 | _, _ => (s, false)
        if al.2 then al.1
        else (takeWaiting port al.1).deliver port st.1 fun a => some (burstValue fmt burst a)
      else
        let s := addLoss port 1 (countError port (s.updPort port fun q => { q with failedBursts := q.failedBursts + 1 }))
        let s := s.raiseOncePerSecond (lossKey 0x8206 port) q.owner 0x8206 (port * 256 + lossCount s port) fun s => s
        let s := (takeWaiting port s).deliver port st.1 fun _ => none
        if 10 ≤ (s.portAt port).failedBursts then enterFault port 3 s else s

/-! ### CAN (R201 to R205) -/

/-- The bit of the payload that is bit `i` of a signal, counted from its least significant bit (chapter 4 text). -/
def signalBit (bigEndian : Bool) (start len i : Nat) : Nat :=
  if bigEndian then
    let d := (7 - start % 8) + (len - 1 - i)
    (start / 8 + d / 8) * 8 + (7 - d % 8)
  else start + i

/-- The raw value of a signal; none when its bits extend past the payload (R204). -/
def signalRaw (e payload : List Byte) : Option Nat :=
  let start := leAt e 4 2
  let len := leAt e 6 1
  let be := leAt e 7 1 % 2 == 1
  let bits := (List.range len).map fun i => signalBit be start len i
  if bits.any fun k => decide (8 * payload.length ≤ k) then none
  else some (total (bits.zipIdx.map fun p => if bit (payload.getD (p.1 / 8) 0) (p.1 % 8) then 2 ^ p.2 else 0))

/-- The signal entries of a bound CAN port, 24 bytes each (R203). -/
def signalEntries (s : State) (port : Nat) : List (List Byte) :=
  match bindingOf s port with
  | some (n, b) =>
    let f := (Tab.getD (s.ctxAt n).formats (leAt b 1 1) {}).bytes
    (List.range (f.length / 24)).map fun i => slice f (24 * i) 24
  | none => []

/-- raw × SCALE + OFFSET (R203), the raw value signed where FLAGS[1] says so. -/
def signalValue (e : List Byte) (raw : Nat) : Dy :=
  let v : Int := if leAt e 7 1 / 2 % 2 = 1 then sext (leAt e 6 1) raw else Int.ofNat raw
  ((⟨v, 0⟩ : Dy).mul (Dy.ofWord (wordAt e 8))).add (Dy.ofWord (wordAt e 12))

/-- A frame's value of one signal reaches the module (R203 to R205). -/
def takeSignal (n port i stamp : Nat) (e payload : List Byte) (s : State) : State :=
  match signalRaw e payload with
  | none => countError port s
  | some v =>
    if leAt e 7 1 / 4 % 2 = 1 ∧ v + 1 = 2 ^ leAt e 6 1 then s
    else
      let sig : CanSignal := { raw := v, value := signalValue e v, stamp := stamp, tick := s.time.ticks, stale := false, arrived := true }
      let s := s.updCtx n fun c => { c with canSignals := Tab.put c.canSignals (port * 32 + i) sig }
      s.handSample n (sensorKey port i) (Int.ofNat stamp) true (.can (leAt e 16 1) (signalValue e v) (leAt e 7 1 / 2 % 2 == 1))

/-- The answer of a CAN port to a frame: an acknowledge or an error frame in ACK mode, nothing while its pair is found swapped (R202, R949). -/
def canAnswer (port : Nat) (ack : Bool) (s : State) : State :=
  let q := s.portAt port
  if q.canAck ∧ q.swapFault = false then s.send (.can port ack) else s

/-- CAN_FRAME (R201 to R204, R980): a frame in error, or with a bit-rate switch that the port does not use, is counted on a port in any state in which it
receives; a STREAMING port takes the signals of a frame. -/
def execCanFrame (port : Nat) (id : Word) (brs error : Bool) (payload : List Byte) (s : State) : Out :=
  let q := s.portAt port
  onTrigger (isCan port && q.owner.isSome && (q.state == .detecting || q.state == .idle || q.state == .streaming)) s fun s =>
    if error ∨ (brs ∧ q.canData = 0) then canAnswer port false (countError port s)
    else
      let s := canAnswer port true (s.updPort port fun q => { q with lastData := s.time.ticks })
      match bindingOf s port with
      | none => s
      | some (n, _) => if q.state ≠ .streaming then s else
        let f := firmwareStamp s
        (signalEntries s port).zipIdx.foldl (fun s e => if wordAt e.1 0 = id then takeSignal n port e.2 f.1 e.1 payload s else s) f.2

/-- CAN_SIGNAL_STALE (R205): a signal has not arrived for its MAX_AGE; it leaves fusion until its next valid value. -/
def execCanSignalStale (port signal : Nat) (s : State) : Out :=
  match bindingOf s port, (signalEntries s port)[signal]? with
  | some (n, _), some e =>
    match Tab.get? (s.ctxAt n).canSignals (port * 32 + signal) with
    | none => .next s
    | some c =>
      onTrigger (isCan port && !c.stale && decide (msTicks (leAt e 18 2) ≤ s.since c.tick)) s fun s =>
        (s.updCtx n fun x => { x with canSignals := Tab.put x.canSignals (port * 32 + signal) { c with stale := true } }).raiseCtx n 0x8205 (port * 256 + signal)
  | _, _ => .next s

/-! ### FORMAT_WRITE (R187) -/

/-- Whether the fields of a format are in their ranges (Tables 4-6, 4-7, 4-10, 16-6). -/
def formatOk (kind : Nat) (b : List Byte) : Bool :=
  if kind = 0 then
    decide (64 + 4 * leAt b 14 1 ≤ b.length ∧ 1 ≤ leAt b 4 2 ∧ leAt b 4 2 ≤ 64 ∧ 1 ≤ leAt b 10 1 ∧ leAt b 12 1 ≤ 1 ∧ leAt b 13 1 ≤ 1)
      && [16, 24, 32, 40, 48, 56].all fun o => decide (leAt b (o + 2) 1 ≤ 6 ∧ leAt b (o + 3) 1 ≤ 2)
  else if kind = 1 then
    decide (b.length % 24 = 0 ∧ 24 ≤ b.length ∧ b.length ≤ 768) && (List.range (b.length / 24)).all fun i =>
      let e := slice b (24 * i) 24
      decide (leAt e 4 2 ≤ 511 ∧ 1 ≤ leAt e 6 1 ∧ leAt e 6 1 ≤ 32 ∧ 1 ≤ leAt e 16 1 ∧ leAt e 16 1 ≤ 5 ∧ leAt e 17 1 ≤ (if leAt e 16 1 = 1 then 7 else 0)
        ∧ 1 ≤ leAt e 18 2 ∧ leAt e 18 2 ≤ 10000)
  else
    decide (64 ≤ b.length ∧ 1 ≤ leAt b 2 1 ∧ leAt b 2 1 ≤ 8 ∧ 1 ≤ leAt b 3 1 ∧ leAt b 3 1 ≤ 32)
      && (List.range 7).all fun i => decide (leAt b (17 + 6 * i) 1 ≤ 2)

/-- Whether a format slot of a context is used by a STREAMING port. -/
def slotInUse (s : State) (n slot : Nat) : Bool :=
  match s.sessionAt n with
  | none => false
  | some x => x.bindings.any fun b =>
      let p := leAt b 0 1
      (isEthernet p || isExtImu p || isCan p) && leAt b 1 1 == slot && (s.portAt p).state == .streaming

/-- FORMAT_WRITE (R187, R203, R192). -/
def execFormatWrite (c : CmdRef) (s : State) : Out :=
  onCmd 0x0206 c s fun m s =>
    let slot := fld (m.w 3) 2 0
    let kind := fld (m.w 3) 9 8
    if kind = 3 then s.badWord c 3
    else if slotInUse s m.ctx slot then s.refuseOpen c BUSY
    else withSg m 4 s fun b =>
      if formatOk kind b = false then s.badWord c 4
      else (s.updCtx m.ctx fun x => { x with formats := Tab.put x.formats slot { kind := kind, bytes := b } }).done c

end Sys2Proof.Machine
end

