-- ==== Sys2Proof/Machine/FabricExec.lean ====
section
/-! DEFINITION. Executing a column of a band (chapters 11 to 13): what each slot reads at issue and writes when it lands, in the order of
R511 and R512, and the control operations of the S slot. -/

namespace Sys2Proof.Machine

/-! ### Reading a tile; what nothing has written is open (R482, R526, R581) -/

def tileKey (t : TileS) (n i : Nat) : Nat := (t.epoch * 64 + n) * 2 ^ 24 + i

def vReg (t : TileS) (n r lane : Nat) : Word :=
  match Tab.get? t.v (r * 64 + lane) with
  | some x => x
  | none => w32 (Config.openVal 16 (tileKey t n (r * 64 + lane)))
def sReg (t : TileS) (n r : Nat) : Word :=
  match Tab.get? t.s r with
  | some x => x
  | none => if t.restored then w32 (Config.openVal 17 (tileKey t n r)) else 0
/-- P0 reads as all ones (R464). -/
def pReg (t : TileS) (n r : Nat) : BitVec 64 :=
  if r = 0 then BitVec.allOnes 64
  else match Tab.get? t.p r with
    | some x => x
    | none => if t.restored then BitVec.ofNat 64 (Config.openVal 18 (tileKey t n r)) else 0
def accKey (bank entry lane : Nat) : Nat := bank * 4096 + entry * 64 + lane
def accGet (t : TileS) (n bank entry lane : Nat) : Word :=
  match Tab.get? t.acc (accKey bank entry lane) with
  | some x => x
  | none => w32 (Config.openVal 19 (tileKey t n (accKey bank entry lane)))
def laGet (t : TileS) (n i lane : Nat) : LongAcc :=
  match Tab.get? t.la (i * 64 + lane) with
  | some x => x
  | none =>
    let k := 8 * tileKey t n (i * 64 + lane)
    { n := BitVec.ofNat 256 (Config.openVal 20 k), anchor := sext 9 (Config.openVal 20 (k + 1)),
      nonfinite := decide (Config.openVal 20 (k + 2) % 2 = 1), addsFull := decide (Config.openVal 20 (k + 3) % 2 = 1),
      high := Config.openVal 20 (k + 4) % 32768, low := Config.openVal 20 (k + 5) % 32768, adds := Config.openVal 20 (k + 6) % 2 ^ 32 }
def openRow (place k : Nat) : List Word := (List.range 64).map fun i => w32 (Config.openVal place (k * 64 + i))
def weightRow (t : TileS) (n r : Nat) : List Word :=
  match Tab.get? t.weights r with
  | some x => x
  | none => openRow 21 (tileKey t n r)
def storeRow (t : TileS) (n r : Nat) : List Word :=
  match Tab.get? t.rows r with
  | some x => x
  | none => if t.undef then openRow 22 (tileKey t n r) else List.replicate 64 0

/-- The key of a context's commons row (R487), if it is within the context's banks (R483). -/
def commonsKey (banks : List Nat) (r : Nat) : Option Nat :=
  if banks.length = 0 ∨ banks.length * 2048 ≤ r then none else some (banks.getD (r % banks.length) 0 * 2048 + r / banks.length)

/-- A commons row; the commons are cleared at start (R903). -/
def State.commonsRow (s : State) (k : Nat) : List Word := (Tab.get? s.commons k).getD (List.replicate 64 0)

/-- The lanes that a predicate enables. -/
def lanes (p : BitVec 64) : List Nat := (List.range 64).filter fun i => bit p i

/-! ### Columns (R505, Table 12-1) -/

structure Col where
  s : Nat := 0
  m : Nat := 0
  v : Nat := 0
  g : Nat := 0
  l0 : Nat := 0
  l1 : Nat := 0
  x : Nat := 0
  deriving DecidableEq, Repr

def colOf (b : List Byte) : Col :=
  { x := leAt b 0 4, l1 := leAt b 4 4, l0 := leAt b 8 4, g := leAt b 12 4, v := leAt b 16 6, m := leAt b 22 6, s := leAt b 28 4 }

/-- Bits `hi` down to `lo` of a slot word. -/
def sl (w hi lo : Nat) : Nat := w / 2 ^ lo % 2 ^ (hi + 1 - lo)

/-- The slice of a program band's logical tile: columns, code offset, flags (Table 12-21). -/
def ImageS.sliceOf (img : ImageS) (pb t : Nat) : List Nat :=
  (img.slices.find? fun e => e.getD 0 99 == pb && e.getD 1 99 == t).getD []

def ImageS.col (img : ImageS) (pb t pc : Nat) : Col := colOf (slice img.code ((img.sliceOf pb t).getD 4 0 + 32 * pc) 32)
def ImageS.columns (img : ImageS) (pb : Nat) : Nat := (img.sliceOf pb 0).getD 3 0
def ImageS.resident (img : ImageS) (pb : Nat) : Bool := (img.sliceOf pb 0).getD 2 0 % 2 == 1

/-- What one tile's column does: results in flight, suppressed accesses by kind (R484), moves, and commons banks used. -/
structure ColEff where
  acts : List InFlight := []
  faults : List Nat := []
  moves : List MoveS := []
  banks : List Nat := []
  conflict : Bool := false
  deriving Repr

def ColEff.join (a b : ColEff) : ColEff :=
  { acts := a.acts ++ b.acts, faults := a.faults ++ b.faults, moves := a.moves ++ b.moves, banks := a.banks ++ b.banks,
    conflict := a.conflict || b.conflict }

/-- The view that a tile's slots have at the start of a step (R507). -/
structure View where
  tile : Nat
  logical : Nat
  t : TileS
  step : Nat
  /-- rows as loads and moves see them (R538, R544) -/
  row : Nat → List Word
  /-- rows of a buffer that is being filled (R627) -/
  blocked : Nat → Bool
  banks : List Nat
  commons : Nat → List Word
  /-- outstanding moves on a flag, a busy stream counted as one (R542, R626) -/
  flags : Nat → Nat
  /-- physical tiles of the band -/
  tiles : List Nat
  pair : Bool

def View.s (v : View) (r : Nat) : Word := sReg v.t v.tile r
def View.p (v : View) (r : Nat) : BitVec 64 := pReg v.t v.tile r
def View.v (v : View) (r lane : Nat) : Word := vReg v.t v.tile r lane

/-- A result that lands `lat` steps from issue, less one (R507). -/
def View.fly (v : View) (slot lat : Nat) (a : LandAct) : InFlight := { land := v.step + lat - 1, slot := slot, issue := v.step, act := a }

/-! ### S slot (Table 12-5), without its control operations -/

/-- The value an S operation writes to SD, if it writes one. -/
def sValue (v : View) (w : Nat) : Option Word :=
  let a := v.s (sl w 20 16)
  let b := v.s (sl w 15 11)
  let imm := sl w 15 0
  let sh := b.toNat % 32
  match sl w 31 26 with
  | 0x01 => some (a + b)
  | 0x02 => some (a - b)
  | 0x03 => some (a * b)
  | 0x04 => some (a &&& b)
  | 0x05 => some (a ||| b)
  | 0x06 => some (a ^^^ b)
  | 0x07 => some (a <<< sh)
  | 0x08 => some (a >>> sh)
  | 0x09 => some (a.sshiftRight sh)
  | 0x0A => some (if a.toInt < b.toInt then 1 else 0)
  | 0x0B => some (if a.toNat < b.toNat then 1 else 0)
  | 0x0C => some (if a = b then 1 else 0)
  | 0x0D => some (a + wInt (sext 16 imm))
  | 0x0E => some (w32 imm)
  | 0x0F => some (w32 (imm * 65536) ||| (v.s (sl w 25 21) &&& 0xFFFF))
  | 0x1B => some (if v.p (sl w 18 16) = 0 then 0 else 1)
  | 0x1C => some (w32 (lanes (v.p (sl w 18 16))).length)
  | 0x1D => some (w32 (v.flags (sl w 19 16)))
  | 0x1E => some (v.t.arith.setWidth 32)
  | 0x1F => some (v.v (sl w 11 6) (sl w 5 0))
  | _ => none

/-- Predicate results of PSET and PLOG. -/
def sPred (v : View) (w : Nat) : Option (BitVec 64) :=
  let a := v.p (sl w 18 16)
  let b := v.p (sl w 13 11)
  match sl w 31 26 with
  | 0x19 => some (if w % 2 = 1 then BitVec.allOnes 64 else 0)
  | 0x1A => some (match sl w 10 9 with
    | 0 => a &&& b
    | 1 => a ||| b
    | 2 => a ^^^ b
    | _ => a &&& ~~~ b)
  | _ => none

def sSlot (v : View) (w : Nat) : ColEff :=
  let sd := match sValue v w with
    | some x => [v.fly 0 1 (.sreg v.tile (sl w 25 21) x)]
    | none => []
  let pd := match sPred v w with
    | some x => [v.fly 0 1 (.preg v.tile (sl w 23 21) (BitVec.allOnes 64) x)]
    | none => []
  let cl := if sl w 31 26 = 0x1E ∧ w % 2 = 1 then [v.fly 0 1 (.flagClear v.tile)] else []
  { acts := sd ++ pd ++ cl }

/-! ### M slot (Tables 12-6 to 12-8) -/

/-- The words of a list of 32-bit words as one number, the first lowest. -/
def wordsNat (l : List Word) : Nat := l.foldr (fun w a => w.toNat + 2 ^ 32 * a) 0

/-- Element `k` of width `bits` of a packed number (R533, R559). -/
def packed (x bits k : Nat) : Nat := x / 2 ^ (bits * k) % 2 ^ bits

def mSlot (v : View) (w : Nat) : ColEff :=
  let op := sl w 47 42
  let fmt := sl w 41 38
  let bank := sl w 23 21
  let entry := sl w 20 15
  let ss := v.s (sl w 5 1)
  let en := lanes (v.p (sl w 14 12))
  match op with
  | 1 | 2 =>
    let f := mFormat fmt
    let acts := wordsNat ((List.range 8).map fun i => v.v (sl w 37 32) (sl w 31 29 * 8 + i))
    let rows := wordsNat ((List.range 8).flatMap fun i => weightRow v.t v.tile (sl w 28 28 * 128 + sl w 27 24 * 8 + i))
    let as := (List.range f.2.1).map fun k => packed acts f.1 k
    let perLane (i : Nat) : LandAct :=
      let ws := (List.range f.2.1).map fun k => packed rows f.1 (k * 64 + i)
      if 13 ≤ fmt then .accSet v.tile bank entry i (w32 (Config.openVal 23 (v.step * 4096 + fmt * 64 + i)))
      else if fmt = 12 then .laMac v.tile (bank % 4) i (op == 2) ((as.zip ws).map fun p => (b32.decode p.1).mul (b32.decode p.2))
      else if fmt ≤ 1 then
        .accInt v.tile bank entry i (op == 2) ((as.zip ws).foldl (fun a p => a + sext f.1 p.1 * sext f.1 p.2) 0)
      else
        let d := mDot fmt (ss.toNat % 256) ((v.v (sl w 11 6) i).toNat % 256) as ws
        .accFloat v.tile bank entry i (op == 2) d.1 d.2
    { acts := en.map fun i => v.fly 1 4 (perLane i) }
  | 3 => { acts := en.flatMap fun i => (List.range 64).map fun e => v.fly 1 1 (.accSet v.tile bank e i 0) }
  | 4 => { acts := en.map fun i => v.fly 1 1 (.laInit v.tile (bank % 4) i (sext 9 ss.toNat)) }
  | _ => {}

/-! ### V slot (Table 12-9) -/

/-- Long accumulator rounded to binary32 (R579). -/
def LongAcc.round (a : LongAcc) : FRes :=
  if a.nonfinite then b32.nanRes true
  else b32.round .nearest (decide (a.n.toInt < 0)) a.n.toInt.natAbs a.anchor false

/-- The status word of a long accumulator (Table 13-6). -/
def LongAcc.status (a : LongAcc) : Word :=
  w32 ((if a.nonfinite then 2 ^ 31 else 0) + (if a.addsFull then 2 ^ 30 else 0) + a.high * 32768 + a.low)

/-- One element addition of REDADD. -/
def redElem (t x y : Nat) : FRes :=
  match vFloat t with
  | some f => fAdd f x y
  | none => iWrap (vWidth t) (sext (vWidth t) x + sext (vWidth t) y)

/-- One level of the pairwise tree; lanes that are not enabled take no part (R582). -/
def redLevel (t : Nat) : List (Option FRes) → List (Option FRes)
  | a :: b :: l =>
    (match a, b with
      | some x, some y => let r := redElem t x.bits y.bits; some ⟨r.bits, r.fl ||| x.fl ||| y.fl⟩
      | some x, none => some x
      | none, y => y) :: redLevel t l
  | l => l

/-- REDADD on one element position; no enabled lane gives 0 (assumption 32). -/
def redAdd (t : Nat) (l : List (Option Nat)) : FRes :=
  let r := (List.range 6).foldl (fun a _ => redLevel t a) (l.map fun x => x.map fun b => ⟨b, 0⟩)
  ((r.getD 0 none).getD ⟨0, 0⟩)

/-- Whether element `x` is below `y` for REDMIN: a NaN lies above every number (R582). -/
def redLt (t x y : Nat) : Bool :=
  match vFloat t with
  | some f =>
    let a := f.decode x
    let b := f.decode y
    if a.isNan then false else if b.isNan then true else fLt a b true
  | none => decide (sext (vWidth t) x < sext (vWidth t) y)

/-- REDMIN on one element position: the minimum and the lowest enabled lane that holds it (R582). -/
def redMin (t : Nat) (l : List (Nat × Nat)) : Nat × Nat :=
  match l with
  | [] => ((match vFloat t with
      | some f => f.infBits
      | none => 2 ^ (vWidth t - 1) - 1), 64)
  | (i, x) :: rest =>
    let m := rest.foldl (fun a e => if redLt t e.2 a.2 then e else a) (i, x)
    match vFloat t with
    | some f => if (f.decode m.2).isNan then (f.nan, i) else (m.2, m.1)
    | none => (m.2, m.1)

/-- Results of a V operation by lane: destination register offset, lane, word; and the flags raised. -/
def vResult (v : View) (w : Nat) (en : List Nat) : List (Nat × Nat × Word) × Nat :=
  let op := sl w 47 40
  let t := sl w 12 10
  let va := sl w 30 25
  let vb := sl w 24 19
  let vc := sl w 18 13
  let aux := sl w 9 0
  let each (f : Nat → Word × Nat) : List (Nat × Nat × Word) × Nat :=
    let r := en.map fun i => (i, f i)
    (r.map fun e => (0, e.1, e.2.1), r.foldl (fun a e => a ||| e.2.2) 0)
  let plain (f : Nat → Word) := each fun i => (f i, 0)
  let opn (i : Nat) : Word := w32 (Config.openVal 24 (((op * 8 + t) * 2 ^ 10 + aux) * 2 ^ 32 + (v.v va i).toNat))
  if (1 ≤ op ∧ op ≤ 0x0D) ∨ (0x14 ≤ op ∧ op ≤ 0x17) then
    let imm := if (0x14 ≤ op ∧ op ≤ 0x16) ∧ aux / 32 % 2 = 1 then some (aux % 32) else none
    if 6 ≤ t then plain opn else each fun i => laneOp op t (v.v va i) (v.v vb i) (v.v vc i) imm
  else match op with
  | 0x10 => plain fun i => v.v va i &&& v.v vb i
  | 0x11 => plain fun i => v.v va i ||| v.v vb i
  | 0x12 => plain fun i => v.v va i ^^^ v.v vb i
  | 0x13 => plain fun i => ~~~ (v.v va i)
  | 0x1B => plain fun i => if bit (v.p (vc % 8)) i then v.v va i else v.v vb i
  | 0x20 => if 6 ≤ t then plain opn else each fun i => laneCvt t (aux % 8) (aux / 16 % 32) (v.v va i)
  | 0x21 => plain fun i => w32 (total ((List.range 4).map fun k =>
      let b := 4 * i + k
      (v.v ((va + b / 64) % 64) (b % 64)).toNat % 256 * 256 ^ k))
  | 0x22 => plain fun i => w32 (total ((List.range 2).map fun k =>
      let h := 2 * i + k
      (v.v ((va + h / 64) % 64) (h % 64)).toNat % 65536 * 65536 ^ k))
  | 0x28 => plain fun i => v.v va ((v.v vb i).toNat % 64)
  | 0x29 => plain fun _ => v.v va (aux % 64)
  | 0x2A =>
    if 6 ≤ t then ((List.range 64).map fun i => (0, i, opn 0), 0)
    else
      let r := packElems (vWidth t) ((List.range (vCount t)).map fun k =>
        redAdd t ((List.range 64).map fun i => if en.contains i then some (elem t (v.v va i) k) else none))
      ((List.range 64).map fun i => (0, i, r.1), r.2)
  | 0x2B =>
    if 6 ≤ t then ((List.range 64).flatMap fun i => [(0, i, opn 0), (1, i, opn 1)], 0)
    else
      let r := (List.range (vCount t)).map fun k => redMin t (en.map fun i => (i, elem t (v.v va i) k))
      let m := (packElems (vWidth t) (r.map fun x => ⟨x.1, 0⟩)).1
      let ln := if r.all fun x => x.2 == (r.getD 0 (0, 0)).2 then w32 (r.getD 0 (0, 0)).2 else w32 (Config.openVal 25 m.toNat)
      ((List.range 64).flatMap fun i => [(0, i, m), (1, i, ln)], 0)
  | 0x30 => plain fun i => accGet v.t v.tile (aux / 128 % 8) (aux / 2 % 64) i
  | 0x32 => plain fun i => w32 ((laGet v.t v.tile (aux / 8 % 4) i).n.toNat / 2 ^ (32 * (aux % 8)))
  | 0x33 => each fun i => let r := (laGet v.t v.tile (aux / 8 % 4) i).round; (w32 r.bits, r.fl)
  | 0x34 => plain fun i => (laGet v.t v.tile (aux / 8 % 4) i).status
  | 0x38 => plain fun _ => wInt (sext 16 (sl w 24 9))
  | 0x39 => plain fun _ => v.s (va % 32)
  | _ => ([], 0)

/-- Latency of a V operation (Table 12-2). -/
def vLatency (op : Nat) : Nat :=
  if 0x0A ≤ op ∧ op ≤ 0x0D then 3 else if [0x2A, 0x2B, 0x32, 0x33, 0x34].contains op then 2 else 1

def vSlot (v : View) (w : Nat) : ColEff :=
  let op := sl w 47 40
  let pr := v.p (sl w 39 37)
  let en := lanes pr
  let vd := sl w 36 31
  let lat := vLatency op
  if 0x18 ≤ op ∧ op ≤ 0x1A then
    let t := sl w 12 10
    let r := en.filter fun i =>
      if 6 ≤ t then decide (Config.openVal 26 (op * 64 + i) % 2 = 1) else laneCmp op t (v.v (sl w 30 25) i) (v.v (sl w 24 19) i)
    { acts := [v.fly 2 1 (.preg v.tile (vd % 8) pr (BitVec.ofNat 64 (maskOf r)))] }
  else if op = 0x31 then
    { acts := en.map fun i => v.fly 2 1 (.accSet v.tile (sl w 9 7) (sl w 6 1) i (v.v (sl w 30 25) i)) }
  else
    let r := vResult v w en
    { acts := (r.1.map fun e => v.fly 2 lat (.vreg v.tile ((vd + e.1) % 64) e.2.1 e.2.2))
        ++ (if r.2 = 0 then [] else [v.fly 2 lat (.flag v.tile r.2)]) }

/-! ### G slot (Table 12-10) -/

def gSlot (v : View) (w : Nat) : ColEff :=
  let op := sl w 31 26
  if op = 0 ∨ 14 ≤ op then {}
  else
    let grp (r n i : Nat) := (List.range n).map fun k => v.v ((r + k) % 64) i
    let lat := gLatency op
    let per := (lanes (v.p (sl w 25 23))).map fun i => (i, gLane op (grp (sl w 16 11) (gSrc op).1 i) (grp (sl w 10 5) (gSrc op).2 i))
    let fl := per.foldl (fun a e => e.2.foldl (fun b r => b ||| r.fl) a) 0
    { acts := (per.flatMap fun e => (List.range e.2.length).map fun k =>
          v.fly 3 lat (.vreg v.tile ((sl w 22 17 + k) % 64) e.1 (w32 (e.2.getD k {}).bits)))
        ++ (if fl = 0 then [] else [v.fly 3 lat (.flag v.tile fl)]) }

/-! ### L0 and L1 slots (Tables 12-12, 12-13) -/

/-- The row an L word addresses, if it makes an access. -/
def lRow (v : View) (w : Nat) : Option Nat :=
  let a := (v.s (sl w 17 13)).toNat + sl w 12 0
  match sl w 31 27 with
  | 1 | 2 | 5 => some a
  | 3 | 4 => some (a / 64)
  | _ => none

def lSlot (v : View) (slot w : Nat) : ColEff :=
  match lRow v w with
  | none => {}
  | some row =>
    let bad := decide (8192 ≤ row) || v.blocked row
    let data := if bad then List.replicate 64 0 else v.row row
    let a := (v.s (sl w 17 13)).toNat + sl w 12 0
    let pr := v.p (sl w 26 24)
    let reg := sl w 23 18
    let faults := if bad then [0] else []
    match sl w 31 27 with
    | 1 => { acts := (lanes pr).map fun i => v.fly slot 2 (.vreg v.tile reg i (data.getD i 0)), faults := faults }
    | 2 => { acts := if bad then [] else [v.fly slot 1 (.rowWrite v.tile row pr ((List.range 64).map fun i => v.v reg i))],
             faults := faults }
    | 3 => { acts := [v.fly slot 2 (.sreg v.tile (reg % 32) (data.getD (a % 64) 0))], faults := faults }
    | 4 => { acts := if bad then []
               else [v.fly slot 1 (.rowWrite v.tile row (BitVec.ofNat 64 (2 ^ (a % 64))) (List.replicate 64 (v.s (reg % 32))))],
             faults := faults }
    | _ => { acts := [v.fly slot 2 (.wrow v.tile (sl w 26 19) data)], faults := faults }

/-- L0 and L1 in one bank stretch the step (R467). -/
def lConflict (v : View) (a b : Nat) : Bool :=
  match lRow v a, lRow v b with
  | some x, some y => x % 8 == y % 8 && decide (x < 8192) && decide (y < 8192)
  | _, _ => false

/-! ### X slot (Tables 12-14 to 12-16) -/

def xSlot (v : View) (w : Nat) : ColEff :=
  let src := (v.s (sl w 20 16)).toNat
  let dst := (v.s (sl w 15 11)).toNat
  match sl w 31 27 with
  | 1 =>
    let d := sl w 26 21
    let tgt := if d = 63 then v.tiles else if d < v.tiles.length then [v.tiles.getD d 0] else []
    if tgt = [] ∨ 8192 ≤ src ∨ 8192 ≤ dst then { faults := [1] }
    else { acts := (tgt.map fun t => v.fly 6 8 (.arrival t dst (v.row src)))
             ++ (if v.pair then [v.fly 6 1 (.sign v.tile dst (v.row src))] else []) }
  | 2 =>
    if 8192 ≤ dst then { faults := [2] }
    else match commonsKey v.banks src with
      | some k => { acts := [v.fly 6 6 (.arrival v.tile dst (v.commons k))], banks := [k / 2048] }
      | none => { acts := [v.fly 6 6 (.arrival v.tile dst (List.replicate 64 0))], faults := [2] }
  | 3 =>
    match commonsKey v.banks dst with
    | some k => if 8192 ≤ src then { faults := [2] } else { acts := [v.fly 7 6 (.commons v.logical dst (v.row src))], banks := [k / 2048] }
    | none => { faults := [2] }
  | 4 | 5 =>
    let d0 := v.s (sl w 15 11)
    let d1 := v.s ((sl w 15 11 + 1) % 32)
    let rows := fld d1 28 16 + 1
    let row := fld d1 12 0
    { moves := [{ tile := v.logical, flag := sl w 26 23, isIn := sl w 31 27 == 4, obj := fld d0 31 24, offset := fld d0 23 0, row := row,
                  data := if sl w 31 27 = 4 then [] else (List.range rows).map fun k => v.row (row + k), nrows := rows }] }
  | _ => {}

/-- Everything a tile's column issues. -/
def tileColumn (v : View) (c : Col) : ColEff :=
  let e := (sSlot v c.s).join ((mSlot v c.m).join ((vSlot v c.v).join ((gSlot v c.g).join
    ((lSlot v 4 c.l0).join ((lSlot v 5 c.l1).join (xSlot v c.x))))))
  { e with conflict := lConflict v c.l0 c.l1 }

/-! ### Landing -/

/-- Fold a row write or a send into the tile's signature (R501). -/
def TileS.fold (t : TileS) (row : Nat) (x : List Word) : TileS :=
  { t with sig := BitVec.ofNat 64 ((leBytes 2 row ++ rowBytes x).foldl (crcByte 0xC96C5795D7870F42) t.sig.toNat) }

def TileS.raiseFlags (t : TileS) (fl : Nat) : TileS := { t with arith := t.arith ||| BitVec.ofNat 5 fl }

/-- Add one exact product to a long accumulator (R574 to R578): the accumulator and the flags raised. -/
def LongAcc.addProduct (a : LongAcc) (p : FVal × Bool) : LongAcc × Nat :=
  match p.1 with
  | .fin neg m e =>
    if a.addsFull then ({ a with high := min 32767 (a.high + 1) }, fLA)
    else if m ≠ 0 ∧ a.anchor + 223 ≤ e + Int.ofNat m.log2 then ({ a with high := min 32767 (a.high + 1) }, fLA)
    else
      let u := roundUnits .below m e a.anchor false
      let lost := decide (m ≠ 0 ∧ e < a.anchor ∧ m % 2 ^ (a.anchor - e).toNat ≠ 0)
      let full := decide (a.adds + 1 = 2 ^ 32 - 1)
      ({ a with n := a.n + BitVec.ofInt 256 ((if neg then -1 else 1) * Int.ofNat u), adds := a.adds + 1, addsFull := full,
                low := if lost then min 32767 (a.low + 1) else a.low }, if lost ∨ full then fLA else 0)
  | _ => ({ a with nonfinite := true }, fLA ||| (if p.2 then fINV else 0))

/-- Perform a landing write (R507). -/
def applyLand (pair : Bool) (banks : List Nat) (a : LandAct) (s : State) : State :=
  match a with
  | .vreg n r l x => s.updTile n fun t => { t with v := Tab.put t.v (r * 64 + l) x }
  | .sreg n r x => s.updTile n fun t => { t with s := Tab.put t.s r x }
  | .preg n r mask x =>
    if r = 0 then s else s.updTile n fun t => { t with p := Tab.put t.p r ((pReg t n r &&& ~~~ mask) ||| (x &&& mask)) }
  | .accSet n b e l x => s.updTile n fun t => { t with acc := Tab.put t.acc (accKey b e l) x }
  | .accInt n b e l z x =>
    s.updTile n fun t =>
      let r := entryAddInt (if z then 0 else accGet t n b e l) x
      { t with acc := Tab.put t.acc (accKey b e l) (w32 r.bits) }.raiseFlags r.fl
  | .accFloat n b e l z d inv =>
    s.updTile n fun t =>
      let r := entryAdd (if z then 0 else accGet t n b e l) (d, inv)
      { t with acc := Tab.put t.acc (accKey b e l) (w32 r.bits) }.raiseFlags r.fl
  | .laMac n i l z ps =>
    s.updTile n fun t =>
      let a0 := laGet t n i l
      let a0 := if z then { anchor := a0.anchor } else a0
      let r := ps.foldl (fun (x : LongAcc × Nat) p => let y := x.1.addProduct p; (y.1, x.2 ||| y.2)) (a0, 0)
      { t with la := Tab.put t.la (i * 64 + l) r.1 }.raiseFlags r.2
  | .laInit n i l anchor => s.updTile n fun t => { t with la := Tab.put t.la (i * 64 + l) { anchor := anchor } }
  | .wrow n r x => s.updTile n fun t => { t with weights := Tab.put t.weights r x }
  | .rowWrite n r mask x =>
    s.updTile n fun t =>
      let old := storeRow t n r
      let row := (List.range 64).map fun i => if bit mask i then x.getD i 0 else old.getD i 0
      let t := { t with rows := Tab.put t.rows r row }
      if pair then t.fold r row else t
  | .arrival n r x => s.updTile n fun t => { t with rows := Tab.put t.rows r x }
  | .sign n r x => s.updTile n fun t => t.fold r x
  | .commons _ r x =>
    match commonsKey banks r with
    | some k => { s with commons := Tab.put s.commons k x }
    | none => s
  | .flag n fl => s.updTile n fun t => t.raiseFlags fl
  | .flagClear n => s.updTile n fun t => { t with arith := 0 }

/-- The order in which writes of one step land (R511, R512); arrivals that one step sent to one row have no stated order (16). -/
def landOrder (free : Nat) (l : List InFlight) : List InFlight :=
  let l := sortBy (fun a b => decide (a.issue < b.issue)) l
  let l := sortBy (fun a b => decide (a.slot < b.slot)) l
  if Config.openVal 27 free % 2 = 0 then l
  else (l.filter fun a => decide (a.slot < 6)) ++
    sortBy (fun a b => decide (a.issue < b.issue)) (l.filter fun a => decide (a.slot = 6)).reverse ++
    l.filter fun a => decide (6 < a.slot)

/-- Rows that arrive at a tile at the end of a step. -/
def arrivalsAt (l : List InFlight) (n : Nat) : Nat :=
  (l.filter fun a => match a.act with
    | .arrival t _ _ => t == n
    | _ => false).length

end Sys2Proof.Machine
end

