-- ==== Sys2Proof/Machine/Bands.lean ====
section
/-! DEFINITION. Steps of a band that runs an admitted program (chapters 11 to 13): issue, retry, landing, control flow, rendezvous, code
pages, moves and weight streams. -/

namespace Sys2Proof.Machine

/-- The image that a band runs, and its number in that image (R550). -/
def State.program (s : State) (bn : Nat) : Option (ImageS × Nat) :=
  let c := s.ctxAt (s.bandAt bn).ctx
  match c.image with
  | some img => some (img, (c.bands.idxOf bn))
  | none => none

/-- Streams of a context that are bound to a band (R623). -/
def State.streamsOf (s : State) (bn : Nat) : Tab WStream :=
  Tab.keep (s.ctxAt (s.bandAt bn).ctx).streams fun _ w => w.band == bn

/-- Whether a stream's flag is busy in a logical tile: the layer that the last arrival started has rows still to land (R626). -/
def WStream.busy (w : WStream) (t : Nat) : Bool := w.arrived && w.fills.any fun f => f.1 == 1 - w.b && f.2.2.contains t

/-- Whether a row lies in a buffer whose fill is under way (R627). -/
def WStream.filling (w : WStream) (row : Nat) : Bool :=
  w.fills.any fun f =>
    let base := if f.1 = 0 then w.buf0 else w.buf1
    decide (base ≤ row ∧ row < base + w.bufRows)

/-- The state of a move flag: moves outstanding, and a busy stream as one more (R542, R626). -/
def State.flagCount (s : State) (bn logical flag : Nat) : Nat :=
  Tab.getD (s.tileAt ((s.bandAt bn).tiles.getD logical 0)).flags flag 0
    + ((s.streamsOf bn).filter fun w => w.2.flag == flag && w.2.busy logical).length

/-- The view of a logical tile at the start of a step. -/
def State.view (s : State) (bn logical : Nat) : View :=
  let b := s.bandAt bn
  let n := b.tiles.getD logical 0
  let t := s.tileAt n
  let ins := b.moves.filter fun m => m.tile == logical && m.isIn && !m.suppressed
  { tile := n, logical := logical, t := t, step := b.step,
    row := fun r =>
      match ins.find? fun m => decide (m.row ≤ r ∧ r < m.row + m.nrows) with
      | some m =>
        if Config.openVal 10 ((s.free * 64 + logical) * 8192 + r) % 2 = 0 then storeRow t n r
        else match Tab.get? s.objs m.obj with
          | some o => bytesRow (o.bytes (256 * (m.offset + (r - m.row))) 256)
          | none => storeRow t n r
      | none => storeRow t n r,
    blocked := fun r => (s.streamsOf bn).any fun w => w.2.filling r,
    banks := (s.ctxAt b.ctx).banks, commons := s.commonsRow, flags := s.flagCount bn logical,
    tiles := b.tiles, pair := b.isPair }

/-! ### Stretches and segments (R473 to R475) -/

/-- The stretch allowance of the band's segment under way. -/
def State.allowance (s : State) (bn : Nat) : Option Nat :=
  match s.program bn with
  | some (img, pb) =>
    (img.segments.find? fun e => e.getD 0 99 == pb && e.getD 2 0 == (s.bandAt bn).segment).map fun e => e.getD 4 0
  | none => none

/-- Count stretches against the segment's allowance; beyond it FABRIC_OVERRUN is raised once (R475, Table 11-6). -/
def State.stretch (s : State) (bn k : Nat) : State :=
  if k = 0 then s
  else
    let s := s.updBand bn fun b => { b with stretched := b.stretched + k }
    let b := s.bandAt bn
    match s.allowance bn with
    | some a =>
      if a < b.stretched ∧ b.overrunRaised = false then
        (s.updBand bn fun b => { b with overrunRaised := true, overruns := satU 16 (b.overruns + 1) }).raiseCtx b.ctx 0x8900
          (bn * 4096 + min 4095 (b.stretched - a))
      else s
    | none => s

/-! ### Control (R517 to R526) -/

/-- What a control operation of logical tile 0 orders. -/
structure Ctl where
  target : Option Nat := none
  push : Option (Nat × Nat × Nat) := none
  skip : Option Nat := none
  full : Bool := false
  rdv : Option Nat := none
  halt : Bool := false
  cpage : Option Nat := none
  deriving Repr

/-- Read the control operation at address `a` of a band. -/
def control (s : State) (bn : Nat) (v : View) (w a : Nat) : Ctl :=
  let b := s.bandAt bn
  let imm := sl w 15 0
  let sa := v.s (sl w 20 16)
  let target := (Int.ofNat a + sext 16 imm).toNat
  let taken (p : Bool) : Ctl := if p then { target := some target } else {}
  let loop (n : Nat) : Ctl :=
    if b.loops.length = 4 then { skip := some (a + imm + 1), full := true }
    else if n = 0 then { skip := some (a + imm + 1) }
    else { push := some (a + 1, a + imm, n) }
  match sl w 31 26 with
  | 0x10 => taken true
  | 0x11 => taken (sa == 0)
  | 0x12 => taken (sa != 0)
  | 0x13 => taken ((List.range b.tiles.length).any fun t => decide (0 < s.flagCount bn t (sl w 19 16)))
  | 0x14 => loop sa.toNat
  | 0x15 => loop (sl w 25 16)
  | 0x16 => { rdv := some (imm % 8) }
  | 0x17 => { halt := true }
  | 0x18 => { cpage := some sa.toNat }
  | _ => {}

/-- The address after `a` where no branch is taken: the innermost loops that end at `a` go round again or are left (R520). -/
def loopNext (a : Nat) : List (Nat × Nat × Nat) → Nat × List (Nat × Nat × Nat)
  | [] => (a + 1, [])
  | (f, l, n) :: rest =>
    if l = a then (if 1 < n then (f, (f, l, n - 1) :: rest) else loopNext a rest)
    else (a + 1, (f, l, n) :: rest)

/-- Apply control to the band: program address, loops, delay column, halt (R519 to R525). -/
def State.advance (s : State) (bn : Nat) (c : Ctl) (columns : Nat) : State :=
  let b := s.bandAt bn
  let a := b.pc
  let nx : Nat × List (Nat × Nat × Nat) :=
    match b.delay with
    | some t => (t, b.loops)
    | none =>
      match c.target, c.skip, c.push with
      | some _, _, _ => (a + 1, b.loops)
      | _, some k, _ => (k, b.loops)
      | _, _, some e => (a + 1, e :: b.loops)
      | _, _, _ => loopNext a b.loops
  let loops := match c.target with
    | some t => nx.2.filter fun l => decide (l.1 ≤ t ∧ t ≤ l.2.1)
    | none => nx.2
  let past := b.delay.isNone && c.target.isNone && !c.halt && decide (columns ≤ nx.1)
  let s := s.updBand bn fun b => { b with pc := nx.1, loops := loops, delay := c.target, halted := c.halt || past }
  let s := if c.full then s.raiseCtx b.ctx 0x8905 (bn * 4096 + 1) else s
  if past then s.raiseCtx b.ctx 0x8905 (bn * 4096 + 2) else s

/-! ### Code pages (R44, R527 to R531) -/

/-- The class of R44 to which a band's work belongs (R531): a pose session's 1, MAP_MAINTAIN's 2, RELOC_SERVE's 3; the work of a program of the host's own is
put into class 4 (DESIGN CHOICE, entry 10). -/
def State.bandClass (s : State) (bn : Nat) : Nat :=
  match s.sessionAt (s.bandAt bn).ctx with
  | some x => if x.prof.pose then 1 else if x.maintain then 2 else 3
  | none => 4

/-- A code page is asked for, unless its load is under way already. -/
def State.loadPage (s : State) (bn page : Nat) : State :=
  (s.updBand bn fun b => { b with loading := if b.loading.contains page then b.loading else b.loading ++ [page] }).requestMove (s.bandClass bn)
    (.codePage bn page)

/-! ### Weight streams (R624 to R629) -/

/-- Start to fill a layer into a buffer in every tile, unless the buffer holds it. -/
def WStream.fill (w : WStream) (buf layer tiles : Nat) : WStream :=
  let w := { w with fills := w.fills.filter fun f => f.1 != buf }
  if w.held.getD buf none = some layer then w
  else { w with held := setAt none w.held buf none, fills := w.fills ++ [(buf, layer, List.range tiles)] }

/-- An arrival of the band at a stream's rendezvous (R625); the second part tells whether the layer is late (R629). -/
def WStream.advance (w : WStream) (tiles : Nat) : WStream × Bool :=
  let late := decide (w.held.getD w.b none ≠ some w.j)
  let n := max 1 w.layers.length
  let w := w.fill (1 - w.b) ((w.j + 1) % n) tiles
  ({ w with j := (w.j + 1) % n, b := 1 - w.b, arrived := true }, late)

/-- Put a stream that was `old` and request the fills that it has begun, tile by tile, in its object's CLASS (R44, R628). -/
def State.putStream (s : State) (n st : Nat) (old w : WStream) : State :=
  let s := s.updCtx n fun c => { c with streams := Tab.put c.streams st w }
  let class_ := match s.objOf w.obj with | some e => e.2.class_ | none => 4
  forEach (w.fills.filter fun f => !old.fills.contains f) (fun f s =>
    let s := { s with jobs := s.jobs.filter fun r => match r.job with
      | .streamFill k i buf _ => !(k == n && i == st && buf == f.1)
      | _ => true }
    forEach f.2.2 (fun t s => s.requestMove class_ (.streamFill n st f.1 t)) s) s

/-- Advance every stream of a band whose rendezvous this is. -/
def State.advanceStreams (s : State) (bn rv : Nat) : State :=
  let n := (s.bandAt bn).ctx
  let tiles := (s.bandAt bn).tiles.length
  forEach ((s.streamsOf bn).filter fun w => w.2.advRv == rv) (fun e s =>
    let r := e.2.advance tiles
    let s := s.putStream n e.1 e.2 r.1
    if r.2 then s.raiseCtx n 0x8A04 (bn * 4096 + e.1 * 256 + e.2.j % 256) else s) s

/-! ### Rendezvous (R493 to R498) -/

/-- A band arrives at a rendezvous of the module and waits there. -/
def State.arrive (s : State) (bn rv : Nat) : State :=
  let s := { s with rvs := Tab.upd s.rvs rv {} fun r => { r with counts := Tab.upd r.counts bn 0 (· + 1) } }
  s.updBand bn fun b => { b with waiting := some rv, lastRv := rv, waitSince := s.time.ticks, lateRaised := false }

/-- Arrival count `a` has reached count `k` in serial-number arithmetic on 16 bits (R153, R496). -/
def serialGe (a k : BitVec 16) : Bool := decide ((a - k).toNat < 32768)

/-- Whether a waiting band may leave: every other member has made its arrival, halted bands count as arrived (R493, R498, R524). -/
def State.mayLeave (s : State) (rv bn : Nat) : Bool :=
  let r := Tab.getD s.rvs rv {}
  let k := Tab.getD r.counts bn 0
  r.members.all fun m =>
    m == bn || (s.bandAt m).halted || (!(s.bandAt m).stopped && serialGe (Tab.getD r.counts m 0) k)

/-- RENDEZVOUS_COMPLETE (R493). -/
def execRendezvousComplete (rv : Nat) (s : State) : Out :=
  let go := (Tab.getD s.rvs rv {}).members.filter fun m => decide ((s.bandAt m).waiting = some rv) && s.mayLeave rv m
  onTrigger (!go.isEmpty && decide (rv < 48)) s (forEach go fun m s => s.updBand m fun b => { b with waiting := none })

/-- FABRIC_RENDEZVOUS_LATE (R497): once for an arrival, after 1 ms of waiting. -/
def execFabricRendezvousLate (band : Nat) (s : State) : Out :=
  let b := s.bandAt band
  match b.waiting with
  | some rv =>
    onTrigger (Tab.has s.bands band && !b.lateRaised && decide (msTicks 1 ≤ s.since b.waitSince)) s fun s =>
      (s.updBand band fun x => { x with lateRaised := true }).raiseCtx b.ctx 0x8901 (band * 4096 + rv)
  | none => .next s

/-! ### Checkpoints (R790, R791) -/

/-- Where a band's checkpoint rows lie in its context's commons space: the bands' rows follow one another in band order and the last
CKPT_ROWS of a band's rows hold its two copies (assumption 9). Start and number of rows. -/
def ImageS.ckptRange (img : ImageS) (pb : Nat) : Nat × Nat :=
  let before := total ((img.bands.take pb).map fun e => e.getD 3 0)
  let e := img.bands.getD pb []
  (before + e.getD 3 0 - e.getD 4 0, e.getD 4 0)

/-- A commons write of a tile: within a checkpoint copy, that copy is being written. -/
def State.noteCkpt (s : State) (bn logical row : Nat) : State :=
  match s.program bn with
  | some (img, pb) =>
    let r := img.ckptRange pb
    if r.1 ≤ row ∧ row < r.1 + r.2 then
      let h := if row < r.1 + r.2 / 2 then 0 else 1
      s.updBand bn fun b => { b with ckptValid := setAt false b.ckptValid h false,
                                     ckptTiles := if b.ckptTiles.contains (h, logical) then b.ckptTiles else b.ckptTiles ++ [(h, logical)] }
    else s
  | none => s

/-- At an arrival, each copy that every tile has written becomes valid; the segment that follows starts at `pc` (R791). -/
def State.validateCkpt (s : State) (bn pc : Nat) : State :=
  s.updBand bn fun b =>
    [0, 1].foldl (fun b h =>
      if (List.range b.tiles.length).all fun t => b.ckptTiles.contains (h, t) then
        { b with ckptValid := setAt false b.ckptValid h true, ckptNewest := h, ckptSeg := setAt 0 b.ckptSeg h pc,
                 ckptTiles := b.ckptTiles.filter fun e => e.1 != h }
      else b) b

/-! ### A step -/

/-- Commons banks presented more than twice stretch the step once per further pair (R485). -/
def bankStretch (l : List Nat) : Nat := total (l.eraseDups.map fun k => ((l.filter (· == k)).length - 1) / 2)

/-- Start the moves of a column: the flag rises, a move outside its reach is suppressed (R542, R545), any other is requested of Promenade in its
object's CLASS (R44; DESIGN CHOICE, entry 10, for the class). -/
def State.startMove (s : State) (bn : Nat) (m : MoveS) : State :=
  let b := s.bandAt bn
  let n := b.tiles.getD m.tile 0
  let k := s.windowReach b.ctx m.obj m.offset m.nrows (!m.isIn)
  let ok := decide (m.row + m.nrows ≤ 8192) && k.isSome
  let m := { m with suppressed := !ok, obj := k.getD 0, seq := b.moveSeq }
  let s := s.updBand bn fun b => { b with moves := b.moves ++ [m], moveSeq := b.moveSeq + 1 }
  let s := s.updTile n fun t => { t with flags := Tab.upd t.flags m.flag 0 (· + 1) }
  if ok then s.requestMove (Tab.getD s.objs m.obj {}).class_ (.bandMove bn m.seq) else s.raiseCtx b.ctx 0x8902 (bn * 4096 + m.tile * 64 + 3)

/-- Land every write due at the end of the step (R507, R511). -/
def State.landStep (s : State) (bn : Nat) : State :=
  let b := s.bandAt bn
  let due := b.inflight.filter fun x => decide (x.land ≤ b.step)
  let s := s.updBand bn fun b => { b with inflight := b.inflight.filter fun x => decide (b.step < x.land) }
  let s := forEach (landOrder s.free due) (fun x s =>
    let s := applyLand b.isPair (s.ctxAt b.ctx).banks x.act s
    match x.act with
    | .commons t r _ => s.noteCkpt bn t r
    | _ => s) s
  s.stretch bn (maxD 0 (b.tiles.map fun n => (arrivalsAt due n - 1) / 2))

/-- Commit a waiting CONTEXT_ADMIT once every band has issued its first step (R709). -/
def State.admitStarted (s : State) (n : Nat) : State :=
  let c := s.ctxAt n
  match c.admitCmd with
  | some r =>
    if c.bands.all fun b => (s.bandAt b).started then
      (s.updCtx n fun c => { c with admitCmd := none }).done r OK 0
        [w32 (maskOf c.bands), w32 (total (c.bands.map fun b => (s.bandAt b).tiles.length))]
    else s
  | none => s

/-- Issue the column at the band's program address, land what is due and go on (R470, R506 to R526). -/
def State.issue (s : State) (bn : Nat) (img : ImageS) (pb : Nat) (cols : List Col) (effs : List ColEff) : State :=
  let b := s.bandAt bn
  let e := effs.foldl ColEff.join {}
  let c := control s bn (s.view bn 0) (cols.getD 0 {}).s b.pc
  let s := s.updBand bn fun b => { b with inflight := b.inflight ++ e.acts, stall := false, started := true, fails := [],
                                          pool := b.pool - Int.ofNat (Config.openVal 28 (s.free * 16 + bn) % 65536) }
  let s := forEach (List.range effs.length) (fun t s =>
    forEach (effs.getD t {}).faults (fun k s => s.raiseCtx b.ctx 0x8902 (bn * 4096 + t * 64 + k)) s) s
  let s := forEach e.moves (fun m s => s.startMove bn m) s
  let s := s.landStep bn
  let s := s.stretch bn ((if effs.any fun x => x.conflict then 1 else 0) + bankStretch e.banks)
  let s := match c.cpage with
    | some p =>
      if img.resident pb then s
      else (s.updBand bn fun b => { b with frames := Tab.del b.frames (p % 8) }).loadPage bn p
    | none => s
  let s := s.advance bn c (img.columns pb)
  let s := s.updBand bn fun b => { b with step := b.step + 1 }
  let s := match c.rdv with
    | some r =>
      let s := (s.validateCkpt bn (s.bandAt bn).pc).advanceStreams bn r
      (s.updBand bn fun b => { b with segment := b.pc, stretched := 0, overrunRaised := false }).arrive bn (6 * b.ctx + r)
    | none => s
  { s.admitStarted b.ctx with free := s.free + 1 }

/-- An attempt in which checks fail: nothing lands, the step is repeated; the third failure of one unit is persistent (R588 to R591). -/
def State.retryStep (s : State) (bn : Nat) (failing : List (Nat × Nat)) : State :=
  let b := s.bandAt bn
  let fails := failing.foldl (fun t u => Tab.put t (u.1 * 65 + u.2) (Tab.getD b.fails (u.1 * 65 + u.2) 0 + 1)) ([] : Tab Nat)
  let s := s.updBand bn fun b => { b with fails := fails }
  let s := forEach (failing.map (·.1)).eraseDups (fun l s =>
    s.updTile (b.tiles.getD l 0) fun t => { t with retry := min 16383 (t.retry + 1) }) s
  let s := s.mapDep fun d => { d with retries := d.retries + 1 }
  forEach (fails.filter fun f => decide (3 ≤ f.2)) (fun f s => s.persistentFailure bn (f.1 / 65) (f.1 % 65)) s

/-- Whether a band may issue a step (R470, R493, R498, R524, R740). -/
def State.canStep (s : State) (bn : Nat) : Bool :=
  let b := s.bandAt bn
  Tab.has s.bands bn && s.mainOn && !b.halted && b.waiting.isNone && !b.stopped && decide (0 ≤ b.pool)

/-- One step of a band that runs an admitted program: it waits for a code page or a full flag (R530, R543), repeats a failed step, or
issues. -/
def State.columnStep (s : State) (bn : Nat) (io : StepIO) : State :=
  match s.program bn with
  | none => s
  | some (img, pb) =>
    let b := s.bandAt bn
    let page := b.pc / 1024
    let n := b.tiles.length
    let cols := (List.range n).map fun t => img.col pb t b.pc
    let effs := (List.range n).map fun t => tileColumn (s.view bn t) (cols.getD t {})
    let full := (List.range n).any fun t => (effs.getD t {}).moves.any fun m =>
      decide (Tab.getD (s.tileAt (b.tiles.getD t 0)).flags m.flag 0 = 15)
    let missing := !img.resident pb && Tab.get? b.frames (page % 8) != some page
    let failing := io.failing.filter fun u => decide (u.1 < n ∧ u.2 ≤ 64)
    let bad := io.badRows.filter fun u => decide (u.1 < n)
    if missing ∨ full then
      let s := if b.stall then s else (s.updBand bn fun b => { b with stall := true }).stretch bn 1
      if missing then s.loadPage bn page else s
    else
      let s := s.mapDep fun d => { d with corrected := d.corrected + io.corrected }
      if bad ≠ [] then forEach bad (fun u s => s.badRow bn u.1 io.rowTestFails) s
      else if failing ≠ [] then s.retryStep bn failing
      else s.issue bn img pb cols effs

/-! ### Moves, code pages and stream fills -/

/-- MOVE_COMPLETE (R44, R542 to R545): the move on a flag of a tile that Promenade serves next completes, or one that was suppressed. An MVIN writes no
row of a poisoned granule (R636). -/
def execMoveComplete (band tile flag : Nat) (s : State) : Out :=
  let b := s.bandAt band
  match b.moves.find? fun m => m.tile == tile && m.flag == flag && (m.suppressed || s.serves (.bandMove band m.seq)) with
  | none => .next s
  | some m =>
    let n := b.tiles.getD tile 0
    let s := (s.served (.bandMove band m.seq)).updBand band fun b => { b with moves := b.moves.filter fun x => x.seq != m.seq }
    let s := s.updTile n fun t => { t with flags := Tab.upd t.flags flag 0 (· - 1) }
    if m.suppressed then .next s
    else match Tab.get? s.objs m.obj with
    | none => .next s
    | some o =>
      if m.isIn then
        .next (s.updTile n fun t =>
          { t with rows := (List.range m.nrows).foldl (fun r k =>
              let a := 256 * (m.offset + k)
              if o.readable a 256 then Tab.put r (m.row + k) (bytesRow (o.bytes a 256)) else r) t.rows })
      else .next (s.updObj m.obj fun o => o.write (256 * m.offset) (m.data.flatMap rowBytes))

/-- CODE_PAGE_LOADED (R44, R527, R529, R531, R630): a page whose read fails is served from its other copy. -/
def execCodePageLoaded (band page : Nat) (failed : Bool) (s : State) : Out :=
  onTrigger ((s.bandAt band).loading.contains page && s.serves (.codePage band page)) s fun s =>
    let s := (s.served (.codePage band page)).updBand band fun b => { b with loading := b.loading.filter (· != page), frames := Tab.put b.frames (page % 8) page }
    if failed then
      let ch := Config.openVal 29 s.free % 16
      let s := { s with free := s.free + 1, dep := { s.dep with uncorrectable := s.dep.uncorrectable + 1 } }
      (s.raise 0x8C05 (0x8000 + ch)).takeRegion
    else s

/-- STREAM_LAYER_RESIDENT (R44, R623, R626, R628, R633): one tile's rows of a fill, the one that Promenade serves next, have landed. -/
def execStreamLayerResident (ctx stream tile : Nat) (s : State) : Out :=
  match [0, 1].find? fun buf => s.serves (.streamFill ctx stream buf tile) with
  | none => .next s
  | some buf =>
    match s.fillOf ctx stream buf tile with
    | none => .next s
    | some (w, f, o) =>
      let layer := w.layers.getD f.2.1 (0, 0)
      let src := 256 * (layer.1 + tile * layer.2)
      let n := (s.bandAt w.band).tiles.getD tile 0
      let base := if f.1 = 0 then w.buf0 else w.buf1
      let s := (s.served (.streamFill ctx stream buf tile)).updTile n fun t =>
        { t with rows := (List.range layer.2).foldl (fun r k => Tab.put r (base + k) (bytesRow (o.bytes (src + 256 * k) 256))) t.rows }
      let left := f.2.2.filter (· != tile)
      let fills := if left.isEmpty then w.fills.filter (· != f) else w.fills.map fun x => if x = f then (f.1, f.2.1, left) else x
      let w := { w with fills := fills, held := if left.isEmpty then setAt none w.held f.1 (some f.2.1) else w.held }
      .next (s.updCtx ctx fun c => { c with streams := Tab.put c.streams stream w })

end Sys2Proof.Machine
end

