-- ==== Sys2Proof/Machine/Contexts.lean ====
section
/-! DEFINITION. Program images and their checks (Tables 12-18 to 12-23), and the fabric commands of Table 16-13. -/

namespace Sys2Proof.Machine

/-! ### Parsing (Tables 12-18 to 12-21) -/

/-- `n` table entries of `size` bytes at `off`. -/
def entriesAt (b : List Byte) (off size n : Nat) : List (List Byte) := (List.range n).map fun i => slice b (off + i * size) size

/-- Band entry: band, role, tiles, commons rows, checkpoint rows, first slice, RV_MASK. -/
def bandEntry (e : List Byte) : List Nat := [leAt e 0 1, leAt e 1 1, leAt e 2 1, leAt e 4 4, leAt e 8 4, leAt e 12 2, leAt e 3 1]
/-- Segment entry: band, rendezvous, start, steps, stretch, and its equivalent steps as time at the floor rate, ns (R473, R474, R551). -/
def segEntry (e : List Byte) : List Nat := [leAt e 0 1, leAt e 1 1, leAt e 4 4, leAt e 8 4, leAt e 12 4, floorNs (leAt e 8 4 + leAt e 12 4)]
/-- Slice entry: band, logical tile, flags, columns, code offset, code CRC. -/
def sliceEntry (e : List Byte) : List Nat := [leAt e 0 1, leAt e 1 1, leAt e 2 1, leAt e 4 4, leAt e 8 8, leAt e 16 4]

def parseImage (b : List Byte) : ImageS :=
  { sha := slice b 64 64, bands := (entriesAt b (leAt b 32 4) 16 (leAt b 24 1)).map bandEntry,
    segments := (entriesAt b (leAt b 36 4) 16 (leAt b 26 2)).map segEntry,
    slices := (entriesAt b (leAt b 40 4) 32 (leAt b 28 4)).map sliceEntry, code := b }

/-! ### The checks of Table 12-22 -/

/-- Slices of a band in logical order, none where one is absent or named twice. -/
def ImageS.bandSlices (img : ImageS) (pb : Nat) : List (List Nat) :=
  (List.range ((img.bands.getD pb []).getD 2 0)).map fun t => img.sliceOf pb t

/-- Table 12-23, check 5. -/
def ImageS.structureOk (img : ImageS) : Bool :=
  let role (i : Nat) := (img.bands.filter fun e => e.getD 1 9 == i).length
  let bandOk (pb : Nat) : Bool :=
    let e := img.bands.getD pb []
    let sl := img.bandSlices pb
    let pair := e.getD 1 0 == 2 || e.getD 1 0 == 3
    e.getD 0 99 == pb && decide (e.getD 1 9 ≤ 3) && decide (1 ≤ e.getD 2 0 ∧ e.getD 2 0 ≤ 52) && (!pair || e.getD 2 0 == 6)
      && (img.slices.filter fun x => x.getD 0 99 == pb).length == e.getD 2 0
      && sl.all (fun x => !x.isEmpty && x.getD 3 0 == (sl.getD 0 []).getD 3 1 && decide (1 ≤ x.getD 3 0 ∧ x.getD 3 0 ≤ 1048576)
          && x.getD 4 1 % 64 == 0 && (!pair || x.getD 2 0 % 2 == 1) && (x.getD 2 0 % 2 == 0 || decide (x.getD 3 0 ≤ 8192)))
      && (!pair || decide (e.getD 4 0 ≤ 1536)) && decide (e.getD 4 0 ≤ e.getD 3 0)
  let find (r : Nat) := img.bands.find? fun e => e.getD 1 9 == r
  let pairOk := match find 2, find 3 with
    | some a, some b =>
      ((img.bandSlices (a.getD 0 0)).zip (img.bandSlices (b.getD 0 0))).all fun p => p.1.getD 4 0 == p.2.getD 4 1 && p.1.getD 3 0 == p.2.getD 3 1
    | none, none => true
    | _, _ => false
  decide (1 ≤ img.bands.length ∧ img.bands.length ≤ 16) && (List.range img.bands.length).all bandOk
    && decide (role 2 ≤ 1 ∧ role 3 ≤ 1) && pairOk

/-- OP values marked reserved (R547, Tables 12-5, 12-7, 12-9, 12-11, 12-13, 12-15). -/
def reservedOp (c : Col) : Bool :=
  let v := sl c.v 47 40
  let l (w : Nat) := decide (6 ≤ sl w 31 27)
  decide (0x20 ≤ sl c.s 31 26) || decide (5 ≤ sl c.m 47 42)
    || decide ((0x0E ≤ v ∧ v ≤ 0x0F) ∨ (0x1C ≤ v ∧ v ≤ 0x1F) ∨ (0x23 ≤ v ∧ v ≤ 0x27) ∨ (0x2C ≤ v ∧ v ≤ 0x2F) ∨ (0x35 ≤ v ∧ v ≤ 0x37) ∨ 0x3A ≤ v)
    || decide (0x0E ≤ sl c.g 31 26) || l c.l0 || l c.l1 || l c.x

def isControl (w : Nat) : Bool := decide (0x10 ≤ sl w 31 26 ∧ sl w 31 26 ≤ 0x18)
def isBranch (w : Nat) : Bool := decide (0x10 ≤ sl w 31 26 ∧ sl w 31 26 ≤ 0x13)

/-- The fields of a control operation that it reads: reserved bits do not count (R17). -/
def controlFields (w : Nat) : List Nat :=
  let op := sl w 31 26
  if isControl w = false then []
  else match op with
    | 0x10 => [op, sl w 15 0]
    | 0x13 => [op, sl w 15 0, sl w 19 16]
    | 0x15 => [op, sl w 15 0, sl w 25 16]
    | 0x16 => [op, sl w 2 0]
    | 0x17 => [op]
    | 0x18 => [op, sl w 20 16]
    | _ => [op, sl w 15 0, sl w 20 16]

/-- The control faults of Table 12-23, check 7, at address `a` of a band. -/
def ImageS.controlFault (img : ImageS) (pb a : Nat) : Bool :=
  let n := img.columns pb
  let word (t x : Nat) := (img.col pb t x).s
  let w := word 0 a
  let end_ := sl w 15 0
  let isLoop := sl w 31 26 == 0x14 || sl w 31 26 == 0x15
  let target := Int.ofNat a + sext 16 (sl w 15 0)
  (List.range (img.bandSlices pb).length).any (fun t => controlFields (word t a) != controlFields w)
    || (isBranch w && (isBranch (word 0 (a + 1)) && decide (a + 1 < n) || decide (target < 0 ∨ Int.ofNat n ≤ target)))
    || (isLoop && (end_ == 0 || decide (n ≤ a + end_) || isBranch (word 0 (a + end_))))

/-- The faults of check 8 in one column. -/
def groupFault (c : Col) : Bool :=
  let op := sl c.g 31 26
  let past (r n : Nat) := decide (n ≠ 0 ∧ 63 < r + n - 1)
  (1 ≤ op && op ≤ 13 && (past (sl c.g 22 17) (gDest op) || past (sl c.g 16 11) (gSrc op).1 || past (sl c.g 10 5) (gSrc op).2))
    || (sl c.v 47 40 == 0x2B && sl c.v 36 31 == 63) || (sl c.s 31 26 == 0x16 && decide (6 ≤ sl c.s 2 0))

/-- The loader's checks in the order of Table 12-22: status and DETAIL of the first that fails. -/
def imageCheck (b : List Byte) : Option (Nat × Nat) :=
  let img := parseImage b
  let bs := List.range img.bands.length
  let anyCol (f : Col → Bool) := bs.any fun pb => (List.range (img.bandSlices pb).length).any fun t =>
    (List.range (img.columns pb)).any fun a => f (img.col pb t a)
  if slice b 0 8 ≠ [0x4E, 0x48, 0x50, 0x47, 0x1A, 0x0A, 0x00, 0x00] ∨ wordAt b 12 ≠ crc32 (slice b 0 12 ++ zeros 4 ++ slice b 16 112) then
    some (BAD_PARAM, 0x0020)
  else if 1 < leAt b 8 1 then some (VERSION_MISMATCH, leAt b 8 1)
  else if leAt b 9 1 ≠ 32 then some (VERSION_MISMATCH, leAt b 9 1)
  else if img.sha ≠ sha512 (b.drop 128) ∨ img.slices.any (fun e => crc32 (slice b (e.getD 4 0) (32 * e.getD 3 0)) != w32 (e.getD 5 0)) then
    some (BAD_PARAM, 0x0021)
  else if img.structureOk = false then some (BAD_PARAM, 0x0022)
  else if anyCol reservedOp then some (BAD_PARAM, 0x0023)
  else if bs.any fun pb => (List.range (img.columns pb)).any fun a => img.controlFault pb a then some (BAD_PARAM, 0x0024)
  else if anyCol groupFault then some (BAD_PARAM, 0x0025)
  else none

/-! ### Admission of a program (R709) -/

/-- Granules of HBM that the two code copies of the slices that are not RESIDENT need (R630). -/
def ImageS.codeGranules (img : ImageS) : Nat :=
  2 * total (((img.slices.filter fun e => e.getD 2 0 % 2 == 0).map fun e => (e.getD 4 0, e.getD 3 0)).eraseDups.map fun e =>
    ceilDiv (32 * e.2) 65536)

/-- Commons rows of an image (Table 12-19). -/
def ImageS.commonsRows (img : ImageS) : Nat := total (img.bands.map fun e => e.getD 3 0)

/-- CONTEXT_ADMIT (R47, R478, R700, R709). -/
def execContextAdmit (c : CmdRef) (s : State) : Out :=
  onCmd 0x0900 c s fun m s =>
    let n := m.ctx
    let x := s.ctxAt n
    if x.admitted then s.refuseOpen c BUSY
    else withSg m 3 s fun b =>
      match imageCheck b with
      | some (st, d) => s.refuse c st d
      | none =>
        let img := parseImage b
        let hbm := (m.w 7).toNat
        let rate := 1000 * (m.w 9).toNat
        let banks := ceilDiv img.commonsRows 2048
        let req := img.bands.map fun e => (e.getD 2 0, e.getD 1 0, e.getD 6 0)
        match placeTiles s [] (req.map fun r => (r.1, r.2.1)) with
        | none => s.refuseOpen c NO_RESERVATION
        | some place =>
          if s.freeBands.length < req.length ∨ s.freeBanks.length < banks ∨ x.window = [] ∨ s.energyFits (m.w 8).toNat = false
              ∨ s.searchFits rate = false ∨ hbm < x.hbmUsed + img.codeGranules ∨ s.hbmFree + x.hbmUsed < hbm then
            s.refuseOpen c NO_RESERVATION
          else
            let held := s.freeBanks.take banks
            let s := s.wake
            let s := s.updCtx n fun y => { y with image := some img, admitCmd := some c, banks := held, hbmGranules := hbm,
                                                  hbmUsed := y.hbmUsed + img.codeGranules, share := (m.w 8).toNat, searchRate := rate }
            let s := s.allocBands n req place true
            forEach (s.ctxAt n).bands (fun bn s => s.updBand bn fun y => { y with frames := (List.range 8).map fun p => (p, p) }) s

/-- CONTEXT_RELEASE (R710, R618); the context's Reel entries become free (R138). A CONTEXT_ADMIT that has not committed ends with ABORTED (assumption 9). -/
def State.releaseContext (s : State) (n : Nat) : State :=
  match (s.ctxAt n).image with
  | none => s
  | some img =>
    let s := match (s.ctxAt n).admitCmd with
      | some r => s.refuseOpen r ABORTED
      | none => s
    let s := { s with reel := Tab.mapVals s.reel fun _ e => if e.owner = n ∧ e.state ≠ 0 then e.freed else e }
    ((s.credit n 2 img.codeGranules).releaseAdmission n).noteIdle

/-- CONTEXT_STATUS (Table 16-13). -/
def execContextStatus (c : CmdRef) (s : State) : Out :=
  onCmd 0x0902 c s fun m s =>
    let bs := (s.ctxAt m.ctx).bands
    s.done c OK 0 [w32 (maskOf bs), w32 (maskOf (bs.filter fun b => (s.bandAt b).halted)),
                   w32 (maskOf (bs.filter fun b => (s.bandAt b).waiting.isSome))]

/-! ### Status words (Tables 11-2, 11-5, 11-6) -/

def tileStatus (s : State) (n : Nat) : Word :=
  let t := s.tileAt n
  w32 (t.state * 2 ^ 30 + (match t.band with
    | some b => 2 ^ 29 + b * 2 ^ 25
    | none => 0) + t.logical * 2 ^ 19 + (if eastTile n then 2 ^ 18 else 0))

def laneStatus (s : State) (n : Nat) : Word :=
  let t := s.tileAt n
  w32 (t.sparesLeft * 2 ^ 28 + t.retired.getD 1 0x7F * 2 ^ 21 + t.retired.getD 0 0x7F * 2 ^ 14 + t.retry)

/-- BAND_STATUS, least significant word first. -/
def bandStatus (s : State) (n : Nat) : List Word :=
  let b := s.bandAt n
  if Tab.has s.bands n then
    let lo := b.overruns + b.rate * 2 ^ 16
    let hi := b.lastRv + (if b.waiting.isSome then 2 ^ 15 else 0) + b.partner * 2 ^ 16 + b.tiles.length * 2 ^ 20 + b.role * 2 ^ 26 + b.ctx * 2 ^ 28 + 2 ^ 31
    let m := maskOf b.tiles
    [w32 lo, w32 hi, w32 m, w32 (m / 2 ^ 32)]
  else [0, 0, 0, 0]

/-- DIAG_TILE_STATUS (R987). -/
def execDiagTileStatus (c : CmdRef) (s : State) : Out :=
  onCmd 0x0E00 c s fun m s =>
    let first := fld (m.w 3) 5 0
    let count := fld (m.w 3) 13 8
    if 55 < first ∨ count = 0 ∨ 56 < count ∨ 56 < first + count then s.refuse c BAD_PARAM 0x0103
    else s.done c OK 0 ((List.range count).flatMap fun i => [tileStatus s (first + i), laneStatus s (first + i)])

/-- DIAG_BAND_STATUS (Table 16-18). -/
def execDiagBandStatus (c : CmdRef) (s : State) : Out :=
  onCmd 0x0E01 c s fun m s =>
    let b := fld (m.w 3) 7 0
    if b = 0xFF then s.done c OK 0 ((List.range 16).flatMap (bandStatus s))
    else if b < 16 then s.done c OK 0 (bandStatus s b)
    else s.badWord c 3

/-- DIAG_COUNTERS (Table 16-18). -/
def execDiagCounters (c : CmdRef) (s : State) : Out :=
  onCmd 0x0E02 c s fun _ s =>
    s.done c OK 0 [w32 s.dep.corrected, w32 s.dep.uncorrectable, w32 s.dep.retries, w32 s.dep.retiredLanes, w32 s.dep.retiredHbm]

end Sys2Proof.Machine
end

