-- ==== Sys2Proof/Machine/Objects.lean ====
section
/-! DEFINITION. Memory objects, windows, streams and Promenade (chapter 14): the commands of Table 16-14 and the granule moves. -/

namespace Sys2Proof.Machine

/-! ### Windows to host memory (R595) -/

/-- HOST_WINDOW_SET: each data entry of the list is one extent. -/
def execHostWindowSet (c : CmdRef) (s : State) : Out :=
  onCmd 0x0A00 c s fun m s =>
    let n := m.ctx
    match sgExtents m 3 s with
    | .extents l =>
      let others := total ((List.range 8).map fun k => if k = n then 0 else total ((s.ctxAt k).window.map (·.2)))
      if (s.ctxAt n).admitted then s.refuseOpen c BUSY
      else if l = [] ∨ 256 < l.length ∨ l.any (fun e => decide (e.1 % 65536 ≠ 0 ∨ e.2 % 65536 ≠ 0)) then s.badWord c 3
      else if 2 ^ 38 < others + total (l.map (·.2)) then s.refuseOpen c NO_RESERVATION
      else (s.updCtx n fun x => { x with window := l }).done c
    | .bad => s.refuse c BAD_PARAM 0x0004
    | .poisoned => s.refuse c DATA_POISONED 0x0001

/-! ### Finding the object of a command -/

/-- The status with which an object without an intact copy answers (R633). -/
def ObjS.lostStatus (o : ObjS) : Nat := if o.kind = 2 then WEIGHTS_UNAVAILABLE else DATA_POISONED

/-- Continue with the object named in W3: it must exist, be the sender's own (`own`) or lent to it (R637), and be available (R633) unless
`lost` admits it. -/
def withObj (m : Cmd) (s : State) (own lost : Bool) (k : Nat → ObjS → State) : State :=
  match s.objOf (m.w 3) with
  | none => s.badWord m.ref 3
  | some (i, o) =>
    if o.usable m.ctx = false ∨ (own ∧ o.owner ≠ m.ctx) then s.refuseOpen m.ref NOT_OWNER
    else if o.unavailable ∧ lost = false then s.refuseOpen m.ref o.lostStatus
    else k i o

/-- A field of an object's copy in a tier. -/
def ObjS.copy (o : ObjS) (tier : Nat) : CopyS := Tab.getD o.copies tier {}
def ObjS.updCopy (o : ObjS) (tier : Nat) (f : CopyS → CopyS) : ObjS := { o with copies := Tab.upd o.copies tier {} f }

/-- Whether a copy is complete. -/
def ObjS.complete (o : ObjS) (tier : Nat) : Bool := (o.copy tier).have_.length == o.granules

/-- Whether a context holds a claim or a pin on a copy of the object, or has a window or a stream bound to it (R605). -/
def State.holdsOn (s : State) (n : Nat) (o : ObjS) : Bool :=
  let c := s.ctxAt n
  o.copies.any (fun x => bit x.2.claims n || decide (0 < Tab.getD x.2.pins n 0))
    || c.windows.any (fun w => w.2 == o.id) || c.streams.any fun w => w.2.obj == o.id

/-- Contexts of a mask, but the owner, to which the object is lent. -/
def ObjS.borrowers (o : ObjS) (mask : Nat) : List Nat := (setBits 8 mask).filter fun n => n != o.owner && bit o.share n

/-! ### Creation and contents -/

/-- OBJ_CREATE (R597, R598). -/
def execObjCreate (c : CmdRef) (s : State) : Out :=
  onCmd 0x0A01 c s fun m s =>
    let n := m.ctx
    let g := (m.w 4).toNat
    let kind := fld (m.w 5) 7 0
    if g < 1 ∨ 65536 < g then s.badWord c 4
    else if 2 < kind then s.badWord c 5
    else match withDefault (fld (m.w 5) 15 8) 1 3 2, withDefault (fld (m.w 5) 23 16) 1 4 4 with
    | some home, some cls =>
      match (List.range 4096).find? fun k => !Tab.has s.objs (n * 4096 + k) with
      | none => s.refuseOpen c NO_RESERVATION
      | some slot =>
        if s.tierFits n home g = false then s.refuseOpen c NO_RESERVATION
        else
          let k := n * 4096 + slot
          let id := w32 (Tab.getD s.reuse k 0 % 2 ^ 17 * 2 ^ 15 + k)
          let e := s.epoch + 1
          let o : ObjS := { id := id, owner := n, granules := g, kind := kind, home := home, class_ := cls, epoch := e }
          ({ s with objs := Tab.put s.objs k o, epoch := e }.charge n home g).done c OK 0 [id]
    | _, _ => s.badWord c 5

/-- Remove an object: its charges return, its windows and streams unbind, its identifier is not used again (Table 14-2). -/
def State.dropObj (s : State) (k : Nat) : State :=
  match Tab.get? s.objs k with
  | none => s
  | some o =>
    let s := s.credit o.owner o.home o.granules
    let s := forEach o.copies (fun x s => forEach (setBits 8 x.2.claims.toNat) (fun n s => s.credit n x.1 o.granules) s) s
    let s := forEach (List.range 8) (fun n s => s.updCtx n fun x =>
      { x with windows := Tab.keep x.windows (fun _ i => i != o.id), streams := Tab.keep x.streams fun _ w => w.obj != o.id }) s
    let s := match o.moving with
      | some (_, _, c, _) => s.refuseOpen c ABORTED
      | none => s
    let s := forEach s.cmds (fun m s => if m.opcode = 0x0A09 ∧ m.phase = .running ∧ m.work.head? = some k then s.refuseOpen m.ref ABORTED else s) s
    { s with objs := Tab.del s.objs k, reuse := Tab.upd s.reuse k 0 (· + 1),
             jobs := s.jobs.filter fun j => match j.job with
               | .objMove i _ => i != k
               | .moveBack i _ => i != k
               | .copyFill i _ _ => i != k
               | _ => true }

/-- OBJ_DESTROY (R605); an object that is being moved is busy (assumption 10). -/
def execObjDestroy (c : CmdRef) (s : State) : Out :=
  onCmd 0x0A02 c s fun m s =>
    withObj m s true false fun k o =>
      if (o.borrowers 255).any (fun n => s.holdsOn n o) ∨ o.moving.isSome then s.refuseOpen c BUSY
      else (s.dropObj k).done c

/-- OBJ_WRITE (R600, R603). -/
def execObjWrite (c : CmdRef) (s : State) : Out :=
  onCmd 0x0A03 c s fun m s =>
    withObj m s true false fun k o =>
      let a := 256 * (m.w 4).toNat
      if o.sealed_ then s.badWord c 3
      else if o.granules * granuleBytes < a + m.sgTotal 5 then s.badWord c 4
      else withSg m 5 s fun b => (s.updObj k fun o => o.write a b).done c

/-- OBJ_READ (R636). -/
def execObjRead (c : CmdRef) (s : State) : Out :=
  onCmd 0x0A04 c s fun m s =>
    withObj m s false false fun _ o =>
      let a := 256 * (m.w 4).toNat
      let n := m.sgTotal 5
      if o.granules * granuleBytes < a + n then s.badWord c 4
      else if o.readable a n = false then s.refuseOpen c o.lostStatus
      else s.doneOut m 5 (o.bytes a n) []

/-- OBJ_SEAL (R603). -/
def execObjSeal (c : CmdRef) (s : State) : Out :=
  onCmd 0x0A05 c s fun m s =>
    withObj m s true false fun k o =>
      if o.isData then s.badWord c 3 else (s.updObj k fun o => { o with sealed_ := true }).done c

/-- OBJ_SHARE (R600, R603, R605). -/
def execObjShare (c : CmdRef) (s : State) : Out :=
  onCmd 0x0A06 c s fun m s =>
    withObj m s true false fun k o =>
      if o.isData ∨ o.sealed_ = false then s.badWord c 3
      else (s.updObj k fun o => { o with share := o.share ||| BitVec.ofNat 8 (fld (m.w 4) 7 0) }).done c

/-- OBJ_UNSHARE (R605). -/
def execObjUnshare (c : CmdRef) (s : State) : Out :=
  onCmd 0x0A07 c s fun m s =>
    withObj m s true false fun k o =>
      let mask := fld (m.w 4) 7 0
      if (o.borrowers mask).any fun n => s.holdsOn n o then s.refuseOpen c BUSY
      else (s.updObj k fun o => { o with share := o.share &&& ~~~ (BitVec.ofNat 8 mask) }).done c

/-! ### Moves (R601, R602) -/

/-- OBJ_MOVE: the whole object is charged to the target, and its granules are queued in its CLASS. -/
def execObjMove (c : CmdRef) (s : State) : Out :=
  onCmd 0x0A08 c s fun m s =>
    withObj m s true false fun k o =>
      let tier := fld (m.w 4) 1 0
      if o.isData = false then s.badWord c 3
      else if tier = 0 then s.badWord c 4
      else if o.poisoned ≠ [] then s.refuseOpen c DATA_POISONED
      else if o.moving.isSome then s.refuseOpen c BUSY
      else if tier = o.home then s.done c
      else if s.tierFits o.owner tier o.granules = false then s.refuseOpen c NO_RESERVATION
      else
        let s := (s.charge o.owner tier o.granules).updObj k fun o => { o with moving := some (tier, [], c, false) }
        forEach (List.range o.granules) (fun g s => s.requestMove o.class_ (.objMove k g)) s

/-- Stop a move and bring the switched granules back; the command then ends with `status` (R602). -/
def State.moveBackObj (s : State) (k status : Nat) : State :=
  match Tab.get? s.objs k with
  | some o =>
    match o.moving with
    | some (tier, done, c, false) =>
      let s := { s with jobs := s.jobs.filter fun j => match j.job with
        | .objMove i _ => i != k
        | _ => true }
      if done = [] then
        ((s.credit o.owner tier o.granules).updObj k fun o => { o with moving := none }).refuseOpen c status
      else
        let s := (s.updCmd c fun x => { x with work := [status] }).updObj k fun o => { o with moving := some (tier, done, c, true) }
        forEach done (fun g s => s.requestMove o.class_ (.moveBack k g)) s
    | _ => s
  | none => s

/-! ### Copies (R614 to R621) -/

/-- Queue the fills that a copy still lacks. -/
def State.fillCopy (s : State) (k tier : Nat) : State :=
  match Tab.get? s.objs k with
  | some o =>
    forEach ((List.range o.granules).filter fun g => !(o.copy tier).have_.contains g)
      (fun g s => s.requestMove o.class_ (.copyFill k tier g)) s
  | none => s

/-- Add a context's claim on a copy; freeing of the copy stops (R614, R620). -/
def State.claim (s : State) (k tier n : Nat) : State :=
  match Tab.get? s.objs k with
  | some o =>
    let s := if bit (o.copy tier).claims n then s else s.charge n tier o.granules
    (s.updObj k fun o => o.updCopy tier fun x =>
      { x with claims := x.claims ||| BitVec.ofNat 8 (2 ^ n), freeing := false }).fillCopy k tier
  | none => s

/-- Drop a context's claim; the copy is freed, in class 4, when no claim and no pin is left (R617 to R619). -/
def State.unclaim (s : State) (k tier n : Nat) : State :=
  match Tab.get? s.objs k with
  | some o =>
    let s := if bit (o.copy tier).claims n then s.credit n tier o.granules else s
    let s := s.updObj k fun o => o.updCopy tier fun x =>
      let x := { x with claims := x.claims &&& ~~~ (BitVec.ofNat 8 (2 ^ n)) }
      if x.claims = 0 ∧ x.pins.all (fun p => p.2 == 0) ∧ x.modulePin = false then { x with freeing := true } else x
    if s.jobLive (.copyFree k tier) then s.requestMove 4 (.copyFree k tier) else s
  | none => s

/-- Drop every claim and pin of a context (R618). -/
def State.dropClaims (s : State) (n : Nat) : State :=
  forEach s.objs (fun e s => forEach e.2.copies (fun x s =>
    if bit x.2.claims n ∨ 0 < Tab.getD x.2.pins n 0 then
      (s.updObj e.1 fun o => o.updCopy x.1 fun y => { y with pins := Tab.del y.pins n }).unclaim e.1 x.1 n
    else s) s) s

/-- OBJ_PROMOTE (R614, R615, R620). It commits when its copy is complete (R711). -/
def execObjPromote (c : CmdRef) (s : State) : Out :=
  onCmd 0x0A09 c s fun m s =>
    withObj m s false false fun k o =>
      let tier := fld (m.w 4) 1 0
      let had := bit (o.copy tier).claims m.ctx
      if o.isData ∨ o.sealed_ = false then s.badWord c 3
      else if tier = 0 ∨ tier = 3 then s.badWord c 4
      else if had = false ∧ s.tierFits m.ctx tier o.granules = false then s.refuseOpen c NO_RESERVATION
      else
        let s := s.claim k tier m.ctx
        if o.complete tier then s.done c
        else s.updCmd c fun x => { x with work := [k, tier, if had then 1 else 0] }

/-- OBJ_EVICT (R617). -/
def execObjEvict (c : CmdRef) (s : State) : Out :=
  onCmd 0x0A0A c s fun m s =>
    withObj m s false false fun k o =>
      let tier := fld (m.w 4) 1 0
      if tier = 0 ∨ tier = 3 then s.badWord c 4
      else if 0 < Tab.getD (o.copy tier).pins m.ctx 0 then s.refuseOpen c BUSY
      else if bit (o.copy tier).claims m.ctx then (s.unclaim k tier m.ctx).done c
      else s.done c

/-- OBJ_PIN (R616). -/
def execObjPin (c : CmdRef) (s : State) : Out :=
  onCmd 0x0A0B c s fun m s =>
    withObj m s false false fun k o =>
      let tier := fld (m.w 4) 1 0
      if tier = 0 ∨ tier = 3 then s.badWord c 4
      else if bit (o.copy tier).claims m.ctx = false ∨ 255 ≤ Tab.getD (o.copy tier).pins m.ctx 0 then s.badWord c 3
      else (s.updObj k fun o => o.updCopy tier fun x => { x with pins := Tab.upd x.pins m.ctx 0 (· + 1) }).done c

/-- OBJ_UNPIN (R616). -/
def execObjUnpin (c : CmdRef) (s : State) : Out :=
  onCmd 0x0A0C c s fun m s =>
    withObj m s false false fun k o =>
      let tier := fld (m.w 4) 1 0
      if tier = 0 ∨ tier = 3 then s.badWord c 4
      else if Tab.getD (o.copy tier).pins m.ctx 0 = 0 then s.badWord c 3
      else (s.updObj k fun o => o.updCopy tier fun x => { x with pins := Tab.upd x.pins m.ctx 0 (· - 1) }).done c

/-! ### Windows and streams -/

/-- WINDOW_BIND (R606). -/
def execWindowBind (c : CmdRef) (s : State) : Out :=
  onCmd 0x0A0D c s fun m s =>
    let w := fld (m.w 3) 7 0
    if bit (m.w 3) 8 then (s.updCtx m.ctx fun x => { x with windows := Tab.del x.windows w }).done c
    else match s.objOf (m.w 4) with
    | none => s.badWord c 4
    | some (_, o) =>
      if o.usable m.ctx = false then s.refuseOpen c NOT_OWNER
      else if o.unavailable then s.refuseOpen c o.lostStatus
      else (s.updCtx m.ctx fun x => { x with windows := Tab.put x.windows w o.id }).done c

/-- The layers of a stream descriptor. -/
def streamLayers (b : List Byte) : List (Nat × Nat) :=
  (List.range (leAt b 8 2)).map fun i => (leAt b (32 + 8 * i) 4, leAt b (36 + 8 * i) 2)

/-- A stream descriptor's ranges (R623, Table 14-4). -/
def streamOk (b : List Byte) : Bool :=
  let n := leAt b 8 2
  let rows := leAt b 10 2
  let b0 := leAt b 12 2
  let b1 := leAt b 14 2
  decide (leAt b 6 1 ≤ 5 ∧ leAt b 7 1 ≤ 15 ∧ 1 ≤ n ∧ n ≤ 256 ∧ 1 ≤ rows ∧ rows ≤ 4096 ∧ b0 + rows ≤ 8192 ∧ b1 + rows ≤ 8192)
    && decide (b0 + rows ≤ b1 ∨ b1 + rows ≤ b0) && (streamLayers b).all fun l => decide (1 ≤ l.2 ∧ l.2 ≤ rows)

/-- STREAM_BIND (R623, R624). -/
def execStreamBind (c : CmdRef) (s : State) : Out :=
  onCmd 0x0A0E c s fun m s =>
    let n := m.ctx
    let st := fld (m.w 3) 11 8
    if bit (m.w 3) 0 then (s.updCtx n fun x => { x with streams := Tab.del x.streams st }).done c
    else withSg m 4 s fun b =>
      match s.objOf (wordAt b 0) with
      | none => s.badWord c 4
      | some (_, o) =>
        if o.usable n = false then s.refuseOpen c NOT_OWNER
        else if o.unavailable then s.refuseOpen c o.lostStatus
        else
          match (s.ctxAt n).bands[leAt b 4 1]? with
          | none => s.badWord c 4
          | some bn =>
            if o.kind ≠ 2 ∨ streamOk b = false then s.badWord c 4
            else
              let tiles := (s.bandAt bn).tiles.length
              let w : WStream := { obj := o.id, band := bn, advRv := leAt b 6 1, flag := leAt b 7 1, bufRows := leAt b 10 2,
                                   buf0 := leAt b 12 2, buf1 := leAt b 14 2, layers := streamLayers b }
              let w := (w.fill 0 0 tiles).fill 1 (1 % leAt b 8 2) tiles
              (s.putStream n st {} w).done c

/-! ### State of an object (Table 14-5) -/

def State.objState (s : State) (k : Nat) (o : ObjS) (tier : Nat) : Word :=
  let cp := o.copy tier
  let has (t : Nat) := !(o.copy t).have_.isEmpty
  let streams := (List.range 8).flatMap fun n => (s.ctxAt n).streams.filter fun w => w.2.obj == o.id
  let t0 := streams.any fun w => w.2.held.any (·.isSome)
  let flight := if tier = 0 then streams.any fun w => !w.2.fills.isEmpty
    else cp.freeing || s.jobs.any (fun j => match j.job with
      | .copyFill i t _ => i == k && t == tier
      | _ => false) || (match o.moving with
      | some (t, _) => t == tier || o.home == tier
      | none => false)
  let pins := maskOf ((cp.pins.filter fun p => decide (0 < p.2)).map (·.1) ++ (if cp.modulePin then [o.owner] else []))
  w32 (o.home * 2 ^ 30 + (if has 2 then 2 ^ 29 else 0) + (if has 1 then 2 ^ 28 else 0) + (if t0 then 2 ^ 27 else 0)
    + (if flight then 2 ^ 26 else 0) + (if o.poisoned ≠ [] ∨ o.homeBad ≠ [] then 2 ^ 25 else 0)
    + (if o.unavailable then 2 ^ 24 else 0) + o.share.toNat * 2 ^ 16 + cp.claims.toNat * 2 ^ 8 + pins)

/-- OBJ_QUERY (Table 14-5): it reports an UNAVAILABLE object too. -/
def execObjQuery (c : CmdRef) (s : State) : Out :=
  onCmd 0x0A0F c s fun m s =>
    withObj m s false true fun k o =>
      s.done c OK 0 [s.objState k o (fld (m.w 4) 1 0), o.id, w32 o.granules, w32 (o.kind + o.home * 256 + o.class_ * 65536), 0]

/-! ### Weights of the learned stages (R100, R101, R622) -/

/-- Stages, as a mask, that a WEIGHTS object serves; the spec names no object's stages (assumption 16). -/
def weightStages (id : Word) : BitVec 3 := BitVec.ofNat 3 (Config.openVal 33 id.toNat)

/-- Whether an object holds weights that a context may use. -/
def ObjS.weightsOf (o : ObjS) (n : Nat) : Bool := o.kind == 2 && (o.owner == n || bit o.share n)

/-- The stages of a context whose weights are reported WEIGHTS_UNAVAILABLE (R100). -/
def State.lostStages (s : State) (n : Nat) : BitVec 3 :=
  s.objs.foldl (fun m e => if e.2.weightsOf n && e.2.unavailable then m ||| weightStages e.2.id else m) 0

/-- A session's view of its lost weights; learned descriptors that are lost resume at a keyframe only (R101, R103). -/
def refreshLost (n : Nat) (s : State) : State :=
  s.updSession n fun x => { x with unavailable := s.lostStages n, descLearned := x.descLearned && !(s.lostStages n).getLsbD 0 }

/-- The WEIGHTS objects that the learned stages of a session of the context use, and whether the context already holds a claim on their T2 copy; an object
whose home is T2 needs no copy there (R604, R622). -/
def State.sessionWeights (s : State) (n : Nat) : List (Nat × Bool) :=
  s.objs.filterMap fun e =>
    let o := e.2
    if o.weightsOf n && o.sealed_ && !o.unavailable && weightStages o.id != 0 && o.home != 2 then some (e.1, bit (o.copy 2).claims n) else none

/-- T2 granules that claiming them takes (R615). -/
def State.weightGranules (s : State) (n : Nat) : Nat :=
  total ((s.sessionWeights n).map fun w => if w.2 then 0 else (Tab.getD s.objs w.1 {}).granules)

/-- START_SESSION claims and pins a T2 copy of the weights of its learned stages (R622). -/
def State.claimWeights (s : State) (n : Nat) : State :=
  let l := s.sessionWeights n
  let s := forEach l (fun w s =>
    (s.claim w.1 2 n).updObj w.1 fun o => o.updCopy 2 fun x => { x with pins := Tab.upd x.pins n 0 (· + 1) }) s
  s.updSession n fun x => { x with weights := l.map fun w => (w.1, !w.2) }

/-- STOP_SESSION drops what START_SESSION claimed and pinned (R618, R622). -/
def State.dropWeights (s : State) (n : Nat) (l : List (Nat × Bool)) : State :=
  forEach l (fun w s =>
    let s := s.updObj w.1 fun o => o.updCopy 2 fun x => { x with pins := Tab.upd x.pins n 0 (· - 1) }
    if w.2 then s.unclaim w.1 2 n else s) s

/-- OBJ_RELOAD (R635). -/
def execObjReload (c : CmdRef) (s : State) : Out :=
  onCmd 0x0A10 c s fun m s =>
    withObj m s true true fun k o =>
      if o.isData ∨ (o.unavailable = false ∧ o.homeBad = []) then s.badWord c 3
      else if m.sgTotal 4 ≠ o.granules * granuleBytes then s.badWord c 4
      else withSg m 4 s fun b =>
        let s := s.updObj k fun o =>
          { o with data := putBytes [] 0 b, homeBad := [], unavailable := false,
                   copies := Tab.mapVals o.copies fun _ x => { x with modulePin := false, bad := [] } }
        let s := forEach o.copies (fun x s => if x.2.claims = 0 then s.unclaim k x.1 8 else s) s
        let s := forEach (o.owner :: o.borrowers 255) refreshLost s
        (s.raiseCtx o.owner 0x8A03 (o.id.toNat % 2 ^ 15)).done c

/-- CONTEXT_RELEASE (R618, R710). -/
def execContextRelease (c : CmdRef) (s : State) : Out :=
  onCmd 0x0901 c s fun m s =>
    if (s.ctxAt m.ctx).session.isSome then s.refuseOpen c BUSY
    else ((s.dropClaims m.ctx).releaseContext m.ctx).done c

/-! ### Uncorrectable granules (R631 to R633) -/

/-- An object has a granule without an intact copy (R633, R634). -/
def State.loseObj (s : State) (k : Nat) : State :=
  match Tab.get? s.objs k with
  | some o =>
    if o.unavailable then s
    else
      let s := s.updObj k fun o => { o with unavailable := true }
      let s := s.raiseMask (2 ^ o.owner ||| o.share.toNat) 0x8A02 (o.id.toNat % 2 ^ 15)
      let s := { s with jobs := s.jobs.filter fun j => match j.job with
        | .copyFill i _ _ => i != k
        | _ => true }
      let s := forEach s.cmds (fun m s =>
        if m.opcode = 0x0A09 ∧ m.phase = .running ∧ m.work.head? = some k then s.refuseOpen m.ref o.lostStatus else s) s
      if o.kind = 2 then
        forEach (o.owner :: o.borrowers 255) refreshLost s
      else s
  | none => s

/-- The home of a read-only object fails to read a granule (R632, R633). -/
def State.homeFails (s : State) (k g : Nat) : State :=
  match Tab.get? s.objs k with
  | some o =>
    let s := s.updObj k fun o => { o with homeBad := if o.homeBad.contains g then o.homeBad else o.homeBad ++ [g] }
    match o.copies.find? fun x => x.2.have_.contains g && !x.2.bad.contains g with
    | some x =>
      (s.updObj k fun o => o.updCopy x.1 fun y => { y with modulePin := true, freeing := false }).raiseCtx o.owner 0x8A01 (o.id.toNat % 2 ^ 15)
    | none => s.loseObj k
  | none => s

/-- MEM_UNCORRECTABLE for a place whose number the command does not carry: that number is open (assumption 16). -/
def State.memError (s : State) (kind : Nat) : State :=
  let x := Config.openVal 34 (s.free * 4 + kind) % (if kind = 1 then 64 else 16)
  ({ s with free := s.free + 1, dep := { s.dep with uncorrectable := s.dep.uncorrectable + 1 } }).raise 0x8C05 (kind * 0x4000 + x)

/-- OBJECT_RESTREAMED (R631): a granule of a copy fails to read and is read again from below, into a replacement region. -/
def execObjectRestreamed (obj tier granule : Nat) (homeReadFails : Bool) (s : State) : Out :=
  match Tab.get? s.objs obj with
  | none => .next s
  | some o =>
    onTrigger ((o.copy tier).have_.contains granule && (tier == 1 || tier == 2)) s fun s =>
      let s := (s.memError tier).takeRegion
      let below := tier == 1 && (o.copy 2).have_.contains granule && !(o.copy 2).bad.contains granule
      let note (home : Bool) (s : State) := s.raiseCtx o.owner 0x8A00 ((if home ∧ o.home = 3 then 32768 else 0) + o.id.toNat % 2 ^ 15)
      if below then note false s
      else if homeReadFails then
        (s.updObj obj fun o => o.updCopy tier fun x => { x with bad := if x.bad.contains granule then x.bad else x.bad ++ [granule] }).homeFails
          obj granule
      else note true s

/-- COPY_GRANULE_FREE (R44, R619): the next granule of a copy whose freeing Promenade serves next. -/
def execCopyGranuleFree (obj tier : Nat) (s : State) : Out :=
  match Tab.get? s.objs obj with
  | none => .next s
  | some o =>
    onTrigger (s.serves (.copyFree obj tier)) s fun s =>
      let left := (o.copy tier).have_.drop 1
      let s := { s with jobs := s.jobs.filter fun j => match j.job with
        | .copyFill i t _ => !(i == obj && t == tier)
        | .copyFree i t => !(i == obj && t == tier) || left != []
        | _ => true }
      s.updObj obj fun o => if left = [] then { o with copies := Tab.del o.copies tier }
        else o.updCopy tier fun x => { x with have_ := left, bad := x.bad.filter left.contains }

/-! ### Granule moves (R44, R45, R609 to R612) -/

/-- Set IN_HOST of every version of a keyframe (R612). -/
def setInHost (v : Bool) (id : Word) (l : List Keyframe) : List Keyframe :=
  l.map fun e => if e.id = id then { e with flags := if v then e.flags ||| 2 else e.flags &&& ~~~ 2 } else e

/-- Bytes that a feature block takes in the pool: whole granules (assumption 8). -/
def FeatBlock.size (f : FeatBlock) : Nat := ceilDiv f.bytes.length granuleBytes * granuleBytes

/-- Move a keyframe's feature block to host memory or back. -/
def State.featMoved (s : State) (map : Nat) (kf : Word) (host : Bool) : State :=
  let m := s.mapAt map
  match Tab.get? m.feats kf.toNat with
  | some f =>
    if f.inHost = host then s
    else
      let s := s.updMap map fun m => { m with feats := Tab.upd m.feats kf.toNat {} (fun x => { x with inHost := host }), kfs := setInHost host kf m.kfs }
      s.updCtx m.owner fun c => { c with hostFeatBytes := if host then c.hostFeatBytes + f.size else c.hostFeatBytes - f.size }
  | none => s

/-- The granule of a job has switched. -/
def State.jobDone (s : State) (j : MoveJob) : State :=
  match j with
  | .objMove k g =>
    match Tab.get? s.objs k with
    | some o =>
      match o.moving with
      | some (tier, l, c, back) =>
        let l := l ++ [g]
        let s := s.credit o.owner o.home 1
        if l.length = o.granules then (s.updObj k fun o => { o with home := tier, moving := none }).done c
        else s.updObj k fun o => { o with moving := some (tier, l, c, back) }
      | none => s
    | none => s
  | .moveBack k g =>
    match Tab.get? s.objs k with
    | some o =>
      match o.moving with
      | some (tier, l, c, back) =>
        let l := l.filter (· != g)
        let s := s.charge o.owner o.home 1
        if l = [] then
          let st := match s.findCmd c with
            | some m => m.work.headD ABORTED
            | none => ABORTED
          ((s.credit o.owner tier o.granules).updObj k fun o => { o with moving := none }).refuseOpen c st
        else s.updObj k fun o => { o with moving := some (tier, l, c, back) }
      | none => s
    | none => s
  | .copyFill k tier g =>
    let s := s.updObj k fun o => o.updCopy tier fun x =>
      { x with have_ := if x.have_.contains g then x.have_ else sortBy (fun a b => decide (a < b)) (x.have_ ++ [g]) }
    match Tab.get? s.objs k with
    | some o =>
      if o.complete tier then
        forEach s.cmds (fun m s =>
          if m.opcode = 0x0A09 ∧ m.phase = .running ∧ m.work.take 2 = [k, tier] then s.done m.ref else s) s
      else s
    | none => s
  | .featOut m kf => s.featMoved m kf true
  | .featIn m kf => s.featMoved m kf false
  | .regionMove ch reg row => (s.takeRegion).mapDep fun d => { d with toRetire := d.toRetire ++ [(ch, reg, row)] }
  | .bandMove _ _ => s
  | .codePage _ _ => s
  | .streamFill _ _ _ _ => s
  | .copyFree _ _ => s

/-- The granule of a job cannot be read (R631 to R633, R636, R817). -/
def State.jobFails (s : State) (j : MoveJob) : State :=
  match j with
  | .objMove k g =>
    match Tab.get? s.objs k with
    | some o =>
      let s := (s.updObj k fun o => { o with poisoned := o.poisoned ++ [g] }).raiseCtx o.owner 0x8A05 (o.id.toNat % 2 ^ 15)
      s.moveBackObj k DATA_POISONED
    | none => s
  | .moveBack k g =>
    match Tab.get? s.objs k with
    | some o =>
      ((s.updObj k fun o => { o with poisoned := o.poisoned ++ [g] }).raiseCtx o.owner 0x8A05 (o.id.toNat % 2 ^ 15)).jobDone (.moveBack k g)
    | none => s
  | .copyFill k tier g =>
    match Tab.get? s.objs k with
    | some o =>
      if tier = 1 ∧ (o.copy 2).have_.contains g ∧ (o.copy 2).bad.contains g = false then
        (s.takeRegion.raiseCtx o.owner 0x8A00 ((if o.home = 3 then 32768 else 0) + o.id.toNat % 2 ^ 15)).jobDone (.copyFill k tier g)
      else s.homeFails k g
    | none => s
  | _ => s.jobDone j

/-- Whether a pending move has an event of its own: a band's move, a code page, a fill, the freeing of a copy. -/
def MoveJob.own : MoveJob → Bool
  | .bandMove _ _ => true
  | .codePage _ _ => true
  | .streamFill _ _ _ _ => true
  | .copyFree _ _ => true
  | .objMove _ _ => false
  | .moveBack _ _ => false
  | .copyFill _ _ _ => false
  | .featOut _ _ => false
  | .featIn _ _ => false
  | .regionMove _ _ _ => false

/-- GRANULE_MOVE (R44, R609, R784): Promenade serves the next pending move, where that is the move of a granule. A transfer that arrives uncorrectable is sent once more; when
it fails again the source memory is at fault. -/
def execGranuleMove (result : ReadResult) (retryFails : Bool) (s : State) : Out :=
  match s.nextJob with
  | none => .next s
  | some j =>
    onTrigger (s.mainOn && s.poolOk 18 && !j.job.own) s fun s =>
      let s := { s.spend 18 with jobs := s.jobs.filter fun x => x.seq != j.seq }
      match result with
      | .intact => s.jobDone j.job
      | .corrected => (s.mapDep fun d => { d with corrected := d.corrected + 1 }).jobDone j.job
      | .uncorrectable => if retryFails then (s.memError 2).jobFails j.job else (s.memError 3).jobDone j.job

end Sys2Proof.Machine
end

