-- ==== Sys2Proof/Machine/Vectors.lean ====
section
/-! DEFINITION. Place-recognition vectors (chapter 10): distances in binary32 with round-to-nearest-even, codes, inverted lists, and
visibility of versions under a map generation (R153, R390). -/

namespace Sys2Proof.Machine

/-! ### Generations (R153, R390) -/

/-- `b` follows `a` (R153). -/
def follows (b a : Word) : Bool := let d := (b - a).toNat; decide (1 ≤ d ∧ d < 2 ^ 31)

/-- A live version's GEN_DEAD. -/
def liveGen : Word := 0xFFFFFFFF

/-- Whether a version is visible at generation `g` (R390). -/
def visibleAt (g born dead : Word) : Bool := (g == born || follows g born) && (dead == liveGen || follows dead g)

/-- A counter's next number and the counter after it: 0xFFFFFFFF and the numbers in use are skipped (R383, R432). -/
def nextId (counter : Word) (used : List Word) : Word × Word :=
  let l := (List.range (used.length + 2)).map fun i => counter + w32 i
  let x := (l.find? fun x => x != liveGen && !used.contains x).getD counter
  (x, x + 1)

/-! ### Arithmetic -/

/-- A binary16 number as binary32. -/
def half32 (h : BitVec 16) : Nat := (b32.ofVal (b16.decode h.toNat)).bits

/-- The sum of products in ascending order, in binary32 (R430). -/
def dot32 (a b : List Nat) : Nat := (a.zip b).foldl (fun s p => (fAdd b32 s (fMul b32 p.1 p.2).bits).bits) 0

/-- The squared Euclidean distance in ascending order, in binary32. -/
def dist32 (a b : List Nat) : Nat :=
  (a.zip b).foldl (fun s p => let d := (fSub b32 p.1 p.2).bits; (fAdd b32 s (fMul b32 d d).bits).bits) 0

def lt32 (a b : Nat) : Bool := fLt (b32.decode a) (b32.decode b) false

/-- Distance under a metric: smaller is nearer (R441, R442). -/
def measure (metric : Nat) (a b : List Nat) : Nat := if metric = 2 then dist32 a b else (fNeg b32 (dot32 a b)).bits

/-- The index of the least of a list of binary32 numbers, the lower on a tie (R430). -/
def argMin (l : List Nat) : Nat :=
  (l.zipIdx.foldl (fun (best : Option (Nat × Nat)) x =>
    match best with
    | none => some (x.1, x.2)
    | some b => if lt32 x.1 b.1 then some (x.1, x.2) else some b) none).elim 0 (·.2)

/-- Convert for an index: under cosine a vector is divided by its norm; none when that norm is 0 (R430, R441). -/
def prepare (metric : Nat) (v : List Nat) : Option (List Nat) :=
  if metric = 1 then
    let norm := (fSqrt b32 (dot32 v v)).bits
    if (b32.decode norm).isZero then none else some (v.map fun x => (fDiv b32 x norm).bits)
  else some v

/-- The values of a vector given in a format: FP16, or INT8 times SCALE (Table 10-5). -/
def vectorOf (int8 : Bool) (scale : Word) (d : Nat) (b : List Byte) : List Nat :=
  (List.range d).map fun i =>
    if int8 then (fMul b32 (b32.ofVal (.ofInt (sext 8 (leAt b i 1)) 0)).bits scale.toNat).bits
    else half32 (BitVec.ofNat 16 (leAt b (2 * i) 2))

/-- Bytes of a vector of `d` values, padded to 4 bytes (Table 10-5). -/
def vectorBytes (int8 : Bool) (d : Nat) : Nat := if int8 then ceilDiv d 4 * 4 else 2 * d

/-! ### Indexes -/

def IndexS.sub (x : IndexS) : Nat := x.d / x.m

/-- Component `i` of the coarse centroids, and of the codebooks. Those of an index that the module made itself come with its weights and firmware
(R428): they are open, by the index's codebook (assumption 16, place 47). -/
def IndexS.centroidAt (x : IndexS) (i : Nat) : BitVec 16 :=
  if x.centroids = [] then BitVec.ofNat 16 (Config.openVal 47 ((x.codebookId.toNat * 2 ^ 28 + i) * 2)) else x.centroids.getD i 0
def IndexS.codebookAt (x : IndexS) (i : Nat) : BitVec 16 :=
  if x.codebooks = [] then BitVec.ofNat 16 (Config.openVal 47 ((x.codebookId.toNat * 2 ^ 28 + i) * 2 + 1)) else x.codebooks.getD i 0

/-- A coarse centroid, and a centroid of a sub-quantiser, as binary32. -/
def IndexS.centroid (x : IndexS) (i : Nat) : List Nat := (List.range x.d).map fun k => half32 (x.centroidAt (i * x.d + k))
def IndexS.codeword (x : IndexS) (m c : Nat) : List Nat := (List.range x.sub).map fun k => half32 (x.codebookAt ((m * 256 + c) * x.sub + k))
def subVector (v : List Nat) (k m : Nat) : List Nat := (v.drop (m * k)).take k

/-- Coarse distances of a vector to every list, in list order. -/
def IndexS.coarse (x : IndexS) (v : List Nat) : List Nat := (List.range x.nlist).map fun i => measure x.metric v (x.centroid i)

/-- The code of a vector (R429, R430). -/
def IndexS.encode (x : IndexS) (v : List Nat) : List Byte :=
  (List.range x.m).map fun m =>
    BitVec.ofNat 8 (argMin ((List.range 256).map fun c => dist32 (subVector v x.sub m) (x.codeword m c)))

/-- Every entry of the index, live and dead. -/
def IndexS.entries (x : IndexS) : List VecEntry := x.lists.flatMap (·.2)

/-- Change the entries of every list. -/
def IndexS.mapEntries (x : IndexS) (f : VecEntry → VecEntry) : IndexS := { x with lists := Tab.mapVals x.lists fun _ l => l.map f }
def IndexS.keepEntries (x : IndexS) (p : VecEntry → Bool) : IndexS :=
  { x with lists := (Tab.mapVals x.lists fun _ l => l.filter p).filter fun l => !l.2.isEmpty }

/-- Bytes that INDEX_CREATE reserves (R427). -/
def indexBytes (cap m nlist d : Nat) : Nat := cap * (24 + m) + nlist * 4096 + 2 * d * (nlist + 256)
def IndexS.granules (x : IndexS) : Nat := ceilDiv (indexBytes x.cap x.m x.nlist x.d) 65536

/-- The result of an insert. -/
inductive Inserted where
  | full
  | zeroNorm
  | ok (x : IndexS) (id : Word)
  deriving DecidableEq, Repr

/-- Write a prepared vector as a new entry at generation `g` (R430, R439). -/
def IndexS.insert (x : IndexS) (g kf : Word) (tag : BitVec 64) (v : List Word) : Inserted :=
  match prepare x.metric (v.map (·.toNat)) with
  | none => .zeroNorm
  | some u =>
    if x.cap ≤ x.entries.length then .full
    else
      let id := nextId x.nextVec (x.entries.map (·.vecId))
      let e : VecEntry := { vecId := id.1, genBorn := g, kf := kf, tag := tag, code := x.encode u }
      .ok { x with lists := Tab.upd x.lists (argMin (x.coarse u)) [] (· ++ [e]), nextVec := id.2 } id.1

/-- An entry of the distance table (R442): binary16, saturating. -/
def IndexS.tableAt (x : IndexS) (v : List Nat) (m c : Nat) : Nat :=
  let r := (b16.ofVal (b32.decode (measure x.metric (subVector v x.sub m) (x.codeword m c)))).bits
  half32 (BitVec.ofNat 16 (if r = 0x7C00 then 0x7BFF else if r = 0xFC00 then 0xFBFF else r))

/-- The distance of an entry (R443). -/
def IndexS.distance (x : IndexS) (v : List Nat) (code : List Byte) : Nat :=
  code.zipIdx.foldl (fun s b => (fAdd b32 s (x.tableAt v b.2 b.1.toNat)).bits) 0

/-- Nearer: smaller distance, then lower VEC_ID (R444, R446). -/
def nearer (a b : Word × VecEntry) : Bool :=
  lt32 a.1.toNat b.1.toNat || (!lt32 b.1.toNat a.1.toNat && decide (a.2.vecId.toNat < b.2.vecId.toNat))

/-- Entries of a 4 KiB page (R431). -/
def IndexS.perPage (x : IndexS) : Nat := 4096 / (24 + x.m)

/-- The page of the entry at a place of its list. -/
def IndexS.pageOf (x : IndexS) (place : Nat) : Nat := place / x.perPage

/-- The TAG of the pipeline (Table 10-4). -/
def pipelineTag (session : BitVec 16) (tValid : BitVec 64) (region : Byte) : BitVec 64 :=
  BitVec.ofNat 64 (session.toNat * 2 ^ 48 + tValid.toNat / 2 ^ 24 * 256 + region.toNat)

end Sys2Proof.Machine
end

