-- ==== Sys2Proof/Machine/MapCore.lean ====
section
/-! DEFINITION. The map store's shared operations (chapter 9): snapshots, tombstones, identifiers, and the commit sequencer. -/

namespace Sys2Proof

/-- Whether a version is live (Table 9-2). -/
def Landmark.live (e : Landmark) : Bool := e.genDead == 0xFFFFFFFF
def Keyframe.live (e : Keyframe) : Bool := e.genDead == 0xFFFFFFFF
def Edge.live (e : Edge) : Bool := e.genDead == 0xFFFFFFFF

/-- NO_FEATURES, IN_HOST, CLASSICAL_SIG and FIXED (Table 9-3). -/
def Keyframe.noFeatures (e : Keyframe) : Bool := e.flags.getLsbD 0
def Keyframe.inHost (e : Keyframe) : Bool := e.flags.getLsbD 1
def Keyframe.classicalSig (e : Keyframe) : Bool := e.flags.getLsbD 3
def Keyframe.fixed (e : Keyframe) : Bool := e.flags.getLsbD 4

/-- The index that a keyframe's VEC_ID names (R424). -/
def Keyframe.kind (e : Keyframe) : Nat := if e.classicalSig then 1 else 0

end Sys2Proof

namespace Sys2Proof.Machine

/-! ### Entries -/

def VecEntry.live (e : VecEntry) : Bool := e.genDead == liveGen

def MapS.liveLm (m : MapS) (id : Word) : Option Landmark := m.lms.find? fun e => e.id == id && e.live
def MapS.liveKf (m : MapS) (id : Word) : Option Keyframe := m.kfs.find? fun e => e.id == id && e.live
def MapS.liveEdge (m : MapS) (id : Word) : Option Edge := m.edges.find? fun e => e.id == id && e.live

/-- The versions visible at a generation (R384, R390), in ascending order of their IDs (R419). -/
def MapS.lmsAt (m : MapS) (g : Word) : List Landmark :=
  sortBy (fun a b => decide (a.id.toNat < b.id.toNat)) (m.lms.filter fun e => visibleAt g e.genBorn e.genDead)
def MapS.kfsAt (m : MapS) (g : Word) : List Keyframe :=
  sortBy (fun a b => decide (a.id.toNat < b.id.toNat)) (m.kfs.filter fun e => visibleAt g e.genBorn e.genDead)
def MapS.edgesAt (m : MapS) (g : Word) : List Edge :=
  sortBy (fun a b => decide (a.id.toNat < b.id.toNat)) (m.edges.filter fun e => visibleAt g e.genBorn e.genDead)
def MapS.kfAt (m : MapS) (g id : Word) : Option Keyframe := m.kfs.find? fun e => e.id == id && visibleAt g e.genBorn e.genDead

/-- Whether a context owns or borrows a map. -/
def MapS.usable (m : MapS) (n : Nat) : Bool := m.owner == n || bit m.lent n

/-- The sessions that use a map. -/
def State.mapSessions (s : State) (map : Nat) : List Nat :=
  s.sessionCtxs.filter fun n => match s.sessionAt n with
    | some x => x.map == map
    | none => false

/-- Keyframes in the active window of a running session on the map. -/
def State.activeKfs (s : State) (map : Nat) : List Word :=
  (s.mapSessions map).flatMap fun n => match s.sessionAt n with
    | some x => x.activeKfs
    | none => []

/-! ### Snapshots and tombstones (R390, R396) -/

def MapS.openSnap (m : MapS) (g : Word) (h : SnapHolder) : MapS :=
  { m with snaps := m.snaps ++ [{ gen := g, holder := h, seq := m.snapSeq }], snapSeq := m.snapSeq + 1 }
def MapS.closeSnap (m : MapS) (h : SnapHolder) : MapS := { m with snaps := m.snaps.filter fun x => decide (x.holder ≠ h) }
/-- Close a holder's snapshots on every map. -/
def State.closeSnap (s : State) (h : SnapHolder) : State := { s with maps := Tab.mapVals s.maps fun _ m => m.closeSnap h }

/-- Whether a tombstone with this GEN_DEAD may be freed: every open snapshot is at or after it (R396). -/
def MapS.freeable (m : MapS) (dead : Word) : Bool :=
  dead != liveGen && m.snaps.all fun x => x.gen == dead || follows x.gen dead

/-- Free the slots of the tombstones that no open snapshot needs (R396, R438); a feature block without a keyframe version goes too. -/
def MapS.freeTombstones (m : MapS) : MapS :=
  let kfs := m.kfs.filter fun e => !m.freeable e.genDead
  { m with lms := m.lms.filter (fun e => !m.freeable e.genDead), kfs := kfs, edges := m.edges.filter (fun e => !m.freeable e.genDead),
           feats := Tab.keep m.feats (fun k _ => kfs.any fun e => e.id.toNat == k),
           indexes := Tab.mapVals m.indexes fun _ x => x.keepEntries fun e => !m.freeable e.genDead }

/-! ### Room -/

/-- Slots of a capacity kept for new versions (R381). -/
def MapS.kept (m : MapS) (cap : Nat) : Nat := cap * m.headroom / 400

/-- Entries and versions that an item adds: landmarks, keyframes, edges. -/
structure Need where
  adds : Nat × Nat × Nat := (0, 0, 0)
  vers : Nat × Nat × Nat := (0, 0, 0)
  deriving DecidableEq, Repr

def Need.plus (a b : Need) : Need :=
  { adds := (a.adds.1 + b.adds.1, a.adds.2.1 + b.adds.2.1, a.adds.2.2 + b.adds.2.2),
    vers := (a.vers.1 + b.vers.1, a.vers.2.1 + b.vers.2.1, a.vers.2.2 + b.vers.2.2) }

def changeNeed : MapChange → Need
  | .addLandmark _ => { adds := (1, 0, 0) }
  | .updateLandmark _ => { vers := (1, 0, 0) }
  | .addKeyframe _ _ _ lms edges => { adds := (lms.length, 1, edges.length) }
  | .updateKeyframe _ => { vers := (0, 1, 0) }
  | .addEdge _ => { adds := (0, 0, 1) }
  | _ => {}

def QueuedOp.need : QueuedOp → Need
  | .change c => changeNeed c
  | .vector _ _ _ _ => { vers := (0, 1, 0) }
  | .dropVector _ _ => { vers := (0, 1, 0) }
  | .discard _ => { vers := (0, 1, 0) }
  | .correct _ _ _ v => { vers := (0, v.corrections.length, 0) }
  | .merge _ _ _ _ => {}

def needOf (l : List QueuedChange) : Need := l.foldl (fun n q => n.plus q.op.need) {}

/-- Whether a table of capacity `cap` with `used` slots has room for `a` new entries and `v` new versions (R381, R397). -/
def MapS.roomFor (m : MapS) (cap used a v : Nat) : Bool :=
  decide (used + a + v ≤ cap) && decide (a = 0 ∨ used + a + m.kept cap ≤ cap)

/-- Whether the map has room for a need. -/
def MapS.fits (m : MapS) (n : Need) : Bool :=
  m.roomFor m.lmCap m.lms.length n.adds.1 n.vers.1 && m.roomFor m.kfCap m.kfs.length n.adds.2.1 n.vers.2.1
    && m.roomFor m.edgeCap m.edges.length n.adds.2.2 n.vers.2.2

/-! ### Queueing an item -/

/-- The ID that stands for the new keyframe inside its landmarks and edges. -/
def newKfMark : Word := 0xFFFFFFFE

def MapS.nextLmId (m : MapS) : Word × MapS :=
  let r := nextId m.nextLm (m.lms.map (·.id))
  (r.1, { m with nextLm := r.2 })
def MapS.nextKfId (m : MapS) : Word × MapS :=
  let r := nextId m.nextKf (m.kfs.map (·.id))
  (r.1, { m with nextKf := r.2 })
def MapS.nextEdgeId (m : MapS) : Word × MapS :=
  let r := nextId m.nextEdge (m.edges.map (·.id))
  (r.1, { m with nextEdge := r.2 })

/-- Put a keyframe's ID, and the IDs of the landmarks that it carries descriptors for, into its feature block (Tables 9-2, 9-5). -/
def nameFeatures (b : List Byte) (kf : Word) (lms : List Landmark) : List Byte :=
  if b = [] then []
  else lms.foldl (fun (b : List Byte) l =>
    let i := 16 + 48 * l.repIndex.toNat
    if l.repIndex = 0xFFFF ∨ b.length < i + 4 then b else b.take i ++ wBytes l.id ++ b.drop (i + 4)) (wBytes kf ++ b.drop 4)

/-- Assign the IDs of an item's new entries (R383); the second result is the ID of the entry added, or of the one named. -/
def MapS.assign (m : MapS) (c : MapChange) : MapS × MapChange × Word :=
  match c with
  | .addLandmark e => let r := m.nextLmId; (r.2, .addLandmark { e with id := r.1 }, r.1)
  | .addEdge e => let r := m.nextEdgeId; (r.2, .addEdge { e with id := r.1 }, r.1)
  | .addKeyframe e feats vec lms edges =>
    let k := m.nextKfId
    let ls := lms.foldl (fun (a : MapS × List Landmark) l =>
      let r := a.1.nextLmId
      (r.2, a.2 ++ [{ l with id := r.1, anchor := if l.anchor = newKfMark then k.1 else l.anchor, lastSeen := if l.lastSeen = newKfMark then k.1 else l.lastSeen }]))
      (k.2, [])
    let es := edges.foldl (fun (a : MapS × List Edge) l =>
      let r := a.1.nextEdgeId
      (r.2, a.2 ++ [{ l with id := r.1, fromKf := if l.fromKf = newKfMark then k.1 else l.fromKf, toKf := if l.toKf = newKfMark then k.1 else l.toKf }]))
      (ls.1, [])
    (es.1, .addKeyframe { e with id := k.1 } (nameFeatures feats k.1 (ls.2.filter fun l => l.anchor == k.1)) vec ls.2 es.2, k.1)
  | .updateLandmark e => (m, c, e.id)
  | .deleteLandmark id => (m, c, id)
  | .updateKeyframe e => (m, c, e.id)
  | .deleteKeyframe id => (m, c, id)
  | .deleteEdge id => (m, c, id)

/-- Queue items for the map's next commit. -/
def State.enqueue (s : State) (map : Nat) (l : List QueuedChange) : State := s.updMap map fun m => { m with queue := m.queue ++ l }

/-! ### Applying an item (R386, R389, R392, R393) -/

/-- A commit while it is being written. -/
structure CommitS where
  m : MapS
  g : Word
  log : CommitLog
  window : List Word := []
  region : Byte := 0
  full : List Nat := []
  discarded : Nat := 0
  dropped : Nat := 0
  deriving DecidableEq, Repr

def killLm (g : Word) (p : Landmark → Bool) (l : List Landmark) : List Landmark := l.map fun e => if e.live && p e then { e with genDead := g } else e
def killKf (g : Word) (p : Keyframe → Bool) (l : List Keyframe) : List Keyframe := l.map fun e => if e.live && p e then { e with genDead := g } else e
def killEdge (g : Word) (p : Edge → Bool) (l : List Edge) : List Edge := l.map fun e => if e.live && p e then { e with genDead := g } else e

/-- A keyframe takes a new version (R389). -/
def CommitS.newKfVersion (a : CommitS) (old : Keyframe) (f : Keyframe → Keyframe) : CommitS :=
  { a with m := { a.m with kfs := killKf a.g (fun e => e.id == old.id) a.m.kfs ++ [{ f old with genBorn := a.g, genDead := liveGen }] } }

/-- Bytes of the feature pool in use (R415). -/
def MapS.poolUsed (m : MapS) : Nat := total ((m.feats.filter fun f => !f.2.inHost).map fun f => f.2.size)

/-- Write a keyframe's vector into its index (R434, R439); the result is its VEC_ID. -/
def CommitS.putVector (a : CommitS) (kf : Word) (kind : Nat) (tag : BitVec 64) (vec : List Word) : CommitS × Word :=
  match Tab.get? a.m.indexes kind with
  | some x =>
    if vec = [] then (a, liveGen)
    else match x.insert a.g kf tag vec with
    | .full => ({ a with full := a.full ++ [kind] }, liveGen)
    | .zeroNorm => (a, liveGen)
    | .ok x id => ({ a with m := { a.m with indexes := Tab.put a.m.indexes kind x } }, id)
  | none => (a, liveGen)

/-- End a keyframe's vector (R436). -/
def MapS.killVector (m : MapS) (g : Word) (e : Keyframe) : MapS :=
  match Tab.get? m.indexes e.kind with
  | some x =>
    if e.vecId = liveGen then m
    else { m with indexes := Tab.put m.indexes e.kind (x.mapEntries fun v => if v.vecId = e.vecId ∧ v.live then { v with genDead := g } else v) }
  | none => m

/-- Outcomes of an item (R706). -/
def applied : Nat := 0
def outDropped : Nat := 1
def outBusy : Nat := 2
def outInvalid : Nat := 3

def CommitS.addEdges (a : CommitS) (l : List Edge) : CommitS :=
  let ok := l.filter fun e => (a.m.liveKf e.fromKf).isSome && (a.m.liveKf e.toKf).isSome
  { a with m := { a.m with edges := a.m.edges ++ ok.map fun e => { e with genBorn := a.g, genDead := liveGen } },
           log := { a.log with edgeAdd := a.log.edgeAdd ++ ok.map (·.id) } }
def CommitS.addLms (a : CommitS) (l : List Landmark) : CommitS :=
  let ok := l.filter fun e => (a.m.liveKf e.anchor).isSome
  { a with m := { a.m with lms := a.m.lms ++ ok.map fun e => { e with genBorn := a.g, genDead := liveGen } },
           log := { a.log with lmAdd := a.log.lmAdd ++ ok.map (·.id) } }

/-- A new keyframe with its feature block, vector, landmarks and edges (R414, R434); without room in the pool it has NO_FEATURES
(assumption 8). -/
def CommitS.addKeyframe (a : CommitS) (e : Keyframe) (feats : List Byte) (vec : List Word) (lms : List Landmark) (edges : List Edge) : CommitS :=
  let block : FeatBlock := { bytes := feats, lastRead := a.m.readClock }
  let has := feats ≠ []
  let room := decide (a.m.poolUsed + block.size ≤ a.m.featPool)
  let v := a.putVector e.id e.kind (pipelineTag e.session e.tValid a.region) vec
  let m := v.1.m
  let m := if has ∧ room then { m with feats := Tab.put m.feats e.id.toNat block } else m
  let n := if has ∧ room then w32 (leAt feats 4 4) else 0
  let len := if has ∧ room then w32 feats.length else 0
  let flags := if has ∧ room then e.flags &&& ~~~ 3 else (e.flags &&& ~~~ 2) ||| 1
  let e : Keyframe := { e with genBorn := a.g, genDead := liveGen, vecId := v.2, flags := flags, nFeatures := n, featureBytes := len }
  let a : CommitS := { v.1 with m := { m with kfs := m.kfs ++ [e] }, log := { a.log with kfAdd := a.log.kfAdd ++ [e.id] },
                                discarded := a.discarded + (if has ∧ !room then 1 else 0) }
  (a.addLms lms).addEdges edges

/-- A keyframe's delete takes its edges, its landmarks and its vector with it (R393, R436). -/
def CommitS.deleteKf (a : CommitS) (k : Keyframe) : CommitS :=
  let gone := (a.m.lms.filter fun e => e.live && e.anchor == k.id).map (·.id)
  let m := a.m.killVector a.g k
  { a with m := { m with kfs := killKf a.g (fun e => e.id == k.id) m.kfs, lms := killLm a.g (fun e => e.anchor == k.id) m.lms,
                         edges := killEdge a.g (fun e => e.fromKf == k.id || e.toKf == k.id) m.edges },
           log := { a.log with kfDel := a.log.kfDel ++ [k.id], lmDel := a.log.lmDel ++ gone } }

/-- Apply one change; the result is its outcome. -/
def CommitS.apply (a : CommitS) (c : MapChange) (command : Bool) : CommitS × Nat :=
  match c with
  | .addLandmark e =>
    if 2 < e.kind.toNat ∨ (a.m.liveKf e.anchor).isNone then (a, outInvalid) else (a.addLms [e], applied)
  | .updateLandmark e =>
    match a.m.liveLm e.id with
    | none => (a, outDropped)
    | some _ =>
      if 2 < e.kind.toNat ∨ (a.m.liveKf e.anchor).isNone then (a, outInvalid)
      else ({ a with m := { a.m with lms := killLm a.g (fun x => x.id == e.id) a.m.lms ++ [{ e with genBorn := a.g, genDead := liveGen }] },
                     log := { a.log with lmUpd := a.log.lmUpd ++ [e.id] } }, applied)
  | .deleteLandmark id =>
    match a.m.liveLm id with
    | none => (a, outDropped)
    | some _ => ({ a with m := { a.m with lms := killLm a.g (fun x => x.id == id) a.m.lms }, log := { a.log with lmDel := a.log.lmDel ++ [id] } }, applied)
  | .addKeyframe e feats vec lms edges => (a.addKeyframe e feats vec lms edges, applied)
  | .updateKeyframe e =>
    match a.m.liveKf e.id with
    | none => (a, outDropped)
    | some old => (a.newKfVersion old fun o => { e with vecId := o.vecId, nFeatures := o.nFeatures, featureBytes := o.featureBytes,
                                                        flags := (e.flags &&& ~~~ 0xB) ||| (o.flags &&& 0xB) }, applied)
  | .deleteKeyframe id =>
    match a.m.liveKf id with
    | none => (a, outDropped)
    | some k => if command ∧ a.window.contains id then (a, outBusy) else (a.deleteKf k, applied)
  | .addEdge e =>
    if 3 < e.type.toNat ∨ (a.m.liveKf e.fromKf).isNone ∨ (a.m.liveKf e.toKf).isNone then (a, outInvalid) else (a.addEdges [e], applied)
  | .deleteEdge id =>
    match a.m.liveEdge id with
    | none => (a, outDropped)
    | some _ => ({ a with m := { a.m with edges := killEdge a.g (fun x => x.id == id) a.m.edges } }, applied)

/-- The correction of one keyframe: it takes a new version unless it is FIXED or gone (R395). -/
def CommitS.correct (a : CommitS) (c : KfCorrection) : CommitS :=
  match a.m.liveKf c.kf with
  | some k => if k.fixed then a else a.newKfVersion k fun o => { o with pos := c.pos, quat := canonQuat c.quat }
  | none => a

end Sys2Proof.Machine
end

