-- ==== Sys2Proof/Machine/Commit.lean ====
section
/-! DEFINITION. The commit sequencer of a map (R386 to R400), merges (R408 to R413, R458), MAP_DELTA records (R401 to R403), the
background sweep (R400), tombstones (R396) and the feature pool (R415, R417). -/

namespace Sys2Proof.Machine

/-! ### Poses (R391, R408) -/

/-- A quotient in whole units: which of the two neighbours an inexact one becomes is open (assumption 16). -/
def quotUnits (num den : Dy) : Int :=
  let e := min num.e den.e
  let a := num.scaled e
  let b := den.scaled e
  if b = 0 then Int.ofNat (Config.openVal 35 a.natAbs % 2 ^ 63)
  else if a % b = 0 then a / b else a / b + Int.ofNat (Config.openVal 35 (a.natAbs * 2 ^ 64 + b.natAbs) % 2)

/-- `t + R(q) v` in units of 2^-20 m (R33, R391). -/
def transform (q : List Word) (t v : List Dy) : List (BitVec 64) :=
  let qd := q.map Dy.ofWord
  let den := normSq qd
  (List.range 3).map fun i =>
    let num := (matVec (quatMat qd) v 3 i).add ((t.getD i {}).mul den)
    BitVec.ofInt 64 (quotUnits (num.mul ⟨1, 20⟩) den)

def posDy (p : List (BitVec 64)) : List Dy := p.map fun x => ⟨x.toInt, -20⟩

/-- A landmark's position in W from its anchor (R391, R704). -/
def lmInW (anchor : Keyframe) (e : Landmark) : List (BitVec 64) :=
  transform anchor.quat (posDy anchor.pos) (e.pos.map fun x => ⟨x.toInt, -16⟩)

/-- A product of quaternions in binary32; an inexact component is one of its two neighbours (assumption 16). -/
def quatProduct (a b : List Word) : List Word :=
  canonQuat ((quatMul (a.map Dy.ofWord) (b.map Dy.ofWord)).map fun d =>
    w32 (b32.round (faithful 35 d.n.natAbs) (decide (d.n < 0)) d.n.natAbs d.e false).bits)

/-! ### Maps and what hangs on them -/

/-- Bytes of a map's feature blocks in host memory. -/
def MapS.hostBytes (m : MapS) : Nat := total ((m.feats.filter fun f => f.2.inHost).map fun f => f.2.size)

/-- Replace a map; the owner's host window is charged with what its blocks take there now (R415). -/
def State.putMap (s : State) (map : Nat) (m : MapS) : State :=
  let old := (s.mapAt map).hostBytes
  (s.updMap map fun _ => m).updCtx m.owner fun c => { c with hostFeatBytes := c.hostFeatBytes - old + m.hostBytes }

/-- Events about a map concern its owner and its borrowers (assumption 22). -/
def State.raiseMap (s : State) (map code detail : Nat) : State :=
  let m := s.mapAt map
  s.raiseMask (2 ^ m.owner ||| m.lent.toNat) code (map * 4096 + detail)

/-- Remove what a command has queued for commits. -/
def State.dropQueued (s : State) (c : CmdRef) : State :=
  { s with maps := Tab.mapVals s.maps fun _ m =>
      { m with queue := m.queue.filter fun q => match q.origin with
          | .command d _ => decide (d ≠ c)
          | _ => true } }

/-- End the snapshot of a command or a query and with it the operation (R397, R399). -/
def State.endSnapshot (s : State) (map : Nat) (h : SnapHolder) (detail : Nat) : State :=
  let s := (s.closeSnap h).raiseMap map 0x8704 detail
  match h with
  | .command c => (s.dropQueued c).refuse c ABORTED detail
  | .query q =>
    let s := match (Tab.get? s.queries q) with
      | some x => (match x.cmd with
        | some c => s.refuse c ABORTED detail
        | none => s)
      | none => s
    { s with queries := Tab.del s.queries q }
  | .stage _ _ => s

/-- End the oldest snapshots held by commands until the need fits or none is left (R397); `fuel` bounds their number. -/
def State.makeRoom (map : Nat) (n : Need) : Nat → State → State
  | 0, s => s
  | fuel + 1, s =>
    if (s.mapAt map).fits n then s
    else match (s.mapAt map).snaps.find? (fun x => match x.holder with
      | .command _ => true
      | _ => false) with
    | some x =>
      let s := s.endSnapshot map x.holder 1
      State.makeRoom map n fuel (s.putMap map (s.mapAt map).freeTombstones)
    | none => s

/-! ### Merges (R408 to R413, R458) -/

/-- A rewriting of IDs: old and new. -/
abbrev Renames := List (Word × Word)
def rename (r : Renames) (id : Word) : Word := ((r.find? fun x => x.1 == id).map (·.2)).getD id
/-- A reference to an entry that the merge does not copy names none. -/
def renameOr (r : Renames) (id : Word) : Word := ((r.find? fun x => x.1 == id).map (·.2)).getD liveGen

/-- IDs for copied entries: kept when unused in the target, else new from the counter (R409). -/
def mergeIds (counter : Word) (used ids : List Word) : Renames × Word :=
  ids.foldl (fun (a : Renames × Word) id =>
    if used.contains id then
      let n := nextId a.2 (used ++ ids ++ a.1.map (·.2))
      (a.1 ++ [(id, n.1)], n.2)
    else (a.1 ++ [(id, id)], a.2)) ([], counter)

/-- What a merge reports beside its generation. -/
structure MergeOut where
  pairs : List (Word × Word) := []
  copied : Nat := 0
  noVector : Nat := 0
  deriving DecidableEq, Repr

/-- Copy a keyframe's vector (R458). -/
def CommitS.copyVector (a : CommitS) (src : MapS) (e : Keyframe) (kf : Word) : CommitS × Word :=
  match Tab.get? src.indexes e.kind, Tab.get? a.m.indexes e.kind with
  | some x, some y =>
    if x.metric = y.metric ∧ x.d = y.d ∧ x.m = y.m ∧ x.nlist = y.nlist ∧ x.codebookId = y.codebookId then
      match x.lists.find? fun l => l.2.any fun v => v.vecId == e.vecId with
      | some l =>
        match l.2.find? fun v => v.vecId == e.vecId with
        | some v =>
          if y.cap ≤ y.entries.length then ({ a with full := a.full ++ [e.kind] }, liveGen)
          else
            let used := y.entries.map (·.vecId)
            let id := if used.contains v.vecId then nextId y.nextVec used else (v.vecId, y.nextVec)
            let v := { v with vecId := id.1, kf := kf, genBorn := a.g, genDead := liveGen }
            ({ a with m := { a.m with indexes := Tab.put a.m.indexes e.kind { y with lists := Tab.upd y.lists l.1 [] (· ++ [v]), nextVec := id.2 } } },
             id.1)
        | none => (a, liveGen)
      | none => (a, liveGen)
    else (a, liveGen)
  | _, _ => (a, liveGen)

/-- A feature block with its IDs rewritten. -/
def renameFeatures (b : List Byte) (kf : Word) (lms : Renames) : List Byte :=
  let n := leAt b 4 4
  (List.range n).foldl (fun (b : List Byte) i =>
    let p := 16 + 48 * i
    b.take p ++ wBytes (renameOr lms (wordAt b p)) ++ b.drop (p + 4)) (wBytes kf ++ b.drop 4)

/-- The whole of a merge (R408 to R410). In a pair of the host, FROM_KF is a keyframe of the target and TO_KF one of the source
(assumption 8). -/
def CommitS.merge (a : CommitS) (src : MapS) (g : Word) (t : List Word) (pairs : List Edge) : CommitS × MergeOut :=
  let lms := src.lmsAt g
  let kfs := src.kfsAt g
  let es := src.edgesAt g
  let rl := mergeIds a.m.nextLm (a.m.lms.map (·.id)) (lms.map (·.id))
  let rk := mergeIds a.m.nextKf (a.m.kfs.map (·.id)) (kfs.map (·.id))
  let re := mergeIds a.m.nextEdge (a.m.edges.map (·.id)) (es.map (·.id))
  let q := t.drop 3
  let tr := (t.take 3).map Dy.ofWord
  let a := { a with m := { a.m with nextLm := rl.2, nextKf := rk.2, nextEdge := re.2 } }
  let r := kfs.foldl (fun (r : CommitS × Nat) e =>
    let id := rename rk.1 e.id
    let v := r.1.copyVector src e id
    let block : FeatBlock := { bytes := match Tab.get? src.feats e.id.toNat with
                                 | some f => renameFeatures f.bytes id rl.1
                                 | none => [], lastRead := a.m.readClock }
    let has := block.bytes ≠ [] ∧ e.noFeatures = false
    let room := decide (v.1.m.poolUsed + block.size ≤ v.1.m.featPool)
    let m := if has ∧ room then { v.1.m with feats := Tab.put v.1.m.feats id.toNat block } else v.1.m
    let e' : Keyframe := { e with id := id, genBorn := a.g, genDead := liveGen, vecId := v.2, prevKf := renameOr rk.1 e.prevKf,
                                  pos := transform q tr (posDy e.pos), quat := quatProduct q e.quat,
                                  flags := if has ∧ room then e.flags &&& ~~~ 2 else (e.flags &&& ~~~ 2) ||| 1 }
    ({ v.1 with m := { m with kfs := m.kfs ++ [e'] }, log := { v.1.log with kfAdd := v.1.log.kfAdd ++ [id] },
                discarded := v.1.discarded + (if has ∧ !room then 1 else 0) },
     r.2 + (if e.vecId ≠ liveGen ∧ v.2 = liveGen then 1 else 0))) (a, 0)
  let a := r.1.addLms (lms.map fun e => { e with id := rename rl.1 e.id, anchor := renameOr rk.1 e.anchor, lastSeen := renameOr rk.1 e.lastSeen })
  let a := a.addEdges (es.map fun e => { e with id := rename re.1 e.id, fromKf := renameOr rk.1 e.fromKf, toKf := renameOr rk.1 e.toKf })
  let a := pairs.foldl (fun (a : CommitS) e =>
    let n := a.m.nextEdgeId
    { a with m := n.2 }.addEdges [{ e with id := n.1, type := 2, toKf := renameOr rk.1 e.toKf }]) a
  (a, { pairs := (rl.1 ++ rk.1 ++ re.1).filter fun x => x.1 != x.2, copied := lms.length + kfs.length + es.length, noVector := r.2 })

/-! ### Items of a commit -/

/-- What an item leaves for its command: the command, the item, its outcome and ID. -/
abbrev ItemOut := CmdRef × Nat × Nat × Word

/-- Apply a queued item. -/
def CommitS.item (a : CommitS) (q : QueuedChange) : CommitS × List ItemOut :=
  match q.op with
  | .change c =>
    let command := match q.origin with
      | .command _ _ => true
      | _ => false
    let r := a.apply c command
    let id := match c with
      | .addLandmark e => e.id
      | .updateLandmark e => e.id
      | .deleteLandmark i => i
      | .addKeyframe e _ _ _ _ => e.id
      | .updateKeyframe e => e.id
      | .deleteKeyframe i => i
      | .addEdge e => e.id
      | .deleteEdge i => i
    (match q.origin with
    | .command d i => (r.1, [(d, i, r.2, id)])
    | .pipeline _ => ({ r.1 with dropped := r.1.dropped + (if r.2 = outDropped then 1 else 0) }, [])
    | .internal => (r.1, []))
  | .vector kf kind tag vec =>
    let r := match a.m.liveKf kf with
      | some k =>
        if k.vecId = liveGen then
          let v := a.putVector kf kind tag vec
          if v.2 = liveGen then (v.1, outBusy, liveGen)
          else (v.1.newKfVersion k fun o => { o with vecId := v.2, flags := if kind = 1 then o.flags ||| 8 else o.flags &&& ~~~ 8 }, applied, v.2)
        else (a, outBusy, liveGen)
      | none => (a, outBusy, liveGen)
    (r.1, match q.origin with
      | .command d i => [(d, i, r.2.1, r.2.2)]
      | _ => [])
  | .dropVector kf kind =>
    let r := match a.m.liveKf kf with
      | some k => if k.kind = kind ∧ k.vecId ≠ liveGen then a.newKfVersion k fun o => { o with vecId := liveGen } else a
      | none => a
    (r, match q.origin with
      | .command d i => [(d, i, applied, kf)]
      | _ => [])
  | .discard kf =>
    let a := match a.m.liveKf kf with
      | some k => a.newKfVersion k fun o => { o with flags := (o.flags &&& ~~~ 2) ||| 1 }
      | none => a
    ({ a with m := { a.m with feats := Tab.del a.m.feats kf.toNat }, discarded := a.discarded + 1 }, [])
  | .correct _ _ _ v => (v.corrections.foldl CommitS.correct a, [])
  | .merge _ _ _ _ => (a, [])

/-! ### After a commit -/

/-- The bytes of a LOOP_EVENT body (Table 2-12). -/
def loopBody (kfQuery kfMatch gen : Word) (corrected : Nat) (v : LoopVerdict) : List Byte :=
  wBytes kfQuery ++ wBytes kfMatch ++ wBytes gen ++ leBytes 4 corrected ++ v.relPos.flatMap (fun x => leBytes 8 x.toNat)
    ++ wordsBytes (canonQuat v.relQuat) ++ wBytes v.inliers ++ wBytes v.distance ++ wBytes v.maxShift ++ zeros 136

/-- LOOP_EVENT of a correction that a commit has applied (R98, R395). It carries CLASSICAL when one of its keyframes was made with a classical
signature, or with no learned descriptors (R102, Table 9-3). -/
def State.loopEvent (s : State) (map : Nat) (n : Nat) (kfQuery kfMatch gen : Word) (v : LoopVerdict) : State :=
  let m := s.mapAt map
  let t := match m.liveKf kfQuery with
    | some k => Int.ofNat k.tValid.toNat
    | none => Int.ofNat s.devNs
  let corrected := (v.corrections.filter fun c => match m.liveKf c.kf with
    | some k => !k.fixed
    | none => false).length
  let classical := [kfQuery, kfMatch].any fun id => (m.liveKf id).any fun e => bit e.flags 3 || !bit e.flags 2
  s.record n 2 { type := 5, tValid := t, oldest := t, flags := { classical := classical } } (loopBody kfQuery kfMatch gen corrected v)

/-- Raise the once-per-second counts of a map (Table 9-12). -/
def State.mapCounts (s : State) (map : Nat) : State :=
  let m := s.mapAt map
  let s := if 0 < m.dropped ∧ s.eventFree (0x870100 + map) then
      { s.raiseMap map 0x8701 (min m.dropped 4095) with eventLimit := Tab.put s.eventLimit (0x870100 + map) s.time.ticks }.updMap map
        fun m => { m with dropped := 0 }
    else s
  if 0 < m.discarded ∧ s.eventFree (0x870200 + map) then
    { s.raiseMap map 0x8702 (min m.discarded 4095) with eventLimit := Tab.put s.eventLimit (0x870200 + map) s.time.ticks }.updMap map
      fun m => { m with discarded := 0 }
  else s

/-- Keyframes whose block Promenade already carries out. -/
def State.leaving (s : State) (map : Nat) : List Word :=
  s.jobs.filterMap fun j => match j.job with
    | .featOut i kf => if i = map then some kf else none
    | _ => none

/-- Move blocks out, least recently read first, until `used` is at most 75 % of the pool; without room in the host window the block of
the least recently read keyframe is discarded at the next commit (R415, R417). -/
def State.moveOut (map : Nat) : List (Nat × FeatBlock) → Nat → Nat → State → State
  | [], _, _, s => s
  | (k, f) :: t, used, room, s =>
    let m := s.mapAt map
    if used * 100 ≤ m.featPool * 75 then s
    else if f.inHost then State.moveOut map t used room s
    else if f.size ≤ room then State.moveOut map t (used - f.size) (room - f.size) (s.requestMove 4 (.featOut map (w32 k)))
    else s

/-- The feature pool after a commit (R414, R415, R417). -/
def State.trimPool (s : State) (map : Nat) : State :=
  let m := s.mapAt map
  let leaving := s.leaving map
  let used := m.poolUsed - total (leaving.map fun k => (Tab.getD m.feats k.toNat {}).size)
  if used * 100 ≤ m.featPool * 90 then s
  else
    let active := s.activeKfs map
    let cand := sortBy (fun a b => decide (a.2.lastRead < b.2.lastRead))
      (m.feats.filter fun f => !active.contains (w32 f.1) && !leaving.contains (w32 f.1))
    let c := s.ctxAt m.owner
    let room := c.t3Total * 65536 - c.t3Used * 65536 - c.hostFeatBytes - total (leaving.map fun k => (Tab.getD m.feats k.toNat {}).size)
    let waiting := m.queue.any fun q => match q.op with
      | .discard _ => true
      | _ => false
    match cand.find? fun f => !f.2.inHost with
    | some f =>
      if f.2.size ≤ room then State.moveOut map cand used room s
      else if waiting then s
      else match cand.head? with
        | some x => s.enqueue map [{ op := .discard (w32 x.1) }]
        | none => s
    | none => s

/-- End a command whose items a commit has carried, with its output (R706, R707, Table 16-12). -/
def State.endItems (s : State) (m : Cmd) (g : Word) : State :=
  let n := m.work.length / 2
  let out := (List.range n).flatMap fun i => leBytes 4 (m.work.getD (2 * i) 0 % 256) ++ leBytes 4 (m.work.getD (2 * i + 1) 0)
  let bad := (List.range n).any fun i => m.work.getD (2 * i) 0 != 0
  if m.opcode = 0x0801 then s.done m.ref
  else
    let o := sgOut m 8 out s
    o.1.done m.ref (if bad ∨ m.sgTotal 8 < out.length then OK_PARTIAL else OK) 0 (if m.opcode = 0x0703 then [g] else []) o.2

/-- Make a written commit current (R386, R388) and do what follows from it. -/
def State.makeCurrent (s : State) (map : Nat) (a : CommitS) (outs : List ItemOut) : State :=
  let kept := !(s.mapSessions map).isEmpty
  let m := { a.m with gen := a.g, lastCommit := some s.time.ticks, log := if kept then a.m.log ++ [a.log] else [],
                      dropped := a.m.dropped + a.dropped, discarded := a.m.discarded + a.discarded }
  let s := s.putMap map m
  let s := if a.g = 0 then s.raise 0x8305 7 else s
  let s := forEach a.full (fun k s => s.raiseMap map 0x8800 k) s
  let s := s.mapCounts map
  let old := m.snaps.filter fun x => decide (2 ^ 29 ≤ (a.g - x.gen).toNat)
  let s := forEach old (fun x s => s.endSnapshot map x.holder 2) s
  let s := forEach outs (fun o s => s.updCmd o.1 fun m => { m with work := setAt 0 (setAt 0 m.work (2 * o.2.1) o.2.2.1) (2 * o.2.1 + 1) o.2.2.2.toNat }) s
  let s := forEach (outs.map (·.1)).eraseDups (fun c s => match s.findCmd c with
    | some m => s.endItems m a.g
    | none => s) s
  s.trimPool map

/-- Items left out for want of a slot: their commands' outcomes (R398). -/
def leftOut (q : QueuedChange) : List ItemOut :=
  match q.origin, q.op with
  | .command d i, .vector _ _ _ _ => [(d, i, outBusy, liveGen)]
  | .command d i, _ => [(d, i, outDropped, 0)]
  | _, _ => []

def CommitS.init (s : State) (map : Nat) (valid : Option Nat) (classical : Bool) : CommitS :=
  let m := s.mapAt map
  { m := m, g := m.gen + 1, log := { gen := m.gen + 1, valid := valid, classical := classical }, window := s.activeKfs map,
    region := match s.mapSessions map with
      | n :: _ => (match s.sessionAt n with
        | some x => x.region
        | none => 0)
      | [] => 0 }

/-- Write a batch of items as one commit (R386 to R398). -/
def State.commitBatch (s : State) (map : Nat) (batch : List QueuedChange) : State :=
  let need := needOf batch
  let s := if (s.mapAt map).fits need then s else s.putMap map (s.mapAt map).freeTombstones
  let s := State.makeRoom map need ((s.mapAt map).snaps.length + 1) s
  let m := s.mapAt map
  let noAdds := batch.filter fun q => q.op.need.adds == (0, 0, 0)
  let noVers := noAdds.filter fun q => q.op.need == {}
  let keep := if m.fits need then batch else if m.fits (needOf noAdds) then noAdds else noVers
  let s := if m.fits need then s else s.raiseMap map 0x8700 (if m.fits (needOf noAdds) then 1 else 2)
  let left := batch.filter fun q => !keep.contains q
  let valid := batch.foldl (fun v q => match q.valid with
    | some t => some t
    | none => v) none
  let r := keep.foldl (fun (r : CommitS × List ItemOut) q => let x := r.1.item q; (x.1, r.2 ++ x.2)) (CommitS.init s map valid (keep.any (·.classical)), left.flatMap leftOut)
  let s := s.makeCurrent map r.1 r.2
  forEach keep (fun q s => match q.op with
    | .correct n a b v => s.loopEvent map n a b r.1.g v
    | _ => s) s

/-- Carry out the merge commit of a command; without slots its snapshot ends (R397, R411, R412). -/
def State.commitMerge (s : State) (map : Nat) (c : CmdRef) (source : Nat) (g : Word) (t : List Word) (pairs : List Edge) : State :=
  let src := s.mapAt source
  let need : Need := { adds := ((src.lmsAt g).length, (src.kfsAt g).length, (src.edgesAt g).length + pairs.length) }
  let s := if (s.mapAt map).fits need then s else s.putMap map (s.mapAt map).freeTombstones
  if (s.mapAt map).fits need = false then s.endSnapshot map (.command c) 1
  else
    let s := s.closeSnap (.command c)
    let r := (CommitS.init s map none false).merge src g t pairs
    let s := s.makeCurrent map r.1 []
    match s.findCmd c with
    | some m =>
      let out := r.2.pairs.flatMap fun p => wBytes p.1 ++ wBytes p.2
      s.doneOut m 15 out [r.1.g, w32 r.2.copied, w32 r.2.noVector]
    | none => s

/-- Remove a map: its reservations return (R379, R427). -/
def State.dropMap (s : State) (i : Nat) : State :=
  match Tab.get? s.maps i with
  | none => s
  | some m =>
    let s := s.credit m.owner 2 (80 * (m.lmCap / 65536) + 36 * (m.kfCap / 16384) + 80 * (m.edgeCap / 65536) + m.featPool / 65536
      + total (m.indexes.map fun x => x.2.granules))
    let s := s.updCtx m.owner fun c => { c with hostFeatBytes := c.hostFeatBytes - m.hostBytes }
    { s with maps := Tab.del s.maps i, jobs := s.jobs.filter fun j => match j.job with
        | .featOut k _ => k != i
        | .featIn k _ => k != i
        | _ => true }

/-- Operations in flight on a map: queries, merges that read it, and commands whose items wait (R407; assumption 8). -/
def State.mapInFlight (s : State) (i : Nat) : Bool :=
  s.queries.any (fun q => q.2.map == i)
    || s.maps.any fun m => m.2.queue.any fun q => match q.op, q.origin with
      | .merge src _ _ _, _ => src == i || m.1 == i
      | _, .command _ _ => m.1 == i
      | _, _ => false

/-- Withdrawn maps are destroyed once no operation on them is in flight (R407). -/
def State.reapMaps (s : State) : State :=
  forEach s.maps (fun e s => if e.2.withdrawn && !s.mapInFlight e.1 then s.dropMap e.1 else s) s

/-- MAP_COMMIT (R386, R387): the sequencer starts the next commit, at most one per 1 ms; a session's changes go before a merge (R413). -/
def execMapCommit (map : Nat) (s : State) : Out :=
  let m := s.mapAt map
  let ready := match m.lastCommit with
    | some t => decide (msTicks 1 ≤ s.since t)
    | none => true
  onTrigger (Tab.has s.maps map && ready && !m.queue.isEmpty && s.mainOn) s fun s =>
    let isMerge (q : QueuedChange) : Bool := match q.op with
      | .merge _ _ _ _ => true
      | _ => false
    let batch := m.queue.filter fun q => !isMerge q
    if batch ≠ [] then (s.updMap map fun m => { m with queue := m.queue.filter isMerge }).commitBatch map batch
    else match m.queue with
      | q :: t =>
        let s := s.updMap map fun m => { m with queue := t }
        (match q.op, q.origin with
        | .merge source g tr pairs, .command c _ => (s.commitMerge map c source g tr pairs).reapMaps
        | _, _ => s)
      | [] => s

/-- TOMBSTONE_FREE (R396). -/
def execTombstoneFree (map : Nat) (s : State) : Out :=
  onTrigger (Tab.has s.maps map) s fun s => s.putMap map (s.mapAt map).freeTombstones

/-- A GEN_BORN that lies 2^30 or more behind the current generation is rewritten (R400). -/
def sweptBorn (g born : Word) : Word := if 2 ^ 30 ≤ (g - born).toNat then g - w32 (2 ^ 30) else born

/-- GENERATION_SWEEP (R400, R438): one pass over the map's versions and entries. -/
def execGenerationSweep (map : Nat) (s : State) : Out :=
  onTrigger (Tab.has s.maps map) s fun s => s.updMap map fun m =>
    { m with lms := m.lms.map (fun e => { e with genBorn := sweptBorn m.gen e.genBorn }),
             kfs := m.kfs.map (fun e => { e with genBorn := sweptBorn m.gen e.genBorn }),
             edges := m.edges.map (fun e => { e with genBorn := sweptBorn m.gen e.genBorn }),
             indexes := Tab.mapVals m.indexes (fun _ x => x.mapEntries fun e => { e with genBorn := sweptBorn m.gen e.genBorn }),
             sweepDue := m.gen }

/-! ### MAP_DELTA (R96, R97, R401 to R403) -/

/-- The ID lists of a span: an ID both added and deleted appears in neither list, one with a new version under updated (R403). -/
def deltaLists (l : List CommitLog) : List (List Word) :=
  let all (f : CommitLog → List Word) := (l.flatMap f).eraseDups
  let net (a d : List Word) := (a.filter fun x => !d.contains x, d.filter fun x => !a.contains x)
  let lm := net (all (·.lmAdd)) (all (·.lmDel))
  let kf := net (all (·.kfAdd)) (all (·.kfDel))
  let upd := (all (·.lmUpd)).filter fun x => !(all (·.lmDel)).contains x && !(all (·.lmAdd)).contains x
  [lm.1, upd, lm.2, kf.1, kf.2, all (·.edgeAdd)]

/-- The part of six lists between two positions of their concatenation. -/
def partLists : List (List Word) → Nat → Nat → List (List Word)
  | [], _, _ => []
  | x :: t, a, n => ((x.drop a).take n) :: partLists t (a - x.length) (n - ((x.drop a).take n).length)

/-- The body of one MAP_DELTA part (R96): the head's 10 fields in 4 bytes each, then reserved zeros up to 48 bytes (assumption 8). -/
def deltaBody (gf gt : Word) (part parts : Nat) (l : List (List Word)) : List Byte :=
  wBytes gf ++ wBytes gt ++ leBytes 4 part ++ leBytes 4 parts ++ l.flatMap (fun x => leBytes 4 x.length) ++ zeros 8 ++ l.flatMap wordsBytes

/-- MAP_DELTA_WRITE: the session of context `n` receives the commits since its last MAP_DELTA. -/
def execMapDeltaWrite (n : Nat) (s : State) : Out :=
  match s.sessionAt n with
  | none => .next s
  | some x =>
    let m := s.mapAt x.map
    onTrigger (Tab.has s.maps x.map && m.gen != x.deltaGen && !x.withdrawn) s fun s =>
      let log := m.log.filter fun e => follows e.gen x.deltaGen
      let lists := deltaLists log
      let ids := total (lists.map (·.length))
      let parts := max 1 (ceilDiv ids 65536)
      let t := match log.getLast? with
        | some e => (match e.valid with
          | some v => Int.ofNat v
          | none => Int.ofNat s.devNs)
        | none => Int.ofNat s.devNs
      let s := forEach (List.range parts) (fun i s =>
        s.record n 2 { type := 4, tValid := t, oldest := t, flags := { classical := log.any (·.classical) } } (deltaBody x.deltaGen m.gen i parts (partLists lists (65536 * i) 65536))) s
      let s := s.updSession n fun y => { y with deltaGen := m.gen }
      let waiting := (s.mapSessions x.map).filterMap fun k => (s.sessionAt k).map (·.deltaGen)
      s.updMap x.map fun m => { m with log := m.log.filter fun e => waiting.any fun g => follows e.gen g }

end Sys2Proof.Machine
end

