-- ==== Sys2Proof/Machine/Identity.lean ====
section
/-! DEFINITION. What the device identity key does (chapter 21): the spec gives no key, so certificates, signatures and the verdict on a
foreign signature are open values (assumption 16); the module's own signature verifies. -/

namespace Sys2Proof.Machine

/-- A certificate in DER: 0 the device leaf, 1 the Gwynry device CA, 2 the Gwynry root (R851, R852); its length and its bytes are open. -/
def certDer (n : Nat) : List Byte :=
  (List.range (1 + Config.openVal 36 (n * 65536) % 4096)).map fun i => BitVec.ofNat 8 (Config.openVal 36 (n * 65536 + i + 1))

/-- The device certificate chain, root first (R861). -/
def certChain : List Byte := certDer 2 ++ certDer 1 ++ certDer 0

/-- `n` bytes of signature over `b` with the device identity key. -/
def signature (n : Nat) (b : List Byte) : List Byte := (List.range n).map fun i => BitVec.ofNat 8 (Config.openVal 37 (ofLe b * 65536 + i))

/-- Whether a signature section over `b` verifies to the Gwynry root. -/
def signedOk (b sec : List Byte) : Bool :=
  sec == signature 512 b ++ certChain || decide (Config.openVal 38 (ofLe (b ++ sec)) % 2 = 1)

/-- Whether a signature of a firmware image or an owner transfer verifies to the key that comes with it (R849). -/
def keySigned (key data sig : List Byte) : Bool := decide (Config.openVal 38 (ofLe (key ++ data ++ sig)) % 2 = 1)

/-- Whether a public key is the Gwynry firmware key, whose hash the boot ROM holds (Table 21-1). -/
def isFirmwareKey (key : List Byte) : Bool := decide (Config.openVal 55 (ofLe key) % 2 = 1)

end Sys2Proof.Machine
end

