-- ==== Sys2Proof/Machine/Perra.lean ====
section
/-! DEFINITION. The Perra container (Tables 9-2 to 9-10, R419 to R422, R459): entries in bytes, the container of a map, and its checks. -/

namespace Sys2Proof.Machine

/-! ### Entries in bytes -/

/-- An entry's bytes; `gen` says whether GEN_BORN and GEN_DEAD are written or zero (R419). Reserved bits are written zero (R16) and
quaternions with w not below 0 (R34). -/
def lmBytes (gen : Bool) (e : Landmark) : List Byte :=
  wBytes e.id ++ wBytes (if gen then e.genBorn else 0) ++ wBytes (if gen then e.genDead else 0) ++ wBytes e.anchor ++ wordsBytes e.pos
    ++ wordsBytes e.dir ++ leBytes 2 e.sigma.toNat ++ leBytes 2 e.obs.toNat ++ leBytes 2 e.repIndex.toNat ++ [e.kind, e.flags &&& 3]
    ++ wBytes e.lastSeen ++ zeros 12

def kfBytes (gen : Bool) (e : Keyframe) : List Byte :=
  wBytes e.id ++ wBytes (if gen then e.genBorn else 0) ++ wBytes (if gen then e.genDead else 0) ++ leBytes 2 e.session.toNat
    ++ leBytes 2 (e.flags &&& 0x1F).toNat ++ leBytes 8 e.tValid.toNat ++ e.pos.flatMap (fun x => leBytes 8 x.toNat) ++ wordsBytes (canonQuat e.quat)
    ++ e.sigma.flatMap (fun x => leBytes 2 x.toNat) ++ wBytes e.streamMask ++ wBytes e.nFeatures ++ wBytes e.featureBytes
    ++ wBytes e.vecId ++ wBytes e.prevKf ++ zeros 32

def edgeBytes (gen : Bool) (e : Edge) : List Byte :=
  wBytes e.fromKf ++ wBytes e.toKf ++ wBytes (if gen then e.genBorn else 0) ++ wBytes (if gen then e.genDead else 0) ++ [e.type] ++ zeros 3
    ++ wordsBytes e.pos ++ wordsBytes (canonQuat e.quat) ++ e.info.flatMap (fun x => leBytes 2 x.toNat) ++ wBytes e.id

def halfAt (b : List Byte) (i : Nat) : BitVec 16 := BitVec.ofNat 16 (leAt b i 2)
def longAt (b : List Byte) (i : Nat) : BitVec 64 := BitVec.ofNat 64 (leAt b i 8)
def byteAt (b : List Byte) (i : Nat) : Byte := BitVec.ofNat 8 (leAt b i 1)
def wordsAt (b : List Byte) (i n : Nat) : List Word := bytesWords n (b.drop i)
def halvesAt (b : List Byte) (i n : Nat) : List (BitVec 16) := (List.range n).map fun k => halfAt b (i + 2 * k)
def longsAt (b : List Byte) (i n : Nat) : List (BitVec 64) := (List.range n).map fun k => longAt b (i + 8 * k)

/-- The entry that bytes give; reserved bits are ignored (R17). -/
def lmOf (b : List Byte) : Landmark :=
  { id := wordAt b 0, anchor := wordAt b 12, pos := wordsAt b 16 3, dir := wordsAt b 28 3, sigma := halfAt b 40, obs := halfAt b 42,
    repIndex := halfAt b 44, kind := byteAt b 46, flags := byteAt b 47 &&& 3, lastSeen := wordAt b 48 }
def kfOf (b : List Byte) : Keyframe :=
  { id := wordAt b 0, session := halfAt b 12, flags := halfAt b 14 &&& 0x1F, tValid := longAt b 16, pos := longsAt b 24 3, quat := wordsAt b 48 4,
    sigma := halvesAt b 64 6, streamMask := wordAt b 76, nFeatures := wordAt b 80, featureBytes := wordAt b 84, vecId := wordAt b 88,
    prevKf := wordAt b 92 }
def edgeOf (b : List Byte) : Edge :=
  { fromKf := wordAt b 0, toKf := wordAt b 4, type := byteAt b 16, pos := wordsAt b 20 3, quat := wordsAt b 32 4, info := halvesAt b 48 6,
    id := wordAt b 60 }

/-- A feature block with its reserved fields zero (Table 9-5, R16, R17): head bytes 10 to 15, bits 15 to 3 of an entry's FLAGS and the
two bytes after its DEPTH, and what pads the learned part. -/
def plainBlock (b : List Byte) : List Byte :=
  let n := leAt b 4 4
  let learned := n * leAt b 8 2
  let used := 16 + 48 * n + learned
  (b.zipIdx.map fun e =>
    let i := e.2
    let k := (i - 16) % 48
    if i < 16 then (if i < 10 then e.1 else 0)
    else if i < 16 + 48 * n then (if k = 10 then e.1 &&& 7 else if k = 11 ∨ k = 14 ∨ k = 15 then 0 else e.1)
    else if i < used then e.1 else 0)

/-- Zeros up to a multiple of 64. -/
def pad64 (b : List Byte) : List Byte := b ++ zeros (ceilDiv b.length 64 * 64 - b.length)

/-! ### Writing a container -/

/-- An index image (R459). -/
def indexImage (g : Word) (kind : Nat) (x : IndexS) : List Byte :=
  let lists := (List.range x.nlist).map fun i => (Tab.getD x.lists i []).filter fun e => visibleAt g e.genBorn e.genDead
  let head := [0, BitVec.ofNat 8 kind, BitVec.ofNat 8 x.metric, BitVec.ofNat 8 x.m] ++ leBytes 4 x.d ++ leBytes 4 x.nlist
    ++ leBytes 4 (total (lists.map (·.length))) ++ leBytes 8 x.codebookId.toNat
  let entry (e : VecEntry) := wBytes e.vecId ++ zeros 8 ++ wBytes e.kf ++ leBytes 8 e.tag.toNat ++ e.code
  pad64 head ++ pad64 ((List.range (x.d * x.nlist)).flatMap fun i => leBytes 2 (x.centroidAt i).toNat)
    ++ pad64 ((List.range (256 * x.d)).flatMap fun i => leBytes 2 (x.codebookAt i).toNat)
    ++ pad64 (lists.flatMap fun l => leBytes 4 l.length) ++ pad64 (lists.flatMap fun l => l.flatMap entry)

/-- A directory entry (Table 9-8). -/
def dirEntry (type offset bytes count : Nat) (crc : Word) : List Byte :=
  leBytes 2 type ++ leBytes 2 1 ++ zeros 4 ++ leBytes 8 offset ++ leBytes 8 bytes ++ leBytes 4 count ++ wBytes crc

/-- The offsets of sections that follow one another on 64-byte boundaries from `o`. -/
def offsets : Nat → List (List Byte) → List Nat
  | _, [] => []
  | o, x :: t => o :: offsets (o + ceilDiv x.length 64 * 64) t

def perraMagic : List Byte := [0x50, 0x45, 0x52, 0x52, 0x41, 0x1A, 0x0A, 0x00]

/-- The header with HEADER_CRC zero. -/
def perraHeader (s : State) (m : MapS) (g : Word) (size sections : Nat) (signed : Bool) (sha : List Byte) : List Byte :=
  perraMagic ++ leBytes 2 1 ++ leBytes 2 0 ++ zeros 4 ++ leBytes 8 size ++ leBytes 8 256 ++ leBytes 4 sections
    ++ leBytes 4 ((if m.gravity then 1 else 0) + if signed then 2 else 0) ++ leBytes 8 s.devNs ++ wBytes g ++ wBytes m.nextLm
    ++ wBytes m.nextKf ++ wBytes m.nextEdge ++ wordsBytes ((List.range 4).map Config.serial) ++ zeros 32 ++ sha ++ zeros 80

def withCrc (h : List Byte) : List Byte := h.take 12 ++ wBytes (crc32 h) ++ h.drop 16

/-- The container of a map at generation `g` (R419, R459). The directory follows the header, and SIGNATURE's own entry carries CRC 0,
which its signature could otherwise not cover (assumption 8). -/
def perraBytes (s : State) (m : MapS) (g : Word) (sign : Bool) : List Byte :=
  let lms := m.lmsAt g
  let kfs := m.kfsAt g
  let es := m.edgesAt g
  let blocks := kfs.filterMap fun e => if e.noFeatures then none else (Tab.get? m.feats e.id.toNat).map fun f => plainBlock f.bytes
  let secs : List (Nat × Nat × List Byte) :=
    [(0x8001, lms.length, lms.flatMap (lmBytes false)), (0x8002, kfs.length, kfs.flatMap (kfBytes false)),
     (0x8003, es.length, es.flatMap (edgeBytes false)), (0x0004, blocks.length, blocks.flatMap pad64),
     (0x0005, m.indexes.length, m.indexes.flatMap fun x => indexImage g x.1 x.2)]
  let n := secs.length + if sign then 1 else 0
  let start := 256 + ceilDiv (32 * n) 64 * 64
  let offs := offsets start (secs.map fun x => x.2.2)
  let stop := total [start, total (secs.map fun x => ceilDiv x.2.2.length 64 * 64)]
  let sigLen := 512 + certChain.length
  let dir := ((secs.zip offs).flatMap fun x => dirEntry x.1.1 x.2 x.1.2.2.length x.1.2.1 (crc32 x.1.2.2))
    ++ if sign then dirEntry 0x0007 stop sigLen 1 0 else []
  let body := pad64 dir ++ secs.flatMap fun x => pad64 x.2.2
  let h := perraHeader s m g (stop + if sign then sigLen else 0) n sign (sha512 body)
  withCrc h ++ body ++ if sign then signature 512 h ++ certChain else []

/-! ### Reading a container (Table 9-10, R420 to R422) -/

/-- A section: type, version, its bytes, its count and its CRC. -/
structure Section where
  type : Nat
  version : Nat
  offset : Nat
  bytes : List Byte
  count : Nat
  crc : Word
  deriving DecidableEq, Repr

def perraSections (b : List Byte) : List Section :=
  let d := leAt b 24 8
  (List.range (min 64 (leAt b 32 4))).map fun i =>
    let e := slice b (d + 32 * i) 32
    { type := leAt e 0 2, version := leAt e 2 2, offset := leAt e 8 8, bytes := slice b (leAt e 8 8) (min (leAt e 16 8) b.length),
      count := leAt e 24 4, crc := wordAt e 28 }

def sectionOf (l : List Section) (type : Nat) : Option Section := l.find? fun x => x.type == type
def sectionBytes (l : List Section) (type : Nat) : List Byte := (sectionOf l type).elim [] (·.bytes)

/-- The feature blocks of the FEATURES section, by keyframe. -/
def readBlocks : List Keyframe → List Byte → Tab FeatBlock
  | [], _ => []
  | e :: t, b =>
    if e.noFeatures then readBlocks t b
    else
      let n := e.featureBytes.toNat
      Tab.put (readBlocks t (b.drop (ceilDiv n 64 * 64))) e.id.toNat { bytes := plainBlock (b.take n) }

/-- One index image: its kind, the index and what follows it (R459). -/
def readImage (b : List Byte) : Nat × IndexS × List Byte :=
  let kind := leAt b 1 1
  let m := leAt b 3 1
  let d := leAt b 4 2
  let nlist := leAt b 8 4
  let nvec := leAt b 12 4
  let r (n : Nat) := ceilDiv n 64 * 64
  let o1 := 64 + r (2 * d * nlist)
  let o2 := o1 + r (512 * d)
  let o3 := o2 + r (4 * nlist)
  let hs (o n : Nat) := (List.range n).map fun i => halfAt b (o + 2 * i)
  let entry (i : Nat) : VecEntry :=
    let o := o3 + i * (24 + m)
    { vecId := wordAt b o, genBorn := 1, kf := wordAt b (o + 12), tag := longAt b (o + 16), code := slice b (o + 24) m }
  let lists := (List.range nlist).foldl (fun (a : Tab (List VecEntry) × Nat) i =>
    let k := leAt b (o2 + 4 * i) 4
    (if k = 0 then a.1 else a.1 ++ [(i, (List.range k).map fun j => entry (a.2 + j))], a.2 + k)) ([], 0)
  (kind, { metric := leAt b 2 1, m := m, d := d, nlist := nlist, cap := ceilDiv nvec 65536 * 65536, codebookId := longAt b 16,
           centroids := hs 64 (d * nlist), codebooks := hs o1 (256 * d), lists := lists.1 },
   b.drop (o3 + r (nvec * (24 + m))))

/-- The images of a PLACE_INDEX section; a map holds at most two. -/
def readImages (n : Nat) (b : List Byte) : Tab IndexS :=
  if n = 0 ∨ b.length < 64 then []
  else
    let x := readImage b
    if n = 1 ∨ x.2.2.length < 64 then [(x.1, x.2.1)]
    else let y := readImage x.2.2; Tab.put [(x.1, x.2.1)] y.1 y.2.1

/-- The map that a container holds (R420, R422). -/
def readMap (b : List Byte) : MapS :=
  let l := perraSections b
  let feats := sectionOf l 4
  let place := sectionOf l 5
  let lms := (chunks 64 (b.length + 1) (sectionBytes l 0x8001)).map lmOf
  let kfs := (chunks 128 (b.length + 1) (sectionBytes l 0x8002)).map kfOf
  let es := (chunks 64 (b.length + 1) (sectionBytes l 0x8003)).map edgeOf
  let kfs := kfs.map fun e =>
    { e with genBorn := 1, flags := (e.flags &&& ~~~ 2) ||| (if feats.isNone then 1 else 0),
             vecId := if place.isNone then liveGen else e.vecId }
  { gen := 1, lms := lms.map (fun e => { e with genBorn := 1 }), kfs := kfs, edges := es.map (fun e => { e with genBorn := 1 }),
    feats := match feats with
      | some x => readBlocks kfs x.bytes
      | none => [],
    nextLm := wordAt b 52, nextKf := wordAt b 56, nextEdge := wordAt b 60,
    indexes := match place with
      | some x => readImages x.count x.bytes
      | none => [],
    gravity := decide (leAt b 36 4 % 2 = 1) }

/-- The LM_IDs that a feature block names. -/
def blockLms (b : List Byte) : List Word := ((List.range (leAt b 4 4)).map fun i => wordAt b (16 + 48 * i)).filter fun x => x != liveGen

/-- Check 6 of Table 9-10. -/
def MapS.consistent (m : MapS) : Bool :=
  let lm := m.lms.map (·.id)
  let kf := m.kfs.map (·.id)
  let ed := m.edges.map (·.id)
  decide (lm.eraseDups.length = lm.length ∧ kf.eraseDups.length = kf.length ∧ ed.eraseDups.length = ed.length)
    && m.lms.all (fun e => kf.contains e.anchor) && m.edges.all (fun e => kf.contains e.fromKf && kf.contains e.toKf)
    && m.kfs.all (fun e => e.prevKf == liveGen || kf.contains e.prevKf) && m.feats.all fun f => (blockLms f.2.bytes).all lm.contains

/-- Checks 1 to 6 of Table 9-10 in their order: status and DETAIL of the first that fails. -/
def importCheck (b : List Byte) (signed : Bool) : Option (Nat × Nat) :=
  let h := b.take 12 ++ zeros 4 ++ slice b 16 240
  let l := perraSections b
  let sig := sectionOf l 7
  let bodyEnd := sig.elim b.length (·.offset)
  match l.find? fun x => decide (0x8000 ≤ x.type) && (!([0x8001, 0x8002, 0x8003].contains x.type) || x.version != 1) with
  | bad =>
    if slice b 0 8 ≠ perraMagic ∨ wordAt b 12 ≠ crc32 h then some (BAD_PARAM, 0x0010)
    else if leAt b 8 2 ≠ 1 then some (VERSION_MISMATCH, leAt b 8 2)
    else if bad.isSome then some (VERSION_MISMATCH, bad.elim 0 (·.type))
    else if (l.any fun x => x.type != 7 && x.crc != crc32 x.bytes) ∨ sha512 (slice b 256 (bodyEnd - 256)) ≠ slice b 112 64 then
      some (BAD_PARAM, 0x0011)
    else if signed && sig.elim true (fun x => !signedOk h x.bytes) then some (BAD_PARAM, 0x0012)
    else if (readMap b).consistent = false then some (BAD_PARAM, 0x0013)
    else none

end Sys2Proof.Machine
end

