-- ==== Sys2Proof/Machine/Search.lean ====
section
/-! DEFINITION. The search engine and the indexes (chapter 10, Table 16-12): INDEX_CREATE to SEARCH_QUERY, the engine's scans, and the
loop-closure queries of the pipeline. -/

namespace Sys2Proof.Machine

/-- The map in W3 [3:0]: it must exist, and the context must own it (`own`) or own or borrow it (R404, R407). -/
def withMap (m : Cmd) (s : State) (id : Nat) (word : Nat) (own : Bool) (k : MapS → State) : State :=
  match Tab.get? s.maps id with
  | none => s.badWord m.ref word
  | some x =>
    if x.withdrawn then s.badWord m.ref word
    else if (own && x.owner != m.ctx) || !x.usable m.ctx then s.refuseOpen m.ref NOT_OWNER
    else k x

/-- VEC_CAP of all indexes (R425). -/
def State.vecCaps (s : State) : Nat := total (s.maps.flatMap fun m => m.2.indexes.map fun x => x.2.cap)

/-- Whether an index of that size fits the owner's reservation and the module (R425, R427). -/
def State.indexFits (s : State) (n : Nat) (x : IndexS) : Bool := s.tierFits n 2 x.granules && decide (s.vecCaps + x.cap ≤ 16777216)

/-- Give a map an index. -/
def State.addIndex (s : State) (map kind : Nat) (x : IndexS) : State :=
  (s.charge (s.mapAt map).owner 2 x.granules).updMap map fun m => { m with indexes := Tab.put m.indexes kind x }

def halves (b : List Byte) : List (BitVec 16) := (List.range (b.length / 2)).map fun i => BitVec.ofNat 16 (leAt b (2 * i) 2)

/-- CODEBOOK_ID of an index whose centroids and codebooks have the bytes `b` (Table 10-1). -/
def codebookIdOf (b : List Byte) : BitVec 64 := BitVec.ofNat 64 (leAt (sha512 b) 0 8)

/-- INDEX_CREATE (R424 to R427). -/
def execIndexCreate (c : CmdRef) (s : State) : Out :=
  onCmd 0x0800 c s fun m s =>
    let map := fld (m.w 3) 7 0
    let kind := fld (m.w 3) 15 8
    let metric := fld (m.w 3) 23 16
    let d := fld (m.w 4) 15 0
    let nlist := (m.w 5).toNat
    let mm := if fld (m.w 3) 31 24 = 0 then 64 else fld (m.w 3) 31 24
    if 15 < map then s.badWord c 3
    else withMap m s map 3 true fun x =>
      let cap := if m.w 6 = 0 then ceilDiv x.kfCap 65536 * 65536 else (m.w 6).toNat
      if 1 < kind ∨ 2 < metric ∨ !([16, 32, 64, 128]).contains mm then s.badWord c 3
      else if d < 16 ∨ 1024 < d ∨ d % 16 ≠ 0 ∨ d % mm ≠ 0 then s.badWord c 4
      else if nlist < 256 ∨ 65536 < nlist ∨ 2 ^ nlist.log2 ≠ nlist then s.badWord c 5
      else if cap % 65536 ≠ 0 then s.badWord c 6
      else if m.sgTotal 11 ≠ 2 * d * (nlist + 256) then s.badWord c 14
      else if Tab.has x.indexes kind then s.refuseOpen c BUSY
      else withSg m 11 s fun b =>
        let h := halves b
        let y : IndexS := { metric := metric, m := mm, d := d, nlist := nlist, cap := cap, codebookId := codebookIdOf b,
                            centroids := h.take (d * nlist), codebooks := h.drop (d * nlist) }
        if s.indexFits m.ctx y then
          (s.addIndex map kind y).done c OK 0 [w32 y.codebookId.toNat, w32 (y.codebookId.toNat / 2 ^ 32)]
        else s.refuseOpen c NO_RESERVATION

/-- Whether a running session or a search query uses an index. -/
def State.indexBusy (s : State) (map kind : Nat) : Bool :=
  !(s.mapSessions map).isEmpty || s.queries.any fun q => q.2.map == map && q.2.kind == kind

/-- INDEX_DESTROY: the keyframes' new versions are one commit, with which the command ends. -/
def execIndexDestroy (c : CmdRef) (s : State) : Out :=
  onCmd 0x0801 c s fun m s =>
    let map := fld (m.w 3) 3 0
    let kind := fld (m.w 3) 8 8
    withMap m s map 3 true fun x =>
      match Tab.get? x.indexes kind with
      | none => s.badWord c 3
      | some y =>
        if s.indexBusy map kind then s.refuseOpen c BUSY
        else
          let kfs := x.kfs.filter fun e => e.live && e.kind == kind && e.vecId != liveGen
          let s := (s.credit x.owner 2 y.granules).updMap map fun m => { m with indexes := Tab.del m.indexes kind }
          if kfs = [] then s.done c
          else (s.updCmd c fun x => { x with work := [0, 0] }).enqueue map (kfs.map fun e => { op := .dropVector e.id kind, origin := .command c 0 })

/-- SEARCH_INSERT (R434, R435): the vectors join the map's next commit, with which the command ends. The format is FP16 or INT8 with
scale 1.0, by the size of the data (assumption 8). -/
def execSearchInsert (c : CmdRef) (s : State) : Out :=
  onCmd 0x0802 c s fun m s =>
    let map := fld (m.w 3) 3 0
    let kind := fld (m.w 3) 8 8
    let n := fld (m.w 3) 31 16
    withMap m s map 3 true fun x =>
      match Tab.get? x.indexes kind with
      | none => s.badWord c 3
      | some y =>
        if n < 1 ∨ 4096 < n then s.badWord c 3
        else
          let int8 := m.sgTotal 4 == n * (16 + vectorBytes true y.d)
          let size := 16 + vectorBytes int8 y.d
          if m.sgTotal 4 ≠ n * size then s.badWord c 7
          else withSg m 4 s fun b =>
            let vec (i : Nat) := vectorOf int8 0x3F800000 y.d (slice b (i * size + 16) (size - 16))
            if (List.range n).any fun i => (prepare y.metric (vec i)).isNone then s.badWord c 4
            else (s.updCmd c fun x => { x with work := List.replicate (2 * n) 0 }).enqueue map ((List.range n).map fun i =>
              { op := .vector (wordAt b (i * size)) kind (BitVec.ofNat 64 (leAt b (i * size + 8) 8)) ((vec i).map w32),
                origin := .command c i })

/-! ### Queries (R437 to R449) -/

/-- The terms of a query (Table 10-5). -/
def queryTerms (b : List Byte) (n : Nat) : List TagTerm :=
  (List.range n).map fun i =>
    let o := 32 + 32 * i
    { mask := BitVec.ofNat 64 (leAt b o 8), lo := BitVec.ofNat 64 (leAt b (o + 8) 8), hi := BitVec.ofNat 64 (leAt b (o + 16) 8),
      range := decide (leAt b (o + 24) 1 % 2 = 1) }

def TagTerm.passes (t : TagTerm) (tag : BitVec 64) : Bool :=
  let x := (tag &&& t.mask).toNat
  let inside := decide (t.lo.toNat ≤ x ∧ x ≤ t.hi.toNat)
  if t.range then !inside else inside

/-- Queries of a context that have not been answered (R454). -/
def State.queued (s : State) (n : Nat) : Nat := (s.queries.filter fun q => q.2.ctx == n).length

/-- Put a query into its context's queue. -/
def State.addQuery (s : State) (q : QueryS) : State :=
  { s with queries := Tab.put s.queries s.nextQuery q, nextQuery := s.nextQuery + 1 }

/-- SEARCH_QUERY (R440, R454). -/
def execSearchQuery (c : CmdRef) (s : State) : Out :=
  onCmd 0x0803 c s fun m s =>
    withSg m 3 s fun b =>
      let map := leAt b 0 1
      let kind := leAt b 1 1
      let int8 := leAt b 2 1 == 1
      let terms := leAt b 11 1
      if 15 < map then s.badWord c 3
      else withMap m s map 3 false fun x =>
        match Tab.get? x.indexes kind with
        | none => s.badWord c 3
        | some y =>
          match withDefault (leAt b 4 2) 1 256 8, withDefault (leAt b 6 2) 1 (min 1024 y.nlist) 32 with
          | some k, some np =>
            match withDefault (leAt b 8 2) np (min 1024 y.nlist) np, withDefault (leAt b 10 1) 1 16 4 with
            | some lim, some fetch =>
              let scale := if wordAt b 12 = 0 then 0x3F800000 else wordAt b 12
              let v := vectorOf int8 scale y.d (b.drop (32 + 32 * terms))
              if 1 < leAt b 2 1 ∨ 4 < terms ∨ 1024 < k * fetch ∨ m.sgTotal 3 ≠ 32 + 32 * terms + vectorBytes int8 y.d then s.badWord c 3
              else match prepare y.metric v with
              | none => s.badWord c 3
              | some u =>
                if 1024 ≤ s.queued m.ctx then s.refuseOpen c BUSY
                else s.addQuery { ctx := m.ctx, cmd := some c, map := map, kind := kind, k := k, nprobe := np, widen := leAt b 3 1 % 2 == 1,
                                  limit := lim, overfetch := fetch, terms := queryTerms b terms, vector := u.map w32 }
            | _, _ => s.badWord c 3
          | _, _ => s.badWord c 3

/-- The lists in the order of R441. -/
def IndexS.order (x : IndexS) (v : List Nat) : List Nat :=
  (sortBy (fun (a b : Nat × Nat) => lt32 a.1 b.1) ((x.coarse v).zipIdx)).map (·.2)

/-- Lists to have been scanned when the next pass ends (R445). -/
def QueryS.target (q : QueryS) : Nat := if q.scanned = 0 then q.nprobe else min (2 * q.scanned) q.limit

/-- The candidates of the next pass (R444): the nearest visible entries of the lists not yet scanned. -/
def QueryS.pass (q : QueryS) (g : Word) (x : IndexS) (order : List Nat) : List (Word × VecEntry) :=
  let v := q.vector.map (·.toNat)
  let lists := (order.drop q.scanned).take (q.target - q.scanned)
  let all := lists.flatMap fun l => (Tab.getD x.lists l []).filter fun e => visibleAt g e.genBorn e.genDead
  (sortBy nearer (all.map fun e => (w32 (x.distance v e.code), e))).take (q.k * q.overfetch)

/-- Whether a pass probes a list. -/
def QueryS.probes (q : QueryS) (order : List Nat) (l : Nat) : Bool := ((order.drop q.scanned).take (q.target - q.scanned)).contains l

/-- A page with an uncorrectable error is retired and its entries are lost (R455). -/
def State.losePage (s : State) (map kind l page : Nat) : State :=
  match Tab.get? (s.mapAt map).indexes kind with
  | some x =>
    let list := (Tab.getD x.lists l []).zipIdx
    let lost := (list.filter fun e => x.pageOf e.2 == page).map (·.1)
    let rest := (list.filter fun e => x.pageOf e.2 != page).map (·.1)
    let y := { x with lists := Tab.put x.lists l rest, retired := x.retired ++ [(l, page)] }
    let s := s.updMap map fun m => { m with indexes := Tab.put m.indexes kind y }
    let kfs := (s.mapAt map).kfs.filter fun e => e.live && e.kind == kind && lost.any fun v => v.live && v.vecId == e.vecId
    (s.enqueue map (kfs.map fun e => { op := .dropVector e.id kind })).raiseMap map 0x8801 (kind * 2048 + min lost.length 2047)
  | none => s

/-- SEARCH_SCAN (R441, R448, R455): the engine takes every query that waits for a pass, up to 256, loop-closure queries first, and
scans the lists of their passes; a query takes its snapshot at its first scan (R437). -/
def execSearchScan (badPages : List (Nat × Nat × Nat × Nat)) (s : State) : Out :=
  let waiting := s.queries.filter fun q => !q.2.scanning
  let batch := ((waiting.filter fun q => q.2.cmd.isNone) ++ waiting.filter fun q => q.2.cmd.isSome).take 256
  onTrigger (!batch.isEmpty && s.mainOn && s.poolOk 17) s fun s =>
    let s := s.spend 17
    let orderOf (q : QueryS) : List Nat :=
      match Tab.get? (s.mapAt q.map).indexes q.kind with
      | some x => if q.gen.isSome then q.order else x.order (q.vector.map (·.toNat))
      | none => []
    let bad := badPages.filter fun b => batch.any fun q => q.2.map == b.1 && q.2.kind == b.2.1 && q.2.probes (orderOf q.2) b.2.2.1
    let hit (q : QueryS) : Bool := bad.any fun b => q.map == b.1 && q.kind == b.2.1 && q.probes (orderOf q) b.2.2.1
    let marks := batch.map fun q => (q.1, hit q.2, orderOf q.2)
    let s := forEach bad (fun b s => s.losePage b.1 b.2.1 b.2.2.1 b.2.2.2) s
    forEach marks (fun k s =>
      let q := Tab.getD s.queries k.1 {}
      let m := s.mapAt q.map
      let g := q.gen.getD m.gen
      let s := if q.gen.isSome then s else s.updMap q.map fun m => m.openSnap g (.query k.1)
      match Tab.get? m.indexes q.kind with
      | some x =>
        let q' := { q with gen := some g, order := k.2.2, passCands := q.pass g x k.2.2, scanned := min q.target k.2.2.length,
                           scanning := true, passes := q.passes + 1, skipped := q.skipped || k.2.1 }
        { s with queries := Tab.put s.queries k.1 q' }
      | none => { s with queries := Tab.put s.queries k.1 { q with gen := some g, scanning := true, passes := q.passes + 1 } }) s

/-- The results of a query in bytes (R447). -/
def resultBytes (l : List (Word × VecEntry)) : List Byte :=
  l.flatMap fun r => wBytes r.2.vecId ++ wBytes r.2.kf ++ wBytes r.1 ++ zeros 4 ++ leBytes 8 r.2.tag.toNat

/-- Answer a query whose last pass has ended (R446, R447, R457). -/
def State.endQuery (s : State) (k : Nat) (q : QueryS) : State :=
  let l := (sortBy nearer q.survivors).take q.k
  let s := { s.closeSnap (.query k) with queries := Tab.del s.queries k }.reapMaps
  match q.cmd with
  | some c =>
    (match s.findCmd c with
    | some m =>
      let b := resultBytes l
      let o := sgOut m 7 b s
      o.1.done c (if l.length = q.k ∧ b.length ≤ m.sgTotal 7 then OK else OK_PARTIAL) (q.passes % 16 + if q.skipped then 16 else 0)
        [w32 l.length] o.2
    | none => s)
  | none =>
    let g := q.gen.getD 0
    let ok := l.filter fun r => match (s.mapAt q.map).kfAt g r.2.kf with
      | some e => !e.noFeatures
      | none => false
    s.updSession q.ctx fun x => { x with loopCand := x.loopCand ++ ok.map fun r => (q.kf, r.2.kf) }

/-- SEARCH_PASS_END (R444 to R447): the filter is applied; the query widens, or it is answered. -/
def execSearchPassEnd (query : Nat) (s : State) : Out :=
  match Tab.get? s.queries query with
  | none => .next s
  | some q =>
    onTrigger (q.scanning && s.mainOn) s fun s =>
      let surv := q.survivors ++ q.passCands.filter fun r => q.terms.all fun t => t.passes r.2.tag
      let q := { q with survivors := surv, passCands := [], scanning := false }
      if q.aborting then
        let s := { s.closeSnap (.query query) with queries := Tab.del s.queries query }.reapMaps
        (match q.cmd with
        | some c => s.refuse c ABORTED 0
        | none => s)
      else if q.widen ∧ surv.length < q.k ∧ q.scanned < min q.limit q.order.length then { s with queries := Tab.put s.queries query q }
      else s.endQuery query q

/-! ### Loop closure (R42, R395, R416, R418, R456, R457) -/

/-- LOOP_QUERY_ISSUE (R456): a query for a query keyframe of the session of context `n`, in the index of the place embedding's mode (R104) and no
more often than the loop-closure rate level allows (R77, Table 2-2). -/
def execLoopQueryIssue (n : Nat) (kf : Word) (vector : List Word) (s : State) : Out :=
  match s.sessionAt n with
  | none => .next s
  | some x =>
    let m := s.mapAt x.map
    match m.liveKf kf with
    | none => .next s
    | some e =>
      let kind := if (x.classicalMask ||| x.unavailable).getLsbD 2 || e.kind == 1 then 1 else 0
      let due := x.loopLast.all fun t => decide (msTicks 2000 ≤ x.level 5 * s.since t)
      match Tab.get? m.indexes kind with
      | none => .next s
      | some y =>
        onTrigger (due && x.prof.pose && !x.stopping && s.mainOn && vector.length == y.d && s.queued n < 1024) s fun s =>
          match prepare y.metric (vector.map (·.toNat)) with
          | none => s
          | some u =>
            let np := min (x.level 6) y.nlist
            let t := (e.tValid.toNat - 20000000000) / 2 ^ 24
            let term : TagTerm := { mask := 0xFFFFFFFFFFFFFF00, lo := BitVec.ofNat 64 (x.number.toNat * 2 ^ 48 + t * 256),
                                    hi := BitVec.ofNat 64 (x.number.toNat * 2 ^ 48 + 0xFFFFFFFFFF00), range := true }
            let q : QueryS := { ctx := n, kf := kf, map := x.map, kind := kind, k := 8, nprobe := np, limit := np, terms := [term],
                                vector := u.map w32 }
            (s.updSession n fun x => { x with loopLast := some s.time.ticks }).addQuery q

/-- Mark a keyframe's block as read now (R415). -/
def MapS.readBlock (m : MapS) (kf : Word) : MapS :=
  match Tab.get? m.feats kf.toNat with
  | some f => { m with feats := Tab.put m.feats kf.toNat { f with lastRead := m.readClock + 1 }, readClock := m.readClock + 1 }
  | none => m

/-- LOOP_VERIFY: the first candidate of the session of context `n` is verified. A block in host memory is promoted first (R416); a
candidate without features is rejected (R418); a verified one queues its correction (R42, R395). -/
def execLoopVerify (n : Nat) (verdict : LoopVerdict) (s : State) : Out :=
  match s.sessionAt n with
  | none => .next s
  | some x =>
    match x.loopCand with
    | [] => .next s
    | cand :: rest =>
      onTrigger (s.mainOn && !x.stopping) s fun s =>
        let m := s.mapAt x.map
        let drop (s : State) := s.updSession n fun y => { y with loopCand := rest }
        match m.liveKf cand.2 with
        | none => drop s
        | some e =>
          if e.noFeatures then drop s
          else if (Tab.getD m.feats cand.2.toNat {}).inHost then
            if s.jobs.any fun j => decide (j.job = .featIn x.map cand.2) then s else s.requestMove 2 (.featIn x.map cand.2)
          else
            let s := (drop s).updMap x.map fun m => m.readBlock cand.2
            if verdict.passed ∧ m.owner = n then
              s.enqueue x.map [{ op := .correct n cand.1 cand.2 verdict, origin := .pipeline n }]
            else s

end Sys2Proof.Machine
end

