-- ==== Sys2Proof/Machine/Maps.lean ====
section
/-! DEFINITION. The map commands (Table 16-11, R704 to R707). -/

namespace Sys2Proof.Machine

/-! ### Creation and end -/

/-- What MAP_CREATE and MAP_IMPORT ask for: capacities in units, the pool in units of 64 KiB, HEADROOM (R379, R381). -/
structure MapReq where
  lm : Nat
  kf : Nat
  edge : Nat
  pool : Nat
  headroom : Nat
  deriving DecidableEq, Repr

def MapReq.granules (r : MapReq) : Nat := 80 * r.lm + 36 * r.kf + 80 * r.edge + r.pool

/-- The sums over all maps stay within Table 9-1 (R380). -/
def State.tablesFit (s : State) (r : MapReq) : Bool :=
  decide (total (s.maps.map fun m => m.2.lmCap) + r.lm * 65536 ≤ 8388608)
    && decide (total (s.maps.map fun m => m.2.kfCap) + r.kf * 16384 ≤ 2097152)
    && decide (total (s.maps.map fun m => m.2.edgeCap) + r.edge * 65536 ≤ 16777216)

/-- Continue with the map number and the capacities of words 3 to 8. -/
def withMapReq (m : Cmd) (s : State) (k : Nat → MapReq → State) : State :=
  let id := fld (m.w 3) 7 0
  let num := if id = 0xFF then s.maps.lowestFree 16 else some id
  if (m.w 7).toNat < 1024 then s.badWord m.ref 7
  else match withDefault (fld (m.w 8) 6 0) 4 100 25 with
  | none => s.badWord m.ref 8
  | some h =>
    let r : MapReq := { lm := (m.w 4).toNat, kf := (m.w 5).toNat, edge := (m.w 6).toNat, pool := (m.w 7).toNat, headroom := h }
    match num with
    | none => s.refuseOpen m.ref NO_RESERVATION
    | some i =>
      if 15 < i then s.badWord m.ref 3
      else if Tab.has s.maps i then s.refuseOpen m.ref BUSY
      else k i r

/-- Give a context a map with these capacities. -/
def State.addMap (s : State) (n i : Nat) (r : MapReq) (m : MapS) : State :=
  let m := { m with owner := n, lmCap := r.lm * 65536, kfCap := r.kf * 16384, edgeCap := r.edge * 65536, featPool := r.pool * 65536,
                    headroom := r.headroom }
  { s.charge n 2 r.granules with maps := Tab.put s.maps i m }

/-- MAP_CREATE (R378 to R381). -/
def execMapCreate (c : CmdRef) (s : State) : Out :=
  onCmd 0x0700 c s fun m s =>
    withMapReq m s fun i r =>
      if s.tierFits m.ctx 2 r.granules && s.tablesFit r then (s.addMap m.ctx i r {}).done c OK 0 [w32 i]
      else s.refuseOpen c NO_RESERVATION

/-- MAP_DESTROY (R382). -/
def execMapDestroy (c : CmdRef) (s : State) : Out :=
  onCmd 0x0701 c s fun m s =>
    let i := fld (m.w 3) 3 0
    withMap m s i 3 true fun x =>
      if !(s.mapSessions i).isEmpty ∨ x.lent ≠ 0 ∨ s.mapInFlight i then s.refuseOpen c BUSY
      else (s.dropMap i).done c

/-! ### Reading -/

/-- MAP_QUERY (R391, R704): the entries from the first ID on, up to the count, visible at the snapshot that the commit takes. -/
def execMapQuery (c : CmdRef) (s : State) : Out :=
  onCmd 0x0702 c s fun m s =>
    let i := fld (m.w 3) 3 0
    let kind := fld (m.w 3) 9 8
    let first := (m.w 4).toNat
    let n := (m.w 5).toNat
    withMap m s i 3 false fun x =>
      if n < 1 ∨ 65536 < n then s.badWord c 5
      else
        let g := x.gen
        let kfs := (x.kfsAt g).filter fun e => decide (first ≤ e.id.toNat)
        let items : List (List Byte) :=
          if kind = 0 then
            (((x.lmsAt g).filter fun e => decide (first ≤ e.id.toNat)).take n).map fun e =>
              lmBytes true e ++ (match x.kfAt g e.anchor with
                | some k => (lmInW k e).flatMap fun p => leBytes 8 p.toNat
                | none => zeros 24) ++ zeros 8
          else if kind = 1 then (kfs.take n).map (kfBytes true)
          else if kind = 2 then (((x.edgesAt g).filter fun e => decide (first ≤ e.id.toNat)).take n).map (edgeBytes true)
          else ((kfs.filter fun e => !e.noFeatures).take n).map fun e => plainBlock (Tab.getD x.feats e.id.toNat {}).bytes
        let read := if kind = 3 then ((kfs.filter fun e => !e.noFeatures).take n).map (·.id) else []
        let b := items.flatMap id
        let whole := ((List.range items.length).filter fun k => decide (total ((items.take (k + 1)).map (·.length)) ≤ m.sgTotal 6)).length
        let s := s.updMap i fun x => read.foldl MapS.readBlock x
        s.doneOut m 6 b [g, w32 whole, w32 b.length]

/-! ### Edits (R705 to R707) -/

/-- The change that an item of 136 bytes asks for; none when its OP is unknown (R705). A keyframe of the host has no feature block and no
vector, and an added landmark is HOST_ADDED (R706). -/
def editChange (b : List Byte) : Option MapChange :=
  let id := wordAt b 4
  let e := b.drop 8
  match leAt b 0 1 with
  | 0 => some (.addLandmark { lmOf e with flags := (lmOf e).flags ||| 2 })
  | 1 => some (.updateLandmark { lmOf e with id := id })
  | 2 => some (.deleteLandmark id)
  | 3 => some (.addKeyframe { kfOf e with vecId := liveGen } [] [] [] [])
  | 4 => some (.deleteKeyframe id)
  | 5 => some (.addEdge (edgeOf e))
  | 6 => some (.deleteEdge id)
  | _ => none

/-- MAP_EDIT: its items join the map's next commit, with which it ends. -/
def execMapEdit (c : CmdRef) (s : State) : Out :=
  onCmd 0x0703 c s fun m s =>
    let i := fld (m.w 3) 3 0
    withMap m s i 3 true fun x =>
      if m.sgTotal 4 % 136 ≠ 0 then s.badWord c 7
      else withSg m 4 s fun b =>
        let items := (chunks 136 (b.length + 1) b).map fun e => (editChange e, (wordAt e 4).toNat)
        let r := items.zipIdx.foldl (fun (a : MapS × List QueuedChange × List Nat) it =>
          match it.1.1 with
          | some ch =>
            let y := a.1.assign ch
            (y.1, a.2.1 ++ [{ op := .change y.2.1, origin := .command c it.2 }], a.2.2 ++ [0, y.2.2.toNat])
          | none => (a.1, a.2.1, a.2.2 ++ [outInvalid, it.1.2])) (x, [], [])
        let s := (s.updMap i fun _ => r.1).updCmd c fun y => { y with work := r.2.2 }
        if r.2.1 = [] then
          (match s.findCmd c with
          | some y => s.endItems y x.gen
          | none => s)
        else s.enqueue i r.2.1

/-! ### Lending (R404 to R406) -/

/-- MAP_LEND. -/
def execMapLend (c : CmdRef) (s : State) : Out :=
  onCmd 0x0704 c s fun m s =>
    let i := fld (m.w 3) 3 0
    let mask := fld (m.w 4) 7 0
    withMap m s i 3 true fun x =>
      if mask.testBit x.owner then s.badWord c 4
      else (s.updMap i fun x => { x with lent := x.lent ||| BitVec.ofNat 8 mask }).done c

/-- MAP_RECALL. -/
def execMapRecall (c : CmdRef) (s : State) : Out :=
  onCmd 0x0705 c s fun m s =>
    let i := fld (m.w 3) 3 0
    let mask := fld (m.w 4) 7 0
    withMap m s i 3 true fun x =>
      if mask.testBit x.owner then s.badWord c 4
      else if (s.mapSessions i).any mask.testBit then s.refuseOpen c BUSY
      else (s.updMap i fun x => { x with lent := x.lent &&& ~~~ (BitVec.ofNat 8 mask) }).done c

/-! ### Merge, export, import -/

/-- MAP_MERGE (R408 to R412): snapshots of source and target are held until its commit (Table 9-6). -/
def execMapMerge (c : CmdRef) (s : State) : Out :=
  onCmd 0x0706 c s fun m s =>
    let t := fld (m.w 3) 3 0
    let src := fld (m.w 3) 11 8
    withMap m s t 3 true fun x =>
      withMap m s src 3 false fun y =>
        if t = src then s.badWord c 3
        else if m.sgTotal 11 % 64 ≠ 0 ∨ 4096 < m.sgTotal 11 then s.badWord c 14
        else withSg m 11 s fun b =>
          let fits := x.roomFor x.lmCap x.lms.length (y.lmsAt y.gen).length 0 && x.roomFor x.kfCap x.kfs.length (y.kfsAt y.gen).length 0
            && x.roomFor x.edgeCap x.edges.length (y.edgesAt y.gen).length 0
          if fits = false then s.refuseOpen c NO_RESERVATION
          else
            let s := (s.updMap t fun m => m.openSnap m.gen (.command c)).updMap src fun m => m.openSnap m.gen (.command c)
            s.enqueue t [{ op := .merge src y.gen ((List.range 7).map fun k => m.w (4 + k)) ((chunks 64 65 b).map edgeOf), origin := .command c 0 }]

/-- MAP_EXPORT (R419, Table 16-11). -/
def execMapExport (c : CmdRef) (s : State) : Out :=
  onCmd 0x0707 c s fun m s =>
    withMap m s (fld (m.w 3) 3 0) 3 false fun x =>
      let b := perraBytes s x x.gen (bit (m.w 3) 8)
      if m.sgTotal 4 < b.length then s.refuse c BAD_PARAM 0x0014
      else s.doneOut m 4 b [w32 b.length, w32 b.length]

/-- MAP_IMPORT (R420 to R422). -/
def execMapImport (c : CmdRef) (s : State) : Out :=
  onCmd 0x0708 c s fun m s =>
    withMapReq m s fun i r =>
      withSg m 9 s fun b =>
        match importCheck b (bit (m.w 3) 8) with
        | some e => s.refuse c e.1 e.2
        | none =>
          let x := readMap b
          if r.lm * 65536 < x.lms.length ∨ r.kf * 16384 < x.kfs.length ∨ r.edge * 65536 < x.edges.length ∨ r.pool * 65536 < x.poolUsed then
            s.refuse c NO_RESERVATION 0
          else
            let g := total (x.indexes.map fun y => y.2.granules)
            if s.tierFits m.ctx 2 (r.granules + g) && s.tablesFit r
                && decide (s.vecCaps + total (x.indexes.map fun y => y.2.cap) ≤ 16777216) then
              let s := s.charge m.ctx 2 g
              (s.addMap m.ctx i r { x with lastCommit := some s.time.ticks }).done c OK 0 [w32 i]
            else s.refuseOpen c NO_RESERVATION

end Sys2Proof.Machine
end

