-- ==== Sys2Proof/Machine/Session.lean ====
section
/-! DEFINITION. Sessions of the built-in pipeline (chapters 2 and 16): START_SESSION with its bindings and its admission, STOP_SESSION, the end of
a session, SET_STAGE_MODE and SESSION_STATUS. -/

namespace Sys2Proof.Machine

/-! ### The command's fields (Table 16-3) -/

/-- The fields of a START_SESSION. -/
structure StartReq where
  profile : Nat := 0
  map : Nat := 0
  region : Nat := 0
  rate : Nat := 100
  health : Nat := 100
  queryRate : Nat := 1
  nprobe : Nat := 32
  rings : List Ring := []
  deriving DecidableEq, Repr

/-- The profile that 16 name bytes spell (R70). -/
def profileOf (b : List Byte) : Option Nat :=
  (List.range profiles.length).find? fun i =>
    let name := (profileAt i).name.map fun c => BitVec.ofNat 8 c
    b == name ++ zeros (16 - name.length)

/-- Bytes of the largest record of a ring: pose, track, map, health (R83, R95, R97); a profile without pose records writes none to the first two. -/
def largestRecord (pose : Bool) (k : Nat) : Nat :=
  match k with
  | 0 => if pose then 256 else 0
  | 1 => if pose then 64 * recCells (16 + 16 * 32768 + 48 * 256) else 0
  | 2 => 64 * recCells (48 + 4 * 65536)
  | _ => 256

/-- Ring `k` of a START_SESSION, or the word that fails (R83). -/
def ringOf (m : Cmd) (pose : Bool) (k : Nat) : Nat ⊕ Ring :=
  let w := 11 + 3 * k
  let base := (m.w w).toNat + 2 ^ 32 * (m.w (w + 1)).toNat
  let log2 := fld (m.w (w + 2)) 4 0
  if log2 < 16 ∨ 26 < log2 then .inl (w + 2)
  else if base % 4096 ≠ 0 then .inl w
  else if 2 ^ log2 < 4 * largestRecord pose k then .inl (w + 2)
  else .inr { base := base, log2 := log2 }

/-- The fields of a START_SESSION, or the first word that fails (R70, R76, R83, R99, R695). A RATE outside R76's range is ignored where the profile
produces no pose records (DESIGN CHOICE, entry 7). -/
def startFields (m : Cmd) : Nat ⊕ StartReq :=
  match profileOf (m.bytesAt 3 4) with
  | none => .inl 3
  | some p =>
    let pose := (profileAt p).pose
    let rate := fld (m.w 7) 31 16
    if pose ∧ (rate < 100 ∨ 12000 < rate) then .inl 7
    else match withDefault (fld (m.w 8) 13 0) 10 10000 100 with
    | none => .inl 8
    | some health =>
      let qr := fld (m.w 9) 16 0
      if p = 5 ∧ (qr < 1 ∨ 100000 < qr) then .inl 9
      else match (if p = 5 then withDefault (fld (m.w 10) 10 0) 1 1024 32 else some 32) with
      | none => .inl 10
      | some np =>
        match ringOf m pose 0, ringOf m pose 1, ringOf m pose 2, ringOf m pose 3 with
        | .inl i, _, _, _ => .inl i
        | _, .inl i, _, _ => .inl i
        | _, _, .inl i, _ => .inl i
        | _, _, _, .inl i => .inl i
        | .inr a, .inr b, .inr c, .inr d =>
          .inr { profile := p, map := fld (m.w 7) 7 0, region := fld (m.w 7) 15 8, rate := rate, health := health, queryRate := qr, nprobe := np,
                 rings := [a, b, c, d] }

/-- P of R702: the largest even number of nanoseconds not above 10^11 / RATE. -/
def StartReq.periodNs (r : StartReq) : Nat := if (profileAt r.profile).pose then 10 ^ 11 / r.rate / 2 * 2 else 0

/-! ### Binding entries (Table 16-4) -/

structure Bind where
  port : Nat := 0
  index : Nat := 0
  role : Nat := 0
  pair : Nat := 0xFF
  width : Nat := 0
  height : Nat := 0
  dataType : Nat := 0
  divisor : Nat := 0
  buffers : Nat := 4
  flags : Nat := 0
  sync : Nat := 0xFF
  syncRate : Nat := 0
  bytes : List Byte := []
  deriving DecidableEq, Repr

def Bind.ofBytes (b : List Byte) : Bind :=
  { port := leAt b 0 1, index := leAt b 1 1, role := leAt b 2 1, pair := leAt b 3 1, width := leAt b 4 2, height := leAt b 6 2,
    dataType := leAt b 8 1, divisor := leAt b 9 1, buffers := if leAt b 10 1 = 0 then 4 else leAt b 10 1, flags := leAt b 11 1 % 8,
    sync := leAt b 12 1, syncRate := leAt b 14 2, bytes := b }

def Bind.master (b : Bind) : Bool := b.flags / 4 % 2 == 1
def Bind.binned (b : Bind) : Bool := b.flags % 2 == 1

/-- Period of the pulses on SYNC (R702). -/
def Bind.syncPeriod (b : Bind) (p : Nat) : Nat := if b.syncRate = 0 then p else 10 ^ 9 / b.syncRate / 2 * 2

/-- Sensors that a profile accepts (Table 2-1). -/
def Profile.accepts (p : Profile) (port : Nat) : Bool :=
  p.pose && (port == 32 || isEncoder port || (isCamera port && (p.multi || decide (port < 2)))
    || (p.multi && (isExtImu port || isCan port)) || (p.lidar && isEthernet port))

/-- Bits per pixel on the lanes (R167), none for another data type. -/
def wireBits (dt : Nat) : Option Nat :=
  match dt with
  | 0x2A => some 8
  | 0x2B => some 10
  | 0x2C => some 12
  | 0x2E => some 16
  | 0x1E => some 16
  | _ => none

/-- A format slot of a context, when it holds a format of that kind. -/
def formatOf (s : State) (n slot kind : Nat) : Option (List Byte) :=
  match Tab.get? (s.ctxAt n).formats slot with
  | some f => if f.kind = kind then some f.bytes else none
  | none => none

/-- The kind of format that a port needs (R187, R192, R203). -/
def formatKind (port : Nat) : Option Nat :=
  if isEthernet port then some 0 else if isCan port then some 1 else if isExtImu port then some 2 else none

/-- The INDEX values of the sensor entries of a binding (Table 8-2). -/
def Bind.indexes (b : Bind) (s : State) (n : Nat) : List Nat :=
  if isCamera b.port then [b.index]
  else if isCan b.port then List.range (((formatOf s n b.index 1).getD []).length / 24)
  else [0]

/-- Whether the module does not trigger the binding's sensor (R329, R371). -/
def Bind.free (b : Bind) (s : State) (n : Nat) : Bool :=
  if isCamera b.port then b.divisor == 0
  else if isEthernet b.port then leAt ((formatOf s n b.index 0).getD []) 13 1 == 0
  else if isExtImu b.port then b.sync == 0xFF
  else isCan b.port

/-- The refusals: the binding list's own word (R698), and R701. -/
def badBind : Option (Nat × Nat) := some (BAD_PARAM, 0x0117)
def bad701 : Option (Nat × Nat) := some (BAD_PARAM, 0x0030)

/-- What refuses one binding entry (Tables 2-1, 16-4, R166, R167, R174, R179, R187, R190, R329, R701, R979). -/
def bindBad (s : State) (n : Nat) (r : StartReq) (b : Bind) : Option (Nat × Nat) :=
  let p := profileAt r.profile
  let cam := isCamera b.port
  let pair := b.role != 0
  let held := 12 ≤ b.sync ∧ b.sync ≤ 21 ∧ Tab.get? s.targets b.sync = some n
  if p.accepts b.port = false ∨ 7 < b.index then badBind
  else if (s.portAt b.port).owner ≠ some n ∨ (isExtImu b.port ∧ (s.portAt b.port).sampleHz = 0) ∨ (b.sync ≠ 0xFF ∧ ¬ held) then bad701
  else if cam then
    if 3 < b.index ∨ b.width < 64 ∨ 8192 < b.width ∨ b.width % 16 ≠ 0 ∨ b.height < 64 ∨ 8192 < b.height ∨ b.height % 2 ≠ 0
        ∨ (wireBits b.dataType).isNone ∨ 120 < b.divisor ∨ 2 < b.role ∨ pair ≠ decide (b.pair ≠ 0xFF) ∨ (pair ∧ 5 < b.pair)
        ∨ b.buffers < 3 ∨ 8 < b.buffers ∨ b.sync ≠ 0xFF ∨ bit (s.portAt b.port).camCfg (21 + b.index) = false then badBind
    else if (b.master ∧ b.divisor ≠ 1) ∨ 4294967294 < b.divisor * r.periodNs then bad701
    else none
  else if b.master then bad701
  else if (b.sync ≠ 0xFF ∧ ¬ isEthernet b.port ∧ ¬ isExtImu b.port) ∨ 8000 < b.syncRate then badBind
  else match formatKind b.port with
    | some k =>
      match formatOf s n b.index k with
      | none => badBind
      | some f => if k = 0 ∧ leAt f 13 1 = 1 ∧ b.sync = 0xFF then badBind else none
    | none => if b.index ≠ 0 then badBind else none

/-- What refuses the sensor entries of a binding (R329). -/
def entryBad (s : State) (n : Nat) (b : Bind) : Option (Nat × Nat) :=
  if (b.indexes s n).any (fun i => match s.rigEntry n b.port i with
    | some e => b.free s n && e.nominal == 0
    | none => true) then badBind else none

/-- The key under which a port is bound once: a camera once per virtual channel (R166, R186). -/
def Bind.key (b : Bind) : Nat := if isCamera b.port then sensorKey b.port b.index else sensorKey b.port 0

/-- What refuses the stereo pairs among the cameras (R245, R261, R701; assumption 7). -/
def pairsBad (cams : List Bind) : Option (Nat × Nat) :=
  ((cams.filterMap fun b => if b.role = 0 then none else some b.pair).eraseDups).findSome? fun p =>
    let l := cams.filter fun b => b.role == 1 && b.pair == p
    let r := cams.filter fun b => b.role == 2 && b.pair == p
    match l, r with
    | [a], [b] =>
      if a.divisor ≠ b.divisor then bad701
      else if a.divisor = 0 ∨ a.width ≠ b.width ∨ a.height ≠ b.height ∨ (p = 0 ∧ (a.port ≠ 0 ∨ b.port ≠ 1)) then badBind
      else none
    | _, _ => badBind

/-- A quotient kept exact: numerator and denominator. -/
def addFrac (a b : Nat × Nat) : Nat × Nat := (a.1 * b.2 + b.1 * a.2, a.2 * b.2)
def sumFrac (l : List (Nat × Nat)) : Nat × Nat := l.foldl addFrac (0, 1)
def fracLe (a : Nat × Nat) (n : Nat) : Bool := decide (a.1 ≤ n * a.2)

/-- Frames per second of a camera: of its trigger, or of its entry's NOMINAL_PERIOD (R76, Tables 8-2, 16-4). -/
def frameRate (rate divisor : Nat) (e : SensorEntry) : Nat × Nat :=
  if divisor = 0 then (1000000000, max 1 e.nominal.toNat) else (rate, 100 * divisor)

/-- Whether the load of a port's streams exceeds its lanes (R174, R175), in bits per second. -/
def lanesShort (s : State) (n rate : Nat) (cams : List Bind) (port : Nat) : Bool :=
  let l := cams.filter fun b => b.port == port
  let cfg := (s.portAt port).camCfg
  !fracLe (sumFrac (l.map fun b =>
    let f := frameRate rate b.divisor ((s.rigEntry n b.port b.index).getD {})
    (b.width * b.height * (wireBits b.dataType).getD 0 * f.1, f.2))) (dataLanes cfg * fld cfg 7 0 * 10000000)

/-- What refuses the list of bindings as a whole (R72, R175, R701, R702). -/
def listBad (s : State) (n : Nat) (r : StartReq) (l : List Bind) : Option (Nat × Nat) :=
  let p := profileAt r.profile
  let cams := l.filter fun b => isCamera b.port
  let ports := (cams.map (·.port)).eraseDups
  if (l.map Bind.key).eraseDups.length ≠ l.length ∨ 24 < cams.length then badBind
  else if p.pose ∧ (l.filter Bind.master).length ≠ 1 then bad701
  else if p.pose ∧ (!(l.any fun b => b.port == 32) ∨ ports.length < 2 ∨ (p.multi = false ∧ !(ports.contains 0 && ports.contains 1))
      ∨ (p.lidar ∧ !(l.any fun b => isEthernet b.port))) then badBind
  else if ports.any (fun q => ((cams.filter fun b => b.port == q).map (·.divisor)).eraseDups.length != 1) then badBind
  else match pairsBad cams with
    | some e => some e
    | none =>
      if l.any (fun b => b.sync != 0xFF && decide (4294967294 < b.syncPeriod r.periodNs)) then bad701
      else if ports.any (lanesShort s n r.rate cams) then badBind
      else none

/-! ### What admission reserves (R47, R68) -/

/-- What one stream asks of the vision engines: stored and output size, frames per second, and FEAT_CFG. -/
structure Load where
  stored : Nat := 0
  w : Nat := 0
  h : Nat := 0
  rate : Nat × Nat := (0, 1)
  feat : FeatCfg := {}
  deriving DecidableEq, Repr

/-- A count per frame as a count per second. -/
def Load.perSecond (x : Load) (n : Nat) : Nat × Nat := (n * x.rate.1, x.rate.2)

/-- Flow units of one frame (R316). -/
def FeatCfg.flowUnits (f : FeatCfg) : Nat :=
  f.flowPoints * f.flowLevels * f.maxIter * ceilDiv (f.winEdge * f.winEdge) 64 * (if f.fbTol = 0 then 1 else 2)

/-- Cells per row and in all at the corner level, and Kc at the highest quota (R294, R78). -/
def Load.cells (x : Load) : Nat × Nat × Nat :=
  let cx := cellsX x.feat (levelSize x.w x.feat.cornerLevel)
  let n := cx * cellRows x.feat (levelSize x.h x.feat.cornerLevel)
  (cx, n, ceilDiv 4096 n)

/-- Descriptors of a frame at the highest quota (R295). -/
def Load.corners (x : Load) : Nat := min 4096 (x.cells.2.1 * x.cells.2.2)

/-- The sustained loads fit the engines (R175, R316, R288). -/
def sustainedFits (l : List Load) : Bool :=
  let sum (f : Load → Nat) := sumFrac (l.map fun x => x.perSecond (f x))
  fracLe (sum fun x => levelSize x.w x.feat.cornerLevel * levelSize x.h x.feat.cornerLevel) 11000000000
    && fracLe (sum fun x => if x.feat.descMode % 2 = 1 then x.corners else 0) 350000000
    && fracLe (sum fun x => if 2 ≤ x.feat.descMode then x.corners * x.feat.patchEdge * x.feat.patchEdge else 0) 11200000000
    && fracLe (sum fun x => x.feat.flowUnits) 14000000000

/-- The feature tail of Table 7-9 in units of 1 / (14 · 10^9 · 4) s is within 260 µs (R315). -/
def featureTailFits (l : List Load) : Bool :=
  let sum (f : Load → Nat) := total (l.map f)
  let u := 56000
  let remap := 8 * 16 * sum (·.w)
  let a := remap + (if l.any fun x => x.feat.cornerLevel != 0 then 10 * u else 0)
  let b := 112 * sum fun x => levelSize x.w x.feat.cornerLevel
  let c := sum fun x =>
    let k := x.cells.2.2 * x.cells.1
    (if x.feat.descMode % 2 = 1 then 160 * k else 0) + (if 2 ≤ x.feat.descMode then 5 * k * x.feat.patchEdge * x.feat.patchEdge else 0)
  let d := remap + 10 * u
  let e := 4 * sum fun x => x.feat.flowUnits
  decide (max (a + b + c) (d + e) + 10 * u ≤ 260 * u)

/-- The loads of the streams already bound on the module. -/
def boundLoads (s : State) : List Load :=
  s.streams.map fun e =>
    let x := e.2
    let g := x.latestGrid
    { stored := x.width * x.height, w := g.outW, h := g.outH, rate := frameRate ((s.sessionAt x.ctx).getD {}).rate x.divisor (s.entryOf x.ctx x.key), feat := x.latestFeat }

def Bind.load (b : Bind) (s : State) (n rate : Nat) : Load :=
  { stored := b.width * b.height, w := b.width, h := b.height, rate := frameRate rate b.divisor ((s.rigEntry n b.port b.index).getD {}) }

/-- The lowest stereo level and the sustained stereo load in pixels per second (R282, R283, Table 6-7), at the
frame-set rate: level 0 and no load without pairs. -/
def stereoLevel (s : State) (rate : Nat) (cams : List Bind) : Option (Nat × Nat) :=
  let lefts := cams.filter fun b => b.role == 1
  if lefts = [] then some (0, 0)
  else
    let free := 600000000 - total ((List.range 8).map fun n => (s.ctxAt n).stereoLoad)
    let sumW := total (cams.map (·.width))
    (List.range 3).findSome? fun lv =>
      let load := sumFrac (lefts.map fun b => (levelSize b.width lv * levelSize b.height lv * rate, 100))
      let tail := 96 * sumW + 560 * total (lefts.map fun b => levelSize b.width lv)
      if fracLe load free && decide (tail ≤ 7770000) then some (lv, ceilDiv load.1 load.2) else none

/-- Granules of a stream's frame buffers (R179, R180); embedded lines are counted at the pitch of a pixel line (assumption 6). -/
def ringGranules (width height dataType buffers : Nat) (embedded : Bool) : Nat :=
  let pitch := ceilDiv (width * (if dataType = 0x2B ∨ dataType = 0x2C ∨ dataType = 0x2E then 2 else 1)) 256 * 256
  buffers * ceilDiv (64 + (height + if embedded then 4 else 0) * pitch) 65536

def Bind.granules (b : Bind) : Nat := ringGranules b.width b.height b.dataType b.buffers (b.flags / 2 % 2 == 1)
def StreamS.granules (x : StreamS) : Nat := ringGranules x.width x.height x.dataType.toNat x.nbufs x.keepEmbedded

/-- The index that START_SESSION makes (R428, Table 10-2). -/
def defaultIndex (m : MapS) (kind : Nat) : IndexS :=
  let cap := ceilDiv m.kfCap 65536 * 65536
  { metric := 1, m := 64, d := if kind = 0 then 256 else 512, nlist := min 65536 (max 256 (2 ^ (cap / 64).log2)), cap := cap,
    codebookId := BitVec.ofNat 64 (Config.openVal 48 kind) }

/-- Search units of a rate of queries, rounded up (R450, R452). -/
def searchUnits (x : IndexS) (nprobe rate : Nat) : Nat :=
  let v := min nprobe x.nlist * ceilDiv x.cap x.nlist
  ceilDiv (rate * (256 * v * x.m + x.nlist * x.d + 4096 * x.d)) 16384

/-- The rate that admission reserves (R452), on the EMBEDDING index (assumption 7). -/
def sessionUnits (m : MapS) (r : StartReq) : Nat :=
  let ix := (Tab.get? m.indexes 0).getD (defaultIndex m 0)
  if (profileAt r.profile).pose then searchUnits ix 128 20
  else if r.profile = 5 then searchUnits ix r.nprobe r.queryRate
  else 0

/-- The sources of the channels in the order of R208. -/
def chanSources (l : List Bind) : List (Nat × Nat) :=
  let has (p : Nat) := l.any fun b => b.port == p
  ([32, 33, 34].filter has).flatMap (fun p => (List.range 6).map fun a => (p, a)) ++ (encoderPorts.filter has).map fun p => (p, 0)

/-- The tiles of a profile (Table 2-1, R71): the partnered pair, then the working band. -/
def Profile.bands (p : Profile) : List (Nat × Nat × Nat) := if p.pose then [(6, 2, 0), (6, 3, 0), (p.working, 1, 0)] else [(p.working, 0, 0)]

/-- Everything that an admission of a session takes. -/
structure Admission where
  place : List (List Nat) := []
  banks : List Nat := []
  granules : Nat := 0
  share : Nat := 0
  units : Nat := 0
  chans : List Nat := []
  streams : List Nat := []
  entries : List Nat := []
  newIndexes : List (Nat × IndexS) := []
  lowest : Nat := 0
  stereo : Nat := 0
  deriving DecidableEq, Repr

/-- Reel entries that START_SESSION writes: (target, PERIOD, FRAME_MASTER) (R702). -/
def reelWanted (r : StartReq) (l : List Bind) : List (Nat × Nat × Bool) :=
  let cams := l.filter fun b => isCamera b.port && b.divisor != 0
  ((cams.map (·.port)).eraseDups.map fun p =>
      let mine := cams.filter fun b => b.port == p
      (p, (mine.map (·.divisor)).getD 0 1 * r.periodNs, mine.any Bind.master))
    ++ (l.filter fun b => b.sync != 0xFF).map fun b => (b.sync, b.syncPeriod r.periodNs, false)

/-- Reserve everything or nothing (R47, R63, R78, R141, R175, R208, R283, R315, R316, R425, R427, R452, R478, R487, R622, R729). P_FLOOR and the commons banks of a
profile are not given: they are open (assumption 16, places 31 and 32). -/
def admitSession (s : State) (n : Nat) (r : StartReq) (m : MapS) (l : List Bind) : Option Admission :=
  let p := profileAt r.profile
  let cams := l.filter fun b => isCamera b.port
  let loads := cams.map fun b => b.load s n r.rate
  let all := boundLoads s ++ loads
  let src := if p.pose then chanSources l else []
  let freeCh := (List.range 32).filter fun i => (s.chanAt i).holder.isNone
  let freeSt := (List.range 24).filter fun i => !Tab.has s.streams i
  let freeEn := (List.range 64).filter fun i => (s.reelAt i).state == 0
  let want := (reelWanted r l).length
  let banks := Config.openVal 31 r.profile % 57
  let fresh := if p.pose then [0, 1].filterMap fun k => if Tab.has m.indexes k then none else some (k, defaultIndex m k) else []
  let buffers := total (cams.map Bind.granules)
  let units := sessionUnits m r
  match stereoLevel s r.rate cams, placeTiles s [] (p.bands.map fun b => (b.1, b.2.1)) with
  | some st, some place =>
    let share := Config.openVal 32 (4 * r.profile + st.1) % 63251
    if (s.ctxAt n).window = [] ∨ (p.pose ∧ s.schedulesFit = false) ∨ fracLe (sumFrac (all.map fun x => x.perSecond x.stored)) 3200000000 = false
        ∨ featureTailFits loads = false ∨ sustainedFits all = false ∨ s.searchFits units = false ∨ s.energyFits share = false
        ∨ 16777216 < s.vecCaps + total (fresh.map fun e => e.2.cap) ∨ s.hbmFits n (buffers + s.weightGranules n + total (fresh.map fun e => e.2.granules)) = false
        ∨ s.freeBands.length < p.bands.length ∨ s.freeBanks.length < banks ∨ freeCh.length < src.length ∨ freeSt.length < cams.length
        ∨ freeEn.length < want then none
    else some { place := place, banks := s.freeBanks.take banks, granules := buffers, share := share, units := units, chans := freeCh.take src.length,
                streams := freeSt.take cams.length, entries := freeEn.take want, newIndexes := fresh, lowest := st.1, stereo := st.2 }
  | _, _ => none

/-! ### The session begins -/

/-- The next session number that no running session has. -/
def freeSession (used : List Nat) : Nat → Nat → Nat
  | 0, i => i
  | k + 1, i => if used.contains i then freeSession used k (i % 65535 + 1) else i

/-- Bind the streams of the cameras, in order (R174, R179, R280, R289, R839); their grids go into the shadow slots (R251). -/
def bindStreams (n : Nat) (a : Admission) (want : List (Nat × Nat × Bool)) (cams : List Bind) (s : State) : State :=
  forEach (cams.zip a.streams) (fun e s =>
    let b := e.1
    let entry := if b.divisor = 0 then none else match (want.zip a.entries).find? fun w => w.1.1 == b.port with
      | some w => some w.2
      | none => none
    let x : StreamS := { ctx := n, port := b.port, vc := b.index, role := b.role, pair := b.pair, width := b.width, height := b.height,
                         dataType := BitVec.ofNat 8 b.dataType, divisor := b.divisor, binned := b.binned, keepEmbedded := b.flags / 2 % 2 == 1,
                         master := b.master, entry := entry, nbufs := b.buffers, chain := { role := b.role, pair := b.pair } }
    let f := s.takeFree
    let x := { x with shadow := some (f.2.gridFor x (Config.openVal 46 (1000000 + f.1)), s.devNs) }
    { f.2 with streams := Tab.put f.2.streams e.2 x }) s

/-- The STEREO_CFG blocks of the session's pairs (R262, Table 6-4). -/
def bindPairs (n : Nat) (a : Admission) (cams : List Bind) (s : State) : State :=
  let at' (role p : Nat) : Nat := match (cams.zip a.streams).find? fun e => e.1.role == role && e.1.pair == p with
    | some e => e.2
    | none => 0
  forEach ((cams.filter fun b => b.role == 1).map (·.pair)) (fun p s =>
    let c : PairCfg := { ctx := n, left := at' 1 p, right := at' 2 p, satLevel := (s.streamAt (at' 1 p)).largest }
    s.updCtx n fun y => { y with pairs := Tab.put y.pairs p c }) s

/-- Write and arm the session's Reel entries (R702). -/
def armEntries (n : Nat) (a : Admission) (want : List (Nat × Nat × Bool)) (s : State) : State :=
  let start := ceilDiv (s.devNs + 10000000) 1000 * 1000
  forEach (want.zip a.entries) (fun e s => s.updReel e.2 fun old =>
    { start := BitVec.ofNat 64 start, period := w32 e.1.2.1, width := 10000, count := 0, target := BitVec.ofNat 8 e.1.1,
      control := if e.1.2.2 then 1 else 0, owner := n, state := 2, session := true, pulses := old.pulses, lastRise := old.lastRise,
      lastInstant := old.lastInstant }) s

/-- Bind a port: an OFF port is detected, an IDLE port streams, any other goes on (Table 4-2, R978). An encoder starts in VERIFYING (R197). -/
def bindPort (p : Nat) (s : State) : State :=
  let s := s.updPort p fun q => { q.restartVerify s.time.ticks with bound := true, boundAt := s.time.ticks, lastSeq := none, verifying := true }
  match (s.portAt p).state with
  | .off => enterDetecting p (s.updPort p fun q => { q with supplyStop := false })
  | .idle => portReady p s
  | _ => s

/-- The CAN signals of a bound port: none has arrived yet (R205, Table 4-3). -/
def bindSignals (n : Nat) (b : Bind) (s : State) : State :=
  if isCan b.port then
    s.updCtx n fun c => { c with canSignals := (b.indexes s n).foldl (fun t i => Tab.put t (b.port * 32 + i) { tick := s.time.ticks }) c.canSignals }
  else s

/-- Enter the sensor entries that the session starts with (R327 to R329). -/
def bindEntries (n : Nat) (l : List Bind) (s : State) : State :=
  forEach l (fun b s => forEach (b.indexes s n) (fun i s =>
    match s.rigEntry n b.port i with
    | some e => s.updCtx n fun c => { c with inUse := Tab.put c.inUse (sensorKey b.port i) e }
    | none => s) s) s

/-- The session as it begins. -/
def newSession (s : State) (n number : Nat) (r : StartReq) (l : List Bind) (a : Admission) : SessionS :=
  let p := profileAt r.profile
  let pair := l.any fun b => b.role == 1
  let levels := setAt 0 p.levels 0 (if pair then max p.stereo a.lowest else p.stereo)
  { number := BitVec.ofNat 16 number, profile := r.profile, map := r.map, region := BitVec.ofNat 8 r.region, rate := if p.pose then r.rate else 0,
    periodNs := r.periodNs, healthMs := r.health, healthLast := s.time.ticks, retriesSeen := s.dep.retries, nprobe := r.nprobe, rings := r.rings, streams := a.streams,
    unavailable := s.lostStages n, descLearned := !(s.lostStages n).getLsbD 0, newMap := (s.mapAt r.map).kfs.isEmpty,
    ports := (l.map (·.port)).eraseDups, bindings := l.map (·.bytes), channels := a.chans, entries := a.entries,
    masterEntry := ((reelWanted r l).zip a.entries).findSome? fun e => if e.1.2.2 then some e.2 else none,
    levels := startLevels levels (ceilingsOf s.power.table levels), ceilings := ceilingsOf s.power.table levels, lowStereo := a.lowest, deltaGen := (s.mapAt r.map).gen }

/-- Take what was admitted and begin the session (R68, R71, R208, R428, R622, R702). -/
def beginSession (n : Nat) (r : StartReq) (l : List Bind) (a : Admission) (s : State) : State :=
  let p := profileAt r.profile
  let s := s.wake
  let cams := l.filter fun b => isCamera b.port
  let want := reelWanted r l
  let used := s.sessionCtxs.filterMap fun k => (s.sessionAt k).map fun x => x.number.toNat
  let number := freeSession used 8 s.nextSession
  let s := { s with nextSession := number % 65535 + 1 }
  let s := forEach a.newIndexes (fun e s => s.addIndex r.map e.1 e.2) s
  let s := (s.charge n 2 a.granules).allocBands n p.bands a.place false
  let s := s.updCtx n fun c =>
    { c with banks := a.banks, share := a.share, searchRate := a.units, stereoLoad := a.stereo, align := [], inUse := [], rigDue := [], pairs := [], canSignals := [] }
  let s := bindEntries n l s
  let s := bindPairs n a cams (bindStreams n a want cams s)
  let s := forEach ((chanSources l).zip a.chans) (fun e s => { s with filters := Tab.put s.filters e.2 (newChannel s n e.1.1 e.1.2 0 p.preset true) }) s
  let s := armEntries n a want s
  let x := newSession s n number r l a
  let s := (s.updCtx n fun c => { c with session := some { x with bands := c.bands } }).claimWeights n
  let s := forEach x.ports bindPort s
  let s := { s with lidars := s.lidars.filter fun e => !x.ports.contains e.1 }
  forEach l (bindSignals n) s

/-- START_SESSION's answer (Table 16-3). -/
def startBody (s : State) (n : Nat) : List Word :=
  let x := (s.sessionAt n).getD {}
  let paired := !(s.ctxAt n).pairs.isEmpty
  [w32 x.number.toNat, w32 (maskOf x.bands), w32 (maskOf x.channels), x.deltaGen, w32 (if paired then x.lowStereo else 0xFF)]

/-- Whether the map may serve the profile (R382). -/
def mapServes (m : MapS) (n profile : Nat) : Bool := if profile = 5 then m.owner != n && bit m.lent n else m.owner == n

/-- START_SESSION (R67 to R72, R382, R700 to R702). -/
def execStartSession (c : CmdRef) (s : State) : Out :=
  onCmd 0x0100 c s fun m s =>
    let n := m.ctx
    match startFields m with
    | .inl i => s.badWord c i
    | .inr r =>
      if (s.ctxAt n).admitted then s.refuseOpen c BUSY
      else if m.sgTotal 23 % 16 ≠ 0 then s.badWord c 26
      else withSg m 23 s fun b =>
        let l := (List.range (b.length / 16)).map fun i => Bind.ofBytes (slice b (16 * i) 16)
        match (if (s.mapAt r.map).withdrawn then none else Tab.get? s.maps r.map) with
        | none => s.badWord c 7
        | some mp =>
          if mapServes mp n r.profile = false then s.refuseOpen c NOT_OWNER
          else match (l.findSome? fun b => (bindBad s n r b).orElse fun _ => entryBad s n b).orElse fun _ => listBad s n r l with
          | some (st, d) => s.refuse c st d
          | none =>
            match admitSession s n r mp l with
            | none => s.refuseOpen c NO_RESERVATION
            | some a =>
              let s := beginSession n r l a s
              s.done c OK 0 (startBody s n)

/-! ### The session ends -/

/-- Free what the session of a context holds; its ports keep their claims (R49, R73, R209, R622, R702, Table 4-2). -/
def endSession (n : Nat) (s : State) : State :=
  match s.sessionAt n with
  | none => s
  | some x =>
    let s := s.dropWeights n x.weights
    let s := forEach x.entries (fun e s => s.updReel e fun r => if r.session && r.owner == n then r.freed else r) s
    let s := forEach x.channels (fun ch s => if (s.chanAt ch).bySession && (s.chanAt ch).holder == some n then freeChannel ch s else s) s
    let s := forEach x.ports (fun p s => s.updPort p fun q =>
      { q with bound := false, state := if q.state = .streaming then .idle else q.state, since := if q.state = .streaming then s.time.ticks else q.since }) s
    let mine := s.streams.filter fun e => e.2.ctx == n
    let s := s.credit n 2 (total (mine.map fun e => e.2.granules))
    let s := { s with streams := s.streams.filter (fun e => e.2.ctx != n), lidars := s.lidars.filter fun e => !x.ports.contains e.1 }
    let loops := s.queries.filter fun q => q.2.ctx == n && q.2.cmd.isNone
    let s := forEach loops (fun q s => { s.closeSnap (.query q.1) with queries := Tab.del s.queries q.1 }) s
    let s := { s with maps := Tab.mapVals s.maps fun _ m => { m with snaps := m.snaps.filter fun h => match h.holder with
      | .stage k _ => k != n
      | _ => true } }
    let s := s.updCtx n fun c => { c with session := none, pairs := [], inUse := [], rigDue := [], align := [], canSignals := [], stereoLoad := 0 }
    (s.releaseAdmission n).noteIdle

/-- Take a stopping session as far as it has come (R73): its stop commits when no frame set is left, and its reply follows when no record of it is
still held. -/
def settleStop (n : Nat) (s : State) : State :=
  match s.sessionAt n with
  | none => s
  | some x =>
    if x.stopping = false ∨ x.sets.any (fun f => !f.2.committed && !f.2.abandoned) then s
    else
      let s := if x.stopped then s else
        let s := s.updSession n fun x => { x with stopped := true, sets := [] }
        forEach x.entries (fun e s => s.updReel e fun r => if r.session && r.owner == n then r.freed else r) s
      let s := forEach x.stopCmds (fun c s => s.commit c) s
      if s.held.any fun h => h.ctx == n then s
      else forEach x.stopCmds (fun c s => s.done c) (endSession n s)

/-- STOP_SESSION (R73, R702); one that names a stopping session joins the stop (assumption 7). -/
def execStopSession (c : CmdRef) (s : State) : Out :=
  onCmd 0x0101 c s fun m s =>
    match s.sessionAt m.ctx with
    | none => s.badWord c 3
    | some x =>
      if x.number.toNat ≠ fld (m.w 3) 15 0 then s.badWord c 3
      else settleStop m.ctx (s.updSession m.ctx fun x => { x with stopping := true, stopCmds := x.stopCmds ++ [c] })

/-- SET_STAGE_MODE (R100, R101, R103): bits 0 learned descriptors, 1 depth completion, 2 place embedding. -/
def execSetStageMode (c : CmdRef) (s : State) : Out :=
  onCmd 0x0102 c s fun m s =>
    match s.sessionAt m.ctx with
    | none => s.badWord c 3
    | some x =>
      let mask : BitVec 3 := (m.w 4).setWidth 3
      let classical : BitVec 3 := (m.w 5).setWidth 3
      if x.number.toNat ≠ fld (m.w 3) 15 0 ∨ x.stopping then s.badWord c 3
      else if mask &&& ~~~classical &&& x.unavailable ≠ 0 then s.refuseOpen c WEIGHTS_UNAVAILABLE
      else
        (s.updSession m.ctx fun x =>
          { x with classicalMask := (x.classicalMask &&& ~~~mask) ||| (classical &&& mask),
                   descLearned := x.descLearned && !((classical &&& mask).getLsbD 0) }).done c

/-- SESSION_STATUS (Table 16-3): a status read, answered for a session of any context; zeros without one. -/
def execSessionStatus (c : CmdRef) (s : State) : Out :=
  onCmd 0x0103 c s fun m s =>
    match (s.sessionCtxs.filterMap s.sessionAt).find? fun x => x.number.toNat == fld (m.w 3) 15 0 with
    | none => s.done c OK 0 [0, 0, 0, 0, 0, 0]
    | some x =>
      s.done c OK 0 ([if x.stopping then 2 else 1, w32 x.setsClosed] ++ (List.range 4).map fun k => (x.rings.getD k {}).lastSeq)

/-- HELD_RECORD_EXPIRY (R92): the oldest held record is discarded once held for 4 ms, and counted in LINK_DROPPED. -/
def execHeldRecordExpiry (s : State) : Out :=
  match s.held with
  | h :: t =>
    onTrigger (!s.life.linkUp && decide (msTicks 4 ≤ s.since h.tick)) s fun s =>
      settleStop h.ctx ({ s with held := t }.updSession h.ctx fun y => { y with linkDropped := y.linkDropped + 1 })
  | [] => .next s

end Sys2Proof.Machine
end

