-- ==== Sys2Proof/Machine/Abort.lean ====
section
/-! DEFINITION. ABORT (R685 to R689) and the ends of commands that a safe stop or a reset brings (R674, R911). -/

namespace Sys2Proof.Machine

/-- Remove a query that has not been answered, with its snapshot. -/
def State.dropQuery (s : State) (k : Nat) : State := { s.closeSnap (.query k) with queries := Tab.del s.queries k }.reapMaps

/-- A SEARCH_QUERY ends at the next list boundary and writes no result (R708). -/
def abortQuery (c : CmdRef) (s : State) : State :=
  match s.queries.find? fun q => decide (q.2.cmd = some c) with
  | some (k, q) =>
    if q.scanning then { s with queries := Tab.put s.queries k { q with aborting := true } } else (s.dropQuery k).refuseOpen c ABORTED
  | none => s.refuseOpen c ABORTED

/-- An OBJ_MOVE brings its granules back (R602). -/
def abortMove (c : CmdRef) (s : State) : State :=
  match s.objs.find? fun o => o.2.moving.any fun m => decide (m.2.2.1 = c) with
  | some (k, _) => s.moveBackObj k ABORTED
  | none => s.refuseOpen c ABORTED

/-- An OBJ_PROMOTE adds no claim (R711); one whose context already held the claim keeps it. -/
def abortPromote (m : Cmd) (s : State) : State :=
  let s := s.refuseOpen m.ref ABORTED
  match m.work with
  | [k, tier, 0] => s.unclaim k tier m.ctx
  | _ => s

/-- A STOP_SESSION no longer waits for its session. -/
def abortStop (c : CmdRef) (s : State) : State :=
  (forEach s.sessionCtxs (fun n s => s.updSession n fun x => { x with stopCmds := x.stopCmds.filter fun d => decide (d ≠ c) }) s).refuseOpen c ABORTED

/-- A MARGIN_REPLAN no longer waits for its re-planning. -/
def abortReplan (c : CmdRef) (s : State) : State :=
  (s.mapAge fun a => { a with replan := a.replan.map fun r => (r.1, r.2.filter fun d => decide (d ≠ c)) }).refuseOpen c ABORTED

/-- A started command that has not committed ends as its chapter has an abort end it. -/
def endRunning (m : Cmd) (s : State) : State :=
  let c := m.ref
  match m.opcode with
  | 0x0101 => abortStop c s
  | 0x0401 => abortFilter c s
  | 0x0403 => abortFilter c s
  | 0x0506 => s.abortGraph c
  | 0x0706 => ((s.dropQueued c).closeSnap (.command c)).reapMaps.refuseOpen c ABORTED
  | 0x0803 => abortQuery c s
  | 0x0900 => if (s.ctxAt m.ctx).admitCmd = some c then s.releaseContext m.ctx else s.refuseOpen c ABORTED
  | 0x0A08 => abortMove c s
  | 0x0A09 => abortPromote m s
  | 0x0C03 => abortReplan c s
  | 0x0D03 => if s.sec.actCmd = some c then s.mapSec fun x => { x with rolling := true } else s.refuseOpen c ABORTED
  | _ => (s.dropQueued c).refuseOpen c ABORTED

/-- Whether a command has neither committed nor ended. -/
def Cmd.open_ (m : Cmd) : Bool := !m.committed && decide (m.phase ≠ .ended)

/-- End a command as though aborted (R674, R686, R689). -/
def endAborted (m : Cmd) (s : State) : State :=
  if m.open_ = false then s
  else if m.phase = .armed then s.refuseOpen m.ref ABORTED
  else endRunning m s

/-- Host commands that have neither committed nor ended, other than one. -/
def State.openHost (s : State) : List Cmd := s.cmds.filter fun m => !m.isTether && m.open_

/-- The command of the same master and function that carries a TAG (R685). -/
def abortTarget (m : Cmd) (tag : Nat) (s : State) : Option Cmd :=
  s.cmds.find? fun x => decide (x.ref ≠ m.ref ∧ x.ref.sender = m.ref.sender) && x.tag == tag

/-- ABORT. One that names a command which has ended, whatever its end, is too late (assumption 1). -/
def execAbort (c : CmdRef) (s : State) : Out :=
  onCmd 0x0003 c s fun m s =>
    match abortTarget m (fld (m.w 3) 31 16) s with
    | none => s.refuseOpen c UNKNOWN_TAG
    | some x =>
      if x.abortable = false then s.refuse c BAD_PARAM 0x0005
      else if x.open_ = false then s.refuseOpen c ABORT_TOO_LATE
      else (endAborted x s).done c

end Sys2Proof.Machine
end

