-- ==== Sys2Proof/Machine/Calib.lean ====
section
/-! DEFINITION. Fusion and calibration commands, 0x06xx (chapters 8, 16 and 20). -/

namespace Sys2Proof.Machine

/-- RIG_WRITE (R327, R328, R331, R332, R366). -/
def execRigWrite (c : CmdRef) (s : State) : Out :=
  onCmd 0x0600 c s fun m s =>
    let b := m.bytesAt 3 16
    let port := leAt b 0 1
    let index := leAt b 1 1
    let n := m.ctx
    if rigKey port index = false ∨ privilegedPort port then s.badWord c 3
    else if isCamera port ∧ ((refinedPair s n port index).any fun st => (s.streamAt st).shadow.isSome) = true then s.refuseOpen c BUSY
    else
      let e := { SensorEntry.ofBytes b with origin := 0 }
      let s := s.updCtx n fun x => { x with rig := Tab.put x.rig (sensorKey port index) e }
      (entryChanged n port index e s).done c

/-- RIG_READ: the entry in use (R365, Table 16-10). -/
def execRigRead (c : CmdRef) (s : State) : Out :=
  onCmd 0x0601 c s fun m s =>
    match s.entryInUse m.ctx (fld (m.w 3) 7 0) (fld (m.w 3) 15 8) with
    | some e => s.done c OK 0 (bytesWords 16 e.bytes)
    | none => s.badWord c 3

/-- A FUSION_CONFIG block (Table 8-6) with the defaults of R695, or the word that fails. -/
def parseFusion (b : List Byte) : Nat ⊕ FusionCfg :=
  let f (off n lo hi d : Nat) := withDefault (leAt b off n) lo hi d
  match f 0 2 10 500 200, f 2 2 100 2500 921, f 4 2 1 32767 320, f 8 2 50 1000 134, f 10 2 100 2500 599 with
  | none, _, _, _, _ => .inl 4
  | _, none, _, _, _ => .inl 4
  | _, _, none, _, _ => .inl 5
  | _, _, _, none, _ => .inl 6
  | _, _, _, _, none => .inl 6
  | some retro, some gate, some newCost, some huber, some outlier =>
    match f 12 1 2 16 3, f 13 1 1 60 10, f 14 1 8 255 32, f 16 2 1 3600 10, f 18 2 1 100 2 with
    | none, _, _, _, _ => .inl 7
    | _, none, _, _, _ => .inl 7
    | _, _, none, _, _ => .inl 7
    | _, _, _, none, _ => .inl 8
    | _, _, _, _, none => .inl 8
    | some confirm, some coast, some align, some period, some pos =>
      match f 20 2 1 1000 10, f 22 2 100 2500 1083, f 24 2 1 8 2, f 26 2 4 255 16 with
      | none, _, _, _ => .inl 9
      | _, none, _, _ => .inl 9
      | _, _, none, _ => .inl 10
      | _, _, _, none => .inl 10
      | some rot, some wheel, some radius, some sigma =>
        .inr { retro := retro, gate := gate, newCost := newCost, descWeight := leAt b 6 1, geoWeight := leAt b 7 1, huber := huber, outlier := outlier,
               objConfirm := confirm, objCoast := coast, alignSamples := align, flags := BitVec.ofNat 8 (leAt b 15 1 % 8), applyPeriod := period,
               refinePos := pos, refineRot := rot, wheelGate := wheel, lidarRadius := radius, dispSigma := sigma }

/-- FUSION_CONFIG (R376): the block waits for the next association. -/
def execFusionConfig (c : CmdRef) (s : State) : Out :=
  onCmd 0x0602 c s fun m s =>
    match s.sessionAt m.ctx with
    | none => s.badWord c 3
    | some x =>
      if x.number.toNat ≠ fld (m.w 3) 15 0 then s.badWord c 3
      else match parseFusion (m.bytesAt 4 8) with
        | .inl i => s.badWord c i
        | .inr f => (s.updSession m.ctx fun x => { x with fusionNext := some f }).done c

/-- CALIB_READ (R837, R847). -/
def execCalibRead (c : CmdRef) (s : State) : Out :=
  onCmd 0x0603 c s fun m s =>
    match s.storeRec (sensorKey (fld (m.w 3) 7 0) (fld (m.w 3) 15 8)) with
    | some r => s.done c OK 0 (bytesWords 16 r.bytes ++ [r.time.setWidth 32, (r.time >>> 32).setWidth 32])
    | none => s.badWord c 3

/-- Whether a grid of an anchor camera waits in its shadow slot (R845). -/
def anchorWaits (s : State) : Bool := s.streams.any fun e => isAnchor e.2 && e.2.shadow.isSome

/-- A record of C0 or C1 has changed: the anchor grids of a session that binds the pair are made anew, and fusion takes the new records with
them (R839, R840). -/
def anchorChanged (s : State) : State :=
  let l := s.streams.filter fun e => isAnchor e.2
  let bound := l.filter fun e => l.any fun f => f.2.ctx == e.2.ctx && f.2.port != e.2.port
  forEach bound (fun e s =>
    let s := regenerate e.1 s
    match s.rigEntry e.2.ctx e.2.port 0 with
    | some x => s.updCtx e.2.ctx fun c => { c with rigDue := c.rigDue ++ [(sensorKey e.2.port 0, x, s.devNs)] }
    | none => s) s

/-- CALIB_COMMIT (R841 to R847). -/
def execCalibCommit (c : CmdRef) (s : State) : Out :=
  onCmd 0x0604 c s fun m s =>
    let port := fld (m.w 3) 7 0
    let index := fld (m.w 3) 15 8
    let key := sensorKey port index
    let rig := bit (m.w 3) 16
    let src : Option (List Byte) :=
      if rig then (if privilegedPort port then none else (s.entryInUse 0 port index).map SensorEntry.bytes) else some (m.bytesAt 4 16)
    if m.ctx ≠ 0 then s.refuseOpen c NOT_OWNER
    else if storeKey port index = false then s.badWord c 3
    else match src with
      | none => s.badWord c 3
      | some b =>
        if (port = 0 ∨ port = 1) ∧ anchorWaits s then s.refuseOpen c BUSY
        else match commitRecord s port index b with
          | .inl off => s.badWord c (if rig then 3 else 4 + off / 4)
          | .inr r =>
            let old := s.storeRec key
            let eff := if port = 32 then s.devNs + 1000000 else 0
            let new : CalibRec := { bytes := r, time := s.devTime, effective := eff }
            let was := match old with | some o => leAt o.bytes 3 1 | none => 0
            let s := s.mapAge fun a =>
              { a with store := Tab.put a.store key new, before := if port = 32 then Tab.put a.before key (old.getD {}) else a.before }
            let s := s.ledger { kind := 6, subject := port, subject2 := index + 256 * (was % 4) + 1024 * 2 }
            let s := s.raise 0x8605 key
            (if port < 2 then anchorChanged s else s).done c

end Sys2Proof.Machine
end

