-- ==== Sys2Proof/Machine/Clocks.lean ====
section
/-! DEFINITION. Clock sources, clocked islands and the voltage sequencer (chapter 18), and the host link (R92). Sources: 0 REF, 1 XO. Islands as in
Table 18-1. -/

namespace Sys2Proof.Machine

/-! ### The host link (R92) -/

/-- The link goes down: records are held (R92). -/
def linkDown (s : State) : State := if s.life.linkUp then { s.mapLife fun l => { l with linkUp := false } with linkDownTick := some s.time.ticks } else s

/-- HOST_LINK_DOWN. -/
def execHostLinkDown (s : State) : Out := onTrigger s.life.linkUp s linkDown

/-- HOST_LINK_UP (R92, R900): the records held are written in their order, and stops that waited for them end (R73). Training needs PERST#
deasserted, the main side on and island 0 clocked. -/
def execHostLinkUp (s : State) : Out :=
  onTrigger (!s.life.linkUp && s.mainOn && !s.life.perst && !(s.islandAt 0).parked) s fun s =>
    let s := { s.mapLife fun l => { l with linkUp := true } with linkDownTick := none }
    forEach s.sessionCtxs settleStop (s.flushHeld.requestFreq 0 1000)

/-! ### Sources and switching (R759 to R771) -/

/-- The primary source of an island: 0 REF or 1 XO (Table 18-1). -/
def primarySource (island : Nat) : Nat := if [0, 1, 2, 4].contains island then 0 else 1

/-- The source an island runs on: its primary or alternate, or 2 for the on-die RC oscillator of island 7. -/
def State.sourceOf (s : State) (island : Nat) : Nat :=
  let p := primarySource island
  if (s.islandAt island).alt then (if island = 7 then 2 else 1 - p) else p

def State.stableSource (s : State) (k : Nat) : Bool := k == 2 || (s.sources.getD k {}).stable

/-- The other source of an island. -/
def otherSource (island k : Nat) : Nat := if island = 7 then (if k = 2 then 1 else 2) else 1 - k

/-- Islands that are powered: the always-on island, and the others while the main side runs. -/
def State.clocked (s : State) (island : Nat) : Bool := island == 7 || s.mainOn

/-- INCREMENT scaled by the last measured ratio of the sources, which differs from 1 by 50 ppm at most; the ratio is open (R765, assumption 16,
place 51). The last locked INCREMENT and the estimate are rates of the same source and follow it, so that R123 and R973 hold across the switch. -/
def scaleIncrement (s : State) : State :=
  let f := s.takeFree
  let b := f.2.time.inc.toNat * 50 / 1000000
  f.2.mapTime fun t =>
    let new := t.inc.toNat + Config.openVal 51 f.1 % (2 * b + 1) - b
    let scaled (x : BitVec 40) := BitVec.ofNat 40 (x.toNat * new / max 1 t.inc.toNat)
    { t with inc := BitVec.ofNat 40 new, lockedInc := scaled t.lockedInc, estimate := t.estimate.map scaled }

/-- Move islands to their other source (R764, R766). -/
def switchIslands (l : List Nat) (s : State) : State :=
  let s := forEach l (fun i s => s.updIsland i fun x => { x with alt := !x.alt }) s
  if l.contains 4 then scaleIncrement s else s

/-- CLOCK_SOURCE_SWITCHED for the islands of a list that are now on their alternate, or back on their primary (R767, Table 18-6). -/
def raiseSwitched (l : List Nat) (alt : Bool) (s : State) : State :=
  let m := l.filter fun i => (s.islandAt i).alt == alt
  if m = [] then s else s.raise 0x8B10 (maskOf m * 256 + (if alt then 1 else 0))

/-- Sources lost (Table 18-6). -/
def lostMask (s : State) : Nat := (if (s.sources.getD 0 {}).present then 0 else 1) + (if (s.sources.getD 1 {}).present then 0 else 2)

/-- What an island does when it has no source (Table 18-2). -/
def parkIsland (i : Nat) (s : State) : State :=
  let s := s.updIsland i fun x => { x with parked := true, lostAt := s.time.ticks }
  match i with
  | 0 => linkDown s
  | 2 => forEach (s.streams.map (·.1)) (fun st s => match (s.streamAt st).cur with | some k => dropFrame st k 3 s | none => s) s
  | 4 =>
    let s := { s with reel := Tab.mapVals s.reel fun _ e => { e with pulses := [] } }
    let s := s.mapTime fun t => { t with ppsHigh := false, held := true, imu0Due := false }
    if s.time.state = .holdover then s else enterHoldover 3 s
  | _ => s

/-- Park islands and raise CLOCK_SOURCE_LOST (R768). -/
def parkIslands (l : List Nat) (s : State) : State :=
  if l = [] then s else (forEach l parkIsland s).raise 0x8B11 (maskOf l * 256 + lostMask s)

/-- Change a source. -/
def State.updSource (s : State) (k : Nat) (f : SourceS → SourceS) : State := { s with sources := setAt {} s.sources k (f (s.sources.getD k {})) }

/-- The islands that run on a source now. -/
def State.runningOn (s : State) (k : Nat) : List Nat := (List.range 8).filter fun i => s.clocked i && !(s.islandAt i).parked && s.sourceOf i == k

/-- CLOCK_SOURCE_LOST (R762 to R764, R768): islands on the source switch to their other one, or park. -/
def execClockSourceLost (source : Nat) (s : State) : Out :=
  onTrigger (decide (source < 2) && (s.sources.getD source {}).present && (source == 1 || s.mainOn)) s fun s =>
    let l := s.runningOn source
    let s := s.updSource source fun x => { x with present := false, stable := false }
    let go := l.filter fun i => s.stableSource (otherSource i source)
    let s := raiseSwitched go false (raiseSwitched go true (switchIslands go s))
    parkIslands (l.filter fun i => !go.contains i) s

/-- CLOCK_SOURCE_STABLE (R761, R763): 65,536 cycles without a missing edge. The always-on island takes XO for the first time
(R892). -/
def execClockSourceStable (source : Nat) (s : State) : Out :=
  onTrigger (decide (source < 2) && !(s.sources.getD source {}).stable && (source == 1 || s.mainOn)) s fun s =>
    let s := s.updSource source fun _ => { present := true, stable := true, since := s.time.ticks }
    if source = 1 ∧ s.life.xoTaken = false then (s.updIsland 7 fun x => { x with alt := false }).mapLife fun l => { l with xoTaken := true } else s

/-- CLOCK_SOURCE_RETURN (R766, R767): an island returns to its primary once that has stayed present for 10 s. -/
def execClockSourceReturn (island : Nat) (s : State) : Out :=
  let x := s.islandAt island
  let p := s.sources.getD (primarySource island) {}
  onTrigger (decide (island < 8) && s.clocked island && x.alt && !x.parked && p.stable && decide (msTicks 10000 ≤ s.since p.since)) s fun s =>
    raiseSwitched [island] false (switchIslands [island] s)

/-- PLL_LOCK_LOST (R768): the PLL of an island has been out of lock for 1 µs. -/
def execPllLockLost (island : Nat) (s : State) : Out :=
  onTrigger (decide (island < 7) && s.mainOn && !(s.islandAt island).parked) s fun s =>
    parkIslands [island] (s.updIsland island fun x => { x with pllLost := true })

/-- ISLAND_RESUME (R769, R771, R775, Table 18-3): a source is stable and the PLL has locked; the primary is taken when both are stable. -/
def execIslandResume (island : Nat) (s : State) : Out :=
  let x := s.islandAt island
  let p := primarySource island
  onTrigger (decide (island < 7) && s.mainOn && x.parked && (s.stableSource p || s.stableSource (1 - p))) s fun s =>
    let low := match x.target with | some t => min x.mhz t.1 | none => x.mhz
    let s := s.updIsland island fun x => { x with parked := false, pllLost := false, alt := !s.stableSource p, mhz := low }
    let s := if island = 4 then s.mapTime fun t => { t with held := false } else s
    s.raise 0x8B12 (2 ^ island * 256 + min 255 (s.since x.lostAt / msTicks 1))

/-- VOLTAGE_TRANSITION (R772 to R775): a transition completes; the latest request that waits is next. -/
def execVoltageTransition (island : Nat) (s : State) : Out :=
  let x := s.islandAt island
  match x.target with
  | none => .next s
  | some t =>
    onTrigger (s.mainOn && !x.parked) s fun s => s.updIsland island fun x => { x with mhz := t.1, mv := t.2, target := x.waiting, waiting := none }

/-! ### VF_CURVE_LOAD (R776 to R778) -/

/-- The points of a curve table (Table 18-4). -/
def curvePoints (b : List Byte) : List (Nat × Nat) := (List.range (leAt b 1 1)).map fun i => (leAt b (16 + 8 * i) 2, leAt b (18 + 8 * i) 2)

/-- Whether neighbours satisfy a relation. -/
def chained (r : Nat × Nat → Nat × Nat → Bool) (l : List (Nat × Nat)) : Bool := (l.zip (l.drop 1)).all fun e => r e.1 e.2

/-- Whether the fields keep Table 18-4; reserved bytes do not count (R17). -/
def curveOk (island : Nat) (b : List Byte) : Bool :=
  let p := curvePoints b
  let n := leAt b 1 1
  [0, 2, 5].contains island && leAt b 0 1 == island && decide (2 ≤ n ∧ n ≤ 16) && b.length == 16 + 8 * n
    && p.all (fun e => decide (650 ≤ e.2 ∧ e.2 ≤ 900)) && chained (fun x y => decide (x.1 < y.1 ∧ x.2 ≤ y.2)) p

/-- The highest working frequency of an island, MHz (Table 18-1). -/
def topFreq (island : Nat) : Nat := if island = 0 then 1000 else if island = 2 then 313 else 800

/-- The least supply that the fuses and the ageing ledger set for a frequency of an island; it is not given, and lies within 900 mV (assumption
16, place 53). -/
def State.minVolt (s : State) (island mhz : Nat) : Nat := Config.openVal 53 ((s.age.ledger.length * 8 + island) * 65536 + mhz) % 901

/-- VF_CURVE_LOAD. -/
def execVfCurveLoad (c : CmdRef) (s : State) : Out :=
  onCmd 0x0B04 c s fun m s =>
    let i := fld (m.w 3) 3 0
    withSg m 4 s fun b =>
      let p := curvePoints b
      if !([0, 2, 5].contains i) then s.badWord c 3
      else if curveOk i b = false then s.badWord c 4
      else if p.any (fun e => decide (e.2 < s.minVolt i e.1)) ∨ (p.getLastD (0, 0)).1 < topFreq i then s.refuse c BAD_PARAM 0x0050
      else if (s.islandAt i).target.isSome ∨ (i = 2 ∧ (List.range 12).any fun q => decide ((s.portAt q).state = .streaming)) then s.refuseOpen c BUSY
      else (s.updIsland i fun x => { x with curve := p }).done c

end Sys2Proof.Machine
end

