-- ==== Sys2Proof/Machine/Protocol.lean ====
section
/-! DEFINITION. The carriers and the protocol commands (chapter 15): slots, registers, MCTP messages, start and reply of a command,
HELLO, QUERY_CAPS, claims and the expert class. -/

namespace Sys2Proof.Machine

/-! ### Carriers -/

/-- Whether a PCIe function can be reached: the link is up, and a VF exists (R873: in recovery the PF alone). -/
def fnReachable (s : State) (fn : Nat) : Bool :=
  s.life.linkUp && (fn == 0 || (decide (fn < 8) && s.life.vfEnable && decide (s.life.main ≠ .recovery)))

/-- A write to a slot that the module owns is ignored and sets SLOT_WRITE_LOST (R641). -/
def slotLost (fn : Nat) (s : State) : State := s.updFn fn fun f => { f with writeLost := true }

/-- The write of word 0 arms a slot that belongs to the host (R640); its packet joins the outstanding commands (R654). -/
def armSlot (fn slot : Nat) (word0 : Word) (s : State) : State :=
  let f := s.fnAt fn
  if bit f.slotBusy slot then slotLost fn s
  else
    let s := s.updFn fn fun f => { f with slots := Tab.write 0 f.slots (slot * 128) word0,
                                          slotBusy := f.slotBusy ||| BitVec.ofNat 32 (2 ^ slot) }
    let f := s.fnAt fn
    let words := (List.range (min 128 (max 3 (fld word0 11 0)))).map fun i => Tab.getD f.slots (slot * 128 + i) 0
    { s with cmds := s.cmds ++ [{ ref := ⟨.host fn, slot⟩, words := words, started := s.time.ticks }] }

/-- SLOT_ARM (R640). `placed` is what the host has put into its memory before it arms the slot. -/
def execSlotArm (fn slot : Nat) (word0 : Word) (placed : List (Nat × Byte)) (s : State) : Out :=
  if 8 ≤ fn ∨ 32 ≤ slot then .fault .outsideBar0
  else
    let s := { s with hostMem := placed.foldl (fun m e => Tab.write 0 m e.1 e.2) s.hostMem }
    if fnReachable s fn then .next (armSlot fn slot word0 s) else .next s

/-- A write to a word of a slot (R640, R641). -/
def writeSlotWord (fn slot index : Nat) (value : Word) (s : State) : State :=
  if bit (s.fnAt fn).slotBusy slot then slotLost fn s
  else if index = 0 then armSlot fn slot value s
  else s.updFn fn fun f => { f with slots := Tab.write 0 f.slots (slot * 128 + index) value }

/-- SLOT_WRITE_LOST (R641): a write to a slot owned by the module; a host-owned slot takes the write. -/
def execSlotWriteLost (fn slot index : Nat) (value : Word) (s : State) : Out :=
  if 8 ≤ fn ∨ 32 ≤ slot ∨ 128 ≤ index then .fault .outsideBar0
  else onTrigger (fnReachable s fn) s (writeSlotWord fn slot index value)

/-- A write to the MSI-X table; unmasking a vector sends what is pending (R653). -/
def writeMsix (fn i : Nat) (value : Word) (s : State) : State :=
  let s := s.updFn fn fun f => { f with msix := Tab.put f.msix i value }
  let v := i / 4
  if i % 4 = 3 ∧ bit value 0 = false ∧ bit (s.fnAt fn).pba v then
    (s.updFn fn fun f => { f with pba := f.pba &&& ~~~ (BitVec.ofNat 8 (2 ^ v)) }).send (.msix fn v)
  else s

/-- A register write of BAR0 by the access codes of R35. -/
def writeReg (fn offset : Nat) (value : Word) (s : State) : State :=
  if offset < 0x4000 then writeSlotWord fn (offset / 512) (offset % 512 / 4) value s
  else if offset / 4 = 0x1000 then
    (if bit value 7 then s.updFn fn fun f => { f with writeLost := false } else s)
  else if offset / 4 = 0x1002 then s.updFn fn fun f => { f with slotDone := f.slotDone &&& ~~~ value }
  else if 0x6000 ≤ offset ∧ offset < 0x6080 then writeMsix fn ((offset - 0x6000) / 4) value s
  else s

/-- REGISTER_WRITE (R35, R653). -/
def execRegisterWrite (fn offset : Nat) (value : Word) (s : State) : Out :=
  if 8 ≤ fn ∨ 0x8000 ≤ offset then .fault .outsideBar0
  else onTrigger (fnReachable s fn) s (writeReg fn offset value)

/-- The message that a run of packets carries (R680, R684): the packets in order, each PEC right, one tag, and every transmission unit but the
last of 64 bytes; none where the assembly of DSP0236 fails. -/
def assembled (ps : List SmbusPacket) : Option (List Byte) :=
  let p (i : Nat) : SmbusPacket := ps.getD i {}
  let ok (i : Nat) : Bool :=
    let q := p i
    let last := i + 1 == ps.length
    q.pecOk && q.som == (i == 0) && q.eom == last && q.seq == (p 0).seq + BitVec.ofNat 2 i && q.tag == (p 0).tag && q.owner == (p 0).owner
      && (if last then decide (0 < q.payload.length ∧ q.payload.length ≤ 64) else q.payload.length == 64)
  if ps ≠ [] ∧ (List.range ps.length).all ok then some (ps.flatMap (·.payload)) else none

/-- A message in transmission units of 64 bytes, with a given tag and TO clear (R680, R682). -/
def smbusSplit (tag : BitVec 3) (b : List Byte) : List SmbusPacket :=
  let n := max 1 (ceilDiv b.length 64)
  (List.range n).map fun i =>
    { som := i == 0, eom := i + 1 == n, seq := BitVec.ofNat 2 i, tag := tag, owner := false, payload := (b.drop (64 * i)).take 64 }

/-- The type and the enterprise number before the Ransa packet (R682). -/
def ransaHead : List Byte := 0x7F :: (List.range 4).map Config.enterprise

/-- A complete Ransa message from an endpoint: the packet's words, then inline data (R682, R683). -/
def ransaMessage (eid : Byte) (peer : BitVec 7) (tag : BitVec 3) (body : List Byte) (s : State) : State :=
  let n := min 128 (max 3 (fld (wordAt body 0) 11 0))
  let m : Cmd := { ref := ⟨.tether, s.tether.nextKey⟩, words := bytesWords n body, inlineIn := body.drop (4 * n), eid := eid, peer := peer,
                   mtag := tag, started := s.time.ticks }
  { s with cmds := s.cmds ++ [m], tether := { s.tether with nextKey := s.tether.nextKey + 1 } }

/-- MCTP_MESSAGE_RECEIVED (R680, R682): packets to address 0x6A at 100 kHz, 400 kHz or 1 MHz. A message that fails PEC or assembly is discarded
(R684), as is one beyond 4,096 bytes or with TO clear (DESIGN CHOICE, entry 20); only Ransa messages start commands, SPDM and control requests have
rows of their own. -/
def execMctpMessageReceived (eid : Byte) (peer address : BitVec 7) (khz : Nat) (packets : List SmbusPacket) (s : State) : Out :=
  let p := packets.headD {}
  match assembled packets with
  | none => .next s
  | some b =>
    onTrigger (s.life.vaux && address == 0x6A && [100, 400, 1000].contains khz && p.owner && decide (b.length ≤ 4096)
      && b.take 5 == ransaHead) s (ransaMessage eid peer p.tag (b.drop 5))

/-- An MCTP control response (DSP0236, assumption 20), sent to the endpoint that asked. -/
def mctpControl (dst : Byte) (body : List Byte) (s : State) : State := s.send (.mctp dst 0x00 body)

/-- SET_ENDPOINT_ID: the null and the broadcast ID are invalid; otherwise the ID is taken (R681). -/
def execSetEndpointId (_force : Bool) (eid : Byte) (s : State) : Out :=
  onTrigger s.life.vaux s fun s =>
    if eid = 0x00 ∨ eid = 0xFF then mctpControl 0 [0x01, 0x02] s
    else mctpControl 0 [0x01, 0x00, 0x00, eid, 0x00] (s.mapTether fun t => { t with eid := eid })

/-- GET_ENDPOINT_ID (R681). -/
def execGetEndpointId (src : Byte) (s : State) : Out :=
  onTrigger s.life.vaux s fun s => mctpControl src [0x02, 0x00, s.tether.eid, 0x00, 0x00] s

/-- GET_MCTP_VERSION_SUPPORT: one version entry for each supported type (R681). -/
def execGetMctpVersionSupport (src msgType : Byte) (s : State) : Out :=
  onTrigger s.life.vaux s fun s =>
    if [0xFF, 0x00, 0x05, 0x7F].contains msgType then
      mctpControl src ([0x04, 0x00, 0x01] ++ wBytes (Config.mctpVersion msgType)) s
    else mctpControl src [0x04, 0x80] s

/-- GET_MESSAGE_TYPE_SUPPORT: SPDM and Vendor Defined IANA beside control (R681). -/
def execGetMessageTypeSupport (src : Byte) (s : State) : Out :=
  onTrigger s.life.vaux s fun s => mctpControl src [0x05, 0x00, 0x02, 0x05, 0x7F] s

/-- GET_VENDOR_DEFINED_MESSAGE_SUPPORT: the one vendor ID, an IANA enterprise number (R681, R682). -/
def execGetVendorDefinedMessageSupport (src selector : Byte) (s : State) : Out :=
  onTrigger s.life.vaux s fun s =>
    if selector = 0 then mctpControl src ([0x06, 0x00, 0xFF, 0x01] ++ (List.range 6).map Config.enterprise) s
    else mctpControl src [0x06, 0x02] s

/-! ### Start and reply -/

/-- The wait for the switch point of an update (R880). -/
def State.switchWait (s : State) : Bool := s.sec.stage == 4 && s.sec.coresNew.getD 1 false && !s.sec.rolling

/-- While the steward cores' island is parked, only what the tether core serves is started (R768, Table 18-2); before the switch point,
nothing is (R880). -/
def startHeld (m : Cmd) (s : State) : Bool :=
  s.switchWait || (s.islandAt 5).parked && !(m.isTether && ([0x0001, 0x0002, 0x0004, 0x0005].contains m.opcode || (opInfo m.opcode).any (·.tether)))

/-- COMMAND_START: the first armed command of a master and function is checked and starts, or is refused (R654, R656). -/
def execCommandStart (who : Sender) (s : State) : Out :=
  match s.cmds.find? fun m => decide (m.ref.sender = who ∧ m.phase = .armed) with
  | none => .next s
  | some m =>
    if startHeld m s then .next s
    else match startCheck m s with
    | some (st, d) => .next (s.refuse m.ref st d)
    | none => .next (s.updCmd m.ref fun x => { x with phase := .running, started := s.time.ticks })

/-- The words of a reply (Table 15-4). -/
def replyWords (minor : Nat) (m : Cmd) (r : Reply) : List Word :=
  [w32 (r.status.toNat * 65536 + r.detail.toNat), w32 (m.tag * 65536 + m.ctxField * 256),
   w32 (0x01000000 + minor * 65536 + 5 + r.body.length),
   r.commitTime.setWidth 32, (r.commitTime >>> 32).setWidth 32] ++ r.body

/-- Write words into a slot from its word 0 on. -/
def putSlot (t : Tab Word) (base : Nat) : List Word → Tab Word
  | [] => t
  | w :: l => putSlot (Tab.write 0 t base w) (base + 1) l

/-- The reply reaches its master: into the slot, then SLOT_DONE, then the MSI-X message (R642, R643); or as an MCTP message (R682). -/
def carryReply (m : Cmd) (r : Reply) (s : State) : State :=
  let minor := s.minorOf m.ref.sender
  let s := s.delCmd m.ref
  match m.ref.sender with
  | .tether => s.send (.ransaReply m.eid m.peer (smbusSplit m.mtag (ransaHead ++ wordsBytes (replyWords minor m r) ++ r.inlineOut)))
  | .host n =>
    let s := s.updFn n fun f =>
      { f with slots := putSlot f.slots (m.ref.key * 128) ((replyWords minor m r).take 128),
               slotDone := f.slotDone ||| BitVec.ofNat 32 (2 ^ m.ref.key),
               slotBusy := f.slotBusy &&& ~~~ (BitVec.ofNat 32 (2 ^ m.ref.key)) }
    if m.irq then s.msix n 0 else s

/-- COMMAND_REPLY (R642): the reply of an ended command is written. -/
def execCommandReply (c : CmdRef) (s : State) : Out :=
  match s.findCmd c with
  | some m =>
    match m.phase, m.reply with
    | .ended, some r => .next (carryReply m r s)
    | _, _ => .next s
  | none => .next s

/-! ### Protocol commands, 0x00xx -/

/-- HELLO's effect on the sender: READY, or the Tether session, which a HELLO from another endpoint replaces (R19, R676, R664). -/
def openSender (m : Cmd) (s : State) : State :=
  match m.ref.sender with
  | .host n => s.updFn n fun f => { f with ready := true, hostMinor := BitVec.ofNat 8 m.minor, fwMinor := BitVec.ofNat 8 s.sec.runMinor }
  | .tether =>
    if s.tether.endpoint = some m.eid then s.mapTether fun t => { t with minor := BitVec.ofNat 8 m.minor }
    else (s.mapTether fun t => { t with endpoint := some m.eid, expert := 0, minor := BitVec.ofNat 8 m.minor }).raise 0x8004 m.eid.toNat

/-- HELLO (R19, R20). -/
def execHello (c : CmdRef) (s : State) : Out :=
  onCmd 0x0001 c s fun m s =>
    if m.major ≠ 1 then s.refuseOpen c VERSION_MISMATCH
    else (openSender m s).done c OK 0 (s.sec.runVersion :: (List.range 4).map Config.serial)

/-- The capability descriptor (Table 16-2). -/
def capabilities (s : State) : List Word :=
  [0x00000001, w32 (0x10 * 0x1000000 + 0x40 * 0x10000 + (tilesIn s 1).length * 256 + (tilesIn s 0).length),
   w32 0x08040C08, w32 (0x54000 - s.dep.hbmTaken), w32 0x38, w32 0x000E2900, w32 0x04E2041A, w32 0x00800080,
   w32 (0x0E00 * 65536 + (Config.fwBuild s.sec.runVersion).toNat), 0, 0, 0, 0]

/-- QUERY_CAPS (R14). -/
def execQueryCaps (c : CmdRef) (s : State) : Out :=
  onCmd 0x0002 c s fun _ s => s.done c OK 0 (capabilities s)

/-- The domains that the Tether may claim, as a mask (R668). -/
def claimable : BitVec 16 := 0xA800

/-- DOMAIN_CLAIMED and DOMAIN_RELEASED name the domains in bits 0 to 2 (Table 15-11). -/
def claimDetail (mask : BitVec 16) : Nat :=
  (if bit mask 11 then 1 else 0) + (if bit mask 13 then 2 else 0) + (if bit mask 15 then 4 else 0)

/-- Claim domains for the Tether master; the event names those newly claimed (R669, R672). -/
def claimDomains (mask : BitVec 16) (s : State) : State :=
  let fresh := mask &&& ~~~ s.tether.claims
  let s := s.mapTether fun t => { t with claims := t.claims ||| mask }
  if fresh = 0 then s else s.raise 0x8000 (claimDetail fresh)

/-- Give domains back to the host; the event names those released (R670). -/
def releaseDomains (mask : BitVec 16) (s : State) : State :=
  let gone := mask &&& s.tether.claims
  let s := s.mapTether fun t => { t with claims := t.claims &&& ~~~ mask }
  if gone = 0 then s else s.raise 0x8001 (claimDetail gone)

/-- DOMAIN_CLAIM (R668, R669). -/
def execDomainClaim (c : CmdRef) (s : State) : Out :=
  onCmd 0x0004 c s fun m s =>
    let mask := (m.w 3).setWidth 16
    if mask &&& ~~~ claimable &&& 0xFFFE ≠ 0 then s.refuse c BAD_OPCODE 0x0003
    else let s := claimDomains (mask &&& claimable) s
      s.done c OK 0 [domainOwner s]

/-- DOMAIN_RELEASE (R668, R670). -/
def execDomainRelease (c : CmdRef) (s : State) : Out :=
  onCmd 0x0005 c s fun m s =>
    let mask := (m.w 3).setWidth 16
    if mask &&& ~~~ claimable &&& 0xFFFE ≠ 0 then s.refuse c BAD_OPCODE 0x0003
    else let s := releaseDomains (mask &&& claimable) s
      s.done c OK 0 [domainOwner s]

/-- Bits 1 to 14 of an expert mask name domains; the others are ignored (R985). -/
def expertMask (w : Word) : BitVec 16 := w.setWidth 16 &&& 0x7FFE

/-- Change the expert enables of a master. -/
def setExpert (who : Sender) (g : BitVec 16 → BitVec 16) (s : State) : State :=
  match who with
  | .host n => s.updFn n fun f => { f with expert := g f.expert }
  | .tether => s.mapTether fun t => { t with expert := g t.expert }

/-- The lowest domain of `mask` that the policy of a VF forbids (R662); the PF and the Tether are not subject to it. -/
def policyForbids (who : Sender) (mask : BitVec 16) (s : State) : Option Nat :=
  match who with
  | .tether => none
  | .host n => if n = 0 then none else (List.range 16).find? fun d => bit mask d && !bit (s.fnAt n).policy d

/-- EXPERT_ENABLE (R661, R662). -/
def execExpertEnable (c : CmdRef) (s : State) : Out :=
  onCmd 0x0006 c s fun m s =>
    let mask := expertMask (m.w 3)
    match policyForbids c.sender mask s with
    | some d => s.refuse c EXPERT_LOCKED (d * 256 + 1)
    | none => let s := setExpert c.sender (· ||| mask) s
      s.done c OK 0 [expertState s c.sender]

/-- EXPERT_DISABLE (R664). -/
def execExpertDisable (c : CmdRef) (s : State) : Out :=
  onCmd 0x0007 c s fun m s =>
    let s := setExpert c.sender (· &&& ~~~ (expertMask (m.w 3))) s
    s.done c OK 0 [expertState s c.sender]

/-- EXPERT_POLICY from the PF: the mask of every VF named, and the enables that it removes (R662, R663). -/
def execExpertPolicy (c : CmdRef) (s : State) : Out :=
  onCmd 0x0008 c s fun m s =>
    match c.sender with
    | .tether => s.refuse c BAD_OPCODE 0x0003
    | .host n =>
      if n ≠ 0 then s.refuseOpen c NOT_OWNER
      else
        let mask := expertMask (m.w 4)
        let vfs := (List.range 8).filter fun v => v ≠ 0 ∧ bit (m.w 3) v
        (forEach vfs (fun v s => s.updFn v fun f => { f with policy := mask, expert := f.expert &&& mask }) s).done c

end Sys2Proof.Machine
end

