-- ==== Sys2Proof/Machine/Reset.lean ====
section
/-! DEFINITION. What the resets of Table 22-4 end: function resets, PERST# and the stop of the main side (R898, R910 to R917, R407). -/

namespace Sys2Proof.Machine

/-! ### Function resets (R910, R911) -/

/-- The owner's maps go (R407): sessions of borrowers stop producing for them, and each map is destroyed once its operations have ended. -/
def withdrawMap (n map : Nat) (s : State) : State :=
  let users := (s.mapSessions map).filter (· ≠ n)
  let s := forEach users (fun u s => s.updSession u fun x => { x with withdrawn := true }) s
  let loops := s.queries.filter fun q => q.2.map == map && q.2.cmd.isNone
  let s := forEach loops (fun q s => { s.closeSnap (.query q.1) with queries := Tab.del s.queries q.1 }) s
  let s := s.updMap map fun m => { m with withdrawn := true, queue := [], snaps := m.snaps.filter fun h => match h.holder with
    | .stage _ _ => false
    | _ => true }
  if users = [] then s else s.raiseMap map 0x8703 n

def withdrawMaps (n : Nat) (s : State) : State :=
  (forEach (s.maps.filter fun e => e.2.owner == n) (fun e s => withdrawMap n e.1 s) s).reapMaps

/-- The commands of a function end, and no reply is written for them (R911). -/
def dropHostCmds (n : Nat) (s : State) : State :=
  let mine := s.cmds.filter fun m => decide (m.ref.sender = .host n)
  let s := forEach mine endAborted s
  { s with cmds := s.cmds.filter fun m => decide (m.ref.sender ≠ .host n) }

/-- The session or program of a context ends, and no further record of it is written (R912). -/
def dropWork (n : Nat) (s : State) : State :=
  let s := endSession n { s with held := s.held.filter fun h => h.ctx != n }
  let s := forEach (s.queries.filter fun q => q.2.ctx == n) (fun q s => s.dropQuery q.1) s
  s.releaseContext n

/-- What a context holds is released (Table 22-4). -/
def dropHoldings (n : Nat) (s : State) : State :=
  let s := withdrawMaps n s
  let s := forEach (s.objs.filter fun o => o.2.owner == n) (fun o s => s.dropObj o.1) s
  let s := s.dropClaims n
  let s := forEach (s.filters.filter fun q => q.2.holder == some n) (fun q s => freeChannel q.1 s) s
  let s := forEach (s.ports.filter fun p => p.2.owner == some n) (fun p s => s.updPort p.1 fun q => q.released s.time.ticks) s
  let s := { s with targets := Tab.keep s.targets (fun _ h => h != n),
                    reel := Tab.mapVals s.reel fun _ e => if e.owner = n ∧ e.state ≠ 0 then e.freed else e }
  s.updCtx n fun c => { c with window := [], windows := [] }

/-- A reset of function `n` and its context; the EXPERT_POLICY mask of a VF outlasts a reset of that VF alone. -/
def resetFunction (n : Nat) (s : State) : State :=
  (dropHoldings n (dropWork n (dropHostCmds n s))).updFn n fun f => { policy := f.policy }

/-- RESET_CAUSE (R918). -/
def raiseReset (detail : Nat) (s : State) : State := s.raise 0x8E02 detail

/-- Reset functions; with the PF among them, VF Enable and the EXPERT_POLICY masks are cleared (R662). -/
def resetFunctions (l : List Nat) (s : State) : State :=
  let s := forEach l resetFunction s
  if l.contains 0 then
    { s.mapLife fun x => { x with vfEnable := false } with fns := Tab.mapVals s.fns fun _ f => { f with policy := 0 } }
  else s

/-- An FLR of a function, or VF Enable cleared, which resets every VF. -/
def functionReset (fn : Nat) (kind : FunctionResetKind) (s : State) : State :=
  let l := match kind with
    | .flr => if fn = 0 then List.range 8 else [fn]
    | .vfEnableCleared => (List.range 7).map (· + 1)
  let s := resetFunctions l s
  let s := match kind with
    | .flr => s
    | .vfEnableCleared => s.mapLife fun x => { x with vfEnable := false }
  forEach l (fun n s => raiseReset (4 + 256 * n) s) s

/-- PERST#: every function and the link (Table 22-4); RESET_CAUSE follows at its end (R918). -/
def perstFunctions (s : State) : State :=
  (linkDown (resetFunctions (List.range 8) s)).mapLife fun l => { l with perstReset := true }

/-! ### The stop of the main side (R898) -/

/-- What flash and fuses keep of the tiles: a tile in repair is retired (R989). -/
def keptTiles (t : Tab TileS) : Tab TileS := Tab.mapVals t fun _ x => { state := if x.state = 3 then 2 else x.state, retired := x.retired }

/-- What the ledger keeps of repairs: retired regions come out of the firmware reserve (R816). -/
def keptDep (d : DepS) : DepS :=
  { retiredLanes := d.retiredLanes, retiredHbm := d.retiredHbm, hbmRetired := d.hbmRetired, reserve := 4096 - d.hbmRetired.length,
    hbmTaken := d.hbmRetired.length - 4096 }

/-- What flash keeps of ageing and calibration. -/
def keptAge (a : AgeS) : AgeS :=
  { a with replan := none, before := [], store := Tab.mapVals a.store fun _ r => { r with effective := 0 } }

/-- What flash and the tether core keep of firmware: an interrupted write leaves no valid image, a staged image is lost (Table 21-7, R872, R875). -/
def keptSec (x : SecS) : SecS :=
  { flash := x.flash, flashValid := x.flashValid && decide (x.stage < 7), runVersion := x.runVersion, runMinor := x.runMinor, svn := x.svn,
    ownerHash := x.ownerHash, ownerSeq := x.ownerSeq, atBoot := x.atBoot }

/-- The Tether's FW_ACTIVATE ends with the update; one that had committed is answered nothing more (assumption 14). -/
def endUpdateCmd (s : State) : State :=
  match s.sec.actCmd with
  | some c => if (s.findCmd c).any (·.open_) then s.refuseOpen c ABORTED else s
  | none => s

/-- The main side has stopped: everything that Table 22-4 has a main-side reset end is gone, and so are the host's commands and the link. -/
def stopMain (s : State) : State :=
  let s := endUpdateCmd s
  { pending := s.pending, cmds := s.cmds.filter fun m => m.isTether && !decide (some m.ref = s.sec.actCmd ∧ m.phase = .running),
    tether := { s.tether with spdmDoe := 0 }, outbox := s.outbox, hostMem := s.hostMem, hostBad := s.hostBad, eventLimit := s.eventLimit,
    life := { s.life with main := .off, linkUp := false, powerState := 3, idleSince := none, fabricHot := false, hbmHot := false,
                          vfEnable := false, perstReset := false, bootTick := 0, imageVotes := [], vsensBack := none },
    time := { ticks := s.time.ticks },
    power := { cap := s.power.cap, ballast := s.power.ballast, tetherCap := s.power.tetherCap, tetherBallast := s.power.tetherBallast },
    sources := [{}, s.sources.getD 1 {}], islands := [(7, s.islandAt 7)], tiles := keptTiles s.tiles, dep := keptDep s.dep, age := keptAge s.age,
    sec := keptSec s.sec, epoch := s.epoch, free := s.free, reuse := [] }

/-! ### The rows -/

/-- Resets that stage 7 of an update holds back, by code: 0 to 7 an FLR, 8 VF Enable cleared, 9 PERST# (R886). -/
def runHeldReset (k : Nat) (s : State) : State :=
  if k < 8 then functionReset k .flr s
  else if k = 8 then functionReset 0 .vfEnableCleared s
  else
    let s := perstFunctions s
    if s.life.perst then s else raiseReset 3 (s.mapLife fun l => { l with perstReset := false })

/-- Carry a reset out, or hold it until the flash write of an update is verified (R886). -/
def resetOrHold (k : Nat) (s : State) : State :=
  if s.sec.stage = 7 then s.mapSec fun x => { x with heldReset := x.heldReset ++ [k] } else runHeldReset k s

/-- FUNCTION_RESET (R910, R911, R918). -/
def execFunctionReset (fn : Nat) (kind : FunctionResetKind) (s : State) : Out :=
  let vf := match kind with
    | .flr => decide (fn ≠ 0)
    | .vfEnableCleared => true
  onTrigger (s.mainOn && s.life.linkUp && decide (fn < 8) && (!vf || s.life.vfEnable)) s
    (resetOrHold (match kind with | .flr => fn | .vfEnableCleared => 8))

/-- PERST_ASSERT (R913 to R917). -/
def execPerstAssert (s : State) : Out :=
  onTrigger (!s.life.perst) s fun s =>
    let s := s.mapLife fun l => { l with perst := true }
    if s.mainOn then resetOrHold 9 s else s

/-- PERST_DEASSERT (R900, R918). -/
def execPerstDeassert (s : State) : Out :=
  onTrigger s.life.perst s fun s =>
    let s := s.mapLife fun l => { l with perst := false }
    if s.life.perstReset then raiseReset 3 (s.mapLife fun l => { l with perstReset := false }) else s

/-- Where VF Enable stands in the PF's configuration space is open: a byte offset, and bit 0 of the word there (assumption 2, place 58). -/
def vfEnableReg : Nat := Config.openVal 58 0 % 4096

/-- PCIE_CONFIG_REQUEST (R900): Configuration Request Retry Status until step 3 has ended; a completed write may set VF Enable, or clear it, which is a
function reset of every VF. Of the registers themselves the spec gives nothing. -/
def execPcieConfigRequest (fn reg : Nat) (write : Option Word) (s : State) : Out :=
  onTrigger (s.life.linkUp && decide (fn < 8)) s fun s =>
    let crs := decide (s.life.main = .starting) && !s.step3Ended
    let s := s.send (.pcieCompletion fn reg crs)
    match write with
    | none => s
    | some w =>
      if crs ∨ fn ≠ 0 ∨ reg ≠ vfEnableReg ∨ bit w 0 = s.life.vfEnable ∨ s.life.main = .recovery then s
      else if bit w 0 then s.mapLife fun l => { l with vfEnable := true }
      else resetOrHold 8 s

end Sys2Proof.Machine
end

