-- ==== Sys2Proof/Machine/Security.lean ====
section
/-! DEFINITION. The firmware image, identity, attestation over SPDM 1.2, and the owner slot (R849 to R871). The layouts of SPDM messages are those
of DSP0274 (assumption 14). -/

namespace Sys2Proof.Machine

/-! ### The firmware image (Table 21-2) -/

def imageMagic : List Byte := [0x4E, 0x48, 0x46, 0x57, 0x1A, 0x0A, 0x00, 0x00]
def imageBytes (b : List Byte) : Nat := leAt b 12 4
def imageVersion (b : List Byte) : Word := wordAt b 16
def imageSvn (b : List Byte) : Nat := leAt b 20 1
def imageMajor (b : List Byte) : Nat := leAt b 22 1
def imageMinor (b : List Byte) : Nat := leAt b 23 1
def pipelineCompatible (b : List Byte) : Bool := leAt b 25 1 % 2 == 1
def ownerSigned (b : List Byte) : Bool := leAt b 25 1 / 2 % 2 == 1
def imageDigest (b : List Byte) : List Byte := slice b 64 64
def imageOwnerKey (b : List Byte) : List Byte := slice b 640 512

/-- The bytes that BODY_SHA512 covers (Table 21-2, R854). -/
def imageBody (b : List Byte) : List Byte := slice b 2048 (imageBytes b - 2048 - if ownerSigned b then 512 else 0)

/-- HEADER_CRC is over bytes 0 to 1,535 with the field zero. -/
def headerCrcOk (b : List Byte) : Bool := crc32 (b.take 8 ++ zeros 4 ++ slice b 12 1524) == wordAt b 8

/-- R853 but for the SVN. -/
def imageValid (b : List Byte) : Bool :=
  b.take 8 == imageMagic && decide (2048 ≤ b.length) && imageBytes b == b.length && decide (b.length ≤ 16777216) && headerCrcOk b
    && leAt b 21 1 == 1 && imageDigest b == sha512 (imageBody b) && isFirmwareKey (slice b 128 512)
    && keySigned (slice b 128 512) (b.take 1536) (slice b 1536 512)

/-- The owner's conditions of R870: none while the slot is zero. -/
def ownerAccepts (slot b : List Byte) : Bool :=
  slot == [] || (ownerSigned b && sha512 (imageOwnerKey b) == slot
    && keySigned (imageOwnerKey b) (b.take 1536) (slice b (b.length - 512) 512))

/-! ### Measurements (Table 21-4) -/

/-- A digest whose content the spec does not give: 64 open bytes. -/
def openDigest (x : Nat) : List Byte := (List.range 64).map fun i => BitVec.ofNat 8 (Config.openVal 56 (x * 64 + i))

/-- Block 2: BODY_SHA512 of the image in flash. -/
def flashDigest (s : State) : List Byte := if s.sec.flash = [] then openDigest 1 else imageDigest s.sec.flash

/-- Blocks 1, 2 and 4 as they are now. -/
def bootBlocks (s : State) : List (List Byte) := [openDigest 0, flashDigest s, sha512 (s.age.store.flatMap fun e => e.2.bytes)]

/-- Block `i`, 1 to 13. -/
def measurement (s : State) (i : Nat) : List Byte :=
  let kept (k : Nat) : List Byte := if s.mainOn then (bootBlocks s).getD k [] else s.sec.atBoot.getD k (openDigest (2 + k))
  if i = 1 then kept 0
  else if i = 2 then kept 1
  else if i = 3 then openDigest (8 + s.sec.svn + 64 * (if s.life.main = .recovery then 1 else 0) + 128 * ofLe (s.sec.ownerHash ++ [1]))
  else if i = 4 then kept 2
  else if i ≤ 12 then
    (match (s.ctxAt (i - 5)).image, s.sessionAt (i - 5) with
    | some img, _ => img.sha
    | none, some x => sha512 (x.prof.name.map fun c => BitVec.ofNat 8 c)
    | none, none => zeros 64)
  else if s.sec.stagedOk then imageDigest s.sec.staged
  else zeros 64

/-! ### SPDM (R858 to R866) -/

/-- Whether a carrier reaches the responder: DOE over the PF's link, or MCTP while the tether core runs (R862, R863). -/
def spdmReached (s : State) (via : Carrier) : Bool :=
  match via with
  | .doe => s.life.linkUp && s.mainOn
  | .mctp => s.life.vaux

/-- The connection state of a carrier: 0 none, 1 after GET_VERSION, 2 after GET_CAPABILITIES, 3 after NEGOTIATE_ALGORITHMS (R864). -/
def spdmState (s : State) (via : Carrier) : Nat := match via with | .doe => s.tether.spdmDoe | .mctp => s.tether.spdmMctp
def setSpdm (via : Carrier) (n : Nat) (s : State) : State :=
  s.mapTether fun t => match via with | .doe => { t with spdmDoe := n } | .mctp => { t with spdmMctp := n }

/-- An SPDM 1.2 response: version, code, two parameters and the rest. -/
def spdmSend (via : Carrier) (code p1 p2 : Nat) (rest : List Byte) (s : State) : State :=
  s.send (.spdm via (leBytes 1 0x12 ++ leBytes 1 code ++ leBytes 1 p1 ++ leBytes 1 p2 ++ rest))

def spdmError (via : Carrier) (code : Nat) (s : State) : State := spdmSend via 0x7F code 0 [] s
def invalidRequest : Nat := 0x01
def unexpectedRequest : Nat := 0x04

/-- Act on a request that the carrier's state allows; another is answered UnexpectedRequest. -/
def spdmRequest (via : Carrier) (least : Nat) (s : State) (k : State → State) : Out :=
  onTrigger (spdmReached s via) s fun s => if least ≤ spdmState s via then k s else spdmError via unexpectedRequest s

/-- GET_VERSION (R858, R864): version 1.2 alone. -/
def execGetVersion (via : Carrier) (s : State) : Out :=
  spdmRequest via 0 s fun s => (setSpdm via 1 s).send (.spdm via [0x10, 0x04, 0, 0, 0, 1, 0x00, 0x12])

/-- GET_CAPABILITIES (R859): CERT_CAP, CHAL_CAP and MEAS_CAP with signature; the time exponent and the sizes are open. -/
def execGetCapabilities (via : Carrier) (s : State) : Out :=
  spdmRequest via 1 s fun s =>
    let size := leBytes 4 (Config.openVal 57 1)
    spdmSend via 0x61 0 0 (leBytes 1 0 ++ leBytes 1 (Config.openVal 57 0) ++ zeros 2 ++ leBytes 4 0x16 ++ size ++ size) (setSpdm via 2 s)

/-- NEGOTIATE_ALGORITHMS (R860): TPM_ALG_RSAPSS_4096, TPM_ALG_SHA_512 and DMTF. The code of NegotiationFail is open. -/
def execNegotiateAlgorithms (via : Carrier) (baseAsym baseHash _measHash measSpec : Word) (s : State) : Out :=
  spdmRequest via 2 s fun s =>
    if bit baseAsym 6 && bit baseHash 2 && bit measSpec 0 then
      spdmSend via 0x63 0 0 (leBytes 2 36 ++ [1, 0] ++ leBytes 4 8 ++ leBytes 4 0x40 ++ leBytes 4 4 ++ zeros 16) (setSpdm via 3 s)
    else spdmError via (Config.openVal 57 2) (setSpdm via 2 s)

/-- The certificate chain as SPDM carries it: its length, the root's hash and the certificates (R861). -/
def spdmChain : List Byte :=
  leBytes 2 (68 + certChain.length) ++ zeros 2 ++ sha512 (certDer 2) ++ certChain

/-- GET_DIGESTS (R861): slot 0 alone holds a chain. -/
def execGetDigests (via : Carrier) (s : State) : Out :=
  spdmRequest via 3 s (spdmSend via 0x01 0 1 (sha512 spdmChain))

/-- GET_CERTIFICATE (R861). -/
def execGetCertificate (via : Carrier) (slot offset length : Nat) (s : State) : Out :=
  spdmRequest via 3 s fun s =>
    if slot ≠ 0 ∨ spdmChain.length ≤ offset then spdmError via invalidRequest s
    else
      let p := slice spdmChain offset length
      spdmSend via 0x02 0 0 (leBytes 2 p.length ++ leBytes 2 (spdmChain.length - offset - p.length) ++ p) s

/-- The responder's nonce: 32 fresh open bytes. -/
def freshNonce (s : State) : List Byte × State :=
  let f := s.takeFree
  ((List.range 32).map fun i => BitVec.ofNat 8 (Config.freeNat (f.1 * 32 + i)), f.2)

/-- CHALLENGE (R858): `summary` 0 asks for no measurement summary hash, 1 for that of the trusted computing base, 255 for that of all blocks; which blocks
form the trusted computing base is open. -/
def execChallenge (via : Carrier) (slot : Nat) (nonce : List Byte) (summary : Nat) (s : State) : Out :=
  spdmRequest via 3 s fun s =>
    if slot ≠ 0 then spdmError via invalidRequest s
    else
      let n := freshNonce s
      let sum := if summary = 0 then [] else if summary = 255 then sha512 ((List.range 13).flatMap fun i => measurement s (i + 1)) else openDigest 7
      let b := sha512 spdmChain ++ n.1 ++ sum ++ leBytes 2 0
      spdmSend via 0x03 0 1 (b ++ signature 512 (nonce ++ b)) n.2

/-- One measurement block of a response. -/
def measurementBlock (s : State) (i : Nat) : List Byte :=
  leBytes 1 i ++ [1] ++ leBytes 2 67 ++ leBytes 1 (if i = 1 then 0 else if i = 3 ∨ i = 4 then 3 else 1) ++ leBytes 2 64 ++ measurement s i

/-- GET_MEASUREMENTS (R865): index 0 asks for the number of blocks, 255 for all; every block is sampled now. -/
def execGetMeasurements (via : Carrier) (index : Nat) (signed : Bool) (nonce : List Byte) (s : State) : Out :=
  spdmRequest via 3 s fun s =>
    if 13 < index ∧ index ≠ 255 then spdmError via invalidRequest s
    else
      let l := if index = 0 then [] else if index = 255 then (List.range 13).map (· + 1) else [index]
      let rec_ := l.flatMap (measurementBlock s)
      let n := freshNonce s
      let b := leBytes 1 l.length ++ leBytes 3 rec_.length ++ rec_ ++ n.1 ++ leBytes 2 0
      spdmSend via 0x60 (if index = 0 then 13 else 0) 0 (b ++ if signed then signature 512 (nonce ++ b) else []) n.2

/-! ### Identity and the owner slot -/

/-- IDENTITY_READ (R851). -/
def execIdentityRead (c : CmdRef) (s : State) : Out :=
  onCmd 0x0D00 c s fun m s =>
    let n := fld (m.w 3) 3 0
    if 2 < n then s.badWord c 3
    else s.doneOut m 4 (certDer n) [w32 (certDer n).length]

def ownerMagic : List Byte := [0x4E, 0x48, 0x4F, 0x57, 0x1A, 0x0A, 0x00, 0x00]

/-- Whether an owner transfer record is accepted (R867, Table 21-5). -/
def transferOk (s : State) (b : List Byte) : Bool :=
  let key := slice b 128 512
  let hash := slice b 32 64
  b.length == 1152 && b.take 8 == ownerMagic && slice b 16 16 == wordsBytes ((List.range 4).map Config.serial)
    && decide (s.sec.ownerSeq.toNat < leAt b 8 4) && keySigned key (b.take 640) (slice b 640 512)
    && sha512 key == (if s.sec.ownerHash = [] then hash else s.sec.ownerHash)

/-- OWNER_KEY_TRANSFER (R867, R868): a zero hash empties the slot. -/
def execOwnerKeyTransfer (c : CmdRef) (s : State) : Out :=
  onCmd 0x0D04 c s fun m s =>
    withSg m 3 s fun b =>
      if transferOk s b = false then s.refuseOpen c BAD_PARAM
      else
        let h := slice b 32 64
        ((s.mapSec fun x => { x with ownerHash := if h.all (· == 0) then [] else h, ownerSeq := wordAt b 8 }).raise 0x8D04 (leAt b 8 2)).done c

end Sys2Proof.Machine
end

