-- ==== Sys2Proof/Machine/Firmware.lean ====
section
/-! DEFINITION. Staging, activation and rollback of firmware, and the write of recovery mode (R870 to R890, R713, R714). -/

namespace Sys2Proof.Machine

/-- A new update stage (Tables 21-6, 21-9). -/
def setStage (n : Nat) (s : State) : State := if s.sec.stage = n then s else (s.mapSec fun x => { x with stage := n }).raise 0x8D00 n

/-- The staged image is discarded and its banks are free (R872). -/
def discardStaged (s : State) : State := s.mapSec fun x => { x with staged := [], stagedOk := false, stagedNext := 0, stagedBanks := [] }

/-- FW_STATUS (Table 16-17). -/
def execFwStatus (c : CmdRef) (s : State) : Out :=
  onCmd 0x0D01 c s fun _ s =>
    s.done c OK 0 [s.sec.runVersion, if s.sec.stagedOk then imageVersion s.sec.staged else 0, w32 s.sec.stage]

/-- Verification of a staged image (R853, R870, R871): the DETAIL of a failure. -/
def stagedCheck (s : State) (b : List Byte) : Option Nat :=
  if imageValid b = false ∨ ownerAccepts s.sec.ownerHash b = false then some 0x0041
  else if imageSvn b < s.sec.svn then some 0x0043
  else if imageMajor b ≠ 1 then some 0x0044
  else none

/-- The size that a first chunk asks banks for: IMAGE_BYTES, or the largest when the chunk does not reach it (assumption 14). -/
def stagedSize (b : List Byte) : Nat := if 16 ≤ b.length then min 16777216 (imageBytes b) else 16777216

/-- The chunk is taken; the last one is verified (R713, R714, R872). -/
def takeChunk (m : Cmd) (b : List Byte) (s : State) : State :=
  let n := s.sec.stagedNext + b.length
  let s := setStage 1 (s.mapSec fun x => { x with staged := x.staged ++ b, stagedNext := n })
  if s.sec.stagedBanks.length * 524288 < n then (setStage 0 (discardStaged s)).refuse m.ref BAD_PARAM 0x0041
  else if bit (m.w 4) 0 = false then s.done m.ref OK 0 [w32 n]
  else match stagedCheck s s.sec.staged with
    | some d => (setStage 0 (discardStaged s)).refuse m.ref BAD_PARAM d
    | none => (setStage 2 (s.mapSec fun x => { x with stagedOk := true })).done m.ref OK 0 [w32 n]

/-- FW_STAGE. -/
def execFwStage (c : CmdRef) (s : State) : Out :=
  onCmd 0x0D02 c s fun m s =>
    let off := (m.w 3).toNat
    if off % 4 ≠ 0 then s.badWord c 3
    else if 3 ≤ s.sec.stage then s.refuseOpen c BUSY
    else withSg m 5 s fun b =>
      if off = 0 then
        let d := discardStaged s
        let free := d.freeBanks.reverse
        let need := ceilDiv (stagedSize b) 524288
        if free.length < need then s.refuseOpen c NO_RESERVATION
        else takeChunk m b (d.mapSec fun x => { x with stagedBanks := free.take need })
      else if s.sec.stage ≠ 1 ∨ off ≠ s.sec.stagedNext then s.refuse c BAD_PARAM 0x0040
      else takeChunk m b s

/-- FW_ACTIVATE starts: stage 3, or in recovery mode the write of stage 8 (R875, R877, R878). -/
def execFwActivate (c : CmdRef) (s : State) : Out :=
  onCmd 0x0D03 c s fun _ s =>
    if s.sec.stagedOk = false then s.refuseOpen c BAD_PARAM
    else if 3 ≤ s.sec.stage then s.refuseOpen c BUSY
    else
      let s := s.mapSec fun x => { x with actCmd := some c, coresNew := [false, false, false], swapped := [], faultRollback := false, rolling := false }
      if s.life.main = .recovery then setStage 8 s
      else setStage 3 (s.mapDep fun d => { d with voting := setAt false d.voting 2 false })

/-- The bands whose programs are still to be swapped, in ascending number (R882, R884). -/
def toSwap (s : State) : List Nat :=
  if pipelineCompatible s.sec.staged = false then []
  else (List.range 16).filter fun b =>
    Tab.has s.bands b && !(s.bandAt b).program && (s.sessionAt (s.bandAt b).ctx).isSome && !s.sec.swapped.contains b

/-- With no band left to swap, stage 7 starts and FW_ACTIVATE commits (R877). -/
def advanceSwap (s : State) : State :=
  if toSwap s ≠ [] then s
  else match s.sec.actCmd with
    | some c => setStage 7 (s.commit c)
    | none => setStage 7 s

/-- FW_CORE_REBOOT_DONE (R878, Table 21-6). -/
def execFwCoreRebootDone (core : Nat) (s : State) : Out :=
  let mark (s : State) : State := s.mapSec fun x => { x with coresNew := setAt false x.coresNew core true }
  onTrigger (!s.sec.rolling && !s.sec.coresNew.getD core true) s fun s =>
    match s.sec.stage, core with
    | 3, 2 => setStage 4 ((mark s).mapDep fun d => { d with voting := [true, false, false] })
    | 4, 1 => mark s
    | 5, 0 => advanceSwap (setStage 6 ((mark s).mapDep fun d => { d with voting := [true, true, true] }))
    | _, _ => s

/-- FW_SWITCH_POINT (R880, R881): once every command that was running has completed, cores 1 and 2 take over on the staged image. -/
def execFwSwitchPoint (s : State) : Out :=
  onTrigger (s.switchWait && s.cmds.all fun m => decide (m.phase ≠ .running ∨ some m.ref = s.sec.actCmd)) s fun s =>
    let v := imageVersion s.sec.staged
    let s := s.mapSec fun x => { x with prev := some (x.runVersion, x.runMinor), runVersion := v, runMinor := imageMinor x.staged }
    setStage 5 ((s.mapDep fun d => { d with voting := [false, true, true] }).raise 0x8D01 (v.toNat % 65536))

/-- Whether a session's working band stands between two frame sets (R883): none is at work in it. -/
def betweenSets (x : SessionS) : Bool :=
  x.sets.all fun f => f.2.published.isSome || f.2.committed || f.2.abandoned || f.2.covered || (!f.2.started && f.2.assoc.isEmpty && f.2.depths.isEmpty)

/-- Whether a band may be swapped now (R882, R883): a pair in state 0 once the record of its commit has been written, a working band between two frame sets. -/
def swapTime (s : State) (b : BandS) : Bool :=
  let p := Tab.getD s.pairs b.ctx {}
  if b.isPair then p.state == 0 && p.bufA.isEmpty && p.bufB.isEmpty else ((s.sessionAt b.ctx).map betweenSets).getD true

/-- FW_BAND_SWAP (R882, R883): the lowest band still to be swapped, a pair's two at once; a band in recovery waits. They meet at a rendezvous of the
firmware and resume from their CKPT_ROWS. -/
def execFwBandSwap (band : Nat) (s : State) : Out :=
  let b := s.bandAt band
  let l := if b.isPair then [band, b.partner] else [band]
  let next := (toSwap s).head? == some band && l.all (fun x => !s.inRecovery x) && swapTime s b
  onTrigger (s.sec.stage == 6 && !s.sec.rolling && ((toSwap s).isEmpty || next)) s fun s =>
    advanceSwap (if next then
      forEach l (fun k s => s.restoreCheckpoint k) ((s.meetFirmware (60 + band % 4) l).mapSec fun x => { x with swapped := x.swapped ++ l }) else s)

/-- FW_FLASH_VERIFIED (R866, R877, R886, R890): the new image stands in flash, and the resets that were held follow. -/
def execFwFlashVerified (s : State) : Out :=
  onTrigger (s.sec.stage == 7) s fun s =>
    let b := s.sec.staged
    let held := s.sec.heldReset
    let cmd := s.sec.actCmd
    let s := discardStaged (s.mapSec fun x =>
      { x with flash := b, flashValid := true, svn := max x.svn (imageSvn b), actCmd := none, prev := none, coresNew := [false, false, false],
               swapped := [], heldReset := [] })
    let s := match cmd with
      | some c => s.done c
      | none => s
    let s := (setStage 0 s).raise 0x8D02 s.sec.svn
    forEach held runHeldReset s

/-- FW_UPDATE_ROLLED_BACK (R887): the cores and the swapped bands are back on the flash image, and the staged image stays staged. -/
def execFwUpdateRolledBack (s : State) : Out :=
  onTrigger s.sec.rolling s fun s =>
    let reached := s.sec.stage
    let fault := s.sec.faultRollback
    let cmd := s.sec.actCmd
    let s := s.mapDep fun d => { d with voting := [true, true, true] }
    let s := s.mapSec fun x =>
      { x with rolling := false, faultRollback := false, actCmd := none, coresNew := [false, false, false], swapped := [], prev := none,
               runVersion := (x.prev.map (·.1)).getD x.runVersion, runMinor := (x.prev.map (·.2)).getD x.runMinor }
    let s := match cmd with
      | some c => if fault then s.refuse c ABORTED 0x0042 else s.refuseOpen c ABORTED
      | none => s
    (setStage 2 s).raise 0x8D03 (reached + if fault then 256 else 0)

/-- The reply of the command that has ended is written at once. -/
def carryNow (c : CmdRef) (s : State) : State :=
  match s.findCmd c with
  | some m => (match m.reply with
    | some r => carryReply m r s
    | none => s)
  | none => s

/-- RECOVERY_WRITE_DONE (R875): the image written is verified and the main side is reset; a write that fails leaves recovery mode as it is (assumption
14). -/
def execRecoveryWriteDone (ok : Bool) (s : State) : Out :=
  onTrigger (s.life.main == .recovery && s.sec.stage == 8) s fun s =>
    let cmd := s.sec.actCmd
    let s := s.mapSec fun x => { x with actCmd := none, flashValid := ok, flash := if ok then x.staged else x.flash }
    if ok then
      let s := setStage 0 s
      let s := match cmd with
        | some c => carryNow c (s.done c)
        | none => s
      (stopMain s).mapLife fun l => { l with needOrder := false, startKind := 2, startTick := s.time.ticks }
    else
      let s := setStage 2 s
      match cmd with
      | some c => s.refuseOpen c ABORTED
      | none => s

end Sys2Proof.Machine
end

