-- ==== Sys2Proof/Machine/Window.lean ====
section
/-! DEFINITION. What the working band's program takes from the state for a frame set: the depth of corners (R345 to R347), the measurements of
association (R334, R348 to R353), and the window's problem with its inertial steps, bridges and factors (R334 to R343, R354 to R356). -/

namespace Sys2Proof.Machine

/-! ### Stamps (R334) -/

/-- The standard deviation of a stamp in units of 0.1 ns: 1.2 ns for a hardware stamp, 11.5 µs for a firmware stamp. -/
def stampSd (firmware : Bool) : Nat := if firmware then 115000 else 12

/-- Whether a stream's frames carry firmware stamps (R178). -/
def StreamS.firmware (x : StreamS) : Bool := x.divisor == 0

/-! ### Corners -/

/-- The buffer that holds a frame set's frame of a stream. -/
def StreamS.bufOf (x : StreamS) (k : Nat) : Option FrameBuf :=
  (x.bufs.find? fun b => b.2.state != .free && b.2.frameSet == w32 k).map (·.2)

/-- Streams whose features of a frame set are complete (R43, R313). -/
def FrameBuf.contributes (b : FrameBuf) : Bool := !b.skipped && (b.chain.next.toNat % 8 == 0 || b.done == some b.frameSet)

/-- The level-0 place of a corner, times 2^16 (R304). -/
def FrameBuf.place (b : FrameBuf) (c : Corner) : Int × Int :=
  (Int.ofNat (c.x * 2 ^ b.feat.cornerLevel * 65536), Int.ofNat (c.y * 2 ^ b.feat.cornerLevel * 65536))

/-- The squared distance of two places. -/
def distSq (a b : Int × Int) : Int := (a.1 - b.1) * (a.1 - b.1) + (a.2 - b.2) * (a.2 - b.2)

/-! ### Depth (R345 to R347), in units of 2^-20 m -/

/-- The nearest projected point within LIDAR_RADIUS of a place, the first on a tie (R345). -/
def lidarPoint (radius : Nat) (pts : List ProjPoint) (p : Int × Int) : Option ProjPoint :=
  let d (q : ProjPoint) := distSq (q.u * 4096, q.v * 4096) p
  pts.foldl (fun best q =>
    if d q ≤ Int.ofNat ((radius * 65536) ^ 2) ∧ best.all (fun b => decide (d q < d b)) = true then some q else best) none

/-- The disparity of the left image at a corner, in 1/16 pixel of the matched level, and that level; none for a special code (R346, Table 6-5) and for a
disparity of 0, whose depth has no bound. -/
def FrameBuf.disparityAt (b : FrameBuf) (c : Corner) : Option (Nat × Nat) :=
  match b.disp with
  | none => none
  | some d =>
    let at' (v : Nat) := v * 2 ^ b.feat.cornerLevel / 2 ^ d.level
    let v := (Tab.getD d.rows (at' c.y) []).getD (at' c.x) 0xFFFF
    if 0 < v ∧ v ≤ 0xFFF then some (v, d.level) else none

/-- The baseline of two cameras: the distance of the POSITIONs of their entries (DEDUCED, entry 7). -/
def baseline (l r : SensorEntry) : Nat :=
  isqrt ((normSq ((List.range 3).map fun i => (Dy.ofWord (l.position.getD i 0)).sub (Dy.ofWord (r.position.getD i 0)))).roundScaled 40).toNat

/-- z = f × b / d at the matched level (R346). -/
def stereoDepth (l r : SensorEntry) (d : Nat × Nat) : Nat :=
  (roundDiv ((Dy.ofWord (l.params.getD 0 0)).roundScaled 20 * Int.ofNat (baseline l r * 16)) (d.1 * 2 ^ d.2 * 2 ^ 20)).toNat

/-- The depth of a corner with both depths (R347): σ of the lidar depth is `sl`, that of the stereo depth z · DISP_SIGMA / (4 d) for a disparity of d
sixteenths. Within 3 combined standard deviations the inverse-variance mean stands, else the lidar depth. -/
def mixDepth (zl sl zs dispSigma d : Nat) : Nat :=
  let k := (4 * d) ^ 2
  let vl := sl ^ 2 * k
  let vs := (zs * dispSigma) ^ 2
  let e := (Int.ofNat zl - Int.ofNat zs).natAbs
  if e ^ 2 * k ≤ 9 * (vl + vs) ∧ vl + vs ≠ 0 then (roundDiv (Int.ofNat (zl * vs + zs * vl)) (vl + vs)).toNat else zl

/-- The right camera's entry for a left stream of a pair. -/
def rightEntry (s : State) (n st : Nat) : Option SensorEntry :=
  ((s.ctxAt n).pairs.find? fun p => p.2.left == st).map fun p => s.entryOf n (s.streamAt p.2.right).key

/-- The depth that a corner takes (R345 to R347). -/
def cornerDepth (s : State) (n st : Nat) (c : FusionCfg) (b : FrameBuf) (pts : List ProjPoint) (k : Corner) : Option CornerDepth :=
  let stereo := match rightEntry s n st, b.disparityAt k with
    | some r, some d => some (stereoDepth (s.entryOf n (s.streamAt st).key) r d, d.1)
    | _, _ => none
  match lidarPoint c.lidarRadius pts (b.place k), stereo with
  | some p, some z =>
    let sl := ((Dy.ofWord ((s.entryOf n (sensorKey p.port 0)).params.getD 0 0)).roundScaled 20).natAbs
    some { depth := mixDepth p.depth sl z.1 c.dispSigma z.2, lidar := true, stereo := true }
  | some p, none => some { depth := p.depth, lidar := true }
  | none, some z => some { depth := z.1, stereo := true }
  | none, none => none

/-! ### Association (R334, R348 to R350) -/

/-- Whether a flow result is TRACKED (Table 7-6). -/
def FlowRes.tracked (r : FlowRes) : Bool := r.status == 0

/-- The corners of a stream that are columns (R348, R349): farther than 2 level-0 pixels from every TRACKED flow result, 4,096 at most. -/
def assocColumns (b : FrameBuf) : List (Nat × Corner) :=
  let results := b.flow.filter fun r => r.2.tracked
  ((b.cornerAll.zipIdx.map fun e => (e.2, e.1)).filter fun e =>
    results.all fun r => decide (131072 * 131072 < distSq (b.place e.2) (Int.ofNat r.2.u, Int.ofNat r.2.v))).take 4096

/-- The candidate rows that R348 admits: not bound to a TRACKED flow result of the stream, predicted inside the image. -/
def assocRows (x : SessionS) (st : Nat) (b : FrameBuf) (rows : List AssocRow) : List AssocRow :=
  let bound := x.tracks.filterMap fun t =>
    if t.2.stream = st ∧ b.flow.any (fun r => r.2.tracked && t.2.flow == some r.2.id) = true then some t.2.landmark else none
  rows.filter fun r => !bound.contains r.landmark
    && decide (0 ≤ r.predU ∧ r.predU < Int.ofNat (b.w 0 * 65536) ∧ 0 ≤ r.predV ∧ r.predV < Int.ofNat (b.h 0 * 65536))

/-- The squared Mahalanobis distance of a place from a prediction as a quotient, with J · σ² · Jᵀ of the stamp added to the covariance (R334, R350); none
for a covariance that has no inverse. -/
def mahalanobis (r : AssocRow) (firmware : Bool) (p : Int × Int) : Option (Int × Nat) :=
  let unit : Int := 10 ^ 20
  let var : Int := Int.ofNat (stampSd firmware) ^ 2
  let j (i : Nat) := r.rate.getD i 0
  let xx := r.cov.getD 0 0 * unit + j 0 * j 0 * var
  let xy := r.cov.getD 1 0 * unit + j 0 * j 1 * var
  let yy := r.cov.getD 2 0 * unit + j 1 * j 1 * var
  let du := p.1 - r.predU
  let dv := p.2 - r.predV
  let det := xx * yy - xy * xy
  let num := (du * du * yy - 2 * du * dv * xy + dv * dv * xx) * unit
  if det ≤ 0 ∨ num < 0 then none else some (num, det.toNat)

/-- Bits that differ. -/
def hamming (a b : List Byte) : Nat := total ((a.zip b).map fun p => (setBits 8 (p.1 ^^^ p.2).toNat).length)

/-- The binary descriptor that a landmark is represented by: entry REP_INDEX of its anchor's feature block (Tables 9-2, 9-5). -/
def MapS.descOf (m : MapS) (id : Word) : Option (List Byte) :=
  match m.liveLm id with
  | none => none
  | some e =>
    match Tab.get? m.feats e.anchor.toNat with
    | none => none
    | some f => if e.repIndex.toNat < leAt f.bytes 4 4 then some (slice f.bytes (16 + 48 * e.repIndex.toNat + 16) 32) else none

/-- Whether a row is matched by learned descriptors (R103, R350): the stage ran learned, the landmark holds one, and its track was not begun on classical
ones. -/
def usesLearned (x : SessionS) (m : MapS) (ran : Bool) (id : Word) : Bool :=
  ran && ((m.liveLm id).any fun e => bit e.flags 0) && !(x.tracks.any fun t => t.2.landmark == id && t.2.classical)

/-- Dd of a row and a column (R350). -/
def descDistance (m : MapS) (b : FrameBuf) (learned : Bool) (r : AssocRow) (k : Nat) : Nat :=
  let given := r.dd.getD k (0, 0)
  if learned then given.2
  else match m.descOf r.landmark, Tab.get? b.descs k with
    | some d, some o => hamming d o.desc
    | _, _ => given.1

/-- The cost of an entry, none when it is forbidden (R350). -/
def assocCost (c : FusionCfg) (d2 : Option (Int × Nat)) (dd : Nat) : Option Nat :=
  match d2 with
  | none => none
  | some (num, den) =>
    if Int.ofNat (c.gate * den) < 100 * num then none
    else some (min 65534 (c.descWeight * dd + c.geoWeight * (roundDiv (16 * num) den).toNat))

/-- The cost matrix of a stream (R348 to R350): the rows in the order given, the columns in corner order. -/
def costMatrix (s : State) (x : SessionS) (c : FusionCfg) (st : Nat) (b : FrameBuf) (ran : Bool) (rows : List AssocRow) : List (List (Option Nat)) :=
  let m := s.mapAt x.map
  let cols := assocColumns b
  rows.map fun r =>
    let learned := usesLearned x m ran r.landmark
    cols.map fun k => assocCost c (mahalanobis r (s.streamAt st).firmware (b.place k.2)) (descDistance m b learned r k.1)

/-! ### Inertial steps and bridges (R336 to R338) -/

/-- The samples of an IMU axis by time of validity: time, value, and whether it is usable. -/
def axisSamples (l : List FusionSample) (port axis : Nat) : List (Int × Int × Bool) :=
  sortBy (fun a b => decide (a.1 < b.1)) (l.filterMap fun e =>
    match e.data with
    | .imu a v u => if e.key = sensorKey port 0 ∧ a = axis then some (e.valid, v, u) else none
    | _ => none)

/-- The usable ones of them. -/
def usable (l : List (Int × Int × Bool)) : List (Int × Int) := l.filterMap fun e => if e.2.2 then some (e.1, e.2.1) else none

/-- One and a half output periods of the channel that fuses an axis, ns: a longer spacing is a span without output. -/
def spanLimit (s : State) (n port axis : Nat) : Int :=
  match s.filters.find? fun e => e.2.source.toNat == port && e.2.axis == axis && e.2.holder == some n && e.2.route != 1 with
  | some e => match e.2.runSet with
    | some k => Int.ofNat (k.decim * 1500000000 / max 1 (inputHz s port))
    | none => 0
  | none => 0

/-- The spans of an axis that hold no usable output, up to `upto` (R338). -/
def axisSpans (limit upto : Int) (l : List (Int × Int)) : List (Int × Int) :=
  ((l.zip (l.drop 1 ++ [(upto, 0)])).filter fun p => decide (p.1.1 < upto ∧ limit < min upto p.2.1 - p.1.1)).map fun p => (p.1.1, min upto p.2.1)

/-- An axis at a time (R336): its own value there, or the linear interpolation of its neighbours, unless a bridged span covers it. -/
def axisAt (spans l : List (Int × Int)) (t : Int) : Option (Int × Int) :=
  let before := (l.filter fun e => decide (e.1 ≤ t)).getLast?
  let after := l.find? fun e => decide (t ≤ e.1)
  match before, after with
  | some a, some b =>
    if a.1 = b.1 then some (a.2, 1)
    else if spans.any fun p => decide (p.1 < t ∧ t < p.2) then none
    else some (a.2 * (b.1 - t) + b.2 * (t - a.1), b.1 - a.1)
  | _, _ => none

/-- The IMUs that a session binds. -/
def SessionS.imus (x : SessionS) : List Nat := [32, 33, 34].filter x.ports.contains

/-- Row `axis` of the rotation from the frame of IMU `q` to that of IMU `p`, times the product of the squared norms, and that product (R338). -/
def carryRow (p q : SensorEntry) (axis : Nat) : List Dy × Dy :=
  let a := p.rotation.map Dy.ofWord
  let b := q.rotation.map Dy.ofWord
  let m := quatMat a
  let r := quatMat b
  ((List.range 3).map fun j => Dy.sum ((List.range 3).map fun i => (m.getD (3 * i + axis % 3) {}).mul (r.getD (3 * i + j) {})), (normSq a).mul (normSq b))

/-- The wheel and CAN speeds that are not excluded: encoders that have left VERIFYING and speed signals that are not stale (R197, R205, R341, R342). -/
def speedSample (s : State) (n : Nat) (x : SessionS) (e : FusionSample) : Bool :=
  !Tab.has x.slipSince e.key && match e.data with
    | .wheel _ => !(s.portAt (e.key / 256)).verifying
    | .can k _ _ => (k == 1 || k == 2) && !(Tab.getD (s.ctxAt n).canSignals (e.key / 256 * 32 + e.key % 256) {}).stale
    | .imu _ _ _ => false
    | .sweep => false

/-- What bridges a span of an axis (R338): the same axis of another bound IMU without a gap in it, else for the forward axis, that of the
accelerometer along x (DEDUCED, entry 7), the speeds, else the last usable output. -/
def bridgeOf (s : State) (n : Nat) (x : SessionS) (pool : List FusionSample) (upto : Int) (port axis : Nat) (l : List (Int × Int)) (p : Int × Int) : Bridge :=
  let covers (q : Nat) : Bool :=
    let u := usable (axisSamples pool q axis)
    q != port && u.any (fun e => decide (e.1 ≤ p.1)) && u.any (fun e => decide (p.2 ≤ e.1))
      && (axisSpans (spanLimit s n q axis) upto u).all fun g => decide (p.2 ≤ g.1 ∨ g.2 ≤ p.1)
  match x.imus.find? covers with
  | some q =>
    let r := carryRow (s.entryOf n (sensorKey port 0)) (s.entryOf n (sensorKey q 0)) axis
    .imu q r.1 r.2
  | none =>
    let keys := ((pool.filter fun e => speedSample s n x e && decide (p.1 ≤ e.valid ∧ e.valid ≤ p.2)).map (·.key)).eraseDups
    if axis = 3 ∧ keys ≠ [] then .speeds keys else .held (((l.filter fun e => decide (e.1 ≤ p.1)).getLast?.map (·.2)).getD 0)

/-- The inertial steps of one IMU after `since`, late ones included, up to `upto`, and its bridged spans (R336 to R338). -/
def imuProblem (s : State) (n : Nat) (x : SessionS) (pool : List FusionSample) (since upto : Int) (port : Nat) : List ImuStep × List BridgedSpan :=
  let axes := (List.range 6).map fun a => (a, usable (axisSamples pool port a))
  let spans := axes.map fun a => (axisSpans (spanLimit s n port a.1) upto a.2).filter fun p => decide (since < p.2)
  let late := pool.filterMap fun e => if e.late ∧ e.key = sensorKey port 0 then some e.valid else none
  let times := ((axes.headD (0, [])).2.map (·.1)).filter fun t => decide (t ≤ upto) && (decide (since < t) || late.contains t)
  (times.map fun t => { port := port, time := t, axes := (axes.zip spans).map fun a => axisAt a.2 a.1.2 t },
   (axes.zip spans).flatMap fun a => a.2.map fun p =>
     { port := port, axis := a.1.1, from_ := p.1, to_ := p.2, how := bridgeOf s n x pool upto port a.1.1 a.1.2 p })

/-- The inertial samples that the next optimisation still needs: those after `upto`, and the latest usable one of each axis up to it. -/
def keptImu (x : SessionS) (pool : List FusionSample) (upto : Int) : List FusionSample :=
  let imu (e : FusionSample) : Bool := match e.data with | .imu _ _ _ => true | _ => false
  let last (p a : Nat) := ((usable (axisSamples pool p a)).filter fun e => decide (e.1 ≤ upto)).getLast?.map (·.1)
  let kept := x.imus.flatMap fun p => (List.range 6).filterMap fun a => (last p a).map fun t => (sensorKey p 0, a, t)
  pool.filter fun e => imu e && (decide (upto < e.valid) || match e.data with
    | .imu a _ _ => kept.contains (e.key, a, e.valid)
    | _ => false)

/-! ### Factors (R341, R343, R354, R355, R363) -/

/-- The CAN signals that a session binds: key, KIND, its entry, and its state. -/
def canBound (s : State) (n : Nat) (x : SessionS) : List (Nat × Nat × SensorEntry × CanSignal) :=
  ([64, 65].filter x.ports.contains).flatMap fun p => (signalEntries s p).zipIdx.map fun e =>
    (sensorKey p e.2, leAt e.1 16 1, s.entryOf n (sensorKey p e.2), Tab.getD (s.ctxAt n).canSignals (p * 32 + e.2) {})

/-- Whether a signal's value counts (R204, R205). -/
def CanSignal.valid (c : CanSignal) : Bool := c.arrived && !c.stale

/-- Whether the direction signal, where a valid one is bound, says backwards (R341): its raw value is negative. A raw value of 0 gives no sign. -/
def backwards (can : List (Nat × Nat × SensorEntry × CanSignal)) : Bool :=
  can.any fun c => c.2.1 == 5 && c.2.2.2.valid && decide (c.2.2.2.value.n < 0)

/-- The POSITION of the vehicle-speed signal (R341, R343). -/
def speedEntry (can : List (Nat × Nat × SensorEntry × CanSignal)) : Option SensorEntry := (can.find? fun c => c.2.1 == 2).map (·.2.2.1)

/-- The constraint that a sample enters the window as (R334, R341). -/
def sampleFactor (s : State) (n : Nat) (can : List (Nat × Nat × SensorEntry × CanSignal)) (e : FusionSample) : Option StampedFactor :=
  let en := s.entryOf n e.key
  let speed (v : Dy) : StampedFactor := { factor := .velocity e.key e.valid v en.position en.rotation (en.params.getD 0 0), stampSd := stampSd e.firmware }
  let stale := (Tab.getD (s.ctxAt n).canSignals (e.key / 256 * 32 + e.key % 256) {}).stale
  match e.data with
  | .wheel v => if (s.portAt (e.key / 256)).verifying then none else some (speed ⟨v, -16⟩)
  | .can k v signed =>
    if stale then none
    else if k = 1 ∨ k = 2 then some (speed (if !signed && backwards can then v.neg else v))
    else if k = 4 then some { factor := .yawRate e.key e.valid v, stampSd := stampSd e.firmware }
    else if k = 3 then (speedEntry can).map fun w =>
      { factor := .steering e.key e.valid v ((Dy.ofWord (en.position.getD 0 0)).sub (Dy.ofWord (w.position.getD 0 0))).abs, stampSd := stampSd e.firmware }
    else none
  | .imu _ _ _ => none
  | .sweep => none

/-- The vehicle stands (R343): every bound encoder reports standstill, or every valid CAN speed is zero. -/
def standsStill (s : State) (x : SessionS) (can : List (Nat × Nat × SensorEntry × CanSignal)) : Bool :=
  let enc := encoderPorts.filter x.ports.contains
  let speeds := can.filter fun c => (c.2.1 == 1 || c.2.1 == 2) && c.2.2.2.valid
  (!enc.isEmpty && enc.all fun p => (s.portAt p).standstill) || (!speeds.isEmpty && speeds.all fun c => c.2.2.2.value.n == 0)

/-- Whether a sensor is refined on line (R328, R363). -/
def refinable (x : SessionS) (e : SensorEntry) (port : Nat) : Bool :=
  bit x.fusion.flags 1 && bit e.flags 0 && ((isCamera port && decide (2 ≤ port)) || isEthernet port || isExtImu port)

/-- The factors of a window beside reprojection and preintegration (R341, R343, R354, R355, R364). -/
def windowFactors (s : State) (n : Nat) (x : SessionS) (l : List FusionSample) : List StampedFactor :=
  let can := canBound s n x
  l.filterMap (sampleFactor s n can) ++ x.lidarDue
    ++ (if standsStill s x can then [{ factor := .zeroVelocity }] else [])
    ++ (match bit x.fusion.flags 2, speedEntry can with | true, some e => [{ factor := .nonHolonomic e.position }] | _, _ => [])
    ++ ((s.ctxAt n).inUse.filterMap fun e =>
      if refinable x e.2 (e.1 / 256) then some { factor := .extrinsic e.1 e.2.position e.2.rotation } else none)
    ++ (if x.optState.isSome then [{ factor := .marginal }] else [])

/-! ### Landmarks of the window (R356, R361, R394) -/

/-- The landmarks that the window admits: those observed in the latest frame set, then by observations, then by ID, 30,000 at most (R356); what the
snapshot no longer holds (R394) and features on an object (R361) stay out. -/
def windowLandmarks (m : MapS) (x : SessionS) (f : FrameSet) (cands : List (Word × Nat)) : List Word :=
  let seen := f.assoc.flatMap fun a => a.2.map (·.1)
  let onObject := x.tracks.filterMap fun t => if t.2.object.isSome then some t.2.landmark else none
  let l := cands.filter fun c => (m.liveLm c.1).isSome && !onObject.contains c.1
  let lt (a b : Word × Nat) : Bool :=
    let oa := seen.contains a.1
    let ob := seen.contains b.1
    decide ((oa = true ∧ ob = false) ∨ (oa = ob ∧ (b.2 < a.2 ∨ (a.2 = b.2 ∧ a.1.toNat < b.1.toNat))))
  ((sortBy lt l).take 30000).map (·.1)

/-- The oldest contribution of an optimisation (R335): the earliest, over its sources, of the time of validity of the source's newest sample. A camera's
newest sample is the last line of its frame. -/
def oldestOf (s : State) (n k : Nat) (f : FrameSet) (l : List FusionSample) (streams : List Nat) : Int :=
  let l := l.filter fun e => !e.data.missing
  let keys := (l.map (·.key)).eraseDups
  let newest (key : Nat) : Option Int := (l.filter fun e => e.key == key).foldl (fun b e => some (match b with | some t => max t e.valid | none => e.valid)) none
  let cams := streams.filterMap fun st =>
    let x := s.streamAt st
    (x.bufOf k).map fun b =>
      let e := s.entryOf n x.key
      (if x.firmware then Int.ofNat b.tSof else Int.ofNat f.instant) + e.offset + e.lineNs (b.h 0 - 1)
  match keys.filterMap newest ++ cams with
  | [] => f.valid
  | t :: r => r.foldl min t

end Sys2Proof.Machine
end

