-- ==== Sys2Proof/Machine/Fusion.lean ====
section
/-! DEFINITION. Fusion and the partnered pair: the solver of association (R349 to R352), the bodies and flags of the pose records, the commit
comparison and its records (R499 to R503), arbitration, resynchronisation, carriers, DEGRADED output (R800 to R808) and cover records (R797 to R799). -/

namespace Sys2Proof.Machine

/-! ### Association (R348 to R353) -/

/-- The better of two choices: the lower cost, the first on a tie. -/
def betterAssign (a b : Nat × List (Option Nat)) : Nat × List (Option Nat) := if b.1 < a.1 then b else a

/-- The assignment of minimum total cost, with `newCost` for each row and column left over; on equal cost the first rows take the lowest columns
(R351). -/
def bestAssign (newCost : Nat) : List (List (Option Nat)) → List Nat → Nat × List (Option Nat)
  | [], free => (newCost * free.length, [])
  | row :: rest, free =>
    let open_ := (newCost + (bestAssign newCost rest free).1, none :: (bestAssign newCost rest free).2)
    free.foldr (fun c best =>
      match row.getD c none with
      | some w =>
        let r := bestAssign newCost rest (free.filter (· != c))
        betterAssign (w + r.1, some c :: r.2) best
      | none => best) open_

/-- R352: a row takes its cheapest free column, the lowest of equal ones, if that costs less than `limit`. -/
def cheapest (row : List (Option Nat)) (free : List Nat) (limit : Nat) : Option Nat :=
  (free.foldl (fun (b : Option (Nat × Nat)) c =>
    match row.getD c none with
    | some w => if w < limit ∧ b.all (fun x => decide (w < x.2)) = true then some (c, w) else b
    | none => b) none).map (·.1)

/-- The rows that the allotment did not reach, in ascending order (R352). -/
def greedyAssign (limit : Nat) : List (List (Option Nat)) → List Nat → List (Option Nat)
  | [], _ => []
  | row :: rest, free =>
    let c := cheapest row free limit
    c :: greedyAssign limit rest (free.filter fun x => c != some x)

/-- At most 4,096 rows: those with the most observations, lower landmark IDs on a tie (R349). -/
def keepRows (rows : List AssocRow) : List AssocRow :=
  if rows.length ≤ 4096 then rows
  else
    let before (a b : AssocRow) := decide (b.observations < a.observations ∨ (a.observations = b.observations ∧ a.landmark.toNat < b.landmark.toNat))
    let kept := ((sortBy before rows).take 4096).map (·.landmark)
    rows.filter fun r => kept.contains r.landmark

/-- The assignment of a cost matrix with `n` columns, and how many rows were assigned under R352. -/
def associate (newCost : Nat) (costs : List (List (Option Nat))) (n : Nat) (limit : Option Nat) : List (Nat × Nat) × Nat :=
  let solved := limit.getD costs.length
  let opt := (bestAssign newCost (costs.take solved) (List.range n)).2
  let free := (List.range n).filter fun k => !opt.contains (some k)
  let rest := greedyAssign (2 * newCost) (costs.drop solved) free
  (((opt ++ rest).zipIdx.filterMap fun e => e.1.map fun k => (e.2, k)), (rest.filter Option.isSome).length)

/-! ### Flags and bodies of records -/

/-- Whether a rate-change gap of a fused channel overlaps a span (R339). -/
def gapIn (x : SessionS) (imu0 : Bool) (a b : Int) : Bool := x.gaps.any fun g => (!imu0 || g.2.2) && decide (g.1 < b ∧ a < g.2.1)

/-- Whether a learned stage of the optimised path runs classically for the whole session (R100 to R103): descriptors or depth completion. -/
def SessionS.classicalNow (x : SessionS) : Bool :=
  let c := x.classicalMask ||| x.unavailable
  c.getLsbD 0 || c.getLsbD 1 || !x.descLearned

/-- Streams that contributed to a frame set (R43, Table 2-10). -/
def FrameSet.streams (f : FrameSet) : List Nat := if f.covered then [] else f.contrib

/-- FLAGS of the records of a frame set (R75, R102, R339, R369, R375, R798). -/
def setFlags (x : SessionS) (f : FrameSet) (valid : Int) : RecFlags :=
  { partialIn := f.partialIn || f.covered, classical := if f.covered then x.optClassical else f.classical,
    rateChange := match x.optValid with | some t => gapIn x false t valid | none => false,
    unaligned := !x.unaligned.isEmpty, revised := f.revised && !f.covered }

/-- The body of POSE_FAST (Table 2-9). -/
def fastBody (p : PoseFast) : List Byte :=
  p.pos.flatMap (fun x => leBytes 8 x.toNat) ++ wordsBytes (canonQuat p.quat) ++ wordsBytes p.vel ++ wordsBytes p.rate
    ++ wBytes p.posSd ++ wBytes p.attSd ++ zeros 4

/-- The body of POSE_OPT (Table 2-10, R798). -/
def optBody (k : Nat) (f : FrameSet) (w : WindowState) : List Byte :=
  let cover := f.covered
  w.pos.flatMap (fun x => leBytes 8 x.toNat) ++ wordsBytes (canonQuat w.quat) ++ wordsBytes w.vel ++ wordsBytes w.gyroBias ++ wordsBytes w.accelBias
    ++ zeros 4 ++ (List.range 21).flatMap (fun i => wBytes (w.cov.getD i 0)) ++ leBytes 4 k ++ wBytes f.kfId ++ wBytes f.mapGen
    ++ leBytes 2 (if cover then 0 else min 30000 w.landmarksUsed) ++ leBytes 1 f.streams.length ++ leBytes 1 (if cover then 0 else min 4 w.iterations)
    ++ leBytes 4 (maskOf f.streams) ++ wBytes w.cost ++ zeros 16

/-- A feature entry and an object entry of TRACK_LIST (Table 2-11). -/
def TrackEntry.bytes (t : TrackEntry) : List Byte :=
  wBytes t.trackId ++ wBytes t.landmark ++ leBytes 2 t.u.toNat ++ leBytes 2 t.v.toNat ++ leBytes 1 t.stream ++ leBytes 1 t.status ++ leBytes 2 t.frames
def ObjTrack.bytes (o : ObjTrack) : List Byte :=
  wBytes o.obs.objectId ++ wordsBytes o.obs.centre ++ wordsBytes o.obs.velocity ++ wordsBytes o.obs.extent ++ leBytes 2 o.obs.supporting
    ++ leBytes 1 o.state ++ zeros 1 ++ leBytes 4 o.frames

/-- TRACK_LIST (R95, Table 2-11). -/
def trackBody (k : Nat) (tracks : List TrackEntry) (objs : List ObjTrack) : List Byte :=
  let t := tracks.take 32768
  let o := objs.take 256
  leBytes 4 t.length ++ leBytes 4 k ++ leBytes 2 o.length ++ zeros 6 ++ t.flatMap TrackEntry.bytes ++ o.flatMap ObjTrack.bytes

/-! ### The pair's records -/

/-- The compare buffer of a band of a pair (R502). -/
def PairS.buf (p : PairS) (b : Nat) : List CompareBuf := if b = p.bandA then p.bufA else p.bufB

/-- The record that a band holds at the commit rendezvous; a band in a recovery counts as not arrived (R498, R804). -/
def arrivedEntry (s : State) (p : PairS) (b : Nat) : Option CompareBuf := if (s.bandAt b).stopped then none else (p.buf b).head?

/-- A record has been written or abandoned: the bands that hold it leave the commit rendezvous. -/
def dropEntry (n : Nat) (isOpt : Bool) (key : Nat) (s : State) : State :=
  let keep (l : List CompareBuf) := l.filter fun e => !(e.isOpt == isOpt && e.key == key)
  match Tab.get? s.pairs n with
  | none => s
  | some p =>
    let s := forEach [p.bandA, p.bandB] (fun b s =>
      if keep (p.buf b) = p.buf b then s else s.updBand b fun x => { x with waiting := none }) s
    s.updPair n fun p => { p with bufA := keep p.bufA, bufB := keep p.bufB }

/-- Forget rate-change gaps that no later record's span can meet, and frame sets settled more than a second ago. -/
def SessionS.prune (x : SessionS) (now : Nat) : SessionS :=
  let t := min x.optStateValid (x.optValid.getD x.optStateValid)
  { x with gaps := x.gaps.filter (fun g => decide (t < g.2.1)),
           sets := x.sets.filter fun f => !(f.2.committed || f.2.abandoned) || decide (now < f.2.instant + 1000000000) }

/-- Write the POSE_FAST of an IMU0 output (R81, R339, Table 8-4). -/
def writeFast (n key : Nat) (pose : PoseFast) (single degraded : Bool) (s : State) : State :=
  match s.sessionAt n with
  | none => s
  | some x =>
    match x.fastDue.find? fun d => d.1 == key with
    | none => dropEntry n false key s
    | some d =>
      if x.stopped then dropEntry n false key s
      else
      let oldest := if degraded then x.optValid.getD x.optStateValid else x.optStateValid
      let flags : RecFlags := { single := single, degraded := degraded, classical := x.optClassical, rateChange := gapIn x true oldest d.2.1 }
      let s := s.record n 0 { type := 1, tValid := d.2.1, oldest := oldest, flags := flags, source := key } (fastBody pose)
      dropEntry n false key (s.updSession n fun x => { x with fastDue := x.fastDue.filter fun e => e.1 != key })

/-- Write the POSE_OPT of a frame set (R335, R367, R369, Table 8-4); the frame set is settled (R73). -/
def writeOpt (n key : Nat) (single : Bool) (s : State) : State :=
  match s.sessionAt n with
  | none => s
  | some x =>
    match Tab.get? x.sets key with
    | none => dropEntry n true key s
    | some f =>
      if x.stopped then dropEntry n true key s
      else
      let w := f.published.getD {}
      let t := f.valid
      let flags := setFlags x f t
      let s := s.record n 0 { type := 2, tValid := t, oldest := f.oldest, flags := { flags with single := single }, source := key, start := f.closed }
        (optBody key f w)
      let now := s.devNs
      let s := s.updSession n fun x =>
        { x with sets := Tab.put x.sets key { f with committed := true }, optValid := some t,
                 revised := if flags.revised then (x.revised + 1) % 2 ^ 32 else x.revised }.prune now
      settleStop n (dropEntry n true key s)

/-- A frame set that gets no POSE_OPT (R807). -/
def abandonSet (n key : Nat) (s : State) : State :=
  let s := s.updSession n fun x => { x with sets := Tab.upd x.sets key {} fun f => { f with abandoned := true } }
  settleStop n (dropEntry n true key s)

/-- Write the record of a band's compare buffer. -/
def writeEntry (n : Nat) (e : CompareBuf) (single : Bool) (s : State) : State :=
  if e.isOpt then writeOpt n e.key single s else writeFast n e.key e.fast single false s

/-! ### Suspects, copies and carriers -/

/-- A band is named suspect (R801, R805): it stops until it has been resynchronised; a second naming within 10 s hands a tile to repair. -/
def nameSuspect (n bad good cause tile : Nat) (s : State) : State :=
  match Tab.get? s.pairs n with
  | none => s
  | some p =>
    let again := p.suspects.any fun e => e.1 == bad && decide (s.since e.2 ≤ msTicks 10000)
    let s := s.updPair n fun p => { p with suspects := p.suspects.filter (fun e => decide (s.since e.2 ≤ msTicks 10000)) ++ [(bad, s.time.ticks)] }
    let s := s.pairState n 1 cause (some good)
    if again then s.tileRepair bad tile 5
    else ((s.updBand bad fun b => { b with stopped := true }).recoveryStart (recPair n)).needsCopy bad

/-- Whether a band can take the carrier's state now: every tile of it in repair has its replacement (Table 19-2). -/
def copyReady (s : State) (p : PairS) (b : Nat) : Bool :=
  p.needCopy.contains b && (s.dep.repairs.filter fun r => r.2.band == b).all fun r => r.2.replacement.isSome

/-- The carrier's state is copied into the other band at the carrier's commit rendezvous (R802, R803). A band in tile repair resumes with
TILE_REPAIR_DONE. -/
def resyncCopy (n carrier other : Nat) (s : State) : State :=
  let s := s.copyMade other
  let s := s.updPair n fun p => if other = p.bandA then { p with bufA := [] } else { p with bufB := [] }
  let s := s.updBand other fun b => { b with waiting := none }
  let s := if (Tab.getD s.pairs n {}).state = 2 then s else s.pairState n 2 3 (some carrier)
  s.resumeBand other

/-- A band carries its record alone (R802, R804, R805, R808). -/
def carry (n band other : Nat) (e : CompareBuf) (late : Bool) (s : State) : State :=
  let s := writeEntry n e true s
  match Tab.get? s.pairs n with
  | none => s
  | some p =>
    if late then nameSuspect n other band 2 0 s
    else if copyReady s p other then resyncCopy n band other s
    else if p.state = 3 then s.pairState n 1 3 (some band)
    else s

/-- Two compare buffers hold the same record and signatures (R502). -/
def CompareBuf.agrees (a b : CompareBuf) : Bool := a.fast == b.fast && a.opt == b.opt && !a.differs && !b.differs && a.sigs == b.sigs

/-- The band that the reference record names good (R800): whether it is the second, none when no band is. -/
def goodSecond (a b : CompareBuf) (refNearerSecond : Bool) : Option Bool :=
  if a.isOpt then if !a.differs then some false else if !b.differs then some true else none else some refNearerSecond

/-- The lowest logical tile whose signatures differ, 0 when all agree (R801). -/
def differingTile (a b : CompareBuf) : Nat := ((List.range 6).find? fun i => a.sigs.getD i 0 != b.sigs.getD i 0).getD 0

/-- No band of the pair can carry (R806, R807): the pair enters state 3, and a frame set gets no POSE_OPT. With both bands waiting for a copy and no
repair that could end, the first band resumes alone (assumption 36). -/
def noCarrier (n : Nat) (isOpt : Bool) (key : Nat) (s : State) : State :=
  match Tab.get? s.pairs n with
  | none => s
  | some p =>
    let s := if p.state = 3 then s else s.pairState n 3 4 none
    let hope := s.dep.repairs.any fun r => (r.2.band == p.bandA || r.2.band == p.bandB) && r.2.replacement.isSome
    let s := if p.needCopy.contains p.bandA && p.needCopy.contains p.bandB && !hope then (s.copyMade p.bandA).resumeBand p.bandA else s
    if isOpt then abandonSet n key s else s

/-- The comparison of two compare buffers (R502, R503, R800 to R803). -/
def compareBufs (n : Nat) (p : PairS) (a b : CompareBuf) (refNearerSecond : Bool) (s : State) : State :=
  if a.agrees b then
    let s := writeEntry n a false s
    if p.state = 0 ∨ !Tab.has s.pairs n then s else (s.pairState n 0 0 none).recoveryEnd (recPair n)
  else match goodSecond a b refNearerSecond with
    | some second =>
      let s := writeEntry n (if second then b else a) true s
      nameSuspect n (if second then p.bandA else p.bandB) (if second then p.bandB else p.bandA) 1 (differingTile a b) s
    | none => noCarrier n a.isOpt a.key s

/-- PAIR_COMMIT: the commit rendezvous of a context's pair (R502, R503, R804). -/
def execPairCommit (ctx : Nat) (refNearerSecond : Bool) (s : State) : Out :=
  match Tab.get? s.pairs ctx with
  | none => .next s
  | some p =>
    onTrigger (s.mainOn && (s.sessionAt ctx).isSome) s fun s =>
      match arrivedEntry s p p.bandA, arrivedEntry s p p.bandB with
      | some a, some b => if a.isOpt = b.isOpt ∧ a.key = b.key then compareBufs ctx p a b refNearerSecond s else s
      | some a, none => if (s.bandAt p.bandB).stopped then carry ctx p.bandA p.bandB a false s else s
      | none, some b => if (s.bandAt p.bandA).stopped then carry ctx p.bandB p.bandA b false s else s
      | none, none => s

/-- The oldest record of a session whose carrier deadline has passed (R804): 100 µs after the sample of a POSE_FAST, 1,460 µs after the latency start
of a POSE_OPT. -/
def overdue (s : State) (x : SessionS) : Option (Bool × Nat) :=
  match x.fastDue with
  | d :: _ =>
    if d.2.2 + 100000 ≤ s.devNs then some (false, d.1) else optOverdue
  | [] => optOverdue
where
  optOverdue : Option (Bool × Nat) :=
    ((sortBy (fun (a b : Nat × FrameSet) => decide (a.2.instant < b.2.instant)) x.sets).find? fun f =>
      !f.2.committed && !f.2.abandoned && f.2.closed.any fun t => decide (t + 1460000 ≤ s.devNs)).map fun f => (true, f.1)

/-- CARRIER_DEADLINE (R804 to R807). -/
def execCarrierDeadline (ctx : Nat) (s : State) : Out :=
  match Tab.get? s.pairs ctx, s.sessionAt ctx with
  | some p, some x =>
    match overdue s x with
    | none => .next s
    | some (isOpt, key) =>
      onTrigger (s.mainOn && !x.stopped) s fun s =>
        let mine (e : CompareBuf) := e.isOpt == isOpt && e.key == key
        let a := (arrivedEntry s p p.bandA).filter mine
        let b := (arrivedEntry s p p.bandB).filter mine
        match a, b with
        | some _, some _ => s
        | some a, none => carry ctx p.bandA p.bandB a (!(s.bandAt p.bandB).stopped) s
        | none, some b => carry ctx p.bandB p.bandA b (!(s.bandAt p.bandA).stopped) s
        | none, none => if p.state = 3 ∧ !isOpt then s else noCarrier ctx isOpt key s
  | _, _ => .next s

/-- DEGRADED_RECORD (R806, R807): the stewards write the oldest POSE_FAST that is due. -/
def execDegradedRecord (ctx : Nat) (pose : PoseFast) (s : State) : Out :=
  match Tab.get? s.pairs ctx, s.sessionAt ctx with
  | some p, some x =>
    match x.fastDue with
    | d :: _ => onTrigger (s.mainOn && p.state == 3 && !x.stopped) s (writeFast ctx d.1 pose false true)
    | [] => .next s
  | _, _ => .next s

/-- POSE_COVERED, at most once per second, with the frame sets covered since (R799, Table 19-6). -/
def noteCovered (n : Nat) (s : State) : State :=
  match s.sessionAt n with
  | none => s
  | some x =>
    let k := x.coveredCount + 1
    if x.coveredLast.all fun t => decide (msTicks 1000 ≤ s.since t) then
      (s.updSession n fun x => { x with coveredCount := 0, coveredLast := some s.time.ticks }).raiseCtx n 0x8C04 (n * 4096 + min 255 k)
    else s.updSession n fun x => { x with coveredCount := k }

/-- R330: at the first optimised pose of a session on a new map, W coincides with M in position and heading. The state as the firmware's program
gives it is moved to the origin and turned back by its rotation about z; a state turned half over has no heading and keeps its rotation (assumption 7). -/
def firstPose (x : SessionS) (w : WindowState) : WindowState :=
  let yaw := [w.quat.getD 0 0, 0, 0, w.quat.getD 3 0 ^^^ 0x80000000]
  if !x.newMap then w
  else if (Dy.pow2 (-120)).le (normSq (yaw.map Dy.ofWord)) = false then { w with pos := [0, 0, 0] }
  else
    let turn := normQuat yaw
    { w with pos := [0, 0, 0], quat := normQuat ((gLane 1 turn w.quat).map fun r => w32 r.bits), vel := (gLane 3 turn w.vel).map fun r => w32 r.bits }

/-- POSE_COVER_DEADLINE (R797, R798): 1,400 µs after its latency start a frame set without a window state gets a cover. -/
def execPoseCoverDeadline (ctx frameSet : Nat) (propagated : WindowState) (s : State) : Out :=
  match s.sessionAt ctx with
  | none => .next s
  | some x =>
    match Tab.get? x.sets frameSet with
    | none => .next s
    | some f =>
      onTrigger (s.mainOn && x.prof.pose && f.published.isNone && !f.committed && !f.abandoned && f.closed.any (fun t => decide (t + 1400000 ≤ s.devNs))) s fun s =>
        let f := { f with covered := true, published := some (firstPose x propagated), kfId := 0xFFFFFFFF, mapGen := x.optGen }
        noteCovered ctx (s.updSession ctx fun x => { x with sets := Tab.put x.sets frameSet f, newMap := false })

end Sys2Proof.Machine
end

