-- ==== Sys2Proof/Machine/Power.lean ====
section
/-! DEFINITION. Energy ledger, budget, planner and Bridle (R715 to R747), and their commands (Table 16-15). -/

namespace Sys2Proof.Machine

/-! ### The budget (R719 to R731) -/

/-- The allowance in mW; none without an account (R721, R726). -/
def State.energyAllowance (s : State) : Option Nat :=
  s.power.account.map fun a => if a.1 = 0 then 0 else a.1 * 1000000 / (a.2 - s.devNs)

/-- The budget less Ballast, in mW (R722). -/
def State.budgetLess (s : State) : Nat := (match s.energyAllowance with | some a => min s.power.cap a | none => s.power.cap) - s.ballastMw

/-- P̄ of R725: the mean module power of the last 10 s, else the planner's prediction. -/
def State.meanPower (s : State) : Nat :=
  let h := s.power.history
  if 10000 ≤ h.length then total h / h.length else s.power.predictedMw

/-- The account as ENERGY_STATUS and HEALTH report it: energy remaining in J and projected empty time (R725). What stands for the time without an
account, or with no power drawn, is open (assumption 16, place 49). -/
def State.accountFields (s : State) : Nat × Nat :=
  match s.power.account with
  | none => (0xFFFFFFFF, Config.openVal 49 0)
  | some (e, _) => (min 0xFFFFFFFF (e / 1000000), if s.meanPower = 0 then Config.openVal 49 1 else s.devNs + e * 1000000 / s.meanPower)

/-- The cap less Ballast cannot carry what is admitted (R731). -/
def State.capUnmet (s : State) : Bool := decide (s.capLess < 8000 + s.shares)

/-- POWER_CAP_SET (R719, R730, R731, R915). -/
def execPowerCapSet (c : CmdRef) (s : State) : Out :=
  onCmd 0x0B00 c s fun m s =>
    match withDefault (m.w 3).toNat 10000 75000 75000 with
    | none => s.badWord c 3
    | some cap =>
      let s := s.mapPower fun p => { p with cap := cap, tetherCap := if m.isTether then cap else p.tetherCap }
      if s.capUnmet then (s.raise 0x8B01 (s.capLess / 1000)).done c OK_DEGRADED else s.done c

/-- ENERGY_ACCOUNT_SET (R724): E in J, 0 removes the account. -/
def execEnergyAccountSet (c : CmdRef) (s : State) : Out :=
  onCmd 0x0B01 c s fun m s =>
    let e := (m.w 3).toNat
    let h := (m.w 4).toNat + 2 ^ 32 * (m.w 5).toNat
    let set (a : Option (Nat × Nat)) : State :=
      s.mapPower fun p => { p with account := a, accountTick := s.time.ticks, history := [], emptyRaised := false, lowestRaised := false }
    if e = 0 then (set none).done c
    else if h ≤ s.devNs then s.badWord c 4
    else (set (some (e * 1000000, h))).done c

/-- BALLAST_SET (R720, R730, R915). -/
def execBallastSet (c : CmdRef) (s : State) : Out :=
  onCmd 0x0B02 c s fun m s =>
    match withDefault (fld (m.w 3) 7 0) 10 200 50 with
    | none => s.badWord c 3
    | some b => (s.mapPower fun p => { p with ballast := b, tetherBallast := if m.isTether then b else p.tetherBallast }).done c

/-- R732: every level of every stage has an entry and DOWN_ORDER is a permutation of the stage codes. -/
def levelTableOk (b : List Byte) : Bool :=
  b.length == 32 + 16 * leAt b 0 2
    && (List.range 7).all (fun k => (rangeLevels k).all fun l => (tableCost b k l).isSome)
    && (List.range 7).all fun k => (List.range 7).any fun i => leAt b (4 + i) 1 == k

/-- WORKLEVEL_LOAD (R732, R737). -/
def execWorklevelLoad (c : CmdRef) (s : State) : Out :=
  onCmd 0x0B03 c s fun m s =>
    if s.sessionCtxs ≠ [] then s.refuseOpen c BUSY
    else withSg m 3 s fun b => if levelTableOk b then (s.mapPower fun p => { p with table := b }).done c else s.badWord c 3

/-- ENERGY_STATUS. -/
def execEnergyStatus (c : CmdRef) (s : State) : Out :=
  onCmd 0x0B06 c s fun _ s =>
    let a := s.accountFields
    s.done c OK 0 [w32 s.power.modulePower, w32 s.power.cap, w32 s.ballastMw, w32 a.1, w32 a.2, w32 (a.2 / 2 ^ 32)]

/-! ### The planner (R732 to R737) -/

/-- DOWN_ORDER (Table 17-2). -/
def State.downOrder (s : State) : List Nat :=
  if s.power.table = [] then [5, 6, 4, 2, 1, 3, 0] else (List.range 7).map fun i => leAt s.power.table (4 + i) 1

/-- Units of work of a stage in 100 s (Table 17-4): frame sets, frame sets per pair or stream, keyframes, or queries. -/
def stageUnits (s : State) (n : Nat) (x : SessionS) (kfs : Nat) (levels : List Nat) (code : Nat) : Nat :=
  match code with
  | 0 => x.rate * (s.ctxAt n).pairs.length
  | 1 => x.rate * x.streams.length
  | 2 => x.rate
  | 3 => x.rate
  | 4 => kfs
  | _ => 50 * levels.getD 5 0

/-- The predicted power of a session at given levels, in mW (R733). P_S times STEPS over ρ is in mW·µs, that is in nJ. -/
def predictAt (s : State) (n : Nat) (x : SessionS) (r : IntervalReport) (levels : List Nat) : Nat :=
  let wb := (x.bands.find? fun b => (s.bandAt b).role != 2 && (s.bandAt b).role != 3).getD 0
  let ps := Tab.getD r.staticMw wb 0
  let rho := max 1 (Tab.getD r.bandRates wb 1050)
  let one (code : Nat) : Nat :=
    let e := s.levelCost code (levels.getD code 0)
    stageUnits s n x (Tab.getD r.keyframes n 0) levels code * (e.1 + ps * e.2 / rho)
  total ((List.range 7).map one) * x.kCorr / 65536 / 100000000

/-- One level less work for the first stage of DOWN_ORDER that lies above its lowest level; none at the lowest levels (R735, R736). -/
def lowerOne (order levels : List Nat) : Option (List Nat) :=
  order.findSome? fun k => (stepLevel k (levels.getD k 0) true).map fun l => setAt 0 levels k l

/-- The lowest level of every stage. -/
def lowestLevels : List Nat := [2, 1, 3, 4, 3, 1, 4]

/-- The loop of R735: lower until the prediction fits or nothing is left; whether a level was lowered. `fuel` bounds the levels. -/
def lowerLoop (predict : List Nat → Nat) (order : List Nat) (allot : Nat) : Nat → List Nat → Bool → List Nat × Bool
  | 0, l, b => (l, b)
  | fuel + 1, l, b =>
    if predict l ≤ allot then (l, b)
    else match lowerOne order l with
      | some l' => lowerLoop predict order allot fuel l' true
      | none => (l, b)

/-- The last stage of DOWN_ORDER below its target goes up one level if the prediction stays within 95 % (R735, R736, R284) and the stage's
schedule still meets its latency bound at the floor step rate (R64). -/
def raiseOne (fits : Nat → Nat → Bool) (predict : List Nat → Nat) (order : List Nat) (x : SessionS) (allot : Nat) (l : List Nat) : List Nat :=
  match (order.filter fun k => moreWork k (x.ceilings.getD k 0) (l.getD k 0) && !(k == 0 && decide (l.getD 0 0 ≤ x.lowStereo))).getLast? with
  | some k =>
    match stepLevel k (l.getD k 0) false with
    | some v => let l' := setAt 0 l k v
      if 100 * predict l' ≤ 95 * allot ∧ fits k v then l' else l
    | none => l
  | none => l

/-- The planner on one session (R734 to R736, R726, Table 24-6). -/
def planSession (n : Nat) (r : IntervalReport) (allot : Nat) (s : State) : State :=
  match s.sessionAt n with
  | none => s
  | some x =>
    let m := r.ctxUj.getD n 0
    let k := if x.predMw = 0 then Int.ofNat x.kCorr else Int.ofNat x.kCorr + (Int.ofNat (m * 65536 / x.predMw) - Int.ofNat x.kCorr) / 16
    let x := { x with kCorr := k.toNat }
    let predict := predictAt s n x r
    let order := s.downOrder
    let empty := s.power.account.any fun a => a.1 == 0
    let low := lowerLoop predict order allot 256 x.levels false
    let levels := if s.power.hotHold ∨ empty then lowestLevels
      else if low.2 = false ∧ 100 * predict low.1 ≤ 95 * allot ∧ 100 ≤ x.loweredAgo then raiseOne s.levelFits predict order x allot low.1
      else low.1
    let lowered := low.2 || decide (levels = lowestLevels ∧ x.levels ≠ lowestLevels)
    s.updSession n fun _ => { x with levels := levels, predMw := predict levels, loweredAgo := if lowered then 0 else min 100 (x.loweredAgo + 1) }

/-- The allotment of a context (R735). -/
def allotment (share shares : Nat) (remainder : Int) : Nat := if shares = 0 then 0 else (Int.ofNat share + remainder * Int.ofNat share / Int.ofNat shares).toNat

/-- The planner runs on every session and the levels are issued; ENERGY_ACCOUNT causes 1 and 2 (Table 17-8). -/
def runPlanner (r : IntervalReport) (s : State) : State :=
  let base := s.power.modulePower - total r.ctxUj
  let rem := Int.ofNat s.budgetLess - Int.ofNat base - Int.ofNat s.shares
  let sh := s.shares
  let s := s.mapPower fun p => { p with allots := (List.range 8).map fun n => (n, allotment (s.ctxAt n).share sh rem) }
  let before := s
  let s := forEach s.sessionCtxs (fun n s => planSession n r (Tab.getD s.power.allots n 0) s) s
  let x (t : State) (n : Nat) := (t.sessionAt n).getD {}
  let binding := s.energyAllowance.any fun a => decide (a < s.power.cap)
  let lowered := s.sessionCtxs.any fun n => decide ((x s n).levels ≠ (x before n).levels ∧ (x s n).loweredAgo = 0)
  let tooMuch := s.sessionCtxs.any fun n => decide ((x s n).levels = lowestLevels ∧ Tab.getD s.power.allots n 0 < (x s n).predMw)
  let s := s.mapPower fun p => { p with predictedMw := base + total (s.sessionCtxs.map fun n => (x s n).predMw) }
  let s := if binding && lowered then s.raise 0x8B00 1 else s
  if binding && tooMuch then (if s.power.lowestRaised then s else (s.mapPower fun p => { p with lowestRaised := true }).raise 0x8B00 2)
  else s.mapPower fun p => { p with lowestRaised := false }

/-- PLANNING_INTERVAL_END (R715 to R717, R724, R726, R735, R477, R822, R823, R828): the interval that started at `intervalEnd` has lasted 500,000 ticks. -/
def execPlanningIntervalEnd (r : IntervalReport) (s : State) : Out :=
  onTrigger (s.mainOn && decide (s.power.intervalEnd + 500000 ≤ s.time.ticks)) s fun s =>
    let e := s.power.account.map fun a => (a.1 - r.mainUj, a.2)
    let s := s.mapPower fun p =>
      { p with intervalEnd := p.intervalEnd + 500000, modulePower := r.mainUj, history := (p.history ++ [r.mainUj]).drop (p.history.length + 1 - 10000),
               account := e }
    let s := forEach r.bandRates (fun b s => lowRateEpisode b.1 b.2 (s.updBand b.1 fun x => { x with rate := min 65535 b.2 })) (vSetStep s)
    let s := if (e.any fun a => a.1 == 0) && !s.power.emptyRaised then (s.mapPower fun p => { p with emptyRaised := true }).raise 0x8B00 3 else s
    runPlanner r (measureCadence r s)

/-- ENERGY_HORIZON_PASSED (R727). -/
def execEnergyHorizonPassed (s : State) : Out :=
  match s.power.account with
  | none => .next s
  | some (_, h) => onTrigger (decide (h ≤ s.devNs)) s fun s => (s.mapPower fun p => { p with account := none, lowestRaised := false }).raise 0x8B00 4

/-! ### The Bridle (R738 to R743) -/

/-- The metered consumers in the order of R739: bands of partnered pairs, other bands, vision, search, HBM. -/
def State.consumers (s : State) : List Nat :=
  let bs := s.bands.map (·.1)
  (bs.filter fun b => (s.bandAt b).isPair) ++ (bs.filter fun b => !(s.bandAt b).isPair) ++ [16, 17, 18]

/-- Units of 125 mW that hold at least a power in mW. -/
def powerUnits (mw : Nat) : Nat := ceilDiv mw 125

/-- The allotment of a metered consumer's block in units of 125 mW (R960, Table 24-4): vision 6 W, search 2 W, HBM 8 W, the fabric 44 W. -/
def blockUnits (k : Nat) : Nat := match k with | 16 => 48 | 17 => 16 | 18 => 64 | _ => 352

/-- Grants held to the blocks' allotments, the bands in their order (R960). -/
def withinBlocks (g : List (Nat × Nat)) : List (Nat × Nat) :=
  (g.foldl (fun (a : List (Nat × Nat) × Nat) e =>
    if 16 ≤ e.1 then (a.1 ++ [(e.1, min e.2 (blockUnits e.1))], a.2) else (a.1 ++ [(e.1, min e.2 a.2)], a.2 - min e.2 a.2)) ([], blockUnits 0)).1

/-- Floor grants: in order while the budget lasts; scaled down in proportion while the cap is unmet (R731, R739). -/
def floorGrants (unmet : Bool) (avail : Nat) (floors : List (Nat × Nat)) : List (Nat × Nat) :=
  let sum := total (floors.map (·.2))
  if unmet ∧ avail < sum then floors.map fun f => (f.1, f.2 * avail / sum)
  else (floors.foldl (fun (a : List (Nat × Nat) × Nat) f => (a.1 ++ [(f.1, min f.2 a.2)], a.2 - min f.2 a.2)) ([], avail)).1

/-- Top the bands of each context up toward its allotment, in order (R739): grants by consumer, and what is left of the budget. -/
def topUp (s : State) (g : List (Nat × Nat)) (avail : Nat) : List (Nat × Nat) :=
  let ctxOf (b : Nat) := (s.bandAt b).ctx
  let used (n : Nat) (l : List (Nat × Nat)) := total ((l.filter fun e => decide (e.1 < 16) && ctxOf e.1 == n).map (·.2))
  (g.foldl (fun (a : List (Nat × Nat) × Nat) e =>
    if 16 ≤ e.1 then a
    else
      let room := Tab.getD s.power.allots (ctxOf e.1) 0 / 125 - used (ctxOf e.1) a.1
      let more := min room a.2
      (a.1.map fun x => if x.1 = e.1 then (x.1, x.2 + more) else x, a.2 - more)) (g, avail)).1

/-- Consumers that carry out a recovery now (R746): bands of tiles in repair or substitution and of pairs in resynchronisation, and vision for
the re-run of a unit. -/
def State.recovering (s : State) : List Nat :=
  let bandsOf := (s.bands.map (·.1)).filter fun b => s.inRecovery b
  bandsOf ++ if s.power.recoveries.any fun r => decide (4000 ≤ r.1) then [16] else []

/-- The grants of a period (R738, R739, R742, R743, R746, R960). `floors` is the floor power of each consumer, mW. -/
def grantsNow (s : State) (floors : List (Nat × Nat)) (unmetered : Nat) : List (Nat × Nat) :=
  let want := s.consumers.map fun k => (k, powerUnits (Tab.getD floors k 0))
  let avail := (s.budgetLess - unmetered) / 125
  let f := withinBlocks (floorGrants s.capUnmet avail want)
  if s.power.droop then f
  else
    let full := withinBlocks (topUp s f (avail - total (f.map (·.2))))
    let rec_ := s.recovering
    let extra := if rec_ = [] then 0 else s.ballastMw / 125 / rec_.length
    let full := withinBlocks (full.map fun e => if rec_.contains e.1 then (e.1, e.2 + extra) else e)
    if s.power.ramping then full.map fun e => (e.1, min e.2 (Tab.getD s.power.grants e.1 0 + 1)) else full

/-- BRIDLE_GRANT_PERIOD (R738 to R740): every 10 µs. `draws` is the power that each consumer's floor grant stands for (Table 17-5), in mW. The
unmetered blocks never draw more than 5 W + 3 W + 7 W (R960). -/
def execBridleGrantPeriod (draws : List (Nat × Nat)) (unmeteredMw : Nat) (s : State) : Out :=
  onTrigger (s.mainOn && decide (s.power.grantTick + usTicks 10 ≤ s.time.ticks) && decide (unmeteredMw ≤ 15000)) s fun s =>
    let g := grantsNow s draws unmeteredMw
    let fill (pool : Int) (k : Nat) : Int := let gain := Int.ofNat (1250 * Tab.getD g k 0)
      min gain (pool + gain)
    let tab (l : List (Nat × Nat)) : Tab Nat := l.foldl (fun t e => Tab.put t e.1 e.2) []
    let up := s.power.ramping && g.any fun e => decide (Tab.getD s.power.grants e.1 0 + 1 = e.2)
    let s := s.mapPower fun p =>
      { p with grantTick := s.time.ticks, grants := tab g, floors := tab (s.consumers.map fun k => (k, powerUnits (Tab.getD draws k 0))),
               ramping := up, pools := [16, 17, 18].foldl (fun t k => Tab.put t k (fill (Tab.getD t k 0) k)) p.pools }
    forEach (s.bands.map (·.1)) (fun b s => s.updBand b fun x => { x with pool := fill x.pool b }) s

/-- A droop (R741, R742, R744): every metered grant falls to its floor. -/
def droop (mask : BitVec 3) (s : State) : State :=
    let s := s.mapPower fun p => { p with droop := true, droopAt := s.time.ticks, ramping := false, grants := p.grants.map fun e => (e.1, min e.2 (Tab.getD p.floors e.1 0)) }
    let free := s.power.droopRaised.all fun t => decide (msTicks 1000 ≤ s.since t)
    if free then (s.mapPower fun p => { p with droopRaised := some s.time.ticks }).raise 0x8B02 mask.toNat else s

/-- POWER_DROOP. -/
def execPowerDroop (mask : BitVec 3) (s : State) : Out := onTrigger (s.mainOn && mask != 0) s (droop mask)

/-- DROOP_RECOVERY (R743): 100 µs after the droop has ended the grants begin to rise. -/
def execDroopRecovery (s : State) : Out :=
  onTrigger (s.power.droop && decide (usTicks 100 ≤ s.since s.power.droopAt)) s fun s => s.mapPower fun p => { p with droop := false, ramping := true }

/-- AUTO_IDLE (R749). -/
def execAutoIdle (s : State) : Out :=
  match s.life.idleSince with
  | none => .next s
  | some t =>
    onTrigger (s.mainOn && s.life.powerState == 0 && decide (msTicks 1000 ≤ s.since t)
        && (List.range 8).all fun n => !(s.ctxAt n).admitted) s fun s =>
      (s.mapLife fun l => { l with powerState := 1, idleSince := none }).raise 0x8B04 1

end Sys2Proof.Machine
end

