-- ==== Sys2Proof/Machine/Health.lean ====
section
/-! DEFINITION. HEALTH records and status (Table 2-13, R99) and the Tether's event queue (R679, R712). -/

namespace Sys2Proof.Machine

/-- Corner quota per stream number: that of the session's streams, zero elsewhere (Table 2-13). -/
def quotaBytes (x : SessionS) : List Byte := (List.range 24).flatMap fun i => leBytes 2 (if x.streams.contains i then 256 * x.level 1 else 0)

/-- Bytes 48 to 251 of a HEALTH record of context `n`; session fields are zero without a session (Tables 2-13, 16-16). -/
def healthBody (s : State) (n code detail : Nat) : List Byte :=
  let x := s.sessionAt n
  let sess (f : SessionS → Nat) : Nat := x.elim 0 f
  let acct := s.accountFields
  leBytes 4 (sess fun x => minD 0 (x.bands.map fun b => (s.bandAt b).rate)) ++ leBytes 4 s.power.modulePower ++ leBytes 4 s.budgetLess
    ++ leBytes 4 s.ballastMw ++ leBytes 2 code ++ leBytes 2 detail
    ++ leBytes 1 (sess (·.level 3)) ++ leBytes 1 (sess (·.level 2)) ++ leBytes 1 (sess (·.level 4)) ++ leBytes 1 (sess (·.level 6))
    ++ leBytes 4 (sess fun x => 50 * x.level 5) ++ leBytes 4 acct.1 ++ leBytes 8 acct.2
    ++ leBytes 4 (sess (·.lateDropped)) ++ leBytes 4 (sess (·.revised)) ++ leBytes 4 (sess fun x => s.dep.retries - x.retriesSeen)
    ++ leBytes 1 (minD 0 ((List.range 56).map fun t => (s.tileAt t).sparesLeft)) ++ leBytes 1 (tilesIn s 1).length
    ++ leBytes 1 (sess fun _ => (Tab.getD s.pairs n {}).state) ++ leBytes 1 (if s.votingCount = 3 then 0 else 1) ++ leBytes 4 s.dep.corrected
    ++ leBytes 4 (sess (·.worstLatency)) ++ leBytes 4 (sess (·.linkDropped)) ++ zeros 12
    ++ x.elim (zeros 48) quotaBytes ++ zeros 76

/-- Write a HEALTH record to the ring of context `n` whose period ended at `fin` (R99, Table 8-4): the drops of the host link and the step retries are counted anew after it (R92,
R591), and one that carries an
event code sends vector 1 (R652). -/
def healthRecord (n code detail : Nat) (fin : Int) (s : State) : State :=
  if (s.sessionAt n).isNone then s
  else
    let s := s.record n 3 { type := 6, tValid := fin, oldest := Int.ofNat s.devNs } (healthBody s n code detail)
    let s := s.updSession n fun x => { x with linkDropped := 0, retriesSeen := s.dep.retries }
    if code = 0 then s else s.msix n 1

/-- HEALTH_PERIOD (R99): the period's worst latency starts anew. -/
def execHealthPeriod (ctx : Nat) (s : State) : Out :=
  match s.sessionAt ctx with
  | none => .next s
  | some x =>
    onTrigger (!x.stopped && decide (msTicks x.healthMs ≤ s.since x.healthLast)) s fun s =>
      let past := s.since x.healthLast - msTicks x.healthMs
      (healthRecord ctx 0 0 (Int.ofNat s.devNs - Int.ofNat (2 * past)) s).updSession ctx fun x => { x with healthLast := x.healthLast + msTicks x.healthMs, worstLatency := 0 }

/-- Write an event's HEALTH record to every session that it concerns and that has not stopped. -/
def reportEvent (e : Event) (s : State) : State :=
  forEach s.sessionCtxs (fun n s =>
    if bit (e.mask.setWidth 32) n && (s.sessionAt n).any (fun x => !x.stopped) then healthRecord n e.code.toNat e.detail.toNat (Int.ofNat s.devNs) s else s) s

/-- EVENT_HEALTH_RECORD (R99): the oldest event that waits is reported. -/
def execEventHealthRecord (s : State) : Out :=
  match s.events with
  | [] => .next s
  | e :: t => .next (reportEvent e { s with events := t })

/-- HEALTH_STATUS (Table 16-16): bytes 48 to 127 for the sender's context, with no event. -/
def execHealthStatus (c : CmdRef) (s : State) : Out :=
  onCmd 0x0C02 c s fun m s => s.done c OK 0 (bytesWords 20 (healthBody s m.ctx 0 0))

/-- The four words of an event in EVENT_READ's reply; the context word of an event of the whole module is open (assumption 22). -/
def eventWords (e : Event) : List Word :=
  [w32 (e.code.toNat * 65536 + e.detail.toNat), match e.ctx with | some n => w32 n | none => Config.eventContext e.code.toNat,
   e.time.setWidth 32, (e.time >>> 32).setWidth 32]

/-- EVENT_READ (R679, R712, R988): the oldest events leave the Tether queue. -/
def execEventRead (c : CmdRef) (s : State) : Out :=
  onCmd 0x0C05 c s fun m s =>
    match withDefault (fld (m.w 3) 4 0) 1 16 16 with
    | none => s.badWord c 3
    | some n =>
      let l := s.tether.queue.take n
      let rest := s.tether.queue.drop n
      let head := w32 (l.length + 256 * rest.length + 65536 * min 0xFFFF s.tether.dropped)
      (s.mapTether fun t => { t with queue := rest, dropped := 0 }).done c OK 0 (head :: l.flatMap eventWords)

end Sys2Proof.Machine
end

