-- ==== Sys2Proof/Machine/SafeStop.lean ====
section
/-! DEFINITION. Power states, safe stop and fault injection (R672 to R675, R748 to R756, R986; Tables 16-15, 16-16, 16-18). -/

namespace Sys2Proof.Machine

/-! ### Power states (R748 to R752) -/

/-- Whether any context has a session or an admitted program (R748). -/
def State.anyAdmitted (s : State) : Bool := (List.range 8).any fun n => (s.ctxAt n).admitted

/-- Enter a power state of a running main side; POWER_STATE tells a change (Table 17-8). -/
def enterPower (n : Nat) (s : State) : State :=
  if s.life.powerState = n then s else (s.mapLife fun l => { l with powerState := n, idleSince := none }).raise 0x8B04 n

/-- Stop the main side by order: it starts again by an order, or when 12 V is applied again (R752). -/
def orderOff (s : State) : State := (stopMain s).mapLife fun l => { l with needOrder := true }

/-- POWER_STATE_SET (R748, R751, R752, R986). A stop is refused while the flash write of an update runs (assumption 11). -/
def execPowerStateSet (c : CmdRef) (s : State) : Out :=
  onCmd 0x0B05 c s fun m s =>
    let n := fld (m.w 3) 3 0
    if 3 < n then s.badWord c 3
    else match s.life.main with
    | .off =>
      if n = 3 then s.done c OK 0 [w32 3]
      else if n = 0 ∧ s.life.v12 ∧ m.isTether then
        (s.mapLife fun l => { l with needOrder := false, startKind := 2, startTick := s.time.ticks }).done c OK 0 [0]
      else s.refuse c BUSY 0x0001
    | .ready =>
      if n ≠ 0 ∧ s.anyAdmitted then s.refuseOpen c BUSY
      else if n < 3 then (enterPower n s).done c OK 0 [w32 n]
      else if s.sec.stage = 7 then s.refuseOpen c BUSY
      else orderOff ((s.raise 0x8B04 3).done c OK 0 [w32 3])
    | .starting => if n = 3 then orderOff ((s.raise 0x8B04 3).done c OK 0 [w32 3]) else s.refuse c BUSY 0x0007
    | .failed _ => if n = 3 then orderOff ((s.raise 0x8B04 3).done c OK 0 [w32 3]) else s.refuse c BUSY 0x0008
    | .recovery => s.refuse c BUSY 0x0004

/-! ### Safe stop (R672 to R675, R753 to R756) -/

/-- Every Reel output low and every entry disarmed; a pulse in progress is cut short (Table 17-7). -/
def stopReel (s : State) : State :=
  { s with reel := Tab.mapVals s.reel fun _ e => { e with pulses := [], state := if e.state = 2 then 1 else e.state, gaps := [] } }

/-- A session stops at once: its HEALTH record carries SAFE_STOP_ENTERED, and nothing else is committed (R753). -/
def stopSession (detail n : Nat) (s : State) : State :=
  if (s.sessionAt n).any (·.stopped) then s
  else
    let s := healthRecord n 0x8002 detail (Int.ofNat s.devNs) s
    settleStop n (s.updSession n fun x => { x with stopping := true, stopped := true, sets := [] })

/-- Camera and encoder power is turned off and stays off until a session binds the port again (Table 23-1, R756, R943, R978). -/
def stopSupply (p : Nat) (s : State) : State :=
  let q := s.portAt p
  if (isCamera p || isEncoder p) && q.owner.isSome && (!isCamera p || bit q.camCfg 26) then
    s.updPort p fun q =>
      { q with supplyOn := false, supplyStop := true, state := if q.supplyOn then .off else q.state, since := if q.supplyOn then s.time.ticks else q.since }
  else s

/-- What a safe stop does to the main side (Table 17-7). -/
def safeStopActions (detail : Nat) (s : State) : State :=
  let s := forEach s.sessionCtxs (stopSession detail) (stopReel s)
  let s := forEach (List.range 8) (fun n s => s.releaseContext n) s
  let s := forEach supplyPorts stopSupply s
  enterPower 1 s

/-- SAFE_STOP. The host's commands that have not committed end (R674, R888); a second one changes nothing but the claim (R672, R673). -/
def execSafeStop (c : CmdRef) (s : State) : Out :=
  onCmd 0x0C00 c s fun m s =>
    let again := s.life.safeStop
    let s := (if m.isTether then claimDomains 0x8000 s else s).commit c
    if again then s.done c OK 0x0001
    else
      let l := s.openHost.filter fun x => decide (x.ref ≠ c)
      let s := forEach l endAborted (s.mapLife fun x => { x with safeStop := true })
      let detail := (if m.isTether then 256 else 0) + min 255 l.length
      let s := if s.mainOn then safeStopActions detail s else s
      (s.raise 0x8002 detail).done c

/-- SAFE_STOP_CLEAR: the module stays in IDLE (R675, R756). -/
def execSafeStopClear (c : CmdRef) (s : State) : Out :=
  onCmd 0x0C01 c s fun m s =>
    if s.life.safeStop then ((s.mapLife fun x => { x with safeStop := false }).raise 0x8003 (if m.isTether then 256 else 0)).done c
    else s.done c

/-! ### DIAG_FAULT_INJECT (R590, Table 16-18) -/

/-- Inject into a tile: a lane check, a codeword of its store, or the tile itself. What an injected fault of a tile in no band does is not
detected by any step; its codeword counts alone (assumption 9). -/
def injectTile (target t lane : Nat) (persistent : Bool) (s : State) : State :=
  let x := s.tileAt t
  match x.band, target with
  | some b, 0 =>
    let one := fun (s : State) => s.retryStep b [(x.logical, lane)]
    if persistent then one (one (one s)) else one s
  | some b, 1 => if persistent then s.badRow b x.logical true else s.mapDep fun d => { d with corrected := d.corrected + 1 }
  | some b, _ => s.tileRepair b x.logical 3
  | none, 1 =>
    if persistent then (s.mapDep fun d => { d with uncorrectable := d.uncorrectable + 1 }).raise 0x8C05 t
    else s.mapDep fun d => { d with corrected := d.corrected + 1 }
  | none, _ => s

/-- Inject a check failure into an engine instance, or two, which take it out for good. -/
def injectEngine (kind inst : Nat) (persistent : Bool) (s : State) : State :=
  if s.inPool kind inst = false then s
  else if persistent then (s.engineFails kind inst).engineFails kind inst else s.engineFails kind inst

/-- DIAG_FAULT_INJECT. An instance is named as in the ageing ledger, kind * 16 + instance (assumption 9). -/
def execDiagFaultInject (c : CmdRef) (s : State) : Out :=
  onCmd 0x0E03 c s fun m s =>
    let target := fld (m.w 3) 3 0
    let unit := fld (m.w 3) 15 8
    let lane := fld (m.w 3) 23 16
    let p := bit (m.w 3) 24
    if m.ctx ≠ 0 then s.refuseOpen c NOT_OWNER
    else if s.sessionCtxs.any (· ≠ 0) then s.refuseOpen c BUSY
    else if target = 3 then
      (if unit % 16 < engineCount (unit / 16) then (injectEngine (unit / 16) (unit % 16) p s).done c else s.badWord c 3)
    else if 3 < target ∨ 55 < unit ∨ (target = 0 ∧ 63 < lane) then s.badWord c 3
    else (injectTile target unit lane p s).done c

end Sys2Proof.Machine
end

