-- ==== Sys2Proof/Machine/Stages.lean ====
section
/-! DEFINITION. The steps of the firmware's pipeline programs (chapters 2 and 8): depth, association, the track level with its moving objects, the
window optimisation, on-line refinement, and the records that the pair's bands place (R500). -/

namespace Sys2Proof.Machine

/-! ### Depth and association (R345 to R353) -/

/-- Whether a point or feature is removed because it falls within the extent of a confirmed moving object (R344). -/
def SessionS.hidden (x : SessionS) (o : Option Word) : Bool :=
  o.any fun id => x.objects.any fun b => b.obs.objectId == id && b.state == 1

/-- Update a frame set of a session. -/
def State.updSet (s : State) (n k : Nat) (g : FrameSet → FrameSet) : State := s.updSession n fun x => { x with sets := Tab.upd x.sets k {} g }

/-- Depth of the corners of one stream (R344 to R347). Depth completion that does not run learned has R347 as its classical stand-in. -/
def stageDepth (n k stream : Nat) (resident : Bool) (points : List ProjPoint) (s : State) : State :=
  match s.sessionAt n with
  | none => s
  | some x =>
    match Tab.get? x.sets k, (s.streamAt stream).bufOf k with
    | some f, some b =>
      if f.closed.isNone ∨ f.started ∨ !f.landed.contains stream ∨ b.contributes = false then s
      else
        let points := points.filter fun p => x.ports.contains p.port && isEthernet p.port && !x.hidden p.object
        let found := b.cornerAll.zipIdx.filterMap fun c => (cornerDepth s n stream x.fusion b points c.1).map fun d => (stream * 65536 + c.2, d)
        let ran := resident && !(x.classicalMask ||| x.unavailable).getLsbD 1
        s.updSet n k fun f => { f with depths := found.foldl (fun t d => Tab.put t d.1 d.2) f.depths, classical := f.classical || !ran }
    | _, _ => s

/-- Association of a stream (R348 to R353, R376). The descriptor stage runs learned while its weights are available and resident and no host ordered
its stand-in (R100); once it has fallen back it resumes at a keyframe only (R103). -/
def stageAssociate (n k stream : Nat) (resident : Bool) (rows : List AssocRow) (limit : Option Nat) (s : State) : State :=
  match s.sessionAt n with
  | none => s
  | some x =>
    match Tab.get? x.sets k, (s.streamAt stream).bufOf k with
    | some f, some b =>
      if f.closed.isNone ∨ f.started ∨ !f.landed.contains stream ∨ Tab.has f.assoc stream ∨ b.contributes = false then s
      else
        let first := f.assoc.isEmpty
        let cfg := if first then x.fusionNext.getD x.fusion else x.fusion
        let ran := resident && !(x.classicalMask ||| x.unavailable).getLsbD 0 && x.descLearned
        let rows := keepRows ((assocRows x stream b rows).filter fun r => ((s.mapAt x.map).liveLm r.landmark).isSome)
        let cols := assocColumns b
        let r := associate cfg.newCost (costMatrix s x cfg stream b ran rows) cols.length limit
        let pairs := r.1.map fun p => ((rows[p.1]?.map (·.landmark)).getD 0xFFFFFFFF, (cols[p.2]?.map (·.1)).getD 0)
        let f := { f with assoc := Tab.put f.assoc stream pairs, classical := f.classical || !ran,
                          learnedDesc := ran && (first || f.learnedDesc) }
        let s := s.updSession n fun x =>
          { x with fusion := cfg, fusionNext := if first then none else x.fusionNext, descLearned := x.descLearned && ran, sets := Tab.put x.sets k f }
        let free := (Tab.get? x.truncated stream).all fun t => decide (msTicks 1000 ≤ s.since t)
        if (limit.any fun l => decide (l < rows.length)) && free then
          (s.updSession n fun x => { x with truncated := Tab.put x.truncated stream s.time.ticks }).raiseCtx n 0x8603 (stream * 256 + min 255 r.2)
        else s
    | _, _ => s

/-- The submap's feature of the same kind that lies nearest, the earliest on a tie (R354). -/
def nearestFeature (l : List SubmapPoint) (p : LidarFeature) : Option LidarFeature :=
  let d (q : SubmapPoint) : Int := ((q.feature.pos.zip p.pos).map fun e => (e.1 - e.2) * (e.1 - e.2)).foldl (· + ·) 0
  ((l.filter fun q => q.feature.plane == p.plane).foldl (fun (best : Option SubmapPoint) q =>
    if best.all (fun b => decide (d q < d b)) = true then some q else best) none).map (·.feature)

/-- Edge and plane features of the latest closed sweep (R354): 8,192 at most, associated with the submap and added to it. -/
def stageLidar (n port : Nat) (features : List LidarFeature) (s : State) : State :=
  let l := Tab.getD s.lidars port {}
  match bindingOf s port, l.latest.getLast?, s.sessionAt n with
  | some (m, b), some p, some x =>
    if m ≠ n ∨ l.taken ∨ isEthernet port = false then s
    else
      let feats := (features.take 8192).filter fun f => !x.hidden f.object
      let sd := stampSd (leAt (Tab.getD (s.ctxAt n).formats (leAt b 1 1) {}).bytes 13 1 == 0)
      let due := feats.filterMap fun f => (nearestFeature x.submap f).map fun q => { factor := .lidar f.plane f.pos q.pos, stampSd := sd }
      let s := { s with lidars := Tab.put s.lidars port { l with taken := true } }
      s.updSession n fun x => { x with lidarDue := x.lidarDue ++ due, submap := x.submap ++ feats.map fun f => { valid := p.time, feature := f } }
  | _, _, _ => s

/-! ### The window optimisation (R355 to R358) -/

/-- The problem of a frame set's optimisation: what it holds is fixed when it starts (R62, R334 to R343, R354 to R357, R368). -/
def windowProblem (s : State) (n : Nat) (x : SessionS) (f : FrameSet) (cands : List (Word × Nat)) : WindowProblem :=
  let pool := x.imuRecent ++ x.samples
  let since := x.optValid.getD (Int.ofNat f.instant - Int.ofNat x.periodNs)
  let steps := x.imus.map (imuProblem s n x pool since f.valid)
  { length := x.level 3, landmarks := windowLandmarks (s.mapAt x.map) x f cands, imu := steps.flatMap (·.1), bridges := steps.flatMap (·.2),
    factors := windowFactors s n x (x.samples.filter fun e => !Tab.has x.slipSince e.key), huber := x.fusion.huber, outlier := x.fusion.outlier }

/-- A window optimisation starts (R368, R369, Table 9-6): its snapshot, its samples and its landmarks are fixed. -/
def stageStart (n k : Nat) (cands : List (Word × Nat)) (s : State) : State :=
  match s.sessionAt n with
  | none => s
  | some x =>
    match Tab.get? x.sets k with
    | none => s
    | some f =>
      if f.closed.isNone ∨ f.started ∨ f.covered ∨ f.abandoned then s
      else
        let gen := (s.mapAt x.map).gen
        let contrib := f.landed.filter fun st => (((s.streamAt st).bufOf k).map (·.contributes)).getD false
        let p := windowProblem s n x f cands
        let f := { f with started := true, mapGen := gen, revised := x.samples.any (·.late), classical := f.classical || x.classicalNow,
                          contrib := contrib, partialIn := f.partialIn || f.expected.any (fun st => !contrib.contains st),
                          oldest := oldestOf s n k f x.samples contrib, problem := p }
        (s.updSession n fun x => { x with sets := Tab.put x.sets k f, samples := [], imuRecent := keptImu x (x.imuRecent ++ x.samples) f.valid,
                                          windowLms := p.landmarks, lidarDue := [] }).updMap x.map fun m => m.openSnap gen (.stage n k)

/-- The keyframe rule (R358). -/
def makesKeyframe (x : SessionS) (m : KeyframeMeasure) : Bool :=
  x.lastKf == 0xFFFFFFFF || decide (1000000000 ≤ m.sinceLast ∨ 100 * m.observed < 60 * m.ofLast ∨ 250 ≤ m.distanceMm ∨ 1000 ≤ m.rotationCdeg)

/-- Whether a change adds an entry. -/
def addsEntry : MapChange → Bool
  | .addLandmark _ => true
  | .addKeyframe _ _ _ _ _ => true
  | .addEdge _ => true
  | .updateLandmark _ => false
  | .deleteLandmark _ => false
  | .updateKeyframe _ => false
  | .deleteKeyframe _ => false
  | .deleteEdge _ => false

/-- Whether the place embedding of a frame set ran classically (R100, R104). -/
def SessionS.signatureNow (x : SessionS) (embedded : Bool) : Bool := !embedded || (x.classicalMask ||| x.unavailable).getLsbD 2

/-- A new keyframe as the frame set makes it (Table 9-3): what the session, the window state and the stages' modes give is filled in. -/
def fillKeyframe (x : SessionS) (f : FrameSet) (w : WindowState) (embedded : Bool) (e : Keyframe) : Keyframe :=
  let flags := (e.flags &&& 0x11) ||| (if f.learnedDesc then 4 else 0) ||| (if x.signatureNow embedded then 8 else 0)
  { e with session := x.number, tValid := BitVec.ofInt 64 f.valid, pos := w.pos, quat := canonQuat w.quat, streamMask := w32 (maskOf f.streams),
           prevKf := x.lastKf, flags := flags }

/-- The status of a track in a frame set's track list. -/
def FrameSet.statusOf (f : FrameSet) (id : Word) : Option Nat := (f.tracks.find? fun t => t.trackId == id).map (·.status)

/-- A track whose observation the frame set keeps: neither lost, nor an outlier, nor on an object (R357, R361). -/
def FrameSet.keeps (f : FrameSet) (id : Word) : Bool := match f.statusOf id with | some st => decide (st < 2) | none => true

/-- A track that may become a landmark (R353, R361): it has a depth, or two views with 1° of parallax, and lies on no object. -/
def SessionS.makesLandmark (x : SessionS) (f : FrameSet) (id : Word) : Bool :=
  f.keeps id && (Tab.get? x.tracks id.toNat).any fun t => (t.hasDepth || decide (100 ≤ t.parallax)) && t.object.isNone

/-- One change that the pipeline asks for, with what no track backs taken out (R353, R357, R361); none when nothing is left of it. -/
def backed (x : SessionS) (f : FrameSet) (c : PipeChange) : Option PipeChange :=
  match c.change with
  | .addLandmark _ => if c.tracks.any (x.makesLandmark f) then some c else none
  | .addKeyframe e a v lms edges =>
    let l := (lms.zip c.tracks).filter fun p => x.makesLandmark f p.2
    some { change := .addKeyframe e a v (l.map (·.1)) edges, tracks := l.map (·.2) }
  | .updateLandmark _ => if c.tracks ≠ [] ∧ c.tracks.all (fun id => !f.keeps id) = true then none else some c
  | .deleteLandmark _ => some c
  | .updateKeyframe _ => some c
  | .deleteKeyframe _ => some c
  | .addEdge _ => some c
  | .deleteEdge _ => some c

/-- The changes of a frame set that reach the map store: what adds entries comes with a keyframe only (R358). -/
def pipelineChanges (x : SessionS) (f : FrameSet) (w : WindowState) (kf embedded : Bool) (l : List PipeChange) : List PipeChange :=
  let l := l.filterMap (backed x f)
  if kf then
    let l := l.map fun c => match c.change with
      | .addKeyframe e a b lms d => { c with change := .addKeyframe (fillKeyframe x f w embedded e) a b lms d }
      | _ => c
    if l.any fun c => match c.change with | .addKeyframe _ _ _ _ _ => true | _ => false then l
    else { change := .addKeyframe (fillKeyframe x f w embedded {}) [] [] [] [] } :: l
  else l.filter fun c => !addsEntry c.change

/-- The landmark IDs that an assigned change gives to the tracks behind it. -/
def landmarkIds : MapChange → List Word
  | .addLandmark e => [e.id]
  | .addKeyframe _ _ _ lms _ => lms.map (·.id)
  | _ => []

/-- What queueing the pipeline's changes builds up. -/
structure PipeQueue where
  m : MapS
  queued : List QueuedChange := []
  kf : Option Word := none
  /-- tracks and the landmarks that they became -/
  made : List (Word × Word) := []
  deriving DecidableEq, Repr

/-- Queue the pipeline's changes of a frame set: the ID of the first keyframe added, and the landmarks made of tracks (R353, R383, R386). -/
def queueChanges (n map : Nat) (f : FrameSet) (classical : Bool) (l : List PipeChange) (s : State) : State × Word × List (Word × Word) :=
  let r := l.foldl (fun (a : PipeQueue) c =>
    let y := a.m.assign c.change
    let kf := match c.change with | .addKeyframe _ _ _ _ _ => some y.2.2 | _ => none
    let item : QueuedChange := { op := .change y.2.1, origin := .pipeline n, valid := some (timeField f.valid), classical := classical }
    { m := y.1, queued := a.queued ++ [item],
      kf := if a.kf.isSome then a.kf else kf, made := a.made ++ c.tracks.zip (landmarkIds y.2.1) }) { m := s.mapAt map }
  ((s.updMap map fun _ => r.m).enqueue map r.queued, r.kf.getD 0xFFFFFFFF, r.made)

/-- The working band publishes the window state of a frame set (R355 to R358, R500, R799): TRACK_LIST is written, the changes go to the map. -/
def stagePublish (n k : Nat) (w : WindowState) (kf : KeyframeMeasure) (changes : List PipeChange) (embedded : Bool) (s : State) : State :=
  match s.sessionAt n with
  | none => s
  | some x =>
    match Tab.get? x.sets k with
    | none => s
    | some f =>
      if f.started = false ∨ f.published.isSome ∨ f.committed ∨ f.abandoned ∨ x.stopped then s.closeSnap (.stage n k)
      else
        let s := s.closeSnap (.stage n k)
        let w := firstPose x w
        let key := makesKeyframe x kf
        let live := Tab.has s.maps x.map && !x.withdrawn
        let q := if live then queueChanges n x.map f (f.classical || (key && x.signatureNow embedded)) (pipelineChanges x f w key embedded changes) s else (s, 0xFFFFFFFF, [])
        let s := q.1
        let made := key && live
        let len := f.problem.length
        let f := { f with published := some w, kfId := if made then q.2.1 else 0xFFFFFFFF }
        let times := if made then (x.kfTimes ++ [f.valid]).drop (x.kfTimes.length + 1 - len) else x.kfTimes.drop (x.kfTimes.length - len)
        let oldest := times.head?.getD f.valid
        let learned := made && !(x.classicalMask ||| x.unavailable).getLsbD 0
        let s := s.updSession n fun x =>
          { x with sets := Tab.put x.sets k f, optState := some w, optStateValid := f.valid, optGen := f.mapGen, optClassical := f.classical,
                   newMap := false, kfTimes := times, windowOldest := some oldest, submap := x.submap.filter (fun p => decide (oldest ≤ p.valid)),
                   descLearned := x.descLearned || learned, lastKf := if made then q.2.1 else x.lastKf,
                   tracks := q.2.2.foldl (fun t e => Tab.upd t e.1.toNat {} fun r => { r with landmark := e.2 }) x.tracks,
                   activeKfs := if made then (x.activeKfs ++ [q.2.1]).drop (x.activeKfs.length + 1 - len) else x.activeKfs.drop (x.activeKfs.length - len) }
        s.record n 1 { type := 3, tValid := f.valid, oldest := f.oldest, flags := { setFlags x f f.valid with rateChange := false, revised := false }, source := k }
          (trackBody k f.tracks x.objects)

/-! ### Tracks and moving objects (R353, R357, R359 to R362) -/

/-- One moving object after a frame set (R360). -/
def ObjTrack.next (c : FusionCfg) (o : ObjTrack) (obs : ObjectObs) : ObjTrack :=
  let sets := if 6 ≤ obs.supporting then o.sets + 1 else o.sets
  let coasting := decide (obs.supporting < 3)
  { obs := obs, sets := sets, coast := if coasting then o.coast + 1 else 0, frames := o.frames + 1,
    state := if coasting then 2 else if c.objConfirm ≤ sets then 1 else 0 }

/-- A track after a frame set's measurement, before the objects (R103, R353, R357, R359): an assigned corner makes it an observation of the row's
landmark. -/
def TrackS.next (f : FrameSet) (old : Option TrackS) (o : TrackObs) : TrackS :=
  let t := old.getD { classical := !f.learnedDesc }
  let row := o.corner.bind fun c => ((Tab.getD f.assoc o.stream []).find? fun a => a.2 == c).map (·.1)
  { t with landmark := row.getD t.landmark, stream := o.stream, flow := o.flow, frames := min 65535 (t.frames + 1),
           hasDepth := t.hasDepth || o.corner.any (fun c => Tab.has f.depths (o.stream * 65536 + c)), parallax := max t.parallax o.parallaxCdeg,
           beyond := if old.isSome && decide (f.problem.outlier < o.chi2x100) then t.beyond + 1 else 0 }

/-- Within 1 m of the features and 3σ in velocity (R359). -/
def joinNear (j : JoinMeasure) : Bool := decide (j.distanceMm ≤ 1000 ∧ j.velocityCsigma ≤ 300)

/-- The tracks of a frame set that are moving-object candidates (R359, R362). -/
def candidates (x : SessionS) (tracks : Tab TrackS) (obs : List TrackObs) : List Word :=
  if bit x.fusion.flags 0 = false ∨ 256 ≤ x.objects.length then []
  else (obs.filter fun o => !o.lost && (Tab.get? tracks o.trackId.toNat).any fun t => t.hasDepth && decide (2 ≤ t.beyond) && t.object.isNone).map (·.trackId)

/-- The objects that candidates join or found (R359, R362): pairs of track and object. -/
def joinObjects (x : SessionS) (cands : List Word) (joins : List JoinMeasure) (groups : List (Word × List JoinMeasure)) : List (Word × Word) :=
  let known := x.objects.map (·.obs.objectId)
  let joined := cands.filterMap fun c => (joins.find? fun j => j.track == c && joinNear j && known.contains j.objectId).map fun j => (c, j.objectId)
  (groups.foldl (fun (a : List (Word × Word) × List Word) g =>
    let m : List Word := ((g.2.filter fun j => joinNear j && cands.contains j.track && !(a.1.any fun p => p.1 == j.track)).map (·.track)).eraseDups
    if 6 ≤ m.length ∧ !a.2.contains g.1 ∧ a.2.length < 256 then (a.1 ++ m.map fun t => (t, g.1), a.2 ++ [g.1]) else a) (joined, known)).1

/-- The track level after the last iteration (R353, R357, R359 to R362): the frame set's track list, the tracks, and the objects. -/
def stageTracks (n k : Nat) (obs : List TrackObs) (joins : List JoinMeasure) (groups : List (Word × List JoinMeasure)) (seen : List ObjectObs)
    (s : State) : State :=
  match s.sessionAt n with
  | none => s
  | some x =>
    match Tab.get? x.sets k with
    | none => s
    | some f =>
      if f.started = false ∨ f.published.isSome ∨ f.tracks ≠ [] then s
      else
        let obs := obs.take 32768
        let idle := Tab.mapVals x.tracks fun _ t => { t with beyond := 0 }
        let t1 := obs.foldl (fun t o => Tab.put t o.trackId.toNat (TrackS.next f (Tab.get? x.tracks o.trackId.toNat) o)) idle
        let pairs := joinObjects x (candidates x t1 obs) joins groups
        let t2 := pairs.foldl (fun t p => Tab.upd t p.1.toNat {} fun r => { r with object := some p.2 }) t1
        let status (o : TrackObs) (t : TrackS) : Nat :=
          if o.lost then 2 else if (Tab.get? x.tracks o.trackId.toNat).isNone then 1 else if t.object.isSome then 4
          else if f.problem.outlier < o.chi2x100 then 3 else 0
        let list := obs.map fun o =>
          let t := Tab.getD t2 o.trackId.toNat {}
          ({ trackId := o.trackId, landmark := t.landmark, u := o.u, v := o.v, stream := o.stream, status := status o t, frames := t.frames } : TrackEntry)
        let count (id : Word) := (obs.filter fun o => !o.lost && (Tab.getD t2 o.trackId.toNat {}).object == some id).length
        let measured (id : Word) (last : ObjectObs) : ObjectObs := { (seen.find? fun b => b.objectId == id).getD last with supporting := count id }
        let kept := (x.objects.map fun o => o.next x.fusion (measured o.obs.objectId o.obs)).filter fun o => decide (o.coast < x.fusion.objCoast)
        let ids := (pairs.map (·.2)).eraseDups.filter fun id => !x.objects.any fun o => o.obs.objectId == id
        let objs := if bit x.fusion.flags 0 then kept ++ ids.map fun id => ({} : ObjTrack).next x.fusion (measured id { objectId := id }) else []
        let gone := (obs.filter (·.lost)).map (·.trackId.toNat)
        let t3 := Tab.mapVals (gone.foldl Tab.del t2) fun _ t =>
          { t with object := t.object.filter fun id => objs.any fun o => o.obs.objectId == id }
        s.updSession n fun x => { x with tracks := t3, objects := objs, sets := Tab.put x.sets k { f with tracks := list } }

/-! ### Refinement, wheels and the remaining stages -/

/-- A correction of a refined sensor is applied (R364); not while a grid of its pair waits (R332). -/
def stageRefine (n port index posUm rotUrad : Nat) (beyond : Bool) (position rotation : List Word) (s : State) : State :=
  match s.sessionAt n with
  | none => s
  | some x =>
    let key := sensorKey port index
    match Tab.get? (s.ctxAt n).inUse key with
    | none => s
    | some e =>
      let free := (Tab.get? x.refinedAt key).all fun t => decide (msTicks (1000 * x.fusion.applyPeriod) ≤ s.since t)
      let waits := (refinedPair s n port index).any fun st => (s.streamAt st).shadow.isSome
      if refinable x e port && beyond && free && !waits && decide (1000 * x.fusion.refinePos < posUm ∨ 100 * x.fusion.refineRot < rotUrad) then
        let s := s.updSession n fun x => { x with refinedAt := Tab.put x.refinedAt key s.time.ticks }
        (entryChanged n port index { e with position := position, rotation := canonQuat rotation, origin := 3 } s).raiseCtx n 0x8602 key
      else s

/-- The sensor whose sample a factor is. -/
def Factor.key : Factor → Option Nat
  | .velocity k _ _ _ _ _ => some k
  | .yawRate k _ _ => some k
  | .steering k _ _ _ => some k
  | _ => none

/-- The residual of a wheel or CAN constraint (R342): beyond WHEEL_GATE it leaves the optimisation under way; WHEEL_SLIP once for an exclusion of
1 s. A signal that is stale or an encoder in VERIFYING has no constraint (R197, R205). -/
def stageWheel (n port index chi2 : Nat) (s : State) : State :=
  match s.sessionAt n with
  | none => s
  | some x =>
    let key := sensorKey port index
    let out := (isEncoder port && (s.portAt port).verifying) || (isCan port && (Tab.getD (s.ctxAt n).canSignals (port * 32 + index) {}).stale)
    if !(isEncoder port || isCan port) ∨ out ∨ !Tab.has (s.ctxAt n).inUse key then s
    else if chi2 ≤ x.fusion.wheelGate then s.updSession n fun x => { x with slipSince := Tab.del x.slipSince key }
    else
      let s := s.updSession n fun x => { x with sets := Tab.mapVals x.sets fun _ f =>
        if f.started && f.published.isNone then
          { f with problem := { f.problem with factors := f.problem.factors.filter fun r => r.factor.key != some key } }
        else f }
      match Tab.get? x.slipSince key with
      | none => s.updSession n fun x => { x with slipSince := Tab.put x.slipSince key (2 * s.time.ticks) }
      | some t =>
        if t % 2 = 0 ∧ msTicks 1000 ≤ s.since (t / 2) then
          (s.updSession n fun x => { x with slipSince := Tab.put x.slipSince key (t + 1) }).raiseCtx n 0x8604 key
        else s

/-- The fabric writes the prediction and the hint of a point-list entry (R306). -/
def stageHint (n stream point : Nat) (du dv : BitVec 16) (hint : Byte) (s : State) : State :=
  if (s.streamAt stream).ctx = n then
    s.updStream stream fun x => { x with points := x.points.zipIdx.map fun e => if e.2 = point then { e.1 with predDu := du, predDv := dv, hint := hint } else e.1 }
  else s

/-- The fabric's readers of a frame set's buffers have ended (R181). -/
def stageRelease (n k : Nat) (s : State) : State :=
  forEach ((sessionStreams s n).map (·.1)) (fun st s =>
    settleStream st (s.updStream st fun x =>
      { x with bufs := Tab.mapVals x.bufs fun _ b => if b.state ≠ .free ∧ b.frameSet = w32 k then { b with fabricDone := true } else b })) s

/-- A lidar sweep of the context ends because the azimuth wraps (R344). -/
def stageSweep (n port : Nat) (s : State) : State :=
  if (bindingOf s port).any (fun b => b.1 == n) && !(Tab.getD s.lidars port {}).points.isEmpty then closeSweep port s else s

/-- A pair band places a record in its compare buffer and waits at the commit rendezvous (R495, R502). -/
def placeEntry (bn n : Nat) (e : CompareBuf) (s : State) : State :=
  (s.updPair n fun p => if bn = p.bandA then { p with bufA := p.bufA ++ [e] } else { p with bufB := p.bufB ++ [e] }).arrive bn (48 + n)

/-- The record that a pair band places: of an IMU0 output that is due, or of a published frame set (R500). -/
def stagePlace (bn n : Nat) (e : StageEvent) (s : State) : State :=
  match s.sessionAt n with
  | none => s
  | some x =>
    if x.stopped then s
    else match e with
    | .placeFast i pose sigs =>
      if x.fastDue.any fun d => d.1 == i then placeEntry bn n { isOpt := false, key := i, fast := pose, sigs := sigs } s else s
    | .placeOpt k sigs fault =>
      match Tab.get? x.sets k with
      | some f =>
        match f.published with
        | some w =>
          if f.committed ∨ f.abandoned then s
          else placeEntry bn n { isOpt := true, key := k, opt := w, cover := f.covered, differs := fault, sigs := sigs } s
        | none => s
      | none => s
    | _ => s

/-- What the firmware's program of a session's band does in a step. -/
def runStage (bn n : Nat) (e : StageEvent) (s : State) : State :=
  if (s.bandAt bn).isPair then stagePlace bn n e s
  else if (s.bandAt bn).role ≠ 1 then s
  else match e with
  | .depth k st resident points => stageDepth n k st resident points s
  | .associate k st resident rows limit => stageAssociate n k st resident rows limit s
  | .publish k w kf changes embedded => stagePublish n k w kf changes embedded s
  | .optimiseStart k cands => stageStart n k cands s
  | .placeFast _ _ _ => s
  | .placeOpt _ _ _ => s
  | .tracks k tracks joins groups obs => stageTracks n k tracks joins groups obs s
  | .lidarFeatures p features => stageLidar n p features s
  | .refine p i pos rot beyond position rotation => stageRefine n p i pos rot beyond position rotation s
  | .wheelGate p i chi2 => stageWheel n p i chi2 s
  | .hint st pt du dv h => stageHint n st pt du dv h s
  | .sweepWrap p => stageSweep n p s
  | .releaseBuffers k => stageRelease n k s

/-- A step of a session's band: the firmware's program is not given as columns, so what it does in the step comes with the step
(assumption 9); retries, bad rows and the charge of the step are as for any band. -/
def stageStep (bn : Nat) (io : StepIO) (s : State) : State :=
  let b := s.bandAt bn
  let n := b.tiles.length
  let failing := io.failing.filter fun u => decide (u.1 < n ∧ u.2 ≤ 64)
  let bad := io.badRows.filter fun u => decide (u.1 < n)
  let s := s.mapDep fun d => { d with corrected := d.corrected + io.corrected }
  if bad ≠ [] then forEach bad (fun u s => s.badRow bn u.1 io.rowTestFails) s
  else if failing ≠ [] then s.retryStep bn failing
  else
    let s := s.updBand bn fun b => { b with fails := [], started := true, step := b.step + 1,
                                            pool := b.pool - Int.ofNat (Config.openVal 28 (s.free * 16 + bn) % 65536) }
    let s := { s with free := s.free + 1 }
    match io.stage with
    | some e => runStage bn b.ctx e s
    | none => s

/-- BAND_STEP (R470): a band issues its next step. -/
def execBandStep (band : Nat) (io : StepIO) (s : State) : Out :=
  onTrigger (s.canStep band) s fun s => if (s.bandAt band).program then s.columnStep band io else stageStep band io s

end Sys2Proof.Machine
end

