-- ==== Sys2Proof/Machine/Startup.lean ====
section
/-! DEFINITION. Start-up, self-test, supplies and thermal protection (chapters 22 to 24). -/

namespace Sys2Proof.Machine

/-! ### The steps of a main-side start (Table 22-1) -/

/-- Step 2: without a stable REF, the islands that take it run on XO (Table 22-3, R764). -/
def startClocks (ok : Bool) (s : State) : State :=
  let s := s.updSource 0 fun _ => { present := true, stable := ok, since := s.time.ticks }
  let l := [0, 1, 2, 4]
  if ok then s
  else if s.stableSource 1 then raiseSwitched l true (switchIslands l s)
  else parkIslands l s

/-- Step 3 (R857, R810): cores that disagree leave the vote; the image that boots raises the fused SVN (R856). -/
def startCores (votes : List Bool) (s : State) : State :=
  let s := forEach ((List.range 3).filter fun i => !votes.getD i false) (fun i s =>
    let s := s.mapDep fun d => { d with voting := setAt false d.voting i false }
    s.raise 0x8C08 (i * 16 + (s.dep.voting.filter id).length)) s
  s.mapSec fun x =>
    if x.flash = [] then x
    else { x with svn := max x.svn (imageSvn x.flash), runVersion := imageVersion x.flash, runMinor := imageMinor x.flash }

/-- Step 4 (R833, Table 22-3): a torn final entry goes, a power-up is noted, records that fail their check are absent; measurements are recorded. -/
def startStore (bad : List Nat) (s : State) : State :=
  let s := s.mapAge fun a => { a with store := Tab.keep a.store (fun k _ => !bad.contains k),
                                      ledger := if a.ledger.getLast?.any (·.torn) then a.ledger.dropLast else a.ledger }
  let s := s.ledger { kind := 7 }
  s.mapSec fun x => { x with atBoot := bootBlocks s }

/-- Whether a tile has an entry of KIND 3 (R905, R989). -/
def State.ledgerRetired (s : State) (t : Nat) : Bool := s.age.ledger.any fun e => e.kind == 3 && e.subject == t

/-- A tile fails the self-test (R905). -/
def failTile (t : Nat) (s : State) : State :=
  if (s.tileAt t).state = 2 then s else (s.updTile t fun x => { x with state := 2 }).ledger { kind := 3, subject := t }

/-- A lane fails the self-test (R904). -/
def failLane (t lane : Nat) (s : State) : State :=
  let x := s.tileAt t
  if x.state = 2 ∨ 65 < lane ∨ x.retired.contains lane then s
  else if x.sparesLeft = 0 then failTile t s
  else
    let s := (s.updTile t fun y => { y with retired := y.retired ++ [lane] }).mapDep fun d => { d with retiredLanes := d.retiredLanes + 1 }
    (s.raise 0x8C00 (t * 1024 + lane)).ledger { kind := 2, subject := t, subject2 := lane }

/-- The roles of the tiles of a half: the 26 lowest that pass are in service, the others spare (R905). -/
def assignHalf (first : Nat) (s : State) : State :=
  let l := ((List.range 28).map (· + first)).filter fun t => (s.tileAt t).state != 2
  forEach (l.zip (List.range 28)) (fun e s => s.updTile e.1 fun x => { x with state := if e.2 < 26 then 0 else 1 }) s

/-- Step 6 (R899, R903 to R905): V_SET of the newest margin entry, the self-test and the roles. -/
def startTiles (lanes : List (Nat × Nat)) (fails : List Nat) (s : State) : State :=
  let v := ((s.age.ledger.filter fun e => e.kind == 1).getLast?.map (·.vSet)).getD 800
  let s := s.mapAge fun a => { a with vSet := v, vTarget := v }
  let s := forEach (List.range 56) (fun t s => if s.ledgerRetired t then s.updTile t fun x => { x with state := 2 } else s) s
  let s := forEach lanes (fun e s => if e.1 < 56 then failLane e.1 e.2 s else s) s
  let s := forEach fails (fun t s => if t < 56 then failTile t s else s) s
  let s := assignHalf 28 (assignHalf 0 s)
  if (tilesIn s 0).length < 52 then s.raise 0x8C09 2 else s

/-- Step 8 (R907): instances that fail STARTUP_SELFTEST are retired. -/
def startEngines (fails : List (Nat × Nat)) (s : State) : State :=
  forEach fails (fun e s => if s.inPool e.1 e.2 then s.retireEngine e.1 e.2 else s) s

/-- The first engine kind other than stereo with fewer than two instances (R908). -/
def shortKind (s : State) : Option Nat := [0, 1, 3, 4, 5].find? fun k => decide (s.poolSize k < 2)

/-- STARTUP_FAILED (R909, Table 22-5). -/
def startFailed (cause field : Nat) (s : State) : State := (s.mapLife fun l => { l with main := .failed cause }).raise 0x8E01 (field * 256 + cause)

/-- The cap and Ballast of R915, and the safe stop of R914. -/
def startPower (s : State) : State :=
  let own := s.tetherOwns 0x0B
  let s := s.mapPower fun p => { p with cap := if own then p.tetherCap else 75000, ballast := if own then p.tetherBallast else 50,
                                        intervalEnd := s.time.ticks / 500000 * 500000, grantTick := s.time.ticks }
  s.mapLife fun l => { l with safeStop := s.tetherOwns 0x0F, powerState := if s.tetherOwns 0x0F then 1 else 0 }

/-- Steps 4 to 8. -/
def startRest (r : StartReport) (s : State) : State :=
  let s := startTiles r.laneFails r.tileFails (startStore r.badCalib s)
  match r.hbmFail with
  | some ch => startFailed 3 ch s
  | none =>
    let s := startEngines r.engineFails s
    match shortKind s with
    | some k => startFailed 5 k s
    | none => s

/-- Steps 1 to 8 of the start. Step 3 ends at an open tick within the bounds of Table 22-1 (assumption 2, place 59). -/
def startMain (r : StartReport) (s : State) : State :=
  let fresh := !s.life.v12
  let f := (stopMain s).takeFree
  let s := f.2.mapLife fun l =>
    { l with v12 := true, needOrder := false, startTick := if fresh then s.time.ticks else l.startTick,
             startKind := if fresh then 2 else l.startKind, bootTick := s.time.ticks + Config.openVal 59 f.1 % (msTicks 93 + 1) }
  if r.railsOk = false then (s.mapLife fun l => { l with needOrder := true }).raise 0x8E01 1
  else
    let s := startClocks r.refStable (startPower (s.mapLife fun l => { l with main := .starting, imageVotes := r.imageVotes }))
    if s.sec.flashValid && decide (2 ≤ (r.imageVotes.filter id).length) then startRest r (startCores r.imageVotes s)
    else (s.mapLife fun l => { l with main := .recovery }).raiseTether 0x8D05 (if s.sec.flashValid then 1 else 0)

/-- MAIN_SIDE_START (R895): 12 V is applied, or a main-side reset has stopped the main side; after a stop that waits for an order or for 12 V to be
applied again, it comes only with one of them (R752, R966, Table 22-3). -/
def execMainSideStart (r : StartReport) (s : State) : Out :=
  onTrigger (s.life.vaux && !s.mainOn && !(s.life.v12 && s.life.needOrder) && !s.life.coldHold) s (startMain r)

/-- STARTUP_DONE (R896, R918): step 9. -/
def execStartupDone (s : State) : Out :=
  onTrigger (s.life.main == .starting && s.step3Ended) s fun s =>
    let s := raiseReset s.life.startKind (s.mapLife fun l => { l with main := .ready })
    s.raise 0x8E00 (min 65535 (s.since s.life.startTick / msTicks 1))

/-! ### Supplies -/

/-- VAUX_APPLIED (R668, R670, R892, R931, R966, Table 22-4): the power-on reset; flash, fuses and the protection controller's record stay. -/
def execVauxApplied (s : State) : Out :=
  onTrigger (!s.life.vaux) s fun s =>
    let pend := s.life.thermalPending
    let life : LifeS := { v12 := s.life.v12, vsensOk := s.life.vsensOk, reversed := s.life.reversed, perst := s.life.perst, orderCodeA := s.life.orderCodeA }
    let sec : SecS := { keptSec s.sec with atBoot := [] }
    let s : State := { pending := s.pending, outbox := s.outbox, hostMem := s.hostMem, hostBad := s.hostBad, life := life, tiles := keptTiles s.tiles,
                       dep := keptDep s.dep, age := keptAge s.age, sec := sec, epoch := s.epoch, free := s.free }
    let s := pollReversed s
    match pend with
    | some p => s.raise 0x8F04 (p.1.toNat * 256 + p.2.toNat)
    | none => s

/-- VAUX_LOW (R958, R670): the main side stops, and the tether core with it. -/
def execVauxLow (s : State) : Out :=
  onTrigger s.life.vaux s fun s =>
    { (stopMain s).mapLife fun l => { l with vaux := false } with tether := {}, cmds := [], islands := [] }

/-- MAIN_SUPPLY_OUT_OF_RANGE (R956, R916, R923): the main side stops, and a start under way is abandoned. -/
def execMainSupplyOutOfRange (high : Bool) (s : State) : Out :=
  onTrigger s.life.v12 s fun s =>
    let s := if s.mainOn then stopMain s else s
    let s := s.mapLife fun l => { l with v12 := false, coldHold := false }
    if s.life.vaux then raisePinLimited 0x8F00 (if high then 8 else 7) s else s

/-- MAIN_SUPPLY_RETURN (R956): in range for 10 ms, as an application of 12 V; the start follows. -/
def execMainSupplyReturn (s : State) : Out :=
  onTrigger (!s.life.v12) s fun s =>
    s.mapLife fun l => { l with v12 := true, needOrder := false, startKind := 2, startTick := s.time.ticks }

/-- MAIN_SUPPLY_DROPOUT (R957): carried without a stop; the Bridle answers as to a droop. -/
def execMainSupplyDropout (s : State) : Out := onTrigger (s.mainOn && s.life.v12) s (droop 1)

/-! ### Thermal protection (Table 24-6) -/

/-- What a thermal warning changes: cause 0 ends the condition of its sensor, 1 fabric hot, 2 HBM hot, 3 start held cold. -/
def thermalEffect (sensor cause : Nat) (s : State) : State :=
  match cause with
  | 0 =>
    if sensor = 0xFE then s.mapLife fun l => { l with hbmHot := false }
    else if sensor = 0xFD then s.mapLife fun l => { l with coldHold := false }
    else (s.mapLife fun l => { l with fabricHot := false }).mapPower fun p => { p with hotHold := false }
  | 1 => (s.mapLife fun l => { l with fabricHot := true }).mapPower fun p => { p with hotHold := true }
  | 2 => s.mapLife fun l => { l with hbmHot := true }
  | _ => s.mapLife fun l => { l with coldHold := true }

/-- Whether a condition can arise now: a hot part while the main side runs, a cold case while it is off. -/
def thermalApplies (s : State) (sensor cause : Nat) : Bool :=
  match cause with
  | 0 => if sensor = 0xFE then s.life.hbmHot else if sensor = 0xFD then s.life.coldHold else decide (sensor < 56) && s.life.fabricHot
  | 1 => decide (sensor < 56) && s.mainOn
  | 2 => sensor == 0xFE && s.mainOn
  | 3 => sensor == 0xFD && !s.mainOn && s.life.orderCodeA && !s.life.coldHold
  | _ => false

/-- THERMAL_WARNING (R964, R971). -/
def execThermalWarning (sensor : Byte) (cause : Nat) (s : State) : Out :=
  onTrigger (s.life.vaux && thermalApplies s sensor.toNat cause) s fun s =>
    raisePinLimited 0x8F03 (sensor.toNat * 256 + cause) (thermalEffect sensor.toNat cause s)

/-- THERMAL_SHUTDOWN (R964 to R966): the protection controller stops the main side; the tether core reports it at once, or at its next start. -/
def execThermalShutdown (sensor : Byte) (temperature : Byte) (s : State) : Out :=
  onTrigger (s.mainOn || (!s.life.vaux && s.life.v12)) s fun s =>
    if s.life.vaux then
      ((stopMain s).mapLife fun l => { l with needOrder := true }).raise 0x8F04 (sensor.toNat * 256 + temperature.toNat)
    else s.mapLife fun l => { l with thermalPending := some (sensor, temperature) }

end Sys2Proof.Machine
end

