-- ==== Sys2Proof/Machine/Dispatch.lean ====
section
/-! DEFINITION. What each command does to the state but for the queue: one arm per constructor, in the order of spec/opcode_table.json. -/

namespace Sys2Proof.Machine

def exec (i : Instr) (s : State) : Host.Outcome State Fault Refusal :=
  match i with
  | .hello c => Sys2Proof.Machine.execHello c s
  | .queryCaps c => Sys2Proof.Machine.execQueryCaps c s
  | .abort c => Sys2Proof.Machine.execAbort c s
  | .domainClaim c => Sys2Proof.Machine.execDomainClaim c s
  | .domainRelease c => Sys2Proof.Machine.execDomainRelease c s
  | .expertEnable c => Sys2Proof.Machine.execExpertEnable c s
  | .expertDisable c => Sys2Proof.Machine.execExpertDisable c s
  | .expertPolicy c => Sys2Proof.Machine.execExpertPolicy c s
  | .startSession c => Sys2Proof.Machine.execStartSession c s
  | .stopSession c => Sys2Proof.Machine.execStopSession c s
  | .setStageMode c => Sys2Proof.Machine.execSetStageMode c s
  | .sessionStatus c => Sys2Proof.Machine.execSessionStatus c s
  | .portClaim c => Sys2Proof.Machine.execPortClaim c s
  | .portRelease c => Sys2Proof.Machine.execPortRelease c s
  | .portConfig c => Sys2Proof.Machine.execPortConfig c s
  | .portStatus c => Sys2Proof.Machine.execPortStatus c s
  | .portTiming c => Sys2Proof.Machine.execPortTiming c s
  | .camI2cXfer c acked dataIn => Sys2Proof.Machine.execCamI2cXfer c acked dataIn s
  | .formatWrite c => Sys2Proof.Machine.execFormatWrite c s
  | .triggerClaim c => Sys2Proof.Machine.execTriggerClaim c s
  | .timeGet c => Sys2Proof.Machine.execTimeGet c s
  | .timeSet c => Sys2Proof.Machine.execTimeSet c s
  | .timeAdjust c => Sys2Proof.Machine.execTimeAdjust c s
  | .timeSetIncrement c => Sys2Proof.Machine.execTimeSetIncrement c s
  | .clockReset c => Sys2Proof.Machine.execClockReset c s
  | .ptpConfig c => Sys2Proof.Machine.execPtpConfig c s
  | .reelWrite c => Sys2Proof.Machine.execReelWrite c s
  | .reelArm c => Sys2Proof.Machine.execReelArm c s
  | .reelDisarm c => Sys2Proof.Machine.execReelDisarm c s
  | .reelRead c => Sys2Proof.Machine.execReelRead c s
  | .filterBind c => Sys2Proof.Machine.execFilterBind c s
  | .filterPreset c => Sys2Proof.Machine.execFilterPreset c s
  | .filterLoad c => Sys2Proof.Machine.execFilterLoad c s
  | .filterSwap c => Sys2Proof.Machine.execFilterSwap c s
  | .filterThreshold c => Sys2Proof.Machine.execFilterThreshold c s
  | .filterRead c => Sys2Proof.Machine.execFilterRead c s
  | .remapLoad c => Sys2Proof.Machine.execRemapLoad c s
  | .stereoConfig c => Sys2Proof.Machine.execStereoConfig c s
  | .chainConfig c => Sys2Proof.Machine.execChainConfig c s
  | .featureConfig c => Sys2Proof.Machine.execFeatureConfig c s
  | .descPatternLoad c => Sys2Proof.Machine.execDescPatternLoad c s
  | .quadrilleLoad c => Sys2Proof.Machine.execQuadrilleLoad c s
  | .quadrilleRun c => Sys2Proof.Machine.execQuadrilleRun c s
  | .visionRead c => Sys2Proof.Machine.execVisionRead c s
  | .rigWrite c => Sys2Proof.Machine.execRigWrite c s
  | .rigRead c => Sys2Proof.Machine.execRigRead c s
  | .fusionConfig c => Sys2Proof.Machine.execFusionConfig c s
  | .calibRead c => Sys2Proof.Machine.execCalibRead c s
  | .calibCommit c => Sys2Proof.Machine.execCalibCommit c s
  | .mapCreate c => Sys2Proof.Machine.execMapCreate c s
  | .mapDestroy c => Sys2Proof.Machine.execMapDestroy c s
  | .mapQuery c => Sys2Proof.Machine.execMapQuery c s
  | .mapEdit c => Sys2Proof.Machine.execMapEdit c s
  | .mapLend c => Sys2Proof.Machine.execMapLend c s
  | .mapRecall c => Sys2Proof.Machine.execMapRecall c s
  | .mapMerge c => Sys2Proof.Machine.execMapMerge c s
  | .mapExport c => Sys2Proof.Machine.execMapExport c s
  | .mapImport c => Sys2Proof.Machine.execMapImport c s
  | .indexCreate c => Sys2Proof.Machine.execIndexCreate c s
  | .indexDestroy c => Sys2Proof.Machine.execIndexDestroy c s
  | .searchInsert c => Sys2Proof.Machine.execSearchInsert c s
  | .searchQuery c => Sys2Proof.Machine.execSearchQuery c s
  | .contextAdmit c => Sys2Proof.Machine.execContextAdmit c s
  | .contextRelease c => Sys2Proof.Machine.execContextRelease c s
  | .contextStatus c => Sys2Proof.Machine.execContextStatus c s
  | .hostWindowSet c => Sys2Proof.Machine.execHostWindowSet c s
  | .objCreate c => Sys2Proof.Machine.execObjCreate c s
  | .objDestroy c => Sys2Proof.Machine.execObjDestroy c s
  | .objWrite c => Sys2Proof.Machine.execObjWrite c s
  | .objRead c => Sys2Proof.Machine.execObjRead c s
  | .objSeal c => Sys2Proof.Machine.execObjSeal c s
  | .objShare c => Sys2Proof.Machine.execObjShare c s
  | .objUnshare c => Sys2Proof.Machine.execObjUnshare c s
  | .objMove c => Sys2Proof.Machine.execObjMove c s
  | .objPromote c => Sys2Proof.Machine.execObjPromote c s
  | .objEvict c => Sys2Proof.Machine.execObjEvict c s
  | .objPin c => Sys2Proof.Machine.execObjPin c s
  | .objUnpin c => Sys2Proof.Machine.execObjUnpin c s
  | .windowBind c => Sys2Proof.Machine.execWindowBind c s
  | .streamBind c => Sys2Proof.Machine.execStreamBind c s
  | .objQuery c => Sys2Proof.Machine.execObjQuery c s
  | .objReload c => Sys2Proof.Machine.execObjReload c s
  | .powerCapSet c => Sys2Proof.Machine.execPowerCapSet c s
  | .energyAccountSet c => Sys2Proof.Machine.execEnergyAccountSet c s
  | .ballastSet c => Sys2Proof.Machine.execBallastSet c s
  | .worklevelLoad c => Sys2Proof.Machine.execWorklevelLoad c s
  | .vfCurveLoad c => Sys2Proof.Machine.execVfCurveLoad c s
  | .powerStateSet c => Sys2Proof.Machine.execPowerStateSet c s
  | .energyStatus c => Sys2Proof.Machine.execEnergyStatus c s
  | .safeStop c => Sys2Proof.Machine.execSafeStop c s
  | .safeStopClear c => Sys2Proof.Machine.execSafeStopClear c s
  | .healthStatus c => Sys2Proof.Machine.execHealthStatus c s
  | .marginReplan c => Sys2Proof.Machine.execMarginReplan c s
  | .ageingRead c => Sys2Proof.Machine.execAgeingRead c s
  | .eventRead c => Sys2Proof.Machine.execEventRead c s
  | .identityRead c => Sys2Proof.Machine.execIdentityRead c s
  | .fwStatus c => Sys2Proof.Machine.execFwStatus c s
  | .fwStage c => Sys2Proof.Machine.execFwStage c s
  | .fwActivate c => Sys2Proof.Machine.execFwActivate c s
  | .ownerKeyTransfer c => Sys2Proof.Machine.execOwnerKeyTransfer c s
  | .diagTileStatus c => Sys2Proof.Machine.execDiagTileStatus c s
  | .diagBandStatus c => Sys2Proof.Machine.execDiagBandStatus c s
  | .diagCounters c => Sys2Proof.Machine.execDiagCounters c s
  | .diagFaultInject c => Sys2Proof.Machine.execDiagFaultInject c s
  | .slotArm fn slot word0 placed => Sys2Proof.Machine.execSlotArm fn slot word0 placed s
  | .slotWriteLost fn slot index value => Sys2Proof.Machine.execSlotWriteLost fn slot index value s
  | .registerWrite fn offset value => Sys2Proof.Machine.execRegisterWrite fn offset value s
  | .commandStart who => Sys2Proof.Machine.execCommandStart who s
  | .commandReply c => Sys2Proof.Machine.execCommandReply c s
  | .mctpMessageReceived eid peer address khz packets => Sys2Proof.Machine.execMctpMessageReceived eid peer address khz packets s
  | .setEndpointId force eid => Sys2Proof.Machine.execSetEndpointId force eid s
  | .getEndpointId src => Sys2Proof.Machine.execGetEndpointId src s
  | .getMctpVersionSupport src msgType => Sys2Proof.Machine.execGetMctpVersionSupport src msgType s
  | .getMessageTypeSupport src => Sys2Proof.Machine.execGetMessageTypeSupport src s
  | .getVendorDefinedMessageSupport src selector => Sys2Proof.Machine.execGetVendorDefinedMessageSupport src selector s
  | .getVersion via => Sys2Proof.Machine.execGetVersion via s
  | .getCapabilities via => Sys2Proof.Machine.execGetCapabilities via s
  | .negotiateAlgorithms via baseAsym baseHash measHash measSpec => Sys2Proof.Machine.execNegotiateAlgorithms via baseAsym baseHash measHash measSpec s
  | .getDigests via => Sys2Proof.Machine.execGetDigests via s
  | .getCertificate via slot offset length => Sys2Proof.Machine.execGetCertificate via slot offset length s
  | .challenge via slot nonce summary => Sys2Proof.Machine.execChallenge via slot nonce summary s
  | .getMeasurements via index signed nonce => Sys2Proof.Machine.execGetMeasurements via index signed nonce s
  | .pcieConfigRequest fn reg write => Sys2Proof.Machine.execPcieConfigRequest fn reg write s
  | .perstAssert => Sys2Proof.Machine.execPerstAssert s
  | .perstDeassert => Sys2Proof.Machine.execPerstDeassert s
  | .functionReset fn kind => Sys2Proof.Machine.execFunctionReset fn kind s
  | .vauxApplied => Sys2Proof.Machine.execVauxApplied s
  | .vauxLow => Sys2Proof.Machine.execVauxLow s
  | .mainSideStart r => Sys2Proof.Machine.execMainSideStart r s
  | .startupDone => Sys2Proof.Machine.execStartupDone s
  | .mainSupplyOutOfRange high => Sys2Proof.Machine.execMainSupplyOutOfRange high s
  | .mainSupplyReturn => Sys2Proof.Machine.execMainSupplyReturn s
  | .mainSupplyDropout => Sys2Proof.Machine.execMainSupplyDropout s
  | .inputReversed input => Sys2Proof.Machine.execInputReversed input s
  | .supplyFlagPoll => Sys2Proof.Machine.execSupplyFlagPoll s
  | .vsensOutOfRange high => Sys2Proof.Machine.execVsensOutOfRange high s
  | .vsensBackInRange => Sys2Proof.Machine.execVsensBackInRange s
  | .supplyOvercurrent port => Sys2Proof.Machine.execSupplyOvercurrent port s
  | .supplyShort port => Sys2Proof.Machine.execSupplyShort port s
  | .supplyOpenLoad port => Sys2Proof.Machine.execSupplyOpenLoad port s
  | .supplyBackFeed port => Sys2Proof.Machine.execSupplyBackFeed port s
  | .tripCountClear port => Sys2Proof.Machine.execTripCountClear port s
  | .outputCompare output pin => Sys2Proof.Machine.execOutputCompare output pin s
  | .outputRestoreTry output pin => Sys2Proof.Machine.execOutputRestoreTry output pin s
  | .lineHeldLow line => Sys2Proof.Machine.execLineHeldLow line s
  | .dphyLineStuck port pin => Sys2Proof.Machine.execDphyLineStuck port pin s
  | .encoderLineOpen port pin => Sys2Proof.Machine.execEncoderLineOpen port pin s
  | .canLineOpen port pin => Sys2Proof.Machine.execCanLineOpen port pin s
  | .canPairSwapped port => Sys2Proof.Machine.execCanPairSwapped port s
  | .thermalWarning sensor cause => Sys2Proof.Machine.execThermalWarning sensor cause s
  | .thermalShutdown sensor temperature => Sys2Proof.Machine.execThermalShutdown sensor temperature s
  | .timebaseTick => Sys2Proof.Machine.execTimebaseTick s
  | .imu0Sample raw delivered => Sys2Proof.Machine.execImu0Sample raw delivered s
  | .ppsInEdge => Sys2Proof.Machine.execPpsInEdge s
  | .ppsOutRise => Sys2Proof.Machine.execPpsOutRise s
  | .ppsOutFall => Sys2Proof.Machine.execPpsOutFall s
  | .reelPulseRise entry => Sys2Proof.Machine.execReelPulseRise entry s
  | .reelPulseFall entry => Sys2Proof.Machine.execReelPulseFall entry s
  | .ptpSyncReceived port gm clockClass offset udp => Sys2Proof.Machine.execPtpSyncReceived port gm clockClass offset udp s
  | .ptpMessageReceived port kind udp => Sys2Proof.Machine.execPtpMessageReceived port kind udp s
  | .ptpMessageSent port kind udp => Sys2Proof.Machine.execPtpMessageSent port kind udp s
  | .syncTimeout => Sys2Proof.Machine.execSyncTimeout s
  | .arpIcmpRequest port icmp target => Sys2Proof.Machine.execArpIcmpRequest port icmp target s
  | .clockSourceLost source => Sys2Proof.Machine.execClockSourceLost source s
  | .clockSourceStable source => Sys2Proof.Machine.execClockSourceStable source s
  | .clockSourceReturn island => Sys2Proof.Machine.execClockSourceReturn island s
  | .pllLockLost island => Sys2Proof.Machine.execPllLockLost island s
  | .islandResume island => Sys2Proof.Machine.execIslandResume island s
  | .voltageTransition island => Sys2Proof.Machine.execVoltageTransition island s
  | .sensorDetected port => Sys2Proof.Machine.execSensorDetected port s
  | .detectTimeout port => Sys2Proof.Machine.execDetectTimeout port s
  | .retryPeriod port => Sys2Proof.Machine.execRetryPeriod port s
  | .trainingDone port lp10 sync47 offset => Sys2Proof.Machine.execTrainingDone port lp10 sync47 offset s
  | .trainingTimeout port => Sys2Proof.Machine.execTrainingTimeout port s
  | .portStall port => Sys2Proof.Machine.execPortStall port s
  | .frameStart port vc headerErrors => Sys2Proof.Machine.execFrameStart port vc headerErrors s
  | .stripLanded stream lines headerErrors => Sys2Proof.Machine.execStripLanded stream lines headerErrors s
  | .frameEnd stream lines embedded headerErrors bad => Sys2Proof.Machine.execFrameEnd stream lines embedded headerErrors bad s
  | .closeDeadline ctx => Sys2Proof.Machine.execCloseDeadline ctx s
  | .lidarPacket port source udpPort tags payload => Sys2Proof.Machine.execLidarPacket port source udpPort tags payload s
  | .lidarSweepTimeout port => Sys2Proof.Machine.execLidarSweepTimeout port s
  | .imuBurst port ok burst => Sys2Proof.Machine.execImuBurst port ok burst s
  | .canFrame port id brs error payload => Sys2Proof.Machine.execCanFrame port id brs error payload s
  | .canSignalStale port signal => Sys2Proof.Machine.execCanSignalStale port signal s
  | .encoderStandstill port => Sys2Proof.Machine.execEncoderStandstill port s
  | .encoderVerifyWindow port agree disagree => Sys2Proof.Machine.execEncoderVerifyWindow port agree disagree s
  | .filterInputSample channel => Sys2Proof.Machine.execFilterInputSample channel s
  | .remapCellRow stream row inst checkFails => Sys2Proof.Machine.execRemapCellRow stream row inst checkFails s
  | .pyramidRow stream level row inst checkFails => Sys2Proof.Machine.execPyramidRow stream level row inst checkFails s
  | .stereoStrip ctx pair strip checkFails => Sys2Proof.Machine.execStereoStrip ctx pair strip checkFails s
  | .cornerCellRow stream row inst checkFails => Sys2Proof.Machine.execCornerCellRow stream row inst checkFails s
  | .descriptorUnit stream corner inst checkFails => Sys2Proof.Machine.execDescriptorUnit stream corner inst checkFails s
  | .flowPoint stream point inst checkFails => Sys2Proof.Machine.execFlowPoint stream point inst checkFails s
  | .featureBlockDone stream => Sys2Proof.Machine.execFeatureBlockDone stream s
  | .engineRecoveryGraph kind inst passed => Sys2Proof.Machine.execEngineRecoveryGraph kind inst passed s
  | .quadrilleNode node output checkFails => Sys2Proof.Machine.execQuadrilleNode node output checkFails s
  | .bandStep band io => Sys2Proof.Machine.execBandStep band io s
  | .moveComplete band tile flag => Sys2Proof.Machine.execMoveComplete band tile flag s
  | .codePageLoaded band page failed => Sys2Proof.Machine.execCodePageLoaded band page failed s
  | .rendezvousComplete rv => Sys2Proof.Machine.execRendezvousComplete rv s
  | .streamLayerResident ctx stream tile => Sys2Proof.Machine.execStreamLayerResident ctx stream tile s
  | .fabricRendezvousLate band => Sys2Proof.Machine.execFabricRendezvousLate band s
  | .pairCommit ctx refNearerSecond => Sys2Proof.Machine.execPairCommit ctx refNearerSecond s
  | .carrierDeadline ctx => Sys2Proof.Machine.execCarrierDeadline ctx s
  | .degradedRecord ctx pose => Sys2Proof.Machine.execDegradedRecord ctx pose s
  | .poseCoverDeadline ctx frameSet propagated => Sys2Proof.Machine.execPoseCoverDeadline ctx frameSet propagated s
  | .stepTimeout band tile => Sys2Proof.Machine.execStepTimeout band tile s
  | .laneSubstitutionDone tile => Sys2Proof.Machine.execLaneSubstitutionDone tile s
  | .tileRepairDone tile => Sys2Proof.Machine.execTileRepairDone tile s
  | .checkpointRollback band => Sys2Proof.Machine.execCheckpointRollback band s
  | .patrolRead place result => Sys2Proof.Machine.execPatrolRead place result s
  | .hbmRowRetired channel region row pprFree => Sys2Proof.Machine.execHbmRowRetired channel region row pprFree s
  | .stewardFault core => Sys2Proof.Machine.execStewardFault core s
  | .stewardRejoin core => Sys2Proof.Machine.execStewardRejoin core s
  | .granuleMove result retryFails => Sys2Proof.Machine.execGranuleMove result retryFails s
  | .copyGranuleFree obj tier => Sys2Proof.Machine.execCopyGranuleFree obj tier s
  | .objectRestreamed obj tier granule homeReadFails => Sys2Proof.Machine.execObjectRestreamed obj tier granule homeReadFails s
  | .heldRecordExpiry => Sys2Proof.Machine.execHeldRecordExpiry s
  | .mapCommit map => Sys2Proof.Machine.execMapCommit map s
  | .tombstoneFree map => Sys2Proof.Machine.execTombstoneFree map s
  | .generationSweep map => Sys2Proof.Machine.execGenerationSweep map s
  | .mapDeltaWrite ctx => Sys2Proof.Machine.execMapDeltaWrite ctx s
  | .loopQueryIssue ctx kf vector => Sys2Proof.Machine.execLoopQueryIssue ctx kf vector s
  | .loopVerify ctx verdict => Sys2Proof.Machine.execLoopVerify ctx verdict s
  | .searchScan badPages => Sys2Proof.Machine.execSearchScan badPages s
  | .searchPassEnd query => Sys2Proof.Machine.execSearchPassEnd query s
  | .planningIntervalEnd r => Sys2Proof.Machine.execPlanningIntervalEnd r s
  | .energyHorizonPassed => Sys2Proof.Machine.execEnergyHorizonPassed s
  | .bridleGrantPeriod draws unmeteredMw => Sys2Proof.Machine.execBridleGrantPeriod draws unmeteredMw s
  | .powerDroop mask => Sys2Proof.Machine.execPowerDroop mask s
  | .droopRecovery => Sys2Proof.Machine.execDroopRecovery s
  | .autoIdle => Sys2Proof.Machine.execAutoIdle s
  | .marginReplanDaily => Sys2Proof.Machine.execMarginReplanDaily s
  | .marginReplanned r => Sys2Proof.Machine.execMarginReplanned r s
  | .healthPeriod ctx => Sys2Proof.Machine.execHealthPeriod ctx s
  | .eventHealthRecord => Sys2Proof.Machine.execEventHealthRecord s
  | .fwCoreRebootDone core => Sys2Proof.Machine.execFwCoreRebootDone core s
  | .fwSwitchPoint => Sys2Proof.Machine.execFwSwitchPoint s
  | .fwBandSwap band => Sys2Proof.Machine.execFwBandSwap band s
  | .fwFlashVerified => Sys2Proof.Machine.execFwFlashVerified s
  | .fwUpdateRolledBack => Sys2Proof.Machine.execFwUpdateRolledBack s
  | .recoveryWriteDone ok => Sys2Proof.Machine.execRecoveryWriteDone ok s
  | .quadratureEdge port lineB level pulseNs => Sys2Proof.Machine.execQuadratureEdge port lineB level pulseNs s
  | .hostLinkDown => Sys2Proof.Machine.execHostLinkDown s
  | .hostLinkUp => Sys2Proof.Machine.execHostLinkUp s

end Sys2Proof.Machine
end

