-- ==== Sys2Proof/Safety.lean ====
section
/-! DEFINITION. What counts as a safe run, and the words in which the statements speak of a command: started, begun, ended. -/

namespace Sys2Proof.Machine

/-- Host memory is in its canonical form: addresses strictly rising, nothing listed that an unlisted address already reads as. -/
def memoryWf (s : State) : Bool := Tab.canonical (0 : Byte) s.hostMem

/-- Command `c` is outstanding as `m`: started (R654), of this opcode, and nothing of it has come about yet. -/
abbrev State.runs (s : State) (c : CmdRef) (op : Nat) (m : Cmd) : Prop :=
  s.findCmd c = some m ∧ m.phase = .running ∧ m.opcode = op ∧ m.begun = false

/-- `s` with command `c` marked as begun: the state in which its effect takes place. -/
def State.began (s : State) (c : CmdRef) : State := s.updCmd c fun x => { x with begun := true }

/-- The reply with which a command has ended, before its carrier has written it (R642). -/
def State.replyOf (s : State) (c : CmdRef) : Option Reply :=
  match s.findCmd c with
  | some m => if m.phase = .ended then m.reply else none
  | none => none

/-- The DETAIL-free part of a reply: status, DETAIL and body. -/
def Reply.is (r : Reply) (status detail : Nat) (body : List Word) : Prop :=
  r.status = BitVec.ofNat 16 status ∧ r.detail = BitVec.ofNat 16 detail ∧ r.body = body

/-- Command `c` has ended in `t` with this status, DETAIL and body. -/
def State.answered (t : State) (c : CmdRef) (status detail : Nat) (body : List Word) : Prop :=
  ∃ r, t.replyOf c = some r ∧ r.is status detail body

/-- Every outstanding command but `c` is in `t` as it was in `s`. -/
def otherCmds (s t : State) (c : CmdRef) : Prop := ∀ d, d ≠ c → t.findCmd d = s.findCmd d

/-- Buffer `k` of stream `n` holds `b`, or is free because every reader of `b` has ended with it (R181). -/
def State.bufHolds (t : State) (n k : Nat) (b : FrameBuf) : Prop :=
  Tab.get? (t.streamAt n).bufs k = some b ∨ (b.finished (!t.inPool 2 0) = true ∧ (Tab.getD (t.streamAt n).bufs k {}).state = .free)

end Sys2Proof.Machine
end

