-- ==== Sys2Proof/Certificates/Slice0/Obligations.lean ====
section
/-! DEFINITION. The statements for the provers, family by family in the order of the opcode table. -/

open Sys2Proof Sys2Proof.Machine

/-- For every command and state, a step of the state with that command at the front of its queue is the command's execution on the
state with the queue's rest; with an empty queue a step leaves the state as it is (the idle step is the model's own choice,
assumption 19). -/
def Obligations.FrontCommandRuns : Prop :=
  (∀ (i : Instr) (s : State), Sys2Proof.Machine.step { s with pending := i :: s.pending } = exec i s) ∧
  (∀ s : State, s.pending = [] → Sys2Proof.Machine.step s = .next s)

/-- Ending an outstanding command with a status of class done stores one reply with that status, DETAIL and body, whose COMMIT_TIME
is the device time unless the command had committed before; a refusal stores COMMIT_TIME zero. Both leave every other command
and every other part of the state as they are. -/
def Obligations.CommandEndsWithOneReply : Prop :=
  (∀ (s : State) (c : CmdRef) (m : Cmd) (status detail : Nat) (body : List Word) (out : List Byte), s.findCmd c = some m →
    (s.done c status detail body out).answered c status detail body ∧
    (∀ r, (s.done c status detail body out).replyOf c = some r → r.commitTime = if m.committed then m.commitTime else s.devTime) ∧
    otherCmds s (s.done c status detail body out) c ∧
    s.done c status detail body out = { s with cmds := (s.done c status detail body out).cmds }) ∧
  (∀ (s : State) (c : CmdRef) (m : Cmd) (status detail : Nat), s.findCmd c = some m →
    (s.refuse c status detail).answered c status detail [] ∧
    (∀ r, (s.refuse c status detail).replyOf c = some r → r.commitTime = 0) ∧
    otherCmds s (s.refuse c status detail) c ∧
    s.refuse c status detail = { s with cmds := (s.refuse c status detail).cmds })

/-- START_SESSION on a context with no admission, with valid fields and bindings, a map that may serve the profile and everything
reserved, begins a session of that profile, map and rate, answers its number, bands, channels and map generation, and leaves
every other context, the store and the clocks as they were. With an admission already it is BUSY, with a map that does not exist
it is BAD_PARAM, and with a reservation that fails it is NO_RESERVATION with nothing reserved. STOP_SESSION naming another
number is BAD_PARAM; with a frame set still unsettled it waits; with none, and no record held, it ends the session and answers
OK while the ports keep their claims. SET_STAGE_MODE merges CLASSICAL under MASK, and a return to learned with the weights
unavailable is WEIGHTS_UNAVAILABLE. -/
def Obligations.SessionsStartStopAndChangeMode : Prop :=
  (∀ (s : State) (c : CmdRef) (m : Cmd) (r : StartReq) (b : List Byte) (l : List Bind), s.runs c 0x0100 m → m.ref = c → startFields m = .inr r →
    l = (List.range (b.length / 16)).map (fun i => Bind.ofBytes (slice b (16 * i) 16)) →
    ((s.ctxAt m.ctx).admitted = true → exec (.startSession c) s = .next ((s.began c).refuseOpen c BUSY)) ∧
    ((s.ctxAt m.ctx).admitted = false → m.sgTotal 23 % 16 = 0 → sgIn m 23 s = .bytes b →
      (Tab.get? s.maps r.map = none → exec (.startSession c) s = .next ((s.began c).badWord c 7)) ∧
      (∀ mp, Tab.get? s.maps r.map = some mp → mp.withdrawn = false → mapServes mp m.ctx r.profile = true →
        ((l.findSome? fun b => (bindBad s m.ctx r b).orElse fun _ => entryBad s m.ctx b).orElse fun _ => listBad s m.ctx r l) = none →
        (admitSession s m.ctx r mp l = none → exec (.startSession c) s = .next ((s.began c).refuseOpen c NO_RESERVATION)) ∧
        ((admitSession s m.ctx r mp l).isSome = true →
          ∃ t x, exec (.startSession c) s = .next t ∧ t.sessionAt m.ctx = some x ∧ x.profile = r.profile ∧ x.map = r.map ∧ x.stopping = false ∧
            x.rings = r.rings ∧ x.healthMs = r.health ∧ t.answered c OK 0 (startBody t m.ctx) ∧
            (∀ k, k ≠ m.ctx → t.ctxAt k = s.ctxAt k) ∧ t.hostMem = s.hostMem ∧ t.time = s.time ∧ t.age = s.age ∧ t.sec = s.sec ∧ t.dep = s.dep ∧
            otherCmds s t c)))) ∧
  (∀ (s : State) (c : CmdRef) (m : Cmd) (x : SessionS), s.runs c 0x0101 m → s.sessionAt m.ctx = some x →
    (x.number.toNat ≠ fld (m.w 3) 15 0 → exec (.stopSession c) s = .next ((s.began c).badWord c 3)) ∧
    (x.number.toNat = fld (m.w 3) 15 0 → (∃ f ∈ x.sets, f.2.committed = false ∧ f.2.abandoned = false) →
      ∃ t, exec (.stopSession c) s = .next t ∧ t.sessionAt m.ctx = some { x with stopping := true, stopCmds := x.stopCmds ++ [c] } ∧
        (∀ k, k ≠ m.ctx → t.ctxAt k = s.ctxAt k) ∧ otherCmds s t c ∧ t = { s with cmds := t.cmds, ctxs := t.ctxs }) ∧
    (x.number.toNat = fld (m.w 3) 15 0 → (∀ f ∈ x.sets, f.2.committed = true ∨ f.2.abandoned = true) → x.stopped = false → x.stopCmds = [] →
      (∀ h ∈ s.held, h.ctx ≠ m.ctx) → x.channels = [] →
      ∃ t, exec (.stopSession c) s = .next t ∧ t.sessionAt m.ctx = none ∧ t.answered c OK 0 [] ∧
        (∀ p, (t.portAt p).owner = (s.portAt p).owner) ∧ (∀ e ∈ t.streams, e.2.ctx ≠ m.ctx) ∧ otherCmds s t c ∧
        t.hostMem = s.hostMem ∧ t.held = s.held ∧ t.time = s.time ∧ t.age = s.age ∧ t.sec = s.sec)) ∧
  (∀ (s : State) (c : CmdRef) (m : Cmd) (x : SessionS), s.runs c 0x0102 m → s.sessionAt m.ctx = some x → x.stopping = false →
    x.number.toNat = fld (m.w 3) 15 0 →
    (((m.w 4).setWidth 3 &&& ~~~((m.w 5).setWidth 3) &&& x.unavailable : BitVec 3) ≠ 0 →
      exec (.setStageMode c) s = .next ((s.began c).refuseOpen c WEIGHTS_UNAVAILABLE)) ∧
    (((m.w 4).setWidth 3 &&& ~~~((m.w 5).setWidth 3) &&& x.unavailable : BitVec 3) = 0 →
      ∃ t y, exec (.setStageMode c) s = .next t ∧ t.answered c OK 0 [] ∧ t.sessionAt m.ctx = some y ∧
        (∀ i, i < 3 → y.classicalMask.getLsbD i = if (m.w 4).getLsbD i then (m.w 5).getLsbD i else x.classicalMask.getLsbD i) ∧
        y = { x with classicalMask := y.classicalMask, descLearned := y.descLearned } ∧
        (y.descLearned = true ↔ x.descLearned = true ∧ ¬ ((m.w 4).getLsbD 0 = true ∧ (m.w 5).getLsbD 0 = true)) ∧
        (∀ k, k ≠ m.ctx → t.ctxAt k = s.ctxAt k) ∧ otherCmds s t c ∧ t = { s with cmds := t.cmds, ctxs := t.ctxs }))

/-- HEALTH_PERIOD, once the session's period has passed, commits a HEALTH record of no event, valid at the period's end, under the
health ring's next SEQ, advances the period and restarts the worst latency. With the link up the record's cells and the ring
head are written to host memory; with the link down host memory is unchanged and the record is held. EVENT_HEALTH_RECORD takes
the oldest waiting event; with no session nothing else changes, and a session of a context outside its mask is unchanged.
HELD_RECORD_EXPIRY discards the oldest record held for 4 ms while the link is down and counts it. -/
def Obligations.HealthRecordsAreWrittenOrHeld : Prop :=
  (∀ (s : State) (n : Nat) (x : SessionS) (b : List Byte), s.sessionAt n = some x → x.stopped = false →
    msTicks x.healthMs ≤ s.since x.healthLast → (x.rings.getD 3 {}).seq ≠ 0xFFFFFFFF →
    b = recBytes { type := 6, tValid := Int.ofNat s.devNs - 2 * Int.ofNat (s.since x.healthLast - msTicks x.healthMs), oldest := Int.ofNat s.devNs } (x.rings.getD 3 {}).seq s.devNs n x.number (healthBody s n 0 0) →
    ∃ t y, exec (.healthPeriod n) s = .next t ∧ t.sessionAt n = some y ∧ y.healthLast = x.healthLast + msTicks x.healthMs ∧ y.worstLatency = 0 ∧
      y.linkDropped = 0 ∧ (y.rings.getD 3 {}).seq = (x.rings.getD 3 {}).seq + 1 ∧ (y.rings.getD 3 {}).lastSeq = (x.rings.getD 3 {}).seq ∧
      (∀ k, k ≠ n → t.ctxAt k = s.ctxAt k) ∧
      (s.life.linkUp = false → t.held = s.held ++ [{ ctx := n, ring := 3, tick := s.time.ticks, bytes := b }] ∧
        t = { s with ctxs := t.ctxs, held := t.held }) ∧
      (s.life.linkUp = true → (x.rings.getD 3 {}).cell + b.length / 64 ≤ (x.rings.getD 3 {}).cells →
        t.hostMem = writeHost (writeHost s.hostMem ((x.rings.getD 3 {}).base + 64 * (x.rings.getD 3 {}).cell) b) (x.rings.getD 3 {}).base
          (slice b 4 4 ++ leBytes 4 (x.rings.getD 3 {}).cell ++ slice b 16 8 ++ zeros 48) ∧
        (y.rings.getD 3 {}).cell = (x.rings.getD 3 {}).cell + b.length / 64 ∧ t = { s with ctxs := t.ctxs, hostMem := t.hostMem })) ∧
  (∀ (s : State) (e : Event) (l : List Event), s.events = e :: l →
    (s.sessionCtxs = [] → exec .eventHealthRecord s = .next { s with events := l }) ∧
    (∃ t k, exec .eventHealthRecord s = .next t ∧ t.events = l ++ k ∧
      (∀ n, bit (e.mask.setWidth 32) n = false → t.ctxAt n = s.ctxAt n) ∧
      t = { s with ctxs := t.ctxs, events := t.events, tether := t.tether, hostMem := t.hostMem, held := t.held, fns := t.fns, outbox := t.outbox })) ∧
  (∀ (s : State) (h : HeldRec) (l : List HeldRec) (x : SessionS), s.held = h :: l → s.life.linkUp = false → msTicks 4 ≤ s.since h.tick →
    s.sessionAt h.ctx = some x → x.stopping = false →
    ∃ t, exec .heldRecordExpiry s = .next t ∧ t.held = l ∧ t.sessionAt h.ctx = some { x with linkDropped := x.linkDropped + 1 } ∧
      (∀ k, k ≠ h.ctx → t.ctxAt k = s.ctxAt k) ∧ t = { s with ctxs := t.ctxs, held := t.held })

/-- INCREMENT takes the values from 0x01_FFBE_76C9 to 0x02_0041_8937 and a TIME_SET_INCREMENT or CLOCK_RESET outside them is refused
with BAD_PARAM; while a source is enabled TIME_SET (of a valid time), TIME_ADJUST and TIME_SET_INCREMENT (of a valid INCREMENT)
are refused with BUSY; with no source a TIME_SET or TIME_ADJUST whose step exceeds JUMP_LIMIT in magnitude is refused with
TIME_JUMP_REFUSED. A refusal changes nothing but the command itself, so device time and INCREMENT are unchanged. (The order of
the range check before the BUSY of R125 is the model's choice, assumption 18.) -/
def Obligations.TimeCommandsRefusedBySourceRangeAndLimit : Prop :=
  (∀ (s : State) (c : CmdRef) (m : Cmd), s.runs c 0x0303 m →
    (m.w 3).toNat + 2 ^ 32 * fld (m.w 4) 7 0 < 0x01FFBE76C9 ∨ 0x0200418937 < (m.w 3).toNat + 2 ^ 32 * fld (m.w 4) 7 0 →
    ∃ t r, exec (.timeSetIncrement c) s = .next t ∧ t.replyOf c = some r ∧ r.status = BitVec.ofNat 16 BAD_PARAM ∧ otherCmds s t c ∧
      t = { s with cmds := t.cmds }) ∧
  (∀ (s : State) (c : CmdRef) (m : Cmd), s.runs c 0x0304 m → bit (m.w 3) 0 = false → (m.w 4).toNat < 1000000000 → (m.w 6).toNat < 0x10000 →
    (m.w 7).toNat + 2 ^ 32 * fld (m.w 8) 7 0 < 0x01FFBE76C9 ∨ 0x0200418937 < (m.w 7).toNat + 2 ^ 32 * fld (m.w 8) 7 0 →
    ∃ t r, exec (.clockReset c) s = .next t ∧ t.replyOf c = some r ∧ r.status = BitVec.ofNat 16 BAD_PARAM ∧ otherCmds s t c ∧
      t = { s with cmds := t.cmds }) ∧
  (∀ (s : State) (c : CmdRef) (m : Cmd), s.time.source ≠ 0 →
    (s.runs c 0x0301 m → (m.w 3).toNat < 1000000000 → (m.w 5).toNat < 0x10000 →
      exec (.timeSet c) s = .next ((s.began c).refuseOpen c BUSY)) ∧
    (s.runs c 0x0302 m → exec (.timeAdjust c) s = .next ((s.began c).refuseOpen c BUSY)) ∧
    (s.runs c 0x0303 m → 0x01FFBE76C9 ≤ (m.w 3).toNat + 2 ^ 32 * fld (m.w 4) 7 0 →
      (m.w 3).toNat + 2 ^ 32 * fld (m.w 4) 7 0 ≤ 0x0200418937 →
      exec (.timeSetIncrement c) s = .next ((s.began c).refuseOpen c BUSY))) ∧
  (∀ (s : State) (c : CmdRef) (m : Cmd), s.time.source = 0 →
    (s.runs c 0x0301 m → (m.w 3).toNat < 1000000000 → (m.w 5).toNat < 0x10000 →
      s.time.jumpLimitUs * 1000 < (Int.ofNat (((m.w 4).toNat + 2 ^ 32 * (m.w 5).toNat) * 1000000000 + (m.w 3).toNat) - Int.ofNat s.devNs).natAbs →
      exec (.timeSet c) s = .next ((s.began c).refuseOpen c TIME_JUMP_REFUSED)) ∧
    (s.runs c 0x0302 m → s.time.jumpLimitUs * 1000 < (sext 64 ((m.w 3).toNat + 2 ^ 32 * (m.w 4).toNat)).natAbs →
      exec (.timeAdjust c) s = .next ((s.began c).refuseOpen c TIME_JUMP_REFUSED))) ∧
  (∀ (s : State) (c : CmdRef) (m : Cmd), s.runs c 0x0303 m → s.time.source = 0 →
    0x01FFBE76C9 ≤ (m.w 3).toNat + 2 ^ 32 * fld (m.w 4) 7 0 → (m.w 3).toNat + 2 ^ 32 * fld (m.w 4) 7 0 ≤ 0x0200418937 →
    ∃ t, exec (.timeSetIncrement c) s = .next t ∧ t.answered c OK 0 [] ∧
      t.time.inc = BitVec.ofNat 40 ((m.w 3).toNat + 2 ^ 32 * fld (m.w 4) 7 0) ∧ t.devNs = s.devNs ∧ otherCmds s t c ∧
      t = { s with cmds := t.cmds, time := { s.time with inc := t.time.inc, estimate := t.time.estimate } })

/-- With no source, a forward step within JUMP_LIMIT by TIME_ADJUST moves device time by the step (away from its wrap), and TIME_SET
to a later time within the limit leaves that time; both leave INCREMENT and the ticks as they are. CLOCK_RESET with no session
disarms every armed entry, zeroes every FIRED, changes no pulse in progress and answers the number disarmed; MODE 0 sets the
time and INCREMENT given, MODE 1 leaves both. PTP_CONFIG with valid fields stores them; a first source leads from FREE to
ACQUIRING, no source leads to FREE. -/
def Obligations.TimeStepsAndClockReset : Prop :=
  (∀ (s : State) (c : CmdRef) (m : Cmd), s.runs c 0x0302 m → s.time.source = 0 → s.time.nanos.toNat < 1000000000 →
    (m.w 4 = 0 ∧ (m.w 3).toNat ≤ s.time.jumpLimitUs * 1000) → s.devNs + (m.w 3).toNat < 2 ^ 48 * 1000000000 →
    ∃ t, exec (.timeAdjust c) s = .next t ∧ t.answered c OK 0 [] ∧ t.devNs = s.devNs + (m.w 3).toNat ∧ t.time.inc = s.time.inc ∧
      t.time.ticks = s.time.ticks ∧ otherCmds s t c ∧
      t = { s with cmds := t.cmds, time := t.time, reel := t.reel, events := t.events, tether := t.tether }) ∧
  (∀ (s : State) (c : CmdRef) (m : Cmd), s.runs c 0x0301 m → s.time.source = 0 → (m.w 3).toNat < 1000000000 → (m.w 5).toNat < 0x10000 →
    s.devNs < ((m.w 4).toNat + 2 ^ 32 * (m.w 5).toNat) * 1000000000 + (m.w 3).toNat →
    ((m.w 4).toNat + 2 ^ 32 * (m.w 5).toNat) * 1000000000 + (m.w 3).toNat ≤ s.devNs + s.time.jumpLimitUs * 1000 →
    ∃ t, exec (.timeSet c) s = .next t ∧ t.answered c OK 0 [] ∧
      t.devNs = ((m.w 4).toNat + 2 ^ 32 * (m.w 5).toNat) * 1000000000 + (m.w 3).toNat ∧ t.time.inc = s.time.inc ∧ otherCmds s t c ∧
      t = { s with cmds := t.cmds, time := t.time, reel := t.reel, events := t.events, tether := t.tether }) ∧
  (∀ (s : State) (c : CmdRef) (m : Cmd), s.runs c 0x0304 m → s.anySession = false → bit (m.w 3) 0 = false ∧ (m.w 4).toNat < 1000000000 ∧
      (m.w 6).toNat < 0x10000 ∧ 0x01FFBE76C9 ≤ (m.w 7).toNat + 2 ^ 32 * fld (m.w 8) 7 0 ∧ (m.w 7).toNat + 2 ^ 32 * fld (m.w 8) 7 0 ≤ 0x0200418937 →
    ∃ t, exec (.clockReset c) s = .next t ∧ t.answered c OK 0 [w32 (s.reel.filter fun e => e.2.state == 2).length] ∧
      t.devNs = ((m.w 5).toNat + 2 ^ 32 * (m.w 6).toNat) * 1000000000 + (m.w 4).toNat ∧
      t.time.inc = BitVec.ofNat 40 ((m.w 7).toNat + 2 ^ 32 * fld (m.w 8) 7 0) ∧
      t.time.state = (if s.time.source = 0 then .free else .acquiring) ∧
      (∀ e ∈ t.reel, e.2.state ≠ 2 ∧ e.2.fired = 0) ∧ t.reel.map (fun e => (e.1, e.2.pulses)) = s.reel.map (fun e => (e.1, e.2.pulses)) ∧
      otherCmds s t c ∧ t = { s with cmds := t.cmds, time := t.time, reel := t.reel, events := t.events, tether := t.tether }) ∧
  (∀ (s : State) (c : CmdRef) (m : Cmd), s.runs c 0x0304 m → s.anySession = false → bit (m.w 3) 0 = true →
    ∃ t, exec (.clockReset c) s = .next t ∧ t.answered c OK 0 [w32 (s.reel.filter fun e => e.2.state == 2).length] ∧
      t.devNs = s.devNs ∧ t.time.inc = s.time.inc ∧ t.time.forceInitial = true ∧ (∀ e ∈ t.reel, e.2.state ≠ 2 ∧ e.2.fired = 0) ∧
      t.reel.map (fun e => (e.1, e.2.pulses)) = s.reel.map (fun e => (e.1, e.2.pulses)) ∧ otherCmds s t c ∧
      t = { s with cmds := t.cmds, time := t.time, reel := t.reel, events := t.events, tether := t.tether }) ∧
  (∀ (s : State) (c : CmdRef) (m : Cmd) (roles : List Nat) (j p : Nat), s.runs c 0x0305 m → ptpParams m = .inr (roles, j, p) →
    ∃ t, exec (.ptpConfig c) s = .next t ∧ t.answered c OK 0 [] ∧ t.time.source = fld (m.w 3) 1 0 ∧
      t.time.roles = (List.range 4).map (fun i => fld (m.w 4) (2 * i + 1) (2 * i)) ∧
      t.time.jumpLimitUs = (if (m.w 6).toNat = 0 then 1000 else (m.w 6).toNat) ∧
      t.time.ppsWidthUs = (if (m.w 7).toNat = 0 then 100000 else (m.w 7).toNat) ∧ t.devNs = s.devNs ∧
      (fld (m.w 3) 1 0 = 0 → t.time.state = .free ∧
        t.time.inc = (match s.time.state with | .free => s.time.inc | .holdover => s.time.lockedInc | _ => s.time.estimate.getD s.time.inc)) ∧
      (fld (m.w 3) 1 0 ≠ 0 → t.time.inc = s.time.inc ∧ t.time.state = (if s.time.state = .free then .acquiring else s.time.state)) ∧
      otherCmds s t c ∧ t = { s with cmds := t.cmds, time := t.time })

/-- For the cells of Table 3-8: REEL_WRITE of a valid entry for a target the sender holds writes a free or own written entry and is
BUSY on an armed or another context's; REEL_ARM arms an own written entry whose START is not too soon, leaves an own armed one
as it is with OK, is BUSY on another's and BAD_PARAM on a free one; REEL_DISARM returns an own armed entry to written, keeps its
pulses, and with FREE frees it; TRIGGER_CLAIM of TRG12 to TRG19 or an IMU sync takes a target that none or the sender holds, and
its release gives back one the sender holds without an entry for it. Nothing else changes. -/
def Obligations.ReelCommandsByStateOfTheEntry : Prop :=
  (∀ (s : State) (c : CmdRef) (m : Cmd), s.runs c 0x0306 m → fld (m.w 3) 7 0 < 64 →
    ((m.w 6).toNat % 2 = 0 ∧ ((m.w 6).toNat = 0 → (m.w 8).toNat = 1) ∧ ((m.w 6).toNat ≠ 0 → 100 ≤ (m.w 6).toNat) ∧ (m.w 7).toNat % 2 = 0 ∧
      2 ≤ (m.w 7).toNat ∧ ((m.w 6).toNat ≠ 0 → (m.w 7).toNat < (m.w 6).toNat) ∧ fld (m.w 9) 7 0 ≤ 21) →
    targetHolder s (fld (m.w 9) 7 0) = some m.ctx →
    (((s.reelAt (fld (m.w 3) 7 0)).state = 0 ∨ ((s.reelAt (fld (m.w 3) 7 0)).state = 1 ∧ (s.reelAt (fld (m.w 3) 7 0)).owner = m.ctx)) →
      ∃ t, exec (.reelWrite c) s = .next t ∧ t.answered c OK 0 [w32 (fld (m.w 3) 7 0)] ∧
        (let e := t.reelAt (fld (m.w 3) 7 0)
         e.start = m.w 5 ++ m.w 4 ∧ e.period = m.w 6 ∧ e.width = m.w 7 ∧ e.count = m.w 8 ∧ e.target.toNat = fld (m.w 9) 7 0 ∧
         e.control.toNat = fld (m.w 9) 8 8 ∧ e.owner = m.ctx ∧ e.state = 1) ∧
        (∀ k, k ≠ fld (m.w 3) 7 0 → t.reelAt k = s.reelAt k) ∧ otherCmds s t c ∧ t = { s with cmds := t.cmds, reel := t.reel }) ∧
    ((s.reelAt (fld (m.w 3) 7 0)).state = 2 ∨ ((s.reelAt (fld (m.w 3) 7 0)).state = 1 ∧ (s.reelAt (fld (m.w 3) 7 0)).owner ≠ m.ctx) →
      exec (.reelWrite c) s = .next ((s.began c).refuseOpen c BUSY))) ∧
  (∀ (s : State) (c : CmdRef) (m : Cmd), s.runs c 0x0307 m →
    (let n := fld (m.w 3) 5 0
     let e := s.reelAt n
     (e.state = 0 → exec (.reelArm c) s = .next ((s.began c).badWord c 3)) ∧
     (e.state ≠ 0 → e.owner ≠ m.ctx → exec (.reelArm c) s = .next ((s.began c).refuseOpen c BUSY)) ∧
     (e.state = 2 → e.owner = m.ctx → exec (.reelArm c) s = .next ((s.began c).done c)) ∧
     (e.state = 1 → e.owner = m.ctx → s.devNs + 10000 ≤ e.start.toNat →
      ∃ t, exec (.reelArm c) s = .next t ∧ t.answered c OK 0 [] ∧
        t.reelAt n = { e with state := 2, fired := 0, nextPulse := 0, gaps := [] } ∧
        (∀ k, k ≠ n → t.reelAt k = s.reelAt k) ∧ otherCmds s t c ∧ t = { s with cmds := t.cmds, reel := t.reel }))) ∧
  (∀ (s : State) (c : CmdRef) (m : Cmd), s.runs c 0x0308 m →
    (let n := fld (m.w 3) 5 0
     let e := s.reelAt n
     (e.state = 0 → exec (.reelDisarm c) s = .next ((s.began c).badWord c 3)) ∧
     (e.state ≠ 0 → e.owner ≠ m.ctx → exec (.reelDisarm c) s = .next ((s.began c).refuseOpen c BUSY)) ∧
     (e.state ≠ 0 → e.owner = m.ctx → ∃ t, exec (.reelDisarm c) s = .next t ∧ t.answered c OK 0 [] ∧
        (t.reelAt n).state = (if bit (m.w 3) 8 then 0 else 1) ∧ (t.reelAt n).pulses = e.pulses ∧
        (t.reelAt n).owner = (if bit (m.w 3) 8 then 0xFF else m.ctx) ∧
        (∀ k, k ≠ n → t.reelAt k = s.reelAt k) ∧ otherCmds s t c ∧ t = { s with cmds := t.cmds, reel := t.reel }))) ∧
  (∀ (s : State) (c : CmdRef) (m : Cmd), s.runs c 0x0207 m →
    (let n := fld (m.w 3) 7 0
     (12 ≤ n → n ≤ 21 → bit (m.w 3) 8 = false → Tab.get? s.targets n = none ∨ Tab.get? s.targets n = some m.ctx →
       exec (.triggerClaim c) s = .next ({ s.began c with targets := Tab.put s.targets n m.ctx }.done c)) ∧
     (12 ≤ n → n ≤ 21 → bit (m.w 3) 8 = true → Tab.get? s.targets n = some m.ctx → hasEntryFor s m.ctx n = false →
       exec (.triggerClaim c) s = .next ({ s.began c with targets := Tab.del s.targets n }.done c)) ∧
     (12 ≤ n → n ≤ 21 → (∃ k, Tab.get? s.targets n = some k ∧ k ≠ m.ctx) →
       exec (.triggerClaim c) s = .next ((s.began c).refuseOpen c BUSY))))

/-- A tick with VAUX counts one tick; while the timebase clock runs the accumulator with its fraction grows by INCREMENT (short of
SECONDS' wrap), while its source is lost device time holds. PPS_OUT rises when a tick has reached a whole second later than the
last one marked, and falls after PPS_WIDTH of ticks. The next pulse of an armed entry rises once device time has reached its
instant and PERIOD / 2 ticks have passed since the previous rise: FIRED counts it and the output is high until WIDTH / 2 ticks
later. -/
def Obligations.TicksPpsAndReelPulses : Prop :=
  (∀ s : State, s.life.vaux = true → s.mainOn = true → s.time.held = false → s.time.nanos.toNat < 1000000000 → s.time.inc.toNat < 0x0300000000 →
    s.time.seconds.toNat + 1 < 2 ^ 48 →
    ∃ t, exec .timebaseTick s = .next t ∧ t.time.ticks = s.time.ticks + 1 ∧
      t.devNs * 2 ^ 32 + t.time.frac.toNat = s.devNs * 2 ^ 32 + s.time.frac.toNat + s.time.inc.toNat ∧ t.time.nanos.toNat < 1000000000 ∧
      t.time.imu0Due = decide (s.time.imuCount + 1 = 78125) ∧ t.time.inc = s.time.inc ∧ t.time.state = s.time.state ∧
      t = { s with time := t.time, age := t.age }) ∧
  (∀ s : State, s.life.vaux = true → s.time.held = true → s.mainOn = true →
    ∃ t, exec .timebaseTick s = .next t ∧ t.time.ticks = s.time.ticks + 1 ∧ t.devNs = s.devNs ∧ t = { s with time := t.time, age := t.age }) ∧
  (∀ s : State, s.time.ppsDue = true → s.time.ppsHigh = false → (∀ m, s.time.ppsMarked = some m → m < s.time.seconds.toNat) →
    exec .ppsOutRise s = .next (s.mapTime fun x =>
      { x with ppsHigh := true, ppsRise := x.ticks, ppsMarked := some x.seconds.toNat, ppsDue := false })) ∧
  (∀ s : State, s.time.ppsHigh = true → s.time.ppsWidthUs * 500 ≤ s.time.ticks - s.time.ppsRise →
    exec .ppsOutFall s = .next (s.mapTime fun x => { x with ppsHigh := false })) ∧
  (∀ (s : State) (n : Nat), n < 64 → s.mainOn = true → s.time.held = false → (s.reelAt n).state = 2 →
    ((s.reelAt n).count = 0 ∨ (s.reelAt n).nextPulse < (s.reelAt n).count.toNat) →
    (s.reelAt n).start.toNat + (s.reelAt n).nextPulse * (s.reelAt n).period.toNat ≤ s.devNs →
    (∀ k, (s.reelAt n).lastRise = some k → (s.reelAt n).period.toNat / 2 ≤ s.time.ticks - k) → bit (s.reelAt n).control 0 = false →
    ∃ t, exec (.reelPulseRise n) s = .next t ∧ (t.reelAt n).fired = (s.reelAt n).fired + 1 ∧ (t.reelAt n).lastInstant = s.devNs ∧
      (t.reelAt n).pulses = (s.reelAt n).pulses ++ [((s.reelAt n).target.toNat, s.time.ticks + (s.reelAt n).width.toNat / 2)] ∧
      (s.reelAt n).nextPulse < (t.reelAt n).nextPulse ∧ (t.reelAt n).state = 2 ∧
      (∀ k, k ≠ n → t.reelAt k = s.reelAt k) ∧ t = { s with reel := t.reel }) ∧
  (∀ (s : State) (n : Nat), (∃ p ∈ (s.reelAt n).pulses, p.2 ≤ s.time.ticks) →
    exec (.reelPulseFall n) s = .next (s.updReel n fun e => { e with pulses := e.pulses.filter fun p => decide (s.time.ticks < p.2) }))

/-- A PPS_IN edge with no PPS source is stamped with device time and nothing else changes. A Sync on the SLAVE port of a PTP source
renews the time of the last Sync, names its grandmaster and stamps the port; in ACQUIRING past the first offset, an offset below
50 µs that completes 16 good intervals declares LOCKED with TIME_LOCKED. With PTP enabled, 3 s without Sync in ACQUIRING or
LOCKED leads to HOLDOVER with cause 1. With another source a Sync is stamped only. A received event message of the profile gets
a firmware stamp; a MASTER port's Sync is stamped and its Follow_Up carries that stamp; its Announce carries the clockClass of
the time state. ARP and ICMP echo are answered for the port's own address. Stamps and estimates are free values; the INCREMENT
of a HOLDOVER before any lock is the model's choice (assumption 3). -/
def Obligations.PtpServoAndNetworkTime : Prop :=
  (∀ s : State, s.mainOn = true → s.time.held = false → s.time.source < 2 →
    exec .ppsInEdge s = .next (s.mapTime fun x => { x with ppsInStamp := some s.devNs })) ∧
  (∀ (s : State) (port : Nat) (gm : BitVec 64) (cls : Nat) (offset : Int) (udp : Bool), ptpAlive port udp s = true → s.time.held = false →
    s.time.roles.getD port 0 = 1 → s.time.source = 1 →
    ∃ t, exec (.ptpSyncReceived port gm cls offset udp) s = .next t ∧ t.time.lastSync = s.time.ticks ∧ t.time.gm = some gm ∧ t.time.gmClass = cls ∧
      t.time.filtered = offset ∧ Tab.has t.time.ptpStamps (stampKey port .sync false) = true ∧
      (s.time.gm = some gm → s.time.state = .acquiring → s.time.first = false → s.time.goodCount = 15 → offset.natAbs < 50000 →
        offset.natAbs ≤ s.time.jumpLimitUs * 1000 → t.time.state = .locked ∧ (∃ e, t.events = s.events ++ [e] ∧ e.code = 0x8300)) ∧
      t = { s with time := t.time, reel := t.reel, events := t.events, tether := t.tether, free := t.free }) ∧
  (∀ (s : State) (port : Nat) (gm : BitVec 64) (cls : Nat) (offset : Int) (udp : Bool), ptpAlive port udp s = true →
    s.time.roles.getD port 0 = 1 → s.time.source = 0 ∨ s.time.source = 3 →
    ∃ t, exec (.ptpSyncReceived port gm cls offset udp) s = .next t ∧ Tab.has t.time.ptpStamps (stampKey port .sync false) = true ∧
      t = { s with time := { s.time with ptpStamps := t.time.ptpStamps }, free := s.free + 1 }) ∧
  (∀ s : State, s.mainOn = true → s.time.source = 1 ∨ s.time.source = 2 → s.time.state = .acquiring ∨ s.time.state = .locked →
    1500000000 ≤ s.time.ticks - s.time.lastSync →
    ∃ t, exec .syncTimeout s = .next t ∧ t.time.state = .holdover ∧
      (∃ e, t.events = s.events ++ [e] ∧ e.code = 0x8301 ∧ e.detail = 1) ∧ (s.time.everLocked = true → t.time.inc = s.time.lockedInc) ∧
      (s.time.everLocked = false → t.time.inc = s.time.estimate.getD s.time.inc) ∧
      t.devNs = s.devNs ∧ t = { s with time := t.time, events := t.events, tether := t.tether }) ∧
  (∀ (s : State) (port : Nat) (udp : Bool), ptpAlive port udp s = true → s.time.roles.getD port 0 = 2 → s.time.dot1as = false →
    ∃ t, exec (.ptpMessageReceived port .delayReq udp) s = .next t ∧ Tab.has t.time.ptpStamps (stampKey port .delayReq false) = true ∧ t.devNs = s.devNs ∧
      t = { s with time := { s.time with ptpStamps := t.time.ptpStamps }, free := s.free + 1 }) ∧
  (∀ (s : State) (port : Nat) (udp : Bool), ptpAlive port udp s = true → s.time.roles.getD port 0 = 2 →
    ∃ t, exec (.ptpMessageSent port .sync udp) s = .next t ∧ t.outbox = .ethernet port 8 (t.ptpStamp port .sync true) :: s.outbox ∧
      exec (.ptpMessageSent port .followUp udp) t = .next (t.send (.ethernet port 3 (t.ptpStamp port .sync true))) ∧
      t = { s with time := { s.time with ptpStamps := t.time.ptpStamps }, outbox := t.outbox, free := s.free + 1 }) ∧
  (∀ (s : State) (port cls : Nat) (gm : BitVec 64) (udp : Bool), ptpAlive port udp s = true → s.time.roles.getD port 0 = 2 →
    exec (.ptpMessageSent port (.announce cls gm) udp) s = .next (s.send (.ethernet port 0
      (match s.time.state with
        | .locked => if s.time.traceable then 6 else 248
        | .holdover => if s.time.traceable then 7 else 248
        | _ => 248)))) ∧
  (∀ (s : State) (port : Nat) (icmp : Bool), s.mainOn = true → port < 4 →
    s.time.roles.getD port 0 ≠ 0 ∨ ((s.portAt (16 + port)).owner ≠ none ∧ (s.portAt (16 + port)).state ≠ .off) →
    (s.portAt (16 + port)).state ≠ .fault ∨ (s.portAt (16 + port)).reason ≠ 4 → (s.portAt (16 + port)).ipv4 ≠ 0 →
    exec (.arpIcmpRequest port icmp (s.portAt (16 + port)).ipv4) s = .next (s.send (.ethernet port (if icmp then 7 else 6) (s.portAt (16 + port)).ipv4.toNat)))

/-- PORT_CLAIM takes an unclaimed port and leads it to DETECTING, answers OK without effect on an own claim and BUSY on another's;
PORT_RELEASE leads an own unbound port with no Reel entry on its trigger to OFF and keeps its settings, and an unclaimed one is
answered OK with no effect; PORT_CONFIG of a camera port that may be set, with a lane count, rate and I2C speed in range, stores
CAM_PORT_CFG; PORT_TIMING stores its three limits with their defaults; CAM_I2C_XFER of an own port that is not OFF sends one
transfer and ends OK, or OK_PARTIAL with the bytes transferred after a NACK. -/
def Obligations.PortCommandsByClaimAndState : Prop :=
  (∀ (s : State) (c : CmdRef) (m : Cmd), s.runs c 0x0200 m → isPort (fld (m.w 3) 7 0) = true →
    ((s.portAt (fld (m.w 3) 7 0)).owner = none →
      ∃ t, exec (.portClaim c) s = .next t ∧ t.answered c OK 0 [] ∧ (t.portAt (fld (m.w 3) 7 0)).owner = some m.ctx ∧
        (t.portAt (fld (m.w 3) 7 0)).state = .detecting ∧ (t.portAt (fld (m.w 3) 7 0)).camCfg = (s.portAt (fld (m.w 3) 7 0)).camCfg ∧
        (∀ k, k ≠ fld (m.w 3) 7 0 → t.portAt k = s.portAt k) ∧ otherCmds s t c ∧ t = { s with cmds := t.cmds, ports := t.ports }) ∧
    ((s.portAt (fld (m.w 3) 7 0)).owner = some m.ctx → exec (.portClaim c) s = .next ((s.began c).done c)) ∧
    (∀ k, (s.portAt (fld (m.w 3) 7 0)).owner = some k → k ≠ m.ctx → exec (.portClaim c) s = .next ((s.began c).refuseOpen c BUSY))) ∧
  (∀ (s : State) (c : CmdRef) (m : Cmd), s.runs c 0x0201 m → isPort (fld (m.w 3) 7 0) = true →
    ((s.portAt (fld (m.w 3) 7 0)).owner = some m.ctx → (s.portAt (fld (m.w 3) 7 0)).bound = false →
      (isCamera (fld (m.w 3) 7 0) = true → hasEntryFor s m.ctx (fld (m.w 3) 7 0) = false) →
      ∃ t, exec (.portRelease c) s = .next t ∧ t.answered c OK 0 [] ∧ (t.portAt (fld (m.w 3) 7 0)).owner = none ∧
        (t.portAt (fld (m.w 3) 7 0)).state = .off ∧ (t.portAt (fld (m.w 3) 7 0)).supplyOn = false ∧
        (t.portAt (fld (m.w 3) 7 0)).camCfg = (s.portAt (fld (m.w 3) 7 0)).camCfg ∧
        (∀ k, k ≠ fld (m.w 3) 7 0 → t.portAt k = s.portAt k) ∧ otherCmds s t c ∧ t = { s with cmds := t.cmds, ports := t.ports }) ∧
    ((s.portAt (fld (m.w 3) 7 0)).owner = none → exec (.portRelease c) s = .next ((s.began c).done c)) ∧
    ((s.portAt (fld (m.w 3) 7 0)).owner = some m.ctx → (s.portAt (fld (m.w 3) 7 0)).bound = true →
      exec (.portRelease c) s = .next ((s.began c).refuseOpen c BUSY))) ∧
  (∀ (s : State) (c : CmdRef) (m : Cmd), s.runs c 0x0202 m → isCamera (fld (m.w 3) 7 0) = true →
    ((s.portAt (fld (m.w 3) 7 0)).owner = some m.ctx ∧ (s.portAt (fld (m.w 3) 7 0)).state ≠ .streaming) ∨
      ((s.portAt (fld (m.w 3) 7 0)).owner = none ∧ m.ctx = 0) →
    fld (m.w 4) 9 8 ≠ 2 → 8 ≤ fld (m.w 4) 7 0 → fld (m.w 4) 7 0 ≤ 0xFA → fld (m.w 4) 28 27 ≠ 3 →
    ∃ t, exec (.portConfig c) s = .next t ∧ t.answered c OK 0 [] ∧ (t.portAt (fld (m.w 3) 7 0)).camCfg = (m.w 4 &&& 0x1FFF83FF) ∧
      (t.portAt (fld (m.w 3) 7 0)).latched = false ∧ (t.portAt (fld (m.w 3) 7 0)).owner = (s.portAt (fld (m.w 3) 7 0)).owner ∧
      (t.portAt (fld (m.w 3) 7 0)).state = (s.portAt (fld (m.w 3) 7 0)).state ∧
      (∀ k, k ≠ fld (m.w 3) 7 0 → t.portAt k = s.portAt k) ∧ otherCmds s t c ∧
      t = { s with cmds := t.cmds, ports := t.ports, islands := t.islands }) ∧
  (∀ (s : State) (c : CmdRef) (m : Cmd), s.runs c 0x0204 m → isPort (fld (m.w 3) 7 0) = true → fld (m.w 3) 7 0 ≠ 32 →
    ((s.portAt (fld (m.w 3) 7 0)).owner = some m.ctx ∧ (s.portAt (fld (m.w 3) 7 0)).state ≠ .streaming) ∨
      ((s.portAt (fld (m.w 3) 7 0)).owner = none ∧ m.ctx = 0) →
    (m.w 4 = 0 ∨ (10 ≤ (m.w 4).toNat ∧ (m.w 4).toNat ≤ 60000)) → (m.w 5 = 0 ∨ (100 ≤ (m.w 5).toNat ∧ (m.w 5).toNat ≤ 60000)) →
    (m.w 6 = 0 ∨ (100 ≤ (m.w 6).toNat ∧ (m.w 6).toNat ≤ 30000)) →
    ∃ t, exec (.portTiming c) s = .next t ∧ t.answered c OK 0 [] ∧
      t.portAt (fld (m.w 3) 7 0) = { s.portAt (fld (m.w 3) 7 0) with
        detectMs := if m.w 4 = 0 then none else some (m.w 4).toNat, retryMs := if m.w 5 = 0 then 1000 else (m.w 5).toNat,
        trigUs := if m.w 6 = 0 then 5000 else (m.w 6).toNat } ∧
      (∀ k, k ≠ fld (m.w 3) 7 0 → t.portAt k = s.portAt k) ∧ otherCmds s t c ∧ t = { s with cmds := t.cmds, ports := t.ports }) ∧
  (∀ (s : State) (c : CmdRef) (m : Cmd) (acked : Nat) (dataIn : List Byte), s.runs c 0x0205 m → isCamera (fld (m.w 3) 7 0) = true →
    fld (m.w 4) 6 0 ≤ 64 → fld (m.w 4) 14 8 ≤ 64 → (s.portAt (fld (m.w 3) 7 0)).state ≠ .off →
    (s.portAt (fld (m.w 3) 7 0)).owner = some m.ctx →
    ∃ t body bytes, exec (.camI2cXfer c acked dataIn) s = .next t ∧
      t.outbox = .i2c (fld (m.w 3) 7 0) (fld (m.w 3) 14 8) bytes :: s.outbox ∧
      (fld (m.w 4) 6 0 + fld (m.w 4) 14 8 ≤ acked → t.answered c OK 0 body) ∧
      (acked < fld (m.w 4) 6 0 + fld (m.w 4) 14 8 → t.answered c OK_PARTIAL acked body) ∧ otherCmds s t c ∧
      t = { s with cmds := t.cmds, outbox := t.outbox }) ∧
  (∀ (s : State) (c : CmdRef) (m : Cmd), fld (m.w 3) 7 0 = 32 →
    (s.runs c 0x0202 m → exec (.portConfig c) s = .next ((s.began c).refuse c BAD_PARAM 0x0103)) ∧
    (s.runs c 0x0204 m → exec (.portTiming c) s = .next ((s.began c).refuse c BAD_PARAM 0x0103)))

/-- A sensor found leads a camera port from DETECTING to TRAINING and any other to IDLE, or to STREAMING when a session binds it;
DETECT_TIMEOUT leads to FAULT with reason 1, or 4 after an open load; RETRY_PERIOD leads a claimed port whose supply is not
latched from FAULT to DETECTING; TRAINING_DONE leads to IDLE or STREAMING and with POL_AUTO keeps the polarity found: of an
enabled data lane by its LP-10 entry or its sync byte 0x47, of the clock lane where every enabled lane shows the offset; a bound
camera without a valid frame for 4 frame periods leads to FAULT with reason 3, and a STREAMING port that gets nothing for its
limit to FAULT with reason 2. Every entry to FAULT raises PORT_STATE; no other port changes. -/
def Obligations.PortsMoveThroughTable4_2 : Prop :=
  (∀ (s : State) (p : Nat), isCamera p = true → (s.portAt p).state = .detecting → (s.portAt p).faultSignal = false →
    ∃ t, exec (.sensorDetected p) s = .next t ∧ (t.portAt p).state = .training ∧ (t.portAt p).owner = (s.portAt p).owner ∧
      (∀ k, k ≠ p → t.portAt k = s.portAt k) ∧ t = { s with ports := t.ports }) ∧
  (∀ (s : State) (p : Nat), isPort p = true → isCamera p = false → (s.portAt p).state = .detecting → (s.portAt p).faultSignal = false →
    ∃ t, exec (.sensorDetected p) s = .next t ∧ (t.portAt p).state = (if (s.portAt p).bound then .streaming else .idle) ∧
      (∀ k, k ≠ p → t.portAt k = s.portAt k) ∧ t = { s with ports := t.ports, events := t.events, tether := t.tether }) ∧
  (∀ (s : State) (p : Nat), isPort p = true → p ≠ 32 → (s.portAt p).state = .detecting →
    detectMsOf s p * 500000 ≤ s.time.ticks - (s.portAt p).since →
    ∃ t, exec (.detectTimeout p) s = .next t ∧ (t.portAt p).state = .fault ∧
      (t.portAt p).reason = (if (s.portAt p).openLoad then 4 else 1) ∧ (t.portAt p).bound = (s.portAt p).bound ∧
      (∃ e, t.events = s.events ++ [e] ∧ e.code = 0x8200) ∧ (∀ k, k ≠ p → t.portAt k = s.portAt k ∧ Tab.get? t.lidars k = Tab.get? s.lidars k) ∧
      t = { s with ports := t.ports, filters := t.filters, lidars := t.lidars, events := t.events, tether := t.tether }) ∧
  (∀ (s : State) (p : Nat), isPort p = true → (s.portAt p).state = .fault → (s.portAt p).owner.isSome = true → (s.portAt p).latched = false →
    ((s.portAt p).retries + 1) * (s.portAt p).retryMs * 500000 ≤ s.time.ticks - (s.portAt p).since → s.life.vsensOk = true →
    ∃ t, exec (.retryPeriod p) s = .next t ∧ (t.portAt p).state = .detecting ∧ (t.portAt p).owner = (s.portAt p).owner ∧
      (t.portAt p).supplyOn = supplyWanted s p ∧ (∀ k, k ≠ p → t.portAt k = s.portAt k) ∧ t = { s with ports := t.ports }) ∧
  (∀ (s : State) (p : Nat) (lp10 sync47 offset : BitVec 4) (pol : BitVec 5), isCamera p = true → (s.portAt p).state = .training →
    pol = polarityFound (s.portAt p).camCfg lp10 sync47 offset →
    (∀ i, i < dataLanes (s.portAt p).camCfg → pol.getLsbD i = (lp10.getLsbD i || sync47.getLsbD i)) ∧
    (pol.getLsbD 4 = true ↔ ∀ i, i < dataLanes (s.portAt p).camCfg → offset.getLsbD i = true) ∧
    ∃ t, exec (.trainingDone p lp10 sync47 offset) s = .next t ∧ (t.portAt p).state = (if (s.portAt p).bound then .streaming else .idle) ∧
      fld (t.portAt p).camCfg 20 16 = (if bit (s.portAt p).camCfg 15 then pol.toNat else fld (s.portAt p).camCfg 20 16) ∧
      (∀ k, k ≠ p → t.portAt k = s.portAt k) ∧ t = { s with ports := t.ports, events := t.events, tether := t.tether }) ∧
  (∀ (s : State) (p : Nat), isCamera p = true → (s.portAt p).state = .training → (s.portAt p).bound = true →
    4 * portFrameNs s p ≤ 2 * (s.time.ticks - max (s.portAt p).boundAt (s.portAt p).since) →
    ∃ t, exec (.trainingTimeout p) s = .next t ∧ (t.portAt p).state = .fault ∧ (t.portAt p).reason = 3 ∧ (t.portAt p).bound = true ∧
      (∃ e, t.events = s.events ++ [e] ∧ e.code = 0x8200) ∧ (∀ k, k ≠ p → t.portAt k = s.portAt k ∧ Tab.get? t.lidars k = Tab.get? s.lidars k) ∧
      t = { s with ports := t.ports, filters := t.filters, lidars := t.lidars, events := t.events, tether := t.tether }) ∧
  (∀ (s : State) (p n : Nat), (s.portAt p).state = .streaming → stallNs s p = some n → n ≤ 2 * (s.time.ticks - (s.portAt p).lastData) →
    ∃ t, exec (.portStall p) s = .next t ∧ (t.portAt p).state = .fault ∧ (t.portAt p).reason = 2 ∧ (t.portAt p).bound = (s.portAt p).bound ∧
      (∃ e, t.events = s.events ++ [e] ∧ e.code = 0x8200) ∧ (∀ k, k ≠ p → t.portAt k = s.portAt k ∧ Tab.get? t.lidars k = Tab.get? s.lidars k) ∧
      t = { s with ports := t.ports, filters := t.filters, lidars := t.lidars, events := t.events, tether := t.tether })

/-- An overcurrent or a short of a supply that is on turns it off and leaves its port in FAULT; the third counted trip within 60 s
latches it. An open load marks a detecting port and leaves the supply on; back-feed changes no supply; 60 s without a trip clear
the count of a supply that is not latched. VSENS out of range turns every switched supply off and is marked so; its return is
marked with the tick. A reversed input sets its flag, and the poll clears all flags. -/
def Obligations.SwitchedSupplyFaultsAreHandled : Prop :=
  (∀ (s : State) (p : Nat), hasSupply p = true → (s.portAt p).supplyOn = true →
    ∃ t, exec (.supplyOvercurrent p) s = .next t ∧ (t.portAt p).supplyOn = false ∧ (t.portAt p).state = .fault ∧
      ((s.portAt p).state ≠ .fault → (t.portAt p).reason = 4) ∧
      (tripCounts s = true → (t.portAt p).trips = s.time.ticks :: (s.portAt p).trips.filter (fun k => decide (s.time.ticks - k < 30000000000)) ∧
        (3 ≤ (t.portAt p).trips.length → (t.portAt p).latched = true)) ∧
      (∀ k, k ≠ p → t.portAt k = s.portAt k ∧ Tab.get? t.lidars k = Tab.get? s.lidars k) ∧
      t = { s with ports := t.ports, filters := t.filters, lidars := t.lidars, events := t.events, tether := t.tether, eventLimit := t.eventLimit }) ∧
  (∀ (s : State) (p : Nat), hasSupply p = true → (s.portAt p).supplyOn = true →
    ∃ t, exec (.supplyShort p) s = .next t ∧ (t.portAt p).supplyOn = false ∧ (t.portAt p).state = .fault ∧
      (tripCounts s = false → (t.portAt p).trips = (s.portAt p).trips ∧ (t.portAt p).latched = (s.portAt p).latched) ∧
      (∀ k, k ≠ p → t.portAt k = s.portAt k ∧ Tab.get? t.lidars k = Tab.get? s.lidars k) ∧
      t = { s with ports := t.ports, filters := t.filters, lidars := t.lidars, events := t.events, tether := t.tether, eventLimit := t.eventLimit }) ∧
  (∀ (s : State) (p : Nat), hasSupply p = true → (s.portAt p).supplyOn = true →
    ∃ t, exec (.supplyOpenLoad p) s = .next t ∧ (t.portAt p).supplyOn = true ∧ (t.portAt p).state = (s.portAt p).state ∧
      ((s.portAt p).state = .detecting → (t.portAt p).openLoad = true) ∧ (∀ k, k ≠ p → t.portAt k = s.portAt k) ∧
      t = { s with ports := t.ports, events := t.events, tether := t.tether, eventLimit := t.eventLimit }) ∧
  (∀ (s : State) (p : Nat), hasSupply p = true → s.mainOn = true →
    ∃ t, exec (.supplyBackFeed p) s = .next t ∧ (t.portAt p).supplyOn = (s.portAt p).supplyOn ∧ (t.portAt p).state = (s.portAt p).state ∧
      (∀ k, k ≠ p → t.portAt k = s.portAt k) ∧ t = { s with ports := t.ports, events := t.events, tether := t.tether, eventLimit := t.eventLimit }) ∧
  (∀ (s : State) (p : Nat), (s.portAt p).trips ≠ [] → (s.portAt p).latched = false →
    (∀ k ∈ (s.portAt p).trips, 30000000000 ≤ s.time.ticks - k) →
    exec (.tripCountClear p) s = .next (s.updPort p fun q => { q with trips := [] })) ∧
  (∀ (s : State) (high : Bool), s.life.vsensOk = true → s.life.vaux = true →
    ∃ t, exec (.vsensOutOfRange high) s = .next t ∧ t.life = { s.life with vsensOk := false } ∧
      (∀ p, hasSupply p = true → (t.portAt p).supplyOn = false) ∧
      (∀ p, hasSupply p = true → s.mainOn = true → (s.portAt p).owner.isSome = true → (s.portAt p).supplyStop = false → (t.portAt p).state = .fault) ∧
      (∀ p, hasSupply p = false → t.portAt p = s.portAt p) ∧
      t = { s with life := t.life, ports := t.ports, filters := t.filters, lidars := t.lidars, events := t.events, tether := t.tether, eventLimit := t.eventLimit }) ∧
  (∀ s : State, s.life.vsensOk = false → s.life.vaux = true →
    ∃ t, exec .vsensBackInRange s = .next t ∧ t.life = { s.life with vsensOk := true, vsensBack := some s.time.ticks } ∧
      t = { s with life := t.life, events := t.events, tether := t.tether, eventLimit := t.eventLimit }) ∧
  (∀ (s : State) (i : Nat), i < 3 → s.life.reversed.contains i = false →
    exec (.inputReversed i) s = .next (s.mapLife fun l => { l with reversed := i :: l.reversed })) ∧
  (∀ s : State, s.life.vaux = true →
    ∃ t, exec .supplyFlagPoll s = .next t ∧ t.life = { s.life with reversed := [] } ∧ (s.life.reversed = [] → t.events = s.events) ∧
      t = { s with life := t.life, events := t.events, tether := t.tether, eventLimit := t.eventLimit })

/-- A comparison that disagrees with the driven level counts, the third in a row turns the output off, and one that agrees restarts
the count; the restore try of an output that is off restores it when its level agrees. A stuck D-PHY line, an open encoder or
CAN line and a swapped CAN pair put the watched port into FAULT, remembering the fault; a held camera line ends the CAM_I2C_XFER
under way with OK_PARTIAL and frees the bus; a held SMBus line resets the interface. -/
def Obligations.SignalFaultsAreHandled : Prop :=
  (∀ (s : State) (o : Nat) (pin : Bool), o < 31 → (s.outputAt o).off = false → s.mainOn = true → pin = drivenLevel s o →
    exec (.outputCompare o pin) s = .next (s.updOutput o fun x => { x with mismatches := 0 })) ∧
  (∀ (s : State) (o : Nat) (pin : Bool), o < 31 → (s.outputAt o).off = false → s.mainOn = true → pin ≠ drivenLevel s o →
    ∃ t, exec (.outputCompare o pin) s = .next t ∧
      ((s.outputAt o).mismatches = 2 → (t.outputAt o).off = true) ∧
      ((s.outputAt o).mismatches ≠ 2 → t = s.updOutput o fun x => { x with mismatches := x.mismatches + 1 }) ∧
      (∀ k, k ≠ o → t.outputAt k = s.outputAt k) ∧ t.reel = s.reel ∧
      t = { s with outputs := t.outputs, ports := t.ports, filters := t.filters, lidars := t.lidars, events := t.events, tether := t.tether, eventLimit := t.eventLimit }) ∧
  (∀ (s : State) (o : Nat) (pin : Bool), o < 32 → (s.outputAt o).off = true → pin = wouldDrive s o →
    ∃ t, exec (.outputRestoreTry o pin) s = .next t ∧ t.outputAt o = {} ∧ (∀ k, k ≠ o → t.outputAt k = s.outputAt k) ∧
      (∃ e, t.events = s.events ++ [e] ∧ e.code = 0x8F02 ∧ e.detail &&& 15 = 5) ∧
      t = { s with outputs := t.outputs, events := t.events, tether := t.tether }) ∧
  (∀ (s : State) (p pin : Nat), (s.portAt p).owner.isSome = true → (s.portAt p).state ≠ .off →
    (isCamera p = true → ∃ t, exec (.dphyLineStuck p pin) s = .next t ∧ (t.portAt p).state = .fault ∧ (t.portAt p).faultSignal = true ∧
      (∀ k, k ≠ p → t.portAt k = s.portAt k ∧ Tab.get? t.lidars k = Tab.get? s.lidars k) ∧
      t = { s with ports := t.ports, filters := t.filters, lidars := t.lidars, events := t.events, tether := t.tether, eventLimit := t.eventLimit }) ∧
    (isEncoder p = true → ∃ t, exec (.encoderLineOpen p pin) s = .next t ∧ (t.portAt p).state = .fault ∧ (t.portAt p).faultSignal = true ∧
      (t.portAt p).swap = (s.portAt p).swap ∧ (t.portAt p).verifying = (s.portAt p).verifying ∧ (∀ k, k ≠ p → t.portAt k = s.portAt k ∧ Tab.get? t.lidars k = Tab.get? s.lidars k) ∧
      t = { s with ports := t.ports, filters := t.filters, lidars := t.lidars, events := t.events, tether := t.tether, eventLimit := t.eventLimit }) ∧
    (isCan p = true → ∃ t, exec (.canLineOpen p pin) s = .next t ∧ (t.portAt p).state = .fault ∧ (t.portAt p).faultSignal = true ∧
      (∀ k, k ≠ p → t.portAt k = s.portAt k ∧ Tab.get? t.lidars k = Tab.get? s.lidars k) ∧
      t = { s with ports := t.ports, filters := t.filters, lidars := t.lidars, events := t.events, tether := t.tether, eventLimit := t.eventLimit }) ∧
    (isCan p = true → ∃ t, exec (.canPairSwapped p) s = .next t ∧ (t.portAt p).state = .fault ∧ (t.portAt p).swapFault = true ∧
      (∀ k, k ≠ p → t.portAt k = s.portAt k ∧ Tab.get? t.lidars k = Tab.get? s.lidars k) ∧
      t = { s with ports := t.ports, filters := t.filters, lidars := t.lidars, events := t.events, tether := t.tether, eventLimit := t.eventLimit })) ∧
  (∀ (s : State) (p : Nat) (sda : Bool) (m : Cmd), isCamera p = true →
    s.cmds.find? (fun x => x.phase == .running && x.opcode == 0x0205 && !x.begun && fld (x.w 3) 7 0 == p) = some m →
    ∃ t r, exec (.lineHeldLow (.cameraI2c p sda)) s = .next t ∧ t.replyOf m.ref = some r ∧ r.status = BitVec.ofNat 16 OK_PARTIAL ∧
      t.outbox = .i2cFree p :: s.outbox ∧ otherCmds s t m.ref ∧ (t.portAt p).state = (s.portAt p).state ∧
      t = { s with cmds := t.cmds, ports := t.ports, outbox := t.outbox, events := t.events, tether := t.tether, eventLimit := t.eventLimit, free := t.free }) ∧
  (∀ (s : State) (dat : Bool), s.life.vaux = true →
    ∃ t, exec (.lineHeldLow (.smbus dat)) s = .next t ∧ t.outbox = .smbusReset :: s.outbox ∧
      t = { s with outbox := t.outbox, events := t.events, tether := t.tether, eventLimit := t.eventLimit })

/-- On a STREAMING triggered stream with no frame under way, a Frame Start whose frame set is found takes a FREE buffer, stamps it
with device time and the frame set and changes no other buffer; with no FREE buffer, or no frame set in range, the frame is
dropped with FRAME_DROPPED and no buffer changes. A landed strip of a frame whose first strip has landed appends its 16 lines. A
bad or short frame frees its buffer and raises FRAME_DROPPED cause 2 or 3. A frame of a set already closed still fills its
buffer but is passed over. The close deadline, 500 µs after its latest expected end of readout, closes the oldest open frame set
at device time and counts it. (How long a camera reads out is open, assumption 16.) -/
def Obligations.CameraFramesFillAndLeaveBuffers : Prop :=
  (∀ (s : State) (port vc errs st num instant : Nat) (x : StreamS) (closed : Bool), streamOf s port vc = some (st, x) → Tab.get? s.streams st = some x → x.port = port →
    (s.portAt port).state = .streaming → x.cur = none → x.divisor ≠ 0 → setOfFrame s x s.devNs = some (num, instant) →
    (∃ k, k < x.nbufs ∧ (Tab.getD x.bufs k {}).state = .free) →
    closed = (s.sessionAt x.ctx).any (fun y => (Tab.getD y.sets num {}).closed.isSome) →
    ∃ t k, exec (.frameStart port vc errs) s = .next t ∧ k < x.nbufs ∧ (Tab.getD x.bufs k {}).state = .free ∧ (t.streamAt st).cur = some k ∧
      (Tab.getD (t.streamAt st).bufs k {}).state = .filling ∧ (Tab.getD (t.streamAt st).bufs k {}).tSof = s.devNs ∧
      (Tab.getD (t.streamAt st).bufs k {}).frameSet = w32 num ∧ (Tab.getD (t.streamAt st).bufs k {}).reel = instant ∧
      (Tab.getD (t.streamAt st).bufs k {}).skipped = closed ∧ (t.portAt port).errors = min ((s.portAt port).errors + errs) (2 ^ 32 - 1) ∧
      (∀ j, j ≠ k → Tab.get? (t.streamAt st).bufs j = Tab.get? x.bufs j) ∧ (∀ j, j ≠ st → Tab.get? t.streams j = Tab.get? s.streams j) ∧
      (closed = false → t.events = s.events ∧ t.tether = s.tether) ∧
      t = { s with streams := t.streams, ports := t.ports, events := t.events, tether := t.tether }) ∧
  (∀ (s : State) (port vc errs st : Nat) (x : StreamS), streamOf s port vc = some (st, x) → Tab.get? s.streams st = some x → x.port = port →
    (s.portAt port).state = .streaming → x.cur = none → x.divisor ≠ 0 →
    setOfFrame s x s.devNs = none ∨ (∀ k, k < x.nbufs → (Tab.getD x.bufs k {}).state ≠ .free) →
    ∃ t e, exec (.frameStart port vc errs) s = .next t ∧ t.events = s.events ++ [e] ∧ e.code = 0x8202 ∧ (t.streamAt st).bufs = x.bufs ∧
      (t.streamAt st).cur = none ∧ t = { s with streams := t.streams, ports := t.ports, events := t.events, tether := t.tether }) ∧
  (∀ (s : State) (st k errs : Nat) (x : StreamS) (lines : List VideoLine), Tab.get? s.streams st = some x → x.cur = some k →
    (s.portAt x.port).state = .streaming → (Tab.getD x.bufs k {}).begun = true →
    (storeLines x (Tab.getD x.bufs k {}) lines).lines.length = (Tab.getD x.bufs k {}).lines.length + 16 →
    ∃ t, exec (.stripLanded st lines errs) s = .next t ∧ Tab.getD (t.streamAt st).bufs k {} =
        { storeLines x (Tab.getD x.bufs k {}) lines with
          strips := (Tab.getD x.bufs k {}).strips ++ [((Tab.getD x.bufs k {}).lines.length + 16, s.time.ticks)] } ∧
      (∀ j, j ≠ k → Tab.get? (t.streamAt st).bufs j = Tab.get? x.bufs j) ∧ (∀ j, j ≠ st → Tab.get? t.streams j = Tab.get? s.streams j) ∧
      (t.portAt x.port).lastData = s.time.ticks ∧ (t.portAt x.port).errors = min ((s.portAt x.port).errors + errs) (2 ^ 32 - 1) ∧
      t = { s with streams := t.streams, ports := t.ports }) ∧
  (∀ (s : State) (st k : Nat) (x : StreamS) (lines : List VideoLine) (emb : List (List Byte)) (errs : Nat) (bad : Bool),
    Tab.get? s.streams st = some x → x.cur = some k → (s.portAt x.port).state = .streaming →
    bad = true ∨ (storeLines x (Tab.getD x.bufs k {}) lines).lines.length < x.height →
    ∃ t e, exec (.frameEnd st lines emb errs bad) s = .next t ∧ t.events = s.events ++ [e] ∧ e.code = 0x8202 ∧
      fld e.detail 7 0 = (if bad then 2 else 3) ∧ (t.streamAt st).cur = none ∧
      t = { s with streams := t.streams, ports := t.ports, ctxs := t.ctxs, events := t.events, tether := t.tether }) ∧
  (∀ (s : State) (st k : Nat) (x : StreamS) (lines : List VideoLine) (emb : List (List Byte)) (errs : Nat),
    Tab.get? s.streams st = some x → x.cur = some k → (s.portAt x.port).state = .streaming → s.sessionAt x.ctx = none →
    x.height ≤ (storeLines x (Tab.getD x.bufs k {}) lines).lines.length → (Tab.getD x.bufs k {}).begun = true → x.prevBuf = some k →
    (Tab.getD x.bufs k {}).state = .filling →
    ∃ t, exec (.frameEnd st lines emb errs false) s = .next t ∧ (t.streamAt st).cur = none ∧
      (Tab.getD (t.streamAt st).bufs k {}).state = .ready ∧ (Tab.getD (t.streamAt st).bufs k {}).complete = true ∧
      (Tab.getD (t.streamAt st).bufs k {}).tEof = s.devNs ∧ (Tab.getD (t.streamAt st).bufs k {}).hdrErrors = errs ∧
      t = { s with streams := t.streams, ports := t.ports }) ∧
  (∀ (s : State) (ctx k : Nat) (x : SessionS) (f : FrameSet), s.sessionAt ctx = some x → Tab.getD x.sets k {} = f →
    (sortBy (fun (a b : Nat × FrameSet) => decide (a.2.instant < b.2.instant)) (x.sets.filter fun e => e.2.closed.isNone)).head? = some (k, f) →
    f.readoutEnd + 500000 ≤ s.devNs →
    ∃ t y, exec (.closeDeadline ctx) s = .next t ∧ t.sessionAt ctx = some y ∧ (Tab.getD y.sets k {}).closed = some s.devNs ∧
      ((Tab.getD y.sets k {}).partialIn = true ↔ ∃ st ∈ f.expected, st ∉ f.landed) ∧ y.setsClosed = (x.setsClosed + 1) % 2 ^ 32 ∧
      t = { s with streams := t.streams, ctxs := t.ctxs, events := t.events, tether := t.tether })

/-- On a claimed encoder that is IDLE or STREAMING an edge of at least the glitch filter's length moves the count by the quadrature
step of the two lines, with A and B exchanged under SWAP, and a shorter pulse changes nothing; a STREAMING encoder whose count
has stayed for 100 ms reports standstill; in another state the levels are followed and nothing counts. A verification window of
at least 2 s of latches at 0.5 m/s or more, of which 95 % agree, ends VERIFYING; one with 95 % disagreement toggles SWAP, stays
VERIFYING and raises ENCODER_SWAP_CORRECTED; either begins a new window; a shorter one changes nothing. (That A leading B counts
up is the model's choice, assumption 23.) -/
def Obligations.EncodersCountAndVerify : Prop :=
  (∀ (s : State) (p pulse : Nat) (lineB level : Bool), isEncoder p = true → (s.portAt p).owner.isSome = true →
    (s.portAt p).state = .idle ∨ (s.portAt p).state = .streaming →
    ((s.portAt p).glitch * 20 ≤ pulse →
      ∃ t, exec (.quadratureEdge p lineB level pulse) s = .next t ∧
        (t.portAt p).lineA = (if lineB then (s.portAt p).lineA else level) ∧ (t.portAt p).lineB = (if lineB then level else (s.portAt p).lineB) ∧
        (t.portAt p).count = (s.portAt p).count + wInt (if (s.portAt p).swap
          then quadStep (s.portAt p).lineB (s.portAt p).lineA (t.portAt p).lineB (t.portAt p).lineA
          else quadStep (s.portAt p).lineA (s.portAt p).lineB (t.portAt p).lineA (t.portAt p).lineB) ∧
        (t.portAt p).latchedCount = (s.portAt p).latchedCount ∧ (∀ k, k ≠ p → t.portAt k = s.portAt k) ∧ t = { s with ports := t.ports }) ∧
    (pulse < (s.portAt p).glitch * 20 → exec (.quadratureEdge p lineB level pulse) s = .next s)) ∧
  (∀ (s : State) (p pulse : Nat) (lineB level : Bool), isEncoder p = true → (s.portAt p).glitch * 20 ≤ pulse →
    (s.portAt p).owner = none ∨ ((s.portAt p).state ≠ .idle ∧ (s.portAt p).state ≠ .streaming) →
    ∃ t, exec (.quadratureEdge p lineB level pulse) s = .next t ∧
      t.portAt p = { s.portAt p with lineA := if lineB then (s.portAt p).lineA else level, lineB := if lineB then level else (s.portAt p).lineB } ∧
      (∀ k, k ≠ p → t.portAt k = s.portAt k) ∧ t = { s with ports := t.ports }) ∧
  (∀ (s : State) (p : Nat), isEncoder p = true → (s.portAt p).state = .streaming → 50000000 ≤ s.time.ticks - (s.portAt p).lastCountChange →
    exec (.encoderStandstill p) s = .next (s.updPort p fun q => { q with standstill := true })) ∧
  (∀ (s : State) (p n agree disagree : Nat), isEncoder p = true → (s.portAt p).state = .streaming → (s.portAt p).verifying = true →
    1000000000 ≤ s.time.ticks - (s.portAt p).verifyAt → (s.portAt p).verifyLatches = n → 0 < n → agree + disagree ≤ n →
    (95 * n ≤ 100 * agree → ∃ t, exec (.encoderVerifyWindow p agree disagree) s = .next t ∧
      t.portAt p = { s.portAt p with verifying := false, verifyAt := s.time.ticks, verifyLatches := 0 } ∧ (∀ k, k ≠ p → t.portAt k = s.portAt k) ∧
      t = { s with ports := t.ports }) ∧
    (100 * agree < 95 * n → 95 * n ≤ 100 * disagree →
      ∃ t e, exec (.encoderVerifyWindow p agree disagree) s = .next t ∧ (t.portAt p).swap = !(s.portAt p).swap ∧
        (t.portAt p).verifying = true ∧ (t.portAt p).verifyAt = s.time.ticks ∧ (t.portAt p).verifyLatches = 0 ∧ t.events = s.events ++ [e] ∧ e.code = 0x8203 ∧ (∀ k, k ≠ p → t.portAt k = s.portAt k) ∧
        t = { s with ports := t.ports, events := t.events, tether := t.tether })) ∧
  (∀ (s : State) (p agree disagree : Nat), (s.portAt p).verifying = false ∨ s.time.ticks - (s.portAt p).verifyAt < 1000000000 ∨ (s.portAt p).verifyLatches = 0 →
    exec (.encoderVerifyWindow p agree disagree) s = .next s)

/-- FORMAT_WRITE of a valid format into a slot no STREAMING port uses stores kind and bytes. A lidar packet of the wrong length is
only counted; one that matches in PACKET_SYNC mode with no PACKET_SEQ field appends its decoded points to the open sweep, under
a firmware stamp within 20 µs; 200 ms after its first point the sweep closes and becomes the latest. A failed IMU burst is
counted and the tenth in a row leads to FAULT with reason 3; a good one restarts the count. The IMU0 sample tick stores MATRIX ×
(raw − BIAS) and latches every encoder's count. A CAN frame in error is counted, a good one stores the raw value of every signal
of its identifier that lies in the payload and is not marked invalid; a signal not seen for MAX_AGE turns stale and raises
CAN_SIGNAL_STALE. -/
def Obligations.LidarInertialAndCanSamplesArrive : Prop :=
  (∀ (s : State) (c : CmdRef) (m : Cmd) (b : List Byte), s.runs c 0x0206 m → fld (m.w 3) 9 8 ≠ 3 → slotInUse s m.ctx (fld (m.w 3) 2 0) = false →
    sgIn m 4 s = .bytes b → formatOk (fld (m.w 3) 9 8) b = true →
    ∃ t, exec (.formatWrite c) s = .next t ∧ t.answered c OK 0 [] ∧
      Tab.get? (t.ctxAt m.ctx).formats (fld (m.w 3) 2 0) = some { kind := fld (m.w 3) 9 8, bytes := b } ∧
      (∀ k, k ≠ fld (m.w 3) 2 0 → Tab.get? (t.ctxAt m.ctx).formats k = Tab.get? (s.ctxAt m.ctx).formats k) ∧
      (∀ k, k ≠ m.ctx → t.ctxAt k = s.ctxAt k) ∧ otherCmds s t c ∧ t = { s with cmds := t.cmds, ctxs := t.ctxs }) ∧
  (∀ (s : State) (port n tags : Nat) (bd fmt payload : List Byte), bindingOf s port = some (n, bd) → isEthernet port = true → (s.portAt port).state = .streaming →
    (s.portAt port).ipv4 ≠ 0 → 46 + 4 * tags + payload.length ≤ 9018 →
    (Tab.getD (s.ctxAt n).formats (leAt bd 1 1) {}).bytes = fmt →
    (leAt fmt 0 2 ≠ 0 ∧ payload.length ≠ leAt fmt 0 2 →
      ∃ t, exec (.lidarPacket port (s.portAt port).lidarSrc (s.portAt port).udpPort tags payload) s = .next t ∧
        (t.portAt port).errors = min ((s.portAt port).errors + 1) (2 ^ 32 - 1) ∧ t.lidars = s.lidars ∧
        (∀ k, k ≠ port → t.portAt k = s.portAt k) ∧ t = { s with ports := t.ports }) ∧
    (leAt fmt 0 2 = 0 ∨ payload.length = leAt fmt 0 2 → leAt fmt 13 1 = 1 → leAt fmt 58 1 = 0 →
      ∃ t stamp, exec (.lidarPacket port (s.portAt port).lidarSrc (s.portAt port).udpPort tags payload) s = .next t ∧
        (Int.ofNat stamp - Int.ofNat s.devNs).natAbs ≤ 20000 ∧
        (Tab.getD t.lidars port {}).points = (Tab.getD s.lidars port {}).points ++ packetPoints fmt payload (s.entryOf n (sensorKey port 0)).offset stamp
          ((syncEntry s n bd).map s.reelAt) ∧
        (∀ k, k ≠ port → Tab.getD t.lidars k {} = Tab.getD s.lidars k {}) ∧
        t = { s with ports := t.ports, lidars := t.lidars, free := s.free + 1 })) ∧
  (∀ (s : State) (port k : Nat), (Tab.getD s.lidars port {}).firstTick = some k → 100000000 ≤ s.time.ticks - k →
    ∃ t, exec (.lidarSweepTimeout port) s = .next t ∧ (Tab.getD t.lidars port {}).points = [] ∧ (Tab.getD t.lidars port {}).firstTick = none ∧
      ((s.portAt port).state = .streaming → (Tab.getD t.lidars port {}).latest = (Tab.getD s.lidars port {}).points) ∧
      ((s.portAt port).state ≠ .streaming → (Tab.getD t.lidars port {}).latest = (Tab.getD s.lidars port {}).latest ∧ t.ctxs = s.ctxs) ∧ (∀ j, j ≠ port → Tab.getD t.lidars j {} = Tab.getD s.lidars j {}) ∧
      t = { s with lidars := t.lidars, ctxs := t.ctxs }) ∧
  (∀ (s : State) (port : Nat) (fmt burst : List Byte), imuFormat s port = some fmt → isExtImu port = true →
    (s.portAt port).state = .idle ∨ (s.portAt port).state = .streaming → bindingOf s port = none →
    (∀ ch, (s.chanAt ch).source.toNat = port → (s.chanAt ch).due = none) → (s.portAt port).lastStamp = none →
    (∃ t, exec (.imuBurst port true burst) s = .next t ∧ (t.portAt port).failedBursts = 0 ∧ (t.portAt port).lastData = s.time.ticks ∧
      (∀ ch, (s.chanAt ch).source.toNat = port → (s.chanAt ch).holder.isSome = true →
        ∃ stamp, (t.chanAt ch).due = some ((burstValue fmt burst (s.chanAt ch).axis).1, (burstValue fmt burst (s.chanAt ch).axis).2, stamp, false)) ∧
      (∀ k, k ≠ port → t.portAt k = s.portAt k) ∧ t = { s with ports := t.ports, filters := t.filters, free := t.free }) ∧
    (∃ t, exec (.imuBurst port false burst) s = .next t ∧
      ((s.portAt port).failedBursts = 9 → (t.portAt port).state = .fault ∧ (t.portAt port).reason = 3) ∧
      ((s.portAt port).failedBursts < 9 → (t.portAt port).failedBursts = (s.portAt port).failedBursts + 1 ∧ (t.portAt port).state = (s.portAt port).state) ∧
      (∀ k, k ≠ port → t.portAt k = s.portAt k) ∧
      t = { s with ports := t.ports, filters := t.filters, lidars := t.lidars, events := t.events, tether := t.tether, eventLimit := t.eventLimit, free := t.free })) ∧
  (∀ (s : State) (port : Nat) (fmt burst : List Byte), imuFormat s port = some fmt → isExtImu port = true →
    (s.portAt port).state = .idle ∨ (s.portAt port).state = .streaming →
    ∃ t, exec (.imuBurst port true burst) s = .next t ∧ (t.portAt port).failedBursts = 0 ∧ (t.portAt port).lastData = s.time.ticks ∧
      (t.portAt port).lastStamp ≠ none ∧ (t.portAt port).state = (s.portAt port).state ∧ (∀ k, k ≠ port → t.portAt k = s.portAt k)) ∧
  (∀ (s : State) (raw : List Word), s.time.imu0Due = true → s.mainOn = true → (∀ ch, (s.chanAt ch).due = none) →
    ∃ t, exec (.imu0Sample raw true) s = .next t ∧
      t.imu0 = correctImu (imuRecord s 0x80) (raw.take 3) ++ correctImu (imuRecord s 0x81) (raw.drop 3) ∧ t.time.imu0Due = false ∧
      (∀ p, isEncoder p = true → (t.portAt p).latchedCount = (s.portAt p).count ∧ (t.portAt p).latchTime = s.devNs) ∧
      t.devNs = s.devNs ∧ t = { s with time := t.time, ports := t.ports, ctxs := t.ctxs, filters := t.filters, imu0 := t.imu0 }) ∧
  (∀ (s : State) (port n : Nat) (bd : List Byte) (id : Word) (brs error : Bool) (payload : List Byte), bindingOf s port = some (n, bd) → isCan port = true →
    (s.portAt port).state = .streaming →
    (error = true ∨ (brs = true ∧ (s.portAt port).canData = 0) →
      ∃ t, exec (.canFrame port id brs error payload) s = .next t ∧ t.portAt port = { s.portAt port with errors := min ((s.portAt port).errors + 1) (2 ^ 32 - 1) } ∧
        (∀ k, k ≠ port → t.portAt k = s.portAt k) ∧ t.outbox = (if (s.portAt port).canAck = true ∧ (s.portAt port).swapFault = false then .can port false :: s.outbox else s.outbox) ∧ t = { s with ports := t.ports, outbox := t.outbox }) ∧
    (error = false ∧ (brs = true → (s.portAt port).canData ≠ 0) →
      ∃ t, exec (.canFrame port id brs error payload) s = .next t ∧ (t.portAt port).lastData = s.time.ticks ∧
        (∀ (i : Nat) (e : List Byte) (v : Nat), (signalEntries s port)[i]? = some e → wordAt e 0 = id → signalRaw e payload = some v →
          ¬ (leAt e 7 1 / 4 % 2 = 1 ∧ v + 1 = 2 ^ leAt e 6 1) →
          ∃ sig, Tab.get? (t.ctxAt n).canSignals (port * 32 + i) = some sig ∧ sig.raw = v ∧ sig.value = signalValue e v ∧ sig.stale = false ∧
            sig.arrived = true) ∧
        t.outbox = (if (s.portAt port).canAck = true ∧ (s.portAt port).swapFault = false then .can port true :: s.outbox else s.outbox) ∧ t = { s with ports := t.ports, ctxs := t.ctxs, outbox := t.outbox, free := s.free + 1 })) ∧
  (∀ (s : State) (port i n : Nat) (bd e : List Byte) (sig : CanSignal), bindingOf s port = some (n, bd) → (signalEntries s port)[i]? = some e →
    isCan port = true → Tab.get? (s.ctxAt n).canSignals (port * 32 + i) = some sig → sig.stale = false →
    leAt e 18 2 * 500000 ≤ s.time.ticks - sig.tick →
    ∃ t ev, exec (.canSignalStale port i) s = .next t ∧ Tab.get? (t.ctxAt n).canSignals (port * 32 + i) = some { sig with stale := true } ∧
      t.events = s.events ++ [ev] ∧ ev.code = 0x8205 ∧ (∀ k, k ≠ n → t.ctxAt k = s.ctxAt k) ∧
      t = { s with ctxs := t.ctxs, events := t.events, tether := t.tether })

/-- FILTER_BIND of a free channel to an IMU0 axis binds it to the context; a release of an own channel with no change under way
frees it. FILTER_PRESET of own channels whose source fits it leaves each waiting for its own sample: a start with no running
set, a swap at equal DECIM, a rate change otherwise. FILTER_LOAD stores an accepted set in an instance that does not run.
FILTER_SWAP to a stopped set of equal DECIM waits for its first output, and on a channel with no running set starts the stopped
instance at once. FILTER_THRESHOLD stores the pair and its parameters, restarts the pair and each quantity whose parameter
changes. No other channel changes. -/
def Obligations.FilterCommandsActOnHeldChannels : Prop :=
  (∀ (s : State) (c : CmdRef) (m : Cmd), s.runs c 0x0400 m → bit (m.w 3) 8 = false → bit (m.w 3) 9 = false → fld (m.w 4) 31 24 = 32 →
    fld (m.w 4) 23 20 ≤ 5 → fld (m.w 4) 19 18 ≠ 3 → (s.chanAt (fld (m.w 3) 4 0)).holder = none →
    ∃ t, exec (.filterBind c) s = .next t ∧ t.answered c OK 0 [w32 (fld (m.w 3) 4 0)] ∧ (t.chanAt (fld (m.w 3) 4 0)).holder = some m.ctx ∧
      (t.chanAt (fld (m.w 3) 4 0)).source = 32 ∧ (t.chanAt (fld (m.w 3) 4 0)).axis = fld (m.w 4) 23 20 ∧
      (t.chanAt (fld (m.w 3) 4 0)).route = fld (m.w 4) 19 18 ∧ (t.chanAt (fld (m.w 3) 4 0)).filling = true ∧
      (∀ k, k ≠ fld (m.w 3) 4 0 → t.chanAt k = s.chanAt k) ∧ otherCmds s t c ∧ t = { s with cmds := t.cmds, filters := t.filters }) ∧
  (∀ (s : State) (c : CmdRef) (m : Cmd), s.runs c 0x0400 m → bit (m.w 3) 8 = true → bit (m.w 3) 9 = false →
    (s.chanAt (fld (m.w 3) 4 0)).holder = some m.ctx → (s.chanAt (fld (m.w 3) 4 0)).bySession = false → (s.chanAt (fld (m.w 3) 4 0)).change = .none →
    ∃ t, exec (.filterBind c) s = .next t ∧ t.answered c OK 0 [w32 (fld (m.w 3) 4 0)] ∧ t.chanAt (fld (m.w 3) 4 0) = {} ∧
      (∀ k, k ≠ fld (m.w 3) 4 0 → t.chanAt k = s.chanAt k) ∧ otherCmds s t c ∧ t = { s with cmds := t.cmds, filters := t.filters }) ∧
  (∀ (s : State) (c : CmdRef) (m : Cmd), s.runs c 0x0401 m → m.w 3 ≠ 0 → fld (m.w 4) 2 0 ≤ 3 →
    (∀ ch ∈ setBits 32 (m.w 3).toNat, (s.chanAt ch).holder = some m.ctx ∧ (s.chanAt ch).change = .none ∧
      (presetSet s (fld (m.w 4) 2 0) (s.chanAt ch).source.toNat).isSome = true) →
    ∃ t, exec (.filterPreset c) s = .next t ∧ t.replyOf c = none ∧
      (∀ ch ∈ setBits 32 (m.w 3).toNat, (t.chanAt ch).presetCmd = some c ∧ (t.chanAt ch).runSet = (s.chanAt ch).runSet ∧
        ∃ k, presetSet s (fld (m.w 4) 2 0) (s.chanAt ch).source.toNat = some k ∧ (t.chanAt ch).change = (match (s.chanAt ch).runSet with
          | none => .startWait k (fld (m.w 4) 2 0)
          | some r => if r.decim = k.decim then .swapWait (some (fld (m.w 4) 2 0, k)) else .rateWait k (fld (m.w 4) 2 0))) ∧
      (∀ ch, ch ∉ setBits 32 (m.w 3).toNat → t.chanAt ch = s.chanAt ch) ∧ otherCmds s t c ∧ t = { s with cmds := t.cmds, filters := t.filters }) ∧
  (∀ (s : State) (c : CmdRef) (m : Cmd) (d : List Byte), s.runs c 0x0402 m → (s.chanAt (fld (m.w 3) 4 0)).holder = some m.ctx →
    (s.chanAt (fld (m.w 3) 4 0)).change = .none → ((s.chanAt (fld (m.w 3) 4 0)).running = false ∨ (s.chanAt (fld (m.w 3) 4 0)).activeB ≠ bit (m.w 3) 8) →
    sgIn m 4 s = .bytes d → (parseCoeff d).ok = true → 16 + 2 * (parseCoeff d).taps ≤ d.length →
    ∃ t, exec (.filterLoad c) s = .next t ∧ t.answered c OK 0 [] ∧
      t.chanAt (fld (m.w 3) 4 0) = (if bit (m.w 3) 8 then { s.chanAt (fld (m.w 3) 4 0) with setB := some (parseCoeff d) }
        else { s.chanAt (fld (m.w 3) 4 0) with setA := some (parseCoeff d) }) ∧
      (∀ k, k ≠ fld (m.w 3) 4 0 → t.chanAt k = s.chanAt k) ∧ otherCmds s t c ∧ t = { s with cmds := t.cmds, filters := t.filters }) ∧
  (∀ (s : State) (c : CmdRef) (m : Cmd), s.runs c 0x0403 m → (s.chanAt (fld (m.w 3) 4 0)).holder = some m.ctx →
    (s.chanAt (fld (m.w 3) 4 0)).change = .none →
    (∀ r k, (s.chanAt (fld (m.w 3) 4 0)).runSet = some r → (s.chanAt (fld (m.w 3) 4 0)).stopSet = some k → k.decim = r.decim →
      ∃ t, exec (.filterSwap c) s = .next t ∧ t.replyOf c = none ∧
        t.chanAt (fld (m.w 3) 4 0) = { s.chanAt (fld (m.w 3) 4 0) with change := .swapWait none, presetCmd := some c } ∧
        (∀ k, k ≠ fld (m.w 3) 4 0 → t.chanAt k = s.chanAt k) ∧ otherCmds s t c ∧ t = { s with cmds := t.cmds, filters := t.filters }) ∧
    (∀ k, (s.chanAt (fld (m.w 3) 4 0)).runSet = none → (s.chanAt (fld (m.w 3) 4 0)).stopSet = some k →
      ∃ t, exec (.filterSwap c) s = .next t ∧ t.answered c OK 0 [] ∧ (t.chanAt (fld (m.w 3) 4 0)).runSet = some k ∧
        (t.chanAt (fld (m.w 3) 4 0)).filling = true ∧ (t.chanAt (fld (m.w 3) 4 0)).change = .none ∧
        (∀ k, k ≠ fld (m.w 3) 4 0 → t.chanAt k = s.chanAt k) ∧ otherCmds s t c ∧ t = { s with cmds := t.cmds, filters := t.filters })) ∧
  (∀ (s : State) (c : CmdRef) (m : Cmd) (hold lw es : Nat), s.runs c 0x0404 m → (s.chanAt (fld (m.w 3) 4 0)).holder = some m.ctx →
    (-8388608 ≤ (m.w 4).toInt ∧ (m.w 4).toInt ≤ 8388607) → (-8388608 ≤ (m.w 5).toInt ∧ (m.w 5).toInt ≤ 8388607) →
    withDefault (fld (m.w 6) 15 0) 1 65535 1600 = some hold → withDefault (fld (m.w 6) 19 16) 4 12 8 = some lw →
    withDefault (fld (m.w 6) 27 24) 1 12 6 = some es →
    ∃ t, exec (.filterThreshold c) s = .next t ∧ t.answered c OK 0 [] ∧ (t.chanAt (fld (m.w 3) 4 0)).thrUpper = (m.w 4).toInt ∧
      (t.chanAt (fld (m.w 3) 4 0)).thrLower = (m.w 5).toInt ∧ (t.chanAt (fld (m.w 3) 4 0)).thrCount = fld (m.w 3) 23 16 ∧
      (t.chanAt (fld (m.w 3) 4 0)).thrArmed = true ∧ (t.chanAt (fld (m.w 3) 4 0)).hold = hold ∧
      (t.chanAt (fld (m.w 3) 4 0)).peakWin = (if (s.chanAt (fld (m.w 3) 4 0)).hold = hold then (s.chanAt (fld (m.w 3) 4 0)).peakWin else []) ∧
      (t.chanAt (fld (m.w 3) 4 0)).rmsWin = (if (s.chanAt (fld (m.w 3) 4 0)).log2W = lw then (s.chanAt (fld (m.w 3) 4 0)).rmsWin else []) ∧
      (t.chanAt (fld (m.w 3) 4 0)).env = (if (s.chanAt (fld (m.w 3) 4 0)).envShift = es then (s.chanAt (fld (m.w 3) 4 0)).env else 0) ∧
      (t.chanAt (fld (m.w 3) 4 0)).history = (s.chanAt (fld (m.w 3) 4 0)).history ∧
      (∀ k, k ≠ fld (m.w 3) 4 0 → t.chanAt k = s.chanAt k) ∧ otherCmds s t c ∧ t = { s with cmds := t.cmds, filters := t.filters })

/-- A monitor channel with a running, filled set and no change under way takes a delivered sample that did not saturate: short of
DECIM inputs since the last output it only enters the history of 384; at DECIM inputs the output is Σ COEFF × sample with
coefficient 0 on the newest, shifted right by OUT_SHIFT with ties to even and saturated to 24 bits, stamped with the sample's
time, and its index counts on. -/
def Obligations.FilterOutputsFollowTheCoefficients : Prop :=
  (∀ (s : State) (ch : Nat) (k : CoeffSet) (v : Int) (stamp : Nat), ch < 32 → (s.chanAt ch).runSet = some k → (s.chanAt ch).change = .none →
    (s.chanAt ch).due = some (v, false, stamp, false) → (s.chanAt ch).filling = false → (s.chanAt ch).phase + 1 < k.decim →
    exec (.filterInputSample ch) s = .next (s.updChan ch fun c =>
      { c with due := none, lastInput := v, history := ((v, false, false) :: c.history).take 384, inputs := c.inputs + 1, phase := c.phase + 1 })) ∧
  (∀ (s : State) (ch : Nat) (k : CoeffSet) (v : Int) (stamp : Nat), ch < 32 → (s.chanAt ch).runSet = some k → (s.chanAt ch).change = .none →
    (s.chanAt ch).due = some (v, false, stamp, false) → (s.chanAt ch).filling = false → k.decim ≤ (s.chanAt ch).phase + 1 → (s.chanAt ch).route = 1 →
    (s.chanAt ch).source ≠ 32 →
    ∃ t o, exec (.filterInputSample ch) s = .next t ∧ (t.chanAt ch).lastOut = some o ∧ o.tInput = stamp ∧ o.index = (s.chanAt ch).outIndex ∧ o.channel = ch ∧
      o.value = clampInt (-8388608) 8388607 (convergent ((k.coeff.zip ((((v, false, false) :: (s.chanAt ch).history).take 384).take k.taps)).foldl
        (fun a p => a + p.1 * p.2.1) 0) k.outShift) ∧
      o.groupDelay = k.group (inputHz s (s.chanAt ch).source.toNat) ∧ (t.chanAt ch).outIndex = (s.chanAt ch).outIndex + 1 ∧ (t.chanAt ch).phase = 0 ∧
      (t.chanAt ch).due = none ∧ (∀ j, j ≠ ch → t.chanAt j = s.chanAt j) ∧
      t = { s with filters := t.filters, events := t.events, tether := t.tether })

/-- REMAP_LOAD of a grid that R245 accepts writes the shadow slot and leaves the active grid; a header whose SRC_W or SRC_H is not
the stream's, or whose OUT_W or OUT_H is outside its range, is BAD_PARAM, and a grid for a shadow slot still waiting is BUSY.
STEREO_CONFIG, CHAIN_CONFIG and FEATURE_CONFIG leave a valid block waiting for the next frame (or frame set) and answer
BAD_PARAM, naming the word, for an invalid one; a CHAIN_CONFIG with bit 0 of LEVEL_MASK clear is invalid. DESC_PATTERN_LOAD is
BUSY while a session of the context runs; else it restores the firmware pattern or takes 1,024 bytes whose points lie within
radius 13, and is BAD_PARAM where a point does not. Everything else is unchanged. -/
def Obligations.VisionBlocksWaitForTheNextFrame : Prop :=
  (∀ (s : State) (c : CmdRef) (m : Cmd) (n : Nat) (x : StreamS) (b : List Byte), s.runs c 0x0500 m → n = fld (m.w 3) 4 0 →
    Tab.get? s.streams n = some x → x.ctx = m.ctx → sgIn m 4 s = .bytes b → m.ref = c →
    (leAt b 0 2 ≠ x.width ∨ leAt b 2 2 ≠ x.height ∨ leAt b 4 2 < 64 ∨ 8192 < leAt b 4 2 ∨ leAt b 4 2 % 16 ≠ 0 ∨ leAt b 6 2 < 64 ∨
      8192 < leAt b 6 2 ∨ leAt b 6 2 % 2 ≠ 0 → exec (.remapLoad c) s = .next ((s.began c).badWord c 4)) ∧
    (gridOk s n x b = true → x.shadow.isSome = true → exec (.remapLoad c) s = .next ((s.began c).refuseOpen c BUSY)) ∧
    (gridOk s n x b = true → x.shadow = none →
      ∃ t, exec (.remapLoad c) s = .next t ∧ t.answered c OK 0 [] ∧ (t.streamAt n).shadow = some (parseGrid b, s.devNs) ∧
        (t.streamAt n).grid = x.grid ∧ (∀ j, j ≠ n → Tab.get? t.streams j = Tab.get? s.streams j) ∧ otherCmds s t c ∧
        t = { s with cmds := t.cmds, streams := t.streams })) ∧
  (∀ (s : State) (c : CmdRef) (m : Cmd) (p : Nat) (x : PairCfg) (b : List Byte), s.runs c 0x0501 m → p = fld (m.w 3) 2 0 →
    s.pairCfgAt m.ctx p = some x →
    b = zeroDefault (zeroDefault (zeroDefault (m.bytesAt 4 4) 4 1 8) 5 1 96) 12 2
      (s.streamAt (leAt (zeroDefault (zeroDefault (m.bytesAt 4 4) 4 1 8) 5 1 96) 0 1)).largest →
    (∀ i, stereoBad s m.ctx b = some i → exec (.stereoConfig c) s = .next ((s.began c).badWord c i)) ∧
    (stereoBad s m.ctx b = none →
      ∃ t, exec (.stereoConfig c) s = .next t ∧ t.answered c OK 0 [] ∧ t.pairCfgAt m.ctx p = some { x with next := b } ∧
        (∀ k q, (k, q) ≠ (m.ctx, p) → t.pairCfgAt k q = s.pairCfgAt k q) ∧ otherCmds s t c ∧
        t = { s with cmds := t.cmds, ctxs := t.ctxs })) ∧
  (∀ (s : State) (c : CmdRef) (m : Cmd) (n : Nat) (x : StreamS), s.runs c 0x0502 m → n = fld (m.w 3) 4 0 → Tab.get? s.streams n = some x →
    x.ctx = m.ctx →
    (leAt (m.bytesAt 4 8) 4 1 % 2 = 0 → ∃ i, (i = 4 ∨ i = 5) ∧ exec (.chainConfig c) s = .next ((s.began c).badWord c i)) ∧
    (∀ i, chainBad s n x (m.bytesAt 4 8) = some i → exec (.chainConfig c) s = .next ((s.began c).badWord c i)) ∧
    (chainBad s n x (m.bytesAt 4 8) = none →
      ∃ t d, exec (.chainConfig c) s = .next t ∧ t.answered c OK 0 [] ∧ t.streamAt n = { x with chainNext := some d } ∧
        d.role = leAt (m.bytesAt 4 8) 1 1 ∧ d.pair = leAt (m.bytesAt 4 8) 2 1 ∧ d.levelMask = BitVec.ofNat 8 (leAt (m.bytesAt 4 8) 4 1 % 64) ∧
        d.next = BitVec.ofNat 8 (leAt (m.bytesAt 4 8) 5 1 % 8) ∧ (∀ j, j ≠ n → Tab.get? t.streams j = Tab.get? s.streams j) ∧ otherCmds s t c ∧
        t = { s with cmds := t.cmds, streams := t.streams })) ∧
  (∀ (s : State) (c : CmdRef) (m : Cmd) (n : Nat) (x : StreamS), s.runs c 0x0503 m → n = fld (m.w 3) 4 0 → Tab.get? s.streams n = some x →
    x.ctx = m.ctx →
    (∀ i, featBad x (leAt (m.bytesAt 4 8) 0 1) (parseFeat (m.bytesAt 4 8)) = some i → exec (.featureConfig c) s = .next ((s.began c).badWord c i)) ∧
    (featBad x (leAt (m.bytesAt 4 8) 0 1) (parseFeat (m.bytesAt 4 8)) = none →
      ∃ t, exec (.featureConfig c) s = .next t ∧ t.answered c OK 0 [] ∧
        t.streamAt n = { x with featNext := some (parseFeat (m.bytesAt 4 8)) } ∧
        (∀ j, j ≠ n → Tab.get? t.streams j = Tab.get? s.streams j) ∧ otherCmds s t c ∧ t = { s with cmds := t.cmds, streams := t.streams })) ∧
  (∀ (s : State) (c : CmdRef) (m : Cmd), s.runs c 0x0504 m →
    ((s.sessionAt m.ctx).isSome = true → exec (.descPatternLoad c) s = .next ((s.began c).refuseOpen c BUSY)) ∧
    (s.sessionAt m.ctx = none → bit (m.w 3) 0 = true →
      ∃ t, exec (.descPatternLoad c) s = .next t ∧ t.answered c OK 0 [] ∧ t.ctxAt m.ctx = { s.ctxAt m.ctx with pattern := [] } ∧
        (∀ j, j ≠ m.ctx → t.ctxAt j = s.ctxAt j) ∧ otherCmds s t c ∧ t = { s with cmds := t.cmds, ctxs := t.ctxs }) ∧
    (∀ (b : List Byte) (l : List Int), s.sessionAt m.ctx = none → bit (m.w 3) 0 = false → sgIn m 4 s = .bytes b → b.length = 1024 →
      l = (List.range 1024).map (fun i => sext 8 (leAt b i 1)) →
      ((∃ i, i < 512 ∧ 169 < l.getD (2 * i) 0 ^ 2 + l.getD (2 * i + 1) 0 ^ 2) →
        exec (.descPatternLoad c) s = .next ((s.began c).badWord c 4)) ∧
      ((∀ i, i < 512 → l.getD (2 * i) 0 ^ 2 + l.getD (2 * i + 1) 0 ^ 2 ≤ 169) →
        ∃ t, exec (.descPatternLoad c) s = .next t ∧ t.answered c OK 0 [] ∧ t.ctxAt m.ctx = { s.ctxAt m.ctx with pattern := l } ∧
          (∀ j, j ≠ m.ctx → t.ctxAt j = s.ctxAt j) ∧ otherCmds s t c ∧ t = { s with cmds := t.cmds, ctxs := t.ctxs })))

/-- For the oldest frame of a stream that lacks the unit, on an instance that is free, with the lines the unit reads in place and no
unit of another stream that R241 puts before it: a remap cell row appends up to 16 output lines of level 0, each pixel by R246
to R250; a pyramid row appends one line of its level by R256 and R257, from the rows of the level before; a corner cell row
stores the corners R294 keeps; a descriptor unit stores the corner's bin and descriptor, and the patch of R300 at the level
latched for the frame where a patch is asked; a flow unit, for the point R308 starts next, stores the result of R309 and R310,
DROPPED with no iteration for a dropped point (open gradients and errors, assumption 16). The frame becomes HELD, or, where
every reader has ended with it, its buffer is free; no other stream changes. A remap unit whose check fails on an instance that
did not fail within a day of operation changes no stream, takes the instance out of its pool and raises ENGINE_INSTANCE_OUT
cause 1. -/
def Obligations.EngineUnitsExtendTheFrame : Prop :=
  (∀ (s : State) (n row inst k : Nat) (b b' : FrameBuf), (s.streamAt n).remapNext = some (k, b) → Tab.get? (s.streamAt n).bufs k = some b →
    Tab.has s.streams n = true → s.engineFree 0 inst = true → s.poolOk 16 = true → s.goesFirst remapPending n = true → b.rows 0 = 16 * row →
    (b.complete = true ∨ b.lastSource row < b.lines.length) →
    b' = { b with
      state := .held, gridVersion := b.g.version, levelMask := b.levelMask ||| 1,
      levels := Tab.put b.levels 0 (b.level 0 ++ (List.range (min 16 (b.h 0 - 16 * row))).map fun i =>
        (16 * row + i, remapLine b.g b.chain.remapEn (fun x y => (b.lines.getD y []).getD x 0) (16 * row + i))) } →
    ∃ t, exec (.remapCellRow n row inst false) s = .next t ∧ t.bufHolds n k b' ∧ (∀ j, j ≠ n → Tab.get? t.streams j = Tab.get? s.streams j) ∧
      t = { s with streams := t.streams, power := t.power, events := t.events, tether := t.tether, free := t.free }) ∧
  (∀ (s : State) (n row inst k : Nat) (b : FrameBuf),
    (s.streamAt n).remapNext = some (k, b) → s.engineFree 0 inst = true → s.poolOk 16 = true → s.goesFirst remapPending n = true →
    b.rows 0 = 16 * row → (b.complete = true ∨ b.lastSource row < b.lines.length) → s.failedToday 0 inst = false →
    ∃ t e, exec (.remapCellRow n row inst true) s = .next t ∧ t.streams = s.streams ∧ (t.engineAt inst).out = true ∧
      (t.engineAt inst).retired = (s.engineAt inst).retired ∧ (∀ j, j ≠ inst → t.engineAt j = s.engineAt j) ∧
      t.events = s.events ++ [e] ∧ e.code = 0x8504 ∧ e.detail = BitVec.ofNat 16 (inst * 256 + 1) ∧
      t = { s with engines := t.engines, power := t.power, events := t.events, tether := t.tether, free := t.free }) ∧
  (∀ (s : State) (n level row inst k : Nat) (b b' : FrameBuf), (s.streamAt n).pyramidNext level = some (k, b) →
    Tab.get? (s.streamAt n).bufs k = some b → Tab.has s.streams n = true → s.engineFree 1 inst = true → s.poolOk 16 = true → 1 ≤ level →
    s.goesFirst pyramidPending n = true → b.rows level = row → b.canRead (level - 1) (2 * row + 3) = true →
    b' = { b with
      state := .held, levelMask := b.levelMask ||| BitVec.ofNat 8 (2 ^ level),
      levels := Tab.put b.levels level
        (b.level level ++ [(row, pyramidLine (b.virt (level - 1)) (b.w (level - 1)) (b.h (level - 1)) row)]) } →
    ∃ t, exec (.pyramidRow n level row inst false) s = .next t ∧ t.bufHolds n k b' ∧ (∀ j, j ≠ n → Tab.get? t.streams j = Tab.get? s.streams j) ∧
      t = { s with streams := t.streams, power := t.power, events := t.events, tether := t.tether, free := t.free }) ∧
  (∀ (s : State) (n row inst k q : Nat) (b b' : FrameBuf), (s.streamAt n).cornerNext = some (k, b) → Tab.get? (s.streamAt n).bufs k = some b →
    Tab.has s.streams n = true → s.engineFree 3 inst = true → s.poolOk 16 = true → s.goesFirst cornerPending n = true → b.corners.length = row →
    b.hasRows b.feat.cornerLevel (b.feat.cellEdge * (row + 1) + 4) = true →
    q = b.quota.getD (256 * ((s.sessionAt (s.streamAt n).ctx).getD {}).level 1) →
    b' = { b with
      state := .held, quota := some q,
      corners := Tab.put b.corners row
        (cornerRow (b.level b.feat.cornerLevel) (b.w b.feat.cornerLevel) (b.h b.feat.cornerLevel) b.feat q row) } →
    ∃ t, exec (.cornerCellRow n row inst false) s = .next t ∧ t.bufHolds n k b' ∧ (∀ j, j ≠ n → Tab.get? t.streams j = Tab.get? s.streams j) ∧
      t = { s with streams := t.streams, power := t.power, events := t.events, tether := t.tether, free := t.free }) ∧
  (∀ (s : State) (n i inst k : Nat) (b : FrameBuf) (c : Corner) (w : DescWork), (s.streamAt n).descNext = some (k, b) →
    Tab.get? (s.streamAt n).bufs k = some b → Tab.has s.streams n = true → b.cornerAll[i]? = some c → s.engineFree 4 inst = true →
    s.poolOk 16 = true → s.goesFirst descPending n = true → Tab.has b.descs i = false → w = b.descWork (s.descLevel n) c → b.descReady w c = true →
    ∃ t b' d, exec (.descriptorUnit n i inst false) s = .next t ∧ t.bufHolds n k b' ∧
      b' = { b with state := .held, patchLevel := some w.level, descs := Tab.put b.descs i d } ∧
      w.level = b.patchLevel.getD (((s.sessionAt (s.streamAt n).ctx).getD {}).level 2) ∧
      d.bin = orientBin (b.level b.feat.cornerLevel) (b.w b.feat.cornerLevel) (b.h b.feat.cornerLevel) c.x c.y ∧
      d.desc = (if b.feat.descMode = 2 then List.replicate 32 0 else (describe (b.level b.feat.cornerLevel) (b.w b.feat.cornerLevel)
        (b.h b.feat.cornerLevel) (s.ctxAt (s.streamAt n).ctx).pattern d.bin c.x c.y).1) ∧
      (b.feat.descMode < 2 → d.patch = []) ∧
      (2 ≤ b.feat.descMode → d.patch = (patchOf (b.virt w.level) (b.w w.level) (b.h w.level) b.g.u16 b.feat d.bin
        (atLevel c.x b.feat.cornerLevel w.level) (atLevel c.y b.feat.cornerLevel w.level)).1) ∧
      (∀ j, j ≠ n → Tab.get? t.streams j = Tab.get? s.streams j) ∧
      t = { s with streams := t.streams, power := t.power, events := t.events, tether := t.tether, free := t.free }) ∧
  (∀ (s : State) (n i inst k : Nat) (b prev : FrameBuf) (p : FlowPt), (s.streamAt n).flowNext = some (k, b, prev) →
    Tab.get? (s.streamAt n).bufs k = some b → Tab.has s.streams n = true → (s.streamAt n).flowPoint b = some (i, p) → s.engineFree 5 inst = true →
    s.poolOk 16 = true → s.goesFirst flowPending n = true → b.flowRows p = true →
    ∃ t b' r free, exec (.flowPoint n i inst false) s = .next t ∧ Tab.get? (t.streamAt n).bufs k = some b' ∧
      r = flowResult (flowViews prev b) b.feat p free ∧ r.id = p.id ∧ r.status ≤ 8 ∧ (bit p.hint 1 = true ↔ r.status = 8) ∧
      (r.status = 8 → r.iters = 0) ∧
      b' = { b with state := .held, flowPair := some (s.streamAt n).pointsSet, flow := Tab.put b.flow i r } ∧
      (∀ j, j ≠ n → Tab.get? t.streams j = Tab.get? s.streams j) ∧
      t = { s with streams := t.streams, power := t.power, events := t.events, tether := t.tether, free := t.free })

/-- The engine never writes a disparity from 0x1000 to 0xFFFA. A strip whose lines are held, and before which R241 puts no other
pair, appends its lines of the left image at the matched level, each pixel by R271 to R275; the first strip of a frame set takes
the waiting configuration and latches the level; the last applies the median of R276 where MEDIAN_EN is set, counts the five
special codes and ends the match on both streams. With COPY_TILE set the lines also go to the tile stores of the working band.
FEATURE_BLOCK_DONE, once every list is complete, drops the corners that QUOTA leaves out, writes DONE equal to the frame set
and, where flow runs, closes the point list of R304 for this frame set; with COPY_TILE in PATCH_FLAGS the patches also go to the
tile stores. -/
def Obligations.StereoStripsAndFeatureBlocksComplete : Prop :=
  (∀ (v : Views) (c : PairCfg) (x y : Nat), v.disparity c x y ≤ 0xFFF ∨ (0xFFFB ≤ v.disparity c x y ∧ v.disparity c x y ≤ 0xFFFF)) ∧
  (∀ (s : State) (ctx p strip lv : Nat) (c : PairCfg) (w : PairWork) (bl br : FrameBuf) (v : Views) (rows : Tab (List Nat)),
    stereoWork s ctx p = some w → c = w.cfg → bl = w.bl → br = w.br → lv = w.level → Tab.get? (s.streamAt c.left).bufs w.kl = some bl →
    Tab.has s.streams c.left = true → c.left ≠ c.right → w.ready = true → w.strip = strip → (strip ≠ 0 → bl.disp.isSome = true) →
    s.engineFree 2 0 = true → s.poolOk 16 = true → s.goesFirst stereoPending c.left = true →
    v = { left := bl.level lv, right := br.level lv, w := bl.w lv, h := bl.h lv } →
    rows = (if strip = 0 then [] else (bl.disp.getD {}).rows) ++ (List.range (min 8 (v.h - 8 * strip))).map (fun i =>
      (8 * strip + i, (List.range v.w).map fun u => v.disparity c u (8 * strip + i))) →
    ∃ t b' d, exec (.stereoStrip ctx p strip false) s = .next t ∧ t.bufHolds c.left w.kl b' ∧ b'.disp = some d ∧
      (8 * strip + 8 < v.h → d.rows = rows) ∧
      (v.h ≤ 8 * strip + 8 → b'.stereo = 2 ∧ d.rows = (if bit c.flags 0 then medianImage rows else rows) ∧ d.codes = codeCounts d.rows) ∧
      (strip = 0 → d.level = lv ∧ d.minDisp = c.minDisp ∧ d.numDisp = c.numDisp ∧ d.gridLeft = bl.gridVersion ∧ d.gridRight = br.gridVersion) ∧
      (∀ j, j ≠ c.left → j ≠ c.right → Tab.get? t.streams j = Tab.get? s.streams j) ∧ (bit c.flags 1 = false → t.tiles = s.tiles) ∧
      t = { s with streams := t.streams, ctxs := t.ctxs, power := t.power, tiles := t.tiles, events := t.events, tether := t.tether, free := t.free }) ∧
  (∀ (s : State) (ctx p : Nat) (c : PairCfg) (x : SessionS), s.pairCfgAt ctx p = some c → c.frameSet = none → s.sessionAt ctx = some x →
    ∀ w, stereoWork s ctx p = some w → w.strip = 0 ∧ w.cfg = (if c.next = [] then c else c.ofBytes c.next) ∧ w.br.frameSet = w.bl.frameSet ∧
      w.level = matchedLevel (x.level 0) x.lowStereo w.bl.chain.levelMask w.br.chain.levelMask) ∧
  (∀ (s : State) (n k : Nat) (b : FrameBuf), Tab.get? (s.streamAt n).bufs k = some b → Tab.has s.streams n = true →
    (s.streamAt n).oldest (fun b => b.featWanted && b.done.isNone) = some (k, b) → b.complete = true → b.levelsDone = true → b.cornersDone = true →
    (b.usesDescs = true → b.cornerAll.length ≤ b.descs.length) →
    (b.usesFlow = true → (s.streamAt n).paired b = true → (s.streamAt n).points.length ≤ b.flow.length) →
    ∃ t b', exec (.featureBlockDone n) s = .next t ∧ t.bufHolds n k b' ∧ b'.done = some b.frameSet ∧
      (∀ c ∈ b'.cornerAll, c ∈ cornerList (b.quota.getD 0) b.corners) ∧
      b'.pairedSet = (if b.usesFlow && (s.streamAt n).paired b then (s.streamAt n).pointsSet.getD 0xFFFFFFFF else 0xFFFFFFFF) ∧
      (b.usesFlow = false → (t.streamAt n).points = (s.streamAt n).points ∧ t.events = s.events) ∧
      (b.usesFlow = true →
        (t.streamAt n).points = (buildPoints b.feat b.flow (cornerList (b.quota.getD 0) b.corners) (s.streamAt n).flowId).1 ∧
        (t.streamAt n).pointsSet = some b.frameSet ∧ (t.streamAt n).prevBuf = some k ∧
        ((s.streamAt n).paired b = false → ∃ e, t.events = s.events ++ [e] ∧ e.code = 0x8503)) ∧
      (∀ j, j ≠ n → Tab.get? t.streams j = Tab.get? s.streams j) ∧ (bit b.feat.patchFlags 2 = false → t.tiles = s.tiles) ∧
      t = { s with streams := t.streams, ctxs := t.ctxs, tiles := t.tiles, events := t.events, tether := t.tether })

/-- QUADRILLE_LOAD and QUADRILLE_RUN are NOT_OWNER outside context 0. A load into slots 8 to 15 of a graph that R321 accepts stores
its nodes, and is BUSY where the slot is the running one; into slots 0 to 7 it is BAD_PARAM. A run of a slot with a graph, with
no graph running, starts it; beside a pose-producing session it starts only where the graph takes one instance of a kind whose
whole pool is there and no stereo engine, and is BUSY else. The ready node of lowest index records 1 passed, 2 CRC mismatch or 3
check failure, and no chain descriptor starts an instance that the running graph holds; when no node is ready the graph ends,
QUADRILLE_DONE is raised and the command answers 0 for a graph without failure and 1 else. A recovery graph that passes returns
its instance with ENGINE_INSTANCE_RETURNED; one that fails retires it. -/
def Obligations.QuadrilleRunsGraphsOnPooledInstances : Prop :=
  (∀ (s : State) (c : CmdRef) (m : Cmd), m.ctx ≠ 0 →
    (s.runs c 0x0505 m → exec (.quadrilleLoad c) s = .next ((s.began c).refuseOpen c NOT_OWNER)) ∧
    (s.runs c 0x0506 m → exec (.quadrilleRun c) s = .next ((s.began c).refuseOpen c NOT_OWNER))) ∧
  (∀ (s : State) (c : CmdRef) (m : Cmd), s.runs c 0x0505 m → m.ctx = 0 →
    (fld (m.w 3) 3 0 < 8 → exec (.quadrilleLoad c) s = .next ((s.began c).badWord c 3)) ∧
    ((s.quad.running.any fun r => r.1 == fld (m.w 3) 3 0) = true → 8 ≤ fld (m.w 3) 3 0 →
      exec (.quadrilleLoad c) s = .next ((s.began c).refuseOpen c BUSY)) ∧
    (∀ b, 8 ≤ fld (m.w 3) 3 0 → (s.quad.running.any fun r => r.1 == fld (m.w 3) 3 0) = false → sgIn m 4 s = .bytes b → graphOk s b = true → m.ref = c →
      ∃ t, exec (.quadrilleLoad c) s = .next t ∧ t.answered c OK 0 [] ∧
        Tab.get? t.quad.slots (fld (m.w 3) 3 0) = some ((List.range (leAt b 0 4)).map fun i => parseNode (slice b (16 + 32 * i) 32)) ∧
        (∀ j, j ≠ fld (m.w 3) 3 0 → Tab.get? t.quad.slots j = Tab.get? s.quad.slots j) ∧ otherCmds s t c ∧
        t = { s with cmds := t.cmds, quad := { s.quad with slots := t.quad.slots } })) ∧
  (∀ (s : State) (c : CmdRef) (m : Cmd), s.runs c 0x0506 m → m.ctx = 0 → graphAt s (fld (m.w 3) 3 0) ≠ [] →
    (s.quad.running = none → (s.poseSession = true → ∀ q ∈ graphAt s (fld (m.w 3) 3 0),
        q.kind ≠ 2 ∧ heldBack (graphAt s (fld (m.w 3) 3 0)) q = true ∧ s.poolSize q.kind = engineCount q.kind) →
      exec (.quadrilleRun c) s = .next { s.began c with quad := { s.quad with running := some (fld (m.w 3) 3 0, c), results := [] } }) ∧
    (s.poseSession = true → (∃ q ∈ graphAt s (fld (m.w 3) 3 0),
        q.kind = 2 ∨ heldBack (graphAt s (fld (m.w 3) 3 0)) q = false ∨ s.poolSize q.kind < engineCount q.kind) →
      exec (.quadrilleRun c) s = .next ((s.began c).refuseOpen c BUSY)) ∧
    (s.quad.running.isSome = true → exec (.quadrilleRun c) s = .next ((s.began c).refuseOpen c BUSY))) ∧
  (∀ (s : State) (slot i : Nat) (c : CmdRef) (out : List Byte) (q : QNode), s.quad.running = some (slot, c) →
    ((List.range (graphAt s slot).length).find? fun i => nodeReady (graphAt s slot) s.quad.results i) = some i → (graphAt s slot)[i]? = some q →
    s.poolOk 16 = true → (s.poseSession = true → q.kind ≠ 2 ∧ heldBack (graphAt s slot) q = true) →
    s.engineFree q.kind q.instance_ = false ∧
    ∀ res, res = Tab.put s.quad.results i (if q.check = true ∧ crc32 out ≠ q.crc then 2 else 1) →
    (((List.range (graphAt s slot).length).any fun j => nodeReady (graphAt s slot) res j) = true →
      ∃ t, exec (.quadrilleNode i out false) s = .next t ∧ t.quad.results = res ∧ t.quad.running = s.quad.running ∧
        t = { s with quad := t.quad, power := t.power, free := t.free }) ∧
    (((List.range (graphAt s slot).length).any fun j => nodeReady (graphAt s slot) res j) = false → s.findCmd c = none →
      ∃ t e, exec (.quadrilleNode i out false) s = .next t ∧ t.quad.results = res ∧ t.quad.running = none ∧ t.events = s.events ++ [e] ∧ e.code = 0x8506 ∧
        e.detail = BitVec.ofNat 16 (slot * 256 + if ((List.range (graphAt s slot).length).any fun j => decide (2 ≤ Tab.getD res j 0)) then 1 else 0) ∧
        t = { s with quad := t.quad, events := t.events, tether := t.tether, power := t.power, free := t.free }) ∧
    (∀ m : Cmd, ((List.range (graphAt s slot).length).any fun j => nodeReady (graphAt s slot) res j) = false → s.findCmd c = some m → m.ref = c →
      ∃ t e, exec (.quadrilleNode i out false) s = .next t ∧ t.quad.results = res ∧ t.quad.running = none ∧ t.events = s.events ++ [e] ∧ e.code = 0x8506 ∧
        t.answered c (if (graphAt s slot).length ≤ m.sgTotal 4 then OK else OK_PARTIAL) 0
          [w32 (if ((List.range (graphAt s slot).length).any fun j => decide (2 ≤ Tab.getD res j 0)) then 1 else 0), w32 res.length] ∧
        otherCmds s t c ∧ t.streams = s.streams ∧ t.engines = s.engines ∧ t.ctxs = s.ctxs)) ∧
  (∀ (s : State) (kind inst : Nat), inst < engineCount kind → (s.engineAt (kind * 16 + inst)).out = true →
    (s.engineAt (kind * 16 + inst)).retired = false → (kind = 2 → s.poseSession = false) → s.life.main ≠ .off →
    (∃ t e, exec (.engineRecoveryGraph kind inst true) s = .next t ∧ (t.engineAt (kind * 16 + inst)).out = false ∧
      (∀ j, j ≠ kind * 16 + inst → t.engineAt j = s.engineAt j) ∧ t.events = s.events ++ [e] ∧ e.code = 0x8505 ∧
      t = { s with engines := t.engines, events := t.events, tether := t.tether }) ∧
    (∃ t e, exec (.engineRecoveryGraph kind inst false) s = .next t ∧ (t.engineAt (kind * 16 + inst)).retired = true ∧
      (t.engineAt (kind * 16 + inst)).out = true ∧ (∀ j, j ≠ kind * 16 + inst → t.engineAt j = s.engineAt j) ∧ t.events = s.events ++ [e] ∧
      e.code = 0x8504 ∧ fld e.detail 7 0 = 2 ∧ t = { s with engines := t.engines, events := t.events, tether := t.tether, age := t.age }))

/-- RIG_WRITE naming IMU0, C0 or C1 is BAD_PARAM; while a grid of the camera's pair waits it is BUSY; else the context's entry for
that port and index is the one written, with ORIGIN 0. Outside a session nothing else changes; for a sensor that the session
binds the entry also waits for its frame set, what is in use stays, and both grids of a paired camera are made anew in their
shadow slots. FUSION_CONFIG with every value in range waits for the next association of the named session and is BAD_PARAM for a
value outside its range. CALIB_COMMIT is NOT_OWNER outside context 0, BUSY for an anchor camera while an anchor grid waits,
BAD_PARAM for a rotation that is not a unit quaternion (or a matrix that is not a rotation's), and else stores the record under
its key with ORIGIN 2, appends one ledger entry and raises its event; another key keeps its record. -/
def Obligations.RigAndCalibrationEntriesFollowTheirCommits : Prop :=
  (∀ (s : State) (c : CmdRef) (m : Cmd) (port index : Nat), s.runs c 0x0600 m → port = leAt (m.bytesAt 3 16) 0 1 → index = leAt (m.bytesAt 3 16) 1 1 →
    (port = 32 ∨ port = 0 ∨ port = 1 → exec (.rigWrite c) s = .next ((s.began c).badWord c 3)) ∧
    (rigKey port index = true → privilegedPort port = false → isCamera port = true →
      (∃ st ∈ refinedPair s m.ctx port index, (s.streamAt st).shadow.isSome = true) →
      exec (.rigWrite c) s = .next ((s.began c).refuseOpen c BUSY)) ∧
    (rigKey port index = true → privilegedPort port = false → s.sessionAt m.ctx = none →
      (isCamera port = true → ∀ st ∈ refinedPair s m.ctx port index, (s.streamAt st).shadow = none) →
      ∃ t e, exec (.rigWrite c) s = .next t ∧ t.answered c OK 0 [] ∧ t.ctxAt m.ctx = { s.ctxAt m.ctx with rig := (t.ctxAt m.ctx).rig } ∧
        Tab.get? (t.ctxAt m.ctx).rig (sensorKey port index) = some e ∧ e = { SensorEntry.ofBytes (m.bytesAt 3 16) with origin := 0 } ∧
        (∀ k, k ≠ sensorKey port index → Tab.get? (t.ctxAt m.ctx).rig k = Tab.get? (s.ctxAt m.ctx).rig k) ∧
        (∀ k, k ≠ m.ctx → t.ctxAt k = s.ctxAt k) ∧ otherCmds s t c ∧ t = { s with cmds := t.cmds, ctxs := t.ctxs }) ∧
    (∀ e, rigKey port index = true → privilegedPort port = false →
      (isCamera port = true → ∀ st ∈ refinedPair s m.ctx port index, (s.streamAt st).shadow = none) →
      e = { SensorEntry.ofBytes (m.bytesAt 3 16) with origin := 0 } →
      ∃ t, exec (.rigWrite c) s = .next t ∧ t.answered c OK 0 [] ∧ Tab.get? (t.ctxAt m.ctx).rig (sensorKey port index) = some e ∧
        (∀ k, k ≠ sensorKey port index → Tab.get? (t.ctxAt m.ctx).rig k = Tab.get? (s.ctxAt m.ctx).rig k) ∧
        t.ctxAt m.ctx = { s.ctxAt m.ctx with rig := (t.ctxAt m.ctx).rig, rigDue := (t.ctxAt m.ctx).rigDue } ∧
        ((s.sessionAt m.ctx).isSome = true → Tab.has (s.ctxAt m.ctx).inUse (sensorKey port index) = true →
          (t.ctxAt m.ctx).rigDue = (s.ctxAt m.ctx).rigDue ++ [(sensorKey port index, e, s.devNs)] ∧
          (isCamera port = true → ∀ st ∈ refinedPair s m.ctx port index, Tab.has s.streams st = true → (t.streamAt st).shadow.isSome = true ∧
            t.streamAt st = { s.streamAt st with shadow := (t.streamAt st).shadow })) ∧
        (∀ st, (isCamera port = false ∨ st ∉ refinedPair s m.ctx port index) → Tab.get? t.streams st = Tab.get? s.streams st) ∧
        (∀ k, k ≠ m.ctx → t.ctxAt k = s.ctxAt k) ∧ otherCmds s t c ∧
        t = { s with cmds := t.cmds, ctxs := t.ctxs, streams := t.streams, free := t.free })) ∧
  (∀ (s : State) (c : CmdRef) (m : Cmd) (x : SessionS), s.runs c 0x0602 m → s.sessionAt m.ctx = some x → x.number.toNat = fld (m.w 3) 15 0 →
    (∀ i, parseFusion (m.bytesAt 4 8) = .inl i → exec (.fusionConfig c) s = .next ((s.began c).badWord c i)) ∧
    (∀ f, parseFusion (m.bytesAt 4 8) = .inr f →
      (10 ≤ f.retro ∧ f.retro ≤ 500 ∧ 100 ≤ f.gate ∧ f.gate ≤ 2500 ∧ 1 ≤ f.newCost ∧ f.newCost ≤ 32767 ∧ 8 ≤ f.alignSamples ∧ f.alignSamples ≤ 255) ∧
      ∃ t, exec (.fusionConfig c) s = .next t ∧ t.answered c OK 0 [] ∧ t.sessionAt m.ctx = some { x with fusionNext := some f } ∧
        (∀ k, k ≠ m.ctx → t.ctxAt k = s.ctxAt k) ∧ otherCmds s t c ∧ t = { s with cmds := t.cmds, ctxs := t.ctxs })) ∧
  (∀ (s : State) (c : CmdRef) (m : Cmd), s.runs c 0x0604 m → m.ctx ≠ 0 → exec (.calibCommit c) s = .next ((s.began c).refuseOpen c NOT_OWNER)) ∧
  (∀ (s : State) (c : CmdRef) (m : Cmd) (port index : Nat), s.runs c 0x0604 m → m.ctx = 0 → bit (m.w 3) 16 = false → port = fld (m.w 3) 7 0 →
    index = fld (m.w 3) 15 8 → storeKey port index = true →
    (port = 0 ∨ port = 1 → anchorWaits s = true → exec (.calibCommit c) s = .next ((s.began c).refuseOpen c BUSY)) ∧
    (∀ off, port ≠ 0 → port ≠ 1 → commitRecord s port index (m.bytesAt 4 16) = .inl off →
      exec (.calibCommit c) s = .next ((s.began c).badWord c (4 + off / 4))) ∧
    (∀ b, port ≠ 0 → port ≠ 1 → commitRecord s port index (m.bytesAt 4 16) = .inr b → s.age.ledger.length < 16384 →
      ∃ t r d e, exec (.calibCommit c) s = .next t ∧ t.answered c OK 0 [] ∧ Tab.get? t.age.store (sensorKey port index) = some r ∧ r.bytes = b ∧
        r.time = s.devTime ∧ leAt b 3 1 = 2 ∧ (∀ k, k ≠ sensorKey port index → Tab.get? t.age.store k = Tab.get? s.age.store k) ∧
        t.age.ledger = s.age.ledger ++ [d] ∧ d.kind = 6 ∧ d.subject = port ∧ t.events = s.events ++ [e] ∧ e.code = 0x8605 ∧ otherCmds s t c ∧
        t = { s with cmds := t.cmds, age := t.age, events := t.events, tether := t.tether }))

/-- At the commit rendezvous of a pair in lockstep, equal buffers of a due POSE_FAST write one record, settle it and leave the pair
in state 0. Buffers of one POSE_FAST that differ name one band suspect: the pair enters state 1 with the other band as carrier,
and the suspect stops. When a record's deadline passes with no band able to carry it, the pair enters state 3, and in state 3 a
DEGRADED_RECORD settles the oldest POSE_FAST due. A frame set without a window state 1,400 µs after its close is covered with
the propagated state and no keyframe. (That a lone suspect's partner may itself be waiting is the model's choice, assumption
36.) -/
def Obligations.PairRecordsAreComparedOrCarried : Prop :=
  (∀ (s : State) (n : Nat) (near : Bool) (p : PairS) (x : SessionS) (a : CompareBuf) (d : Nat × Int × Nat), Tab.get? s.pairs n = some p → s.life.main ≠ .off →
    s.sessionAt n = some x → x.stopped = false → p.bandA ≠ p.bandB → p.state = 0 → (s.bandAt p.bandA).stopped = false → (s.bandAt p.bandB).stopped = false →
    p.bufA = [a] → p.bufB = [a] → a.isOpt = false → a.differs = false → x.fastDue = [d] → a.key = d.1 →
    ∃ t y q, exec (.pairCommit n near) s = .next t ∧ t.sessionAt n = some y ∧ y.fastDue = [] ∧
      (y.rings.getD 0 {}).lastSeq = (x.rings.getD 0 {}).seq ∧ Tab.get? t.pairs n = some q ∧ q.state = 0 ∧ q.bufA = [] ∧ q.bufB = [] ∧
      (∀ k, k ≠ n → t.ctxAt k = s.ctxAt k) ∧ (∀ k, k ≠ n → Tab.get? t.pairs k = Tab.get? s.pairs k) ∧
      t = { s with ctxs := t.ctxs, pairs := t.pairs, bands := t.bands, hostMem := t.hostMem, held := t.held, events := t.events, tether := t.tether }) ∧
  (∀ (s : State) (n : Nat) (near : Bool) (p : PairS) (x : SessionS) (a b : CompareBuf), Tab.get? s.pairs n = some p → s.life.main ≠ .off →
    s.sessionAt n = some x → p.bandA ≠ p.bandB → p.suspects = [] → Tab.has s.bands p.bandA = true → Tab.has s.bands p.bandB = true →
    (s.bandAt p.bandA).stopped = false → (s.bandAt p.bandB).stopped = false → p.bufA.head? = some a → p.bufB.head? = some b →
    a.isOpt = false → b.isOpt = false → a.key = b.key → a.agrees b = false →
    ∃ t q, exec (.pairCommit n near) s = .next t ∧ Tab.get? t.pairs n = some q ∧ q.state = 1 ∧
      q.carrier = some (if near then p.bandB else p.bandA) ∧ (t.bandAt (if near then p.bandA else p.bandB)).stopped = true ∧
      (t.bandAt (if near then p.bandB else p.bandA)).stopped = false ∧ t.hostBad = s.hostBad ∧ t.time = s.time ∧ t.maps = s.maps) ∧
  (∀ (s : State) (n : Nat) (p : PairS) (x : SessionS) (key : Nat), Tab.get? s.pairs n = some p → s.sessionAt n = some x → x.stopped = false →
    s.life.main ≠ .off → overdue s x = some (false, key) → p.bufA = [] → p.bufB = [] → p.state ≠ 3 → p.needCopy = [] →
    ∃ t q e, exec (.carrierDeadline n) s = .next t ∧ Tab.get? t.pairs n = some q ∧ q = { p with state := 3, carrier := none } ∧
      t.events = s.events ++ [e] ∧ e.code = 0x8C03 ∧ fld (e.detail.setWidth 32) 3 0 = 3 ∧ (∀ k, k ≠ n → Tab.get? t.pairs k = Tab.get? s.pairs k) ∧
      t = { s with pairs := t.pairs, events := t.events, tether := t.tether }) ∧
  (∀ (s : State) (n : Nat) (pose : PoseFast) (p : PairS) (x : SessionS) (d : Nat × Int × Nat), Tab.get? s.pairs n = some p → s.sessionAt n = some x →
    x.stopped = false → s.life.main ≠ .off → p.state = 3 → x.fastDue = [d] →
    ∃ t y, exec (.degradedRecord n pose) s = .next t ∧ t.sessionAt n = some y ∧ y.fastDue = [] ∧
      (y.rings.getD 0 {}).lastSeq = (x.rings.getD 0 {}).seq ∧ (∀ k, k ≠ n → t.ctxAt k = s.ctxAt k) ∧
      t = { s with ctxs := t.ctxs, pairs := t.pairs, bands := t.bands, hostMem := t.hostMem, held := t.held, events := t.events, tether := t.tether }) ∧
  (∀ (s : State) (n k at' : Nat) (w : WindowState) (x : SessionS) (f : FrameSet), s.sessionAt n = some x → Tab.get? x.sets k = some f → x.prof.pose = true →
    s.life.main ≠ .off → f.published = none → f.committed = false → f.abandoned = false → f.closed = some at' → at' + 1400000 ≤ s.devNs →
    ∃ t y, exec (.poseCoverDeadline n k w) s = .next t ∧ t.sessionAt n = some y ∧
      Tab.get? y.sets k = some { f with covered := true, published := some (firstPose x w), kfId := 0xFFFFFFFF, mapGen := x.optGen } ∧
      (x.newMap = false → firstPose x w = w) ∧ (x.newMap = true → (firstPose x w).pos = [0, 0, 0]) ∧ y.newMap = false ∧
      (∀ j, j ≠ k → Tab.get? y.sets j = Tab.get? x.sets j) ∧ (∀ j, j ≠ n → t.ctxAt j = s.ctxAt j) ∧
      t = { s with ctxs := t.ctxs, events := t.events, tether := t.tether })

/-- A MAP_CREATE that finds room makes a map at generation 0. A MAP_COMMIT that is due, with items other than a merge waiting,
leaves that map at its generation plus 1 (modulo 2^32); and whatever MAP_COMMIT does to a map that is not being withdrawn, the
generation afterwards is the one before or that plus 1. The other maps keep their generation. -/
def Obligations.NewMapsAndCommitsNumberTheGeneration : Prop :=
  (∀ (s : State) (c : CmdRef) (m : Cmd) (i h : Nat) (r : MapReq), s.runs c 0x0700 m → m.ref = c → i < 16 →
    (if fld (m.w 3) 7 0 = 0xFF then s.maps.lowestFree 16 else some (fld (m.w 3) 7 0)) = some i →
    Tab.has s.maps i = false → 1024 ≤ (m.w 7).toNat → withDefault (fld (m.w 8) 6 0) 4 100 25 = some h →
    r = { lm := (m.w 4).toNat, kf := (m.w 5).toNat, edge := (m.w 6).toNat, pool := (m.w 7).toNat, headroom := h } →
    s.tierFits m.ctx 2 r.granules = true → s.tablesFit r = true →
    ∃ t x, exec (.mapCreate c) s = .next t ∧ Tab.get? t.maps i = some x ∧ x.gen = 0) ∧
  (∀ (s : State) (map : Nat) (x : MapS), Tab.get? s.maps map = some x → s.mainOn = true →
    (∀ k, x.lastCommit = some k → 500000 ≤ s.time.ticks - k) →
    (x.queue.any fun q => match q.op with
      | .merge _ _ _ _ => false
      | _ => true) = true →
    ∃ t, exec (.mapCommit map) s = .next t ∧ (t.mapAt map).gen = x.gen + 1) ∧
  (∀ (s t : State) (map : Nat) (x : MapS), Tab.get? s.maps map = some x → x.withdrawn = false → exec (.mapCommit map) s = .next t →
    (t.mapAt map).gen = x.gen ∨ (t.mapAt map).gen = x.gen + 1) ∧
  (∀ (s t : State) (map k : Nat), k ≠ map → exec (.mapCommit map) s = .next t → Tab.has t.maps k = true → (t.mapAt k).gen = (s.mapAt k).gen)

/-- MAP_CREATE gives the context an empty map with its capacities, or with too little room or table space ends in NO_RESERVATION, or
BUSY for a number in use. A write of a map that the context does not own is NOT_OWNER. MAP_DESTROY removes a map that no
session, borrower or operation uses and is BUSY otherwise. MAP_LEND adds contexts to the loan, MAP_RECALL takes them off and is
BUSY while a session of one uses the map. MAP_QUERY answers with the current generation and changes no map's entries. MAP_EDIT's
known items wait for the next commit and the command with them. MAP_MERGE into itself is BAD_PARAM, without room NO_RESERVATION,
else it waits with both snapshots open. MAP_EXPORT into too small a buffer is BAD_PARAM 0x0014, else writes the container.
MAP_IMPORT ends with the first failing check and no map, or makes a map at generation 1. -/
def Obligations.MapCommandsByOwnerAndRoom : Prop :=
  (∀ (s : State) (c : CmdRef) (m : Cmd) (i h : Nat) (r : MapReq), s.runs c 0x0700 m → m.ref = c → i < 16 →
    (if fld (m.w 3) 7 0 = 0xFF then s.maps.lowestFree 16 else some (fld (m.w 3) 7 0)) = some i →
    1024 ≤ (m.w 7).toNat → withDefault (fld (m.w 8) 6 0) 4 100 25 = some h →
    r = { lm := (m.w 4).toNat, kf := (m.w 5).toNat, edge := (m.w 6).toNat, pool := (m.w 7).toNat, headroom := h } →
    (Tab.has s.maps i = true → exec (.mapCreate c) s = .next ((s.began c).refuseOpen c BUSY)) ∧
    (Tab.has s.maps i = false → (s.tierFits m.ctx 2 r.granules && s.tablesFit r) = false →
      exec (.mapCreate c) s = .next ((s.began c).refuseOpen c NO_RESERVATION)) ∧
    (Tab.has s.maps i = false → (s.tierFits m.ctx 2 r.granules && s.tablesFit r) = true →
      ∃ t, exec (.mapCreate c) s = .next t ∧ t.answered c OK 0 [w32 i] ∧
        Tab.get? t.maps i = some { owner := m.ctx, lmCap := r.lm * 65536, kfCap := r.kf * 16384, edgeCap := r.edge * 65536,
                                   featPool := r.pool * 65536, headroom := r.headroom } ∧
        (t.ctxAt m.ctx).hbmUsed = (s.ctxAt m.ctx).hbmUsed + r.granules ∧ (∀ k, k ≠ i → Tab.get? t.maps k = Tab.get? s.maps k) ∧
        (∀ k, k ≠ m.ctx → t.ctxAt k = s.ctxAt k) ∧ otherCmds s t c ∧ t = { s with cmds := t.cmds, ctxs := t.ctxs, maps := t.maps })) ∧
  (∀ (s : State) (c : CmdRef) (m : Cmd) (i : Nat) (x : MapS), m.ref = c → i = fld (m.w 3) 3 0 → Tab.get? s.maps i = some x → x.withdrawn = false →
    x.owner ≠ m.ctx →
    (s.runs c 0x0701 m → exec (.mapDestroy c) s = .next ((s.began c).refuseOpen c NOT_OWNER)) ∧
    (s.runs c 0x0703 m → exec (.mapEdit c) s = .next ((s.began c).refuseOpen c NOT_OWNER)) ∧
    (s.runs c 0x0704 m → exec (.mapLend c) s = .next ((s.began c).refuseOpen c NOT_OWNER)) ∧
    (s.runs c 0x0705 m → exec (.mapRecall c) s = .next ((s.began c).refuseOpen c NOT_OWNER)) ∧
    (s.runs c 0x0706 m → exec (.mapMerge c) s = .next ((s.began c).refuseOpen c NOT_OWNER)) ∧
    (s.runs c 0x0702 m → x.lent.getLsbD m.ctx = false → exec (.mapQuery c) s = .next ((s.began c).refuseOpen c NOT_OWNER)) ∧
    (s.runs c 0x0707 m → x.lent.getLsbD m.ctx = false → exec (.mapExport c) s = .next ((s.began c).refuseOpen c NOT_OWNER))) ∧
  (∀ (s : State) (c : CmdRef) (m : Cmd) (i : Nat) (x : MapS), m.ref = c → i = fld (m.w 3) 3 0 → Tab.get? s.maps i = some x → x.withdrawn = false →
    x.owner = m.ctx →
    (s.runs c 0x0701 m → s.mapSessions i ≠ [] ∨ x.lent ≠ 0 ∨ s.mapInFlight i = true →
      exec (.mapDestroy c) s = .next ((s.began c).refuseOpen c BUSY)) ∧
    (s.runs c 0x0701 m → s.mapSessions i = [] → x.lent = 0 → s.mapInFlight i = false →
      ∃ t, exec (.mapDestroy c) s = .next t ∧ t.answered c OK 0 [] ∧ Tab.get? t.maps i = none ∧
        (∀ k, k ≠ i → Tab.get? t.maps k = Tab.get? s.maps k) ∧ (∀ k, k ≠ m.ctx → t.ctxAt k = s.ctxAt k) ∧
        (t.ctxAt m.ctx).hbmUsed ≤ (s.ctxAt m.ctx).hbmUsed ∧ otherCmds s t c ∧
        t = { s with cmds := t.cmds, ctxs := t.ctxs, maps := t.maps, jobs := t.jobs }) ∧
    (s.runs c 0x0704 m → (fld (m.w 4) 7 0).testBit x.owner = false →
      ∃ t y, exec (.mapLend c) s = .next t ∧ t.answered c OK 0 [] ∧ Tab.get? t.maps i = some y ∧ y = { x with lent := y.lent } ∧
        (∀ k, k < 8 → y.lent.getLsbD k = (x.lent.getLsbD k || (m.w 4).getLsbD k)) ∧
        (∀ k, k ≠ i → Tab.get? t.maps k = Tab.get? s.maps k) ∧ otherCmds s t c ∧ t = { s with cmds := t.cmds, maps := t.maps }) ∧
    (s.runs c 0x0705 m → (fld (m.w 4) 7 0).testBit x.owner = false → (∃ k ∈ s.mapSessions i, (fld (m.w 4) 7 0).testBit k = true) →
      exec (.mapRecall c) s = .next ((s.began c).refuseOpen c BUSY)) ∧
    (s.runs c 0x0705 m → (fld (m.w 4) 7 0).testBit x.owner = false → (∀ k ∈ s.mapSessions i, (fld (m.w 4) 7 0).testBit k = false) →
      ∃ t y, exec (.mapRecall c) s = .next t ∧ t.answered c OK 0 [] ∧ Tab.get? t.maps i = some y ∧ y = { x with lent := y.lent } ∧
        (∀ k, k < 8 → y.lent.getLsbD k = (x.lent.getLsbD k && !(m.w 4).getLsbD k)) ∧
        (∀ k, k ≠ i → Tab.get? t.maps k = Tab.get? s.maps k) ∧ otherCmds s t c ∧ t = { s with cmds := t.cmds, maps := t.maps }) ∧
    (∀ (b : List Byte) (op : Byte) (e : List Byte), s.runs c 0x0703 m → m.sgTotal 4 = 136 → sgIn m 4 s = .bytes b → b = op :: e → b.length = 136 →
      op.toNat < 7 →
      ∃ t y q, exec (.mapEdit c) s = .next t ∧ Tab.get? t.maps i = some y ∧ y.queue = x.queue ++ [q] ∧ q.origin = .command c 0 ∧
        y.lms = x.lms ∧ y.kfs = x.kfs ∧ y.edges = x.edges ∧ y.gen = x.gen ∧ t.replyOf c = none ∧
        (∀ k, k ≠ i → Tab.get? t.maps k = Tab.get? s.maps k) ∧ otherCmds s t c ∧ t = { s with cmds := t.cmds, maps := t.maps }) ∧
    (s.runs c 0x0706 m → fld (m.w 3) 11 8 = i → exec (.mapMerge c) s = .next ((s.began c).badWord c 3)) ∧
    (∀ (src : Nat) (y : MapS) (b : List Byte), s.runs c 0x0706 m → src = fld (m.w 3) 11 8 → src ≠ i → Tab.get? s.maps src = some y →
      y.withdrawn = false → y.owner = m.ctx ∨ y.lent.getLsbD m.ctx = true → m.sgTotal 11 % 64 = 0 → m.sgTotal 11 ≤ 4096 → sgIn m 11 s = .bytes b →
      ((x.roomFor x.lmCap x.lms.length (y.lmsAt y.gen).length 0 && x.roomFor x.kfCap x.kfs.length (y.kfsAt y.gen).length 0
          && x.roomFor x.edgeCap x.edges.length (y.edgesAt y.gen).length 0) = false →
        exec (.mapMerge c) s = .next ((s.began c).refuseOpen c NO_RESERVATION)) ∧
      ((x.roomFor x.lmCap x.lms.length (y.lmsAt y.gen).length 0 && x.roomFor x.kfCap x.kfs.length (y.kfsAt y.gen).length 0
          && x.roomFor x.edgeCap x.edges.length (y.edgesAt y.gen).length 0) = true →
        ∃ t x' y', exec (.mapMerge c) s = .next t ∧ Tab.get? t.maps i = some x' ∧ Tab.get? t.maps src = some y' ∧
          x'.queue.length = x.queue.length + 1 ∧ x'.lms = x.lms ∧ x'.kfs = x.kfs ∧ x'.edges = x.edges ∧
          (∃ z ∈ x'.snaps, z.gen = x.gen ∧ z.holder = .command c) ∧ (∃ z ∈ y'.snaps, z.gen = y.gen ∧ z.holder = .command c) ∧
          y' = { y with snaps := y'.snaps, snapSeq := y'.snapSeq } ∧ t.replyOf c = none ∧ otherCmds s t c ∧
          t = { s with cmds := t.cmds, maps := t.maps }))) ∧
  (∀ (s : State) (c : CmdRef) (m : Cmd) (i : Nat) (x : MapS), m.ref = c → i = fld (m.w 3) 3 0 → Tab.get? s.maps i = some x → x.withdrawn = false →
    x.owner = m.ctx ∨ x.lent.getLsbD m.ctx = true →
    (s.runs c 0x0702 m → (m.w 5).toNat < 1 ∨ 65536 < (m.w 5).toNat → exec (.mapQuery c) s = .next ((s.began c).badWord c 5)) ∧
    (s.runs c 0x0702 m → 1 ≤ (m.w 5).toNat → (m.w 5).toNat ≤ 65536 →
      ∃ t y n len, exec (.mapQuery c) s = .next t ∧ (t.answered c OK 0 [x.gen, n, len] ∨ t.answered c OK_PARTIAL 0 [x.gen, n, len]) ∧
        Tab.get? t.maps i = some y ∧ y = { x with feats := y.feats, readClock := y.readClock } ∧
        (∀ k, k ≠ i → Tab.get? t.maps k = Tab.get? s.maps k) ∧ otherCmds s t c ∧
        t = { s with cmds := t.cmds, maps := t.maps, hostMem := t.hostMem }) ∧
    (s.runs c 0x0707 m → m.sgTotal 4 < (perraBytes s x x.gen (bit (m.w 3) 8)).length →
      exec (.mapExport c) s = .next ((s.began c).refuse c BAD_PARAM 0x0014)) ∧
    (s.runs c 0x0707 m → (perraBytes s x x.gen (bit (m.w 3) 8)).length ≤ m.sgTotal 4 →
      ∃ t, exec (.mapExport c) s = .next t ∧
        t.answered c OK 0 [w32 (perraBytes s x x.gen (bit (m.w 3) 8)).length, w32 (perraBytes s x x.gen (bit (m.w 3) 8)).length] ∧
        otherCmds s t c ∧ t = { s with cmds := t.cmds, hostMem := t.hostMem })) ∧
  (∀ (s : State) (c : CmdRef) (m : Cmd) (i h : Nat) (r : MapReq) (b : List Byte), s.runs c 0x0708 m → m.ref = c → i < 16 →
    (if fld (m.w 3) 7 0 = 0xFF then s.maps.lowestFree 16 else some (fld (m.w 3) 7 0)) = some i → Tab.has s.maps i = false →
    1024 ≤ (m.w 7).toNat → withDefault (fld (m.w 8) 6 0) 4 100 25 = some h → sgIn m 9 s = .bytes b →
    r = { lm := (m.w 4).toNat, kf := (m.w 5).toNat, edge := (m.w 6).toNat, pool := (m.w 7).toNat, headroom := h } →
    (∀ st d, importCheck b (bit (m.w 3) 8) = some (st, d) → exec (.mapImport c) s = .next ((s.began c).refuse c st d)) ∧
    (importCheck b (bit (m.w 3) 8) = none →
      r.lm * 65536 < (readMap b).lms.length ∨ r.kf * 16384 < (readMap b).kfs.length ∨ r.edge * 65536 < (readMap b).edges.length →
      exec (.mapImport c) s = .next ((s.began c).refuse c NO_RESERVATION 0)) ∧
    (importCheck b (bit (m.w 3) 8) = none → (readMap b).lms.length ≤ r.lm * 65536 → (readMap b).kfs.length ≤ r.kf * 16384 →
      (readMap b).edges.length ≤ r.edge * 65536 → (readMap b).poolUsed ≤ r.pool * 65536 →
      s.tierFits m.ctx 2 (r.granules + total ((readMap b).indexes.map fun y => y.2.granules)) = true → s.tablesFit r = true →
      s.vecCaps + total ((readMap b).indexes.map fun y => y.2.cap) ≤ 16777216 →
      ∃ t x, exec (.mapImport c) s = .next t ∧ t.answered c OK 0 [w32 i] ∧ Tab.get? t.maps i = some x ∧ x.gen = 1 ∧ x.owner = m.ctx ∧
        x.lms = (readMap b).lms ∧ (∀ e ∈ x.lms, e.genBorn = 1) ∧ (∀ e ∈ x.kfs, e.genBorn = 1) ∧ (∀ e ∈ x.edges, e.genBorn = 1) ∧
        x.nextLm = wordAt b 52 ∧ x.nextKf = wordAt b 56 ∧ x.nextEdge = wordAt b 60 ∧
        (∀ k, k ≠ i → Tab.get? t.maps k = Tab.get? s.maps k) ∧ (∀ k, k ≠ m.ctx → t.ctxAt k = s.ctxAt k) ∧ otherCmds s t c ∧
        t = { s with cmds := t.cmds, ctxs := t.ctxs, maps := t.maps }))

/-- A MAP_COMMIT of items other than a merge starts only 1 ms after the last; afterwards every landmark, keyframe and edge version
of that map is one from before, or carries GEN_BORN or GEN_DEAD of the new generation, and the other maps keep their entries.
TOMBSTONE_FREE keeps exactly the versions that are live or dead after some open snapshot. GENERATION_SWEEP rewrites to current
minus 2^30 every GEN_BORN that far behind or further, and nothing else. MAP_DELTA_WRITE moves the session's base to the map's
generation, so that a second one writes nothing. -/
def Obligations.CommitsWriteTheNextGeneration : Prop :=
  (∀ (s : State) (map : Nat) (x : MapS), Tab.get? s.maps map = some x → s.mainOn = true →
    (∀ k, x.lastCommit = some k → s.time.ticks - k < 500000 → exec (.mapCommit map) s = .next s) ∧
    ((∀ k, x.lastCommit = some k → 500000 ≤ s.time.ticks - k) →
      (x.queue.any fun q => match q.op with
        | .merge _ _ _ _ => false
        | _ => true) = true →
      ∃ t, exec (.mapCommit map) s = .next t ∧ (t.mapAt map).gen = x.gen + 1 ∧ (t.mapAt map).lastCommit = some s.time.ticks ∧
        (∀ e ∈ (t.mapAt map).lms, e ∈ x.lms ∨ e.genBorn = x.gen + 1 ∨ e.genDead = x.gen + 1) ∧
        (∀ e ∈ (t.mapAt map).kfs, e ∈ x.kfs ∨ e.genBorn = x.gen + 1 ∨ e.genDead = x.gen + 1) ∧
        (∀ e ∈ (t.mapAt map).edges, e ∈ x.edges ∨ e.genBorn = x.gen + 1 ∨ e.genDead = x.gen + 1) ∧
        (∀ k, k ≠ map → (t.mapAt k).lms = (s.mapAt k).lms ∧ (t.mapAt k).kfs = (s.mapAt k).kfs ∧ (t.mapAt k).edges = (s.mapAt k).edges) ∧
        t.time = s.time ∧ t.ports = s.ports ∧ t.filters = s.filters ∧ t.tiles = s.tiles ∧ t.age = s.age ∧ t.sec = s.sec)) ∧
  (∀ (s : State) (map : Nat) (x : MapS), Tab.get? s.maps map = some x →
    ∃ t y, exec (.tombstoneFree map) s = .next t ∧ Tab.get? t.maps map = some y ∧ y.gen = x.gen ∧ y.snaps = x.snaps ∧ y.queue = x.queue ∧
      (∀ e, e ∈ y.lms ↔ e ∈ x.lms ∧ (e.genDead = 0xFFFFFFFF ∨ ∃ z ∈ x.snaps, z.gen ≠ e.genDead ∧ follows z.gen e.genDead = false)) ∧
      (∀ e, e ∈ y.kfs ↔ e ∈ x.kfs ∧ (e.genDead = 0xFFFFFFFF ∨ ∃ z ∈ x.snaps, z.gen ≠ e.genDead ∧ follows z.gen e.genDead = false)) ∧
      (∀ e, e ∈ y.edges ↔ e ∈ x.edges ∧ (e.genDead = 0xFFFFFFFF ∨ ∃ z ∈ x.snaps, z.gen ≠ e.genDead ∧ follows z.gen e.genDead = false)) ∧
      (∀ k, k ≠ map → Tab.get? t.maps k = Tab.get? s.maps k) ∧ t = { s with maps := t.maps, ctxs := t.ctxs }) ∧
  (∀ (s : State) (map : Nat) (x : MapS), Tab.get? s.maps map = some x →
    ∃ t y, exec (.generationSweep map) s = .next t ∧ Tab.get? t.maps map = some y ∧ y.lms.length = x.lms.length ∧
      (∀ (i : Nat) (e e' : Landmark), x.lms[i]? = some e → y.lms[i]? = some e' →
        e' = { e with genBorn := e'.genBorn } ∧
        e'.genBorn = if 2 ^ 30 ≤ (x.gen - e.genBorn).toNat then x.gen - 0x40000000 else e.genBorn) ∧
      (∀ (i : Nat) (e e' : Keyframe), x.kfs[i]? = some e → y.kfs[i]? = some e' →
        e' = { e with genBorn := e'.genBorn } ∧
        e'.genBorn = if 2 ^ 30 ≤ (x.gen - e.genBorn).toNat then x.gen - 0x40000000 else e.genBorn) ∧
      (∀ (i : Nat) (e e' : Edge), x.edges[i]? = some e → y.edges[i]? = some e' →
        e' = { e with genBorn := e'.genBorn } ∧
        e'.genBorn = if 2 ^ 30 ≤ (x.gen - e.genBorn).toNat then x.gen - 0x40000000 else e.genBorn) ∧
      y.kfs.length = x.kfs.length ∧ y.edges.length = x.edges.length ∧ y.gen = x.gen ∧ y.snaps = x.snaps ∧ y.feats = x.feats ∧
      (∀ k, k ≠ map → Tab.get? t.maps k = Tab.get? s.maps k) ∧ t = { s with maps := t.maps }) ∧
  (∀ (s : State) (n : Nat) (x : SessionS) (mp : MapS), s.sessionAt n = some x → x.withdrawn = false → Tab.get? s.maps x.map = some mp →
    (mp.gen = x.deltaGen → exec (.mapDeltaWrite n) s = .next s) ∧
    (mp.gen ≠ x.deltaGen →
      ∃ t y z parts, exec (.mapDeltaWrite n) s = .next t ∧ t.sessionAt n = some y ∧ y.deltaGen = mp.gen ∧ 1 ≤ parts ∧
        (y.rings.getD 2 {}).seq = (x.rings.getD 2 {}).seq + w32 parts ∧
        Tab.get? t.maps x.map = some z ∧ z = { mp with log := z.log } ∧ exec (.mapDeltaWrite n) t = .next t ∧
        (∀ k, k ≠ n → t.ctxAt k = s.ctxAt k) ∧
        t = { s with ctxs := t.ctxs, maps := t.maps, hostMem := t.hostMem, held := t.held, events := t.events, tether := t.tether }))

/-- INDEX_CREATE with every value in range and room makes the index and answers its codebook's 64 bits; for a KIND the map has it is
BUSY, without room NO_RESERVATION. INDEX_DESTROY takes the index away, BUSY while a session or query uses it. SEARCH_INSERT
queues its vectors for the next commit and answers nothing yet. A SEARCH_QUERY in range joins its context's queue, BUSY behind
1,024 others. A scan gives each waiting query (up to 256) its own pass's candidates and snapshot, whatever else is in the batch.
A pass that ends with fewer than K survivors widens where WIDEN is set and lists are left, else it answers at most K results, OK
or OK_PARTIAL. A pipeline query, no more often than the loop-closure rate level allows, has K 8, OVERFETCH 4, no WIDEN, and
searches SIGNATURE where the place embedding runs classically. Of the loop candidates, one without features is dropped, a block
in host memory is promoted first, and a verified loop in a map of the context queues one correction. -/
def Obligations.SearchIndexesAndQueries : Prop :=
  (∀ (s : State) (c : CmdRef) (m : Cmd) (i kind : Nat) (x : MapS) (b : List Byte) (y : IndexS), s.runs c 0x0800 m → m.ref = c → i = fld (m.w 3) 7 0 → i < 16 →
    kind = fld (m.w 3) 15 8 → kind ≤ 1 → Tab.get? s.maps i = some x → x.withdrawn = false → x.owner = m.ctx →
    y.metric = fld (m.w 3) 23 16 → y.metric ≤ 2 → y.m = (if fld (m.w 3) 31 24 = 0 then 64 else fld (m.w 3) 31 24) → y.m ∈ [16, 32, 64, 128] →
    y.d = fld (m.w 4) 15 0 → 16 ≤ y.d → y.d ≤ 1024 → y.d % 16 = 0 → y.d % y.m = 0 → y.nlist = (m.w 5).toNat → y.nlist ∈ [256, 512, 1024, 4096, 65536] →
    y.cap = (if m.w 6 = 0 then ceilDiv x.kfCap 65536 * 65536 else (m.w 6).toNat) → y.cap % 65536 = 0 → m.sgTotal 11 = 2 * y.d * (y.nlist + 256) →
    (Tab.has x.indexes kind = true → exec (.indexCreate c) s = .next ((s.began c).refuseOpen c BUSY)) ∧
    (Tab.has x.indexes kind = false → sgIn m 11 s = .bytes b → s.indexFits m.ctx y = false →
      exec (.indexCreate c) s = .next ((s.began c).refuseOpen c NO_RESERVATION)) ∧
    (Tab.has x.indexes kind = false → sgIn m 11 s = .bytes b → s.indexFits m.ctx y = true →
      ∃ t x' z, exec (.indexCreate c) s = .next t ∧ Tab.get? t.maps i = some x' ∧ x' = { x with indexes := x'.indexes } ∧
        Tab.get? x'.indexes kind = some z ∧ z.metric = y.metric ∧ z.m = y.m ∧ z.d = y.d ∧ z.nlist = y.nlist ∧ z.cap = y.cap ∧ z.lists = [] ∧
        t.answered c OK 0 [w32 (leAt (sha512 b) 0 4), w32 (leAt (sha512 b) 4 4)] ∧
        (t.ctxAt m.ctx).hbmUsed = (s.ctxAt m.ctx).hbmUsed + y.granules ∧ (∀ k, k ≠ i → Tab.get? t.maps k = Tab.get? s.maps k) ∧
        (∀ k, k ≠ m.ctx → t.ctxAt k = s.ctxAt k) ∧ otherCmds s t c ∧ t = { s with cmds := t.cmds, ctxs := t.ctxs, maps := t.maps })) ∧
  (∀ (s : State) (c : CmdRef) (m : Cmd) (i kind : Nat) (x : MapS) (y : IndexS), m.ref = c → i = fld (m.w 3) 3 0 → kind = fld (m.w 3) 8 8 →
    Tab.get? s.maps i = some x → x.withdrawn = false → x.owner = m.ctx → Tab.get? x.indexes kind = some y →
    (s.runs c 0x0801 m → s.indexBusy i kind = true → exec (.indexDestroy c) s = .next ((s.began c).refuseOpen c BUSY)) ∧
    (s.runs c 0x0801 m → s.indexBusy i kind = false →
      ∃ t x', exec (.indexDestroy c) s = .next t ∧ Tab.get? t.maps i = some x' ∧ Tab.get? x'.indexes kind = none ∧
        (∀ k, k ≠ kind → Tab.get? x'.indexes k = Tab.get? x.indexes k) ∧ x' = { x with indexes := x'.indexes, queue := x'.queue } ∧
        ((∀ e ∈ x.kfs, e.live = true → e.kind = kind → e.vecId = 0xFFFFFFFF) → t.answered c OK 0 [] ∧ x'.queue = x.queue) ∧
        ((∃ e ∈ x.kfs, e.live = true ∧ e.kind = kind ∧ e.vecId ≠ 0xFFFFFFFF) → t.replyOf c = none ∧ x'.queue ≠ x.queue) ∧
        (∀ k, k ≠ m.ctx → t.ctxAt k = s.ctxAt k) ∧ otherCmds s t c ∧ t = { s with cmds := t.cmds, ctxs := t.ctxs, maps := t.maps }) ∧
    (∀ (b : List Byte) (n size : Nat) (int8 : Bool), s.runs c 0x0802 m → n = fld (m.w 3) 31 16 → 1 ≤ n → n ≤ 4096 →
      int8 = (m.sgTotal 4 == n * (16 + vectorBytes true y.d)) → size = 16 + vectorBytes int8 y.d → m.sgTotal 4 = n * size → sgIn m 4 s = .bytes b →
      (∀ k, k < n → (prepare y.metric (vectorOf int8 0x3F800000 y.d (slice b (k * size + 16) (size - 16)))).isSome = true) →
      ∃ t x', exec (.searchInsert c) s = .next t ∧ Tab.get? t.maps i = some x' ∧ x'.queue.length = x.queue.length + n ∧
        x' = { x with queue := x'.queue } ∧ t.replyOf c = none ∧ (∀ k, k ≠ i → Tab.get? t.maps k = Tab.get? s.maps k) ∧ otherCmds s t c ∧
        t = { s with cmds := t.cmds, maps := t.maps })) ∧
  (∀ (s : State) (c : CmdRef) (m : Cmd) (b : List Byte) (x : MapS) (y : IndexS) (k np lim fetch : Nat) (u : List Nat), s.runs c 0x0803 m → m.ref = c →
    sgIn m 3 s = .bytes b → leAt b 0 1 < 16 → Tab.get? s.maps (leAt b 0 1) = some x → x.withdrawn = false → x.usable m.ctx = true →
    Tab.get? x.indexes (leAt b 1 1) = some y → withDefault (leAt b 4 2) 1 256 8 = some k →
    withDefault (leAt b 6 2) 1 (min 1024 y.nlist) 32 = some np → withDefault (leAt b 8 2) np (min 1024 y.nlist) np = some lim →
    withDefault (leAt b 10 1) 1 16 4 = some fetch → leAt b 2 1 ≤ 1 → leAt b 11 1 ≤ 4 →
    m.sgTotal 3 = 32 + 32 * leAt b 11 1 + vectorBytes (leAt b 2 1 == 1) y.d →
    prepare y.metric (vectorOf (leAt b 2 1 == 1) (if wordAt b 12 = 0 then 0x3F800000 else wordAt b 12) y.d (b.drop (32 + 32 * leAt b 11 1))) = some u →
    (1024 < k * fetch → exec (.searchQuery c) s = .next ((s.began c).badWord c 3)) ∧
    (k * fetch ≤ 1024 → 1024 ≤ s.queued m.ctx → exec (.searchQuery c) s = .next ((s.began c).refuseOpen c BUSY)) ∧
    (k * fetch ≤ 1024 → s.queued m.ctx < 1024 →
      ∃ t q, exec (.searchQuery c) s = .next t ∧ Tab.get? t.queries s.nextQuery = some q ∧ q.cmd = some c ∧ q.ctx = m.ctx ∧ q.k = k ∧ q.nprobe = np ∧
        q.limit = lim ∧ q.overfetch = fetch ∧ q.gen = none ∧ q.scanning = false ∧ t.nextQuery = s.nextQuery + 1 ∧ t.replyOf c = none ∧
        (∀ j, j ≠ s.nextQuery → Tab.get? t.queries j = Tab.get? s.queries j) ∧ otherCmds s t c ∧
        t = { s with cmds := t.cmds, queries := t.queries, nextQuery := t.nextQuery })) ∧
  (∀ (s : State) (k : Nat) (q : QueryS) (x : IndexS), s.mainOn = true → s.poolOk 17 = true → Tab.sorted s.queries = true →
    (s.queries.filter fun e => !e.2.scanning).length ≤ 256 → Tab.get? s.queries k = some q → q.scanning = false →
    Tab.get? (s.mapAt q.map).indexes q.kind = some x →
    ∃ t q', exec (.searchScan []) s = .next t ∧ Tab.get? t.queries k = some q' ∧ q'.scanning = true ∧ q'.passes = q.passes + 1 ∧
      q'.gen = some (q.gen.getD (s.mapAt q.map).gen) ∧ q'.skipped = q.skipped ∧
      q'.order = (if q.gen.isSome then q.order else x.order (q.vector.map (·.toNat))) ∧
      q'.passCands = q.pass (q.gen.getD (s.mapAt q.map).gen) x q'.order ∧
      (∀ j e, Tab.get? s.queries j = some e → e.scanning = true → Tab.get? t.queries j = some e) ∧
      t = { s with queries := t.queries, maps := t.maps, power := t.power, free := t.free }) ∧
  (∀ (s : State) (k : Nat) (q : QueryS) (surv : List (Word × VecEntry)), s.mainOn = true → Tab.get? s.queries k = some q → q.scanning = true → q.aborting = false →
    surv = q.survivors ++ q.passCands.filter (fun r => q.terms.all fun t => t.passes r.2.tag) →
    (q.widen = true → surv.length < q.k → q.scanned < min q.limit q.order.length →
      exec (.searchPassEnd k) s = .next { s with queries := Tab.put s.queries k { q with survivors := surv, passCands := [], scanning := false } }) ∧
    (∀ (c : CmdRef) (m : Cmd), q.cmd = some c → s.findCmd c = some m → q.widen = false ∨ q.k ≤ surv.length ∨ min q.limit q.order.length ≤ q.scanned →
      ∃ t, exec (.searchPassEnd k) s = .next t ∧ Tab.get? t.queries k = none ∧
        t.answered c (if q.k ≤ surv.length ∧ 24 * q.k ≤ m.sgTotal 7 then OK else OK_PARTIAL) (q.passes % 16 + if q.skipped then 16 else 0)
          [w32 (min q.k surv.length)] ∧
        (∀ j, j ≠ k → Tab.get? t.queries j = Tab.get? s.queries j) ∧ otherCmds s t c ∧ t.time = s.time ∧ t.power = s.power ∧ t.events = s.events)) ∧
  (∀ (s : State) (n kind : Nat) (x : SessionS) (kf : Word) (v : List Word) (e : Keyframe) (y : IndexS) (u : List Nat), s.sessionAt n = some x →
    (s.mapAt x.map).liveKf kf = some e → kind = (if (x.classicalMask ||| x.unavailable).getLsbD 2 = true ∨ e.kind = 1 then 1 else 0) →
    Tab.get? (s.mapAt x.map).indexes kind = some y → (∀ t, x.loopLast = some t → 1000000 ≤ x.level 5 * s.since t) → x.prof.pose = true → x.stopping = false → s.mainOn = true →
    v.length = y.d → s.queued n < 1024 → prepare y.metric (v.map (·.toNat)) = some u →
    ∃ t q, exec (.loopQueryIssue n kf v) s = .next t ∧ Tab.get? t.queries s.nextQuery = some q ∧ q.cmd = none ∧ q.ctx = n ∧ q.kf = kf ∧ q.kind = kind ∧ q.k = 8 ∧
      q.overfetch = 4 ∧ q.widen = false ∧ q.nprobe = min (x.level 6) y.nlist ∧
      q.terms = [{ mask := 0xFFFFFFFFFFFFFF00, lo := BitVec.ofNat 64 (x.number.toNat * 2 ^ 48 + (e.tValid.toNat - 20000000000) / 2 ^ 24 * 256),
                   hi := BitVec.ofNat 64 (x.number.toNat * 2 ^ 48 + 0xFFFFFFFFFF00), range := true }] ∧
      (∀ j, j ≠ s.nextQuery → Tab.get? t.queries j = Tab.get? s.queries j) ∧ t.sessionAt n = some { x with loopLast := some s.time.ticks } ∧
      (∀ j, j ≠ n → t.ctxAt j = s.ctxAt j) ∧ t = { s with ctxs := t.ctxs, queries := t.queries, nextQuery := t.nextQuery }) ∧
  (∀ (s : State) (n : Nat) (v : LoopVerdict) (x : SessionS) (a : Word × Word) (l : List (Word × Word)) (mp : MapS) (e : Keyframe), s.sessionAt n = some x →
    x.loopCand = a :: l → s.mainOn = true → x.stopping = false → Tab.get? s.maps x.map = some mp → mp.liveKf a.2 = some e →
    (e.noFeatures = true → ∃ t, exec (.loopVerify n v) s = .next t ∧ t.sessionAt n = some { x with loopCand := l } ∧ t = { s with ctxs := t.ctxs }) ∧
    (e.noFeatures = false → (Tab.getD mp.feats a.2.toNat {}).inHost = true →
      ∃ t, exec (.loopVerify n v) s = .next t ∧ t.sessionAt n = some x ∧ (∃ j ∈ t.jobs, j.job = .featIn x.map a.2) ∧ t.maps = s.maps) ∧
    (e.noFeatures = false → (Tab.getD mp.feats a.2.toNat {}).inHost = false → (v.passed = false ∨ mp.owner ≠ n) →
      ∃ t z, exec (.loopVerify n v) s = .next t ∧ t.sessionAt n = some { x with loopCand := l } ∧ Tab.get? t.maps x.map = some z ∧
        z = { mp with feats := z.feats, readClock := z.readClock } ∧ t = { s with ctxs := t.ctxs, maps := t.maps }) ∧
    (e.noFeatures = false → (Tab.getD mp.feats a.2.toNat {}).inHost = false → v.passed = true → mp.owner = n →
      ∃ t z, exec (.loopVerify n v) s = .next t ∧ t.sessionAt n = some { x with loopCand := l } ∧ Tab.get? t.maps x.map = some z ∧
        z.queue = mp.queue ++ [{ op := .correct n a.1 a.2 v, origin := .pipeline n }] ∧
        z = { mp with queue := z.queue, feats := z.feats, readClock := z.readClock } ∧ (∀ k, k ≠ x.map → Tab.get? t.maps k = Tab.get? s.maps k) ∧
        t = { s with ctxs := t.ctxs, maps := t.maps }))

/-- In every state of a tile, whatever its predicate registers list, predicate register 0 reads as all ones, also through the view
that a band's step has of its tiles; and landing a write of P0 changes nothing at all. -/
def Obligations.PredicateZeroReadsAllOnes : Prop :=
  (∀ (t : TileS) (n : Nat), pReg t n 0 = BitVec.allOnes 64) ∧
  (∀ (s : State) (bn logical : Nat), (s.view bn logical).p 0 = BitVec.allOnes 64) ∧
  (∀ (s : State) (pair : Bool) (banks : List Nat) (n : Nat) (mask x : BitVec 64), applyLand pair banks (.preg n 0 mask x) s = s)

/-- When a band that may step issues an attempt in which a check of one of its units fails (and no row of its store is
uncorrectable), every tile keeps its vector, scalar and predicate registers, accumulators, weights and rows, the commons, the
objects and host memory keep their contents, the results in flight stay in flight, and the band's step number and program
address stay as they are, so that the same step is issued again. -/
def Obligations.FailedStepLandsNothing : Prop :=
  ∀ (s : State) (bn : Nat) (io : StepIO), s.canStep bn = true → (∃ u ∈ io.failing, u.1 < (s.bandAt bn).tiles.length ∧ u.2 ≤ 64) →
    (∀ u ∈ io.badRows, (s.bandAt bn).tiles.length ≤ u.1) →
    ((s.bandAt bn).program = true → ∃ img pb, s.program bn = some (img, pb) ∧
      (img.resident pb = true ∨ Tab.get? (s.bandAt bn).frames ((s.bandAt bn).pc / 1024 % 8) = some ((s.bandAt bn).pc / 1024)) ∧
      ∀ t < (s.bandAt bn).tiles.length, (tileColumn (s.view bn t) (img.col pb t (s.bandAt bn).pc)).moves = []) →
    ∃ t, exec (.bandStep bn io) s = .next t ∧
      (∀ n, (t.tileAt n).v = (s.tileAt n).v ∧ (t.tileAt n).s = (s.tileAt n).s ∧ (t.tileAt n).p = (s.tileAt n).p ∧ (t.tileAt n).acc = (s.tileAt n).acc ∧
        (t.tileAt n).la = (s.tileAt n).la ∧ (t.tileAt n).weights = (s.tileAt n).weights ∧ (t.tileAt n).rows = (s.tileAt n).rows ∧
        (t.tileAt n).arith = (s.tileAt n).arith) ∧
      (t.bandAt bn).step = (s.bandAt bn).step ∧ (t.bandAt bn).pc = (s.bandAt bn).pc ∧ (t.bandAt bn).inflight = (s.bandAt bn).inflight ∧
      t.dep.retries = s.dep.retries + 1 ∧ t.commons = s.commons ∧ t.objs = s.objs ∧ t.hostMem = s.hostMem ∧ t.maps = s.maps

/-- A step of a session's band that completes no stage advances its step number and changes nothing else but its pool. A column of a
one-tile program band that holds an S operation with a result writes that register of the tile at the end of the step, leaves
the tile's other S registers and goes on to the next column; a column of HALT halts the band. RENDEZVOUS_COMPLETE lets go
exactly the members that wait there and may leave. FABRIC_RENDEZVOUS_LATE is raised once for an arrival that has waited 1 ms. A
completed MVIN puts its rows into the tile's store and a completed MVOUT writes its object, and each lowers the flag; a loaded
code page takes its frame. -/
def Obligations.BandStepsIssueAndLand : Prop :=
  (∀ (s : State) (bn : Nat) (io : StepIO), s.canStep bn = true → (s.bandAt bn).program = false → io.failing = [] → io.badRows = [] → io.stage = none →
    ∃ t, exec (.bandStep bn io) s = .next t ∧ (t.bandAt bn).step = (s.bandAt bn).step + 1 ∧ (t.bandAt bn).started = true ∧
      t.bandAt bn = { s.bandAt bn with fails := [], started := true, step := (s.bandAt bn).step + 1, pool := (t.bandAt bn).pool } ∧
      (∀ k, k ≠ bn → t.bandAt k = s.bandAt k) ∧ t = { s with bands := t.bands, free := t.free, dep := { s.dep with corrected := t.dep.corrected } }) ∧
  (∀ (s : State) (bn n pb w : Nat) (x : Word) (img : ImageS), s.canStep bn = true → (s.bandAt bn).program = true → s.program bn = some (img, pb) →
    (s.bandAt bn).tiles = [n] → (s.bandAt bn).inflight = [] → (s.bandAt bn).loops = [] → (s.bandAt bn).delay = none →
    (img.resident pb = true ∨ Tab.get? (s.bandAt bn).frames ((s.bandAt bn).pc / 1024 % 8) = some ((s.bandAt bn).pc / 1024)) →
    (s.bandAt bn).pc + 1 < img.columns pb → img.col pb 0 (s.bandAt bn).pc = { s := w } → sl w 31 26 < 0x10 → sValue (s.view bn 0) w = some x →
    (s.ctxAt (s.bandAt bn).ctx).admitCmd = none →
    ∃ t, exec (.bandStep bn {}) s = .next t ∧ Tab.get? (t.tileAt n).s (sl w 25 21) = some x ∧
      (∀ r, r ≠ sl w 25 21 → Tab.get? (t.tileAt n).s r = Tab.get? (s.tileAt n).s r) ∧ (t.tileAt n).v = (s.tileAt n).v ∧
      (t.tileAt n).rows = (s.tileAt n).rows ∧ (t.bandAt bn).pc = (s.bandAt bn).pc + 1 ∧ (t.bandAt bn).step = (s.bandAt bn).step + 1 ∧
      (t.bandAt bn).halted = false ∧ (∀ k, k ≠ n → t.tileAt k = s.tileAt k) ∧ (∀ k, k ≠ bn → t.bandAt k = s.bandAt k) ∧
      t = { s with bands := t.bands, tiles := t.tiles, free := t.free }) ∧
  (∀ (s : State) (bn n pb : Nat) (img : ImageS), s.canStep bn = true → (s.bandAt bn).program = true → s.program bn = some (img, pb) →
    (s.bandAt bn).tiles = [n] → (s.bandAt bn).inflight = [] → (s.ctxAt (s.bandAt bn).ctx).admitCmd = none →
    (img.resident pb = true ∨ Tab.get? (s.bandAt bn).frames ((s.bandAt bn).pc / 1024 % 8) = some ((s.bandAt bn).pc / 1024)) →
    img.col pb 0 (s.bandAt bn).pc = { s := 0x17 * 2 ^ 26 } →
    ∃ t, exec (.bandStep bn {}) s = .next t ∧ (t.bandAt bn).halted = true ∧ (t.bandAt bn).step = (s.bandAt bn).step + 1 ∧ t.tiles = s.tiles ∧
      (∀ k, k ≠ bn → t.bandAt k = s.bandAt k) ∧ t = { s with bands := t.bands, free := t.free }) ∧
  (∀ (s : State) (rv : Nat), rv < 48 → (∃ m ∈ (Tab.getD s.rvs rv {}).members, (s.bandAt m).waiting = some rv ∧ s.mayLeave rv m = true) →
    ∃ t, exec (.rendezvousComplete rv) s = .next t ∧
      (∀ m, (t.bandAt m).waiting = if m ∈ (Tab.getD s.rvs rv {}).members ∧ (s.bandAt m).waiting = some rv ∧ s.mayLeave rv m = true then none
        else (s.bandAt m).waiting) ∧
      (∀ m, t.bandAt m = { s.bandAt m with waiting := (t.bandAt m).waiting }) ∧ t = { s with bands := t.bands }) ∧
  (∀ (s : State) (bn rv : Nat), Tab.has s.bands bn = true → (s.bandAt bn).waiting = some rv → (s.bandAt bn).lateRaised = false →
    msTicks 1 ≤ s.since (s.bandAt bn).waitSince →
    ∃ t e, exec (.fabricRendezvousLate bn) s = .next t ∧ t.bandAt bn = { s.bandAt bn with lateRaised := true } ∧ t.events = s.events ++ [e] ∧
      e.code = 0x8901 ∧ e.ctx = some (s.bandAt bn).ctx ∧ exec (.fabricRendezvousLate bn) t = .next t ∧
      t = { s with bands := t.bands, events := t.events, tether := t.tether }) ∧
  (∀ (s : State) (bn tile flag : Nat) (m : MoveS) (o : ObjS), 
    ((s.bandAt bn).moves.find? fun m => m.tile == tile && m.flag == flag && (m.suppressed || s.serves (.bandMove bn m.seq))) = some m →
    m.suppressed = false → Tab.get? s.objs m.obj = some o →
    ∃ t, exec (.moveComplete bn tile flag) s = .next t ∧
      (∀ x ∈ (t.bandAt bn).moves, x ∈ (s.bandAt bn).moves ∧ x.seq ≠ m.seq) ∧
      Tab.getD (t.tileAt ((s.bandAt bn).tiles.getD tile 0)).flags flag 0 = Tab.getD (s.tileAt ((s.bandAt bn).tiles.getD tile 0)).flags flag 0 - 1 ∧
      (m.isIn = true → (∀ k, k < m.nrows → o.readable (256 * (m.offset + k)) 256 = true →
          Tab.get? (t.tileAt ((s.bandAt bn).tiles.getD tile 0)).rows (m.row + k) = some (bytesRow (o.bytes (256 * (m.offset + k)) 256))) ∧
        (∀ r, r < m.row ∨ m.row + m.nrows ≤ r → Tab.get? (t.tileAt ((s.bandAt bn).tiles.getD tile 0)).rows r =
          Tab.get? (s.tileAt ((s.bandAt bn).tiles.getD tile 0)).rows r) ∧ t.objs = s.objs) ∧
      (m.isIn = false → Tab.get? t.objs m.obj = some (o.write (256 * m.offset) (m.data.flatMap rowBytes)) ∧
        (∀ k, k ≠ m.obj → Tab.get? t.objs k = Tab.get? s.objs k)) ∧ t.jobs = s.jobs.filter (fun r => decide (r.job ≠ .bandMove bn m.seq) && s.jobLive r.job) ∧
      t = { s with bands := t.bands, tiles := t.tiles, objs := t.objs, jobs := t.jobs }) ∧
  (∀ (s : State) (bn tile flag : Nat) (m : MoveS),
    ((s.bandAt bn).moves.find? fun m => m.tile == tile && m.flag == flag && (m.suppressed || s.serves (.bandMove bn m.seq))) = some m →
    m.suppressed = true →
    ∃ t, exec (.moveComplete bn tile flag) s = .next t ∧ (∀ x ∈ (t.bandAt bn).moves, x ∈ (s.bandAt bn).moves ∧ x.seq ≠ m.seq) ∧
      (∀ k, t.tileAt k = { s.tileAt k with flags := (t.tileAt k).flags }) ∧
      Tab.getD (t.tileAt ((s.bandAt bn).tiles.getD tile 0)).flags flag 0 = Tab.getD (s.tileAt ((s.bandAt bn).tiles.getD tile 0)).flags flag 0 - 1 ∧
      t = { s with bands := t.bands, tiles := t.tiles, jobs := t.jobs }) ∧
  (∀ (s : State) (bn page : Nat) (failed : Bool), (s.bandAt bn).loading.contains page = true → s.serves (.codePage bn page) = true →
    ∃ t, exec (.codePageLoaded bn page failed) s = .next t ∧ Tab.get? (t.bandAt bn).frames (page % 8) = some page ∧
      (∀ f, f ≠ page % 8 → Tab.get? (t.bandAt bn).frames f = Tab.get? (s.bandAt bn).frames f) ∧ (t.bandAt bn).loading.contains page = false ∧
      t.bandAt bn = { s.bandAt bn with frames := (t.bandAt bn).frames, loading := (t.bandAt bn).loading } ∧
      (∀ k, k ≠ bn → t.bandAt k = s.bandAt k) ∧ t.tiles = s.tiles ∧ t.objs = s.objs ∧ t.ctxs = s.ctxs ∧ t.hostMem = s.hostMem ∧
      (failed = true → ∃ e ∈ t.events, e.code = 0x8C05) ∧ (failed = false → t = { s with bands := t.bands, jobs := t.jobs })) ∧
  (∀ (s : State) (n st tile buf : Nat) (w : WStream) (f : Nat × Nat × List Nat) (o : ObjS),
    ([0, 1].find? fun b => s.serves (.streamFill n st b tile)) = some buf → s.fillOf n st buf tile = some (w, f, o) →
    ∃ t, exec (.streamLayerResident n st tile) s = .next t ∧
      (∀ r, r < (w.layers.getD f.2.1 (0, 0)).2 →
        Tab.get? (t.tileAt ((s.bandAt w.band).tiles.getD tile 0)).rows ((if f.1 = 0 then w.buf0 else w.buf1) + r) =
          some (bytesRow (o.bytes (256 * ((w.layers.getD f.2.1 (0, 0)).1 + tile * (w.layers.getD f.2.1 (0, 0)).2) + 256 * r) 256))) ∧
      (∀ j, j ≠ (s.bandAt w.band).tiles.getD tile 0 → t.tileAt j = s.tileAt j) ∧ (∀ k, k ≠ n → t.ctxAt k = s.ctxAt k) ∧
      t = { s with tiles := t.tiles, ctxs := t.ctxs, jobs := t.jobs })

/-- CONTEXT_ADMIT is BUSY for an admitted context, ends with the status and DETAIL of the image's first failing check, and is
NO_RESERVATION with nothing reserved when a tile, band number, commons bank, the host window, energy, search rate or HBM is
missing. With all of them it binds the image, as many bands as the image has, on numbers that no context held, and commons banks
that no context held; other contexts keep everything, and the command waits for the bands' first steps. CONTEXT_RELEASE is BUSY
during a session; else it answers OK, the context has no image, band, bank, energy share or search rate left, and its Reel
entries are free. -/
def Obligations.ContextsReserveAllOrNothing : Prop :=
  (∀ (s : State) (c : CmdRef) (m : Cmd) (b : List Byte) (x : CtxS), s.runs c 0x0900 m → m.ref = c → x = s.ctxAt m.ctx →
    (x.admitted = true → exec (.contextAdmit c) s = .next ((s.began c).refuseOpen c BUSY)) ∧
    (∀ st d, x.admitted = false → sgIn m 3 s = .bytes b → imageCheck b = some (st, d) →
      exec (.contextAdmit c) s = .next ((s.began c).refuse c st d)) ∧
    (∀ (img : ImageS) (req : List (Nat × Nat)) (banks : Nat), x.admitted = false → sgIn m 3 s = .bytes b → imageCheck b = none → img = parseImage b →
      req = img.bands.map (fun e => (e.getD 2 0, e.getD 1 0)) → banks = ceilDiv img.commonsRows 2048 →
      (placeTiles s [] req = none ∨ s.freeBands.length < req.length ∨ s.freeBanks.length < banks ∨ x.window = [] ∨
        s.energyFits (m.w 8).toNat = false ∨ s.searchFits (1000 * (m.w 9).toNat) = false ∨ (m.w 7).toNat < x.hbmUsed + img.codeGranules ∨
        s.hbmFree + x.hbmUsed < (m.w 7).toNat →
        exec (.contextAdmit c) s = .next ((s.began c).refuseOpen c NO_RESERVATION)) ∧
      ((placeTiles s [] req).isSome = true → req.length ≤ s.freeBands.length → banks ≤ s.freeBanks.length → x.window ≠ [] →
        s.energyFits (m.w 8).toNat = true → s.searchFits (1000 * (m.w 9).toNat) = true → x.hbmUsed + img.codeGranules ≤ (m.w 7).toNat →
        (m.w 7).toNat ≤ s.hbmFree + x.hbmUsed →
        ∃ t y, exec (.contextAdmit c) s = .next t ∧ t.ctxAt m.ctx = y ∧ y.image = some img ∧ y.admitCmd = some c ∧
          y.hbmGranules = (m.w 7).toNat ∧ y.hbmUsed = x.hbmUsed + img.codeGranules ∧ y.share = (m.w 8).toNat ∧
          y.searchRate = 1000 * (m.w 9).toNat ∧ y.window = x.window ∧ y.rig = x.rig ∧ y.windows = x.windows ∧ y.session = x.session ∧
          y.bands.length = img.bands.length ∧ (∀ k ∈ y.bands, Tab.has s.bands k = false ∧ (t.bandAt k).ctx = m.ctx ∧ (t.bandAt k).program = true) ∧
          y.banks.length = banks ∧ (∀ k ∈ y.banks, k < 56 ∧ ∀ n, n < 8 → k ∉ (s.ctxAt n).banks) ∧ t.replyOf c = none ∧
          (∀ k, k ≠ m.ctx → t.ctxAt k = s.ctxAt k) ∧ (∀ k, Tab.has s.bands k = true → Tab.get? t.bands k = Tab.get? s.bands k) ∧ otherCmds s t c ∧
          t = { s with cmds := t.cmds, ctxs := t.ctxs, bands := t.bands, tiles := t.tiles, rvs := t.rvs, pairs := t.pairs, epoch := t.epoch,
                       life := t.life, events := t.events, tether := t.tether }))) ∧
  (∀ (s : State) (c : CmdRef) (m : Cmd), s.runs c 0x0901 m →
    ((s.sessionAt m.ctx).isSome = true → exec (.contextRelease c) s = .next ((s.began c).refuseOpen c BUSY)) ∧
    (s.sessionAt m.ctx = none →
      ∃ t, exec (.contextRelease c) s = .next t ∧ t.answered c OK 0 [] ∧ (t.ctxAt m.ctx).image = none ∧
        ((s.ctxAt m.ctx).image.isSome = true → (t.ctxAt m.ctx).bands = [] ∧ (t.ctxAt m.ctx).banks = [] ∧ (t.ctxAt m.ctx).share = 0 ∧
          (t.ctxAt m.ctx).searchRate = 0 ∧ (t.ctxAt m.ctx).hbmGranules = 0 ∧ (∀ k ∈ (s.ctxAt m.ctx).bands, Tab.has t.bands k = false) ∧
          (∀ k e e', Tab.get? s.reel k = some e → Tab.get? t.reel k = some e' → (e.owner = m.ctx → e'.state = 0) ∧ (e.owner ≠ m.ctx → e' = e))) ∧
        (∀ d, d ≠ c → (s.ctxAt m.ctx).admitCmd ≠ some d → t.findCmd d = s.findCmd d) ∧
        t.hostMem = s.hostMem ∧ t.time = s.time ∧ t.maps = s.maps ∧ t.sec = s.sec ∧ t.age = s.age ∧ t.ports = s.ports))

/-- HOST_WINDOW_SET replaces the context's window, BUSY while it is admitted. OBJ_CREATE makes an object of the sender and charges
its home tier, NO_RESERVATION without room, BAD_PARAM out of range. A context that neither owns nor borrows an object is
NOT_OWNER, as is a borrower's write, seal, share or reload; an UNAVAILABLE object is answered WEIGHTS_UNAVAILABLE or
DATA_POISONED. OBJ_WRITE stores exactly its bytes, BAD_PARAM after the seal; OBJ_READ delivers the stored bytes to the
reference. OBJ_SEAL and OBJ_SHARE refuse DATA objects; OBJ_UNSHARE and OBJ_DESTROY are BUSY while a borrower holds on.
WINDOW_BIND and STREAM_BIND bind and unbind. OBJ_RELOAD rewrites a lost home, clears UNAVAILABLE, for the sessions too, and
raises OBJECT_RESTORED. -/
def Obligations.ObjectsFollowTheirOwner : Prop :=
  (∀ (s : State) (c : CmdRef) (m : Cmd) (l : List (Nat × Nat)), s.runs c 0x0A00 m → sgExtents m 3 s = .extents l →
    ((s.ctxAt m.ctx).admitted = true → exec (.hostWindowSet c) s = .next ((s.began c).refuseOpen c BUSY)) ∧
    ((s.ctxAt m.ctx).admitted = false → l ≠ [] → l.length ≤ 256 → (∀ e ∈ l, e.1 % 65536 = 0 ∧ e.2 % 65536 = 0) →
      (2 ^ 38 < total ((List.range 8).map fun k => if k = m.ctx then 0 else total ((s.ctxAt k).window.map (·.2))) + total (l.map (·.2)) →
        exec (.hostWindowSet c) s = .next ((s.began c).refuseOpen c NO_RESERVATION)) ∧
      (total ((List.range 8).map fun k => if k = m.ctx then 0 else total ((s.ctxAt k).window.map (·.2))) + total (l.map (·.2)) ≤ 2 ^ 38 →
        ∃ t, exec (.hostWindowSet c) s = .next t ∧ t.answered c OK 0 [] ∧ t.ctxAt m.ctx = { s.ctxAt m.ctx with window := l } ∧
          (∀ k, k ≠ m.ctx → t.ctxAt k = s.ctxAt k) ∧ otherCmds s t c ∧ t = { s with cmds := t.cmds, ctxs := t.ctxs }))) ∧
  (∀ (s : State) (c : CmdRef) (m : Cmd) (home cls : Nat), s.runs c 0x0A01 m → m.ctx < 8 →
    ((m.w 4).toNat < 1 ∨ 65536 < (m.w 4).toNat → exec (.objCreate c) s = .next ((s.began c).badWord c 4)) ∧
    (1 ≤ (m.w 4).toNat → (m.w 4).toNat ≤ 65536 → 2 < fld (m.w 5) 7 0 → exec (.objCreate c) s = .next ((s.began c).badWord c 5)) ∧
    (1 ≤ (m.w 4).toNat → (m.w 4).toNat ≤ 65536 → fld (m.w 5) 7 0 ≤ 2 → withDefault (fld (m.w 5) 15 8) 1 3 2 = some home →
      withDefault (fld (m.w 5) 23 16) 1 4 4 = some cls →
      (s.tierFits m.ctx home (m.w 4).toNat = false → exec (.objCreate c) s = .next ((s.began c).refuseOpen c NO_RESERVATION)) ∧
      (s.tierFits m.ctx home (m.w 4).toNat = true → (∃ k, k < 4096 ∧ Tab.has s.objs (m.ctx * 4096 + k) = false) →
        ∃ t o k, exec (.objCreate c) s = .next t ∧ t.answered c OK 0 [o.id] ∧ t.objOf o.id = some (k, o) ∧ Tab.has s.objs k = false ∧
          k / 4096 = m.ctx ∧ o.owner = m.ctx ∧ o.granules = (m.w 4).toNat ∧ o.kind = fld (m.w 5) 7 0 ∧ o.home = home ∧ o.class_ = cls ∧
          o.sealed_ = false ∧ o.share = 0 ∧ o.copies = [] ∧
          (home = 1 → (t.ctxAt m.ctx).t1Used = (s.ctxAt m.ctx).t1Used + o.granules) ∧
          (home = 2 → (t.ctxAt m.ctx).hbmUsed = (s.ctxAt m.ctx).hbmUsed + o.granules) ∧
          (home = 3 → (t.ctxAt m.ctx).t3Used = (s.ctxAt m.ctx).t3Used + o.granules) ∧
          (∀ j, j ≠ k → Tab.get? t.objs j = Tab.get? s.objs j) ∧ (∀ j, j ≠ m.ctx → t.ctxAt j = s.ctxAt j) ∧ otherCmds s t c ∧
          t = { s with cmds := t.cmds, ctxs := t.ctxs, objs := t.objs, epoch := t.epoch }))) ∧
  (∀ (s : State) (c : CmdRef) (m : Cmd) (k : Nat) (o : ObjS), m.ref = c → s.objOf (m.w 3) = some (k, o) →
    (o.owner ≠ m.ctx →
      (s.runs c 0x0A02 m → exec (.objDestroy c) s = .next ((s.began c).refuseOpen c NOT_OWNER)) ∧
      (s.runs c 0x0A03 m → exec (.objWrite c) s = .next ((s.began c).refuseOpen c NOT_OWNER)) ∧
      (s.runs c 0x0A05 m → exec (.objSeal c) s = .next ((s.began c).refuseOpen c NOT_OWNER)) ∧
      (s.runs c 0x0A06 m → exec (.objShare c) s = .next ((s.began c).refuseOpen c NOT_OWNER)) ∧
      (s.runs c 0x0A07 m → exec (.objUnshare c) s = .next ((s.began c).refuseOpen c NOT_OWNER)) ∧
      (s.runs c 0x0A08 m → exec (.objMove c) s = .next ((s.began c).refuseOpen c NOT_OWNER)) ∧
      (s.runs c 0x0A10 m → exec (.objReload c) s = .next ((s.began c).refuseOpen c NOT_OWNER)) ∧
      (bit o.share m.ctx = false → s.runs c 0x0A04 m → exec (.objRead c) s = .next ((s.began c).refuseOpen c NOT_OWNER))) ∧
    (o.unavailable = true → o.owner = m.ctx ∨ bit o.share m.ctx = true → s.runs c 0x0A04 m →
      exec (.objRead c) s = .next ((s.began c).refuseOpen c (if o.kind = 2 then WEIGHTS_UNAVAILABLE else DATA_POISONED)))) ∧
  (∀ (s : State) (c : CmdRef) (m : Cmd) (k : Nat) (o : ObjS), m.ref = c → s.objOf (m.w 3) = some (k, o) → o.owner = m.ctx → o.unavailable = false →
    (s.runs c 0x0A03 m → o.sealed_ = true → exec (.objWrite c) s = .next ((s.began c).badWord c 3)) ∧
    (s.runs c 0x0A03 m → o.sealed_ = false → o.granules * 65536 < 256 * (m.w 4).toNat + m.sgTotal 5 →
      exec (.objWrite c) s = .next ((s.began c).badWord c 4)) ∧
    (∀ b, s.runs c 0x0A03 m → o.sealed_ = false → 256 * (m.w 4).toNat + m.sgTotal 5 ≤ o.granules * 65536 → sgIn m 5 s = .bytes b →
      ∃ t o', exec (.objWrite c) s = .next t ∧ t.answered c OK 0 [] ∧ Tab.get? t.objs k = some o' ∧
        o' = { o with data := o'.data, poisoned := o'.poisoned } ∧ (∀ i x, b[i]? = some x → o'.byte (256 * (m.w 4).toNat + i) = x) ∧
        (∀ a, a < 256 * (m.w 4).toNat ∨ 256 * (m.w 4).toNat + b.length ≤ a → o'.byte a = o.byte a) ∧ (∀ g ∈ o'.poisoned, g ∈ o.poisoned) ∧
        (∀ j, j ≠ k → Tab.get? t.objs j = Tab.get? s.objs j) ∧ otherCmds s t c ∧ t = { s with cmds := t.cmds, objs := t.objs }) ∧
    (s.runs c 0x0A05 m → o.kind = 0 → exec (.objSeal c) s = .next ((s.began c).badWord c 3)) ∧
    (s.runs c 0x0A05 m → o.kind ≠ 0 →
      ∃ t, exec (.objSeal c) s = .next t ∧ t.answered c OK 0 [] ∧ Tab.get? t.objs k = some { o with sealed_ := true } ∧
        (∀ j, j ≠ k → Tab.get? t.objs j = Tab.get? s.objs j) ∧ otherCmds s t c ∧ t = { s with cmds := t.cmds, objs := t.objs }) ∧
    (s.runs c 0x0A06 m → o.kind = 0 ∨ o.sealed_ = false → exec (.objShare c) s = .next ((s.began c).badWord c 3)) ∧
    (s.runs c 0x0A06 m → o.kind ≠ 0 → o.sealed_ = true →
      ∃ t o', exec (.objShare c) s = .next t ∧ t.answered c OK 0 [] ∧ Tab.get? t.objs k = some o' ∧ o' = { o with share := o'.share } ∧
        (∀ n, n < 8 → o'.share.getLsbD n = (o.share.getLsbD n || (m.w 4).getLsbD n)) ∧
        (∀ j, j ≠ k → Tab.get? t.objs j = Tab.get? s.objs j) ∧ otherCmds s t c ∧ t = { s with cmds := t.cmds, objs := t.objs }) ∧
    (s.runs c 0x0A07 m → (∃ n ∈ o.borrowers (fld (m.w 4) 7 0), s.holdsOn n o = true) →
      exec (.objUnshare c) s = .next ((s.began c).refuseOpen c BUSY)) ∧
    (s.runs c 0x0A07 m → (∀ n ∈ o.borrowers (fld (m.w 4) 7 0), s.holdsOn n o = false) →
      ∃ t o', exec (.objUnshare c) s = .next t ∧ t.answered c OK 0 [] ∧ Tab.get? t.objs k = some o' ∧ o' = { o with share := o'.share } ∧
        (∀ n, n < 8 → o'.share.getLsbD n = (o.share.getLsbD n && !(m.w 4).getLsbD n)) ∧
        (∀ j, j ≠ k → Tab.get? t.objs j = Tab.get? s.objs j) ∧ otherCmds s t c ∧ t = { s with cmds := t.cmds, objs := t.objs }) ∧
    (s.runs c 0x0A02 m → (∃ n ∈ o.borrowers 255, s.holdsOn n o = true) ∨ o.moving.isSome = true →
      exec (.objDestroy c) s = .next ((s.began c).refuseOpen c BUSY)) ∧
    (s.runs c 0x0A02 m → (∀ n ∈ o.borrowers 255, s.holdsOn n o = false) → o.moving = none →
      ∃ t, exec (.objDestroy c) s = .next t ∧ t.answered c OK 0 [] ∧ Tab.get? t.objs k = none ∧
        (∀ n w, n < 8 → Tab.get? (t.ctxAt n).windows w ≠ some o.id) ∧ (∀ j, j ≠ k → Tab.get? t.objs j = Tab.get? s.objs j) ∧
        (∀ d, d ≠ c → (∀ y ∈ s.cmds, y.ref = d → y.opcode ≠ 0x0A09) → t.findCmd d = s.findCmd d) ∧
        t = { s with cmds := t.cmds, ctxs := t.ctxs, objs := t.objs, reuse := t.reuse, jobs := t.jobs })) ∧
  (∀ (s : State) (c : CmdRef) (m : Cmd) (k : Nat) (o : ObjS), s.runs c 0x0A04 m → m.ref = c → s.objOf (m.w 3) = some (k, o) →
    o.owner = m.ctx ∨ bit o.share m.ctx = true → o.unavailable = false → 256 * (m.w 4).toNat + m.sgTotal 5 ≤ o.granules * 65536 →
    (o.readable (256 * (m.w 4).toNat) (m.sgTotal 5) = false →
      exec (.objRead c) s = .next ((s.began c).refuseOpen c (if o.kind = 2 then WEIGHTS_UNAVAILABLE else DATA_POISONED))) ∧
    (o.readable (256 * (m.w 4).toNat) (m.sgTotal 5) = true →
      ∃ t r, exec (.objRead c) s = .next t ∧ t.replyOf c = some r ∧ r.is OK 0 [] ∧
        (m.sgInline 5 = true → r.inlineOut = o.bytes (256 * (m.w 4).toNat) (m.sgTotal 5)) ∧
        (∀ l, m.sgInline 5 = false → sgExtents m 5 s = .extents l → t.hostMem = writeExtents s.hostMem l (o.bytes (256 * (m.w 4).toNat) (m.sgTotal 5))) ∧
        otherCmds s t c ∧ t = { s with cmds := t.cmds, hostMem := t.hostMem })) ∧
  (∀ (s : State) (c : CmdRef) (m : Cmd), s.runs c 0x0A0D m →
    (bit (m.w 3) 8 = true → ∃ t, exec (.windowBind c) s = .next t ∧ t.answered c OK 0 [] ∧ Tab.get? (t.ctxAt m.ctx).windows (fld (m.w 3) 7 0) = none ∧
      (∀ w, w ≠ fld (m.w 3) 7 0 → Tab.get? (t.ctxAt m.ctx).windows w = Tab.get? (s.ctxAt m.ctx).windows w) ∧
      (∀ k, k ≠ m.ctx → t.ctxAt k = s.ctxAt k) ∧ otherCmds s t c ∧ t = { s with cmds := t.cmds, ctxs := t.ctxs }) ∧
    (bit (m.w 3) 8 = false → s.objOf (m.w 4) = none → exec (.windowBind c) s = .next ((s.began c).badWord c 4)) ∧
    (∀ k o, bit (m.w 3) 8 = false → s.objOf (m.w 4) = some (k, o) → o.unavailable = false → o.owner = m.ctx ∨ bit o.share m.ctx = true →
      ∃ t, exec (.windowBind c) s = .next t ∧ t.answered c OK 0 [] ∧ Tab.get? (t.ctxAt m.ctx).windows (fld (m.w 3) 7 0) = some o.id ∧
        (∀ w, w ≠ fld (m.w 3) 7 0 → Tab.get? (t.ctxAt m.ctx).windows w = Tab.get? (s.ctxAt m.ctx).windows w) ∧
        (∀ k, k ≠ m.ctx → t.ctxAt k = s.ctxAt k) ∧ otherCmds s t c ∧ t = { s with cmds := t.cmds, ctxs := t.ctxs })) ∧
  (∀ (s : State) (c : CmdRef) (m : Cmd) (b : List Byte) (k bn : Nat) (o : ObjS), s.runs c 0x0A0E m → m.ref = c →
    (bit (m.w 3) 0 = true → ∃ t, exec (.streamBind c) s = .next t ∧ t.answered c OK 0 [] ∧ Tab.get? (t.ctxAt m.ctx).streams (fld (m.w 3) 11 8) = none ∧
      (∀ k, k ≠ m.ctx → t.ctxAt k = s.ctxAt k) ∧ otherCmds s t c ∧ t = { s with cmds := t.cmds, ctxs := t.ctxs }) ∧
    (bit (m.w 3) 0 = false → sgIn m 4 s = .bytes b → s.objOf (wordAt b 0) = some (k, o) → o.owner = m.ctx ∨ bit o.share m.ctx = true →
      o.unavailable = false → (s.ctxAt m.ctx).bands[leAt b 4 1]? = some bn →
      (o.kind ≠ 2 ∨ streamOk b = false → exec (.streamBind c) s = .next ((s.began c).badWord c 4)) ∧
      (o.kind = 2 → streamOk b = true →
        ∃ t w, exec (.streamBind c) s = .next t ∧ t.answered c OK 0 [] ∧ Tab.get? (t.ctxAt m.ctx).streams (fld (m.w 3) 11 8) = some w ∧
          w.obj = o.id ∧ w.band = bn ∧ w.advRv = leAt b 6 1 ∧ w.flag = leAt b 7 1 ∧ w.bufRows = leAt b 10 2 ∧ w.buf0 = leAt b 12 2 ∧
          w.buf1 = leAt b 14 2 ∧ w.layers.length = leAt b 8 2 ∧ w.j = 0 ∧ w.b = 0 ∧ w.held = [none, none] ∧
          w.fills.map (fun f => (f.1, f.2.1)) = [(0, 0), (1, 1 % leAt b 8 2)] ∧
          (∀ r ∈ s.jobs, (∀ st i tile, r.job ≠ .streamFill m.ctx st i tile) → r ∈ t.jobs) ∧
          (∀ k, k ≠ m.ctx → t.ctxAt k = s.ctxAt k) ∧ otherCmds s t c ∧
          t = { s with cmds := t.cmds, ctxs := t.ctxs, jobs := t.jobs, jobSeq := t.jobSeq }))) ∧
  (∀ (s : State) (c : CmdRef) (m : Cmd) (k : Nat) (o : ObjS), s.runs c 0x0A10 m → m.ref = c → s.objOf (m.w 3) = some (k, o) → o.owner = m.ctx →
    (o.kind = 0 ∨ (o.unavailable = false ∧ o.homeBad = []) → exec (.objReload c) s = .next ((s.began c).badWord c 3)) ∧
    (∀ b, o.kind ≠ 0 → o.unavailable = true ∨ o.homeBad ≠ [] → m.sgTotal 4 = o.granules * 65536 → sgIn m 4 s = .bytes b →
      ∃ t o' e, exec (.objReload c) s = .next t ∧ t.answered c OK 0 [] ∧ Tab.get? t.objs k = some o' ∧ o'.homeBad = [] ∧ o'.unavailable = false ∧
        (∀ i x, b[i]? = some x → o'.byte i = x) ∧ (∀ x ∈ o'.copies, x.2.modulePin = false) ∧ t.events = s.events ++ [e] ∧ e.code = 0x8A03 ∧
        (∀ n x, n ∈ o.owner :: o.borrowers 255 → t.sessionAt n = some x → x.unavailable = t.lostStages n) ∧
        (∀ j, j ≠ k → Tab.get? t.objs j = Tab.get? s.objs j) ∧ otherCmds s t c ∧
        t = { s with cmds := t.cmds, ctxs := t.ctxs, objs := t.objs, jobs := t.jobs, jobSeq := t.jobSeq, events := t.events, tether := t.tether }))

/-- OBJ_PROMOTE claims and charges a copy, NO_RESERVATION without room, and waits for a copy that is not complete. OBJ_EVICT drops
only the sender's claim, BUSY with a pin of it; OBJ_PIN and OBJ_UNPIN without a claim or a pin are BAD_PARAM. A copy whose
freeing Promenade serves loses its lowest granule first. OBJ_MOVE of a DATA object charges the target and queues every granule;
GRANULE_MOVE takes the lowest class, then the first requested, of the moves that are still to be done; the last granule ends the
move with the new home; an unreadable granule is poisoned, raises OBJECT_POISONED and with none switched ends the move with
DATA_POISONED. OBJECT_RESTREAMED reads the granule from below or from home and raises the event. -/
def Obligations.CopiesAndMovesKeepTheObject : Prop :=
  (∀ (s : State) (c : CmdRef) (m : Cmd) (k tier : Nat) (o : ObjS), m.ref = c → s.objOf (m.w 3) = some (k, o) → o.owner = m.ctx ∨ bit o.share m.ctx = true →
    o.unavailable = false → tier = fld (m.w 4) 1 0 →
    (s.runs c 0x0A09 m → o.kind ≠ 0 → o.sealed_ = true → tier = 1 ∨ tier = 2 →
      (bit (o.copy tier).claims m.ctx = false → s.tierFits m.ctx tier o.granules = false →
        exec (.objPromote c) s = .next ((s.began c).refuseOpen c NO_RESERVATION)) ∧
      (bit (o.copy tier).claims m.ctx = true ∨ s.tierFits m.ctx tier o.granules = true →
        ∃ t o', exec (.objPromote c) s = .next t ∧ Tab.get? t.objs k = some o' ∧ o' = { o with copies := o'.copies } ∧
          (∀ n, n < 8 → bit (o'.copy tier).claims n = (bit (o.copy tier).claims n || decide (n = m.ctx))) ∧ (o'.copy tier).freeing = false ∧
          (o'.copy tier).have_ = (o.copy tier).have_ ∧ (o.complete tier = true → t.answered c OK 0 []) ∧
          (o.complete tier = false → t.replyOf c = none ∧ ∀ g, g < o.granules → g ∉ (o.copy tier).have_ → ∃ j ∈ t.jobs, j.job = .copyFill k tier g) ∧
          (∀ n, n ≠ m.ctx → t.ctxAt n = s.ctxAt n) ∧ (∀ j, j ≠ k → Tab.get? t.objs j = Tab.get? s.objs j) ∧ otherCmds s t c ∧
          t = { s with cmds := t.cmds, ctxs := t.ctxs, objs := t.objs, jobs := t.jobs, jobSeq := t.jobSeq })) ∧
    (s.runs c 0x0A0A m → tier = 1 ∨ tier = 2 →
      (0 < Tab.getD (o.copy tier).pins m.ctx 0 → exec (.objEvict c) s = .next ((s.began c).refuseOpen c BUSY)) ∧
      (Tab.getD (o.copy tier).pins m.ctx 0 = 0 → bit (o.copy tier).claims m.ctx = true → m.ctx < 8 →
        ∃ t o', exec (.objEvict c) s = .next t ∧ t.answered c OK 0 [] ∧ Tab.get? t.objs k = some o' ∧ o' = { o with copies := o'.copies } ∧
          (∀ n, n < 8 → bit (o'.copy tier).claims n = (bit (o.copy tier).claims n && decide (n ≠ m.ctx))) ∧
          (o'.copy tier).pins = (o.copy tier).pins ∧ (o'.copy tier).have_ = (o.copy tier).have_ ∧ (∀ n, n ≠ m.ctx → t.ctxAt n = s.ctxAt n) ∧
          (∀ j, j ≠ k → Tab.get? t.objs j = Tab.get? s.objs j) ∧ otherCmds s t c ∧
          t = { s with cmds := t.cmds, ctxs := t.ctxs, objs := t.objs, jobs := t.jobs, jobSeq := t.jobSeq }) ∧
      (Tab.getD (o.copy tier).pins m.ctx 0 = 0 → bit (o.copy tier).claims m.ctx = false →
        ∃ t, exec (.objEvict c) s = .next t ∧ t.answered c OK 0 [] ∧ otherCmds s t c ∧ t = { s with cmds := t.cmds })) ∧
    (s.runs c 0x0A0B m → tier = 1 ∨ tier = 2 →
      (bit (o.copy tier).claims m.ctx = false ∨ 255 ≤ Tab.getD (o.copy tier).pins m.ctx 0 → exec (.objPin c) s = .next ((s.began c).badWord c 3)) ∧
      (bit (o.copy tier).claims m.ctx = true → Tab.getD (o.copy tier).pins m.ctx 0 < 255 →
        ∃ t o', exec (.objPin c) s = .next t ∧ t.answered c OK 0 [] ∧ Tab.get? t.objs k = some o' ∧
          Tab.getD (o'.copy tier).pins m.ctx 0 = Tab.getD (o.copy tier).pins m.ctx 0 + 1 ∧ o' = { o with copies := o'.copies } ∧
          (∀ n, n ≠ m.ctx → Tab.getD (o'.copy tier).pins n 0 = Tab.getD (o.copy tier).pins n 0) ∧
          (∀ j, j ≠ k → Tab.get? t.objs j = Tab.get? s.objs j) ∧ otherCmds s t c ∧ t = { s with cmds := t.cmds, objs := t.objs })) ∧
    (s.runs c 0x0A0C m → tier = 1 ∨ tier = 2 →
      (Tab.getD (o.copy tier).pins m.ctx 0 = 0 → exec (.objUnpin c) s = .next ((s.began c).badWord c 3)) ∧
      (0 < Tab.getD (o.copy tier).pins m.ctx 0 →
        ∃ t o', exec (.objUnpin c) s = .next t ∧ t.answered c OK 0 [] ∧ Tab.get? t.objs k = some o' ∧
          Tab.getD (o'.copy tier).pins m.ctx 0 + 1 = Tab.getD (o.copy tier).pins m.ctx 0 ∧ o' = { o with copies := o'.copies } ∧
          (∀ j, j ≠ k → Tab.get? t.objs j = Tab.get? s.objs j) ∧ otherCmds s t c ∧ t = { s with cmds := t.cmds, objs := t.objs }))) ∧
  (∀ (s : State) (c : CmdRef) (m : Cmd) (k tier : Nat) (o : ObjS), s.runs c 0x0A08 m → m.ref = c → s.objOf (m.w 3) = some (k, o) → o.owner = m.ctx →
    o.unavailable = false → tier = fld (m.w 4) 1 0 →
    (o.kind ≠ 0 → exec (.objMove c) s = .next ((s.began c).badWord c 3)) ∧
    (o.kind = 0 → tier ≠ 0 → o.poisoned ≠ [] → exec (.objMove c) s = .next ((s.began c).refuseOpen c DATA_POISONED)) ∧
    (o.kind = 0 → tier ≠ 0 → o.poisoned = [] → o.moving = none → tier ≠ o.home → s.tierFits m.ctx tier o.granules = false →
      exec (.objMove c) s = .next ((s.began c).refuseOpen c NO_RESERVATION)) ∧
    (o.kind = 0 → tier ≠ 0 → o.poisoned = [] → o.moving = none → tier ≠ o.home → s.tierFits m.ctx tier o.granules = true →
      ∃ t, exec (.objMove c) s = .next t ∧ Tab.get? t.objs k = some { o with moving := some (tier, [], c, false) } ∧ t.replyOf c = none ∧
        (∀ g, g < o.granules → ∃ j ∈ t.jobs, j.job = .objMove k g) ∧ (∀ j ∈ s.jobs, j ∈ t.jobs) ∧ (∀ n, n ≠ m.ctx → t.ctxAt n = s.ctxAt n) ∧
        (∀ j, j ≠ k → Tab.get? t.objs j = Tab.get? s.objs j) ∧ otherCmds s t c ∧
        t = { s with cmds := t.cmds, ctxs := t.ctxs, objs := t.objs, jobs := t.jobs, jobSeq := t.jobSeq })) ∧
  (∀ (s : State) (j : MoveReq) (r : ReadResult) (retry : Bool), s.nextJob = some j → s.mainOn = true → s.poolOk 18 = true → j.job.own = false →
    j ∈ s.jobs ∧ (∀ x ∈ s.jobs, s.jobLive x.job = true → j.class_ ≤ x.class_ ∧ (x.class_ = j.class_ → j.seq ≤ x.seq)) ∧
    ∃ t, exec (.granuleMove r retry) s = .next t ∧ (r ≠ .uncorrectable ∨ retry = false → t.jobs = s.jobs.filter (fun x => x.seq != j.seq)) ∧
      (r = .corrected → t.dep.corrected = s.dep.corrected + 1) ∧ (r = .uncorrectable → t.dep.uncorrectable = s.dep.uncorrectable + 1) ∧
      t.time = s.time ∧ t.hostMem = s.hostMem) ∧
  (∀ (s : State) (j : MoveReq) (k g tier : Nat) (o : ObjS) (c : CmdRef) (l : List Nat) (m : Cmd), s.nextJob = some j → s.mainOn = true → s.poolOk 18 = true →
    j.job = .objMove k g → Tab.get? s.objs k = some o → o.moving = some (tier, l, c, false) → s.findCmd c = some m →
    (l.length + 1 = o.granules → ∃ t, exec (.granuleMove .intact false) s = .next t ∧ t.answered c OK 0 [] ∧
      Tab.get? t.objs k = some { o with home := tier, moving := none } ∧ otherCmds s t c) ∧
    (l.length + 1 ≠ o.granules → ∃ t, exec (.granuleMove .intact false) s = .next t ∧ t.findCmd c = some m ∧
      Tab.get? t.objs k = some { o with moving := some (tier, l ++ [g], c, false) } ∧ otherCmds s t c) ∧
    (l = [] → ∃ t r, exec (.granuleMove .uncorrectable true) s = .next t ∧ t.replyOf c = some r ∧ r.status = BitVec.ofNat 16 DATA_POISONED ∧
      Tab.get? t.objs k = some { o with poisoned := o.poisoned ++ [g], moving := none } ∧ (∃ e ∈ t.events, e.code = 0x8A05) ∧ otherCmds s t c)) ∧
  (∀ (s : State) (k tier g : Nat) (l : List Nat) (o : ObjS) (cp : CopyS), Tab.get? s.objs k = some o → Tab.get? o.copies tier = some cp →
    s.serves (.copyFree k tier) = true → cp.have_ = g :: l →
    ∃ t o', exec (.copyGranuleFree k tier) s = .next t ∧ Tab.get? t.objs k = some o' ∧ (o'.copy tier).have_ = l ∧
      (l = [] → Tab.has o'.copies tier = false) ∧ (∀ j, j ≠ tier → Tab.get? o'.copies j = Tab.get? o.copies j) ∧
      (∀ j, j ≠ k → Tab.get? t.objs j = Tab.get? s.objs j) ∧ t = { s with objs := t.objs, jobs := t.jobs }) ∧
  (∀ (s : State) (k tier g : Nat) (o : ObjS), Tab.get? s.objs k = some o → tier = 1 ∨ tier = 2 → g ∈ (o.copy tier).have_ →
    ∃ t, exec (.objectRestreamed k tier g false) s = .next t ∧ Tab.get? t.objs k = some o ∧ (∃ e ∈ t.events, e.code = 0x8A00) ∧
      t.dep.uncorrectable = s.dep.uncorrectable + 1 ∧ t = { s with dep := t.dep, events := t.events, tether := t.tether, free := t.free })

/-- On a reachable function, arming a slot that belongs to the host gives it to the module and appends one armed command with that
word 0; a write to a slot the module owns changes only SLOT_WRITE_LOST; a write to another word of a host-owned slot is taken
and arms nothing. -/
def Obligations.SlotWritesArmOrAreLost : Prop :=
  (∀ (fn slot : Nat) (word0 : Word) (placed : List (Nat × Byte)) (s : State), fn < 8 → slot < 32 → fnReachable s fn = true →
    bit (s.fnAt fn).slotBusy slot = false →
    ∃ t x, exec (.slotArm fn slot word0 placed) s = .next t ∧ t.cmds = s.cmds ++ [x] ∧ x.ref = ⟨.host fn, slot⟩ ∧ x.phase = .armed ∧
      x.words.head? = some word0 ∧ x.reply = none ∧ bit (t.fnAt fn).slotBusy slot = true ∧
      (∀ k, k ≠ slot → bit (t.fnAt fn).slotBusy k = bit (s.fnAt fn).slotBusy k) ∧
      (∀ k, Tab.getD (t.fnAt fn).slots k 0 = if k = slot * 128 then word0 else Tab.getD (s.fnAt fn).slots k 0) ∧
      (t.fnAt fn).slotDone = (s.fnAt fn).slotDone ∧ (∀ k, k ≠ fn → t.fnAt k = s.fnAt k) ∧
      (∀ a, placed.all (fun e => e.1 != a) = true → Tab.getD t.hostMem a 0 = Tab.getD s.hostMem a 0) ∧
      t = { s with cmds := t.cmds, fns := t.fns, hostMem := placed.foldl (fun m e => Tab.write 0 m e.1 e.2) s.hostMem }) ∧
  (∀ (fn slot index : Nat) (value : Word) (s : State), fn < 8 → slot < 32 → index < 128 → fnReachable s fn = true →
    bit (s.fnAt fn).slotBusy slot = true →
    exec (.slotWriteLost fn slot index value) s = .next (s.updFn fn fun f => { f with writeLost := true })) ∧
  (∀ (fn slot index : Nat) (value : Word) (s : State), fn < 8 → slot < 32 → 0 < index → index < 128 → fnReachable s fn = true →
    bit (s.fnAt fn).slotBusy slot = false →
    exec (.slotWriteLost fn slot index value) s =
      .next (s.updFn fn fun f => { f with slots := Tab.write 0 f.slots (slot * 128 + index) value }))

/-- On a reachable function a write to SLOT_DONE clears the bits written as one, a write to FUNC_STATUS with bit 7 set clears
SLOT_WRITE_LOST and changes nothing else, the read-only and reserved offsets are unchanged by any write, a write below 0x4000 is
the write of that word of that slot, a write of an MSI-X table word stores it, and where it clears the mask bit of a vector
whose pending bit is set it clears that bit and sends the vector. On a function that cannot be reached a write changes nothing;
a write outside BAR0 faults as the module has no such register. -/
def Obligations.RegisterWritesFollowTheirAccess : Prop :=
  (∀ (fn : Nat) (value : Word) (s : State), fn < 8 → fnReachable s fn = true →
    exec (.registerWrite fn 0x4008 value) s = .next (s.updFn fn fun f => { f with slotDone := f.slotDone &&& ~~~ value })) ∧
  (∀ (fn : Nat) (value : Word) (s : State), fn < 8 → fnReachable s fn = true → bit value 7 = true →
    exec (.registerWrite fn 0x4000 value) s = .next (s.updFn fn fun f => { f with writeLost := false })) ∧
  (∀ (fn : Nat) (value : Word) (s : State), fn < 8 → fnReachable s fn = true → bit value 7 = false →
    exec (.registerWrite fn 0x4000 value) s = .next s) ∧
  (∀ (fn offset : Nat) (value : Word) (s : State), fn < 8 → fnReachable s fn = true →
    (0x4004 ≤ offset ∧ offset < 0x4008) ∨ (0x400C ≤ offset ∧ offset < 0x6000) ∨ (0x6080 ≤ offset ∧ offset < 0x8000) →
    exec (.registerWrite fn offset value) s = .next s) ∧
  (∀ (fn v : Nat) (value : Word) (s : State), fn < 8 → v < 8 → fnReachable s fn = true → bit value 0 = false →
    bit (s.fnAt fn).pba v = true →
    ∃ t, exec (.registerWrite fn (0x600C + 16 * v) value) s = .next t ∧ t.outbox = .msix fn v :: s.outbox ∧
      bit (t.fnAt fn).pba v = false ∧ (∀ k, k ≠ v → bit (t.fnAt fn).pba k = bit (s.fnAt fn).pba k) ∧
      (t.fnAt fn).msixWord (4 * v + 3) = value ∧ (∀ k, k ≠ fn → t.fnAt k = s.fnAt k) ∧ (t.fnAt fn).slots = (s.fnAt fn).slots ∧
      t = { s with fns := t.fns, outbox := t.outbox }) ∧
  (∀ (fn v w : Nat) (value : Word) (s : State), fn < 8 → v < 8 → w < 4 → fnReachable s fn = true →
    w ≠ 3 ∨ bit value 0 = true ∨ bit (s.fnAt fn).pba v = false →
    exec (.registerWrite fn (0x6000 + 16 * v + 4 * w) value) s =
      .next (s.updFn fn fun f => { f with msix := Tab.put f.msix (4 * v + w) value })) ∧
  (∀ (fn slot i : Nat) (value : Word) (s : State), fn < 8 → slot < 32 → i < 128 →
    exec (.registerWrite fn (512 * slot + 4 * i) value) s = exec (.slotWriteLost fn slot i value) s) ∧
  (∀ (fn offset : Nat) (value : Word) (s : State), fn < 8 → offset < 0x8000 → fnReachable s fn = false →
    exec (.registerWrite fn offset value) s = .next s) ∧
  (∀ (fn offset : Nat) (value : Word) (s : State), 8 ≤ fn ∨ 0x8000 ≤ offset →
    exec (.registerWrite fn offset value) s = .fault .outsideBar0)

/-- COMMAND_START takes the first armed command of the sender: with every check of its start passed the command runs, otherwise it
ends with the status and DETAIL of the check and nothing else changes. COMMAND_REPLY takes an ended command off the list; a
host's slot gets the reply's words, its SLOT_DONE bit and goes back to the host, and where IRQ was set vector 0 is sent, or
pending while it is masked; a Tether reply leaves as one Ransa message, in packets of 64 bytes with the request's tag. -/
def Obligations.CommandsStartInOrderAndReply : Prop :=
  (∀ (who : Sender) (s : State) (m : Cmd), s.cmds.find? (fun x => decide (x.ref.sender = who ∧ x.phase = .armed)) = some m →
    startHeld m s = false → startCheck m s = none →
    exec (.commandStart who) s = .next (s.updCmd m.ref fun x => { x with phase := .running, started := s.time.ticks })) ∧
  (∀ (who : Sender) (s : State) (m : Cmd) (status detail : Nat),
    s.cmds.find? (fun x => decide (x.ref.sender = who ∧ x.phase = .armed)) = some m →
    startHeld m s = false → startCheck m s = some (status, detail) →
    ∃ t, exec (.commandStart who) s = .next t ∧ t.answered m.ref status detail [] ∧ otherCmds s t m.ref ∧ t = { s with cmds := t.cmds }) ∧
  (∀ (s : State) (n slot : Nat) (m : Cmd) (r : Reply), s.findCmd ⟨.host n, slot⟩ = some m → m.phase = .ended → m.reply = some r →
    slot < 32 → m.irq = false → r.body.length ≤ 123 →
    ∃ t, exec (.commandReply ⟨.host n, slot⟩) s = .next t ∧ t.findCmd ⟨.host n, slot⟩ = none ∧
      (∀ i, i < 5 + r.body.length → Tab.getD (t.fnAt n).slots (slot * 128 + i) 0 =
        (replyWords (s.minorOf (.host n)) m r).getD i 0) ∧
      bit (t.fnAt n).slotDone slot = true ∧ bit (t.fnAt n).slotBusy slot = false ∧
      (∀ k, k ≠ n → t.fnAt k = s.fnAt k) ∧ otherCmds s t ⟨.host n, slot⟩ ∧ t = { s with cmds := t.cmds, fns := t.fns }) ∧
  (∀ (s : State) (n slot : Nat) (m : Cmd) (r : Reply), s.findCmd ⟨.host n, slot⟩ = some m → m.phase = .ended → m.reply = some r →
    slot < 32 → m.irq = true →
    ∃ t, exec (.commandReply ⟨.host n, slot⟩) s = .next t ∧ t.findCmd ⟨.host n, slot⟩ = none ∧
      bit (t.fnAt n).slotDone slot = true ∧ bit (t.fnAt n).slotBusy slot = false ∧
      (bit ((s.fnAt n).msixWord 3) 0 = false → t.outbox = .msix n 0 :: s.outbox ∧ (t.fnAt n).pba = (s.fnAt n).pba) ∧
      (bit ((s.fnAt n).msixWord 3) 0 = true → t.outbox = s.outbox ∧ bit (t.fnAt n).pba 0 = true) ∧
      (∀ k, k ≠ n → t.fnAt k = s.fnAt k) ∧ otherCmds s t ⟨.host n, slot⟩ ∧ t = { s with cmds := t.cmds, fns := t.fns, outbox := t.outbox }) ∧
  (∀ (s : State) (key : Nat) (m : Cmd) (r : Reply), s.findCmd ⟨.tether, key⟩ = some m → m.phase = .ended → m.reply = some r →
    ∃ t, exec (.commandReply ⟨.tether, key⟩) s = .next t ∧ t.findCmd ⟨.tether, key⟩ = none ∧
      t.outbox = .ransaReply m.eid m.peer (smbusSplit m.mtag
        (0x7F :: (List.range 4).map Config.enterprise ++ wordsBytes (replyWords (s.minorOf .tether) m r) ++ r.inlineOut)) :: s.outbox ∧
      otherCmds s t ⟨.tether, key⟩ ∧ t = { s with cmds := t.cmds, outbox := t.outbox })

/-- While VAUX is on, the packets to address 0x6A at 100 kHz, 400 kHz or 1 MHz that assemble, by their flags, numbers, tags, units
of 64 bytes and PEC, into one Ransa message append one armed Tether command with its endpoint, in order of arrival; packets that
fail PEC or assembly change nothing, nor do those to another address or without VAUX. Set Endpoint ID stores a valid ID and
answers; the other control requests are answered and change nothing but the outbox. The octets of the control responses are
PRESUMED from DSP0236; that a message beyond 4,096 bytes or with TO clear is discarded is the model's choice (assumption 20). -/
def Obligations.SideBandMessages : Prop :=
  (∀ (eid : Byte) (peer : BitVec 7) (khz : Nat) (packets : List SmbusPacket) (body : List Byte) (s : State), s.life.vaux = true →
    khz = 100 ∨ khz = 400 ∨ khz = 1000 → (packets.headD {}).owner = true → body.length + 5 ≤ 4096 →
    assembled packets = some (0x7F :: (List.range 4).map Config.enterprise ++ body) →
    ∃ t x, exec (.mctpMessageReceived eid peer 0x6A khz packets) s = .next t ∧ t.cmds = s.cmds ++ [x] ∧
      x.ref = ⟨.tether, s.tether.nextKey⟩ ∧ x.phase = .armed ∧ x.eid = eid ∧ x.peer = peer ∧ x.mtag = (packets.headD {}).tag ∧
      x.words = bytesWords (min 128 (max 3 (fld (wordAt body 0) 11 0))) body ∧
      x.inlineIn = body.drop (4 * min 128 (max 3 (fld (wordAt body 0) 11 0))) ∧ t.tether.nextKey = s.tether.nextKey + 1 ∧
      t = { s with cmds := t.cmds, tether := { s.tether with nextKey := t.tether.nextKey } }) ∧
  (∀ (packets : List SmbusPacket), (∃ p ∈ packets, p.pecOk = false) ∨ packets = [] ∨ (packets.headD {}).som = false → assembled packets = none) ∧
  (∀ (eid : Byte) (peer address : BitVec 7) (khz : Nat) (packets : List SmbusPacket) (s : State),
    assembled packets = none ∨ address ≠ 0x6A ∨ s.life.vaux = false →
    exec (.mctpMessageReceived eid peer address khz packets) s = .next s) ∧
  (∀ (force : Bool) (eid : Byte) (s : State), s.life.vaux = true → eid ≠ 0x00 → eid ≠ 0xFF →
    exec (.setEndpointId force eid) s =
      .next { s with tether := { s.tether with eid := eid }, outbox := .mctp 0 0x00 [0x01, 0x00, 0x00, eid, 0x00] :: s.outbox }) ∧
  (∀ (force : Bool) (eid : Byte) (s : State), s.life.vaux = true → eid = 0x00 ∨ eid = 0xFF →
    exec (.setEndpointId force eid) s = .next { s with outbox := .mctp 0 0x00 [0x01, 0x02] :: s.outbox }) ∧
  (∀ (src : Byte) (s : State), s.life.vaux = true →
    exec (.getEndpointId src) s = .next { s with outbox := .mctp src 0x00 [0x02, 0x00, s.tether.eid, 0x00, 0x00] :: s.outbox }) ∧
  (∀ (src msgType : Byte) (s : State) (b : List Byte), s.life.vaux = true →
    b = (if msgType = 0xFF ∨ msgType = 0x00 ∨ msgType = 0x05 ∨ msgType = 0x7F then [0x04, 0x00, 0x01] ++ wBytes (Config.mctpVersion msgType)
      else [0x04, 0x80]) →
    exec (.getMctpVersionSupport src msgType) s = .next { s with outbox := .mctp src 0x00 b :: s.outbox }) ∧
  (∀ (src : Byte) (s : State), s.life.vaux = true →
    exec (.getMessageTypeSupport src) s = .next { s with outbox := .mctp src 0x00 [0x05, 0x00, 0x02, 0x05, 0x7F] :: s.outbox }) ∧
  (∀ (src selector : Byte) (s : State) (b : List Byte), s.life.vaux = true →
    b = (if selector = 0 then [0x06, 0x00, 0xFF, 0x01] ++ (List.range 6).map Config.enterprise else [0x06, 0x02]) →
    exec (.getVendorDefinedMessageSupport src selector) s = .next { s with outbox := .mctp src 0x00 b :: s.outbox })

/-- A HELLO with MAJOR 1 ends with OK; from a function it sets READY and stores the sender's minor in that function alone; from a
Tether endpoint that does not hold the session it opens a session of that endpoint, clears the expert enables and raises
TETHER_SESSION; from the endpoint that holds it, it only stores the minor; with another MAJOR it is refused with
VERSION_MISMATCH and changes nothing. QUERY_CAPS answers the thirteen words of Table 16-2 and changes nothing but its own
command. -/
def Obligations.HelloAndCapabilitiesAnswer : Prop :=
  (∀ (s : State) (c : CmdRef) (m : Cmd) (n : Nat), s.runs c 0x0001 m → m.major = 1 → c.sender = .host n →
    exec (.hello c) s = .next (((s.began c).updFn n fun f =>
        { f with ready := true, hostMinor := BitVec.ofNat 8 m.minor, fwMinor := BitVec.ofNat 8 s.sec.runMinor }).done c OK 0
      (s.sec.runVersion :: (List.range 4).map Config.serial))) ∧
  (∀ (s : State) (c : CmdRef) (m : Cmd), s.runs c 0x0001 m → m.major = 1 → c.sender = .tether → s.tether.endpoint ≠ some m.eid →
    ∃ t, exec (.hello c) s = .next t ∧ t.answered c OK 0 (s.sec.runVersion :: (List.range 4).map Config.serial) ∧
      t.tether.endpoint = some m.eid ∧ t.tether.expert = 0 ∧ t.tether.claims = s.tether.claims ∧
      (∃ e, t.events = s.events ++ [e] ∧ e.code = 0x8004 ∧ e.detail.toNat = m.eid.toNat) ∧ otherCmds s t c ∧
      t = { s with cmds := t.cmds, tether := t.tether, events := t.events }) ∧
  (∀ (s : State) (c : CmdRef) (m : Cmd), s.runs c 0x0001 m → m.major = 1 → c.sender = .tether → s.tether.endpoint = some m.eid →
    ∃ t, exec (.hello c) s = .next t ∧ t.answered c OK 0 (s.sec.runVersion :: (List.range 4).map Config.serial) ∧
      t.tether = { s.tether with minor := BitVec.ofNat 8 m.minor } ∧ otherCmds s t c ∧ t = { s with cmds := t.cmds, tether := t.tether }) ∧
  (∀ (s : State) (c : CmdRef) (m : Cmd), s.runs c 0x0001 m → m.major ≠ 1 →
    exec (.hello c) s = .next ((s.began c).refuseOpen c VERSION_MISMATCH)) ∧
  (∀ (s : State) (c : CmdRef) (m : Cmd), s.runs c 0x0002 m →
    ∃ t, exec (.queryCaps c) s = .next t ∧
      t.answered c OK 0 [0x00000001, w32 (0x10400000 + (tilesIn s 1).length * 256 + (tilesIn s 0).length), 0x08040C08,
        w32 (0x54000 - s.dep.hbmTaken), 0x38, 0x000E2900, 0x04E2041A, 0x00800080,
        w32 (0x0E000000 + (Config.fwBuild s.sec.runVersion).toNat), 0, 0, 0, 0] ∧
      otherCmds s t c ∧ t = { s with cmds := t.cmds })

/-- With a mask that names only domains 0x0B, 0x0D and 0x0F, DOMAIN_CLAIM adds those to the Tether's claims and DOMAIN_RELEASE
removes them; both answer OK with DOMAIN_OWNER; where the claims change, one DOMAIN_CLAIMED or DOMAIN_RELEASED is raised (that
nothing is raised where none changes is the model's choice, assumption 1); a mask that names another domain is refused with
BAD_OPCODE, DETAIL 0x0003, and changes nothing. -/
def Obligations.DomainsChangeControlByTheTether : Prop :=
  (∀ (s : State) (c : CmdRef) (m : Cmd), s.runs c 0x0004 m → (m.w 3).setWidth 16 &&& 0x57FE = (0 : BitVec 16) →
    ∃ t, exec (.domainClaim c) s = .next t ∧ t.tether.claims = s.tether.claims ||| ((m.w 3).setWidth 16 &&& 0xA800) ∧
      t.answered c OK 0 [t.tether.claims.setWidth 32] ∧
      (t.tether.claims ≠ s.tether.claims → ∃ e, t.events = s.events ++ [e] ∧ e.code = 0x8000) ∧
      (t.tether.claims = s.tether.claims → t.events = s.events) ∧ otherCmds s t c ∧
      t = { s with cmds := t.cmds, tether := t.tether, events := t.events } ∧ t.tether.expert = s.tether.expert) ∧
  (∀ (s : State) (c : CmdRef) (m : Cmd), s.runs c 0x0005 m → (m.w 3).setWidth 16 &&& 0x57FE = (0 : BitVec 16) →
    ∃ t, exec (.domainRelease c) s = .next t ∧ t.tether.claims = s.tether.claims &&& ~~~ ((m.w 3).setWidth 16 &&& 0xA800) ∧
      t.answered c OK 0 [t.tether.claims.setWidth 32] ∧
      (t.tether.claims ≠ s.tether.claims → ∃ e, t.events = s.events ++ [e] ∧ e.code = 0x8001) ∧
      (t.tether.claims = s.tether.claims → t.events = s.events) ∧ otherCmds s t c ∧
      t = { s with cmds := t.cmds, tether := t.tether, events := t.events } ∧ t.tether.expert = s.tether.expert) ∧
  (∀ (s : State) (c : CmdRef) (m : Cmd), s.runs c 0x0004 m → (m.w 3).setWidth 16 &&& 0x57FE ≠ (0 : BitVec 16) →
    exec (.domainClaim c) s = .next ((s.began c).refuse c BAD_OPCODE 0x0003)) ∧
  (∀ (s : State) (c : CmdRef) (m : Cmd), s.runs c 0x0005 m → (m.w 3).setWidth 16 &&& 0x57FE ≠ (0 : BitVec 16) →
    exec (.domainRelease c) s = .next ((s.began c).refuse c BAD_OPCODE 0x0003))

/-- EXPERT_ENABLE of a function whose policy allows every domain it names (always for the PF) ORs bits 1 to 14 of the mask into that
function's enables and answers them, and for the Tether into the session's; a VF that names a domain outside its mask is refused
with EXPERT_LOCKED and nothing changes; EXPERT_DISABLE clears the bits named; EXPERT_POLICY from the PF gives every VF named the
new mask and drops the enables outside it, from a VF it is refused with NOT_OWNER, and from the Tether with BAD_OPCODE. -/
def Obligations.ExpertEnablesFollowThePolicy : Prop :=
  (∀ (s : State) (c : CmdRef) (m : Cmd) (n : Nat), s.runs c 0x0006 m → c.sender = .host n →
    n = 0 ∨ (m.w 3).setWidth 16 &&& 0x7FFE &&& ~~~ (s.fnAt n).policy = 0 →
    ∃ t, exec (.expertEnable c) s = .next t ∧ t.fnAt n = { s.fnAt n with expert := (s.fnAt n).expert ||| ((m.w 3).setWidth 16 &&& 0x7FFE) } ∧
      t.answered c OK 0 [(t.fnAt n).expert.setWidth 32] ∧ (∀ k, k ≠ n → t.fnAt k = s.fnAt k) ∧ otherCmds s t c ∧
      t = { s with cmds := t.cmds, fns := t.fns }) ∧
  (∀ (s : State) (c : CmdRef) (m : Cmd) (n : Nat), s.runs c 0x0006 m → c.sender = .host n → n ≠ 0 →
    (m.w 3).setWidth 16 &&& 0x7FFE &&& ~~~ (s.fnAt n).policy ≠ 0 →
    ∃ t r, exec (.expertEnable c) s = .next t ∧ t.replyOf c = some r ∧ r.status = BitVec.ofNat 16 EXPERT_LOCKED ∧
      r.detail &&& 1 = 1 ∧ otherCmds s t c ∧ t = { s with cmds := t.cmds }) ∧
  (∀ (s : State) (c : CmdRef) (m : Cmd), s.runs c 0x0006 m → c.sender = .tether →
    exec (.expertEnable c) s = .next (((s.began c).mapTether fun x => { x with expert := x.expert ||| ((m.w 3).setWidth 16 &&& 0x7FFE) }).done c OK 0
      [(s.tether.expert ||| ((m.w 3).setWidth 16 &&& 0x7FFE)).setWidth 32])) ∧
  (∀ (s : State) (c : CmdRef) (m : Cmd), s.runs c 0x0007 m → c.sender = .tether →
    exec (.expertDisable c) s = .next (((s.began c).mapTether fun x => { x with expert := x.expert &&& ~~~ ((m.w 3).setWidth 16 &&& 0x7FFE) }).done
      c OK 0 [(s.tether.expert &&& ~~~ ((m.w 3).setWidth 16 &&& 0x7FFE)).setWidth 32])) ∧
  (∀ (s : State) (c : CmdRef) (m : Cmd) (n : Nat), s.runs c 0x0007 m → c.sender = .host n →
    ∃ t, exec (.expertDisable c) s = .next t ∧
      t.fnAt n = { s.fnAt n with expert := (s.fnAt n).expert &&& ~~~ ((m.w 3).setWidth 16 &&& 0x7FFE) } ∧
      t.answered c OK 0 [(t.fnAt n).expert.setWidth 32] ∧ (∀ k, k ≠ n → t.fnAt k = s.fnAt k) ∧ otherCmds s t c ∧
      t = { s with cmds := t.cmds, fns := t.fns }) ∧
  (∀ (s : State) (c : CmdRef) (m : Cmd), s.runs c 0x0008 m → c.sender = .host 0 →
    ∃ t, exec (.expertPolicy c) s = .next t ∧ t.answered c OK 0 [] ∧ otherCmds s t c ∧ t = { s with cmds := t.cmds, fns := t.fns } ∧
      ∀ v, t.fnAt v = if 1 ≤ v ∧ v ≤ 7 ∧ bit (m.w 3) v = true then
          { s.fnAt v with policy := (m.w 4).setWidth 16 &&& 0x7FFE, expert := (s.fnAt v).expert &&& ((m.w 4).setWidth 16 &&& 0x7FFE) }
        else s.fnAt v) ∧
  (∀ (s : State) (c : CmdRef) (m : Cmd) (n : Nat), s.runs c 0x0008 m → c.sender = .host n → n ≠ 0 →
    exec (.expertPolicy c) s = .next ((s.began c).refuseOpen c NOT_OWNER)) ∧
  (∀ (s : State) (c : CmdRef) (m : Cmd), s.runs c 0x0008 m → c.sender = .tether →
    exec (.expertPolicy c) s = .next ((s.began c).refuse c BAD_OPCODE 0x0003))

/-- ENERGY_HORIZON_PASSED at or after the account's horizon leaves no account and no allowance. A droop raises POWER_DROOP when none
was raised in the last second, and no droop within a second of it raises another, with any of the other power commands in
between: each keeps the tick of the last one. -/
def Obligations.HorizonAndDroopEventsAsStated : Prop :=
  (∀ (s : State) (e h : Nat), s.power.account = some (e, h) → h ≤ s.devNs →
    ∃ t, exec .energyHorizonPassed s = .next t ∧ t.power.account = none ∧ t.energyAllowance = none) ∧
  (∀ (s : State) (mask : BitVec 3), s.mainOn = true → mask ≠ 0 →
    ((∀ k, s.power.droopRaised = some k → 500000000 ≤ s.time.ticks - k) →
      ∃ t e, exec (.powerDroop mask) s = .next t ∧ t.events = s.events ++ [e] ∧ e.code = 0x8B02 ∧ e.detail = mask.setWidth 16 ∧
        t.power.droopRaised = some s.time.ticks) ∧
    (∀ k, s.power.droopRaised = some k → s.time.ticks - k < 500000000 →
      ∃ t, exec (.powerDroop mask) s = .next t ∧ t.events = s.events ∧ t.power.droopRaised = some k)) ∧
  (∀ (s t : State), (exec .droopRecovery s = .next t ∨ (∃ d u, exec (.bridleGrantPeriod d u) s = .next t) ∨
      (∃ r, exec (.planningIntervalEnd r) s = .next t) ∨ exec .energyHorizonPassed s = .next t ∨ exec .autoIdle s = .next t ∨
      ∃ c, exec (.powerCapSet c) s = .next t ∨ exec (.ballastSet c) s = .next t ∨ exec (.energyAccountSet c) s = .next t ∨
        exec (.worklevelLoad c) s = .next t) → t.power.droopRaised = s.power.droopRaised)

/-- POWER_CAP_SET of 10,000 to 75,000 (0 for 75,000) sets the cap, OK_DEGRADED with POWER_CAP_UNMET where what is admitted does not
fit it, BAD_PARAM out of range. ENERGY_ACCOUNT_SET with E 0 removes the account, with a horizon not in the future is BAD_PARAM,
else sets it. BALLAST_SET of 10 to 200 (0 for 50) sets the Ballast, which is the cap times it over 1,000 rounded down, and is
BAD_PARAM out of range. WORKLEVEL_LOAD is BUSY during a session, takes a complete table and is BAD_PARAM otherwise. A droop
brings every metered grant to its floor grant or below; 100 us after it the grants start to rise. With no session or program for
1 s, AUTO_IDLE enters IDLE and raises POWER_STATE. (That the end of a droop is taken at the droop itself is the model's choice,
assumption 11.) -/
def Obligations.PowerCommandsSetTheBudget : Prop :=
  (∀ (s : State) (c : CmdRef) (m : Cmd) (cap : Nat) (u : State), s.runs c 0x0B00 m → cap = (if m.w 3 = 0 then 75000 else (m.w 3).toNat) →
    u = { s with power := { s.power with cap := cap, tetherCap := if m.isTether then cap else s.power.tetherCap } } →
    (cap < 10000 ∨ 75000 < cap → exec (.powerCapSet c) s = .next ((s.began c).badWord c 3)) ∧
    (10000 ≤ cap → cap ≤ 75000 → 8000 + s.shares ≤ cap - cap * s.power.ballast / 1000 →
      ∃ t, exec (.powerCapSet c) s = .next t ∧ t.answered c OK 0 [] ∧ otherCmds s t c ∧ t = { u with cmds := t.cmds }) ∧
    (10000 ≤ cap → cap ≤ 75000 → cap - cap * s.power.ballast / 1000 < 8000 + s.shares →
      ∃ t e, exec (.powerCapSet c) s = .next t ∧ t.answered c OK_DEGRADED 0 [] ∧ t.events = s.events ++ [e] ∧ e.code = 0x8B01 ∧
        e.detail = BitVec.ofNat 16 ((cap - cap * s.power.ballast / 1000) / 1000) ∧ otherCmds s t c ∧
        t = { u with cmds := t.cmds, events := t.events, tether := t.tether })) ∧
  (∀ (s : State) (c : CmdRef) (m : Cmd) (h : Nat), s.runs c 0x0B01 m → h = (m.w 4).toNat + 2 ^ 32 * (m.w 5).toNat →
    ((m.w 3) ≠ 0 → h ≤ s.devNs → exec (.energyAccountSet c) s = .next ((s.began c).badWord c 4)) ∧
    ((m.w 3) = 0 ∨ s.devNs < h →
      ∃ t, exec (.energyAccountSet c) s = .next t ∧ t.answered c OK 0 [] ∧
        t.power.account = (if m.w 3 = 0 then none else some ((m.w 3).toNat * 1000000, h)) ∧ t.power.cap = s.power.cap ∧
        t.power.ballast = s.power.ballast ∧ t.power.table = s.power.table ∧ t.power.grants = s.power.grants ∧ t.power.pools = s.power.pools ∧
        otherCmds s t c ∧ t = { s with cmds := t.cmds, power := t.power })) ∧
  (∀ (s : State) (c : CmdRef) (m : Cmd), s.runs c 0x0B02 m →
    (fld (m.w 3) 7 0 ≠ 0 → fld (m.w 3) 7 0 < 10 ∨ 200 < fld (m.w 3) 7 0 → exec (.ballastSet c) s = .next ((s.began c).badWord c 3)) ∧
    (∀ b, b = (if fld (m.w 3) 7 0 = 0 then 50 else fld (m.w 3) 7 0) → 10 ≤ b → b ≤ 200 →
      ∃ t, exec (.ballastSet c) s = .next t ∧ t.answered c OK 0 [] ∧ t.ballastMw = s.power.cap * b / 1000 ∧ t.ballastMw * 1000 ≤ s.power.cap * b ∧
        t.power = { s.power with ballast := b, tetherBallast := if m.isTether then b else s.power.tetherBallast } ∧ otherCmds s t c ∧
        t = { s with cmds := t.cmds, power := t.power })) ∧
  (∀ (s : State) (c : CmdRef) (m : Cmd), s.runs c 0x0B03 m → m.ref = c →
    ((∃ n, n < 8 ∧ (s.sessionAt n).isSome = true) → exec (.worklevelLoad c) s = .next ((s.began c).refuseOpen c BUSY)) ∧
    (∀ b, (∀ n, n < 8 → s.sessionAt n = none) → sgIn m 3 s = .bytes b →
      (levelTableOk b = false → exec (.worklevelLoad c) s = .next ((s.began c).badWord c 3)) ∧
      (levelTableOk b = true → ∃ t, exec (.worklevelLoad c) s = .next t ∧ t.answered c OK 0 [] ∧ t.power = { s.power with table := b } ∧
        otherCmds s t c ∧ t = { s with cmds := t.cmds, power := t.power }))) ∧
  (∀ (s : State) (mask : BitVec 3), s.mainOn = true → mask ≠ 0 →
    ∃ t, exec (.powerDroop mask) s = .next t ∧ t.power.droop = true ∧ t.power.ramping = false ∧ t.power.droopAt = s.time.ticks ∧
      (∀ k g, Tab.get? s.power.grants k = some g → Tab.get? t.power.grants k = some (min g (Tab.getD s.power.floors k 0))) ∧
      t.power.cap = s.power.cap ∧ t.power.account = s.power.account ∧ t.power.pools = s.power.pools ∧
      t = { s with power := t.power, events := t.events, tether := t.tether }) ∧
  (∀ (s : State), (s.power.droop = true → 50000 ≤ s.time.ticks - s.power.droopAt →
      exec .droopRecovery s = .next { s with power := { s.power with droop := false, ramping := true } }) ∧
    (s.power.droop = false ∨ s.time.ticks - s.power.droopAt < 50000 → exec .droopRecovery s = .next s)) ∧
  (∀ (s : State) (k : Nat), s.life.idleSince = some k → s.mainOn = true → s.life.powerState = 0 →
    (500000000 ≤ s.time.ticks - k → (∀ n, n < 8 → (s.ctxAt n).admitted = false) →
      ∃ t e, exec .autoIdle s = .next t ∧ t.life = { s.life with powerState := 1, idleSince := none } ∧ t.events = s.events ++ [e] ∧ e.code = 0x8B04 ∧
        e.detail = 1 ∧ t = { s with life := t.life, events := t.events, tether := t.tether }) ∧
    (s.time.ticks - k < 500000000 → exec .autoIdle s = .next s))

/-- Every 10 us, and not before, the Bridle issues grants whose sum in units of 125 mW, with no recovery, fits the budget less
Ballast less the unmetered draw, which never exceeds 15 W; vision has 6 W, search 2 W, HBM 8 W and the bands together 44 W at
most; each pool gains its grant and holds one period's grant at most. Every 1 ms, and not before, the planner's interval closes:
the interval's energy comes off the account, which never falls below 0; an account at 0 puts every session at its lowest levels;
a session changes only in its levels and the planner's own figures; V_SET moves toward its target by 10 mV at most. -/
def Obligations.GrantsStayWithinTheBudget : Prop :=
  (∀ (s : State) (draws : List (Nat × Nat)) (mw : Nat), s.time.ticks < s.power.grantTick + 5000 → exec (.bridleGrantPeriod draws mw) s = .next s) ∧
  (∀ (s : State) (draws : List (Nat × Nat)) (mw : Nat), 15000 < mw → exec (.bridleGrantPeriod draws mw) s = .next s) ∧
  (∀ (s : State) (draws : List (Nat × Nat)) (mw : Nat), s.mainOn = true → s.power.grantTick + 5000 ≤ s.time.ticks → mw ≤ 15000 →
    Tab.sorted s.bands = true → (∀ e ∈ s.bands, e.1 < 16) →
    ∃ t, exec (.bridleGrantPeriod draws mw) s = .next t ∧ t.power.grantTick = s.time.ticks ∧
      (s.recovering = [] → total (t.power.grants.map (·.2)) ≤ (s.budgetLess - mw) / 125) ∧
      Tab.getD t.power.grants 16 0 ≤ 48 ∧ Tab.getD t.power.grants 17 0 ≤ 16 ∧ Tab.getD t.power.grants 18 0 ≤ 64 ∧
      total ((t.power.grants.filter fun e => decide (e.1 < 16)).map (·.2)) ≤ 352 ∧
      (∀ k, k = 16 ∨ k = 17 ∨ k = 18 → Tab.getD t.power.pools k 0 =
        min (Int.ofNat (1250 * Tab.getD t.power.grants k 0)) (Tab.getD s.power.pools k 0 + Int.ofNat (1250 * Tab.getD t.power.grants k 0))) ∧
      (∀ b, Tab.has s.bands b = true → t.bandAt b = { s.bandAt b with pool := (t.bandAt b).pool } ∧ (t.bandAt b).pool =
        min (Int.ofNat (1250 * Tab.getD t.power.grants b 0)) ((s.bandAt b).pool + Int.ofNat (1250 * Tab.getD t.power.grants b 0))) ∧
      (s.power.droop = true → ∀ k, k ∈ s.consumers → Tab.getD t.power.grants k 0 ≤ Tab.getD t.power.floors k 0) ∧
      t.power.cap = s.power.cap ∧ t.power.account = s.power.account ∧ t = { s with power := t.power, bands := t.bands }) ∧
  (∀ (s : State) (r : IntervalReport), s.time.ticks < s.power.intervalEnd + 500000 → exec (.planningIntervalEnd r) s = .next s) ∧
  (∀ (s : State) (r : IntervalReport), s.mainOn = true → s.power.intervalEnd + 500000 ≤ s.time.ticks →
    ∃ t, exec (.planningIntervalEnd r) s = .next t ∧ t.power.intervalEnd = s.power.intervalEnd + 500000 ∧ t.power.modulePower = r.mainUj ∧
      t.power.account = s.power.account.map (fun a => (a.1 - r.mainUj, a.2)) ∧ t.power.history.length ≤ max 10000 s.power.history.length ∧
      (∀ n x, n < 8 → s.sessionAt n = some x → ∃ y, t.sessionAt n = some y ∧
        y = { x with levels := y.levels, predMw := y.predMw, kCorr := y.kCorr, loweredAgo := y.loweredAgo } ∧
        (∀ h, t.power.account = some (0, h) → y.levels = lowestLevels)) ∧
      (∀ h, t.power.account = some (0, h) → s.power.emptyRaised = false → ∃ e ∈ t.events, e.code = 0x8B00 ∧ e.detail = 3) ∧
      (s.age.vSet ≤ s.age.vTarget → s.age.vSet ≤ t.age.vSet ∧ t.age.vSet ≤ s.age.vTarget ∧ t.age.vSet ≤ s.age.vSet + 10) ∧
      (s.age.vTarget ≤ s.age.vSet → t.age.vSet ≤ s.age.vSet ∧ s.age.vTarget ≤ t.age.vSet ∧ s.age.vSet ≤ t.age.vSet + 10) ∧
      t.age.vTarget = s.age.vTarget ∧ t.age.ledger = s.age.ledger ∧
      t = { s with power := t.power, ctxs := t.ctxs, bands := t.bands, age := t.age, events := t.events, tether := t.tether })

/-- Losing a present source makes it absent and unstable; each island that runs on it changes to its other source when that is
stable and parks otherwise, the others stay. A source judged stable is present again; an island returns to its primary only
after that has been stable for 10 s. A lost PLL parks its island. A parked island resumes with a stable source, on its primary
when that is stable, at the lower frequency of a transition under way, and raises the event with the time away. A completed
transition leads to the latest waiting one. VF_CURVE_LOAD refuses an island outside 0, 2, 5, a bad table and an island in use.
While the link is down records are held; with the link up none is held. -/
def Obligations.ClockSourcesIslandsAndLink : Prop :=
  (∀ (s : State) (k : Nat), k < 2 → (s.sources.getD k {}).present = true → k = 1 ∨ s.mainOn = true →
    ∃ t, exec (.clockSourceLost k) s = .next t ∧ (t.sources.getD k {}).present = false ∧ (t.sources.getD k {}).stable = false ∧
      t.sources.getD (1 - k) {} = s.sources.getD (1 - k) {} ∧
      (∀ i, i < 8 → s.clocked i = true → (s.islandAt i).parked = false → s.sourceOf i = k →
        (s.stableSource (otherSource i k) = true → t.islandAt i = { s.islandAt i with alt := !(s.islandAt i).alt }) ∧
        (s.stableSource (otherSource i k) = false → t.islandAt i = { s.islandAt i with parked := true, lostAt := s.time.ticks })) ∧
      (∀ i, i < 8 → s.clocked i = false ∨ (s.islandAt i).parked = true ∨ s.sourceOf i ≠ k → t.islandAt i = s.islandAt i) ∧
      t.hostMem = s.hostMem ∧ t.maps = s.maps ∧ t.objs = s.objs ∧ t.age = s.age ∧ t.sec = s.sec ∧ t.ports = s.ports) ∧
  (∀ (s : State) (k : Nat), k < 2 → (s.sources.getD k {}).present = false → exec (.clockSourceLost k) s = .next s) ∧
  (∀ (s : State) (k : Nat), k < 2 → (s.sources.getD k {}).stable = false → k = 1 ∨ s.mainOn = true →
    ∃ t, exec (.clockSourceStable k) s = .next t ∧ t.sources.getD k {} = { present := true, stable := true, since := s.time.ticks } ∧
      t.sources.getD (1 - k) {} = s.sources.getD (1 - k) {} ∧ (∀ i, i ≠ 7 → t.islandAt i = s.islandAt i) ∧
      (k = 1 → s.life.xoTaken = false → (t.islandAt 7).alt = false ∧ t.life.xoTaken = true) ∧
      t = { s with sources := t.sources, islands := t.islands, life := t.life }) ∧
  (∀ (s : State) (i : Nat), i < 8 → s.clocked i = true → (s.islandAt i).alt = true → (s.islandAt i).parked = false →
    ((s.sources.getD (primarySource i) {}).stable = true → 5000000000 ≤ s.time.ticks - (s.sources.getD (primarySource i) {}).since →
      ∃ t e, exec (.clockSourceReturn i) s = .next t ∧ t.islandAt i = { s.islandAt i with alt := false } ∧ (∀ j, j ≠ i → t.islandAt j = s.islandAt j) ∧
        t.events = s.events ++ [e] ∧ e.code = 0x8B10 ∧ (i ≠ 4 → t.time = s.time) ∧
        (∃ d, d ≤ 2 * (s.time.inc.toNat * 50 / 1000000) ∧ (i = 4 →
          t.time.inc = BitVec.ofNat 40 (s.time.inc.toNat + d - s.time.inc.toNat * 50 / 1000000))) ∧
        t = { s with islands := t.islands, events := t.events, tether := t.tether, time := t.time, free := t.free }) ∧
    ((s.sources.getD (primarySource i) {}).stable = false ∨ s.time.ticks - (s.sources.getD (primarySource i) {}).since < 5000000000 →
      exec (.clockSourceReturn i) s = .next s)) ∧
  (∀ (s : State) (i : Nat), i < 7 → s.mainOn = true → (s.islandAt i).parked = false →
    ∃ t, exec (.pllLockLost i) s = .next t ∧ t.islandAt i = { s.islandAt i with parked := true, pllLost := true, lostAt := s.time.ticks } ∧
      (∀ j, j ≠ i → t.islandAt j = s.islandAt j) ∧ (∃ e ∈ t.events, e.code = 0x8B11) ∧ (i = 0 → t.life.linkUp = false) ∧
      (i = 4 → t.time.state = .holdover ∧ t.time.held = true) ∧ t.hostMem = s.hostMem ∧ t.maps = s.maps ∧ t.sources = s.sources) ∧
  (∀ (s : State) (i : Nat) (x : IslandS), i < 7 → s.mainOn = true → x = s.islandAt i → x.parked = true →
    s.stableSource (primarySource i) = true ∨ s.stableSource (1 - primarySource i) = true →
    ∃ t e, exec (.islandResume i) s = .next t ∧ (t.islandAt i).parked = false ∧ (t.islandAt i).pllLost = false ∧
      ((t.islandAt i).alt = false ↔ s.stableSource (primarySource i) = true) ∧ (x.target = none → (t.islandAt i).mhz = x.mhz) ∧
      (∀ g, x.target = some g → (t.islandAt i).mhz = min x.mhz g.1) ∧ (t.islandAt i).target = x.target ∧ (∀ j, j ≠ i → t.islandAt j = s.islandAt j) ∧
      t.events = s.events ++ [e] ∧ e.code = 0x8B12 ∧ (i = 4 → t.time.held = false) ∧
      t = { s with islands := t.islands, events := t.events, tether := t.tether, time := t.time }) ∧
  (∀ (s : State) (i : Nat) (g : Nat × Nat), s.mainOn = true → (s.islandAt i).parked = false → (s.islandAt i).target = some g →
    ∃ t, exec (.voltageTransition i) s = .next t ∧
      t.islandAt i = { s.islandAt i with mhz := g.1, mv := g.2, target := (s.islandAt i).waiting, waiting := none } ∧
      (∀ j, j ≠ i → t.islandAt j = s.islandAt j) ∧ t = { s with islands := t.islands }) ∧
  (∀ (s : State) (c : CmdRef) (m : Cmd) (i : Nat) (b : List Byte), s.runs c 0x0B04 m → m.ref = c → i = fld (m.w 3) 3 0 → sgIn m 4 s = .bytes b →
    (i ≠ 0 → i ≠ 2 → i ≠ 5 → exec (.vfCurveLoad c) s = .next ((s.began c).badWord c 3)) ∧
    (i = 0 ∨ i = 2 ∨ i = 5 → curveOk i b = false → exec (.vfCurveLoad c) s = .next ((s.began c).badWord c 4)) ∧
    (i = 0 ∨ i = 2 ∨ i = 5 → curveOk i b = true →
      ((∃ e ∈ curvePoints b, e.2 < s.minVolt i e.1) ∨ ((curvePoints b).getLastD (0, 0)).1 < topFreq i →
        exec (.vfCurveLoad c) s = .next ((s.began c).refuse c BAD_PARAM 0x0050)) ∧
      ((∀ e ∈ curvePoints b, s.minVolt i e.1 ≤ e.2) → topFreq i ≤ ((curvePoints b).getLastD (0, 0)).1 →
        ((s.islandAt i).target.isSome = true → exec (.vfCurveLoad c) s = .next ((s.began c).refuseOpen c BUSY)) ∧
        ((s.islandAt i).target = none → (i = 2 → ∀ q, q < 12 → (s.portAt q).state ≠ .streaming) →
          ∃ t, exec (.vfCurveLoad c) s = .next t ∧ t.answered c OK 0 [] ∧ t.islandAt i = { s.islandAt i with curve := curvePoints b } ∧
            (∀ j, j ≠ i → t.islandAt j = s.islandAt j) ∧ otherCmds s t c ∧ t = { s with cmds := t.cmds, islands := t.islands })))) ∧
  (∀ (s : State), (s.life.linkUp = true →
      exec .hostLinkDown s = .next { s with life := { s.life with linkUp := false }, linkDownTick := some s.time.ticks }) ∧
    (s.life.linkUp = false → exec .hostLinkDown s = .next s)) ∧
  (∀ (s : State), s.life.linkUp = false → s.mainOn = true → s.life.perst = false → (s.islandAt 0).parked = false →
    ∃ t, exec .hostLinkUp s = .next t ∧ t.life.linkUp = true ∧ t.held = [] ∧ t.linkDownTick = none ∧ t.time = s.time ∧ t.sec = s.sec ∧ t.age = s.age)

/-- A tile that has not acknowledged its step goes to repair with cause 3, its band stops, and the repair names its band and logical
index; while its repair runs, the timeout retires the replacement chosen and another is looked for. LANE_SUBSTITUTION_DONE
retires the lane named, ends the substitution, appends one ledger entry and reports lane and tile. TILE_REPAIR_DONE retires the
failed tile, gives its replacement the band and the logical index, and ends the repair. CHECKPOINT_ROLLBACK of a band with no
other recovery restarts it at the address of its newest valid checkpoint and lets it go on. Repair and rollback meet at one of
the firmware's rendezvous (which one is the model's choice, assumption 9). -/
def Obligations.RepairsReplaceLanesTilesAndState : Prop :=
  (∀ (s : State) (bn tile : Nat), Tab.has s.bands bn = true → tile < (s.bandAt bn).tiles.length → (s.bandAt bn).halted = false →
    Tab.get? s.dep.repairs ((s.bandAt bn).tiles.getD tile 0) = none →
    ∃ t r e, exec (.stepTimeout bn tile) s = .next t ∧ Tab.get? t.dep.repairs ((s.bandAt bn).tiles.getD tile 0) = some r ∧ r.band = bn ∧
      r.logical = tile ∧ r.cause = 3 ∧ r.start = s.time.ticks ∧ (t.tileAt ((s.bandAt bn).tiles.getD tile 0)).state = 3 ∧
      (t.bandAt bn).stopped = true ∧ e ∈ t.events ∧ e.code = 0x8C01 ∧ e.time = s.devTime ∧
      (∀ k, k ≠ (s.bandAt bn).tiles.getD tile 0 → t.tileAt k = s.tileAt k) ∧ (∀ k, k ≠ bn → t.bandAt k = s.bandAt k) ∧
      t = { s with tiles := t.tiles, bands := t.bands, pairs := t.pairs, dep := t.dep, age := t.age, power := t.power, events := t.events,
                   tether := t.tether }) ∧
  (∀ (s : State) (bn tile x k : Nat) (r : RepairS), Tab.has s.bands bn = true → tile < (s.bandAt bn).tiles.length → (s.bandAt bn).halted = false →
    k = (s.bandAt bn).tiles.getD tile 0 → Tab.get? s.dep.repairs k = some r →
    (r.replacement = none → exec (.stepTimeout bn tile) s = .next s) ∧
    (r.replacement = some x → s.age.ledger.length < 16384 → ∃ t d, exec (.stepTimeout bn tile) s = .next t ∧ (t.tileAt x).state = 2 ∧
      t.age.ledger = s.age.ledger ++ [d] ∧ d.kind = 3 ∧ d.subject = x ∧ (Tab.get? t.dep.repairs k).isSome = true ∧
      (∀ j, j ≠ x → t.tileAt j = s.tileAt j) ∧ t.bands = s.bands ∧
      t = { s with tiles := t.tiles, pairs := t.pairs, dep := t.dep, age := t.age, events := t.events, tether := t.tether })) ∧
  (∀ (s : State) (tile lane since : Nat), Tab.get? s.dep.subst tile = some (lane, since) → s.age.ledger.length < 16384 →
    ∃ t e l d, exec (.laneSubstitutionDone tile) s = .next t ∧ t.tileAt tile = { s.tileAt tile with retired := (s.tileAt tile).retired ++ [lane] } ∧
      Tab.get? t.dep.subst tile = none ∧ t.dep.retiredLanes = s.dep.retiredLanes + 1 ∧ t.events = s.events ++ e :: l ∧ e.code = 0x8C00 ∧
      e.detail = BitVec.ofNat 16 (tile * 1024 + lane) ∧ t.age.ledger = s.age.ledger ++ [d] ∧ d.kind = 2 ∧ d.subject = tile ∧ d.subject2 = lane ∧
      (∀ k, k ≠ tile → t.tileAt k = s.tileAt k) ∧
      t = { s with tiles := t.tiles, bands := t.bands, dep := t.dep, age := t.age, power := t.power, events := t.events, tether := t.tether }) ∧
  (∀ (s : State) (tile x : Nat) (r : RepairS), Tab.get? s.dep.repairs tile = some r → r.replacement = some x → x ≠ tile → s.mayFinish r.band = true →
    Tab.has s.bands r.band = true → (s.bandAt r.band).tiles[r.logical]? = some tile →
    ∃ t, exec (.tileRepairDone tile) s = .next t ∧ (t.tileAt tile).state = 2 ∧ (t.tileAt tile).band = none ∧ (t.tileAt x).state = 0 ∧
      (t.tileAt x).band = some r.band ∧ (t.tileAt x).logical = r.logical ∧ (t.bandAt r.band).tiles[r.logical]? = some x ∧
      Tab.get? t.dep.repairs tile = none ∧ (∃ e ∈ t.events, e.code = 0x8C02) ∧ (∀ k, k ≠ r.band → t.bandAt k = s.bandAt k) ∧
      (t.bandAt r.band).lastRv = 56 + r.band % 4 ∧
      t = { s with tiles := t.tiles, bands := t.bands, pairs := t.pairs, dep := t.dep, power := t.power, events := t.events, tether := t.tether,
                   epoch := t.epoch, rvs := t.rvs }) ∧
  (∀ (s : State) (bn : Nat), s.dep.rollbacks = [bn] → Tab.has s.bands bn = true →
    ∃ t, exec (.checkpointRollback bn) s = .next t ∧ t.dep.rollbacks = [] ∧ (t.bandAt bn).pc = (s.bandAt bn).restorePc ∧
      (t.bandAt bn).segment = (s.bandAt bn).restorePc ∧ (t.bandAt bn).inflight = [] ∧ (t.bandAt bn).moves = [] ∧
      (s.dep.repairs = [] → s.dep.subst = [] → s.pairs = [] → (t.bandAt bn).stopped = false) ∧
      ((s.bandAt bn).ckptValid = [true, false] → (s.bandAt bn).ckptNewest = 0 → (t.bandAt bn).pc = (s.bandAt bn).ckptSeg.getD 0 0) ∧
      (∀ k, k ≠ bn → t.bandAt k = s.bandAt k) ∧ (∀ k, k ∉ (s.bandAt bn).tiles → t.tileAt k = s.tileAt k) ∧
      (t.bandAt bn).lastRv = 56 + bn % 4 ∧ (∀ k, k ≠ 56 + bn % 4 → Tab.get? t.rvs k = Tab.get? s.rvs k) ∧
      t = { s with tiles := t.tiles, bands := t.bands, dep := { s.dep with rollbacks := [] }, epoch := t.epoch, rvs := t.rvs })

/-- A patrol read that finds nothing changes nothing; one that corrects counts one correction; an uncorrectable one counts and
raises MEM_UNCORRECTABLE with the place. HBM_ROW_RETIRED with no free repair resource retires the region and counts it, and with
one returns a region to the reserve; both append a ledger entry and raise their event. A steward fault takes the core out of the
vote, a rejoin brings it back, and each reports the core and how many vote. DIAG_FAULT_INJECT is NOT_OWNER outside context 0,
BUSY while another context runs a session, BAD_PARAM for a tile or a target that does not exist, and a transient store codeword
counts one correction. -/
def Obligations.MemoryAndStewardFaultsAreCounted : Prop :=
  (∀ (s : State) (place : PatrolPlace), s.life.main ≠ .off →
    exec (.patrolRead place .intact) s = .next s ∧
    (∃ t, exec (.patrolRead place .corrected) s = .next t ∧ t.dep.corrected = s.dep.corrected + 1 ∧ t.dep.uncorrectable = s.dep.uncorrectable ∧
      t.events = s.events ∧ t = { s with dep := { s.dep with corrected := t.dep.corrected, rowHistory := t.dep.rowHistory }, jobs := t.jobs, jobSeq := t.jobSeq }) ∧
    (∃ t e, exec (.patrolRead place .uncorrectable) s = .next t ∧ t.dep.uncorrectable = s.dep.uncorrectable + 1 ∧ t.dep.corrected = s.dep.corrected ∧
      t.events = s.events ++ [e] ∧ e.code = 0x8C05 ∧
      t = { s with dep := { s.dep with uncorrectable := t.dep.uncorrectable }, jobs := t.jobs, jobSeq := t.jobSeq, events := t.events, tether := t.tether })) ∧
  (∀ (s : State) (ch reg row : Nat), s.dep.toRetire.contains (ch, reg, row) = true → s.age.ledger.length < 16384 →
    (∃ t e d, exec (.hbmRowRetired ch reg row false) s = .next t ∧ t.dep.toRetire.contains (ch, reg, row) = false ∧
      t.dep.hbmRetired = s.dep.hbmRetired ++ [(ch, reg)] ∧ t.dep.retiredHbm = s.dep.retiredHbm + 1 ∧ t.dep.reserve = s.dep.reserve ∧
      t.events = s.events ++ [e] ∧ e.code = 0x8C06 ∧ e.detail = BitVec.ofNat 16 (ch * 4096 + 1) ∧ t.age.ledger = s.age.ledger ++ [d] ∧ d.kind = 4 ∧
      t = { s with dep := t.dep, age := t.age, events := t.events, tether := t.tether }) ∧
    (∃ t e d, exec (.hbmRowRetired ch reg row true) s = .next t ∧ t.dep.toRetire.contains (ch, reg, row) = false ∧
      t.dep.hbmRetired = s.dep.hbmRetired ∧ t.dep.retiredHbm = s.dep.retiredHbm ∧ t.dep.reserve = min 4096 (s.dep.reserve + 1) ∧
      t.events = s.events ++ [e] ∧ e.code = 0x8C06 ∧ e.detail = BitVec.ofNat 16 (ch * 4096) ∧ t.age.ledger = s.age.ledger ++ [d] ∧ d.kind = 4 ∧
      t = { s with dep := t.dep, age := t.age, events := t.events, tether := t.tether })) ∧
  (∀ (s : State) (core : Nat), s.life.main ≠ .off → core < 3 → s.dep.voting.length = 3 →
    (s.dep.voting.getD core false = true →
      ∃ t e, exec (.stewardFault core) s = .next t ∧ t.dep.voting.getD core true = false ∧ t.votingCount + 1 = s.votingCount ∧
        t.events = s.events ++ [e] ∧ e.code = 0x8C08 ∧ e.detail = BitVec.ofNat 16 (core * 16 + t.votingCount) ∧
        (s.sec.stage < 3 → t.sec = s.sec) ∧ t = { s with dep := t.dep, sec := t.sec, events := t.events, tether := t.tether }) ∧
    (s.dep.voting.getD core true = false → ¬ (3 ≤ s.sec.stage ∧ s.sec.stage ≤ 5) →
      ∃ t e, exec (.stewardRejoin core) s = .next t ∧ t.dep.voting.getD core false = true ∧ t.votingCount = s.votingCount + 1 ∧
        t.events = s.events ++ [e] ∧ e.code = 0x8C08 ∧ e.detail = BitVec.ofNat 16 (core * 16 + t.votingCount) ∧
        t = { s with dep := t.dep, events := t.events, tether := t.tether })) ∧
  (∀ (s : State) (c : CmdRef) (m : Cmd), s.runs c 0x0E03 m →
    (m.ctx ≠ 0 → exec (.diagFaultInject c) s = .next ((s.began c).refuseOpen c NOT_OWNER)) ∧
    (m.ctx = 0 → (∃ n ∈ s.sessionCtxs, n ≠ 0) → exec (.diagFaultInject c) s = .next ((s.began c).refuseOpen c BUSY)) ∧
    (m.ctx = 0 → (∀ n ∈ s.sessionCtxs, n = 0) → (fld (m.w 3) 3 0 ≠ 3 ∧ 55 < fld (m.w 3) 15 8) ∨ 3 < fld (m.w 3) 3 0 →
      exec (.diagFaultInject c) s = .next ((s.began c).badWord c 3)) ∧
    (m.ctx = 0 → (∀ n ∈ s.sessionCtxs, n = 0) → fld (m.w 3) 3 0 = 1 → fld (m.w 3) 15 8 ≤ 55 → bit (m.w 3) 24 = false →
      ∃ t, exec (.diagFaultInject c) s = .next t ∧ t.answered c OK 0 [] ∧ t.dep = { s.dep with corrected := s.dep.corrected + 1 } ∧ otherCmds s t c ∧
        t = { s with cmds := t.cmds, dep := t.dep }) ∧
    (m.ctx = 0 → (∀ n ∈ s.sessionCtxs, n = 0) → fld (m.w 3) 3 0 = 2 → fld (m.w 3) 15 8 ≤ 55 → (s.tileAt (fld (m.w 3) 15 8)).band = none →
      exec (.diagFaultInject c) s = .next ((s.began c).done c)))

/-- MARGIN_REPLAN outside context 0 is NOT_OWNER; else it joins the running re-planning, or starts one, and waits; APPLY holds when
any joined request carries it. After 24 h of operation one that applies is requested. When it completes, an applied result
orders V_SET of V_REQ (rounded up), never below 800 mV or above 880 mV, keeps 880 - V_REQ as the margin, appends one margin
entry and raises its event; a result only reported changes nothing else. Every joined command ends with OK, the margin and the
projected life, 0xFFFFFFFF with fewer than 7 margin entries. (That the entry just written counts among the 7, and that a zero
sensitivity is no result, are the model's choices, assumption 13.) -/
def Obligations.MarginReplanningJoinsAndApplies : Prop :=
  (∀ (s : State) (c : CmdRef) (m : Cmd), s.runs c 0x0C03 m →
    (m.ctx ≠ 0 → exec (.marginReplan c) s = .next ((s.began c).refuseOpen c NOT_OWNER)) ∧
    (m.ctx = 0 → s.age.replan = none → exec (.marginReplan c) s =
      .next ((s.began c).mapAge fun a => { a with replan := some (bit (m.w 3) 0, [c]) })) ∧
    (∀ a l, m.ctx = 0 → s.age.replan = some (a, l) → exec (.marginReplan c) s =
      .next ((s.began c).mapAge fun x => { x with replan := some (a || bit (m.w 3) 0, l ++ [c]) }))) ∧
  (∀ (s : State), s.mainOn = true → (s.age.sinceDaily < 43200000000000 → exec .marginReplanDaily s = .next s) ∧
    (43200000000000 ≤ s.age.sinceDaily → ∃ t l, exec .marginReplanDaily s = .next t ∧ t.age.replan = some (true, l) ∧
      (∀ a k, s.age.replan = some (a, k) → l = k) ∧ (s.age.replan = none → l = []) ∧ t.age.sinceDaily = s.age.sinceDaily - 43200000000000 ∧
      t.age.ledger = s.age.ledger ∧ t.age.vTarget = s.age.vTarget ∧ t = { s with age := t.age })) ∧
  (∀ (s : State) (r : MarginReport) (apply : Bool) (l : List CmdRef) (v : Int), s.age.replan = some (apply, l) → 0 < r.s1000 → v = MarginReport.vReq r →
    (810 - v) * r.s1000 ≤ (Int.ofNat r.rSlow - 1050) * 1000 ∧ (Int.ofNat r.rSlow - 1050) * 1000 < (811 - v) * r.s1000 ∧
    ∃ t life, exec (.marginReplanned r) s = .next t ∧ t.age.replan = none ∧
      (apply = false → t.age = { s.age with replan := none } ∧ t.events = s.events) ∧
      (apply = true → 800 ≤ t.age.vTarget ∧ t.age.vTarget ≤ 880 ∧ (800 ≤ v → v ≤ 880 → Int.ofNat t.age.vTarget = v) ∧ t.age.margin = 880 - v ∧
        (∃ e ∈ t.events, e.code = 0x8C10) ∧ (s.age.ledger.length < 16384 → ∃ e, t.age.ledger = s.age.ledger ++ [e] ∧ e.kind = 1 ∧ e.subject = r.tile ∧
          e.vReq = v ∧ e.rSlow = r.rSlow ∧ e.deviceTime = s.devTime)) ∧
      t.age.vSet = s.age.vSet ∧ t.age.store = s.age.store ∧
      (life = if (t.age.ledger.filter fun e => e.kind == 1).length < 7 then 0xFFFFFFFF else w32 r.life) ∧
      (∀ c, c ∈ l → (s.findCmd c).isSome = true → t.answered c OK 0 [wInt (880 - v), life]) ∧ (∀ d, d ∉ l → t.findCmd d = s.findCmd d) ∧
      t = { s with cmds := t.cmds, age := t.age, events := t.events, tether := t.tether })

/-- A carrier that does not reach the responder answers nothing. GET_VERSION is always answered with version 1.2 alone and resets
the connection state of its carrier only. A request before the state it needs is answered with an ERROR message and changes no
state. GET_CAPABILITIES answers CERT_CAP, CHAL_CAP and MEAS_CAP with signature; NEGOTIATE_ALGORITHMS selects the three
algorithms and DMTF, or answers ERROR and goes back to the state after GET_CAPABILITIES; GET_DIGESTS names slot 0 alone;
GET_CERTIFICATE sends the named part of the chain, ERROR for another slot; CHALLENGE and GET_MEASUREMENTS answer with a fresh
nonce, all 13 blocks for index 255 and none for index 0. (The codes and layouts of the messages are those of DSP0274, PRESUMED
in assumption 14; the nonce is a free value.) -/
def Obligations.SpdmCarriersKeepTheirOwnState : Prop :=
  (∀ (s : State) (via : Carrier), spdmReached s via = false →
    exec (.getVersion via) s = .next s ∧ exec (.getCapabilities via) s = .next s ∧ exec (.getDigests via) s = .next s ∧
    ∀ slot off n, exec (.getCertificate via slot off n) s = .next s) ∧
  (∀ (s : State) (via : Carrier), spdmReached s via = true →
    ∃ t, exec (.getVersion via) s = .next t ∧ spdmState t via = 1 ∧ (∀ w, w ≠ via → spdmState t w = spdmState s w) ∧
      t.outbox = .spdm via [0x10, 0x04, 0, 0, 0, 1, 0x00, 0x12] :: s.outbox ∧ t = { s with tether := t.tether, outbox := t.outbox }) ∧
  (∀ (s : State) (via : Carrier) (slot off n : Nat) (a h mh ms : Word) (nonce : List Byte) (sum ix : Nat) (sg : Bool), spdmReached s via = true →
    (spdmState s via < 1 → exec (.getCapabilities via) s = .next (s.send (.spdm via [0x12, 0x7F, 0x04, 0]))) ∧
    (spdmState s via < 2 → exec (.negotiateAlgorithms via a h mh ms) s = .next (s.send (.spdm via [0x12, 0x7F, 0x04, 0]))) ∧
    (spdmState s via < 3 → exec (.getDigests via) s = .next (s.send (.spdm via [0x12, 0x7F, 0x04, 0])) ∧
      exec (.getCertificate via slot off n) s = .next (s.send (.spdm via [0x12, 0x7F, 0x04, 0])) ∧
      exec (.challenge via slot nonce sum) s = .next (s.send (.spdm via [0x12, 0x7F, 0x04, 0])) ∧
      exec (.getMeasurements via ix sg nonce) s = .next (s.send (.spdm via [0x12, 0x7F, 0x04, 0])))) ∧
  (∀ (s : State) (via : Carrier), spdmReached s via = true → 1 ≤ spdmState s via →
    ∃ t ct size, exec (.getCapabilities via) s = .next t ∧ spdmState t via = 2 ∧ (∀ w, w ≠ via → spdmState t w = spdmState s w) ∧
      t.outbox = .spdm via ([0x12, 0x61, 0, 0, 0, ct, 0, 0, 0x16, 0, 0, 0] ++ size) :: s.outbox ∧ size.length = 8 ∧
      t = { s with tether := t.tether, outbox := t.outbox }) ∧
  (∀ (s : State) (via : Carrier) (a h mh ms : Word), spdmReached s via = true → 2 ≤ spdmState s via →
    (bit a 6 = true → bit h 2 = true → bit ms 0 = true →
      ∃ t, exec (.negotiateAlgorithms via a h mh ms) s = .next t ∧ spdmState t via = 3 ∧ (∀ w, w ≠ via → spdmState t w = spdmState s w) ∧
        t.outbox = .spdm via ([0x12, 0x63, 0, 0, 36, 0, 1, 0, 8, 0, 0, 0, 0x40, 0, 0, 0, 4, 0, 0, 0] ++ zeros 16) :: s.outbox ∧
        t = { s with tether := t.tether, outbox := t.outbox }) ∧
    (bit a 6 = false ∨ bit h 2 = false ∨ bit ms 0 = false →
      ∃ t code, exec (.negotiateAlgorithms via a h mh ms) s = .next t ∧ spdmState t via = 2 ∧ (∀ w, w ≠ via → spdmState t w = spdmState s w) ∧
        t.outbox = .spdm via [0x12, 0x7F, code, 0] :: s.outbox ∧ t = { s with tether := t.tether, outbox := t.outbox })) ∧
  (∀ (s : State) (via : Carrier) (slot off n : Nat), spdmReached s via = true → 3 ≤ spdmState s via →
    exec (.getDigests via) s = .next (s.send (.spdm via ([0x12, 0x01, 0, 1] ++ sha512 spdmChain))) ∧
    (slot ≠ 0 ∨ spdmChain.length ≤ off → exec (.getCertificate via slot off n) s = .next (s.send (.spdm via [0x12, 0x7F, 0x01, 0]))) ∧
    (slot = 0 → off < spdmChain.length → ∃ p, p = slice spdmChain off n ∧
      exec (.getCertificate via slot off n) s = .next (s.send (.spdm via
        ([0x12, 0x02, 0, 0] ++ leBytes 2 p.length ++ leBytes 2 (spdmChain.length - off - p.length) ++ p))))) ∧
  (∀ (s : State) (via : Carrier) (slot sum : Nat) (nonce : List Byte), spdmReached s via = true → 3 ≤ spdmState s via →
    (slot ≠ 0 → exec (.challenge via slot nonce sum) s = .next (s.send (.spdm via [0x12, 0x7F, 0x01, 0]))) ∧
    (slot = 0 → ∃ t n rest, exec (.challenge via slot nonce sum) s = .next t ∧
      t.outbox = .spdm via ([0x12, 0x03, 0, 1] ++ sha512 spdmChain ++ n ++ rest) :: s.outbox ∧ n.length = 32 ∧ t.free = s.free + 1 ∧
      t = { s with outbox := t.outbox, free := t.free })) ∧
  (∀ (s : State) (via : Carrier) (ix : Nat) (sg : Bool) (nonce : List Byte), spdmReached s via = true → 3 ≤ spdmState s via →
    (13 < ix → ix ≠ 255 → exec (.getMeasurements via ix sg nonce) s = .next (s.send (.spdm via [0x12, 0x7F, 0x01, 0]))) ∧
    (∀ l, l = (if ix = 0 then [] else if ix = 255 then [1, 2, 3, 4, 5, 6, 7, 8, 9, 10, 11, 12, 13] else [ix]) → ix ≤ 13 ∨ ix = 255 →
      ∃ t n sig, exec (.getMeasurements via ix sg nonce) s = .next t ∧ n.length = 32 ∧ t.free = s.free + 1 ∧
        t.outbox = .spdm via ([0x12, 0x60, if ix = 0 then 13 else 0, 0] ++ leBytes 1 l.length ++ leBytes 3 (l.flatMap (measurementBlock s)).length
          ++ l.flatMap (measurementBlock s) ++ n ++ [0, 0] ++ sig) :: s.outbox ∧ sig.length = (if sg then 512 else 0) ∧
        t = { s with outbox := t.outbox, free := t.free }))

/-- FW_STAGE with an offset that is no multiple of 4 is BAD_PARAM; from stage 3 on it is BUSY; with another offset than the next one
it is BAD_PARAM 0x0040; with offset 0 and too few free commons banks it is NO_RESERVATION. Else the chunk is appended, and
without LAST the answer is the next offset. With LAST an image that fails a check is discarded with its banks and the DETAIL of
the check (0x0041, 0x0043, 0x0044), and one that passes is staged in stage 2. Nothing but the staged image and the stage
changes. OWNER_KEY_TRANSFER of a record that is not accepted (its length, magic, serial, count, signature or signer) is
BAD_PARAM; of one that is, the slot takes NEW_HASH and the count, a zero hash emptying it, and OWNER_TRANSFERRED is raised. (A
chunk beyond the banks taken is 0x0041: the model's choice, assumption 14.) -/
def Obligations.FirmwareIsStagedChecked : Prop :=
  (∀ (s : State) (c : CmdRef) (m : Cmd) (b : List Byte) (off : Nat), s.runs c 0x0D02 m → m.ref = c → off = (m.w 3).toNat →
    (off % 4 ≠ 0 → exec (.fwStage c) s = .next ((s.began c).badWord c 3)) ∧
    (off % 4 = 0 → 3 ≤ s.sec.stage → exec (.fwStage c) s = .next ((s.began c).refuseOpen c BUSY)) ∧
    (off % 4 = 0 → s.sec.stage < 3 → sgIn m 5 s = .bytes b →
      (off ≠ 0 → s.sec.stage ≠ 1 ∨ off ≠ s.sec.stagedNext → exec (.fwStage c) s = .next ((s.began c).refuse c BAD_PARAM 0x0040)) ∧
      (off = 0 → (discardStaged s).freeBanks.length < ceilDiv (stagedSize b) 524288 →
        exec (.fwStage c) s = .next ((s.began c).refuseOpen c NO_RESERVATION)) ∧
      (∀ old banks, (off ≠ 0 ∧ s.sec.stage = 1 ∧ off = s.sec.stagedNext ∧ old = s.sec.staged ∧ banks = s.sec.stagedBanks) ∨
          (off = 0 ∧ old = [] ∧ banks = (discardStaged s).freeBanks.reverse.take (ceilDiv (stagedSize b) 524288) ∧
            ceilDiv (stagedSize b) 524288 ≤ (discardStaged s).freeBanks.length) →
        (banks.length * 524288 < off + b.length ∨ (bit (m.w 4) 0 = true ∧ ∃ d, stagedCheck s (old ++ b) = some d) →
          ∃ t d, exec (.fwStage c) s = .next t ∧ t.answered c BAD_PARAM d [] ∧ (d = 0x41 ∨ d = 0x43 ∨ d = 0x44) ∧ t.sec.staged = [] ∧
            t.sec.stagedBanks = [] ∧ t.sec.stage = 0 ∧ t.sec.flash = s.sec.flash ∧ otherCmds s t c ∧
            t = { s with cmds := t.cmds, sec := t.sec, events := t.events, tether := t.tether }) ∧
        (off + b.length ≤ banks.length * 524288 → bit (m.w 4) 0 = false →
          ∃ t, exec (.fwStage c) s = .next t ∧ t.answered c OK 0 [w32 (off + b.length)] ∧ t.sec.staged = old ++ b ∧ t.sec.stagedNext = off + b.length ∧
            t.sec.stagedBanks = banks ∧ t.sec.stage = 1 ∧ t.sec.flash = s.sec.flash ∧ t.sec.svn = s.sec.svn ∧ otherCmds s t c ∧
            t = { s with cmds := t.cmds, sec := t.sec, events := t.events, tether := t.tether }) ∧
        (off + b.length ≤ banks.length * 524288 → bit (m.w 4) 0 = true → stagedCheck s (old ++ b) = none →
          ∃ t, exec (.fwStage c) s = .next t ∧ t.answered c OK 0 [w32 (off + b.length)] ∧ t.sec.staged = old ++ b ∧ t.sec.stagedOk = true ∧
            t.sec.stage = 2 ∧ t.sec.flash = s.sec.flash ∧ t.sec.svn = s.sec.svn ∧ otherCmds s t c ∧
            t = { s with cmds := t.cmds, sec := t.sec, events := t.events, tether := t.tether })))) ∧
  (∀ (s : State) (c : CmdRef) (m : Cmd) (b h : List Byte), s.runs c 0x0D04 m → m.ref = c → sgIn m 3 s = .bytes b → h = (b.drop 32).take 64 →
    (b.length ≠ 1152 ∨ b.take 8 ≠ [0x4E, 0x48, 0x4F, 0x57, 0x1A, 0x0A, 0, 0] ∨ leAt b 8 4 ≤ s.sec.ownerSeq.toNat ∨
        (s.sec.ownerHash ≠ [] ∧ sha512 ((b.drop 128).take 512) ≠ s.sec.ownerHash) ∨ (s.sec.ownerHash = [] ∧ sha512 ((b.drop 128).take 512) ≠ h) →
      exec (.ownerKeyTransfer c) s = .next ((s.began c).refuseOpen c BAD_PARAM)) ∧
    (transferOk s b = true → ∃ t e, exec (.ownerKeyTransfer c) s = .next t ∧ t.answered c OK 0 [] ∧
      t.sec = { s.sec with ownerHash := if h = zeros 64 then [] else h, ownerSeq := wordAt b 8 } ∧ t.events = s.events ++ [e] ∧ e.code = 0x8D04 ∧
      s.sec.ownerSeq.toNat < t.sec.ownerSeq.toNat ∧ otherCmds s t c ∧
      t = { s with cmds := t.cmds, sec := t.sec, events := t.events, tether := t.tether }))

/-- FW_ACTIVATE without a staged image is BAD_PARAM, in an update BUSY; else stage 3 starts with core 2 out of the vote, in recovery
mode stage 8. The reboots of cores 2 and 0 and the switch point lead through stages 4, 5 and 6, and the switch point, when no
other command runs, raises FW_VERSION_CHANGED. A swapped band leaves the list of those to swap; with none left stage 7 starts
and the command commits. The verified write puts the staged image in flash, raises the fused SVN to its SVN if higher, ends the
command with OK and raises FW_UPDATE_DONE. A rollback ends in stage 2 with the image staged and the command ABORTED, 0x0042
after a fault. In recovery mode the verified write stops the main side for its restart. -/
def Obligations.UpdatesRunTheirStages : Prop :=
  (∀ (s : State) (c : CmdRef) (m : Cmd), s.runs c 0x0D03 m →
    (s.sec.stagedOk = false → exec (.fwActivate c) s = .next ((s.began c).refuseOpen c BAD_PARAM)) ∧
    (s.sec.stagedOk = true → 3 ≤ s.sec.stage → exec (.fwActivate c) s = .next ((s.began c).refuseOpen c BUSY)) ∧
    (s.sec.stagedOk = true → s.sec.stage < 3 →
      ∃ t, exec (.fwActivate c) s = .next t ∧ t.sec.actCmd = some c ∧ t.sec.stage = (if s.life.main = .recovery then 8 else 3) ∧
        (∀ x y z, s.life.main ≠ .recovery → s.dep.voting = [x, y, z] → t.dep.voting = [x, y, false]) ∧
        t.sec.staged = s.sec.staged ∧ t.sec.flash = s.sec.flash ∧ t.replyOf c = none ∧ otherCmds s t c ∧
        t = { s with cmds := t.cmds, sec := t.sec, dep := t.dep, events := t.events, tether := t.tether })) ∧
  (∀ (s : State), s.sec.rolling = false →
    (s.sec.stage = 3 → s.sec.coresNew.getD 2 true = false → ∃ t, exec (.fwCoreRebootDone 2) s = .next t ∧ t.sec.stage = 4 ∧ t.dep.voting = [true, false, false] ∧
      t.sec.flash = s.sec.flash ∧ t.cmds = s.cmds ∧ t = { s with sec := t.sec, dep := t.dep, events := t.events, tether := t.tether }) ∧
    (s.sec.stage = 4 → s.sec.coresNew = [false, false, true] → ∃ t, exec (.fwCoreRebootDone 1) s = .next t ∧ t.sec = { s.sec with coresNew := [false, true, true] } ∧
      t.switchWait = true ∧ t = { s with sec := t.sec }) ∧
    (s.sec.stage = 5 → s.sec.coresNew.getD 0 true = false → toSwap s ≠ [] → ∃ t, exec (.fwCoreRebootDone 0) s = .next t ∧ t.sec.stage = 6 ∧
      t.dep.voting = [true, true, true] ∧ t.cmds = s.cmds ∧ t = { s with sec := t.sec, dep := t.dep, events := t.events, tether := t.tether }) ∧
    (s.sec.stage = 5 → s.sec.coresNew.getD 0 true = false → toSwap s = [] → ∃ t, exec (.fwCoreRebootDone 0) s = .next t ∧ t.sec.stage = 7 ∧
      t.dep.voting = [true, true, true] ∧ (∀ c m, s.sec.actCmd = some c → s.findCmd c = some m → (t.findCmd c).any (·.committed) = true) ∧
      t = { s with sec := t.sec, dep := t.dep, cmds := t.cmds, events := t.events, tether := t.tether })) ∧
  (∀ (s : State), s.switchWait = true →
    ((∃ m ∈ s.cmds, m.phase = .running ∧ s.sec.actCmd ≠ some m.ref) → exec .fwSwitchPoint s = .next s) ∧
    ((∀ m ∈ s.cmds, m.phase = .running → s.sec.actCmd = some m.ref) →
      ∃ t, exec .fwSwitchPoint s = .next t ∧ t.sec.stage = 5 ∧ t.dep.voting = [false, true, true] ∧ t.sec.runVersion = imageVersion s.sec.staged ∧
        t.sec.runMinor = imageMinor s.sec.staged ∧ t.sec.prev = some (s.sec.runVersion, s.sec.runMinor) ∧
        (∃ e ∈ t.events, e.code = 0x8D01 ∧ e.detail = (imageVersion s.sec.staged).setWidth 16) ∧
        t = { s with sec := t.sec, dep := t.dep, events := t.events, tether := t.tether })) ∧
  (∀ (s : State) (b : Nat), s.sec.stage = 6 → s.sec.rolling = false → (toSwap s).head? = some b → (s.bandAt b).isPair = false →
    (s.inRecovery b = true ∨ swapTime s (s.bandAt b) = false → exec (.fwBandSwap b) s = .next s) ∧
    ((∃ x f k, s.sessionAt (s.bandAt b).ctx = some x ∧ (k, f) ∈ x.sets ∧ f.started = true ∧ f.published.isNone = true ∧ f.committed = false ∧
        f.abandoned = false ∧ f.covered = false) → swapTime s (s.bandAt b) = false) ∧
    (s.inRecovery b = false → swapTime s (s.bandAt b) = true → ∃ t, exec (.fwBandSwap b) s = .next t ∧ t.sec.swapped = s.sec.swapped ++ [b] ∧
      b ∉ toSwap t ∧ (t.bandAt b).pc = (s.bandAt b).restorePc ∧ (t.bandAt b).lastRv = 60 + b % 4 ∧ (∀ k, k ≠ b → t.bandAt k = s.bandAt k) ∧
      (t.sec.stage = 6 ∧ toSwap t ≠ [] ∨ t.sec.stage = 7 ∧ toSwap t = []) ∧
      t = { s with sec := t.sec, cmds := t.cmds, bands := t.bands, tiles := t.tiles, rvs := t.rvs, epoch := t.epoch, events := t.events,
                   tether := t.tether })) ∧
  (∀ (s : State) (c : CmdRef) (m : Cmd), s.sec.stage = 7 → s.sec.actCmd = some c → s.findCmd c = some m → s.sec.heldReset = [] →
    ∃ t, exec .fwFlashVerified s = .next t ∧ t.answered c OK 0 [] ∧ t.sec.flash = s.sec.staged ∧ t.sec.flashValid = true ∧ t.sec.stage = 0 ∧
      t.sec.svn = max s.sec.svn (imageSvn s.sec.staged) ∧ t.sec.staged = [] ∧ t.sec.stagedBanks = [] ∧ t.sec.ownerHash = s.sec.ownerHash ∧
      (∃ e ∈ t.events, e.code = 0x8D02) ∧ t.age = s.age ∧ otherCmds s t c ∧
      t = { s with cmds := t.cmds, sec := t.sec, events := t.events, tether := t.tether }) ∧
  (∀ (s : State), s.sec.stage ≠ 7 → exec .fwFlashVerified s = .next s) ∧
  (∀ (s : State) (c : CmdRef) (m : Cmd), s.sec.rolling = true → s.sec.actCmd = some c → s.findCmd c = some m →
    ∃ t r, exec .fwUpdateRolledBack s = .next t ∧ t.replyOf c = some r ∧ r.status = BitVec.ofNat 16 ABORTED ∧
      (s.sec.faultRollback = true → r.detail = 0x42) ∧ t.sec.stage = 2 ∧ t.sec.rolling = false ∧ t.sec.staged = s.sec.staged ∧ t.sec.flash = s.sec.flash ∧
      t.sec.svn = s.sec.svn ∧ t.dep.voting = [true, true, true] ∧ (∃ e ∈ t.events, e.code = 0x8D03) ∧ otherCmds s t c ∧
      t = { s with cmds := t.cmds, sec := t.sec, dep := t.dep, events := t.events, tether := t.tether }) ∧
  (∀ (s : State) (c : CmdRef) (m : Cmd), s.life.main = .recovery → s.sec.stage = 8 → s.sec.actCmd = some c → s.findCmd c = some m →
    (∃ t, exec (.recoveryWriteDone true) s = .next t ∧ t.life.main = .off ∧ t.life.startKind = 2 ∧ t.life.needOrder = false ∧
      t.sec.flash = s.sec.staged ∧ t.sec.flashValid = true ∧ t.sec.staged = [] ∧ t.sec.stage = 0 ∧ t.maps = [] ∧ t.objs = [] ∧
      t.sec.svn = s.sec.svn ∧ t.sec.ownerHash = s.sec.ownerHash ∧ t.age.ledger = s.age.ledger ∧ t.tether.claims = s.tether.claims) ∧
    (∃ t r, exec (.recoveryWriteDone false) s = .next t ∧ t.replyOf c = some r ∧ r.status = BitVec.ofNat 16 ABORTED ∧ t.life = s.life ∧
      t.sec.flash = s.sec.flash ∧ t.sec.flashValid = false ∧ t.sec.staged = s.sec.staged))

/-- A main-side start whose rails come up sets the cap to 75,000 mW and BALLAST to 50, or to those last set under the Tether's
control while the Tether controls domain 0x0B; it is in safe stop exactly when the Tether controls domain 0x0F, and STARTUP_DONE
leaves that as it is. With a valid image it sets the fabric supply at once to the V_SET of the newest margin entry of the ledger
(a torn final entry is none), 800 mV without one. PERST# and function resets leave safe stop as it is. -/
def Obligations.StartSetsSupplyCapAndSafeStop : Prop :=
  (∀ (s : State) (r : StartReport), s.life.vaux = true → s.life.main = .off → s.life.v12 = false ∨ s.life.needOrder = false → s.life.coldHold = false →
    r.railsOk = true →
    ∃ t, exec (.mainSideStart r) s = .next t ∧ t.life.safeStop = s.tether.claims.getLsbD 0x0F ∧
      (s.tether.claims.getLsbD 0x0B = false → t.power.cap = 75000 ∧ t.power.ballast = 50) ∧
      (s.tether.claims.getLsbD 0x0B = true → t.power.cap = s.power.tetherCap ∧ t.power.ballast = s.power.tetherBallast) ∧
      (s.sec.flashValid = true → s.sec.stage < 7 → 2 ≤ (r.imageVotes.filter id).length → ∀ l,
        l = (if s.age.ledger.getLast?.any (·.torn) then s.age.ledger.dropLast else s.age.ledger).filter (fun e => e.kind == 1) →
        t.age.vSet = ((l.getLast?).map (·.vSet)).getD 800 ∧ t.age.vTarget = t.age.vSet)) ∧
  (∀ (s t : State), exec .startupDone s = .next t → t.life.safeStop = s.life.safeStop) ∧
  (∀ (s t : State) (fn : Nat) (kind : FunctionResetKind), exec (.functionReset fn kind) s = .next t → t.life.safeStop = s.life.safeStop) ∧
  (∀ (s t : State), exec .perstAssert s = .next t ∨ exec .perstDeassert s = .next t → t.life.safeStop = s.life.safeStop)

/-- VAUX applied starts the tether core with no claim, no command and the main side off, and keeps flash contents; VAUX low stops
the main side and the tether core. A start whose rails fail raises STARTUP_FAILED and waits for an order; without a valid image
it is recovery mode; with every self-test passed it is starting, and STARTUP_DONE makes it ready, raising RESET_CAUSE with the
kind of the reset and STARTUP_DONE. 12 V out of range stops the main side and raises SUPPLY_FAULT; its return clears the wait
for an order; a dropout is answered as a droop. Heat raises THERMAL_WARNING and holds the lowest levels; a thermal shutdown
stops the main side until an order, and is reported at the next start of the tether core when that was off. -/
def Obligations.StartupSuppliesAndHeat : Prop :=
  (∀ (s : State), s.life.vaux = false →
    ∃ t, exec .vauxApplied s = .next t ∧ t.life.vaux = true ∧ t.life.main = .off ∧ t.tether.claims = 0 ∧ t.cmds = [] ∧ t.maps = [] ∧ t.objs = [] ∧
      t.devNs = 0 ∧ t.sec.flash = s.sec.flash ∧ t.sec.svn = s.sec.svn ∧ t.sec.ownerHash = s.sec.ownerHash ∧ t.age.ledger = s.age.ledger ∧
      t.hostMem = s.hostMem ∧ (∀ p, s.life.thermalPending = some p → ∃ e ∈ t.events, e.code = 0x8F04 ∧ e.detail = p.1 ++ p.2)) ∧
  (∀ (s : State), s.life.vaux = true → exec .vauxApplied s = .next s ∧
    ∃ t, exec .vauxLow s = .next t ∧ t.life.vaux = false ∧ t.life.main = .off ∧ t.tether = {} ∧ t.cmds = [] ∧ t.sec.flash = s.sec.flash ∧
      t.age.ledger = s.age.ledger ∧ t.hostMem = s.hostMem) ∧
  (∀ (s : State) (r : StartReport), s.life.vaux = true → s.life.main = .off → s.life.v12 = false ∨ s.life.needOrder = false → s.life.coldHold = false →
    (r.railsOk = false → ∃ t e, exec (.mainSideStart r) s = .next t ∧ t.life.main = .off ∧ t.life.needOrder = true ∧ e ∈ t.events ∧ e.code = 0x8E01 ∧
      e.detail = 1 ∧ t.tether.claims = s.tether.claims) ∧
    (r.railsOk = true → (r.imageVotes.filter id).length < 2 → ∃ t e, exec (.mainSideStart r) s = .next t ∧ t.life.main = .recovery ∧
      e ∈ t.tether.queue ∧ e.code = 0x8D05 ∧ t.sec.svn = s.sec.svn ∧ t.tether.claims = s.tether.claims) ∧
    (r.railsOk = true → r.refStable = true → r.imageVotes = [true, true, true] → r.laneFails = [] → r.tileFails = [] → r.hbmFail = none → r.engineFails = [] →
      s.sec.flashValid = true → s.sec.stage < 7 →
      ∃ t, exec (.mainSideStart r) s = .next t ∧ t.life.main = .starting ∧ t.life.v12 = true ∧ t.maps = [] ∧ t.objs = [] ∧ t.devNs = 0 ∧
        t.tether.claims = s.tether.claims ∧ t.hostMem = s.hostMem ∧ s.sec.svn ≤ t.sec.svn ∧
        ((∀ k, k < 56 → (s.tileAt k).state < 2) → (∀ e ∈ s.age.ledger, e.kind ≠ 3) → tilesIn t 0 = List.range 26 ++ (List.range 26).map (· + 28)))) ∧
  (∀ (s : State), s.life.main = .starting → s.life.bootTick ≤ s.time.ticks →
    ∃ t a b, exec .startupDone s = .next t ∧ t.life = { s.life with main := .ready } ∧ t.events = s.events ++ [a, b] ∧ a.code = 0x8E02 ∧
      a.detail = BitVec.ofNat 16 s.life.startKind ∧ b.code = 0x8E00 ∧ b.detail = BitVec.ofNat 16 (min 65535 ((s.time.ticks - s.life.startTick) / 500000)) ∧
      t = { s with life := t.life, events := t.events, tether := t.tether }) ∧
  (∀ (s : State) (high : Bool), s.life.v12 = true →
    ∃ t, exec (.mainSupplyOutOfRange high) s = .next t ∧ t.life.v12 = false ∧ t.life.main = .off ∧ t.sec.flash = s.sec.flash ∧ t.hostMem = s.hostMem ∧
      (s.life.vaux = true → s.eventFree (0x8F00 * 65536 + if high then 8 else 7) = true →
        ∃ e ∈ t.events, e.code = 0x8F00 ∧ e.detail = if high then 8 else 7)) ∧
  (∀ (s : State), s.life.v12 = false → exec .mainSupplyReturn s =
    .next { s with life := { s.life with v12 := true, needOrder := false, startKind := 2, startTick := s.time.ticks } }) ∧
  (∀ (s : State), s.life.v12 = true → s.life.main ≠ .off →
    exec .mainSupplyDropout s = exec (.powerDroop 1) s ∧ ∃ t, exec .mainSupplyDropout s = .next t ∧ t.power.droop = true ∧ t.life = s.life) ∧
  (∀ (s : State) (sensor : Byte) (cause : Nat), s.life.vaux = true →
    (cause = 1 → sensor.toNat < 56 → s.life.main ≠ .off → ∃ t, exec (.thermalWarning sensor cause) s = .next t ∧ t.life = { s.life with fabricHot := true } ∧
      t.power = { s.power with hotHold := true } ∧ (s.eventFree (0x8F03 * 65536 + (sensor.toNat * 256 + 1)) = true →
        ∃ e ∈ t.events, e.code = 0x8F03 ∧ e.detail = sensor ++ (1 : Byte)) ∧
      t = { s with life := t.life, power := t.power, events := t.events, tether := t.tether, eventLimit := t.eventLimit }) ∧
    (3 < cause → exec (.thermalWarning sensor cause) s = .next s)) ∧
  (∀ (s : State) (sensor temp : Byte), s.life.vaux = true → s.life.main ≠ .off →
    ∃ t, exec (.thermalShutdown sensor temp) s = .next t ∧ t.life.main = .off ∧ t.life.needOrder = true ∧ t.life.vaux = true ∧ t.maps = [] ∧
      (∃ e ∈ t.events, e.code = 0x8F04 ∧ e.detail = sensor ++ temp) ∧ t.sec.flash = s.sec.flash ∧ t.tether.claims = s.tether.claims) ∧
  (∀ (s : State) (sensor temp : Byte), s.life.vaux = false → s.life.v12 = true →
    exec (.thermalShutdown sensor temp) s = .next { s with life := { s.life with thermalPending := some (sensor, temp) } })

/-- A function reset in an update's stage 7 only waits. Otherwise an FLR of a VF leaves its context without session, image, window
or windows, its maps withdrawn or gone, its slots and READY cleared but its policy mask kept, no command of it, and RESET_CAUSE
raised with its number; device time, the Tether session and other contexts' policy stay. PERST# clears VF Enable and every
policy mask and takes the link down; its end raises RESET_CAUSE. While the main side is off it resets nothing. A configuration
request is answered with a retry until step 3 of the start has ended, and completed after. (Where VF Enable stands in
configuration space is open, assumption 2.) -/
def Obligations.ResetsEndWhatTheTableSays : Prop :=
  (∀ (s : State) (fn : Nat), s.life.main ≠ .off → s.life.linkUp = true → 0 < fn → fn < 8 → s.life.vfEnable = true →
    (s.sec.stage = 7 → exec (.functionReset fn .flr) s = .next { s with sec := { s.sec with heldReset := s.sec.heldReset ++ [fn] } }) ∧
    (s.sec.stage ≠ 7 → ∃ t e, exec (.functionReset fn .flr) s = .next t ∧ t.sessionAt fn = none ∧ (t.ctxAt fn).image = none ∧ (t.ctxAt fn).window = [] ∧
      (t.ctxAt fn).windows = [] ∧ t.fnAt fn = { policy := (s.fnAt fn).policy } ∧ (∀ k, k ≠ fn → t.fnAt k = s.fnAt k) ∧
      (∀ m ∈ t.cmds, m.ref.sender ≠ .host fn) ∧ (∀ k x, Tab.get? t.maps k = some x → x.owner = fn → x.withdrawn = true) ∧
      (∀ k o, Tab.get? t.objs k = some o → o.owner ≠ fn) ∧ (∀ p, (t.portAt p).owner ≠ some fn) ∧ (∀ h ∈ t.held, h.ctx ≠ fn) ∧ e ∈ t.events ∧ e.code = 0x8E02 ∧ e.detail = BitVec.ofNat 16 (4 + 256 * fn) ∧
      t.time = s.time ∧ t.tether.claims = s.tether.claims ∧ t.tether.endpoint = s.tether.endpoint ∧ t.life.vfEnable = true ∧ t.life.linkUp = true ∧
      t.power.cap = s.power.cap ∧ t.sec.flash = s.sec.flash)) ∧
  (∀ (s : State), s.life.main ≠ .off → s.life.linkUp = true → s.sec.stage ≠ 7 →
    ∃ t, exec (.functionReset 0 .flr) s = .next t ∧ t.life.vfEnable = false ∧ (∀ n, n < 8 → t.sessionAt n = none ∧ (t.fnAt n).policy = 0) ∧
      (∀ n, n < 8 → ∃ e ∈ t.events, e.code = 0x8E02 ∧ e.detail = BitVec.ofNat 16 (4 + 256 * n)) ∧ t.time = s.time) ∧
  (∀ (s : State), s.life.perst = false →
    (s.life.main = .off → exec .perstAssert s = .next { s with life := { s.life with perst := true } }) ∧
    (s.life.main ≠ .off → s.sec.stage ≠ 7 →
      ∃ t, exec .perstAssert s = .next t ∧ t.life.perst = true ∧ t.life.linkUp = false ∧ t.life.vfEnable = false ∧ t.life.perstReset = true ∧
        (∀ n, n < 8 → t.sessionAt n = none ∧ (t.fnAt n).policy = 0) ∧ t.time = s.time ∧ t.tether.claims = s.tether.claims ∧
        t.power.cap = s.power.cap ∧ t.power.ballast = s.power.ballast ∧ t.power.account = s.power.account ∧ t.power.table = s.power.table ∧
        (∀ i, (t.islandAt i).curve = (s.islandAt i).curve) ∧ t.age.store = s.age.store)) ∧
  (∀ (s : State), s.life.perst = true →
    (s.life.perstReset = false → exec .perstDeassert s = .next { s with life := { s.life with perst := false } }) ∧
    (s.life.perstReset = true → ∃ t e, exec .perstDeassert s = .next t ∧ t.life = { s.life with perst := false, perstReset := false } ∧
      t.events = s.events ++ [e] ∧ e.code = 0x8E02 ∧ e.detail = 3 ∧ t = { s with life := t.life, events := t.events, tether := t.tether })) ∧
  (∀ (s : State) (fn reg : Nat), s.life.linkUp = true → fn < 8 →
    (s.life.main = .starting → s.time.ticks < s.life.bootTick → ∀ w,
      exec (.pcieConfigRequest fn reg w) s = .next (s.send (.pcieCompletion fn reg true))) ∧
    (s.life.main ≠ .starting ∨ s.life.bootTick ≤ s.time.ticks →
      exec (.pcieConfigRequest fn reg none) s = .next (s.send (.pcieCompletion fn reg false))))

/-- With the main side ready, POWER_STATE_SET above 3 is BAD_PARAM, to IDLE, STANDBY or MAIN_OFF with any session or program BUSY;
else it enters the state, and POWER_STATE tells a change. MAIN_OFF stops the main side and brings the link down with the host's
commands; from there a Tether ACTIVE starts it while 12 V is there. A first SAFE_STOP sets the safe stop, raises
SAFE_STOP_ENTERED with who sent it and how many host commands it ended, leaves no Reel entry armed and no pulse, enters IDLE,
keeps time, clock sources and every port's owner, and one of the Tether claims domain 0x0F. With no session or program, nothing
but this changes, and an armed host command ends with ABORTED. A second one answers OK with DETAIL 0x0001. SAFE_STOP_CLEAR ends
the stop, raises SAFE_STOP_CLEARED and changes nothing else. -/
def Obligations.PowerStatesAndSafeStop : Prop :=
  (∀ (s : State) (c : CmdRef) (m : Cmd) (n : Nat), s.runs c 0x0B05 m → n = fld (m.w 3) 3 0 →
    (3 < n → exec (.powerStateSet c) s = .next ((s.began c).badWord c 3)) ∧
    (n ≤ 3 → n ≠ 0 → s.life.main = .ready → (∃ k, k < 8 ∧ (s.ctxAt k).admitted = true) →
      exec (.powerStateSet c) s = .next ((s.began c).refuseOpen c BUSY)) ∧
    (n < 3 → s.life.main = .ready → (n = 0 ∨ ∀ k, k < 8 → (s.ctxAt k).admitted = false) →
      ∃ t, exec (.powerStateSet c) s = .next t ∧ t.answered c OK 0 [BitVec.ofNat 32 n] ∧ t.life.powerState = n ∧ t.life.main = .ready ∧
        (s.life.powerState = n → t.events = s.events ∧ t.life = s.life) ∧
        (s.life.powerState ≠ n → ∃ e, t.events = s.events ++ [e] ∧ e.code = 0x8B04 ∧ e.detail = BitVec.ofNat 16 n) ∧
        otherCmds s t c ∧ t = { s with cmds := t.cmds, life := t.life, events := t.events, tether := t.tether }) ∧
    (n = 3 → s.life.main = .ready → (∀ k, k < 8 → (s.ctxAt k).admitted = false) → s.sec.stage ≠ 7 →
      ∃ t, exec (.powerStateSet c) s = .next t ∧ t.life.main = .off ∧ t.life.linkUp = false ∧ t.life.needOrder = true ∧ (∀ x ∈ t.cmds, x.isTether = true) ∧
        (m.ref = c → m.isTether = true → s.sec.actCmd = none → t.answered c OK 0 [3]) ∧ t.hostMem = s.hostMem ∧ t.tether.claims = s.tether.claims ∧
        t.life.safeStop = s.life.safeStop ∧ t.life.v12 = s.life.v12 ∧ t.time.ticks = s.time.ticks ∧ t.maps = [] ∧ t.objs = []) ∧
    (n = 0 → s.life.main = .off → s.life.v12 = true → m.isTether = true →
      ∃ t, exec (.powerStateSet c) s = .next t ∧ t.answered c OK 0 [0] ∧
        t.life = { s.life with needOrder := false, startKind := 2, startTick := s.time.ticks } ∧ otherCmds s t c ∧
        t = { s with cmds := t.cmds, life := t.life })) ∧
  (∀ (s : State) (c : CmdRef) (m : Cmd), s.runs c 0x0C00 m → m.ref = c →
    (s.life.safeStop = true → ∃ t, exec (.safeStop c) s = .next t ∧ t.answered c OK 1 [] ∧ otherCmds s t c ∧
      (m.isTether = true → t.tether.claims = s.tether.claims ||| 0x8000) ∧ (m.isTether = false → t.tether = s.tether ∧ t.events = s.events) ∧
      t = { s with cmds := t.cmds, tether := t.tether, events := t.events }) ∧
    (s.life.safeStop = false → ∃ t pre e, exec (.safeStop c) s = .next t ∧ t.answered c OK 0 [] ∧ t.life.safeStop = true ∧ t.events = pre ++ [e] ∧
      e.code = 0x8002 ∧ (m.isTether = true → 256 ≤ e.detail.toNat ∧ t.tether.claims = s.tether.claims ||| 0x8000) ∧
      e.detail.toNat % 256 = min 255 (s.cmds.filter fun x => !x.isTether && x.open_ && decide (x.ref ≠ c)).length ∧
      (s.mainOn = true → t.life.powerState = 1 ∧ ∀ k r, Tab.get? t.reel k = some r → r.state ≠ 2 ∧ r.pulses = []) ∧
      t.time = s.time ∧ t.sources = s.sources ∧ t.pending = s.pending ∧ ∀ p, (t.portAt p).owner = (s.portAt p).owner) ∧
    (s.life.safeStop = false → (∀ k, k < 8 → s.sessionAt k = none ∧ (s.ctxAt k).image = none) →
      (∀ x ∈ s.cmds, x.ref ≠ c → x.isTether = false → x.open_ = true → x.phase = .armed) →
      ∃ t, exec (.safeStop c) s = .next t ∧
        (∀ d x, d ≠ c → x.ref = d → s.findCmd d = some x → x.isTether = false → x.open_ = true → ∃ r, t.replyOf d = some r ∧ r.status = 0x0300) ∧
        t = { s with cmds := t.cmds, life := t.life, reel := t.reel, ports := t.ports, events := t.events, tether := t.tether })) ∧
  (∀ (s : State) (c : CmdRef) (m : Cmd), s.runs c 0x0C01 m →
    (s.life.safeStop = true → ∃ t e, exec (.safeStopClear c) s = .next t ∧ t.answered c OK 0 [] ∧ t.life = { s.life with safeStop := false } ∧
      t.events = s.events ++ [e] ∧ e.code = 0x8003 ∧ e.detail = (if m.isTether then 256 else 0) ∧ otherCmds s t c ∧
      t = { s with cmds := t.cmds, life := t.life, events := t.events, tether := t.tether }) ∧
    (s.life.safeStop = false → ∃ t, exec (.safeStopClear c) s = .next t ∧ t.answered c OK 0 [] ∧ otherCmds s t c ∧ t = { s with cmds := t.cmds }))

/-- An ABORT whose TAG no outstanding command of its own function carries is answered UNKNOWN_TAG. One that names a command without
ABORTABLE is BAD_PARAM with DETAIL 0x0005, and that command runs on. One that names a command which has committed or ended is
ABORT_TOO_LATE (for one that ended without a commit this is the model's choice, assumption 1). One that names an armed command
answers OK, and that command ends with ABORTED and a COMMIT_TIME of zero, as does a running command whose chapter gives its
abort no step of its own (MAP_EDIT, say); nothing else changes. A FILTER_BIND or FILTER_PRESET that waits leaves its channel as
it runs, a running graph ends with QUADRILLE_DONE, and an FW_ACTIVATE begins its rollback. -/
def Obligations.AbortEndsWhatHasNotCommitted : Prop :=
  (∀ (s : State) (c : CmdRef) (m : Cmd), s.runs c 0x0003 m → m.ref = c →
    ((∀ x ∈ s.cmds, x.ref ≠ c → x.ref.sender = c.sender → x.tag ≠ fld (m.w 3) 31 16) →
      exec (.abort c) s = .next ((s.began c).refuseOpen c UNKNOWN_TAG)) ∧
    (∀ x, x ∈ s.cmds → x.ref ≠ c → x.ref.sender = c.sender → x.tag = fld (m.w 3) 31 16 →
      (∀ y ∈ s.cmds, y.ref ≠ c → y.ref.sender = c.sender → y.tag = fld (m.w 3) 31 16 → y = x) →
      (x.abortable = false → exec (.abort c) s = .next ((s.began c).refuse c BAD_PARAM 0x0005)) ∧
      (x.abortable = true → x.committed = true ∨ x.phase = .ended → exec (.abort c) s = .next ((s.began c).refuseOpen c ABORT_TOO_LATE)) ∧
      (x.abortable = true → x.committed = false → x.phase = .armed →
        ∃ t, exec (.abort c) s = .next t ∧ t.answered c OK 0 [] ∧ (∃ r, t.replyOf x.ref = some r ∧ r.status = 0x0300 ∧ r.commitTime = 0) ∧
          (∀ d, d ≠ c → d ≠ x.ref → t.findCmd d = s.findCmd d) ∧ t = { s with cmds := t.cmds }) ∧
      (x.abortable = true → x.committed = false → x.phase = .running → s.maps = [] →
        x.opcode ∉ [0x0101, 0x0401, 0x0403, 0x0506, 0x0706, 0x0803, 0x0900, 0x0A08, 0x0A09, 0x0C03, 0x0D03] →
        ∃ t, exec (.abort c) s = .next t ∧ t.answered c OK 0 [] ∧ (∃ r, t.replyOf x.ref = some r ∧ r.status = 0x0300 ∧ r.commitTime = 0) ∧
          (∀ d, d ≠ c → d ≠ x.ref → t.findCmd d = s.findCmd d) ∧ t = { s with cmds := t.cmds }) ∧
      (x.abortable = true → x.committed = false → x.phase = .running →
        (x.opcode = 0x0401 ∨ x.opcode = 0x0403 → ∃ t, exec (.abort c) s = .next t ∧ t.answered c OK 0 [] ∧
          (∃ r, t.replyOf x.ref = some r ∧ r.status = 0x0300 ∧ r.commitTime = 0) ∧ (∀ k, (t.chanAt k).presetCmd ≠ some x.ref) ∧
          (∀ k, (s.chanAt k).presetCmd ≠ some x.ref → t.chanAt k = s.chanAt k) ∧ (∀ d, d ≠ c → d ≠ x.ref → t.findCmd d = s.findCmd d) ∧
          t = { s with cmds := t.cmds, filters := t.filters }) ∧
        (x.opcode = 0x0506 → (∃ slot, s.quad.running = some (slot, x.ref)) → ∃ t e, exec (.abort c) s = .next t ∧ t.answered c OK 0 [] ∧
          (∃ r, t.replyOf x.ref = some r ∧ r.status = 0x0300 ∧ r.commitTime = 0) ∧ t.quad = { s.quad with running := none } ∧ t.events = s.events ++ [e] ∧
          e.code = 0x8506 ∧ (∀ d, d ≠ c → d ≠ x.ref → t.findCmd d = s.findCmd d) ∧
          t = { s with cmds := t.cmds, quad := t.quad, events := t.events, tether := t.tether }) ∧
        (x.opcode = 0x0D03 → s.sec.actCmd = some x.ref → ∃ t, exec (.abort c) s = .next t ∧ t.answered c OK 0 [] ∧ t.findCmd x.ref = s.findCmd x.ref ∧
          otherCmds s t c ∧ t = { s with cmds := t.cmds, sec := { s.sec with rolling := true } }) ∧
        (x.opcode = 0x0900 ∧ (s.ctxAt x.ctx).admitCmd ≠ some x.ref ∨ x.opcode = 0x0D03 ∧ s.sec.actCmd ≠ some x.ref →
          ∃ t, exec (.abort c) s = .next t ∧ t.answered c OK 0 [] ∧ (∃ r, t.replyOf x.ref = some r ∧ r.status = 0x0300 ∧ r.commitTime = 0) ∧
            (∀ d, d ≠ c → d ≠ x.ref → t.findCmd d = s.findCmd d) ∧ t = { s with cmds := t.cmds }))))

/-- SESSION_STATUS, PORT_STATUS, TIME_GET, REEL_READ, FILTER_READ, VISION_READ, RIG_READ, CALIB_READ, CONTEXT_STATUS, the three DIAG
reads, OBJ_QUERY, ENERGY_STATUS, HEALTH_STATUS and FW_STATUS end with OK and the words of their rows, and BAD_PARAM with the bad
word where they name a port, sensor, stream, band or tile that is not there (OBJ_QUERY of an object of another context
NOT_OWNER). AGEING_READ and IDENTITY_READ write up to TOTAL_BYTES and end with OK, or OK_PARTIAL when more was there. EVENT_READ
answers with the oldest events, at most those asked for, removes them and the count of dropped ones, and refuses 17 to 31.
Nothing else changes. -/
def Obligations.StatusReadsAnswerAndChangeNothing : Prop :=
  (∀ (s : State) (c : CmdRef) (m : Cmd), s.runs c 0x0103 m →
    ∃ t b, exec (.sessionStatus c) s = .next t ∧ t.answered c OK 0 b ∧ b.length = 6 ∧ otherCmds s t c ∧ t = { s with cmds := t.cmds } ∧
      ((∀ n x, n < 8 → s.sessionAt n = some x → x.number.toNat ≠ fld (m.w 3) 15 0) → b = [0, 0, 0, 0, 0, 0]) ∧
      (∀ n x, n < 8 → s.sessionAt n = some x → x.number.toNat = fld (m.w 3) 15 0 →
        (∀ k y, k < 8 → s.sessionAt k = some y → y.number = x.number → k = n) →
        b.take 2 = [if x.stopping then 2 else 1, BitVec.ofNat 32 x.setsClosed] ∧ ∀ k, k < 4 → b[k + 2]? = some (x.rings.getD k {}).lastSeq)) ∧
  (∀ (s : State) (c : CmdRef) (m : Cmd) (p : Nat), s.runs c 0x0203 m → p = fld (m.w 3) 7 0 →
    (isPort p = false → exec (.portStatus c) s = .next ((s.began c).badWord c 3)) ∧
    (isPort p = true → ∃ t w u, exec (.portStatus c) s = .next t ∧ t.answered c OK 0 [w, u, BitVec.ofNat 32 (s.portAt p).errors] ∧
      (isCamera p = true → u = (s.portAt p).camCfg) ∧ (isCamera p = false → isEncoder p = false → u = 0) ∧
      (isCamera p = false → isEncoder p = true → bit u 0 = (s.portAt p).swap ∧ bit u 1 = (s.portAt p).verifying ∧ fld u 31 2 = 0) ∧ ((s.portAt p).reason < 256 → fld w 7 0 = portStateCode (s.portAt p).state ∧
        fld w 15 8 = (s.portAt p).reason ∧ fld w 23 16 = (s.portAt p).owner.getD 0xFF % 256) ∧ otherCmds s t c ∧ t = { s with cmds := t.cmds })) ∧
  (∀ (s : State) (c : CmdRef) (m : Cmd), s.runs c 0x0300 m →
    ∃ t a b w, exec (.timeGet c) s = .next t ∧ t.answered c OK 0 [s.time.nanos, s.time.seconds.setWidth 32, (s.time.seconds >>> 32).setWidth 32,
        s.time.inc.setWidth 32, (s.time.inc >>> 32).setWidth 32, BitVec.ofNat 32 (timeStateCode s.time.state), a, b, w] ∧
      (-2147483648 ≤ s.time.filtered → s.time.filtered ≤ 2147483647 → a.toInt = s.time.filtered) ∧ (s.time.uncertainty < 2 ^ 32 → b.toNat = s.time.uncertainty) ∧
      otherCmds s t c ∧ t = { s with cmds := t.cmds }) ∧
  (∀ (s : State) (c : CmdRef) (m : Cmd) (e : ReelEntry), s.runs c 0x0309 m → e = s.reelAt (fld (m.w 3) 5 0) →
    ∃ t w, exec (.reelRead c) s = .next t ∧ t.answered c OK 0 [e.start.setWidth 32, (e.start >>> 32).setWidth 32, e.period, e.width, e.count, w, e.fired, 0] ∧
      fld w 7 0 = e.target.toNat ∧ fld w 15 8 = e.control.toNat ∧ (e.owner < 256 → fld w 23 16 = e.owner) ∧ (e.state < 4 → fld w 25 24 = e.state) ∧
      otherCmds s t c ∧ t = { s with cmds := t.cmds }) ∧
  (∀ (s : State) (c : CmdRef) (m : Cmd) (q : ChannelS), s.runs c 0x0405 m → q = s.chanAt (fld (m.w 3) 4 0) →
    ∃ t i, exec (.filterRead c) s = .next t ∧ t.answered c OK 0 [q.cfg, BitVec.ofNat 32 q.peak, BitVec.ofNat 32 q.rms, BitVec.ofNat 32 q.envelope,
        BitVec.ofNat 32 q.groupDelay, i, BitVec.ofNat 32 q.saturated] ∧ (q.outputs = 0 → i = 0xFFFFFFFF) ∧ (q.outputs ≠ 0 → i + 1 = q.outIndex) ∧
      otherCmds s t c ∧ t = { s with cmds := t.cmds }) ∧
  (∀ (s : State) (c : CmdRef) (m : Cmd) (what n : Nat), s.runs c 0x0507 m → m.ref = c → what = fld (m.w 3) 9 8 → n = fld (m.w 3) 4 0 →
    (∀ x, what < 2 → Tab.get? s.streams n = some x → x.ctx = m.ctx →
      ∃ t, exec (.visionRead c) s = .next t ∧ t.answered c OK 0 (bytesWords 8 (if what = 0 then chainBytes n x else featBytes n x.latestFeat)) ∧
        otherCmds s t c ∧ t = { s with cmds := t.cmds }) ∧
    (∀ p, what = 2 → s.pairCfgAt m.ctx n = some p →
      ∃ t, exec (.visionRead c) s = .next t ∧ t.answered c OK 0 (bytesWords 8 (stereoBytes p)) ∧ otherCmds s t c ∧ t = { s with cmds := t.cmds }) ∧
    ((what < 2 ∧ ∀ x, Tab.get? s.streams n = some x → x.ctx ≠ m.ctx) ∨ (what = 2 ∧ s.pairCfgAt m.ctx n = none) ∨ what = 3 →
      exec (.visionRead c) s = .next ((s.began c).badWord c 3))) ∧
  (∀ (s : State) (c : CmdRef) (m : Cmd), s.runs c 0x0601 m →
    (∀ e, s.entryInUse m.ctx (fld (m.w 3) 7 0) (fld (m.w 3) 15 8) = some e →
      ∃ t, exec (.rigRead c) s = .next t ∧ t.answered c OK 0 (bytesWords 16 e.bytes) ∧ otherCmds s t c ∧ t = { s with cmds := t.cmds }) ∧
    (s.entryInUse m.ctx (fld (m.w 3) 7 0) (fld (m.w 3) 15 8) = none → exec (.rigRead c) s = .next ((s.began c).badWord c 3))) ∧
  (∀ (s : State) (c : CmdRef) (m : Cmd), s.runs c 0x0603 m →
    (∀ r, s.storeRec (sensorKey (fld (m.w 3) 7 0) (fld (m.w 3) 15 8)) = some r →
      ∃ t, exec (.calibRead c) s = .next t ∧ t.answered c OK 0 (bytesWords 16 r.bytes ++ [r.time.setWidth 32, (r.time >>> 32).setWidth 32]) ∧
        otherCmds s t c ∧ t = { s with cmds := t.cmds }) ∧
    (s.storeRec (sensorKey (fld (m.w 3) 7 0) (fld (m.w 3) 15 8)) = none → exec (.calibRead c) s = .next ((s.began c).badWord c 3))) ∧
  (∀ (s : State) (c : CmdRef) (m : Cmd), s.runs c 0x0902 m → (∀ b ∈ (s.ctxAt m.ctx).bands, b < 16) →
    ∃ t x y z, exec (.contextStatus c) s = .next t ∧ t.answered c OK 0 [x, y, z] ∧ otherCmds s t c ∧ t = { s with cmds := t.cmds } ∧
      ∀ b, b < 16 → (s.ctxAt m.ctx).bands.Nodup → (bit x b = true ↔ b ∈ (s.ctxAt m.ctx).bands) ∧
        (bit y b = true ↔ b ∈ (s.ctxAt m.ctx).bands ∧ (s.bandAt b).halted = true) ∧
        (bit z b = true ↔ b ∈ (s.ctxAt m.ctx).bands ∧ (s.bandAt b).waiting ≠ none)) ∧
  (∀ (s : State) (c : CmdRef) (m : Cmd) (f n : Nat), s.runs c 0x0E00 m → f = fld (m.w 3) 5 0 → n = fld (m.w 3) 13 8 →
    (55 < f ∨ n = 0 ∨ 56 < n ∨ 56 < f + n → exec (.diagTileStatus c) s = .next ((s.began c).refuse c BAD_PARAM 0x0103)) ∧
    (0 < n → f + n ≤ 56 → ∃ t b, exec (.diagTileStatus c) s = .next t ∧ t.answered c OK 0 b ∧ b.length = 2 * n ∧
      (∀ i, i < n → b[2 * i]? = some (tileStatus s (f + i)) ∧ b[2 * i + 1]? = some (laneStatus s (f + i))) ∧ otherCmds s t c ∧ t = { s with cmds := t.cmds })) ∧
  (∀ (s : State) (c : CmdRef) (m : Cmd) (b : Nat), s.runs c 0x0E01 m → b = fld (m.w 3) 7 0 →
    (16 ≤ b → b ≠ 0xFF → exec (.diagBandStatus c) s = .next ((s.began c).badWord c 3)) ∧
    (b < 16 → ∃ t, exec (.diagBandStatus c) s = .next t ∧ t.answered c OK 0 (bandStatus s b) ∧ otherCmds s t c ∧ t = { s with cmds := t.cmds }) ∧
    (b = 0xFF → ∃ t l, exec (.diagBandStatus c) s = .next t ∧ t.answered c OK 0 l ∧ l.length = 64 ∧ otherCmds s t c ∧ t = { s with cmds := t.cmds } ∧
      ∀ k, k < 16 → (l.drop (4 * k)).take 4 = bandStatus s k)) ∧
  (∀ (s : State) (c : CmdRef) (m : Cmd), s.runs c 0x0E02 m →
    ∃ t, exec (.diagCounters c) s = .next t ∧ t.answered c OK 0 ([s.dep.corrected, s.dep.uncorrectable, s.dep.retries, s.dep.retiredLanes, s.dep.retiredHbm].map
      fun k => BitVec.ofNat 32 k) ∧ otherCmds s t c ∧ t = { s with cmds := t.cmds }) ∧
  (∀ (s : State) (c : CmdRef) (m : Cmd) (k : Nat) (o : ObjS), s.runs c 0x0A0F m → m.ref = c → s.objOf (m.w 3) = some (k, o) →
    (o.usable m.ctx = false → exec (.objQuery c) s = .next ((s.began c).refuseOpen c NOT_OWNER)) ∧
    (o.usable m.ctx = true → ∃ t, exec (.objQuery c) s = .next t ∧ t.answered c OK 0
        [s.objState k o (fld (m.w 4) 1 0), o.id, BitVec.ofNat 32 o.granules, BitVec.ofNat 32 (o.kind + o.home * 256 + o.class_ * 65536), 0] ∧
      otherCmds s t c ∧ t = { s with cmds := t.cmds })) ∧
  (∀ (s : State) (c : CmdRef) (m : Cmd), s.runs c 0x0B06 m →
    ∃ t e l h, exec (.energyStatus c) s = .next t ∧ t.answered c OK 0 [BitVec.ofNat 32 s.power.modulePower, BitVec.ofNat 32 s.power.cap,
        BitVec.ofNat 32 s.ballastMw, e, l, h] ∧ (s.power.account = none → e = 0xFFFFFFFF) ∧
      (∀ a x, s.power.account = some (a, x) → a < 2 ^ 32 * 1000000 → e.toNat = a / 1000000) ∧ otherCmds s t c ∧ t = { s with cmds := t.cmds }) ∧
  (∀ (s : State) (c : CmdRef) (m : Cmd), s.runs c 0x0C02 m →
    ∃ t, exec (.healthStatus c) s = .next t ∧ t.answered c OK 0 (bytesWords 20 (healthBody s m.ctx 0 0)) ∧ otherCmds s t c ∧ t = { s with cmds := t.cmds }) ∧
  (∀ (s : State) (c : CmdRef) (m : Cmd), s.runs c 0x0D01 m →
    ∃ t, exec (.fwStatus c) s = .next t ∧ t.answered c OK 0 [s.sec.runVersion, if s.sec.stagedOk then imageVersion s.sec.staged else 0,
      BitVec.ofNat 32 s.sec.stage] ∧ otherCmds s t c ∧ t = { s with cmds := t.cmds }) ∧
  (∀ (s : State) (c : CmdRef) (m : Cmd), s.runs c 0x0C04 m → m.ref = c →
    ∃ t, exec (.ageingRead c) s = .next t ∧ t.answered c (if (ageingBytes s).length ≤ m.sgTotal 3 then OK else OK_PARTIAL) 0
      [BitVec.ofNat 32 (min (ageingBytes s).length (m.sgTotal 3))] ∧
      (m.sgInline 3 = true → t.hostMem = s.hostMem ∧ (t.replyOf c).map (·.inlineOut) = some ((ageingBytes s).take (m.sgTotal 3))) ∧
      (∀ l, m.sgInline 3 = false → sgExtents m 3 s = .extents l → t.hostMem = writeExtents s.hostMem l ((ageingBytes s).take (m.sgTotal 3))) ∧ otherCmds s t c ∧ t = { s with cmds := t.cmds, hostMem := t.hostMem }) ∧
  (∀ (s : State) (c : CmdRef) (m : Cmd) (n : Nat), s.runs c 0x0D00 m → m.ref = c → n = fld (m.w 3) 3 0 →
    (2 < n → exec (.identityRead c) s = .next ((s.began c).badWord c 3)) ∧
    (n ≤ 2 → ∃ t, exec (.identityRead c) s = .next t ∧ t.answered c (if (certDer n).length ≤ m.sgTotal 4 then OK else OK_PARTIAL) 0
      [BitVec.ofNat 32 (certDer n).length] ∧
      (m.sgInline 4 = true → t.hostMem = s.hostMem ∧ (t.replyOf c).map (·.inlineOut) = some ((certDer n).take (m.sgTotal 4))) ∧
      (∀ l, m.sgInline 4 = false → sgExtents m 4 s = .extents l → t.hostMem = writeExtents s.hostMem l ((certDer n).take (m.sgTotal 4))) ∧ otherCmds s t c ∧ t = { s with cmds := t.cmds, hostMem := t.hostMem })) ∧
  (∀ (s : State) (c : CmdRef) (m : Cmd) (n : Nat), s.runs c 0x0C05 m → n = (if fld (m.w 3) 4 0 = 0 then 16 else fld (m.w 3) 4 0) →
    (16 < n → exec (.eventRead c) s = .next ((s.began c).badWord c 3)) ∧
    (n ≤ 16 → s.tether.queue.length ≤ 256 → ∃ t b, exec (.eventRead c) s = .next t ∧ t.answered c OK 0 b ∧ b.length = 1 + 4 * min n s.tether.queue.length ∧
      (∀ w, b.head? = some w → fld w 7 0 = min n s.tether.queue.length ∧ fld w 15 8 = s.tether.queue.length - n ∧ fld w 31 16 = min 0xFFFF s.tether.dropped) ∧
      (∀ i e, i < n → s.tether.queue[i]? = some e → ∃ x y z, (b.drop (1 + 4 * i)).take 4 = [x, y, e.time.setWidth 32, z] ∧ fld x 31 16 = e.code.toNat ∧
        fld x 15 0 = e.detail.toNat ∧ (∀ k, e.ctx = some k → y = BitVec.ofNat 32 k)) ∧
      t.tether = { s.tether with queue := s.tether.queue.drop n, dropped := 0 } ∧ otherCmds s t c ∧ t = { s with cmds := t.cmds, tether := t.tether }))

/-- Right after the power-on reset only VAUX is present: the main side is off in MAIN_OFF, the link down and no safe stop. No
command is outstanding and none waits, every slot of every function belongs to the host, no function is ready or holds an expert
enable, no domain is claimed and the event queue is empty. Every Reel entry is free, no port is owned, no context has a session
or a program, no map, object, band, stream or index exists, device time is zero and free-running, the cap is 75,000 mW with
Ballast 50 and no account, the fused SVN is zero, no entry stands in the ledger, and host memory lists nothing. (The values of a
new module's fuses, ledger and host memory are the model's choice, assumptions 2, 13, 14 and 15.) -/
def Obligations.ResetStateOfThePowerOn : Prop :=
  State.reset.life.vaux = true ∧ State.reset.life.main = .off ∧ State.reset.life.powerState = 3 ∧ State.reset.life.linkUp = false ∧
  State.reset.life.safeStop = false ∧ State.reset.pending = [] ∧ State.reset.cmds = [] ∧
  (∀ n, (State.reset.fnAt n).slotBusy = 0 ∧ (State.reset.fnAt n).slotDone = 0 ∧ (State.reset.fnAt n).ready = false ∧
    (State.reset.fnAt n).expert = 0 ∧ (State.reset.fnAt n).policy = 0) ∧
  State.reset.tether.claims = 0 ∧ State.reset.tether.expert = 0 ∧ State.reset.tether.queue = [] ∧ State.reset.events = [] ∧ State.reset.outbox = [] ∧
  (∀ k, (State.reset.reelAt k).state = 0 ∧ (State.reset.reelAt k).owner = 0xFF) ∧ (∀ p, (State.reset.portAt p).owner = none) ∧
  (∀ n, State.reset.sessionAt n = none ∧ (State.reset.ctxAt n).image = none ∧ (State.reset.ctxAt n).bands = []) ∧ State.reset.maps = [] ∧
  State.reset.objs = [] ∧ State.reset.bands = [] ∧ State.reset.streams = [] ∧ State.reset.queries = [] ∧ State.reset.held = [] ∧
  State.reset.time.nanos = 0 ∧ State.reset.time.seconds = 0 ∧ State.reset.time.state = .free ∧ State.reset.power.cap = 75000 ∧ State.reset.power.ballast = 50 ∧
  State.reset.power.account = none ∧ State.reset.sec.svn = 0 ∧ State.reset.sec.ownerHash = [] ∧ State.reset.age.ledger = [] ∧ State.reset.quad.running = none ∧
  memoryWf State.reset = true ∧ ∀ a, Tab.getD State.reset.hostMem a 0 = 0

/-- For every state whose host memory is in its canonical form (addresses strictly rising, no listed byte equal to what an unlisted
one reads as), a step that answers a next state leaves it in that form, whether the command writes records, replies, output data
or nothing. (The form is the model's own, assumption 15.) -/
def Obligations.EveryStepKeepsTheMemoryForm : Prop :=
  ∀ (s t : State), memoryWf s = true → Sys2Proof.Machine.step s = .next t → memoryWf t = true

/-- For every command and state, execution answers a next state, except that an arming, a slot write or a register write of a
function above 7, a slot above 31, a word above 127 or an offset outside the 32 KiB of BAR0 faults; it never refuses. In the
next state the queue of waiting commands is as it was and the count of fused SVNs is no lower than it was, resets of every kind
and rolled-back updates included. -/
def Obligations.EveryCommandCompletesAndFusesNeverFall : Prop :=
  ∀ (i : Instr) (s : State),
    (∃ t, exec i s = .next t ∧ t.pending = s.pending ∧ s.sec.svn ≤ t.sec.svn) ∨
    (exec i s = .fault .outsideBar0 ∧
      ((∃ fn slot w p, i = .slotArm fn slot w p ∧ (8 ≤ fn ∨ 32 ≤ slot)) ∨
       (∃ fn slot k w, i = .slotWriteLost fn slot k w ∧ (8 ≤ fn ∨ 32 ≤ slot ∨ 128 ≤ k)) ∨
       (∃ fn off w, i = .registerWrite fn off w ∧ (8 ≤ fn ∨ 0x8000 ≤ off))))
end

