-- ==== Sys2Proof/Laws/State.lean ====
section
/-! SUPPORT. What each elementary update of the state does to each field: the updated field takes its new value, every other one stays. -/

namespace Sys2Proof.Machine

variable (s : State)

/-! ### `mapLife` -/

@[simp] theorem State.mapLife_pending (f : LifeS → LifeS) : (s.mapLife f).pending = s.pending := rfl
@[simp] theorem State.mapLife_cmds (f : LifeS → LifeS) : (s.mapLife f).cmds = s.cmds := rfl
@[simp] theorem State.mapLife_fns (f : LifeS → LifeS) : (s.mapLife f).fns = s.fns := rfl
@[simp] theorem State.mapLife_tether (f : LifeS → LifeS) : (s.mapLife f).tether = s.tether := rfl
@[simp] theorem State.mapLife_outbox (f : LifeS → LifeS) : (s.mapLife f).outbox = s.outbox := rfl
@[simp] theorem State.mapLife_hostMem (f : LifeS → LifeS) : (s.mapLife f).hostMem = s.hostMem := rfl
@[simp] theorem State.mapLife_hostBad (f : LifeS → LifeS) : (s.mapLife f).hostBad = s.hostBad := rfl
@[simp] theorem State.mapLife_life (f : LifeS → LifeS) : (s.mapLife f).life = f s.life := rfl
@[simp] theorem State.mapLife_outputs (f : LifeS → LifeS) : (s.mapLife f).outputs = s.outputs := rfl
@[simp] theorem State.mapLife_events (f : LifeS → LifeS) : (s.mapLife f).events = s.events := rfl
@[simp] theorem State.mapLife_eventLimit (f : LifeS → LifeS) : (s.mapLife f).eventLimit = s.eventLimit := rfl
@[simp] theorem State.mapLife_time (f : LifeS → LifeS) : (s.mapLife f).time = s.time := rfl
@[simp] theorem State.mapLife_reel (f : LifeS → LifeS) : (s.mapLife f).reel = s.reel := rfl
@[simp] theorem State.mapLife_targets (f : LifeS → LifeS) : (s.mapLife f).targets = s.targets := rfl
@[simp] theorem State.mapLife_ports (f : LifeS → LifeS) : (s.mapLife f).ports = s.ports := rfl
@[simp] theorem State.mapLife_lidars (f : LifeS → LifeS) : (s.mapLife f).lidars = s.lidars := rfl
@[simp] theorem State.mapLife_filters (f : LifeS → LifeS) : (s.mapLife f).filters = s.filters := rfl
@[simp] theorem State.mapLife_imu0 (f : LifeS → LifeS) : (s.mapLife f).imu0 = s.imu0 := rfl
@[simp] theorem State.mapLife_streams (f : LifeS → LifeS) : (s.mapLife f).streams = s.streams := rfl
@[simp] theorem State.mapLife_engines (f : LifeS → LifeS) : (s.mapLife f).engines = s.engines := rfl
@[simp] theorem State.mapLife_quad (f : LifeS → LifeS) : (s.mapLife f).quad = s.quad := rfl
@[simp] theorem State.mapLife_ctxs (f : LifeS → LifeS) : (s.mapLife f).ctxs = s.ctxs := rfl
@[simp] theorem State.mapLife_nextSession (f : LifeS → LifeS) : (s.mapLife f).nextSession = s.nextSession := rfl
@[simp] theorem State.mapLife_held (f : LifeS → LifeS) : (s.mapLife f).held = s.held := rfl
@[simp] theorem State.mapLife_linkDownTick (f : LifeS → LifeS) : (s.mapLife f).linkDownTick = s.linkDownTick := rfl
@[simp] theorem State.mapLife_maps (f : LifeS → LifeS) : (s.mapLife f).maps = s.maps := rfl
@[simp] theorem State.mapLife_queries (f : LifeS → LifeS) : (s.mapLife f).queries = s.queries := rfl
@[simp] theorem State.mapLife_nextQuery (f : LifeS → LifeS) : (s.mapLife f).nextQuery = s.nextQuery := rfl
@[simp] theorem State.mapLife_tiles (f : LifeS → LifeS) : (s.mapLife f).tiles = s.tiles := rfl
@[simp] theorem State.mapLife_bands (f : LifeS → LifeS) : (s.mapLife f).bands = s.bands := rfl
@[simp] theorem State.mapLife_rvs (f : LifeS → LifeS) : (s.mapLife f).rvs = s.rvs := rfl
@[simp] theorem State.mapLife_commons (f : LifeS → LifeS) : (s.mapLife f).commons = s.commons := rfl
@[simp] theorem State.mapLife_objs (f : LifeS → LifeS) : (s.mapLife f).objs = s.objs := rfl
@[simp] theorem State.mapLife_reuse (f : LifeS → LifeS) : (s.mapLife f).reuse = s.reuse := rfl
@[simp] theorem State.mapLife_jobs (f : LifeS → LifeS) : (s.mapLife f).jobs = s.jobs := rfl
@[simp] theorem State.mapLife_jobSeq (f : LifeS → LifeS) : (s.mapLife f).jobSeq = s.jobSeq := rfl
@[simp] theorem State.mapLife_pairs (f : LifeS → LifeS) : (s.mapLife f).pairs = s.pairs := rfl
@[simp] theorem State.mapLife_power (f : LifeS → LifeS) : (s.mapLife f).power = s.power := rfl
@[simp] theorem State.mapLife_sources (f : LifeS → LifeS) : (s.mapLife f).sources = s.sources := rfl
@[simp] theorem State.mapLife_islands (f : LifeS → LifeS) : (s.mapLife f).islands = s.islands := rfl
@[simp] theorem State.mapLife_dep (f : LifeS → LifeS) : (s.mapLife f).dep = s.dep := rfl
@[simp] theorem State.mapLife_age (f : LifeS → LifeS) : (s.mapLife f).age = s.age := rfl
@[simp] theorem State.mapLife_sec (f : LifeS → LifeS) : (s.mapLife f).sec = s.sec := rfl
@[simp] theorem State.mapLife_epoch (f : LifeS → LifeS) : (s.mapLife f).epoch = s.epoch := rfl
@[simp] theorem State.mapLife_free (f : LifeS → LifeS) : (s.mapLife f).free = s.free := rfl

/-! ### `mapTime` -/

@[simp] theorem State.mapTime_pending (f : TimeS → TimeS) : (s.mapTime f).pending = s.pending := rfl
@[simp] theorem State.mapTime_cmds (f : TimeS → TimeS) : (s.mapTime f).cmds = s.cmds := rfl
@[simp] theorem State.mapTime_fns (f : TimeS → TimeS) : (s.mapTime f).fns = s.fns := rfl
@[simp] theorem State.mapTime_tether (f : TimeS → TimeS) : (s.mapTime f).tether = s.tether := rfl
@[simp] theorem State.mapTime_outbox (f : TimeS → TimeS) : (s.mapTime f).outbox = s.outbox := rfl
@[simp] theorem State.mapTime_hostMem (f : TimeS → TimeS) : (s.mapTime f).hostMem = s.hostMem := rfl
@[simp] theorem State.mapTime_hostBad (f : TimeS → TimeS) : (s.mapTime f).hostBad = s.hostBad := rfl
@[simp] theorem State.mapTime_life (f : TimeS → TimeS) : (s.mapTime f).life = s.life := rfl
@[simp] theorem State.mapTime_outputs (f : TimeS → TimeS) : (s.mapTime f).outputs = s.outputs := rfl
@[simp] theorem State.mapTime_events (f : TimeS → TimeS) : (s.mapTime f).events = s.events := rfl
@[simp] theorem State.mapTime_eventLimit (f : TimeS → TimeS) : (s.mapTime f).eventLimit = s.eventLimit := rfl
@[simp] theorem State.mapTime_time (f : TimeS → TimeS) : (s.mapTime f).time = f s.time := rfl
@[simp] theorem State.mapTime_reel (f : TimeS → TimeS) : (s.mapTime f).reel = s.reel := rfl
@[simp] theorem State.mapTime_targets (f : TimeS → TimeS) : (s.mapTime f).targets = s.targets := rfl
@[simp] theorem State.mapTime_ports (f : TimeS → TimeS) : (s.mapTime f).ports = s.ports := rfl
@[simp] theorem State.mapTime_lidars (f : TimeS → TimeS) : (s.mapTime f).lidars = s.lidars := rfl
@[simp] theorem State.mapTime_filters (f : TimeS → TimeS) : (s.mapTime f).filters = s.filters := rfl
@[simp] theorem State.mapTime_imu0 (f : TimeS → TimeS) : (s.mapTime f).imu0 = s.imu0 := rfl
@[simp] theorem State.mapTime_streams (f : TimeS → TimeS) : (s.mapTime f).streams = s.streams := rfl
@[simp] theorem State.mapTime_engines (f : TimeS → TimeS) : (s.mapTime f).engines = s.engines := rfl
@[simp] theorem State.mapTime_quad (f : TimeS → TimeS) : (s.mapTime f).quad = s.quad := rfl
@[simp] theorem State.mapTime_ctxs (f : TimeS → TimeS) : (s.mapTime f).ctxs = s.ctxs := rfl
@[simp] theorem State.mapTime_nextSession (f : TimeS → TimeS) : (s.mapTime f).nextSession = s.nextSession := rfl
@[simp] theorem State.mapTime_held (f : TimeS → TimeS) : (s.mapTime f).held = s.held := rfl
@[simp] theorem State.mapTime_linkDownTick (f : TimeS → TimeS) : (s.mapTime f).linkDownTick = s.linkDownTick := rfl
@[simp] theorem State.mapTime_maps (f : TimeS → TimeS) : (s.mapTime f).maps = s.maps := rfl
@[simp] theorem State.mapTime_queries (f : TimeS → TimeS) : (s.mapTime f).queries = s.queries := rfl
@[simp] theorem State.mapTime_nextQuery (f : TimeS → TimeS) : (s.mapTime f).nextQuery = s.nextQuery := rfl
@[simp] theorem State.mapTime_tiles (f : TimeS → TimeS) : (s.mapTime f).tiles = s.tiles := rfl
@[simp] theorem State.mapTime_bands (f : TimeS → TimeS) : (s.mapTime f).bands = s.bands := rfl
@[simp] theorem State.mapTime_rvs (f : TimeS → TimeS) : (s.mapTime f).rvs = s.rvs := rfl
@[simp] theorem State.mapTime_commons (f : TimeS → TimeS) : (s.mapTime f).commons = s.commons := rfl
@[simp] theorem State.mapTime_objs (f : TimeS → TimeS) : (s.mapTime f).objs = s.objs := rfl
@[simp] theorem State.mapTime_reuse (f : TimeS → TimeS) : (s.mapTime f).reuse = s.reuse := rfl
@[simp] theorem State.mapTime_jobs (f : TimeS → TimeS) : (s.mapTime f).jobs = s.jobs := rfl
@[simp] theorem State.mapTime_jobSeq (f : TimeS → TimeS) : (s.mapTime f).jobSeq = s.jobSeq := rfl
@[simp] theorem State.mapTime_pairs (f : TimeS → TimeS) : (s.mapTime f).pairs = s.pairs := rfl
@[simp] theorem State.mapTime_power (f : TimeS → TimeS) : (s.mapTime f).power = s.power := rfl
@[simp] theorem State.mapTime_sources (f : TimeS → TimeS) : (s.mapTime f).sources = s.sources := rfl
@[simp] theorem State.mapTime_islands (f : TimeS → TimeS) : (s.mapTime f).islands = s.islands := rfl
@[simp] theorem State.mapTime_dep (f : TimeS → TimeS) : (s.mapTime f).dep = s.dep := rfl
@[simp] theorem State.mapTime_age (f : TimeS → TimeS) : (s.mapTime f).age = s.age := rfl
@[simp] theorem State.mapTime_sec (f : TimeS → TimeS) : (s.mapTime f).sec = s.sec := rfl
@[simp] theorem State.mapTime_epoch (f : TimeS → TimeS) : (s.mapTime f).epoch = s.epoch := rfl
@[simp] theorem State.mapTime_free (f : TimeS → TimeS) : (s.mapTime f).free = s.free := rfl

/-! ### `mapPower` -/

@[simp] theorem State.mapPower_pending (f : PowerS → PowerS) : (s.mapPower f).pending = s.pending := rfl
@[simp] theorem State.mapPower_cmds (f : PowerS → PowerS) : (s.mapPower f).cmds = s.cmds := rfl
@[simp] theorem State.mapPower_fns (f : PowerS → PowerS) : (s.mapPower f).fns = s.fns := rfl
@[simp] theorem State.mapPower_tether (f : PowerS → PowerS) : (s.mapPower f).tether = s.tether := rfl
@[simp] theorem State.mapPower_outbox (f : PowerS → PowerS) : (s.mapPower f).outbox = s.outbox := rfl
@[simp] theorem State.mapPower_hostMem (f : PowerS → PowerS) : (s.mapPower f).hostMem = s.hostMem := rfl
@[simp] theorem State.mapPower_hostBad (f : PowerS → PowerS) : (s.mapPower f).hostBad = s.hostBad := rfl
@[simp] theorem State.mapPower_life (f : PowerS → PowerS) : (s.mapPower f).life = s.life := rfl
@[simp] theorem State.mapPower_outputs (f : PowerS → PowerS) : (s.mapPower f).outputs = s.outputs := rfl
@[simp] theorem State.mapPower_events (f : PowerS → PowerS) : (s.mapPower f).events = s.events := rfl
@[simp] theorem State.mapPower_eventLimit (f : PowerS → PowerS) : (s.mapPower f).eventLimit = s.eventLimit := rfl
@[simp] theorem State.mapPower_time (f : PowerS → PowerS) : (s.mapPower f).time = s.time := rfl
@[simp] theorem State.mapPower_reel (f : PowerS → PowerS) : (s.mapPower f).reel = s.reel := rfl
@[simp] theorem State.mapPower_targets (f : PowerS → PowerS) : (s.mapPower f).targets = s.targets := rfl
@[simp] theorem State.mapPower_ports (f : PowerS → PowerS) : (s.mapPower f).ports = s.ports := rfl
@[simp] theorem State.mapPower_lidars (f : PowerS → PowerS) : (s.mapPower f).lidars = s.lidars := rfl
@[simp] theorem State.mapPower_filters (f : PowerS → PowerS) : (s.mapPower f).filters = s.filters := rfl
@[simp] theorem State.mapPower_imu0 (f : PowerS → PowerS) : (s.mapPower f).imu0 = s.imu0 := rfl
@[simp] theorem State.mapPower_streams (f : PowerS → PowerS) : (s.mapPower f).streams = s.streams := rfl
@[simp] theorem State.mapPower_engines (f : PowerS → PowerS) : (s.mapPower f).engines = s.engines := rfl
@[simp] theorem State.mapPower_quad (f : PowerS → PowerS) : (s.mapPower f).quad = s.quad := rfl
@[simp] theorem State.mapPower_ctxs (f : PowerS → PowerS) : (s.mapPower f).ctxs = s.ctxs := rfl
@[simp] theorem State.mapPower_nextSession (f : PowerS → PowerS) : (s.mapPower f).nextSession = s.nextSession := rfl
@[simp] theorem State.mapPower_held (f : PowerS → PowerS) : (s.mapPower f).held = s.held := rfl
@[simp] theorem State.mapPower_linkDownTick (f : PowerS → PowerS) : (s.mapPower f).linkDownTick = s.linkDownTick := rfl
@[simp] theorem State.mapPower_maps (f : PowerS → PowerS) : (s.mapPower f).maps = s.maps := rfl
@[simp] theorem State.mapPower_queries (f : PowerS → PowerS) : (s.mapPower f).queries = s.queries := rfl
@[simp] theorem State.mapPower_nextQuery (f : PowerS → PowerS) : (s.mapPower f).nextQuery = s.nextQuery := rfl
@[simp] theorem State.mapPower_tiles (f : PowerS → PowerS) : (s.mapPower f).tiles = s.tiles := rfl
@[simp] theorem State.mapPower_bands (f : PowerS → PowerS) : (s.mapPower f).bands = s.bands := rfl
@[simp] theorem State.mapPower_rvs (f : PowerS → PowerS) : (s.mapPower f).rvs = s.rvs := rfl
@[simp] theorem State.mapPower_commons (f : PowerS → PowerS) : (s.mapPower f).commons = s.commons := rfl
@[simp] theorem State.mapPower_objs (f : PowerS → PowerS) : (s.mapPower f).objs = s.objs := rfl
@[simp] theorem State.mapPower_reuse (f : PowerS → PowerS) : (s.mapPower f).reuse = s.reuse := rfl
@[simp] theorem State.mapPower_jobs (f : PowerS → PowerS) : (s.mapPower f).jobs = s.jobs := rfl
@[simp] theorem State.mapPower_jobSeq (f : PowerS → PowerS) : (s.mapPower f).jobSeq = s.jobSeq := rfl
@[simp] theorem State.mapPower_pairs (f : PowerS → PowerS) : (s.mapPower f).pairs = s.pairs := rfl
@[simp] theorem State.mapPower_power (f : PowerS → PowerS) : (s.mapPower f).power = f s.power := rfl
@[simp] theorem State.mapPower_sources (f : PowerS → PowerS) : (s.mapPower f).sources = s.sources := rfl
@[simp] theorem State.mapPower_islands (f : PowerS → PowerS) : (s.mapPower f).islands = s.islands := rfl
@[simp] theorem State.mapPower_dep (f : PowerS → PowerS) : (s.mapPower f).dep = s.dep := rfl
@[simp] theorem State.mapPower_age (f : PowerS → PowerS) : (s.mapPower f).age = s.age := rfl
@[simp] theorem State.mapPower_sec (f : PowerS → PowerS) : (s.mapPower f).sec = s.sec := rfl
@[simp] theorem State.mapPower_epoch (f : PowerS → PowerS) : (s.mapPower f).epoch = s.epoch := rfl
@[simp] theorem State.mapPower_free (f : PowerS → PowerS) : (s.mapPower f).free = s.free := rfl

/-! ### `mapDep` -/

@[simp] theorem State.mapDep_pending (f : DepS → DepS) : (s.mapDep f).pending = s.pending := rfl
@[simp] theorem State.mapDep_cmds (f : DepS → DepS) : (s.mapDep f).cmds = s.cmds := rfl
@[simp] theorem State.mapDep_fns (f : DepS → DepS) : (s.mapDep f).fns = s.fns := rfl
@[simp] theorem State.mapDep_tether (f : DepS → DepS) : (s.mapDep f).tether = s.tether := rfl
@[simp] theorem State.mapDep_outbox (f : DepS → DepS) : (s.mapDep f).outbox = s.outbox := rfl
@[simp] theorem State.mapDep_hostMem (f : DepS → DepS) : (s.mapDep f).hostMem = s.hostMem := rfl
@[simp] theorem State.mapDep_hostBad (f : DepS → DepS) : (s.mapDep f).hostBad = s.hostBad := rfl
@[simp] theorem State.mapDep_life (f : DepS → DepS) : (s.mapDep f).life = s.life := rfl
@[simp] theorem State.mapDep_outputs (f : DepS → DepS) : (s.mapDep f).outputs = s.outputs := rfl
@[simp] theorem State.mapDep_events (f : DepS → DepS) : (s.mapDep f).events = s.events := rfl
@[simp] theorem State.mapDep_eventLimit (f : DepS → DepS) : (s.mapDep f).eventLimit = s.eventLimit := rfl
@[simp] theorem State.mapDep_time (f : DepS → DepS) : (s.mapDep f).time = s.time := rfl
@[simp] theorem State.mapDep_reel (f : DepS → DepS) : (s.mapDep f).reel = s.reel := rfl
@[simp] theorem State.mapDep_targets (f : DepS → DepS) : (s.mapDep f).targets = s.targets := rfl
@[simp] theorem State.mapDep_ports (f : DepS → DepS) : (s.mapDep f).ports = s.ports := rfl
@[simp] theorem State.mapDep_lidars (f : DepS → DepS) : (s.mapDep f).lidars = s.lidars := rfl
@[simp] theorem State.mapDep_filters (f : DepS → DepS) : (s.mapDep f).filters = s.filters := rfl
@[simp] theorem State.mapDep_imu0 (f : DepS → DepS) : (s.mapDep f).imu0 = s.imu0 := rfl
@[simp] theorem State.mapDep_streams (f : DepS → DepS) : (s.mapDep f).streams = s.streams := rfl
@[simp] theorem State.mapDep_engines (f : DepS → DepS) : (s.mapDep f).engines = s.engines := rfl
@[simp] theorem State.mapDep_quad (f : DepS → DepS) : (s.mapDep f).quad = s.quad := rfl
@[simp] theorem State.mapDep_ctxs (f : DepS → DepS) : (s.mapDep f).ctxs = s.ctxs := rfl
@[simp] theorem State.mapDep_nextSession (f : DepS → DepS) : (s.mapDep f).nextSession = s.nextSession := rfl
@[simp] theorem State.mapDep_held (f : DepS → DepS) : (s.mapDep f).held = s.held := rfl
@[simp] theorem State.mapDep_linkDownTick (f : DepS → DepS) : (s.mapDep f).linkDownTick = s.linkDownTick := rfl
@[simp] theorem State.mapDep_maps (f : DepS → DepS) : (s.mapDep f).maps = s.maps := rfl
@[simp] theorem State.mapDep_queries (f : DepS → DepS) : (s.mapDep f).queries = s.queries := rfl
@[simp] theorem State.mapDep_nextQuery (f : DepS → DepS) : (s.mapDep f).nextQuery = s.nextQuery := rfl
@[simp] theorem State.mapDep_tiles (f : DepS → DepS) : (s.mapDep f).tiles = s.tiles := rfl
@[simp] theorem State.mapDep_bands (f : DepS → DepS) : (s.mapDep f).bands = s.bands := rfl
@[simp] theorem State.mapDep_rvs (f : DepS → DepS) : (s.mapDep f).rvs = s.rvs := rfl
@[simp] theorem State.mapDep_commons (f : DepS → DepS) : (s.mapDep f).commons = s.commons := rfl
@[simp] theorem State.mapDep_objs (f : DepS → DepS) : (s.mapDep f).objs = s.objs := rfl
@[simp] theorem State.mapDep_reuse (f : DepS → DepS) : (s.mapDep f).reuse = s.reuse := rfl
@[simp] theorem State.mapDep_jobs (f : DepS → DepS) : (s.mapDep f).jobs = s.jobs := rfl
@[simp] theorem State.mapDep_jobSeq (f : DepS → DepS) : (s.mapDep f).jobSeq = s.jobSeq := rfl
@[simp] theorem State.mapDep_pairs (f : DepS → DepS) : (s.mapDep f).pairs = s.pairs := rfl
@[simp] theorem State.mapDep_power (f : DepS → DepS) : (s.mapDep f).power = s.power := rfl
@[simp] theorem State.mapDep_sources (f : DepS → DepS) : (s.mapDep f).sources = s.sources := rfl
@[simp] theorem State.mapDep_islands (f : DepS → DepS) : (s.mapDep f).islands = s.islands := rfl
@[simp] theorem State.mapDep_dep (f : DepS → DepS) : (s.mapDep f).dep = f s.dep := rfl
@[simp] theorem State.mapDep_age (f : DepS → DepS) : (s.mapDep f).age = s.age := rfl
@[simp] theorem State.mapDep_sec (f : DepS → DepS) : (s.mapDep f).sec = s.sec := rfl
@[simp] theorem State.mapDep_epoch (f : DepS → DepS) : (s.mapDep f).epoch = s.epoch := rfl
@[simp] theorem State.mapDep_free (f : DepS → DepS) : (s.mapDep f).free = s.free := rfl

/-! ### `mapAge` -/

@[simp] theorem State.mapAge_pending (f : AgeS → AgeS) : (s.mapAge f).pending = s.pending := rfl
@[simp] theorem State.mapAge_cmds (f : AgeS → AgeS) : (s.mapAge f).cmds = s.cmds := rfl
@[simp] theorem State.mapAge_fns (f : AgeS → AgeS) : (s.mapAge f).fns = s.fns := rfl
@[simp] theorem State.mapAge_tether (f : AgeS → AgeS) : (s.mapAge f).tether = s.tether := rfl
@[simp] theorem State.mapAge_outbox (f : AgeS → AgeS) : (s.mapAge f).outbox = s.outbox := rfl
@[simp] theorem State.mapAge_hostMem (f : AgeS → AgeS) : (s.mapAge f).hostMem = s.hostMem := rfl
@[simp] theorem State.mapAge_hostBad (f : AgeS → AgeS) : (s.mapAge f).hostBad = s.hostBad := rfl
@[simp] theorem State.mapAge_life (f : AgeS → AgeS) : (s.mapAge f).life = s.life := rfl
@[simp] theorem State.mapAge_outputs (f : AgeS → AgeS) : (s.mapAge f).outputs = s.outputs := rfl
@[simp] theorem State.mapAge_events (f : AgeS → AgeS) : (s.mapAge f).events = s.events := rfl
@[simp] theorem State.mapAge_eventLimit (f : AgeS → AgeS) : (s.mapAge f).eventLimit = s.eventLimit := rfl
@[simp] theorem State.mapAge_time (f : AgeS → AgeS) : (s.mapAge f).time = s.time := rfl
@[simp] theorem State.mapAge_reel (f : AgeS → AgeS) : (s.mapAge f).reel = s.reel := rfl
@[simp] theorem State.mapAge_targets (f : AgeS → AgeS) : (s.mapAge f).targets = s.targets := rfl
@[simp] theorem State.mapAge_ports (f : AgeS → AgeS) : (s.mapAge f).ports = s.ports := rfl
@[simp] theorem State.mapAge_lidars (f : AgeS → AgeS) : (s.mapAge f).lidars = s.lidars := rfl
@[simp] theorem State.mapAge_filters (f : AgeS → AgeS) : (s.mapAge f).filters = s.filters := rfl
@[simp] theorem State.mapAge_imu0 (f : AgeS → AgeS) : (s.mapAge f).imu0 = s.imu0 := rfl
@[simp] theorem State.mapAge_streams (f : AgeS → AgeS) : (s.mapAge f).streams = s.streams := rfl
@[simp] theorem State.mapAge_engines (f : AgeS → AgeS) : (s.mapAge f).engines = s.engines := rfl
@[simp] theorem State.mapAge_quad (f : AgeS → AgeS) : (s.mapAge f).quad = s.quad := rfl
@[simp] theorem State.mapAge_ctxs (f : AgeS → AgeS) : (s.mapAge f).ctxs = s.ctxs := rfl
@[simp] theorem State.mapAge_nextSession (f : AgeS → AgeS) : (s.mapAge f).nextSession = s.nextSession := rfl
@[simp] theorem State.mapAge_held (f : AgeS → AgeS) : (s.mapAge f).held = s.held := rfl
@[simp] theorem State.mapAge_linkDownTick (f : AgeS → AgeS) : (s.mapAge f).linkDownTick = s.linkDownTick := rfl
@[simp] theorem State.mapAge_maps (f : AgeS → AgeS) : (s.mapAge f).maps = s.maps := rfl
@[simp] theorem State.mapAge_queries (f : AgeS → AgeS) : (s.mapAge f).queries = s.queries := rfl
@[simp] theorem State.mapAge_nextQuery (f : AgeS → AgeS) : (s.mapAge f).nextQuery = s.nextQuery := rfl
@[simp] theorem State.mapAge_tiles (f : AgeS → AgeS) : (s.mapAge f).tiles = s.tiles := rfl
@[simp] theorem State.mapAge_bands (f : AgeS → AgeS) : (s.mapAge f).bands = s.bands := rfl
@[simp] theorem State.mapAge_rvs (f : AgeS → AgeS) : (s.mapAge f).rvs = s.rvs := rfl
@[simp] theorem State.mapAge_commons (f : AgeS → AgeS) : (s.mapAge f).commons = s.commons := rfl
@[simp] theorem State.mapAge_objs (f : AgeS → AgeS) : (s.mapAge f).objs = s.objs := rfl
@[simp] theorem State.mapAge_reuse (f : AgeS → AgeS) : (s.mapAge f).reuse = s.reuse := rfl
@[simp] theorem State.mapAge_jobs (f : AgeS → AgeS) : (s.mapAge f).jobs = s.jobs := rfl
@[simp] theorem State.mapAge_jobSeq (f : AgeS → AgeS) : (s.mapAge f).jobSeq = s.jobSeq := rfl
@[simp] theorem State.mapAge_pairs (f : AgeS → AgeS) : (s.mapAge f).pairs = s.pairs := rfl
@[simp] theorem State.mapAge_power (f : AgeS → AgeS) : (s.mapAge f).power = s.power := rfl
@[simp] theorem State.mapAge_sources (f : AgeS → AgeS) : (s.mapAge f).sources = s.sources := rfl
@[simp] theorem State.mapAge_islands (f : AgeS → AgeS) : (s.mapAge f).islands = s.islands := rfl
@[simp] theorem State.mapAge_dep (f : AgeS → AgeS) : (s.mapAge f).dep = s.dep := rfl
@[simp] theorem State.mapAge_age (f : AgeS → AgeS) : (s.mapAge f).age = f s.age := rfl
@[simp] theorem State.mapAge_sec (f : AgeS → AgeS) : (s.mapAge f).sec = s.sec := rfl
@[simp] theorem State.mapAge_epoch (f : AgeS → AgeS) : (s.mapAge f).epoch = s.epoch := rfl
@[simp] theorem State.mapAge_free (f : AgeS → AgeS) : (s.mapAge f).free = s.free := rfl

/-! ### `mapSec` -/

@[simp] theorem State.mapSec_pending (f : SecS → SecS) : (s.mapSec f).pending = s.pending := rfl
@[simp] theorem State.mapSec_cmds (f : SecS → SecS) : (s.mapSec f).cmds = s.cmds := rfl
@[simp] theorem State.mapSec_fns (f : SecS → SecS) : (s.mapSec f).fns = s.fns := rfl
@[simp] theorem State.mapSec_tether (f : SecS → SecS) : (s.mapSec f).tether = s.tether := rfl
@[simp] theorem State.mapSec_outbox (f : SecS → SecS) : (s.mapSec f).outbox = s.outbox := rfl
@[simp] theorem State.mapSec_hostMem (f : SecS → SecS) : (s.mapSec f).hostMem = s.hostMem := rfl
@[simp] theorem State.mapSec_hostBad (f : SecS → SecS) : (s.mapSec f).hostBad = s.hostBad := rfl
@[simp] theorem State.mapSec_life (f : SecS → SecS) : (s.mapSec f).life = s.life := rfl
@[simp] theorem State.mapSec_outputs (f : SecS → SecS) : (s.mapSec f).outputs = s.outputs := rfl
@[simp] theorem State.mapSec_events (f : SecS → SecS) : (s.mapSec f).events = s.events := rfl
@[simp] theorem State.mapSec_eventLimit (f : SecS → SecS) : (s.mapSec f).eventLimit = s.eventLimit := rfl
@[simp] theorem State.mapSec_time (f : SecS → SecS) : (s.mapSec f).time = s.time := rfl
@[simp] theorem State.mapSec_reel (f : SecS → SecS) : (s.mapSec f).reel = s.reel := rfl
@[simp] theorem State.mapSec_targets (f : SecS → SecS) : (s.mapSec f).targets = s.targets := rfl
@[simp] theorem State.mapSec_ports (f : SecS → SecS) : (s.mapSec f).ports = s.ports := rfl
@[simp] theorem State.mapSec_lidars (f : SecS → SecS) : (s.mapSec f).lidars = s.lidars := rfl
@[simp] theorem State.mapSec_filters (f : SecS → SecS) : (s.mapSec f).filters = s.filters := rfl
@[simp] theorem State.mapSec_imu0 (f : SecS → SecS) : (s.mapSec f).imu0 = s.imu0 := rfl
@[simp] theorem State.mapSec_streams (f : SecS → SecS) : (s.mapSec f).streams = s.streams := rfl
@[simp] theorem State.mapSec_engines (f : SecS → SecS) : (s.mapSec f).engines = s.engines := rfl
@[simp] theorem State.mapSec_quad (f : SecS → SecS) : (s.mapSec f).quad = s.quad := rfl
@[simp] theorem State.mapSec_ctxs (f : SecS → SecS) : (s.mapSec f).ctxs = s.ctxs := rfl
@[simp] theorem State.mapSec_nextSession (f : SecS → SecS) : (s.mapSec f).nextSession = s.nextSession := rfl
@[simp] theorem State.mapSec_held (f : SecS → SecS) : (s.mapSec f).held = s.held := rfl
@[simp] theorem State.mapSec_linkDownTick (f : SecS → SecS) : (s.mapSec f).linkDownTick = s.linkDownTick := rfl
@[simp] theorem State.mapSec_maps (f : SecS → SecS) : (s.mapSec f).maps = s.maps := rfl
@[simp] theorem State.mapSec_queries (f : SecS → SecS) : (s.mapSec f).queries = s.queries := rfl
@[simp] theorem State.mapSec_nextQuery (f : SecS → SecS) : (s.mapSec f).nextQuery = s.nextQuery := rfl
@[simp] theorem State.mapSec_tiles (f : SecS → SecS) : (s.mapSec f).tiles = s.tiles := rfl
@[simp] theorem State.mapSec_bands (f : SecS → SecS) : (s.mapSec f).bands = s.bands := rfl
@[simp] theorem State.mapSec_rvs (f : SecS → SecS) : (s.mapSec f).rvs = s.rvs := rfl
@[simp] theorem State.mapSec_commons (f : SecS → SecS) : (s.mapSec f).commons = s.commons := rfl
@[simp] theorem State.mapSec_objs (f : SecS → SecS) : (s.mapSec f).objs = s.objs := rfl
@[simp] theorem State.mapSec_reuse (f : SecS → SecS) : (s.mapSec f).reuse = s.reuse := rfl
@[simp] theorem State.mapSec_jobs (f : SecS → SecS) : (s.mapSec f).jobs = s.jobs := rfl
@[simp] theorem State.mapSec_jobSeq (f : SecS → SecS) : (s.mapSec f).jobSeq = s.jobSeq := rfl
@[simp] theorem State.mapSec_pairs (f : SecS → SecS) : (s.mapSec f).pairs = s.pairs := rfl
@[simp] theorem State.mapSec_power (f : SecS → SecS) : (s.mapSec f).power = s.power := rfl
@[simp] theorem State.mapSec_sources (f : SecS → SecS) : (s.mapSec f).sources = s.sources := rfl
@[simp] theorem State.mapSec_islands (f : SecS → SecS) : (s.mapSec f).islands = s.islands := rfl
@[simp] theorem State.mapSec_dep (f : SecS → SecS) : (s.mapSec f).dep = s.dep := rfl
@[simp] theorem State.mapSec_age (f : SecS → SecS) : (s.mapSec f).age = s.age := rfl
@[simp] theorem State.mapSec_sec (f : SecS → SecS) : (s.mapSec f).sec = f s.sec := rfl
@[simp] theorem State.mapSec_epoch (f : SecS → SecS) : (s.mapSec f).epoch = s.epoch := rfl
@[simp] theorem State.mapSec_free (f : SecS → SecS) : (s.mapSec f).free = s.free := rfl

/-! ### `mapTether` -/

@[simp] theorem State.mapTether_pending (f : TetherS → TetherS) : (s.mapTether f).pending = s.pending := rfl
@[simp] theorem State.mapTether_cmds (f : TetherS → TetherS) : (s.mapTether f).cmds = s.cmds := rfl
@[simp] theorem State.mapTether_fns (f : TetherS → TetherS) : (s.mapTether f).fns = s.fns := rfl
@[simp] theorem State.mapTether_tether (f : TetherS → TetherS) : (s.mapTether f).tether = f s.tether := rfl
@[simp] theorem State.mapTether_outbox (f : TetherS → TetherS) : (s.mapTether f).outbox = s.outbox := rfl
@[simp] theorem State.mapTether_hostMem (f : TetherS → TetherS) : (s.mapTether f).hostMem = s.hostMem := rfl
@[simp] theorem State.mapTether_hostBad (f : TetherS → TetherS) : (s.mapTether f).hostBad = s.hostBad := rfl
@[simp] theorem State.mapTether_life (f : TetherS → TetherS) : (s.mapTether f).life = s.life := rfl
@[simp] theorem State.mapTether_outputs (f : TetherS → TetherS) : (s.mapTether f).outputs = s.outputs := rfl
@[simp] theorem State.mapTether_events (f : TetherS → TetherS) : (s.mapTether f).events = s.events := rfl
@[simp] theorem State.mapTether_eventLimit (f : TetherS → TetherS) : (s.mapTether f).eventLimit = s.eventLimit := rfl
@[simp] theorem State.mapTether_time (f : TetherS → TetherS) : (s.mapTether f).time = s.time := rfl
@[simp] theorem State.mapTether_reel (f : TetherS → TetherS) : (s.mapTether f).reel = s.reel := rfl
@[simp] theorem State.mapTether_targets (f : TetherS → TetherS) : (s.mapTether f).targets = s.targets := rfl
@[simp] theorem State.mapTether_ports (f : TetherS → TetherS) : (s.mapTether f).ports = s.ports := rfl
@[simp] theorem State.mapTether_lidars (f : TetherS → TetherS) : (s.mapTether f).lidars = s.lidars := rfl
@[simp] theorem State.mapTether_filters (f : TetherS → TetherS) : (s.mapTether f).filters = s.filters := rfl
@[simp] theorem State.mapTether_imu0 (f : TetherS → TetherS) : (s.mapTether f).imu0 = s.imu0 := rfl
@[simp] theorem State.mapTether_streams (f : TetherS → TetherS) : (s.mapTether f).streams = s.streams := rfl
@[simp] theorem State.mapTether_engines (f : TetherS → TetherS) : (s.mapTether f).engines = s.engines := rfl
@[simp] theorem State.mapTether_quad (f : TetherS → TetherS) : (s.mapTether f).quad = s.quad := rfl
@[simp] theorem State.mapTether_ctxs (f : TetherS → TetherS) : (s.mapTether f).ctxs = s.ctxs := rfl
@[simp] theorem State.mapTether_nextSession (f : TetherS → TetherS) : (s.mapTether f).nextSession = s.nextSession := rfl
@[simp] theorem State.mapTether_held (f : TetherS → TetherS) : (s.mapTether f).held = s.held := rfl
@[simp] theorem State.mapTether_linkDownTick (f : TetherS → TetherS) : (s.mapTether f).linkDownTick = s.linkDownTick := rfl
@[simp] theorem State.mapTether_maps (f : TetherS → TetherS) : (s.mapTether f).maps = s.maps := rfl
@[simp] theorem State.mapTether_queries (f : TetherS → TetherS) : (s.mapTether f).queries = s.queries := rfl
@[simp] theorem State.mapTether_nextQuery (f : TetherS → TetherS) : (s.mapTether f).nextQuery = s.nextQuery := rfl
@[simp] theorem State.mapTether_tiles (f : TetherS → TetherS) : (s.mapTether f).tiles = s.tiles := rfl
@[simp] theorem State.mapTether_bands (f : TetherS → TetherS) : (s.mapTether f).bands = s.bands := rfl
@[simp] theorem State.mapTether_rvs (f : TetherS → TetherS) : (s.mapTether f).rvs = s.rvs := rfl
@[simp] theorem State.mapTether_commons (f : TetherS → TetherS) : (s.mapTether f).commons = s.commons := rfl
@[simp] theorem State.mapTether_objs (f : TetherS → TetherS) : (s.mapTether f).objs = s.objs := rfl
@[simp] theorem State.mapTether_reuse (f : TetherS → TetherS) : (s.mapTether f).reuse = s.reuse := rfl
@[simp] theorem State.mapTether_jobs (f : TetherS → TetherS) : (s.mapTether f).jobs = s.jobs := rfl
@[simp] theorem State.mapTether_jobSeq (f : TetherS → TetherS) : (s.mapTether f).jobSeq = s.jobSeq := rfl
@[simp] theorem State.mapTether_pairs (f : TetherS → TetherS) : (s.mapTether f).pairs = s.pairs := rfl
@[simp] theorem State.mapTether_power (f : TetherS → TetherS) : (s.mapTether f).power = s.power := rfl
@[simp] theorem State.mapTether_sources (f : TetherS → TetherS) : (s.mapTether f).sources = s.sources := rfl
@[simp] theorem State.mapTether_islands (f : TetherS → TetherS) : (s.mapTether f).islands = s.islands := rfl
@[simp] theorem State.mapTether_dep (f : TetherS → TetherS) : (s.mapTether f).dep = s.dep := rfl
@[simp] theorem State.mapTether_age (f : TetherS → TetherS) : (s.mapTether f).age = s.age := rfl
@[simp] theorem State.mapTether_sec (f : TetherS → TetherS) : (s.mapTether f).sec = s.sec := rfl
@[simp] theorem State.mapTether_epoch (f : TetherS → TetherS) : (s.mapTether f).epoch = s.epoch := rfl
@[simp] theorem State.mapTether_free (f : TetherS → TetherS) : (s.mapTether f).free = s.free := rfl

/-! ### `updFn` -/

@[simp] theorem State.updFn_pending (n : Nat) (f : FnRegs → FnRegs) : (s.updFn n f).pending = s.pending := rfl
@[simp] theorem State.updFn_cmds (n : Nat) (f : FnRegs → FnRegs) : (s.updFn n f).cmds = s.cmds := rfl
@[simp] theorem State.updFn_fns (n : Nat) (f : FnRegs → FnRegs) : (s.updFn n f).fns = Tab.upd s.fns n {} f := rfl
@[simp] theorem State.updFn_tether (n : Nat) (f : FnRegs → FnRegs) : (s.updFn n f).tether = s.tether := rfl
@[simp] theorem State.updFn_outbox (n : Nat) (f : FnRegs → FnRegs) : (s.updFn n f).outbox = s.outbox := rfl
@[simp] theorem State.updFn_hostMem (n : Nat) (f : FnRegs → FnRegs) : (s.updFn n f).hostMem = s.hostMem := rfl
@[simp] theorem State.updFn_hostBad (n : Nat) (f : FnRegs → FnRegs) : (s.updFn n f).hostBad = s.hostBad := rfl
@[simp] theorem State.updFn_life (n : Nat) (f : FnRegs → FnRegs) : (s.updFn n f).life = s.life := rfl
@[simp] theorem State.updFn_outputs (n : Nat) (f : FnRegs → FnRegs) : (s.updFn n f).outputs = s.outputs := rfl
@[simp] theorem State.updFn_events (n : Nat) (f : FnRegs → FnRegs) : (s.updFn n f).events = s.events := rfl
@[simp] theorem State.updFn_eventLimit (n : Nat) (f : FnRegs → FnRegs) : (s.updFn n f).eventLimit = s.eventLimit := rfl
@[simp] theorem State.updFn_time (n : Nat) (f : FnRegs → FnRegs) : (s.updFn n f).time = s.time := rfl
@[simp] theorem State.updFn_reel (n : Nat) (f : FnRegs → FnRegs) : (s.updFn n f).reel = s.reel := rfl
@[simp] theorem State.updFn_targets (n : Nat) (f : FnRegs → FnRegs) : (s.updFn n f).targets = s.targets := rfl
@[simp] theorem State.updFn_ports (n : Nat) (f : FnRegs → FnRegs) : (s.updFn n f).ports = s.ports := rfl
@[simp] theorem State.updFn_lidars (n : Nat) (f : FnRegs → FnRegs) : (s.updFn n f).lidars = s.lidars := rfl
@[simp] theorem State.updFn_filters (n : Nat) (f : FnRegs → FnRegs) : (s.updFn n f).filters = s.filters := rfl
@[simp] theorem State.updFn_imu0 (n : Nat) (f : FnRegs → FnRegs) : (s.updFn n f).imu0 = s.imu0 := rfl
@[simp] theorem State.updFn_streams (n : Nat) (f : FnRegs → FnRegs) : (s.updFn n f).streams = s.streams := rfl
@[simp] theorem State.updFn_engines (n : Nat) (f : FnRegs → FnRegs) : (s.updFn n f).engines = s.engines := rfl
@[simp] theorem State.updFn_quad (n : Nat) (f : FnRegs → FnRegs) : (s.updFn n f).quad = s.quad := rfl
@[simp] theorem State.updFn_ctxs (n : Nat) (f : FnRegs → FnRegs) : (s.updFn n f).ctxs = s.ctxs := rfl
@[simp] theorem State.updFn_nextSession (n : Nat) (f : FnRegs → FnRegs) : (s.updFn n f).nextSession = s.nextSession := rfl
@[simp] theorem State.updFn_held (n : Nat) (f : FnRegs → FnRegs) : (s.updFn n f).held = s.held := rfl
@[simp] theorem State.updFn_linkDownTick (n : Nat) (f : FnRegs → FnRegs) : (s.updFn n f).linkDownTick = s.linkDownTick := rfl
@[simp] theorem State.updFn_maps (n : Nat) (f : FnRegs → FnRegs) : (s.updFn n f).maps = s.maps := rfl
@[simp] theorem State.updFn_queries (n : Nat) (f : FnRegs → FnRegs) : (s.updFn n f).queries = s.queries := rfl
@[simp] theorem State.updFn_nextQuery (n : Nat) (f : FnRegs → FnRegs) : (s.updFn n f).nextQuery = s.nextQuery := rfl
@[simp] theorem State.updFn_tiles (n : Nat) (f : FnRegs → FnRegs) : (s.updFn n f).tiles = s.tiles := rfl
@[simp] theorem State.updFn_bands (n : Nat) (f : FnRegs → FnRegs) : (s.updFn n f).bands = s.bands := rfl
@[simp] theorem State.updFn_rvs (n : Nat) (f : FnRegs → FnRegs) : (s.updFn n f).rvs = s.rvs := rfl
@[simp] theorem State.updFn_commons (n : Nat) (f : FnRegs → FnRegs) : (s.updFn n f).commons = s.commons := rfl
@[simp] theorem State.updFn_objs (n : Nat) (f : FnRegs → FnRegs) : (s.updFn n f).objs = s.objs := rfl
@[simp] theorem State.updFn_reuse (n : Nat) (f : FnRegs → FnRegs) : (s.updFn n f).reuse = s.reuse := rfl
@[simp] theorem State.updFn_jobs (n : Nat) (f : FnRegs → FnRegs) : (s.updFn n f).jobs = s.jobs := rfl
@[simp] theorem State.updFn_jobSeq (n : Nat) (f : FnRegs → FnRegs) : (s.updFn n f).jobSeq = s.jobSeq := rfl
@[simp] theorem State.updFn_pairs (n : Nat) (f : FnRegs → FnRegs) : (s.updFn n f).pairs = s.pairs := rfl
@[simp] theorem State.updFn_power (n : Nat) (f : FnRegs → FnRegs) : (s.updFn n f).power = s.power := rfl
@[simp] theorem State.updFn_sources (n : Nat) (f : FnRegs → FnRegs) : (s.updFn n f).sources = s.sources := rfl
@[simp] theorem State.updFn_islands (n : Nat) (f : FnRegs → FnRegs) : (s.updFn n f).islands = s.islands := rfl
@[simp] theorem State.updFn_dep (n : Nat) (f : FnRegs → FnRegs) : (s.updFn n f).dep = s.dep := rfl
@[simp] theorem State.updFn_age (n : Nat) (f : FnRegs → FnRegs) : (s.updFn n f).age = s.age := rfl
@[simp] theorem State.updFn_sec (n : Nat) (f : FnRegs → FnRegs) : (s.updFn n f).sec = s.sec := rfl
@[simp] theorem State.updFn_epoch (n : Nat) (f : FnRegs → FnRegs) : (s.updFn n f).epoch = s.epoch := rfl
@[simp] theorem State.updFn_free (n : Nat) (f : FnRegs → FnRegs) : (s.updFn n f).free = s.free := rfl

/-! ### `updCtx` -/

@[simp] theorem State.updCtx_pending (n : Nat) (f : CtxS → CtxS) : (s.updCtx n f).pending = s.pending := rfl
@[simp] theorem State.updCtx_cmds (n : Nat) (f : CtxS → CtxS) : (s.updCtx n f).cmds = s.cmds := rfl
@[simp] theorem State.updCtx_fns (n : Nat) (f : CtxS → CtxS) : (s.updCtx n f).fns = s.fns := rfl
@[simp] theorem State.updCtx_tether (n : Nat) (f : CtxS → CtxS) : (s.updCtx n f).tether = s.tether := rfl
@[simp] theorem State.updCtx_outbox (n : Nat) (f : CtxS → CtxS) : (s.updCtx n f).outbox = s.outbox := rfl
@[simp] theorem State.updCtx_hostMem (n : Nat) (f : CtxS → CtxS) : (s.updCtx n f).hostMem = s.hostMem := rfl
@[simp] theorem State.updCtx_hostBad (n : Nat) (f : CtxS → CtxS) : (s.updCtx n f).hostBad = s.hostBad := rfl
@[simp] theorem State.updCtx_life (n : Nat) (f : CtxS → CtxS) : (s.updCtx n f).life = s.life := rfl
@[simp] theorem State.updCtx_outputs (n : Nat) (f : CtxS → CtxS) : (s.updCtx n f).outputs = s.outputs := rfl
@[simp] theorem State.updCtx_events (n : Nat) (f : CtxS → CtxS) : (s.updCtx n f).events = s.events := rfl
@[simp] theorem State.updCtx_eventLimit (n : Nat) (f : CtxS → CtxS) : (s.updCtx n f).eventLimit = s.eventLimit := rfl
@[simp] theorem State.updCtx_time (n : Nat) (f : CtxS → CtxS) : (s.updCtx n f).time = s.time := rfl
@[simp] theorem State.updCtx_reel (n : Nat) (f : CtxS → CtxS) : (s.updCtx n f).reel = s.reel := rfl
@[simp] theorem State.updCtx_targets (n : Nat) (f : CtxS → CtxS) : (s.updCtx n f).targets = s.targets := rfl
@[simp] theorem State.updCtx_ports (n : Nat) (f : CtxS → CtxS) : (s.updCtx n f).ports = s.ports := rfl
@[simp] theorem State.updCtx_lidars (n : Nat) (f : CtxS → CtxS) : (s.updCtx n f).lidars = s.lidars := rfl
@[simp] theorem State.updCtx_filters (n : Nat) (f : CtxS → CtxS) : (s.updCtx n f).filters = s.filters := rfl
@[simp] theorem State.updCtx_imu0 (n : Nat) (f : CtxS → CtxS) : (s.updCtx n f).imu0 = s.imu0 := rfl
@[simp] theorem State.updCtx_streams (n : Nat) (f : CtxS → CtxS) : (s.updCtx n f).streams = s.streams := rfl
@[simp] theorem State.updCtx_engines (n : Nat) (f : CtxS → CtxS) : (s.updCtx n f).engines = s.engines := rfl
@[simp] theorem State.updCtx_quad (n : Nat) (f : CtxS → CtxS) : (s.updCtx n f).quad = s.quad := rfl
@[simp] theorem State.updCtx_ctxs (n : Nat) (f : CtxS → CtxS) : (s.updCtx n f).ctxs = Tab.upd s.ctxs n {} f := rfl
@[simp] theorem State.updCtx_nextSession (n : Nat) (f : CtxS → CtxS) : (s.updCtx n f).nextSession = s.nextSession := rfl
@[simp] theorem State.updCtx_held (n : Nat) (f : CtxS → CtxS) : (s.updCtx n f).held = s.held := rfl
@[simp] theorem State.updCtx_linkDownTick (n : Nat) (f : CtxS → CtxS) : (s.updCtx n f).linkDownTick = s.linkDownTick := rfl
@[simp] theorem State.updCtx_maps (n : Nat) (f : CtxS → CtxS) : (s.updCtx n f).maps = s.maps := rfl
@[simp] theorem State.updCtx_queries (n : Nat) (f : CtxS → CtxS) : (s.updCtx n f).queries = s.queries := rfl
@[simp] theorem State.updCtx_nextQuery (n : Nat) (f : CtxS → CtxS) : (s.updCtx n f).nextQuery = s.nextQuery := rfl
@[simp] theorem State.updCtx_tiles (n : Nat) (f : CtxS → CtxS) : (s.updCtx n f).tiles = s.tiles := rfl
@[simp] theorem State.updCtx_bands (n : Nat) (f : CtxS → CtxS) : (s.updCtx n f).bands = s.bands := rfl
@[simp] theorem State.updCtx_rvs (n : Nat) (f : CtxS → CtxS) : (s.updCtx n f).rvs = s.rvs := rfl
@[simp] theorem State.updCtx_commons (n : Nat) (f : CtxS → CtxS) : (s.updCtx n f).commons = s.commons := rfl
@[simp] theorem State.updCtx_objs (n : Nat) (f : CtxS → CtxS) : (s.updCtx n f).objs = s.objs := rfl
@[simp] theorem State.updCtx_reuse (n : Nat) (f : CtxS → CtxS) : (s.updCtx n f).reuse = s.reuse := rfl
@[simp] theorem State.updCtx_jobs (n : Nat) (f : CtxS → CtxS) : (s.updCtx n f).jobs = s.jobs := rfl
@[simp] theorem State.updCtx_jobSeq (n : Nat) (f : CtxS → CtxS) : (s.updCtx n f).jobSeq = s.jobSeq := rfl
@[simp] theorem State.updCtx_pairs (n : Nat) (f : CtxS → CtxS) : (s.updCtx n f).pairs = s.pairs := rfl
@[simp] theorem State.updCtx_power (n : Nat) (f : CtxS → CtxS) : (s.updCtx n f).power = s.power := rfl
@[simp] theorem State.updCtx_sources (n : Nat) (f : CtxS → CtxS) : (s.updCtx n f).sources = s.sources := rfl
@[simp] theorem State.updCtx_islands (n : Nat) (f : CtxS → CtxS) : (s.updCtx n f).islands = s.islands := rfl
@[simp] theorem State.updCtx_dep (n : Nat) (f : CtxS → CtxS) : (s.updCtx n f).dep = s.dep := rfl
@[simp] theorem State.updCtx_age (n : Nat) (f : CtxS → CtxS) : (s.updCtx n f).age = s.age := rfl
@[simp] theorem State.updCtx_sec (n : Nat) (f : CtxS → CtxS) : (s.updCtx n f).sec = s.sec := rfl
@[simp] theorem State.updCtx_epoch (n : Nat) (f : CtxS → CtxS) : (s.updCtx n f).epoch = s.epoch := rfl
@[simp] theorem State.updCtx_free (n : Nat) (f : CtxS → CtxS) : (s.updCtx n f).free = s.free := rfl

/-! ### `updPort` -/

@[simp] theorem State.updPort_pending (n : Nat) (f : PortS → PortS) : (s.updPort n f).pending = s.pending := rfl
@[simp] theorem State.updPort_cmds (n : Nat) (f : PortS → PortS) : (s.updPort n f).cmds = s.cmds := rfl
@[simp] theorem State.updPort_fns (n : Nat) (f : PortS → PortS) : (s.updPort n f).fns = s.fns := rfl
@[simp] theorem State.updPort_tether (n : Nat) (f : PortS → PortS) : (s.updPort n f).tether = s.tether := rfl
@[simp] theorem State.updPort_outbox (n : Nat) (f : PortS → PortS) : (s.updPort n f).outbox = s.outbox := rfl
@[simp] theorem State.updPort_hostMem (n : Nat) (f : PortS → PortS) : (s.updPort n f).hostMem = s.hostMem := rfl
@[simp] theorem State.updPort_hostBad (n : Nat) (f : PortS → PortS) : (s.updPort n f).hostBad = s.hostBad := rfl
@[simp] theorem State.updPort_life (n : Nat) (f : PortS → PortS) : (s.updPort n f).life = s.life := rfl
@[simp] theorem State.updPort_outputs (n : Nat) (f : PortS → PortS) : (s.updPort n f).outputs = s.outputs := rfl
@[simp] theorem State.updPort_events (n : Nat) (f : PortS → PortS) : (s.updPort n f).events = s.events := rfl
@[simp] theorem State.updPort_eventLimit (n : Nat) (f : PortS → PortS) : (s.updPort n f).eventLimit = s.eventLimit := rfl
@[simp] theorem State.updPort_time (n : Nat) (f : PortS → PortS) : (s.updPort n f).time = s.time := rfl
@[simp] theorem State.updPort_reel (n : Nat) (f : PortS → PortS) : (s.updPort n f).reel = s.reel := rfl
@[simp] theorem State.updPort_targets (n : Nat) (f : PortS → PortS) : (s.updPort n f).targets = s.targets := rfl
@[simp] theorem State.updPort_ports (n : Nat) (f : PortS → PortS) : (s.updPort n f).ports = Tab.upd s.ports n {} f := rfl
@[simp] theorem State.updPort_lidars (n : Nat) (f : PortS → PortS) : (s.updPort n f).lidars = s.lidars := rfl
@[simp] theorem State.updPort_filters (n : Nat) (f : PortS → PortS) : (s.updPort n f).filters = s.filters := rfl
@[simp] theorem State.updPort_imu0 (n : Nat) (f : PortS → PortS) : (s.updPort n f).imu0 = s.imu0 := rfl
@[simp] theorem State.updPort_streams (n : Nat) (f : PortS → PortS) : (s.updPort n f).streams = s.streams := rfl
@[simp] theorem State.updPort_engines (n : Nat) (f : PortS → PortS) : (s.updPort n f).engines = s.engines := rfl
@[simp] theorem State.updPort_quad (n : Nat) (f : PortS → PortS) : (s.updPort n f).quad = s.quad := rfl
@[simp] theorem State.updPort_ctxs (n : Nat) (f : PortS → PortS) : (s.updPort n f).ctxs = s.ctxs := rfl
@[simp] theorem State.updPort_nextSession (n : Nat) (f : PortS → PortS) : (s.updPort n f).nextSession = s.nextSession := rfl
@[simp] theorem State.updPort_held (n : Nat) (f : PortS → PortS) : (s.updPort n f).held = s.held := rfl
@[simp] theorem State.updPort_linkDownTick (n : Nat) (f : PortS → PortS) : (s.updPort n f).linkDownTick = s.linkDownTick := rfl
@[simp] theorem State.updPort_maps (n : Nat) (f : PortS → PortS) : (s.updPort n f).maps = s.maps := rfl
@[simp] theorem State.updPort_queries (n : Nat) (f : PortS → PortS) : (s.updPort n f).queries = s.queries := rfl
@[simp] theorem State.updPort_nextQuery (n : Nat) (f : PortS → PortS) : (s.updPort n f).nextQuery = s.nextQuery := rfl
@[simp] theorem State.updPort_tiles (n : Nat) (f : PortS → PortS) : (s.updPort n f).tiles = s.tiles := rfl
@[simp] theorem State.updPort_bands (n : Nat) (f : PortS → PortS) : (s.updPort n f).bands = s.bands := rfl
@[simp] theorem State.updPort_rvs (n : Nat) (f : PortS → PortS) : (s.updPort n f).rvs = s.rvs := rfl
@[simp] theorem State.updPort_commons (n : Nat) (f : PortS → PortS) : (s.updPort n f).commons = s.commons := rfl
@[simp] theorem State.updPort_objs (n : Nat) (f : PortS → PortS) : (s.updPort n f).objs = s.objs := rfl
@[simp] theorem State.updPort_reuse (n : Nat) (f : PortS → PortS) : (s.updPort n f).reuse = s.reuse := rfl
@[simp] theorem State.updPort_jobs (n : Nat) (f : PortS → PortS) : (s.updPort n f).jobs = s.jobs := rfl
@[simp] theorem State.updPort_jobSeq (n : Nat) (f : PortS → PortS) : (s.updPort n f).jobSeq = s.jobSeq := rfl
@[simp] theorem State.updPort_pairs (n : Nat) (f : PortS → PortS) : (s.updPort n f).pairs = s.pairs := rfl
@[simp] theorem State.updPort_power (n : Nat) (f : PortS → PortS) : (s.updPort n f).power = s.power := rfl
@[simp] theorem State.updPort_sources (n : Nat) (f : PortS → PortS) : (s.updPort n f).sources = s.sources := rfl
@[simp] theorem State.updPort_islands (n : Nat) (f : PortS → PortS) : (s.updPort n f).islands = s.islands := rfl
@[simp] theorem State.updPort_dep (n : Nat) (f : PortS → PortS) : (s.updPort n f).dep = s.dep := rfl
@[simp] theorem State.updPort_age (n : Nat) (f : PortS → PortS) : (s.updPort n f).age = s.age := rfl
@[simp] theorem State.updPort_sec (n : Nat) (f : PortS → PortS) : (s.updPort n f).sec = s.sec := rfl
@[simp] theorem State.updPort_epoch (n : Nat) (f : PortS → PortS) : (s.updPort n f).epoch = s.epoch := rfl
@[simp] theorem State.updPort_free (n : Nat) (f : PortS → PortS) : (s.updPort n f).free = s.free := rfl

/-! ### `updChan` -/

@[simp] theorem State.updChan_pending (n : Nat) (f : ChannelS → ChannelS) : (s.updChan n f).pending = s.pending := rfl
@[simp] theorem State.updChan_cmds (n : Nat) (f : ChannelS → ChannelS) : (s.updChan n f).cmds = s.cmds := rfl
@[simp] theorem State.updChan_fns (n : Nat) (f : ChannelS → ChannelS) : (s.updChan n f).fns = s.fns := rfl
@[simp] theorem State.updChan_tether (n : Nat) (f : ChannelS → ChannelS) : (s.updChan n f).tether = s.tether := rfl
@[simp] theorem State.updChan_outbox (n : Nat) (f : ChannelS → ChannelS) : (s.updChan n f).outbox = s.outbox := rfl
@[simp] theorem State.updChan_hostMem (n : Nat) (f : ChannelS → ChannelS) : (s.updChan n f).hostMem = s.hostMem := rfl
@[simp] theorem State.updChan_hostBad (n : Nat) (f : ChannelS → ChannelS) : (s.updChan n f).hostBad = s.hostBad := rfl
@[simp] theorem State.updChan_life (n : Nat) (f : ChannelS → ChannelS) : (s.updChan n f).life = s.life := rfl
@[simp] theorem State.updChan_outputs (n : Nat) (f : ChannelS → ChannelS) : (s.updChan n f).outputs = s.outputs := rfl
@[simp] theorem State.updChan_events (n : Nat) (f : ChannelS → ChannelS) : (s.updChan n f).events = s.events := rfl
@[simp] theorem State.updChan_eventLimit (n : Nat) (f : ChannelS → ChannelS) : (s.updChan n f).eventLimit = s.eventLimit := rfl
@[simp] theorem State.updChan_time (n : Nat) (f : ChannelS → ChannelS) : (s.updChan n f).time = s.time := rfl
@[simp] theorem State.updChan_reel (n : Nat) (f : ChannelS → ChannelS) : (s.updChan n f).reel = s.reel := rfl
@[simp] theorem State.updChan_targets (n : Nat) (f : ChannelS → ChannelS) : (s.updChan n f).targets = s.targets := rfl
@[simp] theorem State.updChan_ports (n : Nat) (f : ChannelS → ChannelS) : (s.updChan n f).ports = s.ports := rfl
@[simp] theorem State.updChan_lidars (n : Nat) (f : ChannelS → ChannelS) : (s.updChan n f).lidars = s.lidars := rfl
@[simp] theorem State.updChan_filters (n : Nat) (f : ChannelS → ChannelS) : (s.updChan n f).filters = Tab.upd s.filters n {} f := rfl
@[simp] theorem State.updChan_imu0 (n : Nat) (f : ChannelS → ChannelS) : (s.updChan n f).imu0 = s.imu0 := rfl
@[simp] theorem State.updChan_streams (n : Nat) (f : ChannelS → ChannelS) : (s.updChan n f).streams = s.streams := rfl
@[simp] theorem State.updChan_engines (n : Nat) (f : ChannelS → ChannelS) : (s.updChan n f).engines = s.engines := rfl
@[simp] theorem State.updChan_quad (n : Nat) (f : ChannelS → ChannelS) : (s.updChan n f).quad = s.quad := rfl
@[simp] theorem State.updChan_ctxs (n : Nat) (f : ChannelS → ChannelS) : (s.updChan n f).ctxs = s.ctxs := rfl
@[simp] theorem State.updChan_nextSession (n : Nat) (f : ChannelS → ChannelS) : (s.updChan n f).nextSession = s.nextSession := rfl
@[simp] theorem State.updChan_held (n : Nat) (f : ChannelS → ChannelS) : (s.updChan n f).held = s.held := rfl
@[simp] theorem State.updChan_linkDownTick (n : Nat) (f : ChannelS → ChannelS) : (s.updChan n f).linkDownTick = s.linkDownTick := rfl
@[simp] theorem State.updChan_maps (n : Nat) (f : ChannelS → ChannelS) : (s.updChan n f).maps = s.maps := rfl
@[simp] theorem State.updChan_queries (n : Nat) (f : ChannelS → ChannelS) : (s.updChan n f).queries = s.queries := rfl
@[simp] theorem State.updChan_nextQuery (n : Nat) (f : ChannelS → ChannelS) : (s.updChan n f).nextQuery = s.nextQuery := rfl
@[simp] theorem State.updChan_tiles (n : Nat) (f : ChannelS → ChannelS) : (s.updChan n f).tiles = s.tiles := rfl
@[simp] theorem State.updChan_bands (n : Nat) (f : ChannelS → ChannelS) : (s.updChan n f).bands = s.bands := rfl
@[simp] theorem State.updChan_rvs (n : Nat) (f : ChannelS → ChannelS) : (s.updChan n f).rvs = s.rvs := rfl
@[simp] theorem State.updChan_commons (n : Nat) (f : ChannelS → ChannelS) : (s.updChan n f).commons = s.commons := rfl
@[simp] theorem State.updChan_objs (n : Nat) (f : ChannelS → ChannelS) : (s.updChan n f).objs = s.objs := rfl
@[simp] theorem State.updChan_reuse (n : Nat) (f : ChannelS → ChannelS) : (s.updChan n f).reuse = s.reuse := rfl
@[simp] theorem State.updChan_jobs (n : Nat) (f : ChannelS → ChannelS) : (s.updChan n f).jobs = s.jobs := rfl
@[simp] theorem State.updChan_jobSeq (n : Nat) (f : ChannelS → ChannelS) : (s.updChan n f).jobSeq = s.jobSeq := rfl
@[simp] theorem State.updChan_pairs (n : Nat) (f : ChannelS → ChannelS) : (s.updChan n f).pairs = s.pairs := rfl
@[simp] theorem State.updChan_power (n : Nat) (f : ChannelS → ChannelS) : (s.updChan n f).power = s.power := rfl
@[simp] theorem State.updChan_sources (n : Nat) (f : ChannelS → ChannelS) : (s.updChan n f).sources = s.sources := rfl
@[simp] theorem State.updChan_islands (n : Nat) (f : ChannelS → ChannelS) : (s.updChan n f).islands = s.islands := rfl
@[simp] theorem State.updChan_dep (n : Nat) (f : ChannelS → ChannelS) : (s.updChan n f).dep = s.dep := rfl
@[simp] theorem State.updChan_age (n : Nat) (f : ChannelS → ChannelS) : (s.updChan n f).age = s.age := rfl
@[simp] theorem State.updChan_sec (n : Nat) (f : ChannelS → ChannelS) : (s.updChan n f).sec = s.sec := rfl
@[simp] theorem State.updChan_epoch (n : Nat) (f : ChannelS → ChannelS) : (s.updChan n f).epoch = s.epoch := rfl
@[simp] theorem State.updChan_free (n : Nat) (f : ChannelS → ChannelS) : (s.updChan n f).free = s.free := rfl

/-! ### `updReel` -/

@[simp] theorem State.updReel_pending (n : Nat) (f : ReelEntry → ReelEntry) : (s.updReel n f).pending = s.pending := rfl
@[simp] theorem State.updReel_cmds (n : Nat) (f : ReelEntry → ReelEntry) : (s.updReel n f).cmds = s.cmds := rfl
@[simp] theorem State.updReel_fns (n : Nat) (f : ReelEntry → ReelEntry) : (s.updReel n f).fns = s.fns := rfl
@[simp] theorem State.updReel_tether (n : Nat) (f : ReelEntry → ReelEntry) : (s.updReel n f).tether = s.tether := rfl
@[simp] theorem State.updReel_outbox (n : Nat) (f : ReelEntry → ReelEntry) : (s.updReel n f).outbox = s.outbox := rfl
@[simp] theorem State.updReel_hostMem (n : Nat) (f : ReelEntry → ReelEntry) : (s.updReel n f).hostMem = s.hostMem := rfl
@[simp] theorem State.updReel_hostBad (n : Nat) (f : ReelEntry → ReelEntry) : (s.updReel n f).hostBad = s.hostBad := rfl
@[simp] theorem State.updReel_life (n : Nat) (f : ReelEntry → ReelEntry) : (s.updReel n f).life = s.life := rfl
@[simp] theorem State.updReel_outputs (n : Nat) (f : ReelEntry → ReelEntry) : (s.updReel n f).outputs = s.outputs := rfl
@[simp] theorem State.updReel_events (n : Nat) (f : ReelEntry → ReelEntry) : (s.updReel n f).events = s.events := rfl
@[simp] theorem State.updReel_eventLimit (n : Nat) (f : ReelEntry → ReelEntry) : (s.updReel n f).eventLimit = s.eventLimit := rfl
@[simp] theorem State.updReel_time (n : Nat) (f : ReelEntry → ReelEntry) : (s.updReel n f).time = s.time := rfl
@[simp] theorem State.updReel_reel (n : Nat) (f : ReelEntry → ReelEntry) : (s.updReel n f).reel = Tab.upd s.reel n {} f := rfl
@[simp] theorem State.updReel_targets (n : Nat) (f : ReelEntry → ReelEntry) : (s.updReel n f).targets = s.targets := rfl
@[simp] theorem State.updReel_ports (n : Nat) (f : ReelEntry → ReelEntry) : (s.updReel n f).ports = s.ports := rfl
@[simp] theorem State.updReel_lidars (n : Nat) (f : ReelEntry → ReelEntry) : (s.updReel n f).lidars = s.lidars := rfl
@[simp] theorem State.updReel_filters (n : Nat) (f : ReelEntry → ReelEntry) : (s.updReel n f).filters = s.filters := rfl
@[simp] theorem State.updReel_imu0 (n : Nat) (f : ReelEntry → ReelEntry) : (s.updReel n f).imu0 = s.imu0 := rfl
@[simp] theorem State.updReel_streams (n : Nat) (f : ReelEntry → ReelEntry) : (s.updReel n f).streams = s.streams := rfl
@[simp] theorem State.updReel_engines (n : Nat) (f : ReelEntry → ReelEntry) : (s.updReel n f).engines = s.engines := rfl
@[simp] theorem State.updReel_quad (n : Nat) (f : ReelEntry → ReelEntry) : (s.updReel n f).quad = s.quad := rfl
@[simp] theorem State.updReel_ctxs (n : Nat) (f : ReelEntry → ReelEntry) : (s.updReel n f).ctxs = s.ctxs := rfl
@[simp] theorem State.updReel_nextSession (n : Nat) (f : ReelEntry → ReelEntry) : (s.updReel n f).nextSession = s.nextSession := rfl
@[simp] theorem State.updReel_held (n : Nat) (f : ReelEntry → ReelEntry) : (s.updReel n f).held = s.held := rfl
@[simp] theorem State.updReel_linkDownTick (n : Nat) (f : ReelEntry → ReelEntry) : (s.updReel n f).linkDownTick = s.linkDownTick := rfl
@[simp] theorem State.updReel_maps (n : Nat) (f : ReelEntry → ReelEntry) : (s.updReel n f).maps = s.maps := rfl
@[simp] theorem State.updReel_queries (n : Nat) (f : ReelEntry → ReelEntry) : (s.updReel n f).queries = s.queries := rfl
@[simp] theorem State.updReel_nextQuery (n : Nat) (f : ReelEntry → ReelEntry) : (s.updReel n f).nextQuery = s.nextQuery := rfl
@[simp] theorem State.updReel_tiles (n : Nat) (f : ReelEntry → ReelEntry) : (s.updReel n f).tiles = s.tiles := rfl
@[simp] theorem State.updReel_bands (n : Nat) (f : ReelEntry → ReelEntry) : (s.updReel n f).bands = s.bands := rfl
@[simp] theorem State.updReel_rvs (n : Nat) (f : ReelEntry → ReelEntry) : (s.updReel n f).rvs = s.rvs := rfl
@[simp] theorem State.updReel_commons (n : Nat) (f : ReelEntry → ReelEntry) : (s.updReel n f).commons = s.commons := rfl
@[simp] theorem State.updReel_objs (n : Nat) (f : ReelEntry → ReelEntry) : (s.updReel n f).objs = s.objs := rfl
@[simp] theorem State.updReel_reuse (n : Nat) (f : ReelEntry → ReelEntry) : (s.updReel n f).reuse = s.reuse := rfl
@[simp] theorem State.updReel_jobs (n : Nat) (f : ReelEntry → ReelEntry) : (s.updReel n f).jobs = s.jobs := rfl
@[simp] theorem State.updReel_jobSeq (n : Nat) (f : ReelEntry → ReelEntry) : (s.updReel n f).jobSeq = s.jobSeq := rfl
@[simp] theorem State.updReel_pairs (n : Nat) (f : ReelEntry → ReelEntry) : (s.updReel n f).pairs = s.pairs := rfl
@[simp] theorem State.updReel_power (n : Nat) (f : ReelEntry → ReelEntry) : (s.updReel n f).power = s.power := rfl
@[simp] theorem State.updReel_sources (n : Nat) (f : ReelEntry → ReelEntry) : (s.updReel n f).sources = s.sources := rfl
@[simp] theorem State.updReel_islands (n : Nat) (f : ReelEntry → ReelEntry) : (s.updReel n f).islands = s.islands := rfl
@[simp] theorem State.updReel_dep (n : Nat) (f : ReelEntry → ReelEntry) : (s.updReel n f).dep = s.dep := rfl
@[simp] theorem State.updReel_age (n : Nat) (f : ReelEntry → ReelEntry) : (s.updReel n f).age = s.age := rfl
@[simp] theorem State.updReel_sec (n : Nat) (f : ReelEntry → ReelEntry) : (s.updReel n f).sec = s.sec := rfl
@[simp] theorem State.updReel_epoch (n : Nat) (f : ReelEntry → ReelEntry) : (s.updReel n f).epoch = s.epoch := rfl
@[simp] theorem State.updReel_free (n : Nat) (f : ReelEntry → ReelEntry) : (s.updReel n f).free = s.free := rfl

/-! ### `updTile` -/

@[simp] theorem State.updTile_pending (n : Nat) (f : TileS → TileS) : (s.updTile n f).pending = s.pending := rfl
@[simp] theorem State.updTile_cmds (n : Nat) (f : TileS → TileS) : (s.updTile n f).cmds = s.cmds := rfl
@[simp] theorem State.updTile_fns (n : Nat) (f : TileS → TileS) : (s.updTile n f).fns = s.fns := rfl
@[simp] theorem State.updTile_tether (n : Nat) (f : TileS → TileS) : (s.updTile n f).tether = s.tether := rfl
@[simp] theorem State.updTile_outbox (n : Nat) (f : TileS → TileS) : (s.updTile n f).outbox = s.outbox := rfl
@[simp] theorem State.updTile_hostMem (n : Nat) (f : TileS → TileS) : (s.updTile n f).hostMem = s.hostMem := rfl
@[simp] theorem State.updTile_hostBad (n : Nat) (f : TileS → TileS) : (s.updTile n f).hostBad = s.hostBad := rfl
@[simp] theorem State.updTile_life (n : Nat) (f : TileS → TileS) : (s.updTile n f).life = s.life := rfl
@[simp] theorem State.updTile_outputs (n : Nat) (f : TileS → TileS) : (s.updTile n f).outputs = s.outputs := rfl
@[simp] theorem State.updTile_events (n : Nat) (f : TileS → TileS) : (s.updTile n f).events = s.events := rfl
@[simp] theorem State.updTile_eventLimit (n : Nat) (f : TileS → TileS) : (s.updTile n f).eventLimit = s.eventLimit := rfl
@[simp] theorem State.updTile_time (n : Nat) (f : TileS → TileS) : (s.updTile n f).time = s.time := rfl
@[simp] theorem State.updTile_reel (n : Nat) (f : TileS → TileS) : (s.updTile n f).reel = s.reel := rfl
@[simp] theorem State.updTile_targets (n : Nat) (f : TileS → TileS) : (s.updTile n f).targets = s.targets := rfl
@[simp] theorem State.updTile_ports (n : Nat) (f : TileS → TileS) : (s.updTile n f).ports = s.ports := rfl
@[simp] theorem State.updTile_lidars (n : Nat) (f : TileS → TileS) : (s.updTile n f).lidars = s.lidars := rfl
@[simp] theorem State.updTile_filters (n : Nat) (f : TileS → TileS) : (s.updTile n f).filters = s.filters := rfl
@[simp] theorem State.updTile_imu0 (n : Nat) (f : TileS → TileS) : (s.updTile n f).imu0 = s.imu0 := rfl
@[simp] theorem State.updTile_streams (n : Nat) (f : TileS → TileS) : (s.updTile n f).streams = s.streams := rfl
@[simp] theorem State.updTile_engines (n : Nat) (f : TileS → TileS) : (s.updTile n f).engines = s.engines := rfl
@[simp] theorem State.updTile_quad (n : Nat) (f : TileS → TileS) : (s.updTile n f).quad = s.quad := rfl
@[simp] theorem State.updTile_ctxs (n : Nat) (f : TileS → TileS) : (s.updTile n f).ctxs = s.ctxs := rfl
@[simp] theorem State.updTile_nextSession (n : Nat) (f : TileS → TileS) : (s.updTile n f).nextSession = s.nextSession := rfl
@[simp] theorem State.updTile_held (n : Nat) (f : TileS → TileS) : (s.updTile n f).held = s.held := rfl
@[simp] theorem State.updTile_linkDownTick (n : Nat) (f : TileS → TileS) : (s.updTile n f).linkDownTick = s.linkDownTick := rfl
@[simp] theorem State.updTile_maps (n : Nat) (f : TileS → TileS) : (s.updTile n f).maps = s.maps := rfl
@[simp] theorem State.updTile_queries (n : Nat) (f : TileS → TileS) : (s.updTile n f).queries = s.queries := rfl
@[simp] theorem State.updTile_nextQuery (n : Nat) (f : TileS → TileS) : (s.updTile n f).nextQuery = s.nextQuery := rfl
@[simp] theorem State.updTile_tiles (n : Nat) (f : TileS → TileS) : (s.updTile n f).tiles = Tab.upd s.tiles n {} f := rfl
@[simp] theorem State.updTile_bands (n : Nat) (f : TileS → TileS) : (s.updTile n f).bands = s.bands := rfl
@[simp] theorem State.updTile_rvs (n : Nat) (f : TileS → TileS) : (s.updTile n f).rvs = s.rvs := rfl
@[simp] theorem State.updTile_commons (n : Nat) (f : TileS → TileS) : (s.updTile n f).commons = s.commons := rfl
@[simp] theorem State.updTile_objs (n : Nat) (f : TileS → TileS) : (s.updTile n f).objs = s.objs := rfl
@[simp] theorem State.updTile_reuse (n : Nat) (f : TileS → TileS) : (s.updTile n f).reuse = s.reuse := rfl
@[simp] theorem State.updTile_jobs (n : Nat) (f : TileS → TileS) : (s.updTile n f).jobs = s.jobs := rfl
@[simp] theorem State.updTile_jobSeq (n : Nat) (f : TileS → TileS) : (s.updTile n f).jobSeq = s.jobSeq := rfl
@[simp] theorem State.updTile_pairs (n : Nat) (f : TileS → TileS) : (s.updTile n f).pairs = s.pairs := rfl
@[simp] theorem State.updTile_power (n : Nat) (f : TileS → TileS) : (s.updTile n f).power = s.power := rfl
@[simp] theorem State.updTile_sources (n : Nat) (f : TileS → TileS) : (s.updTile n f).sources = s.sources := rfl
@[simp] theorem State.updTile_islands (n : Nat) (f : TileS → TileS) : (s.updTile n f).islands = s.islands := rfl
@[simp] theorem State.updTile_dep (n : Nat) (f : TileS → TileS) : (s.updTile n f).dep = s.dep := rfl
@[simp] theorem State.updTile_age (n : Nat) (f : TileS → TileS) : (s.updTile n f).age = s.age := rfl
@[simp] theorem State.updTile_sec (n : Nat) (f : TileS → TileS) : (s.updTile n f).sec = s.sec := rfl
@[simp] theorem State.updTile_epoch (n : Nat) (f : TileS → TileS) : (s.updTile n f).epoch = s.epoch := rfl
@[simp] theorem State.updTile_free (n : Nat) (f : TileS → TileS) : (s.updTile n f).free = s.free := rfl

/-! ### `updIsland` -/

@[simp] theorem State.updIsland_pending (n : Nat) (f : IslandS → IslandS) : (s.updIsland n f).pending = s.pending := rfl
@[simp] theorem State.updIsland_cmds (n : Nat) (f : IslandS → IslandS) : (s.updIsland n f).cmds = s.cmds := rfl
@[simp] theorem State.updIsland_fns (n : Nat) (f : IslandS → IslandS) : (s.updIsland n f).fns = s.fns := rfl
@[simp] theorem State.updIsland_tether (n : Nat) (f : IslandS → IslandS) : (s.updIsland n f).tether = s.tether := rfl
@[simp] theorem State.updIsland_outbox (n : Nat) (f : IslandS → IslandS) : (s.updIsland n f).outbox = s.outbox := rfl
@[simp] theorem State.updIsland_hostMem (n : Nat) (f : IslandS → IslandS) : (s.updIsland n f).hostMem = s.hostMem := rfl
@[simp] theorem State.updIsland_hostBad (n : Nat) (f : IslandS → IslandS) : (s.updIsland n f).hostBad = s.hostBad := rfl
@[simp] theorem State.updIsland_life (n : Nat) (f : IslandS → IslandS) : (s.updIsland n f).life = s.life := rfl
@[simp] theorem State.updIsland_outputs (n : Nat) (f : IslandS → IslandS) : (s.updIsland n f).outputs = s.outputs := rfl
@[simp] theorem State.updIsland_events (n : Nat) (f : IslandS → IslandS) : (s.updIsland n f).events = s.events := rfl
@[simp] theorem State.updIsland_eventLimit (n : Nat) (f : IslandS → IslandS) : (s.updIsland n f).eventLimit = s.eventLimit := rfl
@[simp] theorem State.updIsland_time (n : Nat) (f : IslandS → IslandS) : (s.updIsland n f).time = s.time := rfl
@[simp] theorem State.updIsland_reel (n : Nat) (f : IslandS → IslandS) : (s.updIsland n f).reel = s.reel := rfl
@[simp] theorem State.updIsland_targets (n : Nat) (f : IslandS → IslandS) : (s.updIsland n f).targets = s.targets := rfl
@[simp] theorem State.updIsland_ports (n : Nat) (f : IslandS → IslandS) : (s.updIsland n f).ports = s.ports := rfl
@[simp] theorem State.updIsland_lidars (n : Nat) (f : IslandS → IslandS) : (s.updIsland n f).lidars = s.lidars := rfl
@[simp] theorem State.updIsland_filters (n : Nat) (f : IslandS → IslandS) : (s.updIsland n f).filters = s.filters := rfl
@[simp] theorem State.updIsland_imu0 (n : Nat) (f : IslandS → IslandS) : (s.updIsland n f).imu0 = s.imu0 := rfl
@[simp] theorem State.updIsland_streams (n : Nat) (f : IslandS → IslandS) : (s.updIsland n f).streams = s.streams := rfl
@[simp] theorem State.updIsland_engines (n : Nat) (f : IslandS → IslandS) : (s.updIsland n f).engines = s.engines := rfl
@[simp] theorem State.updIsland_quad (n : Nat) (f : IslandS → IslandS) : (s.updIsland n f).quad = s.quad := rfl
@[simp] theorem State.updIsland_ctxs (n : Nat) (f : IslandS → IslandS) : (s.updIsland n f).ctxs = s.ctxs := rfl
@[simp] theorem State.updIsland_nextSession (n : Nat) (f : IslandS → IslandS) : (s.updIsland n f).nextSession = s.nextSession := rfl
@[simp] theorem State.updIsland_held (n : Nat) (f : IslandS → IslandS) : (s.updIsland n f).held = s.held := rfl
@[simp] theorem State.updIsland_linkDownTick (n : Nat) (f : IslandS → IslandS) : (s.updIsland n f).linkDownTick = s.linkDownTick := rfl
@[simp] theorem State.updIsland_maps (n : Nat) (f : IslandS → IslandS) : (s.updIsland n f).maps = s.maps := rfl
@[simp] theorem State.updIsland_queries (n : Nat) (f : IslandS → IslandS) : (s.updIsland n f).queries = s.queries := rfl
@[simp] theorem State.updIsland_nextQuery (n : Nat) (f : IslandS → IslandS) : (s.updIsland n f).nextQuery = s.nextQuery := rfl
@[simp] theorem State.updIsland_tiles (n : Nat) (f : IslandS → IslandS) : (s.updIsland n f).tiles = s.tiles := rfl
@[simp] theorem State.updIsland_bands (n : Nat) (f : IslandS → IslandS) : (s.updIsland n f).bands = s.bands := rfl
@[simp] theorem State.updIsland_rvs (n : Nat) (f : IslandS → IslandS) : (s.updIsland n f).rvs = s.rvs := rfl
@[simp] theorem State.updIsland_commons (n : Nat) (f : IslandS → IslandS) : (s.updIsland n f).commons = s.commons := rfl
@[simp] theorem State.updIsland_objs (n : Nat) (f : IslandS → IslandS) : (s.updIsland n f).objs = s.objs := rfl
@[simp] theorem State.updIsland_reuse (n : Nat) (f : IslandS → IslandS) : (s.updIsland n f).reuse = s.reuse := rfl
@[simp] theorem State.updIsland_jobs (n : Nat) (f : IslandS → IslandS) : (s.updIsland n f).jobs = s.jobs := rfl
@[simp] theorem State.updIsland_jobSeq (n : Nat) (f : IslandS → IslandS) : (s.updIsland n f).jobSeq = s.jobSeq := rfl
@[simp] theorem State.updIsland_pairs (n : Nat) (f : IslandS → IslandS) : (s.updIsland n f).pairs = s.pairs := rfl
@[simp] theorem State.updIsland_power (n : Nat) (f : IslandS → IslandS) : (s.updIsland n f).power = s.power := rfl
@[simp] theorem State.updIsland_sources (n : Nat) (f : IslandS → IslandS) : (s.updIsland n f).sources = s.sources := rfl
@[simp] theorem State.updIsland_islands (n : Nat) (f : IslandS → IslandS) : (s.updIsland n f).islands = Tab.upd s.islands n {} f := rfl
@[simp] theorem State.updIsland_dep (n : Nat) (f : IslandS → IslandS) : (s.updIsland n f).dep = s.dep := rfl
@[simp] theorem State.updIsland_age (n : Nat) (f : IslandS → IslandS) : (s.updIsland n f).age = s.age := rfl
@[simp] theorem State.updIsland_sec (n : Nat) (f : IslandS → IslandS) : (s.updIsland n f).sec = s.sec := rfl
@[simp] theorem State.updIsland_epoch (n : Nat) (f : IslandS → IslandS) : (s.updIsland n f).epoch = s.epoch := rfl
@[simp] theorem State.updIsland_free (n : Nat) (f : IslandS → IslandS) : (s.updIsland n f).free = s.free := rfl

/-! ### `updOutput` -/

@[simp] theorem State.updOutput_pending (n : Nat) (f : OutputS → OutputS) : (s.updOutput n f).pending = s.pending := rfl
@[simp] theorem State.updOutput_cmds (n : Nat) (f : OutputS → OutputS) : (s.updOutput n f).cmds = s.cmds := rfl
@[simp] theorem State.updOutput_fns (n : Nat) (f : OutputS → OutputS) : (s.updOutput n f).fns = s.fns := rfl
@[simp] theorem State.updOutput_tether (n : Nat) (f : OutputS → OutputS) : (s.updOutput n f).tether = s.tether := rfl
@[simp] theorem State.updOutput_outbox (n : Nat) (f : OutputS → OutputS) : (s.updOutput n f).outbox = s.outbox := rfl
@[simp] theorem State.updOutput_hostMem (n : Nat) (f : OutputS → OutputS) : (s.updOutput n f).hostMem = s.hostMem := rfl
@[simp] theorem State.updOutput_hostBad (n : Nat) (f : OutputS → OutputS) : (s.updOutput n f).hostBad = s.hostBad := rfl
@[simp] theorem State.updOutput_life (n : Nat) (f : OutputS → OutputS) : (s.updOutput n f).life = s.life := rfl
@[simp] theorem State.updOutput_outputs (n : Nat) (f : OutputS → OutputS) : (s.updOutput n f).outputs = Tab.upd s.outputs n {} f := rfl
@[simp] theorem State.updOutput_events (n : Nat) (f : OutputS → OutputS) : (s.updOutput n f).events = s.events := rfl
@[simp] theorem State.updOutput_eventLimit (n : Nat) (f : OutputS → OutputS) : (s.updOutput n f).eventLimit = s.eventLimit := rfl
@[simp] theorem State.updOutput_time (n : Nat) (f : OutputS → OutputS) : (s.updOutput n f).time = s.time := rfl
@[simp] theorem State.updOutput_reel (n : Nat) (f : OutputS → OutputS) : (s.updOutput n f).reel = s.reel := rfl
@[simp] theorem State.updOutput_targets (n : Nat) (f : OutputS → OutputS) : (s.updOutput n f).targets = s.targets := rfl
@[simp] theorem State.updOutput_ports (n : Nat) (f : OutputS → OutputS) : (s.updOutput n f).ports = s.ports := rfl
@[simp] theorem State.updOutput_lidars (n : Nat) (f : OutputS → OutputS) : (s.updOutput n f).lidars = s.lidars := rfl
@[simp] theorem State.updOutput_filters (n : Nat) (f : OutputS → OutputS) : (s.updOutput n f).filters = s.filters := rfl
@[simp] theorem State.updOutput_imu0 (n : Nat) (f : OutputS → OutputS) : (s.updOutput n f).imu0 = s.imu0 := rfl
@[simp] theorem State.updOutput_streams (n : Nat) (f : OutputS → OutputS) : (s.updOutput n f).streams = s.streams := rfl
@[simp] theorem State.updOutput_engines (n : Nat) (f : OutputS → OutputS) : (s.updOutput n f).engines = s.engines := rfl
@[simp] theorem State.updOutput_quad (n : Nat) (f : OutputS → OutputS) : (s.updOutput n f).quad = s.quad := rfl
@[simp] theorem State.updOutput_ctxs (n : Nat) (f : OutputS → OutputS) : (s.updOutput n f).ctxs = s.ctxs := rfl
@[simp] theorem State.updOutput_nextSession (n : Nat) (f : OutputS → OutputS) : (s.updOutput n f).nextSession = s.nextSession := rfl
@[simp] theorem State.updOutput_held (n : Nat) (f : OutputS → OutputS) : (s.updOutput n f).held = s.held := rfl
@[simp] theorem State.updOutput_linkDownTick (n : Nat) (f : OutputS → OutputS) : (s.updOutput n f).linkDownTick = s.linkDownTick := rfl
@[simp] theorem State.updOutput_maps (n : Nat) (f : OutputS → OutputS) : (s.updOutput n f).maps = s.maps := rfl
@[simp] theorem State.updOutput_queries (n : Nat) (f : OutputS → OutputS) : (s.updOutput n f).queries = s.queries := rfl
@[simp] theorem State.updOutput_nextQuery (n : Nat) (f : OutputS → OutputS) : (s.updOutput n f).nextQuery = s.nextQuery := rfl
@[simp] theorem State.updOutput_tiles (n : Nat) (f : OutputS → OutputS) : (s.updOutput n f).tiles = s.tiles := rfl
@[simp] theorem State.updOutput_bands (n : Nat) (f : OutputS → OutputS) : (s.updOutput n f).bands = s.bands := rfl
@[simp] theorem State.updOutput_rvs (n : Nat) (f : OutputS → OutputS) : (s.updOutput n f).rvs = s.rvs := rfl
@[simp] theorem State.updOutput_commons (n : Nat) (f : OutputS → OutputS) : (s.updOutput n f).commons = s.commons := rfl
@[simp] theorem State.updOutput_objs (n : Nat) (f : OutputS → OutputS) : (s.updOutput n f).objs = s.objs := rfl
@[simp] theorem State.updOutput_reuse (n : Nat) (f : OutputS → OutputS) : (s.updOutput n f).reuse = s.reuse := rfl
@[simp] theorem State.updOutput_jobs (n : Nat) (f : OutputS → OutputS) : (s.updOutput n f).jobs = s.jobs := rfl
@[simp] theorem State.updOutput_jobSeq (n : Nat) (f : OutputS → OutputS) : (s.updOutput n f).jobSeq = s.jobSeq := rfl
@[simp] theorem State.updOutput_pairs (n : Nat) (f : OutputS → OutputS) : (s.updOutput n f).pairs = s.pairs := rfl
@[simp] theorem State.updOutput_power (n : Nat) (f : OutputS → OutputS) : (s.updOutput n f).power = s.power := rfl
@[simp] theorem State.updOutput_sources (n : Nat) (f : OutputS → OutputS) : (s.updOutput n f).sources = s.sources := rfl
@[simp] theorem State.updOutput_islands (n : Nat) (f : OutputS → OutputS) : (s.updOutput n f).islands = s.islands := rfl
@[simp] theorem State.updOutput_dep (n : Nat) (f : OutputS → OutputS) : (s.updOutput n f).dep = s.dep := rfl
@[simp] theorem State.updOutput_age (n : Nat) (f : OutputS → OutputS) : (s.updOutput n f).age = s.age := rfl
@[simp] theorem State.updOutput_sec (n : Nat) (f : OutputS → OutputS) : (s.updOutput n f).sec = s.sec := rfl
@[simp] theorem State.updOutput_epoch (n : Nat) (f : OutputS → OutputS) : (s.updOutput n f).epoch = s.epoch := rfl
@[simp] theorem State.updOutput_free (n : Nat) (f : OutputS → OutputS) : (s.updOutput n f).free = s.free := rfl

/-! ### `updEngine` -/

@[simp] theorem State.updEngine_pending (n : Nat) (f : EngineS → EngineS) : (s.updEngine n f).pending = s.pending := rfl
@[simp] theorem State.updEngine_cmds (n : Nat) (f : EngineS → EngineS) : (s.updEngine n f).cmds = s.cmds := rfl
@[simp] theorem State.updEngine_fns (n : Nat) (f : EngineS → EngineS) : (s.updEngine n f).fns = s.fns := rfl
@[simp] theorem State.updEngine_tether (n : Nat) (f : EngineS → EngineS) : (s.updEngine n f).tether = s.tether := rfl
@[simp] theorem State.updEngine_outbox (n : Nat) (f : EngineS → EngineS) : (s.updEngine n f).outbox = s.outbox := rfl
@[simp] theorem State.updEngine_hostMem (n : Nat) (f : EngineS → EngineS) : (s.updEngine n f).hostMem = s.hostMem := rfl
@[simp] theorem State.updEngine_hostBad (n : Nat) (f : EngineS → EngineS) : (s.updEngine n f).hostBad = s.hostBad := rfl
@[simp] theorem State.updEngine_life (n : Nat) (f : EngineS → EngineS) : (s.updEngine n f).life = s.life := rfl
@[simp] theorem State.updEngine_outputs (n : Nat) (f : EngineS → EngineS) : (s.updEngine n f).outputs = s.outputs := rfl
@[simp] theorem State.updEngine_events (n : Nat) (f : EngineS → EngineS) : (s.updEngine n f).events = s.events := rfl
@[simp] theorem State.updEngine_eventLimit (n : Nat) (f : EngineS → EngineS) : (s.updEngine n f).eventLimit = s.eventLimit := rfl
@[simp] theorem State.updEngine_time (n : Nat) (f : EngineS → EngineS) : (s.updEngine n f).time = s.time := rfl
@[simp] theorem State.updEngine_reel (n : Nat) (f : EngineS → EngineS) : (s.updEngine n f).reel = s.reel := rfl
@[simp] theorem State.updEngine_targets (n : Nat) (f : EngineS → EngineS) : (s.updEngine n f).targets = s.targets := rfl
@[simp] theorem State.updEngine_ports (n : Nat) (f : EngineS → EngineS) : (s.updEngine n f).ports = s.ports := rfl
@[simp] theorem State.updEngine_lidars (n : Nat) (f : EngineS → EngineS) : (s.updEngine n f).lidars = s.lidars := rfl
@[simp] theorem State.updEngine_filters (n : Nat) (f : EngineS → EngineS) : (s.updEngine n f).filters = s.filters := rfl
@[simp] theorem State.updEngine_imu0 (n : Nat) (f : EngineS → EngineS) : (s.updEngine n f).imu0 = s.imu0 := rfl
@[simp] theorem State.updEngine_streams (n : Nat) (f : EngineS → EngineS) : (s.updEngine n f).streams = s.streams := rfl
@[simp] theorem State.updEngine_engines (n : Nat) (f : EngineS → EngineS) : (s.updEngine n f).engines = Tab.upd s.engines n {} f := rfl
@[simp] theorem State.updEngine_quad (n : Nat) (f : EngineS → EngineS) : (s.updEngine n f).quad = s.quad := rfl
@[simp] theorem State.updEngine_ctxs (n : Nat) (f : EngineS → EngineS) : (s.updEngine n f).ctxs = s.ctxs := rfl
@[simp] theorem State.updEngine_nextSession (n : Nat) (f : EngineS → EngineS) : (s.updEngine n f).nextSession = s.nextSession := rfl
@[simp] theorem State.updEngine_held (n : Nat) (f : EngineS → EngineS) : (s.updEngine n f).held = s.held := rfl
@[simp] theorem State.updEngine_linkDownTick (n : Nat) (f : EngineS → EngineS) : (s.updEngine n f).linkDownTick = s.linkDownTick := rfl
@[simp] theorem State.updEngine_maps (n : Nat) (f : EngineS → EngineS) : (s.updEngine n f).maps = s.maps := rfl
@[simp] theorem State.updEngine_queries (n : Nat) (f : EngineS → EngineS) : (s.updEngine n f).queries = s.queries := rfl
@[simp] theorem State.updEngine_nextQuery (n : Nat) (f : EngineS → EngineS) : (s.updEngine n f).nextQuery = s.nextQuery := rfl
@[simp] theorem State.updEngine_tiles (n : Nat) (f : EngineS → EngineS) : (s.updEngine n f).tiles = s.tiles := rfl
@[simp] theorem State.updEngine_bands (n : Nat) (f : EngineS → EngineS) : (s.updEngine n f).bands = s.bands := rfl
@[simp] theorem State.updEngine_rvs (n : Nat) (f : EngineS → EngineS) : (s.updEngine n f).rvs = s.rvs := rfl
@[simp] theorem State.updEngine_commons (n : Nat) (f : EngineS → EngineS) : (s.updEngine n f).commons = s.commons := rfl
@[simp] theorem State.updEngine_objs (n : Nat) (f : EngineS → EngineS) : (s.updEngine n f).objs = s.objs := rfl
@[simp] theorem State.updEngine_reuse (n : Nat) (f : EngineS → EngineS) : (s.updEngine n f).reuse = s.reuse := rfl
@[simp] theorem State.updEngine_jobs (n : Nat) (f : EngineS → EngineS) : (s.updEngine n f).jobs = s.jobs := rfl
@[simp] theorem State.updEngine_jobSeq (n : Nat) (f : EngineS → EngineS) : (s.updEngine n f).jobSeq = s.jobSeq := rfl
@[simp] theorem State.updEngine_pairs (n : Nat) (f : EngineS → EngineS) : (s.updEngine n f).pairs = s.pairs := rfl
@[simp] theorem State.updEngine_power (n : Nat) (f : EngineS → EngineS) : (s.updEngine n f).power = s.power := rfl
@[simp] theorem State.updEngine_sources (n : Nat) (f : EngineS → EngineS) : (s.updEngine n f).sources = s.sources := rfl
@[simp] theorem State.updEngine_islands (n : Nat) (f : EngineS → EngineS) : (s.updEngine n f).islands = s.islands := rfl
@[simp] theorem State.updEngine_dep (n : Nat) (f : EngineS → EngineS) : (s.updEngine n f).dep = s.dep := rfl
@[simp] theorem State.updEngine_age (n : Nat) (f : EngineS → EngineS) : (s.updEngine n f).age = s.age := rfl
@[simp] theorem State.updEngine_sec (n : Nat) (f : EngineS → EngineS) : (s.updEngine n f).sec = s.sec := rfl
@[simp] theorem State.updEngine_epoch (n : Nat) (f : EngineS → EngineS) : (s.updEngine n f).epoch = s.epoch := rfl
@[simp] theorem State.updEngine_free (n : Nat) (f : EngineS → EngineS) : (s.updEngine n f).free = s.free := rfl

/-! ### `updStream` -/

@[simp] theorem State.updStream_pending (n : Nat) (f : StreamS → StreamS) : (s.updStream n f).pending = s.pending := by unfold State.updStream; split <;> rfl
@[simp] theorem State.updStream_cmds (n : Nat) (f : StreamS → StreamS) : (s.updStream n f).cmds = s.cmds := by unfold State.updStream; split <;> rfl
@[simp] theorem State.updStream_fns (n : Nat) (f : StreamS → StreamS) : (s.updStream n f).fns = s.fns := by unfold State.updStream; split <;> rfl
@[simp] theorem State.updStream_tether (n : Nat) (f : StreamS → StreamS) : (s.updStream n f).tether = s.tether := by unfold State.updStream; split <;> rfl
@[simp] theorem State.updStream_outbox (n : Nat) (f : StreamS → StreamS) : (s.updStream n f).outbox = s.outbox := by unfold State.updStream; split <;> rfl
@[simp] theorem State.updStream_hostMem (n : Nat) (f : StreamS → StreamS) : (s.updStream n f).hostMem = s.hostMem := by unfold State.updStream; split <;> rfl
@[simp] theorem State.updStream_hostBad (n : Nat) (f : StreamS → StreamS) : (s.updStream n f).hostBad = s.hostBad := by unfold State.updStream; split <;> rfl
@[simp] theorem State.updStream_life (n : Nat) (f : StreamS → StreamS) : (s.updStream n f).life = s.life := by unfold State.updStream; split <;> rfl
@[simp] theorem State.updStream_outputs (n : Nat) (f : StreamS → StreamS) : (s.updStream n f).outputs = s.outputs := by unfold State.updStream; split <;> rfl
@[simp] theorem State.updStream_events (n : Nat) (f : StreamS → StreamS) : (s.updStream n f).events = s.events := by unfold State.updStream; split <;> rfl
@[simp] theorem State.updStream_eventLimit (n : Nat) (f : StreamS → StreamS) : (s.updStream n f).eventLimit = s.eventLimit := by unfold State.updStream; split <;> rfl
@[simp] theorem State.updStream_time (n : Nat) (f : StreamS → StreamS) : (s.updStream n f).time = s.time := by unfold State.updStream; split <;> rfl
@[simp] theorem State.updStream_reel (n : Nat) (f : StreamS → StreamS) : (s.updStream n f).reel = s.reel := by unfold State.updStream; split <;> rfl
@[simp] theorem State.updStream_targets (n : Nat) (f : StreamS → StreamS) : (s.updStream n f).targets = s.targets := by unfold State.updStream; split <;> rfl
@[simp] theorem State.updStream_ports (n : Nat) (f : StreamS → StreamS) : (s.updStream n f).ports = s.ports := by unfold State.updStream; split <;> rfl
@[simp] theorem State.updStream_lidars (n : Nat) (f : StreamS → StreamS) : (s.updStream n f).lidars = s.lidars := by unfold State.updStream; split <;> rfl
@[simp] theorem State.updStream_filters (n : Nat) (f : StreamS → StreamS) : (s.updStream n f).filters = s.filters := by unfold State.updStream; split <;> rfl
@[simp] theorem State.updStream_imu0 (n : Nat) (f : StreamS → StreamS) : (s.updStream n f).imu0 = s.imu0 := by unfold State.updStream; split <;> rfl
@[simp] theorem State.updStream_streams (n : Nat) (f : StreamS → StreamS) : (s.updStream n f).streams = if Tab.has s.streams n then Tab.upd s.streams n {} f else s.streams := by unfold State.updStream; split <;> rfl
@[simp] theorem State.updStream_engines (n : Nat) (f : StreamS → StreamS) : (s.updStream n f).engines = s.engines := by unfold State.updStream; split <;> rfl
@[simp] theorem State.updStream_quad (n : Nat) (f : StreamS → StreamS) : (s.updStream n f).quad = s.quad := by unfold State.updStream; split <;> rfl
@[simp] theorem State.updStream_ctxs (n : Nat) (f : StreamS → StreamS) : (s.updStream n f).ctxs = s.ctxs := by unfold State.updStream; split <;> rfl
@[simp] theorem State.updStream_nextSession (n : Nat) (f : StreamS → StreamS) : (s.updStream n f).nextSession = s.nextSession := by unfold State.updStream; split <;> rfl
@[simp] theorem State.updStream_held (n : Nat) (f : StreamS → StreamS) : (s.updStream n f).held = s.held := by unfold State.updStream; split <;> rfl
@[simp] theorem State.updStream_linkDownTick (n : Nat) (f : StreamS → StreamS) : (s.updStream n f).linkDownTick = s.linkDownTick := by unfold State.updStream; split <;> rfl
@[simp] theorem State.updStream_maps (n : Nat) (f : StreamS → StreamS) : (s.updStream n f).maps = s.maps := by unfold State.updStream; split <;> rfl
@[simp] theorem State.updStream_queries (n : Nat) (f : StreamS → StreamS) : (s.updStream n f).queries = s.queries := by unfold State.updStream; split <;> rfl
@[simp] theorem State.updStream_nextQuery (n : Nat) (f : StreamS → StreamS) : (s.updStream n f).nextQuery = s.nextQuery := by unfold State.updStream; split <;> rfl
@[simp] theorem State.updStream_tiles (n : Nat) (f : StreamS → StreamS) : (s.updStream n f).tiles = s.tiles := by unfold State.updStream; split <;> rfl
@[simp] theorem State.updStream_bands (n : Nat) (f : StreamS → StreamS) : (s.updStream n f).bands = s.bands := by unfold State.updStream; split <;> rfl
@[simp] theorem State.updStream_rvs (n : Nat) (f : StreamS → StreamS) : (s.updStream n f).rvs = s.rvs := by unfold State.updStream; split <;> rfl
@[simp] theorem State.updStream_commons (n : Nat) (f : StreamS → StreamS) : (s.updStream n f).commons = s.commons := by unfold State.updStream; split <;> rfl
@[simp] theorem State.updStream_objs (n : Nat) (f : StreamS → StreamS) : (s.updStream n f).objs = s.objs := by unfold State.updStream; split <;> rfl
@[simp] theorem State.updStream_reuse (n : Nat) (f : StreamS → StreamS) : (s.updStream n f).reuse = s.reuse := by unfold State.updStream; split <;> rfl
@[simp] theorem State.updStream_jobs (n : Nat) (f : StreamS → StreamS) : (s.updStream n f).jobs = s.jobs := by unfold State.updStream; split <;> rfl
@[simp] theorem State.updStream_jobSeq (n : Nat) (f : StreamS → StreamS) : (s.updStream n f).jobSeq = s.jobSeq := by unfold State.updStream; split <;> rfl
@[simp] theorem State.updStream_pairs (n : Nat) (f : StreamS → StreamS) : (s.updStream n f).pairs = s.pairs := by unfold State.updStream; split <;> rfl
@[simp] theorem State.updStream_power (n : Nat) (f : StreamS → StreamS) : (s.updStream n f).power = s.power := by unfold State.updStream; split <;> rfl
@[simp] theorem State.updStream_sources (n : Nat) (f : StreamS → StreamS) : (s.updStream n f).sources = s.sources := by unfold State.updStream; split <;> rfl
@[simp] theorem State.updStream_islands (n : Nat) (f : StreamS → StreamS) : (s.updStream n f).islands = s.islands := by unfold State.updStream; split <;> rfl
@[simp] theorem State.updStream_dep (n : Nat) (f : StreamS → StreamS) : (s.updStream n f).dep = s.dep := by unfold State.updStream; split <;> rfl
@[simp] theorem State.updStream_age (n : Nat) (f : StreamS → StreamS) : (s.updStream n f).age = s.age := by unfold State.updStream; split <;> rfl
@[simp] theorem State.updStream_sec (n : Nat) (f : StreamS → StreamS) : (s.updStream n f).sec = s.sec := by unfold State.updStream; split <;> rfl
@[simp] theorem State.updStream_epoch (n : Nat) (f : StreamS → StreamS) : (s.updStream n f).epoch = s.epoch := by unfold State.updStream; split <;> rfl
@[simp] theorem State.updStream_free (n : Nat) (f : StreamS → StreamS) : (s.updStream n f).free = s.free := by unfold State.updStream; split <;> rfl

/-! ### `updBand` -/

@[simp] theorem State.updBand_pending (n : Nat) (f : BandS → BandS) : (s.updBand n f).pending = s.pending := by unfold State.updBand; split <;> rfl
@[simp] theorem State.updBand_cmds (n : Nat) (f : BandS → BandS) : (s.updBand n f).cmds = s.cmds := by unfold State.updBand; split <;> rfl
@[simp] theorem State.updBand_fns (n : Nat) (f : BandS → BandS) : (s.updBand n f).fns = s.fns := by unfold State.updBand; split <;> rfl
@[simp] theorem State.updBand_tether (n : Nat) (f : BandS → BandS) : (s.updBand n f).tether = s.tether := by unfold State.updBand; split <;> rfl
@[simp] theorem State.updBand_outbox (n : Nat) (f : BandS → BandS) : (s.updBand n f).outbox = s.outbox := by unfold State.updBand; split <;> rfl
@[simp] theorem State.updBand_hostMem (n : Nat) (f : BandS → BandS) : (s.updBand n f).hostMem = s.hostMem := by unfold State.updBand; split <;> rfl
@[simp] theorem State.updBand_hostBad (n : Nat) (f : BandS → BandS) : (s.updBand n f).hostBad = s.hostBad := by unfold State.updBand; split <;> rfl
@[simp] theorem State.updBand_life (n : Nat) (f : BandS → BandS) : (s.updBand n f).life = s.life := by unfold State.updBand; split <;> rfl
@[simp] theorem State.updBand_outputs (n : Nat) (f : BandS → BandS) : (s.updBand n f).outputs = s.outputs := by unfold State.updBand; split <;> rfl
@[simp] theorem State.updBand_events (n : Nat) (f : BandS → BandS) : (s.updBand n f).events = s.events := by unfold State.updBand; split <;> rfl
@[simp] theorem State.updBand_eventLimit (n : Nat) (f : BandS → BandS) : (s.updBand n f).eventLimit = s.eventLimit := by unfold State.updBand; split <;> rfl
@[simp] theorem State.updBand_time (n : Nat) (f : BandS → BandS) : (s.updBand n f).time = s.time := by unfold State.updBand; split <;> rfl
@[simp] theorem State.updBand_reel (n : Nat) (f : BandS → BandS) : (s.updBand n f).reel = s.reel := by unfold State.updBand; split <;> rfl
@[simp] theorem State.updBand_targets (n : Nat) (f : BandS → BandS) : (s.updBand n f).targets = s.targets := by unfold State.updBand; split <;> rfl
@[simp] theorem State.updBand_ports (n : Nat) (f : BandS → BandS) : (s.updBand n f).ports = s.ports := by unfold State.updBand; split <;> rfl
@[simp] theorem State.updBand_lidars (n : Nat) (f : BandS → BandS) : (s.updBand n f).lidars = s.lidars := by unfold State.updBand; split <;> rfl
@[simp] theorem State.updBand_filters (n : Nat) (f : BandS → BandS) : (s.updBand n f).filters = s.filters := by unfold State.updBand; split <;> rfl
@[simp] theorem State.updBand_imu0 (n : Nat) (f : BandS → BandS) : (s.updBand n f).imu0 = s.imu0 := by unfold State.updBand; split <;> rfl
@[simp] theorem State.updBand_streams (n : Nat) (f : BandS → BandS) : (s.updBand n f).streams = s.streams := by unfold State.updBand; split <;> rfl
@[simp] theorem State.updBand_engines (n : Nat) (f : BandS → BandS) : (s.updBand n f).engines = s.engines := by unfold State.updBand; split <;> rfl
@[simp] theorem State.updBand_quad (n : Nat) (f : BandS → BandS) : (s.updBand n f).quad = s.quad := by unfold State.updBand; split <;> rfl
@[simp] theorem State.updBand_ctxs (n : Nat) (f : BandS → BandS) : (s.updBand n f).ctxs = s.ctxs := by unfold State.updBand; split <;> rfl
@[simp] theorem State.updBand_nextSession (n : Nat) (f : BandS → BandS) : (s.updBand n f).nextSession = s.nextSession := by unfold State.updBand; split <;> rfl
@[simp] theorem State.updBand_held (n : Nat) (f : BandS → BandS) : (s.updBand n f).held = s.held := by unfold State.updBand; split <;> rfl
@[simp] theorem State.updBand_linkDownTick (n : Nat) (f : BandS → BandS) : (s.updBand n f).linkDownTick = s.linkDownTick := by unfold State.updBand; split <;> rfl
@[simp] theorem State.updBand_maps (n : Nat) (f : BandS → BandS) : (s.updBand n f).maps = s.maps := by unfold State.updBand; split <;> rfl
@[simp] theorem State.updBand_queries (n : Nat) (f : BandS → BandS) : (s.updBand n f).queries = s.queries := by unfold State.updBand; split <;> rfl
@[simp] theorem State.updBand_nextQuery (n : Nat) (f : BandS → BandS) : (s.updBand n f).nextQuery = s.nextQuery := by unfold State.updBand; split <;> rfl
@[simp] theorem State.updBand_tiles (n : Nat) (f : BandS → BandS) : (s.updBand n f).tiles = s.tiles := by unfold State.updBand; split <;> rfl
@[simp] theorem State.updBand_bands (n : Nat) (f : BandS → BandS) : (s.updBand n f).bands = if Tab.has s.bands n then Tab.upd s.bands n {} f else s.bands := by unfold State.updBand; split <;> rfl
@[simp] theorem State.updBand_rvs (n : Nat) (f : BandS → BandS) : (s.updBand n f).rvs = s.rvs := by unfold State.updBand; split <;> rfl
@[simp] theorem State.updBand_commons (n : Nat) (f : BandS → BandS) : (s.updBand n f).commons = s.commons := by unfold State.updBand; split <;> rfl
@[simp] theorem State.updBand_objs (n : Nat) (f : BandS → BandS) : (s.updBand n f).objs = s.objs := by unfold State.updBand; split <;> rfl
@[simp] theorem State.updBand_reuse (n : Nat) (f : BandS → BandS) : (s.updBand n f).reuse = s.reuse := by unfold State.updBand; split <;> rfl
@[simp] theorem State.updBand_jobs (n : Nat) (f : BandS → BandS) : (s.updBand n f).jobs = s.jobs := by unfold State.updBand; split <;> rfl
@[simp] theorem State.updBand_jobSeq (n : Nat) (f : BandS → BandS) : (s.updBand n f).jobSeq = s.jobSeq := by unfold State.updBand; split <;> rfl
@[simp] theorem State.updBand_pairs (n : Nat) (f : BandS → BandS) : (s.updBand n f).pairs = s.pairs := by unfold State.updBand; split <;> rfl
@[simp] theorem State.updBand_power (n : Nat) (f : BandS → BandS) : (s.updBand n f).power = s.power := by unfold State.updBand; split <;> rfl
@[simp] theorem State.updBand_sources (n : Nat) (f : BandS → BandS) : (s.updBand n f).sources = s.sources := by unfold State.updBand; split <;> rfl
@[simp] theorem State.updBand_islands (n : Nat) (f : BandS → BandS) : (s.updBand n f).islands = s.islands := by unfold State.updBand; split <;> rfl
@[simp] theorem State.updBand_dep (n : Nat) (f : BandS → BandS) : (s.updBand n f).dep = s.dep := by unfold State.updBand; split <;> rfl
@[simp] theorem State.updBand_age (n : Nat) (f : BandS → BandS) : (s.updBand n f).age = s.age := by unfold State.updBand; split <;> rfl
@[simp] theorem State.updBand_sec (n : Nat) (f : BandS → BandS) : (s.updBand n f).sec = s.sec := by unfold State.updBand; split <;> rfl
@[simp] theorem State.updBand_epoch (n : Nat) (f : BandS → BandS) : (s.updBand n f).epoch = s.epoch := by unfold State.updBand; split <;> rfl
@[simp] theorem State.updBand_free (n : Nat) (f : BandS → BandS) : (s.updBand n f).free = s.free := by unfold State.updBand; split <;> rfl

/-! ### `updMap` -/

@[simp] theorem State.updMap_pending (n : Nat) (f : MapS → MapS) : (s.updMap n f).pending = s.pending := by unfold State.updMap; split <;> rfl
@[simp] theorem State.updMap_cmds (n : Nat) (f : MapS → MapS) : (s.updMap n f).cmds = s.cmds := by unfold State.updMap; split <;> rfl
@[simp] theorem State.updMap_fns (n : Nat) (f : MapS → MapS) : (s.updMap n f).fns = s.fns := by unfold State.updMap; split <;> rfl
@[simp] theorem State.updMap_tether (n : Nat) (f : MapS → MapS) : (s.updMap n f).tether = s.tether := by unfold State.updMap; split <;> rfl
@[simp] theorem State.updMap_outbox (n : Nat) (f : MapS → MapS) : (s.updMap n f).outbox = s.outbox := by unfold State.updMap; split <;> rfl
@[simp] theorem State.updMap_hostMem (n : Nat) (f : MapS → MapS) : (s.updMap n f).hostMem = s.hostMem := by unfold State.updMap; split <;> rfl
@[simp] theorem State.updMap_hostBad (n : Nat) (f : MapS → MapS) : (s.updMap n f).hostBad = s.hostBad := by unfold State.updMap; split <;> rfl
@[simp] theorem State.updMap_life (n : Nat) (f : MapS → MapS) : (s.updMap n f).life = s.life := by unfold State.updMap; split <;> rfl
@[simp] theorem State.updMap_outputs (n : Nat) (f : MapS → MapS) : (s.updMap n f).outputs = s.outputs := by unfold State.updMap; split <;> rfl
@[simp] theorem State.updMap_events (n : Nat) (f : MapS → MapS) : (s.updMap n f).events = s.events := by unfold State.updMap; split <;> rfl
@[simp] theorem State.updMap_eventLimit (n : Nat) (f : MapS → MapS) : (s.updMap n f).eventLimit = s.eventLimit := by unfold State.updMap; split <;> rfl
@[simp] theorem State.updMap_time (n : Nat) (f : MapS → MapS) : (s.updMap n f).time = s.time := by unfold State.updMap; split <;> rfl
@[simp] theorem State.updMap_reel (n : Nat) (f : MapS → MapS) : (s.updMap n f).reel = s.reel := by unfold State.updMap; split <;> rfl
@[simp] theorem State.updMap_targets (n : Nat) (f : MapS → MapS) : (s.updMap n f).targets = s.targets := by unfold State.updMap; split <;> rfl
@[simp] theorem State.updMap_ports (n : Nat) (f : MapS → MapS) : (s.updMap n f).ports = s.ports := by unfold State.updMap; split <;> rfl
@[simp] theorem State.updMap_lidars (n : Nat) (f : MapS → MapS) : (s.updMap n f).lidars = s.lidars := by unfold State.updMap; split <;> rfl
@[simp] theorem State.updMap_filters (n : Nat) (f : MapS → MapS) : (s.updMap n f).filters = s.filters := by unfold State.updMap; split <;> rfl
@[simp] theorem State.updMap_imu0 (n : Nat) (f : MapS → MapS) : (s.updMap n f).imu0 = s.imu0 := by unfold State.updMap; split <;> rfl
@[simp] theorem State.updMap_streams (n : Nat) (f : MapS → MapS) : (s.updMap n f).streams = s.streams := by unfold State.updMap; split <;> rfl
@[simp] theorem State.updMap_engines (n : Nat) (f : MapS → MapS) : (s.updMap n f).engines = s.engines := by unfold State.updMap; split <;> rfl
@[simp] theorem State.updMap_quad (n : Nat) (f : MapS → MapS) : (s.updMap n f).quad = s.quad := by unfold State.updMap; split <;> rfl
@[simp] theorem State.updMap_ctxs (n : Nat) (f : MapS → MapS) : (s.updMap n f).ctxs = s.ctxs := by unfold State.updMap; split <;> rfl
@[simp] theorem State.updMap_nextSession (n : Nat) (f : MapS → MapS) : (s.updMap n f).nextSession = s.nextSession := by unfold State.updMap; split <;> rfl
@[simp] theorem State.updMap_held (n : Nat) (f : MapS → MapS) : (s.updMap n f).held = s.held := by unfold State.updMap; split <;> rfl
@[simp] theorem State.updMap_linkDownTick (n : Nat) (f : MapS → MapS) : (s.updMap n f).linkDownTick = s.linkDownTick := by unfold State.updMap; split <;> rfl
@[simp] theorem State.updMap_maps (n : Nat) (f : MapS → MapS) : (s.updMap n f).maps = if Tab.has s.maps n then Tab.upd s.maps n {} f else s.maps := by unfold State.updMap; split <;> rfl
@[simp] theorem State.updMap_queries (n : Nat) (f : MapS → MapS) : (s.updMap n f).queries = s.queries := by unfold State.updMap; split <;> rfl
@[simp] theorem State.updMap_nextQuery (n : Nat) (f : MapS → MapS) : (s.updMap n f).nextQuery = s.nextQuery := by unfold State.updMap; split <;> rfl
@[simp] theorem State.updMap_tiles (n : Nat) (f : MapS → MapS) : (s.updMap n f).tiles = s.tiles := by unfold State.updMap; split <;> rfl
@[simp] theorem State.updMap_bands (n : Nat) (f : MapS → MapS) : (s.updMap n f).bands = s.bands := by unfold State.updMap; split <;> rfl
@[simp] theorem State.updMap_rvs (n : Nat) (f : MapS → MapS) : (s.updMap n f).rvs = s.rvs := by unfold State.updMap; split <;> rfl
@[simp] theorem State.updMap_commons (n : Nat) (f : MapS → MapS) : (s.updMap n f).commons = s.commons := by unfold State.updMap; split <;> rfl
@[simp] theorem State.updMap_objs (n : Nat) (f : MapS → MapS) : (s.updMap n f).objs = s.objs := by unfold State.updMap; split <;> rfl
@[simp] theorem State.updMap_reuse (n : Nat) (f : MapS → MapS) : (s.updMap n f).reuse = s.reuse := by unfold State.updMap; split <;> rfl
@[simp] theorem State.updMap_jobs (n : Nat) (f : MapS → MapS) : (s.updMap n f).jobs = s.jobs := by unfold State.updMap; split <;> rfl
@[simp] theorem State.updMap_jobSeq (n : Nat) (f : MapS → MapS) : (s.updMap n f).jobSeq = s.jobSeq := by unfold State.updMap; split <;> rfl
@[simp] theorem State.updMap_pairs (n : Nat) (f : MapS → MapS) : (s.updMap n f).pairs = s.pairs := by unfold State.updMap; split <;> rfl
@[simp] theorem State.updMap_power (n : Nat) (f : MapS → MapS) : (s.updMap n f).power = s.power := by unfold State.updMap; split <;> rfl
@[simp] theorem State.updMap_sources (n : Nat) (f : MapS → MapS) : (s.updMap n f).sources = s.sources := by unfold State.updMap; split <;> rfl
@[simp] theorem State.updMap_islands (n : Nat) (f : MapS → MapS) : (s.updMap n f).islands = s.islands := by unfold State.updMap; split <;> rfl
@[simp] theorem State.updMap_dep (n : Nat) (f : MapS → MapS) : (s.updMap n f).dep = s.dep := by unfold State.updMap; split <;> rfl
@[simp] theorem State.updMap_age (n : Nat) (f : MapS → MapS) : (s.updMap n f).age = s.age := by unfold State.updMap; split <;> rfl
@[simp] theorem State.updMap_sec (n : Nat) (f : MapS → MapS) : (s.updMap n f).sec = s.sec := by unfold State.updMap; split <;> rfl
@[simp] theorem State.updMap_epoch (n : Nat) (f : MapS → MapS) : (s.updMap n f).epoch = s.epoch := by unfold State.updMap; split <;> rfl
@[simp] theorem State.updMap_free (n : Nat) (f : MapS → MapS) : (s.updMap n f).free = s.free := by unfold State.updMap; split <;> rfl

/-! ### `updObj` -/

@[simp] theorem State.updObj_pending (n : Nat) (f : ObjS → ObjS) : (s.updObj n f).pending = s.pending := by unfold State.updObj; split <;> rfl
@[simp] theorem State.updObj_cmds (n : Nat) (f : ObjS → ObjS) : (s.updObj n f).cmds = s.cmds := by unfold State.updObj; split <;> rfl
@[simp] theorem State.updObj_fns (n : Nat) (f : ObjS → ObjS) : (s.updObj n f).fns = s.fns := by unfold State.updObj; split <;> rfl
@[simp] theorem State.updObj_tether (n : Nat) (f : ObjS → ObjS) : (s.updObj n f).tether = s.tether := by unfold State.updObj; split <;> rfl
@[simp] theorem State.updObj_outbox (n : Nat) (f : ObjS → ObjS) : (s.updObj n f).outbox = s.outbox := by unfold State.updObj; split <;> rfl
@[simp] theorem State.updObj_hostMem (n : Nat) (f : ObjS → ObjS) : (s.updObj n f).hostMem = s.hostMem := by unfold State.updObj; split <;> rfl
@[simp] theorem State.updObj_hostBad (n : Nat) (f : ObjS → ObjS) : (s.updObj n f).hostBad = s.hostBad := by unfold State.updObj; split <;> rfl
@[simp] theorem State.updObj_life (n : Nat) (f : ObjS → ObjS) : (s.updObj n f).life = s.life := by unfold State.updObj; split <;> rfl
@[simp] theorem State.updObj_outputs (n : Nat) (f : ObjS → ObjS) : (s.updObj n f).outputs = s.outputs := by unfold State.updObj; split <;> rfl
@[simp] theorem State.updObj_events (n : Nat) (f : ObjS → ObjS) : (s.updObj n f).events = s.events := by unfold State.updObj; split <;> rfl
@[simp] theorem State.updObj_eventLimit (n : Nat) (f : ObjS → ObjS) : (s.updObj n f).eventLimit = s.eventLimit := by unfold State.updObj; split <;> rfl
@[simp] theorem State.updObj_time (n : Nat) (f : ObjS → ObjS) : (s.updObj n f).time = s.time := by unfold State.updObj; split <;> rfl
@[simp] theorem State.updObj_reel (n : Nat) (f : ObjS → ObjS) : (s.updObj n f).reel = s.reel := by unfold State.updObj; split <;> rfl
@[simp] theorem State.updObj_targets (n : Nat) (f : ObjS → ObjS) : (s.updObj n f).targets = s.targets := by unfold State.updObj; split <;> rfl
@[simp] theorem State.updObj_ports (n : Nat) (f : ObjS → ObjS) : (s.updObj n f).ports = s.ports := by unfold State.updObj; split <;> rfl
@[simp] theorem State.updObj_lidars (n : Nat) (f : ObjS → ObjS) : (s.updObj n f).lidars = s.lidars := by unfold State.updObj; split <;> rfl
@[simp] theorem State.updObj_filters (n : Nat) (f : ObjS → ObjS) : (s.updObj n f).filters = s.filters := by unfold State.updObj; split <;> rfl
@[simp] theorem State.updObj_imu0 (n : Nat) (f : ObjS → ObjS) : (s.updObj n f).imu0 = s.imu0 := by unfold State.updObj; split <;> rfl
@[simp] theorem State.updObj_streams (n : Nat) (f : ObjS → ObjS) : (s.updObj n f).streams = s.streams := by unfold State.updObj; split <;> rfl
@[simp] theorem State.updObj_engines (n : Nat) (f : ObjS → ObjS) : (s.updObj n f).engines = s.engines := by unfold State.updObj; split <;> rfl
@[simp] theorem State.updObj_quad (n : Nat) (f : ObjS → ObjS) : (s.updObj n f).quad = s.quad := by unfold State.updObj; split <;> rfl
@[simp] theorem State.updObj_ctxs (n : Nat) (f : ObjS → ObjS) : (s.updObj n f).ctxs = s.ctxs := by unfold State.updObj; split <;> rfl
@[simp] theorem State.updObj_nextSession (n : Nat) (f : ObjS → ObjS) : (s.updObj n f).nextSession = s.nextSession := by unfold State.updObj; split <;> rfl
@[simp] theorem State.updObj_held (n : Nat) (f : ObjS → ObjS) : (s.updObj n f).held = s.held := by unfold State.updObj; split <;> rfl
@[simp] theorem State.updObj_linkDownTick (n : Nat) (f : ObjS → ObjS) : (s.updObj n f).linkDownTick = s.linkDownTick := by unfold State.updObj; split <;> rfl
@[simp] theorem State.updObj_maps (n : Nat) (f : ObjS → ObjS) : (s.updObj n f).maps = s.maps := by unfold State.updObj; split <;> rfl
@[simp] theorem State.updObj_queries (n : Nat) (f : ObjS → ObjS) : (s.updObj n f).queries = s.queries := by unfold State.updObj; split <;> rfl
@[simp] theorem State.updObj_nextQuery (n : Nat) (f : ObjS → ObjS) : (s.updObj n f).nextQuery = s.nextQuery := by unfold State.updObj; split <;> rfl
@[simp] theorem State.updObj_tiles (n : Nat) (f : ObjS → ObjS) : (s.updObj n f).tiles = s.tiles := by unfold State.updObj; split <;> rfl
@[simp] theorem State.updObj_bands (n : Nat) (f : ObjS → ObjS) : (s.updObj n f).bands = s.bands := by unfold State.updObj; split <;> rfl
@[simp] theorem State.updObj_rvs (n : Nat) (f : ObjS → ObjS) : (s.updObj n f).rvs = s.rvs := by unfold State.updObj; split <;> rfl
@[simp] theorem State.updObj_commons (n : Nat) (f : ObjS → ObjS) : (s.updObj n f).commons = s.commons := by unfold State.updObj; split <;> rfl
@[simp] theorem State.updObj_objs (n : Nat) (f : ObjS → ObjS) : (s.updObj n f).objs = if Tab.has s.objs n then Tab.upd s.objs n {} f else s.objs := by unfold State.updObj; split <;> rfl
@[simp] theorem State.updObj_reuse (n : Nat) (f : ObjS → ObjS) : (s.updObj n f).reuse = s.reuse := by unfold State.updObj; split <;> rfl
@[simp] theorem State.updObj_jobs (n : Nat) (f : ObjS → ObjS) : (s.updObj n f).jobs = s.jobs := by unfold State.updObj; split <;> rfl
@[simp] theorem State.updObj_jobSeq (n : Nat) (f : ObjS → ObjS) : (s.updObj n f).jobSeq = s.jobSeq := by unfold State.updObj; split <;> rfl
@[simp] theorem State.updObj_pairs (n : Nat) (f : ObjS → ObjS) : (s.updObj n f).pairs = s.pairs := by unfold State.updObj; split <;> rfl
@[simp] theorem State.updObj_power (n : Nat) (f : ObjS → ObjS) : (s.updObj n f).power = s.power := by unfold State.updObj; split <;> rfl
@[simp] theorem State.updObj_sources (n : Nat) (f : ObjS → ObjS) : (s.updObj n f).sources = s.sources := by unfold State.updObj; split <;> rfl
@[simp] theorem State.updObj_islands (n : Nat) (f : ObjS → ObjS) : (s.updObj n f).islands = s.islands := by unfold State.updObj; split <;> rfl
@[simp] theorem State.updObj_dep (n : Nat) (f : ObjS → ObjS) : (s.updObj n f).dep = s.dep := by unfold State.updObj; split <;> rfl
@[simp] theorem State.updObj_age (n : Nat) (f : ObjS → ObjS) : (s.updObj n f).age = s.age := by unfold State.updObj; split <;> rfl
@[simp] theorem State.updObj_sec (n : Nat) (f : ObjS → ObjS) : (s.updObj n f).sec = s.sec := by unfold State.updObj; split <;> rfl
@[simp] theorem State.updObj_epoch (n : Nat) (f : ObjS → ObjS) : (s.updObj n f).epoch = s.epoch := by unfold State.updObj; split <;> rfl
@[simp] theorem State.updObj_free (n : Nat) (f : ObjS → ObjS) : (s.updObj n f).free = s.free := by unfold State.updObj; split <;> rfl

/-! ### `updSession` -/

@[simp] theorem State.updSession_pending (n : Nat) (f : SessionS → SessionS) : (s.updSession n f).pending = s.pending := by unfold State.updSession; split <;> rfl
@[simp] theorem State.updSession_cmds (n : Nat) (f : SessionS → SessionS) : (s.updSession n f).cmds = s.cmds := by unfold State.updSession; split <;> rfl
@[simp] theorem State.updSession_fns (n : Nat) (f : SessionS → SessionS) : (s.updSession n f).fns = s.fns := by unfold State.updSession; split <;> rfl
@[simp] theorem State.updSession_tether (n : Nat) (f : SessionS → SessionS) : (s.updSession n f).tether = s.tether := by unfold State.updSession; split <;> rfl
@[simp] theorem State.updSession_outbox (n : Nat) (f : SessionS → SessionS) : (s.updSession n f).outbox = s.outbox := by unfold State.updSession; split <;> rfl
@[simp] theorem State.updSession_hostMem (n : Nat) (f : SessionS → SessionS) : (s.updSession n f).hostMem = s.hostMem := by unfold State.updSession; split <;> rfl
@[simp] theorem State.updSession_hostBad (n : Nat) (f : SessionS → SessionS) : (s.updSession n f).hostBad = s.hostBad := by unfold State.updSession; split <;> rfl
@[simp] theorem State.updSession_life (n : Nat) (f : SessionS → SessionS) : (s.updSession n f).life = s.life := by unfold State.updSession; split <;> rfl
@[simp] theorem State.updSession_outputs (n : Nat) (f : SessionS → SessionS) : (s.updSession n f).outputs = s.outputs := by unfold State.updSession; split <;> rfl
@[simp] theorem State.updSession_events (n : Nat) (f : SessionS → SessionS) : (s.updSession n f).events = s.events := by unfold State.updSession; split <;> rfl
@[simp] theorem State.updSession_eventLimit (n : Nat) (f : SessionS → SessionS) : (s.updSession n f).eventLimit = s.eventLimit := by unfold State.updSession; split <;> rfl
@[simp] theorem State.updSession_time (n : Nat) (f : SessionS → SessionS) : (s.updSession n f).time = s.time := by unfold State.updSession; split <;> rfl
@[simp] theorem State.updSession_reel (n : Nat) (f : SessionS → SessionS) : (s.updSession n f).reel = s.reel := by unfold State.updSession; split <;> rfl
@[simp] theorem State.updSession_targets (n : Nat) (f : SessionS → SessionS) : (s.updSession n f).targets = s.targets := by unfold State.updSession; split <;> rfl
@[simp] theorem State.updSession_ports (n : Nat) (f : SessionS → SessionS) : (s.updSession n f).ports = s.ports := by unfold State.updSession; split <;> rfl
@[simp] theorem State.updSession_lidars (n : Nat) (f : SessionS → SessionS) : (s.updSession n f).lidars = s.lidars := by unfold State.updSession; split <;> rfl
@[simp] theorem State.updSession_filters (n : Nat) (f : SessionS → SessionS) : (s.updSession n f).filters = s.filters := by unfold State.updSession; split <;> rfl
@[simp] theorem State.updSession_imu0 (n : Nat) (f : SessionS → SessionS) : (s.updSession n f).imu0 = s.imu0 := by unfold State.updSession; split <;> rfl
@[simp] theorem State.updSession_streams (n : Nat) (f : SessionS → SessionS) : (s.updSession n f).streams = s.streams := by unfold State.updSession; split <;> rfl
@[simp] theorem State.updSession_engines (n : Nat) (f : SessionS → SessionS) : (s.updSession n f).engines = s.engines := by unfold State.updSession; split <;> rfl
@[simp] theorem State.updSession_quad (n : Nat) (f : SessionS → SessionS) : (s.updSession n f).quad = s.quad := by unfold State.updSession; split <;> rfl
@[simp] theorem State.updSession_nextSession (n : Nat) (f : SessionS → SessionS) : (s.updSession n f).nextSession = s.nextSession := by unfold State.updSession; split <;> rfl
@[simp] theorem State.updSession_held (n : Nat) (f : SessionS → SessionS) : (s.updSession n f).held = s.held := by unfold State.updSession; split <;> rfl
@[simp] theorem State.updSession_linkDownTick (n : Nat) (f : SessionS → SessionS) : (s.updSession n f).linkDownTick = s.linkDownTick := by unfold State.updSession; split <;> rfl
@[simp] theorem State.updSession_maps (n : Nat) (f : SessionS → SessionS) : (s.updSession n f).maps = s.maps := by unfold State.updSession; split <;> rfl
@[simp] theorem State.updSession_queries (n : Nat) (f : SessionS → SessionS) : (s.updSession n f).queries = s.queries := by unfold State.updSession; split <;> rfl
@[simp] theorem State.updSession_nextQuery (n : Nat) (f : SessionS → SessionS) : (s.updSession n f).nextQuery = s.nextQuery := by unfold State.updSession; split <;> rfl
@[simp] theorem State.updSession_tiles (n : Nat) (f : SessionS → SessionS) : (s.updSession n f).tiles = s.tiles := by unfold State.updSession; split <;> rfl
@[simp] theorem State.updSession_bands (n : Nat) (f : SessionS → SessionS) : (s.updSession n f).bands = s.bands := by unfold State.updSession; split <;> rfl
@[simp] theorem State.updSession_rvs (n : Nat) (f : SessionS → SessionS) : (s.updSession n f).rvs = s.rvs := by unfold State.updSession; split <;> rfl
@[simp] theorem State.updSession_commons (n : Nat) (f : SessionS → SessionS) : (s.updSession n f).commons = s.commons := by unfold State.updSession; split <;> rfl
@[simp] theorem State.updSession_objs (n : Nat) (f : SessionS → SessionS) : (s.updSession n f).objs = s.objs := by unfold State.updSession; split <;> rfl
@[simp] theorem State.updSession_reuse (n : Nat) (f : SessionS → SessionS) : (s.updSession n f).reuse = s.reuse := by unfold State.updSession; split <;> rfl
@[simp] theorem State.updSession_jobs (n : Nat) (f : SessionS → SessionS) : (s.updSession n f).jobs = s.jobs := by unfold State.updSession; split <;> rfl
@[simp] theorem State.updSession_jobSeq (n : Nat) (f : SessionS → SessionS) : (s.updSession n f).jobSeq = s.jobSeq := by unfold State.updSession; split <;> rfl
@[simp] theorem State.updSession_pairs (n : Nat) (f : SessionS → SessionS) : (s.updSession n f).pairs = s.pairs := by unfold State.updSession; split <;> rfl
@[simp] theorem State.updSession_power (n : Nat) (f : SessionS → SessionS) : (s.updSession n f).power = s.power := by unfold State.updSession; split <;> rfl
@[simp] theorem State.updSession_sources (n : Nat) (f : SessionS → SessionS) : (s.updSession n f).sources = s.sources := by unfold State.updSession; split <;> rfl
@[simp] theorem State.updSession_islands (n : Nat) (f : SessionS → SessionS) : (s.updSession n f).islands = s.islands := by unfold State.updSession; split <;> rfl
@[simp] theorem State.updSession_dep (n : Nat) (f : SessionS → SessionS) : (s.updSession n f).dep = s.dep := by unfold State.updSession; split <;> rfl
@[simp] theorem State.updSession_age (n : Nat) (f : SessionS → SessionS) : (s.updSession n f).age = s.age := by unfold State.updSession; split <;> rfl
@[simp] theorem State.updSession_sec (n : Nat) (f : SessionS → SessionS) : (s.updSession n f).sec = s.sec := by unfold State.updSession; split <;> rfl
@[simp] theorem State.updSession_epoch (n : Nat) (f : SessionS → SessionS) : (s.updSession n f).epoch = s.epoch := by unfold State.updSession; split <;> rfl
@[simp] theorem State.updSession_free (n : Nat) (f : SessionS → SessionS) : (s.updSession n f).free = s.free := by unfold State.updSession; split <;> rfl

/-! ### `updCmd` -/

@[simp] theorem State.updCmd_pending (c : CmdRef) (f : Cmd → Cmd) : (s.updCmd c f).pending = s.pending := rfl
@[simp] theorem State.updCmd_fns (c : CmdRef) (f : Cmd → Cmd) : (s.updCmd c f).fns = s.fns := rfl
@[simp] theorem State.updCmd_tether (c : CmdRef) (f : Cmd → Cmd) : (s.updCmd c f).tether = s.tether := rfl
@[simp] theorem State.updCmd_outbox (c : CmdRef) (f : Cmd → Cmd) : (s.updCmd c f).outbox = s.outbox := rfl
@[simp] theorem State.updCmd_hostMem (c : CmdRef) (f : Cmd → Cmd) : (s.updCmd c f).hostMem = s.hostMem := rfl
@[simp] theorem State.updCmd_hostBad (c : CmdRef) (f : Cmd → Cmd) : (s.updCmd c f).hostBad = s.hostBad := rfl
@[simp] theorem State.updCmd_life (c : CmdRef) (f : Cmd → Cmd) : (s.updCmd c f).life = s.life := rfl
@[simp] theorem State.updCmd_outputs (c : CmdRef) (f : Cmd → Cmd) : (s.updCmd c f).outputs = s.outputs := rfl
@[simp] theorem State.updCmd_events (c : CmdRef) (f : Cmd → Cmd) : (s.updCmd c f).events = s.events := rfl
@[simp] theorem State.updCmd_eventLimit (c : CmdRef) (f : Cmd → Cmd) : (s.updCmd c f).eventLimit = s.eventLimit := rfl
@[simp] theorem State.updCmd_time (c : CmdRef) (f : Cmd → Cmd) : (s.updCmd c f).time = s.time := rfl
@[simp] theorem State.updCmd_reel (c : CmdRef) (f : Cmd → Cmd) : (s.updCmd c f).reel = s.reel := rfl
@[simp] theorem State.updCmd_targets (c : CmdRef) (f : Cmd → Cmd) : (s.updCmd c f).targets = s.targets := rfl
@[simp] theorem State.updCmd_ports (c : CmdRef) (f : Cmd → Cmd) : (s.updCmd c f).ports = s.ports := rfl
@[simp] theorem State.updCmd_lidars (c : CmdRef) (f : Cmd → Cmd) : (s.updCmd c f).lidars = s.lidars := rfl
@[simp] theorem State.updCmd_filters (c : CmdRef) (f : Cmd → Cmd) : (s.updCmd c f).filters = s.filters := rfl
@[simp] theorem State.updCmd_imu0 (c : CmdRef) (f : Cmd → Cmd) : (s.updCmd c f).imu0 = s.imu0 := rfl
@[simp] theorem State.updCmd_streams (c : CmdRef) (f : Cmd → Cmd) : (s.updCmd c f).streams = s.streams := rfl
@[simp] theorem State.updCmd_engines (c : CmdRef) (f : Cmd → Cmd) : (s.updCmd c f).engines = s.engines := rfl
@[simp] theorem State.updCmd_quad (c : CmdRef) (f : Cmd → Cmd) : (s.updCmd c f).quad = s.quad := rfl
@[simp] theorem State.updCmd_ctxs (c : CmdRef) (f : Cmd → Cmd) : (s.updCmd c f).ctxs = s.ctxs := rfl
@[simp] theorem State.updCmd_nextSession (c : CmdRef) (f : Cmd → Cmd) : (s.updCmd c f).nextSession = s.nextSession := rfl
@[simp] theorem State.updCmd_held (c : CmdRef) (f : Cmd → Cmd) : (s.updCmd c f).held = s.held := rfl
@[simp] theorem State.updCmd_linkDownTick (c : CmdRef) (f : Cmd → Cmd) : (s.updCmd c f).linkDownTick = s.linkDownTick := rfl
@[simp] theorem State.updCmd_maps (c : CmdRef) (f : Cmd → Cmd) : (s.updCmd c f).maps = s.maps := rfl
@[simp] theorem State.updCmd_queries (c : CmdRef) (f : Cmd → Cmd) : (s.updCmd c f).queries = s.queries := rfl
@[simp] theorem State.updCmd_nextQuery (c : CmdRef) (f : Cmd → Cmd) : (s.updCmd c f).nextQuery = s.nextQuery := rfl
@[simp] theorem State.updCmd_tiles (c : CmdRef) (f : Cmd → Cmd) : (s.updCmd c f).tiles = s.tiles := rfl
@[simp] theorem State.updCmd_bands (c : CmdRef) (f : Cmd → Cmd) : (s.updCmd c f).bands = s.bands := rfl
@[simp] theorem State.updCmd_rvs (c : CmdRef) (f : Cmd → Cmd) : (s.updCmd c f).rvs = s.rvs := rfl
@[simp] theorem State.updCmd_commons (c : CmdRef) (f : Cmd → Cmd) : (s.updCmd c f).commons = s.commons := rfl
@[simp] theorem State.updCmd_objs (c : CmdRef) (f : Cmd → Cmd) : (s.updCmd c f).objs = s.objs := rfl
@[simp] theorem State.updCmd_reuse (c : CmdRef) (f : Cmd → Cmd) : (s.updCmd c f).reuse = s.reuse := rfl
@[simp] theorem State.updCmd_jobs (c : CmdRef) (f : Cmd → Cmd) : (s.updCmd c f).jobs = s.jobs := rfl
@[simp] theorem State.updCmd_jobSeq (c : CmdRef) (f : Cmd → Cmd) : (s.updCmd c f).jobSeq = s.jobSeq := rfl
@[simp] theorem State.updCmd_pairs (c : CmdRef) (f : Cmd → Cmd) : (s.updCmd c f).pairs = s.pairs := rfl
@[simp] theorem State.updCmd_power (c : CmdRef) (f : Cmd → Cmd) : (s.updCmd c f).power = s.power := rfl
@[simp] theorem State.updCmd_sources (c : CmdRef) (f : Cmd → Cmd) : (s.updCmd c f).sources = s.sources := rfl
@[simp] theorem State.updCmd_islands (c : CmdRef) (f : Cmd → Cmd) : (s.updCmd c f).islands = s.islands := rfl
@[simp] theorem State.updCmd_dep (c : CmdRef) (f : Cmd → Cmd) : (s.updCmd c f).dep = s.dep := rfl
@[simp] theorem State.updCmd_age (c : CmdRef) (f : Cmd → Cmd) : (s.updCmd c f).age = s.age := rfl
@[simp] theorem State.updCmd_sec (c : CmdRef) (f : Cmd → Cmd) : (s.updCmd c f).sec = s.sec := rfl
@[simp] theorem State.updCmd_epoch (c : CmdRef) (f : Cmd → Cmd) : (s.updCmd c f).epoch = s.epoch := rfl
@[simp] theorem State.updCmd_free (c : CmdRef) (f : Cmd → Cmd) : (s.updCmd c f).free = s.free := rfl

/-! ### `delCmd` -/

@[simp] theorem State.delCmd_pending (c : CmdRef) : (s.delCmd c).pending = s.pending := rfl
@[simp] theorem State.delCmd_fns (c : CmdRef) : (s.delCmd c).fns = s.fns := rfl
@[simp] theorem State.delCmd_tether (c : CmdRef) : (s.delCmd c).tether = s.tether := rfl
@[simp] theorem State.delCmd_outbox (c : CmdRef) : (s.delCmd c).outbox = s.outbox := rfl
@[simp] theorem State.delCmd_hostMem (c : CmdRef) : (s.delCmd c).hostMem = s.hostMem := rfl
@[simp] theorem State.delCmd_hostBad (c : CmdRef) : (s.delCmd c).hostBad = s.hostBad := rfl
@[simp] theorem State.delCmd_life (c : CmdRef) : (s.delCmd c).life = s.life := rfl
@[simp] theorem State.delCmd_outputs (c : CmdRef) : (s.delCmd c).outputs = s.outputs := rfl
@[simp] theorem State.delCmd_events (c : CmdRef) : (s.delCmd c).events = s.events := rfl
@[simp] theorem State.delCmd_eventLimit (c : CmdRef) : (s.delCmd c).eventLimit = s.eventLimit := rfl
@[simp] theorem State.delCmd_time (c : CmdRef) : (s.delCmd c).time = s.time := rfl
@[simp] theorem State.delCmd_reel (c : CmdRef) : (s.delCmd c).reel = s.reel := rfl
@[simp] theorem State.delCmd_targets (c : CmdRef) : (s.delCmd c).targets = s.targets := rfl
@[simp] theorem State.delCmd_ports (c : CmdRef) : (s.delCmd c).ports = s.ports := rfl
@[simp] theorem State.delCmd_lidars (c : CmdRef) : (s.delCmd c).lidars = s.lidars := rfl
@[simp] theorem State.delCmd_filters (c : CmdRef) : (s.delCmd c).filters = s.filters := rfl
@[simp] theorem State.delCmd_imu0 (c : CmdRef) : (s.delCmd c).imu0 = s.imu0 := rfl
@[simp] theorem State.delCmd_streams (c : CmdRef) : (s.delCmd c).streams = s.streams := rfl
@[simp] theorem State.delCmd_engines (c : CmdRef) : (s.delCmd c).engines = s.engines := rfl
@[simp] theorem State.delCmd_quad (c : CmdRef) : (s.delCmd c).quad = s.quad := rfl
@[simp] theorem State.delCmd_ctxs (c : CmdRef) : (s.delCmd c).ctxs = s.ctxs := rfl
@[simp] theorem State.delCmd_nextSession (c : CmdRef) : (s.delCmd c).nextSession = s.nextSession := rfl
@[simp] theorem State.delCmd_held (c : CmdRef) : (s.delCmd c).held = s.held := rfl
@[simp] theorem State.delCmd_linkDownTick (c : CmdRef) : (s.delCmd c).linkDownTick = s.linkDownTick := rfl
@[simp] theorem State.delCmd_maps (c : CmdRef) : (s.delCmd c).maps = s.maps := rfl
@[simp] theorem State.delCmd_queries (c : CmdRef) : (s.delCmd c).queries = s.queries := rfl
@[simp] theorem State.delCmd_nextQuery (c : CmdRef) : (s.delCmd c).nextQuery = s.nextQuery := rfl
@[simp] theorem State.delCmd_tiles (c : CmdRef) : (s.delCmd c).tiles = s.tiles := rfl
@[simp] theorem State.delCmd_bands (c : CmdRef) : (s.delCmd c).bands = s.bands := rfl
@[simp] theorem State.delCmd_rvs (c : CmdRef) : (s.delCmd c).rvs = s.rvs := rfl
@[simp] theorem State.delCmd_commons (c : CmdRef) : (s.delCmd c).commons = s.commons := rfl
@[simp] theorem State.delCmd_objs (c : CmdRef) : (s.delCmd c).objs = s.objs := rfl
@[simp] theorem State.delCmd_reuse (c : CmdRef) : (s.delCmd c).reuse = s.reuse := rfl
@[simp] theorem State.delCmd_jobs (c : CmdRef) : (s.delCmd c).jobs = s.jobs := rfl
@[simp] theorem State.delCmd_jobSeq (c : CmdRef) : (s.delCmd c).jobSeq = s.jobSeq := rfl
@[simp] theorem State.delCmd_pairs (c : CmdRef) : (s.delCmd c).pairs = s.pairs := rfl
@[simp] theorem State.delCmd_power (c : CmdRef) : (s.delCmd c).power = s.power := rfl
@[simp] theorem State.delCmd_sources (c : CmdRef) : (s.delCmd c).sources = s.sources := rfl
@[simp] theorem State.delCmd_islands (c : CmdRef) : (s.delCmd c).islands = s.islands := rfl
@[simp] theorem State.delCmd_dep (c : CmdRef) : (s.delCmd c).dep = s.dep := rfl
@[simp] theorem State.delCmd_age (c : CmdRef) : (s.delCmd c).age = s.age := rfl
@[simp] theorem State.delCmd_sec (c : CmdRef) : (s.delCmd c).sec = s.sec := rfl
@[simp] theorem State.delCmd_epoch (c : CmdRef) : (s.delCmd c).epoch = s.epoch := rfl
@[simp] theorem State.delCmd_free (c : CmdRef) : (s.delCmd c).free = s.free := rfl

/-! ### `send` -/

@[simp] theorem State.send_pending (x : OutMsg) : (s.send x).pending = s.pending := rfl
@[simp] theorem State.send_cmds (x : OutMsg) : (s.send x).cmds = s.cmds := rfl
@[simp] theorem State.send_fns (x : OutMsg) : (s.send x).fns = s.fns := rfl
@[simp] theorem State.send_tether (x : OutMsg) : (s.send x).tether = s.tether := rfl
@[simp] theorem State.send_outbox (x : OutMsg) : (s.send x).outbox = x :: s.outbox := rfl
@[simp] theorem State.send_hostMem (x : OutMsg) : (s.send x).hostMem = s.hostMem := rfl
@[simp] theorem State.send_hostBad (x : OutMsg) : (s.send x).hostBad = s.hostBad := rfl
@[simp] theorem State.send_life (x : OutMsg) : (s.send x).life = s.life := rfl
@[simp] theorem State.send_outputs (x : OutMsg) : (s.send x).outputs = s.outputs := rfl
@[simp] theorem State.send_events (x : OutMsg) : (s.send x).events = s.events := rfl
@[simp] theorem State.send_eventLimit (x : OutMsg) : (s.send x).eventLimit = s.eventLimit := rfl
@[simp] theorem State.send_time (x : OutMsg) : (s.send x).time = s.time := rfl
@[simp] theorem State.send_reel (x : OutMsg) : (s.send x).reel = s.reel := rfl
@[simp] theorem State.send_targets (x : OutMsg) : (s.send x).targets = s.targets := rfl
@[simp] theorem State.send_ports (x : OutMsg) : (s.send x).ports = s.ports := rfl
@[simp] theorem State.send_lidars (x : OutMsg) : (s.send x).lidars = s.lidars := rfl
@[simp] theorem State.send_filters (x : OutMsg) : (s.send x).filters = s.filters := rfl
@[simp] theorem State.send_imu0 (x : OutMsg) : (s.send x).imu0 = s.imu0 := rfl
@[simp] theorem State.send_streams (x : OutMsg) : (s.send x).streams = s.streams := rfl
@[simp] theorem State.send_engines (x : OutMsg) : (s.send x).engines = s.engines := rfl
@[simp] theorem State.send_quad (x : OutMsg) : (s.send x).quad = s.quad := rfl
@[simp] theorem State.send_ctxs (x : OutMsg) : (s.send x).ctxs = s.ctxs := rfl
@[simp] theorem State.send_nextSession (x : OutMsg) : (s.send x).nextSession = s.nextSession := rfl
@[simp] theorem State.send_held (x : OutMsg) : (s.send x).held = s.held := rfl
@[simp] theorem State.send_linkDownTick (x : OutMsg) : (s.send x).linkDownTick = s.linkDownTick := rfl
@[simp] theorem State.send_maps (x : OutMsg) : (s.send x).maps = s.maps := rfl
@[simp] theorem State.send_queries (x : OutMsg) : (s.send x).queries = s.queries := rfl
@[simp] theorem State.send_nextQuery (x : OutMsg) : (s.send x).nextQuery = s.nextQuery := rfl
@[simp] theorem State.send_tiles (x : OutMsg) : (s.send x).tiles = s.tiles := rfl
@[simp] theorem State.send_bands (x : OutMsg) : (s.send x).bands = s.bands := rfl
@[simp] theorem State.send_rvs (x : OutMsg) : (s.send x).rvs = s.rvs := rfl
@[simp] theorem State.send_commons (x : OutMsg) : (s.send x).commons = s.commons := rfl
@[simp] theorem State.send_objs (x : OutMsg) : (s.send x).objs = s.objs := rfl
@[simp] theorem State.send_reuse (x : OutMsg) : (s.send x).reuse = s.reuse := rfl
@[simp] theorem State.send_jobs (x : OutMsg) : (s.send x).jobs = s.jobs := rfl
@[simp] theorem State.send_jobSeq (x : OutMsg) : (s.send x).jobSeq = s.jobSeq := rfl
@[simp] theorem State.send_pairs (x : OutMsg) : (s.send x).pairs = s.pairs := rfl
@[simp] theorem State.send_power (x : OutMsg) : (s.send x).power = s.power := rfl
@[simp] theorem State.send_sources (x : OutMsg) : (s.send x).sources = s.sources := rfl
@[simp] theorem State.send_islands (x : OutMsg) : (s.send x).islands = s.islands := rfl
@[simp] theorem State.send_dep (x : OutMsg) : (s.send x).dep = s.dep := rfl
@[simp] theorem State.send_age (x : OutMsg) : (s.send x).age = s.age := rfl
@[simp] theorem State.send_sec (x : OutMsg) : (s.send x).sec = s.sec := rfl
@[simp] theorem State.send_epoch (x : OutMsg) : (s.send x).epoch = s.epoch := rfl
@[simp] theorem State.send_free (x : OutMsg) : (s.send x).free = s.free := rfl

/-! ### `hostWrite` -/

@[simp] theorem State.hostWrite_pending (a : Nat) (b : List Byte) : (s.hostWrite a b).pending = s.pending := rfl
@[simp] theorem State.hostWrite_cmds (a : Nat) (b : List Byte) : (s.hostWrite a b).cmds = s.cmds := rfl
@[simp] theorem State.hostWrite_fns (a : Nat) (b : List Byte) : (s.hostWrite a b).fns = s.fns := rfl
@[simp] theorem State.hostWrite_tether (a : Nat) (b : List Byte) : (s.hostWrite a b).tether = s.tether := rfl
@[simp] theorem State.hostWrite_outbox (a : Nat) (b : List Byte) : (s.hostWrite a b).outbox = s.outbox := rfl
@[simp] theorem State.hostWrite_hostMem (a : Nat) (b : List Byte) : (s.hostWrite a b).hostMem = writeHost s.hostMem a b := rfl
@[simp] theorem State.hostWrite_hostBad (a : Nat) (b : List Byte) : (s.hostWrite a b).hostBad = s.hostBad := rfl
@[simp] theorem State.hostWrite_life (a : Nat) (b : List Byte) : (s.hostWrite a b).life = s.life := rfl
@[simp] theorem State.hostWrite_outputs (a : Nat) (b : List Byte) : (s.hostWrite a b).outputs = s.outputs := rfl
@[simp] theorem State.hostWrite_events (a : Nat) (b : List Byte) : (s.hostWrite a b).events = s.events := rfl
@[simp] theorem State.hostWrite_eventLimit (a : Nat) (b : List Byte) : (s.hostWrite a b).eventLimit = s.eventLimit := rfl
@[simp] theorem State.hostWrite_time (a : Nat) (b : List Byte) : (s.hostWrite a b).time = s.time := rfl
@[simp] theorem State.hostWrite_reel (a : Nat) (b : List Byte) : (s.hostWrite a b).reel = s.reel := rfl
@[simp] theorem State.hostWrite_targets (a : Nat) (b : List Byte) : (s.hostWrite a b).targets = s.targets := rfl
@[simp] theorem State.hostWrite_ports (a : Nat) (b : List Byte) : (s.hostWrite a b).ports = s.ports := rfl
@[simp] theorem State.hostWrite_lidars (a : Nat) (b : List Byte) : (s.hostWrite a b).lidars = s.lidars := rfl
@[simp] theorem State.hostWrite_filters (a : Nat) (b : List Byte) : (s.hostWrite a b).filters = s.filters := rfl
@[simp] theorem State.hostWrite_imu0 (a : Nat) (b : List Byte) : (s.hostWrite a b).imu0 = s.imu0 := rfl
@[simp] theorem State.hostWrite_streams (a : Nat) (b : List Byte) : (s.hostWrite a b).streams = s.streams := rfl
@[simp] theorem State.hostWrite_engines (a : Nat) (b : List Byte) : (s.hostWrite a b).engines = s.engines := rfl
@[simp] theorem State.hostWrite_quad (a : Nat) (b : List Byte) : (s.hostWrite a b).quad = s.quad := rfl
@[simp] theorem State.hostWrite_ctxs (a : Nat) (b : List Byte) : (s.hostWrite a b).ctxs = s.ctxs := rfl
@[simp] theorem State.hostWrite_nextSession (a : Nat) (b : List Byte) : (s.hostWrite a b).nextSession = s.nextSession := rfl
@[simp] theorem State.hostWrite_held (a : Nat) (b : List Byte) : (s.hostWrite a b).held = s.held := rfl
@[simp] theorem State.hostWrite_linkDownTick (a : Nat) (b : List Byte) : (s.hostWrite a b).linkDownTick = s.linkDownTick := rfl
@[simp] theorem State.hostWrite_maps (a : Nat) (b : List Byte) : (s.hostWrite a b).maps = s.maps := rfl
@[simp] theorem State.hostWrite_queries (a : Nat) (b : List Byte) : (s.hostWrite a b).queries = s.queries := rfl
@[simp] theorem State.hostWrite_nextQuery (a : Nat) (b : List Byte) : (s.hostWrite a b).nextQuery = s.nextQuery := rfl
@[simp] theorem State.hostWrite_tiles (a : Nat) (b : List Byte) : (s.hostWrite a b).tiles = s.tiles := rfl
@[simp] theorem State.hostWrite_bands (a : Nat) (b : List Byte) : (s.hostWrite a b).bands = s.bands := rfl
@[simp] theorem State.hostWrite_rvs (a : Nat) (b : List Byte) : (s.hostWrite a b).rvs = s.rvs := rfl
@[simp] theorem State.hostWrite_commons (a : Nat) (b : List Byte) : (s.hostWrite a b).commons = s.commons := rfl
@[simp] theorem State.hostWrite_objs (a : Nat) (b : List Byte) : (s.hostWrite a b).objs = s.objs := rfl
@[simp] theorem State.hostWrite_reuse (a : Nat) (b : List Byte) : (s.hostWrite a b).reuse = s.reuse := rfl
@[simp] theorem State.hostWrite_jobs (a : Nat) (b : List Byte) : (s.hostWrite a b).jobs = s.jobs := rfl
@[simp] theorem State.hostWrite_jobSeq (a : Nat) (b : List Byte) : (s.hostWrite a b).jobSeq = s.jobSeq := rfl
@[simp] theorem State.hostWrite_pairs (a : Nat) (b : List Byte) : (s.hostWrite a b).pairs = s.pairs := rfl
@[simp] theorem State.hostWrite_power (a : Nat) (b : List Byte) : (s.hostWrite a b).power = s.power := rfl
@[simp] theorem State.hostWrite_sources (a : Nat) (b : List Byte) : (s.hostWrite a b).sources = s.sources := rfl
@[simp] theorem State.hostWrite_islands (a : Nat) (b : List Byte) : (s.hostWrite a b).islands = s.islands := rfl
@[simp] theorem State.hostWrite_dep (a : Nat) (b : List Byte) : (s.hostWrite a b).dep = s.dep := rfl
@[simp] theorem State.hostWrite_age (a : Nat) (b : List Byte) : (s.hostWrite a b).age = s.age := rfl
@[simp] theorem State.hostWrite_sec (a : Nat) (b : List Byte) : (s.hostWrite a b).sec = s.sec := rfl
@[simp] theorem State.hostWrite_epoch (a : Nat) (b : List Byte) : (s.hostWrite a b).epoch = s.epoch := rfl
@[simp] theorem State.hostWrite_free (a : Nat) (b : List Byte) : (s.hostWrite a b).free = s.free := rfl

/-! ### `raiseEvent` -/

@[simp] theorem State.raiseEvent_pending (e : Event) : (s.raiseEvent e).pending = s.pending := rfl
@[simp] theorem State.raiseEvent_cmds (e : Event) : (s.raiseEvent e).cmds = s.cmds := rfl
@[simp] theorem State.raiseEvent_fns (e : Event) : (s.raiseEvent e).fns = s.fns := rfl
@[simp] theorem State.raiseEvent_tether (e : Event) : (s.raiseEvent e).tether = s.tether.pushEvent e := rfl
@[simp] theorem State.raiseEvent_outbox (e : Event) : (s.raiseEvent e).outbox = s.outbox := rfl
@[simp] theorem State.raiseEvent_hostMem (e : Event) : (s.raiseEvent e).hostMem = s.hostMem := rfl
@[simp] theorem State.raiseEvent_hostBad (e : Event) : (s.raiseEvent e).hostBad = s.hostBad := rfl
@[simp] theorem State.raiseEvent_life (e : Event) : (s.raiseEvent e).life = s.life := rfl
@[simp] theorem State.raiseEvent_outputs (e : Event) : (s.raiseEvent e).outputs = s.outputs := rfl
@[simp] theorem State.raiseEvent_events (e : Event) : (s.raiseEvent e).events = s.events ++ [e] := rfl
@[simp] theorem State.raiseEvent_eventLimit (e : Event) : (s.raiseEvent e).eventLimit = s.eventLimit := rfl
@[simp] theorem State.raiseEvent_time (e : Event) : (s.raiseEvent e).time = s.time := rfl
@[simp] theorem State.raiseEvent_reel (e : Event) : (s.raiseEvent e).reel = s.reel := rfl
@[simp] theorem State.raiseEvent_targets (e : Event) : (s.raiseEvent e).targets = s.targets := rfl
@[simp] theorem State.raiseEvent_ports (e : Event) : (s.raiseEvent e).ports = s.ports := rfl
@[simp] theorem State.raiseEvent_lidars (e : Event) : (s.raiseEvent e).lidars = s.lidars := rfl
@[simp] theorem State.raiseEvent_filters (e : Event) : (s.raiseEvent e).filters = s.filters := rfl
@[simp] theorem State.raiseEvent_imu0 (e : Event) : (s.raiseEvent e).imu0 = s.imu0 := rfl
@[simp] theorem State.raiseEvent_streams (e : Event) : (s.raiseEvent e).streams = s.streams := rfl
@[simp] theorem State.raiseEvent_engines (e : Event) : (s.raiseEvent e).engines = s.engines := rfl
@[simp] theorem State.raiseEvent_quad (e : Event) : (s.raiseEvent e).quad = s.quad := rfl
@[simp] theorem State.raiseEvent_ctxs (e : Event) : (s.raiseEvent e).ctxs = s.ctxs := rfl
@[simp] theorem State.raiseEvent_nextSession (e : Event) : (s.raiseEvent e).nextSession = s.nextSession := rfl
@[simp] theorem State.raiseEvent_held (e : Event) : (s.raiseEvent e).held = s.held := rfl
@[simp] theorem State.raiseEvent_linkDownTick (e : Event) : (s.raiseEvent e).linkDownTick = s.linkDownTick := rfl
@[simp] theorem State.raiseEvent_maps (e : Event) : (s.raiseEvent e).maps = s.maps := rfl
@[simp] theorem State.raiseEvent_queries (e : Event) : (s.raiseEvent e).queries = s.queries := rfl
@[simp] theorem State.raiseEvent_nextQuery (e : Event) : (s.raiseEvent e).nextQuery = s.nextQuery := rfl
@[simp] theorem State.raiseEvent_tiles (e : Event) : (s.raiseEvent e).tiles = s.tiles := rfl
@[simp] theorem State.raiseEvent_bands (e : Event) : (s.raiseEvent e).bands = s.bands := rfl
@[simp] theorem State.raiseEvent_rvs (e : Event) : (s.raiseEvent e).rvs = s.rvs := rfl
@[simp] theorem State.raiseEvent_commons (e : Event) : (s.raiseEvent e).commons = s.commons := rfl
@[simp] theorem State.raiseEvent_objs (e : Event) : (s.raiseEvent e).objs = s.objs := rfl
@[simp] theorem State.raiseEvent_reuse (e : Event) : (s.raiseEvent e).reuse = s.reuse := rfl
@[simp] theorem State.raiseEvent_jobs (e : Event) : (s.raiseEvent e).jobs = s.jobs := rfl
@[simp] theorem State.raiseEvent_jobSeq (e : Event) : (s.raiseEvent e).jobSeq = s.jobSeq := rfl
@[simp] theorem State.raiseEvent_pairs (e : Event) : (s.raiseEvent e).pairs = s.pairs := rfl
@[simp] theorem State.raiseEvent_power (e : Event) : (s.raiseEvent e).power = s.power := rfl
@[simp] theorem State.raiseEvent_sources (e : Event) : (s.raiseEvent e).sources = s.sources := rfl
@[simp] theorem State.raiseEvent_islands (e : Event) : (s.raiseEvent e).islands = s.islands := rfl
@[simp] theorem State.raiseEvent_dep (e : Event) : (s.raiseEvent e).dep = s.dep := rfl
@[simp] theorem State.raiseEvent_age (e : Event) : (s.raiseEvent e).age = s.age := rfl
@[simp] theorem State.raiseEvent_sec (e : Event) : (s.raiseEvent e).sec = s.sec := rfl
@[simp] theorem State.raiseEvent_epoch (e : Event) : (s.raiseEvent e).epoch = s.epoch := rfl
@[simp] theorem State.raiseEvent_free (e : Event) : (s.raiseEvent e).free = s.free := rfl

/-! ### `updPair` -/

@[simp] theorem State.updPair_pending (n : Nat) (f : PairS → PairS) : (s.updPair n f).pending = s.pending := by unfold State.updPair; split <;> rfl
@[simp] theorem State.updPair_cmds (n : Nat) (f : PairS → PairS) : (s.updPair n f).cmds = s.cmds := by unfold State.updPair; split <;> rfl
@[simp] theorem State.updPair_fns (n : Nat) (f : PairS → PairS) : (s.updPair n f).fns = s.fns := by unfold State.updPair; split <;> rfl
@[simp] theorem State.updPair_tether (n : Nat) (f : PairS → PairS) : (s.updPair n f).tether = s.tether := by unfold State.updPair; split <;> rfl
@[simp] theorem State.updPair_outbox (n : Nat) (f : PairS → PairS) : (s.updPair n f).outbox = s.outbox := by unfold State.updPair; split <;> rfl
@[simp] theorem State.updPair_hostMem (n : Nat) (f : PairS → PairS) : (s.updPair n f).hostMem = s.hostMem := by unfold State.updPair; split <;> rfl
@[simp] theorem State.updPair_hostBad (n : Nat) (f : PairS → PairS) : (s.updPair n f).hostBad = s.hostBad := by unfold State.updPair; split <;> rfl
@[simp] theorem State.updPair_life (n : Nat) (f : PairS → PairS) : (s.updPair n f).life = s.life := by unfold State.updPair; split <;> rfl
@[simp] theorem State.updPair_outputs (n : Nat) (f : PairS → PairS) : (s.updPair n f).outputs = s.outputs := by unfold State.updPair; split <;> rfl
@[simp] theorem State.updPair_events (n : Nat) (f : PairS → PairS) : (s.updPair n f).events = s.events := by unfold State.updPair; split <;> rfl
@[simp] theorem State.updPair_eventLimit (n : Nat) (f : PairS → PairS) : (s.updPair n f).eventLimit = s.eventLimit := by unfold State.updPair; split <;> rfl
@[simp] theorem State.updPair_time (n : Nat) (f : PairS → PairS) : (s.updPair n f).time = s.time := by unfold State.updPair; split <;> rfl
@[simp] theorem State.updPair_reel (n : Nat) (f : PairS → PairS) : (s.updPair n f).reel = s.reel := by unfold State.updPair; split <;> rfl
@[simp] theorem State.updPair_targets (n : Nat) (f : PairS → PairS) : (s.updPair n f).targets = s.targets := by unfold State.updPair; split <;> rfl
@[simp] theorem State.updPair_ports (n : Nat) (f : PairS → PairS) : (s.updPair n f).ports = s.ports := by unfold State.updPair; split <;> rfl
@[simp] theorem State.updPair_lidars (n : Nat) (f : PairS → PairS) : (s.updPair n f).lidars = s.lidars := by unfold State.updPair; split <;> rfl
@[simp] theorem State.updPair_filters (n : Nat) (f : PairS → PairS) : (s.updPair n f).filters = s.filters := by unfold State.updPair; split <;> rfl
@[simp] theorem State.updPair_imu0 (n : Nat) (f : PairS → PairS) : (s.updPair n f).imu0 = s.imu0 := by unfold State.updPair; split <;> rfl
@[simp] theorem State.updPair_streams (n : Nat) (f : PairS → PairS) : (s.updPair n f).streams = s.streams := by unfold State.updPair; split <;> rfl
@[simp] theorem State.updPair_engines (n : Nat) (f : PairS → PairS) : (s.updPair n f).engines = s.engines := by unfold State.updPair; split <;> rfl
@[simp] theorem State.updPair_quad (n : Nat) (f : PairS → PairS) : (s.updPair n f).quad = s.quad := by unfold State.updPair; split <;> rfl
@[simp] theorem State.updPair_ctxs (n : Nat) (f : PairS → PairS) : (s.updPair n f).ctxs = s.ctxs := by unfold State.updPair; split <;> rfl
@[simp] theorem State.updPair_nextSession (n : Nat) (f : PairS → PairS) : (s.updPair n f).nextSession = s.nextSession := by unfold State.updPair; split <;> rfl
@[simp] theorem State.updPair_held (n : Nat) (f : PairS → PairS) : (s.updPair n f).held = s.held := by unfold State.updPair; split <;> rfl
@[simp] theorem State.updPair_linkDownTick (n : Nat) (f : PairS → PairS) : (s.updPair n f).linkDownTick = s.linkDownTick := by unfold State.updPair; split <;> rfl
@[simp] theorem State.updPair_maps (n : Nat) (f : PairS → PairS) : (s.updPair n f).maps = s.maps := by unfold State.updPair; split <;> rfl
@[simp] theorem State.updPair_queries (n : Nat) (f : PairS → PairS) : (s.updPair n f).queries = s.queries := by unfold State.updPair; split <;> rfl
@[simp] theorem State.updPair_nextQuery (n : Nat) (f : PairS → PairS) : (s.updPair n f).nextQuery = s.nextQuery := by unfold State.updPair; split <;> rfl
@[simp] theorem State.updPair_tiles (n : Nat) (f : PairS → PairS) : (s.updPair n f).tiles = s.tiles := by unfold State.updPair; split <;> rfl
@[simp] theorem State.updPair_bands (n : Nat) (f : PairS → PairS) : (s.updPair n f).bands = s.bands := by unfold State.updPair; split <;> rfl
@[simp] theorem State.updPair_rvs (n : Nat) (f : PairS → PairS) : (s.updPair n f).rvs = s.rvs := by unfold State.updPair; split <;> rfl
@[simp] theorem State.updPair_commons (n : Nat) (f : PairS → PairS) : (s.updPair n f).commons = s.commons := by unfold State.updPair; split <;> rfl
@[simp] theorem State.updPair_objs (n : Nat) (f : PairS → PairS) : (s.updPair n f).objs = s.objs := by unfold State.updPair; split <;> rfl
@[simp] theorem State.updPair_reuse (n : Nat) (f : PairS → PairS) : (s.updPair n f).reuse = s.reuse := by unfold State.updPair; split <;> rfl
@[simp] theorem State.updPair_jobs (n : Nat) (f : PairS → PairS) : (s.updPair n f).jobs = s.jobs := by unfold State.updPair; split <;> rfl
@[simp] theorem State.updPair_jobSeq (n : Nat) (f : PairS → PairS) : (s.updPair n f).jobSeq = s.jobSeq := by unfold State.updPair; split <;> rfl
@[simp] theorem State.updPair_power (n : Nat) (f : PairS → PairS) : (s.updPair n f).power = s.power := by unfold State.updPair; split <;> rfl
@[simp] theorem State.updPair_sources (n : Nat) (f : PairS → PairS) : (s.updPair n f).sources = s.sources := by unfold State.updPair; split <;> rfl
@[simp] theorem State.updPair_islands (n : Nat) (f : PairS → PairS) : (s.updPair n f).islands = s.islands := by unfold State.updPair; split <;> rfl
@[simp] theorem State.updPair_dep (n : Nat) (f : PairS → PairS) : (s.updPair n f).dep = s.dep := by unfold State.updPair; split <;> rfl
@[simp] theorem State.updPair_age (n : Nat) (f : PairS → PairS) : (s.updPair n f).age = s.age := by unfold State.updPair; split <;> rfl
@[simp] theorem State.updPair_sec (n : Nat) (f : PairS → PairS) : (s.updPair n f).sec = s.sec := by unfold State.updPair; split <;> rfl
@[simp] theorem State.updPair_epoch (n : Nat) (f : PairS → PairS) : (s.updPair n f).epoch = s.epoch := by unfold State.updPair; split <;> rfl
@[simp] theorem State.updPair_free (n : Nat) (f : PairS → PairS) : (s.updPair n f).free = s.free := by unfold State.updPair; split <;> rfl

/-! ### `updSource` -/

@[simp] theorem State.updSource_pending (k : Nat) (f : SourceS → SourceS) : (s.updSource k f).pending = s.pending := rfl
@[simp] theorem State.updSource_cmds (k : Nat) (f : SourceS → SourceS) : (s.updSource k f).cmds = s.cmds := rfl
@[simp] theorem State.updSource_fns (k : Nat) (f : SourceS → SourceS) : (s.updSource k f).fns = s.fns := rfl
@[simp] theorem State.updSource_tether (k : Nat) (f : SourceS → SourceS) : (s.updSource k f).tether = s.tether := rfl
@[simp] theorem State.updSource_outbox (k : Nat) (f : SourceS → SourceS) : (s.updSource k f).outbox = s.outbox := rfl
@[simp] theorem State.updSource_hostMem (k : Nat) (f : SourceS → SourceS) : (s.updSource k f).hostMem = s.hostMem := rfl
@[simp] theorem State.updSource_hostBad (k : Nat) (f : SourceS → SourceS) : (s.updSource k f).hostBad = s.hostBad := rfl
@[simp] theorem State.updSource_life (k : Nat) (f : SourceS → SourceS) : (s.updSource k f).life = s.life := rfl
@[simp] theorem State.updSource_outputs (k : Nat) (f : SourceS → SourceS) : (s.updSource k f).outputs = s.outputs := rfl
@[simp] theorem State.updSource_events (k : Nat) (f : SourceS → SourceS) : (s.updSource k f).events = s.events := rfl
@[simp] theorem State.updSource_eventLimit (k : Nat) (f : SourceS → SourceS) : (s.updSource k f).eventLimit = s.eventLimit := rfl
@[simp] theorem State.updSource_time (k : Nat) (f : SourceS → SourceS) : (s.updSource k f).time = s.time := rfl
@[simp] theorem State.updSource_reel (k : Nat) (f : SourceS → SourceS) : (s.updSource k f).reel = s.reel := rfl
@[simp] theorem State.updSource_targets (k : Nat) (f : SourceS → SourceS) : (s.updSource k f).targets = s.targets := rfl
@[simp] theorem State.updSource_ports (k : Nat) (f : SourceS → SourceS) : (s.updSource k f).ports = s.ports := rfl
@[simp] theorem State.updSource_lidars (k : Nat) (f : SourceS → SourceS) : (s.updSource k f).lidars = s.lidars := rfl
@[simp] theorem State.updSource_filters (k : Nat) (f : SourceS → SourceS) : (s.updSource k f).filters = s.filters := rfl
@[simp] theorem State.updSource_imu0 (k : Nat) (f : SourceS → SourceS) : (s.updSource k f).imu0 = s.imu0 := rfl
@[simp] theorem State.updSource_streams (k : Nat) (f : SourceS → SourceS) : (s.updSource k f).streams = s.streams := rfl
@[simp] theorem State.updSource_engines (k : Nat) (f : SourceS → SourceS) : (s.updSource k f).engines = s.engines := rfl
@[simp] theorem State.updSource_quad (k : Nat) (f : SourceS → SourceS) : (s.updSource k f).quad = s.quad := rfl
@[simp] theorem State.updSource_ctxs (k : Nat) (f : SourceS → SourceS) : (s.updSource k f).ctxs = s.ctxs := rfl
@[simp] theorem State.updSource_nextSession (k : Nat) (f : SourceS → SourceS) : (s.updSource k f).nextSession = s.nextSession := rfl
@[simp] theorem State.updSource_held (k : Nat) (f : SourceS → SourceS) : (s.updSource k f).held = s.held := rfl
@[simp] theorem State.updSource_linkDownTick (k : Nat) (f : SourceS → SourceS) : (s.updSource k f).linkDownTick = s.linkDownTick := rfl
@[simp] theorem State.updSource_maps (k : Nat) (f : SourceS → SourceS) : (s.updSource k f).maps = s.maps := rfl
@[simp] theorem State.updSource_queries (k : Nat) (f : SourceS → SourceS) : (s.updSource k f).queries = s.queries := rfl
@[simp] theorem State.updSource_nextQuery (k : Nat) (f : SourceS → SourceS) : (s.updSource k f).nextQuery = s.nextQuery := rfl
@[simp] theorem State.updSource_tiles (k : Nat) (f : SourceS → SourceS) : (s.updSource k f).tiles = s.tiles := rfl
@[simp] theorem State.updSource_bands (k : Nat) (f : SourceS → SourceS) : (s.updSource k f).bands = s.bands := rfl
@[simp] theorem State.updSource_rvs (k : Nat) (f : SourceS → SourceS) : (s.updSource k f).rvs = s.rvs := rfl
@[simp] theorem State.updSource_commons (k : Nat) (f : SourceS → SourceS) : (s.updSource k f).commons = s.commons := rfl
@[simp] theorem State.updSource_objs (k : Nat) (f : SourceS → SourceS) : (s.updSource k f).objs = s.objs := rfl
@[simp] theorem State.updSource_reuse (k : Nat) (f : SourceS → SourceS) : (s.updSource k f).reuse = s.reuse := rfl
@[simp] theorem State.updSource_jobs (k : Nat) (f : SourceS → SourceS) : (s.updSource k f).jobs = s.jobs := rfl
@[simp] theorem State.updSource_jobSeq (k : Nat) (f : SourceS → SourceS) : (s.updSource k f).jobSeq = s.jobSeq := rfl
@[simp] theorem State.updSource_pairs (k : Nat) (f : SourceS → SourceS) : (s.updSource k f).pairs = s.pairs := rfl
@[simp] theorem State.updSource_power (k : Nat) (f : SourceS → SourceS) : (s.updSource k f).power = s.power := rfl
@[simp] theorem State.updSource_sources (k : Nat) (f : SourceS → SourceS) : (s.updSource k f).sources = setAt {} s.sources k (f (s.sources.getD k {})) := rfl
@[simp] theorem State.updSource_islands (k : Nat) (f : SourceS → SourceS) : (s.updSource k f).islands = s.islands := rfl
@[simp] theorem State.updSource_dep (k : Nat) (f : SourceS → SourceS) : (s.updSource k f).dep = s.dep := rfl
@[simp] theorem State.updSource_age (k : Nat) (f : SourceS → SourceS) : (s.updSource k f).age = s.age := rfl
@[simp] theorem State.updSource_sec (k : Nat) (f : SourceS → SourceS) : (s.updSource k f).sec = s.sec := rfl
@[simp] theorem State.updSource_epoch (k : Nat) (f : SourceS → SourceS) : (s.updSource k f).epoch = s.epoch := rfl
@[simp] theorem State.updSource_free (k : Nat) (f : SourceS → SourceS) : (s.updSource k f).free = s.free := rfl

end Sys2Proof.Machine
end

