-- ==== Sys2Proof/Laws/Table.lean ====
section
/-! SUPPORT. The laws of tables: what is read after a write, and that the operations keep the order of the keys and the canonical form. -/

namespace Sys2Proof.Machine

variable {α β : Type}

@[simp] theorem Tab.get?_nil (k : Nat) : Tab.get? ([] : Tab α) k = none := rfl

theorem Tab.get?_put (t : Tab α) (k j : Nat) (x : α) :
    Tab.get? (Tab.put t k x) j = if j = k then some x else Tab.get? t j := by
  induction t with
  | nil => simp only [Tab.put, Tab.get?, eq_comm (a := k)]
  | cons e t ih =>
    obtain ⟨i, y⟩ := e
    rcases lt_trichotomy k i with h | h | h
    · simp only [Tab.put, if_pos h, Tab.get?, eq_comm (a := k)]
    · subst h; simp only [Tab.put, lt_irrefl, if_false, if_true, Tab.get?, eq_comm (a := k)]; split_ifs <;> rfl
    · have h1 : ¬ k < i := by omega
      have h2 : ¬ k = i := by omega
      simp only [Tab.put, if_neg h1, if_neg h2, Tab.get?, ih]
      split_ifs <;> first | rfl | omega

@[simp] theorem Tab.getD_put_self (t : Tab α) (k : Nat) (x d : α) : Tab.getD (Tab.put t k x) k d = x := by
  simp [Tab.getD, Tab.get?_put]

theorem Tab.getD_put (t : Tab α) (k j : Nat) (x d : α) :
    Tab.getD (Tab.put t k x) j d = if j = k then x else Tab.getD t j d := by
  by_cases h : j = k <;> simp [Tab.getD, Tab.get?_put, h]

@[simp] theorem Tab.getD_upd_self (t : Tab α) (k : Nat) (d : α) (f : α → α) :
    Tab.getD (Tab.upd t k d f) k d = f (Tab.getD t k d) := by simp [Tab.upd]

theorem Tab.getD_upd (t : Tab α) (k j : Nat) (d d' : α) (f : α → α) :
    Tab.getD (Tab.upd t k d f) j d' = if j = k then f (Tab.getD t k d) else Tab.getD t j d' := by
  simp [Tab.upd, Tab.getD_put]

theorem Tab.get?_upd (t : Tab α) (k j : Nat) (d : α) (f : α → α) :
    Tab.get? (Tab.upd t k d f) j = if j = k then some (f (Tab.getD t k d)) else Tab.get? t j := by
  simp [Tab.upd, Tab.get?_put]

theorem Tab.get?_del (t : Tab α) (k j : Nat) : Tab.get? (Tab.del t k) j = if j = k then none else Tab.get? t j := by
  induction t with
  | nil => simp [Tab.del]
  | cons e t ih =>
    obtain ⟨i, y⟩ := e
    by_cases h : i = k
    · simp only [Tab.del, if_pos h, ih, Tab.get?]; split_ifs <;> first | rfl | omega
    · simp only [Tab.del, if_neg h, ih, Tab.get?]; split_ifs <;> first | rfl | omega

theorem Tab.getD_del (t : Tab α) (k j : Nat) (d : α) : Tab.getD (Tab.del t k) j d = if j = k then d else Tab.getD t j d := by
  simp only [Tab.getD, Tab.get?_del]; split_ifs <;> rfl

/-- A read after a write: the written value at its own key, the old value everywhere else. -/
theorem Tab.getD_write [DecidableEq α] (d : α) (t : Tab α) (k j : Nat) (x : α) :
    Tab.getD (Tab.write d t k x) j d = if j = k then x else Tab.getD t j d := by
  unfold Tab.write
  split_ifs with h1 h2 h2 <;> simp_all [Tab.getD_del, Tab.getD_put]

/-! ### Order of the keys -/

/-- Every key of `t` is above `k`. -/
def Tab.above (k : Nat) (t : Tab α) : Prop := ∀ e ∈ t, k < e.1

theorem Tab.sorted_cons (i : Nat) (x : α) (t : Tab α) :
    Tab.sorted ((i, x) :: t) = true ↔ Tab.above i t ∧ Tab.sorted t = true := by
  induction t generalizing i x with
  | nil => simp [Tab.sorted, Tab.above]
  | cons e t ih =>
    obtain ⟨j, y⟩ := e
    have h2 := ih j y
    simp only [Tab.sorted, Bool.and_eq_true, decide_eq_true_eq, Tab.above, List.mem_cons, forall_eq_or_imp] at *
    constructor
    · rintro ⟨hij, hs⟩
      exact ⟨⟨hij, fun e he => lt_trans hij ((h2.1 hs).1 e he)⟩, hs⟩
    · rintro ⟨⟨hij, -⟩, hs⟩; exact ⟨hij, hs⟩

theorem Tab.mem_put {t : Tab α} {k : Nat} {x : α} {e : Nat × α} (h : e ∈ Tab.put t k x) : e = (k, x) ∨ e ∈ t := by
  induction t with
  | nil => simpa [Tab.put] using h
  | cons a t ih =>
    obtain ⟨i, y⟩ := a
    unfold Tab.put at h
    split_ifs at h with h1 h2
    · simpa using h
    · rcases List.mem_cons.1 h with h | h
      · exact .inl h
      · exact .inr (List.mem_cons_of_mem _ h)
    · rcases List.mem_cons.1 h with h | h
      · exact .inr (h ▸ List.mem_cons_self)
      · rcases ih h with h | h
        · exact .inl h
        · exact .inr (List.mem_cons_of_mem _ h)

theorem Tab.sorted_put (t : Tab α) (k : Nat) (x : α) (h : Tab.sorted t = true) : Tab.sorted (Tab.put t k x) = true := by
  induction t with
  | nil => simp [Tab.put, Tab.sorted]
  | cons a t ih =>
    obtain ⟨i, y⟩ := a
    have hs := (Tab.sorted_cons i y t).1 h
    unfold Tab.put
    split_ifs with h1 h2
    · refine (Tab.sorted_cons _ _ _).2 ⟨?_, h⟩
      intro e he
      rcases List.mem_cons.1 he with rfl | he
      · exact h1
      · exact lt_trans h1 (hs.1 e he)
    · subst h2; exact (Tab.sorted_cons _ _ _).2 hs
    · refine (Tab.sorted_cons _ _ _).2 ⟨?_, ih hs.2⟩
      intro e he
      rcases Tab.mem_put he with rfl | he
      · simp only; omega
      · exact hs.1 e he

theorem Tab.mem_del {t : Tab α} {k : Nat} {e : Nat × α} (h : e ∈ Tab.del t k) : e ∈ t := by
  induction t with
  | nil => simp [Tab.del] at h
  | cons a t ih =>
    obtain ⟨i, y⟩ := a
    unfold Tab.del at h
    split_ifs at h
    · exact List.mem_cons_of_mem _ (ih h)
    · rcases List.mem_cons.1 h with h | h
      · exact h ▸ List.mem_cons_self
      · exact List.mem_cons_of_mem _ (ih h)

theorem Tab.sorted_del (t : Tab α) (k : Nat) (h : Tab.sorted t = true) : Tab.sorted (Tab.del t k) = true := by
  induction t with
  | nil => rfl
  | cons a t ih =>
    obtain ⟨i, y⟩ := a
    have hs := (Tab.sorted_cons i y t).1 h
    unfold Tab.del
    split_ifs
    · exact ih hs.2
    · exact (Tab.sorted_cons _ _ _).2 ⟨fun e he => hs.1 e (Tab.mem_del he), ih hs.2⟩

/-- A write keeps the canonical form of an addressed memory. -/
theorem Tab.canonical_write [DecidableEq α] (d : α) (t : Tab α) (k : Nat) (x : α) (h : Tab.canonical d t = true) :
    Tab.canonical d (Tab.write d t k x) = true := by
  simp only [Tab.canonical, Bool.and_eq_true, List.all_eq_true, decide_eq_true_eq] at *
  unfold Tab.write
  split_ifs with hx
  · exact ⟨Tab.sorted_del _ _ h.1, fun e he => h.2 e (Tab.mem_del he)⟩
  · refine ⟨Tab.sorted_put _ _ _ (Tab.sorted_del _ _ h.1), fun e he => ?_⟩
    rcases Tab.mem_put he with rfl | he
    · exact hx
    · exact h.2 e (Tab.mem_del he)

end Sys2Proof.Machine
end

