-- ==== Sys2Proof/Laws/Access.lean ====
section
/-! SUPPORT. What the numbered parts of the state read as after an update of one of them. -/

namespace Sys2Proof.Machine

/-- An update of a listed key alone. -/
theorem Tab.get?_updIf {α : Type} (t : Tab α) (n k : Nat) (d : α) (f : α → α) :
    Tab.get? (if Tab.has t n then Tab.upd t n d f else t) k = if k = n then (Tab.get? t n).map f else Tab.get? t k := by
  by_cases h : Tab.has t n = true
  · rw [if_pos h, Tab.get?_upd]
    obtain ⟨x, hx⟩ := Option.isSome_iff_exists.1 h
    split_ifs <;> simp [hx, Tab.getD]
  · rw [if_neg h]
    have hx : Tab.get? t n = none := by simpa [Tab.has] using h
    split_ifs with hk
    · subst hk; simp [hx]
    · rfl

variable (s : State) (n k : Nat)

theorem State.fnAt_updFn (f : FnRegs → FnRegs) : (s.updFn n f).fnAt k = if k = n then f (s.fnAt n) else s.fnAt k := Tab.getD_upd ..
theorem State.ctxAt_updCtx (f : CtxS → CtxS) : (s.updCtx n f).ctxAt k = if k = n then f (s.ctxAt n) else s.ctxAt k := Tab.getD_upd ..
theorem State.portAt_updPort (f : PortS → PortS) : (s.updPort n f).portAt k = if k = n then f (s.portAt n) else s.portAt k := Tab.getD_upd ..
theorem State.chanAt_updChan (f : ChannelS → ChannelS) : (s.updChan n f).chanAt k = if k = n then f (s.chanAt n) else s.chanAt k := Tab.getD_upd ..
theorem State.reelAt_updReel (f : ReelEntry → ReelEntry) : (s.updReel n f).reelAt k = if k = n then f (s.reelAt n) else s.reelAt k := Tab.getD_upd ..
theorem State.tileAt_updTile (f : TileS → TileS) : (s.updTile n f).tileAt k = if k = n then f (s.tileAt n) else s.tileAt k := Tab.getD_upd ..
theorem State.islandAt_updIsland (f : IslandS → IslandS) : (s.updIsland n f).islandAt k = if k = n then f (s.islandAt n) else s.islandAt k :=
  Tab.getD_upd ..
theorem State.outputAt_updOutput (f : OutputS → OutputS) : (s.updOutput n f).outputAt k = if k = n then f (s.outputAt n) else s.outputAt k :=
  Tab.getD_upd ..
theorem State.engineAt_updEngine (f : EngineS → EngineS) : (s.updEngine n f).engineAt k = if k = n then f (s.engineAt n) else s.engineAt k :=
  Tab.getD_upd ..

/-- A stream, band, map or object that exists takes the update; a number without one stays without. -/
theorem State.get?_updStream (f : StreamS → StreamS) :
    Tab.get? (s.updStream n f).streams k = if k = n then (Tab.get? s.streams n).map f else Tab.get? s.streams k := by
  rw [State.updStream_streams]; exact Tab.get?_updIf ..
theorem State.get?_updBand (f : BandS → BandS) :
    Tab.get? (s.updBand n f).bands k = if k = n then (Tab.get? s.bands n).map f else Tab.get? s.bands k := by
  rw [State.updBand_bands]; exact Tab.get?_updIf ..
theorem State.get?_updMap (f : MapS → MapS) :
    Tab.get? (s.updMap n f).maps k = if k = n then (Tab.get? s.maps n).map f else Tab.get? s.maps k := by
  rw [State.updMap_maps]; exact Tab.get?_updIf ..
theorem State.get?_updObj (f : ObjS → ObjS) :
    Tab.get? (s.updObj n f).objs k = if k = n then (Tab.get? s.objs n).map f else Tab.get? s.objs k := by
  rw [State.updObj_objs]; exact Tab.get?_updIf ..

theorem State.sessionAt_updCtx (f : CtxS → CtxS) : (s.updCtx n f).sessionAt k = if k = n then (f (s.ctxAt n)).session else s.sessionAt k := by
  simp only [State.sessionAt, State.ctxAt_updCtx]; split_ifs <;> rfl

/-- A context's session takes the update; a context without one stays without. -/
theorem State.sessionAt_updSession (f : SessionS → SessionS) :
    (s.updSession n f).sessionAt k = if k = n then (s.sessionAt n).map f else s.sessionAt k := by
  unfold State.updSession
  split
  · rename_i x hx
    rw [State.sessionAt_updCtx]; split_ifs <;> simp [State.sessionAt, hx]
  · rename_i hx
    split_ifs with h
    · subst h; simp [State.sessionAt, hx]
    · rfl

end Sys2Proof.Machine
end

