-- ==== Sys2Proof/Laws/Commands.lean ====
section
/-! SUPPORT. The laws of the outstanding commands: what is found after an update, what a command that has ended replies, and that
ending a command touches nothing but the list of commands. -/

namespace Sys2Proof.Machine

theorem State.findCmd_updCmd (s : State) (c d : CmdRef) (f : Cmd → Cmd) (hf : ∀ m, (f m).ref = m.ref) :
    (s.updCmd c f).findCmd d = if d = c then (s.findCmd d).map f else s.findCmd d := by
  simp only [State.findCmd, State.updCmd, List.find?_map]
  have h1 : ((fun m => decide (m.ref = d)) ∘ fun m : Cmd => if m.ref = c then f m else m) = fun m => decide (m.ref = d) := by
    funext m; simp only [Function.comp]; split_ifs <;> simp [hf]
  rw [h1]
  cases h : List.find? (fun m => decide (m.ref = d)) s.cmds with
  | none => simp
  | some m =>
    have hm : m.ref = d := by simpa using List.find?_some h
    by_cases hd : d = c
    · simp [hm, hd]
    · have : ¬ m.ref = c := by rw [hm]; exact hd
      simp [this, hd]

/-- A command that is found carries the reference it is found by. -/
theorem State.findCmd_ref {s : State} {c : CmdRef} {m : Cmd} (h : s.findCmd c = some m) : m.ref = c := by
  have := List.find?_some h; simpa using this

@[simp] theorem State.findCmd_began (s : State) (c d : CmdRef) :
    (s.began c).findCmd d = if d = c then (s.findCmd d).map (fun x => { x with begun := true }) else s.findCmd d :=
  s.findCmd_updCmd c d _ fun _ => rfl

@[simp] theorem State.findCmd_endCmd (s : State) (c d : CmdRef) (r : Reply) :
    (s.endCmd c r).findCmd d = if d = c then (s.findCmd d).map (fun x => { x with phase := .ended, reply := some r }) else s.findCmd d :=
  s.findCmd_updCmd c d _ fun _ => rfl

@[simp] theorem State.findCmd_commit (s : State) (c d : CmdRef) :
    (s.commit c).findCmd d = if d = c then (s.findCmd d).map
      (fun m => if m.committed then m else { m with committed := true, commitTime := s.devTime }) else s.findCmd d :=
  s.findCmd_updCmd c d _ fun m => by split_ifs <;> rfl

/-- Ending a command answers it. -/
theorem State.replyOf_endCmd {s : State} {c : CmdRef} (r : Reply) (h : (s.findCmd c).isSome) : (s.endCmd c r).replyOf c = some r := by
  obtain ⟨m, hm⟩ := Option.isSome_iff_exists.1 h
  simp [State.replyOf, hm]

theorem State.answered_refuse {s : State} {c : CmdRef} (st d : Nat) (h : (s.findCmd c).isSome) : (s.refuse c st d).answered c st d [] :=
  ⟨_, State.replyOf_endCmd _ h, rfl, rfl, rfl⟩

theorem State.answered_done {s : State} {c : CmdRef} (st d : Nat) (b : List Word) (o : List Byte) (h : (s.findCmd c).isSome) :
    (s.done c st d b o).answered c st d b := by
  refine ⟨_, State.replyOf_endCmd _ ?_, rfl, rfl, rfl⟩
  obtain ⟨m, hm⟩ := Option.isSome_iff_exists.1 h
  simp [hm]

theorem otherCmds_done (s : State) (c : CmdRef) (st d : Nat) (b : List Word) (o : List Byte) : otherCmds s (s.done c st d b o) c := by
  intro e he; simp [State.done, he]

theorem otherCmds_refuse (s : State) (c : CmdRef) (st d : Nat) : otherCmds s (s.refuse c st d) c := by
  intro e he; simp [State.refuse, he]

theorem otherCmds_began (s : State) (c : CmdRef) : otherCmds s (s.began c) c := by
  intro e he; simp [he]

theorem otherCmds.trans {s t u : State} {c : CmdRef} (h : otherCmds s t c) (k : otherCmds t u c) : otherCmds s u c :=
  fun d hd => (k d hd).trans (h d hd)

/-- Ending a command changes the list of commands alone. -/
theorem State.done_eq (s : State) (c : CmdRef) (st d : Nat) (b : List Word) (o : List Byte) :
    s.done c st d b o = { s with cmds := (s.done c st d b o).cmds } := rfl

theorem State.refuse_eq (s : State) (c : CmdRef) (st d : Nat) : s.refuse c st d = { s with cmds := (s.refuse c st d).cmds } := rfl

theorem State.began_eq (s : State) (c : CmdRef) : s.began c = { s with cmds := (s.began c).cmds } := rfl

/-- Whether host memory answers is read from the failing ranges and the link alone. -/
theorem hostReadable_congr {s t : State} (h2 : t.hostBad = s.hostBad) (h3 : t.life.linkUp = s.life.linkUp) (a n : Nat) :
    t.hostReadable a n = s.hostReadable a n := by
  unfold State.hostReadable; rw [h2, h3]

/-- A scatter reference is read from host memory, the failing ranges and the link alone. -/
theorem sgWalk_congr {s t : State} (h1 : t.hostMem = s.hostMem) (h2 : t.hostBad = s.hostBad) (h3 : t.life.linkUp = s.life.linkUp)
    (fuel : Nat) (todo acc : List (Nat × Nat)) (n : Nat) : sgWalk t fuel todo acc n = sgWalk s fuel todo acc n := by
  induction fuel generalizing todo acc n with
  | zero => rfl
  | succ fuel ih =>
    rcases todo with _ | ⟨⟨a, k⟩, rest⟩
    · rfl
    · cases k with
      | zero => unfold sgWalk; simp only [ih]
      | succ k => unfold sgWalk; simp only [ih, hostReadable_congr h2 h3, h1]

theorem sgExtents_congr {s t : State} (h1 : t.hostMem = s.hostMem) (h2 : t.hostBad = s.hostBad) (h3 : t.life.linkUp = s.life.linkUp)
    (m : Cmd) (i : Nat) : sgExtents m i t = sgExtents m i s := by
  unfold sgExtents; simp only [sgWalk_congr h1 h2 h3]

theorem sgIn_congr {s t : State} (h1 : t.hostMem = s.hostMem) (h2 : t.hostBad = s.hostBad) (h3 : t.life.linkUp = s.life.linkUp)
    (m : Cmd) (i : Nat) : sgIn m i t = sgIn m i s := by
  unfold sgIn; simp only [sgExtents_congr h1 h2 h3, hostReadable_congr h2 h3, h1]

/-- The input data of a command are the same once it has begun. -/
@[simp] theorem sgIn_began (m : Cmd) (i : Nat) (s : State) (c : CmdRef) : sgIn m i (s.began c) = sgIn m i s :=
  sgIn_congr (s := s) (t := s.began c) rfl rfl rfl m i

@[simp] theorem sgExtents_began (m : Cmd) (i : Nat) (s : State) (c : CmdRef) : sgExtents m i (s.began c) = sgExtents m i s :=
  sgExtents_congr (s := s) (t := s.began c) rfl rfl rfl m i

/-- What `onCmd` does where the command runs: the effect, on the state with the command marked as begun. -/
theorem onCmd_runs {op : Nat} {c : CmdRef} {s : State} {m : Cmd} (k : Cmd → State → State) (h : s.runs c op m) :
    onCmd op c s k = .next (k m (s.began c)) := by
  obtain ⟨h1, h2, h3, h4⟩ := h
  simp [onCmd, h1, h2, h3, h4, State.began]

/-- Where no such command runs, nothing comes about. -/
theorem onCmd_idle {op : Nat} {c : CmdRef} {s : State} (k : Cmd → State → State) (h : ∀ m, ¬ s.runs c op m) :
    onCmd op c s k = .next s := by
  unfold onCmd
  split
  · rename_i m hm
    split_ifs with h2
    · exact absurd ⟨hm, h2.1, h2.2.1, h2.2.2⟩ (h m)
    · rfl
  · rfl

end Sys2Proof.Machine
end

