-- ==== Sys2Proof/Laws/Memory.lean ====
section
/-! SUPPORT. The laws of host memory: every operation that writes it keeps its canonical form, a read after a write gives what was written,
and a write leaves every other address alone (R648, R651). -/

namespace Sys2Proof.Machine

/-- Writing bytes keeps the canonical form. -/
theorem canonical_writeHost (b : List Byte) (m : Tab Byte) (a : Nat) (h : Tab.canonical 0 m = true) :
    Tab.canonical 0 (writeHost m a b) = true := by
  induction b generalizing m a with
  | nil => exact h
  | cons x t ih => exact ih _ _ (Tab.canonical_write 0 m a x h)

/-- Writing over the extents of a scatter list keeps the canonical form. -/
theorem canonical_writeExtents (l : List (Nat × Nat)) (b : List Byte) (m : Tab Byte) (h : Tab.canonical 0 m = true) :
    Tab.canonical 0 (writeExtents m l b) = true := by
  induction l generalizing m b with
  | nil => exact h
  | cons e t ih => exact ih _ _ (canonical_writeHost _ _ _ h)

/-- What the host places byte by byte keeps the canonical form. -/
theorem canonical_place (l : List (Nat × Byte)) (m : Tab Byte) (h : Tab.canonical 0 m = true) :
    Tab.canonical 0 (l.foldl (fun m e => Tab.write 0 m e.1 e.2) m) = true := by
  induction l generalizing m with
  | nil => exact h
  | cons e t ih => exact ih _ (Tab.canonical_write 0 m e.1 e.2 h)

/-- A byte after a write of a run of bytes. -/
theorem getD_writeHost (b : List Byte) (m : Tab Byte) (a k : Nat) :
    Tab.getD (writeHost m a b) k 0 = if a ≤ k ∧ k < a + b.length then b.getD (k - a) 0 else Tab.getD m k 0 := by
  induction b generalizing m a with
  | nil => simp [writeHost]
  | cons x t ih =>
    simp only [writeHost, ih, Tab.getD_write, List.length_cons]
    rcases Nat.lt_trichotomy k a with h | h | h
    · rw [if_neg (by omega), if_neg (by omega), if_neg (by omega)]
    · subst h; rw [if_neg (by omega), if_pos rfl, if_pos (by omega)]; simp
    · obtain ⟨j, rfl⟩ : ∃ j, k = a + 1 + j := ⟨k - a - 1, by omega⟩
      have h1 : a + 1 + j - a = j + 1 := by omega
      have h2 : a + 1 + j - (a + 1) = j := by omega
      by_cases hj : j < t.length
      · rw [if_pos (by omega), if_pos (by omega), h1, h2]; simp
      · rw [if_neg (by omega), if_neg (by omega), if_neg (by omega)]

/-- A write leaves every address outside it as it was. -/
theorem getD_writeHost_outside (b : List Byte) (m : Tab Byte) (a k : Nat) (h : k < a ∨ a + b.length ≤ k) :
    Tab.getD (writeHost m a b) k 0 = Tab.getD m k 0 := by
  rw [getD_writeHost, if_neg (by omega)]

/-- Output data leave every address outside the extents as it was. -/
theorem getD_writeExtents_outside (l : List (Nat × Nat)) (b : List Byte) (m : Tab Byte) (k : Nat)
    (h : ∀ e ∈ l, k < e.1 ∨ e.1 + e.2 ≤ k) : Tab.getD (writeExtents m l b) k 0 = Tab.getD m k 0 := by
  induction l generalizing m b with
  | nil => rfl
  | cons e t ih =>
    obtain ⟨a, n⟩ := e
    simp only [writeExtents]
    rw [ih _ _ fun e he => h e (List.mem_cons_of_mem _ he)]
    apply getD_writeHost_outside
    have := h (a, n) (List.mem_cons_self ..)
    simp only [List.length_take]
    omega

theorem memoryWf_hostWrite (s : State) (a : Nat) (b : List Byte) (h : memoryWf s = true) : memoryWf (s.hostWrite a b) = true :=
  canonical_writeHost b s.hostMem a h

/-- Output data of a command keep the canonical form, and nothing but host memory changes. -/
theorem sgOut_fst (m : Cmd) (i : Nat) (b : List Byte) (s : State) :
    (sgOut m i b s).1 = { s with hostMem := (sgOut m i b s).1.hostMem } ∧ (memoryWf s = true → memoryWf (sgOut m i b s).1 = true) := by
  unfold sgOut
  split
  · exact ⟨rfl, id⟩
  · split
    · exact ⟨rfl, fun h => canonical_writeExtents _ _ _ h⟩
    · exact ⟨rfl, id⟩

end Sys2Proof.Machine
end

