-- ==== Sys2Proof/Laws/Keeps.lean ====
section
/-! SUPPORT. What no operation may undo: the queue of waiting commands stays, host memory keeps its canonical form, and the fused SVN does not fall
(R856). One lemma per shared operation says that it keeps them; they compose by `Keeps.trans`. -/

namespace Sys2Proof.Machine

/-- `t` keeps of `s` the queue, the canonical form of host memory and the fused SVN. -/
structure Keeps (s t : State) : Prop where
  pending : t.pending = s.pending
  memory : memoryWf s = true → memoryWf t = true
  svn : s.sec.svn ≤ t.sec.svn

theorem Keeps.refl (s : State) : Keeps s s := ⟨rfl, id, le_rfl⟩

theorem Keeps.trans {s t u : State} (h : Keeps s t) (k : Keeps t u) : Keeps s u :=
  ⟨k.pending.trans h.pending, fun w => k.memory (h.memory w), h.svn.trans k.svn⟩

/-- A state with the same queue, host memory and fused SVN. -/
theorem Keeps.of_eq {s t : State} (h1 : t.pending = s.pending) (h2 : t.hostMem = s.hostMem) (h3 : t.sec.svn = s.sec.svn) : Keeps s t :=
  ⟨h1, fun w => by rw [memoryWf, h2]; exact w, h3.ge⟩

/-- A pass over a list keeps what each of its steps keeps. -/
theorem Keeps.forEach {α : Type} (l : List α) (f : α → State → State) (h : ∀ x s, Keeps s (f x s)) (s : State) : Keeps s (forEach l f s) := by
  induction l generalizing s with
  | nil => exact .refl s
  | cons x t ih => exact (h x s).trans (ih (f x s))

variable (s : State)

theorem Keeps.updFn (n : Nat) (f : FnRegs → FnRegs) : Keeps s (s.updFn n f) := .of_eq rfl rfl rfl
theorem Keeps.updCtx (n : Nat) (f : CtxS → CtxS) : Keeps s (s.updCtx n f) := .of_eq rfl rfl rfl
theorem Keeps.updPort (n : Nat) (f : PortS → PortS) : Keeps s (s.updPort n f) := .of_eq rfl rfl rfl
theorem Keeps.updChan (n : Nat) (f : ChannelS → ChannelS) : Keeps s (s.updChan n f) := .of_eq rfl rfl rfl
theorem Keeps.updReel (n : Nat) (f : ReelEntry → ReelEntry) : Keeps s (s.updReel n f) := .of_eq rfl rfl rfl
theorem Keeps.updTile (n : Nat) (f : TileS → TileS) : Keeps s (s.updTile n f) := .of_eq rfl rfl rfl
theorem Keeps.updIsland (n : Nat) (f : IslandS → IslandS) : Keeps s (s.updIsland n f) := .of_eq rfl rfl rfl
theorem Keeps.updOutput (n : Nat) (f : OutputS → OutputS) : Keeps s (s.updOutput n f) := .of_eq rfl rfl rfl
theorem Keeps.updEngine (n : Nat) (f : EngineS → EngineS) : Keeps s (s.updEngine n f) := .of_eq rfl rfl rfl
theorem Keeps.updStream (n : Nat) (f : StreamS → StreamS) : Keeps s (s.updStream n f) := .of_eq (by simp) (by simp) (by simp)
theorem Keeps.updBand (n : Nat) (f : BandS → BandS) : Keeps s (s.updBand n f) := .of_eq (by simp) (by simp) (by simp)
theorem Keeps.updMap (n : Nat) (f : MapS → MapS) : Keeps s (s.updMap n f) := .of_eq (by simp) (by simp) (by simp)
theorem Keeps.updObj (n : Nat) (f : ObjS → ObjS) : Keeps s (s.updObj n f) := .of_eq (by simp) (by simp) (by simp)
theorem Keeps.updSession (n : Nat) (f : SessionS → SessionS) : Keeps s (s.updSession n f) := .of_eq (by simp) (by simp) (by simp)
theorem Keeps.mapLife (f : LifeS → LifeS) : Keeps s (s.mapLife f) := .of_eq rfl rfl rfl
theorem Keeps.mapTime (f : TimeS → TimeS) : Keeps s (s.mapTime f) := .of_eq rfl rfl rfl
theorem Keeps.mapPower (f : PowerS → PowerS) : Keeps s (s.mapPower f) := .of_eq rfl rfl rfl
theorem Keeps.mapDep (f : DepS → DepS) : Keeps s (s.mapDep f) := .of_eq rfl rfl rfl
theorem Keeps.mapAge (f : AgeS → AgeS) : Keeps s (s.mapAge f) := .of_eq rfl rfl rfl
theorem Keeps.mapTether (f : TetherS → TetherS) : Keeps s (s.mapTether f) := .of_eq rfl rfl rfl
theorem Keeps.mapSec (f : SecS → SecS) (h : s.sec.svn ≤ (f s.sec).svn) : Keeps s (s.mapSec f) := ⟨rfl, id, h⟩
theorem Keeps.updCmd (c : CmdRef) (f : Cmd → Cmd) : Keeps s (s.updCmd c f) := .of_eq rfl rfl rfl
theorem Keeps.delCmd (c : CmdRef) : Keeps s (s.delCmd c) := .of_eq rfl rfl rfl
theorem Keeps.began (c : CmdRef) : Keeps s (s.began c) := .of_eq rfl rfl rfl
theorem Keeps.endCmd (c : CmdRef) (r : Reply) : Keeps s (s.endCmd c r) := .of_eq rfl rfl rfl
theorem Keeps.commit (c : CmdRef) : Keeps s (s.commit c) := .of_eq rfl rfl rfl
theorem Keeps.done (c : CmdRef) (st d : Nat) (b : List Word) (o : List Byte) : Keeps s (s.done c st d b o) := .of_eq rfl rfl rfl
theorem Keeps.refuse (c : CmdRef) (st d : Nat) : Keeps s (s.refuse c st d) := .of_eq rfl rfl rfl
theorem Keeps.refuseOpen (c : CmdRef) (st : Nat) : Keeps s (s.refuseOpen c st) := .of_eq rfl rfl rfl
theorem Keeps.badWord (c : CmdRef) (i : Nat) : Keeps s (s.badWord c i) := .of_eq rfl rfl rfl
theorem Keeps.raise (code detail : Nat) : Keeps s (s.raise code detail) := .of_eq rfl rfl rfl
theorem Keeps.raiseCtx (n code detail : Nat) : Keeps s (s.raiseCtx n code detail) := .of_eq rfl rfl rfl
theorem Keeps.raiseMask (mask code detail : Nat) : Keeps s (s.raiseMask mask code detail) := .of_eq rfl rfl rfl
theorem Keeps.raiseTether (code detail : Nat) : Keeps s (s.raiseTether code detail) := .of_eq rfl rfl rfl
theorem Keeps.send (x : OutMsg) : Keeps s (s.send x) := .of_eq rfl rfl rfl
theorem Keeps.spend (k : Nat) : Keeps s (s.spend k) := .of_eq rfl rfl rfl
theorem Keeps.takeFree : Keeps s s.takeFree.2 := .of_eq rfl rfl rfl
theorem Keeps.hostWrite (a : Nat) (b : List Byte) : Keeps s (s.hostWrite a b) := ⟨rfl, memoryWf_hostWrite s a b, le_rfl⟩

theorem Keeps.msix (fn v : Nat) : Keeps s (s.msix fn v) := by
  unfold State.msix; split
  · exact .updFn ..
  · exact .send ..

theorem Keeps.raiseOncePerSecond (key : Nat) (ctx : Option Nat) (code detail : Nat) (other : State → State) (h : Keeps s (other s)) :
    Keeps s (s.raiseOncePerSecond key ctx code detail other) := by
  unfold State.raiseOncePerSecond; split
  · cases ctx <;> exact .of_eq rfl rfl rfl
  · exact h

theorem Keeps.sgOut (m : Cmd) (i : Nat) (b : List Byte) : Keeps s (sgOut m i b s).1 := by
  obtain ⟨h1, h2⟩ := sgOut_fst m i b s
  exact ⟨by rw [h1], h2, by rw [h1]⟩

theorem Keeps.withSg (m : Cmd) (i : Nat) (k : List Byte → State) (h : ∀ b, Keeps s (k b)) : Keeps s (withSg m i s k) := by
  unfold Sys2Proof.Machine.withSg; split
  · exact h _
  · exact .refuse ..
  · exact .refuse ..

theorem Keeps.doneOut (m : Cmd) (i : Nat) (b : List Byte) (body : List Word) : Keeps s (s.doneOut m i b body) :=
  (Keeps.sgOut s m i b).trans (.done ..)

/-- An outcome that is a next state and keeps what `Keeps` names. -/
def Out.keeps (s : State) (o : Out) : Prop := ∃ t, o = .next t ∧ Keeps s t

/-- A command row whose effect keeps it. -/
theorem onCmd_keeps (op : Nat) (c : CmdRef) (k : Cmd → State → State) (h : ∀ m u, Keeps u (k m u)) : Out.keeps s (onCmd op c s k) := by
  unfold onCmd
  split
  · split
    · exact ⟨_, rfl, (Keeps.updCmd s c _).trans (h _ _)⟩
    · exact ⟨s, rfl, .refl s⟩
  · exact ⟨s, rfl, .refl s⟩

/-- An event row whose effect keeps it. -/
theorem onTrigger_keeps (p : Bool) (k : State → State) (h : Keeps s (k s)) : Out.keeps s (onTrigger p s k) := by
  unfold onTrigger
  split
  · exact ⟨_, rfl, h⟩
  · exact ⟨s, rfl, .refl s⟩

end Sys2Proof.Machine
end

