-- ==== Sys2Proof/WellFormed.lean ====
section
/-! DEFINITION. Operand ranges: the numbers that the spec gives names to (Table 0-4, R27, R46, Table 15-1). -/

namespace Sys2Proof

/-- A PCIe function 0 to 7 (R46), or the Tether master. -/
def Sender.wf : Sender → Bool
  | .host fn => decide (fn < 8)
  | .tether => true

/-- A command in one of a function's 32 slots (Table 15-1), or a Tether command by its arrival number. -/
def CmdRef.wf (c : CmdRef) : Bool :=
  match c.sender with
  | .host fn => decide (fn < 8) && decide (c.key < 32)
  | .tether => true

/-- Tiles T00 to T55 with 8,192 rows, 64 commons banks of 2,048 rows, 16 HBM channels (R782, chapter 11). -/
def PatrolPlace.wf : PatrolPlace → Bool
  | .tileRow tile row => decide (tile < 56) && decide (row < 8192)
  | .commonsRow bank row => decide (bank < 64) && decide (row < 2048)
  | .hbm channel _ _ _ => decide (channel < 16)

/-- A camera port's I2C bus, or the SMBus (Table 23-8). -/
def HeldLine.wf : HeldLine → Bool
  | .cameraI2c port _ => decide (port < 12)
  | .smbus _ => true

/-- The port codes of Table 4-1. -/
def portCode (p : Nat) : Bool :=
  decide (p < 12) || (decide (16 ≤ p) && decide (p < 20)) || (decide (32 ≤ p) && decide (p < 35))
    || (decide (48 ≤ p) && decide (p < 56)) || (decide (64 ≤ p) && decide (p < 66))

/-- Whether every numbered operand names an item that the module has. -/
def Instr.wf (i : Instr) : Bool :=
  match i with
  | .hello c => c.wf
  | .queryCaps c => c.wf
  | .abort c => c.wf
  | .domainClaim c => c.wf
  | .domainRelease c => c.wf
  | .expertEnable c => c.wf
  | .expertDisable c => c.wf
  | .expertPolicy c => c.wf
  | .startSession c => c.wf
  | .stopSession c => c.wf
  | .setStageMode c => c.wf
  | .sessionStatus c => c.wf
  | .portClaim c => c.wf
  | .portRelease c => c.wf
  | .portConfig c => c.wf
  | .portStatus c => c.wf
  | .portTiming c => c.wf
  | .camI2cXfer c _ _ => c.wf
  | .formatWrite c => c.wf
  | .triggerClaim c => c.wf
  | .timeGet c => c.wf
  | .timeSet c => c.wf
  | .timeAdjust c => c.wf
  | .timeSetIncrement c => c.wf
  | .clockReset c => c.wf
  | .ptpConfig c => c.wf
  | .reelWrite c => c.wf
  | .reelArm c => c.wf
  | .reelDisarm c => c.wf
  | .reelRead c => c.wf
  | .filterBind c => c.wf
  | .filterPreset c => c.wf
  | .filterLoad c => c.wf
  | .filterSwap c => c.wf
  | .filterThreshold c => c.wf
  | .filterRead c => c.wf
  | .remapLoad c => c.wf
  | .stereoConfig c => c.wf
  | .chainConfig c => c.wf
  | .featureConfig c => c.wf
  | .descPatternLoad c => c.wf
  | .quadrilleLoad c => c.wf
  | .quadrilleRun c => c.wf
  | .visionRead c => c.wf
  | .rigWrite c => c.wf
  | .rigRead c => c.wf
  | .fusionConfig c => c.wf
  | .calibRead c => c.wf
  | .calibCommit c => c.wf
  | .mapCreate c => c.wf
  | .mapDestroy c => c.wf
  | .mapQuery c => c.wf
  | .mapEdit c => c.wf
  | .mapLend c => c.wf
  | .mapRecall c => c.wf
  | .mapMerge c => c.wf
  | .mapExport c => c.wf
  | .mapImport c => c.wf
  | .indexCreate c => c.wf
  | .indexDestroy c => c.wf
  | .searchInsert c => c.wf
  | .searchQuery c => c.wf
  | .contextAdmit c => c.wf
  | .contextRelease c => c.wf
  | .contextStatus c => c.wf
  | .hostWindowSet c => c.wf
  | .objCreate c => c.wf
  | .objDestroy c => c.wf
  | .objWrite c => c.wf
  | .objRead c => c.wf
  | .objSeal c => c.wf
  | .objShare c => c.wf
  | .objUnshare c => c.wf
  | .objMove c => c.wf
  | .objPromote c => c.wf
  | .objEvict c => c.wf
  | .objPin c => c.wf
  | .objUnpin c => c.wf
  | .windowBind c => c.wf
  | .streamBind c => c.wf
  | .objQuery c => c.wf
  | .objReload c => c.wf
  | .powerCapSet c => c.wf
  | .energyAccountSet c => c.wf
  | .ballastSet c => c.wf
  | .worklevelLoad c => c.wf
  | .vfCurveLoad c => c.wf
  | .powerStateSet c => c.wf
  | .energyStatus c => c.wf
  | .safeStop c => c.wf
  | .safeStopClear c => c.wf
  | .healthStatus c => c.wf
  | .marginReplan c => c.wf
  | .ageingRead c => c.wf
  | .eventRead c => c.wf
  | .identityRead c => c.wf
  | .fwStatus c => c.wf
  | .fwStage c => c.wf
  | .fwActivate c => c.wf
  | .ownerKeyTransfer c => c.wf
  | .diagTileStatus c => c.wf
  | .diagBandStatus c => c.wf
  | .diagCounters c => c.wf
  | .diagFaultInject c => c.wf
  | .slotArm fn slot _ _ => decide (fn < 8) && decide (slot < 32)
  | .slotWriteLost fn slot index _ => decide (fn < 8) && decide (slot < 32) && decide (index < 128)
  | .registerWrite fn offset _ => decide (fn < 8) && decide (offset < 0x8000)
  | .commandStart who => who.wf
  | .commandReply c => c.wf
  | .mctpMessageReceived _ _ _ _ _ => true
  | .setEndpointId _ _ => true
  | .getEndpointId _ => true
  | .getMctpVersionSupport _ _ => true
  | .getMessageTypeSupport _ => true
  | .getVendorDefinedMessageSupport _ _ => true
  | .getVersion _ => true
  | .getCapabilities _ => true
  | .negotiateAlgorithms _ _ _ _ _ => true
  | .getDigests _ => true
  | .getCertificate _ slot _ _ => decide (slot < 8)
  | .challenge _ slot _ _ => decide (slot < 8)
  | .getMeasurements _ _ _ _ => true
  | .pcieConfigRequest fn _ _ => decide (fn < 8)
  | .perstAssert => true
  | .perstDeassert => true
  | .functionReset fn _ => decide (fn < 8)
  | .vauxApplied => true
  | .vauxLow => true
  | .mainSideStart _ => true
  | .startupDone => true
  | .mainSupplyOutOfRange _ => true
  | .mainSupplyReturn => true
  | .mainSupplyDropout => true
  | .inputReversed input => decide (input < 3)
  | .supplyFlagPoll => true
  | .vsensOutOfRange _ => true
  | .vsensBackInRange => true
  | .supplyOvercurrent port => portCode port
  | .supplyShort port => portCode port
  | .supplyOpenLoad port => portCode port
  | .supplyBackFeed port => portCode port
  | .tripCountClear port => portCode port
  | .outputCompare output _ => decide (output < 32)
  | .outputRestoreTry output _ => decide (output < 32)
  | .lineHeldLow line => line.wf
  | .dphyLineStuck port _ => portCode port
  | .encoderLineOpen port _ => portCode port
  | .canLineOpen port _ => portCode port
  | .canPairSwapped port => portCode port
  | .thermalWarning _ _ => true
  | .thermalShutdown _ _ => true
  | .timebaseTick => true
  | .imu0Sample _ _ => true
  | .ppsInEdge => true
  | .ppsOutRise => true
  | .ppsOutFall => true
  | .reelPulseRise entry => decide (entry < 64)
  | .reelPulseFall entry => decide (entry < 64)
  | .ptpSyncReceived port _ _ _ _ => decide (port < 4)
  | .ptpMessageReceived port _ _ => decide (port < 4)
  | .ptpMessageSent port _ _ => decide (port < 4)
  | .syncTimeout => true
  | .arpIcmpRequest port _ _ => decide (port < 4)
  | .clockSourceLost source => decide (source < 2)
  | .clockSourceStable source => decide (source < 2)
  | .clockSourceReturn island => decide (island < 8)
  | .pllLockLost island => decide (island < 8)
  | .islandResume island => decide (island < 8)
  | .voltageTransition island => decide (island < 8)
  | .sensorDetected port => portCode port
  | .detectTimeout port => portCode port
  | .retryPeriod port => portCode port
  | .trainingDone port _ _ _ => portCode port
  | .trainingTimeout port => portCode port
  | .portStall port => portCode port
  | .frameStart port _ _ => portCode port
  | .stripLanded stream _ _ => decide (stream < 24)
  | .frameEnd stream _ _ _ _ => decide (stream < 24)
  | .closeDeadline ctx => decide (ctx < 8)
  | .lidarPacket port _ _ _ _ => portCode port
  | .lidarSweepTimeout port => portCode port
  | .imuBurst port _ _ => portCode port
  | .canFrame port _ _ _ _ => portCode port
  | .canSignalStale port _ => portCode port
  | .encoderStandstill port => portCode port
  | .encoderVerifyWindow port _ _ => portCode port
  | .filterInputSample channel => decide (channel < 32)
  | .remapCellRow stream _ inst _ => decide (stream < 24) && decide (inst < 16)
  | .pyramidRow stream level _ inst _ => decide (stream < 24) && decide (level < 6) && decide (inst < 16)
  | .stereoStrip ctx pair _ _ => decide (ctx < 8) && decide (pair < 6)
  | .cornerCellRow stream _ inst _ => decide (stream < 24) && decide (inst < 16)
  | .descriptorUnit stream _ inst _ => decide (stream < 24) && decide (inst < 16)
  | .flowPoint stream _ inst _ => decide (stream < 24) && decide (inst < 16)
  | .featureBlockDone stream => decide (stream < 24)
  | .engineRecoveryGraph _ inst _ => decide (inst < 16)
  | .quadrilleNode _ _ _ => true
  | .bandStep band _ => decide (band < 16)
  | .moveComplete band tile flag => decide (band < 16) && decide (tile < 52) && decide (flag < 16)
  | .codePageLoaded band _ _ => decide (band < 16)
  | .rendezvousComplete rv => decide (rv < 64)
  | .streamLayerResident ctx stream tile => decide (ctx < 8) && decide (stream < 24) && decide (tile < 52)
  | .fabricRendezvousLate band => decide (band < 16)
  | .pairCommit ctx _ => decide (ctx < 8)
  | .carrierDeadline ctx => decide (ctx < 8)
  | .degradedRecord ctx _ => decide (ctx < 8)
  | .poseCoverDeadline ctx _ _ => decide (ctx < 8)
  | .stepTimeout band tile => decide (band < 16) && decide (tile < 56)
  | .laneSubstitutionDone tile => decide (tile < 56)
  | .tileRepairDone tile => decide (tile < 56)
  | .checkpointRollback band => decide (band < 16)
  | .patrolRead place _ => place.wf
  | .hbmRowRetired channel _ _ _ => decide (channel < 16)
  | .stewardFault core => decide (core < 3)
  | .stewardRejoin core => decide (core < 3)
  | .granuleMove _ _ => true
  | .copyGranuleFree _ _ => true
  | .objectRestreamed _ _ _ _ => true
  | .heldRecordExpiry => true
  | .mapCommit map => decide (map < 16)
  | .tombstoneFree map => decide (map < 16)
  | .generationSweep map => decide (map < 16)
  | .mapDeltaWrite ctx => decide (ctx < 8)
  | .loopQueryIssue ctx _ _ => decide (ctx < 8)
  | .loopVerify ctx _ => decide (ctx < 8)
  | .searchScan _ => true
  | .searchPassEnd _ => true
  | .planningIntervalEnd _ => true
  | .energyHorizonPassed => true
  | .bridleGrantPeriod _ _ => true
  | .powerDroop _ => true
  | .droopRecovery => true
  | .autoIdle => true
  | .marginReplanDaily => true
  | .marginReplanned _ => true
  | .healthPeriod ctx => decide (ctx < 8)
  | .eventHealthRecord => true
  | .fwCoreRebootDone core => decide (core < 3)
  | .fwSwitchPoint => true
  | .fwBandSwap band => decide (band < 16)
  | .fwFlashVerified => true
  | .fwUpdateRolledBack => true
  | .recoveryWriteDone _ => true
  | .quadratureEdge port _ _ _ => portCode port
  | .hostLinkDown => true
  | .hostLinkUp => true

end Sys2Proof
end

