-- ==== Sys2Proof/Tests/Slice0.lean ====
section
/-! SUPPORT. Tests: well-formedness refuses an ill-formed term for each check, and for every statement with hypotheses a state and
operands that meet them. Each theorem is closed by evaluation of one step or of the hypotheses. -/

namespace Sys2Proof.Tests

open Sys2Proof.Machine

-- The theorems below are checked one after another: proofs that wait for the kernel side by side each hold a thread with its own
-- stack, and together they pass the memory limit of the check.
set_option Elab.async false

/-- A started command with these parameter words from W3 on, of minor 0 and TAG 1. -/
def aCmd (who : Sender) (op : Nat) (params : List Word) : Cmd :=
  { ref := ⟨who, 0⟩, words := [w32 (op * 65536 + 3 + params.length), w32 0x10000, w32 0x01000000] ++ params, phase := .running }

/-- The same command of context `n`. -/
def inCtx (n : Nat) (m : Cmd) : Cmd := { m with words := m.words.set 1 (w32 (0x10000 + 256 * n)) }

/-- `s` with one command of the PF in slot 0 outstanding. -/
def pf (op : Nat) (params : List Word) (s : State := State.reset) : State := { s with cmds := [aCmd (.host 0) op params] }

/-- `s` with one Tether command outstanding. -/
def side (op : Nat) (params : List Word) (s : State := State.reset) : State := { s with cmds := [aCmd .tether op params] }

/-- The reference of the PF's slot 0, and of the Tether's first message. -/
def slot0 : CmdRef := ⟨.host 0, 0⟩
def msg0 : CmdRef := ⟨.tether, 0⟩

/-- The state after reset with the link up and the main side ready. -/
def up : State := State.reset.mapLife fun x => { x with linkUp := true, main := .ready, v12 := true, perst := false }

/-! ### Operand ranges -/

/-- Ill-formed commands: references and registers. -/
theorem test_ill_formed_references :
    [.hello ⟨.host 8, 0⟩, .hello ⟨.host 0, 32⟩, .slotArm 8 0 0 [], .slotArm 0 32 0 [], .slotWriteLost 8 0 0 0, .slotWriteLost 0 32 0 0,
     .slotWriteLost 0 0 128 0, .registerWrite 8 0 0, .registerWrite 0 0x8000 0, .commandStart (.host 8), .getCertificate .doe 8 0 0,
     .challenge .doe 8 [] 0, .pcieConfigRequest 8 0 none, .functionReset 8 .flr].all (fun i => !Instr.wf i) = true := by decide

/-- Ill-formed commands: ports and outputs. -/
theorem test_ill_formed_ports :
    [.inputReversed 3, .supplyOvercurrent 12, .supplyShort 12, .supplyOpenLoad 12, .supplyBackFeed 12, .tripCountClear 12,
     .outputCompare 32 true, .outputRestoreTry 32 true, .lineHeldLow (.cameraI2c 12 true), .dphyLineStuck 12 0, .encoderLineOpen 12 0,
     .canLineOpen 12 0, .canPairSwapped 12, .reelPulseRise 64, .reelPulseFall 64, .ptpSyncReceived 4 0 0 0 true].all (fun i => !Instr.wf i) = true := by decide

/-- Ill-formed commands: clocks and timebase. -/
theorem test_ill_formed_clocks :
    [.ptpMessageReceived 4 .followUp true, .ptpMessageSent 4 .followUp false, .arpIcmpRequest 4 true 0, .clockSourceLost 2, .clockSourceStable 2,
     .clockSourceReturn 8, .pllLockLost 8, .islandResume 8].all (fun i => !Instr.wf i) = true := by decide

/-- Ill-formed commands: ports, streams and sensors. -/
theorem test_ill_formed_sensors :
    [.voltageTransition 8, .sensorDetected 12, .detectTimeout 12, .retryPeriod 12, .trainingDone 12 0 0 0, .trainingTimeout 12, .portStall 12,
     .frameStart 12 0 0, .stripLanded 24 [] 0, .frameEnd 24 [] [] 0 true, .closeDeadline 8, .lidarPacket 12 0 0 0 [], .lidarSweepTimeout 12,
     .imuBurst 12 true [], .canFrame 12 0 true true [], .canSignalStale 12 0, .encoderStandstill 12, .encoderVerifyWindow 12 0 0,
     .filterInputSample 32, .remapCellRow 24 0 0 true].all (fun i => !Instr.wf i) = true := by decide

/-- Ill-formed commands: vision. -/
theorem test_ill_formed_vision :
    [.remapCellRow 0 0 16 true, .pyramidRow 24 0 0 0 true, .pyramidRow 0 6 0 0 true, .pyramidRow 0 0 0 16 true, .stereoStrip 8 0 0 true,
     .stereoStrip 0 6 0 true, .cornerCellRow 24 0 0 true, .cornerCellRow 0 0 16 true, .descriptorUnit 24 0 0 true,
     .descriptorUnit 0 0 16 true, .flowPoint 24 0 0 true, .flowPoint 0 0 16 true].all (fun i => !Instr.wf i) = true := by decide

/-- Ill-formed commands: fabric and fusion. -/
theorem test_ill_formed_fabric :
    [.featureBlockDone 24, .engineRecoveryGraph 0 16 true, .bandStep 16 {}, .moveComplete 16 0 0, .moveComplete 0 52 0,
     .moveComplete 0 0 16, .codePageLoaded 16 0 true, .rendezvousComplete 64, .streamLayerResident 8 0 0, .streamLayerResident 0 24 0,
     .streamLayerResident 0 0 52, .fabricRendezvousLate 16, .pairCommit 8 true, .carrierDeadline 8, .degradedRecord 8 {},
     .poseCoverDeadline 8 0 {}, .stepTimeout 16 0, .stepTimeout 0 56, .laneSubstitutionDone 56, .tileRepairDone 56, .checkpointRollback 16].all (fun i => !Instr.wf i) = true := by decide

/-- Ill-formed commands: repair, maps and firmware. -/
theorem test_ill_formed_maps :
    [.patrolRead (.tileRow 56 0) .intact, .patrolRead (.tileRow 0 8192) .intact, .patrolRead (.commonsRow 64 0) .intact,
     .patrolRead (.commonsRow 0 2048) .intact, .patrolRead (.hbm 16 0 0 0) .intact, .hbmRowRetired 16 0 0 true, .stewardFault 3,
     .stewardRejoin 3, .mapCommit 16, .tombstoneFree 16, .generationSweep 16, .mapDeltaWrite 8, .loopQueryIssue 8 0 [],
     .loopVerify 8 { passed := true }, .healthPeriod 8, .fwCoreRebootDone 3, .fwBandSwap 16, .quadratureEdge 12 true true 0].all (fun i => !Instr.wf i) = true := by decide

/-- The same commands with every number in its range. -/
theorem test_well_formed :
    [.hello slot0, .hello msg0, .slotArm 7 31 0 [], .slotWriteLost 7 31 127 0, .registerWrite 7 0x7FFC 0, .supplyShort 11, .supplyShort 16, .supplyShort 34,
     .supplyShort 55, .supplyShort 65, .outputCompare 31 true, .reelPulseRise 63, .pyramidRow 23 5 0 15 true, .stereoStrip 7 5 0 true, .bandStep 15 {},
     .moveComplete 15 51 15, .patrolRead (.tileRow 55 8191) .intact, .mapCommit 15, .fwBandSwap 15].all Instr.wf = true := by decide

/-! ### FrontCommandRuns -/

theorem witness_idle : State.reset.pending = [] := by decide

/-! ### CommandEndsWithOneReply -/

theorem witness_ends : (pf 2 []).findCmd slot0 = some (aCmd (.host 0) 2 []) := by decide

/-! ### SessionsStartStopAndChangeMode -/

/-- A START_SESSION of MAP_MAINTAIN on map 0, and a module whose context 0 has that map and a host window. -/
def startReq : Cmd :=
  aCmd (.host 0) 0x100 (bytesWords 4 ((profileAt 4).name.map (fun c => BitVec.ofNat 8 c) ++ zeros (16 - (profileAt 4).name.length)) ++ [0, 0, 0, 0, 0, 0, 16, 0, 0, 16, 0, 0, 21, 0, 0, 16, 0, 0, 0, 0])
def startable : State := { up.updCtx 0 fun c => { c with window := [(0, 65536)] } with maps := [(0, {})], cmds := [startReq] }
def startFieldsOf : StartReq := match startFields startReq with | .inr r => r | .inl _ => {}
set_option maxRecDepth 20000 in
theorem witness_start_fields : startable.runs slot0 0x100 startReq ∧ startFields startReq = .inr startFieldsOf ∧ startFieldsOf.profile = 4 ∧
    (startable.ctxAt 0).admitted = false ∧ startReq.sgTotal 23 = 0 ∧ sgIn startReq 23 startable = .bytes [] ∧ mapServes {} 0 4 = true ∧
    listBad startable 0 startFieldsOf [] = none ∧ startReq.ref = slot0 := by decide +kernel
set_option maxRecDepth 20000 in
theorem witness_start_admits : (admitSession startable 0 startFieldsOf {} []).isSome = true := by
  have h1 : stereoLevel startable startFieldsOf.rate [] = some (0, 0) := by decide +kernel
  have h2 : (placeTiles startable [] ((profileAt 4).bands.map fun b => (b.1, b.2.1))).isSome = true := by decide +kernel
  obtain ⟨place, h3⟩ := Option.isSome_iff_exists.1 h2
  have h4 : (profileAt startFieldsOf.profile) = profileAt 4 := by decide +kernel
  have h5 : ∀ k, startable.energyFits (k % 63251) = true := by
    intro k
    have h : 8000 + startable.shares + 63250 ≤ startable.capLess := by decide +kernel
    have := Nat.mod_lt k (show 0 < 63251 by decide)
    simp only [State.energyFits, decide_eq_true_eq]; omega
  have h6 : ∀ k, ¬ startable.freeBanks.length < k % 57 := by
    intro k
    have h : startable.freeBanks.length = 56 := by decide +kernel
    have := Nat.mod_lt k (show 0 < 57 by decide)
    omega
  have h7 : (profileAt 4).pose = false := by decide
  have h8 : fracLe (sumFrac ((boundLoads startable).map fun x => x.perSecond x.stored)) 3200000000 = true ∧ featureTailFits [] = true ∧
      sustainedFits (boundLoads startable) = true ∧ startable.searchFits (sessionUnits {} startFieldsOf) = true ∧ startable.vecCaps ≤ 16777216 ∧
      startable.hbmFits 0 0 = true ∧ ¬ startable.freeBands.length < (profileAt 4).bands.length := by decide +kernel
  have h9 : (reelWanted startFieldsOf []).length = 0 := by decide +kernel
  have hw : startable.hbmFits 0 (startable.weightGranules 0) = true := by decide +kernel
  obtain ⟨a1, a2, a3, a4, a5, a6, a7⟩ := h8
  have h10 : (startable.ctxAt 0).window ≠ [] := by decide
  have ht : total ([] : List Nat) = 0 := rfl
  simp [admitSession, h1, h3, h4, h5, h6, h7, a1, a2, a3, a7, h9, h10, ht, Nat.not_lt.2 a5]
  exact ⟨a4, hw⟩
theorem witness_start_busy : ((startable.updCtx 0 fun c => { c with session := some {} }).ctxAt 0).admitted = true := by decide
/-- A running session of context 0 with number 7. -/
def running (f : SessionS → SessionS) : State := up.updCtx 0 fun c => { c with session := some (f { number := 7 }) }
theorem witness_stop : (pf 0x101 [7] (running id)).runs slot0 0x101 (aCmd (.host 0) 0x101 [7]) ∧ ((running id).sessionAt 0).isSome = true ∧
    (running id).held = [] := by decide
theorem witness_stop_waits : ((running fun x => { x with sets := [(0, {})] }).sessionAt 0).any (fun x => x.sets.any fun f => !f.2.committed && !f.2.abandoned) = true := by
  decide
theorem witness_stage_mode : (pf 0x102 [7, 7, 2] (running id)).runs slot0 0x102 (aCmd (.host 0) 0x102 [7, 7, 2]) ∧
    ((((aCmd (.host 0) 0x102 [7, 7, 2]).w 4).setWidth 3 &&& ~~~(((aCmd (.host 0) 0x102 [7, 7, 2]).w 5).setWidth 3) &&& 0 : BitVec 3) = 0) := by decide
theorem witness_stage_unavailable : (((1 : Word).setWidth 3 &&& ~~~((0 : Word).setWidth 3) &&& 1 : BitVec 3) ≠ 0) := by decide
theorem witness_mode_unavailable : (let s := running fun x => { x with number := 9, unavailable := 1 }
    (pf 0x102 [9, 1, 0] s).runs slot0 0x102 (aCmd (.host 0) 0x102 [9, 1, 0]) ∧ (s.sessionAt 0).any (fun x => !x.stopping && x.number == 9) = true ∧
    ((1 : BitVec 3) &&& ~~~(0 : BitVec 3) &&& 1) ≠ 0) := by decide

/-! ### HealthRecordsAreWrittenOrHeld -/

theorem witness_health_period : (let s := (running fun x => { x with rings := List.replicate 4 { log2 := 16 } }).mapTime fun t => { t with ticks := msTicks 100 }
    (s.sessionAt 0).any (fun x => !x.stopped && decide (msTicks x.healthMs ≤ s.since x.healthLast) && decide ((x.rings.getD 3 {}).seq ≠ 0xFFFFFFFF)) = true ∧
    s.life.linkUp = true ∧ (Ring.cells { log2 := 16 } = 1024)) := by decide
theorem witness_event_record : ({ up with events := [{}] } : State).events = {} :: [] ∧ ({ up with events := [{}] } : State).sessionCtxs = [] := by decide
theorem witness_held_expiry : (let s := { running id with held := [{}], time := { ticks := msTicks 4 }, life := {} };
    s.life.linkUp = false ∧ msTicks 4 ≤ s.since 0 ∧ (s.sessionAt 0).any (fun x => !x.stopping) = true) := by decide

/-! ### TimeCommandsRefusedBySourceRangeAndLimit -/

theorem witness_increment_low : (pf 0x303 [0xFFBE76C8, 1] up).runs slot0 0x303 (aCmd (.host 0) 0x303 [0xFFBE76C8, 1]) ∧
    (0xFFBE76C8 : Word).toNat + 2 ^ 32 * fld (1 : Word) 7 0 < 0x01FFBE76C9 := by decide
theorem witness_increment_high : (pf 0x303 [0x00418938, 2] up).runs slot0 0x303 (aCmd (.host 0) 0x303 [0x00418938, 2]) ∧
    0x0200418937 < (0x00418938 : Word).toNat + 2 ^ 32 * fld (2 : Word) 7 0 := by decide
theorem witness_increment_edges : 0x01FFBE76C9 ≤ (0xFFBE76C9 : Word).toNat + 2 ^ 32 * fld (1 : Word) 7 0 ∧
    (0x00418937 : Word).toNat + 2 ^ 32 * fld (2 : Word) 7 0 ≤ 0x0200418937 := by decide
theorem witness_clock_reset_range : (pf 0x304 [0, 5, 0, 0, 0, 3] up).runs slot0 0x304 (aCmd (.host 0) 0x304 [0, 5, 0, 0, 0, 3]) ∧
    bit ((aCmd (.host 0) 0x304 [0, 5, 0, 0, 0, 3]).w 3) 0 = false ∧
    0x0200418937 < ((aCmd (.host 0) 0x304 [0, 5, 0, 0, 0, 3]).w 7).toNat + 2 ^ 32 * fld ((aCmd (.host 0) 0x304 [0, 5, 0, 0, 0, 3]).w 8) 7 0 := by
  decide
theorem witness_time_source : (pf 0x302 [1, 0] (up.mapTime fun x => { x with source := 1 })).time.source ≠ 0 ∧
    (pf 0x302 [1, 0] (up.mapTime fun x => { x with source := 1 })).runs slot0 0x302 (aCmd (.host 0) 0x302 [1, 0]) := by decide
theorem witness_time_set : (pf 0x301 [999999999, 0, 0] up).runs slot0 0x301 (aCmd (.host 0) 0x301 [999999999, 0, 0]) ∧ up.time.source = 0 ∧
    up.time.jumpLimitUs * 1000 < (Int.ofNat 999999999 - Int.ofNat up.devNs).natAbs := by decide
theorem witness_time_adjust : (pf 0x302 [1000001, 0] up).runs slot0 0x302 (aCmd (.host 0) 0x302 [1000001, 0]) ∧
    up.time.jumpLimitUs * 1000 < (sext 64 1000001).natAbs := by decide

/-! ### TimeStepsAndClockReset -/

theorem witness_adjust : (pf 0x302 [1000000, 0] up).runs slot0 0x302 (aCmd (.host 0) 0x302 [1000000, 0]) ∧ up.time.source = 0 ∧
    up.time.nanos.toNat < 1000000000 ∧ (1000000 : Word).toNat ≤ up.time.jumpLimitUs * 1000 ∧ up.devNs + 1000000 < 2 ^ 48 * 1000000000 := by decide
theorem witness_set : (pf 0x301 [1000000, 0, 0] up).runs slot0 0x301 (aCmd (.host 0) 0x301 [1000000, 0, 0]) ∧ up.devNs < 1000000 ∧
    1000000 ≤ up.devNs + up.time.jumpLimitUs * 1000 := by decide
theorem witness_clock_reset : (pf 0x304 [0, 5, 1, 0, 0, 2] up).runs slot0 0x304 (aCmd (.host 0) 0x304 [0, 5, 1, 0, 0, 2]) ∧ up.anySession = false ∧
    (let m := aCmd (.host 0) 0x304 [0, 5, 1, 0, 0, 2]; bit (m.w 3) 0 = false ∧ (m.w 4).toNat < 1000000000 ∧
      (m.w 6).toNat < 0x10000 ∧ 0x01FFBE76C9 ≤ (m.w 7).toNat + 2 ^ 32 * fld (m.w 8) 7 0 ∧ (m.w 7).toNat + 2 ^ 32 * fld (m.w 8) 7 0 ≤ 0x0200418937) := by
  decide
theorem witness_clock_reset_mode1 : (pf 0x304 [1] up).runs slot0 0x304 (aCmd (.host 0) 0x304 [1]) ∧ bit ((aCmd (.host 0) 0x304 [1]).w 3) 0 = true := by
  decide
theorem witness_ptp_config : (pf 0x305 [1, 1, 0xFD00] up).runs slot0 0x305 (aCmd (.host 0) 0x305 [1, 1, 0xFD00]) ∧
    ptpParams (aCmd (.host 0) 0x305 [1, 1, 0xFD00]) = .inr ([1, 0, 0, 0], 1000, 100000) := by decide

/-! ### ReelCommandsByStateOfTheEntry -/

/-- REEL_WRITE of entry 63: START 2^20, period 1,000, width 10, unbounded, TRG12. -/
def reelArgs : List Word := [63, 0x100000, 0, 1000, 10, 0, 12]
def holds12 : State := { up with targets := [(12, 0)] }
theorem witness_reel_write : (pf 0x306 reelArgs holds12).runs slot0 0x306 (aCmd (.host 0) 0x306 reelArgs) ∧
    targetHolder (pf 0x306 reelArgs holds12) 12 = some (aCmd (.host 0) 0x306 reelArgs).ctx ∧
    fld ((aCmd (.host 0) 0x306 reelArgs).w 9) 7 0 = 12 ∧ (holds12.reelAt 63).state = 0 := by decide
def written63 (st owner : Nat) : State := holds12.updReel 63 fun e => { e with state := st, owner := owner, start := 0x100000, period := 1000, width := 10 }
theorem witness_reel_write_busy : ((written63 2 0).reelAt 63).state = 2 ∧ ((written63 1 3).reelAt 63).owner ≠ (aCmd (.host 0) 0x306 reelArgs).ctx := by
  decide
theorem witness_reel_arm : (pf 0x307 [63] (written63 1 0)).runs slot0 0x307 (aCmd (.host 0) 0x307 [63]) ∧
    ((written63 1 0).reelAt 63).owner = (aCmd (.host 0) 0x307 [63]).ctx ∧ (written63 1 0).devNs + 10000 ≤ ((written63 1 0).reelAt 63).start.toNat := by
  decide
theorem witness_reel_disarm : (pf 0x308 [0x13F] (written63 2 0)).runs slot0 0x308 (aCmd (.host 0) 0x308 [0x13F]) ∧
    fld ((aCmd (.host 0) 0x308 [0x13F]).w 3) 5 0 = 63 ∧ ((written63 2 0).reelAt 63).state ≠ 0 := by decide
theorem witness_trigger_claim : (pf 0x207 [12] up).runs slot0 0x207 (aCmd (.host 0) 0x207 [12]) ∧ Tab.get? up.targets 12 = none := by decide
theorem witness_trigger_release : (pf 0x207 [0x115] { up with targets := [(21, 0)] }).runs slot0 0x207 (aCmd (.host 0) 0x207 [0x115]) ∧
    fld ((aCmd (.host 0) 0x207 [0x115]).w 3) 7 0 = 21 ∧ hasEntryFor up (aCmd (.host 0) 0x207 [0x115]).ctx 21 = false := by decide

/-! ### TicksPpsAndReelPulses -/

theorem witness_tick : up.life.vaux = true ∧ up.mainOn = true ∧ up.time.held = false ∧ up.time.nanos.toNat < 1000000000 ∧
    up.time.inc.toNat < 0x0300000000 ∧ up.time.seconds.toNat + 1 < 2 ^ 48 ∧ (up.mapTime fun x => { x with held := true }).time.held = true := by decide
theorem witness_pps : (let s := up.mapTime fun x => { x with ppsDue := true, seconds := 5, ppsMarked := some 4 }
    s.time.ppsDue = true ∧ s.time.ppsHigh = false ∧ 4 < s.time.seconds.toNat) ∧
    (let s := up.mapTime fun x => { x with ppsHigh := true, ticks := 50000000 };
      s.time.ppsHigh = true ∧ s.time.ppsWidthUs * 500 ≤ s.time.ticks - s.time.ppsRise) := by decide
theorem witness_reel_rise : (let s := up.updReel 63 fun e => { e with state := 2, period := 1000, width := 10 }
    s.mainOn = true ∧ (s.reelAt 63).state = 2 ∧ (s.reelAt 63).start.toNat + (s.reelAt 63).nextPulse * (s.reelAt 63).period.toNat ≤ s.devNs ∧
    (s.reelAt 63).lastRise = none ∧ (s.reelAt 63).count = 0 ∧ bit (s.reelAt 63).control 0 = false) := by decide
theorem witness_reel_fall : (let s := up.updReel 0 fun e => { e with pulses := [(12, 0)] }
    (s.reelAt 0).pulses.any fun p => decide (p.2 ≤ s.time.ticks)) = true := by decide
/-- Ticks carry NANOSECONDS into SECONDS (R107). -/
theorem test_tick_carries : (match exec .timebaseTick (up.mapTime fun x => { x with nanos := 999999998 }) with
    | .next t => (t.time.seconds, t.time.nanos, t.time.ppsDue) | _ => (0, 0, false)) = (1, 0, true) := by decide

/-! ### PtpServoAndNetworkTime -/

def ptpSlave (st : TimeState) : State := up.mapTime fun x =>
  { x with source := 1, roles := [1, 2, 0, 0], state := st, goodCount := 15, gm := some 7, ticks := 1500000000 }
theorem witness_pps_in : up.mainOn = true ∧ up.time.held = false ∧ up.time.source < 2 := by decide
theorem witness_sync : ptpAlive 0 false (ptpSlave .acquiring) = true ∧ (ptpSlave .acquiring).time.held = false ∧ (ptpSlave .acquiring).time.roles.getD 0 0 = 1 ∧ (ptpSlave .acquiring).time.gm = some 7 ∧
    (ptpSlave .acquiring).time.first = false ∧ (ptpSlave .acquiring).time.goodCount = 15 ∧ (49999 : Int).natAbs ≤ (ptpSlave .acquiring).time.jumpLimitUs * 1000 := by
  decide
theorem witness_sync_timeout : (ptpSlave .locked).time.source = 1 ∧ 1500000000 ≤ (ptpSlave .locked).time.ticks - (ptpSlave .locked).time.lastSync := by decide
theorem witness_ptp_message : ptpAlive 1 false (ptpSlave .locked) = true ∧ (let s := ((ptpSlave .locked).mapTime fun x => { x with source := 3, udp := true }).updPort 16 fun q => { q with ipv4 := 1 }; ptpAlive 0 true s = true ∧ s.time.roles.getD 0 0 = 1 ∧ s.time.source = 3) ∧ (ptpSlave .locked).time.roles.getD 1 0 = 2 ∧ (ptpSlave .locked).time.dot1as = false := by decide
theorem witness_arp : (let s := (ptpSlave .locked).updPort 19 fun p => { p with ipv4 := 0x0A000001 }
    let u := s.mapTime fun x => { x with roles := [0, 0, 0, 2] };
    u.time.roles.getD 3 0 ≠ 0 ∧ (u.portAt 19).state ≠ .fault ∧ (u.portAt 19).ipv4 ≠ 0) := by decide

/-! ### PortCommandsByClaimAndState -/

def owned (p : Nat) (st : PortState) : State := up.updPort p fun q => { q with owner := some 0, state := st }
theorem witness_port_claim : (pf 0x200 [65] up).runs slot0 0x200 (aCmd (.host 0) 0x200 [65]) ∧ isPort 65 = true ∧ (up.portAt 65).owner = none := by
  decide
theorem witness_port_release : (pf 0x201 [11] (owned 11 .fault)).runs slot0 0x201 (aCmd (.host 0) 0x201 [11]) ∧
    ((owned 11 .fault).portAt 11).owner = some (aCmd (.host 0) 0x201 [11]).ctx ∧ hasEntryFor (owned 11 .fault) 0 11 = false := by decide
theorem witness_port_config : (pf 0x202 [0, 0x0A6083FA] up).runs slot0 0x202 (aCmd (.host 0) 0x202 [0, 0x0A6083FA]) ∧ isCamera 0 = true ∧
    (let w := (aCmd (.host 0) 0x202 [0, 0x0A6083FA]).w 4; fld w 9 8 ≠ 2 ∧ 8 ≤ fld w 7 0 ∧ fld w 7 0 ≤ 0xFA ∧ fld w 28 27 ≠ 3) := by decide
theorem witness_port_timing : (pf 0x204 [55, 60000, 100, 0] (owned 55 .idle)).runs slot0 0x204 (aCmd (.host 0) 0x204 [55, 60000, 100, 0]) ∧
    ((owned 55 .idle).portAt 55).owner = some (aCmd (.host 0) 0x204 [55, 60000, 100, 0]).ctx ∧ ((owned 55 .idle).portAt 55).state ≠ .streaming := by
  decide
theorem witness_i2c : (pf 0x205 [0x3600, 0x4040] (owned 0 .training)).runs slot0 0x205 (aCmd (.host 0) 0x205 [0x3600, 0x4040]) ∧
    fld ((aCmd (.host 0) 0x205 [0x3600, 0x4040]).w 4) 6 0 ≤ 64 ∧ fld ((aCmd (.host 0) 0x205 [0x3600, 0x4040]).w 4) 14 8 ≤ 64 ∧
    ((owned 0 .training).portAt 0).state ≠ .off := by decide
theorem witness_port_imu0 : (pf 0x202 [32] up).runs slot0 0x202 (aCmd (.host 0) 0x202 [32]) ∧ (pf 0x204 [32] up).runs slot0 0x204 (aCmd (.host 0) 0x204 [32]) ∧
    fld ((aCmd (.host 0) 0x202 [32]).w 3) 7 0 = 32 := by decide

/-! ### PortsMoveThroughTable4_2 -/

def late (s : State) : State := s.mapTime fun x => { x with ticks := 10 ^ 11 }
theorem witness_sensor_detected : isCamera 11 = true ∧ ((owned 11 .detecting).portAt 11).state = .detecting ∧ isPort 19 = true ∧ isCamera 19 = false ∧
    ((owned 19 .detecting).portAt 19).faultSignal = false := by decide
theorem witness_detect_timeout : isPort 65 = true ∧ ((late (owned 65 .detecting)).portAt 65).state = .detecting ∧
    detectMsOf (late (owned 65 .detecting)) 65 * 500000 ≤ (late (owned 65 .detecting)).time.ticks - ((late (owned 65 .detecting)).portAt 65).since := by
  decide
theorem witness_retry : ((late (owned 0 .fault)).portAt 0).state = .fault ∧ ((late (owned 0 .fault)).portAt 0).owner.isSome = true ∧
    (((late (owned 0 .fault)).portAt 0).retries + 1) * ((late (owned 0 .fault)).portAt 0).retryMs * 500000 ≤
      (late (owned 0 .fault)).time.ticks - ((late (owned 0 .fault)).portAt 0).since ∧ (late (owned 0 .fault)).life.vsensOk = true := by decide
theorem witness_training : polarityFound 0x300 1 2 15 = 0x13 ∧ dataLanes 0x300 = 4 ∧ ((owned 3 .training).portAt 3).state = .training ∧
    (let s := late ((owned 3 .training).updPort 3 fun q => { q with bound := true });
      (s.portAt 3).bound = true ∧ 4 * portFrameNs s 3 ≤ 2 * (s.time.ticks - max (s.portAt 3).boundAt (s.portAt 3).since)) := by decide
theorem witness_stall : ((late (owned 32 .streaming)).portAt 32).state = .streaming ∧ stallNs (late (owned 32 .streaming)) 32 = some 1562500 ∧
    1562500 ≤ 2 * ((late (owned 32 .streaming)).time.ticks - ((late (owned 32 .streaming)).portAt 32).lastData) := by decide

/-! ### SwitchedSupplyFaultsAreHandled -/

def powered (p : Nat) : State := (owned p .streaming).updPort p fun q => { q with supplyOn := true, trips := [0, 0] }
theorem witness_supply : hasSupply 55 = true ∧ ((powered 55).portAt 55).supplyOn = true ∧ tripCounts (powered 55) = true ∧ (powered 55).mainOn = true ∧
    tripCounts ((powered 55).mapLife fun l => { l with vsensBack := some 0 }) = false := by decide
theorem witness_trip_clear : ((late (powered 55)).portAt 55).trips ≠ [] ∧ ((late (powered 55)).portAt 55).latched = false ∧
    ((late (powered 55)).portAt 55).trips.all (fun k => decide (30000000000 ≤ (late (powered 55)).time.ticks - k)) = true := by decide
theorem witness_vsens : up.life.vsensOk = true ∧ up.life.vaux = true ∧ (up.mapLife fun l => { l with vsensOk := false }).life.vsensOk = false := by decide
theorem witness_reversed : up.life.reversed.contains 2 = false := by decide
/-- The third trip of Table 23-7 latches the supply of C5 and raises cause 4. -/
theorem test_third_trip_latches : (match exec (.supplyShort 5) (powered 5) with
    | .next t => ((t.portAt 5).latched, (t.events.getLast?.map fun e => (e.code, e.detail))) | _ => (false, none)) = (true, some (0x8F01, 0x0504)) := by
  decide

/-! ### SignalFaultsAreHandled -/

theorem witness_output : (up.outputAt 30).off = false ∧ up.mainOn = true ∧ false = drivenLevel up 30 ∧ true ≠ drivenLevel up 30 ∧
    ((up.updOutput 19 fun _ => { off := true }).outputAt 19).off = true ∧ false = wouldDrive (up.updOutput 19 fun _ => { off := true }) 19 := by decide
theorem witness_lines : ((owned 11 .idle).portAt 11).owner.isSome = true ∧ ((owned 48 .streaming).portAt 48).state ≠ .off ∧ isEncoder 48 = true ∧
    isCan 64 = true ∧ ((owned 64 .detecting).portAt 64).state ≠ .off := by decide
theorem witness_held_line : ((pf 0x205 [0, 1] (owned 0 .idle)).cmds.find? fun x => x.phase == .running && x.opcode == 0x0205 && !x.begun && fld (x.w 3) 7 0 == 0)
    = some (aCmd (.host 0) 0x205 [0, 1]) ∧ up.life.vaux = true := by decide

/-! ### CameraFramesFillAndLeaveBuffers -/

/-- A session with frame set 0 at 1 ms on context 0 whose stream 0 is camera C0 on a Reel entry. -/
def camSession : State :=
  let s := (owned 0 .streaming).mapTime fun x => { x with nanos := 1000000, ticks := 500000 }
  let s := s.updReel 0 fun e => { e with state := 2, period := 33333332, lastRise := some 500000, lastInstant := 1000000 }
  let s := s.updCtx 0 fun c => { c with session := some { sets := [(0, { instant := 1000000, expected := [0] })], streams := [0], masterEntry := some 0 } }
  { s with streams := [(0, { entry := some 0, width := 64, height := 64 })] }
theorem witness_frame_start : streamOf camSession 0 0 = some (0, camSession.streamAt 0) ∧ setOfFrame camSession (camSession.streamAt 0) camSession.devNs = some (0, 1000000) ∧
    (Tab.getD (camSession.streamAt 0).bufs 0 {}).state = .free ∧ (camSession.streamAt 0).divisor ≠ 0 ∧ (camSession.streamAt 0).cur = none := by decide
theorem witness_frame_dropped : (let s := camSession.mapTime fun x => { x with nanos := 9000000 };
    setOfFrame s (s.streamAt 0) s.devNs = none) := by decide
def filling (n : Nat) (begun : Bool) : State := camSession.updStream 0 fun x =>
  { x with cur := some 3, prevBuf := some 3, bufs := [(3, { state := .filling, begun := begun, lines := List.replicate n [] })] }
theorem witness_strip : ((filling 0 true).streamAt 0).cur = some 3 ∧
    (storeLines ((filling 0 true).streamAt 0) (Tab.getD ((filling 0 true).streamAt 0).bufs 3 {}) (List.replicate 16 { dataType := ((filling 0 true).streamAt 0).dataType, px := [1, 2] })).lines.length = 0 + 16 := by
  decide
theorem witness_frame_bad : ((filling 0 true).streamAt 0).cur = some 3 ∧
    (storeLines ((filling 0 true).streamAt 0) (Tab.getD ((filling 0 true).streamAt 0).bufs 3 {}) []).lines.length < ((filling 0 true).streamAt 0).height := by
  decide
theorem witness_frame_end : (let s := (filling 64 true).updCtx 0 fun c => { c with session := none }
    let x := s.streamAt 0
    s.sessionAt x.ctx = none ∧ x.height ≤ (storeLines x (Tab.getD x.bufs 3 {}) []).lines.length ∧ x.prevBuf = some 3) := by decide
theorem witness_close : (let s := camSession.mapTime fun x => { x with nanos := 1500000 };
    (s.sessionAt 0).isSome = true ∧ 1000000 + 500000 ≤ s.devNs ∧
    (sortBy (fun (a b : Nat × FrameSet) => decide (a.2.instant < b.2.instant)) ((((s.sessionAt 0).getD {}).sets).filter fun e => e.2.closed.isNone)).head?
      = some (0, { instant := 1000000, expected := [0] })) := by decide

/-! ### EncodersCountAndVerify -/

theorem witness_verify : (let s := (late (owned 55 .streaming)).updPort 55 fun q => { q with verifying := true, verifyLatches := 20 }
    (s.portAt 55).verifying = true ∧ 1000000000 ≤ s.time.ticks - (s.portAt 55).verifyAt ∧ (s.portAt 55).verifyLatches = 20 ∧ 19 + 1 ≤ 20) := by decide
theorem witness_quadrature : isEncoder 48 = true ∧ isEncoder 55 = true ∧ ((owned 48 .streaming).portAt 48).owner.isSome = true ∧
    ((owned 48 .streaming).portAt 48).glitch * 20 ≤ 100 ∧ 99 < ((owned 48 .streaming).portAt 48).glitch * 20 := by decide
theorem witness_standstill : 50000000 ≤ (late (owned 55 .streaming)).time.ticks - ((late (owned 55 .streaming)).portAt 55).lastCountChange ∧
    ((owned 55 .streaming).portAt 55).verifying = true ∧ 95 * 20 ≤ 100 * 19 := by decide
/-- A full cycle with A leading B is four counts up (R195). -/
theorem test_quadrature_cycle : quadStep false false true false + quadStep true false true true + quadStep true true false true
    + quadStep false true false false = 4 := by decide

/-! ### LidarInertialAndCanSamplesArrive -/

/-- A one-entry CAN format: identifier 0x123, bits 0 to 7, wheel speed, MAX_AGE 10 ms. -/
def canFormat : List Byte := [0x23, 1, 0, 0, 0, 0, 8, 0, 0, 0, 0x80, 0x3F, 0, 0, 0, 0, 1, 0, 10, 0, 0, 0, 0, 0]
def bindPort (p slot : Nat) (kind : Nat) (fmt : List Byte) : State :=
  (owned p .streaming).updCtx 0 fun c => { c with session := some { bindings := [[BitVec.ofNat 8 p, BitVec.ofNat 8 slot] ++ zeros 14] },
                                                   formats := [(slot, { kind := kind, bytes := fmt })] }
theorem witness_format_write : (let m := { aCmd .tether 0x206 [0x107, 0, 0, 0, 24] with inlineIn := canFormat }
    let s : State := { up with cmds := [m] }
    s.runs msg0 0x206 m ∧ slotInUse s m.ctx 7 = false ∧ sgIn m 4 s = .bytes canFormat ∧ formatOk 1 canFormat = true) := by decide
def syncFormat (n : Byte) : List Byte := [n, 0, 0, 0, 1, 0, 8, 0, 0, 0, 1, 4, 0, 1, 0, 0] ++ zeros 48
theorem witness_lidar : bindingOf (bindPort 19 7 0 (syncFormat 8)) 19 = some (0, [19, 7] ++ zeros 14) ∧ isEthernet 19 = true ∧
    (Tab.getD ((bindPort 19 7 0 (syncFormat 8)).ctxAt 0).formats 7 {}).bytes = syncFormat 8 ∧ leAt (syncFormat 8) 0 2 = 8 ∧
    leAt (syncFormat 8) 13 1 = 1 ∧ leAt (syncFormat 8) 58 1 = 0 := by decide
theorem witness_sweep : (let s := late { up with lidars := [(16, { firstTick := some 0 })] };
    (Tab.getD s.lidars 16 {}).firstTick = some 0 ∧ 100000000 ≤ s.time.ticks - 0) := by decide
theorem witness_imu : (let s := ((owned 34 .idle).updCtx 0 fun c => { c with formats := [(0, { kind := 2, bytes := zeros 64 })] }).updPort 34 fun q => { q with failedBursts := 9 };
    imuFormat s 34 = some (zeros 64) ∧ isExtImu 34 = true ∧ bindingOf s 34 = none ∧ (s.chanAt 0).due = none ∧ (s.portAt 34).failedBursts = 9) := by decide
theorem witness_imu0 : (let s := up.mapTime fun x => { x with imu0Due := true }; s.time.imu0Due = true ∧ s.mainOn = true ∧ s.filters = []) := by decide
theorem witness_can : bindingOf (bindPort 65 0 1 canFormat) 65 = some (0, [65, 0] ++ zeros 14) ∧ isCan 65 = true ∧
    (signalEntries (bindPort 65 0 1 canFormat) 65)[0]? = some canFormat ∧ wordAt canFormat 0 = 0x123 ∧ signalRaw canFormat [0xAB] = some 0xAB ∧
    ((bindPort 65 0 1 canFormat).portAt 65).canData = 0 := by decide
theorem witness_can_stale : (let s := late ((bindPort 65 0 1 canFormat).updCtx 0 fun c => { c with canSignals := [(2080, {})] });
    Tab.get? (s.ctxAt 0).canSignals (65 * 32 + 0) = some {} ∧ leAt canFormat 18 2 * 500000 ≤ s.time.ticks - 0) := by decide
theorem witness_lidar_packet : (let s := (bindPort 19 7 0 (syncFormat 8)).updPort 19 fun q => { q with ipv4 := 0x01020304 }
    bindingOf s 19 = some (0, [19, 7] ++ zeros 14) ∧ (s.portAt 19).state = .streaming ∧ (s.portAt 19).ipv4 ≠ 0 ∧ 46 + 4 * 1 + (zeros 8).length ≤ 9018 ∧
    (Tab.getD (s.ctxAt 0).formats 7 {}).bytes = syncFormat 8 ∧ (zeros 8).length = leAt (syncFormat 8) 0 2 ∧ (zeros 3).length ≠ leAt (syncFormat 8) 0 2) := by decide

/-! ### FilterCommandsActOnHeldChannels -/

def chanState (c : ChannelS) : State := { up with filters := [(31, c)] }
def oneTap : CoeffSet := { taps := 1, outShift := 0, coeff := [1] }
theorem witness_filter_bind : (pf 0x400 [31, 0x20540000] up).runs slot0 0x400 (aCmd (.host 0) 0x400 [31, 0x20540000]) ∧
    fld ((aCmd (.host 0) 0x400 [31, 0x20540000]).w 4) 31 24 = 32 ∧ fld ((aCmd (.host 0) 0x400 [31, 0x20540000]).w 4) 23 20 = 5 ∧ (up.chanAt 31).holder = none := by
  decide
theorem witness_filter_release : (pf 0x400 [0x11F] (chanState { holder := some 0 })).runs slot0 0x400 (aCmd (.host 0) 0x400 [0x11F]) ∧
    bit ((aCmd (.host 0) 0x400 [0x11F]).w 3) 8 = true ∧ ((chanState { holder := some 0 }).chanAt 31).change = .none := by decide
theorem witness_filter_preset : (pf 0x401 [0x80000000, 3] (chanState { holder := some 0, source := 32 })).runs slot0 0x401 (aCmd (.host 0) 0x401 [0x80000000, 3]) ∧
    setBits 32 ((aCmd (.host 0) 0x401 [0x80000000, 3]).w 3).toNat = [31] ∧ inputHz up 32 % (presetFigures 3).1 = 0 ∧ inputHz up 32 / (presetFigures 3).1 ≤ 32 := by
  decide
theorem witness_filter_load : (let b : List Byte := [1, 0, 1, 14, 0, 0, 0, 0, 16, 0] ++ zeros 6 ++ [0, 0x40, 0, 0]
    let m := { aCmd .tether 0x402 [31, 0, 0, 0, 20] with inlineIn := b }
    let s : State := { chanState { holder := some 0 } with cmds := [m] }
    s.runs msg0 0x402 m ∧ sgIn m 4 s = .bytes b ∧ (parseCoeff b).ok = true ∧ 16 + 2 * (parseCoeff b).taps ≤ b.length ∧ (s.chanAt 31).running = false) := by
  decide
theorem witness_filter_swap : (pf 0x403 [31] (chanState { holder := some 0, running := true, setA := some oneTap, setB := some oneTap })).runs slot0 0x403
      (aCmd (.host 0) 0x403 [31]) ∧ ((chanState { holder := some 0, running := true, setA := some oneTap, setB := some oneTap }).chanAt 31).runSet = some oneTap ∧
    ((chanState { holder := some 0, setB := some oneTap }).chanAt 31).runSet = none ∧ ((chanState { holder := some 0, setB := some oneTap }).chanAt 31).stopSet = some oneTap := by
  decide
theorem witness_filter_threshold : (pf 0x404 [0xFF031F, 0x007FFFFF, 0xFF800000, 0x0C0CFFFF] (chanState { holder := some 0 })).runs slot0 0x404
      (aCmd (.host 0) 0x404 [0xFF031F, 0x007FFFFF, 0xFF800000, 0x0C0CFFFF]) ∧ (0x007FFFFF : Word).toInt ≤ 8388607 ∧ -8388608 ≤ (0xFF800000 : Word).toInt ∧
    withDefault (fld (0x0C0CFFFF : Word) 15 0) 1 65535 1600 = some 65535 ∧ withDefault (fld (0x0C0CFFFF : Word) 19 16) 4 12 8 = some 12 ∧
    withDefault (fld (0x0C0CFFFF : Word) 27 24) 1 12 6 = some 12 := by decide

/-! ### FilterOutputsFollowTheCoefficients -/

def monitorChan (phase decim : Nat) : ChannelS :=
  { holder := some 0, route := 1, source := 48, running := true, filling := false, phase := phase, setA := some { oneTap with decim := decim } }
def monitor (phase decim : Nat) : State := chanState { monitorChan phase decim with due := some (5, false, 1000, false) }
theorem witness_filter_input : ((monitor 0 2).chanAt 31).runSet = some { oneTap with decim := 2 } ∧ ((monitor 0 2).chanAt 31).phase + 1 < 2 ∧
    ((monitor 1 2).chanAt 31).runSet = some { oneTap with decim := 2 } ∧ 2 ≤ ((monitor 1 2).chanAt 31).phase + 1 ∧ ((monitor 1 2).chanAt 31).source ≠ 32 := by decide
theorem test_filter_output : (match exec (.filterInputSample 31) (monitor 1 2) with
    | .next t => ((t.chanAt 31).lastOut.map fun o => (o.value, o.tInput)) | _ => none) = some (5, 1000) := by decide

/-! ### VisionBlocksWaitForTheNextFrame -/

/-- A 64 × 64 mono stream 0 of context 0, and a grid for it whose nodes all have no source. -/
def oneStream : State := { up with streams := [(0, { width := 64, height := 64, grid := some { outW := 64, outH := 64 }, chain := { levelMask := 0x0F } })] }
def flatGrid (w : Nat) : List Byte :=
  leBytes 2 w ++ leBytes 2 64 ++ leBytes 2 64 ++ leBytes 2 64 ++ leBytes 2 5 ++ leBytes 2 5 ++ leBytes 4 7 ++ zeros 16
    ++ (List.replicate 25 ([0, 0, 0, 0x80, 0, 0, 0, 0] : List Byte)).flatten
set_option maxRecDepth 20000 in
theorem witness_remap_load : (let m := { aCmd .tether 0x500 [0, 0, 0, 0, 232] with inlineIn := flatGrid 64 }
    let s := { oneStream with cmds := [m] }
    s.runs msg0 0x500 m ∧ sgIn m 4 s = .bytes (flatGrid 64) ∧ (s.streamAt 0).ctx = m.ctx ∧ (s.streamAt 0).shadow = none ∧ m.ref = msg0) := by decide
set_option maxRecDepth 20000 in
theorem witness_remap_grid : gridOk oneStream 0 (oneStream.streamAt 0) (flatGrid 64) = true := by decide +kernel
set_option maxRecDepth 20000 in
theorem witness_remap_range : leAt (flatGrid 63) 0 2 ≠ 64 := by decide
theorem witness_chain_config : (let p : List Word := [0, 0x00FF0000, 0x00000701]
    (pf 0x502 p oneStream).runs slot0 0x502 (aCmd (.host 0) 0x502 p) ∧
    chainBad (pf 0x502 p oneStream) 0 (oneStream.streamAt 0) ((aCmd (.host 0) 0x502 p).bytesAt 4 8) = none) := by decide
theorem witness_chain_mask : (let p : List Word := [0, 0x00FF0000, 0x00000702]
    chainBad (pf 0x502 p oneStream) 0 (oneStream.streamAt 0) ((aCmd (.host 0) 0x502 p).bytesAt 4 8) = some 5) := by decide
theorem witness_feature_config : (let p : List Word := [0, 0x01000000, 0x01000000, 0x02000301]
    let x := oneStream.streamAt 0
    (pf 0x503 p oneStream).runs slot0 0x503 (aCmd (.host 0) 0x503 p) ∧
    featBad x (leAt ((aCmd (.host 0) 0x503 p).bytesAt 4 8) 0 1) (parseFeat ((aCmd (.host 0) 0x503 p).bytesAt 4 8)) = none) := by decide
theorem witness_pattern : (pf 0x504 [1] up).runs slot0 0x504 (aCmd (.host 0) 0x504 [1]) ∧ up.sessionAt 0 = none ∧
    bit ((aCmd (.host 0) 0x504 [1]).w 3) 0 = true := by decide
theorem witness_pattern_busy : (let s := up.updCtx 0 fun c => { c with session := some {} }; (s.sessionAt 0).isSome = true) := by decide
set_option maxRecDepth 20000 in
theorem witness_pattern_bytes : (let m := { aCmd .tether 0x504 [0, 0, 0, 0, 1024] with inlineIn := zeros 1024 }
    let s := { up with cmds := [m] }
    s.runs msg0 0x504 m ∧ bit (m.w 3) 0 = false ∧ m.sgInline 4 = true) := by decide
theorem witness_stereo_config : (let s := { up with streams := [(0, { entry := some 0 }), (1, { entry := some 1 })] }
    let s := s.updCtx 0 fun c => { c with pairs := [(0, { left := 0, right := 1 })] }
    let p : List Word := [0, 0x03000100, 0x0AFF6008, 0x00000104, 0]
    let m := aCmd (.host 0) 0x501 p
    (pf 0x501 p s).runs slot0 0x501 m ∧ (s.pairCfgAt 0 0).isSome = true ∧
    stereoBad (pf 0x501 p s) 0 (zeroDefault (zeroDefault (zeroDefault (m.bytesAt 4 4) 4 1 8) 5 1 96) 12 2 255) = none) := by decide
/-- A Tether DESC_PATTERN_LOAD of a pattern whose first point lies 14 pixels out. -/
def patternOut : Cmd := { aCmd .tether 0x504 [0, 0, 0, 0, 1024] with inlineIn := 14 :: zeros 1023 }
theorem witness_pattern_out : (let s := { up with cmds := [patternOut] };
    s.runs msg0 0x504 patternOut ∧ s.sessionAt 0 = none ∧ sgIn patternOut 4 s = .bytes (14 :: zeros 1023) ∧ (sext 8 14) ^ 2 + (0 : Int) ^ 2 > 169) := by decide +kernel

/-! ### EngineUnitsExtendTheFrame -/

/-- A frame of stream 0 under way: 64 × 32 at the identity grid, its first 32 lines landed. -/
def frameUp (f : FrameBuf → FrameBuf) : State :=
  let g : Grid := { srcW := 64, srcH := 64, outW := 64, outH := 64 }
  let b : FrameBuf := { state := .ready, begun := true, lines := List.replicate 32 [], grid := some g,
                        chain := { remapEn := false, levelMask := 0x0F, next := 7 } }
  { up with streams := [(0, { width := 64, height := 64, bufs := [(2, f b)] })] }
def frameOf (s : State) : FrameBuf := Tab.getD (s.streamAt 0).bufs 2 {}
theorem witness_remap_row : (let s := frameUp id
    (s.streamAt 0).remapNext = some (2, frameOf s) ∧ s.engineFree 0 7 = true ∧ s.poolOk 16 = true ∧ s.goesFirst remapPending 0 = true ∧
    (frameOf s).rows 0 = 16 * 0 ∧ (frameOf s).lastSource 0 < (frameOf s).lines.length) := by decide
theorem witness_remap_fails : (let s := frameUp fun b => { b with complete := true }
    (s.streamAt 0).remapNext = some (2, frameOf s) ∧ s.engineFree 0 0 = true ∧ s.failedToday 0 0 = false ∧ s.goesFirst remapPending 0 = true ∧
    (frameOf s).complete = true) := by decide
/-- The same frame with the 64 lines of level 0 there, at one pixel value. -/
def level0 (f : FrameBuf → FrameBuf) : State := frameUp fun b => f { b with levels := [(0, (List.range 64).map fun y => (y, {}))] }
theorem witness_pyramid_row : (let s := level0 id
    (s.streamAt 0).pyramidNext 1 = some (2, frameOf s) ∧ s.goesFirst pyramidPending 0 = true ∧
    s.engineFree 1 3 = true ∧ (frameOf s).rows 1 = 0 ∧ (frameOf s).canRead 0 3 = true) := by decide
theorem witness_corner_row : (let s := level0 id
    (s.streamAt 0).cornerNext = some (2, frameOf s) ∧ s.engineFree 3 11 = true ∧ s.goesFirst cornerPending 0 = true ∧
    (frameOf s).corners.length = 0 ∧ (frameOf s).hasRows 0 ((frameOf s).feat.cellEdge + 4) = true) := by decide
theorem witness_descriptor : (let s := level0 fun b => { b with corners := [(0, [{ score := 9, cell := 0, y := 20, x := 20 }])] }
    let c : Corner := { score := 9, cell := 0, y := 20, x := 20 }
    (s.streamAt 0).descNext = some (2, frameOf s) ∧ (frameOf s).cornerAll[0]? = some c ∧ s.engineFree 4 0 = true ∧
    s.goesFirst descPending 0 = true ∧ (frameOf s).descReady ((frameOf s).descWork (s.descLevel 0) c) c = true) := by decide
theorem witness_flow : (let s := (level0 fun b => { b with feat := { b.feat with flowLevels := 1 } }).updStream 0 fun x =>
      { x with points := [{ id := 5, u := 20 * 65536, v := 20 * 65536, hint := 2 }], prevBuf := some 1, pointsSet := some 3 }
    let p : FlowPt := { id := 5, u := 20 * 65536, v := 20 * 65536, hint := 2 }
    (s.streamAt 0).flowNext.map (·.1) = some 2 ∧ s.engineFree 5 0 = true ∧ (s.streamAt 0).flowPoint (frameOf s) = some (0, p) ∧
    s.goesFirst flowPending 0 = true ∧ (frameOf s).flowRows p = true) := by decide

/-! ### StereoStripsAndFeatureBlocksComplete -/

/-- Two 64 × 64 streams of a pair with level 0 there, and no strip matched yet. -/
def pairUp : State :=
  let b : FrameBuf := frameOf (level0 id)
  let s := { up with streams := [(0, { bufs := [(0, b)] }), (1, { bufs := [(0, b)] })] }
  s.updCtx 0 fun c => { c with pairs := [(0, { left := 0, right := 1 })], session := some { levels := [0, 8, 1, 12, 2, 10, 32], lowStereo := 0 } }
theorem witness_stereo_strip : (let s := pairUp
    let b := Tab.getD (s.streamAt 0).bufs 0 {}
    (stereoWork s 0 0).map (fun w => (w.level, w.strip, w.kl, w.bl, w.ready)) = some (0, 0, 0, b, true) ∧ s.engineFree 2 0 = true ∧
    s.goesFirst stereoPending 0 = true ∧ ((s.pairCfgAt 0 0).getD {}).frameSet = none) := by decide
/-- A complete frame whose one cell row is closed, for corners alone. -/
def closedRow (b : FrameBuf) : FrameBuf :=
  let c : ChainCfg := { remapEn := false, levelMask := 1, next := 1 }
  { b with complete := true, chain := c, levels := [(0, (List.range 64).map fun y => (y, {}))], corners := [(0, [])], quota := some 4 }
theorem witness_block_done : (let s := frameUp closedRow
    let b := frameOf s
    (s.streamAt 0).oldest (fun b => b.featWanted && b.done.isNone) = some (2, b) ∧ b.levelsDone = true ∧ b.cornersDone = true ∧
    b.usesDescs = false ∧ b.usesFlow = false) := by decide

/-! ### QuadrilleRunsGraphsOnPooledInstances -/

theorem witness_quadrille_owner : (let m := inCtx 1 (aCmd (.host 1) 0x505 [8])
    let s := { up with cmds := [m] }
    s.runs ⟨.host 1, 0⟩ 0x505 m ∧ m.ctx ≠ 0) := by decide
theorem witness_quadrille_load : (let g : List Byte := leBytes 4 1 ++ zeros 12 ++ [0, 0xFF] ++ [0xFF, 0xFF, 0xFF, 0xFF] ++ zeros 26
    let m := { aCmd .tether 0x505 [8, 0, 0, 0, 48] with inlineIn := g }
    let s := { up.updCtx 0 fun c => { c with hbmGranules := 1 } with cmds := [m] };
    s.runs msg0 0x505 m ∧ m.ctx = 0 ∧ 8 ≤ fld (m.w 3) 3 0 ∧ s.quad.running = none ∧ sgIn m 4 s = .bytes g ∧ graphOk s g = true ∧ m.ref = msg0) := by
  decide
/-- A two-node graph in slot 8. -/
def graphUp (running : Option (Nat × CmdRef)) : State :=
  { up with quad := { up.quad with slots := [(8, [{ pred := [0xFF, 0xFF, 0xFF, 0xFF] }, { pred := [0, 0xFF, 0xFF, 0xFF] }])], running := running } }
theorem witness_quadrille_run : (pf 0x506 [8] (graphUp none)).runs slot0 0x506 (aCmd (.host 0) 0x506 [8]) ∧
    graphAt (graphUp none) 8 ≠ [] ∧ (graphUp none).poseSession = false := by decide
theorem witness_quadrille_node : (let s := graphUp (some (8, slot0))
    ((List.range (graphAt s 8).length).find? fun i => nodeReady (graphAt s 8) s.quad.results i) = some 0 ∧
    ((List.range (graphAt s 8).length).any fun j => nodeReady (graphAt s 8) (Tab.put s.quad.results 0 1) j) = true ∧
    ((List.range (graphAt s 8).length).any fun j => nodeReady (graphAt s 8) (Tab.put s.quad.results 0 2) j) = false ∧
    s.findCmd slot0 = none) := by decide
theorem witness_quadrille_last : (let s := { graphUp (some (8, slot0)) with cmds := [aCmd (.host 0) 0x506 [8]], quad := { (graphUp (some (8, slot0))).quad with results := [(0, 1)] } }
    ((List.range (graphAt s 8).length).find? fun i => nodeReady (graphAt s 8) s.quad.results i) = some 1 ∧
    ((List.range (graphAt s 8).length).any fun j => nodeReady (graphAt s 8) (Tab.put s.quad.results 1 1) j) = false ∧
    s.findCmd slot0 = some (aCmd (.host 0) 0x506 [8]) ∧ (aCmd (.host 0) 0x506 [8]).ref = slot0) := by decide
theorem witness_quadrille_load_busy : (graphUp (some (8, slot0))).quad.running.any (fun r => r.1 == 8) = true := by decide
theorem witness_recovery_graph : (let s := up.updEngine 17 fun e => { e with out := true }
    1 < engineCount 1 ∧ (s.engineAt (1 * 16 + 1)).out = true ∧ (s.engineAt (1 * 16 + 1)).retired = false ∧ s.life.main ≠ .off) := by decide

/-! ### RigAndCalibrationEntriesFollowTheirCommits -/

/-- RIG_WRITE of an encoder's entry, and one of C1's. -/
def rigOf (port : Nat) : Cmd := aCmd (.host 0) 0x600 (w32 port :: List.replicate 15 0)
def encoderPort : Nat := encoderPorts.getD 0 0
theorem witness_rig_write : ({ up with cmds := [rigOf encoderPort] } : State).runs slot0 0x600 (rigOf encoderPort) ∧
    leAt ((rigOf encoderPort).bytesAt 3 16) 0 1 = encoderPort ∧ leAt ((rigOf encoderPort).bytesAt 3 16) 1 1 = 0 ∧ rigKey encoderPort 0 = true ∧
    privilegedPort encoderPort = false ∧ isCamera encoderPort = false ∧ up.sessionAt 0 = none := by decide
theorem witness_rig_privileged : leAt ((rigOf 1).bytesAt 3 16) 0 1 = 1 ∧ ({ up with cmds := [rigOf 1] } : State).runs slot0 0x600 (rigOf 1) := by decide
theorem witness_rig_busy : (let s := { up with streams := [(2, { port := 2, shadow := some ({}, 0) }), (3, { port := 3 })] }
    let s := s.updCtx 0 fun c => { c with pairs := [(1, { left := 2, right := 3 })] }
    (refinedPair s 0 2 0).any (fun st => (s.streamAt st).shadow.isSome) = true ∧ isCamera 2 = true ∧ rigKey 2 0 = true ∧ privilegedPort 2 = false) := by
  decide
theorem witness_rig_camera : (let s := { up with streams := [(2, { port := 2 }), (3, { port := 3 })] }
    let s := s.updCtx 0 fun c => { c with pairs := [(1, { left := 2, right := 3 })], inUse := [(sensorKey 2 0, {})], session := some {} }
    let s := { s with cmds := [rigOf 2] }
    s.runs slot0 0x600 (rigOf 2) ∧ refinedPair s 0 2 0 = [2, 3] ∧ (s.streamAt 2).shadow = none ∧ (s.streamAt 3).shadow = none ∧
    (s.sessionAt 0).isSome = true ∧ Tab.has (s.ctxAt 0).inUse (sensorKey 2 0) = true) := by decide
theorem witness_fusion_config : (let p : List Word := 7 :: List.replicate 8 0
    (pf 0x602 p (running id)).runs slot0 0x602 (aCmd (.host 0) 0x602 p) ∧ ∃ f, parseFusion ((aCmd (.host 0) 0x602 p).bytesAt 4 8) = .inr f) := by
  exact ⟨by decide, _, rfl⟩
theorem witness_fusion_range : (let p : List Word := 7 :: 9 :: List.replicate 7 0;
    parseFusion ((aCmd (.host 0) 0x602 p).bytesAt 4 8) = .inl 4) := by decide
/-- CALIB_COMMIT of an encoder's record with the unit rotation. -/
def calibOf : Cmd := aCmd (.host 0) 0x604 ([w32 encoderPort] ++ List.replicate 4 0 ++ [0x3F800000] ++ List.replicate 11 0)
theorem witness_calib : ({ up with cmds := [calibOf] } : State).runs slot0 0x604 calibOf ∧ calibOf.ctx = 0 ∧ bit (calibOf.w 3) 16 = false ∧
    storeKey encoderPort 0 = true ∧ encoderPort ≠ 0 ∧ encoderPort ≠ 1 ∧ (commitRecord up encoderPort 0 (calibOf.bytesAt 4 16)).isRight = true := by
  decide +kernel
theorem witness_calib_bad : commitRecord up encoderPort 0 (zeros 64) = .inl 16 := by decide +kernel
theorem witness_calib_owner : (inCtx 1 calibOf).ctx ≠ 0 := by decide
theorem witness_calib_waits : anchorWaits { up with streams := [(0, { port := 0, shadow := some ({}, 0) })] } = true := by decide

/-! ### PairRecordsAreComparedOrCarried -/

/-- A SLAM session of context 0 whose pair of bands 0 and 1 is in lockstep, with one POSE_FAST due. -/
def pairState (p : PairS) (f : SessionS → SessionS) : State :=
  { running f with pairs := [(0, { p with bandA := 0, bandB := 1 })], bands := [(0, { role := 2 }), (1, { role := 3 })] }
def dueFast (x : SessionS) : SessionS := { x with fastDue := [(0, 0, 0)], rings := List.replicate 4 { log2 := 16 } }
theorem witness_pair_agrees : (let s := pairState { bufA := [{}], bufB := [{}] } dueFast
    let p := Tab.getD s.pairs 0 {}
    s.life.main ≠ .off ∧ p.bandA ≠ p.bandB ∧ p.state = 0 ∧ p.bufA = [{}] ∧ p.bufB = [{}] ∧ (s.sessionAt 0).any (fun x => !x.stopped && x.fastDue == [(0, 0, 0)]) = true) := by
  decide
theorem witness_pair_differs : (let a : CompareBuf := { sigs := [1] }
    let s := pairState { bufA := [{}], bufB := [a] } dueFast
    let p := Tab.getD s.pairs 0 {}
    (CompareBuf.agrees {} a) = false ∧ p.suspects = [] ∧ Tab.has s.bands p.bandA = true ∧ Tab.has s.bands p.bandB = true) := by decide
theorem witness_carrier_deadline : (let s := (pairState {} dueFast).mapTime fun t => { t with nanos := 100000 }
    ((s.sessionAt 0).bind (overdue s)) = some (false, 0) ∧ (Tab.getD s.pairs 0 {}).needCopy = []) := by decide
theorem witness_degraded : (let s := pairState { state := 3 } dueFast
    (Tab.getD s.pairs 0 {}).state = 3 ∧ (s.sessionAt 0).any (fun x => !x.stopped && x.fastDue == [(0, 0, 0)]) = true) := by decide
theorem witness_cover : (let s := (running fun x => { x with sets := [(0, { closed := some 0 })] }).mapTime fun t => { t with nanos := 1400000 }
    (s.sessionAt 0).any (fun x => x.prof.pose) = true ∧ 0 + 1400000 ≤ s.devNs ∧ s.life.main ≠ .off) := by decide

/-! ### NewMapsAndCommitsNumberTheGeneration -/

/-- Map 3 of context 0, with room for 65,536 landmarks, 16,384 keyframes and 65,536 edges and one keyframe; `f` changes it. -/
def oneMap (f : MapS → MapS) (s : State := up) : State :=
  { s with maps := [(3, f { lmCap := 65536, kfCap := 16384, edgeCap := 65536, featPool := 67108864, gen := 8, kfs := [{ id := 1, genBorn := 8 }] })] }
def createMap : Cmd := aCmd (.host 0) 0x700 [0xFF, 1, 1, 1, 1024, 0]
theorem witness_map_create : ({ up with cmds := [createMap] } : State).runs slot0 0x700 createMap ∧ createMap.ref = slot0 ∧
    up.maps.lowestFree 16 = some 0 ∧ fld (createMap.w 3) 7 0 = 0xFF ∧ 1024 ≤ (createMap.w 7).toNat ∧
    withDefault (fld (createMap.w 8) 6 0) 4 100 25 = some 25 ∧ up.tierFits 0 2 (MapReq.granules ⟨1, 1, 1, 1024, 25⟩) = true ∧
    up.tablesFit ⟨1, 1, 1, 1024, 25⟩ = true := by decide +kernel
theorem witness_map_commit : (let s := oneMap fun m => { m with queue := [{ op := .change (.deleteLandmark 5) }] }
    s.mainOn = true ∧ (Tab.get? s.maps 3).any (fun x => x.lastCommit.isNone && !x.withdrawn) = true) := by decide
theorem test_map_commit_wraps : (match exec (.mapCommit 3) (oneMap fun m => { m with gen := 0xFFFFFFFF, queue := [{ op := .change (.deleteLandmark 5) }] }) with
    | .next t => (t.mapAt 3).gen | _ => 7) = 0 := by decide +kernel

/-! ### MapCommandsByOwnerAndRoom -/

def mapCmd (op : Nat) (params : List Word) : Cmd := aCmd (.host 0) op params
theorem witness_map_busy : (oneMap id).maps.lowestFree 16 = some 0 ∧ Tab.has (oneMap id).maps 3 = true := by decide
theorem witness_map_no_room : up.tablesFit ⟨129, 0, 0, 1024, 25⟩ = false ∧ fld (createMap.w 3) 7 0 = 0xFF := by decide
theorem witness_map_not_owner : (Tab.get? (oneMap fun m => { m with owner := 1 }).maps 3).any (fun x => decide (x.owner ≠ 0) && !x.lent.getLsbD 0 && !x.withdrawn) = true ∧
    (pf 0x701 [3] (oneMap fun m => { m with owner := 1 })).runs slot0 0x701 (mapCmd 0x701 [3]) := by decide
theorem witness_map_destroy : (oneMap id).mapSessions 3 = [] ∧ (oneMap id).mapInFlight 3 = false ∧
    (oneMap fun m => { m with queue := [{ op := .change (.deleteLandmark 5), origin := .command slot0 0 }] }).mapInFlight 3 = true := by decide
theorem witness_map_lend : (pf 0x704 [3, 6] (oneMap id)).runs slot0 0x704 (mapCmd 0x704 [3, 6]) ∧
    (fld ((mapCmd 0x704 [3, 6]).w 4) 7 0).testBit 0 = false := by decide
theorem witness_map_recall_busy : (let s := oneMap id (running fun x => { x with map := 3 })
    s.mapSessions 3 = [0] ∧ (fld ((mapCmd 0x705 [3, 1]).w 4) 7 0).testBit 0 = true) := by decide
/-- A Tether MAP_EDIT with one item that deletes landmark 5. -/
def editOf : Cmd := { aCmd .tether 0x703 [3, 0, 0, 0, 136, 0, 0, 0, 0] with inlineIn := [2, 0, 0, 0, 5] ++ zeros 131 }
theorem witness_map_edit : (let s := { oneMap id with cmds := [editOf] };
    s.runs msg0 0x703 editOf ∧ editOf.sgTotal 4 = 136 ∧ sgIn editOf 4 s = .bytes ((2 : Byte) :: ([0, 0, 0, 5] ++ zeros 131))) := by decide +kernel
theorem test_map_edit_queued : (match exec (.mapEdit msg0) { oneMap id with cmds := [editOf] } with
    | .next t => (t.mapAt 3).queue | _ => []) = [{ op := .change (.deleteLandmark 5), origin := .command msg0 0 }] := by decide +kernel
/-- A MAP_MERGE of map 4 into map 3 with no pairs. -/
def mergeOf : Cmd := aCmd (.host 0) 0x706 (0x403 :: List.replicate 15 0)
theorem witness_map_merge : (let s := { oneMap id with cmds := [mergeOf] }; let s := { s with maps := s.maps ++ [(4, { gen := 2 })] };
    s.runs slot0 0x706 mergeOf ∧ fld (mergeOf.w 3) 3 0 = 3 ∧ fld (mergeOf.w 3) 11 8 = 4 ∧ mergeOf.sgTotal 11 = 0 ∧ sgIn mergeOf 11 s = .bytes [] ∧
    (s.mapAt 3).roomFor (s.mapAt 3).lmCap 0 ((s.mapAt 4).lmsAt 2).length 0 = true ∧
    (s.mapAt 3).roomFor (s.mapAt 3).kfCap 1 ((s.mapAt 4).kfsAt 2).length 0 = true ∧
    (s.mapAt 3).roomFor (s.mapAt 3).edgeCap 0 ((s.mapAt 4).edgesAt 2).length 0 = true) := by decide
theorem witness_map_merge_full : (let x : MapS := { kfCap := 4, headroom := 25 }; x.roomFor x.kfCap 0 5 0 = false) := by decide
theorem witness_map_query : (pf 0x702 [3, 0, 1] (oneMap id)).runs slot0 0x702 (mapCmd 0x702 [3, 0, 1]) ∧
    1 ≤ ((mapCmd 0x702 [3, 0, 1]).w 5).toNat := by decide
theorem witness_map_export_small : (pf 0x707 [3] (oneMap id)).runs slot0 0x707 (mapCmd 0x707 [3]) ∧ (mapCmd 0x707 [3]).sgTotal 4 = 0 := by decide
theorem witness_map_import_bad : importCheck (zeros 256) false = some (BAD_PARAM, 0x0010) := by decide +kernel
theorem witness_map_recall_running : (let s := { oneMap id (running fun x => { x with map := 3 }) with cmds := [mapCmd 0x705 [3, 1]], maps := [(3, { owner := 1 })] };
    let m := inCtx 1 (mapCmd 0x705 [3, 1])
    ({ s with cmds := [m] } : State).runs slot0 0x705 m ∧ m.ctx = 1 ∧ (fld (m.w 4) 7 0).testBit 1 = false ∧ s.mapSessions 3 = [0] ∧
    (fld (m.w 4) 7 0).testBit 0 = true) := by decide
theorem witness_map_merge_over : (let s := { oneMap (fun m : MapS => { m with kfCap := 4 }) with cmds := [mergeOf] };
    let s := { s with maps := s.maps ++ [(4, ({ gen := 2, kfs := (List.range 5).map fun i => { id := BitVec.ofNat 32 i, genBorn := 1 } } : MapS))] };
    s.runs slot0 0x706 mergeOf ∧ (s.mapAt 3).roomFor (s.mapAt 3).kfCap 1 ((s.mapAt 4).kfsAt 2).length 0 = false) := by decide
/-- The file of map 3, and a MAP_IMPORT of it. -/
def mapFile : List Byte := perraBytes (oneMap id) ((oneMap id).mapAt 3) 8 false
def importOf (kf : Word) : Cmd := { aCmd .tether 0x708 [0xFF, 1, kf, 1, 1024, 0, 0, 0, 0, 576] with inlineIn := mapFile }
theorem witness_map_export : (let m := aCmd .tether 0x707 [3, 0, 0, 0, 600]
    ({ oneMap id with cmds := [m] } : State).runs msg0 0x707 m ∧ 576 ≤ m.sgTotal 4) := by decide
theorem witness_map_import : (let s : State := { up with cmds := [importOf 1] }
    s.runs msg0 0x708 (importOf 1) ∧ (importOf 1).sgInline 9 = true ∧ s.tierFits 0 2 (MapReq.granules ⟨1, 1, 1, 1024, 25⟩) = true ∧
    s.tablesFit ⟨1, 1, 1, 1024, 25⟩ = true) := ⟨⟨rfl, rfl, rfl, rfl⟩, by decide, by decide +kernel, by decide +kernel⟩
theorem witness_map_import_file : (readMap mapFile).kfs.length = 1 ∧ (readMap mapFile).lms.length = 0 ∧
    (readMap mapFile).edges.length = 0 ∧ (readMap mapFile).indexes.length = 0 ∧ mapFile.length = 576 := by
  refine ⟨?_, ?_, ?_, ?_, ?_⟩ <;> decide +kernel

/-! ### CommitsWriteTheNextGeneration -/

theorem witness_commit_early : (oneMap fun m => { m with lastCommit := some 7 }).mainOn = true ∧ up.time.ticks - 7 < 500000 := by decide
theorem witness_tombstone : (let x : MapS := { snaps := [{ gen := 4, holder := .query 0, seq := 0 }] }
    x.freeable 5 = false ∧ x.freeable 4 = true ∧ x.freeable 0xFFFFFFFF = false) := by decide
theorem test_sweep : (match exec (.generationSweep 3) (oneMap fun m => { m with gen := 0x40000008 }) with
    | .next t => ((t.mapAt 3).kfs.head?.map (·.genBorn)) | _ => none) = some 8 := by decide
theorem test_sweep_far : (match exec (.generationSweep 3) (oneMap fun m => { m with gen := 0x40000009 }) with
    | .next t => ((t.mapAt 3).kfs.head?.map (·.genBorn)) | _ => none) = some 9 := by decide
theorem witness_map_delta : (let s := oneMap id (running fun x => { x with map := 3, deltaGen := 7, rings := List.replicate 4 { log2 := 16 } })
    (s.sessionAt 0).any (fun x => !x.withdrawn && x.deltaGen != (s.mapAt 3).gen) = true) := by decide

/-! ### SearchIndexesAndQueries -/

/-- An index of 256 empty lists for vectors of 16 values, and map 3 with it as its EMBEDDING index. -/
def smallIndex : IndexS := { metric := 0, m := 16, d := 16, nlist := 256, cap := 65536, centroids := [0], codebooks := [0] }
def searchMap (f : MapS → MapS) (s : State := up) : State := oneMap (fun m => f { m with indexes := [(0, smallIndex)] }) s
def createIndex : Cmd := aCmd (.host 0) 0x800 ([0x10000003, 16, 256, 65536, 0, 0, 0, 0, 0, 0, 1, 16384])
theorem witness_index_create : ({ oneMap id with cmds := [createIndex] } : State).runs slot0 0x800 createIndex ∧ fld (createIndex.w 3) 7 0 = 3 ∧
    fld (createIndex.w 3) 15 8 = 0 ∧ fld (createIndex.w 3) 31 24 = 16 ∧ fld (createIndex.w 4) 15 0 = 16 ∧ (createIndex.w 5).toNat = 256 ∧
    createIndex.sgTotal 11 = 2 * 16 * (256 + 256) ∧ (oneMap id).indexFits 0 smallIndex = true := by decide +kernel
theorem witness_index_full : (oneMap id).indexFits 0 { smallIndex with cap := 16777216 + 65536 } = false := by decide +kernel
theorem witness_index_destroy : (pf 0x801 [3] (searchMap id)).runs slot0 0x801 (aCmd (.host 0) 0x801 [3]) ∧ (searchMap id).indexBusy 3 0 = false ∧
    (searchMap id { up with queries := [(0, { map := 3 })] }).indexBusy 3 0 = true := by decide
/-- A Tether SEARCH_INSERT of one FP16 vector of zeros for keyframe 1. -/
def insertOf : Cmd := { aCmd .tether 0x802 [0x00010003, 0, 0, 0, 48] with inlineIn := [1, 0, 0, 0] ++ zeros 44 }
theorem witness_search_insert : (let s := { searchMap id with cmds := [insertOf] };
    s.runs msg0 0x802 insertOf ∧ fld (insertOf.w 3) 31 16 = 1 ∧ insertOf.sgTotal 4 = 1 * (16 + vectorBytes false 16) ∧
    sgIn insertOf 4 s = .bytes (insertOf.inlineIn) ∧ (prepare 0 (vectorOf false 0x3F800000 16 (zeros 32))).isSome = true) := by decide +kernel
/-- A Tether SEARCH_QUERY of the zero vector in map 3. -/
def queryOf : Cmd := { aCmd .tether 0x803 [0, 0, 0, 64, 0, 0, 0, 24] with inlineIn := [3] ++ zeros 63 }
theorem witness_search_query : (let s := { searchMap id with cmds := [queryOf] };
    s.runs msg0 0x803 queryOf ∧ sgIn queryOf 3 s = .bytes queryOf.inlineIn ∧ leAt queryOf.inlineIn 0 1 = 3 ∧ withDefault 0 1 (min 1024 256) 32 = some 32 ∧
    withDefault 0 32 (min 1024 256) 32 = some 32 ∧ queryOf.sgTotal 3 = 32 + vectorBytes false 16 ∧ s.queued 0 < 1024) := by decide +kernel
def scanState (f : QueryS → QueryS) : State := searchMap id { up with queries := [(0, f { map := 3 })], nextQuery := 1 }
theorem witness_search_scan : (scanState id).mainOn = true ∧ (scanState id).poolOk 17 = true ∧ Tab.sorted (scanState id).queries = true ∧
    (Tab.get? ((scanState id).mapAt 3).indexes 0).isSome = true := by decide
theorem witness_pass_widens : (let q : QueryS := { scanning := true, widen := true, scanned := 32, limit := 64, order := List.range 256 }
    q.scanned < min q.limit q.order.length ∧ q.survivors.length < q.k) := by decide +kernel
theorem witness_pass_answers : (let s := { scanState (fun q => { q with scanning := true, cmd := some msg0 }) with cmds := [queryOf] };
    (s.findCmd msg0).isSome = true ∧ (Tab.getD s.queries 0 {}).widen = false ∧ (Tab.getD s.queries 0 {}).aborting = false) := by decide
theorem witness_loop_query : (let s := searchMap id (running fun x => { x with map := 3 })
    (s.sessionAt 0).any (fun x => x.prof.pose && !x.stopping && x.loopLast.isNone) = true ∧ ((s.mapAt 3).liveKf 1).any (fun e => e.kind == 0) = true ∧ s.queued 0 = 0 ∧
    (prepare 0 ((List.replicate 16 (0 : Word)).map (·.toNat))).isSome = true) := by decide +kernel
theorem witness_loop_verify : (let s := searchMap id (running fun x => { x with map := 3, loopCand := [(1, 1)] })
    ((s.mapAt 3).liveKf 1).any (fun e => !e.noFeatures) = true ∧ (Tab.getD (s.mapAt 3).feats 1 {}).inHost = false ∧ (s.mapAt 3).owner = 0 ∧
    s.mainOn = true ∧ (s.sessionAt 0).any (fun x => !x.stopping) = true) := by decide
theorem witness_loop_promotes : (let s := oneMap (fun m => { m with feats := [(1, { inHost := true })] }) (running fun x => { x with map := 3, loopCand := [(1, 1)] })
    ((s.mapAt 3).liveKf 1).any (fun e => !e.noFeatures) = true ∧ (Tab.getD (s.mapAt 3).feats 1 {}).inHost = true) := by decide
theorem witness_loop_rejected : (let s := oneMap fun m => { m with kfs := [{ id := 1, flags := 1 }] };
    ((s.mapAt 3).liveKf 1).any (fun e => e.noFeatures) = true) := by decide
theorem witness_index_loads : (let m : Cmd := { aCmd .tether 0x800 [0x10000003, 16, 256, 65536, 0, 0, 0, 0, 0, 0, 0, 16384] with inlineIn := zeros 16384 }
    ({ oneMap id with cmds := [m] } : State).runs msg0 0x800 m ∧ m.sgInline 11 = true ∧ m.sgTotal 11 = 2 * 16 * (256 + 256)) :=
  ⟨⟨rfl, rfl, rfl, rfl⟩, rfl, rfl⟩
theorem witness_query_many : withDefault 256 1 256 8 = some 256 ∧ withDefault 16 1 16 4 = some 16 ∧ 1024 < 256 * 16 := by decide
theorem witness_loop_discarded : (let s := searchMap id (running fun x => { x with map := 3, loopCand := [(1, 1), (2, 1)] })
    (s.sessionAt 0).any (fun x => x.loopCand == [(1, 1), (2, 1)]) = true ∧ ((s.mapAt 3).liveKf 1).any (fun e => !e.noFeatures) = true ∧
    ({ passed := false } : LoopVerdict).passed = false) := by decide +kernel

/-! ### FailedStepLandsNothing -/

/-- Band 3 of context 0, of tiles 4 and 5, on a session's program. -/
def bandUp (f : BandS → BandS) : State := (running fun x => { x with bands := [3] }).updCtx 0 (fun c => { c with bands := [3] })
  |> fun s => { s with bands := [(3, f { tiles := [4, 5], role := 1 })] }
theorem witness_failed_step : (bandUp id).canStep 3 = true ∧ ((bandUp id).bandAt 3).tiles.length = 2 ∧ ((bandUp id).bandAt 3).program = false := by decide

/-! ### BandStepsIssueAndLand -/

theorem witness_band_step : (bandUp id).canStep 3 = true ∧ ((bandUp id).bandAt 3).program = false := by decide
/-- A one-tile program band whose slice holds MOVI S5, 9 and then HALT. -/
def progUp (w : Nat) : State :=
  let img : ImageS := { slices := [[0, 0, 1, 2, 0]], code := zeros 28 ++ leBytes 4 w ++ zeros 32 }
  (up.updCtx 0 fun c => { c with image := some img, bands := [3] }) |> fun s => { s with bands := [(3, { tiles := [4], program := true })] }
theorem witness_s_slot : (let s := progUp (0x0E * 2 ^ 26 + 5 * 2 ^ 21 + 9)
    let img := ((s.ctxAt 0).image).getD {}
    s.canStep 3 = true ∧ (s.program 3).isSome = true ∧ (img.col 0 0 0).s = 0x0E * 2 ^ 26 + 5 * 2 ^ 21 + 9 ∧ (img.col 0 0 0).x = 0 ∧
    img.resident 0 = true ∧ 0 + 1 < img.columns 0 ∧ sValue (s.view 3 0) (0x0E * 2 ^ 26 + 5 * 2 ^ 21 + 9) = some 9) := by decide
theorem witness_halt : (let s := progUp (0x17 * 2 ^ 26)
    let img := ((s.ctxAt 0).image).getD {}
    s.canStep 3 = true ∧ img.resident 0 = true ∧ img.col 0 0 0 = { s := 0x17 * 2 ^ 26 } ∧ (s.ctxAt 0).admitCmd = none) := by decide
theorem witness_rendezvous : (let s := { bandUp fun b => { b with waiting := some 2 } with rvs := [(2, { members := [3] })] };
    (s.bandAt 3).waiting = some 2 ∧ s.mayLeave 2 3 = true ∧ 3 ∈ (Tab.getD s.rvs 2 {}).members) := by decide
theorem witness_rendezvous_late : (let s := (bandUp fun b => { b with waiting := some 2 }).mapTime fun t => { t with ticks := msTicks 1 };
    Tab.has s.bands 3 = true ∧ (s.bandAt 3).lateRaised = false ∧ msTicks 1 ≤ s.since (s.bandAt 3).waitSince) := by decide
theorem witness_move : (let m : MoveS := { tile := 0, flag := 2, isIn := true, obj := 5, offset := 0, row := 1, nrows := 1, data := [] }
    let s := { bandUp fun b => { b with moves := [m] } with objs := [(5, {})], jobs := [{ class_ := 1, seq := 0, job := .bandMove 3 m.seq }] };
    ((s.bandAt 3).moves.find? fun m => m.tile == 0 && m.flag == 2 && (m.suppressed || s.serves (.bandMove 3 m.seq))) = some m ∧ m.suppressed = false ∧ Tab.get? s.objs 5 = some {}) := by decide
theorem witness_move_suppressed : (let m : MoveS := { tile := 0, flag := 2, isIn := true, obj := 5, offset := 0, row := 1, nrows := 1, data := [], suppressed := true }
    let s := bandUp fun b => { b with moves := [m] };
    ((s.bandAt 3).moves.find? fun m => m.tile == 0 && m.flag == 2 && (m.suppressed || s.serves (.bandMove 3 m.seq))) = some m) := by decide
theorem witness_code_page : (let s := { bandUp fun b => { b with loading := [9] } with jobs := [{ class_ := 1, seq := 0, job := .codePage 3 9 }] };
    (s.bandAt 3).loading.contains 9 = true ∧ s.serves (.codePage 3 9) = true) := by decide
theorem witness_layer : (let w : WStream := { obj := 5, band := 3, layers := [(0, 1)], fills := [(0, 0, [0, 1])] }
    let o : ObjS := { id := 5, granules := 1 }
    let s := { (bandUp id).updCtx 0 fun c => { c with streams := [(2, w)] } with
                objs := [(5, o)], jobs := [{ class_ := 2, seq := 0, job := .streamFill 0 2 0 1 }] };
    ([0, 1].find? fun b => s.serves (.streamFill 0 2 b 1)) = some 0 ∧ (s.fillOf 0 2 0 1).isSome = true) := by decide

/-! ### ContextsReserveAllOrNothing -/

/-- A Tether CONTEXT_ADMIT of an image of one band of one tile whose single step halts. -/
def admitImage : List Byte :=
  let code : List Byte := zeros 28 ++ wBytes 0x5C000000
  let bands : List Byte := [0, 0, 1, 0] ++ zeros 12
  let segs : List Byte := []
  let slices : List Byte := [0, 0, 0, 0] ++ leBytes 4 1 ++ leBytes 8 192 ++ wBytes (crc32 code) ++ zeros 12
  let rest := bands ++ zeros 0 ++ segs ++ slices ++ zeros 16 ++ code
  let head (crc : Word) : List Byte := [0x4E, 0x48, 0x50, 0x47, 0x1A, 0x0A, 0, 0, 1, 32, 0, 0] ++ wBytes crc ++ zeros 8 ++ [1, 0] ++ leBytes 2 0
    ++ leBytes 4 1 ++ leBytes 4 128 ++ leBytes 4 144 ++ leBytes 4 144 ++ zeros 20 ++ sha512 rest
  head (crc32 (head 0)) ++ rest
def admitOf (img : List Byte) : Cmd :=
  { aCmd .tether 0x900 [0, 0, 0, w32 img.length, 8, 1000, 1] with inlineIn := img }
def admitState : State := { up with cmds := [admitOf (zeros 64)] }.updCtx 0 fun c => { c with window := [(0, 65536)] }
theorem witness_admit_bad : admitState.runs msg0 0x900 (admitOf (zeros 64)) ∧ (admitState.ctxAt 0).admitted = false ∧
    sgIn (admitOf (zeros 64)) 3 admitState = .bytes (zeros 64) ∧ imageCheck (zeros 64) = some (BAD_PARAM, 0x0020) := by decide +kernel
theorem witness_admit_busy : ((up.updCtx 0 fun c => { c with image := some {} }).ctxAt 0).admitted = true := by decide
theorem witness_admit_image : imageCheck admitImage = none ∧ (parseImage admitImage).commonsRows = 0 ∧ (parseImage admitImage).codeGranules = 2 := by decide +kernel
theorem witness_admit_resources : (placeTiles admitState [] [(1, 0)]).isSome = true ∧ [(1, 0)].length ≤ admitState.freeBands.length ∧
    (admitState.ctxAt 0).window ≠ [] ∧ admitState.energyFits 1000 = true ∧ admitState.searchFits 1000 = true ∧ 8 ≤ admitState.hbmFree := by
  decide +kernel
theorem witness_admit_no_window : (up.ctxAt 0).window = [] := by decide
theorem witness_ctx_release : (pf 0x901 [] (running id)).runs slot0 0x901 (aCmd (.host 0) 0x901 []) ∧ (running id).sessionAt 0 ≠ none ∧
    up.sessionAt 0 = none := by decide
theorem witness_admits : (let s := { admitState with cmds := [admitOf admitImage] };
    let m := admitOf admitImage
    s.runs msg0 0x900 m ∧ sgIn m 3 s = .bytes admitImage ∧ (parseImage admitImage).bands.map (fun e => (e.getD 2 0, e.getD 1 0)) = [(1, 0)] ∧
    s.energyFits (m.w 8).toNat = true ∧ s.searchFits (1000 * (m.w 9).toNat) = true ∧ (s.ctxAt 0).hbmUsed + 2 ≤ (m.w 7).toNat ∧
    (m.w 7).toNat ≤ s.hbmFree + (s.ctxAt 0).hbmUsed) := by decide +kernel

/-! ### ObjectsFollowTheirOwner -/

/-- Object 5 of context 0 (OBJ_ID 5), one granule in HBM; `f` changes it. -/
def oneObj (f : ObjS → ObjS) (s : State := up) : State := { s with objs := [(5, f { id := 5 })] }
theorem witness_window_set : (let e : State := { up with hostMem := writeHost [] 0x1000 (leBytes 8 0x20000 ++ leBytes 4 0x10000) };
    sgExtents (aCmd (.host 0) 0xA00 [0x1000, 0, 1, 0x10000]) 3 e = .extents [(0x20000, 0x10000)] ∧ (e.ctxAt 0).admitted = false) := by decide +kernel
theorem witness_obj_create : (let m := aCmd (.host 0) 0xA01 [0, 1, 0]
    ({ up with cmds := [m] } : State).runs slot0 0xA01 m ∧ m.ctx < 8 ∧ (m.w 4).toNat = 1 ∧ withDefault (fld (m.w 5) 15 8) 1 3 2 = some 2 ∧
    withDefault (fld (m.w 5) 23 16) 1 4 4 = some 4 ∧ up.tierFits 0 2 1 = true ∧ up.tierFits 0 3 1 = false ∧ Tab.has up.objs 0 = false) := by decide +kernel
theorem test_obj_create_id : (match exec (.objCreate slot0) (pf 0xA01 [0, 1, 0] { up with reuse := [(0, 3)] }) with
    | .next t => (t.objOf 0x18000).map (·.1) | _ => none) = some 0 := by decide +kernel
theorem witness_obj_not_owner : (let s := oneObj fun o => { o with owner := 1 }
    (s.objOf 5).any (fun x => decide (x.2.owner ≠ 0) && !bit x.2.share 0) = true ∧ (pf 0xA03 [5] s).runs slot0 0xA03 (aCmd (.host 0) 0xA03 [5])) := by decide
theorem witness_obj_lost : ((oneObj fun o => { o with kind := 2, sealed_ := true, unavailable := true }).objOf 5).any (fun x => x.2.unavailable) = true := by decide
/-- A Tether OBJ_WRITE of four bytes at row 1 of object 5. -/
def writeOf : Cmd := { aCmd .tether 0xA03 [5, 1, 0, 0, 0, 4] with inlineIn := [9, 8, 7, 6] }
theorem witness_obj_write : (let s := { oneObj id with cmds := [writeOf] };
    s.runs msg0 0xA03 writeOf ∧ (s.objOf (writeOf.w 3)).any (fun x => x.1 == 5 && !x.2.sealed_ && !x.2.unavailable && x.2.owner == 0) = true ∧
    sgIn writeOf 5 s = .bytes [9, 8, 7, 6] ∧ 256 * (writeOf.w 4).toNat + writeOf.sgTotal 5 ≤ 65536) := by decide
theorem test_obj_write : (match exec (.objWrite msg0) { oneObj id with cmds := [writeOf] } with
    | .next t => (t.objOf 5).map fun x => (x.2.bytes 256 4) | _ => none) = some [9, 8, 7, 6] := by decide +kernel
theorem witness_obj_seal : (let s := oneObj fun o => { o with kind := 1 }
    (s.objOf 5).any (fun x => decide (x.2.kind ≠ 0)) = true ∧ (pf 0xA05 [5] s).runs slot0 0xA05 (aCmd (.host 0) 0xA05 [5])) := by decide
theorem witness_obj_share : (let s := oneObj fun o => { o with kind := 1, sealed_ := true, share := 2 }
    (pf 0xA07 [5, 2] s).runs slot0 0xA07 (aCmd (.host 0) 0xA07 [5, 2]) ∧ ((s.objOf 5).any fun x => x.2.borrowers 2 == [1] && !s.holdsOn 1 x.2) = true ∧
    ((s.updCtx 1 fun c => { c with windows := [(0, 5)] }).objOf 5).any (fun x => (s.updCtx 1 fun c => { c with windows := [(0, 5)] }).holdsOn 1 x.2) = true) := by
  decide
theorem witness_obj_read : (let o : ObjS := { id := 5 }
    (pf 0xA04 [5, 0, 0, 0, 0, 0] (oneObj id)).runs slot0 0xA04 (aCmd (.host 0) 0xA04 [5, 0, 0, 0, 0, 0]) ∧ o.readable 0 0 = true ∧
    ({ o with poisoned := [0] } : ObjS).readable 0 4 = false) := by decide
theorem witness_window_bind : bit ((aCmd (.host 0) 0xA0D [0x107, 5]).w 3) 8 = true ∧ ((oneObj id).objOf 5).isSome = true ∧
    (pf 0xA0D [7, 5] (oneObj id)).runs slot0 0xA0D (aCmd (.host 0) 0xA0D [7, 5]) := by decide
/-- A stream descriptor of one layer of one row. -/
def streamDesc : List Byte := leBytes 4 5 ++ [0, 0, 5, 3] ++ leBytes 2 1 ++ leBytes 2 16 ++ leBytes 2 0 ++ leBytes 2 16 ++ zeros 16 ++ leBytes 4 0 ++ leBytes 2 1 ++ zeros 2
theorem witness_stream_bind : streamOk streamDesc = true ∧ leAt streamDesc 8 2 = 1 ∧
    (((oneObj (fun o => { o with kind := 2 })).updCtx 0 fun c => { c with bands := [3] }).ctxAt 0).bands[leAt streamDesc 4 1]? = some 3 := by decide
theorem witness_stream_bad : streamOk (streamDesc.set 14 15) = false := by decide
theorem witness_obj_reload : (let o : ObjS := { id := 5, kind := 2, sealed_ := true, unavailable := true }
    o.kind ≠ 0 ∧ o.unavailable = true ∧ (aCmd (.host 0) 0xA10 [5, 0, 0, 1, 65536]).sgTotal 4 = o.granules * 65536) := by decide
theorem witness_window_large : (let s := up.updCtx 1 fun c => { c with window := [(0, 2 ^ 38)] }
    2 ^ 38 < total ((List.range 8).map fun k => if k = 0 then 0 else total ((s.ctxAt k).window.map (·.2))) + total ([(0x20000, 0x10000)].map (·.2))) := by decide
theorem witness_obj_unreadable : (let s := oneObj fun o => { o with poisoned := [0] }
    let m := aCmd .tether 0xA04 [5, 0, 0, 0, 0, 4]
    ({ s with cmds := [m] } : State).runs msg0 0xA04 m ∧ (s.objOf 5).any (fun x => x.2.readable 0 4 == false && !x.2.unavailable) = true ∧ m.sgTotal 5 = 4) := by decide
theorem witness_stream_binds : (let m : Cmd := { aCmd .tether 0xA0E [0, 0, 0, 0, w32 streamDesc.length] with inlineIn := streamDesc }
    let s : State := { (oneObj (fun o => { o with kind := 2, sealed_ := true })).updCtx 0 fun c => { c with bands := [3] } with cmds := [m], bands := [(3, { tiles := [4] })] }
    s.runs msg0 0xA0E m ∧ sgIn m 4 s = .bytes streamDesc ∧ (s.objOf (wordAt streamDesc 0)).any (fun x => x.2.kind == 2 && x.2.owner == 0) = true ∧
    (s.ctxAt 0).bands[leAt streamDesc 4 1]? = some 3 ∧ s.jobs = []) := by decide
theorem witness_obj_reloads : (let m := aCmd .tether 0xA10 [5, 0, 0, 0, 65536]
    ({ oneObj (fun o => { o with kind := 2, sealed_ := true, unavailable := true }) with cmds := [m] } : State).runs msg0 0xA10 m ∧ m.sgInline 4 = true ∧
    m.sgTotal 4 = 1 * 65536) := by decide

/-! ### CopiesAndMovesKeepTheObject -/

/-- Object 5 as sealed weights with a copy in tier 2 that context 0 claims. -/
def copied (x : CopyS) : State := oneObj fun o => { o with kind := 2, sealed_ := true, copies := [(2, x)] }
theorem witness_promote : (let s := copied { have_ := [0], claims := 1 }
    (pf 0xA09 [5, 2] s).runs slot0 0xA09 (aCmd (.host 0) 0xA09 [5, 2]) ∧ (s.objOf 5).any (fun x => bit (x.2.copy 2).claims 0 && x.2.complete 2) = true ∧
    fld ((aCmd (.host 0) 0xA09 [5, 2]).w 4) 1 0 = 2) := by decide
theorem witness_promote_incomplete : ((oneObj fun o => { o with kind := 1, sealed_ := true }).objOf 5).any (fun x => !x.2.complete 2 && !bit (x.2.copy 2).claims 0) = true ∧
    (oneObj id).tierFits 0 2 1 = true ∧ (oneObj id).tierFits 0 1 1 = false := by decide
theorem witness_evict : ((copied { have_ := [0], claims := 1, pins := [(0, 1)] }).objOf 5).any (fun x => decide (0 < Tab.getD (x.2.copy 2).pins 0 0)) = true ∧
    ((copied { have_ := [0], claims := 1 }).objOf 5).any (fun x => Tab.getD (x.2.copy 2).pins 0 0 == 0 && bit (x.2.copy 2).claims 0) = true := by decide
theorem witness_obj_move : (let s := oneObj id
    (pf 0xA08 [5, 1] s).runs slot0 0xA08 (aCmd (.host 0) 0xA08 [5, 1]) ∧ (s.objOf 5).any (fun x => x.2.isData && x.2.home == 2 && x.2.moving.isNone) = true ∧
    s.tierFits 0 1 1 = false ∧ (s.updCtx 0 fun c => { c with banks := [0] }).tierFits 0 1 1 = true) := by decide
/-- Object 5 being moved to tier 1 by the command in slot 0, with two jobs waiting of which the first requested is of a higher class number. -/
def movingObj (f : ObjS → ObjS) : State :=
  { oneObj (fun o => f { o with moving := some (1, [], slot0, false) }) with
      jobs := [{ class_ := 4, seq := 0, job := .featOut 0 0 }, { class_ := 2, seq := 1, job := .objMove 5 0 }], cmds := [aCmd (.host 0) 0xA08 [5, 1]] }
theorem witness_granule_move : ((movingObj id).nextJob.map fun j => (j.job, j.job.own)) = some (.objMove 5 0, false) ∧ (movingObj id).mainOn = true ∧ (movingObj id).poolOk 18 = true ∧
    ((movingObj id).findCmd slot0).isSome = true := by decide
theorem witness_granule_move_more : ((movingObj fun o => { o with granules := 2 }).objOf 5).any (fun x => decide (0 + 1 ≠ x.2.granules)) = true := by decide
def freeingCopy : State := { copied { have_ := [0, 1], freeing := true } with jobs := [{ class_ := 4, seq := 0, job := .copyFree 5 2 }] }
theorem witness_copy_free : freeingCopy.serves (.copyFree 5 2) = true ∧ ((Tab.getD freeingCopy.objs 5 {}).copy 2).have_ = [0, 1] := by decide
theorem test_copy_free : (match exec (.copyGranuleFree 5 2) freeingCopy with
    | .next t => (t.objOf 5).map fun x => (x.2.copy 2).have_ | _ => none) = some [1] := by decide
theorem witness_restreamed : ((copied { have_ := [0] }).objOf 5).any (fun x => (x.2.copy 2).have_.contains 0) = true := by decide
theorem witness_unpin : (let s := copied { have_ := [0], claims := 1, pins := [(0, 2)] }
    (pf 0xA0C [5, 2] s).runs slot0 0xA0C (aCmd (.host 0) 0xA0C [5, 2]) ∧ (s.objOf 5).any (fun x => Tab.getD (x.2.copy 2).pins 0 0 == 2) = true ∧
    (pf 0xA0A [5, 2] s).runs slot0 0xA0A (aCmd (.host 0) 0xA0A [5, 2])) := by decide
theorem witness_move_poisoned : ((oneObj fun o => { o with poisoned := [0] }).objOf 5).any (fun x => x.2.isData && x.2.poisoned == [0] && !x.2.unavailable) = true := by decide

/-! ### SlotWritesArmOrAreLost -/

theorem witness_slot_arm : (7 : Nat) < 8 ∧ (31 : Nat) < 32 ∧ fnReachable (up.mapLife fun x => { x with vfEnable := true }) 7 = true ∧
    bit ((up.mapLife fun x => { x with vfEnable := true }).fnAt 7).slotBusy 31 = false := by decide
theorem witness_slot_lost : (0 : Nat) < 8 ∧ fnReachable (up.updFn 0 fun f => { f with slotBusy := 1 }) 0 = true ∧
    bit ((up.updFn 0 fun f => { f with slotBusy := 1 }).fnAt 0).slotBusy 0 = true := by decide
theorem test_slot_word127 : Tab.getD (match exec (.slotWriteLost 0 1 127 5) up with | .next t => (t.fnAt 0).slots | _ => []) 255 0 = 5 := by
  decide

/-! ### RegisterWritesFollowTheirAccess -/

theorem witness_register_done : fnReachable up 0 = true ∧ bit (0x80 : Word) 7 = true ∧ bit (0x7F : Word) 7 = false := by decide
theorem witness_register_msix : (7 : Nat) < 8 ∧ bit ((up.updFn 0 fun f => { f with pba := 0x80 }).fnAt 0).pba 7 = true ∧
    bit (0 : Word) 0 = false := by decide
theorem witness_register_masked : fnReachable up 0 = true ∧ bit (up.fnAt 0).pba 2 = false ∧ fnReachable State.reset 0 = false := by decide
theorem test_slot_done_rw1c :
    (match exec (.registerWrite 0 0x4008 3) (up.updFn 0 fun f => { f with slotDone := 6 }) with
      | .next t => (t.fnAt 0).slotDone | _ => 0) = 4 := by decide

/-! ### CommandsStartInOrderAndReply -/

theorem witness_start : (let s := pf 2 [] up; let a := { s with cmds := s.cmds.map fun x => { x with phase := .armed } }
    (a.cmds.find? fun x => decide (x.ref.sender = .host 0 ∧ x.phase = .armed)) = some { aCmd (.host 0) 2 [] with phase := .armed } ∧
    startHeld { aCmd (.host 0) 2 [] with phase := .armed } a = false ∧ startCheck { aCmd (.host 0) 2 [] with phase := .armed } a = none) := by
  decide
theorem witness_start_refused : (let a : State := { up with cmds := [{ aCmd (.host 0) 0x7FFF [] with phase := .armed }] }
    (a.cmds.find? fun x => decide (x.ref.sender = .host 0 ∧ x.phase = .armed)) = some { aCmd (.host 0) 0x7FFF [] with phase := .armed } ∧
    startCheck { aCmd (.host 0) 0x7FFF [] with phase := .armed } a = some (VERSION_MISMATCH, (Config.openDetail 0x7FFF VERSION_MISMATCH).toNat)) :=
  ⟨by decide, rfl⟩
theorem witness_reply_host : (let r : Reply := {}; let m := { aCmd (.host 0) 2 [] with phase := .ended, reply := some r }
    ({ up with cmds := [m] } : State).findCmd ⟨.host 0, 0⟩ = some m ∧ m.irq = false ∧ r.body.length ≤ 123) := by decide
theorem witness_reply_irq : (let m : Cmd := { ref := slot0, words := [3, 1, 0x01000000], phase := .ended, reply := some {} }
    ({ up with cmds := [m] } : State).findCmd ⟨.host 0, 0⟩ = some m ∧ m.irq = true) := by decide
theorem witness_reply_tether : (let m := { aCmd .tether 2 [] with phase := .ended, reply := some {} }
    ({ up with cmds := [m] } : State).findCmd ⟨.tether, 0⟩ = some m) := by decide

/-! ### SideBandMessages -/

theorem witness_side_band : State.reset.life.vaux = true ∧ (0x1D : Byte) ≠ 0x00 ∧ (0x1D : Byte) ≠ 0xFF := by decide
/-- A HELLO of three words in one packet. -/
def helloPacket : SmbusPacket := { som := true, eom := true, tag := 5, owner := true, payload := ransaHead ++ wordsBytes [0x00010003, 0x10000, 0x01000000] }
theorem witness_ransa : assembled [helloPacket] = some (0x7F :: (List.range 4).map Config.enterprise ++ wordsBytes [0x00010003, 0x10000, 0x01000000]) ∧
    (helloPacket.owner = true) ∧ (wordsBytes [0x00010003, 0x10000, 0x01000000]).length + 5 ≤ 4096 := ⟨rfl, rfl, by decide⟩
theorem test_set_endpoint_id : (match exec (.setEndpointId false 0x1D) State.reset with | .next t => t.tether.eid | _ => 0) = 0x1D := by
  decide

/-! ### HelloAndCapabilitiesAnswer -/

theorem witness_hello_host : (pf 1 [] up).runs slot0 1 (aCmd (.host 0) 1 []) ∧ (aCmd (.host 0) 1 []).major = 1 := by decide
theorem witness_hello_tether : (side 1 []).runs msg0 1 (aCmd .tether 1 []) ∧ (side 1 []).tether.endpoint ≠ some (aCmd .tether 1 []).eid := by
  decide
theorem witness_hello_again : (let s := (side 1 []).mapTether fun t => { t with endpoint := some (aCmd .tether 1 []).eid };
    s.runs msg0 1 (aCmd .tether 1 []) ∧ s.tether.endpoint = some (aCmd .tether 1 []).eid) := by decide
theorem witness_hello_major : (let m := { aCmd (.host 0) 1 [] with words := [0x00010003, 0x10000, 0x02000000] }
    ({ up with cmds := [m] } : State).runs slot0 1 m ∧ m.major ≠ 1) := by decide
theorem witness_caps : (side 2 []).runs msg0 2 (aCmd .tether 2 []) := by decide

/-! ### DomainsChangeControlByTheTether -/

theorem witness_claim : (side 4 [0x8800]).runs msg0 4 (aCmd .tether 4 [0x8800]) ∧
    ((aCmd .tether 4 [0x8800]).w 3).setWidth 16 &&& 0x57FE = (0 : BitVec 16) := by decide
theorem witness_release : (side 5 [0xFFFF0801]).runs msg0 5 (aCmd .tether 5 [0xFFFF0801]) ∧
    ((aCmd .tether 5 [0xFFFF0801]).w 3).setWidth 16 &&& 0x57FE = (0 : BitVec 16) := by decide
theorem witness_claim_refused : (side 4 [0x0002]).runs msg0 4 (aCmd .tether 4 [0x0002]) ∧
    ((aCmd .tether 4 [0x0002]).w 3).setWidth 16 &&& 0x57FE ≠ (0 : BitVec 16) := by decide
theorem witness_release_refused : (side 5 [0x4000]).runs msg0 5 (aCmd .tether 5 [0x4000]) ∧
    ((aCmd .tether 5 [0x4000]).w 3).setWidth 16 &&& 0x57FE ≠ (0 : BitVec 16) := by decide
/-- Step 3 of Table 15-10: domains 0x0B and 0x0F. -/
theorem test_claim_table_15_10 : (match exec (.domainClaim msg0) (side 4 [0x8800]) with
    | .next t => (domainOwner t, t.events.map fun e => (e.code, e.detail)) | _ => (0, [])) = (0x8800, [(0x8000, 5)]) := by decide

/-! ### ExpertEnablesFollowThePolicy -/

theorem witness_expert_enable : (pf 6 [0x7FFE] up).runs slot0 6 (aCmd (.host 0) 6 [0x7FFE]) := by decide
theorem witness_expert_locked : (let s : State := { up with cmds := [aCmd (.host 7) 6 [2]] }
    s.runs ⟨.host 7, 0⟩ 6 (aCmd (.host 7) 6 [2]) ∧ ((aCmd (.host 7) 6 [2]).w 3).setWidth 16 &&& 0x7FFE &&& ~~~ (s.fnAt 7).policy ≠ 0) := by
  decide
theorem witness_expert_vf : (let s : State := { up.updFn 7 fun f => { f with policy := 2 } with cmds := [aCmd (.host 7) 6 [3]] }
    s.runs ⟨.host 7, 0⟩ 6 (aCmd (.host 7) 6 [3]) ∧ ((aCmd (.host 7) 6 [3]).w 3).setWidth 16 &&& 0x7FFE &&& ~~~ (s.fnAt 7).policy = 0) := by
  decide
theorem witness_expert_tether : (side 6 [4]).runs msg0 6 (aCmd .tether 6 [4]) ∧ (side 7 [4]).runs msg0 7 (aCmd .tether 7 [4]) := by decide
theorem witness_expert_disable : (pf 7 [4] up).runs slot0 7 (aCmd (.host 0) 7 [4]) := by decide
theorem witness_expert_policy : (pf 8 [0xFF, 6] up).runs slot0 8 (aCmd (.host 0) 8 [0xFF, 6]) ∧
    (side 8 [0xFF, 6]).runs msg0 8 (aCmd .tether 8 [0xFF, 6]) := by decide
theorem witness_expert_policy_vf : ({ up with cmds := [aCmd (.host 1) 8 [2]] } : State).runs ⟨.host 1, 0⟩ 8 (aCmd (.host 1) 8 [2]) := by decide
theorem test_expert_policy_drops : (match exec (.expertPolicy slot0) ((pf 8 [2, 4] up).updFn 1 fun f => { f with expert := 6, policy := 6 }) with
    | .next t => (t.fnAt 1).expert | _ => 0) = 4 := by decide

/-! ### HorizonAndDroopEventsAsStated -/

theorem witness_horizon : (up.mapPower fun p => { p with account := some (5, 0) }).power.account = some (5, 0) ∧ 0 ≤ up.devNs := by decide
theorem witness_droop : up.mainOn = true ∧ (5 : BitVec 3) ≠ 0 ∧ up.power.droopRaised = none ∧
    (up.mapPower fun p => { p with droopRaised := some 0 }).power.droopRaised = some 0 ∧ up.time.ticks - 0 < 500000000 := by decide
theorem witness_power_kept : (match exec .droopRecovery up with | .next t => t.power.droopRaised | _ => some 9) = none := by decide

/-! ### PowerCommandsSetTheBudget -/

theorem witness_power_cap : (pf 0xB00 [20000] up).runs slot0 0xB00 (aCmd (.host 0) 0xB00 [20000]) ∧ 8000 + up.shares ≤ 20000 - 20000 * up.power.ballast / 1000 ∧
    ((aCmd (.host 0) 0xB00 [9999]).w 3).toNat < 10000 ∧
    10000 - 10000 * (up.updCtx 0 fun x => { x with share := 9000 }).power.ballast / 1000 < 8000 + (up.updCtx 0 fun x => { x with share := 9000 }).shares := by decide
theorem witness_account : (let p : List Word := [900000, 1, 0];
    (pf 0xB01 p up).runs slot0 0xB01 (aCmd (.host 0) 0xB01 p) ∧ ((aCmd (.host 0) 0xB01 p).w 3) ≠ 0 ∧ (pf 0xB01 p up).devNs < 1) := by decide
theorem witness_account_past : up.devNs ≥ 0 ∧ ((aCmd (.host 0) 0xB01 [5, 0, 0]).w 4).toNat + 2 ^ 32 * ((aCmd (.host 0) 0xB01 [5, 0, 0]).w 5).toNat ≤ up.devNs := by decide
theorem witness_ballast : (pf 0xB02 [200] up).runs slot0 0xB02 (aCmd (.host 0) 0xB02 [200]) ∧ fld ((aCmd (.host 0) 0xB02 [9]).w 3) 7 0 < 10 := by decide
theorem test_ballast_default : (match exec (.ballastSet slot0) (pf 0xB02 [0] (up.mapPower fun p => { p with cap := 10010, ballast := 9 })) with
    | .next t => t.ballastMw | _ => 0) = 500 := by decide
theorem witness_worklevel : (pf 0xB03 [0, 0, 0, 0] up).runs slot0 0xB03 (aCmd (.host 0) 0xB03 [0, 0, 0, 0]) ∧ levelTableOk [] = false ∧
    sgIn (aCmd (.host 0) 0xB03 [0, 0, 0, 0]) 3 (pf 0xB03 [0, 0, 0, 0] up) = .bytes [] ∧ ((running id).sessionAt 0).isSome = true := by decide
/-- A table with every level of every stage. -/
def fullTable : List Byte :=
  let es : List Byte := (List.range 7).flatMap fun k => (rangeLevels k).flatMap fun l => leBytes 1 k ++ leBytes 1 l ++ zeros 14
  leBytes 2 (es.length / 16) ++ zeros 2 ++ [5, 6, 4, 2, 1, 3, 0] ++ zeros 21 ++ es
theorem witness_worklevel_table : levelTableOk fullTable = true := by decide +kernel
theorem witness_droop_over : (let s := up.mapPower fun p => { p with droop := true }; { s with time := { s.time with ticks := 50000 } }).power.droop = true ∧
    50000 ≤ 50000 - (0 : Nat) := by decide
theorem witness_auto_idle : (let s := (up.mapLife fun l => { l with idleSince := some 0, powerState := 0 }).mapTime fun t => { t with ticks := 500000000 }
    s.mainOn = true ∧ s.life.powerState = 0 ∧ 500000000 ≤ s.time.ticks - 0 ∧ (List.range 8).all (fun n => !(s.ctxAt n).admitted) = true) := by decide
theorem witness_power_cap_unmet : (let s := up.updCtx 0 fun x => { x with share := 9000 }
    (pf 0xB00 [10000] s).runs slot0 0xB00 (aCmd (.host 0) 0xB00 [10000]) ∧ 10000 - 10000 * s.power.ballast / 1000 < 8000 + s.shares) := by decide
theorem witness_worklevel_loads : (let m : Cmd := { aCmd .tether 0xB03 [0, 0, 0, w32 fullTable.length] with inlineIn := fullTable }
    ({ up with cmds := [m] } : State).runs msg0 0xB03 m ∧ sgIn m 3 { up with cmds := [m] } = .bytes fullTable ∧
    (List.range 8).all (fun n => decide (up.sessionAt n = none)) = true) := by decide +kernel

/-! ### GrantsStayWithinTheBudget -/

theorem witness_bridle : (let s := (pairState {} id).mapTime fun t => { t with ticks := 5000 }
    s.mainOn = true ∧ s.power.grantTick + 5000 ≤ s.time.ticks ∧ Tab.sorted s.bands = true ∧ s.bands.all (fun e => decide (e.1 < 16)) = true ∧
    s.recovering = []) := by decide
theorem test_bridle_blocks : withinBlocks [(0, 300), (1, 60), (16, 50), (17, 20), (18, 70)] = [(0, 300), (1, 52), (16, 48), (17, 16), (18, 64)] := by decide
theorem test_bridle_unmet : floorGrants true 10 [(0, 8), (16, 8), (17, 4)] = [(0, 4), (16, 4), (17, 2)] := by decide
theorem test_bridle_order : floorGrants false 10 [(0, 8), (16, 8), (17, 4)] = [(0, 8), (16, 2), (17, 0)] := by decide
theorem witness_bridle_early : up.time.ticks < up.power.grantTick + 5000 ∧ up.time.ticks < up.power.intervalEnd + 500000 := by decide
theorem witness_interval : (let s := ((running id).mapTime fun t => { t with ticks := 500000 }).mapPower fun p => { p with account := some (3, 9) }
    s.mainOn = true ∧ s.power.intervalEnd + 500000 ≤ s.time.ticks ∧ s.power.emptyRaised = false ∧ (s.sessionAt 0).isSome = true ∧
    s.power.account.map (fun a => (a.1 - 5, a.2)) = some (0, 9)) := by decide

/-! ### ClockSourcesIslandsAndLink -/

/-- Both sources present and stable, every island on its primary. -/
def clocksUp : State := { up with sources := [{ stable := true }, { stable := true }], islands := [] }
theorem witness_source_lost : (clocksUp.sources.getD 0 {}).present = true ∧ clocksUp.mainOn = true ∧ clocksUp.clocked 4 = true ∧
    (clocksUp.islandAt 4).parked = false ∧ clocksUp.sourceOf 4 = 0 ∧ clocksUp.stableSource (otherSource 4 0) = true ∧
    ({ clocksUp with sources := [{ stable := true }, {}] } : State).stableSource (otherSource 4 0) = false ∧ clocksUp.sourceOf 7 = 1 := by decide
theorem test_source_lost_parks : (match exec (.clockSourceLost 0) { clocksUp with sources := [{ stable := true }, {}] } with
    | .next t => ((t.islandAt 4).parked, (t.islandAt 3).parked, t.time.held) | _ => (false, true, false)) = (true, false, true) := by decide
theorem witness_source_stable : (up.sources.getD 1 {}).stable = false ∧ up.life.xoTaken = false := by decide
theorem witness_source_return : (let s := { clocksUp with islands := [(4, { alt := true })] }.mapTime fun t => { t with ticks := 5000000000 }
    s.clocked 4 = true ∧ (s.islandAt 4).alt = true ∧ (s.sources.getD (primarySource 4) {}).stable = true ∧
    5000000000 ≤ s.time.ticks - (s.sources.getD (primarySource 4) {}).since) := by decide
theorem witness_source_return_early : up.time.ticks - 0 < 5000000000 := by decide
theorem witness_pll : (clocksUp.islandAt 6).parked = false ∧ clocksUp.mainOn = true := by decide
theorem witness_resume : (let s := { clocksUp with islands := [(4, { parked := true, mhz := 800, target := some (400, 700) })] };
    (s.islandAt 4).parked = true ∧ s.stableSource (primarySource 4) = true ∧ (s.islandAt 4).target = some (400, 700)) := by decide
theorem witness_transition : (({ clocksUp with islands := [(5, { target := some (800, 810) })] } : State).islandAt 5).target = some (800, 810) := by decide
/-- A curve of two points for island 2. -/
def curve2 : List Byte := [2, 2] ++ zeros 14 ++ leBytes 2 100 ++ leBytes 2 900 ++ zeros 4 ++ leBytes 2 313 ++ leBytes 2 900 ++ zeros 4
theorem witness_curve : curveOk 2 curve2 = true ∧ (curvePoints curve2).getLastD (0, 0) = (313, 900) ∧ topFreq 2 = 313 ∧ curveOk 2 (curve2.take 24) = false := by
  decide
theorem witness_curve_loads : (∀ e ∈ curvePoints curve2, up.minVolt 2 e.1 ≤ e.2) ∧ (up.islandAt 2).target = none ∧
    ∀ q, q < 12 → (up.portAt q).state ≠ .streaming := by
  refine ⟨?_, by decide, by decide⟩
  have h : curvePoints curve2 = [(100, 900), (313, 900)] := by decide
  rw [h]; simp only [State.minVolt, List.mem_cons, List.not_mem_nil, or_false]
  rintro e (rfl | rfl) <;> omega
theorem witness_curve_cmd : (pf 0xB04 [2, 0, 0, 0, 0] up).runs slot0 0xB04 (aCmd (.host 0) 0xB04 [2, 0, 0, 0, 0]) ∧
    sgIn (aCmd (.host 0) 0xB04 [2, 0, 0, 0, 0]) 4 (pf 0xB04 [2, 0, 0, 0, 0] up) = .bytes [] ∧ curveOk 2 [] = false := by decide
theorem witness_link : (let s := up.mapLife fun l => { l with linkUp := false }
    s.life.linkUp = false ∧ s.mainOn = true ∧ s.life.perst = false ∧ (s.islandAt 0).parked = false) := by decide
theorem witness_source_absent : (({ up with sources := [{ present := false }, {}] } : State).sources.getD 0 {}).present = false := by decide
/-- A Tether VF_CURVE_LOAD of a curve for island 2, and one whose last point lies below the island's highest frequency. -/
def curveOf (b : List Byte) : Cmd := { aCmd .tether 0xB04 [2, 0, 0, 0, w32 b.length] with inlineIn := b }
def curveLow : List Byte := [2, 2] ++ zeros 14 ++ leBytes 2 100 ++ leBytes 2 900 ++ zeros 4 ++ leBytes 2 310 ++ leBytes 2 900 ++ zeros 4
theorem witness_curve_runs : (let s : State := { up with cmds := [curveOf curve2] }
    s.runs msg0 0xB04 (curveOf curve2) ∧ sgIn (curveOf curve2) 4 s = .bytes curve2 ∧ fld ((curveOf curve2).w 3) 3 0 = 2 ∧
    (({ s with islands := [(2, { target := some (200, 800) })] } : State).islandAt 2).target.isSome = true) := by decide
theorem witness_curve_low : curveOk 2 curveLow = true ∧ ((curvePoints curveLow).getLastD (0, 0)).1 < topFreq 2 ∧
    sgIn (curveOf curveLow) 4 { up with cmds := [curveOf curveLow] } = .bytes curveLow := by decide

/-! ### RepairsReplaceLanesTilesAndState -/

theorem witness_step_timeout : Tab.has (bandUp id).bands 3 = true ∧ 1 < ((bandUp id).bandAt 3).tiles.length ∧
    Tab.get? (bandUp id).dep.repairs (((bandUp id).bandAt 3).tiles.getD 1 0) = none := by decide
theorem witness_step_timeout_again : (let r : RepairS := { band := 3, logical := 1, replacement := some 26 }
    let s := (bandUp id).mapDep fun d => { d with repairs := [(5, r)] };
    (s.bandAt 3).tiles.getD 1 0 = 5 ∧ Tab.get? s.dep.repairs 5 = some r ∧ s.age.ledger.length < 16384 ∧
    Tab.get? ((bandUp id).mapDep fun d => { d with repairs := [(5, { r with replacement := none })] }).dep.repairs 5 =
      some { r with replacement := none }) := by decide
theorem witness_lane : (let s := (bandUp id).mapDep fun d => { d with subst := [(4, 17, 0)] };
    Tab.get? s.dep.subst 4 = some (17, 0) ∧ s.age.ledger.length < 16384) := by decide
theorem witness_tile_repair : (let r : RepairS := { band := 3, logical := 1, replacement := some 26 }
    let s := (bandUp id).mapDep fun d => { d with repairs := [(5, r)] };
    Tab.get? s.dep.repairs 5 = some r ∧ s.mayFinish 3 = true ∧ (s.bandAt 3).tiles[1]? = some 5) := by decide
theorem witness_rollback : (let s := (bandUp fun b => { b with stopped := true, ckptValid := [true, false], ckptSeg := [40, 0] }).mapDep fun d => { d with rollbacks := [3] };
    s.dep.rollbacks = [3] ∧ Tab.has s.bands 3 = true ∧ s.dep.repairs = [] ∧ s.pairs = [] ∧ (s.bandAt 3).restorePc = 40) := by decide

/-! ### MemoryAndStewardFaultsAreCounted -/

theorem witness_patrol : up.life.main ≠ .off := by decide
theorem witness_retire : (up.mapDep fun d => { d with toRetire := [(1, 2, 3)] }).dep.toRetire.contains (1, 2, 3) = true ∧ up.age.ledger.length < 16384 := by decide
theorem witness_steward : up.dep.voting.length = 3 ∧ up.dep.voting.getD 1 false = true ∧
    (up.mapDep fun d => { d with voting := [true, false, true] }).dep.voting.getD 1 true = false ∧ up.sec.stage < 3 := by decide
theorem witness_inject : (pf 0xE03 [1] up).runs slot0 0xE03 (aCmd (.host 0) 0xE03 [1]) ∧ fld ((aCmd (.host 0) 0xE03 [1]).w 3) 3 0 = 1 ∧
    up.sessionCtxs = [] ∧ (aCmd (.host 0) 0xE03 [1]).ctx = 0 := by decide
theorem witness_inject_busy : (up.updCtx 3 fun c => { c with session := some {} }).sessionCtxs = [3] := by decide
theorem witness_inject_bad : fld ((aCmd (.host 0) 0xE03 [0x3800]).w 3) 15 8 = 56 ∧ fld ((aCmd (.host 0) 0xE03 [4]).w 3) 3 0 = 4 ∧
    fld ((aCmd (.host 0) 0xE03 [2]).w 3) 3 0 = 2 ∧ (inCtx 2 (aCmd (.host 2) 0xE03 [1])).ctx ≠ 0 := by decide

/-! ### MarginReplanningJoinsAndApplies -/

theorem witness_replan : (pf 0xC03 [1] up).runs slot0 0xC03 (aCmd (.host 0) 0xC03 [1]) ∧ (aCmd (.host 0) 0xC03 [1]).ctx = 0 ∧
    (inCtx 2 (aCmd (.host 0) 0xC03 [1])).ctx ≠ 0 ∧ up.age.replan = none := by decide
theorem witness_replan_daily : (up.mapAge fun a => { a with sinceDaily := 43200000000000 }).age.sinceDaily = 43200000000000 ∧ up.mainOn = true ∧
    up.age.sinceDaily < 43200000000000 := by decide
theorem witness_replanned : (let s := (pf 0xC03 [1] up).mapAge fun a => { a with replan := some (true, [slot0]) }
    s.age.replan = some (true, [slot0]) ∧ (s.findCmd slot0).isSome = true ∧ MarginReport.vReq { rSlow := 1051, tile := 3, s1000 := 3000, life := 1 } = 810) := by decide
theorem test_vset_rounds_up : MarginReport.vReq { rSlow := 1049, tile := 0, s1000 := 3000, life := 0 } = 811 := by decide
theorem test_replan_life : (match exec (.marginReplanned { rSlow := 1051, tile := 3, s1000 := 3000, life := 1 })
      ((pf 0xC03 [1] up).mapAge fun a => { a with replan := some (true, [slot0]) }) with
    | .next t => (t.replyOf slot0).map (·.body) | _ => none) = some [70, 0xFFFFFFFF] := by decide

/-! ### SpdmCarriersKeepTheirOwnState -/

/-- Both carriers reached, each in connection state `d` and `m`. -/
def spdmUp (d m : Nat) : State := up.mapTether fun t => { t with spdmDoe := d, spdmMctp := m }
theorem witness_spdm : spdmReached (spdmUp 0 3) .doe = true ∧ spdmReached (spdmUp 0 3) .mctp = true ∧ spdmState (spdmUp 0 3) .doe < 1 ∧
    3 ≤ spdmState (spdmUp 0 3) .mctp ∧ spdmReached State.reset .doe = false ∧ 2 ≤ spdmState (spdmUp 2 0) .doe ∧ 1 ≤ spdmState (spdmUp 1 0) .doe := by decide
theorem witness_spdm_chain : 0 < spdmChain.length := by simp [spdmChain, leBytes]
theorem witness_spdm_algorithms : bit (0x40 : Word) 6 = true ∧ bit (4 : Word) 2 = true ∧ bit (1 : Word) 0 = true ∧ bit (0 : Word) 6 = false := by decide
theorem test_version_resets_one : (match exec (.getVersion .doe) (spdmUp 3 3) with | .next t => (t.tether.spdmDoe, t.tether.spdmMctp) | _ => (9, 9)) = (1, 3) := by
  decide

/-! ### FirmwareIsStagedChecked -/

/-- A Tether FW_STAGE of 16 bytes at offset `o`. -/
def stageOf (o last : Nat) : Cmd := { aCmd .tether 0xD02 [w32 o, w32 last, 0, 0, 0, 16] with inlineIn := zeros 12 ++ leBytes 4 2048 }
theorem witness_fw_stage : (let s := { up with cmds := [stageOf 0 0] };
    s.runs msg0 0xD02 (stageOf 0 0) ∧ s.sec.stage < 3 ∧ sgIn (stageOf 0 0) 5 s = .bytes (zeros 12 ++ leBytes 4 2048) ∧
    ceilDiv (stagedSize (zeros 12 ++ leBytes 4 2048)) 524288 = 1 ∧ 1 ≤ (discardStaged s).freeBanks.length ∧
    stagedCheck s (zeros 12 ++ leBytes 4 2048) = some 0x41) := by decide +kernel
theorem witness_fw_stage_next : (let s := { up with cmds := [stageOf 16 0] }.mapSec fun x => { x with stage := 1, stagedNext := 16, stagedBanks := [55] };
    s.runs msg0 0xD02 (stageOf 16 0) ∧ s.sec.stage = 1 ∧ ((stageOf 16 0).w 3).toNat = s.sec.stagedNext ∧ 16 + 16 ≤ s.sec.stagedBanks.length * 524288) := by decide
theorem test_fw_stage_banks : (match exec (.fwStage msg0) { up with cmds := [stageOf 0 0] } with | .next t => t.sec.stagedBanks | _ => []) = [55] := by
  decide +kernel
theorem witness_owner_short : (let s := { up with cmds := [{ aCmd .tether 0xD04 [0, 0, 0, 16] with inlineIn := zeros 16 }] };
    s.runs msg0 0xD04 { aCmd .tether 0xD04 [0, 0, 0, 16] with inlineIn := zeros 16 } ∧
    sgIn { aCmd .tether 0xD04 [0, 0, 0, 16] with inlineIn := zeros 16 } 3 s = .bytes (zeros 16) ∧ (zeros 16).length ≠ 1152) := by decide
/-- Whether a record's signature verifies is open (assumption 16), so the witness of the accepting clause takes the verdict as given. -/
theorem witness_owner_accepted (b : List Byte) (h : transferOk up b = true) : b.length = 1152 := by
  simp only [transferOk, Bool.and_eq_true] at h
  simpa using h.1.1.1.1.1
theorem witness_fw_stage_full : (let s := up.updCtx 0 fun c => { c with banks := List.range 56 }
    (discardStaged s).freeBanks.length < ceilDiv (stagedSize (zeros 4)) 524288) := by decide +kernel
/-- An image that passes has a signature whose verdict is open (assumption 16), so the witness of the accepting clause takes that verdict as given. -/
theorem witness_fw_stage_open (b : List Byte) (h1 : imageValid b = true) (h2 : imageMajor b = 1) :
    stagedCheck up b = none := by
  simp [stagedCheck, h1, h2, up, ownerAccepts, State.reset, State.mapLife]

/-! ### UpdatesRunTheirStages -/

/-- An update in stage `n` by the command in slot 0. -/
def updating (n : Nat) (f : SecS → SecS) : State :=
  (pf 0xD03 [] up).mapSec fun x => f { x with stage := n, stagedOk := true, staged := zeros 32, actCmd := some slot0 }
theorem witness_activate : (updating 2 fun x => { x with actCmd := none }).runs slot0 0xD03 (aCmd (.host 0) 0xD03 []) ∧
    (updating 2 id).sec.stagedOk = true ∧ (updating 2 id).sec.stage < 3 ∧ (updating 2 id).life.main ≠ .recovery ∧ up.sec.stagedOk = false := by decide
theorem witness_core_reboot : (updating 3 id).sec.coresNew.getD 2 true = false ∧ (updating 3 id).sec.rolling = false ∧ toSwap (updating 5 id) = [] ∧
    (updating 4 fun x => { x with coresNew := [false, false, true] }).sec.coresNew = [false, false, true] := by decide
/-- Stage 6 with an image that keeps the pipeline and a working band 2 of a session of context 0. -/
def swapping : State :=
  { running id with bands := [(2, { ctx := 0 })] }.mapSec fun x => { x with stage := 6, staged := zeros 25 ++ [1] ++ zeros 8 }
theorem witness_band_swap : (toSwap swapping).head? = some 2 ∧ (swapping.bandAt 2).isPair = false ∧ swapping.inRecovery 2 = false ∧
    swapTime swapping (swapping.bandAt 2) = true := by decide
theorem witness_switch_point : (updating 4 fun x => { x with coresNew := [false, true, true] }).switchWait = true ∧
    (updating 4 fun x => { x with coresNew := [false, true, true] }).cmds.all (fun m => decide (some m.ref = (updating 4 id).sec.actCmd)) = true := by decide
theorem witness_flash_verified : (updating 7 id).sec.actCmd = some slot0 ∧ ((updating 7 id).findCmd slot0).isSome = true ∧
    (updating 7 id).sec.heldReset = [] ∧ (updating 6 id).sec.stage ≠ 7 := by decide
theorem test_flash_svn : (match exec .fwFlashVerified (updating 7 fun x => { x with svn := 5, staged := zeros 20 ++ [3] }) with
    | .next t => t.sec.svn | _ => 0) = 5 := by decide
theorem witness_rolled_back : (updating 5 fun x => { x with rolling := true, faultRollback := true }).sec.rolling = true := by decide
theorem witness_recovery_write : (let s := (updating 8 id).mapLife fun l => { l with main := .recovery }
    s.life.main = .recovery ∧ s.sec.stage = 8 ∧ (s.findCmd slot0).isSome = true) := by decide
theorem witness_core_reboot_swaps : (let s := swapping.mapSec fun x => { x with stage := 5, coresNew := [false, true, true] }
    s.sec.stage = 5 ∧ s.sec.rolling = false ∧ s.sec.coresNew.getD 0 true = false ∧ toSwap s = [2]) := by decide
theorem witness_switch_waits : (let s := { (updating 4 fun x => { x with coresNew := [false, true, true] }) with
      cmds := [aCmd (.host 0) 0xD03 [], { aCmd (.host 0) 0x703 [] with ref := ⟨.host 0, 5⟩ }] };
    s.switchWait = true ∧ s.cmds.any (fun m => decide (m.phase = .running ∧ s.sec.actCmd ≠ some m.ref)) = true) := by decide
/-- The same in the middle of a frame set. -/
def midSet : State := swapping.updCtx 0 fun c => { c with session := some { sets := [(0, { started := true })] } }
theorem witness_swap_waits : (toSwap midSet).head? = some 2 ∧ swapTime midSet (midSet.bandAt 2) = false := by decide

/-! ### StartSetsSupplyCapAndSafeStop -/

theorem witness_start_main : State.reset.life.vaux = true ∧ State.reset.life.main = .off ∧ State.reset.life.v12 = false ∧
    State.reset.life.coldHold = false ∧ ({} : StartReport).railsOk = true ∧ State.reset.sec.flashValid = true ∧ State.reset.sec.stage < 7 ∧
    2 ≤ ((({} : StartReport).imageVotes).filter id).length := by decide
theorem test_start_claims : (match exec (.mainSideStart {}) ((State.reset.mapTether fun t => { t with claims := 0x8800 }).mapPower fun p => { p with tetherCap := 20000 }) with
    | .next t => (t.life.safeStop, t.power.cap, t.age.vSet) | _ => (false, 0, 0)) = (true, 20000, 800) := by decide +kernel
theorem witness_keep_safe_stop : (match exec .perstAssert (up.mapLife fun l => { l with safeStop := true }) with | .next t => t.life.safeStop | _ => false) = true := by
  decide +kernel

/-! ### StartupSuppliesAndHeat -/

theorem witness_vaux : (State.reset.mapLife fun l => { l with vaux := false, thermalPending := some (3, 125) }).life.vaux = false := by decide
theorem test_vaux_keeps_flash : (match exec .vauxApplied ((up.mapLife fun l => { l with vaux := false }).mapSec fun x => { x with svn := 3 }) with
    | .next t => (t.sec.svn, t.tether.claims) | _ => (0, 1)) = (3, 0) := by decide
theorem witness_start_recovery : ([true, false, false].filter id).length < 2 ∧ (List.range 56).all (fun k => decide ((State.reset.tileAt k).state < 2)) = true ∧ State.reset.age.ledger.all (fun e => decide (e.kind ≠ 3)) = true := by
  decide
theorem witness_startup_done : (up.mapLife fun l => { l with main := .starting }).life.main = .starting ∧ up.life.bootTick ≤ up.time.ticks := by decide
theorem test_start_runs : (match exec (.mainSideStart {}) State.reset with
    | .next t => (decide (t.life.main = .starting), (tilesIn t 0).length) | _ => (false, 0)) = (true, 52) := by decide +kernel
theorem witness_main_supply : up.life.v12 = true ∧ up.eventFree (0x8F00 * 65536 + 7) = true ∧ State.reset.life.v12 = false ∧ up.life.main ≠ .off := by decide
theorem witness_thermal : (5 : Byte).toNat < 56 ∧ up.eventFree (0x8F03 * 65536 + (5 * 256 + 1)) = true ∧ up.life.vaux = true := by decide
theorem witness_thermal_dark : (up.mapLife fun l => { l with vaux := false }).life.v12 = true := by decide
theorem witness_start_fails : ({ railsOk := false } : StartReport).railsOk = false ∧ State.reset.life.needOrder = false ∧
    (({ imageVotes := [true, false, false] } : StartReport).imageVotes.filter id).length < 2 := by decide

/-! ### ResetsEndWhatTheTableSays -/

/-- A VF 1 with an open session, a policy mask and a command outstanding. -/
def vfUp : State := ({ (up.mapLife fun l => { l with vfEnable := true }) with cmds := [inCtx 1 (aCmd (.host 1) 2 [])] }.updFn 1 fun f => { f with policy := 5, ready := true })
theorem witness_flr : vfUp.life.main ≠ .off ∧ vfUp.life.linkUp = true ∧ vfUp.life.vfEnable = true ∧ vfUp.sec.stage ≠ 7 ∧
    (vfUp.mapSec fun x => { x with stage := 7 }).sec.stage = 7 := by decide
theorem test_flr_keeps_policy : (match exec (.functionReset 1 .flr) vfUp with
    | .next t => (((t.fnAt 1).policy, (t.fnAt 1).ready), t.cmds.length) | _ => ((0, true), 9)) = ((5, false), 0) := by decide +kernel
theorem witness_perst : up.life.perst = false ∧ State.reset.life.perst = true ∧ (State.reset.mapLife fun l => { l with perst := false }).life.main = .off ∧
    (State.reset.mapLife fun l => { l with perstReset := true }).life.perstReset = true := by decide
theorem witness_config : (let s := up.mapLife fun l => { l with main := .starting, bootTick := 5 }
    s.life.linkUp = true ∧ s.time.ticks < s.life.bootTick) := by decide

/-! ### PowerStatesAndSafeStop -/

theorem witness_power_state : (pf 0xB05 [1] up).runs slot0 0xB05 (aCmd (.host 0) 0xB05 [1]) ∧ fld ((aCmd (.host 0) 0xB05 [5]).w 3) 3 0 = 5 ∧
    (pf 0xB05 [1] up).life.main = .ready ∧ (List.range 8).all (fun k => !((pf 0xB05 [1] up).ctxAt k).admitted) = true := by decide
theorem witness_power_state_busy : ((running id).ctxAt 0).admitted = true ∧ (running id).life.main = .ready := by decide
theorem witness_main_off : (let s := side 0xB05 [3] up; s.runs msg0 0xB05 (aCmd .tether 0xB05 [3]) ∧ (aCmd .tether 0xB05 [3]).isTether = true ∧
    s.sec.stage ≠ 7 ∧ s.sec.actCmd = none ∧ s.life.main = .ready) := by decide
theorem witness_main_on : (let s := side 0xB05 [0] (State.reset.mapLife fun l => { l with v12 := true })
    s.runs msg0 0xB05 (aCmd .tether 0xB05 [0]) ∧ s.life.main = .off ∧ s.life.v12 = true) := by decide
/-- The PF's SAFE_STOP with an armed REEL_ARM behind it. -/
def stopping2 : State := { pf 0xC00 [] up with cmds := [aCmd (.host 0) 0xC00 [], { aCmd (.host 0) 0x307 [] with ref := ⟨.host 0, 1⟩, phase := .armed }] }
theorem witness_safe_stop : stopping2.runs slot0 0xC00 (aCmd (.host 0) 0xC00 []) ∧ stopping2.life.safeStop = false ∧ stopping2.mainOn = true ∧
    (List.range 8).all (fun k => decide (stopping2.sessionAt k = none ∧ (stopping2.ctxAt k).image = none)) = true ∧
    stopping2.cmds.all (fun x => decide (x.ref = slot0 ∨ x.phase = .armed)) = true := by decide
theorem test_safe_stop_ends : (match exec (.safeStop slot0) stopping2 with
    | .next t => ((t.replyOf ⟨.host 0, 1⟩).map (·.status.toNat), t.life.powerState, t.events.map (·.code.toNat)) | _ => (none, 9, []))
    = (some ABORTED, 1, [0x8B04, 0x8002]) := by decide +kernel
theorem witness_safe_stop_again : (let s := side 0xC00 [] (up.mapLife fun l => { l with safeStop := true })
    s.runs msg0 0xC00 (aCmd .tether 0xC00 []) ∧ s.life.safeStop = true) := by decide
theorem witness_safe_stop_clear : (let s := pf 0xC01 [] (up.mapLife fun l => { l with safeStop := true })
    s.runs slot0 0xC01 (aCmd (.host 0) 0xC01 []) ∧ s.life.safeStop = true) ∧ (pf 0xC01 [] up).life.safeStop = false := by decide

/-! ### AbortEndsWhatHasNotCommitted -/

/-- An ABORT of TAG 9 with another command of that TAG. -/
def aborting (x : Cmd) : State := { pf 3 [0x90000] up with cmds := [aCmd (.host 0) 3 [0x90000], { x with ref := ⟨.host 0, 1⟩ }] }
theorem witness_abort_unknown : (pf 3 [0x90000] up).runs slot0 3 (aCmd (.host 0) 3 [0x90000]) ∧ fld ((aCmd (.host 0) 3 [0x90000]).w 3) 31 16 = 9 ∧
    (aCmd (.host 0) 3 [0x90000]).tag = 1 := by decide
/-- A command of TAG 9, with or without ABORTABLE. -/
def tag9 (op abortable : Nat) : Cmd := { aCmd (.host 0) op [] with words := [w32 (op * 65536 + 3), w32 (0x90000 + 2 * abortable), 0x01000000] }
theorem witness_abort_of : (aborting (tag9 0x703 1)).runs slot0 3 (aCmd (.host 0) 3 [0x90000]) ∧ (tag9 0x703 1).tag = 9 ∧ (tag9 0x703 1).abortable = true ∧
    (tag9 0x703 0).abortable = false ∧ (tag9 0x306 1).abortable = false ∧ (tag9 0x703 1).phase = .running ∧ (aborting (tag9 0x703 1)).maps = [] := by decide
theorem witness_abort_special : (tag9 0x401 1).abortable = true ∧ (tag9 0x506 1).abortable = true ∧
    (tag9 0xD03 1).abortable = true ∧ (tag9 0x900 1).abortable = true ∧
    ((aborting (tag9 0x900 1)).ctxAt 0).admitCmd ≠ some ⟨.host 0, 1⟩ ∧ (aborting (tag9 0xD03 1)).sec.actCmd ≠ some ⟨.host 0, 1⟩ ∧
    ({ aborting (tag9 0x506 1) with quad := { running := some (0, ⟨.host 0, 1⟩) } }).quad.running = some (0, ⟨.host 0, 1⟩) ∧
    ((aborting (tag9 0xD03 1)).mapSec fun x => { x with actCmd := some ⟨.host 0, 1⟩ }).sec.actCmd = some ⟨.host 0, 1⟩ := by decide
theorem test_abort_armed : (match exec (.abort slot0) (aborting { tag9 0x703 1 with phase := .armed }) with
    | .next t => (t.replyOf ⟨.host 0, 1⟩).map (·.status.toNat) | _ => none) = some ABORTED := by decide
theorem test_abort_late : (match exec (.abort slot0) (aborting { tag9 0x703 1 with committed := true }) with
    | .next t => (t.replyOf slot0).map (·.status.toNat) | _ => none) = some ABORT_TOO_LATE := by decide
theorem witness_abort_filter : (let s := { aborting (tag9 0x401 1) with filters := [(3, { holder := some 0, presetCmd := some ⟨.host 0, 1⟩ })] };
    s.runs slot0 3 (aCmd (.host 0) 3 [0x90000]) ∧ (tag9 0x401 1).opcode = 0x401 ∧ (tag9 0x401 1).committed = false ∧ (tag9 0x401 1).phase = .running ∧
    (s.chanAt 3).presetCmd = some ⟨.host 0, 1⟩) := by decide

/-! ### StatusReadsAnswerAndChangeNothing -/

theorem witness_session_status : (let s := { running id with cmds := [aCmd (.host 0) 0x103 [7]] }; s.runs slot0 0x103 (aCmd (.host 0) 0x103 [7]) ∧
    (s.sessionAt 0).map (·.number.toNat) = some 7 ∧ (List.range 8).all (fun k => decide (k = 0) || (s.sessionAt k).isNone) = true) := by decide
theorem witness_port_status : (pf 0x203 [encoderPort] up).runs slot0 0x203 (aCmd (.host 0) 0x203 [encoderPort]) ∧ isPort encoderPort = true ∧
    isPort 200 = false ∧ (up.portAt encoderPort).reason < 256 := by decide
theorem witness_time_get : (pf 0x300 [] up).runs slot0 0x300 (aCmd (.host 0) 0x300 []) ∧ up.time.uncertainty < 2 ^ 32 ∧ -2147483648 ≤ up.time.filtered ∧
    up.time.filtered ≤ 2147483647 := by decide
theorem witness_reel_read : (pf 0x309 [63] (written63 2 3)).runs slot0 0x309 (aCmd (.host 0) 0x309 [63]) ∧ ((written63 2 3).reelAt 63).state = 2 := by decide
theorem test_reel_read : (match exec (.reelRead slot0) (pf 0x309 [63] (written63 2 3)) with
    | .next t => (t.replyOf slot0).map fun r => (r.body.getD 5 0).toNat / 65536 | _ => none) = some 0x203 := by decide
theorem witness_filter_read : (pf 0x405 [31] (chanState { outputs := 1, outIndex := 5 })).runs slot0 0x405 (aCmd (.host 0) 0x405 [31]) ∧
    ((chanState { outputs := 1, outIndex := 5 }).chanAt 31).outputs ≠ 0 ∧ (up.chanAt 31).outputs = 0 := by decide
theorem witness_vision_read : (pf 0x507 [0x100] oneStream).runs slot0 0x507 (aCmd (.host 0) 0x507 [0x100]) ∧ fld ((aCmd (.host 0) 0x507 [0x100]).w 3) 9 8 = 1 ∧
    ((Tab.get? oneStream.streams 0).map (·.ctx)) = some (aCmd (.host 0) 0x507 [0x100]).ctx ∧ Tab.has oneStream.streams 1 = false ∧
    (up.pairCfgAt 0 0) = none := by decide
theorem witness_vision_read_pair : ((up.updCtx 0 fun x => { x with pairs := [(0, {})] }).pairCfgAt 0 0).isSome = true ∧
    fld ((aCmd (.host 0) 0x507 [0x200]).w 3) 9 8 = 2 ∧ fld ((aCmd (.host 0) 0x507 [0x300]).w 3) 9 8 = 3 := by decide
theorem witness_rig_read : (pf 0x601 [w32 encoderPort] up).runs slot0 0x601 (aCmd (.host 0) 0x601 [w32 encoderPort]) ∧ up.entryInUse 0 encoderPort 0 = none ∧
    ((up.updCtx 0 fun x => { x with rig := [(sensorKey encoderPort 0, {})] }).entryInUse 0 encoderPort 0).isSome = true := by decide
theorem witness_calib_read : (pf 0x603 [w32 encoderPort] up).runs slot0 0x603 (aCmd (.host 0) 0x603 [w32 encoderPort]) ∧ up.storeRec (sensorKey encoderPort 0) = none ∧
    ((up.mapAge fun a => { a with store := [(sensorKey encoderPort 0, {})] }).storeRec (sensorKey encoderPort 0)).isSome = true := by decide
theorem witness_context_status : (let s := { bandUp fun b => { b with halted := true } with cmds := [aCmd (.host 0) 0x902 []] };
    s.runs slot0 0x902 (aCmd (.host 0) 0x902 []) ∧ (s.ctxAt 0).bands = [3] ∧ (s.bandAt 3).halted = true) := by decide
theorem test_context_status : (match exec (.contextStatus slot0) { bandUp fun b => { b with halted := true } with cmds := [aCmd (.host 0) 0x902 []] } with
    | .next t => (t.replyOf slot0).map (·.body.map (·.toNat)) | _ => none) = some [8, 8, 0] := by decide
theorem witness_tile_status : (pf 0xE00 [0x137] up).runs slot0 0xE00 (aCmd (.host 0) 0xE00 [0x137]) ∧ fld ((aCmd (.host 0) 0xE00 [0x137]).w 3) 5 0 = 55 ∧
    fld ((aCmd (.host 0) 0xE00 [0x137]).w 3) 13 8 = 1 ∧ fld ((aCmd (.host 0) 0xE00 [0x237]).w 3) 13 8 = 2 := by decide
theorem witness_band_status : (pf 0xE01 [15] up).runs slot0 0xE01 (aCmd (.host 0) 0xE01 [15]) ∧ fld ((aCmd (.host 0) 0xE01 [16]).w 3) 7 0 = 16 ∧
    fld ((aCmd (.host 0) 0xE01 [255]).w 3) 7 0 = 0xFF := by decide
theorem witness_counters : (pf 0xE02 [] up).runs slot0 0xE02 (aCmd (.host 0) 0xE02 []) := by decide
theorem witness_obj_query : (pf 0xA0F [5, 0] (oneObj id)).runs slot0 0xA0F (aCmd (.host 0) 0xA0F [5, 0]) ∧ ((oneObj id).objOf 5).map (·.1) = some 5 ∧
    ((oneObj id).objOf 5).any (fun o => o.2.usable 0) = true ∧ ((oneObj id).objOf 5).any (fun o => o.2.usable 1) = false := by decide
theorem witness_energy_status : (pf 0xB06 [] up).runs slot0 0xB06 (aCmd (.host 0) 0xB06 []) ∧ up.power.account = none ∧
    (up.mapPower fun p => { p with account := some (2000000, 9) }).power.account = some (2000000, 9) := by decide
theorem witness_health_status : (pf 0xC02 [] up).runs slot0 0xC02 (aCmd (.host 0) 0xC02 []) ∧ (pf 0xD01 [] up).runs slot0 0xD01 (aCmd (.host 0) 0xD01 []) ∧
    (pf 0xC04 [0, 0, 0, 16] up).runs slot0 0xC04 (aCmd (.host 0) 0xC04 [0, 0, 0, 16]) := by decide
theorem witness_identity : (pf 0xD00 [2, 0, 0, 0, 16] up).runs slot0 0xD00 (aCmd (.host 0) 0xD00 [2, 0, 0, 0, 16]) ∧
    fld ((aCmd (.host 0) 0xD00 [3, 0, 0, 0, 16]).w 3) 3 0 = 3 := by decide
/-- A Tether EVENT_READ with one event that waits. -/
def eventsUp : State := { side 0xC05 [1] (up.raise 0x8B04 2) with time := up.time }
theorem witness_event_read : eventsUp.runs msg0 0xC05 (aCmd .tether 0xC05 [1]) ∧ eventsUp.tether.queue.length = 1 ∧
    fld ((aCmd .tether 0xC05 [17]).w 3) 4 0 = 17 ∧ fld ((aCmd .tether 0xC05 [0]).w 3) 4 0 = 0 := by decide
theorem test_event_read : (match exec (.eventRead msg0) eventsUp with
    | .next t => ((t.replyOf msg0).map fun r => (r.body.take 2).map (·.toNat), t.tether.queue.length) | _ => (none, 9)) = (some [1, 0x8B040002], 0) := by decide

/-! ### ResetStateOfThePowerOn -/

theorem test_reset_memory : memoryWf State.reset = true := by decide

/-! ### EveryStepKeepsTheMemoryForm -/

theorem witness_memory_form : memoryWf { up with hostMem := [(5, 9)], pending := [.startupDone] } = true := by decide
theorem test_memory_form : (match exec (.slotArm 0 0 0 [(7, 1), (5, 0), (6, 2)]) { up with hostMem := [(5, 9)] } with
    | .next t => t.hostMem | _ => []) = [(6, 2), (7, 1)] := by decide

/-! ### EveryCommandCompletesAndFusesNeverFall -/

theorem test_outside_bar0 : (match exec (.registerWrite 8 0 0) up with | .fault .outsideBar0 => true | _ => false) = true := by decide

end Sys2Proof.Tests
end

/-! ## Shared operations: event rows, bit masks, ends of commands, events -/

namespace Sys2Proof.Machine

/-- An event row whose trigger holds has its effect. -/
theorem onTrigger_fires {p : Bool} (s : State) (k : State → State) (h : p = true) : onTrigger p s k = .next (k s) := by
  simp [onTrigger, h]

/-- An event row whose trigger does not hold changes nothing. -/
theorem onTrigger_idle {p : Bool} (s : State) (k : State → State) (h : p = false) : onTrigger p s k = .next s := by
  simp [onTrigger, h]

/-- Masking out bit `v` clears that bit alone. -/
theorem bit_clearBit {n : Nat} (x : BitVec n) (v k : Nat) :
    bit (x &&& ~~~ BitVec.ofNat n (2 ^ v)) k = (decide (k ≠ v) && bit x k) := by
  simp only [bit, BitVec.getLsbD_and, BitVec.getLsbD_not, BitVec.getLsbD_ofNat, Nat.testBit_two_pow]
  by_cases hk : k < n
  · by_cases hv : v = k <;> simp [hk, hv, Ne.symm]
  · simp [BitVec.getLsbD_of_ge x k (Nat.le_of_not_lt hk)]

@[simp] theorem State.fnAt_send (s : State) (x : OutMsg) (k : Nat) : (s.send x).fnAt k = s.fnAt k := rfl

/-- The list of commands alone decides what is found. -/
theorem State.findCmd_congr {s t : State} (h : t.cmds = s.cmds) (c : CmdRef) : t.findCmd c = s.findCmd c := by
  simp only [State.findCmd, h]

/-- A command that has begun, and whose effect has left the list of commands alone, is answered by its end, and every other
command stays. -/
theorem State.done_of_began {s u : State} {c : CmdRef} (st d : Nat) (b : List Word) (o : List Byte)
    (h : (s.findCmd c).isSome) (hu : u.cmds = (s.began c).cmds) :
    (u.done c st d b o).answered c st d b ∧ otherCmds s (u.done c st d b o) c := by
  have hfound : (u.findCmd c).isSome := by simpa [State.findCmd_congr hu] using h
  have hothers : otherCmds s u c := fun e he => by simp [State.findCmd_congr hu, he]
  exact ⟨State.answered_done st d b o hfound, hothers.trans (otherCmds_done u c st d b o)⟩

/-- A running command is outstanding. -/
theorem State.runs.isSome {s : State} {c : CmdRef} {op : Nat} {m : Cmd} (h : s.runs c op m) : (s.findCmd c).isSome := by
  simp [h.1]

/-- The sender of a running command is that of its reference. -/
theorem State.runs.sender_eq {s : State} {c : CmdRef} {op : Nat} {m : Cmd} {who : Sender} (h : s.runs c op m)
    (hc : c.sender = who) : m.ref.sender = who := by
  rw [State.findCmd_ref h.1, hc]

@[simp] theorem State.done_tether (s : State) (c : CmdRef) (st d : Nat) (b : List Word) (o : List Byte) :
    (s.done c st d b o).tether = s.tether := rfl
@[simp] theorem State.done_events (s : State) (c : CmdRef) (st d : Nat) (b : List Word) (o : List Byte) :
    (s.done c st d b o).events = s.events := rfl
@[simp] theorem State.began_tether (s : State) (c : CmdRef) : (s.began c).tether = s.tether := rfl
@[simp] theorem State.began_events (s : State) (c : CmdRef) : (s.began c).events = s.events := rfl

@[simp] theorem State.raise_events (s : State) (code detail : Nat) :
    (s.raise code detail).events =
      s.events ++ [{ code := BitVec.ofNat 16 code, detail := BitVec.ofNat 16 detail, time := s.devTime }] := rfl
@[simp] theorem State.raise_tether (s : State) (code detail : Nat) :
    (s.raise code detail).tether =
      s.tether.pushEvent { code := BitVec.ofNat 16 code, detail := BitVec.ofNat 16 detail, time := s.devTime } := rfl

section PushEvent

variable (t : TetherS) (e : Event)

@[simp] theorem TetherS.pushEvent_endpoint : (t.pushEvent e).endpoint = t.endpoint := by unfold TetherS.pushEvent; split <;> rfl
@[simp] theorem TetherS.pushEvent_expert : (t.pushEvent e).expert = t.expert := by unfold TetherS.pushEvent; split <;> rfl
@[simp] theorem TetherS.pushEvent_claims : (t.pushEvent e).claims = t.claims := by unfold TetherS.pushEvent; split <;> rfl

end PushEvent

end Sys2Proof.Machine

/-! ## REGISTER_WRITE

`writeReg` region by region of BAR0 (Table 15-1), and the two things that a write of an MSI-X table word can do. -/

namespace Sys2Proof.Machine

/-- A write inside BAR0 is an event row with the function's reachability as its trigger. -/
theorem exec_registerWrite_inside {fn offset : Nat} (value : Word) (s : State) (hfn : fn < 8) (ho : offset < 0x8000) :
    exec (.registerWrite fn offset value) s = onTrigger (fnReachable s fn) s (writeReg fn offset value) :=
  if_neg (by omega)

/-- A write inside BAR0 of a reachable function takes the effect of its register. -/
theorem exec_registerWrite_reachable {fn offset : Nat} (value : Word) {s : State} (hfn : fn < 8) (ho : offset < 0x8000)
    (hr : fnReachable s fn = true) : exec (.registerWrite fn offset value) s = .next (writeReg fn offset value s) := by
  rw [exec_registerWrite_inside value s hfn ho, onTrigger_fires s _ hr]

theorem exec_registerWrite_unreachable {fn offset : Nat} (value : Word) {s : State} (hfn : fn < 8) (ho : offset < 0x8000)
    (hr : fnReachable s fn = false) : exec (.registerWrite fn offset value) s = .next s := by
  rw [exec_registerWrite_inside value s hfn ho, onTrigger_idle s _ hr]

theorem exec_registerWrite_outside {fn offset : Nat} (value : Word) (s : State) (h : 8 ≤ fn ∨ 0x8000 ≤ offset) :
    exec (.registerWrite fn offset value) s = .fault .outsideBar0 :=
  if_pos h

section RegisterWrite

variable (fn : Nat) (value : Word) (s : State)

/-- FUNC_STATUS: bit 7, SLOT_WRITE_LOST, is cleared by writing one (Table 15-2). -/
theorem writeReg_funcStatus :
    writeReg fn 0x4000 value s = if bit value 7 then s.updFn fn fun f => { f with writeLost := false } else s := rfl

/-- SLOT_DONE: each bit is cleared by writing one (Table 15-1). -/
theorem writeReg_slotDone :
    writeReg fn 0x4008 value s = s.updFn fn fun f => { f with slotDone := f.slotDone &&& ~~~ value } := rfl

/-- Below 0x4000 an offset names a word of a slot: 32 slots of 128 words. -/
theorem writeReg_slot {slot i : Nat} (hs : slot < 32) (hi : i < 128) :
    writeReg fn (512 * slot + 4 * i) value s = writeSlotWord fn slot i value s := by
  have hoff : 512 * slot + 4 * i < 0x4000 := by omega
  have hslot : (512 * slot + 4 * i) / 512 = slot := by omega
  have hword : (512 * slot + 4 * i) % 512 / 4 = i := by omega
  rw [writeReg, if_pos hoff, hslot, hword]

/-- From 0x6000 to 0x607F an offset names a word of the MSI-X table: 8 vectors of four words. -/
theorem writeReg_msix {v w : Nat} (hv : v < 8) (hw : w < 4) :
    writeReg fn (0x6000 + 16 * v + 4 * w) value s = writeMsix fn (4 * v + w) value s := by
  have hword : (0x6000 + 16 * v + 4 * w - 0x6000) / 4 = 4 * v + w := by omega
  rw [writeReg, if_neg (by omega), if_neg (by omega), if_neg (by omega), if_pos (by omega), hword]

/-- The read-only and reserved registers ignore a write. -/
theorem writeReg_readOnly {offset : Nat}
    (ho : (0x4004 ≤ offset ∧ offset < 0x4008) ∨ (0x400C ≤ offset ∧ offset < 0x6000) ∨ (0x6080 ≤ offset ∧ offset < 0x8000)) :
    writeReg fn offset value s = s := by
  rw [writeReg, if_neg (by omega), if_neg (by omega), if_neg (by omega), if_neg (by omega)]

/-- Storing a word leaves the pending bits alone, so whether vector `v` is pending may be asked of the state before it (R653). -/
theorem writeMsix_eq {v w : Nat} (hw : w < 4) :
    writeMsix fn (4 * v + w) value s =
      if w = 3 ∧ bit value 0 = false ∧ bit (s.fnAt fn).pba v = true then
        ((s.updFn fn fun f => { f with msix := Tab.put f.msix (4 * v + w) value }).updFn fn fun f =>
          { f with pba := f.pba &&& ~~~ BitVec.ofNat 8 (2 ^ v) }).send (.msix fn v)
      else s.updFn fn fun f => { f with msix := Tab.put f.msix (4 * v + w) value } := by
  have hv : (4 * v + w) / 4 = v := by omega
  have hm : (4 * v + w) % 4 = w := by omega
  simp only [writeMsix, hv, hm, State.fnAt_updFn, if_pos]

/-- A write that unmasks no pending vector stores its word and does nothing else. -/
theorem writeMsix_stores {v w : Nat} (hw : w < 4) (h : w ≠ 3 ∨ bit value 0 = true ∨ bit (s.fnAt fn).pba v = false) :
    writeMsix fn (4 * v + w) value s = s.updFn fn fun f => { f with msix := Tab.put f.msix (4 * v + w) value } := by
  rw [writeMsix_eq fn value s hw, if_neg]
  rintro ⟨h3, hmask, hpend⟩
  simp [h3, hmask, hpend] at h

/-- Unmasking a pending vector sends its message, clears its pending bit alone, and stores the word (R653). -/
theorem writeMsix_sends_pending {v : Nat} (hmask : bit value 0 = false) (hpend : bit (s.fnAt fn).pba v = true) :
    let t := writeMsix fn (4 * v + 3) value s
    t.outbox = .msix fn v :: s.outbox ∧ bit (t.fnAt fn).pba v = false ∧
      (∀ k, k ≠ v → bit (t.fnAt fn).pba k = bit (s.fnAt fn).pba k) ∧ (t.fnAt fn).msixWord (4 * v + 3) = value ∧
      (∀ k, k ≠ fn → t.fnAt k = s.fnAt k) ∧ (t.fnAt fn).slots = (s.fnAt fn).slots ∧
      t = { s with fns := t.fns, outbox := t.outbox } := by
  rw [writeMsix_eq fn value s (by decide), if_pos ⟨rfl, hmask, hpend⟩]
  refine ⟨rfl, ?pending, ?others, ?word, ?functions, ?slots, rfl⟩
  case pending => simp only [State.fnAt_send, State.fnAt_updFn, if_pos, bit_clearBit, ne_eq, not_true, decide_false, Bool.false_and]
  case others => intro k hk; simp only [State.fnAt_send, State.fnAt_updFn, if_pos, bit_clearBit, hk, ne_eq, not_false_eq_true, decide_true, Bool.true_and]
  case word => simp [State.fnAt_updFn, FnRegs.msixWord]
  case functions => intro k hk; simp [State.fnAt_updFn, hk]
  case slots => simp [State.fnAt_updFn]

/-- A write below 0x4000 is the write of that word of that slot, whether the function can be reached or not. -/
theorem exec_registerWrite_slot {slot i : Nat} (hfn : fn < 8) (hs : slot < 32) (hi : i < 128) :
    exec (.registerWrite fn (512 * slot + 4 * i) value) s = exec (.slotWriteLost fn slot i value) s := by
  have hslot : exec (.slotWriteLost fn slot i value) s = onTrigger (fnReachable s fn) s (writeSlotWord fn slot i value) :=
    if_neg (by omega)
  have hreg : writeReg fn (512 * slot + 4 * i) value = writeSlotWord fn slot i value := funext fun u => writeReg_slot fn value u hs hi
  rw [exec_registerWrite_inside value s hfn (by omega), hslot, hreg]

end RegisterWrite

/-- Settles O36: each clause is one region of BAR0 by its access code. -/
theorem registerWritesFollowTheirAccess : Obligations.RegisterWritesFollowTheirAccess := by
  refine ⟨?slotDone, ?lostCleared, ?lostKept, ?readOnly, ?unmask, ?store, ?slot, ?unreachable, ?outside⟩
  case slotDone =>
    intro fn value s hfn hr
    rw [exec_registerWrite_reachable value hfn (by decide) hr, writeReg_slotDone]
  case lostCleared =>
    intro fn value s hfn hr hbit
    rw [exec_registerWrite_reachable value hfn (by decide) hr, writeReg_funcStatus, if_pos hbit]
  case lostKept =>
    intro fn value s hfn hr hbit
    rw [exec_registerWrite_reachable value hfn (by decide) hr, writeReg_funcStatus, hbit, if_neg Bool.false_ne_true]
  case readOnly =>
    intro fn offset value s hfn hr ho
    rw [exec_registerWrite_reachable value hfn (by omega) hr, writeReg_readOnly fn value s ho]
  case unmask =>
    intro fn v value s hfn hv hr hmask hpend
    have hoff : 0x600C + 16 * v = 0x6000 + 16 * v + 4 * 3 := by omega
    refine ⟨writeMsix fn (4 * v + 3) value s, ?_, writeMsix_sends_pending fn value s hmask hpend⟩
    rw [exec_registerWrite_reachable value hfn (by omega) hr, hoff, writeReg_msix fn value s hv (by decide)]
  case store =>
    intro fn v w value s hfn hv hw hr h
    rw [exec_registerWrite_reachable value hfn (by omega) hr, writeReg_msix fn value s hv hw, writeMsix_stores fn value s hw h]
  case slot => exact fun fn slot i value s hfn hs hi => exec_registerWrite_slot fn value s hfn hs hi
  case unreachable => exact fun fn offset value s hfn ho hr => exec_registerWrite_unreachable value hfn ho hr
  case outside => exact fun fn offset value s h => exec_registerWrite_outside value s h

end Sys2Proof.Machine

/-! ## HELLO and QUERY_CAPS -/

namespace Sys2Proof.Machine

/-! ### What HELLO does to its sender -/

section OpenSender

variable {m : Cmd} (s : State)

/-- HELLO of a function sets READY and stores the minors in that function. -/
theorem openSender_host {n : Nat} (h : m.ref.sender = .host n) :
    openSender m s = s.updFn n fun f =>
      { f with ready := true, hostMinor := BitVec.ofNat 8 m.minor, fwMinor := BitVec.ofNat 8 s.sec.runMinor } := by
  simp only [openSender, h]

/-- HELLO of another endpoint opens a session of that endpoint and raises TETHER_SESSION (R676, R664). -/
theorem openSender_newSession (h : m.ref.sender = .tether) (he : s.tether.endpoint ≠ some m.eid) :
    openSender m s = (s.mapTether fun t =>
      { t with endpoint := some m.eid, expert := 0, minor := BitVec.ofNat 8 m.minor }).raise 0x8004 m.eid.toNat := by
  simp only [openSender, h, if_neg he]

/-- HELLO of the endpoint that holds the session stores the minor alone. -/
theorem openSender_sameSession (h : m.ref.sender = .tether) (he : s.tether.endpoint = some m.eid) :
    openSender m s = s.mapTether fun t => { t with minor := BitVec.ofNat 8 m.minor } := by
  simp only [openSender, h, if_pos he]

end OpenSender

section Hello

variable {s : State} {c : CmdRef} {m : Cmd} (h : s.runs c 0x0001 m)

include h

/-- HELLO of another major is refused, with the DETAIL open (R20, assumption 17). -/
theorem exec_hello_otherMajor (hmaj : m.major ≠ 1) : exec (.hello c) s = .next ((s.began c).refuseOpen c VERSION_MISMATCH) := by
  change execHello c s = _
  rw [execHello, onCmd_runs _ h, if_pos hmaj]

/-- HELLO of major 1 opens its sender and answers the firmware version and the serial number (R19). -/
theorem exec_hello_major1 (hmaj : m.major = 1) :
    exec (.hello c) s = .next ((openSender m (s.began c)).done c OK 0 (s.sec.runVersion :: (List.range 4).map Config.serial)) := by
  change execHello c s = _
  rw [execHello, onCmd_runs _ h, if_neg (not_not.mpr hmaj)]
  rfl

end Hello

/-- QUERY_CAPS answers the descriptor of the state it meets (R14). -/
theorem exec_queryCaps {s : State} {c : CmdRef} {m : Cmd} (h : s.runs c 0x0002 m) :
    exec (.queryCaps c) s = .next ((s.began c).done c OK 0 (capabilities s)) := by
  change execQueryCaps c s = _
  rw [execQueryCaps, onCmd_runs _ h]
  rfl

/-- The descriptor's words with the architecture's constants written out (Table 16-2). -/
theorem capabilities_eq (s : State) :
    capabilities s = [0x00000001, w32 (0x10400000 + (tilesIn s 1).length * 256 + (tilesIn s 0).length), 0x08040C08,
      w32 (0x54000 - s.dep.hbmTaken), 0x38, 0x000E2900, 0x04E2041A, 0x00800080,
      w32 (0x0E000000 + (Config.fwBuild s.sec.runVersion).toNat), 0, 0, 0, 0] := rfl

/-- Settles O39: HELLO by its major and its sender, and QUERY_CAPS. -/
theorem helloAndCapabilitiesAnswer : Obligations.HelloAndCapabilitiesAnswer := by
  refine ⟨?host, ?newSession, ?sameSession, ?otherMajor, ?caps⟩
  case host =>
    intro s c m n h hmaj hc
    rw [exec_hello_major1 h hmaj, openSender_host _ (h.sender_eq hc)]
    rfl
  case newSession =>
    intro s c m h hmaj hc he
    have hopen := openSender_newSession (s.began c) (h.sender_eq hc) he
    obtain ⟨hans, hothers⟩ := State.done_of_began (u := openSender m (s.began c)) OK 0
      (s.sec.runVersion :: (List.range 4).map Config.serial) [] h.isSome (by rw [hopen]; rfl)
    refine ⟨_, exec_hello_major1 h hmaj, hans, ?endpoint, ?expert, ?claims, ?event, hothers, ?frame⟩ <;> rw [hopen]
    case endpoint => simp
    case expert => simp
    case claims => simp
    case event =>
      refine ⟨_, rfl, rfl, ?_⟩
      have heid : m.eid.toNat < 2 ^ 16 := by omega
      exact (BitVec.toNat_ofNat ..).trans (Nat.mod_eq_of_lt heid)
    case frame => rfl
  case sameSession =>
    intro s c m h hmaj hc he
    have hopen := openSender_sameSession (s.began c) (h.sender_eq hc) he
    obtain ⟨hans, hothers⟩ := State.done_of_began (u := openSender m (s.began c)) OK 0
      (s.sec.runVersion :: (List.range 4).map Config.serial) [] h.isSome (by rw [hopen]; rfl)
    refine ⟨_, exec_hello_major1 h hmaj, hans, ?_, hothers, ?_⟩ <;> rw [hopen] <;> rfl
  case otherMajor => exact fun s c m h hmaj => exec_hello_otherMajor h hmaj
  case caps =>
    intro s c m h
    obtain ⟨hans, hothers⟩ := State.done_of_began (u := s.began c) OK 0 (capabilities s) [] h.isSome rfl
    exact ⟨_, exec_queryCaps h, capabilities_eq s ▸ hans, hothers, rfl⟩

end Sys2Proof.Machine

/-! ## Shared operations: tables, lists of states, passes over a list -/

namespace Sys2Proof.Machine

/-- A pass over a list keeps what each of its steps keeps. -/
theorem forEach_keeps {α : Type} {P : State → Prop} (l : List α) (f : α → State → State) (h : ∀ x ∈ l, ∀ s, P s → P (f x s))
    {s : State} (hs : P s) : P (forEach l f s) := by
  induction l generalizing s with
  | nil => exact hs
  | cons x l ih =>
    exact ih (fun y hy => h y (List.mem_cons_of_mem _ hy)) (h x (List.mem_cons_self ..) s hs)

/-- A pass over a list ends with what one of its steps establishes and no later step undoes. -/
theorem forEach_establishes {α : Type} {P Q : State → Prop} (l : List α) (f : α → State → State) (hP : ∀ x ∈ l, ∀ s, P s → P (f x s))
    (hQ : ∀ x ∈ l, ∀ s, P s → Q s → Q (f x s)) {x : α} (hx : x ∈ l) (hfx : ∀ s, P s → Q (f x s)) {s : State} (hs : P s) :
    Q (forEach l f s) := by
  obtain ⟨l₁, l₂, rfl⟩ := List.append_of_mem hx
  have hsplit : forEach (l₁ ++ x :: l₂) f s = forEach l₂ f (f x (forEach l₁ f s)) := by simp [forEach]
  have hbefore : P (forEach l₁ f s) := forEach_keeps l₁ f (fun y hy => hP y (by simp [hy])) hs
  have hat : P (f x (forEach l₁ f s)) ∧ Q (f x (forEach l₁ f s)) := ⟨hP x (by simp) _ hbefore, hfx _ hbefore⟩
  rw [hsplit]
  exact (forEach_keeps (P := fun u => P u ∧ Q u) l₂ f
    (fun y hy u hu => ⟨hP y (by simp [hy]) u hu.1, hQ y (by simp [hy]) u hu.1 hu.2⟩) hat).2

theorem total_eq_sum (l : List Nat) : total l = l.sum := List.sum_eq_foldl.symm

section Tables

variable {α : Type}

theorem Tab.getD_eq_of_get? {t u : Tab α} {k : Nat} (h : Tab.get? t k = Tab.get? u k) (d : α) : Tab.getD t k d = Tab.getD u k d := by
  simp only [Tab.getD, h]

theorem Tab.has_eq_true {t : Tab α} {k : Nat} : Tab.has t k = true ↔ ∃ x, Tab.get? t k = some x := Option.isSome_iff_exists

/-- What is listed is an entry. -/
theorem Tab.mem_of_get? {t : Tab α} {k : Nat} {x : α} (h : Tab.get? t k = some x) : (k, x) ∈ t := by
  induction t with
  | nil => simp at h
  | cons e t ih =>
    obtain ⟨j, y⟩ := e
    by_cases hj : j = k
    · simp_all [Tab.get?]
    · exact List.mem_cons_of_mem _ (ih (by simpa [Tab.get?, hj] using h))

/-- Where no key stands twice, an entry is what is listed under its key. -/
theorem Tab.get?_of_mem {t : Tab α} {k : Nat} {x : α} (hn : (t.map (·.1)).Nodup) (h : (k, x) ∈ t) : Tab.get? t k = some x := by
  induction t with
  | nil => simp at h
  | cons e t ih =>
    obtain ⟨j, y⟩ := e
    obtain ⟨hj, hn⟩ := List.nodup_cons.1 hn
    rcases List.mem_cons.1 h with h | h
    · obtain ⟨rfl, rfl⟩ := Prod.mk.inj h; simp [Tab.get?]
    · have hjk : j ≠ k := fun e => hj (e ▸ List.mem_map_of_mem (f := (·.1)) h)
      simpa [Tab.get?, hjk] using ih hn h

/-- Two tables with the same entries, no key twice, list the same. -/
theorem Tab.get?_perm {t u : Tab α} (h : t.Perm u) (hn : (t.map (·.1)).Nodup) (k : Nat) : Tab.get? t k = Tab.get? u k := by
  have hu : (u.map (·.1)).Nodup := (h.map _).nodup_iff.1 hn
  ext x
  exact ⟨fun e => Tab.get?_of_mem hu (h.mem_iff.1 (Tab.mem_of_get? e)), fun e => Tab.get?_of_mem hn (h.mem_iff.2 (Tab.mem_of_get? e))⟩

/-- The keys of a table in rising order stand once each. -/
theorem Tab.nodup_keys_of_sorted {t : Tab α} (h : Tab.sorted t = true) : (t.map (·.1)).Nodup := by
  induction t with
  | nil => exact List.nodup_nil
  | cons e t ih =>
    obtain ⟨habove, hs⟩ := (Tab.sorted_cons e.1 e.2 t).1 h
    refine List.nodup_cons.2 ⟨?_, ih hs⟩
    intro hmem
    obtain ⟨x, hx, he⟩ := List.mem_map.1 hmem
    exact absurd he (habove x hx).ne'

/-- A new key adds one entry. -/
theorem Tab.put_perm {t : Tab α} {k : Nat} (x : α) (h : k ∉ t.map (·.1)) : (Tab.put t k x).Perm ((k, x) :: t) := by
  induction t with
  | nil => exact .refl _
  | cons e t ih =>
    obtain ⟨j, y⟩ := e
    simp only [List.map_cons, List.mem_cons, not_or] at h
    unfold Tab.put
    split
    · exact .refl _
    · rw [if_neg h.1]
      exact ((ih h.2).cons _).trans (.swap ..)

/-- The table that a list of entries is put into one by one. -/
def Tab.ofList (l : List (Nat × α)) : Tab α := l.foldl (fun t e => Tab.put t e.1 e.2) []

/-- A list without a key twice holds the entries of its table. -/
theorem Tab.ofList_perm {l : List (Nat × α)} (h : (l.map (·.1)).Nodup) : (Tab.ofList l).Perm l := by
  suffices key : ∀ t : Tab α, ((t ++ l).map (·.1)).Nodup → (l.foldl (fun t e => Tab.put t e.1 e.2) t).Perm (t ++ l) from key [] h
  clear h
  induction l with
  | nil => intro t _; simp
  | cons e l ih =>
    intro t ht
    have hperm : (t ++ e :: l).Perm (e :: t ++ l) := List.perm_middle
    have hnodup := (hperm.map (·.1)).nodup_iff.1 ht
    have hnew : e.1 ∉ t.map (·.1) := fun hm =>
      (List.nodup_cons.1 hnodup).1 (List.mem_map.2 ⟨_, List.mem_append_left _ (List.mem_map.1 hm).choose_spec.1, (List.mem_map.1 hm).choose_spec.2⟩)
    have hput : (Tab.put t e.1 e.2 ++ l).Perm (e :: t ++ l) := (Tab.put_perm e.2 hnew).append_right l
    exact (ih _ ((hput.map _).nodup_iff.2 hnodup)).trans (hput.trans hperm.symm)

theorem Tab.get?_ofList {l : List (Nat × α)} (h : (l.map (·.1)).Nodup) (k : Nat) : Tab.get? (Tab.ofList l) k = Tab.get? l k :=
  (Tab.get?_perm (Tab.ofList_perm h).symm h k).symm

end Tables

end Sys2Proof.Machine


/-! ## The Bridle's grants -/

namespace Sys2Proof.Machine

/-- Grants of the same consumers in the same order, none above the other list's. -/
def GrantsLe (g h : List (Nat × Nat)) : Prop := List.Forall₂ (fun a b => a.1 = b.1 ∧ a.2 ≤ b.2) g h

theorem GrantsLe.refl (g : List (Nat × Nat)) : GrantsLe g g := List.forall₂_same.2 fun _ _ => ⟨rfl, le_rfl⟩

theorem GrantsLe.trans {f g h : List (Nat × Nat)} (hfg : GrantsLe f g) (hgh : GrantsLe g h) : GrantsLe f h := by
  induction hfg generalizing h with
  | nil => exact hgh
  | cons hab _ ih =>
    cases hgh with
    | cons hbc htail => exact .cons ⟨hab.1.trans hbc.1, hab.2.trans hbc.2⟩ (ih htail)

/-- Changing amounts downward, each at its place. -/
theorem GrantsLe.of_map (g : List (Nat × Nat)) (f : Nat × Nat → Nat × Nat) (h : ∀ e ∈ g, (f e).1 = e.1 ∧ (f e).2 ≤ e.2) : GrantsLe (g.map f) g :=
  List.forall₂_map_left_iff.2 (List.forall₂_same.2 h)

theorem GrantsLe.keys {g h : List (Nat × Nat)} (hle : GrantsLe g h) : g.map (·.1) = h.map (·.1) := by
  induction hle with
  | nil => rfl
  | cons hab _ ih => simp [hab.1, ih]

theorem GrantsLe.total_le {g h : List (Nat × Nat)} (hle : GrantsLe g h) : total (g.map (·.2)) ≤ total (h.map (·.2)) := by
  simp only [total_eq_sum]
  induction hle with
  | nil => rfl
  | cons hab _ ih => simpa using Nat.add_le_add hab.2 ih

theorem GrantsLe.filter {g h : List (Nat × Nat)} (hle : GrantsLe g h) (p : Nat → Bool) :
    GrantsLe (g.filter fun e => p e.1) (h.filter fun e => p e.1) := by
  induction hle with
  | nil => exact .nil
  | @cons a b _ _ hab _ ih =>
    simp only [List.filter_cons, hab.1]
    split
    · exact .cons hab ih
    · exact ih

theorem GrantsLe.getD_le {g h : List (Nat × Nat)} (hle : GrantsLe g h) (k : Nat) : Tab.getD g k 0 ≤ Tab.getD h k 0 := by
  induction hle with
  | nil => rfl
  | @cons a b _ _ hab _ ih =>
    simp only [Tab.getD, Tab.get?, hab.1] at ih ⊢
    split
    · exact hab.2
    · exact ih

/-- Amounts handed out in order: a consumer with an allotment of its own takes at most that, every other one takes from what is left of `n`. -/
def inOrder (own : Nat → Option Nat) : Nat → List (Nat × Nat) → List (Nat × Nat)
  | _, [] => []
  | n, e :: l =>
    match own e.1 with
    | some c => (e.1, min e.2 c) :: inOrder own n l
    | none => (e.1, min e.2 n) :: inOrder own (n - min e.2 n) l

section InOrder

variable (own : Nat → Option Nat)

theorem inOrder_le (n : Nat) (l : List (Nat × Nat)) : GrantsLe (inOrder own n l) l := by
  induction l generalizing n with
  | nil => exact .nil
  | cons e l ih =>
    unfold inOrder
    split
    · exact .cons ⟨rfl, Nat.min_le_left ..⟩ (ih n)
    · exact .cons ⟨rfl, Nat.min_le_left ..⟩ (ih _)

/-- The consumers without an allotment of their own take `n` together at most. -/
theorem inOrder_total_le (n : Nat) (l : List (Nat × Nat)) :
    total (((inOrder own n l).filter fun e => (own e.1).isNone).map (·.2)) ≤ n := by
  simp only [total_eq_sum]
  induction l generalizing n with
  | nil => simp [inOrder]
  | cons e l ih =>
    unfold inOrder
    split
    case h_1 c hc => simpa [List.filter_cons, hc] using ih n
    case h_2 hc =>
      have := ih (n - min e.2 n)
      simp only [List.filter_cons, hc, Option.isNone_none, if_true, List.map_cons, List.sum_cons]
      omega

/-- A consumer with an allotment of its own takes that at most. -/
theorem inOrder_own_le (n : Nat) (l : List (Nat × Nat)) {k c : Nat} (hk : own k = some c) : Tab.getD (inOrder own n l) k 0 ≤ c := by
  induction l generalizing n with
  | nil => exact Nat.zero_le _
  | cons e l ih =>
    unfold inOrder
    split
    case h_1 d hd =>
      simp only [Tab.getD, Tab.get?] at ih ⊢
      split
      case isTrue h => subst h; obtain rfl := Option.some.inj (hd.symm.trans hk); exact Nat.min_le_right ..
      case isFalse => exact ih n
    case h_2 hd =>
      have hne : e.1 ≠ k := fun h => by simp [h, hk] at hd
      simp only [Tab.getD, Tab.get?, if_neg hne] at ih ⊢
      exact ih _

end InOrder

/-- The blocks' allotments of R960: vision, search and HBM have their own, the bands share theirs. -/
def ownBlock (k : Nat) : Option Nat := if 16 ≤ k then some (blockUnits k) else none

theorem withinBlocks_eq (g : List (Nat × Nat)) : withinBlocks g = inOrder ownBlock (blockUnits 0) g := by
  suffices key : ∀ (l acc : List (Nat × Nat)) (n : Nat), (l.foldl (fun (a : List (Nat × Nat) × Nat) e =>
      if 16 ≤ e.1 then (a.1 ++ [(e.1, min e.2 (blockUnits e.1))], a.2) else (a.1 ++ [(e.1, min e.2 a.2)], a.2 - min e.2 a.2)) (acc, n)).1
        = acc ++ inOrder ownBlock n l by simpa [withinBlocks] using key g [] (blockUnits 0)
  intro l
  induction l with
  | nil => intro acc n; simp [inOrder]
  | cons e l ih =>
    intro acc n
    by_cases h : 16 ≤ e.1 <;> simp [h, ih, inOrder, ownBlock]

theorem withinBlocks_le (g : List (Nat × Nat)) : GrantsLe (withinBlocks g) g := withinBlocks_eq g ▸ inOrder_le ..

/-- What lies below grants held to the blocks keeps to the blocks (R960): vision 6 W, search 2 W, HBM 8 W, the bands together 44 W. -/
theorem GrantsLe.within {g h : List (Nat × Nat)} (hle : GrantsLe g (withinBlocks h)) :
    (∀ k, 16 ≤ k → Tab.getD g k 0 ≤ blockUnits k) ∧ total ((g.filter fun e => decide (e.1 < 16)).map (·.2)) ≤ 352 := by
  rw [withinBlocks_eq] at hle
  refine ⟨fun k hk => (hle.getD_le k).trans (inOrder_own_le _ _ _ (if_pos hk)), ?_⟩
  have hbands : (fun e : Nat × Nat => decide (e.1 < 16)) = fun e => (ownBlock e.1).isNone := by
    funext e
    by_cases h : 16 ≤ e.1 <;> simp [ownBlock, h]; omega
  rw [hbands]
  exact ((hle.filter fun k => (ownBlock k).isNone).total_le).trans (inOrder_total_le ..)

/-- Scaling amounts down in proportion to `avail` keeps their sum within it. -/
theorem total_scaled_le (l : List (Nat × Nat)) (avail sum : Nat) (hsum : total (l.map (·.2)) ≤ sum) :
    total ((l.map fun f => (f.1, f.2 * avail / sum)).map (·.2)) ≤ avail := by
  rcases Nat.eq_zero_or_pos sum with rfl | hpos
  · simp [total_eq_sum, Function.comp_def]
  · have key : (l.map fun f => f.2 * avail / sum).sum * sum ≤ (l.map (·.2)).sum * avail := by
      clear hsum
      induction l with
      | nil => simp
      | cons e l ih =>
        have := Nat.div_mul_le_self (e.2 * avail) sum
        simp only [List.map_cons, List.sum_cons, Nat.add_mul]
        omega
    simp only [total_eq_sum, List.map_map, Function.comp_def] at hsum ⊢
    exact Nat.le_of_mul_le_mul_right (key.trans ((Nat.mul_le_mul_right _ hsum).trans (Nat.mul_comm ..).le)) hpos

theorem floorGrants_eq (unmet : Bool) (avail : Nat) (floors : List (Nat × Nat)) :
    floorGrants unmet avail floors =
      if unmet ∧ avail < total (floors.map (·.2)) then floors.map fun f => (f.1, f.2 * avail / total (floors.map (·.2)))
      else inOrder (fun _ => none) avail floors := by
  suffices key : ∀ (l acc : List (Nat × Nat)) (n : Nat), (l.foldl (fun (a : List (Nat × Nat) × Nat) f =>
      (a.1 ++ [(f.1, min f.2 a.2)], a.2 - min f.2 a.2)) (acc, n)).1 = acc ++ inOrder (fun _ => none) n l by
    simp only [floorGrants, key, List.nil_append]
  intro l
  induction l with
  | nil => intro acc n; simp [inOrder]
  | cons e l ih => intro acc n; simp [ih, inOrder]

/-- No consumer's floor grant exceeds its floor, and together they fit what is available (R731, R739). -/
theorem floorGrants_le (unmet : Bool) (avail : Nat) (floors : List (Nat × Nat)) :
    GrantsLe (floorGrants unmet avail floors) floors ∧ total ((floorGrants unmet avail floors).map (·.2)) ≤ avail := by
  rw [floorGrants_eq]
  split
  case isTrue h =>
    refine ⟨GrantsLe.of_map _ _ fun f _ => ⟨rfl, ?_⟩, total_scaled_le floors avail _ le_rfl⟩
    exact Nat.div_le_of_le_mul (Nat.mul_comm f.2 _ ▸ Nat.mul_le_mul_left _ h.2.le)
  case isFalse => exact ⟨inOrder_le .., by simpa using inOrder_total_le (fun _ => none) avail floors⟩

/-- Adding `m` under one key adds at most `m` where no key stands twice. -/
theorem total_raise_le {g : List (Nat × Nat)} (k m : Nat) (hn : (g.map (·.1)).Nodup) :
    total ((g.map fun x => if x.1 = k then (x.1, x.2 + m) else x).map (·.2)) ≤ total (g.map (·.2)) + m := by
  simp only [total_eq_sum]
  induction g with
  | nil => simp
  | cons e g ih =>
    obtain ⟨hk, hn⟩ := List.nodup_cons.1 hn
    by_cases he : e.1 = k
    · have hrest : (g.map fun x => if x.1 = k then (x.1, x.2 + m) else x) = g :=
        (List.map_congr_left fun x hx => if_neg fun h => hk (List.mem_map.2 ⟨x, hx, h.trans he.symm⟩)).trans (List.map_id' g)
      simp only [List.map_cons, if_pos he, hrest, List.sum_cons]
      omega
    · have := ih hn
      simp only [List.map_cons, if_neg he, List.sum_cons]
      omega

/-- What the context of band `b` may still take under its allotment, beside what its bands hold in `g` (R735, R739). -/
def roomOf (s : State) (g : List (Nat × Nat)) (b : Nat) : Nat :=
  Tab.getD s.power.allots (s.bandAt b).ctx 0 / 125 -
    total ((g.filter fun e => decide (e.1 < 16) && (s.bandAt e.1).ctx == (s.bandAt b).ctx).map (·.2))

/-- One consumer's turn in `topUp`: the grants so far and what is left of the budget. -/
def topUpOne (s : State) (a : List (Nat × Nat) × Nat) (e : Nat × Nat) : List (Nat × Nat) × Nat :=
  if 16 ≤ e.1 then a
  else (a.1.map fun x => if x.1 = e.1 then (x.1, x.2 + min (roomOf s a.1 e.1) a.2) else x, a.2 - min (roomOf s a.1 e.1) a.2)

theorem topUp_eq (s : State) (g : List (Nat × Nat)) (avail : Nat) : topUp s g avail = (g.foldl (topUpOne s) (g, avail)).1 := rfl

/-- A turn keeps the consumers, and grants and rest together do not grow. -/
theorem topUpOne_spec (s : State) (a : List (Nat × Nat) × Nat) (e : Nat × Nat) (hn : (a.1.map (·.1)).Nodup) :
    (topUpOne s a e).1.map (·.1) = a.1.map (·.1) ∧
      total ((topUpOne s a e).1.map (·.2)) + (topUpOne s a e).2 ≤ total (a.1.map (·.2)) + a.2 := by
  unfold topUpOne
  split
  · exact ⟨rfl, le_rfl⟩
  · have hle : min (roomOf s a.1 e.1) a.2 ≤ a.2 := Nat.min_le_right ..
    have := total_raise_le e.1 (min (roomOf s a.1 e.1) a.2) hn
    refine ⟨?_, by dsimp only; omega⟩
    rw [List.map_map]
    exact List.map_congr_left fun x _ => by simp only [Function.comp]; split <;> rfl

/-- Topping up keeps the consumers and hands out no more than what is available (R739). -/
theorem topUp_spec (s : State) {g : List (Nat × Nat)} (avail : Nat) (hn : (g.map (·.1)).Nodup) :
    (topUp s g avail).map (·.1) = g.map (·.1) ∧ total ((topUp s g avail).map (·.2)) ≤ total (g.map (·.2)) + avail := by
  suffices key : ∀ (l : List (Nat × Nat)) (a : List (Nat × Nat) × Nat), (a.1.map (·.1)).Nodup →
      (l.foldl (topUpOne s) a).1.map (·.1) = a.1.map (·.1) ∧
        total ((l.foldl (topUpOne s) a).1.map (·.2)) + (l.foldl (topUpOne s) a).2 ≤ total (a.1.map (·.2)) + a.2 by
    obtain ⟨hkeys, hsum⟩ := key g (g, avail) hn
    exact ⟨hkeys, (Nat.le_add_right ..).trans hsum⟩
  intro l
  induction l with
  | nil => exact fun a _ => ⟨rfl, le_rfl⟩
  | cons e l ih =>
    intro a ha
    obtain ⟨hk, hs⟩ := topUpOne_spec s a e ha
    obtain ⟨hk', hs'⟩ := ih (topUpOne s a e) (hk ▸ ha)
    exact ⟨hk'.trans hk, hs'.trans hs⟩

/-- The floor grants wanted of a period (Table 17-5). -/
def floorsWanted (s : State) (draws : List (Nat × Nat)) : List (Nat × Nat) := s.consumers.map fun k => (k, powerUnits (Tab.getD draws k 0))

/-- The bands are listed once each, below 16: no consumer stands twice. -/
theorem consumers_nodup {s : State} (hs : Tab.sorted s.bands = true) (hb : ∀ e ∈ s.bands, e.1 < 16) : s.consumers.Nodup := by
  have hbands := Tab.nodup_keys_of_sorted hs
  have hlt : ∀ k ∈ s.bands.map (·.1), k < 16 := by
    intro k hk
    obtain ⟨e, he, rfl⟩ := List.mem_map.1 hk
    exact hb e he
  unfold State.consumers
  refine List.Nodup.append (List.Nodup.append (hbands.filter _) (hbands.filter _) ?_) (by decide) ?_
  · intro k hp hn
    simp only [List.mem_filter] at hp hn
    simp [hp.2] at hn
  · intro k hk h16
    have hmem : k ∈ s.bands.map (·.1) := by
      rcases List.mem_append.1 hk with h | h <;> exact List.mem_of_mem_filter h
    have := hlt k hmem
    simp only [List.mem_cons, List.not_mem_nil, or_false] at h16
    omega

/-- The floor grants that the period's blocks and budget allow. -/
def floorsNow (s : State) (draws : List (Nat × Nat)) (mw : Nat) : List (Nat × Nat) :=
  withinBlocks (floorGrants s.capUnmet ((s.budgetLess - mw) / 125) (floorsWanted s draws))

/-- The Ballast shared among the consumers that carry out a recovery (R746, assumption 11). -/
def withBallast (s : State) (g : List (Nat × Nat)) : List (Nat × Nat) :=
  g.map fun e => if s.recovering.contains e.1 then
    (e.1, e.2 + if s.recovering = [] then 0 else s.ballastMw / 125 / s.recovering.length) else e

/-- While grants rise again after a droop, one unit more than the last period's at most (R743). -/
def ramped (s : State) (g : List (Nat × Nat)) : List (Nat × Nat) :=
  if s.power.ramping then g.map fun e => (e.1, min e.2 (Tab.getD s.power.grants e.1 0 + 1)) else g

theorem grantsNow_eq (s : State) (draws : List (Nat × Nat)) (mw : Nat) :
    grantsNow s draws mw = if s.power.droop then floorsNow s draws mw else
      ramped s (withinBlocks (withBallast s (withinBlocks
        (topUp s (floorsNow s draws mw) ((s.budgetLess - mw) / 125 - total ((floorsNow s draws mw).map (·.2))))))) := rfl

theorem ramped_le (s : State) (g : List (Nat × Nat)) : GrantsLe (ramped s g) g := by
  unfold ramped
  split
  · exact GrantsLe.of_map _ _ fun e _ => ⟨rfl, Nat.min_le_left ..⟩
  · exact GrantsLe.refl g

theorem withBallast_keys (s : State) (g : List (Nat × Nat)) : (withBallast s g).map (·.1) = g.map (·.1) := by
  rw [withBallast, List.map_map]
  exact List.map_congr_left fun e _ => by simp only [Function.comp]; split <;> rfl

theorem withBallast_idle {s : State} (h : s.recovering = []) (g : List (Nat × Nat)) : withBallast s g = g := by
  simp [withBallast, h]

/-- A period's grants (R739, R742, R746, R960): one for each consumer, below grants held to the blocks; during a droop below the floors; with no
recovery within what is available. -/
theorem grantsNow_spec (s : State) (draws : List (Nat × Nat)) (mw : Nat) (hn : s.consumers.Nodup) :
    (grantsNow s draws mw).map (·.1) = s.consumers ∧ (∃ h, GrantsLe (grantsNow s draws mw) (withinBlocks h)) ∧
      (s.power.droop = true → GrantsLe (grantsNow s draws mw) (floorsWanted s draws)) ∧
      (s.recovering = [] → total ((grantsNow s draws mw).map (·.2)) ≤ (s.budgetLess - mw) / 125) := by
  obtain ⟨hfloor, hfits⟩ := floorGrants_le s.capUnmet ((s.budgetLess - mw) / 125) (floorsWanted s draws)
  have hwithin : GrantsLe (floorsNow s draws mw) _ := withinBlocks_le _
  have hwant : (floorsWanted s draws).map (·.1) = s.consumers := by simp [floorsWanted, Function.comp_def]
  have hkeys : (floorsNow s draws mw).map (·.1) = s.consumers := (hwithin.trans hfloor).keys.trans hwant
  have htotal : total ((floorsNow s draws mw).map (·.2)) ≤ _ := hwithin.total_le.trans hfits
  rw [grantsNow_eq]
  split
  case isTrue hdroop => exact ⟨hkeys, ⟨_, GrantsLe.refl _⟩, fun _ => hwithin.trans hfloor, fun _ => htotal⟩
  case isFalse hdroop =>
    obtain ⟨htopKeys, htop⟩ := topUp_spec s ((s.budgetLess - mw) / 125 - total ((floorsNow s draws mw).map (·.2))) (hkeys ▸ hn)
    have hramp := ramped_le s (withinBlocks (withBallast s (withinBlocks
        (topUp s (floorsNow s draws mw) ((s.budgetLess - mw) / 125 - total ((floorsNow s draws mw).map (·.2)))))))
    refine ⟨?_, ⟨_, hramp⟩, fun h => absurd h hdroop, fun hrec => ?_⟩
    · rw [(hramp.trans (withinBlocks_le _)).keys, withBallast_keys, (withinBlocks_le _).keys, htopKeys, hkeys]
    · rw [withBallast_idle hrec] at hramp ⊢
      have := ((hramp.trans (withinBlocks_le _)).trans (withinBlocks_le _)).total_le
      omega

/-- A pass over bands that changes each allocated one alone: what a band is afterwards. -/
theorem get?_forEach_updBand (f : Nat → BandS → BandS) {l : List Nat} (hl : l.Nodup) (s : State) (k : Nat) :
    Tab.get? (forEach l (fun b u => u.updBand b (f b)) s).bands k = if k ∈ l then (Tab.get? s.bands k).map (f k) else Tab.get? s.bands k := by
  induction l generalizing s with
  | nil => simp [forEach]
  | cons b l ih =>
    obtain ⟨hb, hl⟩ := List.nodup_cons.1 hl
    have hstep : forEach (b :: l) (fun b u => u.updBand b (f b)) s = forEach l (fun b u => u.updBand b (f b)) (s.updBand b (f b)) := rfl
    rw [hstep, ih hl, State.get?_updBand]
    by_cases hk : k = b
    · subst hk; simp [hb]
    · simp [hk]

theorem forEach_updBand_eq (f : Nat → BandS → BandS) (l : List Nat) (s : State) :
    forEach l (fun b u => u.updBand b (f b)) s = { s with bands := (forEach l (fun b u => u.updBand b (f b)) s).bands } := by
  refine forEach_keeps (P := fun u => u = { s with bands := u.bands }) l _ (fun b _ u hu => ?_) rfl
  unfold State.updBand
  split
  · rw [hu]
  · exact hu

/-- What a charge pool holds after a period (R740): its old content and the grant's energy, but no more than that energy. -/
def filled (g : List (Nat × Nat)) (pool : Int) (k : Nat) : Int :=
  min (Int.ofNat (1250 * Tab.getD g k 0)) (pool + Int.ofNat (1250 * Tab.getD g k 0))

/-- The power state after a grant period. -/
def grantedPower (s : State) (draws g : List (Nat × Nat)) : PowerS :=
  { s.power with
    grantTick := s.time.ticks, grants := Tab.ofList g, floors := Tab.ofList (floorsWanted s draws),
    ramping := s.power.ramping && g.any fun e => decide (Tab.getD s.power.grants e.1 0 + 1 = e.2),
    pools := [16, 17, 18].foldl (fun t k => Tab.put t k (filled g (Tab.getD t k 0) k)) s.power.pools }

/-- BRIDLE_GRANT_PERIOD with its trigger: the grants are issued, the pools filled, and nothing else changes. -/
theorem exec_bridleGrantPeriod {s : State} (draws : List (Nat × Nat)) {mw : Nat} (hon : s.mainOn = true)
    (ht : s.power.grantTick + 5000 ≤ s.time.ticks) (hmw : mw ≤ 15000) :
    exec (.bridleGrantPeriod draws mw) s = .next (forEach (s.bands.map (·.1))
      (fun b u => u.updBand b fun x => { x with pool := filled (grantsNow s draws mw) x.pool b })
      { s with power := grantedPower s draws (grantsNow s draws mw) }) := by
  change execBridleGrantPeriod draws mw s = _
  rw [execBridleGrantPeriod, onTrigger_fires]
  · rfl
  · simp [hon, ht, hmw, usTicks]

/-- Before 10 µs have passed, or with a draw that the unmetered blocks never have, the Bridle issues nothing. -/
theorem exec_bridleGrantPeriod_idle {s : State} (draws : List (Nat × Nat)) {mw : Nat}
    (h : s.time.ticks < s.power.grantTick + 5000 ∨ 15000 < mw) : exec (.bridleGrantPeriod draws mw) s = .next s := by
  change execBridleGrantPeriod draws mw s = _
  refine onTrigger_idle s _ ?_
  rcases h with h | h <;> simp [usTicks, Nat.not_le.2 h]

theorem getD_grantedPower_pools (s : State) (draws g : List (Nat × Nat)) {k : Nat} (hk : k = 16 ∨ k = 17 ∨ k = 18) :
    Tab.getD (grantedPower s draws g).pools k 0 = filled g (Tab.getD s.power.pools k 0) k := by
  rcases hk with rfl | rfl | rfl <;> simp [grantedPower, Tab.getD_put]

end Sys2Proof.Machine

/-! ## The planner's interval -/

namespace Sys2Proof.Machine

/-- A session changes in its levels and in the planner's own figures alone. -/
def SessionS.planned (x y : SessionS) : Prop :=
  y = { x with levels := y.levels, predMw := y.predMw, kCorr := y.kCorr, loweredAgo := y.loweredAgo }

theorem SessionS.planned.trans {x y z : SessionS} (h : x.planned y) (k : y.planned z) : x.planned z := by
  unfold SessionS.planned at *
  rw [k, h]

/-- The planner changes the context's session alone, and with the account at 0 gives it its lowest levels (R726). -/
theorem planSession_some (n : Nat) (r : IntervalReport) (allot : Nat) {s : State} {x : SessionS} (hx : s.sessionAt n = some x) :
    ∃ y, planSession n r allot s = s.updSession n (fun _ => y) ∧ x.planned y ∧
      (∀ h, s.power.account = some (0, h) → y.levels = lowestLevels) := by
  unfold planSession
  rw [hx]
  refine ⟨_, rfl, rfl, fun h hempty => ?_⟩
  simp [hempty]

theorem planSession_none (n : Nat) (r : IntervalReport) (allot : Nat) {s : State} (hx : s.sessionAt n = none) :
    planSession n r allot s = s := by
  unfold planSession
  rw [hx]

theorem State.updSession_eq (s : State) (n : Nat) (f : SessionS → SessionS) : s.updSession n f = { s with ctxs := (s.updSession n f).ctxs } := by
  unfold State.updSession
  split <;> rfl

theorem planSession_eq (n : Nat) (r : IntervalReport) (allot : Nat) (s : State) :
    planSession n r allot s = { s with ctxs := (planSession n r allot s).ctxs } := by
  cases hx : s.sessionAt n with
  | none => rw [planSession_none n r allot hx]
  | some x =>
    obtain ⟨y, hy, -, -⟩ := planSession_some n r allot hx
    rw [hy]
    exact s.updSession_eq n _

theorem sessionAt_planSession_other (n : Nat) (r : IntervalReport) (allot : Nat) (s : State) {k : Nat} (hk : k ≠ n) :
    (planSession n r allot s).sessionAt k = s.sessionAt k := by
  cases hx : s.sessionAt n with
  | none => rw [planSession_none n r allot hx]
  | some x =>
    obtain ⟨y, hy, -, -⟩ := planSession_some n r allot hx
    rw [hy, State.sessionAt_updSession, if_neg hk]

/-- The planner's turn over the sessions (R735). -/
def planAll (r : IntervalReport) (s : State) : State :=
  forEach s.sessionCtxs (fun n u => planSession n r (Tab.getD u.power.allots n 0) u) s

theorem planAll_eq (r : IntervalReport) (s : State) : planAll r s = { s with ctxs := (planAll r s).ctxs } := by
  refine forEach_keeps (P := fun u => u = { s with ctxs := u.ctxs }) _ _ (fun n _ u hu => ?_) rfl
  rw [planSession_eq]
  rw [hu]

/-- A session stays a session through the planner's turn, changed in its levels and the planner's figures alone. -/
theorem sessionAt_planAll (r : IntervalReport) {s : State} {n : Nat} {x : SessionS} (hx : s.sessionAt n = some x) :
    ∃ y, (planAll r s).sessionAt n = some y ∧ x.planned y := by
  refine forEach_keeps (P := fun u => ∃ y, u.sessionAt n = some y ∧ x.planned y) _ _ (fun k _ u hu => ?_) ⟨x, hx, rfl⟩
  obtain ⟨y, hy, hxy⟩ := hu
  by_cases hk : n = k
  · subst hk
    obtain ⟨z, hz, hyz, -⟩ := planSession_some n r (Tab.getD u.power.allots n 0) hy
    exact ⟨z, by rw [hz, State.sessionAt_updSession, if_pos rfl, hy]; rfl, hxy.trans hyz⟩
  · exact ⟨y, by rw [sessionAt_planSession_other k r _ u hk, hy], hxy⟩

/-- With the account at 0 every session ends the planner's turn at its lowest levels (R726). -/
theorem planAll_lowest (r : IntervalReport) {s : State} {n h : Nat} (hn : n < 8) (hempty : s.power.account = some (0, h)) {x y : SessionS}
    (hx : s.sessionAt n = some x) (hy : (planAll r s).sessionAt n = some y) : y.levels = lowestLevels := by
  have hmem : n ∈ s.sessionCtxs := by simp [State.sessionCtxs, hn, hx]
  have hat : ∀ u : State, u.power.account = some (0, h) → ∀ z, (planSession n r (Tab.getD u.power.allots n 0) u).sessionAt n = some z →
      z.levels = lowestLevels := by
    intro u hu z hz
    cases hun : u.sessionAt n with
    | none => rw [planSession_none n r _ hun, hun] at hz; cases hz
    | some w =>
      obtain ⟨v, hv, -, hlow⟩ := planSession_some n r (Tab.getD u.power.allots n 0) hun
      rw [hv, State.sessionAt_updSession, if_pos rfl, hun] at hz
      obtain rfl := Option.some.inj hz
      exact hlow h hu
  refine forEach_establishes (P := fun u => u.power.account = some (0, h)) (Q := fun u => ∀ z, u.sessionAt n = some z → z.levels = lowestLevels)
    _ _ (fun k _ u hu => ?_) (fun k _ u hu hq => ?_) hmem hat hempty y hy
  · rw [planSession_eq]; exact hu
  · by_cases hk : n = k
    · subst hk; exact hat u hu
    · rw [sessionAt_planSession_other k r _ u hk]; exact hq

/-- The figures that an interval settles: its end, the module power, the account and the power history (R715 to R717, R724). -/
def PowerS.settled (p : PowerS) : Nat × Nat × Option (Nat × Nat) × List Nat := (p.intervalEnd, p.modulePower, p.account, p.history)

/-- `t` differs from `s` in figures of the power state that no interval settles, and in events raised after those of `s`. -/
structure PlannerEnds (s t : State) : Prop where
  state : t = { s with power := t.power, events := t.events, tether := t.tether }
  power : t.power.settled = s.power.settled
  events : s.events <+: t.events

theorem PlannerEnds.trans {s t u : State} (h : PlannerEnds s t) (k : PlannerEnds t u) : PlannerEnds s u where
  state := by rw [k.state, h.state]
  power := k.power.trans h.power
  events := h.events.trans k.events

theorem PlannerEnds.refl (s : State) : PlannerEnds s s := ⟨rfl, rfl, List.prefix_rfl⟩

theorem PlannerEnds.raise (s : State) (code detail : Nat) : PlannerEnds s (s.raise code detail) := ⟨rfl, rfl, List.prefix_append ..⟩

theorem PlannerEnds.predicted (s : State) (mw : Nat) : PlannerEnds s (s.mapPower fun p => { p with predictedMw := mw }) :=
  ⟨rfl, rfl, List.prefix_rfl⟩

theorem PlannerEnds.lowestRaised (s : State) (b : Bool) : PlannerEnds s (s.mapPower fun p => { p with lowestRaised := b }) :=
  ⟨rfl, rfl, List.prefix_rfl⟩

/-- The allotments of an interval (R735). -/
def allotAll (r : IntervalReport) (s : State) : State :=
  s.mapPower fun p => { p with allots := (List.range 8).map fun n => (n, allotment (s.ctxAt n).share s.shares
    (Int.ofNat s.budgetLess - Int.ofNat (s.power.modulePower - total r.ctxUj) - Int.ofNat s.shares)) }

/-- ENERGY_ACCOUNT with cause 1 (Table 17-8). -/
def noteLowered (raised : Bool) (s : State) : State := if raised then s.raise 0x8B00 1 else s

/-- ENERGY_ACCOUNT with cause 2, once as long as it holds (Table 17-8). -/
def noteLowest (holds : Bool) (s : State) : State :=
  if holds then (if s.power.lowestRaised then s else (s.mapPower fun p => { p with lowestRaised := true }).raise 0x8B00 2)
  else s.mapPower fun p => { p with lowestRaised := false }

theorem noteLowered_ends (raised : Bool) (s : State) : PlannerEnds s (noteLowered raised s) := by
  unfold noteLowered
  split
  · exact .raise ..
  · exact .refl s

theorem noteLowest_ends (holds : Bool) (s : State) : PlannerEnds s (noteLowest holds s) := by
  unfold noteLowest
  split
  · split
    · exact .refl s
    · exact (PlannerEnds.lowestRaised s true).trans (.raise ..)
  · exact .lowestRaised s false

/-- The planner: allotments, its turn over the sessions, and then its own figures and events. -/
theorem runPlanner_ends (r : IntervalReport) (s : State) : PlannerEnds (planAll r (allotAll r s)) (runPlanner r s) := by
  obtain ⟨mw, lowered, tooMuch, h⟩ : ∃ mw lowered tooMuch, runPlanner r s =
      noteLowest tooMuch (noteLowered lowered ((planAll r (allotAll r s)).mapPower fun p => { p with predictedMw := mw })) :=
    ⟨_, _, _, rfl⟩
  rw [h]
  exact ((PlannerEnds.predicted _ mw).trans (noteLowered_ends ..)).trans (noteLowest_ends ..)

/-- `t` differs from `s` in the bands, a requested re-planning and events raised after those of `s`. -/
structure RatesMeasured (s t : State) : Prop where
  state : t = { s with bands := t.bands, age := t.age, events := t.events, tether := t.tether }
  age : t.age = { s.age with replan := t.age.replan }
  events : s.events <+: t.events

theorem RatesMeasured.refl (s : State) : RatesMeasured s s := ⟨rfl, rfl, List.prefix_rfl⟩

theorem RatesMeasured.trans {s t u : State} (h : RatesMeasured s t) (k : RatesMeasured t u) : RatesMeasured s u where
  state := by rw [k.state, h.state]
  age := by rw [k.age, h.age]
  events := h.events.trans k.events

theorem RatesMeasured.updBand (s : State) (b : Nat) (f : BandS → BandS) : RatesMeasured s (s.updBand b f) := by
  unfold State.updBand
  split
  · exact ⟨rfl, rfl, List.prefix_rfl⟩
  · exact .refl s

theorem RatesMeasured.raiseCtx (s : State) (n code detail : Nat) : RatesMeasured s (s.raiseCtx n code detail) :=
  ⟨rfl, rfl, List.prefix_append ..⟩

theorem RatesMeasured.requestReplan (s : State) (apply : Bool) (l : List CmdRef) : RatesMeasured s (requestReplan apply l s) :=
  ⟨rfl, rfl, List.prefix_rfl⟩

theorem lowRateEpisode_rates (band rate : Nat) (s : State) : RatesMeasured s (lowRateEpisode band rate s) := by
  unfold lowRateEpisode
  split
  · exact .refl s
  · split
    · exact .updBand ..
    · split
      · exact ((RatesMeasured.updBand s band _).trans (.raiseCtx ..)).trans (.requestReplan ..)
      · dsimp only
        split
        · exact (RatesMeasured.updBand s band _).trans (.requestReplan ..)
        · exact .updBand ..

/-- The measured step rates of an interval are stored, and low-rate episodes handled (R476, R477). -/
def storeRates (r : IntervalReport) (s : State) : State :=
  forEach r.bandRates (fun b s => lowRateEpisode b.1 b.2 (s.updBand b.1 fun x => { x with rate := min 65535 b.2 })) s

theorem storeRates_rates (r : IntervalReport) (s : State) : RatesMeasured s (storeRates r s) :=
  forEach_keeps (P := RatesMeasured s) _ _ (fun b _ _ hu => (hu.trans (.updBand _ b.1 _)).trans (lowRateEpisode_rates ..)) (.refl s)

/-- The account after an interval's energy (R724). -/
def accountAfter (r : IntervalReport) (s : State) : Option (Nat × Nat) := s.power.account.map fun a => (a.1 - r.mainUj, a.2)

/-- The account and the power history after an interval (R716, R717, R724). -/
def closeInterval (r : IntervalReport) (s : State) : State :=
  s.mapPower fun p => { p with
    intervalEnd := p.intervalEnd + 500000, modulePower := r.mainUj, account := accountAfter r s,
    history := (p.history ++ [r.mainUj]).drop (p.history.length + 1 - 10000) }

/-- ENERGY_ACCOUNT with cause 3, once, when the account reaches 0 (Table 17-8). -/
def noteEmpty (e : Option (Nat × Nat)) (s : State) : State :=
  if (e.any fun a => a.1 == 0) && !s.power.emptyRaised then (s.mapPower fun p => { p with emptyRaised := true }).raise 0x8B00 3 else s

/-- A step of the fabric supply leads toward its target, by 10 mV at most, and not past it (R828). -/
theorem vSetStep_toward (s : State) :
    (s.age.vSet ≤ s.age.vTarget → s.age.vSet ≤ (vSetStep s).age.vSet ∧ (vSetStep s).age.vSet ≤ s.age.vTarget ∧
      (vSetStep s).age.vSet ≤ s.age.vSet + 10) ∧
    (s.age.vTarget ≤ s.age.vSet → (vSetStep s).age.vSet ≤ s.age.vSet ∧ s.age.vTarget ≤ (vSetStep s).age.vSet ∧
      s.age.vSet ≤ (vSetStep s).age.vSet + 10) := by
  have hstep : (vSetStep s).age.vSet =
      if s.age.vSet < s.age.vTarget then min s.age.vTarget (s.age.vSet + 10) else max s.age.vTarget (s.age.vSet - 10) := rfl
  rw [hstep]
  split <;> omega

/-- What an interval leaves for the planner: account, rates, supply step, events and the tiles' cadence. -/
def intervalMeasured (r : IntervalReport) (s : State) : State :=
  measureCadence r (noteEmpty (accountAfter r s) (storeRates r (vSetStep (closeInterval r s))))

/-- PLANNING_INTERVAL_END with its trigger. -/
theorem exec_planningIntervalEnd {s : State} (r : IntervalReport) (hon : s.mainOn = true) (ht : s.power.intervalEnd + 500000 ≤ s.time.ticks) :
    exec (.planningIntervalEnd r) s = .next (runPlanner r (intervalMeasured r s)) := by
  change execPlanningIntervalEnd r s = _
  rw [execPlanningIntervalEnd, onTrigger_fires]
  · rfl
  · simp [hon, ht]

theorem exec_planningIntervalEnd_idle {s : State} (r : IntervalReport) (ht : s.time.ticks < s.power.intervalEnd + 500000) :
    exec (.planningIntervalEnd r) s = .next s := by
  change execPlanningIntervalEnd r s = _
  exact onTrigger_idle s _ (by simp [Nat.not_le.2 ht])

/-- What the measurements of an interval change, and what they keep. -/
structure Measured (r : IntervalReport) (s t : State) : Prop where
  state : t = { s with power := t.power, bands := t.bands, age := t.age, events := t.events, tether := t.tether }
  power : t.power.settled = (closeInterval r s).power.settled
  vSet : t.age.vSet = (vSetStep s).age.vSet
  vTarget : t.age.vTarget = s.age.vTarget
  ledger : t.age.ledger = s.age.ledger

/-- Storing the rates and stepping the supply measures as stated. -/
theorem storeRates_measured (r : IntervalReport) (s : State) : Measured r s (storeRates r (vSetStep (closeInterval r s))) := by
  obtain ⟨hstate, hage, -⟩ := storeRates_rates r (vSetStep (closeInterval r s))
  generalize storeRates r (vSetStep (closeInterval r s)) = u at hstate hage
  have hpower : u.power = (closeInterval r s).power := by rw [hstate]; rfl
  exact ⟨by rw [hstate]; rfl, by rw [hpower], by rw [hage]; rfl, by rw [hage]; rfl, by rw [hage]; rfl⟩

theorem Measured.noteEmpty {r : IntervalReport} {s u : State} (h : Measured r s u) (e : Option (Nat × Nat)) : Measured r s (noteEmpty e u) := by
  obtain ⟨hstate, hpower, hset, htarget, hledger⟩ := h
  unfold Machine.noteEmpty
  split
  · exact ⟨by rw [hstate]; rfl, hpower, hset, htarget, hledger⟩
  · exact ⟨hstate, hpower, hset, htarget, hledger⟩

theorem Measured.measureCadence {r : IntervalReport} {s u : State} (h : Measured r s u) : Measured r s (measureCadence r u) := by
  obtain ⟨hstate, hpower, hset, htarget, hledger⟩ := h
  exact ⟨by rw [hstate]; rfl, hpower, hset, htarget, hledger⟩

theorem intervalMeasured_measured (r : IntervalReport) (s : State) : Measured r s (intervalMeasured r s) :=
  ((storeRates_measured r s).noteEmpty _).measureCadence

/-- An account that reaches 0 raises its event (Table 17-8). -/
theorem intervalMeasured_raises_empty (r : IntervalReport) {s : State} {h : Nat} (hacc : accountAfter r s = some (0, h))
    (hnot : s.power.emptyRaised = false) : ∃ e ∈ (intervalMeasured r s).events, e.code = 0x8B00 ∧ e.detail = 3 := by
  have hpower := (storeRates_rates r (vSetStep (closeInterval r s))).state
  unfold intervalMeasured
  generalize storeRates r (vSetStep (closeInterval r s)) = u at hpower
  have hempty : u.power.emptyRaised = false := by rw [hpower]; exact hnot
  have hraise : ((accountAfter r s).any (fun a => a.1 == 0) && !u.power.emptyRaised) = true := by rw [hacc, hempty]; rfl
  rw [noteEmpty, if_pos hraise]
  exact ⟨_, List.mem_append_right _ (List.mem_singleton_self _), rfl, rfl⟩

/-- Settles O44: the grants by `grantsNow_spec`, the pools band by band; the planner by what the measurements, its turn over the sessions and its
events leave unchanged. -/
theorem grantsStayWithinTheBudget : Obligations.GrantsStayWithinTheBudget := by
  refine ⟨?early, ?overdrawn, ?grants, ?notYet, ?interval⟩
  case early => exact fun s draws mw h => exec_bridleGrantPeriod_idle draws (.inl h)
  case overdrawn => exact fun s draws mw h => exec_bridleGrantPeriod_idle draws (.inr h)
  case grants =>
    intro s draws mw hon ht hmw hsorted hbands
    obtain ⟨hkeys, ⟨h, hwithin⟩, hdroop, htotal⟩ := grantsNow_spec s draws mw (consumers_nodup hsorted hbands)
    generalize hg : grantsNow s draws mw = g at hkeys hwithin hdroop htotal
    have hnodup : (g.map (·.1)).Nodup := hkeys ▸ consumers_nodup hsorted hbands
    have hperm := Tab.ofList_perm hnodup
    have hget : ∀ k, Tab.getD (Tab.ofList g) k 0 = Tab.getD g k 0 := fun k => Tab.getD_eq_of_get? (Tab.get?_ofList hnodup k) 0
    obtain ⟨hown, hfabric⟩ := hwithin.within
    have hframe := forEach_updBand_eq (fun b x => { x with pool := filled g x.pool b }) (s.bands.map (·.1))
      { s with power := grantedPower s draws g }
    have hband := get?_forEach_updBand (fun b x => { x with pool := filled g x.pool b }) (Tab.nodup_keys_of_sorted hsorted)
      { s with power := grantedPower s draws g }
    refine ⟨_, exec_bridleGrantPeriod draws hon ht hmw, ?_⟩
    rw [hg]
    generalize forEach (s.bands.map (·.1)) _ _ = t at hframe hband
    have hpower : t.power = grantedPower s draws g := by rw [hframe]
    rw [hpower]
    refine ⟨rfl, fun hrec => ?total, ?vision, ?search, ?hbm, ?fabric, fun k hk => ?pools, fun b hb => ?bands, fun hd k _ => ?floors, rfl, rfl, hframe⟩
    case total =>
      refine Eq.trans_le ?_ (htotal hrec)
      simpa only [total_eq_sum] using! (hperm.map (·.2)).sum_eq
    case vision => exact (hget 16).trans_le (hown 16 (by decide))
    case search => exact (hget 17).trans_le (hown 17 (by decide))
    case hbm => exact (hget 18).trans_le (hown 18 (by decide))
    case fabric =>
      refine Eq.trans_le ?_ hfabric
      simpa only [total_eq_sum] using! ((hperm.filter fun e => decide (e.1 < 16)).map (·.2)).sum_eq
    case pools =>
      rw [getD_grantedPower_pools s draws g hk]
      simp only [filled, grantedPower, hget]
    case bands =>
      obtain ⟨x, hx⟩ := Tab.has_eq_true.1 hb
      have hmem : b ∈ s.bands.map (·.1) := List.mem_map_of_mem (f := (·.1)) (Tab.mem_of_get? hx)
      have hold : s.bandAt b = x := by simp [State.bandAt, Tab.getD, hx]
      have hnew : t.bandAt b = { x with pool := filled g x.pool b } := by
        simp [State.bandAt, Tab.getD, hband b, hmem, hx]
      rw [hnew, hold]
      exact ⟨rfl, by simp only [filled, grantedPower, hget]⟩
    case floors =>
      have hwant : (floorsWanted s draws).map (·.1) = s.consumers := by simp [floorsWanted, Function.comp_def]
      have hfloor := Tab.getD_eq_of_get? (Tab.get?_ofList (l := floorsWanted s draws) (hwant ▸ consumers_nodup hsorted hbands) k) 0
      exact ((hget k).trans_le ((hdroop hd).getD_le k)).trans_eq hfloor.symm
  case notYet => exact fun s r h => exec_planningIntervalEnd_idle r h
  case interval =>
    intro s r hon ht
    obtain ⟨hstate, hpower, hset, htarget, hledger⟩ := intervalMeasured_measured r s
    have hraised := fun h => intervalMeasured_raises_empty r (s := s) (h := h)
    obtain ⟨hend, hendPower, hevents⟩ := runPlanner_ends r (intervalMeasured r s)
    have hplan := planAll_eq r (allotAll r (intervalMeasured r s))
    refine ⟨_, exec_planningIntervalEnd r hon ht, ?_⟩
    generalize runPlanner r (intervalMeasured r s) = t at hend hendPower hevents
    generalize hu : intervalMeasured r s = u at *
    have hsettled : t.power.settled = (closeInterval r s).power.settled := by
      rw [hendPower, hplan]
      exact hpower
    simp only [PowerS.settled, Prod.mk.injEq] at hsettled
    obtain ⟨hendTick, hmw, hacc, hhist⟩ := hsettled
    have hage : t.age = u.age := by rw [hend, hplan]; rfl
    rw [hage]
    have hacc' : t.power.account = accountAfter r s := hacc
    refine ⟨hendTick, hmw, hacc, ?history, fun n x hn hx => ?sessions, fun h hh hnot => ?empty, ?up, ?down, htarget, hledger, ?frame⟩
    case history =>
      rw [hhist]
      simp only [closeInterval, State.mapPower_power, List.length_drop, List.length_append, List.length_singleton]
      omega
    case sessions =>
      have hux : u.sessionAt n = some x := by rw [hstate]; exact hx
      obtain ⟨y, hy, hxy⟩ := sessionAt_planAll r (s := allotAll r u) hux
      refine ⟨y, by rw [hend]; exact hy, hxy, fun h hh => planAll_lowest (s := allotAll r u) r (h := h) hn ?_ hux hy⟩
      exact (congrArg (fun p => p.2.2.1) hpower).trans (hacc'.symm.trans hh)
    case empty =>
      obtain ⟨e, he, hcode⟩ := hraised h (hacc' ▸ hh) hnot
      refine ⟨e, hevents.subset ?_, hcode⟩
      rw [hplan]
      exact he
    case up => rw [hset]; exact (vSetStep_toward s).1
    case down => rw [hset]; exact (vSetStep_toward s).2
    case frame => rw [hend, hplan, hstate]; rfl

end Sys2Proof.Machine

/-! ## Port commands -/

namespace Sys2Proof.Machine

@[simp] theorem State.began_portAt (s : State) (c : CmdRef) (p : Nat) : (s.began c).portAt p = s.portAt p := rfl
@[simp] theorem State.done_portAt (s : State) (c : CmdRef) (st d : Nat) (b : List Word) (o : List Byte) (p : Nat) :
    (s.done c st d b o).portAt p = s.portAt p := rfl

theorem isPort_of_isCamera {p : Nat} (h : isCamera p = true) : isPort p = true ∧ p ≠ 32 := by
  refine ⟨by simp [isPort, h], fun e => ?_⟩
  subst e
  exact absurd h (by decide)

/-- Entering DETECTING turns the supply on as Table 23-1 has it; no other port changes. -/
theorem portAt_enterDetecting (p k : Nat) (s : State) :
    (enterDetecting p s).portAt k = if k = p then
      { s.portAt p with state := .detecting, since := s.time.ticks, openLoad := false, supplyOn := (enterDetecting p s).portAt p |>.supplyOn }
    else s.portAt k := by
  by_cases hk : k = p
  · subst hk
    simp [enterDetecting, setSupply, State.portAt_updPort]
  · simp [enterDetecting, setSupply, State.portAt_updPort, hk]

/-- A request to the voltage sequencer changes the islands alone. -/
theorem requestFreq_eq (s : State) (island mhz : Nat) : s.requestFreq island mhz = { s with islands := (s.requestFreq island mhz).islands } := by
  dsimp only [State.requestFreq]
  split <;> rfl

section PortClaim

variable {s : State} {c : CmdRef} {m : Cmd} (h : s.runs c 0x0200 m) (hp : isPort (fld (m.w 3) 7 0) = true)

include h hp

theorem exec_portClaim_unclaimed (ho : (s.portAt (fld (m.w 3) 7 0)).owner = none) :
    exec (.portClaim c) s = .next ((enterDetecting (fld (m.w 3) 7 0) ((s.began c).updPort (fld (m.w 3) 7 0) fun q =>
      { q with owner := some m.ctx, reason := 0, supplyStop := false, faulted := false })).done c) := by
  change execPortClaim c s = _
  rw [execPortClaim, onCmd_runs _ h]
  simp [hp, ho]

theorem exec_portClaim_claimed {k : Nat} (ho : (s.portAt (fld (m.w 3) 7 0)).owner = some k) :
    exec (.portClaim c) s = .next (if k = m.ctx then (s.began c).done c else (s.began c).refuseOpen c BUSY) := by
  change execPortClaim c s = _
  rw [execPortClaim, onCmd_runs _ h]
  simp [hp, ho]

end PortClaim

section PortRelease

variable {s : State} {c : CmdRef} {m : Cmd} (h : s.runs c 0x0201 m) (hp : isPort (fld (m.w 3) 7 0) = true)

include h hp

theorem exec_portRelease_unclaimed (ho : (s.portAt (fld (m.w 3) 7 0)).owner = none) :
    exec (.portRelease c) s = .next ((s.began c).done c) := by
  change execPortRelease c s = _
  rw [execPortRelease, onCmd_runs _ h]
  simp [hp, ho]

theorem exec_portRelease_bound (ho : (s.portAt (fld (m.w 3) 7 0)).owner = some m.ctx) (hb : (s.portAt (fld (m.w 3) 7 0)).bound = true) :
    exec (.portRelease c) s = .next ((s.began c).refuseOpen c BUSY) := by
  change execPortRelease c s = _
  rw [execPortRelease, onCmd_runs _ h]
  simp [hp, ho, hb]

theorem exec_portRelease_own (ho : (s.portAt (fld (m.w 3) 7 0)).owner = some m.ctx) (hb : (s.portAt (fld (m.w 3) 7 0)).bound = false)
    (he : isCamera (fld (m.w 3) 7 0) = true → hasEntryFor s m.ctx (fld (m.w 3) 7 0) = false) :
    exec (.portRelease c) s = .next (((s.began c).updPort (fld (m.w 3) 7 0) fun q => q.released s.time.ticks).done c) := by
  have hentry : hasEntryFor (s.began c) m.ctx (fld (m.w 3) 7 0) = hasEntryFor s m.ctx (fld (m.w 3) 7 0) := rfl
  change execPortRelease c s = _
  rw [execPortRelease, onCmd_runs _ h]
  simp only [hp, State.began_portAt, ho, hb, hentry]
  rw [if_neg (by simp), if_neg]
  · rfl
  · rintro (hne | hbound | ⟨hcam, hent⟩)
    · exact hne rfl
    · exact Bool.false_ne_true hbound
    · simp [he hcam] at hent

end PortRelease

/-- A context that claimed the port and does not stream from it, or the PF where nobody claimed it, may set it (R977). -/
theorem portSetRefusal_none {m : Cmd} {p : Nat} {s : State} (hp : isPort p = true) (h32 : p ≠ 32)
    (h : ((s.portAt p).owner = some m.ctx ∧ (s.portAt p).state ≠ .streaming) ∨ ((s.portAt p).owner = none ∧ m.ctx = 0)) :
    portSetRefusal m p s = none := by
  rcases h with ⟨ho, hst⟩ | ⟨ho, hctx⟩
  · simp [portSetRefusal, hp, h32, ho, hst]
  · simp [portSetRefusal, hp, h32, ho, hctx]

/-- IMU0's port has no settings (R977). -/
theorem portSetRefusal_imu0 (m : Cmd) (s : State) : portSetRefusal m 32 s = some fun s => s.badWord m.ref 3 := by
  simp [portSetRefusal]

/-- A field with a default takes its value in range and its default for zero (R695). -/
theorem withDefault_word {w : Word} {lo hi d : Nat} (hlo : 0 < lo) (h : w = 0 ∨ (lo ≤ w.toNat ∧ w.toNat ≤ hi)) :
    withDefault w.toNat lo hi d = some (if w = 0 then d else w.toNat) := by
  rcases h with rfl | ⟨hl, hh⟩
  · have hnot : ¬ (lo ≤ (0 : Word).toNat ∧ (0 : Word).toNat ≤ hi) := fun hc => absurd (hlo.trans_le hc.1) (by decide)
    rw [withDefault, if_neg hnot, if_pos rfl]
    rfl
  · have hne : w ≠ 0 := fun e => by subst e; exact absurd (hlo.trans_le hl) (by decide)
    rw [withDefault, if_pos ⟨hl, hh⟩, if_neg hne]

/-- The port that PORT_CONFIG leaves behind before its supply is looked at: the new settings, without a latch (R940). -/
def PortS.configured (q : PortS) (cfg : Word) : PortS :=
  if q.latched then { q with camCfg := cfg, latched := false, trips := [] } else { q with camCfg := cfg }

@[simp] theorem PortS.configured_camCfg (q : PortS) (cfg : Word) : (q.configured cfg).camCfg = cfg := by unfold PortS.configured; split <;> rfl
@[simp] theorem PortS.configured_latched (q : PortS) (cfg : Word) : (q.configured cfg).latched = false := by
  unfold PortS.configured
  split
  · rfl
  case isFalse h => exact Bool.eq_false_of_not_eq_true h
@[simp] theorem PortS.configured_owner (q : PortS) (cfg : Word) : (q.configured cfg).owner = q.owner := by unfold PortS.configured; split <;> rfl
@[simp] theorem PortS.configured_state (q : PortS) (cfg : Word) : (q.configured cfg).state = q.state := by unfold PortS.configured; split <;> rfl

/-- PORT_CONFIG of a camera port: its settings, the word clock asked of island 2, and its supply unless it is in FAULT. -/
def configureCamera (p : Nat) (cfg : Word) (s : State) : State :=
  let s := s.updPort p fun q => q.configured cfg
  let s := s.requestFreq 2 s.wordClock
  if (s.portAt p).state = .fault then s else setSupply p s

theorem State.requestFreq_portAt (s : State) (island mhz p : Nat) : (s.requestFreq island mhz).portAt p = s.portAt p := by
  rw [requestFreq_eq]
  rfl

/-- The configured port takes its supply state anew. -/
theorem portAt_configureCamera_self (p : Nat) (cfg : Word) (s : State) :
    ∃ on, (configureCamera p cfg s).portAt p = { (s.portAt p).configured cfg with supplyOn := on } := by
  dsimp only [configureCamera]
  split
  · exact ⟨((s.portAt p).configured cfg).supplyOn, by rw [State.requestFreq_portAt, State.portAt_updPort, if_pos rfl]⟩
  · exact ⟨_, by rw [setSupply, State.portAt_updPort, if_pos rfl, State.requestFreq_portAt, State.portAt_updPort, if_pos rfl]⟩

theorem portAt_configureCamera_other {p k : Nat} (cfg : Word) (s : State) (hk : k ≠ p) : (configureCamera p cfg s).portAt k = s.portAt k := by
  dsimp only [configureCamera]
  split <;> simp [setSupply, State.portAt_updPort, State.requestFreq_portAt, hk]

theorem configureCamera_eq (p : Nat) (cfg : Word) (s : State) :
    configureCamera p cfg s = { s with ports := (configureCamera p cfg s).ports, islands := (configureCamera p cfg s).islands } := by
  dsimp only [configureCamera]
  split <;> rw [requestFreq_eq] <;> rfl

theorem exec_portConfig_camera {s : State} {c : CmdRef} {m : Cmd} (h : s.runs c 0x0202 m) (hcam : isCamera (fld (m.w 3) 7 0) = true)
    (hset : ((s.portAt (fld (m.w 3) 7 0)).owner = some m.ctx ∧ (s.portAt (fld (m.w 3) 7 0)).state ≠ .streaming) ∨
      ((s.portAt (fld (m.w 3) 7 0)).owner = none ∧ m.ctx = 0))
    (hlanes : fld (m.w 4) 9 8 ≠ 2) (hlo : 8 ≤ fld (m.w 4) 7 0) (hhi : fld (m.w 4) 7 0 ≤ 0xFA) (hi2c : fld (m.w 4) 28 27 ≠ 3) :
    exec (.portConfig c) s = .next ((configureCamera (fld (m.w 3) 7 0) (m.w 4 &&& 0x1FFF83FF) (s.began c)).done c) := by
  obtain ⟨hp, h32⟩ := isPort_of_isCamera hcam
  have hallowed : portSetRefusal m (fld (m.w 3) 7 0) (s.began c) = none := portSetRefusal_none hp h32 hset
  have hok : ¬ (fld (m.w 4) 9 8 = 2 ∨ fld (m.w 4) 7 0 < 8 ∨ 0xFA < fld (m.w 4) 7 0 ∨ fld (m.w 4) 28 27 = 3) := by omega
  change execPortConfig c s = _
  rw [execPortConfig, onCmd_runs _ h]
  simp only [hallowed, portSettings, if_pos hcam, if_neg hok]
  rfl

theorem exec_portTiming_set {s : State} {c : CmdRef} {m : Cmd} (h : s.runs c 0x0204 m) (hp : isPort (fld (m.w 3) 7 0) = true)
    (h32 : fld (m.w 3) 7 0 ≠ 32)
    (hset : ((s.portAt (fld (m.w 3) 7 0)).owner = some m.ctx ∧ (s.portAt (fld (m.w 3) 7 0)).state ≠ .streaming) ∨
      ((s.portAt (fld (m.w 3) 7 0)).owner = none ∧ m.ctx = 0))
    (hd : m.w 4 = 0 ∨ (10 ≤ (m.w 4).toNat ∧ (m.w 4).toNat ≤ 60000)) (hr : m.w 5 = 0 ∨ (100 ≤ (m.w 5).toNat ∧ (m.w 5).toNat ≤ 60000))
    (ht : m.w 6 = 0 ∨ (100 ≤ (m.w 6).toNat ∧ (m.w 6).toNat ≤ 30000)) :
    exec (.portTiming c) s = .next (((s.began c).updPort (fld (m.w 3) 7 0) fun q =>
      { q with detectMs := if m.w 4 = 0 then none else some (m.w 4).toNat, retryMs := if m.w 5 = 0 then 1000 else (m.w 5).toNat,
               trigUs := if m.w 6 = 0 then 5000 else (m.w 6).toNat }).done c) := by
  have hallowed : portSetRefusal m (fld (m.w 3) 7 0) (s.began c) = none := portSetRefusal_none hp h32 hset
  have hzero : (m.w 4).toNat = 0 ↔ m.w 4 = 0 := by rw [← BitVec.toNat_inj]; rfl
  have hdetect : ¬ ((m.w 4).toNat ≠ 0 ∧ ((m.w 4).toNat < 10 ∨ 60000 < (m.w 4).toNat)) := by
    rintro ⟨hne, hout⟩
    rcases hd with hd | hd
    · exact hne (hzero.2 hd)
    · omega
  change execPortTiming c s = _
  rw [execPortTiming, onCmd_runs _ h]
  simp only [hallowed, withDefault_word (by decide : 0 < 100) hr, withDefault_word (by decide : 0 < 100) ht, if_neg hdetect, hzero]

/-- The bytes written by CAM_I2C_XFER before a NACK (Table 16-5). -/
def i2cWritten (m : Cmd) (acked : Nat) : List Byte :=
  (wordsBytes ((List.range 16).map fun i => m.w (5 + i))).take (min (min acked (fld (m.w 4) 6 0 + fld (m.w 4) 14 8)) (fld (m.w 4) 6 0))

/-- The bytes read by CAM_I2C_XFER before a NACK, as the reply's body. -/
def i2cRead (m : Cmd) (acked : Nat) (dataIn : List Byte) : List Word :=
  let got := slice dataIn 0 (min acked (fld (m.w 4) 6 0 + fld (m.w 4) 14 8) - fld (m.w 4) 6 0)
  bytesWords (ceilDiv got.length 4) got

/-- CAM_I2C_XFER ends with what was transferred before a NACK (Table 16-5). -/
theorem exec_camI2cXfer {s : State} {c : CmdRef} {m : Cmd} (acked : Nat) (dataIn : List Byte) (h : s.runs c 0x0205 m)
    (hcam : isCamera (fld (m.w 3) 7 0) = true) (hwr : fld (m.w 4) 6 0 ≤ 64) (hrd : fld (m.w 4) 14 8 ≤ 64)
    (hst : (s.portAt (fld (m.w 3) 7 0)).state ≠ .off) (ho : (s.portAt (fld (m.w 3) 7 0)).owner = some m.ctx) :
    exec (.camI2cXfer c acked dataIn) s = .next
      (((s.began c).send (.i2c (fld (m.w 3) 7 0) (fld (m.w 3) 14 8) (i2cWritten m acked))).done c
        (if acked < fld (m.w 4) 6 0 + fld (m.w 4) 14 8 then OK_PARTIAL else OK)
        (if acked < fld (m.w 4) 6 0 + fld (m.w 4) 14 8 then acked else 0) (i2cRead m acked dataIn)) := by
  have hlen : ¬ (64 < fld (m.w 4) 6 0 ∨ 64 < fld (m.w 4) 14 8) := by omega
  change execCamI2cXfer c acked dataIn s = _
  rw [execCamI2cXfer, onCmd_runs _ h]
  simp only [hcam, if_neg hlen, State.began_portAt, ho, hst, Bool.true_eq_false, ne_eq, not_true, or_self, if_false]
  by_cases ha : acked < fld (m.w 4) 6 0 + fld (m.w 4) 14 8
  · rw [if_pos (by omega), if_pos ha, if_pos ha]
    simp only [i2cWritten, i2cRead, Nat.min_eq_left ha.le]
  · rw [if_neg (by omega), if_neg ha, if_neg ha]
    rfl

/-- Settles O10: each command's outcome by the port's claim and state, then what its effect on the port leaves unchanged. -/
theorem portCommandsByClaimAndState : Obligations.PortCommandsByClaimAndState := by
  refine ⟨?claim, ?release, ?config, ?timing, ?i2c, ?imu0⟩
  case claim =>
    intro s c m h hp
    refine ⟨fun ho => ?_, fun ho => ?_, fun k ho hk => ?_⟩
    · refine ⟨_, exec_portClaim_unclaimed h hp ho, ?_⟩
      generalize hu : enterDetecting _ _ = u
      have hframe : u = { s.began c with ports := u.ports } := by rw [← hu]; rfl
      obtain ⟨hans, hothers⟩ := State.done_of_began (u := u) OK 0 [] [] h.isSome (by rw [hframe])
      have hport := fun k => portAt_enterDetecting (fld (m.w 3) 7 0) k ((s.began c).updPort (fld (m.w 3) 7 0) fun q =>
        { q with owner := some m.ctx, reason := 0, supplyStop := false, faulted := false })
      simp only [hu, State.portAt_updPort, if_true, State.began_portAt] at hport
      simp only [State.done_portAt]
      refine ⟨hans, ?_, ?_, ?_, fun k hk => ?_, hothers, by rw [hframe]; rfl⟩
      · rw [hport, if_pos rfl]
      · rw [hport, if_pos rfl]
      · rw [hport, if_pos rfl]
      · rw [hport, if_neg hk, if_neg hk]
    · rw [exec_portClaim_claimed h hp ho, if_pos rfl]
    · rw [exec_portClaim_claimed h hp ho, if_neg hk]
  case release =>
    intro s c m h hp
    refine ⟨fun ho hb he => ?_, exec_portRelease_unclaimed h hp, exec_portRelease_bound h hp⟩
    obtain ⟨hans, hothers⟩ := State.done_of_began (u := (s.began c).updPort (fld (m.w 3) 7 0) fun q => q.released s.time.ticks)
      OK 0 [] [] h.isSome rfl
    refine ⟨_, exec_portRelease_own h hp ho hb he, hans, ?_, ?_, ?_, ?_, fun k hk => ?_, hothers, rfl⟩ <;>
      simp only [State.done_portAt, State.portAt_updPort, if_true, State.began_portAt]
    · rfl
    · rfl
    · rfl
    · rfl
    · rw [if_neg hk]
  case config =>
    intro s c m h hcam hset hlanes hlo hhi hi2c
    have hframe := configureCamera_eq (fld (m.w 3) 7 0) (m.w 4 &&& 0x1FFF83FF) (s.began c)
    obtain ⟨on, hport⟩ := portAt_configureCamera_self (fld (m.w 3) 7 0) (m.w 4 &&& 0x1FFF83FF) (s.began c)
    obtain ⟨hans, hothers⟩ := State.done_of_began (u := configureCamera (fld (m.w 3) 7 0) (m.w 4 &&& 0x1FFF83FF) (s.began c))
      OK 0 [] [] h.isSome (by rw [hframe])
    refine ⟨_, exec_portConfig_camera h hcam hset hlanes hlo hhi hi2c, hans, ?_, ?_, ?_, ?_, fun k hk => ?_, hothers, ?_⟩
    · rw [State.done_portAt, hport]; exact PortS.configured_camCfg _ _
    · rw [State.done_portAt, hport]; exact PortS.configured_latched _ _
    · rw [State.done_portAt, hport]; exact PortS.configured_owner _ _
    · rw [State.done_portAt, hport]; exact PortS.configured_state _ _
    · rw [State.done_portAt, portAt_configureCamera_other _ _ hk, State.began_portAt]
    · rw [hframe]; rfl
  case timing =>
    intro s c m h hp h32 hset hd hr ht
    obtain ⟨hans, hothers⟩ := State.done_of_began (u := (s.began c).updPort (fld (m.w 3) 7 0) fun q =>
      { q with detectMs := if m.w 4 = 0 then none else some (m.w 4).toNat, retryMs := if m.w 5 = 0 then 1000 else (m.w 5).toNat,
               trigUs := if m.w 6 = 0 then 5000 else (m.w 6).toNat }) OK 0 [] [] h.isSome rfl
    refine ⟨_, exec_portTiming_set h hp h32 hset hd hr ht, hans, ?_, fun k hk => ?_, hothers, rfl⟩
    · simp only [State.done_portAt, State.portAt_updPort, if_true, State.began_portAt]
    · simp only [State.done_portAt, State.portAt_updPort, if_neg hk, State.began_portAt]
  case i2c =>
    intro s c m acked dataIn h hcam hwr hrd hst ho
    obtain ⟨hans, hothers⟩ := State.done_of_began
      (u := (s.began c).send (.i2c (fld (m.w 3) 7 0) (fld (m.w 3) 14 8) (i2cWritten m acked)))
      (if acked < fld (m.w 4) 6 0 + fld (m.w 4) 14 8 then OK_PARTIAL else OK)
      (if acked < fld (m.w 4) 6 0 + fld (m.w 4) 14 8 then acked else 0) (i2cRead m acked dataIn) [] h.isSome rfl
    refine ⟨_, i2cRead m acked dataIn, i2cWritten m acked, exec_camI2cXfer acked dataIn h hcam hwr hrd hst ho, rfl, fun ha => ?_, fun ha => ?_, hothers, rfl⟩
    · simpa only [if_neg (Nat.not_lt.2 ha)] using hans
    · simpa only [if_pos ha] using hans
  case imu0 =>
    intro s c m hp
    refine ⟨fun h => ?_, fun h => ?_⟩
    · change execPortConfig c s = _
      rw [execPortConfig, onCmd_runs _ h]
      simp only [hp, portSetRefusal_imu0, State.findCmd_ref h.1]
      rfl
    · change execPortTiming c s = _
      rw [execPortTiming, onCmd_runs _ h]
      simp only [hp, portSetRefusal_imu0, State.findCmd_ref h.1]
      rfl

end Sys2Proof.Machine

/-! ## Quadrille and the recovery of engines -/

namespace Sys2Proof.Machine

/-- A slot with the graph in bytes stored in it (Table 7-11). -/
def storeGraph (s : State) (slot : Nat) (b : List Byte) : State :=
  let nodes := (List.range (leAt b 0 4)).map fun i => parseNode (slice b (16 + 32 * i) 32)
  { s with quad := { s.quad with slots := Tab.put s.quad.slots slot nodes } }

/-- QUADRILLE_LOAD by its refusals (R41, R321); past them it reads the graph. -/
theorem exec_quadrilleLoad {s : State} {c : CmdRef} {m : Cmd} (h : s.runs c 0x0505 m) :
    exec (.quadrilleLoad c) s = .next (
      if m.ctx ≠ 0 then (s.began c).refuseOpen c NOT_OWNER
      else if fld (m.w 3) 3 0 < 8 then (s.began c).badWord c 3
      else if (s.quad.running.any fun r => r.1 == fld (m.w 3) 3 0) then (s.began c).refuseOpen c BUSY
      else withSg m 4 (s.began c) fun b =>
        if graphOk s b = false then (s.began c).badWord c 4
        else (storeGraph (s.began c) (fld (m.w 3) 3 0) b).done c) := by
  change execQuadrilleLoad c s = _
  rw [execQuadrilleLoad, onCmd_runs _ h]
  rfl

/-- QUADRILLE_RUN by its refusals (R321, R323); past them the graph runs. -/
theorem exec_quadrilleRun {s : State} {c : CmdRef} {m : Cmd} (h : s.runs c 0x0506 m) :
    exec (.quadrilleRun c) s = .next (
      if m.ctx ≠ 0 then (s.began c).refuseOpen c NOT_OWNER
      else if graphAt s (fld (m.w 3) 3 0) = [] then (s.began c).badWord c 3
      else if s.quad.running.isSome ∨ (s.poseSession ∧ ((graphAt s (fld (m.w 3) 3 0)).any fun q =>
          q.kind == 2 || !heldBack (graphAt s (fld (m.w 3) 3 0)) q || decide (s.poolSize q.kind < engineCount q.kind)) = true) then
        (s.began c).refuseOpen c BUSY
      else { s.began c with quad := { s.quad with running := some (fld (m.w 3) 3 0, c), results := [] } }) := by
  change execQuadrilleRun c s = _
  rw [execQuadrilleRun, onCmd_runs _ h]
  rfl

/-- The graph has a node for which a pose session leaves nothing: the stereo engine, a second engine of a kind, or a pool that is not whole. -/
theorem any_notBesidePose {s : State} {g : List QNode} :
    (g.any fun q => q.kind == 2 || !heldBack g q || decide (s.poolSize q.kind < engineCount q.kind)) = true ↔
      ∃ q ∈ g, q.kind = 2 ∨ heldBack g q = false ∨ s.poolSize q.kind < engineCount q.kind := by
  simp [or_assoc]

/-- No unit of a stream starts an engine that the running graph holds (R41). -/
theorem engineFree_of_running {s : State} {slot : Nat} {c : CmdRef} {q : QNode} (hr : s.quad.running = some (slot, c)) (hq : q ∈ graphAt s slot) :
    s.engineFree q.kind q.instance_ = false := by
  have hheld : s.quadHolds q.kind q.instance_ = true := by
    simp only [State.quadHolds, hr, Option.any_some, List.any_eq_true, Bool.and_eq_true, beq_iff_eq]
    exact ⟨q, hq, rfl, rfl⟩
  simp [State.engineFree, hheld]

/-- A node's result without a check failure (Table 7-11): 1 passed, 2 CRC mismatch. -/
def nodeResult (q : QNode) (out : List Byte) : Nat := if q.check = true ∧ crc32 out ≠ q.crc then 2 else 1

/-- The state after a node without a check failure, before the graph ends. -/
def nodeRecorded (s : State) (slot i : Nat) (out : List Byte) (q : QNode) : State :=
  { s.spend 16 with quad := { s.quad with
      results := Tab.put s.quad.results i (nodeResult q out)
      mem := if 8 ≤ slot ∧ false = false then putBytes s.quad.mem q.outAddr out else s.quad.mem } }

/-- QUADRILLE_NODE of the ready node of lowest index: its result is recorded, and with no node ready the graph ends (R322). -/
theorem exec_quadrilleNode {s : State} {slot i : Nat} {c : CmdRef} {out : List Byte} {q : QNode} (hr : s.quad.running = some (slot, c))
    (hi : ((List.range (graphAt s slot).length).find? fun i => nodeReady (graphAt s slot) s.quad.results i) = some i)
    (hq : (graphAt s slot)[i]? = some q) (hpool : s.poolOk 16 = true)
    (hpose : s.poseSession = true → q.kind ≠ 2 ∧ heldBack (graphAt s slot) q = true) :
    exec (.quadrilleNode i out false) s = .next (
      if ((List.range (graphAt s slot).length).any fun j => nodeReady (graphAt s slot) (Tab.put s.quad.results i (nodeResult q out)) j) = true
      then nodeRecorded s slot i out q else (nodeRecorded s slot i out q).endGraph slot c (graphAt s slot)) := by
  have hget : (graphAt s slot).getD i {} = q := by rw [List.getD_eq_getElem?_getD, hq, Option.getD_some]
  have hallowed : (!s.poseSession || (q.kind != 2 && heldBack (graphAt s slot) q)) = true := by
    cases hp : s.poseSession with
    | false => rfl
    | true => simp [hpose hp]
  change execQuadrilleNode i out false s = _
  unfold execQuadrilleNode
  rw [hr]
  dsimp only
  rw [hget, onTrigger_fires _ _ (by rw [hi, hpool, hallowed]; simp)]
  rfl

/-- Whether a graph failed, as QUADRILLE_DONE and the reply give it: 1 where a node did not pass (R322). -/
def graphFailed (g : List QNode) (res : Tab Nat) : Nat := if ((List.range g.length).any fun i => decide (2 ≤ Tab.getD res i 0)) then 1 else 0

/-- QUADRILLE_DONE of a graph (R322). -/
def quadrilleDone (s : State) (slot : Nat) (g : List QNode) : Event :=
  { code := 0x8506, detail := BitVec.ofNat 16 (slot * 256 + graphFailed g s.quad.results), time := s.devTime }

/-- No graph runs any more, and QUADRILLE_DONE is raised. -/
def graphEnded (s : State) (slot : Nat) (g : List QNode) : State :=
  { s with quad := { s.quad with running := none } }.raiseEvent (quadrilleDone s slot g)

/-- The end of a graph whose command is gone: QUADRILLE_DONE alone. -/
theorem endGraph_gone {s : State} {slot : Nat} {c : CmdRef} {g : List QNode} (h : s.findCmd c = none) :
    s.endGraph slot c g = graphEnded s slot g := by
  have hgone : (graphEnded s slot g).findCmd c = none := h
  change (match (graphEnded s slot g).findCmd c with | some m => _ | none => graphEnded s slot g) = _
  rw [hgone]

/-- The end of a graph whose command waits: QUADRILLE_DONE, and the command's answer. -/
theorem endGraph_found {s : State} {slot : Nat} {c : CmdRef} {g : List QNode} {m : Cmd} (h : s.findCmd c = some m) :
    s.endGraph slot c g = (graphEnded s slot g).doneOut m 4 ((List.range g.length).map fun i => BitVec.ofNat 8 (Tab.getD s.quad.results i 0))
      [w32 (graphFailed g s.quad.results), w32 s.quad.results.length] := by
  have hfound : (graphEnded s slot g).findCmd c = some m := h
  change (match (graphEnded s slot g).findCmd c with | some m => (graphEnded s slot g).doneOut m 4 _ _ | none => graphEnded s slot g) = _
  rw [hfound]
  rfl

/-- Output data and the end of the command they belong to (R651): what is answered, and that only host memory and the command change. -/
theorem doneOut_spec {s : State} {c : CmdRef} {m : Cmd} (i : Nat) (b : List Byte) (body : List Word) (h : s.findCmd c = some m) :
    (s.doneOut m i b body).answered c (if b.length ≤ m.sgTotal i then OK else OK_PARTIAL) 0 body ∧ otherCmds s (s.doneOut m i b body) c ∧
      s.doneOut m i b body = { s with cmds := (s.doneOut m i b body).cmds, hostMem := (s.doneOut m i b body).hostMem } := by
  obtain ⟨hout, -⟩ := sgOut_fst m i b s
  have hcmds : (sgOut m i b s).1.cmds = s.cmds := by rw [hout]
  unfold State.doneOut
  rw [State.findCmd_ref h]
  refine ⟨State.answered_done _ 0 body _ ?_, ?_, ?_⟩
  · rw [State.findCmd_congr hcmds, h]; rfl
  · intro d hd
    rw [otherCmds_done _ c _ _ _ _ d hd, State.findCmd_congr hcmds]
  · dsimp only
    rw [State.done_eq]
    rw [hout]

/-- ENGINE_RECOVERY_GRAPH of an engine outside its pool and not retired. -/
theorem exec_engineRecoveryGraph {s : State} {kind inst : Nat} (passed : Bool) (hi : inst < engineCount kind)
    (ho : (s.engineAt (kind * 16 + inst)).out = true) (hr : (s.engineAt (kind * 16 + inst)).retired = false)
    (hp : kind = 2 → s.poseSession = false) (hon : s.life.main ≠ .off) :
    exec (.engineRecoveryGraph kind inst passed) s = .next (
      if passed then (s.updEngine (kind * 16 + inst) fun e => { e with out := false }).raise 0x8505 (kind * 4096 + inst * 256)
      else s.retireEngine kind inst) := by
  have hpose : (kind != 2 || !s.poseSession) = true := by
    by_cases hk : kind = 2
    · simp [hk, hp hk]
    · simp [hk]
  change execEngineRecoveryGraph kind inst passed s = _
  rw [execEngineRecoveryGraph, onTrigger_fires]
  simp [hi, ho, hr, hpose, State.mainOn, hon]

/-- A retired engine is out of its pool for good; the others stay (R320). -/
theorem engineAt_retireEngine (s : State) (kind inst k : Nat) : (s.retireEngine kind inst).engineAt k =
    if k = kind * 16 + inst then { s.engineAt (kind * 16 + inst) with out := true, retired := true } else s.engineAt k :=
  State.engineAt_updEngine s (kind * 16 + inst) k fun e => { e with out := true, retired := true }

@[simp] theorem State.raise_engineAt (s : State) (code detail k : Nat) : (s.raise code detail).engineAt k = s.engineAt k := rfl

/-- Settles O22: the two commands by their refusals, a node by its result, the graph's end by its command, and the two ends of a recovery. -/
theorem quadrilleRunsGraphsOnPooledInstances : Obligations.QuadrilleRunsGraphsOnPooledInstances := by
  refine ⟨?notOwner, ?load, ?run, ?node, ?recovery⟩
  case notOwner =>
    intro s c m hctx
    exact ⟨fun h => by rw [exec_quadrilleLoad h, if_pos hctx], fun h => by rw [exec_quadrilleRun h, if_pos hctx]⟩
  case load =>
    intro s c m h hctx
    have hexec := exec_quadrilleLoad h
    rw [if_neg (not_not.2 hctx)] at hexec
    refine ⟨fun hslot => by rw [hexec, if_pos hslot], fun hrun hslot => by rw [hexec, if_neg (by omega), if_pos hrun], fun b hslot hrun hsg hok _ => ?_⟩
    rw [if_neg (by omega), hrun, if_neg (by decide), withSg, sgIn_began, hsg] at hexec
    obtain ⟨hans, hothers⟩ := State.done_of_began (u := storeGraph (s.began c) (fld (m.w 3) 3 0) b) OK 0 [] [] h.isSome rfl
    refine ⟨_, hexec.trans (congrArg _ (if_neg (by simp [hok]))), hans, ?_, fun j hj => ?_, hothers, rfl⟩
    · exact (Tab.get?_put ..).trans (if_pos rfl)
    · exact (Tab.get?_put ..).trans (if_neg hj)
  case run =>
    intro s c m h hctx hg
    have hexec := exec_quadrilleRun h
    rw [if_neg (not_not.2 hctx), if_neg hg] at hexec
    refine ⟨fun hidle hbeside => ?_, fun hpose hbad => ?_, fun hbusy => by rw [hexec, if_pos (.inl hbusy)]⟩
    · rw [hexec, if_neg]
      rw [any_notBesidePose]
      rintro (hrun | ⟨hpose, q, hq, hbad⟩)
      · simp [hidle] at hrun
      · obtain ⟨hkind, hheld, hwhole⟩ := hbeside hpose q hq
        rcases hbad with hk | hh | hw
        · exact hkind hk
        · simp [hheld] at hh
        · omega
    · rw [hexec, if_pos (.inr ⟨hpose, any_notBesidePose.2 hbad⟩)]
  case node =>
    intro s slot i c out q hr hi hq hpool hpose
    refine ⟨engineFree_of_running hr (List.mem_of_getElem? hq), ?_⟩
    rintro res rfl
    have hexec := exec_quadrilleNode (out := out) hr hi hq hpool hpose
    refine ⟨fun hready => ?_, fun hnone hgone => ?_, fun m hnone hfound hm => ?_⟩
    · exact ⟨_, hexec.trans (congrArg _ (if_pos hready)), rfl, rfl, rfl⟩
    · have hgone' : (nodeRecorded s slot i out q).findCmd c = none := hgone
      refine ⟨_, quadrilleDone (nodeRecorded s slot i out q) slot (graphAt s slot),
        hexec.trans (congrArg _ (if_neg (by rw [nodeResult, hnone]; decide))), ?_⟩
      rw [endGraph_gone hgone']
      exact ⟨rfl, rfl, rfl, rfl, rfl, rfl⟩
    · have hfound' : (nodeRecorded s slot i out q).findCmd c = some m := hfound
      obtain ⟨hans, hothers, hframe⟩ := doneOut_spec (s := graphEnded (nodeRecorded s slot i out q) slot (graphAt s slot)) 4
        ((List.range (graphAt s slot).length).map fun k => BitVec.ofNat 8 (Tab.getD (nodeRecorded s slot i out q).quad.results k 0))
        [w32 (graphFailed (graphAt s slot) (nodeRecorded s slot i out q).quad.results), w32 (nodeRecorded s slot i out q).quad.results.length] hfound'
      rw [List.length_map, List.length_range] at hans
      refine ⟨_, quadrilleDone (nodeRecorded s slot i out q) slot (graphAt s slot),
        hexec.trans (congrArg _ (if_neg (by rw [nodeResult, hnone]; decide))), ?_⟩
      rw [endGraph_found hfound']
      refine ⟨?_, ?_, ?_, rfl, hans, hothers, ?_, ?_, ?_⟩ <;> rw [hframe] <;> rfl
  case recovery =>
    intro s kind inst hi ho hr hp hon
    refine ⟨⟨_, { code := 0x8505, detail := BitVec.ofNat 16 (kind * 4096 + inst * 256), time := s.devTime },
        (exec_engineRecoveryGraph true hi ho hr hp hon).trans (congrArg _ (if_pos rfl)), ?_⟩,
      ⟨_, { code := 0x8504, detail := BitVec.ofNat 16 (kind * 4096 + inst * 256 + 2), time := s.devTime },
        (exec_engineRecoveryGraph false hi ho hr hp hon).trans (congrArg _ (if_neg Bool.false_ne_true)), ?_⟩⟩
    · refine ⟨?_, fun j hj => ?_, rfl, rfl, rfl⟩
      · rw [State.raise_engineAt, State.engineAt_updEngine, if_pos rfl]
      · rw [State.raise_engineAt, State.engineAt_updEngine, if_neg hj]
    · refine ⟨?_, ?_, fun j hj => ?_, rfl, rfl, ?_, rfl⟩
      · rw [engineAt_retireEngine, if_pos rfl]
      · rw [engineAt_retireEngine, if_pos rfl]
      · rw [engineAt_retireEngine, if_neg hj]
      · simp only [fld, BitVec.toNat_ofNat]
        omega

end Sys2Proof.Machine

/-! ## Repairs: tile repair, lane substitution, rollback -/

namespace Sys2Proof.Machine

/-! ### Bands and what an update leaves -/

theorem State.updBand_eq (s : State) (n : Nat) (f : BandS → BandS) : s.updBand n f = { s with bands := (s.updBand n f).bands } := by
  unfold State.updBand
  split <;> rfl

/-- An allocated band takes its update. -/
theorem State.bandAt_updBand_self {s : State} {n : Nat} (f : BandS → BandS) (h : Tab.has s.bands n = true) :
    (s.updBand n f).bandAt n = f (s.bandAt n) := by
  obtain ⟨x, hx⟩ := Tab.has_eq_true.1 h
  simp only [State.bandAt, Tab.getD, State.get?_updBand, if_pos, hx, Option.map_some, Option.getD_some]

theorem State.bandAt_updBand_other (s : State) {n k : Nat} (f : BandS → BandS) (h : k ≠ n) : (s.updBand n f).bandAt k = s.bandAt k := by
  simp only [State.bandAt, Tab.getD, State.get?_updBand, if_neg h]

theorem State.has_updBand (s : State) (n k : Nat) (f : BandS → BandS) : Tab.has (s.updBand n f).bands k = Tab.has s.bands k := by
  simp only [Tab.has, State.get?_updBand]
  split
  case isTrue h => rw [h, Option.isSome_map]
  case isFalse => rfl

/-- An update that leaves the tile list leaves it in every band. -/
theorem State.tiles_updBand (s : State) (n k : Nat) {f : BandS → BandS} (hf : ∀ x, (f x).tiles = x.tiles) :
    ((s.updBand n f).bandAt k).tiles = (s.bandAt k).tiles := by
  simp only [State.bandAt, Tab.getD, State.get?_updBand]
  split
  case isTrue h =>
    subst h
    cases Tab.get? s.bands k with
    | none => rfl
    | some x => exact hf x
  case isFalse => rfl

/-- The position written reads as the value written. -/
theorem getElem?_setAt_self {α : Type} (d : α) (l : List α) (i : Nat) (x : α) : (setAt d l i x)[i]? = some x := by
  have hi : i < max l.length (i + 1) := by omega
  simp [setAt, hi]

/-- Where the ledger has room, an entry is appended with its times. -/
theorem State.ledger_age {s : State} (e : LedgerEntry) (h : s.age.ledger.length < 16384) :
    (s.ledger e).age.ledger = s.age.ledger ++ [{ e with opTime := s.opTime, deviceTime := s.devTime }] := by
  simp only [State.ledger, if_pos h]
  rfl

/-! ### What each step of a recovery changes -/

theorem State.recoveryStart_eq (s : State) (id : Nat) : s.recoveryStart id = { s with power := (s.recoveryStart id).power } := by
  unfold State.recoveryStart
  split <;> rfl

/-- The end of a recovery settles its draw and may raise BALLAST_SPENT (R747). -/
theorem State.recoveryEnd_spec (s : State) (id : Nat) :
    ∃ l, (s.recoveryEnd id).events = s.events ++ l ∧
      s.recoveryEnd id = { s with power := (s.recoveryEnd id).power, events := (s.recoveryEnd id).events, tether := (s.recoveryEnd id).tether } := by
  unfold State.recoveryEnd
  split
  · exact ⟨[_], rfl, rfl⟩
  · exact ⟨[], (List.append_nil _).symm, rfl⟩

theorem State.updPair_eq (s : State) (n : Nat) (f : PairS → PairS) : s.updPair n f = { s with pairs := (s.updPair n f).pairs } := by
  unfold State.updPair
  split <;> rfl

theorem State.needsCopy_eq (s : State) (b : Nat) : s.needsCopy b = { s with pairs := (s.needsCopy b).pairs } := by
  unfold State.needsCopy
  split
  · exact s.updPair_eq _ _
  · rfl

theorem State.copyMade_eq (s : State) (b : Nat) : s.copyMade b = { s with pairs := (s.copyMade b).pairs } := by
  unfold State.copyMade
  split
  · exact s.updPair_eq _ _
  · rfl

theorem State.resumeBand_eq (s : State) (b : Nat) : s.resumeBand b = { s with bands := (s.resumeBand b).bands } := by
  unfold State.resumeBand
  split
  · rfl
  · exact s.updBand_eq _ _

/-- A band that goes on, or waits for another recovery, changes only whether it stands and what it counted. -/
theorem State.bandAt_resumeBand_self (s : State) (b : Nat) :
    ∃ st l, (s.resumeBand b).bandAt b = { s.bandAt b with stopped := st, fails := l } := by
  unfold State.resumeBand
  split
  · exact ⟨_, _, rfl⟩
  · simp only [State.bandAt, Tab.getD, State.get?_updBand, if_pos]
    cases Tab.get? s.bands b with
    | none => exact ⟨_, _, rfl⟩
    | some x => exact ⟨_, _, rfl⟩

/-! ### A repair begins -/

/-- `t` is `s` with a repair further on: repairs keep all but their replacement, pairs may change, events are only added. -/
structure RepairGoesOn (s t : State) : Prop where
  state : t = { s with dep := t.dep, pairs := t.pairs, events := t.events, tether := t.tether }
  events : s.events <+: t.events
  repairs : ∀ k r, Tab.get? s.dep.repairs k = some r → ∃ x, Tab.get? t.dep.repairs k = some { r with replacement := x }

theorem RepairGoesOn.refl (s : State) : RepairGoesOn s s := ⟨rfl, List.prefix_rfl, fun _ r h => ⟨r.replacement, h⟩⟩

theorem RepairGoesOn.trans {s t u : State} (h : RepairGoesOn s t) (k : RepairGoesOn t u) : RepairGoesOn s u where
  state := by rw [k.state, h.state]
  events := h.events.trans k.events
  repairs n r hr := by
    obtain ⟨x, hx⟩ := h.repairs n r hr
    obtain ⟨y, hy⟩ := k.repairs n _ hx
    exact ⟨y, hy⟩

theorem RepairGoesOn.pairs (s : State) (p : Tab PairS) : RepairGoesOn s { s with pairs := p } :=
  ⟨rfl, List.prefix_rfl, fun _ r h => ⟨r.replacement, h⟩⟩

theorem RepairGoesOn.raiseEvent (s : State) (e : Event) : RepairGoesOn s (s.raiseEvent e) :=
  ⟨rfl, List.prefix_append .., fun _ r h => ⟨r.replacement, h⟩⟩

theorem RepairGoesOn.needsCopy (s : State) (b : Nat) : RepairGoesOn s (s.needsCopy b) := by
  rw [s.needsCopy_eq b]
  exact .pairs s _

theorem RepairGoesOn.partnerCarries (s : State) (b : Nat) : RepairGoesOn s (s.partnerCarries b) := by
  unfold State.partnerCarries
  split
  case h_1 n p _ =>
    split
    · exact .refl s
    · have hpair := s.updPair_eq n fun p' => { p' with state := 1, carrier := some (p.other b) }
      rw [State.pairState, hpair]
      exact (RepairGoesOn.pairs s _).trans (.raiseEvent _ _)
  case h_2 => exact .refl s

theorem RepairGoesOn.assignReplacement (s : State) (t : Nat) : RepairGoesOn s (s.assignReplacement t) := by
  unfold State.assignReplacement
  split
  case h_1 x _ =>
    refine ⟨rfl, List.prefix_rfl, fun k r hr => ?_⟩
    simp only [State.mapDep_dep, Tab.get?_upd]
    split
    case isTrue hk => subst hk; exact ⟨some x, by simp only [Tab.getD, hr, Option.getD_some]⟩
    case isFalse => exact ⟨r.replacement, hr⟩
  case h_2 => exact .raiseEvent s _

/-- The repair that `tileRepair` enters for tile `t`. -/
def newRepair (s : State) (b logical cause : Nat) : RepairS := { band := b, cause := cause, start := s.time.ticks, logical := logical }

/-- The state in which a tile's repair has begun and its replacement is to be chosen. -/
def repairBegun (s : State) (b logical cause t : Nat) : State :=
  (((((s.updTile t fun x => { x with state := 3 }).ledger { kind := 3, subject := t }).mapDep fun d =>
    { d with repairs := Tab.put d.repairs t (newRepair s b logical cause), subst := Tab.del d.subst t }).updBand b fun x =>
      { x with stopped := true }).recoveryStart (recTile t))

theorem repairBegun_eq (s : State) (b logical cause t : Nat) : repairBegun s b logical cause t =
    { s with tiles := Tab.upd s.tiles t {} fun x => { x with state := 3 }, age := (repairBegun s b logical cause t).age,
             dep := { s.dep with repairs := Tab.put s.dep.repairs t (newRepair s b logical cause), subst := Tab.del s.dep.subst t },
             bands := (s.updBand b fun x => { x with stopped := true }).bands, power := (repairBegun s b logical cause t).power } := by
  unfold repairBegun
  rw [State.recoveryStart_eq, State.updBand_eq, State.updBand_bands, State.updBand_bands]
  rfl

/-- The event a repair begins with and its number of the replacement (Table 18-7). -/
def repairEvent (s : State) (cause t : Nat) : Event :=
  { code := 0x8C01, time := s.devTime,
    detail := BitVec.ofNat 16 (t * 1024 + ((Tab.getD s.dep.repairs t {}).replacement).getD (Config.openVal 12 t % 64) * 16 + cause) }

/-- A tile that is not in repair goes to repair. -/
theorem tileRepair_begins {s : State} {b logical cause t : Nat} (ht : (s.bandAt b).tiles.getD logical 0 = t) (h : Tab.get? s.dep.repairs t = none) :
    s.tileRepair b logical cause =
      (let u := ((repairBegun s b logical cause t).needsCopy b).assignReplacement t
       (u.raiseEvent (repairEvent u cause t)).partnerCarries b) := by
  unfold State.tileRepair
  simp only [ht, h]
  rfl

/-- The state in which a repair has lost its replacement. -/
def replacementRetired (s : State) (t x : Nat) : State :=
  ((s.updTile x fun y => { y with state := 2 }).ledger { kind := 3, subject := x }).mapDep fun d =>
    { d with repairs := Tab.upd d.repairs t {} fun y => { y with replacement := none } }

theorem tileRepair_retires {s : State} {b logical cause t x : Nat} {r : RepairS} (ht : (s.bandAt b).tiles.getD logical 0 = t)
    (h : Tab.get? s.dep.repairs t = some r) (hx : r.replacement = some x) :
    s.tileRepair b logical cause = ((replacementRetired s t x).needsCopy b).assignReplacement t := by
  unfold State.tileRepair
  simp only [ht, h, hx]
  rfl

theorem tileRepair_waits {s : State} {b logical cause t : Nat} {r : RepairS} (ht : (s.bandAt b).tiles.getD logical 0 = t)
    (h : Tab.get? s.dep.repairs t = some r) (hx : r.replacement = none) : s.tileRepair b logical cause = s := by
  unfold State.tileRepair
  simp only [ht, h, hx]

/-- STEP_TIMEOUT of a band that runs hands the tile to repair with cause 3 (R789). -/
theorem exec_stepTimeout {s : State} {b tile : Nat} (hb : Tab.has s.bands b = true) (ht : tile < (s.bandAt b).tiles.length)
    (hh : (s.bandAt b).halted = false) : exec (.stepTimeout b tile) s = .next (s.tileRepair b tile 3) := by
  change execStepTimeout b tile s = _
  rw [execStepTimeout, onTrigger_fires]
  simp only [hb, ht, hh, decide_true, Bool.and_self, Bool.not_false]

/-! ### A repair or a rollback ends -/

/-- `t` is `s` with the recovery of band `b` further on: every tile keeps its state and its place, every other band stays. -/
structure RecoveryGoesOn (b : Nat) (s t : State) : Prop where
  state : t = { s with tiles := t.tiles, bands := t.bands, pairs := t.pairs, power := t.power, events := t.events, tether := t.tether,
                       epoch := t.epoch, rvs := t.rvs }
  tile : ∀ k, (t.tileAt k).state = (s.tileAt k).state ∧ (t.tileAt k).band = (s.tileAt k).band ∧ (t.tileAt k).logical = (s.tileAt k).logical
  bands : ∀ k, k ≠ b → t.bandAt k = s.bandAt k
  own : (t.bandAt b).tiles = (s.bandAt b).tiles
  has : Tab.has t.bands b = Tab.has s.bands b
  events : s.events <+: t.events

section RecoveryGoesOn

variable {b : Nat}

theorem RecoveryGoesOn.refl (s : State) : RecoveryGoesOn b s s := ⟨rfl, fun _ => ⟨rfl, rfl, rfl⟩, fun _ _ => rfl, rfl, rfl, List.prefix_rfl⟩

theorem RecoveryGoesOn.trans {s t u : State} (h : RecoveryGoesOn b s t) (k : RecoveryGoesOn b t u) : RecoveryGoesOn b s u where
  state := by rw [k.state, h.state]
  tile n := by
    obtain ⟨h1, h2, h3⟩ := h.tile n
    obtain ⟨k1, k2, k3⟩ := k.tile n
    exact ⟨k1.trans h1, k2.trans h2, k3.trans h3⟩
  bands n hn := (k.bands n hn).trans (h.bands n hn)
  own := k.own.trans h.own
  has := k.has.trans h.has
  events := h.events.trans k.events

theorem RecoveryGoesOn.raiseEvent (s : State) (e : Event) : RecoveryGoesOn b s (s.raiseEvent e) :=
  ⟨rfl, fun _ => ⟨rfl, rfl, rfl⟩, fun _ _ => rfl, rfl, rfl, List.prefix_append ..⟩

/-- An update of the band itself that leaves its tile list. -/
theorem RecoveryGoesOn.updBand (s : State) {f : BandS → BandS} (hf : ∀ x, (f x).tiles = x.tiles) : RecoveryGoesOn b s (s.updBand b f) where
  state := by rw [s.updBand_eq b f]
  tile k := by rw [s.updBand_eq b f]; exact ⟨rfl, rfl, rfl⟩
  bands _ hk := s.bandAt_updBand_other f hk
  own := s.tiles_updBand b b hf
  has := s.has_updBand b b f
  events := by rw [s.updBand_eq b f]

theorem RecoveryGoesOn.recoveryEnd (s : State) (id : Nat) : RecoveryGoesOn b s (s.recoveryEnd id) := by
  obtain ⟨l, hevents, hstate⟩ := s.recoveryEnd_spec id
  exact ⟨by rw [hstate], fun _ => by rw [hstate]; exact ⟨rfl, rfl, rfl⟩, fun _ _ => by rw [hstate]; rfl, by rw [hstate]; rfl, by rw [hstate],
    ⟨l, hevents.symm⟩⟩

theorem RecoveryGoesOn.copyMade (s : State) : RecoveryGoesOn b s (s.copyMade b) := by
  rw [s.copyMade_eq b]
  exact ⟨rfl, fun _ => ⟨rfl, rfl, rfl⟩, fun _ _ => rfl, rfl, rfl, List.prefix_rfl⟩

theorem RecoveryGoesOn.resumeBand (s : State) : RecoveryGoesOn b s (s.resumeBand b) := by
  unfold State.resumeBand
  split
  · exact .refl s
  · exact .updBand s fun _ => rfl

end RecoveryGoesOn

/-! ### The restore of a band -/

/-- A tile as the restore of epoch `e` leaves it: its contents are open, its place stays. -/
def restoredTile (e t : Nat) (x : TileS) : TileS := { x.scratch e with restored := true, arith := BitVec.ofNat 5 (Config.openVal 13 (e * 64 + t)) }

/-- A band as its restore leaves it. -/
def BandS.restarted (x : BandS) (pc : Nat) : BandS :=
  { x with pc := pc, segment := pc, stretched := 0, overrunRaised := false, delay := none, loops := [], inflight := [], moves := [], stall := false,
           ckptTiles := [] }

/-- The tiles of a restored band, in the restore's epoch. -/
def tilesRestored (s : State) (b : Nat) : State :=
  forEach (s.bandAt b).tiles (fun t s' => s'.updTile t (restoredTile (s.epoch + 1) t)) { s with epoch := s.epoch + 1 }

theorem State.restoreCheckpoint_def (s : State) (b : Nat) :
    s.restoreCheckpoint b = (tilesRestored s b).updBand b fun x => x.restarted (s.bandAt b).restorePc := rfl

theorem tilesRestored_eq (s : State) (b : Nat) : tilesRestored s b = { s with epoch := s.epoch + 1, tiles := (tilesRestored s b).tiles } :=
  forEach_keeps (P := fun t => t = { s with epoch := s.epoch + 1, tiles := t.tiles }) _ _ (fun x _ u hu => by rw [hu]; rfl) rfl

/-- The restore leaves every tile's state, band and logical index. -/
theorem tileAt_tilesRestored (s : State) (b k : Nat) :
    ((tilesRestored s b).tileAt k).state = (s.tileAt k).state ∧ ((tilesRestored s b).tileAt k).band = (s.tileAt k).band ∧
      ((tilesRestored s b).tileAt k).logical = (s.tileAt k).logical := by
  refine forEach_keeps (P := fun u => (u.tileAt k).state = (s.tileAt k).state ∧ (u.tileAt k).band = (s.tileAt k).band ∧
    (u.tileAt k).logical = (s.tileAt k).logical) _ _ (fun x _ u hu => ?_) ⟨rfl, rfl, rfl⟩
  simp only [State.tileAt_updTile]
  split
  case isTrue h => subst h; exact hu
  case isFalse => exact hu

/-- The restore leaves the tiles of other bands. -/
theorem tileAt_tilesRestored_other (s : State) {b k : Nat} (hk : k ∉ (s.bandAt b).tiles) : (tilesRestored s b).tileAt k = s.tileAt k := by
  refine forEach_keeps (P := fun u => u.tileAt k = s.tileAt k) _ _ (fun x hx u hu => ?_) rfl
  have hkx : k ≠ x := fun h => hk (h ▸ hx)
  rw [State.tileAt_updTile, if_neg hkx, hu]

theorem RecoveryGoesOn.restoreCheckpoint (s : State) (b : Nat) : RecoveryGoesOn b s (s.restoreCheckpoint b) := by
  rw [State.restoreCheckpoint_def]
  refine RecoveryGoesOn.trans (t := tilesRestored s b) ⟨?_, tileAt_tilesRestored s b, ?_, ?_, ?_, ?_⟩ (.updBand _ fun _ => rfl) <;>
    rw [tilesRestored_eq s b]
  case refine_2 => exact fun _ _ => rfl
  case refine_3 => rfl

/-! ### The firmware's rendezvous -/

/-- The rendezvous of one band with the firmware stores its members and that the band met there last. -/
theorem State.meetFirmware_one (s : State) (rv b : Nat) : s.meetFirmware rv [b] =
    ({ s with rvs := Tab.upd s.rvs rv {} fun r => { members := [b], counts := Tab.upd r.counts b 0 (· + 1) } }).updBand b
      fun x => { x with lastRv := rv } := rfl

theorem RecoveryGoesOn.meetFirmware (s : State) (rv b : Nat) : RecoveryGoesOn b s (s.meetFirmware rv [b]) := by
  rw [State.meetFirmware_one]
  refine RecoveryGoesOn.trans ?_ (.updBand _ fun _ => rfl)
  exact ⟨rfl, fun _ => ⟨rfl, rfl, rfl⟩, fun _ _ => rfl, rfl, rfl, List.prefix_rfl⟩

theorem State.bandAt_meetFirmware {s : State} (rv : Nat) {b : Nat} (h : Tab.has s.bands b = true) :
    (s.meetFirmware rv [b]).bandAt b = { s.bandAt b with lastRv := rv } := by
  rw [State.meetFirmware_one]
  exact State.bandAt_updBand_self (s := { s with rvs := _ }) _ h

theorem State.get?_rvs_meetFirmware (s : State) {rv k : Nat} (b : Nat) (h : k ≠ rv) :
    Tab.get? (s.meetFirmware rv [b]).rvs k = Tab.get? s.rvs k := by
  rw [State.meetFirmware_one, State.updBand_rvs, Tab.get?_upd, if_neg h]

/-! ### The five rows -/

/-- A tile that does not acknowledge goes to repair, and its band stops (R789, R989). -/
theorem tileRepair_spec {s : State} {b logical cause t : Nat} (hb : Tab.has s.bands b = true)
    (ht : (s.bandAt b).tiles.getD logical 0 = t) (h : Tab.get? s.dep.repairs t = none) :
    ∃ v r e, s.tileRepair b logical cause = v ∧ Tab.get? v.dep.repairs t = some r ∧ r.band = b ∧ r.logical = logical ∧ r.cause = cause ∧
      r.start = s.time.ticks ∧ (v.tileAt t).state = 3 ∧ (v.bandAt b).stopped = true ∧ e ∈ v.events ∧ e.code = 0x8C01 ∧ e.time = s.devTime ∧
      (∀ k, k ≠ t → v.tileAt k = s.tileAt k) ∧ (∀ k, k ≠ b → v.bandAt k = s.bandAt k) ∧
      v = { s with tiles := v.tiles, bands := v.bands, pairs := v.pairs, dep := v.dep, age := v.age, power := v.power, events := v.events,
                   tether := v.tether } := by
  have hbegin := repairBegun_eq s b logical cause t
  have hchosen : RepairGoesOn (repairBegun s b logical cause t) (((repairBegun s b logical cause t).needsCopy b).assignReplacement t) :=
    (RepairGoesOn.needsCopy _ b).trans (.assignReplacement _ t)
  rw [tileRepair_begins ht h]
  generalize hu : ((repairBegun s b logical cause t).needsCopy b).assignReplacement t = u at hchosen ⊢
  have hcarries := RepairGoesOn.partnerCarries (u.raiseEvent (repairEvent u cause t)) b
  have hall := hchosen.trans ((RepairGoesOn.raiseEvent u (repairEvent u cause t)).trans hcarries)
  simp only
  generalize (u.raiseEvent (repairEvent u cause t)).partnerCarries b = v at hcarries hall ⊢
  obtain ⟨x, hrepair⟩ := hall.repairs t (newRepair s b logical cause) (by rw [hbegin]; simp [Tab.get?_put])
  have hstate := hall.state
  rw [hbegin] at hstate
  have htiles : v.tiles = Tab.upd s.tiles t {} fun x => { x with state := 3 } := by rw [hstate]
  have hbands : v.bands = (s.updBand b fun x => { x with stopped := true }).bands := by rw [hstate]
  have htileAt : ∀ k, v.tileAt k = (s.updTile t fun x => { x with state := 3 }).tileAt k := fun k => by simp only [State.tileAt, htiles]; rfl
  have hbandAt : ∀ k, v.bandAt k = (s.updBand b fun x => { x with stopped := true }).bandAt k := fun k => by simp only [State.bandAt, hbands]
  refine ⟨v, _, repairEvent u cause t, rfl, hrepair, rfl, rfl, rfl, rfl, ?tile, ?band, hcarries.events.mem (by simp [State.raiseEvent]), rfl, ?time,
    ?otherTiles, ?otherBands, ?frame⟩
  case tile => rw [htileAt, State.tileAt_updTile, if_pos rfl]
  case band => rw [hbandAt, State.bandAt_updBand_self _ hb]
  case time =>
    have htime : u.time = s.time := by rw [hchosen.state, hbegin]
    simp only [repairEvent, State.devTime, State.devNs, htime]
  case otherTiles => intro k hk; rw [htileAt, State.tileAt_updTile, if_neg hk]
  case otherBands => intro k hk; rw [hbandAt, State.bandAt_updBand_other _ _ hk]
  case frame => rw [hstate]

/-- A fault of the chosen replacement retires it, and another is looked for (R795). -/
theorem tileRepair_again {s : State} {b logical cause t x : Nat} {r : RepairS} (ht : (s.bandAt b).tiles.getD logical 0 = t)
    (h : Tab.get? s.dep.repairs t = some r) (hx : r.replacement = some x) (hroom : s.age.ledger.length < 16384) :
    ∃ v d, s.tileRepair b logical cause = v ∧ (v.tileAt x).state = 2 ∧ v.age.ledger = s.age.ledger ++ [d] ∧ d.kind = 3 ∧ d.subject = x ∧
      (Tab.get? v.dep.repairs t).isSome = true ∧ (∀ k, k ≠ x → v.tileAt k = s.tileAt k) ∧ v.bands = s.bands ∧
      v = { s with tiles := v.tiles, pairs := v.pairs, dep := v.dep, age := v.age, events := v.events, tether := v.tether } := by
  rw [tileRepair_retires ht h hx]
  have hall : RepairGoesOn (replacementRetired s t x) (((replacementRetired s t x).needsCopy b).assignReplacement t) :=
    (RepairGoesOn.needsCopy _ b).trans (.assignReplacement _ t)
  generalize ((replacementRetired s t x).needsCopy b).assignReplacement t = v at hall ⊢
  have hrepair : Tab.get? (replacementRetired s t x).dep.repairs t = some { r with replacement := none } := by
    refine (Tab.get?_upd s.dep.repairs t t {} fun y => { y with replacement := none }).trans ?_
    rw [if_pos rfl, Tab.getD, h, Option.getD_some]
  obtain ⟨y, hy⟩ := hall.repairs t _ hrepair
  have hstate := hall.state
  have htiles : v.tiles = (s.updTile x fun y => { y with state := 2 }).tiles := by rw [hstate]; rfl
  have htileAt : ∀ k, v.tileAt k = (s.updTile x fun y => { y with state := 2 }).tileAt k := fun k => by simp only [State.tileAt, htiles]
  refine ⟨v, { kind := 3, subject := x, opTime := s.opTime, deviceTime := s.devTime }, rfl, ?tile, ?ledger, rfl, rfl, by rw [hy]; rfl, ?others, by rw [hstate]; rfl, by rw [hstate]; rfl⟩
  case tile => rw [htileAt, State.tileAt_updTile, if_pos rfl]
  case ledger =>
    rw [hstate]
    exact State.ledger_age (s := s.updTile x fun y => { y with state := 2 }) { kind := 3, subject := x } hroom
  case others => intro k hk; rw [htileAt, State.tileAt_updTile, if_neg hk]

/-- The state in which a substitution has retired its lane and reported it. -/
def laneRetired (s : State) (tile lane : Nat) : State :=
  (((s.updTile tile fun t => { t with retired := t.retired ++ [lane] }).mapDep fun d =>
    { d with subst := Tab.del d.subst tile, retiredLanes := d.retiredLanes + 1 }).raise 0x8C00 (tile * 1024 + lane)).ledger
      { kind := 2, subject := tile, subject2 := lane }

/-- The band of the substituted tile goes on; a tile without a band has none. -/
def bandOfTileGoesOn (tile : Nat) (s : State) : State :=
  match (s.tileAt tile).band with
  | some b => s.resumeBand b
  | none => s

theorem bandOfTileGoesOn_eq (tile : Nat) (s : State) : bandOfTileGoesOn tile s = { s with bands := (bandOfTileGoesOn tile s).bands } := by
  unfold bandOfTileGoesOn
  split
  · exact s.resumeBand_eq _
  · rfl

theorem exec_laneSubstitutionDone {s : State} {tile lane since : Nat} (h : Tab.get? s.dep.subst tile = some (lane, since)) :
    exec (.laneSubstitutionDone tile) s = .next (bandOfTileGoesOn tile ((laneRetired s tile lane).recoveryEnd (recLane tile))) := by
  change execLaneSubstitutionDone tile s = _
  simp only [execLaneSubstitutionDone, h, bandOfTileGoesOn]
  split <;> rename_i hband <;> (unfold laneRetired; rw [hband])

/-- A substitution retires its lane, reports it and appends its ledger entry (R785, R786). -/
theorem laneRetired_spec {s : State} (tile lane : Nat) (hroom : s.age.ledger.length < 16384) :
    ∃ e d, (laneRetired s tile lane).events = s.events ++ [e] ∧ e.code = 0x8C00 ∧ e.detail = BitVec.ofNat 16 (tile * 1024 + lane) ∧
      (laneRetired s tile lane).age.ledger = s.age.ledger ++ [d] ∧ d.kind = 2 ∧ d.subject = tile ∧ d.subject2 = lane := by
  refine ⟨{ code := 0x8C00, detail := BitVec.ofNat 16 (tile * 1024 + lane), time := s.devTime },
    { kind := 2, subject := tile, subject2 := lane, opTime := s.opTime, deviceTime := s.devTime }, rfl, rfl, rfl, ?_, rfl, rfl, rfl⟩
  exact State.ledger_age (s := ((s.updTile tile fun t => { t with retired := t.retired ++ [lane] }).mapDep fun d =>
    { d with subst := Tab.del d.subst tile, retiredLanes := d.retiredLanes + 1 }).raise 0x8C00 (tile * 1024 + lane))
    { kind := 2, subject := tile, subject2 := lane } hroom

/-- The end of a substitution changes bands, power and events after the lane is retired. -/
theorem substitutionEnds (s : State) (tile lane : Nat) :
    ∃ v l, bandOfTileGoesOn tile ((laneRetired s tile lane).recoveryEnd (recLane tile)) = v ∧
      v.events = (laneRetired s tile lane).events ++ l ∧
      v = { laneRetired s tile lane with bands := v.bands, power := v.power, events := v.events, tether := v.tether } := by
  obtain ⟨l, hevents, hend⟩ := (laneRetired s tile lane).recoveryEnd_spec (recLane tile)
  generalize (laneRetired s tile lane).recoveryEnd (recLane tile) = u at hevents hend ⊢
  have hband := bandOfTileGoesOn_eq tile u
  refine ⟨_, l, rfl, ?_, ?_⟩
  · rw [hband]; exact hevents
  · generalize bandOfTileGoesOn tile u = v at hband ⊢
    rw [hband, hend]

/-- The state in which the replacement `x` has taken the place of the failed tile. -/
def placeTaken (s : State) (tile x : Nat) (r : RepairS) : State :=
  ((((({ s with epoch := s.epoch + 1 } : State).updTile x fun t =>
    { t.scratch (s.epoch + 1) with state := 0, band := some r.band, logical := r.logical, slice := (s.tileAt tile).slice }).updTile tile fun t =>
      { t with state := 2, band := none }).updBand r.band fun y => { y with tiles := setAt 0 y.tiles r.logical x }).mapDep fun d =>
        { d with repairs := Tab.del d.repairs tile })

theorem placeTaken_eq (s : State) (tile x : Nat) (r : RepairS) : placeTaken s tile x r =
    { s with epoch := s.epoch + 1, tiles := (placeTaken s tile x r).tiles,
             bands := (s.updBand r.band fun y => { y with tiles := setAt 0 y.tiles r.logical x }).bands,
             dep := { s.dep with repairs := Tab.del s.dep.repairs tile } } := by
  unfold placeTaken
  rw [State.updBand_eq, State.updBand_bands, State.updBand_bands]
  rfl

theorem tileAt_placeTaken (s : State) {tile x : Nat} (r : RepairS) (hne : x ≠ tile) :
    ((placeTaken s tile x r).tileAt tile).state = 2 ∧ ((placeTaken s tile x r).tileAt tile).band = none ∧
      ((placeTaken s tile x r).tileAt x).state = 0 ∧ ((placeTaken s tile x r).tileAt x).band = some r.band ∧
      ((placeTaken s tile x r).tileAt x).logical = r.logical := by
  have htiles : ∀ k, (placeTaken s tile x r).tileAt k = ((({ s with epoch := s.epoch + 1 } : State).updTile x fun t =>
      { t.scratch (s.epoch + 1) with state := 0, band := some r.band, logical := r.logical, slice := (s.tileAt tile).slice }).updTile tile fun t =>
        { t with state := 2, band := none }).tileAt k := fun k => by simp only [State.tileAt, placeTaken, State.mapDep_tiles, State.updBand_tiles]
  simp only [htiles, State.tileAt_updTile, if_pos, if_neg hne, and_self]

/-- What follows once the place is taken: the half's report, the restore, the report of the repair, and the band goes on. -/
def repairEnds (b : BandS) (tile x : Nat) (r : RepairS) (s : State) : State :=
  let s1 := if b.isPair ∧ eastTile x ≠ decide (b.role = 3) then s.raiseCtx b.ctx 0x8904 (r.band * 4096 + x) else s
  let s2 := if b.isPair then s1 else s1.restoreCheckpoint r.band
  let s3 := (s2.raise 0x8C02 (x * 1024 + min 255 (s2.since r.start / msTicks 1))).recoveryEnd (recTile tile)
  ((s3.meetFirmware (56 + r.band % 4) [r.band]).copyMade r.band).resumeBand r.band

theorem exec_tileRepairDone {s : State} {tile x : Nat} {r : RepairS} (h : Tab.get? s.dep.repairs tile = some r) (hx : r.replacement = some x)
    (hfin : s.mayFinish r.band = true) :
    exec (.tileRepairDone tile) s = .next (repairEnds (s.bandAt r.band) tile x r (placeTaken s tile x r)) := by
  change execTileRepairDone tile s = _
  simp only [execTileRepairDone, h, hx]
  rw [onTrigger_fires _ _ hfin]
  rfl

/-- The report of a half without a free tile, for a pair band (R480). -/
theorem RecoveryGoesOn.half {b : Nat} {s : State} (p : Prop) [Decidable p] (n code detail : Nat) :
    RecoveryGoesOn b s (if p then s.raiseCtx n code detail else s) := by
  split
  · exact .raiseEvent s _
  · exact .refl s

/-- Once the place is taken, the rest of the repair keeps every tile's place, raises TILE_REPAIRED and ends at the rendezvous. -/
theorem repairEnds_spec (b : BandS) (tile x : Nat) (r : RepairS) (s : State) :
    RecoveryGoesOn r.band s (repairEnds b tile x r s) ∧ (∃ e ∈ (repairEnds b tile x r s).events, e.code = 0x8C02) ∧
      (Tab.has s.bands r.band = true → ((repairEnds b tile x r s).bandAt r.band).lastRv = 56 + r.band % 4) := by
  unfold repairEnds
  have hhalf : RecoveryGoesOn r.band s (if b.isPair ∧ eastTile x ≠ decide (b.role = 3) then s.raiseCtx b.ctx 0x8904 (r.band * 4096 + x) else s) :=
    .half ..
  extract_lets s1 s2 s3
  have h2 : RecoveryGoesOn r.band s1 s2 := by
    unfold s2
    split
    · exact .refl s1
    · exact .restoreCheckpoint s1 r.band
  have hraise : RecoveryGoesOn r.band s2 (s2.raise 0x8C02 (x * 1024 + min 255 (s2.since r.start / msTicks 1))) := .raiseEvent s2 _
  have h3 : RecoveryGoesOn r.band (s2.raise 0x8C02 (x * 1024 + min 255 (s2.since r.start / msTicks 1))) s3 := .recoveryEnd _ _
  have hmeet : RecoveryGoesOn r.band s3 _ := .meetFirmware s3 (56 + r.band % 4) r.band
  have hcopy : RecoveryGoesOn r.band (s3.meetFirmware (56 + r.band % 4) [r.band]) _ := .copyMade _
  have hresume : RecoveryGoesOn r.band ((s3.meetFirmware (56 + r.band % 4) [r.band]).copyMade r.band) _ := .resumeBand _
  have hto3 := (hhalf.trans h2).trans (hraise.trans h3)
  obtain ⟨e, he, hcode⟩ : ∃ e ∈ (s2.raise 0x8C02 (x * 1024 + min 255 (s2.since r.start / msTicks 1))).events, e.code = 0x8C02 :=
    ⟨_, List.mem_append_right _ (List.mem_singleton_self _), rfl⟩
  refine ⟨hto3.trans (hmeet.trans (hcopy.trans hresume)), ⟨e, (h3.trans (hmeet.trans (hcopy.trans hresume))).events.mem he, hcode⟩, fun hb => ?_⟩
  obtain ⟨st, l, hself⟩ := ((s3.meetFirmware (56 + r.band % 4) [r.band]).copyMade r.band).bandAt_resumeBand_self r.band
  rw [hself, State.copyMade_eq]
  exact congrArg BandS.lastRv (State.bandAt_meetFirmware _ (hto3.has.trans hb))

/-- CHECKPOINT_ROLLBACK of the only rollback under way (Table 19-3). -/
theorem exec_checkpointRollback {s : State} {b : Nat} (h : s.dep.rollbacks = [b]) : exec (.checkpointRollback b) s =
    .next (((({ s with dep := { s.dep with rollbacks := [] } } : State).meetFirmware (56 + b % 4) [b]).restoreCheckpoint b).resumeBand b) := by
  change execCheckpointRollback b s = _
  rw [execCheckpointRollback, onTrigger_fires _ _ (by simp [h])]
  have hrest : s.dep.rollbacks.filter (· != b) = [] := by simp [h]
  simp only [State.mapDep, hrest]

/-- The band a rollback restarts: it met the firmware, restored its checkpoint and goes on. -/
def rolledBack (s : State) (rv b : Nat) : State := ((s.meetFirmware rv [b]).restoreCheckpoint b).resumeBand b

theorem restoredMet_eq (s : State) (rv b : Nat) : (s.meetFirmware rv [b]).restoreCheckpoint b =
    { s with tiles := ((s.meetFirmware rv [b]).restoreCheckpoint b).tiles, bands := ((s.meetFirmware rv [b]).restoreCheckpoint b).bands,
             epoch := ((s.meetFirmware rv [b]).restoreCheckpoint b).epoch, rvs := (s.meetFirmware rv [b]).rvs } := by
  rw [State.restoreCheckpoint_def, State.updBand_eq (tilesRestored _ b), tilesRestored_eq, State.meetFirmware_one, State.updBand_eq _ b]

theorem rolledBack_eq (s : State) (rv b : Nat) : rolledBack s rv b =
    { s with tiles := ((s.meetFirmware rv [b]).restoreCheckpoint b).tiles, bands := (rolledBack s rv b).bands,
             epoch := ((s.meetFirmware rv [b]).restoreCheckpoint b).epoch, rvs := (s.meetFirmware rv [b]).rvs } := by
  rw [rolledBack, State.resumeBand_eq, restoredMet_eq]

theorem rolledBack_goesOn (s : State) (rv b : Nat) : RecoveryGoesOn b s (rolledBack s rv b) :=
  (RecoveryGoesOn.meetFirmware s rv b).trans ((RecoveryGoesOn.restoreCheckpoint _ b).trans (.resumeBand _))

/-- A rollback restarts the band where its restore resumes. -/
theorem bandAt_restoredMet {s : State} (rv : Nat) {b : Nat} (hb : Tab.has s.bands b = true) :
    ((s.meetFirmware rv [b]).restoreCheckpoint b).bandAt b = ({ s.bandAt b with lastRv := rv } : BandS).restarted (s.bandAt b).restorePc := by
  have hmet := State.bandAt_meetFirmware rv hb
  have hhas := (RecoveryGoesOn.meetFirmware s rv b).has.trans hb
  generalize s.meetFirmware rv [b] = u at hmet hhas
  have hkept : (tilesRestored u b).bands = u.bands := by rw [tilesRestored_eq]
  have hself : (tilesRestored u b).bandAt b = u.bandAt b := by simp only [State.bandAt, hkept]
  rw [State.restoreCheckpoint_def, State.bandAt_updBand_self _ (hkept ▸ hhas), hself, hmet]
  rfl

/-- A rollback leaves the tiles of other bands. -/
theorem tileAt_rolledBack (s : State) (rv : Nat) {b k : Nat} (hk : k ∉ (s.bandAt b).tiles) : (rolledBack s rv b).tileAt k = s.tileAt k := by
  have hown : k ∉ ((s.meetFirmware rv [b]).bandAt b).tiles := (RecoveryGoesOn.meetFirmware s rv b).own ▸ hk
  have htiles : (rolledBack s rv b).tiles = (tilesRestored (s.meetFirmware rv [b]) b).tiles := by
    rw [rolledBack, State.resumeBand_eq, State.restoreCheckpoint_def, State.updBand_eq]
  calc (rolledBack s rv b).tileAt k = (tilesRestored (s.meetFirmware rv [b]) b).tileAt k := by simp only [State.tileAt, htiles]
    _ = (s.meetFirmware rv [b]).tileAt k := tileAt_tilesRestored_other _ hown
    _ = s.tileAt k := by rw [State.meetFirmware_one, State.updBand_eq]; rfl

/-- A band without a recovery left goes on. -/
theorem State.stopped_resumeBand {s : State} {b : Nat} (hb : Tab.has s.bands b = true) (h : s.inRecovery b = false) :
    ((s.resumeBand b).bandAt b).stopped = false := by
  rw [State.resumeBand, h, if_neg Bool.false_ne_true, State.bandAt_updBand_self _ hb]

/-- With no repair, rollback, substitution and pair, no band is in a recovery. -/
theorem State.inRecovery_idle {s : State} (b : Nat) (hrep : s.dep.repairs = []) (hroll : s.dep.rollbacks = []) (hsub : s.dep.subst = [])
    (hpairs : s.pairs = []) : s.inRecovery b = false := by
  simp [State.inRecovery, State.pairOf, hrep, hroll, hsub, hpairs]

/-- Settles O46: each row by its lemma above. -/
theorem repairsReplaceLanesTilesAndState : Obligations.RepairsReplaceLanesTilesAndState := by
  refine ⟨?timeout, ?again, ?lane, ?repair, ?rollback⟩
  case timeout =>
    intro s bn tile hb ht hh hnone
    obtain ⟨v, r, e, hv, hspec⟩ := tileRepair_spec (cause := 3) hb rfl hnone
    exact ⟨v, r, e, by rw [exec_stepTimeout hb ht hh, hv], hspec⟩
  case again =>
    intro s bn tile x k r hb ht hh hk hr
    refine ⟨fun hnone => ?_, fun hx hroom => ?_⟩
    · rw [exec_stepTimeout hb ht hh, tileRepair_waits hk.symm hr hnone]
    · obtain ⟨v, d, hv, hspec⟩ := tileRepair_again (cause := 3) hk.symm hr hx hroom
      exact ⟨v, d, by rw [exec_stepTimeout hb ht hh, hv], hspec⟩
  case lane =>
    intro s tile lane since hsub hroom
    obtain ⟨e, d, hevent, hcode, hdetail, hledger, hkind, hsubject, hsubject2⟩ := laneRetired_spec tile lane hroom
    obtain ⟨v, l, hv, hgrow, hframe⟩ := substitutionEnds s tile lane
    have htileAt : ∀ k, v.tileAt k = (s.updTile tile fun t => { t with retired := t.retired ++ [lane] }).tileAt k := fun k => by rw [hframe]; rfl
    refine ⟨v, e, l, d, by rw [exec_laneSubstitutionDone hsub, hv], ?tile, ?ended, by rw [hframe]; rfl, by simp [hgrow, hevent], hcode, hdetail,
      by rw [hframe]; exact hledger, hkind, hsubject, hsubject2, ?others, by rw [hframe]; rfl⟩
    case tile => rw [htileAt, State.tileAt_updTile, if_pos rfl]
    case ended =>
      have hdep : v.dep.subst = Tab.del s.dep.subst tile := by rw [hframe]; rfl
      rw [hdep, Tab.get?_del, if_pos rfl]
    case others => intro k hk; rw [htileAt, State.tileAt_updTile, if_neg hk]
  case repair =>
    intro s tile x r hr hx hne hfin hb hplace
    obtain ⟨hends, hevent, hrv⟩ := repairEnds_spec (s.bandAt r.band) tile x r (placeTaken s tile x r)
    have hexec := exec_tileRepairDone hr hx hfin
    have hplaced := placeTaken_eq s tile x r
    have hbands : (placeTaken s tile x r).bands = (s.updBand r.band fun y => { y with tiles := setAt 0 y.tiles r.logical x }).bands := by rw [hplaced]
    have hbandAt : ∀ k, (placeTaken s tile x r).bandAt k = (s.updBand r.band fun y => { y with tiles := setAt 0 y.tiles r.logical x }).bandAt k :=
      fun k => by simp only [State.bandAt, hbands]
    obtain ⟨hstate, hband, hstateX, hbandX, hlogicalX⟩ := tileAt_placeTaken s r hne
    generalize repairEnds (s.bandAt r.band) tile x r (placeTaken s tile x r) = v at hends hevent hrv hexec
    have hv := hends.state
    obtain ⟨hsame, hsameBand, -⟩ := hends.tile tile
    obtain ⟨hsameX, hsameBandX, hsameLogicalX⟩ := hends.tile x
    refine ⟨v, hexec, hsame.trans hstate, hsameBand.trans hband, hsameX.trans hstateX, hsameBandX.trans hbandX, hsameLogicalX.trans hlogicalX,
      ?place, ?ended, hevent, ?others, hrv ?has, ?frame⟩
    case place => rw [hends.own, hbandAt, State.bandAt_updBand_self _ hb]; exact getElem?_setAt_self ..
    case ended => rw [hv, hplaced]; exact (Tab.get?_del ..).trans (if_pos rfl)
    case others => intro k hk; rw [hends.bands k hk, hbandAt, State.bandAt_updBand_other _ _ hk]
    case has => rw [hbands, State.has_updBand, hb]
    case frame => rw [hv, hplaced]
  case rollback =>
    intro s bn hroll hb
    have hexec := exec_checkpointRollback hroll
    generalize hs0 : ({ s with dep := { s.dep with rollbacks := [] } } : State) = s0 at hexec
    have hbandAt : ∀ k, s0.bandAt k = s.bandAt k := fun k => by rw [← hs0]; rfl
    have htileAt : ∀ k, s0.tileAt k = s.tileAt k := fun k => by rw [← hs0]; rfl
    have hb0 : Tab.has s0.bands bn = true := by rw [← hs0]; exact hb
    have hgoes := rolledBack_goesOn s0 (56 + bn % 4) bn
    have hframe := rolledBack_eq s0 (56 + bn % 4) bn
    obtain ⟨st, l, hself⟩ := ((s0.meetFirmware (56 + bn % 4) [bn]).restoreCheckpoint bn).bandAt_resumeBand_self bn
    rw [bandAt_restoredMet _ hb0, hbandAt] at hself
    change (rolledBack s0 (56 + bn % 4) bn).bandAt bn = _ at hself
    refine ⟨rolledBack s0 (56 + bn % 4) bn, hexec, ?ended, ?pc, ?segment, ?inflight, ?moves, ?goesOn, ?newest, ?bands, ?tiles, ?last, ?rvs, ?frame⟩
    case ended => rw [hframe, ← hs0]
    case pc => rw [hself]; rfl
    case segment => rw [hself]; rfl
    case inflight => rw [hself]; rfl
    case moves => rw [hself]; rfl
    case goesOn =>
      intro hrep hsub hpairs
      refine State.stopped_resumeBand ?_ (State.inRecovery_idle bn ?_ ?_ ?_ ?_)
      · exact ((RecoveryGoesOn.meetFirmware s0 _ bn).trans (.restoreCheckpoint _ bn)).has.trans hb0
      all_goals rw [restoredMet_eq, ← hs0]
      · exact hrep
      · exact hsub
      · exact hpairs
    case newest =>
      intro hvalid hnewest
      rw [hself]
      simp [BandS.restarted, BandS.restorePc, hvalid, hnewest]
    case bands => exact fun k hk => (hgoes.bands k hk).trans (hbandAt k)
    case tiles => exact fun k hk => (tileAt_rolledBack s0 _ (by rwa [hbandAt])).trans (htileAt k)
    case last => rw [hself]; rfl
    case rvs => intro k hk; rw [hframe, ← hs0]; exact State.get?_rvs_meetFirmware _ bn hk
    case frame => rw [hframe, ← hs0]

end Sys2Proof.Machine

/-! ## Objects: copies, moves and Promenade's queue -/

namespace Sys2Proof.Machine

/-! ### The objects of the module -/

theorem State.get?_of_objOf {s : State} {id : Word} {k : Nat} {o : ObjS} (h : s.objOf id = some (k, o)) : Tab.get? s.objs k = some o := by
  unfold State.objOf at h
  split at h
  case h_1 x hx =>
    split at h
    case isTrue =>
      obtain ⟨rfl, rfl⟩ := Prod.mk.inj (Option.some.inj h)
      exact hx
    case isFalse => cases h
  case h_2 => cases h

theorem State.updObj_eq (s : State) (k : Nat) (f : ObjS → ObjS) : s.updObj k f = { s with objs := (s.updObj k f).objs } := by
  unfold State.updObj
  split <;> rfl

theorem State.get?_updObj_self {s : State} {k : Nat} {o : ObjS} (f : ObjS → ObjS) (h : Tab.get? s.objs k = some o) :
    Tab.get? (s.updObj k f).objs k = some (f o) := by
  rw [State.get?_updObj, if_pos rfl, h, Option.map_some]

theorem State.get?_updObj_other (s : State) {k j : Nat} (f : ObjS → ObjS) (h : j ≠ k) : Tab.get? (s.updObj k f).objs j = Tab.get? s.objs j := by
  rw [State.get?_updObj, if_neg h]

theorem ObjS.copy_updCopy_self (o : ObjS) (tier : Nat) (f : CopyS → CopyS) : (o.updCopy tier f).copy tier = f (o.copy tier) :=
  Tab.getD_upd_self ..

/-- A command that names an object its sender may use continues with it (R637). -/
theorem withObj_found {m : Cmd} {s : State} {own lost : Bool} {k : Nat} {o : ObjS} (K : Nat → ObjS → State) (h : s.objOf (m.w 3) = some (k, o))
    (huse : o.owner = m.ctx ∨ (own = false ∧ bit o.share m.ctx = true)) (hav : o.unavailable = false) : withObj m s own lost K = K k o := by
  unfold withObj
  simp only [h]
  rw [if_neg, if_neg (by simp [hav])]
  rintro (hno | ⟨hown, hne⟩)
  · rcases huse with hown | ⟨-, hshare⟩
    · simp [ObjS.usable, hown] at hno
    · simp [ObjS.usable, hshare] at hno
  · rcases huse with heq | ⟨hnot, -⟩
    · exact hne heq
    · simp [hnot] at hown

/-- Setting bit `v` sets that bit alone. -/
theorem bit_setBit (x : BitVec 8) (v : Nat) {k : Nat} (hk : k < 8) : bit (x ||| BitVec.ofNat 8 (2 ^ v)) k = (bit x k || decide (k = v)) := by
  simp only [bit, BitVec.getLsbD_or, BitVec.getLsbD_ofNat, Nat.testBit_two_pow, hk, decide_true, Bool.true_and, eq_comm (a := v)]

/-! ### The queue of moves -/

/-- `t` is `s` with moves queued behind those of `s`. -/
structure Queued (s t : State) : Prop where
  state : t = { s with jobs := t.jobs, jobSeq := t.jobSeq }
  jobs : ∀ x ∈ s.jobs, x ∈ t.jobs

theorem Queued.refl (s : State) : Queued s s := ⟨rfl, fun _ h => h⟩

theorem Queued.trans {s t u : State} (h : Queued s t) (k : Queued t u) : Queued s u where
  state := by rw [k.state, h.state]
  jobs x hx := k.jobs x (h.jobs x hx)

section RequestMove

variable {j : MoveJob} (hj : ∀ u : State, u.jobLive j = true)

include hj

/-- A move that stays to be done is queued once, behind the others. -/
theorem State.requestMove_queued (s : State) (cls : Nat) : Queued s (s.requestMove cls j) := by
  unfold State.requestMove
  split
  case isTrue => exact .refl s
  case isFalse hany =>
    refine ⟨rfl, fun x hx => List.mem_append_left _ (List.mem_filter.2 ⟨hx, ?_⟩)⟩
    by_contra hne
    exact hany (List.any_eq_true.2 ⟨x, hx, by simpa [hj s] using hne⟩)

theorem State.requestMove_mem (s : State) (cls : Nat) : ∃ x ∈ (s.requestMove cls j).jobs, x.job = j := by
  unfold State.requestMove
  split
  case isTrue hany =>
    obtain ⟨x, hx, he⟩ := List.any_eq_true.1 hany
    exact ⟨x, hx, by simpa [hj s] using he⟩
  case isFalse => exact ⟨_, List.mem_append_right _ (List.mem_singleton_self _), rfl⟩

end RequestMove

section RequestAll

variable {f : Nat → MoveJob} (hf : ∀ g (u : State), u.jobLive (f g) = true)

include hf

/-- A pass that queues a move for each of a list. -/
theorem forEach_requestMove_queued (l : List Nat) (cls : Nat) (s : State) : Queued s (forEach l (fun g s => s.requestMove cls (f g)) s) :=
  forEach_keeps (P := Queued s) _ _ (fun g _ u hu => hu.trans (u.requestMove_queued (hf g) cls)) (.refl s)

theorem forEach_requestMove_mem {l : List Nat} (cls : Nat) (s : State) {g : Nat} (hg : g ∈ l) :
    ∃ x ∈ (forEach l (fun g s => s.requestMove cls (f g)) s).jobs, x.job = f g :=
  forEach_establishes (P := fun _ => True) (Q := fun u => ∃ x ∈ u.jobs, x.job = f g) l _ (fun _ _ _ _ => trivial)
    (fun y _ u _ ⟨x, hx, he⟩ => ⟨x, (u.requestMove_queued (hf y) cls).jobs x hx, he⟩) hg (fun u _ => u.requestMove_mem (hf g) cls) trivial

end RequestAll

/-- A copy's fills are queued behind the others, one for each granule that it lacks. -/
theorem State.fillCopy_spec {s : State} {k : Nat} {o : ObjS} (tier : Nat) (h : Tab.get? s.objs k = some o) :
    Queued s (s.fillCopy k tier) ∧ ∀ g, g < o.granules → g ∉ (o.copy tier).have_ → ∃ j ∈ (s.fillCopy k tier).jobs, j.job = .copyFill k tier g := by
  have hlive : ∀ g (u : State), u.jobLive (.copyFill k tier g) = true := fun _ _ => rfl
  simp only [State.fillCopy, h]
  refine ⟨forEach_requestMove_queued hlive _ _ s, fun g hg hlack => forEach_requestMove_mem hlive _ s ?_⟩
  simp [hg, hlack]

/-! ### Claims -/

/-- A copy with a context's claim added (R614), and with it dropped (R617 to R619). -/
def CopyS.claimedBy (x : CopyS) (n : Nat) : CopyS := { x with claims := x.claims ||| BitVec.ofNat 8 (2 ^ n), freeing := false }
def CopyS.leftBy (x : CopyS) (n : Nat) : CopyS :=
  let y := { x with claims := x.claims &&& ~~~ (BitVec.ofNat 8 (2 ^ n)) }
  if y.claims = 0 ∧ y.pins.all (fun p => p.2 == 0) ∧ y.modulePin = false then { y with freeing := true } else y

theorem CopyS.leftBy_eq (x : CopyS) (n : Nat) : x.leftBy n =
    { x with claims := x.claims &&& ~~~ (BitVec.ofNat 8 (2 ^ n)), freeing := (x.leftBy n).freeing } := by
  rw [CopyS.leftBy]
  split <;> rfl

/-- The freeing of a copy that nothing holds is requested in class 4 (R619). -/
def State.requestFreeing (s : State) (k tier : Nat) : State := if s.jobLive (.copyFree k tier) then s.requestMove 4 (.copyFree k tier) else s

theorem State.requestMove_eq (s : State) (cls : Nat) (j : MoveJob) :
    s.requestMove cls j = { s with jobs := (s.requestMove cls j).jobs, jobSeq := (s.requestMove cls j).jobSeq } := by
  unfold State.requestMove
  split <;> rfl

theorem State.requestFreeing_eq (s : State) (k tier : Nat) :
    s.requestFreeing k tier = { s with jobs := (s.requestFreeing k tier).jobs, jobSeq := (s.requestFreeing k tier).jobSeq } := by
  unfold State.requestFreeing
  split
  · exact s.requestMove_eq _ _
  · rfl

/-- `t` is `s` with a context's charge, one object and the queue changed. -/
structure ObjectStep (n k : Nat) (s t : State) : Prop where
  state : t = { s with ctxs := t.ctxs, objs := t.objs, jobs := t.jobs, jobSeq := t.jobSeq }
  ctxs : ∀ i, i ≠ n → t.ctxAt i = s.ctxAt i
  objs : ∀ i, i ≠ k → Tab.get? t.objs i = Tab.get? s.objs i

section ObjectStep

variable {n k : Nat}

theorem ObjectStep.refl (s : State) : ObjectStep n k s s := ⟨rfl, fun _ _ => rfl, fun _ _ => rfl⟩

theorem ObjectStep.trans {s t u : State} (h : ObjectStep n k s t) (g : ObjectStep n k t u) : ObjectStep n k s u where
  state := by rw [g.state, h.state]
  ctxs i hi := (g.ctxs i hi).trans (h.ctxs i hi)
  objs i hi := (g.objs i hi).trans (h.objs i hi)

theorem ObjectStep.of_updCtx (s : State) (f : CtxS → CtxS) : ObjectStep n k s (s.updCtx n f) :=
  ⟨rfl, fun i hi => by rw [State.ctxAt_updCtx, if_neg hi], fun _ _ => rfl⟩

theorem ObjectStep.of_updObj (s : State) (f : ObjS → ObjS) : ObjectStep n k s (s.updObj k f) :=
  ⟨by rw [s.updObj_eq k f], fun i _ => by rw [s.updObj_eq k f]; rfl, fun _ hi => s.get?_updObj_other f hi⟩

/-- A step that changes the queue alone. -/
theorem ObjectStep.of_jobs {s t : State} (h : t = { s with jobs := t.jobs, jobSeq := t.jobSeq }) : ObjectStep n k s t :=
  ⟨by rw [h], fun i _ => by rw [h]; rfl, fun i _ => by rw [h]⟩

/-- A charge of the context, where there is one. -/
theorem ObjectStep.of_chargeIf (s : State) (b : Bool) (tier g : Nat) : ObjectStep n k s (if b then s else s.charge n tier g) := by
  split
  · exact .refl s
  · exact .of_updCtx s _

theorem ObjectStep.of_creditIf (s : State) (b : Bool) (tier g : Nat) : ObjectStep n k s (if b then s.credit n tier g else s) := by
  split
  · exact .of_updCtx s _
  · exact .refl s

end ObjectStep

section Claim

variable {s : State} {k : Nat} {o : ObjS} (h : Tab.get? s.objs k = some o) (tier n : Nat)

include h

/-- The state in which the claim stands and the fills are to be queued. -/
theorem State.claim_def : s.claim k tier n =
    ((if bit (o.copy tier).claims n then s else s.charge n tier o.granules).updObj k fun o => o.updCopy tier fun x => x.claimedBy n).fillCopy k
      tier := by
  simp only [State.claim, h]
  rfl

/-- A claim charges the context, adds it to the copy and queues the granules that the copy lacks (R614, R615). -/
theorem State.claim_spec : ObjectStep n k s (s.claim k tier n) ∧
    Tab.get? (s.claim k tier n).objs k = some (o.updCopy tier fun x => x.claimedBy n) ∧
    ∀ g, g < o.granules → g ∉ (o.copy tier).have_ → ∃ j ∈ (s.claim k tier n).jobs, j.job = .copyFill k tier g := by
  rw [State.claim_def h]
  have hcharge : ObjectStep n k s (if bit (o.copy tier).claims n then s else s.charge n tier o.granules) := .of_chargeIf ..
  have hget : Tab.get? (if bit (o.copy tier).claims n then s else s.charge n tier o.granules).objs k = some o := by split <;> exact h
  generalize (if bit (o.copy tier).claims n then s else s.charge n tier o.granules) = u at hcharge hget ⊢
  have hupd := hcharge.trans (.of_updObj u fun o => o.updCopy tier fun x => x.claimedBy n)
  have hobj := State.get?_updObj_self (fun o => o.updCopy tier fun x => x.claimedBy n) hget
  generalize (u.updObj k fun o => o.updCopy tier fun x => x.claimedBy n) = v at hupd hobj ⊢
  obtain ⟨hqueued, hfills⟩ := State.fillCopy_spec tier hobj
  rw [ObjS.copy_updCopy_self] at hfills
  exact ⟨hupd.trans (.of_jobs hqueued.state), by rw [hqueued.state]; exact hobj, hfills⟩

theorem State.unclaim_def : s.unclaim k tier n =
    ((if bit (o.copy tier).claims n then s.credit n tier o.granules else s).updObj k fun o => o.updCopy tier fun x => x.leftBy n).requestFreeing
      k tier := by
  simp only [State.unclaim, h]
  rfl

/-- Dropping a claim credits the context and leaves the copy without that claim (R617). -/
theorem State.unclaim_spec : ObjectStep n k s (s.unclaim k tier n) ∧
    Tab.get? (s.unclaim k tier n).objs k = some (o.updCopy tier fun x => x.leftBy n) := by
  rw [State.unclaim_def h]
  have hcredit : ObjectStep n k s (if bit (o.copy tier).claims n then s.credit n tier o.granules else s) := .of_creditIf ..
  have hget : Tab.get? (if bit (o.copy tier).claims n then s.credit n tier o.granules else s).objs k = some o := by split <;> exact h
  generalize (if bit (o.copy tier).claims n then s.credit n tier o.granules else s) = u at hcredit hget ⊢
  have hupd := hcredit.trans (.of_updObj u fun o => o.updCopy tier fun x => x.leftBy n)
  have hobj := State.get?_updObj_self (fun o => o.updCopy tier fun x => x.leftBy n) hget
  generalize (u.updObj k fun o => o.updCopy tier fun x => x.leftBy n) = v at hupd hobj ⊢
  exact ⟨hupd.trans (.of_jobs (v.requestFreeing_eq k tier)), by rw [v.requestFreeing_eq k tier]; exact hobj⟩

end Claim

/-! ### The commands on copies -/

section CopyCommands

variable {s : State} {c : CmdRef} {m : Cmd} {k tier : Nat} {o : ObjS} (hobj : s.objOf (m.w 3) = some (k, o))
  (huse : o.owner = m.ctx ∨ bit o.share m.ctx = true) (hav : o.unavailable = false) (htier : tier = fld (m.w 4) 1 0) (h12 : tier = 1 ∨ tier = 2)

include hobj huse hav htier h12

/-- OBJ_PROMOTE of a sealed read-only object (R614, R615, R711). -/
theorem exec_objPromote (h : s.runs c 0x0A09 m) (hkind : o.kind ≠ 0) (hsealed : o.sealed_ = true) : exec (.objPromote c) s =
    .next (if bit (o.copy tier).claims m.ctx = false ∧ s.tierFits m.ctx tier o.granules = false then (s.began c).refuseOpen c NO_RESERVATION
      else if o.complete tier then ((s.began c).claim k tier m.ctx).done c
      else ((s.began c).claim k tier m.ctx).updCmd c fun x => { x with work := [k, tier, if bit (o.copy tier).claims m.ctx then 1 else 0] }) := by
  change execObjPromote c s = _
  rw [execObjPromote, onCmd_runs _ h, withObj_found (s := s.began c) (k := k) (o := o) _ hobj (huse.imp_right fun e => ⟨rfl, e⟩) hav]
  have hfield : ¬ (fld (m.w 4) 1 0 = 0 ∨ fld (m.w 4) 1 0 = 3) := by omega
  have hopen : ¬ (o.isData = true ∨ o.sealed_ = false) := by simp [ObjS.isData, hkind, hsealed]
  subst htier
  simp only [if_neg hfield, if_neg hopen]
  rfl

/-- OBJ_EVICT (R617). -/
theorem exec_objEvict (h : s.runs c 0x0A0A m) : exec (.objEvict c) s =
    .next (if 0 < Tab.getD (o.copy tier).pins m.ctx 0 then (s.began c).refuseOpen c BUSY
      else if bit (o.copy tier).claims m.ctx then ((s.began c).unclaim k tier m.ctx).done c
      else (s.began c).done c) := by
  change execObjEvict c s = _
  rw [execObjEvict, onCmd_runs _ h, withObj_found (s := s.began c) (k := k) (o := o) _ hobj (huse.imp_right fun e => ⟨rfl, e⟩) hav]
  have hfield : ¬ (fld (m.w 4) 1 0 = 0 ∨ fld (m.w 4) 1 0 = 3) := by omega
  subst htier
  simp only [if_neg hfield]

/-- OBJ_PIN (R616). -/
theorem exec_objPin (h : s.runs c 0x0A0B m) : exec (.objPin c) s =
    .next (if bit (o.copy tier).claims m.ctx = false ∨ 255 ≤ Tab.getD (o.copy tier).pins m.ctx 0 then (s.began c).badWord c 3
      else ((s.began c).updObj k fun o => o.updCopy tier fun x => { x with pins := Tab.upd x.pins m.ctx 0 (· + 1) }).done c) := by
  change execObjPin c s = _
  rw [execObjPin, onCmd_runs _ h, withObj_found (s := s.began c) (k := k) (o := o) _ hobj (huse.imp_right fun e => ⟨rfl, e⟩) hav]
  have hfield : ¬ (fld (m.w 4) 1 0 = 0 ∨ fld (m.w 4) 1 0 = 3) := by omega
  subst htier
  simp only [if_neg hfield]

/-- OBJ_UNPIN (R616). -/
theorem exec_objUnpin (h : s.runs c 0x0A0C m) : exec (.objUnpin c) s =
    .next (if Tab.getD (o.copy tier).pins m.ctx 0 = 0 then (s.began c).badWord c 3
      else ((s.began c).updObj k fun o => o.updCopy tier fun x => { x with pins := Tab.upd x.pins m.ctx 0 (· - 1) }).done c) := by
  change execObjUnpin c s = _
  rw [execObjUnpin, onCmd_runs _ h, withObj_found (s := s.began c) (k := k) (o := o) _ hobj (huse.imp_right fun e => ⟨rfl, e⟩) hav]
  have hfield : ¬ (fld (m.w 4) 1 0 = 0 ∨ fld (m.w 4) 1 0 = 3) := by omega
  subst htier
  simp only [if_neg hfield]

end CopyCommands

/-- A command that has begun and waits has no reply, and the others stay. -/
theorem State.waits_of_began {s u : State} {c : CmdRef} {op : Nat} {m : Cmd} (h : s.runs c op m) (hu : u.cmds = (s.began c).cmds) :
    u.replyOf c = none ∧ otherCmds s u c := by
  obtain ⟨hfound, hphase, -, -⟩ := h
  refine ⟨?_, fun e he => by simp [State.findCmd_congr hu, he]⟩
  simp [State.replyOf, State.findCmd_congr hu, hfound, hphase]

/-- So too once it has noted what it waits for. -/
theorem State.waits_of_updCmd {s u : State} {c : CmdRef} {op : Nat} {m : Cmd} (f : Cmd → Cmd) (h : s.runs c op m)
    (hu : u.cmds = (s.began c).cmds) (hf : ∀ x, (f x).ref = x.ref ∧ (f x).phase = x.phase) :
    (u.updCmd c f).replyOf c = none ∧ otherCmds s (u.updCmd c f) c := by
  obtain ⟨hfound, hphase, -, -⟩ := h
  have hupd : ∀ d, (u.updCmd c f).findCmd d = if d = c then (u.findCmd d).map f else u.findCmd d := fun d => u.findCmd_updCmd c d f fun x => (hf x).1
  refine ⟨?_, fun e he => by simp [hupd, State.findCmd_congr hu, he]⟩
  simp [State.replyOf, hupd, State.findCmd_congr hu, hfound, hphase, hf]

/-- The frame of a command that ends after a step on an object. -/
theorem ObjectStep.done_eq {n k : Nat} {s u : State} {c : CmdRef} (h : ObjectStep n k (s.began c) u) (st d : Nat) (b : List Word) (out : List Byte) :
    u.done c st d b out = { s with cmds := (u.done c st d b out).cmds, ctxs := u.ctxs, objs := u.objs, jobs := u.jobs, jobSeq := u.jobSeq } := by
  rw [h.state]
  rfl

theorem ObjectStep.cmds {n k : Nat} {s u : State} (h : ObjectStep n k s u) : u.cmds = s.cmds := by rw [h.state]

/-- An update of the one object that a command names, and its end (R616). -/
theorem updObj_done_spec {s : State} {c : CmdRef} {op : Nat} {m : Cmd} {k : Nat} {o : ObjS} (f : ObjS → ObjS) (h : s.runs c op m)
    (hget : Tab.get? s.objs k = some o) :
    (((s.began c).updObj k f).done c).answered c OK 0 [] ∧ Tab.get? (((s.began c).updObj k f).done c).objs k = some (f o) ∧
      (∀ j, j ≠ k → Tab.get? (((s.began c).updObj k f).done c).objs j = Tab.get? s.objs j) ∧ otherCmds s (((s.began c).updObj k f).done c) c ∧
      ((s.began c).updObj k f).done c = { s with cmds := (((s.began c).updObj k f).done c).cmds, objs := (((s.began c).updObj k f).done c).objs } := by
  have hupd := (s.began c).updObj_eq k f
  have hself : Tab.get? ((s.began c).updObj k f).objs k = some (f o) := State.get?_updObj_self f hget
  have hothers : ∀ j, j ≠ k → Tab.get? ((s.began c).updObj k f).objs j = Tab.get? s.objs j := fun j hj => (s.began c).get?_updObj_other f hj
  generalize (s.began c).updObj k f = u at hupd hself hothers ⊢
  obtain ⟨hans, hcmds⟩ := State.done_of_began (u := u) OK 0 [] [] h.isSome (by rw [hupd])
  exact ⟨hans, hself, hothers, hcmds, by rw [hupd]; rfl⟩

end Sys2Proof.Machine

/-! ## Promenade: the order of moves and what a granule's move does -/

namespace Sys2Proof.Machine

/-! ### The move that is served next -/

section SortBy

variable {α : Type} {lt : α → α → Bool}

theorem mem_insertBy {x y : α} {l : List α} : y ∈ insertBy lt x l ↔ y = x ∨ y ∈ l := by
  induction l with
  | nil => simp [insertBy]
  | cons z l ih =>
    unfold insertBy
    split
    · simp
    · simp only [List.mem_cons, ih]; tauto

/-- Sorting keeps what is listed. -/
theorem mem_sortBy {y : α} {l : List α} : y ∈ sortBy lt l ↔ y ∈ l := by
  suffices key : ∀ acc : List α, y ∈ l.foldl (fun acc x => insertBy lt x acc) acc ↔ y ∈ acc ∨ y ∈ l by simpa [sortBy] using key []
  induction l with
  | nil => simp
  | cons x l ih => intro acc; simp only [List.foldl_cons, ih, mem_insertBy, List.mem_cons]; tauto

variable (hasymm : ∀ a b, lt a b = true → lt b a = false) (htrans : ∀ a b c, lt b a = false → lt c b = false → lt c a = false)

include hasymm htrans

/-- Insertion keeps a list in order. -/
theorem insertBy_pairwise {x : α} {l : List α} (h : l.Pairwise fun a b => lt b a = false) : (insertBy lt x l).Pairwise fun a b => lt b a = false := by
  induction l with
  | nil => simp [insertBy]
  | cons y l ih =>
    obtain ⟨hy, hl⟩ := List.pairwise_cons.1 h
    unfold insertBy
    split
    case isTrue hxy =>
      refine List.pairwise_cons.2 ⟨fun z hz => ?_, h⟩
      rcases List.mem_cons.1 hz with rfl | hz
      · exact hasymm x z hxy
      · exact htrans x y z (hasymm x y hxy) (hy z hz)
    case isFalse hxy =>
      refine List.pairwise_cons.2 ⟨fun z hz => ?_, ih hl⟩
      rcases mem_insertBy.1 hz with rfl | hz
      · simpa using hxy
      · exact hy z hz

theorem sortBy_pairwise (l : List α) : (sortBy lt l).Pairwise fun a b => lt b a = false := by
  suffices key : ∀ acc : List α, (acc.Pairwise fun a b => lt b a = false) →
      (l.foldl (fun acc x => insertBy lt x acc) acc).Pairwise fun a b => lt b a = false from key [] .nil
  induction l with
  | nil => exact fun acc h => h
  | cons x l ih => exact fun acc h => ih _ (insertBy_pairwise hasymm htrans h)

/-- The first of a sorted list has none before it. -/
theorem head?_sortBy_least {l : List α} {x y : α} (h : (sortBy lt l).head? = some x) (hy : y ∈ l) : y = x ∨ lt y x = false := by
  obtain ⟨t, ht⟩ := List.head?_eq_some_iff.1 h
  have hsorted := sortBy_pairwise hasymm htrans l
  rw [ht] at hsorted
  have hmem : y ∈ x :: t := ht ▸ mem_sortBy.2 hy
  rcases List.mem_cons.1 hmem with rfl | hyt
  · exact .inl rfl
  · exact .inr ((List.pairwise_cons.1 hsorted).1 y hyt)

end SortBy

/-- Promenade serves the lowest class, then the first requested, of the moves that are still to be done (R44). -/
theorem State.nextJob_least {s : State} {j : MoveReq} (h : s.nextJob = some j) :
    j ∈ s.jobs ∧ ∀ x ∈ s.jobs, s.jobLive x.job = true → j.class_ ≤ x.class_ ∧ (x.class_ = j.class_ → j.seq ≤ x.seq) := by
  refine ⟨(List.mem_filter.1 (mem_sortBy.1 (List.mem_of_mem_head? h))).1, fun x hx hlive => ?_⟩
  have hleast := head?_sortBy_least (lt := fun a b : MoveReq => decide (a.class_ < b.class_ ∨ (a.class_ = b.class_ ∧ a.seq < b.seq)))
    (by simp only [decide_eq_true_eq, decide_eq_false_iff_not]; omega) (by simp only [decide_eq_false_iff_not]; omega) h
    (List.mem_filter.2 ⟨hx, hlive⟩)
  rcases hleast with rfl | hleast
  · exact ⟨le_rfl, fun _ => le_rfl⟩
  · simp only [decide_eq_false_iff_not] at hleast
    omega

/-! ### What the move of a granule keeps -/

/-- `t` follows `s` once a granule has moved or could not be read: clocks, host memory and the counts of errors stay, and so do the moves that
wait, where `b` says so. -/
structure MoveServed (b : Bool) (s t : State) : Prop where
  time : t.time = s.time
  hostMem : t.hostMem = s.hostMem
  corrected : t.dep.corrected = s.dep.corrected
  uncorrectable : t.dep.uncorrectable = s.dep.uncorrectable
  jobs : b = true → t.jobs = s.jobs

section MoveServed

variable {b : Bool}

theorem MoveServed.refl (s : State) : MoveServed b s s := ⟨rfl, rfl, rfl, rfl, fun _ => rfl⟩

theorem MoveServed.trans {s t u : State} (h : MoveServed b s t) (k : MoveServed b t u) : MoveServed b s u :=
  ⟨k.time.trans h.time, k.hostMem.trans h.hostMem, k.corrected.trans h.corrected, k.uncorrectable.trans h.uncorrectable,
    fun hb => (k.jobs hb).trans (h.jobs hb)⟩

/-- With the queue kept, so without. -/
theorem MoveServed.weaken {s t : State} (h : MoveServed true s t) : MoveServed b s t :=
  ⟨h.time, h.hostMem, h.corrected, h.uncorrectable, fun _ => h.jobs rfl⟩

theorem MoveServed.updCtx (s : State) (n : Nat) (f : CtxS → CtxS) : MoveServed b s (s.updCtx n f) := ⟨rfl, rfl, rfl, rfl, fun _ => rfl⟩
theorem MoveServed.updCmd (s : State) (c : CmdRef) (f : Cmd → Cmd) : MoveServed b s (s.updCmd c f) := ⟨rfl, rfl, rfl, rfl, fun _ => rfl⟩
theorem MoveServed.done (s : State) (c : CmdRef) (st : Nat) : MoveServed b s (s.done c st) := ⟨rfl, rfl, rfl, rfl, fun _ => rfl⟩
theorem MoveServed.refuseOpen (s : State) (c : CmdRef) (st : Nat) : MoveServed b s (s.refuseOpen c st) := ⟨rfl, rfl, rfl, rfl, fun _ => rfl⟩
theorem MoveServed.raiseEvent (s : State) (e : Event) : MoveServed b s (s.raiseEvent e) := ⟨rfl, rfl, rfl, rfl, fun _ => rfl⟩
theorem MoveServed.ofJobs (s : State) (l : List MoveReq) (q : Nat) : MoveServed false s { s with jobs := l, jobSeq := q } :=
  ⟨rfl, rfl, rfl, rfl, nofun⟩

theorem MoveServed.updObj (s : State) (k : Nat) (f : ObjS → ObjS) : MoveServed b s (s.updObj k f) := by
  rw [s.updObj_eq k f]; exact ⟨rfl, rfl, rfl, rfl, fun _ => rfl⟩

theorem MoveServed.updSession (s : State) (n : Nat) (f : SessionS → SessionS) : MoveServed b s (s.updSession n f) := by
  rw [s.updSession_eq n f]; exact ⟨rfl, rfl, rfl, rfl, fun _ => rfl⟩

theorem MoveServed.requestMove (s : State) (cls : Nat) (j : MoveJob) : MoveServed false s (s.requestMove cls j) := by
  rw [s.requestMove_eq cls j]; exact .ofJobs s _ _

/-- A region taken of the reserve changes the reserve alone (R816, R817). -/
theorem MoveServed.takeRegion (s : State) : MoveServed b s s.takeRegion := by
  unfold State.takeRegion
  split
  · exact ⟨rfl, rfl, rfl, rfl, fun _ => rfl⟩
  · extract_lets u
    have hu : MoveServed b s u := ⟨rfl, rfl, rfl, rfl, fun _ => rfl⟩
    split
    · exact hu.trans (.raiseEvent u _)
    · exact hu

theorem MoveServed.featMoved (s : State) (map : Nat) (kf : Word) (host : Bool) : MoveServed b s (s.featMoved map kf host) := by
  unfold State.featMoved
  extract_lets m
  split
  case h_1 f _ =>
    split
    · exact .refl s
    · have hmap : ∀ g : MapS → MapS, MoveServed b s (s.updMap map g) := fun g => by
        unfold State.updMap
        split
        · exact ⟨rfl, rfl, rfl, rfl, fun _ => rfl⟩
        · exact .refl s
      exact (hmap _).trans (.updCtx _ _ _)
  case h_2 => exact .refl s

/-- A pass that ends commands. -/
theorem MoveServed.forEach {α : Type} (l : List α) (f : α → State → State) (hf : ∀ x u, MoveServed b u (f x u)) (s : State) :
    MoveServed b s (Machine.forEach l f s) :=
  forEach_keeps (P := MoveServed b s) l f (fun x _ u hu => hu.trans (hf x u)) (.refl s)

theorem MoveServed.jobDone (s : State) (j : MoveJob) : MoveServed true s (s.jobDone j) := by
  unfold State.jobDone
  split
  case h_1 k g =>
    split
    case h_1 o ho =>
      split
      case h_1 tier l c back hmove =>
        extract_lets l' u
        have hu : MoveServed true s u := .updCtx s _ _
        split
        · exact hu.trans ((MoveServed.updObj u _ _).trans (.done _ _ _))
        · exact hu.trans (.updObj u _ _)
      case h_2 => exact .refl s
    case h_2 => exact .refl s
  case h_2 k g =>
    split
    case h_1 o ho =>
      split
      case h_1 tier l c back hmove =>
        extract_lets l' u st
        have hu : MoveServed true s u := .updCtx s _ _
        split
        · exact hu.trans ((MoveServed.updCtx u _ _).trans ((MoveServed.updObj _ _ _).trans (.refuseOpen _ _ _)))
        · exact hu.trans (.updObj u _ _)
      case h_2 => exact .refl s
    case h_2 => exact .refl s
  case h_3 k tier g =>
    extract_lets u
    have hu : MoveServed true s u := .updObj s _ _
    split
    case h_1 o ho =>
      split
      · refine hu.trans (.forEach _ _ (fun m v => ?_) u)
        split
        · exact .done v _ _
        · exact .refl v
      · exact hu
    case h_2 => exact hu
  case h_4 => exact .featMoved s _ _ _
  case h_5 => exact .featMoved s _ _ _
  case h_6 => exact (MoveServed.takeRegion s).trans ⟨rfl, rfl, rfl, rfl, fun _ => rfl⟩
  all_goals exact .refl s

theorem MoveServed.refreshLost (n : Nat) (s : State) : MoveServed b s (refreshLost n s) := .updSession s _ _

theorem MoveServed.loseObj (s : State) (k : Nat) : MoveServed false s (s.loseObj k) := by
  unfold State.loseObj
  split
  case h_1 o _ =>
    split
    · exact .refl s
    · extract_lets s1 s2 s3 s4
      have h1 : MoveServed false s s1 := .updObj s _ _
      have h3 : MoveServed false s1 s3 := (MoveServed.raiseEvent s1 _).trans (.ofJobs _ _ _)
      have h4 : MoveServed false s3 s4 := by
        refine .forEach _ _ (fun m v => ?_) s3
        split
        · exact .refuseOpen v _ _
        · exact .refl v
      have h := h1.trans (h3.trans h4)
      split
      · exact h.trans (.forEach _ _ (fun n v => .refreshLost n v) s4)
      · exact h
  case h_2 => exact .refl s

theorem MoveServed.homeFails (s : State) (k g : Nat) : MoveServed false s (s.homeFails k g) := by
  unfold State.homeFails
  split
  case h_1 o _ =>
    extract_lets u
    have hu : MoveServed false s u := .updObj s _ _
    split
    · exact hu.trans ((MoveServed.updObj u _ _).trans (.raiseEvent _ _))
    · exact hu.trans (.loseObj u k)
  case h_2 => exact .refl s

theorem MoveServed.moveBackObj (s : State) (k st : Nat) : MoveServed false s (s.moveBackObj k st) := by
  unfold State.moveBackObj
  split
  case h_1 o _ =>
    split
    case h_1 tier l c _ =>
      extract_lets u v
      have hu : MoveServed false s u := .ofJobs s _ _
      split
      · exact hu.trans ((MoveServed.updCtx u _ _).trans ((MoveServed.updObj _ _ _).trans (.refuseOpen _ _ _)))
      · have hv : MoveServed false u v := (MoveServed.updCmd u _ _).trans (.updObj _ _ _)
        exact hu.trans (hv.trans (.forEach _ _ (fun g w => .requestMove w _ _) v))
    case h_2 => exact .refl s
  case h_2 => exact .refl s

theorem MoveServed.jobFails (s : State) (j : MoveJob) : MoveServed false s (s.jobFails j) := by
  unfold State.jobFails
  split
  case h_1 k g =>
    split
    case h_1 o _ =>
      extract_lets u
      have hu : MoveServed false s u := (MoveServed.updObj s _ _).trans (.raiseEvent _ _)
      exact hu.trans (.moveBackObj u k _)
    case h_2 => exact .refl s
  case h_2 k g =>
    split
    case h_1 o _ => exact (MoveServed.updObj s _ _).trans ((MoveServed.raiseEvent _ _).trans (MoveServed.jobDone _ _).weaken)
    case h_2 => exact .refl s
  case h_3 k tier g =>
    split
    case h_1 o _ =>
      split
      · exact (MoveServed.takeRegion s).trans ((MoveServed.raiseEvent _ _).trans (MoveServed.jobDone _ _).weaken)
      · exact .homeFails s k g
    case h_2 => exact .refl s
  case h_4 => exact (MoveServed.jobDone s _).weaken

end MoveServed

end Sys2Proof.Machine

/-! ## Copies and moves: the obligation -/

namespace Sys2Proof.Machine

/-! ### OBJ_MOVE -/

section ObjMove

variable {s : State} {c : CmdRef} {m : Cmd} {k tier : Nat} {o : ObjS} (h : s.runs c 0x0A08 m) (hobj : s.objOf (m.w 3) = some (k, o))
  (hown : o.owner = m.ctx) (hav : o.unavailable = false)

/-- The move begins: the object is charged to the target and its granules are queued (R601). -/
def moveBegun (s : State) (c : CmdRef) (k tier : Nat) (o : ObjS) : State :=
  forEach (List.range o.granules) (fun g s => s.requestMove o.class_ (.objMove k g))
    ((s.charge o.owner tier o.granules).updObj k fun o => { o with moving := some (tier, [], c, false) })

include h hobj hown hav

theorem exec_objMove : exec (.objMove c) s =
    .next (if o.kind ≠ 0 then (s.began c).badWord c 3
      else if fld (m.w 4) 1 0 = 0 then (s.began c).badWord c 4
      else if o.poisoned ≠ [] then (s.began c).refuseOpen c DATA_POISONED
      else if o.moving.isSome then (s.began c).refuseOpen c BUSY
      else if fld (m.w 4) 1 0 = o.home then (s.began c).done c
      else if s.tierFits o.owner (fld (m.w 4) 1 0) o.granules = false then (s.began c).refuseOpen c NO_RESERVATION
      else moveBegun (s.began c) c k (fld (m.w 4) 1 0) o) := by
  change execObjMove c s = _
  rw [execObjMove, onCmd_runs _ h, withObj_found (s := s.began c) (k := k) (o := o) _ hobj (.inl hown) hav]
  have hdata : o.isData = false ↔ o.kind ≠ 0 := by simp [ObjS.isData]
  simp only [hdata]
  rfl

end ObjMove

theorem moveBegun_spec {s : State} {k : Nat} {o : ObjS} (c : CmdRef) (tier : Nat) (hget : Tab.get? s.objs k = some o) :
    ObjectStep o.owner k s (moveBegun s c k tier o) ∧
      Tab.get? (moveBegun s c k tier o).objs k = some { o with moving := some (tier, [], c, false) } ∧
      (∀ g, g < o.granules → ∃ j ∈ (moveBegun s c k tier o).jobs, j.job = .objMove k g) ∧ ∀ j ∈ s.jobs, j ∈ (moveBegun s c k tier o).jobs := by
  have hlive : ∀ g (u : State), u.jobLive (.objMove k g) = true := fun _ _ => rfl
  have hcharged : ObjectStep o.owner k s ((s.charge o.owner tier o.granules).updObj k fun o => { o with moving := some (tier, [], c, false) }) :=
    (ObjectStep.of_updCtx s _).trans (.of_updObj _ _)
  have hself : Tab.get? ((s.charge o.owner tier o.granules).updObj k fun o => { o with moving := some (tier, [], c, false) }).objs k = _ :=
    State.get?_updObj_self _ hget
  have hjobs : ((s.charge o.owner tier o.granules).updObj k fun o => { o with moving := some (tier, [], c, false) }).jobs = s.jobs := by
    rw [State.updObj_jobs]; rfl
  unfold moveBegun
  generalize ((s.charge o.owner tier o.granules).updObj k fun o => { o with moving := some (tier, [], c, false) }) = u at hcharged hself hjobs ⊢
  have hqueued := forEach_requestMove_queued hlive (List.range o.granules) o.class_ u
  refine ⟨hcharged.trans (.of_jobs hqueued.state), by rw [hqueued.state]; exact hself,
    fun g hg => forEach_requestMove_mem hlive o.class_ u (List.mem_range.2 hg), fun j hj => hqueued.jobs j (hjobs ▸ hj)⟩

/-! ### GRANULE_MOVE -/

/-- The state in which Promenade has taken a move (R740). -/
def moveTaken (s : State) (j : MoveReq) : State := { s.spend 18 with jobs := s.jobs.filter fun x => x.seq != j.seq }

/-- What the transfer's result does. -/
def granuleMoved (r : ReadResult) (retry : Bool) (j : MoveJob) (s : State) : State :=
  match r with
  | .intact => s.jobDone j
  | .corrected => (s.mapDep fun d => { d with corrected := d.corrected + 1 }).jobDone j
  | .uncorrectable => if retry then (s.memError 2).jobFails j else (s.memError 3).jobDone j

theorem exec_granuleMove {s : State} {j : MoveReq} (r : ReadResult) (retry : Bool) (h : s.nextJob = some j) (hon : s.mainOn = true)
    (hpool : s.poolOk 18 = true) (hown : j.job.own = false) :
    exec (.granuleMove r retry) s = .next (granuleMoved r retry j.job (moveTaken s j)) := by
  change execGranuleMove r retry s = _
  simp only [execGranuleMove, h]
  rw [onTrigger_fires _ _ (by simp [hon, hpool, hown])]
  cases r <;> rfl

/-- A granule that moves is counted as it was read, and only its own move leaves the queue. -/
theorem granuleMoved_spec (r : ReadResult) (retry : Bool) (j : MoveJob) (s : State) :
    (r ≠ .uncorrectable ∨ retry = false → (granuleMoved r retry j s).jobs = s.jobs) ∧
      (r = .corrected → (granuleMoved r retry j s).dep.corrected = s.dep.corrected + 1) ∧
      (r = .uncorrectable → (granuleMoved r retry j s).dep.uncorrectable = s.dep.uncorrectable + 1) ∧
      (granuleMoved r retry j s).time = s.time ∧ (granuleMoved r retry j s).hostMem = s.hostMem := by
  cases r with
  | intact =>
    have h := MoveServed.jobDone s j
    exact ⟨fun _ => h.jobs rfl, nofun, nofun, h.time, h.hostMem⟩
  | corrected =>
    have h := MoveServed.jobDone (s.mapDep fun d => { d with corrected := d.corrected + 1 }) j
    exact ⟨fun _ => h.jobs rfl, fun _ => h.corrected, nofun, h.time, h.hostMem⟩
  | uncorrectable =>
    cases retry with
    | false =>
      have h := MoveServed.jobDone (s.memError 3) j
      exact ⟨fun _ => h.jobs rfl, nofun, fun _ => h.uncorrectable, h.time, h.hostMem⟩
    | true =>
      have h := MoveServed.jobFails (s.memError 2) j
      exact ⟨fun e => by simp at e, nofun, fun _ => h.uncorrectable, h.time, h.hostMem⟩

section ObjMoveGranule

variable {s : State} {k g tier : Nat} {o : ObjS} {c : CmdRef} {l : List Nat} {back : Bool} (hget : Tab.get? s.objs k = some o)

include hget

/-- The last granule ends the move, with the home that the object has moved to (R602). -/
theorem jobDone_objMove_last (hmove : o.moving = some (tier, l, c, back)) (hlast : l.length + 1 = o.granules) : s.jobDone (.objMove k g) =
    ((s.credit o.owner o.home 1).updObj k fun o => { o with home := tier, moving := none }).done c := by
  simp only [State.jobDone, hget, hmove, List.length_append, List.length_singleton, if_pos hlast]

theorem jobDone_objMove_next (hmove : o.moving = some (tier, l, c, back)) (hmore : l.length + 1 ≠ o.granules) : s.jobDone (.objMove k g) =
    (s.credit o.owner o.home 1).updObj k fun o => { o with moving := some (tier, l ++ [g], c, back) } := by
  simp only [State.jobDone, hget, hmove, List.length_append, List.length_singleton, if_neg hmore]

/-- The state in which a move has been stopped: the target's charge is returned and the object stands still (R602). -/
def moveStopped (s : State) (jobs : List MoveReq) (k tier : Nat) (o : ObjS) : State :=
  (({ s with jobs := jobs } : State).credit o.owner tier o.granules).updObj k fun o => { o with moving := none }

/-- A move with no granule switched is stopped at once, and its granules leave the queue (R602). -/
theorem moveBackObj_unswitched (st : Nat) (hmove : o.moving = some (tier, [], c, false)) :
    ∃ jobs, s.moveBackObj k st = (moveStopped s jobs k tier o).refuseOpen c st := by
  apply Exists.intro
  simp only [State.moveBackObj, hget, hmove]
  rfl

theorem moveStopped_get? (jobs : List MoveReq) (x : ObjS) : Tab.get? (moveStopped s jobs k tier x).objs k = some { o with moving := none } :=
  State.get?_updObj_self (s := ({ s with jobs := jobs } : State).credit x.owner tier x.granules) _ hget

end ObjMoveGranule

theorem moveStopped_eq (s : State) (jobs : List MoveReq) (k tier : Nat) (o : ObjS) : moveStopped s jobs k tier o =
    { s with jobs := jobs, ctxs := (moveStopped s jobs k tier o).ctxs, objs := (moveStopped s jobs k tier o).objs } := by
  unfold moveStopped
  rw [State.updObj_eq]
  rfl

/-- A command that is refused with an open DETAIL is answered with that status, and the others stay. -/
theorem State.refuseOpen_of_found {s : State} {c : CmdRef} {m : Cmd} (st : Nat) (h : s.findCmd c = some m) :
    (∃ r, (s.refuseOpen c st).replyOf c = some r ∧ r.status = BitVec.ofNat 16 st) ∧ otherCmds s (s.refuseOpen c st) c :=
  ⟨⟨_, State.replyOf_endCmd _ (by simp [h]), rfl⟩, fun e he => by simp [State.refuseOpen, he]⟩

/-- The state in which a granule has been poisoned and reported (R636). -/
def granulePoisoned (s : State) (k g : Nat) (o : ObjS) : State :=
  (s.updObj k fun o => { o with poisoned := o.poisoned ++ [g] }).raiseCtx o.owner 0x8A05 (o.id.toNat % 2 ^ 15)

theorem granulePoisoned_spec {s : State} {k g : Nat} {o : ObjS} (hget : Tab.get? s.objs k = some o) :
    Tab.get? (granulePoisoned s k g o).objs k = some { o with poisoned := o.poisoned ++ [g] } ∧
      (∃ e ∈ (granulePoisoned s k g o).events, e.code = 0x8A05) ∧ (granulePoisoned s k g o).cmds = s.cmds :=
  ⟨State.get?_updObj_self _ hget, ⟨_, List.mem_append_right _ (List.mem_singleton_self _), rfl⟩, by
    rw [granulePoisoned, State.updObj_eq]; rfl⟩

/-- An unreadable granule of an object that moves is poisoned and reported; with none switched the move ends (R602, R636). -/
theorem jobFails_objMove_unswitched {s : State} {k g tier : Nat} {o : ObjS} {c : CmdRef} {m : Cmd} (hget : Tab.get? s.objs k = some o)
    (hmove : o.moving = some (tier, [], c, false)) (hfound : s.findCmd c = some m) :
    ∃ r, (s.jobFails (.objMove k g)).replyOf c = some r ∧ r.status = BitVec.ofNat 16 DATA_POISONED ∧
      Tab.get? (s.jobFails (.objMove k g)).objs k = some { o with poisoned := o.poisoned ++ [g], moving := none } ∧
      (∃ e ∈ (s.jobFails (.objMove k g)).events, e.code = 0x8A05) ∧ otherCmds s (s.jobFails (.objMove k g)) c := by
  have hdef : s.jobFails (.objMove k g) = (granulePoisoned s k g o).moveBackObj k DATA_POISONED := by
    simp only [State.jobFails, hget]
    rfl
  obtain ⟨hpoisoned, hevent, hcmds⟩ := granulePoisoned_spec (g := g) hget
  rw [hdef]
  generalize granulePoisoned s k g o = u at hpoisoned hevent hcmds ⊢
  obtain ⟨jobs, hback⟩ := moveBackObj_unswitched hpoisoned DATA_POISONED hmove
  have hself := moveStopped_get? (tier := tier) hpoisoned jobs { o with poisoned := o.poisoned ++ [g] }
  have hframe := moveStopped_eq u jobs k tier { o with poisoned := o.poisoned ++ [g] }
  rw [hback]
  generalize moveStopped u jobs k tier { o with poisoned := o.poisoned ++ [g] } = v at hself hframe ⊢
  have hkept : v.cmds = s.cmds := by rw [hframe]; exact hcmds
  obtain ⟨⟨r, hr, hst⟩, hothers⟩ := State.refuseOpen_of_found DATA_POISONED ((State.findCmd_congr hkept c).trans hfound)
  have hevents : v.events = u.events := by rw [hframe]
  exact ⟨r, hr, hst, hself, hevents.symm ▸ hevent, fun d hd => (hothers d hd).trans (State.findCmd_congr hkept d)⟩

/-! ### The freeing of a copy, and a granule read again -/

/-- An object's copy without its lowest granule, or gone with its last one (R619). -/
def ObjS.freed (o : ObjS) (tier : Nat) (left : List Nat) : ObjS :=
  if left = [] then { o with copies := Tab.del o.copies tier }
  else o.updCopy tier fun x => { x with have_ := left, bad := x.bad.filter left.contains }

theorem exec_copyGranuleFree {s : State} {k tier : Nat} {o : ObjS} (hget : Tab.get? s.objs k = some o) (hserves : s.serves (.copyFree k tier) = true) :
    ∃ jobs, exec (.copyGranuleFree k tier) s =
      .next (({ s with jobs := jobs } : State).updObj k fun x => x.freed tier ((o.copy tier).have_.drop 1)) := by
  apply Exists.intro
  change execCopyGranuleFree k tier s = _
  simp only [execCopyGranuleFree, hget]
  rw [onTrigger_fires _ _ hserves]
  rfl

theorem ObjS.freed_spec (o : ObjS) (tier : Nat) (left : List Nat) : ((o.freed tier left).copy tier).have_ = left ∧
    (left = [] → Tab.has (o.freed tier left).copies tier = false) ∧ ∀ j, j ≠ tier → Tab.get? (o.freed tier left).copies j = Tab.get? o.copies j := by
  unfold ObjS.freed
  split
  case isTrue hleft =>
    refine ⟨?_, fun _ => ?_, fun j hj => by rw [Tab.get?_del, if_neg hj]⟩
    · simp only [ObjS.copy, Tab.getD_del, if_pos, hleft]
    · simp only [Tab.has, Tab.get?_del, if_pos, Option.isSome_none]
  case isFalse hleft =>
    refine ⟨by rw [ObjS.copy_updCopy_self], fun h => absurd h hleft, fun j hj => ?_⟩
    rw [ObjS.updCopy, Tab.get?_upd, if_neg hj]

/-- `t` is `s` once a granule of a copy was read again: the error is counted, events are added. -/
structure ReadAgain (s t : State) : Prop where
  state : t = { s with dep := t.dep, events := t.events, tether := t.tether, free := t.free }
  uncorrectable : t.dep.uncorrectable = s.dep.uncorrectable
  events : s.events <+: t.events

theorem ReadAgain.trans {s t u : State} (h : ReadAgain s t) (k : ReadAgain t u) : ReadAgain s u where
  state := by rw [k.state, h.state]
  uncorrectable := k.uncorrectable.trans h.uncorrectable
  events := h.events.trans k.events

theorem ReadAgain.raiseEvent (s : State) (e : Event) : ReadAgain s (s.raiseEvent e) := ⟨rfl, rfl, List.prefix_append ..⟩

theorem ReadAgain.takeRegion (s : State) : ReadAgain s s.takeRegion := by
  unfold State.takeRegion
  split
  · exact ⟨rfl, rfl, List.prefix_rfl⟩
  · extract_lets u
    have hu : ReadAgain s u := ⟨rfl, rfl, List.prefix_rfl⟩
    split
    · exact hu.trans (.raiseEvent u _)
    · exact hu

theorem exec_objectRestreamed {s : State} {k tier g : Nat} {o : ObjS} (hget : Tab.get? s.objs k = some o) (htier : tier = 1 ∨ tier = 2)
    (hg : g ∈ (o.copy tier).have_) : ∃ d, exec (.objectRestreamed k tier g false) s = .next ((s.memError tier).takeRegion.raiseCtx o.owner 0x8A00 d) := by
  have hfires : ((o.copy tier).have_.contains g && (tier == 1 || tier == 2)) = true := by simp [hg, htier]
  suffices key : ∃ d, execObjectRestreamed k tier g false s = .next ((s.memError tier).takeRegion.raiseCtx o.owner 0x8A00 d) from key
  simp only [execObjectRestreamed, hget]
  rw [onTrigger_fires _ _ hfires]
  by_cases hbelow : (tier == 1 && (o.copy 2).have_.contains g && !(o.copy 2).bad.contains g) = true
  · exact ⟨_, congrArg Host.Outcome.next (if_pos hbelow)⟩
  · exact ⟨_, congrArg Host.Outcome.next ((if_neg hbelow).trans (if_neg Bool.false_ne_true))⟩

/-! ### The obligation's clauses -/

section CopyClauses

variable {s : State} {c : CmdRef} {m : Cmd} {k tier : Nat} {o : ObjS} (hget : Tab.get? s.objs k = some o)

include hget

/-- What OBJ_PROMOTE's claim leaves, whether the command ends or waits. -/
theorem promote_claimed (n : Nat) : ∃ u, (s.began c).claim k tier n = u ∧ ObjectStep n k (s.began c) u ∧
    Tab.get? u.objs k = some (o.updCopy tier fun x => x.claimedBy n) ∧
    ∀ g, g < o.granules → g ∉ (o.copy tier).have_ → ∃ j ∈ u.jobs, j.job = .copyFill k tier g :=
  ⟨_, rfl, State.claim_spec (s := s.began c) hget tier n⟩

theorem unclaim_done_spec {op : Nat} (h : s.runs c op m) :
    ∃ t o', ((s.began c).unclaim k tier m.ctx).done c = t ∧ t.answered c OK 0 [] ∧ Tab.get? t.objs k = some o' ∧ o' = { o with copies := o'.copies } ∧
      (∀ n, n < 8 → bit (o'.copy tier).claims n = (bit (o.copy tier).claims n && decide (n ≠ m.ctx))) ∧
      (o'.copy tier).pins = (o.copy tier).pins ∧ (o'.copy tier).have_ = (o.copy tier).have_ ∧ (∀ n, n ≠ m.ctx → t.ctxAt n = s.ctxAt n) ∧
      (∀ j, j ≠ k → Tab.get? t.objs j = Tab.get? s.objs j) ∧ otherCmds s t c ∧
      t = { s with cmds := t.cmds, ctxs := t.ctxs, objs := t.objs, jobs := t.jobs, jobSeq := t.jobSeq } := by
  obtain ⟨hstep, hobj⟩ := State.unclaim_spec (s := s.began c) hget tier m.ctx
  generalize (s.began c).unclaim k tier m.ctx = u at hstep hobj ⊢
  obtain ⟨hans, hothers⟩ := State.done_of_began (u := u) OK 0 [] [] h.isSome hstep.cmds
  have hcopy : (o.updCopy tier fun x => x.leftBy m.ctx).copy tier = (o.copy tier).leftBy m.ctx := ObjS.copy_updCopy_self ..
  refine ⟨_, _, rfl, hans, hobj, rfl, fun n hn => ?_, ?_, ?_, hstep.ctxs, hstep.objs, hothers, hstep.done_eq ..⟩
  · rw [hcopy, CopyS.leftBy_eq, bit_clearBit, Bool.and_comm]
  · rw [hcopy, CopyS.leftBy_eq]
  · rw [hcopy, CopyS.leftBy_eq]

end CopyClauses

/-- Settles O34: the commands on copies, OBJ_MOVE, the move of a granule, the freeing of a copy and the granule read again. -/
theorem copiesAndMovesKeepTheObject : Obligations.CopiesAndMovesKeepTheObject := by
  refine ⟨?copies, ?move, ?order, ?granule, ?free, ?again⟩
  case copies =>
    intro s c m k tier o href hobj huse hav htier
    have hget := State.get?_of_objOf hobj
    refine ⟨fun h hkind hsealed h12 => ?promote, fun h h12 => ?evict, fun h h12 => ?pin, fun h h12 => ?unpin⟩
    case promote =>
      have hexec := exec_objPromote hobj huse hav htier h12 h hkind hsealed
      refine ⟨fun hnone hfull => by rw [hexec, if_pos ⟨hnone, hfull⟩], fun hroom => ?_⟩
      obtain ⟨u, hu, hstep, hself, hfills⟩ := promote_claimed (c := c) (tier := tier) hget m.ctx
      have hadmit : ¬ (bit (o.copy tier).claims m.ctx = false ∧ s.tierFits m.ctx tier o.granules = false) := by
        rintro ⟨hnone, hfull⟩
        rcases hroom with hroom | hroom
        · simp [hnone] at hroom
        · simp [hfull] at hroom
      rw [if_neg hadmit, hu] at hexec
      have hcopy : (o.updCopy tier fun x => x.claimedBy m.ctx).copy tier = (o.copy tier).claimedBy m.ctx := ObjS.copy_updCopy_self ..
      have hclaims : ∀ n, n < 8 → bit ((o.updCopy tier fun x => x.claimedBy m.ctx).copy tier).claims n =
          (bit (o.copy tier).claims n || decide (n = m.ctx)) := fun n hn => by rw [hcopy]; exact bit_setBit _ _ hn
      by_cases hcomplete : o.complete tier = true
      · rw [if_pos hcomplete] at hexec
        obtain ⟨hans, hothers⟩ := State.done_of_began (u := u) OK 0 [] [] h.isSome hstep.cmds
        exact ⟨_, _, hexec, hself, rfl, hclaims, by rw [hcopy]; rfl, by rw [hcopy]; rfl, fun _ => hans, fun hno => by simp [hcomplete] at hno,
          hstep.ctxs, hstep.objs, hothers, hstep.done_eq ..⟩
      · rw [if_neg hcomplete] at hexec
        obtain ⟨hwaits, hothers⟩ := State.waits_of_updCmd
          (fun x => { x with work := [k, tier, if bit (o.copy tier).claims m.ctx then 1 else 0] }) h hstep.cmds fun _ => ⟨rfl, rfl⟩
        exact ⟨_, _, hexec, hself, rfl, hclaims, by rw [hcopy]; rfl, by rw [hcopy]; rfl, fun hyes => absurd hyes hcomplete,
          fun _ => ⟨hwaits, hfills⟩, hstep.ctxs, hstep.objs, hothers, by rw [hstep.state]; rfl⟩
    case evict =>
      have hexec := exec_objEvict hobj huse hav htier h12 h
      refine ⟨fun hpin => by rw [hexec, if_pos hpin], fun hpin hclaim _ => ?_, fun hpin hclaim => ?_⟩
      · obtain ⟨t, o', ht, hspec⟩ := unclaim_done_spec (tier := tier) hget h
        exact ⟨t, o', by rw [hexec, hpin, if_neg (lt_irrefl 0), if_pos hclaim, ht], hspec⟩
      · obtain ⟨hans, hothers⟩ := State.done_of_began (u := s.began c) OK 0 [] [] h.isSome rfl
        exact ⟨_, by rw [hexec, hpin, if_neg (lt_irrefl 0), hclaim, if_neg Bool.false_ne_true]; rfl, hans, hothers, rfl⟩
    case pin =>
      have hexec := exec_objPin hobj huse hav htier h12 h
      refine ⟨fun hbad => by rw [hexec, if_pos hbad], fun hclaim hroom => ?_⟩
      have hgood : ¬ (bit (o.copy tier).claims m.ctx = false ∨ 255 ≤ Tab.getD (o.copy tier).pins m.ctx 0) := by
        rintro (hnone | hfull)
        · simp [hclaim] at hnone
        · omega
      obtain ⟨hans, hself, hobjs, hothers, hframe⟩ :=
        updObj_done_spec (fun o => o.updCopy tier fun x => { x with pins := Tab.upd x.pins m.ctx 0 (· + 1) }) h hget
      refine ⟨_, _, by rw [hexec, if_neg hgood], hans, hself, ?_, rfl, fun n hn => ?_, hobjs, hothers, hframe⟩
      · rw [ObjS.copy_updCopy_self, Tab.getD_upd_self]
      · rw [ObjS.copy_updCopy_self, Tab.getD_upd, if_neg hn]
    case unpin =>
      have hexec := exec_objUnpin hobj huse hav htier h12 h
      refine ⟨fun hnone => by rw [hexec, if_pos hnone], fun hpin => ?_⟩
      obtain ⟨hans, hself, hobjs, hothers, hframe⟩ :=
        updObj_done_spec (fun o => o.updCopy tier fun x => { x with pins := Tab.upd x.pins m.ctx 0 (· - 1) }) h hget
      refine ⟨_, _, by rw [hexec, if_neg hpin.ne'], hans, hself, ?_, rfl, hobjs, hothers, hframe⟩
      rw [ObjS.copy_updCopy_self, Tab.getD_upd_self]
      omega
  case move =>
    intro s c m k tier o h href hobj hown hav htier
    have hexec := exec_objMove h hobj hown hav
    have hget := State.get?_of_objOf hobj
    subst htier
    refine ⟨fun hkind => by rw [hexec, if_pos hkind], fun hkind htier hpois => ?_, fun hkind htier hpois hmove hhome hfull => ?_,
      fun hkind htier hpois hmove hhome hfits => ?_⟩
    · rw [hexec, if_neg (not_not.2 hkind), if_neg htier, if_pos hpois]
    · rw [hexec, if_neg (not_not.2 hkind), if_neg htier, if_neg (not_not.2 hpois), if_neg (by simp [hmove]), if_neg hhome, if_pos (hown ▸ hfull)]
    · rw [if_neg (not_not.2 hkind), if_neg htier, if_neg (not_not.2 hpois), if_neg (by simp [hmove]), if_neg hhome, hown,
        if_neg (by simp [hfits])] at hexec
      obtain ⟨hstep, hself, hall, hkept⟩ := moveBegun_spec (s := s.began c) c (fld (m.w 4) 1 0) hget
      generalize moveBegun (s.began c) c k (fld (m.w 4) 1 0) o = u at hexec hstep hself hall hkept
      obtain ⟨hwaits, hothers⟩ := State.waits_of_began h hstep.cmds
      exact ⟨u, hexec, hself, hwaits, hall, hkept, fun n hn => hstep.ctxs n (hown ▸ hn), hstep.objs, hothers, by rw [hstep.state]; rfl⟩
  case order =>
    intro s j r retry hnext hon hpool hown
    obtain ⟨hmem, hleast⟩ := State.nextJob_least hnext
    exact ⟨hmem, hleast, _, exec_granuleMove r retry hnext hon hpool hown, granuleMoved_spec r retry j.job (moveTaken s j)⟩
  case granule =>
    intro s j k g tier o c l m hnext hon hpool hjob hget hmove hfound
    have hown : j.job.own = false := by rw [hjob]; rfl
    refine ⟨fun hlast => ?_, fun hmore => ?_, fun hl => ?_⟩
    · have hexec := exec_granuleMove .intact false hnext hon hpool hown
      rw [granuleMoved, hjob, jobDone_objMove_last (s := moveTaken s j) hget hmove hlast] at hexec
      have hself : Tab.get? (((moveTaken s j).credit o.owner o.home 1).updObj k fun o => { o with home := tier, moving := none }).objs k = _ :=
        State.get?_updObj_self _ hget
      have hcmds : (((moveTaken s j).credit o.owner o.home 1).updObj k fun o => { o with home := tier, moving := none }).cmds = s.cmds := by
        rw [State.updObj_cmds]; rfl
      generalize (((moveTaken s j).credit o.owner o.home 1).updObj k fun o => { o with home := tier, moving := none }) = u at hexec hself hcmds
      have hsome : (u.findCmd c).isSome := by rw [State.findCmd_congr hcmds, hfound]; rfl
      exact ⟨_, hexec, State.answered_done OK 0 [] [] hsome, hself,
        fun d hd => (otherCmds_done u c OK 0 [] [] d hd).trans (State.findCmd_congr hcmds d)⟩
    · have hexec := exec_granuleMove .intact false hnext hon hpool hown
      rw [granuleMoved, hjob, jobDone_objMove_next (s := moveTaken s j) hget hmove hmore] at hexec
      have hself : Tab.get? (((moveTaken s j).credit o.owner o.home 1).updObj k fun o =>
          { o with moving := some (tier, l ++ [g], c, false) }).objs k = _ := State.get?_updObj_self _ hget
      have hcmds : (((moveTaken s j).credit o.owner o.home 1).updObj k fun o =>
          { o with moving := some (tier, l ++ [g], c, false) }).cmds = s.cmds := by rw [State.updObj_cmds]; rfl
      exact ⟨_, hexec, (State.findCmd_congr hcmds c).trans hfound, hself, fun d _ => State.findCmd_congr hcmds d⟩
    · have hexec := exec_granuleMove .uncorrectable true hnext hon hpool hown
      rw [granuleMoved, hjob, if_pos rfl] at hexec
      obtain ⟨r, hr, hst, hself, hevent, hothers⟩ :=
        jobFails_objMove_unswitched (s := (moveTaken s j).memError 2) (g := g) hget (hl ▸ hmove) hfound
      exact ⟨_, r, hexec, hr, hst, hself, hevent, hothers⟩
  case free =>
    intro s k tier g l o cp hget hcp hserves hhave
    obtain ⟨jobs, hexec⟩ := exec_copyGranuleFree hget hserves
    have hleft : (o.copy tier).have_.drop 1 = l := by simp [ObjS.copy, Tab.getD, hcp, hhave]
    rw [hleft] at hexec
    obtain ⟨hhave', hgone, hothers⟩ := ObjS.freed_spec o tier l
    refine ⟨_, o.freed tier l, hexec, State.get?_updObj_self _ hget, hhave', hgone, hothers, fun j hj => State.get?_updObj_other _ _ hj, ?_⟩
    rw [State.updObj_eq]
  case again =>
    intro s k tier g o hget htier hg
    obtain ⟨d, hexec⟩ := exec_objectRestreamed hget htier hg
    have hread : ReadAgain (s.memError tier) (s.memError tier).takeRegion := .takeRegion _
    generalize (s.memError tier).takeRegion = u at hexec hread
    refine ⟨_, hexec, ?_, ⟨_, List.mem_append_right _ (List.mem_singleton_self _), rfl⟩, hread.uncorrectable, ?_⟩
    · rw [hread.state]; exact hget
    · rw [hread.state]; rfl

end Sys2Proof.Machine

/-! ## Resources: charges, bands given and returned, power states -/

namespace Sys2Proof.Machine

/-! ### Charges and claims -/

/-- A context's charges of the three tiers. -/
def CtxS.chargedAs (x y : CtxS) : CtxS := { x with t1Used := y.t1Used, hbmUsed := y.hbmUsed, t3Used := y.t3Used }

/-- `t` is `s` with charges of a context, copies of objects and the queue of moves changed. -/
structure ChargeStep (n : Nat) (s t : State) : Prop where
  state : t = { s with ctxs := t.ctxs, objs := t.objs, jobs := t.jobs, jobSeq := t.jobSeq }
  others : ∀ i, i ≠ n → t.ctxAt i = s.ctxAt i
  own : t.ctxAt n = (s.ctxAt n).chargedAs (t.ctxAt n)

section ChargeStep

variable {n : Nat}

theorem ChargeStep.refl (s : State) : ChargeStep n s s := ⟨rfl, fun _ _ => rfl, rfl⟩

theorem ChargeStep.trans {s t u : State} (h : ChargeStep n s t) (k : ChargeStep n t u) : ChargeStep n s u where
  state := by rw [k.state, h.state]
  others i hi := (k.others i hi).trans (h.others i hi)
  own := by rw [k.own, h.own]; rfl

theorem ChargeStep.charge (s : State) (tier g : Nat) : ChargeStep n s (s.charge n tier g) where
  state := rfl
  others i hi := by rw [State.charge, State.ctxAt_updCtx, if_neg hi]
  own := by
    rw [State.charge, State.ctxAt_updCtx, if_pos rfl]
    split
    · rfl
    · split <;> rfl

theorem ChargeStep.credit (s : State) (tier g : Nat) : ChargeStep n s (s.credit n tier g) where
  state := rfl
  others i hi := by rw [State.credit, State.ctxAt_updCtx, if_neg hi]
  own := by
    rw [State.credit, State.ctxAt_updCtx, if_pos rfl]
    split
    · rfl
    · split <;> rfl

theorem ChargeStep.updObj (s : State) (k : Nat) (f : ObjS → ObjS) : ChargeStep n s (s.updObj k f) := by
  have h := s.updObj_eq k f
  exact ⟨by rw [h], fun i _ => by rw [h]; rfl, by rw [h]; rfl⟩

theorem ChargeStep.of_jobs {s t : State} (h : t = { s with jobs := t.jobs, jobSeq := t.jobSeq }) : ChargeStep n s t :=
  ⟨by rw [h], fun i _ => by rw [h]; rfl, by rw [h]; rfl⟩

theorem ChargeStep.forEach {α : Type} (l : List α) (f : α → State → State) (hf : ∀ x u, ChargeStep n u (f x u)) (s : State) :
    ChargeStep n s (Machine.forEach l f s) :=
  forEach_keeps (P := ChargeStep n s) l f (fun x _ u hu => hu.trans (hf x u)) (.refl s)

theorem ChargeStep.fillCopy (s : State) (k tier : Nat) : ChargeStep n s (s.fillCopy k tier) := by
  cases h : Tab.get? s.objs k with
  | none => simp only [State.fillCopy, h]; exact .refl s
  | some o => exact .of_jobs (State.fillCopy_spec tier h).1.state

theorem ChargeStep.claim (s : State) (k tier : Nat) : ChargeStep n s (s.claim k tier n) := by
  cases h : Tab.get? s.objs k with
  | none => simp only [State.claim, h]; exact .refl s
  | some o =>
    rw [State.claim_def h]
    have hcharge : ChargeStep n s (if bit (o.copy tier).claims n then s else s.charge n tier o.granules) := by
      split
      · exact .refl s
      · exact .charge s tier _
    exact (hcharge.trans (.updObj _ k _)).trans (.fillCopy _ k tier)

theorem ChargeStep.unclaim (s : State) (k tier : Nat) : ChargeStep n s (s.unclaim k tier n) := by
  cases h : Tab.get? s.objs k with
  | none => simp only [State.unclaim, h]; exact .refl s
  | some o =>
    rw [State.unclaim_def h]
    have hcredit : ChargeStep n s (if bit (o.copy tier).claims n then s.credit n tier o.granules else s) := by
      split
      · exact .credit s tier _
      · exact .refl s
    exact (hcredit.trans (.updObj _ k _)).trans (.of_jobs (State.requestFreeing_eq _ k tier))

/-- What a context drops with its claims is charged, claimed and pinned alone (R618). -/
theorem ChargeStep.dropClaims (s : State) : ChargeStep n s (s.dropClaims n) := by
  unfold State.dropClaims
  refine .forEach _ _ (fun e u => .forEach _ _ (fun x v => ?_) u) s
  split
  · exact (ChargeStep.updObj v _ _).trans (.unclaim _ _ _)
  · exact .refl v

end ChargeStep

/-! ### Power states -/

theorem State.wake_eq (s : State) : s.wake = { s with life := s.wake.life, events := s.wake.events, tether := s.wake.tether } := by
  unfold State.wake
  split <;> rfl

theorem State.noteIdle_eq (s : State) : s.noteIdle = { s with life := s.noteIdle.life } := by
  unfold State.noteIdle
  split <;> rfl

/-! ### Bands given to a context -/

/-- `t` is `s` with bands of the numbers `nums` given to context `n`. -/
structure BandsGiven (n : Nat) (nums : List Nat) (program : Bool) (s t : State) : Prop where
  state : t = { s with ctxs := t.ctxs, bands := t.bands, tiles := t.tiles, rvs := t.rvs, pairs := t.pairs, epoch := t.epoch }
  others : ∀ i, i ≠ n → t.ctxAt i = s.ctxAt i
  own : t.ctxAt n = { s.ctxAt n with bands := nums }
  kept : ∀ k, k ∉ nums → Tab.get? t.bands k = Tab.get? s.bands k
  given : ∀ k ∈ nums, ∃ b, Tab.get? t.bands k = some b ∧ b.ctx = n ∧ b.program = program

/-- A band of a program or a session as it is given, and its tiles. -/
def giveBand (e b : Nat) (x : BandS) (s : State) : State :=
  forEach (List.range x.tiles.length) (fun k s =>
    s.updTile (x.tiles.getD k 0) fun t => { t.scratch e with band := some b, logical := k, sig := 0 }) { s with bands := Tab.put s.bands b x }

theorem giveBand_eq (e b : Nat) (x : BandS) (s : State) :
    giveBand e b x s = { s with bands := Tab.put s.bands b x, tiles := (giveBand e b x s).tiles } :=
  forEach_keeps (P := fun t => t = { s with bands := Tab.put s.bands b x, tiles := t.tiles }) _ _ (fun y _ u hu => by rw [hu]; rfl) rfl

/-- The band of a pair's other role (Table 11-4). -/
def partnerNumber (nums : List Nat) (req : List (Nat × Nat × Nat)) (role : Nat) : Nat :=
  match (nums.zip req).find? fun x => x.2.2.1 == 5 - role with
  | some x => x.1
  | none => 0

/-- The `i`-th band that a request asks for. -/
def bandAsked (n : Nat) (nums : List Nat) (req : List (Nat × Nat × Nat)) (place : List (List Nat)) (program : Bool) (i : Nat) : BandS :=
  let role := (req.getD i (0, 0, 0)).2.1
  { ctx := n, role := role, tiles := place.getD i [], program := program, partner := if role = 2 ∨ role = 3 then partnerNumber nums req role else 0 }

/-- The pass that gives the bands of a request in order. -/
def giveBands (n : Nat) (nums : List Nat) (req : List (Nat × Nat × Nat)) (place : List (List Nat)) (program : Bool) (s : State) : State :=
  forEach (List.range req.length) (fun i u => giveBand s.epoch (nums.getD i 0) (bandAsked n nums req place program i) u) s

section GiveBands

variable (n : Nat) {nums : List Nat} (req : List (Nat × Nat × Nat)) (place : List (List Nat)) (program : Bool) (s : State)

theorem giveBands_eq : giveBands n nums req place program s = { s with bands := (giveBands n nums req place program s).bands,
                                                                         tiles := (giveBands n nums req place program s).tiles } :=
  forEach_keeps (P := fun t => t = { s with bands := t.bands, tiles := t.tiles }) _ _ (fun i _ u hu => by rw [giveBand_eq, hu]) rfl

/-- A band whose number is not given stays. -/
theorem giveBands_kept (hlen : nums.length = req.length) {k : Nat} (hk : k ∉ nums) :
    Tab.get? (giveBands n nums req place program s).bands k = Tab.get? s.bands k := by
  refine forEach_keeps (P := fun t => Tab.get? t.bands k = Tab.get? s.bands k) _ _ (fun i hi u hu => ?_) rfl
  have hi' : i < nums.length := hlen ▸ List.mem_range.1 hi
  have hne : k ≠ nums.getD i 0 := fun e => hk (by simp [e, List.getD_eq_getElem?_getD, hi'])
  rw [giveBand_eq, Tab.get?_put, if_neg hne, hu]

/-- Each number given holds a band of the context. -/
theorem giveBands_given (hlen : nums.length = req.length) {k : Nat} (hk : k ∈ nums) :
    ∃ b, Tab.get? (giveBands n nums req place program s).bands k = some b ∧ b.ctx = n ∧ b.program = program := by
  obtain ⟨i, hi, hik⟩ := List.getElem_of_mem hk
  have hget : nums.getD i 0 = k := by simp [List.getD_eq_getElem?_getD, hi, hik]
  refine forEach_establishes (P := fun _ => True) (Q := fun t => ∃ b, Tab.get? t.bands k = some b ∧ b.ctx = n ∧ b.program = program) _ _
    (fun _ _ _ _ => trivial) (fun j _ u _ hu => ?_) (List.mem_range.2 (hlen ▸ hi)) (fun u _ => ?_) trivial
  · rw [giveBand_eq, Tab.get?_put]
    split
    · exact ⟨_, rfl, rfl, rfl⟩
    · exact hu
  · rw [giveBand_eq, Tab.get?_put, if_pos hget.symm]
    exact ⟨_, rfl, rfl, rfl⟩

end GiveBands

/-- The numbers that an allocation takes: as many as it asks for, none of them held (R49). -/
theorem freeBands_take_spec {s : State} {r : Nat} (h : r ≤ s.freeBands.length) :
    (s.freeBands.take r).length = r ∧ ∀ k ∈ s.freeBands.take r, Tab.has s.bands k = false := by
  refine ⟨by simp [h], fun k hk => ?_⟩
  have hfree := (List.mem_filter.1 (List.mem_of_mem_take hk)).2
  simpa using hfree

/-- An allocation changes bands and tiles as its pass over the request does, and nothing of another context. -/
theorem State.allocBands_frame (s : State) (n : Nat) (req : List (Nat × Nat × Nat)) (place : List (List Nat)) (program : Bool) :
    s.allocBands n req place program = { s with ctxs := (s.allocBands n req place program).ctxs, bands := (s.allocBands n req place program).bands,
                                                tiles := (s.allocBands n req place program).tiles, rvs := (s.allocBands n req place program).rvs,
                                                pairs := (s.allocBands n req place program).pairs, epoch := s.epoch + 1 } ∧
      (s.allocBands n req place program).bands =
        (giveBands n (s.freeBands.take req.length) req place program { s with epoch := s.epoch + 1 }).bands ∧
      (∀ i, i ≠ n → (s.allocBands n req place program).ctxAt i = s.ctxAt i) ∧
      (s.allocBands n req place program).ctxAt n = { s.ctxAt n with bands := s.freeBands.take req.length } := by
  unfold State.allocBands
  extract_lets nums e s0 find partner s1 s2 s3
  have h1 : s1 = giveBands n nums req place program s0 := rfl
  have h2 : s2 = { s1 with rvs := s2.rvs } :=
    forEach_keeps (P := fun t => t = { s1 with rvs := t.rvs }) _ _ (fun k _ u hu => by rw [hu]) rfl
  have h3 : s3 = { s2 with rvs := s3.rvs, pairs := s3.pairs } := by
    unfold s3
    split <;> rfl
  have hctxs : s3.ctxs = s.ctxs := by rw [h3, h2, h1, giveBands_eq]
  have hctxAt : ∀ i, s3.ctxAt i = s.ctxAt i := fun i => by simp only [State.ctxAt, hctxs]
  refine ⟨?state, ?bands, fun i hi => ?others, ?own⟩
  case state => rw [h3, h2, h1, giveBands_eq]; rfl
  case bands => rw [h3, h2, h1]; rfl
  case others => rw [State.ctxAt_updCtx, if_neg hi, hctxAt]
  case own => rw [State.ctxAt_updCtx, if_pos rfl, hctxAt]

theorem State.allocBands_spec {s : State} (n : Nat) (req : List (Nat × Nat × Nat)) (place : List (List Nat)) (program : Bool)
    (h : req.length ≤ s.freeBands.length) : BandsGiven n (s.freeBands.take req.length) program s (s.allocBands n req place program) := by
  obtain ⟨hlen, -⟩ := freeBands_take_spec h
  obtain ⟨hstate, hbands, hothers, hown⟩ := s.allocBands_frame n req place program
  refine ⟨by rw [hstate], hothers, hown, fun k hk => ?kept, fun k hk => ?given⟩
  case kept => rw [hbands, giveBands_kept n req place program _ hlen hk]
  case given => rw [hbands]; exact giveBands_given n req place program _ hlen hk

/-! ### Bands returned -/

/-- `t` is `s` with the bands of context `n` returned. -/
structure BandsFreed (n : Nat) (s t : State) : Prop where
  state : t = { s with tiles := t.tiles, power := t.power, events := t.events, tether := t.tether, jobs := t.jobs, dep := t.dep,
                       bands := t.bands, rvs := t.rvs, pairs := t.pairs, ctxs := t.ctxs }
  others : ∀ i, i ≠ n → t.ctxAt i = s.ctxAt i
  own : t.ctxAt n = { s.ctxAt n with bands := [], streams := [] }
  freed : ∀ k ∈ (s.ctxAt n).bands, Tab.has t.bands k = false

/-- `t` is `s` with recoveries ended and tiles changed. -/
def RecoveriesEnded (s t : State) : Prop := t = { s with tiles := t.tiles, power := t.power, events := t.events, tether := t.tether }

theorem RecoveriesEnded.refl (s : State) : RecoveriesEnded s s := rfl

theorem RecoveriesEnded.trans {s t u : State} (h : RecoveriesEnded s t) (k : RecoveriesEnded t u) : RecoveriesEnded s u := by
  unfold RecoveriesEnded at *
  rw [k, h]

theorem RecoveriesEnded.updTile (s : State) (k : Nat) (f : TileS → TileS) : RecoveriesEnded s (s.updTile k f) := rfl

theorem RecoveriesEnded.recoveryEnd (s : State) (id : Nat) : RecoveriesEnded s (s.recoveryEnd id) := by
  obtain ⟨l, -, hframe⟩ := s.recoveryEnd_spec id
  unfold RecoveriesEnded
  rw [hframe]

theorem RecoveriesEnded.forEach {α : Type} (l : List α) (f : α → State → State) (hf : ∀ x u, RecoveriesEnded u (f x u)) (s : State) :
    RecoveriesEnded s (Machine.forEach l f s) :=
  forEach_keeps (P := RecoveriesEnded s) l f (fun x _ u hu => hu.trans (hf x u)) (.refl s)

/-- A band returned: its tiles are in no band, its number is free. -/
def returnBand (b : Nat) (s : State) : State :=
  let s := forEach (s.bandAt b).tiles (fun t s => s.updTile t fun x => { x with band := none, logical := 0 }) s
  { s with bands := Tab.del s.bands b }

theorem returnBand_eq (b : Nat) (s : State) : returnBand b s = { s with tiles := (returnBand b s).tiles, bands := Tab.del s.bands b } := by
  have htiles : forEach (s.bandAt b).tiles (fun t s => s.updTile t fun x => { x with band := none, logical := 0 }) s =
      { s with tiles := (forEach (s.bandAt b).tiles (fun t s => s.updTile t fun x => { x with band := none, logical := 0 }) s).tiles } :=
    forEach_keeps (P := fun t => t = { s with tiles := t.tiles }) _ _ (fun x _ u hu => by rw [hu]; rfl) rfl
  unfold returnBand
  rw [htiles]

theorem forEach_returnBand_eq (bs : List Nat) (s : State) : forEach bs returnBand s =
    { s with tiles := (forEach bs returnBand s).tiles, bands := (forEach bs returnBand s).bands } :=
  forEach_keeps (P := fun t => t = { s with tiles := t.tiles, bands := t.bands }) _ _ (fun b _ u hu => by rw [returnBand_eq, hu]) rfl

theorem forEach_returnBand_freed {bs : List Nat} (s : State) {k : Nat} (hk : k ∈ bs) : Tab.has (forEach bs returnBand s).bands k = false := by
  refine forEach_establishes (P := fun _ => True) (Q := fun t => Tab.has t.bands k = false) bs _ (fun _ _ _ _ => trivial) (fun b _ u _ hu => ?_)
    hk (fun u _ => ?_) trivial
  · rw [returnBand_eq, Tab.has, Tab.get?_del]
    split
    · rfl
    · exact hu
  · rw [returnBand_eq, Tab.has, Tab.get?_del, if_pos rfl]
    rfl

theorem State.freeBandsOf_spec (s : State) (n : Nat) : BandsFreed n s (s.freeBandsOf n) := by
  unfold State.freeBandsOf
  extract_lets bs mine s1 subs s2 s3 s4 s5 s6 s7 rvs
  have h1 : RecoveriesEnded s s1 := .forEach _ _ (fun r u => (RecoveriesEnded.updTile u _ _).trans (.recoveryEnd _ _)) s
  have h3 : RecoveriesEnded s s3 := h1.trans ((RecoveriesEnded.forEach _ _ (fun r u => .recoveryEnd u _) s1).trans (.recoveryEnd s2 _))
  have h5 : s5 = { s3 with jobs := s4.jobs, dep := s5.dep } := rfl
  have h6 : s6 = forEach bs returnBand s5 := rfl
  have h7 : s7 = { s6 with rvs := s7.rvs } :=
    forEach_keeps (P := fun t => t = { s6 with rvs := t.rvs }) _ _ (fun k _ u hu => by rw [hu]) rfl
  have hbands : s7.bands = (forEach bs returnBand s5).bands := by rw [h7, h6]
  have hall : s7 = { s with tiles := s7.tiles, power := s7.power, events := s7.events, tether := s7.tether, jobs := s7.jobs, dep := s7.dep,
                            bands := s7.bands, rvs := s7.rvs } := by
    rw [h7, h6, forEach_returnBand_eq, h5, h3]
  have hctxAt : ∀ i, s7.ctxAt i = s.ctxAt i := fun i => by rw [hall]; rfl
  refine ⟨?state, fun i hi => ?others, ?own, fun k hk => ?freed⟩
  case state => rw [hall]; rfl
  case others => exact (State.ctxAt_updCtx ..).trans ((if_neg hi).trans (hctxAt i))
  case own => exact (State.ctxAt_updCtx ..).trans ((if_pos rfl).trans (congrArg (fun x : CtxS => { x with bands := [], streams := [] }) (hctxAt n)))
  case freed => exact (congrArg (Tab.has · k) hbands).trans (forEach_returnBand_freed s5 hk)

/-- Everything an admission reserved is returned (R710). -/
theorem State.releaseAdmission_spec (s : State) (n : Nat) :
    s.releaseAdmission n = { s.freeBandsOf n with ctxs := (s.releaseAdmission n).ctxs } ∧ (∀ i, i ≠ n → (s.releaseAdmission n).ctxAt i = s.ctxAt i) ∧
      (s.releaseAdmission n).ctxAt n = { s.ctxAt n with image := none, admitCmd := none, bands := [], streams := [], banks := [], hbmGranules := 0,
                                                        share := 0, searchRate := 0 } := by
  obtain ⟨-, hothers, hown, -⟩ := s.freeBandsOf_spec n
  refine ⟨rfl, fun i hi => ?_, ?_⟩
  · rw [State.releaseAdmission, State.ctxAt_updCtx, if_neg hi, hothers i hi]
  · rw [State.releaseAdmission, State.ctxAt_updCtx, if_pos rfl, hown]

end Sys2Proof.Machine

/-! ## CONTEXT_ADMIT and CONTEXT_RELEASE -/

namespace Sys2Proof.Machine

/-! ### CONTEXT_ADMIT -/

/-- What a program asks of each band: tiles, role and rendezvous. -/
def ImageS.asked (img : ImageS) : List (Nat × Nat × Nat) := img.bands.map fun e => (e.getD 2 0, e.getD 1 0, e.getD 6 0)

/-- The context as its admission leaves it, but for its bands (R709). -/
def CtxS.admittedAs (y : CtxS) (c : CmdRef) (m : Cmd) (img : ImageS) (held : List Nat) : CtxS :=
  { y with image := some img, admitCmd := some c, banks := held, hbmGranules := (m.w 7).toNat, hbmUsed := y.hbmUsed + img.codeGranules,
           share := (m.w 8).toNat, searchRate := 1000 * (m.w 9).toNat }

/-- Every band of a context starts with its first eight code pages in place. -/
def firstPages (bs : List Nat) (s : State) : State :=
  forEach bs (fun b s => s.updBand b fun y => { y with frames := (List.range 8).map fun p => (p, p) }) s

/-- A program begins: what was admitted is bound to the context. -/
def programBegun (s : State) (c : CmdRef) (m : Cmd) (img : ImageS) (place : List (List Nat)) : State :=
  let t := (s.wake.updCtx m.ctx fun y => y.admittedAs c m img (s.freeBanks.take (ceilDiv img.commonsRows 2048))).allocBands m.ctx img.asked place true
  firstPages (t.ctxAt m.ctx).bands t

/-- A resource that a program needs is missing: a band number, a commons bank, the host window, energy, search rate or HBM (R478, R487, R709). -/
abbrev programShort (s : State) (m : Cmd) (img : ImageS) : Prop :=
  s.freeBands.length < img.asked.length ∨ s.freeBanks.length < ceilDiv img.commonsRows 2048 ∨ (s.ctxAt m.ctx).window = [] ∨
    s.energyFits (m.w 8).toNat = false ∨ s.searchFits (1000 * (m.w 9).toNat) = false ∨
    (m.w 7).toNat < (s.ctxAt m.ctx).hbmUsed + img.codeGranules ∨ s.hbmFree + (s.ctxAt m.ctx).hbmUsed < (m.w 7).toNat

/-- The tiles that can be placed are the same once a command has begun. -/
theorem placeTiles_began (s : State) (c : CmdRef) (used : List Nat) (l : List (Nat × Nat)) : placeTiles (s.began c) used l = placeTiles s used l := by
  have hfree : ∀ used, (s.began c).freeTiles used = s.freeTiles used := fun _ => rfl
  induction l generalizing used with
  | nil => rfl
  | cons e l ih => simp only [placeTiles, hfree, ih]

/-- A program is admitted with everything it needs, or refused with nothing reserved (R47). -/
def programAdmission (s : State) (c : CmdRef) (m : Cmd) (img : ImageS) : State :=
  match placeTiles s [] (img.asked.map fun r => (r.1, r.2.1)) with
  | none => s.refuseOpen c NO_RESERVATION
  | some place => if programShort s m img then s.refuseOpen c NO_RESERVATION else programBegun s c m img place

section ContextAdmit

variable {s : State} {c : CmdRef} {m : Cmd} (h : s.runs c 0x0900 m)

include h

theorem exec_contextAdmit_admitted (hadm : (s.ctxAt m.ctx).admitted = true) : exec (.contextAdmit c) s = .next ((s.began c).refuseOpen c BUSY) := by
  change execContextAdmit c s = _
  rw [execContextAdmit, onCmd_runs _ h]
  exact congrArg Host.Outcome.next (if_pos hadm)

variable {b : List Byte} (hadm : (s.ctxAt m.ctx).admitted = false) (hb : sgIn m 3 s = .bytes b)

include hadm hb

theorem exec_contextAdmit_badImage {st d : Nat} (hbad : imageCheck b = some (st, d)) :
    exec (.contextAdmit c) s = .next ((s.began c).refuse c st d) := by
  change execContextAdmit c s = _
  rw [execContextAdmit, onCmd_runs _ h]
  have hopen : ¬ ((s.began c).ctxAt m.ctx).admitted = true := by
    change ¬ (s.ctxAt m.ctx).admitted = true
    simp [hadm]
  simp only [if_neg hopen, withSg, sgIn_began, hb, hbad]

/-- Past the checks of the image, the reservation decides. -/
theorem exec_contextAdmit_checked (hgood : imageCheck b = none) :
    exec (.contextAdmit c) s = .next (programAdmission (s.began c) c m (parseImage b)) := by
  change execContextAdmit c s = _
  rw [execContextAdmit, onCmd_runs _ h]
  have hopen : ¬ ((s.began c).ctxAt m.ctx).admitted = true := by
    change ¬ (s.ctxAt m.ctx).admitted = true
    simp [hadm]
  simp only [if_neg hopen, withSg, sgIn_began, hb, hgood]
  rfl

end ContextAdmit

/-- The first pages change the bands of the list alone, and those in their frames. -/
theorem firstPages_eq (bs : List Nat) (s : State) : firstPages bs s = { s with bands := (firstPages bs s).bands } :=
  forEach_keeps (P := fun t => t = { s with bands := t.bands }) _ _ (fun b _ u hu => by rw [u.updBand_eq, hu]) rfl

theorem get?_firstPages_other {bs : List Nat} (s : State) {k : Nat} (hk : k ∉ bs) : Tab.get? (firstPages bs s).bands k = Tab.get? s.bands k := by
  refine forEach_keeps (P := fun t => Tab.get? t.bands k = Tab.get? s.bands k) _ _ (fun b hb u hu => ?_) rfl
  have hne : k ≠ b := fun e => hk (e ▸ hb)
  rw [State.get?_updBand, if_neg hne, hu]

/-- A band keeps its context and whether it runs a program. -/
theorem get?_firstPages_given (bs : List Nat) (s : State) {k n : Nat} {p : Bool} (h : ∃ b, Tab.get? s.bands k = some b ∧ b.ctx = n ∧ b.program = p) :
    ∃ b, Tab.get? (firstPages bs s).bands k = some b ∧ b.ctx = n ∧ b.program = p := by
  refine forEach_keeps (P := fun t => ∃ b, Tab.get? t.bands k = some b ∧ b.ctx = n ∧ b.program = p) _ _ (fun b _ u hu => ?_) h
  obtain ⟨x, hx, hctx, hprogram⟩ := hu
  rw [State.get?_updBand]
  split
  case isTrue e =>
    subst e
    rw [hx]
    exact ⟨_, rfl, hctx, hprogram⟩
  case isFalse => exact ⟨x, hx, hctx, hprogram⟩

/-- `t` is `s` with a program begun in context `n`, on bands of the numbers `nums`. -/
structure ProgramBegun (n : Nat) (nums : List Nat) (y : CtxS) (s t : State) : Prop where
  state : t = { s with ctxs := t.ctxs, bands := t.bands, tiles := t.tiles, rvs := t.rvs, pairs := t.pairs, epoch := t.epoch,
                       life := t.life, events := t.events, tether := t.tether }
  own : t.ctxAt n = { y with bands := nums }
  others : ∀ k, k ≠ n → t.ctxAt k = s.ctxAt k
  kept : ∀ k, k ∉ nums → Tab.get? t.bands k = Tab.get? s.bands k
  given : ∀ k ∈ nums, (t.bandAt k).ctx = n ∧ (t.bandAt k).program = true

theorem programBegun_spec {s : State} (c : CmdRef) {m : Cmd} {img : ImageS} (place : List (List Nat)) (hroom : ¬ programShort s m img) :
    ProgramBegun m.ctx (s.freeBands.take img.asked.length)
      ((s.ctxAt m.ctx).admittedAs c m img (s.freeBanks.take (ceilDiv img.commonsRows 2048))) s (programBegun s c m img place) := by
  unfold programBegun
  generalize hheld : s.freeBanks.take (ceilDiv img.commonsRows 2048) = held
  have hbound : s.wake.updCtx m.ctx (fun y => y.admittedAs c m img held) = { s.updCtx m.ctx (fun y => y.admittedAs c m img held) with
      life := s.wake.life, events := s.wake.events, tether := s.wake.tether } := by rw [s.wake_eq]; rfl
  generalize s.wake.updCtx m.ctx (fun y => y.admittedAs c m img held) = u at hbound ⊢
  have hctxAt : ∀ k, u.ctxAt k = (s.updCtx m.ctx fun y => y.admittedAs c m img held).ctxAt k := fun k => by rw [hbound]; rfl
  have hbands : u.bands = s.bands := by rw [hbound]; rfl
  have hfree : u.freeBands = s.freeBands := by simp only [State.freeBands, hbands]
  have halloc := State.allocBands_spec (s := u) m.ctx img.asked place true (by rw [hfree]; exact Nat.le_of_not_lt fun hlt => hroom (.inl hlt))
  rw [hfree] at halloc
  extract_lets t
  change BandsGiven _ _ _ u t at halloc
  have hpages := firstPages_eq (t.ctxAt m.ctx).bands t
  have hnums : (t.ctxAt m.ctx).bands = s.freeBands.take img.asked.length := by rw [halloc.own]
  have hafter : ∀ k, (firstPages (t.ctxAt m.ctx).bands t).ctxAt k = t.ctxAt k := fun k => by rw [hpages]; rfl
  refine ⟨?state, ?own, fun k hk => ?others, fun k hk => ?kept, fun k hk => ?given⟩
  case state => rw [hpages, halloc.state, hbound]; rfl
  case own => rw [hafter, halloc.own, hctxAt, State.ctxAt_updCtx, if_pos rfl]
  case others => rw [hafter, halloc.others k hk, hctxAt, State.ctxAt_updCtx, if_neg hk]
  case kept => rw [get?_firstPages_other t (hnums ▸ hk), halloc.kept k hk, hbands]
  case given =>
    obtain ⟨b, hb, hctx, hprogram⟩ := get?_firstPages_given (t.ctxAt m.ctx).bands t (halloc.given k hk)
    simp only [State.bandAt, Tab.getD, hb, Option.getD_some]
    exact ⟨hctx, hprogram⟩

/-! ### CONTEXT_RELEASE -/

theorem Tab.get?_mapVals {α β : Type} (t : Tab α) (f : Nat → α → β) (k : Nat) : Tab.get? (Tab.mapVals t f) k = (Tab.get? t k).map (f k) := by
  induction t with
  | nil => rfl
  | cons e t ih =>
    obtain ⟨i, x⟩ := e
    by_cases hi : i = k
    · subst hi; simp [Tab.mapVals, Tab.get?]
    · simpa [Tab.mapVals, Tab.get?, hi] using ih

section ContextRelease

variable {s : State} {c : CmdRef} {m : Cmd} (h : s.runs c 0x0901 m)

include h

theorem exec_contextRelease_session (hs : (s.sessionAt m.ctx).isSome = true) : exec (.contextRelease c) s = .next ((s.began c).refuseOpen c BUSY) := by
  change execContextRelease c s = _
  rw [execContextRelease, onCmd_runs _ h]
  exact congrArg Host.Outcome.next (if_pos hs)

theorem exec_contextRelease (hs : s.sessionAt m.ctx = none) :
    exec (.contextRelease c) s = .next ((((s.began c).dropClaims m.ctx).releaseContext m.ctx).done c) := by
  change execContextRelease c s = _
  rw [execContextRelease, onCmd_runs _ h]
  have hnone : ¬ ((s.began c).ctxAt m.ctx).session.isSome = true := by
    change ¬ (s.sessionAt m.ctx).isSome = true
    simp [hs]
  exact congrArg Host.Outcome.next (if_neg hnone)

end ContextRelease

/-- A CONTEXT_ADMIT that still waits ends with the release. -/
def admitAborted (n : Nat) (s : State) : State :=
  match (s.ctxAt n).admitCmd with
  | some r => s.refuseOpen r ABORTED
  | none => s

/-- A context's Reel entries are free again (R138). -/
def reelFreed (n : Nat) (s : State) : State :=
  { s with reel := Tab.mapVals s.reel fun _ e => if e.owner = n ∧ e.state ≠ 0 then e.freed else e }

theorem releaseContext_image {s : State} {n : Nat} {img : ImageS} (h : (s.ctxAt n).image = some img) :
    s.releaseContext n = (((reelFreed n (admitAborted n s)).credit n 2 img.codeGranules).releaseAdmission n).noteIdle := by
  simp only [State.releaseContext, h]
  rfl

theorem releaseContext_none {s : State} {n : Nat} (h : (s.ctxAt n).image = none) : s.releaseContext n = s := by
  simp only [State.releaseContext, h]

theorem admitAborted_spec (n : Nat) (s : State) : admitAborted n s = { s with cmds := (admitAborted n s).cmds } ∧
    (∀ d, (s.ctxAt n).admitCmd ≠ some d → (admitAborted n s).findCmd d = s.findCmd d) ∧
    ∀ d, (s.findCmd d).isSome = true → ((admitAborted n s).findCmd d).isSome = true := by
  unfold admitAborted
  split
  case h_1 r hr =>
    refine ⟨rfl, fun d hd => ?_, fun d hd => ?_⟩
    · have hne : d ≠ r := fun e => hd (e ▸ hr)
      simp [State.refuseOpen, hne]
    · rw [State.refuseOpen, State.findCmd_endCmd]
      split
      · simpa using hd
      · exact hd
  case h_2 => exact ⟨rfl, fun _ _ => rfl, fun _ hd => hd⟩

/-- `t` is `s` with the program of context `n` released. -/
structure ContextReleased (n : Nat) (s t : State) : Prop where
  state : t = { s with cmds := t.cmds, reel := (reelFreed n s).reel, ctxs := t.ctxs, life := t.life, tiles := t.tiles, power := t.power,
                       events := t.events, tether := t.tether, jobs := t.jobs, dep := t.dep, bands := t.bands, rvs := t.rvs, pairs := t.pairs }
  own : (t.ctxAt n).image = none ∧ (t.ctxAt n).bands = [] ∧ (t.ctxAt n).banks = [] ∧ (t.ctxAt n).share = 0 ∧ (t.ctxAt n).searchRate = 0 ∧
    (t.ctxAt n).hbmGranules = 0
  freed : ∀ k ∈ (s.ctxAt n).bands, Tab.has t.bands k = false
  cmds : t.cmds = (admitAborted n s).cmds

theorem releaseContext_released {s : State} {n : Nat} {img : ImageS} (h : (s.ctxAt n).image = some img) :
    ContextReleased n s (s.releaseContext n) := by
  rw [releaseContext_image h]
  obtain ⟨haborted, -, -⟩ := admitAborted_spec n s
  have hcredit := ChargeStep.credit (n := n) (reelFreed n (admitAborted n s)) 2 img.codeGranules
  have hbase : (reelFreed n (admitAborted n s)).credit n 2 img.codeGranules =
      { s with cmds := (admitAborted n s).cmds, reel := (reelFreed n s).reel,
               ctxs := ((reelFreed n (admitAborted n s)).credit n 2 img.codeGranules).ctxs } := by
    rw [haborted]
    rfl
  have hown := hcredit.own
  have hctxAt : (reelFreed n (admitAborted n s)).ctxAt n = s.ctxAt n := by rw [haborted]; rfl
  rw [hctxAt] at hown
  generalize (reelFreed n (admitAborted n s)).credit n 2 img.codeGranules = u at hbase hown ⊢
  have hfreed := u.freeBandsOf_spec n
  obtain ⟨hrelease, -, hreleased⟩ := u.releaseAdmission_spec n
  have hidle := (u.releaseAdmission n).noteIdle_eq
  have hafter : ((u.releaseAdmission n).noteIdle).ctxAt n = (u.releaseAdmission n).ctxAt n := by rw [hidle]; rfl
  refine ⟨?state, ?own, fun k hk => ?freed, ?cmds⟩
  case state => rw [hidle, hrelease, hfreed.state, hbase]
  case own => simp only [hafter, hreleased, and_self]
  case freed =>
    have hbands : ((u.releaseAdmission n).noteIdle).bands = (u.freeBandsOf n).bands := by rw [hidle, hrelease]
    rw [hbands]
    exact hfreed.freed k (by rw [hown]; exact hk)
  case cmds => rw [hidle, hrelease, hfreed.state, hbase]

/-- What a freed Reel table lists: this context's entries free, the others as they were (R138). -/
theorem get?_reelFreed {s : State} {n k : Nat} {e e' : ReelEntry} (h : Tab.get? s.reel k = some e) (h' : Tab.get? (reelFreed n s).reel k = some e') :
    (e.owner = n → e'.state = 0) ∧ (e.owner ≠ n → e' = e) := by
  rw [reelFreed, Tab.get?_mapVals, h, Option.map_some, Option.some.injEq] at h'
  subst h'
  split
  case isTrue hfree => exact ⟨fun _ => rfl, fun hno => absurd hfree.1 hno⟩
  case isFalse hkeep => exact ⟨fun ho => by by_contra hst; exact hkeep ⟨ho, hst⟩, fun _ => rfl⟩

/-- Settles O32: CONTEXT_ADMIT by its first failing check or in full, CONTEXT_RELEASE with all that the context has. -/
theorem contextsReserveAllOrNothing : Obligations.ContextsReserveAllOrNothing := by
  refine ⟨?admission, ?release⟩
  case admission =>
    intro s c m b x h href hx
    refine ⟨fun hadm => exec_contextAdmit_admitted h (hx ▸ hadm), fun st d hadm hb hbad => exec_contextAdmit_badImage h (hx ▸ hadm) hb hbad,
      fun img req banks hadm hb hgood himg hreq hbanks => ?_⟩
    have hasked : req = img.asked.map fun r => (r.1, r.2.1) := by rw [hreq, ImageS.asked, List.map_map]; rfl
    have hlen : req.length = img.asked.length := by rw [hasked, List.length_map]
    subst hx himg hbanks
    rw [hlen]
    refine ⟨fun hmissing => ?_, fun hplace hbands hbanks hwin henergy hsearch hused hfree => ?_⟩
    · rcases hplace : placeTiles s [] req with _ | place
      · rw [exec_contextAdmit_checked h hadm hb hgood, programAdmission, placeTiles_began, ← hasked, hplace]
      · have hshort : programShort s m (parseImage b) := by simpa [hplace] using hmissing
        have hshort' : programShort (s.began c) m (parseImage b) := hshort
        rw [exec_contextAdmit_checked h hadm hb hgood, programAdmission, placeTiles_began, ← hasked, hplace]
        exact congrArg Host.Outcome.next (if_pos hshort')
    · obtain ⟨place, hplace⟩ := Option.isSome_iff_exists.1 hplace
      have hroom : ¬ programShort (s.began c) m (parseImage b) := by
        change ¬ programShort s m (parseImage b)
        rintro (hno | hno | hno | hno | hno | hno | hno)
        · omega
        · omega
        · exact hwin hno
        · simp [henergy] at hno
        · simp [hsearch] at hno
        · omega
        · omega
      have hexec := exec_contextAdmit_checked h hadm hb hgood
      rw [programAdmission, placeTiles_began, ← hasked, hplace] at hexec
      simp only [if_neg hroom] at hexec
      have hbegun := programBegun_spec (s := s.began c) c place hroom
      obtain ⟨hcount, hnew⟩ := freeBands_take_spec hbands
      have hbanksFree : ∀ k ∈ s.freeBanks.take (ceilDiv (parseImage b).commonsRows 2048), k < 56 ∧ ∀ n, n < 8 → k ∉ (s.ctxAt n).banks := fun k hk => by
        have hmem := List.mem_of_mem_take hk
        simp only [State.freeBanks, List.mem_filter, List.mem_range, Bool.and_eq_true, List.all_eq_true, Bool.not_eq_true',
          List.contains_eq_mem, decide_eq_false_iff_not] at hmem
        exact ⟨hmem.1, hmem.2.2⟩
      generalize programBegun (s.began c) c m (parseImage b) place = t at hexec hbegun
      obtain ⟨hstate, hown, hothers, hkept, hgiven⟩ := hbegun
      obtain ⟨hwaits, hcmds⟩ := State.waits_of_began h (u := t) (by rw [hstate])
      refine ⟨t, _, hexec, hown, rfl, rfl, rfl, rfl, rfl, rfl, rfl, rfl, rfl, rfl, ?_, fun k hk => ⟨hnew k hk, hgiven k hk⟩, ?_, hbanksFree,
        hwaits, hothers, fun k hk => hkept k fun hmem => ?_, hcmds, by rw [hstate]; rfl⟩
      · exact hcount.trans (List.length_map _)
      · change (s.freeBanks.take _).length = _
        rw [List.length_take, min_eq_left hbanks]
      · have hno := hnew k hmem
        simp [hk] at hno
  case release =>
    intro s c m h
    refine ⟨fun hs => exec_contextRelease_session h hs, fun hs => ?_⟩
    have hexec := exec_contextRelease h hs
    have hdrop := ChargeStep.dropClaims (n := m.ctx) (s.began c)
    generalize (s.began c).dropClaims m.ctx = u at hexec hdrop
    have hcmds : u.cmds = (s.began c).cmds := by rw [hdrop.state]
    have hfound : (u.findCmd c).isSome = true := by rw [State.findCmd_congr hcmds]; simpa using h.isSome
    have hother : ∀ d, d ≠ c → u.findCmd d = s.findCmd d := fun d hd => by simp [State.findCmd_congr hcmds, hd]
    have himage : (u.ctxAt m.ctx).image = (s.ctxAt m.ctx).image := by rw [hdrop.own]; rfl
    have hadmit : (u.ctxAt m.ctx).admitCmd = (s.ctxAt m.ctx).admitCmd := by rw [hdrop.own]; rfl
    have hbands : (u.ctxAt m.ctx).bands = (s.ctxAt m.ctx).bands := by rw [hdrop.own]; rfl
    have hreel : u.reel = s.reel := by rw [hdrop.state]; rfl
    cases hi : (s.ctxAt m.ctx).image with
    | none =>
      rw [releaseContext_none (himage.trans hi)] at hexec
      refine ⟨_, hexec, State.answered_done OK 0 [] [] hfound, himage.trans hi, nofun,
        fun d hd _ => (otherCmds_done u c OK 0 [] [] d hd).trans (hother d hd), ?_⟩
      rw [hdrop.state]
      exact ⟨rfl, rfl, rfl, rfl, rfl, rfl⟩
    | some img =>
      have hreleased := releaseContext_released (himage.trans hi)
      obtain ⟨-, hnamed, hstays⟩ := admitAborted_spec m.ctx u
      generalize u.releaseContext m.ctx = v at hexec hreleased
      obtain ⟨hnone, hempty⟩ := hreleased.own
      have hv := hreleased.state
      have hvfound : (v.findCmd c).isSome = true := by rw [State.findCmd_congr hreleased.cmds]; exact hstays c hfound
      refine ⟨_, hexec, State.answered_done OK 0 [] [] hvfound, hnone, fun _ => ?_, fun d hd hwait => ?_, ?_⟩
      · obtain ⟨hb, hbk, hsh, hsr, hhg⟩ := hempty
        refine ⟨hb, hbk, hsh, hsr, hhg, fun k hk => hreleased.freed k (hbands ▸ hk), fun k e e' he he' => ?_⟩
        have hvreel : v.reel = (reelFreed m.ctx u).reel := by rw [hv]
        exact get?_reelFreed (s := u) (hreel ▸ he) (hvreel ▸ he')
      · have hv' := (State.findCmd_congr hreleased.cmds d).trans (hnamed d (hadmit ▸ hwait))
        exact (otherCmds_done v c OK 0 [] [] d hd).trans (hv'.trans (hother d hd))
      · rw [hv, hdrop.state]
        exact ⟨rfl, rfl, rfl, rfl, rfl, rfl⟩

end Sys2Proof.Machine

/-! ## START_SESSION, STOP_SESSION and SET_STAGE_MODE -/

namespace Sys2Proof.Machine

theorem admitSession_began (s : State) (c : CmdRef) (n : Nat) (r : StartReq) (m : MapS) (l : List Bind) :
    admitSession (s.began c) n r m l = admitSession s n r m l := by
  simp only [admitSession, placeTiles_began]
  rfl

theorem bindBad_began (s : State) (c : CmdRef) (n : Nat) (r : StartReq) (b : Bind) : bindBad (s.began c) n r b = bindBad s n r b := rfl
theorem entryBad_began (s : State) (c : CmdRef) (n : Nat) (b : Bind) : entryBad (s.began c) n b = entryBad s n b := rfl
theorem listBad_began (s : State) (c : CmdRef) (n : Nat) (r : StartReq) (l : List Bind) : listBad (s.began c) n r l = listBad s n r l := rfl

theorem newIndexes_of_admitSession {s : State} {n : Nat} {r : StartReq} {m : MapS} {l : List Bind} {a : Admission}
    (h : admitSession s n r m l = some a) (hpose : (profileAt r.profile).pose = false) : a.newIndexes = [] := by
  simp only [admitSession, hpose, Bool.false_eq_true, if_false] at h
  split at h
  case h_1 =>
    split at h
    case isTrue => cases h
    case isFalse =>
      rw [← Option.some.inj h]
  case h_2 => cases h

/-! ### What beginning a session leaves alone -/

/-- `t` is `s` but for context `n` and what its session takes: commands, host memory, clocks and the stores stay. -/
structure SessionStep (n : Nat) (s t : State) : Prop where
  cmds : t.cmds = s.cmds
  hostMem : t.hostMem = s.hostMem
  time : t.time = s.time
  age : t.age = s.age
  sec : t.sec = s.sec
  dep : t.dep = s.dep
  others : ∀ k, k ≠ n → t.ctxAt k = s.ctxAt k

section SessionStep

variable {n : Nat}

theorem SessionStep.refl (s : State) : SessionStep n s s := ⟨rfl, rfl, rfl, rfl, rfl, rfl, fun _ _ => rfl⟩

theorem SessionStep.trans {s t u : State} (h : SessionStep n s t) (k : SessionStep n t u) : SessionStep n s u :=
  ⟨k.cmds.trans h.cmds, k.hostMem.trans h.hostMem, k.time.trans h.time, k.age.trans h.age, k.sec.trans h.sec, k.dep.trans h.dep,
    fun i hi => (k.others i hi).trans (h.others i hi)⟩

theorem SessionStep.forEach {α : Type} (l : List α) (f : α → State → State) (hf : ∀ x u, SessionStep n u (f x u)) (s : State) :
    SessionStep n s (Machine.forEach l f s) :=
  forEach_keeps (P := SessionStep n s) l f (fun x _ u hu => hu.trans (hf x u)) (.refl s)

theorem SessionStep.updCtx (s : State) (f : CtxS → CtxS) : SessionStep n s (s.updCtx n f) :=
  ⟨rfl, rfl, rfl, rfl, rfl, rfl, fun k hk => by rw [State.ctxAt_updCtx, if_neg hk]⟩

theorem SessionStep.wake (s : State) : SessionStep n s s.wake := by
  rw [s.wake_eq]
  exact ⟨rfl, rfl, rfl, rfl, rfl, rfl, fun _ _ => rfl⟩

theorem SessionStep.of_charge {s t : State} (h : ChargeStep n s t) : SessionStep n s t := by
  have hs := h.state
  exact ⟨by rw [hs], by rw [hs], by rw [hs], by rw [hs], by rw [hs], by rw [hs], h.others⟩

theorem SessionStep.allocBands (s : State) (req : List (Nat × Nat × Nat)) (place : List (List Nat)) (program : Bool) :
    SessionStep n s (s.allocBands n req place program) := by
  obtain ⟨hs, -, hothers, -⟩ := s.allocBands_frame n req place program
  exact ⟨by rw [hs], by rw [hs], by rw [hs], by rw [hs], by rw [hs], by rw [hs], hothers⟩

theorem SessionStep.updSession (s : State) (f : SessionS → SessionS) : SessionStep n s (s.updSession n f) := by
  unfold State.updSession
  split
  · exact .updCtx s _
  · exact .refl s

theorem SessionStep.bindEntries (l : List Bind) (s : State) : SessionStep n s (bindEntries n l s) := by
  refine .forEach _ _ (fun b u => .forEach _ _ (fun i v => ?_) u) s
  split
  · exact .updCtx v _
  · exact .refl v

theorem SessionStep.bindStreams (a : Admission) (want : List (Nat × Nat × Bool)) (cams : List Bind) (s : State) :
    SessionStep n s (bindStreams n a want cams s) := by
  refine .forEach _ _ (fun _ _ => ?_) s
  exact ⟨rfl, rfl, rfl, rfl, rfl, rfl, fun _ _ => rfl⟩

theorem SessionStep.bindPairs (a : Admission) (cams : List Bind) (s : State) : SessionStep n s (bindPairs n a cams s) :=
  .forEach _ _ (fun _ u => .updCtx u _) s

theorem SessionStep.armEntries (a : Admission) (want : List (Nat × Nat × Bool)) (s : State) : SessionStep n s (armEntries n a want s) := by
  refine .forEach _ _ (fun _ _ => ?_) s
  exact ⟨rfl, rfl, rfl, rfl, rfl, rfl, fun _ _ => rfl⟩

theorem SessionStep.bindSignals (b : Bind) (s : State) : SessionStep n s (bindSignals n b s) := by
  unfold Machine.bindSignals
  split
  · exact .updCtx s _
  · exact .refl s

end SessionStep

/-! ### Ports that a session binds -/

/-- `t` is `s` with ports changed and events raised. -/
def PortsBound (s t : State) : Prop := t = { s with ports := t.ports, events := t.events, tether := t.tether }

theorem PortsBound.refl (s : State) : PortsBound s s := rfl

theorem PortsBound.trans {s t u : State} (h : PortsBound s t) (k : PortsBound t u) : PortsBound s u := by
  unfold PortsBound at *
  rw [k, h]

theorem PortsBound.updPort (s : State) (p : Nat) (f : PortS → PortS) : PortsBound s (s.updPort p f) := rfl

theorem PortsBound.enterDetecting (p : Nat) (s : State) : PortsBound s (enterDetecting p s) := rfl

theorem PortsBound.raisePort (s : State) (p code detail : Nat) : PortsBound s (raisePort p code detail s) := by
  unfold Machine.raisePort
  split <;> rfl

theorem PortsBound.portReady (p : Nat) (s : State) : PortsBound s (portReady p s) := by
  unfold Machine.portReady
  extract_lets q s1 s2 s3
  have h1 : PortsBound s s1 := by
    unfold s1
    split
    · exact (PortsBound.updPort s p _).trans (.raisePort _ _ _ _)
    · exact .refl s
  split
  · have h2 : PortsBound s1 s2 := .updPort s1 p _
    have h3 : PortsBound s2 s3 := by
      unfold s3
      split
      · exact .raisePort s2 _ _ _
      · exact .refl s2
    have h := h1.trans (h2.trans h3)
    split
    · exact h.trans (.raisePort s3 _ _ _)
    · exact h
  · exact h1.trans (.updPort s1 p _)

theorem PortsBound.bindPort (p : Nat) (s : State) : PortsBound s (bindPort p s) := by
  unfold Machine.bindPort
  extract_lets u
  have hu : PortsBound s u := .updPort s p _
  split
  · exact hu.trans ((PortsBound.updPort u p _).trans (.enterDetecting p _))
  · exact hu.trans (.portReady p u)
  · exact hu

/-! ### START_SESSION -/

/-- The default indexes of a map of the context's own (R428). -/
theorem SessionStep.addIndexes {n map : Nat} (l : List (Nat × IndexS)) (s : State) (h : l = [] ∨ (s.mapAt map).owner = n) :
    SessionStep n s (Machine.forEach l (fun e s => s.addIndex map e.1 e.2) s) := by
  rcases h with rfl | h
  · exact .refl s
  · refine (forEach_keeps (P := fun u => SessionStep n s u ∧ (u.mapAt map).owner = n) l _ (fun e _ u hu => ?_) ⟨.refl s, h⟩).1
    obtain ⟨hstep, howner⟩ := hu
    have hcharge : SessionStep n u (u.charge (u.mapAt map).owner 2 e.2.granules) := by
      rw [howner]
      exact .of_charge (.charge u 2 _)
    have hmaps : (u.charge (u.mapAt map).owner 2 e.2.granules).maps = u.maps := rfl
    unfold State.addIndex
    generalize u.charge (u.mapAt map).owner 2 e.2.granules = v at hcharge hmaps ⊢
    have hupd : ∀ f, SessionStep n v (v.updMap map f) := fun f => by
      unfold State.updMap
      split
      · exact ⟨rfl, rfl, rfl, rfl, rfl, rfl, fun _ _ => rfl⟩
      · exact .refl v
    refine ⟨hstep.trans (hcharge.trans (hupd _)), ?_⟩
    have hv : (v.mapAt map).owner = n := by rw [State.mapAt, hmaps]; exact howner
    simp only [State.mapAt, Tab.getD, State.get?_updMap, if_pos] at hv ⊢
    cases hm : Tab.get? v.maps map with
    | none => simpa [hm] using hv
    | some x => simpa [hm] using hv

/-- The session stands in its context, with its bands and its claims on weights. -/
def sessionEntered (n : Nat) (x : SessionS) (s : State) : State :=
  (s.updCtx n fun c => { c with session := some { x with bands := c.bands } }).claimWeights n

/-- The session's ports are bound, and what they bring begins anew. -/
def sessionBound (n : Nat) (l : List Bind) (x : SessionS) (s : State) : State :=
  let s := forEach x.ports bindPort s
  forEach l (bindSignals n) { s with lidars := s.lidars.filter fun e => !x.ports.contains e.1 }

theorem sessionEntered_spec (n : Nat) (x : SessionS) (s : State) : SessionStep n s (sessionEntered n x s) ∧
    ∃ bs ws, (sessionEntered n x s).sessionAt n = some { x with bands := bs, weights := ws } := by
  unfold sessionEntered State.claimWeights
  extract_lets l u
  have hentered : (s.updCtx n fun c => { c with session := some { x with bands := c.bands } }).sessionAt n =
      some { x with bands := (s.ctxAt n).bands } := by rw [State.sessionAt_updCtx, if_pos rfl]
  have hclaims : ChargeStep n (s.updCtx n fun c => { c with session := some { x with bands := c.bands } }) u :=
    .forEach _ _ (fun w v => (ChargeStep.claim v _ _).trans (.updObj _ _ _)) _
  have hu : u.sessionAt n = some { x with bands := (s.ctxAt n).bands } := by
    rw [State.sessionAt, hclaims.own]
    exact hentered
  refine ⟨(SessionStep.updCtx s _).trans ((SessionStep.of_charge hclaims).trans (.updSession u _)), (s.ctxAt n).bands, l.map fun w => (w.1, !w.2), ?_⟩
  rw [State.sessionAt_updSession, if_pos rfl, hu]
  rfl

theorem sessionBound_spec (n : Nat) (l : List Bind) (x : SessionS) (s : State) : SessionStep n s (sessionBound n l x s) ∧
    (sessionBound n l x s).sessionAt n = s.sessionAt n := by
  unfold sessionBound
  extract_lets u
  have hports : PortsBound s u := forEach_keeps (P := PortsBound s) _ _ (fun p _ v hv => hv.trans (.bindPort p v)) (.refl s)
  have hu : SessionStep n s { u with lidars := u.lidars.filter fun e => !x.ports.contains e.1 } := by
    rw [hports]
    exact ⟨rfl, rfl, rfl, rfl, rfl, rfl, fun _ _ => rfl⟩
  have hsame : u.sessionAt n = s.sessionAt n := by rw [hports]; rfl
  refine ⟨hu.trans (.forEach _ _ (fun b v => .bindSignals b v) _), ?_⟩
  refine forEach_keeps (P := fun v => v.sessionAt n = s.sessionAt n) _ _ (fun b _ v hv => ?_) hsame
  unfold bindSignals
  split
  · rw [State.sessionAt_updCtx, if_pos rfl]; exact hv
  · exact hv

/-- A session begins where everything it takes has been reserved (R68, R71, R208, R428, R622, R702). -/
theorem beginSession_spec {n : Nat} {r : StartReq} (l : List Bind) {a : Admission} {s : State}
    (h : a.newIndexes = [] ∨ (s.mapAt r.map).owner = n) : SessionStep n s (beginSession n r l a s) ∧
      ∃ x, (beginSession n r l a s).sessionAt n = some x ∧ x.profile = r.profile ∧ x.map = r.map ∧ x.stopping = false ∧ x.rings = r.rings ∧
        x.healthMs = r.health := by
  unfold beginSession
  extract_lets p s1 cams want used number s2 s3 s4 s5 s6 s7 s8 s9 x s10 s11 s12
  have h2 : SessionStep n s s2 := (SessionStep.wake s).trans ⟨rfl, rfl, rfl, rfl, rfl, rfl, fun _ _ => rfl⟩
  have hmaps : s2.maps = s.maps := by
    have hwake : s1.maps = s.maps := by unfold s1; rw [s.wake_eq]
    exact hwake
  have h3 : SessionStep n s2 s3 := .addIndexes _ s2 (h.imp_right fun e => by rw [State.mapAt, hmaps]; exact e)
  have h4 : SessionStep n s3 s4 := (SessionStep.of_charge (.charge s3 2 _)).trans (.allocBands _ _ _ _)
  have h6 : SessionStep n s4 s6 := (SessionStep.updCtx s4 _).trans (.bindEntries l s5)
  have h7 : SessionStep n s6 s7 := (SessionStep.bindStreams a want cams s6).trans (.bindPairs a cams _)
  have h8 : SessionStep n s7 s8 := by
    refine .forEach _ _ (fun _ _ => ?_) s7
    exact ⟨rfl, rfl, rfl, rfl, rfl, rfl, fun _ _ => rfl⟩
  have h9 : SessionStep n s8 s9 := .armEntries a want s8
  obtain ⟨h10, bs, ws, hentered⟩ := sessionEntered_spec n x s9
  obtain ⟨hbound, hsame⟩ := sessionBound_spec n l x (sessionEntered n x s9)
  change SessionStep n s (sessionBound n l x (sessionEntered n x s9)) ∧
    ∃ y, (sessionBound n l x (sessionEntered n x s9)).sessionAt n = some y ∧ _
  exact ⟨(h2.trans (h3.trans (h4.trans h6))).trans ((h7.trans (h8.trans h9)).trans (h10.trans hbound)), _, hsame.trans hentered, rfl, rfl, rfl, rfl,
    rfl⟩

/-- A session is admitted with everything it takes, or refused with nothing reserved (R47). -/
def sessionAdmission (s : State) (c : CmdRef) (n : Nat) (r : StartReq) (mp : MapS) (l : List Bind) : State :=
  match admitSession s n r mp l with
  | none => s.refuseOpen c NO_RESERVATION
  | some a => (beginSession n r l a s).done c OK 0 (startBody (beginSession n r l a s) n)

section StartSession

variable {s : State} {c : CmdRef} {m : Cmd} {r : StartReq} (h : s.runs c 0x0100 m) (hr : startFields m = .inr r)

include h hr

theorem exec_startSession_admitted (hadm : (s.ctxAt m.ctx).admitted = true) : exec (.startSession c) s = .next ((s.began c).refuseOpen c BUSY) := by
  change execStartSession c s = _
  rw [execStartSession, onCmd_runs _ h]
  simp only [hr]
  exact congrArg Host.Outcome.next (if_pos hadm)

variable {b : List Byte} {l : List Bind} (hadm : (s.ctxAt m.ctx).admitted = false) (hlen : m.sgTotal 23 % 16 = 0) (hb : sgIn m 23 s = .bytes b)
  (hl : l = (List.range (b.length / 16)).map fun i => Bind.ofBytes (slice b (16 * i) 16))

include hadm hlen hb

/-- Past the checks of the fields and the reference, the map decides next. -/
theorem exec_startSession_noMap (hmap : Tab.get? s.maps r.map = none) : exec (.startSession c) s = .next ((s.began c).badWord c 7) := by
  change execStartSession c s = _
  rw [execStartSession, onCmd_runs _ h]
  have hopen : ¬ ((s.began c).ctxAt m.ctx).admitted = true := by
    change ¬ (s.ctxAt m.ctx).admitted = true
    simp [hadm]
  have hnone : (if ((s.began c).mapAt r.map).withdrawn = true then none else Tab.get? (s.began c).maps r.map) = none := by
    split
    · rfl
    · exact hmap
  simp only [hr, if_neg hopen, if_neg (not_not.2 hlen), withSg, sgIn_began, hb, hnone]

variable {mp : MapS} (hmap : Tab.get? s.maps r.map = some mp) (hwith : mp.withdrawn = false) (hserves : mapServes mp m.ctx r.profile = true)
  (hbind : ((l.findSome? fun b => (bindBad s m.ctx r b).orElse fun _ => entryBad s m.ctx b).orElse fun _ => listBad s m.ctx r l) = none)

include hl hmap hwith hserves hbind

/-- Past the bindings, the reservation decides (R47). -/
theorem exec_startSession_checked : exec (.startSession c) s = .next (sessionAdmission (s.began c) c m.ctx r mp l) := by
  change execStartSession c s = _
  rw [execStartSession, onCmd_runs _ h]
  have hopen : ¬ ((s.began c).ctxAt m.ctx).admitted = true := by
    change ¬ (s.ctxAt m.ctx).admitted = true
    simp [hadm]
  have hat : ((s.began c).mapAt r.map).withdrawn = false := by
    change (s.mapAt r.map).withdrawn = false
    rw [State.mapAt, Tab.getD, hmap]; exact hwith
  have hsome : Tab.get? (s.began c).maps r.map = some mp := hmap
  simp only [hr, if_neg hopen, if_neg (not_not.2 hlen), withSg, sgIn_began, hb, hat, Bool.false_eq_true, if_false, hsome, hserves,
    ← hl, bindBad_began, entryBad_began, listBad_began, hbind, reduceCtorEq]
  rfl

end StartSession

/-! ### STOP_SESSION -/

/-- `t` is `s` on the way to a session's end: commands, held records, host memory, clocks, stores and the ports' claims stay. -/
structure StopStep (s t : State) : Prop where
  cmds : t.cmds = s.cmds
  hostMem : t.hostMem = s.hostMem
  held : t.held = s.held
  time : t.time = s.time
  age : t.age = s.age
  sec : t.sec = s.sec
  owner : ∀ p, (t.portAt p).owner = (s.portAt p).owner

theorem StopStep.trans {s t u : State} (h : StopStep s t) (k : StopStep t u) : StopStep s u :=
  ⟨k.cmds.trans h.cmds, k.hostMem.trans h.hostMem, k.held.trans h.held, k.time.trans h.time, k.age.trans h.age, k.sec.trans h.sec,
    fun p => (k.owner p).trans (h.owner p)⟩

theorem StopStep.of_charge {n : Nat} {s t : State} (h : ChargeStep n s t) : StopStep s t := by
  have hs := h.state
  exact ⟨by rw [hs], by rw [hs], by rw [hs], by rw [hs], by rw [hs], by rw [hs], fun p => by rw [hs]; rfl⟩

/-- `t` is `s` with Reel entries changed. -/
def ReelChanged (s t : State) : Prop := t = { s with reel := t.reel }

theorem ReelChanged.forEach_updReel (l : List Nat) (f : ReelEntry → ReelEntry) (s : State) : ReelChanged s (forEach l (fun e s => s.updReel e f) s) :=
  forEach_keeps (P := ReelChanged s) _ _ (fun e _ u hu => by unfold ReelChanged at *; rw [hu]; rfl) rfl

/-- A port that a session leaves keeps its claim (Table 4-2). -/
def PortS.unbound (q : PortS) (now : Nat) : PortS :=
  { q with bound := false, state := if q.state = .streaming then .idle else q.state, since := if q.state = .streaming then now else q.since }

/-- `t` is `s` with ports changed, none of them in its claim. -/
structure PortsLeft (s t : State) : Prop where
  state : t = { s with ports := t.ports }
  owner : ∀ p, (t.portAt p).owner = (s.portAt p).owner

theorem PortsLeft.forEach_unbound (l : List Nat) (now : State → Nat) (s : State) :
    PortsLeft s (forEach l (fun p s => s.updPort p fun q => q.unbound (now s)) s) := by
  refine forEach_keeps (P := PortsLeft s) _ _ (fun p _ u hu => ⟨?_, fun k => ?_⟩) ⟨rfl, fun _ => rfl⟩
  · rw [hu.state]; rfl
  · rw [State.portAt_updPort]
    split
    case isTrue e => subst e; exact hu.owner k
    case isFalse => exact hu.owner k

/-- A session's weights are let go (R618, R622). -/
theorem ChargeStep.dropWeights (n : Nat) (s : State) (l : List (Nat × Bool)) : ChargeStep n s (s.dropWeights n l) := by
  refine .forEach _ _ (fun w u => ?_) s
  extract_lets v
  have hv : ChargeStep n u v := .updObj u _ _
  split
  · exact hv.trans (.unclaim v _ _)
  · exact hv

/-- The queries of the stages end with their snapshots. -/
def queriesClosed (l : List (Nat × QueryS)) (s : State) : State :=
  forEach l (fun q s => { s.closeSnap (.query q.1) with queries := Tab.del s.queries q.1 }) s

theorem queriesClosed_eq (l : List (Nat × QueryS)) (s : State) :
    queriesClosed l s = { s with maps := (queriesClosed l s).maps, queries := (queriesClosed l s).queries } :=
  forEach_keeps (P := fun t => t = { s with maps := t.maps, queries := t.queries }) _ _ (fun q _ u hu => by rw [hu]; rfl) rfl

/-- The release of a context's admission keeps what a stop keeps, the session's absence and the streams. -/
theorem stopStep_release (n : Nat) (s : State) : StopStep s (s.releaseAdmission n).noteIdle ∧
    ((s.releaseAdmission n).noteIdle).sessionAt n = s.sessionAt n ∧ ((s.releaseAdmission n).noteIdle).streams = s.streams := by
  have hfreed := (s.freeBandsOf_spec n).state
  obtain ⟨hrelease, -, hown⟩ := s.releaseAdmission_spec n
  have hidle := (s.releaseAdmission n).noteIdle_eq
  have hsession : ((s.releaseAdmission n).noteIdle).sessionAt n = ((s.releaseAdmission n).ctxAt n).session := by rw [hidle]; rfl
  refine ⟨?_, by rw [hsession, hown]; rfl, by rw [hidle, hrelease, hfreed]⟩
  rw [hidle, hrelease, hfreed]
  exact ⟨rfl, rfl, rfl, rfl, rfl, rfl, fun _ => rfl⟩

/-- The end of a session without channels (R49, R73, R209, R622, R702). -/
theorem endSession_spec {n : Nat} {s : State} {x : SessionS} (hx : s.sessionAt n = some x) (hch : x.channels = []) :
    StopStep s (endSession n s) ∧ (endSession n s).sessionAt n = none ∧ ∀ e ∈ (endSession n s).streams, e.2.ctx ≠ n := by
  unfold endSession
  split
  case h_1 hnone => rw [hnone] at hx; cases hx
  case h_2 y hy =>
    obtain rfl : y = x := by rw [hy] at hx; exact Option.some.inj hx
    rw [hch]
    extract_lets s1 s2 s3 s4 mine s5 s6 loops s7 s8 s9
    have h1 : StopStep s s1 := .of_charge (.dropWeights n s y.weights)
    have h3 : StopStep s1 s3 := by
      have hreel : ReelChanged s1 s3 := .forEach_updReel y.entries _ s1
      rw [hreel]
      exact ⟨rfl, rfl, rfl, rfl, rfl, rfl, fun _ => rfl⟩
    have h4 : StopStep s3 s4 := by
      have hports : PortsLeft s3 s4 := .forEach_unbound y.ports (fun u => u.time.ticks) s3
      have hs := hports.state
      exact ⟨by rw [hs], by rw [hs], by rw [hs], by rw [hs], by rw [hs], by rw [hs], hports.owner⟩
    have h5 : StopStep s4 s5 := .of_charge (.credit (n := n) s4 2 _)
    have h7 : StopStep s6 s7 ∧ s7.streams = s6.streams := by
      have hclosed := queriesClosed_eq loops s6
      change s7 = _ at hclosed
      rw [hclosed]
      exact ⟨⟨rfl, rfl, rfl, rfl, rfl, rfl, fun _ => rfl⟩, rfl⟩
    obtain ⟨h10, hsession, hstreams⟩ := stopStep_release n s9
    have hall := h1.trans (h3.trans (h4.trans h5))
    have h6 : StopStep s5 s6 := ⟨rfl, rfl, rfl, rfl, rfl, rfl, fun _ => rfl⟩
    have h9 : StopStep s7 s9 := ⟨rfl, rfl, rfl, rfl, rfl, rfl, fun _ => rfl⟩
    refine ⟨hall.trans (h6.trans (h7.1.trans (h9.trans h10))), ?_, fun e he => ?_⟩
    · rw [hsession]
      exact (State.sessionAt_updCtx ..).trans (if_pos rfl)
    · have hmem : e ∈ s6.streams := by
        rw [hstreams] at he
        exact h7.2 ▸ he
      simpa using (List.mem_filter.1 hmem).2

/-! ### The commands STOP_SESSION and SET_STAGE_MODE -/

/-- A session that STOP_SESSION is stopping, once `c` waits for it. -/
def SessionS.stoppingFor (x : SessionS) (c : CmdRef) : SessionS := { x with stopping := true, stopCmds := x.stopCmds ++ [c] }

section StopSession

variable {s : State} {c : CmdRef} {m : Cmd} {x : SessionS} (h : s.runs c 0x0101 m) (hx : s.sessionAt m.ctx = some x)

include h hx

theorem exec_stopSession : exec (.stopSession c) s = .next (if x.number.toNat ≠ fld (m.w 3) 15 0 then (s.began c).badWord c 3
    else settleStop m.ctx ((s.began c).updSession m.ctx fun x => x.stoppingFor c)) := by
  change execStopSession c s = _
  rw [execStopSession, onCmd_runs _ h]
  have hsession : (s.began c).sessionAt m.ctx = some x := hx
  simp only [hsession]
  rfl

end StopSession

/-- A stop waits while a frame set is unsettled (R73). -/
theorem settleStop_waits {n : Nat} {s : State} {x : SessionS} (hx : s.sessionAt n = some x)
    (hsets : ∃ f ∈ x.sets, f.2.committed = false ∧ f.2.abandoned = false) : settleStop n s = s := by
  unfold settleStop
  simp only [hx]
  obtain ⟨f, hf, hc, ha⟩ := hsets
  have hany : (x.sets.any fun f => !f.2.committed && !f.2.abandoned) = true := List.any_eq_true.2 ⟨f, hf, by simp [hc, ha]⟩
  rw [if_pos (.inr hany)]

/-- The session has stopped: its frame sets are gone and its Reel entries free (R73, R702). -/
def sessionStopped (n : Nat) (entries : List Nat) (s : State) : State :=
  forEach entries (fun e s => s.updReel e fun r => if r.session && r.owner == n then r.freed else r)
    (s.updSession n fun x => { x with stopped := true, sets := [] })

theorem StopStep.updSession (s : State) (n : Nat) (f : SessionS → SessionS) : StopStep s (s.updSession n f) := by
  rw [s.updSession_eq n f]
  exact ⟨rfl, rfl, rfl, rfl, rfl, rfl, fun _ => rfl⟩

theorem sessionStopped_spec {n : Nat} (entries : List Nat) {s : State} {x : SessionS} (hx : s.sessionAt n = some x) :
    StopStep s (sessionStopped n entries s) ∧ (sessionStopped n entries s).sessionAt n = some { x with stopped := true, sets := [] } := by
  unfold sessionStopped
  have hupd := StopStep.updSession s n fun x => { x with stopped := true, sets := [] }
  have hsession : (s.updSession n fun x => { x with stopped := true, sets := [] }).sessionAt n = some { x with stopped := true, sets := [] } := by
    rw [State.sessionAt_updSession, if_pos rfl, hx]
    rfl
  generalize (s.updSession n fun x => { x with stopped := true, sets := [] }) = u at hupd hsession ⊢
  have hreel := ReelChanged.forEach_updReel entries (fun r => if r.session && r.owner == n then r.freed else r) u
  rw [hreel]
  exact ⟨hupd.trans ⟨rfl, rfl, rfl, rfl, rfl, rfl, fun _ => rfl⟩, hsession⟩

/-- With every frame set settled and no record held, the one command that stops the session ends with it (R73). -/
theorem settleStop_ends {n : Nat} {s : State} {x : SessionS} {c : CmdRef} (hx : s.sessionAt n = some x) (hstopping : x.stopping = true)
    (hsets : ∀ f ∈ x.sets, f.2.committed = true ∨ f.2.abandoned = true) (hnew : x.stopped = false) (hcmds : x.stopCmds = [c])
    (hheld : ∀ r ∈ s.held, r.ctx ≠ n) : settleStop n s = (endSession n ((sessionStopped n x.entries s).commit c)).done c := by
  unfold settleStop
  simp only [hx]
  have hsettled : ¬ (x.stopping = false ∨ (x.sets.any fun f => !f.2.committed && !f.2.abandoned) = true) := by
    rintro (hno | hany)
    · simp [hstopping] at hno
    · obtain ⟨f, hf, hun⟩ := List.any_eq_true.1 hany
      rcases hsets f hf with hyes | hyes <;> simp [hyes] at hun
  rw [if_neg hsettled, hnew, if_neg Bool.false_ne_true, hcmds]
  have hkept : ((sessionStopped n x.entries s).commit c).held = s.held := (sessionStopped_spec x.entries hx).1.held
  have hnone : ¬ (((sessionStopped n x.entries s).commit c).held.any fun r => r.ctx == n) = true := by
    rw [hkept]
    simpa using hheld
  exact if_neg hnone

section SetStageMode

variable {s : State} {c : CmdRef} {m : Cmd} {x : SessionS} (h : s.runs c 0x0102 m) (hx : s.sessionAt m.ctx = some x)
  (hstop : x.stopping = false) (hnumber : x.number.toNat = fld (m.w 3) 15 0)

/-- The stages that a command sets, as the session has them after it (R101, R103). -/
def SessionS.withStages (x : SessionS) (mask classical : BitVec 3) : SessionS :=
  { x with classicalMask := (x.classicalMask &&& ~~~mask) ||| (classical &&& mask), descLearned := x.descLearned && !((classical &&& mask).getLsbD 0) }

include h hx hstop hnumber

theorem exec_setStageMode : exec (.setStageMode c) s =
    .next (if ((m.w 4).setWidth 3 &&& ~~~((m.w 5).setWidth 3) &&& x.unavailable : BitVec 3) ≠ 0 then (s.began c).refuseOpen c WEIGHTS_UNAVAILABLE
      else ((s.began c).updSession m.ctx fun x => x.withStages ((m.w 4).setWidth 3) ((m.w 5).setWidth 3)).done c) := by
  change execSetStageMode c s = _
  rw [execSetStageMode, onCmd_runs _ h]
  have hsession : (s.began c).sessionAt m.ctx = some x := hx
  have hopen : ¬ (x.number.toNat ≠ fld (m.w 3) 15 0 ∨ x.stopping = true) := by simp [hnumber, hstop]
  simp only [hsession, if_neg hopen]
  rfl

end SetStageMode

/-- The stages named by the mask are set, the others stay (R101). -/
theorem SessionS.getLsbD_withStages (x : SessionS) (mask classical : Word) {i : Nat} (hi : i < 3) :
    (x.withStages (mask.setWidth 3) (classical.setWidth 3)).classicalMask.getLsbD i =
      if mask.getLsbD i then classical.getLsbD i else x.classicalMask.getLsbD i := by
  simp only [SessionS.withStages, BitVec.getLsbD_or, BitVec.getLsbD_and, BitVec.getLsbD_not, BitVec.getLsbD_setWidth, hi, decide_true, Bool.true_and]
  cases mask.getLsbD i <;> simp

/-- Learned descriptors stay but where the command sets them classical (R103). -/
theorem SessionS.descLearned_withStages (x : SessionS) (mask classical : Word) :
    (x.withStages (mask.setWidth 3) (classical.setWidth 3)).descLearned = true ↔
      x.descLearned = true ∧ ¬ (mask.getLsbD 0 = true ∧ classical.getLsbD 0 = true) := by
  have hbit : ((classical.setWidth 3 &&& mask.setWidth 3 : BitVec 3)).getLsbD 0 = (classical.getLsbD 0 && mask.getLsbD 0) := by
    simp only [BitVec.getLsbD_and, BitVec.getLsbD_setWidth, Nat.zero_lt_succ, decide_true, Bool.true_and]
  simp only [SessionS.withStages, hbit, Bool.and_eq_true, Bool.not_eq_true', Bool.and_eq_false_iff, not_and, Bool.not_eq_true]
  cases mask.getLsbD 0 <;> simp

/-- Settles O3: START_SESSION by its first obstacle or in full, STOP_SESSION as far as the session has come, SET_STAGE_MODE by its weights. -/
theorem sessionsStartStopAndChangeMode : Obligations.SessionsStartStopAndChangeMode := by
  refine ⟨?start, ?stop, ?mode⟩
  case start =>
    intro s c m r b l h href hr hl
    refine ⟨fun hadm => exec_startSession_admitted h hr hadm, fun hadm hlen hb => ⟨fun hmap => exec_startSession_noMap h hr hadm hlen hb hmap,
      fun mp hmap hwith hserves hbind => ?_⟩⟩
    have hexec := exec_startSession_checked h hr hadm hlen hb hl hmap hwith hserves hbind
    rw [sessionAdmission, admitSession_began] at hexec
    refine ⟨fun hroom => by rw [hexec, hroom], fun hroom => ?_⟩
    obtain ⟨a, ha⟩ := Option.isSome_iff_exists.1 hroom
    simp only [ha] at hexec
    have howner : a.newIndexes = [] ∨ ((s.began c).mapAt r.map).owner = m.ctx := by
      by_cases hpose : (profileAt r.profile).pose = false
      · exact .inl (newIndexes_of_admitSession ha hpose)
      · have hprofile : r.profile ≠ 5 := fun e => hpose (by rw [e]; decide)
        have hat : (s.began c).mapAt r.map = mp := by
          change s.mapAt r.map = mp
          rw [State.mapAt, Tab.getD, hmap]; rfl
        right
        simpa [hat, mapServes, hprofile] using hserves
    obtain ⟨hstep, x, hx, hprofile, hxmap, hstopping, hrings, hhealth⟩ := beginSession_spec l howner
    generalize beginSession m.ctx r l a (s.began c) = u at hexec hstep hx
    obtain ⟨hans, hothers⟩ := State.done_of_began (u := u) OK 0 (startBody u m.ctx) [] h.isSome hstep.cmds
    exact ⟨_, x, hexec, hx, hprofile, hxmap, hstopping, hrings, hhealth, hans, hstep.others, hstep.hostMem, hstep.time, hstep.age, hstep.sec,
      hstep.dep, hothers⟩
  case stop =>
    intro s c m x h hx
    have hexec := exec_stopSession h hx
    have hsession : ((s.began c).updSession m.ctx fun x => x.stoppingFor c).sessionAt m.ctx = some (x.stoppingFor c) := by
      rw [State.sessionAt_updSession, if_pos rfl]
      exact congrArg (Option.map fun x => x.stoppingFor c) hx
    have hupd := (s.began c).updSession_eq m.ctx fun x => x.stoppingFor c
    have hctxs := (SessionStep.updSession (n := m.ctx) (s.began c) fun x => x.stoppingFor c).others
    have hstep := StopStep.updSession (s.began c) m.ctx fun x => x.stoppingFor c
    generalize (s.began c).updSession m.ctx (fun x => x.stoppingFor c) = u at hexec hsession hupd hctxs hstep
    refine ⟨fun hne => by rw [hexec, if_pos hne], fun hnumber hunsettled => ?_, fun hnumber hsets hnew hnone hheld hch => ?_⟩
    · rw [if_neg (not_not.2 hnumber), settleStop_waits hsession hunsettled] at hexec
      exact ⟨u, hexec, hsession, hctxs, (State.waits_of_began h hstep.cmds).2, by rw [hupd]; rfl⟩
    · rw [if_neg (not_not.2 hnumber), settleStop_ends (c := c) hsession rfl hsets hnew (by simp [SessionS.stoppingFor, hnone])
        (by rw [hstep.held]; exact hheld)] at hexec
      obtain ⟨hstopped, hat⟩ := sessionStopped_spec (x.stoppingFor c).entries hsession
      have hbegan := hstep.trans hstopped
      generalize sessionStopped m.ctx (x.stoppingFor c).entries u = v at hexec hat hbegan
      obtain ⟨hend, hgone, hstreams⟩ := endSession_spec (s := v.commit c) hat hch
      generalize endSession m.ctx (v.commit c) = w at hexec hend hgone hstreams
      have hfind : ∀ d, w.findCmd d = (v.commit c).findCmd d := fun d => State.findCmd_congr hend.cmds d
      have hv : ∀ d, v.findCmd d = (s.began c).findCmd d := fun d => State.findCmd_congr hbegan.cmds d
      have hfound : (w.findCmd c).isSome = true := by
        rw [hfind, State.findCmd_commit, if_pos rfl, Option.isSome_map, hv]
        simpa using h.isSome
      have hothers : ∀ d, d ≠ c → w.findCmd d = s.findCmd d := fun d hd => by
        rw [hfind, State.findCmd_commit, if_neg hd, hv, State.findCmd_began, if_neg hd]
      exact ⟨_, hexec, hgone, State.answered_done OK 0 [] [] hfound, fun p => (hend.owner p).trans (hbegan.owner p), hstreams,
        fun d hd => (otherCmds_done w c OK 0 [] [] d hd).trans (hothers d hd), hend.hostMem.trans hbegan.hostMem, hend.held.trans hbegan.held,
        hend.time.trans hbegan.time, hend.age.trans hbegan.age, hend.sec.trans hbegan.sec⟩
  case mode =>
    intro s c m x h hx hstop hnumber
    have hexec := exec_setStageMode h hx hstop hnumber
    refine ⟨fun hlost => by rw [hexec, if_pos hlost], fun hlost => ?_⟩
    rw [if_neg (not_not.2 hlost)] at hexec
    have hsession : ((s.began c).updSession m.ctx fun x => x.withStages ((m.w 4).setWidth 3) ((m.w 5).setWidth 3)).sessionAt m.ctx =
        some (x.withStages ((m.w 4).setWidth 3) ((m.w 5).setWidth 3)) := by
      rw [State.sessionAt_updSession, if_pos rfl]
      exact congrArg (Option.map fun x => x.withStages ((m.w 4).setWidth 3) ((m.w 5).setWidth 3)) hx
    have hupd := (s.began c).updSession_eq m.ctx fun x => x.withStages ((m.w 4).setWidth 3) ((m.w 5).setWidth 3)
    have hstep := SessionStep.updSession (n := m.ctx) (s.began c) fun x => x.withStages ((m.w 4).setWidth 3) ((m.w 5).setWidth 3)
    generalize (s.began c).updSession m.ctx (fun x => x.withStages ((m.w 4).setWidth 3) ((m.w 5).setWidth 3)) = u at hexec hsession hupd hstep
    obtain ⟨hans, hothers⟩ := State.done_of_began (u := u) OK 0 [] [] h.isSome hstep.cmds
    refine ⟨_, _, hexec, hans, hsession, fun i hi => x.getLsbD_withStages (m.w 4) (m.w 5) hi, rfl, ?_, hstep.others, hothers, by rw [hupd]; rfl⟩
    exact x.descLearned_withStages (m.w 4) (m.w 5)

end Sys2Proof.Machine

/-! ## HEALTH records and held records -/

namespace Sys2Proof.Machine

/-! ### Updates of one session -/

/-- `t` is `s` with `x` as the session of context `n`. -/
structure SessionAs (n : Nat) (x : SessionS) (s t : State) : Prop where
  state : t = { s with ctxs := t.ctxs }
  session : t.sessionAt n = some x
  others : ∀ k, k ≠ n → t.ctxAt k = s.ctxAt k

theorem SessionAs.refl {n : Nat} {x : SessionS} {s : State} (h : s.sessionAt n = some x) : SessionAs n x s s := ⟨rfl, h, fun _ _ => rfl⟩

theorem SessionAs.upd {n : Nat} {x : SessionS} {s t : State} (h : SessionAs n x s t) (f : SessionS → SessionS) :
    SessionAs n (f x) s (t.updSession n f) where
  state := by rw [t.updSession_eq n f, h.state]
  session := by rw [State.sessionAt_updSession, if_pos rfl, h.session, Option.map_some]
  others k hk := ((SessionStep.updSession t f).others k hk).trans (h.others k hk)

theorem SessionAs.trans {n : Nat} {x y : SessionS} {s t u : State} (h : SessionAs n x s t) (k : SessionAs n y t u) : SessionAs n y s u where
  state := by rw [k.state, h.state]
  session := k.session
  others i hi := (k.others i hi).trans (h.others i hi)

theorem SessionAs.withHostMem {n : Nat} {x : SessionS} {s t : State} (h : SessionAs n x s t) (m : Tab Byte) :
    SessionAs n x { s with hostMem := m } { t with hostMem := m } :=
  ⟨by rw [h.state], h.session, h.others⟩

theorem SessionAs.withHeld {n : Nat} {x : SessionS} {s t : State} (h : SessionAs n x s t) (l : List HeldRec) :
    SessionAs n x { s with held := l } { t with held := l } :=
  ⟨by rw [h.state], h.session, h.others⟩

/-! ### Rings and records -/

theorem getD_setAt_self {α : Type} (d : α) (l : List α) (i : Nat) (x : α) : (setAt d l i x).getD i d = x := by
  rw [List.getD_eq_getElem?_getD, getElem?_setAt_self, Option.getD_some]

/-- A session with its ring `k` replaced. -/
def SessionS.withRing (x : SessionS) (k : Nat) (r : Ring) : SessionS := { x with rings := setAt {} x.rings k r }

@[simp] theorem SessionS.withRing_ring (x : SessionS) (k : Nat) (r : Ring) : (x.withRing k r).rings.getD k {} = r := getD_setAt_self ..

/-- A ring whose next SEQ a record has taken (R87). -/
def Ring.numbered (r : Ring) : Ring := { r with seq := r.seq + 1, lastSeq := r.seq }

/-- A ring past a record of `n` cells (R85). -/
def Ring.past (r : Ring) (n : Nat) : Ring := { r with cell := (r.fit n).1 + n }

/-- Host memory once a record stands in a ring, after a PAD record where it does not fit before the ring's end, with the ring head
(R85, R88, Table 2-5). -/
def Ring.written (r : Ring) (mem : Tab Byte) (b : List Byte) : Tab Byte :=
  let f := r.fit (b.length / 64)
  let mem := if f.2 = 0 then mem else writeHost mem (r.base + 64 * r.cell) (padBytes f.2)
  writeHost (writeHost mem (r.base + 64 * f.1) b) r.base (slice b 4 4 ++ leBytes 4 f.1 ++ slice b 16 8 ++ zeros 48)

/-- A record with room before the ring's end starts at the next cell, with no PAD record (R85). -/
theorem Ring.fit_room {r : Ring} {n : Nat} (h : r.cell + n ≤ r.cells) : r.fit n = (r.cell, 0) := if_pos h

theorem Ring.past_room {r : Ring} {n : Nat} (h : r.cell + n ≤ r.cells) : (r.past n).cell = r.cell + n := by rw [Ring.past, Ring.fit_room h]

theorem Ring.written_room {r : Ring} {mem : Tab Byte} {b : List Byte} (h : r.cell + b.length / 64 ≤ r.cells) : r.written mem b =
    writeHost (writeHost mem (r.base + 64 * r.cell) b) r.base (slice b 4 4 ++ leBytes 4 r.cell ++ slice b 16 8 ++ zeros 48) := by
  rw [Ring.written, Ring.fit_room h]
  rfl

/-- A record is written to its ring, and the ring goes past it (R85, R88). -/
theorem State.ringWrite_spec {s : State} {n k : Nat} {x : SessionS} (b : List Byte) (hx : s.sessionAt n = some x) :
    SessionAs n (x.withRing k ((x.rings.getD k {}).past (b.length / 64))) { s with hostMem := (x.rings.getD k {}).written s.hostMem b }
      (s.ringWrite n k b) := by
  have hwrite : s.ringWrite n k b = ({ s with hostMem := (x.rings.getD k {}).written s.hostMem b } : State).updSession n fun y =>
      y.withRing k ((x.rings.getD k {}).past (b.length / 64)) := by
    simp only [State.ringWrite, hx, Ring.written]
    split <;> rfl
  rw [hwrite]
  exact ((SessionAs.refl hx).withHostMem _).upd fun y => y.withRing k ((x.rings.getD k {}).past (b.length / 64))

section Record

variable {s : State} {n k : Nat} {x : SessionS} (h : RecHead) (body : List Byte) (hx : s.sessionAt n = some x)
  (hseq : (x.rings.getD k {}).seq ≠ 0xFFFFFFFF)

/-- The bytes of the record that a session writes next to ring `k` (R87). -/
def SessionS.nextRecord (x : SessionS) (s : State) (n k : Nat) (h : RecHead) (body : List Byte) : List Byte :=
  recBytes h (x.rings.getD k {}).seq s.devNs n x.number body

include hx hseq

/-- While the host link is down a record takes its SEQ and is held (R87, R92). -/
theorem State.record_held (hlink : s.life.linkUp = false) : SessionAs n (x.withRing k (x.rings.getD k {}).numbered)
    { s with held := s.held ++ [{ ctx := n, ring := k, tick := s.time.ticks, start := h.start, bytes := x.nextRecord s n k h body }] }
    (s.record n k h body) := by
  have hrecord : s.record n k h body = { s.updSession n fun y => y.withRing k (x.rings.getD k {}).numbered with
      held := s.held ++ [{ ctx := n, ring := k, tick := s.time.ticks, start := h.start, bytes := x.nextRecord s n k h body }] } := by
    simp only [State.record, hx, if_neg hseq, State.updSession_life, hlink, Bool.false_eq_true, if_false, State.updSession_held, State.updSession_time]
    rfl
  rw [hrecord]
  exact ((SessionAs.refl hx).upd fun y => y.withRing k (x.rings.getD k {}).numbered).withHeld _

/-- With the link up it takes its SEQ and is written; no latency ends with a record that is no POSE_OPT (R36, R85, R87). -/
theorem State.record_written (hlink : s.life.linkUp = true) (hstart : h.start = none) :
    SessionAs n ((x.withRing k (x.rings.getD k {}).numbered).withRing k
        ((x.rings.getD k {}).numbered.past ((x.nextRecord s n k h body).length / 64)))
      { s with hostMem := (x.rings.getD k {}).numbered.written s.hostMem (x.nextRecord s n k h body) } (s.record n k h body) := by
  have hrecord : s.record n k h body =
      (s.updSession n fun y => y.withRing k (x.rings.getD k {}).numbered).ringWrite n k (x.nextRecord s n k h body) := by
    simp only [State.record, hx, if_neg hseq, State.updSession_life, hlink, if_true, State.noteLatency, hstart]
    rfl
  have hnumbered := (SessionAs.refl hx).upd fun y => y.withRing k (x.rings.getD k {}).numbered
  have hwrite := State.ringWrite_spec (k := k) (x.nextRecord s n k h body) hnumbered.session
  rw [SessionS.withRing_ring, State.updSession_hostMem] at hwrite
  rw [hrecord]
  exact (hnumbered.withHostMem _).trans hwrite

end Record

/-! ### HEALTH_PERIOD -/

/-- The header of a periodic HEALTH record whose period ended `past` ticks ago (R99). -/
def healthHead (s : State) (past : Nat) : RecHead := { type := 6, tValid := Int.ofNat s.devNs - Int.ofNat (2 * past), oldest := Int.ofNat s.devNs }

/-- A session once its HEALTH record is committed: the drops of the link and the retries are counted anew (R92, R591). -/
def SessionS.countedAnew (x : SessionS) (retries : Nat) : SessionS := { x with linkDropped := 0, retriesSeen := retries }

/-- A session at the start of its next HEALTH period (R99). -/
def SessionS.nextPeriod (x : SessionS) : SessionS := { x with healthLast := x.healthLast + msTicks x.healthMs, worstLatency := 0 }

/-- HEALTH_PERIOD commits its record, counts anew and begins the next period (R99). -/
theorem exec_healthPeriod {s s' : State} {n : Nat} {x y : SessionS} (hx : s.sessionAt n = some x) (hrun : x.stopped = false)
    (hdue : msTicks x.healthMs ≤ s.since x.healthLast)
    (hrecord : SessionAs n y s' (s.record n 3 (healthHead s (s.since x.healthLast - msTicks x.healthMs)) (healthBody s n 0 0))) :
    ∃ t retries, exec (.healthPeriod n) s = .next t ∧ SessionAs n (y.countedAnew retries).nextPeriod s' t := by
  have hfires : (!x.stopped && decide (msTicks x.healthMs ≤ s.since x.healthLast)) = true := by simp [hrun, hdue]
  have hexec : exec (.healthPeriod n) s = .next ((healthRecord n 0 0 (healthHead s (s.since x.healthLast - msTicks x.healthMs)).tValid s).updSession n
      SessionS.nextPeriod) := by
    change execHealthPeriod n s = _
    simp only [execHealthPeriod, hx]
    exact onTrigger_fires _ _ hfires
  simp only [healthRecord, hx, Option.isNone_some, Bool.false_eq_true, if_false, if_true] at hexec
  exact ⟨_, _, hexec, (hrecord.upd fun y => y.countedAnew _).upd SessionS.nextPeriod⟩

/-! ### EVENT_HEALTH_RECORD -/

/-- `t` is `s` once HEALTH records went to sessions of contexts in `p`. -/
structure HealthStep (p : Nat → Prop) (s t : State) : Prop where
  state : t = { s with ctxs := t.ctxs, events := t.events, tether := t.tether, hostMem := t.hostMem, held := t.held, fns := t.fns, outbox := t.outbox }
  events : s.events <+: t.events
  others : ∀ i, ¬ p i → t.ctxAt i = s.ctxAt i

section HealthStep

variable {p : Nat → Prop} {n : Nat}

theorem HealthStep.refl (s : State) : HealthStep p s s := ⟨rfl, List.prefix_rfl, fun _ _ => rfl⟩

theorem HealthStep.trans {s t u : State} (h : HealthStep p s t) (k : HealthStep p t u) : HealthStep p s u where
  state := by rw [k.state, h.state]
  events := h.events.trans k.events
  others i hi := (k.others i hi).trans (h.others i hi)

theorem HealthStep.raise (s : State) (code detail : Nat) : HealthStep p s (s.raise code detail) := ⟨rfl, List.prefix_append .., fun _ _ => rfl⟩
theorem HealthStep.hostWrite (s : State) (a : Nat) (b : List Byte) : HealthStep p s (s.hostWrite a b) := ⟨rfl, List.prefix_rfl, fun _ _ => rfl⟩
theorem HealthStep.withHeld (s : State) (l : List HeldRec) : HealthStep p s { s with held := l } := ⟨rfl, List.prefix_rfl, fun _ _ => rfl⟩

theorem HealthStep.msix (s : State) (fn v : Nat) : HealthStep p s (s.msix fn v) := by
  unfold State.msix
  split <;> exact ⟨rfl, List.prefix_rfl, fun _ _ => rfl⟩

variable (hn : p n)

include hn

theorem HealthStep.updSession (s : State) (f : SessionS → SessionS) : HealthStep p s (s.updSession n f) where
  state := by rw [s.updSession_eq n f]
  events := by rw [State.updSession_events]
  others i hi := (SessionStep.updSession s f).others i fun e => hi (e ▸ hn)

theorem HealthStep.ringWrite (s : State) (k : Nat) (b : List Byte) : HealthStep p s (s.ringWrite n k b) := by
  unfold State.ringWrite
  split
  case h_1 => exact .refl s
  case h_2 x _ =>
    extract_lets r cells f s1 s2 s3
    have h1 : HealthStep p s s1 := by
      unfold s1
      split
      · exact .refl s
      · exact .hostWrite s _ _
    exact h1.trans ((HealthStep.hostWrite s1 _ _).trans ((HealthStep.hostWrite s2 _ _).trans (.updSession hn s3 _)))

theorem HealthStep.noteLatency (s : State) (start : Option Nat) : HealthStep p s (s.noteLatency n start) := by
  unfold State.noteLatency
  split
  · exact .updSession hn s _
  · exact .refl s

theorem HealthStep.record (s : State) (k : Nat) (h : RecHead) (body : List Byte) : HealthStep p s (s.record n k h body) := by
  unfold State.record
  split
  case h_1 => exact .refl s
  case h_2 x _ =>
    extract_lets r b s1 s2
    have h1 : HealthStep p s s1 := .updSession hn s _
    have h2 : HealthStep p s1 s2 := by
      unfold s2
      split
      · exact .raise s1 _ _
      · exact .refl s1
    refine h1.trans (h2.trans ?_)
    split
    · exact (HealthStep.ringWrite hn s2 k b).trans (.noteLatency hn _ _)
    · exact .withHeld s2 _

theorem HealthStep.healthRecord (s : State) (code detail : Nat) (fin : Int) : HealthStep p s (healthRecord n code detail fin s) := by
  unfold Machine.healthRecord
  split
  · exact .refl s
  · extract_lets s1 s2
    have h2 : HealthStep p s s2 := (HealthStep.record hn s _ _ _).trans (.updSession hn s1 _)
    split
    · exact h2
    · exact h2.trans (.msix s2 _ _)

end HealthStep

/-- An event's records go to the sessions of the contexts in its mask alone (R99). -/
theorem HealthStep.reportEvent (e : Event) (s : State) : HealthStep (fun n => bit (e.mask.setWidth 32) n = true) s (reportEvent e s) := by
  refine forEach_keeps (P := HealthStep _ s) _ _ (fun n _ u hu => ?_) (.refl s)
  split
  case isTrue hconcerned => exact hu.trans (.healthRecord (Bool.and_eq_true_iff.1 hconcerned).1 u _ _ _)
  case isFalse => exact hu

/-! ### HELD_RECORD_EXPIRY -/

/-- A session that is not stopping has no stop to settle (R73). -/
theorem settleStop_running {n : Nat} {s : State} {x : SessionS} (hx : s.sessionAt n = some x) (hrun : x.stopping = false) : settleStop n s = s := by
  simp only [settleStop, hx, hrun, true_or, if_true]

theorem exec_heldRecordExpiry {s : State} {h : HeldRec} {l : List HeldRec} (hheld : s.held = h :: l) (hlink : s.life.linkUp = false)
    (hold : msTicks 4 ≤ s.since h.tick) : exec .heldRecordExpiry s =
      .next (settleStop h.ctx (({ s with held := l } : State).updSession h.ctx fun y => { y with linkDropped := y.linkDropped + 1 })) := by
  change execHeldRecordExpiry s = _
  simp only [execHeldRecordExpiry, hheld]
  exact onTrigger_fires _ _ (by simp [hlink, hold])

/-- Settles O4: the periodic record while the link is down and while it is up, an event's records, and the expiry of a held record. -/
theorem healthRecordsAreWrittenOrHeld : Obligations.HealthRecordsAreWrittenOrHeld := by
  refine ⟨?period, ?event, ?expiry⟩
  case period =>
    intro s n x b hx hrun hdue hseq hb
    have hbytes : x.nextRecord s n 3 (healthHead s (s.since x.healthLast - msTicks x.healthMs)) (healthBody s n 0 0) = b := by
      rw [hb, SessionS.nextRecord, healthHead, show Int.ofNat (2 * _) = 2 * Int.ofNat _ from Int.natCast_mul 2 _]
    rcases Bool.eq_false_or_eq_true s.life.linkUp with hup | hdown
    · have hrecord := State.record_written (healthHead s (s.since x.healthLast - msTicks x.healthMs)) (healthBody s n 0 0) hx hseq hup rfl
      rw [hbytes] at hrecord
      obtain ⟨t, retries, hexec, hstate, hsession, hothers⟩ := exec_healthPeriod hx hrun hdue hrecord
      have hring := SessionS.withRing_ring (x.withRing 3 (x.rings.getD 3 {}).numbered) 3 ((x.rings.getD 3 {}).numbered.past (b.length / 64))
      refine ⟨t, _, hexec, hsession, rfl, rfl, rfl, congrArg Ring.seq hring, congrArg Ring.lastSeq hring, hothers, fun hdown => by simp [hup] at hdown,
        fun _ hroom => ⟨?_, ?_, by rw [hstate]⟩⟩
      · exact (congrArg State.hostMem hstate).trans (Ring.written_room (r := (x.rings.getD 3 {}).numbered) hroom)
      · exact (congrArg Ring.cell hring).trans (Ring.past_room (r := (x.rings.getD 3 {}).numbered) hroom)
    · have hrecord := State.record_held (healthHead s (s.since x.healthLast - msTicks x.healthMs)) (healthBody s n 0 0) hx hseq hdown
      rw [hbytes] at hrecord
      obtain ⟨t, retries, hexec, hstate, hsession, hothers⟩ := exec_healthPeriod hx hrun hdue hrecord
      have hring := SessionS.withRing_ring x 3 (x.rings.getD 3 {}).numbered
      exact ⟨t, _, hexec, hsession, rfl, rfl, rfl, congrArg Ring.seq hring, congrArg Ring.lastSeq hring, hothers,
        fun _ => ⟨by rw [hstate]; rfl, by rw [hstate]⟩, fun hup => by simp [hdown] at hup⟩
  case event =>
    intro s e l hevents
    have hexec : exec .eventHealthRecord s = .next (reportEvent e { s with events := l }) := by
      change execEventHealthRecord s = _
      simp only [execEventHealthRecord, hevents]
    obtain ⟨hstate, ⟨k, hk⟩, hothers⟩ := HealthStep.reportEvent e { s with events := l }
    refine ⟨fun hnone => ?_, _, k, hexec, hk.symm, fun n hn => hothers n (by simp [hn]), hstate⟩
    have hempty : ({ s with events := l } : State).sessionCtxs = [] := hnone
    rw [hexec, reportEvent, hempty]
    rfl
  case expiry =>
    intro s h l x hheld hlink hold hx hrun
    have hses := (SessionAs.refl (s := { s with held := l }) hx).upd fun y => { y with linkDropped := y.linkDropped + 1 }
    have hexec := exec_heldRecordExpiry hheld hlink hold
    rw [settleStop_running hses.session hrun] at hexec
    exact ⟨_, hexec, by rw [hses.state], hses.session, hses.others, by rw [hses.state]⟩

end Sys2Proof.Machine

/-! ## Objects: who may use them, and their bytes -/

namespace Sys2Proof.Machine

/-! ### The sender's right to the object -/

section Sender

variable {s : State} {c : CmdRef} {op : Nat} {m : Cmd} {k : Nat} {o : ObjS} (h : s.runs c op m) (hobj : s.objOf (m.w 3) = some (k, o))

include h hobj

/-- A command of a context that neither owns nor borrows the object, or that an owner alone may give, is NOT_OWNER (R637). -/
theorem onCmd_withObj_notOwner {own lost : Bool} {K : Cmd → State → Nat → ObjS → State} (href : m.ref = c) (hne : o.owner ≠ m.ctx)
    (hno : own = true ∨ bit o.share m.ctx = false) :
    onCmd op c s (fun m s => withObj m s own lost (K m s)) = .next ((s.began c).refuseOpen c NOT_OWNER) := by
  have hrefused : o.usable m.ctx = false ∨ (own = true ∧ o.owner ≠ m.ctx) := by
    rcases hno with hown | hshare
    · exact .inr ⟨hown, hne⟩
    · exact .inl (by simp [ObjS.usable, hne, hshare])
  have hsame : (s.began c).objOf (m.w 3) = some (k, o) := hobj
  rw [onCmd_runs _ h, withObj]
  simp only [hsame, if_pos hrefused, href]

/-- A command that only an object with an intact copy answers (R633). -/
theorem onCmd_withObj_unavailable {own : Bool} {K : Cmd → State → Nat → ObjS → State} (href : m.ref = c)
    (huse : o.owner = m.ctx ∨ (own = false ∧ bit o.share m.ctx = true)) (hlost : o.unavailable = true) :
    onCmd op c s (fun m s => withObj m s own false (K m s)) = .next ((s.began c).refuseOpen c o.lostStatus) := by
  have hallowed : ¬ (o.usable m.ctx = false ∨ (own = true ∧ o.owner ≠ m.ctx)) := by
    rcases huse with hown | ⟨hown, hshare⟩
    · simp [ObjS.usable, hown]
    · simp [ObjS.usable, hown, hshare]
  have hsame : (s.began c).objOf (m.w 3) = some (k, o) := hobj
  rw [onCmd_runs _ h, withObj]
  simp only [hsame, if_neg hallowed, hlost, true_and, if_true, href]

/-- The owner's command that an UNAVAILABLE object takes too (R635). -/
theorem onCmd_withObj_own {K : Cmd → State → Nat → ObjS → State} (hown : o.owner = m.ctx) :
    onCmd op c s (fun m s => withObj m s true true (K m s)) = .next (K m (s.began c) k o) := by
  have hallowed : ¬ (o.usable m.ctx = false ∨ (True ∧ o.owner ≠ m.ctx)) := by simp [ObjS.usable, hown]
  have hsame : (s.began c).objOf (m.w 3) = some (k, o) := hobj
  rw [onCmd_runs _ h, withObj]
  simp only [hsame, if_neg hallowed, Bool.true_eq_false, and_false, if_false]

end Sender

/-! ### Bytes of an object -/

theorem get?_putBytes (b : List Byte) (t : Tab Byte) (a k : Nat) :
    Tab.get? (putBytes t a b) k = if a ≤ k ∧ k < a + b.length then b[k - a]? else Tab.get? t k := by
  induction b generalizing t a with
  | nil => simp [putBytes]
  | cons x l ih =>
    rw [putBytes, ih, Tab.get?_put, List.length_cons]
    rcases Nat.lt_trichotomy k a with hlt | rfl | hgt
    · rw [if_neg (by omega), if_neg (by omega), if_neg (by omega)]
    · rw [if_neg (by omega), if_pos rfl, if_pos (by omega), Nat.sub_self, List.getElem?_cons_zero]
    · have hnext : k - a = (k - (a + 1)) + 1 := by omega
      by_cases hin : k < a + 1 + l.length
      · rw [if_pos (by omega), if_pos (by omega), hnext, List.getElem?_cons_succ]
      · rw [if_neg (by omega), if_neg (by omega), if_neg (by omega)]

/-- Bytes that are put stand where they were put. -/
theorem get?_putBytes_at {b : List Byte} (t : Tab Byte) (a : Nat) {i : Nat} {x : Byte} (h : b[i]? = some x) :
    Tab.get? (putBytes t a b) (a + i) = some x := by
  have hi : i < b.length := (List.getElem?_eq_some_iff.1 h).1
  rw [get?_putBytes, if_pos (by omega), Nat.add_sub_cancel_left, h]

theorem ObjS.byte_of_get? {o : ObjS} {a : Nat} {x : Byte} (h : Tab.get? o.data a = some x) : o.byte a = x := by
  simp only [ObjS.byte, h]

/-- A write stores its bytes (R600). -/
theorem ObjS.byte_write_at (o : ObjS) (a : Nat) {b : List Byte} {i : Nat} {x : Byte} (h : b[i]? = some x) : (o.write a b).byte (a + i) = x :=
  ObjS.byte_of_get? (get?_putBytes_at o.data a h)

/-- A write leaves every byte outside it. -/
theorem ObjS.byte_write_outside (o : ObjS) {a : Nat} {b : List Byte} {i : Nat} (h : i < a ∨ a + b.length ≤ i) : (o.write a b).byte i = o.byte i := by
  have hkept : Tab.get? (o.write a b).data i = Tab.get? o.data i := by
    rw [ObjS.write, get?_putBytes, if_neg (by omega)]
  simp only [ObjS.byte, hkept]
  rfl

/-! ### Words of a command as masks -/

/-- The low byte of a word as a mask has the word's own bits. -/
theorem getLsbD_lowByte (w : Word) {n : Nat} (hn : n < 8) : (BitVec.ofNat 8 (fld w 7 0)).getLsbD n = w.getLsbD n := by
  simp only [fld, BitVec.getLsbD_ofNat, Nat.pow_zero, Nat.div_one, Nat.testBit_mod_two_pow, hn, decide_true, Bool.true_and]
  rfl

/-! ### OBJ_WRITE, OBJ_SEAL, OBJ_SHARE and OBJ_UNSHARE -/

section OwnerCommands

variable {s : State} {c : CmdRef} {m : Cmd} {k : Nat} {o : ObjS} (hobj : s.objOf (m.w 3) = some (k, o)) (hown : o.owner = m.ctx)
  (hav : o.unavailable = false)

include hobj hown hav

theorem exec_objWrite (h : s.runs c 0x0A03 m) : exec (.objWrite c) s =
    .next (if o.sealed_ then (s.began c).badWord c 3
      else if o.granules * 65536 < 256 * (m.w 4).toNat + m.sgTotal 5 then (s.began c).badWord c 4
      else withSg m 5 (s.began c) fun b => ((s.began c).updObj k fun o => o.write (256 * (m.w 4).toNat) b).done c) := by
  change execObjWrite c s = _
  rw [execObjWrite, onCmd_runs _ h, withObj_found (s := s.began c) (k := k) (o := o) _ hobj (.inl hown) hav]
  rfl

theorem exec_objSeal (h : s.runs c 0x0A05 m) : exec (.objSeal c) s =
    .next (if o.isData then (s.began c).badWord c 3 else ((s.began c).updObj k fun o => { o with sealed_ := true }).done c) := by
  change execObjSeal c s = _
  rw [execObjSeal, onCmd_runs _ h, withObj_found (s := s.began c) (k := k) (o := o) _ hobj (.inl hown) hav]

theorem exec_objShare (h : s.runs c 0x0A06 m) : exec (.objShare c) s =
    .next (if o.isData ∨ o.sealed_ = false then (s.began c).badWord c 3
      else ((s.began c).updObj k fun o => { o with share := o.share ||| BitVec.ofNat 8 (fld (m.w 4) 7 0) }).done c) := by
  change execObjShare c s = _
  rw [execObjShare, onCmd_runs _ h, withObj_found (s := s.began c) (k := k) (o := o) _ hobj (.inl hown) hav]

theorem exec_objUnshare (h : s.runs c 0x0A07 m) : exec (.objUnshare c) s =
    .next (if (o.borrowers (fld (m.w 4) 7 0)).any fun n => s.holdsOn n o then (s.began c).refuseOpen c BUSY
      else ((s.began c).updObj k fun o => { o with share := o.share &&& ~~~ (BitVec.ofNat 8 (fld (m.w 4) 7 0)) }).done c) := by
  change execObjUnshare c s = _
  rw [execObjUnshare, onCmd_runs _ h, withObj_found (s := s.began c) (k := k) (o := o) _ hobj (.inl hown) hav]
  rfl

/-- An object that a borrower holds on to is busy (R605), and by the model's choice one that is being moved (assumption 10). -/
theorem exec_objDestroy (h : s.runs c 0x0A02 m) : exec (.objDestroy c) s =
    .next (if ((o.borrowers 255).any fun n => s.holdsOn n o) ∨ o.moving.isSome then (s.began c).refuseOpen c BUSY
      else ((s.began c).dropObj k).done c) := by
  change execObjDestroy c s = _
  rw [execObjDestroy, onCmd_runs _ h, withObj_found (s := s.began c) (k := k) (o := o) _ hobj (.inl hown) hav]
  rfl

end OwnerCommands

/-! ### OBJ_READ -/

theorem exec_objRead {s : State} {c : CmdRef} {m : Cmd} {k : Nat} {o : ObjS} (h : s.runs c 0x0A04 m) (hobj : s.objOf (m.w 3) = some (k, o))
    (huse : o.owner = m.ctx ∨ bit o.share m.ctx = true) (hav : o.unavailable = false) : exec (.objRead c) s =
    .next (if o.granules * 65536 < 256 * (m.w 4).toNat + m.sgTotal 5 then (s.began c).badWord c 4
      else if o.readable (256 * (m.w 4).toNat) (m.sgTotal 5) = false then (s.began c).refuseOpen c o.lostStatus
      else (s.began c).doneOut m 5 (o.bytes (256 * (m.w 4).toNat) (m.sgTotal 5)) []) := by
  change execObjRead c s = _
  rw [execObjRead, onCmd_runs _ h, withObj_found (s := s.began c) (k := k) (o := o) _ hobj (huse.imp_right fun e => ⟨rfl, e⟩) hav]
  rfl

/-- Output of TOTAL_BYTES goes inline or over the extents of its reference, whole (R651, R683). -/
theorem sgOut_whole (m : Cmd) (i : Nat) {b : List Byte} (s : State) (hlen : b.length = m.sgTotal i) :
    (m.sgInline i = true → (sgOut m i b s).2 = b) ∧
      ∀ l, m.sgInline i = false → sgExtents m i s = .extents l → (sgOut m i b s).1.hostMem = writeExtents s.hostMem l b := by
  have htake : b.take (m.sgTotal i) = b := List.take_of_length_le hlen.le
  refine ⟨fun hin => ?_, fun l hout hl => ?_⟩
  · rw [sgOut, if_pos hin, htake]
  · rw [sgOut, if_neg (by simp [hout]), hl, htake]

/-- A command that ends with output has that output in its reply. -/
theorem State.replyOf_done {s : State} {c : CmdRef} (st d : Nat) (b : List Word) (out : List Byte) (h : (s.findCmd c).isSome) :
    ∃ r, (s.done c st d b out).replyOf c = some r ∧ r.is st d b ∧ r.inlineOut = out := by
  refine ⟨_, State.replyOf_endCmd _ ?_, ⟨rfl, rfl, rfl⟩, rfl⟩
  rw [State.findCmd_commit, if_pos rfl, Option.isSome_map, h]

/-- A command that has begun ends with OK and its whole output (R651). -/
theorem doneOut_whole {s : State} {c : CmdRef} {op : Nat} {m : Cmd} (i : Nat) {b : List Byte} (h : s.runs c op m) (href : m.ref = c)
    (hlen : b.length = m.sgTotal i) : (∃ r, ((s.began c).doneOut m i b []).replyOf c = some r ∧ r.is OK 0 [] ∧ (m.sgInline i = true → r.inlineOut = b)) ∧
      ∀ l, m.sgInline i = false → sgExtents m i s = .extents l → ((s.began c).doneOut m i b []).hostMem = writeExtents s.hostMem l b := by
  obtain ⟨hinline, hextents⟩ := sgOut_whole m i (s.began c) hlen
  have hdone : (s.began c).doneOut m i b [] = (sgOut m i b (s.began c)).1.done c OK 0 [] (sgOut m i b (s.began c)).2 := by
    rw [State.doneOut, if_pos hlen.le, href]
  have hcmds : (sgOut m i b (s.began c)).1.cmds = (s.began c).cmds := by rw [(sgOut_fst m i b (s.began c)).1]
  have hfound : ((sgOut m i b (s.began c)).1.findCmd c).isSome := by rw [State.findCmd_congr hcmds]; simpa using h.isSome
  obtain ⟨r, hr, his, hout⟩ := State.replyOf_done OK 0 [] (sgOut m i b (s.began c)).2 hfound
  rw [hdone]
  exact ⟨⟨r, hr, his, fun hin => hout.trans (hinline hin)⟩, fun l hno hl => hextents l hno (by simpa using hl)⟩

/-- Its frame: host memory and the command alone. -/
theorem doneOut_of_began {s : State} {c : CmdRef} {op : Nat} {m : Cmd} (i : Nat) (b : List Byte) (h : s.runs c op m) :
    otherCmds s ((s.began c).doneOut m i b []) c ∧
      (s.began c).doneOut m i b [] = { s with cmds := ((s.began c).doneOut m i b []).cmds, hostMem := ((s.began c).doneOut m i b []).hostMem } := by
  have hfound : (s.began c).findCmd c = some { m with begun := true } := by rw [State.findCmd_began, if_pos rfl, h.1, Option.map_some]
  obtain ⟨-, hothers, hframe⟩ := doneOut_spec i b [] hfound
  exact ⟨(otherCmds_began s c).trans hothers, hframe⟩

/-! ### OBJ_DESTROY -/

/-- The windows and streams of an object unbound in every context (R605). -/
def unboundAll (id : Word) (s : State) : State :=
  forEach (List.range 8) (fun n s => s.updCtx n fun x =>
    { x with windows := Tab.keep x.windows (fun _ i => i != id), streams := Tab.keep x.streams fun _ w => w.obj != id }) s

/-- The charges of an object's home and copies returned. -/
def objCredited (o : ObjS) (s : State) : State :=
  forEach o.copies (fun x s => forEach (setBits 8 x.2.claims.toNat) (fun n s => s.credit n x.1 o.granules) s) (s.credit o.owner o.home o.granules)

/-- The promotions of an object ended (R711). -/
def promotesAborted (k : Nat) (s : State) : State :=
  forEach s.cmds (fun m s => if m.opcode = 0x0A09 ∧ m.phase = .running ∧ m.work.head? = some k then s.refuseOpen m.ref ABORTED else s) s

theorem objCredited_eq (o : ObjS) (s : State) : objCredited o s = { s with ctxs := (objCredited o s).ctxs } :=
  forEach_keeps (P := fun t => t = { s with ctxs := t.ctxs }) _ _
    (fun x _ u hu => forEach_keeps (P := fun t => t = { s with ctxs := t.ctxs }) _ _ (fun n _ v hv => by rw [hv]; rfl) hu) rfl

theorem unboundAll_eq (id : Word) (s : State) : unboundAll id s = { s with ctxs := (unboundAll id s).ctxs } :=
  forEach_keeps (P := fun t => t = { s with ctxs := t.ctxs }) _ _ (fun n _ u hu => by rw [hu]; rfl) rfl

/-- No entry that a table does not keep is listed. -/
theorem Tab.get?_keep_ne {t : Tab Word} {id : Word} (w : Nat) : Tab.get? (Tab.keep t fun _ i => i != id) w ≠ some id := fun e => by
  have hkept := (List.mem_filter.1 (Tab.mem_of_get? e)).2
  simp at hkept

theorem unboundAll_windows (id : Word) (s : State) {n : Nat} (hn : n < 8) (w : Nat) : Tab.get? ((unboundAll id s).ctxAt n).windows w ≠ some id := by
  refine forEach_establishes (P := fun _ => True) (Q := fun t => Tab.get? (t.ctxAt n).windows w ≠ some id) _ _ (fun _ _ _ _ => trivial)
    (fun j _ u _ hu => ?_) (List.mem_range.2 hn) (fun u _ => ?_) trivial
  · rw [State.ctxAt_updCtx]
    split
    · exact Tab.get?_keep_ne w
    · exact hu
  · rw [State.ctxAt_updCtx, if_pos rfl]
    exact Tab.get?_keep_ne w

/-- Ending the promotions changes the commands alone, leaves each outstanding, and only OBJ_PROMOTE ends. -/
theorem promotesAborted_spec (k : Nat) (s : State) : promotesAborted k s = { s with cmds := (promotesAborted k s).cmds } ∧
    (∀ c, (s.findCmd c).isSome → ((promotesAborted k s).findCmd c).isSome) ∧
    ∀ d, (∀ y ∈ s.cmds, y.ref = d → y.opcode ≠ 0x0A09) → (promotesAborted k s).findCmd d = s.findCmd d := by
  refine ⟨?frame, fun c hc => ?outstanding, fun d hd => ?others⟩
  case frame =>
    refine forEach_keeps (P := fun t => t = { s with cmds := t.cmds }) _ _ (fun m _ u hu => ?_) rfl
    split
    · rw [hu]; rfl
    · exact hu
  case outstanding =>
    refine forEach_keeps (P := fun t => (t.findCmd c).isSome) _ _ (fun m _ u hu => ?_) hc
    split
    · rw [State.refuseOpen, State.findCmd_endCmd]
      split
      · rw [Option.isSome_map, hu]
      · exact hu
    · exact hu
  case others =>
    refine forEach_keeps (P := fun t => t.findCmd d = s.findCmd d) _ _ (fun m hm u hu => ?_) rfl
    split
    case isTrue hpromote =>
      have hne : d ≠ m.ref := fun e => hd m hm e.symm hpromote.1
      rw [State.refuseOpen, State.findCmd_endCmd, if_neg hne, hu]
    case isFalse => exact hu

/-- `t` is `s` without object `o` under key `k`. -/
structure ObjDropped (k : Nat) (o : ObjS) (s t : State) : Prop where
  state : t = { s with cmds := t.cmds, ctxs := t.ctxs, objs := t.objs, reuse := t.reuse, jobs := t.jobs }
  objs : t.objs = Tab.del s.objs k
  windows : ∀ n w, n < 8 → Tab.get? (t.ctxAt n).windows w ≠ some o.id
  outstanding : ∀ c, (s.findCmd c).isSome → (t.findCmd c).isSome
  others : ∀ d, (∀ y ∈ s.cmds, y.ref = d → y.opcode ≠ 0x0A09) → t.findCmd d = s.findCmd d

/-- An object that stands still is dropped: its charges return, its windows and streams unbind, its promotions end (R605, Table 14-2). -/
theorem State.dropObj_spec {s : State} {k : Nat} {o : ObjS} (hget : Tab.get? s.objs k = some o) (hstill : o.moving = none) :
    ObjDropped k o s (s.dropObj k) := by
  have hdrop : ∃ reuse jobs, s.dropObj k = { promotesAborted k (unboundAll o.id (objCredited o s)) with
      objs := Tab.del (promotesAborted k (unboundAll o.id (objCredited o s))).objs k, reuse := reuse, jobs := jobs } := by
    simp only [State.dropObj, hget, hstill]
    exact ⟨_, _, rfl⟩
  obtain ⟨reuse, jobs, hdrop⟩ := hdrop
  have hcredited := objCredited_eq o s
  generalize objCredited o s = u at hdrop hcredited
  have hunbound := unboundAll_eq o.id u
  have hwindows := fun n w (hn : n < 8) => unboundAll_windows o.id u hn w
  generalize unboundAll o.id u = v at hdrop hunbound hwindows
  obtain ⟨hframe, houtstanding, hothers⟩ := promotesAborted_spec k v
  have hv : v.cmds = s.cmds ∧ v.objs = s.objs := by rw [hunbound, hcredited]; exact ⟨rfl, rfl⟩
  have hsame : ∀ c, v.findCmd c = s.findCmd c := State.findCmd_congr hv.1
  have hobjs : (promotesAborted k v).objs = s.objs := by rw [hframe]; exact hv.2
  have hctxAt : ∀ n, (promotesAborted k v).ctxAt n = v.ctxAt n := fun n => by rw [hframe]; rfl
  rw [hdrop]
  refine ⟨?state, congrArg (Tab.del · k) hobjs, fun n w hn => ?windows, fun c hc => ?outstanding, fun d hd => ?others⟩
  case state => rw [hframe, hunbound, hcredited]
  case windows => exact (hctxAt n).symm ▸ hwindows n w hn
  case outstanding => exact houtstanding c ((hsame c).symm ▸ hc)
  case others => exact (hothers d (hv.1.symm ▸ hd)).trans (hsame d)

end Sys2Proof.Machine

/-! ## Objects: windows, creation, streams and reload -/

namespace Sys2Proof.Machine

/-! ### A context of the sender's updated -/

/-- An update of the sender's context and its command's end. -/
theorem updCtx_done_spec {s : State} {c : CmdRef} {op : Nat} {m : Cmd} (f : CtxS → CtxS) (h : s.runs c op m) :
    (((s.began c).updCtx m.ctx f).done c).answered c OK 0 [] ∧ (((s.began c).updCtx m.ctx f).done c).ctxAt m.ctx = f (s.ctxAt m.ctx) ∧
      (∀ k, k ≠ m.ctx → (((s.began c).updCtx m.ctx f).done c).ctxAt k = s.ctxAt k) ∧ otherCmds s (((s.began c).updCtx m.ctx f).done c) c ∧
      ((s.began c).updCtx m.ctx f).done c =
        { s with cmds := (((s.began c).updCtx m.ctx f).done c).cmds, ctxs := (((s.began c).updCtx m.ctx f).done c).ctxs } := by
  obtain ⟨hans, hothers⟩ := State.done_of_began (u := (s.began c).updCtx m.ctx f) OK 0 [] [] h.isSome rfl
  refine ⟨hans, ?_, fun k hk => ?_, hothers, rfl⟩
  · exact ((s.began c).ctxAt_updCtx m.ctx m.ctx f).trans (if_pos rfl)
  · exact ((s.began c).ctxAt_updCtx m.ctx k f).trans (if_neg hk)

/-- Bytes of host windows that the contexts other than `n` hold (R595). -/
def windowsElse (s : State) (n : Nat) : Nat := total ((List.range 8).map fun k => if k = n then 0 else total ((s.ctxAt k).window.map (·.2)))

theorem exec_hostWindowSet {s : State} {c : CmdRef} {m : Cmd} {l : List (Nat × Nat)} (h : s.runs c 0x0A00 m) (hl : sgExtents m 3 s = .extents l) :
    exec (.hostWindowSet c) s = .next (if (s.ctxAt m.ctx).admitted then (s.began c).refuseOpen c BUSY
      else if l = [] ∨ 256 < l.length ∨ l.any (fun e => decide (e.1 % 65536 ≠ 0 ∨ e.2 % 65536 ≠ 0)) then (s.began c).badWord c 3
      else if 2 ^ 38 < windowsElse s m.ctx + total (l.map (·.2)) then (s.began c).refuseOpen c NO_RESERVATION
      else ((s.began c).updCtx m.ctx fun x => { x with window := l }).done c) := by
  change execHostWindowSet c s = _
  rw [execHostWindowSet, onCmd_runs _ h]
  simp only [sgExtents_began, hl]
  rfl

theorem exec_windowBind {s : State} {c : CmdRef} {m : Cmd} (h : s.runs c 0x0A0D m) :
    (bit (m.w 3) 8 = true → exec (.windowBind c) s =
      .next (((s.began c).updCtx m.ctx fun x => { x with windows := Tab.del x.windows (fld (m.w 3) 7 0) }).done c)) ∧
    (bit (m.w 3) 8 = false → s.objOf (m.w 4) = none → exec (.windowBind c) s = .next ((s.began c).badWord c 4)) ∧
    (∀ k o, bit (m.w 3) 8 = false → s.objOf (m.w 4) = some (k, o) → o.unavailable = false → o.owner = m.ctx ∨ bit o.share m.ctx = true →
      exec (.windowBind c) s = .next (((s.began c).updCtx m.ctx fun x => { x with windows := Tab.put x.windows (fld (m.w 3) 7 0) o.id }).done c)) := by
  rw [show exec (.windowBind c) s = execWindowBind c s from rfl, execWindowBind, onCmd_runs _ h]
  refine ⟨fun hoff => by simp only [hoff, if_true], fun hon hnone => ?_, fun k o hon hobj hav huse => ?_⟩
  · have hsame : (s.began c).objOf (m.w 4) = none := hnone
    simp only [hon, Bool.false_eq_true, if_false, hsame]
  · have hsame : (s.began c).objOf (m.w 4) = some (k, o) := hobj
    have hallowed : o.usable m.ctx = true := by simpa [ObjS.usable] using huse
    simp only [hon, Bool.false_eq_true, if_false, hsame, hallowed, hav, Bool.true_eq_false]

/-! ### OBJ_CREATE -/

/-- The identifier of a new object under key `k` (Table 14-2). -/
def createdId (s : State) (k : Nat) : Word := w32 (Tab.getD s.reuse k 0 % 2 ^ 17 * 2 ^ 15 + k)

/-- The object that OBJ_CREATE makes (R597). -/
def createdObj (s : State) (m : Cmd) (home cls k : Nat) : ObjS :=
  { id := createdId s k, owner := m.ctx, granules := (m.w 4).toNat, kind := fld (m.w 5) 7 0, home := home, class_ := cls, epoch := s.epoch + 1 }

/-- The state in which a new object stands and its home tier is charged (R598). -/
def objCreated (s : State) (k : Nat) (o : ObjS) : State :=
  ({ s with objs := Tab.put s.objs k o, epoch := s.epoch + 1 } : State).charge o.owner o.home o.granules

/-- An identifier names the key that it was made from. -/
theorem objKey_createdId (s : State) {k : Nat} (hk : k < 32768) : objKey (createdId s k) = k := by
  simp only [objKey, createdId, fld, w32, BitVec.toNat_ofNat]
  omega

theorem State.objOf_of_get? {s : State} {k : Nat} {o : ObjS} (h : Tab.get? s.objs k = some o) (hkey : objKey o.id = k) : s.objOf o.id = some (k, o) := by
  simp only [State.objOf, hkey, h, if_true]

/-- What a creation leaves: the object under its key, the charge of its home tier, and every other object and context (R597, R598). -/
theorem objCreated_spec (s : State) {k : Nat} {o : ObjS} (hkey : objKey o.id = k) : (objCreated s k o).objOf o.id = some (k, o) ∧
    (∀ j, j ≠ k → Tab.get? (objCreated s k o).objs j = Tab.get? s.objs j) ∧ (∀ j, j ≠ o.owner → (objCreated s k o).ctxAt j = s.ctxAt j) ∧
    (o.home = 1 → ((objCreated s k o).ctxAt o.owner).t1Used = (s.ctxAt o.owner).t1Used + o.granules) ∧
    (o.home = 2 → ((objCreated s k o).ctxAt o.owner).hbmUsed = (s.ctxAt o.owner).hbmUsed + o.granules) ∧
    (o.home = 3 → ((objCreated s k o).ctxAt o.owner).t3Used = (s.ctxAt o.owner).t3Used + o.granules) := by
  have hcharged := fun f => (State.ctxAt_updCtx { s with objs := Tab.put s.objs k o, epoch := s.epoch + 1 } o.owner o.owner f).trans (if_pos rfl)
  refine ⟨State.objOf_of_get? ((Tab.get?_put ..).trans (if_pos rfl)) hkey, fun j hj => (Tab.get?_put ..).trans (if_neg hj),
    fun j hj => (State.ctxAt_updCtx ..).trans (if_neg hj), fun hhome => ?_, fun hhome => ?_, fun hhome => ?_⟩ <;>
  · rw [objCreated, State.charge, hcharged, hhome]
    rfl

section ObjCreate

variable {s : State} {c : CmdRef} {m : Cmd} {home cls : Nat} (h : s.runs c 0x0A01 m)

include h

theorem exec_objCreate_size (hbad : (m.w 4).toNat < 1 ∨ 65536 < (m.w 4).toNat) : exec (.objCreate c) s = .next ((s.began c).badWord c 4) := by
  change execObjCreate c s = _
  rw [execObjCreate, onCmd_runs _ h]
  simp only [if_pos hbad]

variable (hlo : 1 ≤ (m.w 4).toNat) (hhi : (m.w 4).toNat ≤ 65536)

include hlo hhi

theorem exec_objCreate_kind (hbad : 2 < fld (m.w 5) 7 0) : exec (.objCreate c) s = .next ((s.began c).badWord c 5) := by
  have hsize : ¬ ((m.w 4).toNat < 1 ∨ 65536 < (m.w 4).toNat) := by omega
  change execObjCreate c s = _
  rw [execObjCreate, onCmd_runs _ h]
  simp only [if_neg hsize, if_pos hbad]

variable (hkind : fld (m.w 5) 7 0 ≤ 2) (hhome : withDefault (fld (m.w 5) 15 8) 1 3 2 = some home)
  (hcls : withDefault (fld (m.w 5) 23 16) 1 4 4 = some cls)

include hkind hhome hcls

/-- Past the ranges, no reservation is left where no slot or no room is left (R598). -/
theorem exec_objCreate_full (hfull : s.tierFits m.ctx home (m.w 4).toNat = false) :
    exec (.objCreate c) s = .next ((s.began c).refuseOpen c NO_RESERVATION) := by
  have hsize : ¬ ((m.w 4).toNat < 1 ∨ 65536 < (m.w 4).toNat) := by omega
  have hsame : (s.began c).tierFits m.ctx home (m.w 4).toNat = false := hfull
  change execObjCreate c s = _
  rw [execObjCreate, onCmd_runs _ h]
  simp only [if_neg hsize, if_neg hkind.not_gt, hhome, hcls, hsame, if_true]
  split <;> rfl

theorem exec_objCreate_fits {slot : Nat} (hslot : ((List.range 4096).find? fun k => !Tab.has s.objs (m.ctx * 4096 + k)) = some slot)
    (hfits : s.tierFits m.ctx home (m.w 4).toNat = true) : exec (.objCreate c) s =
      .next ((objCreated (s.began c) (m.ctx * 4096 + slot) (createdObj s m home cls (m.ctx * 4096 + slot))).done c OK 0
        [createdId s (m.ctx * 4096 + slot)]) := by
  have hsize : ¬ ((m.w 4).toNat < 1 ∨ 65536 < (m.w 4).toNat) := by omega
  have hsame : (s.began c).tierFits m.ctx home (m.w 4).toNat = true := hfits
  have hfree : ((List.range 4096).find? fun k => !Tab.has (s.began c).objs (m.ctx * 4096 + k)) = some slot := hslot
  change execObjCreate c s = _
  rw [execObjCreate, onCmd_runs _ h]
  simp only [if_neg hsize, if_neg hkind.not_gt, hhome, hcls, hfree, hsame, Bool.true_eq_false, if_false]
  rfl

end ObjCreate

/-- A free slot is found where there is one. -/
theorem freeSlot_found {s : State} {n : Nat} (h : ∃ k, k < 4096 ∧ Tab.has s.objs (n * 4096 + k) = false) :
    ∃ slot, ((List.range 4096).find? fun k => !Tab.has s.objs (n * 4096 + k)) = some slot ∧ slot < 4096 ∧ Tab.has s.objs (n * 4096 + slot) = false := by
  obtain ⟨k, hk, hfree⟩ := h
  have hsome : ((List.range 4096).find? fun k => !Tab.has s.objs (n * 4096 + k)).isSome :=
    List.find?_isSome.2 ⟨k, List.mem_range.2 hk, by simp [hfree]⟩
  obtain ⟨slot, hslot⟩ := Option.isSome_iff_exists.1 hsome
  exact ⟨slot, hslot, List.mem_range.1 (List.mem_of_find?_eq_some hslot), by simpa using List.find?_some hslot⟩

/-! ### STREAM_BIND -/

/-- The stream that a descriptor names, before any fill (Table 14-4). -/
def describedStream (b : List Byte) (id : Word) (band : Nat) : WStream :=
  { obj := id, band := band, advRv := leAt b 6 1, flag := leAt b 7 1, bufRows := leAt b 10 2, buf0 := leAt b 12 2, buf1 := leAt b 14 2,
    layers := streamLayers b }

/-- The stream as it is bound: both buffers are being filled (R624). -/
def boundStream (b : List Byte) (id : Word) (band tiles : Nat) : WStream :=
  ((describedStream b id band).fill 0 0 tiles).fill 1 (1 % leAt b 8 2) tiles

theorem boundStream_eq (b : List Byte) (id : Word) (band tiles : Nat) : boundStream b id band tiles =
    { describedStream b id band with fills := [(0, 0, List.range tiles), (1, 1 % leAt b 8 2, List.range tiles)] } := rfl

theorem length_streamLayers (b : List Byte) : (streamLayers b).length = leAt b 8 2 := by
  rw [streamLayers, List.length_map, List.length_range]

section StreamBind

variable {s : State} {c : CmdRef} {m : Cmd} (h : s.runs c 0x0A0E m)

include h

theorem exec_streamBind_unbinds (hoff : bit (m.w 3) 0 = true) : exec (.streamBind c) s =
    .next (((s.began c).updCtx m.ctx fun x => { x with streams := Tab.del x.streams (fld (m.w 3) 11 8) }).done c) := by
  change execStreamBind c s = _
  rw [execStreamBind, onCmd_runs _ h]
  simp only [hoff, if_true]

theorem exec_streamBind_binds {b : List Byte} {k bn : Nat} {o : ObjS} (hon : bit (m.w 3) 0 = false) (hb : sgIn m 4 s = .bytes b)
    (hobj : s.objOf (wordAt b 0) = some (k, o)) (huse : o.owner = m.ctx ∨ bit o.share m.ctx = true) (hav : o.unavailable = false)
    (hband : (s.ctxAt m.ctx).bands[leAt b 4 1]? = some bn) : exec (.streamBind c) s =
      .next (if o.kind ≠ 2 ∨ streamOk b = false then (s.began c).badWord c 4
        else ((s.began c).putStream m.ctx (fld (m.w 3) 11 8) {} (boundStream b o.id bn (s.bandAt bn).tiles.length)).done c) := by
  have hsame : (s.began c).objOf (wordAt b 0) = some (k, o) := hobj
  have hallowed : o.usable m.ctx = true := by simpa [ObjS.usable] using huse
  have hbands : ((s.began c).ctxAt m.ctx).bands[leAt b 4 1]? = some bn := hband
  change execStreamBind c s = _
  rw [execStreamBind, onCmd_runs _ h]
  simp only [hon, Bool.false_eq_true, if_false, withSg, sgIn_began, hb, hsame, hallowed, hav, Bool.true_eq_false, hbands]
  rfl

end StreamBind

/-- `t` is `s` with fills of streams of context `n` dropped and requested. -/
structure FillsRequested (n : Nat) (s t : State) : Prop where
  state : t = { s with jobs := t.jobs, jobSeq := t.jobSeq }
  kept : ∀ r ∈ s.jobs, (∀ st i tile, r.job ≠ .streamFill n st i tile) → r ∈ t.jobs

theorem FillsRequested.refl (n : Nat) (s : State) : FillsRequested n s s := ⟨rfl, fun _ h _ => h⟩

theorem FillsRequested.trans {n : Nat} {s t u : State} (h : FillsRequested n s t) (k : FillsRequested n t u) : FillsRequested n s u where
  state := by rw [k.state, h.state]
  kept r hr hother := k.kept r (h.kept r hr hother) hother

theorem FillsRequested.requestMove (n : Nat) (s : State) (cls st i tile : Nat) : FillsRequested n s (s.requestMove cls (.streamFill n st i tile)) where
  state := s.requestMove_eq _ _
  kept r hr hother := by
    unfold State.requestMove
    split
    · exact hr
    · exact List.mem_append_left _ (List.mem_filter.2 ⟨hr, by simpa using hother st i tile⟩)

/-- The fills of a buffer that are not of this stream stay where the buffer's are dropped. -/
theorem FillsRequested.of_filter {n : Nat} (s : State) {p : MoveReq → Bool} (hp : ∀ r, (∀ st i tile, r.job ≠ .streamFill n st i tile) → p r = true) :
    FillsRequested n s { s with jobs := s.jobs.filter p } :=
  ⟨rfl, fun r hr hother => List.mem_filter.2 ⟨hr, hp r hother⟩⟩

theorem putStream_spec (s : State) (n st : Nat) (old w : WStream) :
    FillsRequested n (s.updCtx n fun x => { x with streams := Tab.put x.streams st w }) (s.putStream n st old w) := by
  unfold State.putStream
  extract_lets u cls
  refine forEach_keeps (P := FillsRequested n u) _ _ (fun f _ v hv => hv.trans ?_) (.refl n u)
  extract_lets v'
  have hdropped : FillsRequested n v v' := .of_filter v fun r hother => by
    split
    case h_1 k i buf _ hjob =>
      have hne : k ≠ n := fun e => hother i buf _ (e ▸ hjob)
      simp [hne]
    case h_2 => rfl
  exact forEach_keeps (P := FillsRequested n v) _ _ (fun t _ x hx => hx.trans (.requestMove n x _ _ _ _)) hdropped

/-! ### OBJ_RELOAD -/

/-- An object with a new home copy and no copy that the module pins (R635). -/
def ObjS.reloaded (o : ObjS) (b : List Byte) : ObjS :=
  { o with data := putBytes [] 0 b, homeBad := [], unavailable := false,
           copies := Tab.mapVals o.copies fun _ x => { x with modulePin := false, bad := [] } }

/-- The copies that no context claims are freed (R619, R635). -/
def unclaimedFreed (k : Nat) (o : ObjS) (s : State) : State := forEach o.copies (fun x s => if x.2.claims = 0 then s.unclaim k x.1 8 else s) s

/-- The reload's effect and its event (R635). -/
def objReloaded (s : State) (k : Nat) (o : ObjS) (b : List Byte) : State :=
  (forEach (o.owner :: o.borrowers 255) refreshLost (unclaimedFreed k o (s.updObj k fun o => o.reloaded b))).raiseCtx o.owner 0x8A03
    (o.id.toNat % 2 ^ 15)

theorem exec_objReload {s : State} {c : CmdRef} {m : Cmd} {k : Nat} {o : ObjS} (h : s.runs c 0x0A10 m) (hobj : s.objOf (m.w 3) = some (k, o))
    (hown : o.owner = m.ctx) : exec (.objReload c) s =
      .next (if o.isData ∨ (o.unavailable = false ∧ o.homeBad = []) then (s.began c).badWord c 3
        else if m.sgTotal 4 ≠ o.granules * 65536 then (s.began c).badWord c 4
        else withSg m 4 (s.began c) fun b => (objReloaded (s.began c) k o b).done c) := by
  change execObjReload c s = _
  rw [execObjReload, onCmd_withObj_own h hobj hown]
  rfl

/-- `t` is `s` with the reloaded object's copies on the way to be freed. -/
structure Reloading (k : Nat) (o : ObjS) (s t : State) : Prop where
  step : ObjectStep 8 k s t
  object : ∃ x, Tab.get? t.objs k = some x ∧ x = { o with copies := x.copies } ∧ ∀ y ∈ x.copies, y.2.modulePin = false

/-- Freeing a copy leaves every copy unpinned by the module. -/
theorem Reloading.unclaim {k : Nat} {o : ObjS} {s u : State} (h : Reloading k o s u) (tier : Nat) : Reloading k o s (u.unclaim k tier 8) := by
  obtain ⟨hstep, x, hx, heq, hpins⟩ := h
  obtain ⟨hfreed, hself⟩ := State.unclaim_spec hx tier 8
  refine ⟨hstep.trans hfreed, _, hself, by rw [ObjS.updCopy, heq], fun y hy => ?_⟩
  have hcopy : (x.copy tier).modulePin = false := by
    rw [ObjS.copy, Tab.getD]
    cases hc : Tab.get? x.copies tier with
    | none => rfl
    | some z => exact hpins _ (Tab.mem_of_get? hc)
  rcases Tab.mem_put hy with rfl | hy
  · change ((x.copy tier).leftBy 8).modulePin = false
    rw [CopyS.leftBy_eq]
    exact hcopy
  · exact hpins y hy

theorem unclaimedFreed_spec {s : State} {k : Nat} {o : ObjS} (b : List Byte) (hget : Tab.get? s.objs k = some o) :
    Reloading k (o.reloaded b) s (unclaimedFreed k o (s.updObj k fun o => o.reloaded b)) := by
  refine forEach_keeps (P := Reloading k (o.reloaded b) s) _ _ (fun x _ u hu => ?_)
    ⟨.of_updObj s _, _, State.get?_updObj_self _ hget, rfl, fun y hy => ?_⟩
  · split
    · exact hu.unclaim x.1
    · exact hu
  · obtain ⟨z, -, rfl⟩ := List.mem_map.1 hy
    rfl

/-- The sessions of a list of contexts learn which of their weights are lost (R100, R633). -/
theorem forEach_refreshLost_spec (l : List Nat) (s : State) : forEach l refreshLost s = { s with ctxs := (forEach l refreshLost s).ctxs } ∧
    ∀ n ∈ l, ∀ x, (forEach l refreshLost s).sessionAt n = some x → x.unavailable = s.lostStages n := by
  have hframe : ∀ (n : Nat) (u : State), u = { s with ctxs := u.ctxs } → refreshLost n u = { s with ctxs := (refreshLost n u).ctxs } :=
    fun n u hu => by rw [refreshLost, State.updSession_eq, hu]
  have hlost : ∀ (n : Nat) (u : State), u = { s with ctxs := u.ctxs } → u.lostStages n = s.lostStages n := fun n u hu => by rw [hu]; rfl
  have hown : ∀ (n : Nat) (u : State), u = { s with ctxs := u.ctxs } → ∀ x, (refreshLost n u).sessionAt n = some x → x.unavailable = s.lostStages n := by
    intro n u hu x hx
    rw [refreshLost, State.sessionAt_updSession, if_pos rfl] at hx
    obtain ⟨y, -, rfl⟩ := Option.map_eq_some_iff.1 hx
    exact hlost n u hu
  refine ⟨forEach_keeps (P := fun t => t = { s with ctxs := t.ctxs }) _ _ (fun n _ u hu => hframe n u hu) rfl, fun n hn => ?_⟩
  refine forEach_establishes (P := fun t => t = { s with ctxs := t.ctxs }) (Q := fun t => ∀ x, t.sessionAt n = some x → x.unavailable = s.lostStages n)
    _ _ (fun j _ u hu => hframe j u hu) (fun j _ u hu hq => ?_) hn (hown n) rfl
  by_cases hj : n = j
  · subst hj
    exact hown n u hu
  · intro x hx
    rw [refreshLost, State.sessionAt_updSession, if_neg hj] at hx
    exact hq x hx

end Sys2Proof.Machine

/-! ## Objects: the obligation -/

namespace Sys2Proof.Machine

/-! ### What each command leaves -/

/-- What OBJ_DESTROY leaves (R605). -/
theorem dropObj_done_spec {s : State} {c : CmdRef} {m : Cmd} {k : Nat} {o : ObjS} (h : s.runs c 0x0A02 m) (hget : Tab.get? s.objs k = some o)
    (hstill : o.moving = none) : ∃ t, ((s.began c).dropObj k).done c = t ∧ t.answered c OK 0 [] ∧ Tab.get? t.objs k = none ∧
      (∀ n w, n < 8 → Tab.get? (t.ctxAt n).windows w ≠ some o.id) ∧ (∀ j, j ≠ k → Tab.get? t.objs j = Tab.get? s.objs j) ∧
      (∀ d, d ≠ c → (∀ y ∈ s.cmds, y.ref = d → y.opcode ≠ 0x0A09) → t.findCmd d = s.findCmd d) ∧
      t = { s with cmds := t.cmds, ctxs := t.ctxs, objs := t.objs, reuse := t.reuse, jobs := t.jobs } := by
  obtain ⟨hstate, hobjs, hwindows, houtstanding, hkept⟩ := State.dropObj_spec (s := s.began c) hget hstill
  generalize (s.began c).dropObj k = u at hstate hobjs hwindows houtstanding hkept
  have hfound : (u.findCmd c).isSome := houtstanding c (by simpa using h.isSome)
  have hget' : ∀ j, Tab.get? u.objs j = if j = k then none else Tab.get? s.objs j := fun j => by rw [hobjs]; exact Tab.get?_del ..
  refine ⟨_, rfl, State.answered_done OK 0 [] [] hfound, (hget' k).trans (if_pos rfl), hwindows, fun j hj => (hget' j).trans (if_neg hj),
    fun d hd hpromote => ?_, by rw [hstate]; rfl⟩
  have hbegan : ∀ y ∈ (s.began c).cmds, y.ref = d → y.opcode ≠ 0x0A09 := fun y hy hyd => by
    obtain ⟨z, hz, rfl⟩ := List.mem_map.1 hy
    split at hyd
    case isTrue hzc => exact absurd (hyd.symm.trans hzc) hd
    case isFalse hzc =>
      rw [if_neg hzc]
      exact hpromote z hz hyd
  exact (otherCmds_done u c OK 0 [] [] d hd).trans ((hkept d hbegan).trans (otherCmds_began s c d hd))

/-- What STREAM_BIND leaves (R623, R624). -/
theorem putStream_done_spec {s : State} {c : CmdRef} {m : Cmd} (st : Nat) (w : WStream) (h : s.runs c 0x0A0E m) :
    ∃ t, ((s.began c).putStream m.ctx st {} w).done c = t ∧ t.answered c OK 0 [] ∧ Tab.get? (t.ctxAt m.ctx).streams st = some w ∧
      (∀ r ∈ s.jobs, (∀ st i tile, r.job ≠ .streamFill m.ctx st i tile) → r ∈ t.jobs) ∧ (∀ k, k ≠ m.ctx → t.ctxAt k = s.ctxAt k) ∧
      otherCmds s t c ∧ t = { s with cmds := t.cmds, ctxs := t.ctxs, jobs := t.jobs, jobSeq := t.jobSeq } := by
  obtain ⟨hstate, hkept⟩ := putStream_spec (s.began c) m.ctx st {} w
  generalize (s.began c).putStream m.ctx st {} w = u at hstate hkept
  obtain ⟨hans, hothers⟩ := State.done_of_began (u := u) OK 0 [] [] h.isSome (by rw [hstate]; rfl)
  have hctxAt : ∀ k, u.ctxAt k = ((s.began c).updCtx m.ctx fun x => { x with streams := Tab.put x.streams st w }).ctxAt k := fun k => by
    rw [hstate]; rfl
  refine ⟨_, rfl, hans, ?_, hkept, fun k hk => ?_, hothers, by rw [hstate]; rfl⟩
  · change Tab.get? (u.ctxAt m.ctx).streams st = some w
    rw [hctxAt, State.ctxAt_updCtx, if_pos rfl, Tab.get?_put, if_pos rfl]
  · exact (hctxAt k).trans ((State.ctxAt_updCtx ..).trans (if_neg hk))

/-- What OBJ_RELOAD leaves (R635). -/
theorem objReloaded_done_spec {s : State} {c : CmdRef} {m : Cmd} {k : Nat} {o : ObjS} (b : List Byte) (h : s.runs c 0x0A10 m)
    (hget : Tab.get? s.objs k = some o) : ∃ t o' e, (objReloaded (s.began c) k o b).done c = t ∧ t.answered c OK 0 [] ∧
      Tab.get? t.objs k = some o' ∧ o'.homeBad = [] ∧ o'.unavailable = false ∧ (∀ i x, b[i]? = some x → o'.byte i = x) ∧
      (∀ x ∈ o'.copies, x.2.modulePin = false) ∧ t.events = s.events ++ [e] ∧ e.code = 0x8A03 ∧
      (∀ n x, n ∈ o.owner :: o.borrowers 255 → t.sessionAt n = some x → x.unavailable = t.lostStages n) ∧
      (∀ j, j ≠ k → Tab.get? t.objs j = Tab.get? s.objs j) ∧ otherCmds s t c ∧
      t = { s with cmds := t.cmds, ctxs := t.ctxs, objs := t.objs, jobs := t.jobs, jobSeq := t.jobSeq, events := t.events, tether := t.tether } := by
  obtain ⟨hstep, o', hself, ho', hpins⟩ := unclaimedFreed_spec (s := s.began c) b hget
  unfold objReloaded
  generalize unclaimedFreed k o ((s.began c).updObj k fun o => o.reloaded b) = u at hstep hself
  obtain ⟨hframe, hlost⟩ := forEach_refreshLost_spec (o.owner :: o.borrowers 255) u
  generalize forEach (o.owner :: o.borrowers 255) refreshLost u = v at hframe hlost
  have hobjs : v.objs = u.objs := by rw [hframe]
  have hevents : v.events = s.events := by rw [hframe, hstep.state]; rfl
  obtain ⟨hans, hothers⟩ := State.done_of_began (u := v.raiseCtx o.owner 0x8A03 (o.id.toNat % 2 ^ 15)) OK 0 [] [] h.isSome
    (by rw [hframe, hstep.state]; rfl)
  have hstages : ∀ n, v.lostStages n = u.lostStages n := fun n => by simp only [State.lostStages, hobjs]
  refine ⟨_, o', _, rfl, hans, (congrArg (Tab.get? · k) hobjs).trans hself, by rw [ho']; rfl, by rw [ho']; rfl, fun i x hx => ?_, hpins,
    congrArg (· ++ [_]) hevents, rfl, fun n x hn hx => (hlost n hn x hx).trans (hstages n).symm, fun j hj => ?_, hothers,
    by rw [hframe, hstep.state]; rfl⟩
  · have hput : Tab.get? (putBytes [] 0 b) i = some x := by
      rw [← Nat.zero_add i]
      exact get?_putBytes_at [] 0 hx
    refine ObjS.byte_of_get? ?_
    rw [ho']
    exact hput
  · exact (congrArg (Tab.get? · j) hobjs).trans (hstep.objs j hj)

/-- Settles O33: each command on objects by its first obstacle or in full, with what it leaves unchanged. -/
theorem objectsFollowTheirOwner : Obligations.ObjectsFollowTheirOwner := by
  refine ⟨?window, ?create, ?refused, ?owner, ?read, ?bind, ?stream, ?reload⟩
  case window =>
    intro s c m l h hl
    have hexec := exec_hostWindowSet h hl
    refine ⟨fun hadm => by rw [hexec, if_pos hadm], fun hadm hne hlen haligned => ?_⟩
    have hgood : ¬ (l = [] ∨ 256 < l.length ∨ l.any (fun e => decide (e.1 % 65536 ≠ 0 ∨ e.2 % 65536 ≠ 0)) = true) := by
      rintro (hnil | hlong | hany)
      · exact hne hnil
      · omega
      · obtain ⟨e, he, hodd⟩ := List.any_eq_true.1 hany
        have hodd := of_decide_eq_true hodd
        have heven := haligned e he
        omega
    rw [if_neg (by simp [hadm]), if_neg hgood] at hexec
    refine ⟨fun hfull => hexec.trans (congrArg Host.Outcome.next (if_pos hfull)), fun hfits => ?_⟩
    obtain ⟨hans, hself, hctxs, hothers, hframe⟩ := updCtx_done_spec (fun x => { x with window := l }) h
    exact ⟨_, hexec.trans (congrArg Host.Outcome.next (if_neg hfits.not_gt)), hans, hself, hctxs, hothers, hframe⟩
  case create =>
    intro s c m home cls h hctx
    refine ⟨fun hsize => exec_objCreate_size h hsize, fun hlo hhi hkind => exec_objCreate_kind h hlo hhi hkind, fun hlo hhi hkind hhome hcls =>
      ⟨fun hfull => exec_objCreate_full h hlo hhi hkind hhome hcls hfull, fun hfits hroom => ?_⟩⟩
    obtain ⟨slot, hslot, hlt, hfree⟩ := freeSlot_found hroom
    have hexec := exec_objCreate_fits h hlo hhi hkind hhome hcls hslot hfits
    have hkey : objKey (createdId s (m.ctx * 4096 + slot)) = m.ctx * 4096 + slot := objKey_createdId s (by omega)
    obtain ⟨hobj, hobjs, hctxs, ht1, hhbm, ht3⟩ := objCreated_spec (s.began c) (o := createdObj s m home cls (m.ctx * 4096 + slot)) hkey
    obtain ⟨hans, hothers⟩ := State.done_of_began (u := objCreated (s.began c) (m.ctx * 4096 + slot) (createdObj s m home cls (m.ctx * 4096 + slot)))
      OK 0 [createdId s (m.ctx * 4096 + slot)] [] h.isSome rfl
    exact ⟨_, createdObj s m home cls (m.ctx * 4096 + slot), m.ctx * 4096 + slot, hexec, hans, hobj, hfree, by omega, rfl, rfl, rfl, rfl, rfl, rfl, rfl,
      rfl, ht1, hhbm, ht3, hobjs, hctxs, hothers, rfl⟩
  case refused =>
    intro s c m k o href hobj
    refine ⟨fun hne => ⟨fun h => ?destroy, fun h => ?write, fun h => ?sealing, fun h => ?share, fun h => ?unshare, fun h => ?move, fun h => ?reloadOther,
      fun hshare h => ?readOther⟩, fun hlost huse h => ?unavailable⟩
    case destroy => exact show execObjDestroy c s = _ from onCmd_withObj_notOwner h hobj href hne (.inl rfl)
    case write => exact show execObjWrite c s = _ from onCmd_withObj_notOwner h hobj href hne (.inl rfl)
    case sealing => exact show execObjSeal c s = _ from onCmd_withObj_notOwner h hobj href hne (.inl rfl)
    case share => exact show execObjShare c s = _ from onCmd_withObj_notOwner h hobj href hne (.inl rfl)
    case unshare => exact show execObjUnshare c s = _ from onCmd_withObj_notOwner h hobj href hne (.inl rfl)
    case move => exact show execObjMove c s = _ from onCmd_withObj_notOwner h hobj href hne (.inl rfl)
    case reloadOther => exact show execObjReload c s = _ from onCmd_withObj_notOwner h hobj href hne (.inl rfl)
    case readOther => exact show execObjRead c s = _ from onCmd_withObj_notOwner h hobj href hne (.inr hshare)
    case unavailable =>
      exact show execObjRead c s = _ from onCmd_withObj_unavailable h hobj href (huse.imp_right fun e => ⟨rfl, e⟩) hlost
  case owner =>
    intro s c m k o href hobj hown hav
    have hget := State.get?_of_objOf hobj
    have hdata : o.isData = true ↔ o.kind = 0 := by simp [ObjS.isData]
    refine ⟨fun h hsealed => ?sealed, fun h hopen hlong => ?long, fun b h hopen hfits hb => ?write, fun h hkind => ?sealData,
      fun h hkind => ?sealing, fun h hbad => ?shareBad, fun h hkind hsealed => ?share, fun h hholds => ?unshareBusy, fun h hfree => ?unshare,
      fun h hbusy => ?destroyBusy, fun h hfree hstill => ?destroy⟩
    case sealed => rw [exec_objWrite hobj hown hav h, if_pos hsealed]
    case long => rw [exec_objWrite hobj hown hav h, if_neg (by simp [hopen]), if_pos hlong]
    case write =>
      have hexec := exec_objWrite hobj hown hav h
      rw [if_neg (by simp [hopen]), if_neg hfits.not_gt, withSg, sgIn_began, hb] at hexec
      obtain ⟨hans, hself, hobjs, hothers, hframe⟩ := updObj_done_spec (fun o => o.write (256 * (m.w 4).toNat) b) h hget
      exact ⟨_, _, hexec, hans, hself, rfl, fun i x hx => o.byte_write_at _ hx, fun a ha => o.byte_write_outside ha,
        fun g hg => (List.mem_filter.1 hg).1, hobjs, hothers, hframe⟩
    case sealData => rw [exec_objSeal hobj hown hav h, if_pos (hdata.2 hkind)]
    case sealing =>
      have hexec := exec_objSeal hobj hown hav h
      rw [if_neg (mt hdata.1 hkind)] at hexec
      exact ⟨_, hexec, updObj_done_spec (fun o => { o with sealed_ := true }) h hget⟩
    case shareBad => rw [exec_objShare hobj hown hav h, if_pos (hbad.imp_left hdata.2)]
    case share =>
      have hexec := exec_objShare hobj hown hav h
      rw [if_neg (by simp [hsealed, ObjS.isData, hkind])] at hexec
      obtain ⟨hans, hself, hobjs, hothers, hframe⟩ :=
        updObj_done_spec (fun o => { o with share := o.share ||| BitVec.ofNat 8 (fld (m.w 4) 7 0) }) h hget
      refine ⟨_, _, hexec, hans, hself, rfl, fun n hn => ?_, hobjs, hothers, hframe⟩
      rw [BitVec.getLsbD_or, getLsbD_lowByte _ hn]
    case unshareBusy => rw [exec_objUnshare hobj hown hav h, if_pos (List.any_eq_true.2 hholds)]
    case unshare =>
      have hexec := exec_objUnshare hobj hown hav h
      have hnone : ¬ ((o.borrowers (fld (m.w 4) 7 0)).any fun n => s.holdsOn n o) = true := by simpa using hfree
      rw [if_neg hnone] at hexec
      obtain ⟨hans, hself, hobjs, hothers, hframe⟩ :=
        updObj_done_spec (fun o => { o with share := o.share &&& ~~~ (BitVec.ofNat 8 (fld (m.w 4) 7 0)) }) h hget
      refine ⟨_, _, hexec, hans, hself, rfl, fun n hn => ?_, hobjs, hothers, hframe⟩
      rw [BitVec.getLsbD_and, BitVec.getLsbD_not, getLsbD_lowByte _ hn, decide_eq_true hn, Bool.true_and]
    case destroyBusy => rw [exec_objDestroy hobj hown hav h, if_pos (hbusy.imp_left List.any_eq_true.2)]
    case destroy =>
      have hexec := exec_objDestroy hobj hown hav h
      have hnone : ¬ (((o.borrowers 255).any fun n => s.holdsOn n o) = true ∨ o.moving.isSome = true) := by
        simpa [hstill] using hfree
      obtain ⟨t, ht, hspec⟩ := dropObj_done_spec h hget hstill
      rw [if_neg hnone, ht] at hexec
      exact ⟨t, hexec, hspec⟩
  case read =>
    intro s c m k o h href hobj huse hav hsize
    have hexec := exec_objRead h hobj huse hav
    rw [if_neg hsize.not_gt] at hexec
    refine ⟨fun hbad => by rw [hexec, if_pos hbad]; rfl, fun hgood => ?_⟩
    obtain ⟨⟨r, hr, his, hinline⟩, hextents⟩ := doneOut_whole 5 h href (b := o.bytes (256 * (m.w 4).toNat) (m.sgTotal 5)) (by simp [ObjS.bytes])
    obtain ⟨hothers, hframe⟩ := doneOut_of_began 5 (o.bytes (256 * (m.w 4).toNat) (m.sgTotal 5)) h
    exact ⟨_, r, by rw [hexec, if_neg (by simp [hgood])], hr, his, hinline, hextents, hothers, hframe⟩
  case bind =>
    intro s c m h
    obtain ⟨hunbinds, hnone, hbinds⟩ := exec_windowBind h
    refine ⟨fun hoff => ?_, hnone, fun k o hon hobj hav huse => ?_⟩
    · obtain ⟨hans, hself, hctxs, hothers, hframe⟩ := updCtx_done_spec (fun x => { x with windows := Tab.del x.windows (fld (m.w 3) 7 0) }) h
      refine ⟨_, hunbinds hoff, hans, ?_, fun w hw => ?_, hctxs, hothers, hframe⟩
      · rw [hself, Tab.get?_del, if_pos rfl]
      · rw [hself, Tab.get?_del, if_neg hw]
    · obtain ⟨hans, hself, hctxs, hothers, hframe⟩ := updCtx_done_spec (fun x => { x with windows := Tab.put x.windows (fld (m.w 3) 7 0) o.id }) h
      refine ⟨_, hbinds k o hon hobj hav huse, hans, ?_, fun w hw => ?_, hctxs, hothers, hframe⟩
      · rw [hself, Tab.get?_put, if_pos rfl]
      · rw [hself, Tab.get?_put, if_neg hw]
  case stream =>
    intro s c m b k bn o h href
    refine ⟨fun hoff => ?_, fun hon hb hobj huse hav hband => ?_⟩
    · obtain ⟨hans, hself, hctxs, hothers, hframe⟩ := updCtx_done_spec (fun x => { x with streams := Tab.del x.streams (fld (m.w 3) 11 8) }) h
      exact ⟨_, exec_streamBind_unbinds h hoff, hans, by rw [hself, Tab.get?_del, if_pos rfl], hctxs, hothers, hframe⟩
    · have hexec := exec_streamBind_binds h hon hb hobj huse hav hband
      refine ⟨fun hbad => by rw [hexec, if_pos hbad], fun hkind hok => ?_⟩
      rw [if_neg (by simp [hkind, hok]), boundStream_eq] at hexec
      obtain ⟨t, ht, hans, hself, hkept, hctxs, hothers, hframe⟩ := putStream_done_spec (fld (m.w 3) 11 8)
        { describedStream b o.id bn with
          fills := [(0, 0, List.range (s.bandAt bn).tiles.length), (1, 1 % leAt b 8 2, List.range (s.bandAt bn).tiles.length)] } h
      rw [ht] at hexec
      exact ⟨t, _, hexec, hans, hself, rfl, rfl, rfl, rfl, rfl, rfl, rfl, length_streamLayers b, rfl, rfl, rfl, rfl, hkept, hctxs, hothers, hframe⟩
  case reload =>
    intro s c m k o h href hobj hown
    have hexec := exec_objReload h hobj hown
    have hdata : o.isData = true ↔ o.kind = 0 := by simp [ObjS.isData]
    refine ⟨fun hbad => by rw [hexec, if_pos (hbad.imp_left hdata.2)], fun b hkind hlost hsize hb => ?_⟩
    have hgood : ¬ (o.isData = true ∨ (o.unavailable = false ∧ o.homeBad = [])) := by
      rintro (hzero | ⟨hav, hhome⟩)
      · exact hkind (hdata.1 hzero)
      · rcases hlost with hlost | hlost
        · simp [hav] at hlost
        · exact hlost hhome
    rw [if_neg hgood, if_neg (not_not.2 hsize), withSg, sgIn_began, hb] at hexec
    obtain ⟨t, o', e, ht, hspec⟩ := objReloaded_done_spec b h (State.get?_of_objOf hobj)
    exact ⟨t, o', e, hexec.trans (congrArg Host.Outcome.next ht), hspec⟩

end Sys2Proof.Machine

/-! ## Commands of the timebase -/

namespace Sys2Proof.Machine

/-! ### Ends of commands -/

/-- A command that has begun is refused with that status, and nothing but the command changes. -/
theorem State.refuse_of_began {s : State} {c : CmdRef} (st d : Nat) (h : (s.findCmd c).isSome) :
    ∃ r, ((s.began c).refuse c st d).replyOf c = some r ∧ r.status = BitVec.ofNat 16 st ∧ otherCmds s ((s.began c).refuse c st d) c ∧
      (s.began c).refuse c st d = { s with cmds := ((s.began c).refuse c st d).cmds } := by
  obtain ⟨r, hr, hstatus, -⟩ := State.answered_refuse (s := s.began c) (c := c) st d (by simpa using h)
  exact ⟨r, hr, hstatus, (otherCmds_began s c).trans (otherCmds_refuse _ c st d), rfl⟩

/-- A command whose effect has left every other command alone is answered by its end, and every other command stays. -/
theorem State.done_of_others {s u : State} {c : CmdRef} (st d : Nat) (b : List Word) (o : List Byte) (h : (u.findCmd c).isSome)
    (hothers : otherCmds s u c) : (u.done c st d b o).answered c st d b ∧ otherCmds s (u.done c st d b o) c :=
  ⟨State.answered_done st d b o h, hothers.trans (otherCmds_done u c st d b o)⟩

/-! ### Parameters -/

theorem timeParam_valid {m : Cmd} {i : Nat} (hn : (m.w i).toNat < 1000000000) (hs : (m.w (i + 2)).toNat < 0x10000) :
    timeParam m i = .inr (((m.w (i + 1)).toNat + 2 ^ 32 * (m.w (i + 2)).toNat) * 1000000000 + (m.w i).toNat) := by
  rw [timeParam, if_neg (Nat.not_le.2 hn), if_neg (Nat.not_le.2 hs)]

/-- A valid time lies below the end of SECONDS. -/
theorem timeParam_lt {m : Cmd} (i : Nat) (hn : (m.w i).toNat < 1000000000) (hs : (m.w (i + 2)).toNat < 0x10000) :
    ((m.w (i + 1)).toNat + 2 ^ 32 * (m.w (i + 2)).toNat) * 1000000000 + (m.w i).toNat < 2 ^ 48 * 1000000000 := by
  have := (m.w (i + 1)).isLt
  omega

/-- A field with a default that is taken holds its value, or its default for zero (R695). -/
theorem eq_of_withDefault {x lo hi d y : Nat} (hlo : 0 < lo) (h : withDefault x lo hi d = some y) : y = if x = 0 then d else x := by
  unfold withDefault at h
  split_ifs at h with hin hzero
  · rw [if_neg (by omega)]; exact (Option.some.inj h).symm
  · rw [if_pos hzero]; exact (Option.some.inj h).symm

/-- The fields of a PTP_CONFIG that is accepted (Table 16-7). -/
theorem ptpParams_spec {m : Cmd} {roles : List Nat} {j p : Nat} (h : ptpParams m = .inr (roles, j, p)) :
    roles = (List.range 4).map (fun i => fld (m.w 4) (2 * i + 1) (2 * i)) ∧ j = (if (m.w 6).toNat = 0 then 1000 else (m.w 6).toNat) ∧
      p = if (m.w 7).toNat = 0 then 100000 else (m.w 7).toNat := by
  simp only [ptpParams] at h
  split_ifs at h
  split at h <;> cases h
  case h_3 hj hp => exact ⟨rfl, eq_of_withDefault (by decide) hj, eq_of_withDefault (by decide) hp⟩

/-! ### Steps of device time -/

/-- Device time is read from SECONDS and NANOSECONDS alone. -/
theorem State.devNs_congr {s t : State} (h1 : t.time.seconds = s.time.seconds) (h2 : t.time.nanos = s.time.nanos) : t.devNs = s.devNs := by
  rw [State.devNs, State.devNs, h1, h2]

/-- Device time once it is set (R136). -/
theorem State.devNs_setNs (s : State) {ns : Nat} (h : ns < 2 ^ 48 * 1000000000) : (s.mapTime fun t => t.setNs ns).devNs = ns := by
  have hs : ns / 1000000000 < 2 ^ 48 := by omega
  have hn : ns % 1000000000 < 2 ^ 32 := by omega
  simp only [State.devNs, State.mapTime_time, TimeS.setNs, w32, BitVec.toNat_ofNat, Nat.mod_eq_of_lt hs, Nat.mod_eq_of_lt hn]
  omega

/-- `t` is `s` after a step of device time, with `x` as its time: pulses may have been passed over and events raised (R136, R149). -/
structure TimeStepped (x : TimeS) (s t : State) : Prop where
  state : t = { s with time := t.time, reel := t.reel, events := t.events, tether := t.tether }
  time : t.time = x

/-- The time after a step (R126, R136). -/
def steppedTime (step : Int) (s : State) : TimeS :=
  if step = 0 then s.time else s.time.setNs ((Int.ofNat s.devNs + step) % (2 ^ 48 * 1000000000)).toNat

theorem stepTime_stepped (step : Int) (s : State) : TimeStepped (steppedTime step s) s (stepTime step s) := by
  unfold stepTime steppedTime
  split_ifs with hzero hback
  · exact ⟨rfl, rfl⟩
  · exact ⟨rfl, rfl⟩
  · refine forEach_keeps (P := TimeStepped _ s) _ _ (fun i _ u hu => ?_) ⟨rfl, rfl⟩
    dsimp only
    split
    · exact ⟨by rw [hu.state]; rfl, hu.time⟩
    · exact hu

/-- A forward step moves device time by the step, away from its wrap. -/
theorem devNs_stepTime {s : State} {k : Nat} (h : s.devNs + k < 2 ^ 48 * 1000000000) : (stepTime k s).devNs = s.devNs + k := by
  have htime := (stepTime_stepped k s).time
  unfold steppedTime at htime
  split_ifs at htime with hzero
  · rw [State.devNs_congr (s := s) (by rw [htime]) (by rw [htime]), Int.natCast_eq_zero.1 hzero, Nat.add_zero]
  · have hnew : ((Int.ofNat s.devNs + (k : Int)) % (2 ^ 48 * 1000000000)).toNat = s.devNs + k := by
      rw [Int.ofNat_eq_natCast]; omega
    rw [hnew] at htime
    exact (State.devNs_congr (s := s.mapTime fun t => t.setNs (s.devNs + k)) (by rw [htime]; rfl) (by rw [htime]; rfl)).trans (s.devNs_setNs h)

theorem steppedTime_inc (step : Int) (s : State) : (steppedTime step s).inc = s.time.inc := by unfold steppedTime; split <;> rfl
theorem steppedTime_ticks (step : Int) (s : State) : (steppedTime step s).ticks = s.time.ticks := by unfold steppedTime; split <;> rfl

section HostStep

variable {s : State} {c : CmdRef} {step : Int}

/-- With a source a host's step is refused (R125). -/
theorem hostStep_source (h : s.time.source ≠ 0) : hostStep c step s = s.refuseOpen c BUSY := if_pos h

/-- A step beyond JUMP_LIMIT is refused (R128). -/
theorem hostStep_tooFar (hsrc : s.time.source = 0) (hfar : s.time.jumpLimitUs * 1000 < step.natAbs) :
    hostStep c step s = s.refuseOpen c TIME_JUMP_REFUSED := by
  rw [hostStep, if_neg (not_not.2 hsrc), if_pos (.inl hfar)]

/-- A forward step within JUMP_LIMIT takes place (R126). -/
theorem hostStep_forward {op : Nat} {m : Cmd} {k : Nat} (h : s.runs c op m) (hsrc : s.time.source = 0) (hnear : k ≤ s.time.jumpLimitUs * 1000)
    (hend : s.devNs + k < 2 ^ 48 * 1000000000) : ∃ t, hostStep c k (s.began c) = t ∧ t.answered c OK 0 [] ∧ t.devNs = s.devNs + k ∧
      t.time.inc = s.time.inc ∧ t.time.ticks = s.time.ticks ∧ otherCmds s t c ∧
      t = { s with cmds := t.cmds, time := t.time, reel := t.reel, events := t.events, tether := t.tether } := by
  have hallowed : ¬ ((s.began c).time.jumpLimitUs * 1000 < (k : Int).natAbs ∨ ((k : Int) < 0 ∧ (s.began c).anySession = true)) := by
    rintro (hfar | ⟨hback, -⟩)
    · exact Nat.not_le.2 hfar hnear
    · omega
  have hdev : (stepTime k ((s.began c).commit c)).devNs = s.devNs + k := devNs_stepTime hend
  obtain ⟨hstate, htime⟩ := stepTime_stepped k ((s.began c).commit c)
  have hstep : hostStep c k (s.began c) = (stepTime k ((s.began c).commit c)).done c := by
    rw [hostStep, if_neg (not_not.2 (by exact hsrc)), if_neg hallowed]
  generalize stepTime k ((s.began c).commit c) = u at hdev hstate htime hstep
  have hcmds : u.cmds = ((s.began c).commit c).cmds := by rw [hstate]
  have hfound : (u.findCmd c).isSome := by simp [State.findCmd_congr hcmds, h.1]
  have hothers : otherCmds s u c := fun d hd => by simp [State.findCmd_congr hcmds, hd]
  obtain ⟨hans, hkept⟩ := State.done_of_others OK 0 [] [] hfound hothers
  exact ⟨u.done c, hstep, hans, hdev, (congrArg TimeS.inc htime).trans (steppedTime_inc k _),
    (congrArg TimeS.ticks htime).trans (steppedTime_ticks k _), hkept, by rw [State.done_eq, hstate]; rfl⟩

end HostStep

/-! ### The commands -/

theorem exec_timeSet {s : State} {c : CmdRef} {m : Cmd} (h : s.runs c 0x0301 m) (hn : (m.w 3).toNat < 1000000000) (hs : (m.w 5).toNat < 0x10000) :
    exec (.timeSet c) s = .next (hostStep c
      (Int.ofNat (((m.w 4).toNat + 2 ^ 32 * (m.w 5).toNat) * 1000000000 + (m.w 3).toNat) - Int.ofNat s.devNs) (s.began c)) := by
  change execTimeSet c s = _
  rw [execTimeSet, onCmd_runs _ h, timeParam_valid hn hs]
  rfl

theorem exec_timeAdjust {s : State} {c : CmdRef} {m : Cmd} (h : s.runs c 0x0302 m) :
    exec (.timeAdjust c) s = .next (hostStep c (sext 64 ((m.w 3).toNat + 2 ^ 32 * (m.w 4).toNat)) (s.began c)) :=
  onCmd_runs _ h

section Increment

variable {s : State} {c : CmdRef} {m : Cmd} (h : s.runs c 0x0303 m)

include h

/-- TIME_SET_INCREMENT of a value outside the range of R109. -/
theorem exec_timeSetIncrement_outside (hbad : incParam m 3 < incMin ∨ incMax < incParam m 3) :
    exec (.timeSetIncrement c) s = .next ((s.began c).badWord c 3) := by
  change execTimeSetIncrement c s = _
  rw [execTimeSetIncrement, onCmd_runs _ h, if_pos hbad]

/-- With a source INCREMENT is not the host's to set (R125). -/
theorem exec_timeSetIncrement_source (hlo : incMin ≤ incParam m 3) (hhi : incParam m 3 ≤ incMax) (hsrc : s.time.source ≠ 0) :
    exec (.timeSetIncrement c) s = .next ((s.began c).refuseOpen c BUSY) := by
  change execTimeSetIncrement c s = _
  rw [execTimeSetIncrement, onCmd_runs _ h, if_neg (by omega)]
  exact congrArg _ (if_pos hsrc)

theorem exec_timeSetIncrement_set (hlo : incMin ≤ incParam m 3) (hhi : incParam m 3 ≤ incMax) (hsrc : s.time.source = 0) :
    exec (.timeSetIncrement c) s = .next (((s.began c).mapTime fun t =>
      { t with inc := BitVec.ofNat 40 (incParam m 3), estimate := some (BitVec.ofNat 40 (incParam m 3)) }).done c) := by
  change execTimeSetIncrement c s = _
  rw [execTimeSetIncrement, onCmd_runs _ h, if_neg (by omega)]
  exact congrArg _ (if_neg (not_not.2 hsrc))

end Increment

/-- The entries that CLOCK_RESET disarms and counts (R134). -/
def armedCount (s : State) : Nat := (s.reel.filter fun e => e.2.state == 2).length

/-- CLOCK_RESET's effect: the Reel disarmed, the time changed by `f`, the servo started again, and its event (R133, R134). -/
def clockRestarted (fromFree : Bool) (f : TimeS → TimeS) (s : State) : State :=
  (servoRestart fromFree ((resetReel s).mapTime f)).raise 0x8307 (armedCount s)

/-- The time that MODE 0 of CLOCK_RESET loads, and INCREMENT with it (R133). -/
def TimeS.loaded (t : TimeS) (ns inc : Nat) : TimeS := { t.setNs ns with frac := 0, inc := BitVec.ofNat 40 inc }

/-- The time whose next correction is an initial step (R133). -/
def TimeS.forced (t : TimeS) : TimeS := { t with forceInitial := true }

section ClockReset

variable {s : State} {c : CmdRef} {m : Cmd} (h : s.runs c 0x0304 m)

/-- The entries that CLOCK_RESET leaves: none armed, no pulse counted, pulses in progress unchanged (R134). -/
theorem clockRestarted_reel (fromFree : Bool) (f : TimeS → TimeS) (s : State) :
    (∀ e ∈ (clockRestarted fromFree f s).reel, e.2.state ≠ 2 ∧ e.2.fired = 0) ∧
      (clockRestarted fromFree f s).reel.map (fun e => (e.1, e.2.pulses)) = s.reel.map fun e => (e.1, e.2.pulses) := by
  have hreel : (clockRestarted fromFree f s).reel = (resetReel s).reel := rfl
  rw [hreel, resetReel]
  refine ⟨fun e he => ?_, by rw [List.map_map]; rfl⟩
  obtain ⟨e, -, rfl⟩ := List.mem_map.1 he
  refine ⟨?_, rfl⟩
  dsimp only
  split_ifs with harmed
  · decide
  · exact harmed

theorem devNs_clockRestarted_loaded (s : State) {ns : Nat} (inc : Nat) (hns : ns < 2 ^ 48 * 1000000000) :
    (clockRestarted true (fun t => t.loaded ns inc) s).devNs = ns :=
  (State.devNs_congr (s := s.mapTime fun t => t.setNs ns) rfl rfl).trans (s.devNs_setNs hns)

/-- The servo after CLOCK_RESET (R133). -/
theorem clockRestarted_loaded_state (s : State) (ns inc : Nat) :
    (clockRestarted true (fun t => t.loaded ns inc) s).time.state = if s.time.source = 0 then .free else .acquiring := by
  change (if s.time.source ≠ 0 then TimeState.acquiring else TimeState.free) = _
  by_cases hsrc : s.time.source = 0
  · rw [if_pos hsrc, if_neg (not_not.2 hsrc)]
  · rw [if_neg hsrc, if_pos hsrc]

include h

theorem exec_clockReset_outside (hmode : bit (m.w 3) 0 = false) (hn : (m.w 4).toNat < 1000000000) (hs : (m.w 6).toNat < 0x10000)
    (hbad : incParam m 7 < incMin ∨ incMax < incParam m 7) : exec (.clockReset c) s = .next ((s.began c).badWord c 7) := by
  change execClockReset c s = _
  rw [execClockReset, onCmd_runs _ h, timeParam_valid hn hs]
  simp only [hmode, Bool.false_eq_true, if_false, if_pos hbad]

/-- MODE 0 sets the time and INCREMENT given (R133). -/
theorem exec_clockReset_sets (hmode : bit (m.w 3) 0 = false) (hn : (m.w 4).toNat < 1000000000) (hs : (m.w 6).toNat < 0x10000)
    (hlo : incMin ≤ incParam m 7) (hhi : incParam m 7 ≤ incMax) (hidle : s.anySession = false) : exec (.clockReset c) s =
      .next ((clockRestarted true (fun t => t.loaded (((m.w 5).toNat + 2 ^ 32 * (m.w 6).toNat) * 1000000000 + (m.w 4).toNat) (incParam m 7))
        (s.began c)).done c OK 0 [w32 (armedCount s)]) := by
  have hsame : (s.began c).anySession = s.anySession := rfl
  change execClockReset c s = _
  rw [execClockReset, onCmd_runs _ h, timeParam_valid hn hs]
  simp only [hmode, Bool.false_eq_true, if_false, if_neg (by omega : ¬ (incParam m 7 < incMin ∨ incMax < incParam m 7)), hsame, hidle]
  rfl

/-- MODE 1 leaves time and INCREMENT, and makes the next correction an initial step (R133). -/
theorem exec_clockReset_keeps (hmode : bit (m.w 3) 0 = true) (hidle : s.anySession = false) : exec (.clockReset c) s =
    .next ((clockRestarted false TimeS.forced (s.began c)).done c OK 0 [w32 (armedCount s)]) := by
  have hsame : (s.began c).anySession = s.anySession := rfl
  change execClockReset c s = _
  rw [execClockReset, onCmd_runs _ h]
  simp only [hmode, if_true, hsame, hidle, Bool.false_eq_true, if_false]
  rfl

/-- What both modes of CLOCK_RESET answer and leave. -/
theorem clockRestarted_done_spec (fromFree : Bool) (f : TimeS → TimeS) :
    let t := (clockRestarted fromFree f (s.began c)).done c OK 0 [w32 (armedCount s)]
    t.answered c OK 0 [w32 (armedCount s)] ∧ (∀ e ∈ t.reel, e.2.state ≠ 2 ∧ e.2.fired = 0) ∧
      t.reel.map (fun e => (e.1, e.2.pulses)) = s.reel.map (fun e => (e.1, e.2.pulses)) ∧ otherCmds s t c ∧
      t = { s with cmds := t.cmds, time := t.time, reel := t.reel, events := t.events, tether := t.tether } := by
  obtain ⟨hans, hothers⟩ := State.done_of_began (u := clockRestarted fromFree f (s.began c)) OK 0 [w32 (armedCount s)] [] h.isSome rfl
  obtain ⟨hreset, hpulses⟩ := clockRestarted_reel fromFree f (s.began c)
  exact ⟨hans, hreset, hpulses, hothers, rfl⟩

end ClockReset

/-- The time with the settings of a PTP_CONFIG (R113, R116, R117, R119, R127). -/
def TimeS.configured (t : TimeS) (m : Cmd) (roles : List Nat) (j p : Nat) : TimeS :=
  { t with roles := roles, jumpLimitUs := j, ppsWidthUs := p, dot1as := bit (m.w 3) 2, udp := bit (m.w 3) 3,
           noInitialStep := bit (m.w 3) 4, domain := BitVec.ofNat 8 (fld (m.w 5) 7 0), logSync := BitVec.ofNat 8 (fld (m.w 5) 15 8),
           source := fld (m.w 3) 1 0 }

/-- The state and INCREMENT that a source leads to (Table 3-2, R973). -/
def TimeS.withSource (t : TimeS) (src : Nat) : TimeS :=
  if src = 0 then { t with inc := restingInc t, state := .free, first := false, correcting := false, goodCount := 0 }
  else if t.state = .free then { t with state := .acquiring, first := true, fromFree := true, goodCount := 0, estimate := none,
                                        offsets := [], lastSync := t.ticks }
  else t

theorem TimeS.withSource_none (t : TimeS) : (t.withSource 0).state = .free ∧ (t.withSource 0).inc = restingInc t := ⟨rfl, rfl⟩

theorem TimeS.withSource_some (t : TimeS) {src : Nat} (h : src ≠ 0) :
    (t.withSource src).inc = t.inc ∧ (t.withSource src).state = if t.state = .free then .acquiring else t.state := by
  rw [TimeS.withSource, if_neg h]
  split_ifs <;> exact ⟨rfl, rfl⟩

/-- A change of source leaves the settings and the clock's value. -/
theorem TimeS.withSource_settings (t : TimeS) (src : Nat) : (t.withSource src).source = t.source ∧ (t.withSource src).roles = t.roles ∧
    (t.withSource src).jumpLimitUs = t.jumpLimitUs ∧ (t.withSource src).ppsWidthUs = t.ppsWidthUs ∧
    (t.withSource src).seconds = t.seconds ∧ (t.withSource src).nanos = t.nanos := by
  unfold TimeS.withSource
  split_ifs <;> exact ⟨rfl, rfl, rfl, rfl, rfl, rfl⟩

theorem exec_ptpConfig {s : State} {c : CmdRef} {m : Cmd} {roles : List Nat} {j p : Nat} (h : s.runs c 0x0305 m)
    (hp : ptpParams m = .inr (roles, j, p)) : exec (.ptpConfig c) s =
      .next (((s.began c).mapTime fun t => (t.configured m roles j p).withSource (fld (m.w 3) 1 0)).done c) := by
  change execPtpConfig c s = _
  rw [execPtpConfig, onCmd_runs _ h, hp]
  rfl

/-! ### The obligations -/

/-- Settles O5: INCREMENT by its range, then the source, and a host's step by the source and its size. -/
theorem timeCommandsRefusedBySourceRangeAndLimit : Obligations.TimeCommandsRefusedBySourceRangeAndLimit := by
  refine ⟨?increment, ?clockReset, ?source, ?limit, ?set⟩
  case increment =>
    intro s c m h hbad
    obtain ⟨r, hspec⟩ := State.refuse_of_began BAD_PARAM 0x0103 h.isSome
    exact ⟨_, r, exec_timeSetIncrement_outside h hbad, hspec⟩
  case clockReset =>
    intro s c m h hmode hn hs hbad
    obtain ⟨r, hspec⟩ := State.refuse_of_began BAD_PARAM 0x0107 h.isSome
    exact ⟨_, r, exec_clockReset_outside h hmode hn hs hbad, hspec⟩
  case source =>
    intro s c m hsrc
    refine ⟨fun h hn hs => ?_, fun h => ?_, fun h hlo hhi => exec_timeSetIncrement_source h hlo hhi hsrc⟩
    · rw [exec_timeSet h hn hs, hostStep_source (s := s.began c) hsrc]
    · rw [exec_timeAdjust h, hostStep_source (s := s.began c) hsrc]
  case limit =>
    intro s c m hsrc
    refine ⟨fun h hn hs hfar => ?_, fun h hfar => ?_⟩
    · rw [exec_timeSet h hn hs, hostStep_tooFar (s := s.began c) hsrc hfar]
    · rw [exec_timeAdjust h, hostStep_tooFar (s := s.began c) hsrc hfar]
  case set =>
    intro s c m h hsrc hlo hhi
    obtain ⟨hans, hothers⟩ := State.done_of_began (u := (s.began c).mapTime fun t =>
      { t with inc := BitVec.ofNat 40 (incParam m 3), estimate := some (BitVec.ofNat 40 (incParam m 3)) }) OK 0 [] [] h.isSome rfl
    exact ⟨_, exec_timeSetIncrement_set h hlo hhi hsrc, hans, rfl, rfl, hothers, rfl⟩

/-- Settles O6: the two steps by `hostStep_forward`, both modes of CLOCK_RESET by what they share, and PTP_CONFIG by its source. -/
theorem timeStepsAndClockReset : Obligations.TimeStepsAndClockReset := by
  refine ⟨?adjust, ?set, ?reset, ?restart, ?ptp⟩
  case adjust =>
    intro s c m h hsrc _ hstep hend
    obtain ⟨hhigh, hnear⟩ := hstep
    have hsext : sext 64 ((m.w 3).toNat + 2 ^ 32 * (m.w 4).toNat) = ((m.w 3).toNat : Int) := by
      have hzero : (m.w 4).toNat = 0 := congrArg BitVec.toNat hhigh
      have hlt := (m.w 3).isLt
      have hsmall : (m.w 3).toNat % 2 ^ 64 = (m.w 3).toNat := by omega
      rw [hzero, Nat.mul_zero, Nat.add_zero, sext, hsmall, if_pos (by omega)]
      rfl
    obtain ⟨t, ht, hspec⟩ := hostStep_forward h hsrc hnear hend
    exact ⟨t, by rw [exec_timeAdjust h, hsext, ht], hspec⟩
  case set =>
    intro s c m h hsrc hn hs hlater hnear
    have hend := timeParam_lt 3 hn hs
    generalize hns : ((m.w 4).toNat + 2 ^ 32 * (m.w 5).toNat) * 1000000000 + (m.w 3).toNat = ns at hlater hnear hend ⊢
    have hstep : Int.ofNat ns - Int.ofNat s.devNs = ((ns - s.devNs : Nat) : Int) := by
      rw [Int.ofNat_eq_natCast, Int.ofNat_eq_natCast]; omega
    have hsum : s.devNs + (ns - s.devNs) = ns := by omega
    obtain ⟨t, ht, hans, hdev, hinc, -, hothers, hframe⟩ := hostStep_forward (k := ns - s.devNs) h hsrc (by omega) (by omega)
    exact ⟨t, by rw [exec_timeSet h hn hs, hns, hstep, ht], hans, hdev.trans hsum, hinc, hothers, hframe⟩
  case reset =>
    intro s c m h hidle hparam
    obtain ⟨hmode, hn, hs, hlo, hhi⟩ := hparam
    obtain ⟨hans, hreset, hpulses, hothers, hframe⟩ := clockRestarted_done_spec h true fun t =>
      t.loaded (((m.w 5).toNat + 2 ^ 32 * (m.w 6).toNat) * 1000000000 + (m.w 4).toNat) (incParam m 7)
    exact ⟨_, exec_clockReset_sets h hmode hn hs hlo hhi hidle, hans, devNs_clockRestarted_loaded _ _ (timeParam_lt 4 hn hs), rfl, clockRestarted_loaded_state .., hreset,
      hpulses, hothers, hframe⟩
  case restart =>
    intro s c m h hidle hmode
    obtain ⟨hans, hreset, hpulses, hothers, hframe⟩ := clockRestarted_done_spec h false TimeS.forced
    exact ⟨_, exec_clockReset_keeps h hmode hidle, hans, rfl, rfl, rfl, hreset, hpulses, hothers, hframe⟩
  case ptp =>
    intro s c m roles j p h hp
    obtain ⟨hroles, hjump, hwidth⟩ := ptpParams_spec hp
    obtain ⟨hans, hothers⟩ := State.done_of_began (u := (s.began c).mapTime fun t => (t.configured m roles j p).withSource (fld (m.w 3) 1 0))
      OK 0 [] [] h.isSome rfl
    obtain ⟨hsource, hr, hj, hw, hsec, hnano⟩ := TimeS.withSource_settings (s.time.configured m roles j p) (fld (m.w 3) 1 0)
    refine ⟨_, exec_ptpConfig h hp, hans, hsource, hr.trans hroles, hj.trans hjump, hw.trans hwidth, State.devNs_congr hsec hnano,
      fun hnone => ?_, TimeS.withSource_some _, hothers, rfl⟩
    obtain ⟨hstate, hinc⟩ := TimeS.withSource_none (s.time.configured m roles j p)
    rw [← hnone] at hstate hinc
    exact ⟨hstate, hinc⟩

end Sys2Proof.Machine

/-! ## Ticks, PPS and the pulses of the Reel -/

namespace Sys2Proof.Machine

/-! ### Ticks -/

/-- The time with one more tick counted (R107). -/
def TimeS.counted (t : TimeS) : TimeS := { t with ticks := t.ticks + 1 }

/-- The age of the module after a tick: time of operation is counted while the main side is on and not in MAIN_OFF. -/
def State.agedByTick (s : State) : AgeS :=
  if s.mainOn ∧ s.life.powerState ≠ 3 then { s.age with opTicks := s.age.opTicks + 1, sinceDaily := s.age.sinceDaily + 1 } else s.age

theorem State.agedByTick_eq (s : State) :
    (if s.mainOn ∧ s.life.powerState ≠ 3 then s.mapAge fun a => { a with opTicks := a.opTicks + 1, sinceDaily := a.sinceDaily + 1 } else s) =
      { s with age := s.agedByTick } := by
  unfold State.agedByTick
  split_ifs <;> rfl

section Tick

variable {s : State} (hvaux : s.life.vaux = true)

include hvaux

/-- While the timebase clock runs, a tick counts and device time advances (R107). -/
theorem exec_timebaseTick_runs (hon : s.mainOn = true) (hheld : s.time.held = false) :
    exec .timebaseTick s = .next { s with time := s.time.counted.advance, age := s.agedByTick } := by
  change execTimebaseTick s = _
  rw [execTimebaseTick, onTrigger_fires s _ hvaux]
  dsimp only
  rw [State.agedByTick_eq]
  exact congrArg _ (if_pos ⟨hon, hheld⟩)

/-- While its source is lost, a tick counts and device time holds (R137). -/
theorem exec_timebaseTick_holds (hheld : s.time.held = true) :
    exec .timebaseTick s = .next { s with time := { s.time.counted with ppsDue := false, imu0Due := false }, age := s.agedByTick } := by
  have hstops : ¬ (s.mainOn = true ∧ s.time.held = false) := by simp [hheld]
  change execTimebaseTick s = _
  rw [execTimebaseTick, onTrigger_fires s _ hvaux]
  dsimp only
  rw [State.agedByTick_eq]
  exact congrArg _ (if_neg hstops)

end Tick

/-- INCREMENT is added to the accumulator with its fraction, with a carry from NANOSECONDS into SECONDS (R107). -/
theorem TimeS.advance_spec {t : TimeS} (hn : t.nanos.toNat < 1000000000) (hi : t.inc.toNat < 0x0300000000) (hs : t.seconds.toNat + 1 < 2 ^ 48) :
    (t.advance.seconds.toNat * 1000000000 + t.advance.nanos.toNat) * 2 ^ 32 + t.advance.frac.toNat =
        (t.seconds.toNat * 1000000000 + t.nanos.toNat) * 2 ^ 32 + t.frac.toNat + t.inc.toNat ∧
      t.advance.nanos.toNat < 1000000000 := by
  have hfrac := t.frac.isLt
  have hsec : (t.seconds + 1).toNat = t.seconds.toNat + 1 := by
    rw [BitVec.toNat_add]; exact Nat.mod_eq_of_lt hs
  by_cases hcarry : 1000000000 * 2 ^ 32 ≤ t.acc + t.inc.toNat <;>
    simp only [TimeS.advance, hcarry, decide_true, decide_false, if_true, Bool.false_eq_true, if_false, w32, BitVec.toNat_ofNat, hsec] <;>
    unfold TimeS.acc at hcarry ⊢ <;> omega

/-! ### PPS -/

/-- PPS_OUT rises on a whole second later than the last one marked (R113, R972). -/
theorem exec_ppsOutRise {s : State} (hdue : s.time.ppsDue = true) (hlow : s.time.ppsHigh = false)
    (hlater : ∀ m, s.time.ppsMarked = some m → m < s.time.seconds.toNat) : exec .ppsOutRise s =
      .next (s.mapTime fun x => { x with ppsHigh := true, ppsRise := x.ticks, ppsMarked := some x.seconds.toNat, ppsDue := false }) := by
  change execPpsOutRise s = _
  refine onTrigger_fires s _ ?_
  rw [hdue, hlow]
  cases hmark : s.time.ppsMarked with
  | none => rfl
  | some m => exact decide_eq_true (hlater m hmark)

/-- PPS_OUT falls after PPS_WIDTH (R113). -/
theorem exec_ppsOutFall {s : State} (hhigh : s.time.ppsHigh = true) (hwidth : usTicks s.time.ppsWidthUs ≤ s.since s.time.ppsRise) :
    exec .ppsOutFall s = .next (s.mapTime fun x => { x with ppsHigh := false }) := by
  change execPpsOutFall s = _
  refine onTrigger_fires s _ ?_
  rw [hhigh]
  exact decide_eq_true hwidth

/-! ### Pulses of the Reel -/

/-- The number after a pulse is a later one, whatever numbers are passed over (R149). -/
theorem ReelEntry.lt_after (e : ReelEntry) (n : Nat) : n < e.after n := by
  have hrises (l : List (Nat × Nat)) : ∀ k, k ≤ l.foldl (fun k g => if g.1 ≤ k ∧ k ≤ g.2 then g.2 + 1 else k) k := by
    induction l with
    | nil => exact fun k => le_rfl
    | cons g l ih =>
      intro k
      refine le_trans ?_ (ih _)
      dsimp only
      split_ifs with hgap
      · exact Nat.le_succ_of_le hgap.2
      · exact le_rfl
  exact hrises _ (n + 1)

/-- An entry once its next pulse has risen at a tick and a device time (R143, R974). -/
def ReelEntry.risen (e : ReelEntry) (tick ns : Nat) : ReelEntry :=
  { e with pulses := e.pulses ++ [(e.target.toNat, tick + e.width.toNat / 2)], lastRise := some tick, prevInstant := e.lastInstant,
           lastInstant := ns, lastNumber := e.nextPulse, fired := e.fired + 1, nextPulse := e.after e.nextPulse }

/-- The next pulse of an armed entry that no session follows rises (R142, R143, R974). -/
theorem exec_reelPulseRise {s : State} {n : Nat} {e : ReelEntry} (he : s.reelAt n = e) (hn : n < 64) (hon : s.mainOn = true)
    (hheld : s.time.held = false) (harmed : e.state = 2) (hleft : e.count = 0 ∨ e.nextPulse < e.count.toNat)
    (hdue : e.instant e.nextPulse ≤ s.devNs) (hgap : ∀ k, e.lastRise = some k → e.period.toNat / 2 ≤ s.time.ticks - k)
    (hmaster : bit e.control 0 = false) : exec (.reelPulseRise n) s = .next (s.updReel n fun e => e.risen s.time.ticks s.devNs) := by
  have hmore : e.doneAt e.nextPulse = false := by
    rw [ReelEntry.doneAt, decide_eq_false_iff_not]
    rintro ⟨hcount, hdone⟩
    exact hleft.elim hcount fun hlt => Nat.not_le.2 hlt hdone
  have hrest : e.lastRise.all (fun t => decide (e.period.toNat / 2 ≤ s.since t)) = true := by
    cases hrise : e.lastRise with
    | none => rfl
    | some k => exact decide_eq_true (hgap k hrise)
  change execReelPulseRise n s = _
  rw [execReelPulseRise, he, onTrigger_fires]
  · rw [hmaster, if_neg Bool.false_ne_true]
    subst he
    rfl
  · simp [hn, hon, hheld, harmed, hmore, hdue, hrest]

/-- The pulses whose WIDTH is over fall (R143, R148). -/
theorem exec_reelPulseFall {s : State} {n : Nat} (hover : ∃ p ∈ (s.reelAt n).pulses, p.2 ≤ s.time.ticks) : exec (.reelPulseFall n) s =
    .next (s.updReel n fun e => { e with pulses := e.pulses.filter fun p => decide (s.time.ticks < p.2) }) := by
  change execReelPulseFall n s = _
  exact onTrigger_fires s _ (by simpa using hover)

/-- Settles O8: the tick that advances and the tick that holds, PPS_OUT's two edges, and a pulse's two edges. -/
theorem ticksPpsAndReelPulses : Obligations.TicksPpsAndReelPulses := by
  refine ⟨?runs, ?holds, ?ppsRise, ?ppsFall, ?rise, ?fall⟩
  case runs =>
    intro s hvaux hon hheld hn hi hs
    obtain ⟨hsum, hnanos⟩ := TimeS.advance_spec (t := s.time.counted) hn hi hs
    exact ⟨_, exec_timebaseTick_runs hvaux hon hheld, rfl, hsum, hnanos, rfl, rfl, rfl, rfl⟩
  case holds =>
    intro s hvaux hheld _
    exact ⟨_, exec_timebaseTick_holds hvaux hheld, rfl, rfl, rfl⟩
  case ppsRise => exact fun s hdue hlow hlater => exec_ppsOutRise hdue hlow hlater
  case ppsFall => exact fun s hhigh hwidth => exec_ppsOutFall hhigh hwidth
  case rise =>
    intro s n hn hon hheld harmed hleft hdue hgap hmaster
    have hentry (k : Nat) := s.reelAt_updReel n k fun e => e.risen s.time.ticks s.devNs
    have hself := (hentry n).trans (if_pos rfl)
    refine ⟨_, exec_reelPulseRise rfl hn hon hheld harmed hleft hdue hgap hmaster, congrArg ReelEntry.fired hself, congrArg ReelEntry.lastInstant hself,
      congrArg ReelEntry.pulses hself, ?_, (congrArg ReelEntry.state hself).trans harmed, fun k hk => (hentry k).trans (if_neg hk), rfl⟩
    rw [hself]
    exact ReelEntry.lt_after ..
  case fall => exact fun s n hover => exec_reelPulseFall hover

end Sys2Proof.Machine

/-! ## The servo and the messages of the network -/

namespace Sys2Proof.Machine

/-! ### What an evaluation of the servo leaves -/

/-- What a Sync leaves in the time, beside what the servo makes of it: its tick, its grandmaster, the filtered offset and the stamps. -/
def TimeS.syncSeen (t : TimeS) : Nat × Option (BitVec 64) × Nat × Int × Tab Nat := (t.lastSync, t.gm, t.gmClass, t.filtered, t.ptpStamps)

/-- `t` is `s` but for the time, the Reel, the events and the free values. -/
def TimeFrame (s t : State) : Prop := t = { s with time := t.time, reel := t.reel, events := t.events, tether := t.tether, free := t.free }

theorem TimeFrame.trans {s t u : State} (h : TimeFrame s t) (k : TimeFrame t u) : TimeFrame s u := by
  rw [TimeFrame] at *
  rw [k, h]

/-- `t` is `s` after a correction of device time: what was seen of the last Sync stays. -/
structure Corrected (s t : State) : Prop where
  frame : TimeFrame s t
  seen : t.time.syncSeen = s.time.syncSeen

theorem Corrected.refl (s : State) : Corrected s s := ⟨rfl, rfl⟩

theorem Corrected.trans {s t u : State} (h : Corrected s t) (k : Corrected t u) : Corrected s u where
  frame := h.frame.trans k.frame
  seen := k.seen.trans h.seen

/-- Two ways of a correction. -/
theorem Corrected.ite {p : Prop} [Decidable p] {s t u : State} (h : Corrected s t) (k : Corrected s u) : Corrected s (if p then t else u) := by
  split
  · exact h
  · exact k

theorem Corrected.mapTime (s : State) (f : TimeS → TimeS) (h : (f s.time).syncSeen = s.time.syncSeen) : Corrected s (s.mapTime f) := ⟨rfl, h⟩

theorem Corrected.raise (s : State) (code detail : Nat) : Corrected s (s.raise code detail) := ⟨rfl, rfl⟩

theorem steppedTime_syncSeen (step : Int) (s : State) : (steppedTime step s).syncSeen = s.time.syncSeen := by unfold steppedTime; split <;> rfl

theorem Corrected.stepTime (step : Int) (s : State) : Corrected s (stepTime step s) := by
  obtain ⟨hstate, htime⟩ := stepTime_stepped step s
  exact ⟨by rw [TimeFrame, hstate], by rw [htime, steppedTime_syncSeen]⟩

theorem Corrected.stepCorrect (f : Int) (s : State) : Corrected s (stepCorrect f s) :=
  (Corrected.stepTime (-f) s).trans ⟨rfl, rfl⟩

theorem Corrected.slew (f : Int) (s : State) : Corrected s (slew f s) := ⟨rfl, rfl⟩

theorem Corrected.declareLock (s : State) : Corrected s (declareLock s) := ⟨rfl, rfl⟩

theorem Corrected.enterHoldover (cause : Nat) (s : State) : Corrected s (enterHoldover cause s) := ⟨rfl, rfl⟩

theorem Corrected.correctWithin (f : Int) (s : State) : Corrected s (correctWithin f s) := by
  unfold Machine.correctWithin
  split
  · exact .stepCorrect f s
  · extract_lets s1 n s2
    have h2 : Corrected s s2 := (Corrected.slew f s).trans (.mapTime _ _ rfl)
    exact .ite (h2.trans (.declareLock s2)) h2

/-- The servo with the offset taken and a new estimate formed (R130). -/
def offsetTaken (f : Int) (s : State) : State :=
  { s with
    free := s.free + 1
    time := { s.time with
      filtered := f
      estimate := some (BitVec.ofNat 40 (max incMin (min incMax (Config.servoEstimate s.free).toNat)))
      lockedInc := if s.time.state = .locked then BitVec.ofNat 40 (max incMin (min incMax (Config.servoEstimate s.free).toNat)) else s.time.lockedInc
      uncertainty := Config.openVal 1 (s.free + 1) } }

theorem syncSeen_offsetTaken (f : Int) {s : State} {tick cls : Nat} {gm : Option (BitVec 64)} {x : Int} {stamps : Tab Nat}
    (h : s.time.syncSeen = (tick, gm, cls, x, stamps)) : (offsetTaken f s).time.syncSeen = (tick, gm, cls, f, stamps) := by
  simp only [TimeS.syncSeen, Prod.mk.injEq] at h ⊢
  obtain ⟨htick, hgm, hcls, -, hstamps⟩ := h
  exact ⟨htick, hgm, hcls, rfl, hstamps⟩

/-- An evaluation takes the offset and corrects device time (R130 to R132). -/
theorem servoEvaluate_corrected (f : Int) (s : State) : Corrected (offsetTaken f s) (servoEvaluate f s) := by
  unfold servoEvaluate
  extract_lets est s1 s2 limit first jump s3
  have h3 : Corrected (offsetTaken f s) s3 := by
    unfold s3
    exact .ite (.mapTime (offsetTaken f s) _ rfl) (.refl _)
  refine h3.trans (.ite (.stepCorrect f s3) (.ite ?beyond ?within))
  case beyond =>
    split
    · exact .ite ((Corrected.mapTime s3 _ rfl).trans (.raise ..)) (.refl s3)
    · exact .refl s3
    · exact (Corrected.raise s3 _ _).trans (.enterHoldover 2 _)
  case within =>
    split
    · exact .refl s3
    · exact .ite (.correctWithin f s3) ((Corrected.mapTime s3 _ rfl).trans (.correctWithin f _))
    · exact .correctWithin f s3

/-! ### The declaration of lock -/

/-- In ACQUIRING past the first offset, an offset within JUMP_LIMIT is corrected (R130). -/
theorem servoEvaluate_acquiring {f : Int} {s : State} (hstate : s.time.state = .acquiring) (hfirst : s.time.first = false)
    (hnear : f.natAbs ≤ s.time.jumpLimitUs * 1000) : servoEvaluate f s = correctWithin f (offsetTaken f s) := by
  unfold servoEvaluate
  extract_lets est s1 s2 limit first jump s3
  have htaken : s2 = offsetTaken f s := rfl
  have hno : first = false := hfirst
  have h3 : s3 = offsetTaken f s := by rw [← htaken]; exact if_neg (by simp [hno])
  have hjump : jump = false := by unfold jump; rw [hno]; rfl
  have hwithin : ¬ limit < f.natAbs := Nat.not_lt.2 hnear
  have hkept : (offsetTaken f s).time.state = .acquiring := hstate
  rw [hjump, if_neg Bool.false_ne_true, if_neg hwithin, h3, hkept]

/-- The sixteenth good interval of an acquiring servo declares lock (Table 3-2, R118). -/
theorem correctWithin_locks {f : Int} {s : State} (hstate : s.time.state = .acquiring) (hcount : s.time.goodCount = 15) (hgood : f.natAbs < 50000) :
    correctWithin f s = declareLock ((slew f s).mapTime fun t => { t with goodCount := 16 }) := by
  have hslew : ¬ (100000 < f.natAbs ∧ ¬ (f > 0 ∧ s.anySession = true)) := by omega
  have hsixteen : (if f.natAbs < 50000 then (slew f s).time.goodCount + 1 else 0) = 16 := by
    rw [if_pos hgood]; exact congrArg Nat.succ hcount
  unfold correctWithin
  rw [if_neg hslew]
  dsimp only
  rw [hsixteen]
  exact if_pos ⟨le_rfl, .inl hstate⟩

theorem declareLock_spec (s : State) :
    (declareLock s).time.state = .locked ∧ ∃ e, (declareLock s).events = s.events ++ [e] ∧ e.code = 0x8300 := ⟨rfl, _, rfl, rfl⟩

theorem slew_events (f : Int) (s : State) : (slew f s).events = s.events := rfl

/-- An acquiring servo past its first offset declares lock at its sixteenth good interval, with TIME_LOCKED. -/
theorem servoEvaluate_locks {f : Int} {s : State} (hstate : s.time.state = .acquiring) (hfirst : s.time.first = false)
    (hcount : s.time.goodCount = 15) (hgood : f.natAbs < 50000) (hnear : f.natAbs ≤ s.time.jumpLimitUs * 1000) :
    (servoEvaluate f s).time.state = .locked ∧ ∃ e, (servoEvaluate f s).events = s.events ++ [e] ∧ e.code = 0x8300 := by
  have htaken : (offsetTaken f s).events = s.events := rfl
  rw [servoEvaluate_acquiring hstate hfirst hnear, correctWithin_locks (s := offsetTaken f s) hstate hcount hgood]
  have hlock := declareLock_spec ((slew f (offsetTaken f s)).mapTime fun t => { t with goodCount := 16 })
  rwa [State.mapTime_events, slew_events, htaken] at hlock

/-! ### Messages received -/

/-- An event message gets its stamp, which costs one free value (R120). -/
theorem stampPtp_spec (port : Nat) (k : PtpKind) (sent : Bool) (s : State) :
    Tab.has (stampPtp port k sent s).time.ptpStamps (stampKey port k sent) = true ∧
      stampPtp port k sent s = { s with time := { s.time with ptpStamps := (stampPtp port k sent s).time.ptpStamps }, free := s.free + 1 } := by
  refine ⟨?_, rfl⟩
  rw [Tab.has_eq_true]
  exact ⟨_, (Tab.get?_put ..).trans (if_pos rfl)⟩

theorem stampPtp_time (port : Nat) (k : PtpKind) (sent : Bool) (s : State) : (stampPtp port k sent s).time =
    { s.time with ptpStamps := Tab.put s.time.ptpStamps (stampKey port k sent) (firmwareStamp s).1 } := rfl

theorem stampPtp_events (port : Nat) (k : PtpKind) (sent : Bool) (s : State) : (stampPtp port k sent s).events = s.events := rfl

/-- `t` is `s` once a grandmaster was seen; one that is known already changes nothing else (R131). -/
structure GrandmasterSeen (gm : BitVec 64) (cls : Nat) (s t : State) : Prop where
  frame : TimeFrame s t
  seen : t.time.syncSeen = (s.time.lastSync, some gm, cls, s.time.filtered, s.time.ptpStamps)
  source : t.time.source = s.time.source
  known : s.time.gm = some gm → t = s.mapTime fun t => { t with gm := some gm, gmClass := cls }

theorem seeGrandmaster_seen (gm : BitVec 64) (cls : Nat) (s : State) : GrandmasterSeen gm cls s (seeGrandmaster gm cls s) := by
  unfold seeGrandmaster
  extract_lets changed s1
  split
  case isTrue hchanged =>
    exact ⟨rfl, rfl, rfl, fun hknown => absurd hknown (of_decide_eq_true hchanged).2⟩
  case isFalse hsame =>
    refine ⟨rfl, rfl, rfl, fun _ => ?_⟩
    unfold s1
    rw [Bool.eq_false_of_not_eq_true hsame]
    rfl

section Sync

variable {s : State} {port : Nat} {gm : BitVec 64} {cls : Nat} {offset : Int} {udp : Bool} (halive : ptpAlive port udp s = true)
  (hrole : s.time.roles.getD port 0 = 1)

/-- A Sync with its stamp, at its tick, with its grandmaster: what the servo then evaluates. -/
def syncTaken (port : Nat) (gm : BitVec 64) (cls : Nat) (s : State) : State :=
  seeGrandmaster gm cls ((stampPtp port .sync false s).mapTime fun t => { t with lastSync := t.ticks })

include halive hrole

/-- With PTP as the source the servo takes the offset of a Sync on the SLAVE port (R120, R131). -/
theorem exec_ptpSyncReceived_ptp (hheld : s.time.held = false) (hsrc : s.time.source = 1) :
    exec (.ptpSyncReceived port gm cls offset udp) s = .next (servoEvaluate offset (syncTaken port gm cls s)) := by
  change execPtpSyncReceived port gm cls offset udp s = _
  rw [execPtpSyncReceived, onTrigger_fires s _ (by rw [halive, hrole]; rfl)]
  have hserved : ¬ ((stampPtp port .sync false s).time.held = true ∨
      ¬ ((stampPtp port .sync false s).time.source = 1 ∨ (stampPtp port .sync false s).time.source = 2)) := by
    rintro (hlost | hnone)
    · exact Bool.false_ne_true (hheld.symm.trans hlost)
    · exact hnone (.inl hsrc)
  have hptp : (syncTaken port gm cls s).time.source = 1 := (seeGrandmaster_seen ..).source.trans hsrc
  exact congrArg _ ((if_neg hserved).trans (if_pos hptp))

/-- With another source a Sync is stamped only (R120). -/
theorem exec_ptpSyncReceived_other (hsrc : s.time.source = 0 ∨ s.time.source = 3) :
    exec (.ptpSyncReceived port gm cls offset udp) s = .next (stampPtp port .sync false s) := by
  change execPtpSyncReceived port gm cls offset udp s = _
  rw [execPtpSyncReceived, onTrigger_fires s _ (by rw [halive, hrole]; rfl)]
  have hnone : ¬ ((stampPtp port .sync false s).time.source = 1 ∨ (stampPtp port .sync false s).time.source = 2) := by
    change ¬ (s.time.source = 1 ∨ s.time.source = 2)
    omega
  exact congrArg _ (if_pos (.inr hnone))

end Sync

section SyncEvaluated

variable (port : Nat) (gm : BitVec 64) (cls : Nat) (offset : Int) (s : State)

/-- What a Sync that is evaluated leaves: its tick, its grandmaster, its offset and the stamp. -/
theorem servoEvaluate_syncTaken_spec : let t := servoEvaluate offset (syncTaken port gm cls s)
    t.time.lastSync = s.time.ticks ∧ t.time.gm = some gm ∧ t.time.gmClass = cls ∧ t.time.filtered = offset ∧
      Tab.has t.time.ptpStamps (stampKey port .sync false) = true ∧
      t = { s with time := t.time, reel := t.reel, events := t.events, tether := t.tether, free := t.free } := by
  have hgm := seeGrandmaster_seen gm cls ((stampPtp port .sync false s).mapTime fun t => { t with lastSync := t.ticks })
  obtain ⟨hevaluated, hseen⟩ := servoEvaluate_corrected offset (syncTaken port gm cls s)
  have hafter := hseen.trans (syncSeen_offsetTaken offset hgm.seen)
  simp only [TimeS.syncSeen, Prod.mk.injEq] at hafter
  obtain ⟨htick, hnamed, hclass, hoffset, hstamps⟩ := hafter
  refine ⟨htick, hnamed, hclass, hoffset, ?stamped, ?frame⟩
  case stamped =>
    rw [hstamps]
    exact (stampPtp_spec port .sync false s).1
  case frame =>
    have hstamped : TimeFrame s (stampPtp port .sync false s) := rfl
    have htick : TimeFrame (stampPtp port .sync false s) ((stampPtp port .sync false s).mapTime fun t => { t with lastSync := t.ticks }) := rfl
    have htaken : TimeFrame (syncTaken port gm cls s) (offsetTaken offset (syncTaken port gm cls s)) := rfl
    exact hstamped.trans (htick.trans (hgm.frame.trans (htaken.trans hevaluated)))

/-- The sixteenth good Sync of the grandmaster that is known locks an acquiring servo. -/
theorem servoEvaluate_syncTaken_locks {s : State} (hknown : s.time.gm = some gm) (hacquiring : s.time.state = .acquiring) (hfirst : s.time.first = false)
    (hcount : s.time.goodCount = 15) (hgood : offset.natAbs < 50000) (hnear : offset.natAbs ≤ s.time.jumpLimitUs * 1000) :
    let t := servoEvaluate offset (syncTaken port gm cls s)
    t.time.state = .locked ∧ ∃ e, t.events = s.events ++ [e] ∧ e.code = 0x8300 := by
  have htaken : syncTaken port gm cls s = _ := (seeGrandmaster_seen gm cls _).known hknown
  have htime : (syncTaken port gm cls s).time = _ := (congrArg State.time htaken).trans (State.mapTime_time ..)
  rw [State.mapTime_time, stampPtp_time] at htime
  have hevents : (syncTaken port gm cls s).events = s.events := by
    rw [htaken, State.mapTime_events, State.mapTime_events, stampPtp_events]
  have hlock := servoEvaluate_locks (f := offset) (s := syncTaken port gm cls s) (by rw [htime]; exact hacquiring)
    (by rw [htime]; exact hfirst) (by rw [htime]; exact hcount) hgood (by rw [htime]; exact hnear)
  rwa [hevents] at hlock

end SyncEvaluated

theorem exec_ppsInEdge_noSource {s : State} (hon : s.mainOn = true) (hheld : s.time.held = false) (hsrc : s.time.source < 2) :
    exec .ppsInEdge s = .next (s.mapTime fun x => { x with ppsInStamp := some s.devNs }) := by
  change execPpsInEdge s = _
  rw [execPpsInEdge, onTrigger_fires s _ (by rw [hon, hheld]; rfl)]
  have hnone : ¬ (s.time.source = 2 ∨ s.time.source = 3) := by omega
  exact congrArg _ (if_neg hnone)

theorem exec_syncTimeout {s : State} (hon : s.mainOn = true) (hsrc : s.time.source = 1 ∨ s.time.source = 2)
    (hstate : s.time.state = .acquiring ∨ s.time.state = .locked) (hlong : msTicks 3000 ≤ s.since s.time.lastSync) :
    exec .syncTimeout s = .next (enterHoldover 1 s) := by
  change execSyncTimeout s = _
  exact onTrigger_fires s _ (by rw [hon, decide_eq_true hsrc, decide_eq_true hstate, decide_eq_true hlong]; rfl)

/-! ### Messages sent -/

section MasterPort

variable {s : State} {port : Nat} {udp : Bool} (halive : ptpAlive port udp s = true) (hrole : s.time.roles.getD port 0 = 2)

include halive hrole

/-- A request for a delay that a MASTER port receives gets a stamp, where the profile has it (R115, R120). -/
theorem exec_ptpMessageReceived_delayReq (hprofile : s.time.dot1as = false) :
    exec (.ptpMessageReceived port .delayReq udp) s = .next (stampPtp port .delayReq false s) := by
  change execPtpMessageReceived port .delayReq udp s = _
  exact onTrigger_fires s _ (by rw [halive, hrole, ptpProfileHas, hprofile]; rfl)

/-- A Sync that is sent carries its own stamp (R120). -/
theorem exec_ptpMessageSent_sync : exec (.ptpMessageSent port .sync udp) s =
    .next ((stampPtp port .sync true s).send (.ethernet port 8 ((stampPtp port .sync true s).ptpStamp port .sync true))) := by
  change execPtpMessageSent port .sync udp s = _
  rw [execPtpMessageSent]
  exact onTrigger_fires s _ (by rw [halive, hrole]; rfl)

/-- A Follow_Up carries the stamp of the Sync that was sent before it (R120). -/
theorem exec_ptpMessageSent_followUp (hstamped : Tab.has s.time.ptpStamps (stampKey port .sync true) = true) :
    exec (.ptpMessageSent port .followUp udp) s = .next (s.send (.ethernet port 3 (s.ptpStamp port .sync true))) := by
  change execPtpMessageSent port .followUp udp s = _
  rw [execPtpMessageSent]
  exact onTrigger_fires s _ (by rw [halive, hrole]; simp only [hstamped]; rfl)

/-- An Announce carries the clockClass (R118). -/
theorem exec_ptpMessageSent_announce (cls : Nat) (gm : BitVec 64) :
    exec (.ptpMessageSent port (.announce cls gm) udp) s = .next (s.send (.ethernet port 0 (clockClass s))) := by
  change execPtpMessageSent port (.announce cls gm) udp s = _
  rw [execPtpMessageSent]
  exact onTrigger_fires s _ (by rw [halive, hrole]; rfl)

end MasterPort

/-- A port whose PHY runs answers for its own address (R184, R185). -/
theorem exec_arpIcmpRequest {s : State} {port : Nat} (icmp : Bool) (hon : s.mainOn = true) (hport : port < 4)
    (hphy : s.time.roles.getD port 0 ≠ 0 ∨ ((s.portAt (16 + port)).owner ≠ none ∧ (s.portAt (16 + port)).state ≠ .off))
    (hworks : (s.portAt (16 + port)).state ≠ .fault ∨ (s.portAt (16 + port)).reason ≠ 4) (haddr : (s.portAt (16 + port)).ipv4 ≠ 0) :
    exec (.arpIcmpRequest port icmp (s.portAt (16 + port)).ipv4) s =
      .next (s.send (.ethernet port (if icmp then 7 else 6) (s.portAt (16 + port)).ipv4.toNat)) := by
  have hruns : (s.time.roles.getD port 0 != 0 || ((s.portAt (16 + port)).owner.isSome && (s.portAt (16 + port)).state != .off)) = true := by
    simpa [Option.isSome_iff_ne_none] using hphy
  have hwell : ((s.portAt (16 + port)).state == .fault && (s.portAt (16 + port)).reason == 4) = false := by
    simpa [imp_iff_not_or] using hworks
  change execArpIcmpRequest port icmp _ s = _
  rw [execArpIcmpRequest]
  refine onTrigger_fires s _ ?_
  rw [decide_eq_true hport, hon, hruns, hwell]
  simpa using haddr

/-- Settles O9: PPS_IN, a Sync by its source, the timeout, and the messages that a port receives and sends. -/
theorem ptpServoAndNetworkTime : Obligations.PtpServoAndNetworkTime := by
  refine ⟨?pps, ?ptp, ?other, ?timeout, ?received, ?sent, ?announce, ?arp⟩
  case pps => exact fun s hon hheld hsrc => exec_ppsInEdge_noSource hon hheld hsrc
  case ptp =>
    intro s port gm cls offset udp halive hheld hrole hsrc
    obtain ⟨htick, hgm, hclass, hoffset, hstamped, hframe⟩ := servoEvaluate_syncTaken_spec port gm cls offset s
    exact ⟨_, exec_ptpSyncReceived_ptp halive hrole hheld hsrc, htick, hgm, hclass, hoffset, hstamped,
      servoEvaluate_syncTaken_locks port gm cls offset, hframe⟩
  case other =>
    intro s port gm cls offset udp halive hrole hsrc
    exact ⟨_, exec_ptpSyncReceived_other halive hrole hsrc, stampPtp_spec port .sync false s⟩
  case timeout =>
    intro s hon hsrc hstate hlong
    exact ⟨_, exec_syncTimeout hon hsrc hstate hlong, rfl, ⟨_, rfl, rfl, rfl⟩, fun hlocked => if_pos hlocked,
      fun hnever => if_neg (by simp [hnever]), rfl, rfl⟩
  case received =>
    intro s port udp halive hrole hprofile
    obtain ⟨hhas, hframe⟩ := stampPtp_spec port .delayReq false s
    exact ⟨_, exec_ptpMessageReceived_delayReq halive hrole hprofile, hhas, rfl, hframe⟩
  case sent =>
    intro s port udp halive hrole
    exact ⟨_, exec_ptpMessageSent_sync halive hrole, rfl,
      exec_ptpMessageSent_followUp halive hrole (stampPtp_spec port .sync true s).1, rfl⟩
  case announce => exact fun s port cls gm udp halive hrole => exec_ptpMessageSent_announce halive hrole cls gm
  case arp => exact fun s port icmp hon hport hphy hworks haddr => exec_arpIcmpRequest icmp hon hport hphy hworks haddr

end Sys2Proof.Machine

/-! ## Status reads: fields, masks and blocks -/

namespace Sys2Proof.Machine

/-- A field of a word made of a number. -/
theorem fld_w32 (x : Nat) {hi lo : Nat} (h : hi < 32) : fld (w32 x) hi lo = x / 2 ^ lo % 2 ^ (hi + 1 - lo) := by
  rcases Nat.le_total lo (hi + 1) with hle | hle
  · have hsplit : 2 ^ 32 = 2 ^ lo * 2 ^ (32 - lo) := by rw [← Nat.pow_add]; congr 1; omega
    rw [fld, w32, BitVec.toNat_ofNat, hsplit, Nat.mod_mul_right_div_self]
    exact Nat.mod_mod_of_dvd _ (Nat.pow_dvd_pow 2 (by omega))
  · rw [Nat.sub_eq_zero_of_le hle, fld, Nat.sub_eq_zero_of_le hle, Nat.pow_zero, Nat.mod_one, Nat.mod_one]

theorem bit_w32 (x : Nat) {i : Nat} (h : i < 32) : bit (w32 x) i = x.testBit i := by
  rw [bit, w32, BitVec.getLsbD_ofNat, decide_eq_true h, Bool.true_and]

/-- The bits of a mask are its members. -/
theorem testBit_maskOf (l : List Nat) (i : Nat) : (maskOf l).testBit i = true ↔ i ∈ l := by
  have hfold (l : List Nat) : ∀ a, (l.foldl (fun a i => a ||| 2 ^ i) a).testBit i = true ↔ a.testBit i = true ∨ i ∈ l := by
    induction l with
    | nil => simp
    | cons j l ih =>
      intro a
      rw [List.foldl_cons, ih, Nat.testBit_or, Bool.or_eq_true, Nat.testBit_two_pow, decide_eq_true_eq, List.mem_cons, or_assoc, eq_comm (a := j)]
  rw [maskOf, hfold, Nat.zero_testBit, List.mem_eraseDups]
  simp

section Blocks

variable {α β : Type} {f : α → List β} {k : Nat} (hf : ∀ x, (f x).length = k)

include hf

theorem length_blocks (l : List α) : (l.flatMap f).length = k * l.length := by
  induction l with
  | nil => rfl
  | cons x l ih => rw [List.flatMap_cons, List.length_append, hf, ih, List.length_cons, Nat.mul_succ, Nat.add_comm]

/-- The `i`-th of blocks of equal length. -/
theorem take_drop_blocks {l : List α} {i : Nat} {x : α} (h : l[i]? = some x) : ((l.flatMap f).drop (k * i)).take k = f x := by
  induction l generalizing i with
  | nil => simp at h
  | cons y l ih =>
    cases i with
    | zero =>
      obtain rfl : y = x := by simpa using h
      rw [List.flatMap_cons, Nat.mul_zero, List.drop_zero, List.take_append_of_le_length (hf y).ge, List.take_of_length_le (hf y).le]
    | succ i =>
      have hdrop : k * (i + 1) = (f y).length + k * i := by rw [hf, Nat.mul_succ, Nat.add_comm]
      rw [List.flatMap_cons, hdrop, ← List.drop_drop, List.drop_left]
      exact ih (by simpa using h)

end Blocks

/-! ## Status reads: the commands -/

/-- A status read that answers: its reply, and that nothing but its own command changes. -/
theorem State.runs.answers {s : State} {c : CmdRef} {op : Nat} {m : Cmd} (h : s.runs c op m) (b : List Word) :
    ((s.began c).done c OK 0 b).answered c OK 0 b ∧ otherCmds s ((s.began c).done c OK 0 b) c ∧
      (s.began c).done c OK 0 b = { s with cmds := ((s.began c).done c OK 0 b).cmds } := by
  obtain ⟨hans, hothers⟩ := State.done_of_began (u := s.began c) OK 0 b [] h.isSome rfl
  exact ⟨hans, hothers, rfl⟩

/-- A command that ends with output: what it answers, where the output goes, and what stays (R651, R683). -/
theorem doneOut_answers {s : State} {c : CmdRef} {op : Nat} {m : Cmd} (i : Nat) (b : List Byte) (body : List Word) (h : s.runs c op m)
    (href : m.ref = c) : let t := (s.began c).doneOut m i b body
    t.answered c (if b.length ≤ m.sgTotal i then OK else OK_PARTIAL) 0 body ∧
      (m.sgInline i = true → t.hostMem = s.hostMem ∧ (t.replyOf c).map (·.inlineOut) = some (b.take (m.sgTotal i))) ∧
      (∀ l, m.sgInline i = false → sgExtents m i s = .extents l → t.hostMem = writeExtents s.hostMem l (b.take (m.sgTotal i))) ∧
      otherCmds s t c ∧ t = { s with cmds := t.cmds, hostMem := t.hostMem } := by
  have hfound : (s.began c).findCmd c = some { m with begun := true } := by rw [State.findCmd_began, if_pos rfl, h.1, Option.map_some]
  have hdone : (s.began c).doneOut m i b body =
      (sgOut m i b (s.began c)).1.done c (if b.length ≤ m.sgTotal i then OK else OK_PARTIAL) 0 body (sgOut m i b (s.began c)).2 := by
    rw [State.doneOut, href]
  obtain ⟨hans, hothers, hframe⟩ := doneOut_spec i b body hfound
  refine ⟨hans, fun hin => ?inline, fun l hout hl => ?extents, (otherCmds_began s c).trans hothers, hframe⟩
  case inline =>
    have hsg : sgOut m i b (s.began c) = (s.began c, b.take (m.sgTotal i)) := if_pos hin
    rw [hdone, hsg]
    obtain ⟨r, hr, -, hinline⟩ := State.replyOf_done (if b.length ≤ m.sgTotal i then OK else OK_PARTIAL) 0 body (b.take (m.sgTotal i))
      (s := s.began c) (c := c) (by rw [hfound]; rfl)
    exact ⟨rfl, by rw [hr, Option.map_some, hinline]⟩
  case extents =>
    have hsg : (sgOut m i b (s.began c)).1.hostMem = writeExtents s.hostMem l (b.take (m.sgTotal i)) := by
      rw [sgOut, if_neg (by simp [hout]), sgExtents_began, hl]
      rfl
    rw [hdone]
    exact hsg

/-! ### SESSION_STATUS -/

/-- The session of a number, whatever its context (Table 16-3). -/
def State.sessionNumbered (s : State) (k : Nat) : Option SessionS := (s.sessionCtxs.filterMap s.sessionAt).find? fun x => x.number.toNat == k

/-- The words of SESSION_STATUS; zeros without a session. -/
def sessionWords : Option SessionS → List Word
  | none => [0, 0, 0, 0, 0, 0]
  | some x => [if x.stopping then 2 else 1, w32 x.setsClosed] ++ (List.range 4).map fun k => (x.rings.getD k {}).lastSeq

theorem exec_sessionStatus {s : State} {c : CmdRef} {m : Cmd} (h : s.runs c 0x0103 m) : exec (.sessionStatus c) s =
    .next ((s.began c).done c OK 0 (sessionWords (s.sessionNumbered (fld (m.w 3) 15 0)))) := by
  have hsame : ((s.began c).sessionCtxs.filterMap (s.began c).sessionAt).find? (fun x => x.number.toNat == fld (m.w 3) 15 0) =
    s.sessionNumbered (fld (m.w 3) 15 0) := rfl
  change execSessionStatus c s = _
  rw [execSessionStatus, onCmd_runs _ h, hsame]
  cases s.sessionNumbered (fld (m.w 3) 15 0) <;> rfl

theorem mem_sessions {s : State} {x : SessionS} : x ∈ s.sessionCtxs.filterMap s.sessionAt ↔ ∃ n, n < 8 ∧ s.sessionAt n = some x := by
  simp only [State.sessionCtxs, List.mem_filterMap, List.mem_filter, List.mem_range]
  constructor
  · rintro ⟨n, ⟨hn, -⟩, hx⟩
    exact ⟨n, hn, hx⟩
  · rintro ⟨n, hn, hx⟩
    exact ⟨n, ⟨hn, by rw [hx]; rfl⟩, hx⟩

theorem sessionNumbered_none {s : State} {k : Nat} (h : ∀ n x, n < 8 → s.sessionAt n = some x → x.number.toNat ≠ k) :
    s.sessionNumbered k = none := by
  refine List.find?_eq_none.2 fun x hx => ?_
  obtain ⟨n, hn, hx⟩ := mem_sessions.1 hx
  simpa using h n x hn hx

theorem sessionNumbered_some {s : State} {n k : Nat} {x : SessionS} (hn : n < 8) (hx : s.sessionAt n = some x) (hk : x.number.toNat = k)
    (honly : ∀ j y, j < 8 → s.sessionAt j = some y → y.number = x.number → j = n) : s.sessionNumbered k = some x := by
  cases hfind : s.sessionNumbered k with
  | none => exact absurd (List.find?_eq_none.1 hfind x (mem_sessions.2 ⟨n, hn, hx⟩)) (by simp [hk])
  | some y =>
    obtain ⟨j, hj, hy⟩ := mem_sessions.1 (List.mem_of_find?_eq_some hfind)
    have hnumber : y.number.toNat = k := by simpa using List.find?_some hfind
    obtain rfl := honly j y hj hy (BitVec.eq_of_toNat_eq (hnumber.trans hk.symm))
    exact hy.symm.trans hx

/-! ### PORT_STATUS, REEL_READ and TIME_GET -/

theorem portStateCode_lt (x : PortState) : portStateCode x < 256 := by cases x <;> decide

/-- The first word of PORT_STATUS: state, last fault reason and owner (Table 16-5). -/
def PortS.statusWord (q : PortS) : Word := w32 (portStateCode q.state + 256 * q.reason + 65536 * (q.owner.getD 0xFF))

theorem PortS.statusWord_fields {q : PortS} (h : q.reason < 256) : fld q.statusWord 7 0 = portStateCode q.state ∧
    fld q.statusWord 15 8 = q.reason ∧ fld q.statusWord 23 16 = q.owner.getD 0xFF % 256 := by
  have hcode := portStateCode_lt q.state
  simp only [PortS.statusWord, fld_w32 _ (by decide : 7 < 32), fld_w32 _ (by decide : 15 < 32), fld_w32 _ (by decide : 23 < 32)]
  omega

/-- The second word of PORT_STATUS: the camera's settings, or SWAP and VERIFYING of an encoder. -/
def portSettingsWord (p : Nat) (q : PortS) : Word :=
  if isCamera p then q.camCfg else if isEncoder p then w32 ((if q.swap then 1 else 0) + (if q.verifying then 2 else 0)) else 0

theorem portSettingsWord_encoder {p : Nat} {q : PortS} (hcam : isCamera p = false) (henc : isEncoder p = true) :
    bit (portSettingsWord p q) 0 = q.swap ∧ bit (portSettingsWord p q) 1 = q.verifying ∧ fld (portSettingsWord p q) 31 2 = 0 := by
  rw [portSettingsWord, hcam, if_neg Bool.false_ne_true, if_pos henc]
  cases q.swap <;> cases q.verifying <;> decide

theorem exec_portStatus {s : State} {c : CmdRef} {m : Cmd} (h : s.runs c 0x0203 m) : exec (.portStatus c) s =
    .next (if isPort (fld (m.w 3) 7 0) = false then (s.began c).badWord c 3
      else (s.began c).done c OK 0 [(s.portAt (fld (m.w 3) 7 0)).statusWord, portSettingsWord (fld (m.w 3) 7 0) (s.portAt (fld (m.w 3) 7 0)),
        w32 (s.portAt (fld (m.w 3) 7 0)).errors]) := by
  change execPortStatus c s = _
  rw [execPortStatus, onCmd_runs _ h]
  rfl

/-- The last word of TIME_GET: the source and the SLAVE port. -/
def timeSourceWord (s : State) : Word := w32 (s.time.source + 256 * (match slavePort s with | some p => p | none => Config.openVal 2 0 % 4))

theorem exec_timeGet {s : State} {c : CmdRef} {m : Cmd} (h : s.runs c 0x0300 m) : exec (.timeGet c) s =
    .next ((s.began c).done c OK 0 [s.time.nanos, s.time.seconds.setWidth 32, (s.time.seconds >>> 32).setWidth 32, s.time.inc.setWidth 32,
      (s.time.inc >>> 32).setWidth 32, w32 (timeStateCode s.time.state), wInt (clampInt (-2147483648) 2147483647 s.time.filtered),
      w32 (satU 32 s.time.uncertainty), timeSourceWord s]) := by
  change execTimeGet c s = _
  rw [execTimeGet, onCmd_runs _ h]
  rfl

theorem toInt_wInt_clamp {x : Int} (hlo : -2147483648 ≤ x) (hhi : x ≤ 2147483647) : (wInt (clampInt (-2147483648) 2147483647 x)).toInt = x := by
  rw [clampInt, if_neg (by omega), if_neg (by omega), wInt, BitVec.toInt_ofInt]
  exact Int.bmod_eq_of_le (by omega) (by omega)

theorem toNat_w32_satU {x : Nat} (h : x < 2 ^ 32) : (w32 (satU 32 x)).toNat = x := by
  rw [satU, Nat.min_eq_left (by omega), w32, BitVec.toNat_ofNat, Nat.mod_eq_of_lt h]

/-- The word of REEL_READ with target, control, owner and state (Table 3-3). -/
def ReelEntry.statusWord (e : ReelEntry) : Word := w32 (e.target.toNat + 256 * e.control.toNat + 65536 * (e.owner % 256) + 0x1000000 * e.state)

theorem ReelEntry.statusWord_fields (e : ReelEntry) : fld e.statusWord 7 0 = e.target.toNat ∧ fld e.statusWord 15 8 = e.control.toNat ∧
    (e.owner < 256 → fld e.statusWord 23 16 = e.owner) ∧ (e.state < 4 → fld e.statusWord 25 24 = e.state) := by
  have htarget := e.target.isLt
  have hcontrol := e.control.isLt
  simp only [ReelEntry.statusWord, fld_w32 _ (by decide : 7 < 32), fld_w32 _ (by decide : 15 < 32), fld_w32 _ (by decide : 23 < 32),
    fld_w32 _ (by decide : 25 < 32)]
  omega

theorem exec_reelRead {s : State} {c : CmdRef} {m : Cmd} {e : ReelEntry} (h : s.runs c 0x0309 m) (he : e = s.reelAt (fld (m.w 3) 5 0)) :
    exec (.reelRead c) s = .next ((s.began c).done c OK 0
      [e.start.setWidth 32, (e.start >>> 32).setWidth 32, e.period, e.width, e.count, e.statusWord, e.fired, 0]) := by
  subst he
  change execReelRead c s = _
  rw [execReelRead, onCmd_runs _ h]
  rfl

end Sys2Proof.Machine

namespace Sys2Proof.Machine

/-! ### FILTER_READ, VISION_READ, RIG_READ and CALIB_READ -/

/-- OUTPUT_INDEX of FILTER_READ: the output last made, none before the first. -/
def ChannelS.lastOutput (q : ChannelS) : Word := if q.outputs = 0 then 0xFFFFFFFF else q.outIndex - 1

theorem ChannelS.lastOutput_none {q : ChannelS} (h : q.outputs = 0) : q.lastOutput = 0xFFFFFFFF := if_pos h

theorem ChannelS.lastOutput_some {q : ChannelS} (h : q.outputs ≠ 0) : q.lastOutput + 1 = q.outIndex := by
  rw [lastOutput, if_neg h, BitVec.sub_add_cancel]

theorem exec_filterRead {s : State} {c : CmdRef} {m : Cmd} {q : ChannelS} (h : s.runs c 0x0405 m) (hq : q = s.chanAt (fld (m.w 3) 4 0)) :
    exec (.filterRead c) s = .next ((s.began c).done c OK 0
      [q.cfg, w32 q.peak, w32 q.rms, w32 q.envelope, w32 q.groupDelay, q.lastOutput, w32 q.saturated]) := by
  subst hq
  change execFilterRead c s = _
  rw [execFilterRead, onCmd_runs _ h]
  rfl

section VisionRead

variable {s : State} {c : CmdRef} {m : Cmd}

theorem exec_visionRead_stream {x : StreamS} (h : s.runs c 0x0507 m) (hwhat : fld (m.w 3) 9 8 < 2)
    (hx : Tab.get? s.streams (fld (m.w 3) 4 0) = some x) (hctx : x.ctx = m.ctx) : exec (.visionRead c) s = .next ((s.began c).done c OK 0
      (bytesWords 8 (if fld (m.w 3) 9 8 = 0 then chainBytes (fld (m.w 3) 4 0) x else featBytes (fld (m.w 3) 4 0) x.latestFeat))) := by
  have hfound : Tab.get? (s.began c).streams (fld (m.w 3) 4 0) = some x := hx
  change execVisionRead c s = _
  rw [execVisionRead, onCmd_runs _ h, if_neg (by omega), if_neg (by omega), withStream, hfound]
  exact congrArg _ (if_pos hctx)

theorem exec_visionRead_noStream (h : s.runs c 0x0507 m) (href : m.ref = c) (hwhat : fld (m.w 3) 9 8 < 2)
    (hno : ∀ x, Tab.get? s.streams (fld (m.w 3) 4 0) = some x → x.ctx ≠ m.ctx) : exec (.visionRead c) s = .next ((s.began c).badWord c 3) := by
  change execVisionRead c s = _
  rw [execVisionRead, onCmd_runs _ h, if_neg (by omega), if_neg (by omega), withStream, href]
  cases hx : Tab.get? (s.began c).streams (fld (m.w 3) 4 0) with
  | none => rfl
  | some x => exact congrArg _ (if_neg (hno x hx))

theorem exec_visionRead_pair {p : PairCfg} (h : s.runs c 0x0507 m) (hwhat : fld (m.w 3) 9 8 = 2)
    (hp : s.pairCfgAt m.ctx (fld (m.w 3) 4 0) = some p) :
    exec (.visionRead c) s = .next ((s.began c).done c OK 0 (bytesWords 8 (stereoBytes p))) := by
  have hfound : (s.began c).pairCfgAt m.ctx (fld (m.w 3) 4 0) = some p := hp
  change execVisionRead c s = _
  rw [execVisionRead, onCmd_runs _ h, if_pos hwhat, hfound]

theorem exec_visionRead_noPair (h : s.runs c 0x0507 m) (hwhat : fld (m.w 3) 9 8 = 2)
    (hp : s.pairCfgAt m.ctx (fld (m.w 3) 4 0) = none) : exec (.visionRead c) s = .next ((s.began c).badWord c 3) := by
  have hnone : (s.began c).pairCfgAt m.ctx (fld (m.w 3) 4 0) = none := hp
  change execVisionRead c s = _
  rw [execVisionRead, onCmd_runs _ h, if_pos hwhat, hnone]

theorem exec_visionRead_reserved (h : s.runs c 0x0507 m) (hwhat : fld (m.w 3) 9 8 = 3) :
    exec (.visionRead c) s = .next ((s.began c).badWord c 3) := by
  change execVisionRead c s = _
  rw [execVisionRead, onCmd_runs _ h, if_neg (by omega), if_pos hwhat]

end VisionRead

section StoreReads

variable {s : State} {c : CmdRef} {m : Cmd}

theorem exec_rigRead {e : SensorEntry} (h : s.runs c 0x0601 m) (he : s.entryInUse m.ctx (fld (m.w 3) 7 0) (fld (m.w 3) 15 8) = some e) :
    exec (.rigRead c) s = .next ((s.began c).done c OK 0 (bytesWords 16 e.bytes)) := by
  have hfound : (s.began c).entryInUse m.ctx (fld (m.w 3) 7 0) (fld (m.w 3) 15 8) = some e := he
  change execRigRead c s = _
  rw [execRigRead, onCmd_runs _ h, hfound]

theorem exec_rigRead_none (h : s.runs c 0x0601 m) (he : s.entryInUse m.ctx (fld (m.w 3) 7 0) (fld (m.w 3) 15 8) = none) :
    exec (.rigRead c) s = .next ((s.began c).badWord c 3) := by
  have hnone : (s.began c).entryInUse m.ctx (fld (m.w 3) 7 0) (fld (m.w 3) 15 8) = none := he
  change execRigRead c s = _
  rw [execRigRead, onCmd_runs _ h, hnone]

theorem exec_calibRead {r : CalibRec} (h : s.runs c 0x0603 m)
    (hr : s.storeRec (sensorKey (fld (m.w 3) 7 0) (fld (m.w 3) 15 8)) = some r) : exec (.calibRead c) s =
    .next ((s.began c).done c OK 0 (bytesWords 16 r.bytes ++ [r.time.setWidth 32, (r.time >>> 32).setWidth 32])) := by
  have hfound : (s.began c).storeRec (sensorKey (fld (m.w 3) 7 0) (fld (m.w 3) 15 8)) = some r := hr
  change execCalibRead c s = _
  rw [execCalibRead, onCmd_runs _ h, hfound]

theorem exec_calibRead_none (h : s.runs c 0x0603 m) (hr : s.storeRec (sensorKey (fld (m.w 3) 7 0) (fld (m.w 3) 15 8)) = none) :
    exec (.calibRead c) s = .next ((s.began c).badWord c 3) := by
  have hnone : (s.began c).storeRec (sensorKey (fld (m.w 3) 7 0) (fld (m.w 3) 15 8)) = none := hr
  change execCalibRead c s = _
  rw [execCalibRead, onCmd_runs _ h, hnone]

end StoreReads

/-! ### CONTEXT_STATUS and the DIAG reads -/

theorem exec_contextStatus {s : State} {c : CmdRef} {m : Cmd} (h : s.runs c 0x0902 m) : exec (.contextStatus c) s =
    .next ((s.began c).done c OK 0 [w32 (maskOf (s.ctxAt m.ctx).bands), w32 (maskOf ((s.ctxAt m.ctx).bands.filter fun b => (s.bandAt b).halted)),
      w32 (maskOf ((s.ctxAt m.ctx).bands.filter fun b => (s.bandAt b).waiting.isSome))]) := by
  change execContextStatus c s = _
  rw [execContextStatus, onCmd_runs _ h]
  rfl

theorem bit_w32_maskOf (l : List Nat) {b : Nat} (h : b < 32) : bit (w32 (maskOf l)) b = true ↔ b ∈ l := by
  rw [bit_w32 _ h, testBit_maskOf]

theorem bit_w32_maskOf_filter (l : List Nat) (p : Nat → Bool) {b : Nat} (h : b < 32) :
    bit (w32 (maskOf (l.filter p))) b = true ↔ b ∈ l ∧ p b = true := by
  rw [bit_w32_maskOf _ h, List.mem_filter]

/-- Status and lanes of a tile (DIAG_TILE_STATUS). -/
def tileBlock (s : State) (n : Nat) : List Word := [tileStatus s n, laneStatus s n]

/-- Status and lanes of `n` tiles from `f`. -/
def tileWords (s : State) (f n : Nat) : List Word := (List.range n).flatMap fun i => tileBlock s (f + i)

theorem length_tileWords (s : State) (f n : Nat) : (tileWords s f n).length = 2 * n := by
  have hlength (i : Nat) : (tileBlock s (f + i)).length = 2 := rfl
  rw [tileWords, length_blocks hlength, List.length_range]

theorem getElem?_tileWords (s : State) (f : Nat) {n i : Nat} (h : i < n) :
    (tileWords s f n)[2 * i]? = some (tileStatus s (f + i)) ∧ (tileWords s f n)[2 * i + 1]? = some (laneStatus s (f + i)) := by
  have hlength (i : Nat) : (tileBlock s (f + i)).length = 2 := rfl
  have hblock : ((tileWords s f n).drop (2 * i)).take 2 = tileBlock s (f + i) := take_drop_blocks hlength (List.getElem?_range h)
  have hword {j : Nat} (hj : j < 2) : (tileWords s f n)[2 * i + j]? = (tileBlock s (f + i))[j]? := by
    rw [← hblock, List.getElem?_take_of_lt hj, List.getElem?_drop]
  exact ⟨hword Nat.zero_lt_two, hword Nat.one_lt_two⟩

theorem exec_diagTileStatus {s : State} {c : CmdRef} {m : Cmd} {f n : Nat} (h : s.runs c 0x0E00 m) (hf : f = fld (m.w 3) 5 0)
    (hn : n = fld (m.w 3) 13 8) : exec (.diagTileStatus c) s =
    .next (if 55 < f ∨ n = 0 ∨ 56 < n ∨ 56 < f + n then (s.began c).refuse c BAD_PARAM 0x0103
      else (s.began c).done c OK 0 (tileWords s f n)) := by
  subst hf hn
  change execDiagTileStatus c s = _
  rw [execDiagTileStatus, onCmd_runs _ h]
  rfl

theorem length_bandStatus (s : State) (n : Nat) : (bandStatus s n).length = 4 := by
  simp only [bandStatus]
  split <;> rfl

theorem exec_diagBandStatus {s : State} {c : CmdRef} {m : Cmd} {b : Nat} (h : s.runs c 0x0E01 m) (hb : b = fld (m.w 3) 7 0) :
    exec (.diagBandStatus c) s = .next (if b = 0xFF then (s.began c).done c OK 0 ((List.range 16).flatMap (bandStatus s))
      else if b < 16 then (s.began c).done c OK 0 (bandStatus s b) else (s.began c).badWord c 3) := by
  subst hb
  change execDiagBandStatus c s = _
  rw [execDiagBandStatus, onCmd_runs _ h]
  rfl

theorem exec_diagCounters {s : State} {c : CmdRef} {m : Cmd} (h : s.runs c 0x0E02 m) : exec (.diagCounters c) s =
    .next ((s.began c).done c OK 0
      [w32 s.dep.corrected, w32 s.dep.uncorrectable, w32 s.dep.retries, w32 s.dep.retiredLanes, w32 s.dep.retiredHbm]) := by
  change execDiagCounters c s = _
  rw [execDiagCounters, onCmd_runs _ h]
  rfl

/-! ### OBJ_QUERY, ENERGY_STATUS, HEALTH_STATUS and FW_STATUS -/

theorem exec_objQuery {s : State} {c : CmdRef} {m : Cmd} {k : Nat} {o : ObjS} (h : s.runs c 0x0A0F m) (href : m.ref = c)
    (ho : s.objOf (m.w 3) = some (k, o)) : exec (.objQuery c) s =
    .next (if o.usable m.ctx = false then (s.began c).refuseOpen c NOT_OWNER else (s.began c).done c OK 0
      [s.objState k o (fld (m.w 4) 1 0), o.id, w32 o.granules, w32 (o.kind + o.home * 256 + o.class_ * 65536), 0]) := by
  have hfound : (s.began c).objOf (m.w 3) = some (k, o) := ho
  change execObjQuery c s = _
  rw [execObjQuery, onCmd_runs _ h, withObj, hfound, href]
  refine congrArg Host.Outcome.next ?_
  by_cases huse : o.usable m.ctx = false
  · exact (if_pos (.inl huse)).trans (if_pos huse).symm
  · have hfree : ¬ (o.usable m.ctx = false ∨ false = true ∧ o.owner ≠ m.ctx) := by simpa using huse
    have hlost : ¬ (o.unavailable = true ∧ true = false) := by simp
    exact (if_neg hfree).trans ((if_neg hlost).trans (if_neg huse).symm)

theorem exec_energyStatus {s : State} {c : CmdRef} {m : Cmd} (h : s.runs c 0x0B06 m) : exec (.energyStatus c) s =
    .next ((s.began c).done c OK 0 [w32 s.power.modulePower, w32 s.power.cap, w32 s.ballastMw, w32 s.accountFields.1, w32 s.accountFields.2,
      w32 (s.accountFields.2 / 2 ^ 32)]) := by
  change execEnergyStatus c s = _
  rw [execEnergyStatus, onCmd_runs _ h]
  rfl

theorem accountFields_none {s : State} (h : s.power.account = none) : s.accountFields.1 = 0xFFFFFFFF := by
  rw [State.accountFields, h]

/-- The account in joules, as far as a word holds it. -/
theorem accountFields_some {s : State} {a x : Nat} (h : s.power.account = some (a, x)) (ha : a < 2 ^ 32 * 1000000) :
    (w32 s.accountFields.1).toNat = a / 1000000 := by
  have hfields : s.accountFields.1 = min 0xFFFFFFFF (a / 1000000) := by rw [State.accountFields, h]
  rw [hfields, w32, BitVec.toNat_ofNat]
  omega

theorem exec_healthStatus {s : State} {c : CmdRef} {m : Cmd} (h : s.runs c 0x0C02 m) :
    exec (.healthStatus c) s = .next ((s.began c).done c OK 0 (bytesWords 20 (healthBody s m.ctx 0 0))) := by
  change execHealthStatus c s = _
  rw [execHealthStatus, onCmd_runs _ h]
  rfl

theorem exec_fwStatus {s : State} {c : CmdRef} {m : Cmd} (h : s.runs c 0x0D01 m) : exec (.fwStatus c) s = .next ((s.began c).done c OK 0
    [s.sec.runVersion, if s.sec.stagedOk then imageVersion s.sec.staged else 0, w32 s.sec.stage]) := by
  change execFwStatus c s = _
  rw [execFwStatus, onCmd_runs _ h]
  rfl

/-! ### AGEING_READ, IDENTITY_READ and EVENT_READ -/

theorem exec_ageingRead {s : State} {c : CmdRef} {m : Cmd} (h : s.runs c 0x0C04 m) : exec (.ageingRead c) s =
    .next ((s.began c).doneOut m 3 (ageingBytes s) [w32 (min (ageingBytes s).length (m.sgTotal 3))]) := by
  change execAgeingRead c s = _
  rw [execAgeingRead, onCmd_runs _ h]
  rfl

theorem exec_identityRead {s : State} {c : CmdRef} {m : Cmd} {n : Nat} (h : s.runs c 0x0D00 m) (hn : n = fld (m.w 3) 3 0) :
    exec (.identityRead c) s = .next (if 2 < n then (s.began c).badWord c 3
      else (s.began c).doneOut m 4 (certDer n) [w32 (certDer n).length]) := by
  subst hn
  change execIdentityRead c s = _
  rw [execIdentityRead, onCmd_runs _ h]

/-- The first word of EVENT_READ with `n` events asked for: returned, left and dropped (Table 16-13). -/
def eventHead (s : State) (n : Nat) : Word :=
  w32 ((s.tether.queue.take n).length + 256 * (s.tether.queue.drop n).length + 65536 * min 0xFFFF s.tether.dropped)

theorem eventHead_fields {s : State} {n : Nat} (hpos : 0 < n) (hn : n ≤ 16) (hqueue : s.tether.queue.length ≤ 256) :
    fld (eventHead s n) 7 0 = min n s.tether.queue.length ∧ fld (eventHead s n) 15 8 = s.tether.queue.length - n ∧
      fld (eventHead s n) 31 16 = min 0xFFFF s.tether.dropped := by
  have hreturned : min n s.tether.queue.length < 256 := by omega
  have hleft : s.tether.queue.length - n < 256 := by omega
  have hdropped : min 0xFFFF s.tether.dropped < 65536 := by omega
  simp only [eventHead, List.length_take, List.length_drop, fld_w32 _ (by decide : 7 < 32), fld_w32 _ (by decide : 15 < 32),
    fld_w32 _ (by decide : 31 < 32)]
  generalize min n s.tether.queue.length = x, s.tether.queue.length - n = y, min 0xFFFF s.tether.dropped = z at *
  omega

/-- EVENT_READ's answer: the oldest events, taken from the queue with the count of dropped ones. -/
def eventsTaken (s : State) (c : CmdRef) (n : Nat) : State :=
  ((s.began c).mapTether fun t => { t with queue := s.tether.queue.drop n, dropped := 0 }).done c OK 0
    (eventHead s n :: (s.tether.queue.take n).flatMap eventWords)

theorem exec_eventRead_taken {s : State} {c : CmdRef} {m : Cmd} {n : Nat} (h : s.runs c 0x0C05 m)
    (hn : withDefault (fld (m.w 3) 4 0) 1 16 16 = some n) : exec (.eventRead c) s = .next (eventsTaken s c n) := by
  change execEventRead c s = _
  rw [execEventRead, onCmd_runs _ h, hn]
  rfl

theorem exec_eventRead_bad {s : State} {c : CmdRef} {m : Cmd} (h : s.runs c 0x0C05 m)
    (hn : withDefault (fld (m.w 3) 4 0) 1 16 16 = none) : exec (.eventRead c) s = .next ((s.began c).badWord c 3) := by
  change execEventRead c s = _
  rw [execEventRead, onCmd_runs _ h, hn]

/-- COUNT of EVENT_READ: 16 for 0, none above 16. -/
theorem eventCount (x : Nat) : withDefault x 1 16 16 = if 16 < (if x = 0 then 16 else x) then none else some (if x = 0 then 16 else x) := by
  by_cases hzero : x = 0
  · rw [hzero]
    rfl
  · rw [if_neg hzero, withDefault, if_neg hzero]
    by_cases hbig : 16 < x
    · rw [if_pos hbig, if_neg (by omega)]
    · rw [if_neg hbig, if_pos (by omega)]

theorem eventsTaken_spec {s : State} {c : CmdRef} (n : Nat) (h : (s.findCmd c).isSome) : let t := eventsTaken s c n
    t.answered c OK 0 (eventHead s n :: (s.tether.queue.take n).flatMap eventWords) ∧ otherCmds s t c ∧
      t.tether = { s.tether with queue := s.tether.queue.drop n, dropped := 0 } ∧ t = { s with cmds := t.cmds, tether := t.tether } := by
  obtain ⟨hans, hothers⟩ := State.done_of_began OK 0 (eventHead s n :: (s.tether.queue.take n).flatMap eventWords) [] h
    (u := (s.began c).mapTether fun t => { t with queue := s.tether.queue.drop n, dropped := 0 }) rfl
  exact ⟨hans, hothers, rfl, rfl⟩

theorem length_eventWords (e : Event) : (eventWords e).length = 4 := rfl

/-- The words of the `i`-th event returned. -/
theorem eventBlock {s : State} {n i : Nat} {e : Event} (hi : i < n) (he : s.tether.queue[i]? = some e) :
    ((eventHead s n :: (s.tether.queue.take n).flatMap eventWords).drop (1 + 4 * i)).take 4 = eventWords e := by
  rw [Nat.add_comm, List.drop_succ_cons]
  exact take_drop_blocks length_eventWords (by rw [List.getElem?_take_of_lt hi, he])

theorem eventWord_fields (e : Event) : fld (w32 (e.code.toNat * 65536 + e.detail.toNat)) 31 16 = e.code.toNat ∧
    fld (w32 (e.code.toNat * 65536 + e.detail.toNat)) 15 0 = e.detail.toNat := by
  have hcode := e.code.isLt
  have hdetail := e.detail.isLt
  simp only [fld_w32 _ (by decide : 31 < 32), fld_w32 _ (by decide : 15 < 32)]
  omega

end Sys2Proof.Machine

/-! ## O57: the status reads -/

namespace Sys2Proof.Machine

/-- Settles O57: each read is its command's equation, and answering changes nothing but the command. -/
theorem statusReadsAnswerAndChangeNothing : Obligations.StatusReadsAnswerAndChangeNothing := by
  unfold Obligations.StatusReadsAnswerAndChangeNothing
  refine ⟨fun s c m h => ?session, fun s c m p h hp => ⟨fun hport => ?noPort, fun hport => ?port⟩, fun s c m h => ?time, fun s c m e h he => ?reel,
    fun s c m q h hq => ?filter, fun s c m what n h href hwhat hn => ⟨fun x hlt hx hctx => ?stream, fun p htwo hp => ?pair, fun hbad => ?noView⟩,
    fun s c m h => ⟨fun e he => ?rig, fun he => ?noRig⟩, fun s c m h => ⟨fun r hr => ?calib, fun hr => ?noCalib⟩, fun s c m h _ => ?context,
    fun s c m f n h hf hn => ⟨fun hbad => ?noTile, fun hpos hle => ?tile⟩,
    fun s c m b h hb => ⟨fun hle hall => ?noBand, fun hlt => ?band, fun hall => ?bands⟩, fun s c m h => ?counters,
    fun s c m k o h href ho => ⟨fun huse => ?notOwner, fun huse => ?object⟩, fun s c m h => ?energy, fun s c m h => ?health, fun s c m h => ?firmware,
    fun s c m h href => ?ageing, fun s c m n h href hn => ⟨fun hbig => ?noIdentity, fun hle => ?identity⟩,
    fun s c m n h hn => ⟨fun hbig => ?noEvents, fun hle hqueue => ?events⟩⟩
  case session =>
    obtain ⟨hans, hothers, hframe⟩ := h.answers (sessionWords (s.sessionNumbered (fld (m.w 3) 15 0)))
    refine ⟨_, _, exec_sessionStatus h, hans, ?length, hothers, hframe, fun hnone => ?none, fun n x hn hx hk honly => ?some⟩
    case length => cases s.sessionNumbered (fld (m.w 3) 15 0) <;> rfl
    case none => rw [sessionNumbered_none hnone]; rfl
    case some =>
      rw [sessionNumbered_some hn hx hk honly]
      refine ⟨rfl, fun k hk => ?_⟩
      interval_cases k <;> rfl
  case noPort => rw [exec_portStatus h, ← hp, if_pos hport]
  case port =>
    have hexec := exec_portStatus h
    rw [← hp, if_neg (by simp [hport])] at hexec
    obtain ⟨hans, hothers, hframe⟩ := h.answers [(s.portAt p).statusWord, portSettingsWord p (s.portAt p), w32 (s.portAt p).errors]
    exact ⟨_, _, _, hexec, hans, fun hcam => if_pos hcam, fun hcam henc => by simp [portSettingsWord, hcam, henc], portSettingsWord_encoder,
      PortS.statusWord_fields, hothers, hframe⟩
  case time =>
    obtain ⟨hans, hothers, hframe⟩ := h.answers _
    exact ⟨_, _, _, _, exec_timeGet h, hans, toInt_wInt_clamp, toNat_w32_satU, hothers, hframe⟩
  case reel =>
    obtain ⟨hans, hothers, hframe⟩ := h.answers _
    obtain ⟨htarget, hcontrol, howner, hstate⟩ := e.statusWord_fields
    exact ⟨_, _, exec_reelRead h he, hans, htarget, hcontrol, howner, hstate, hothers, hframe⟩
  case filter =>
    obtain ⟨hans, hothers, hframe⟩ := h.answers _
    exact ⟨_, _, exec_filterRead h hq, hans, ChannelS.lastOutput_none, ChannelS.lastOutput_some, hothers, hframe⟩
  case stream =>
    subst hwhat hn
    exact ⟨_, exec_visionRead_stream h hlt hx hctx, h.answers _⟩
  case pair =>
    subst hwhat hn
    exact ⟨_, exec_visionRead_pair h htwo hp, h.answers _⟩
  case noView =>
    subst hwhat hn
    obtain ⟨hlt, hno⟩ | ⟨htwo, hno⟩ | hthree := hbad
    · exact exec_visionRead_noStream h href hlt hno
    · exact exec_visionRead_noPair h htwo hno
    · exact exec_visionRead_reserved h hthree
  case rig => exact ⟨_, exec_rigRead h he, h.answers _⟩
  case noRig => exact exec_rigRead_none h he
  case calib => exact ⟨_, exec_calibRead h hr, h.answers _⟩
  case noCalib => exact exec_calibRead_none h hr
  case context =>
    obtain ⟨hans, hothers, hframe⟩ := h.answers _
    refine ⟨_, _, _, _, exec_contextStatus h, hans, hothers, hframe, fun b hb _ => ?_⟩
    have hword : b < 32 := by omega
    refine ⟨bit_w32_maskOf _ hword, bit_w32_maskOf_filter _ _ hword, (bit_w32_maskOf_filter _ _ hword).trans ?_⟩
    rw [Option.isSome_iff_ne_none]
  case noTile => rw [exec_diagTileStatus h hf hn, if_pos hbad]
  case tile =>
    have hgood : ¬ (55 < f ∨ n = 0 ∨ 56 < n ∨ 56 < f + n) := by omega
    obtain ⟨hans, hothers, hframe⟩ := h.answers (tileWords s f n)
    exact ⟨_, _, by rw [exec_diagTileStatus h hf hn, if_neg hgood], hans, length_tileWords s f n, fun i hi => getElem?_tileWords s f hi, hothers, hframe⟩
  case noBand => rw [exec_diagBandStatus h hb, if_neg hall, if_neg (by omega)]
  case band => exact ⟨_, by rw [exec_diagBandStatus h hb, if_neg (by omega), if_pos hlt], h.answers _⟩
  case bands =>
    obtain ⟨hans, hothers, hframe⟩ := h.answers ((List.range 16).flatMap (bandStatus s))
    exact ⟨_, _, by rw [exec_diagBandStatus h hb, if_pos hall], hans, length_blocks (length_bandStatus s) _, hothers, hframe,
      fun k hk => take_drop_blocks (length_bandStatus s) (List.getElem?_range hk)⟩
  case counters => exact ⟨_, exec_diagCounters h, h.answers _⟩
  case notOwner => rw [exec_objQuery h href ho, if_pos huse]
  case object => exact ⟨_, (exec_objQuery h href ho).trans (congrArg _ (if_neg (by simp [huse]))), h.answers _⟩
  case energy =>
    obtain ⟨hans, hothers, hframe⟩ := h.answers _
    exact ⟨_, _, _, _, exec_energyStatus h, hans, fun hnone => congrArg w32 (accountFields_none hnone), fun _ _ => accountFields_some, hothers, hframe⟩
  case health => exact ⟨_, exec_healthStatus h, h.answers _⟩
  case firmware => exact ⟨_, exec_fwStatus h, h.answers _⟩
  case ageing => exact ⟨_, exec_ageingRead h, doneOut_answers 3 _ _ h href⟩
  case noIdentity => rw [exec_identityRead h hn, if_pos hbig]
  case identity => exact ⟨_, (exec_identityRead h hn).trans (congrArg _ (if_neg (by omega))), doneOut_answers 4 _ _ h href⟩
  case noEvents => exact exec_eventRead_bad h (by rw [eventCount, ← hn, if_pos hbig])
  case events =>
    have hpos : 0 < n := by split_ifs at hn <;> omega
    obtain ⟨hans, hothers, htether, hframe⟩ := eventsTaken_spec n h.isSome
    refine ⟨_, _, exec_eventRead_taken h (by rw [eventCount, ← hn, if_neg (by omega)]), hans, ?length, fun w hw => ?head, fun i e hi he => ?event,
      htether, hothers, hframe⟩
    case length => rw [List.length_cons, length_blocks length_eventWords, List.length_take, Nat.add_comm]
    case head =>
      obtain rfl : eventHead s n = w := by simpa using hw
      exact eventHead_fields hpos hle hqueue
    case event =>
      obtain ⟨hcode, hdetail⟩ := eventWord_fields e
      exact ⟨_, _, _, eventBlock hi he, hcode, hdetail, fun k hk => by rw [hk]; rfl⟩

end Sys2Proof.Machine

/-! ## Sensor ports through the states of Table 4-2 -/

namespace Sys2Proof.Machine

/-! ### What an update or an event leaves of the ports -/

@[simp] theorem State.portAt_updPort_self (s : State) (p : Nat) (f : PortS → PortS) : (s.updPort p f).portAt p = f (s.portAt p) :=
  (s.portAt_updPort p p f).trans (if_pos rfl)

theorem State.portAt_updPort_other (s : State) {p k : Nat} (f : PortS → PortS) (h : k ≠ p) : (s.updPort p f).portAt k = s.portAt k :=
  (s.portAt_updPort p k f).trans (if_neg h)

/-- A port's event goes to the list of events alone. -/
theorem raisePort_event (p code detail : Nat) (s : State) :
    ∃ e, e.code = BitVec.ofNat 16 code ∧ raisePort p code detail s = s.raiseEvent e := by
  unfold raisePort
  split
  · exact ⟨_, rfl, rfl⟩
  · exact ⟨_, rfl, rfl⟩

@[simp] theorem raisePort_portAt (p code detail k : Nat) (s : State) : (raisePort p code detail s).portAt k = s.portAt k := by
  obtain ⟨e, -, h⟩ := raisePort_event p code detail s
  rw [h]
  rfl

@[simp] theorem raisePort_time (p code detail : Nat) (s : State) : (raisePort p code detail s).time = s.time := by
  obtain ⟨e, -, h⟩ := raisePort_event p code detail s
  rw [h]
  rfl

/-! ### FAULT -/

/-- A port that enters FAULT. -/
def PortS.inFault (q : PortS) (reason now : Nat) : PortS :=
  { q with state := .fault, reason := reason, since := now, faulted := true, retries := 0, standstill := false, failedBursts := 0, lastStamp := none }

/-- `t` is `s` with port `p` entered into FAULT, which PORT_STATE reports (R162). -/
structure FaultEntered (p reason : Nat) (s t : State) : Prop where
  port : t.portAt p = (s.portAt p).inFault reason s.time.ticks
  event : ∃ e, t.events = s.events ++ [e] ∧ e.code = 0x8200
  others : ∀ k, k ≠ p → t.portAt k = s.portAt k ∧ Tab.get? t.lidars k = Tab.get? s.lidars k
  frame : t = { s with ports := t.ports, filters := t.filters, lidars := t.lidars, events := t.events, tether := t.tether }

/-- What an entry to FAULT changes before PORT_STATE is raised: the port, the channels that it feeds (R213), and its open sweep (R161). -/
def withFault (p reason : Nat) (s : State) : State :=
  { s.updPort p fun q => q.inFault reason s.time.ticks with
    filters := Tab.mapVals s.filters fun _ c => if c.source.toNat = p then { c with filling := true, inputs := 0, phase := 0, due := none } else c
    lidars := Tab.mapVals s.lidars fun k l => if k = p then { l with points := [], firstTick := none } else l }

theorem withFault_portAt (p reason k : Nat) (s : State) :
    (withFault p reason s).portAt k = if k = p then (s.portAt p).inFault reason s.time.ticks else s.portAt k :=
  s.portAt_updPort p k fun q => q.inFault reason s.time.ticks

theorem withFault_lidars {p k : Nat} (reason : Nat) (s : State) (h : k ≠ p) : Tab.get? (withFault p reason s).lidars k = Tab.get? s.lidars k := by
  simp [withFault, Tab.get?_mapVals, h]

theorem enterFault_eq {p : Nat} (reason : Nat) {s : State} (h : (s.portAt p).state ≠ .fault) :
    enterFault p reason s = raisePort p 0x8200 (p * 256 + 5 * 16 + reason) (withFault p reason s) := if_neg h

theorem enterFault_entered {p : Nat} (reason : Nat) {s : State} (h : (s.portAt p).state ≠ .fault) : FaultEntered p reason s (enterFault p reason s) := by
  obtain ⟨e, hcode, he⟩ := raisePort_event p 0x8200 (p * 256 + 5 * 16 + reason) (withFault p reason s)
  rw [enterFault_eq reason h, he]
  exact ⟨(withFault_portAt p reason p s).trans (if_pos rfl), ⟨e, rfl, hcode⟩,
    fun k hk => ⟨(withFault_portAt p reason k s).trans (if_neg hk), withFault_lidars reason s hk⟩, rfl⟩

/-! ### IDLE and STREAMING -/

/-- A port whose signal fault is over (R947). -/
def PortS.signalCleared (q : PortS) : PortS := if q.faultSignal then { q with faultSignal := false, swapFault := false } else q

/-- A port that is ready: STREAMING when a session binds it, else IDLE. -/
def PortS.ready (q : PortS) (now : Nat) : PortS :=
  if q.bound then
    { q.signalCleared with state := .streaming, since := now, lastData := now, faulted := false, restoreDue := false, discardSpeed := q.signalCleared.faulted }
  else { q.signalCleared with state := .idle, since := now, faulted := false, restoreDue := false }

theorem PortS.ready_state (q : PortS) (now : Nat) : (q.ready now).state = if q.bound then .streaming else .idle := by
  unfold PortS.ready
  split <;> rfl

theorem PortS.ready_camCfg (q : PortS) (now : Nat) : (q.ready now).camCfg = q.camCfg := by
  have h : q.signalCleared.camCfg = q.camCfg := by unfold PortS.signalCleared; split <;> rfl
  unfold PortS.ready
  split <;> exact h

/-- The end of a signal fault is reported where the port becomes ready (R947). -/
def clearSignal (p : Nat) (s : State) : State :=
  if (s.portAt p).faultSignal then
    raisePort p 0x8F02 ((s.portAt p).faultPin * 16 + 5) (s.updPort p fun q => { q with faultSignal := false, swapFault := false })
  else s

theorem clearSignal_time (p : Nat) (s : State) : (clearSignal p s).time = s.time := by
  unfold clearSignal
  split
  · exact raisePort_time ..
  · rfl

theorem clearSignal_portAt (p k : Nat) (s : State) : (clearSignal p s).portAt k = if k = p then (s.portAt p).signalCleared else s.portAt k := by
  unfold clearSignal PortS.signalCleared
  split
  · rw [raisePort_portAt, State.portAt_updPort]
  · split
    case isTrue h => rw [h]
    case isFalse => rfl

/-- The return of a port to STREAMING is reported where it, or its supply, was in FAULT (R162, R941); `q` is the port before. -/
def noteReturn (p : Nat) (q : PortS) (s : State) : State :=
  let s := if q.faulted then raisePort p 0x8200 (p * 256 + 4 * 16) s else s
  if q.restoreDue then raisePort p 0x8F01 (p * 256 + 5) s else s

theorem noteReturn_portAt (p k : Nat) (q : PortS) (s : State) : (noteReturn p q s).portAt k = s.portAt k := by
  unfold noteReturn
  split <;> split <;> simp only [raisePort_portAt]

theorem portReady_eq (p : Nat) (s : State) : portReady p s =
    if (s.portAt p).bound then
      noteReturn p (s.portAt p) ((clearSignal p s).updPort p fun q => { q with
        state := .streaming, since := (clearSignal p s).time.ticks, lastData := (clearSignal p s).time.ticks, faulted := false, restoreDue := false,
        discardSpeed := q.faulted })
    else (clearSignal p s).updPort p fun q => { q with state := .idle, since := (clearSignal p s).time.ticks, faulted := false, restoreDue := false } := rfl

/-- A port becomes ready; no other port changes. -/
theorem portAt_portReady (p k : Nat) (s : State) :
    (portReady p s).portAt k = if k = p then (s.portAt p).ready s.time.ticks else s.portAt k := by
  rw [portReady_eq, clearSignal_time, PortS.ready]
  split
  · rw [noteReturn_portAt, State.portAt_updPort, clearSignal_portAt, if_pos rfl, clearSignal_portAt]
    split <;> rfl
  · rw [State.portAt_updPort, clearSignal_portAt, if_pos rfl, clearSignal_portAt]
    split <;> rfl

/-! ### The rows of Table 4-3 -/

section Rows

variable {s : State} {p : Nat}

theorem exec_sensorDetected (hp : isPort p = true) (hst : (s.portAt p).state = .detecting) (hsig : (s.portAt p).faultSignal = false) :
    exec (.sensorDetected p) s = .next
      (if isCamera p then (s.updPort p fun q => { q with openLoad := false }).updPort p fun q =>
        { q with state := .training, since := s.time.ticks, polBefore := BitVec.ofNat 5 (fld q.camCfg 20 16) }
      else portReady p (s.updPort p fun q => { q with openLoad := false })) := by
  change execSensorDetected p s = _
  rw [execSensorDetected, onTrigger_fires]
  · rfl
  · simp [hp, hst, hsig]

theorem exec_detectTimeout (hp : isPort p = true) (h32 : p ≠ 32) (hst : (s.portAt p).state = .detecting)
    (hlate : detectMsOf s p * 500000 ≤ s.time.ticks - (s.portAt p).since) :
    exec (.detectTimeout p) s = .next (enterFault p (if (s.portAt p).openLoad then 4 else 1) s) :=
  onTrigger_fires s _ (by simp [hp, h32, hst, msTicks, State.since, hlate])

theorem exec_retryPeriod (hp : isPort p = true) (hst : (s.portAt p).state = .fault) (hown : (s.portAt p).owner.isSome = true)
    (hlatch : (s.portAt p).latched = false)
    (hlate : ((s.portAt p).retries + 1) * (s.portAt p).retryMs * 500000 ≤ s.time.ticks - (s.portAt p).since) (hvsens : s.life.vsensOk = true) :
    exec (.retryPeriod p) s = .next (enterDetecting p s) := by
  change execRetryPeriod p s = _
  rw [execRetryPeriod, onTrigger_fires]
  · rw [if_neg (by simp [hlatch])]
  · simp [hp, hst, hown, msTicks, State.since, hlate, hvsens]

theorem exec_trainingTimeout (hcam : isCamera p = true) (hst : (s.portAt p).state = .training) (hbound : (s.portAt p).bound = true)
    (hlate : 4 * portFrameNs s p ≤ 2 * (s.time.ticks - max (s.portAt p).boundAt (s.portAt p).since)) :
    exec (.trainingTimeout p) s = .next (enterFault p 3 s) :=
  onTrigger_fires s _ (by simp [hcam, hst, hbound, State.since, hlate])

theorem exec_portStall {n : Nat} (hst : (s.portAt p).state = .streaming) (hn : stallNs s p = some n)
    (hlate : n ≤ 2 * (s.time.ticks - (s.portAt p).lastData)) : exec (.portStall p) s = .next (enterFault p 2 s) :=
  onTrigger_fires s _ (by simp [hst, hn, State.since, hlate])

end Rows

/-- A port that enters DETECTING has its supply as Table 23-1 has it. -/
theorem enterDetecting_supplyOn (p : Nat) (s : State) : ((enterDetecting p s).portAt p).supplyOn = supplyWanted s p := by
  simp only [enterDetecting, setSupply, supplyWanted, State.portAt_updPort_self]
  rfl

/-! ### TRAINING_DONE -/

/-- A number put together from five bits has those bits. -/
theorem getLsbD_fiveBits (f : Nat → Bool) (c : Bool) :
    let x := BitVec.ofNat 5 (total ((List.range 4).map fun i => if f i then 2 ^ i else 0) + if c then 16 else 0)
    (∀ i, i < 4 → x.getLsbD i = f i) ∧ x.getLsbD 4 = c := by
  have hall : ∀ b0 b1 b2 b3 b4 : Bool,
      let x := BitVec.ofNat 5 (total [if b0 then 1 else 0, if b1 then 2 else 0, if b2 then 4 else 0, if b3 then 8 else 0] + if b4 then 16 else 0)
      x.getLsbD 0 = b0 ∧ x.getLsbD 1 = b1 ∧ x.getLsbD 2 = b2 ∧ x.getLsbD 3 = b3 ∧ x.getLsbD 4 = b4 := by decide
  obtain ⟨h0, h1, h2, h3, h4⟩ := hall (f 0) (f 1) (f 2) (f 3) c
  refine ⟨fun i hi => ?_, h4⟩
  interval_cases i
  · exact h0
  · exact h1
  · exact h2
  · exact h3

theorem dataLanes_le (cfg : Word) : dataLanes cfg ≤ 4 := by
  have hlt : fld cfg 9 8 < 4 := Nat.mod_lt _ (by decide)
  unfold dataLanes
  interval_cases fld cfg 9 8 <;> decide

/-- The polarity found of an enabled data lane, and of the clock lane (R171). -/
theorem polarityFound_spec (cfg : Word) (lp10 sync47 offset : BitVec 4) :
    (∀ i, i < dataLanes cfg → (polarityFound cfg lp10 sync47 offset).getLsbD i = (lp10.getLsbD i || sync47.getLsbD i)) ∧
    ((polarityFound cfg lp10 sync47 offset).getLsbD 4 = true ↔ ∀ i, i < dataLanes cfg → offset.getLsbD i = true) := by
  obtain ⟨hdata, hclock⟩ := getLsbD_fiveBits (fun i => if (List.range (dataLanes cfg)).contains i then bit (lp10 ||| sync47) i else (fld cfg 20 16).testBit i)
    ((List.range (dataLanes cfg)).all fun i => bit offset i)
  refine ⟨fun i hi => ?_, ?_⟩
  · refine (hdata i (hi.trans_le (dataLanes_le cfg))).trans ?_
    simp [hi, bit]
  · rw [polarityFound, hclock]
    simp [bit]

/-- POL_INV of a configuration with a polarity stored (Table 4-4). -/
theorem fld_storedPolarity (cfg : Word) (pol : BitVec 5) : fld ((cfg &&& ~~~ 0x001F0000) ||| w32 (pol.toNat * 65536)) 20 16 = pol.toNat := by
  have hbits : (((cfg &&& ~~~ 0x001F0000) ||| w32 (pol.toNat * 65536)).extractLsb' 16 5) = pol := by
    refine BitVec.eq_of_getLsbD_eq fun i hi => ?_
    have hmask : (~~~ (0x001F0000 : Word)).getLsbD (16 + i) = false := by
      interval_cases i <;> decide
    have hword : (w32 (pol.toNat * 65536)).getLsbD (16 + i) = pol.getLsbD i := by
      have hin : 16 + i < 32 := by omega
      rw [w32, BitVec.getLsbD_ofNat, decide_eq_true hin, Bool.true_and, ← Nat.shiftLeft_eq pol.toNat 16, Nat.testBit_shiftLeft]
      simp [BitVec.getLsbD]
    simp only [BitVec.getLsbD_extractLsb', BitVec.getLsbD_or, BitVec.getLsbD_and, hmask, hword, hi, decide_true, Bool.and_false, Bool.false_or, Bool.true_and]
  rw [fld, ← Nat.shiftRight_eq_div_pow]
  exact congrArg BitVec.toNat hbits

/-- A camera port whose polarity and deskew are found; with POL_AUTO it keeps the polarity (R171, R172). -/
def trained (p : Nat) (pol : BitVec 5) (s : State) : State :=
  if bit (s.portAt p).camCfg 15 then
    let u := s.updPort p fun q => { q with camCfg := (q.camCfg &&& ~~~ 0x001F0000) ||| w32 (pol.toNat * 65536) }
    if pol ≠ (s.portAt p).polBefore then raisePort p 0x8201 (p * 256 + pol.toNat) u else u
  else s

theorem exec_trainingDone {s : State} {p : Nat} (lp10 sync47 offset : BitVec 4) (hcam : isCamera p = true) (hst : (s.portAt p).state = .training) :
    exec (.trainingDone p lp10 sync47 offset) s = .next (portReady p (trained p (polarityFound (s.portAt p).camCfg lp10 sync47 offset) s)) := by
  change execTrainingDone p lp10 sync47 offset s = _
  rw [execTrainingDone, onTrigger_fires]
  · rfl
  · simp [hcam, hst]

theorem portAt_trained (p k : Nat) (pol : BitVec 5) (s : State) : (trained p pol s).portAt k =
    if k = p ∧ bit (s.portAt p).camCfg 15 then { s.portAt p with camCfg := ((s.portAt p).camCfg &&& ~~~ 0x001F0000) ||| w32 (pol.toNat * 65536) } else s.portAt k := by
  unfold trained
  split
  case isTrue hauto =>
    simp only [hauto, and_true, apply_ite (State.portAt · k), raisePort_portAt, State.portAt_updPort, ite_self]
  case isFalse hauto => rw [if_neg fun h => hauto h.2]

theorem PortsBound.trained (p : Nat) (pol : BitVec 5) (s : State) : PortsBound s (trained p pol s) := by
  unfold Machine.trained
  split
  · extract_lets u
    have hu : PortsBound s u := .updPort s p _
    split
    · exact hu.trans (.raisePort ..)
    · exact hu
  · exact .refl s

/-! ### The obligation -/

/-- What the three rows that lead to FAULT leave. -/
theorem FaultEntered.spec {p reason : Nat} {s t : State} (h : FaultEntered p reason s t) :
    (t.portAt p).state = .fault ∧ (t.portAt p).reason = reason ∧ (t.portAt p).bound = (s.portAt p).bound ∧
      (∃ e, t.events = s.events ++ [e] ∧ e.code = 0x8200) ∧ (∀ k, k ≠ p → t.portAt k = s.portAt k ∧ Tab.get? t.lidars k = Tab.get? s.lidars k) ∧
      t = { s with ports := t.ports, filters := t.filters, lidars := t.lidars, events := t.events, tether := t.tether } := by
  refine ⟨?_, ?_, ?_, h.event, h.others, h.frame⟩ <;> rw [h.port] <;> rfl

/-- Settles O11, by the port that each row of Table 4-3 leaves. -/
theorem portsMoveThroughTable4_2 : Obligations.PortsMoveThroughTable4_2 := by
  unfold Obligations.PortsMoveThroughTable4_2
  refine ⟨?camera, ?sensor, ?timeout, ?retry, ?trained, ?noFrame, ?stall⟩
  case camera =>
    intro s p hcam hst hsig
    refine ⟨_, (exec_sensorDetected (isPort_of_isCamera hcam).1 hst hsig).trans (congrArg _ (if_pos hcam)), ?_, ?_, fun k hk => ?_, rfl⟩
    · simp only [State.portAt_updPort_self]
    · simp only [State.portAt_updPort_self]
    · simp only [State.portAt_updPort_other _ _ hk]
  case sensor =>
    intro s p hp hcam hst hsig
    refine ⟨_, (exec_sensorDetected hp hst hsig).trans (congrArg _ (if_neg (by simp [hcam]))), ?_, fun k hk => ?_, PortsBound.portReady p _⟩
    · rw [portAt_portReady, if_pos rfl, PortS.ready_state, State.portAt_updPort_self]
    · rw [portAt_portReady, if_neg hk, State.portAt_updPort_other _ _ hk]
  case timeout =>
    intro s p hp h32 hst hlate
    exact ⟨_, exec_detectTimeout hp h32 hst hlate, (enterFault_entered _ (by simp [hst])).spec⟩
  case retry =>
    intro s p hp hst hown hlatch hlate hvsens
    refine ⟨_, exec_retryPeriod hp hst hown hlatch hlate hvsens, ?_, ?_, enterDetecting_supplyOn p s, fun k hk => ?_, rfl⟩
    · rw [portAt_enterDetecting, if_pos rfl]
    · rw [portAt_enterDetecting, if_pos rfl]
    · rw [portAt_enterDetecting, if_neg hk]
  case trained =>
    rintro s p lp10 sync47 offset pol hcam hst rfl
    obtain ⟨hdata, hclock⟩ := polarityFound_spec (s.portAt p).camCfg lp10 sync47 offset
    refine ⟨hdata, hclock, _, exec_trainingDone lp10 sync47 offset hcam hst, ?_, ?_, fun k hk => ?_, (PortsBound.trained p _ s).trans (.portReady p _)⟩
    · rw [portAt_portReady, if_pos rfl, PortS.ready_state, portAt_trained]
      split <;> rfl
    · rw [portAt_portReady, if_pos rfl, PortS.ready_camCfg, portAt_trained]
      by_cases hauto : bit (s.portAt p).camCfg 15 = true
      · rw [if_pos ⟨rfl, hauto⟩, if_pos hauto, fld_storedPolarity]
      · rw [if_neg fun h => hauto h.2, if_neg hauto]
    · rw [portAt_portReady, if_neg hk, portAt_trained, if_neg fun h => hk h.1]
  case noFrame =>
    intro s p hcam hst hbound hlate
    obtain ⟨hfault, hreason, hkept, hrest⟩ := (enterFault_entered (p := p) 3 (s := s) (by simp [hst])).spec
    exact ⟨_, exec_trainingTimeout hcam hst hbound hlate, hfault, hreason, hkept.trans hbound, hrest⟩
  case stall =>
    intro s p n hst hn hlate
    exact ⟨_, exec_portStall hst hn hlate, (enterFault_entered 2 (by simp [hst])).spec⟩

end Sys2Proof.Machine

/-! ## Encoders: the count and its verification -/

namespace Sys2Proof.Machine

/-! ### What an edge leaves -/

/-- What an edge adds to the count: nothing where the port does not count. -/
def PortS.edgeMove (q : PortS) (lineB level : Bool) : Int :=
  let a := if lineB then q.lineA else level
  let b := if lineB then level else q.lineB
  if !(q.owner.isSome && (q.state == .idle || q.state == .streaming)) then 0
  else if q.swap then quadStep q.lineB q.lineA b a else quadStep q.lineA q.lineB a b

/-- An encoder after an edge of one of its lines. -/
def PortS.edged (q : PortS) (lineB level : Bool) (now : Nat) : PortS :=
  { q with lineA := if lineB then q.lineA else level, lineB := if lineB then level else q.lineB, count := q.count + wInt (q.edgeMove lineB level),
           lastCountChange := if q.edgeMove lineB level = 0 then q.lastCountChange else now,
           standstill := if q.edgeMove lineB level = 0 then q.standstill else false }

/-- An encoder that does not count follows its lines alone. -/
theorem PortS.edged_uncounted {q : PortS} (lineB level : Bool) (now : Nat) (h : q.owner = none ∨ (q.state ≠ .idle ∧ q.state ≠ .streaming)) :
    q.edged lineB level now = { q with lineA := if lineB then q.lineA else level, lineB := if lineB then level else q.lineB } := by
  have hstill : q.edgeMove lineB level = 0 := by
    refine if_pos ?_
    obtain hown | ⟨hidle, hstream⟩ := h
    · simp [hown]
    · simp [hidle, hstream]
  have hcount : q.count + wInt 0 = q.count := BitVec.add_zero _
  rw [PortS.edged, hstill, hcount, if_pos rfl, if_pos rfl]

theorem PortS.edgeMove_counted {q : PortS} (lineB level : Bool) (hown : q.owner.isSome = true) (hst : q.state = .idle ∨ q.state = .streaming) :
    q.edgeMove lineB level =
      if q.swap then quadStep q.lineB q.lineA (if lineB then level else q.lineB) (if lineB then q.lineA else level)
      else quadStep q.lineA q.lineB (if lineB then q.lineA else level) (if lineB then level else q.lineB) :=
  if_neg (by obtain hst | hst := hst <;> simp [hown, hst])

/-! ### What a window of latches leaves -/

/-- The window of R198 begun anew. -/
def newWindow (p : Nat) (s : State) : State := s.updPort p fun q => q.restartVerify s.time.ticks

/-- SWAP toggled and a new window begun (R199). -/
def swapCorrected (p : Nat) (s : State) : State :=
  raisePort p 0x8203 (p * 256 + (if (s.portAt p).swap then 0 else 1)) ((newWindow p s).updPort p fun q => { q with swap := !q.swap })

theorem portAt_newWindow (p k : Nat) (s : State) : (newWindow p s).portAt k = if k = p then (s.portAt p).restartVerify s.time.ticks else s.portAt k :=
  s.portAt_updPort p k fun q => q.restartVerify s.time.ticks

theorem portAt_swapCorrected (p k : Nat) (s : State) : (swapCorrected p s).portAt k =
    if k = p then { (s.portAt p).restartVerify s.time.ticks with swap := !(s.portAt p).swap } else s.portAt k := by
  rw [swapCorrected, raisePort_portAt, State.portAt_updPort, portAt_newWindow, portAt_newWindow, if_pos rfl]
  split <;> rfl

theorem swapCorrected_event (p : Nat) (s : State) : ∃ e, (swapCorrected p s).events = s.events ++ [e] ∧ e.code = 0x8203 ∧
    swapCorrected p s = { s with ports := (swapCorrected p s).ports, events := (swapCorrected p s).events, tether := (swapCorrected p s).tether } := by
  obtain ⟨e, hcode, he⟩ := raisePort_event p 0x8203 (p * 256 + (if (s.portAt p).swap then 0 else 1)) ((newWindow p s).updPort p fun q => { q with swap := !q.swap })
  rw [swapCorrected, he]
  exact ⟨e, rfl, hcode, rfl⟩

/-! ### The rows of an encoder -/

section Encoder

variable {s : State} {p : Nat} (henc : isEncoder p = true)

include henc

theorem exec_quadratureEdge {pulse : Nat} (lineB level : Bool) (hlong : (s.portAt p).glitch * 20 ≤ pulse) :
    exec (.quadratureEdge p lineB level pulse) s = .next (s.updPort p fun q => q.edged lineB level s.time.ticks) := by
  change execQuadratureEdge p lineB level pulse s = _
  rw [execQuadratureEdge, onTrigger_fires]
  · rfl
  · simp [henc, hlong]

theorem exec_encoderStandstill (hst : (s.portAt p).state = .streaming) (hlong : 50000000 ≤ s.time.ticks - (s.portAt p).lastCountChange) :
    exec (.encoderStandstill p) s = .next (s.updPort p fun q => { q with standstill := true }) := by
  change execEncoderStandstill p s = _
  rw [execEncoderStandstill, onTrigger_fires]
  simp [henc, hst, msTicks, State.since, hlong]

theorem exec_encoderVerifyWindow {n agree disagree : Nat} (hst : (s.portAt p).state = .streaming) (hver : (s.portAt p).verifying = true)
    (hlong : 1000000000 ≤ s.time.ticks - (s.portAt p).verifyAt) (hn : (s.portAt p).verifyLatches = n) (hpos : 0 < n) (hsum : agree + disagree ≤ n) :
    exec (.encoderVerifyWindow p agree disagree) s = .next
      (if 95 * n ≤ 100 * agree then (newWindow p s).updPort p fun q => { q with verifying := false }
      else if 95 * n ≤ 100 * disagree then swapCorrected p s
      else newWindow p s) := by
  subst hn
  change execEncoderVerifyWindow p agree disagree s = _
  rw [execEncoderVerifyWindow, onTrigger_fires]
  · rfl
  · simp [henc, hst, hver, msTicks, State.since, hlong, hpos, hsum]

end Encoder

/-- A shorter pulse than the glitch filter's is rejected (R195). -/
theorem exec_quadratureEdge_short {s : State} {p pulse : Nat} (lineB level : Bool) (hshort : pulse < (s.portAt p).glitch * 20) :
    exec (.quadratureEdge p lineB level pulse) s = .next s := by
  change execQuadratureEdge p lineB level pulse s = _
  rw [execQuadratureEdge, onTrigger_idle]
  simp [Nat.not_le.2 hshort]

/-- A window that is not yet complete is not judged (R198). -/
theorem exec_encoderVerifyWindow_short {s : State} {p : Nat} (agree disagree : Nat)
    (h : (s.portAt p).verifying = false ∨ s.time.ticks - (s.portAt p).verifyAt < 1000000000 ∨ (s.portAt p).verifyLatches = 0) :
    exec (.encoderVerifyWindow p agree disagree) s = .next s := by
  change execEncoderVerifyWindow p agree disagree s = _
  rw [execEncoderVerifyWindow, onTrigger_idle]
  obtain hver | hshort | hnone := h
  · simp [hver]
  · simp [msTicks, State.since, Nat.not_le.2 hshort]
  · simp [hnone]

/-- Settles O15, by what an edge and a window make of the encoder's port. -/
theorem encodersCountAndVerify : Obligations.EncodersCountAndVerify := by
  unfold Obligations.EncodersCountAndVerify
  refine ⟨?counted, ?followed, ?standstill, ?window, ?short⟩
  case counted =>
    intro s p pulse lineB level henc hown hst
    refine ⟨fun hlong => ⟨_, exec_quadratureEdge henc lineB level hlong, ?_⟩, exec_quadratureEdge_short lineB level⟩
    rw [State.portAt_updPort_self]
    refine ⟨rfl, rfl, ?_, rfl, fun k hk => s.portAt_updPort_other _ hk, rfl⟩
    exact congrArg (fun d => (s.portAt p).count + wInt d) (PortS.edgeMove_counted lineB level hown hst)
  case followed =>
    intro s p pulse lineB level henc hlong hnot
    refine ⟨_, exec_quadratureEdge henc lineB level hlong, ?_, fun k hk => s.portAt_updPort_other _ hk, rfl⟩
    rw [State.portAt_updPort_self, PortS.edged_uncounted lineB level _ hnot]
  case standstill => exact fun s p henc hst hlong => exec_encoderStandstill henc hst hlong
  case window =>
    intro s p n agree disagree henc hst hver hlong hn hpos hsum
    have hexec := exec_encoderVerifyWindow henc hst hver hlong hn hpos hsum
    refine ⟨fun hagree => ?_, fun hnot hdis => ?_⟩
    · rw [if_pos hagree] at hexec
      refine ⟨_, hexec, ?_, fun k hk => ?_, rfl⟩
      · rw [State.portAt_updPort_self, portAt_newWindow, if_pos rfl]
        rfl
      · rw [State.portAt_updPort_other _ _ hk, portAt_newWindow, if_neg hk]
    · rw [if_neg (by omega), if_pos hdis] at hexec
      obtain ⟨e, hevents, hcode, hframe⟩ := swapCorrected_event p s
      refine ⟨_, e, hexec, ?_⟩
      rw [portAt_swapCorrected, if_pos rfl]
      exact ⟨rfl, hver, rfl, rfl, hevents, hcode, fun k hk => (portAt_swapCorrected p k s).trans (if_neg hk), hframe⟩
  case short => exact fun s p agree disagree h => exec_encoderVerifyWindow_short agree disagree h

end Sys2Proof.Machine

/-! ## Samples on their way: channels, fusion, encoder latches -/

namespace Sys2Proof.Machine

/-! ### A sample delivered to the channels -/

/-- A channel that its source has delivered a sample to; none is a sample that failed to arrive (R213). -/
def ChannelS.fed (c : ChannelS) (stamp : Nat) : Option (Int × Bool) → ChannelS
  | some v => { c with due := some (v.1, v.2, stamp, false), changeNow := false }
  | none => { c with due := some (c.lastInput, false, stamp, true), changeNow := false }

theorem ChannelS.fed_source (c : ChannelS) (stamp : Nat) (v : Option (Int × Bool)) : (c.fed stamp v).source = c.source := by
  cases v <;> rfl

theorem getD_mapVals {α : Type} (t : Tab α) (f : Nat → α → α) (k : Nat) (d : α) (h : f k d = d) : Tab.getD (Tab.mapVals t f) k d = f k (Tab.getD t k d) := by
  rw [Tab.getD, Tab.get?_mapVals, Tab.getD]
  cases Tab.get? t k with
  | none => exact h.symm
  | some x => rfl

/-- A channel of the source that a context holds is fed; any other is as it was. -/
def ChannelS.offered (c : ChannelS) (port stamp : Nat) (value : Nat → Option (Int × Bool)) : ChannelS :=
  if c.source.toNat = port ∧ c.holder.isSome then c.fed stamp (value c.axis) else c

theorem State.deliver_eq (s : State) (port stamp : Nat) (value : Nat → Option (Int × Bool)) :
    s.deliver port stamp value = { s with filters := Tab.mapVals s.filters fun _ c => c.offered port stamp value } := by
  have hfeed : (fun (_ : Nat) (c : ChannelS) => c.offered port stamp value) = fun _ c =>
      if c.source.toNat = port ∧ c.holder.isSome then
        match value c.axis with
        | some v => { c with due := some (v.1, v.2, stamp, false), changeNow := false }
        | none => { c with due := some (c.lastInput, false, stamp, true), changeNow := false }
      else c := by
    funext _ c
    unfold ChannelS.offered
    cases value c.axis <;> rfl
  rw [hfeed]
  rfl

theorem chanAt_deliver (s : State) (port stamp ch : Nat) (value : Nat → Option (Int × Bool)) :
    (s.deliver port stamp value).chanAt ch = (s.chanAt ch).offered port stamp value := by
  have hunheld : ({} : ChannelS).offered port stamp value = {} := if_neg fun h => Bool.false_ne_true h.2
  rw [State.deliver_eq]
  exact getD_mapVals s.filters (fun _ c => c.offered port stamp value) ch {} hunheld

theorem ChannelS.offered_source (c : ChannelS) (port stamp : Nat) (value : Nat → Option (Int × Bool)) : (c.offered port stamp value).source = c.source := by
  unfold ChannelS.offered
  split
  · exact c.fed_source stamp _
  · rfl

theorem ChannelS.offered_other {c : ChannelS} {port : Nat} (stamp : Nat) (value : Nat → Option (Int × Bool)) (h : c.source.toNat ≠ port) :
    c.offered port stamp value = c := if_neg fun hc => h hc.1

/-- A channel without a waiting sample takes nothing. -/
theorem takeInput_none {s : State} {ch : Nat} (h : (s.chanAt ch).due = none) : takeInput ch s = s := by
  rw [takeInput, h]

/-- Where no sample of the source waits, none is taken. -/
theorem takeWaiting_none {s : State} {port : Nat} (h : ∀ ch, (s.chanAt ch).source.toNat = port → (s.chanAt ch).due = none) :
    takeWaiting port s = s := by
  refine forEach_keeps (P := (· = s)) (List.range 32) _ (fun ch _ t ht => ?_) rfl
  subst ht
  split
  case isTrue hsrc => exact takeInput_none (h ch hsrc)
  case isFalse => rfl

/-! ### A sample handed to fusion -/

/-- A sample handed to fusion changes the session at most: it is queued, or dropped and counted (R367, R368). -/
theorem State.handSample_cases (s : State) (n key : Nat) (stamp : Int) (firmware : Bool) (data : SampleData) :
    s.handSample n key stamp firmware data = s ∨ ∃ f, s.handSample n key stamp firmware data = s.updSession n f := by
  unfold State.handSample
  split
  · exact .inl rfl
  · extract_lets valid now
    split_ifs
    · exact .inl rfl
    · exact .inr ⟨_, rfl⟩
    · exact .inr ⟨_, rfl⟩
    · exact .inr ⟨_, rfl⟩

theorem State.handSample_eq (s : State) (n key : Nat) (stamp : Int) (firmware : Bool) (data : SampleData) :
    s.handSample n key stamp firmware data = { s with ctxs := (s.handSample n key stamp firmware data).ctxs } := by
  obtain h | ⟨f, h⟩ := s.handSample_cases n key stamp firmware data <;> rw [h]
  exact State.updSession_eq ..

theorem State.updSession_canSignals (s : State) (n k : Nat) (f : SessionS → SessionS) :
    ((s.updSession n f).ctxAt k).canSignals = (s.ctxAt k).canSignals := by
  unfold State.updSession
  split
  · rw [State.ctxAt_updCtx]
    split
    case isTrue h => rw [h]
    case isFalse => rfl
  · rfl

theorem State.handSample_canSignals (s : State) (n k key : Nat) (stamp : Int) (firmware : Bool) (data : SampleData) :
    ((s.handSample n key stamp firmware data).ctxAt k).canSignals = (s.ctxAt k).canSignals := by
  obtain h | ⟨f, h⟩ := s.handSample_cases n key stamp firmware data <;> rw [h]
  exact State.updSession_canSignals ..

/-! ### What the filter chain leaves of the ports and the time -/

/-- `t` has the ports and the time of `s`. -/
structure PortsKept (s t : State) : Prop where
  ports : t.ports = s.ports
  time : t.time = s.time

namespace PortsKept

theorem refl (s : State) : PortsKept s s := ⟨rfl, rfl⟩

theorem trans {s t u : State} (h : PortsKept s t) (k : PortsKept t u) : PortsKept s u := ⟨k.ports.trans h.ports, k.time.trans h.time⟩

theorem updChan (s : State) (ch : Nat) (f : ChannelS → ChannelS) : PortsKept s (s.updChan ch f) := ⟨rfl, rfl⟩

theorem updSession (s : State) (n : Nat) (f : SessionS → SessionS) : PortsKept s (s.updSession n f) :=
  ⟨State.updSession_ports .., State.updSession_time ..⟩

theorem ite {p : Prop} [Decidable p] {s t u : State} (h : PortsKept s t) (k : PortsKept s u) : PortsKept s (if p then t else u) := by
  split
  · exact h
  · exact k

theorem raiseChan (ch code low : Nat) (s : State) : PortsKept s (raiseChan ch code low s) := by
  unfold Machine.raiseChan
  split
  · exact ⟨rfl, rfl⟩
  · exact .refl s

theorem countSaturation (ch : Nat) (input : Bool) (s : State) : PortsKept s (countSaturation ch input s) :=
  .ite ((updChan s ch _).trans (.raiseChan ch _ _ _)) (.updChan s ch _)

theorem threshold (ch : Nat) (v : Int) (s : State) : PortsKept s (threshold ch v s) :=
  .ite (.refl s) (.ite (.ite (.updChan s ch _) (.updChan s ch _))
    (.ite (.ite ((updChan s ch _).trans (.raiseChan ch _ _ _)) (.updChan s ch _)) (.updChan s ch _)))

theorem handSample (s : State) (n key : Nat) (stamp : Int) (firmware : Bool) (data : SampleData) : PortsKept s (s.handSample n key stamp firmware data) := by
  rw [State.handSample_eq]
  exact ⟨rfl, rfl⟩

theorem channelChanged (ch stamp : Nat) (s : State) : PortsKept s (channelChanged ch stamp s) := by
  unfold Machine.channelChanged
  split
  · exact .refl s
  · extract_lets u v
    have hv : PortsKept s v := ⟨rfl, rfl⟩
    split
    · exact hv.trans (.ite ⟨rfl, rfl⟩ (.refl v))
    · exact hv

theorem beginFade (ch stamp : Nat) (s : State) : PortsKept s (beginFade ch stamp s) := by
  unfold Machine.beginFade
  extract_lets c
  split
  · extract_lets incoming
    clear_value incoming
    split
    · exact .refl s
    · exact .ite ((updChan s ch _).trans (.channelChanged ch stamp _)) (.refl s)
  · exact .refl s

theorem afterOutput (ch stamp : Nat) (valid : Int) (s : State) : PortsKept s (afterOutput ch stamp valid s) := by
  unfold Machine.afterOutput
  extract_lets c
  split
  · exact .ite ((updChan s ch _).trans (.raiseChan ch _ _ _)) (.updChan s ch _)
  · exact (updChan s ch _).trans (.channelChanged ch stamp _)
  · exact .refl s

theorem handOutput (ch : Nat) (o : FilterOut) (prev : Option FilterOut) (s : State) : PortsKept s (handOutput ch o prev s) := by
  unfold Machine.handOutput
  extract_lets c valid imu0 src
  split
  · exact .refl s
  split
  · exact .refl s
  refine .ite (.refl s) ?_
  extract_lets off s1 s2
  have h1 : PortsKept s s1 := by
    unfold s1
    split
    · exact .updSession s _ _
    · exact .refl s
  have h2 : PortsKept s s2 := h1.trans (.ite (.refl s1) (.handSample s1 _ _ _ _ _))
  exact .ite (h2.trans (.updSession s2 _ _)) h2

theorem channelOutput (ch stamp : Nat) (s : State) : PortsKept s (channelOutput ch stamp s) := by
  unfold Machine.channelOutput
  extract_lets s1 c v valid s2 s3 gap primed s4 o prev s5 s6 s7 s8
  have h1 : PortsKept s s1 := .beginFade ch stamp s
  have h2 : PortsKept s s2 := h1.trans (.ite (.countSaturation ch false s1) (.refl s1))
  have h3 : PortsKept s s3 := h2.trans (.updChan s2 ch _)
  have h4 : PortsKept s s4 := h3.trans (.ite ((updChan s3 ch _).trans (.raiseChan ch _ _ _)) (.refl s3))
  have h5 : PortsKept s s5 := h4.trans (.updChan s4 ch _)
  have h6 : PortsKept s s6 := h5.trans (.ite ⟨rfl, rfl⟩ (.refl s5))
  have h7 : PortsKept s s7 := h6.trans (.threshold ch _ s6)
  have h8 : PortsKept s s8 := h7.trans (.handOutput ch o prev s7)
  exact .ite h3 (h8.trans (.afterOutput ch stamp valid s8))

theorem takeInput (ch : Nat) (s : State) : PortsKept s (takeInput ch s) := by
  unfold Machine.takeInput
  extract_lets c forced s1
  split
  · exact .refl s
  extract_lets s2 s3 s4 c4
  have h1 : PortsKept s s1 := .ite ⟨rfl, rfl⟩ (.refl s)
  have h2 : PortsKept s s2 := by
    unfold s2
    split
    · exact h1.trans ((updChan s1 ch _).trans (.channelChanged ch _ _))
    · exact h1
  have h3 : PortsKept s s3 := h2.trans (.ite (.countSaturation ch true s2) (.refl s2))
  have h4 : PortsKept s s4 := h3.trans (.updChan s3 ch _)
  exact .ite (h4.trans (.channelOutput ch _ s4)) (.ite (h4.trans (.afterOutput ch _ _ s4)) h4)

theorem forEach {α : Type} (l : List α) (f : α → State → State) (hf : ∀ x u, PortsKept u (f x u)) (s : State) : PortsKept s (forEach l f s) :=
  forEach_keeps (P := PortsKept s) l f (fun x _ u hu => hu.trans (hf x u)) (refl s)

theorem takeWaiting (port : Nat) (s : State) : PortsKept s (takeWaiting port s) :=
  .forEach _ _ (fun ch u => .ite (.takeInput ch u) (.refl u)) s

theorem deliver (s : State) (port stamp : Nat) (value : Nat → Option (Int × Bool)) : PortsKept s (s.deliver port stamp value) := ⟨rfl, rfl⟩

theorem missedSamples (port stamp : Nat) (s : State) : PortsKept s (missedSamples port stamp s) := by
  unfold Machine.missedSamples
  extract_lets q hz
  split
  · exact .refl s
  · exact .forEach _ _ (fun i u => (takeWaiting port u).trans (.deliver ..)) s

end PortsKept

/-! ### The alignment test -/

/-- `t` has the time and the ports of `s`, but for the error count of one of them. -/
structure PortCounted (port : Nat) (s t : State) : Prop where
  counted : ∃ n, t.portAt port = { s.portAt port with errors := n }
  others : ∀ k, k ≠ port → t.portAt k = s.portAt k
  time : t.time = s.time

theorem PortsKept.portAt {s t : State} (h : PortsKept s t) (k : Nat) : t.portAt k = s.portAt k := by
  rw [State.portAt, h.ports, State.portAt]

theorem PortsKept.counted {s t : State} (h : PortsKept s t) (port : Nat) : PortCounted port s t :=
  ⟨⟨(s.portAt port).errors, h.portAt port⟩, fun k _ => h.portAt k, h.time⟩

theorem PortCounted.trans {port : Nat} {s t u : State} (h : PortCounted port s t) (k : PortCounted port t u) : PortCounted port s u where
  counted := by
    obtain ⟨a, ha⟩ := h.counted
    obtain ⟨b, hb⟩ := k.counted
    exact ⟨b, by rw [hb, ha]⟩
  others i hi := (k.others i hi).trans (h.others i hi)
  time := k.time.trans h.time

theorem PortCounted.errors (port n : Nat) (s : State) : PortCounted port s (s.updPort port fun q => { q with errors := n }) :=
  ⟨⟨n, s.portAt_updPort_self port _⟩, fun _ hk => s.portAt_updPort_other _ hk, rfl⟩

theorem PortCounted.ite {port : Nat} {p : Prop} [Decidable p] {s : State} {x y : State × Bool} (hx : PortCounted port s x.1) (hy : PortCounted port s y.1) :
    PortCounted port s (if p then x else y).1 := by
  split
  · exact hx
  · exact hy

/-- The alignment test counts an error of its port at most (R372 to R374). -/
theorem alignSample_counted (n port index stamp : Nat) (s : State) : PortCounted port s (s.alignSample n port index stamp).1 := by
  unfold State.alignSample
  extract_lets key nom a put d k
  have hput (b : AlignS) : PortsKept s (put s b) := ⟨rfl, rfl⟩
  have hnote (b : AlignS) (f : SessionS → SessionS) (code : Nat) : PortsKept s (((put s b).updSession n f).raiseCtx n code key) :=
    (hput b).trans ((PortsKept.updSession _ n f).trans ⟨rfl, rfl⟩)
  refine .ite ((PortsKept.refl s).counted port) ?_
  split
  · exact (hput _).counted port
  · refine .ite (.errors port _ s) ?_
    refine .ite (.ite ((hput _).counted port) ((hnote _ _ _).counted port)) ?_
    exact .ite (.ite ((hnote _ _ _).counted port) ((hput _).counted port)) ((hput _).counted port)

end Sys2Proof.Machine

/-! ## Inertial samples -/

namespace Sys2Proof.Machine

/-! ### The latch of the encoders -/

/-- `t` is `s` with the counts of the encoders of a list latched and their speeds delivered (R195, R212). -/
structure Latched (l : List Nat) (s t : State) : Prop where
  port : ∀ p ∈ l, (t.portAt p).latchedCount = (s.portAt p).count ∧ (t.portAt p).latchTime = s.devNs
  others : ∀ k, k ∉ l → t.portAt k = s.portAt k
  source : ∀ ch, (t.chanAt ch).source = (s.chanAt ch).source
  channel : ∀ ch, (s.chanAt ch).source.toNat ∉ l → t.chanAt ch = s.chanAt ch
  frame : t = { s with ports := t.ports, filters := t.filters }

theorem Latched.nil (s : State) : Latched [] s s := ⟨fun _ h => absurd h List.not_mem_nil, fun _ _ => rfl, fun _ => rfl, fun _ _ => rfl, rfl⟩

theorem Latched.devNs {l : List Nat} {s t : State} (h : Latched l s t) : t.devNs = s.devNs := by
  rw [h.frame]
  rfl

theorem Latched.cons {p : Nat} {l : List Nat} {s t u : State} (h : Latched [p] s t) (k : Latched l t u) (hp : p ∉ l) : Latched (p :: l) s u where
  port i hi := by
    obtain rfl | hi := List.mem_cons.1 hi
    · rw [k.others i hp]
      exact h.port i (List.mem_singleton_self i)
    · have hne : i ∉ [p] := fun e => hp (List.mem_singleton.1 e ▸ hi)
      rw [(k.port i hi).1, (k.port i hi).2, h.others i hne, h.devNs]
      exact ⟨rfl, rfl⟩
  others i hi := (k.others i fun e => hi (List.mem_cons_of_mem p e)).trans (h.others i fun e => hi (List.mem_singleton.1 e ▸ List.mem_cons_self))
  source ch := (k.source ch).trans (h.source ch)
  channel ch hch := by
    have hsource := h.source ch
    rw [k.channel ch (by rw [hsource]; exact fun e => hch (List.mem_cons_of_mem p e))]
    exact h.channel ch fun e => hch (List.mem_singleton.1 e ▸ List.mem_cons_self)
  frame := by rw [k.frame, h.frame]

/-- An encoder's count is latched, and its speed is delivered unless the port is in FAULT. -/
theorem latchEncoder_latched {p : Nat} {s : State} (h : ∀ ch, (s.chanAt ch).source.toNat = p → (s.chanAt ch).due = none) :
    Latched [p] s (latchEncoder p s) := by
  unfold latchEncoder
  extract_lets q stamp speed u
  have hu : Latched [p] s u := by
    refine ⟨fun i hi => ?_, fun k hk => s.portAt_updPort_other _ fun e => hk (List.mem_singleton.2 e), fun _ => rfl, fun _ _ => rfl, rfl⟩
    obtain rfl := List.mem_singleton.1 hi
    unfold u
    rw [State.portAt_updPort_self]
    split <;> exact ⟨rfl, rfl⟩
  split
  · exact hu
  · rw [takeWaiting_none (s := u) h]
    refine ⟨hu.port, hu.others, fun ch => ?_, fun ch hch => ?_, rfl⟩
    · rw [chanAt_deliver, ChannelS.offered_source]
      rfl
    · rw [chanAt_deliver]
      exact ChannelS.offered_other _ _ fun e => hch (List.mem_singleton.2 e)

theorem forEach_latchEncoder {l : List Nat} (hl : l.Nodup) {s : State} (h : ∀ ch, (s.chanAt ch).source.toNat ∈ l → (s.chanAt ch).due = none) :
    Latched l s (forEach l latchEncoder s) := by
  induction l generalizing s with
  | nil => exact .nil s
  | cons p l ih =>
    obtain ⟨hp, hl⟩ := List.nodup_cons.1 hl
    have hfirst : Latched [p] s (latchEncoder p s) := latchEncoder_latched fun ch hch => h ch (hch ▸ List.mem_cons_self)
    refine hfirst.cons (ih hl fun ch hch => ?_) hp
    rw [hfirst.source ch] at hch
    have hne : (s.chanAt ch).source.toNat ∉ [p] := fun e => hp (List.mem_singleton.1 e ▸ hch)
    rw [hfirst.channel ch hne]
    exact h ch (List.mem_cons_of_mem p hch)

theorem mem_encoderPorts {p : Nat} : p ∈ encoderPorts ↔ isEncoder p = true := by
  simp only [encoderPorts, List.mem_cons, List.not_mem_nil, or_false, isEncoder, Bool.and_eq_true, decide_eq_true_eq]
  omega

/-! ### IMU0_SAMPLE -/

theorem imuEntry_eq (s : State) : imuEntry s = { s with ctxs := (imuEntry s).ctxs } := by
  refine forEach_keeps (P := fun t => t = { s with ctxs := t.ctxs }) s.sessionCtxs _ (fun n _ t ht => ?_) rfl
  dsimp only
  split
  · rw [ht]
    rfl
  · exact ht

theorem imuRecord_congr {s t : State} (hage : t.age = s.age) (htime : t.devNs = s.devNs) (i : Nat) : imuRecord t i = imuRecord s i := by
  unfold imuRecord
  rw [hage, htime]

/-- A sample of IMU0 is corrected and stored (R838). -/
theorem takeImu0_spec (raw : List Word) (s : State) :
    (takeImu0 raw s).imu0 = correctImu (imuRecord s 0x80) (raw.take 3) ++ correctImu (imuRecord s 0x81) (raw.drop 3) ∧
    (∀ k, k ≠ 32 → (takeImu0 raw s).portAt k = s.portAt k) ∧
    takeImu0 raw s = { s with ports := (takeImu0 raw s).ports, filters := (takeImu0 raw s).filters, imu0 := (takeImu0 raw s).imu0 } := by
  unfold takeImu0
  extract_lets gyro accel l u v
  have hu (k : Nat) (hk : k ≠ 32) : u.portAt k = s.portAt k := State.portAt_updPort_other s _ hk
  have hv (k : Nat) (hk : k ≠ 32) : v.portAt k = s.portAt k := hu k hk
  split
  · exact ⟨rfl, hv, rfl⟩
  · exact ⟨rfl, hv, rfl⟩

/-- The state in which the sample of IMU0 is taken: the counts are latched (R196). -/
def imu0Latched (s : State) : State :=
  takeWaiting 32 (forEach encoderPorts latchEncoder (imuEntry (s.mapTime fun t => { t with imu0Due := false })))

theorem exec_imu0Sample {s : State} (raw : List Word) (hdue : s.time.imu0Due = true) (hon : s.mainOn = true) :
    exec (.imu0Sample raw true) s = .next (takeImu0 raw (imu0Latched s)) := by
  change execImu0Sample raw true s = _
  rw [execImu0Sample, onTrigger_fires]
  · exact congrArg _ (if_pos rfl)
  · simp [hdue, hon]

theorem imu0Latched_spec {s : State} (h : ∀ ch, (s.chanAt ch).due = none) :
    (∀ p, isEncoder p = true → ((imu0Latched s).portAt p).latchedCount = (s.portAt p).count ∧ ((imu0Latched s).portAt p).latchTime = s.devNs) ∧
    imu0Latched s = { s with time := { s.time with imu0Due := false }, ports := (imu0Latched s).ports, ctxs := (imu0Latched s).ctxs,
                             filters := (imu0Latched s).filters } := by
  have hentry := imuEntry_eq (s.mapTime fun t => { t with imu0Due := false })
  generalize hu : imuEntry (s.mapTime fun t => { t with imu0Due := false }) = u at hentry
  have hports (k : Nat) : u.portAt k = s.portAt k := by rw [hentry]; rfl
  have hchans (ch : Nat) : u.chanAt ch = s.chanAt ch := by rw [hentry]; rfl
  have htime : u.devNs = s.devNs := by rw [hentry]; rfl
  have hlatched : Latched encoderPorts u (forEach encoderPorts latchEncoder u) :=
    forEach_latchEncoder (by decide) fun ch _ => by rw [hchans]; exact h ch
  have hstill : imu0Latched s = forEach encoderPorts latchEncoder u := by
    rw [imu0Latched, hu]
    refine takeWaiting_none fun ch hch => ?_
    rw [hlatched.source] at hch
    rw [hlatched.channel ch (by rw [hch]; decide), hchans]
    exact h ch
  rw [hstill]
  generalize forEach encoderPorts latchEncoder u = t at hlatched ⊢
  refine ⟨fun p hp => ?_, ?_⟩
  · have hport := hlatched.port p (mem_encoderPorts.2 hp)
    rwa [hports, htime] at hport
  · rw [hlatched.frame, hentry]
    rfl

/-! ### IMU_BURST -/

/-- The sync pulse that caused a sample of an external IMU, by its time (R193). -/
def imuSyncTime (s : State) (port : Nat) : Option Nat := (s.imuSync port).bind fun r => if r.lastRise.isSome then some r.lastInstant else none

/-- The stamp of a sample of an external IMU: its sync pulse's, or the firmware's. -/
def imuStamp (s : State) (port : Nat) : Nat × State :=
  match imuSyncTime s port with
  | some t => (t, s)
  | none => firmwareStamp s

/-- A burst begins: the samples missed before it are replaced, and it is stamped (R213). -/
def burstBegun (port : Nat) (s : State) : State :=
  (missedSamples port (imuStamp s port).1 (imuStamp s port).2).updPort port fun q => { q with lastStamp := some (imuStamp s port).1 }

/-- A good burst restarts the count of failed ones. -/
def burstGood (port : Nat) (s : State) : State :=
  (burstBegun port s).updPort port fun q => { q with lastData := (burstBegun port s).time.ticks, failedBursts := 0 }

/-- The alignment test of a good burst that no sync pulse caused; the second part says that it is discarded. -/
def burstAligned (port : Nat) (s : State) : State × Bool :=
  match imuSyncTime s port, bindingOf (burstGood port s) port with
  | none, some (n, _) => (burstGood port s).alignSample n port 0 (imuStamp s port).1
  | _, _ => (burstGood port s, false)

/-- A failed burst of a port is counted (R194). -/
def countBurst (port : Nat) (s : State) : State :=
  addLoss port 1 (countError port (s.updPort port fun q => { q with failedBursts := q.failedBursts + 1 }))

/-- The state in which a failed burst is reported. -/
def burstFailed (port : Nat) (s : State) : State := countBurst port (burstBegun port s)

/-- A failed burst is reported, once per second. -/
def burstCounted (port : Nat) (s : State) : State :=
  (burstFailed port s).raiseOncePerSecond (lossKey 0x8206 port) (s.portAt port).owner 0x8206 (port * 256 + lossCount (burstFailed port s) port) fun s => s

/-- The previous input replaces a failed sample (R213). -/
def burstReplaced (port : Nat) (s : State) : State :=
  (takeWaiting port (burstCounted port s)).deliver port (imuStamp s port).1 fun _ => none

section Burst

variable {s : State} {port : Nat} {fmt : List Byte} (burst : List Byte) (hfmt : imuFormat s port = some fmt) (himu : isExtImu port = true)
  (hst : (s.portAt port).state = .idle ∨ (s.portAt port).state = .streaming)

include hfmt himu hst

theorem exec_imuBurst_good : exec (.imuBurst port true burst) s = .next
    (if (burstAligned port s).2 then (burstAligned port s).1
    else (takeWaiting port (burstAligned port s).1).deliver port (imuStamp s port).1 fun a => some (burstValue fmt burst a)) := by
  change execImuBurst port true burst s = _
  rw [execImuBurst, hfmt]
  refine (onTrigger_fires s _ ?_).trans (congrArg _ (if_pos rfl))
  obtain hst | hst := hst <;> simp [himu, hst]

theorem exec_imuBurst_failed : exec (.imuBurst port false burst) s = .next
    (if 10 ≤ ((burstReplaced port s).portAt port).failedBursts then enterFault port 3 (burstReplaced port s) else burstReplaced port s) := by
  change execImuBurst port false burst s = _
  rw [execImuBurst, hfmt]
  refine (onTrigger_fires s _ ?_).trans (congrArg _ (if_neg Bool.false_ne_true))
  obtain hst | hst := hst <;> simp [himu, hst]

end Burst

/-! ### What a burst leaves of the ports -/

theorem imuStamp_eq (s : State) (port : Nat) : (imuStamp s port).2 = { s with free := (imuStamp s port).2.free } := by
  unfold imuStamp
  split <;> rfl

theorem imuStamp_kept (s : State) (port : Nat) : PortsKept s (imuStamp s port).2 := by
  rw [imuStamp_eq]
  exact ⟨rfl, rfl⟩

theorem missedSamples_kept (port : Nat) (s : State) : PortsKept s (missedSamples port (imuStamp s port).1 (imuStamp s port).2) :=
  (imuStamp_kept s port).trans (.missedSamples ..)

theorem portAt_burstBegun (port k : Nat) (s : State) :
    (burstBegun port s).portAt k = if k = port then { s.portAt port with lastStamp := some (imuStamp s port).1 } else s.portAt k := by
  rw [burstBegun, State.portAt_updPort, (missedSamples_kept port s).portAt, (missedSamples_kept port s).portAt]

theorem burstBegun_time (port : Nat) (s : State) : (burstBegun port s).time = s.time := (missedSamples_kept port s).time

theorem portAt_burstGood (port k : Nat) (s : State) : (burstGood port s).portAt k =
    if k = port then { s.portAt port with lastStamp := some (imuStamp s port).1, lastData := s.time.ticks, failedBursts := 0 } else s.portAt k := by
  rw [burstGood, State.portAt_updPort, portAt_burstBegun, portAt_burstBegun, burstBegun_time, if_pos rfl]
  split <;> rfl

theorem burstAligned_counted (port : Nat) (s : State) : PortCounted port (burstGood port s) (burstAligned port s).1 := by
  unfold burstAligned
  split
  · exact alignSample_counted ..
  · exact (PortsKept.refl _).counted port

/-- A good burst leaves its port with no failed ones, whether its sample is used or not. -/
theorem burstGood_delivered (port : Nat) (value : Nat → Option (Int × Bool)) (s : State) : PortCounted port (burstGood port s)
    (if (burstAligned port s).2 then (burstAligned port s).1 else (takeWaiting port (burstAligned port s).1).deliver port (imuStamp s port).1 value) := by
  split
  · exact burstAligned_counted port s
  · exact (burstAligned_counted port s).trans (((PortsKept.takeWaiting port _).trans (.deliver ..)).counted port)

/-! ### The first burst of a port that no session binds -/

theorem bindingOf_congr {s t : State} {port : Nat} (hown : (t.portAt port).owner = (s.portAt port).owner) (hctx : t.ctxs = s.ctxs) :
    bindingOf t port = bindingOf s port := by
  have hsession (n : Nat) : t.sessionAt n = s.sessionAt n := by
    rw [State.sessionAt, State.ctxAt, hctx]
    rfl
  unfold bindingOf
  simp only [hown, hsession]

theorem State.raiseOncePerSecond_eq (s : State) (key : Nat) (ctx : Option Nat) (code detail : Nat) :
    s.raiseOncePerSecond key ctx code detail (fun s => s) = { s with
      events := (s.raiseOncePerSecond key ctx code detail (fun s => s)).events, tether := (s.raiseOncePerSecond key ctx code detail (fun s => s)).tether,
      eventLimit := (s.raiseOncePerSecond key ctx code detail (fun s => s)).eventLimit } := by
  unfold State.raiseOncePerSecond
  split
  · cases ctx <;> rfl
  · rfl

theorem countBurst_eq (port : Nat) (s : State) : countBurst port s = { s with ports := (countBurst port s).ports } := rfl

theorem portAt_countBurst_self (port : Nat) (s : State) : ((countBurst port s).portAt port).failedBursts = (s.portAt port).failedBursts + 1 ∧
    ((countBurst port s).portAt port).state = (s.portAt port).state := by
  unfold countBurst addLoss countError
  rw [State.portAt_updPort_self, State.portAt_updPort_self, State.portAt_updPort_self]
  exact ⟨rfl, rfl⟩

theorem portAt_countBurst_other {port k : Nat} (s : State) (hk : k ≠ port) : (countBurst port s).portAt k = s.portAt k := by
  unfold countBurst addLoss countError
  rw [State.portAt_updPort_other _ _ hk, State.portAt_updPort_other _ _ hk, State.portAt_updPort_other _ _ hk]

/-- The report changes the events alone. -/
theorem burstCounted_eq (port : Nat) (s : State) : burstCounted port s = { burstFailed port s with
    events := (burstCounted port s).events, tether := (burstCounted port s).tether, eventLimit := (burstCounted port s).eventLimit } :=
  State.raiseOncePerSecond_eq ..

theorem portAt_burstCounted (port k : Nat) (s : State) : (burstCounted port s).portAt k = (burstFailed port s).portAt k := by
  rw [burstCounted_eq]
  rfl

theorem portAt_burstCounted_self (port : Nat) (s : State) : ((burstCounted port s).portAt port).failedBursts = (s.portAt port).failedBursts + 1 ∧
    ((burstCounted port s).portAt port).state = (s.portAt port).state := by
  obtain ⟨hcount, hstate⟩ := portAt_countBurst_self port (burstBegun port s)
  rw [portAt_burstCounted, burstFailed, hcount, hstate, portAt_burstBegun, if_pos rfl]
  exact ⟨rfl, rfl⟩

theorem portAt_burstCounted_other {port k : Nat} (s : State) (hk : k ≠ port) : (burstCounted port s).portAt k = s.portAt k := by
  rw [portAt_burstCounted, burstFailed, portAt_countBurst_other _ hk, portAt_burstBegun, if_neg hk]

section First

variable {s : State} {port : Nat} (hfirst : (s.portAt port).lastStamp = none)

include hfirst

theorem burstBegun_first : burstBegun port s = { s with ports := (burstBegun port s).ports, free := (burstBegun port s).free } := by
  have hmissed : missedSamples port (imuStamp s port).1 (imuStamp s port).2 = (imuStamp s port).2 := by
    have hstamp : ((imuStamp s port).2.portAt port).lastStamp = none := by rw [(imuStamp_kept s port).portAt, hfirst]
    rw [missedSamples, hstamp]
  rw [burstBegun, hmissed, imuStamp_eq]
  rfl

theorem burstGood_first : burstGood port s = { s with ports := (burstGood port s).ports, free := (burstGood port s).free } := by
  rw [burstGood, burstBegun_first hfirst]
  rfl

theorem burstFailed_first : burstFailed port s = { s with ports := (burstFailed port s).ports, free := (burstFailed port s).free } := by
  rw [burstFailed, countBurst_eq, burstBegun_first hfirst]

theorem burstCounted_first : burstCounted port s = { s with
    ports := (burstCounted port s).ports, events := (burstCounted port s).events, tether := (burstCounted port s).tether,
    eventLimit := (burstCounted port s).eventLimit, free := (burstCounted port s).free } := by
  rw [burstCounted_eq, burstFailed_first hfirst]

variable (hidle : ∀ ch, (s.chanAt ch).source.toNat = port → (s.chanAt ch).due = none)

include hidle

theorem burstReplaced_first : burstReplaced port s = (burstCounted port s).deliver port (imuStamp s port).1 fun _ => none := by
  have hstill : takeWaiting port (burstCounted port s) = burstCounted port s := by
    refine takeWaiting_none fun ch hch => ?_
    rw [burstCounted_first hfirst] at hch ⊢
    exact hidle ch hch
  rw [burstReplaced, hstill]

/-- The sample of a good burst reaches the channels of its port. -/
theorem burstDelivered_first (hbind : bindingOf s port = none) (value : Nat → Option (Int × Bool)) :
    (if (burstAligned port s).2 then (burstAligned port s).1 else (takeWaiting port (burstAligned port s).1).deliver port (imuStamp s port).1 value) =
      (burstGood port s).deliver port (imuStamp s port).1 value := by
  have hnone : bindingOf (burstGood port s) port = none := by
    refine (bindingOf_congr ?_ ?_).trans hbind
    · rw [portAt_burstGood, if_pos rfl]
    · rw [burstGood_first hfirst]
  have hstill : takeWaiting port (burstGood port s) = burstGood port s := by
    refine takeWaiting_none fun ch hch => ?_
    rw [burstGood_first hfirst] at hch ⊢
    exact hidle ch hch
  have haligned : burstAligned port s = (burstGood port s, false) := by
    rw [burstAligned, hnone]
    cases imuSyncTime s port <;> rfl
  rw [haligned, hstill]
  rfl

end First

end Sys2Proof.Machine

/-! ## Lidar packets, CAN frames and formats -/

namespace Sys2Proof.Machine

/-! ### Stamps -/

/-- A firmware stamp lies within 20 µs of device time (R120). -/
theorem firmwareStamp_near (s : State) : (Int.ofNat (firmwareStamp s).1 - Int.ofNat s.devNs).natAbs ≤ 20000 := by
  have hlo : -20000 ≤ clampInt (-20000) 20000 (Config.stampError s.free) := by unfold clampInt; split_ifs <;> omega
  have hhi : clampInt (-20000) 20000 (Config.stampError s.free) ≤ 20000 := by unfold clampInt; split_ifs <;> omega
  change (Int.ofNat (Int.ofNat s.devNs + clampInt (-20000) 20000 (Config.stampError s.free)).toNat - Int.ofNat s.devNs).natAbs ≤ 20000
  generalize clampInt (-20000) 20000 (Config.stampError s.free) = e at hlo hhi ⊢
  simp only [Int.ofNat_eq_natCast]
  omega

/-! ### LIDAR_PACKET -/

theorem portAt_countError (p k : Nat) (s : State) :
    (countError p s).portAt k = if k = p then { s.portAt p with errors := min ((s.portAt p).errors + 1) (2 ^ 32 - 1) } else s.portAt k :=
  s.portAt_updPort p k fun q => { q with errors := satU 32 (q.errors + 1) }

/-- A port with its last arrival at now. -/
def noteData (p : Nat) (s : State) : State := s.updPort p fun q => { q with lastData := s.time.ticks }

theorem portAt_noteData (p k : Nat) (s : State) : (noteData p s).portAt k = if k = p then { s.portAt p with lastData := s.time.ticks } else s.portAt k :=
  s.portAt_updPort p k fun q => { q with lastData := s.time.ticks }

/-- Points joined to the open sweep. -/
def LidarS.joined (l : LidarS) (pts : List LidarPoint) (now : Nat) : LidarS :=
  { l with points := l.points ++ pts, firstTick := if pts = [] then l.firstTick else some (l.firstTick.getD now) }

/-- The points of a packet in PACKET_SYNC mode. -/
def syncPoints (s : State) (n port : Nat) (bd fmt payload : List Byte) : List LidarPoint :=
  packetPoints fmt payload (s.entryOf n (sensorKey port 0)).offset (firmwareStamp s).1 ((syncEntry s n bd).map s.reelAt)

/-- A packet in PACKET_SYNC mode joins the open sweep. -/
def packetJoined (s : State) (n port : Nat) (bd fmt payload : List Byte) : State :=
  let u := (firmwareStamp (noteData port s)).2.updPort port fun q => { q with lastSeq := some (fieldRaw fmt payload 56 0 0) }
  { u with lidars := Tab.upd s.lidars port {} fun l => l.joined (syncPoints s n port bd fmt payload) s.time.ticks }

section LidarPacket

variable {s : State} {port n tags : Nat} {bd fmt payload : List Byte} (hbind : bindingOf s port = some (n, bd)) (heth : isEthernet port = true)
  (hst : (s.portAt port).state = .streaming) (hip : (s.portAt port).ipv4 ≠ 0) (hfits : 46 + 4 * tags + payload.length ≤ 9018)
  (hfmt : (Tab.getD (s.ctxAt n).formats (leAt bd 1 1) {}).bytes = fmt)

include heth hst hip hfits in
theorem lidarPacket_trigger : (isEthernet port && (s.portAt port).state == .streaming && (s.portAt port).ipv4 != 0 &&
    (s.portAt port).lidarSrc == (s.portAt port).lidarSrc && (s.portAt port).udpPort == (s.portAt port).udpPort &&
    decide (frameBytes tags payload ≤ 9018)) = true := by
  have hbytes : frameBytes tags payload ≤ 9018 := by unfold frameBytes; omega
  have haddress : ((s.portAt port).ipv4 != 0) = true := bne_iff_ne.2 hip
  rw [heth, hst, haddress]
  simp [hbytes]

include hbind heth hst hip hfits hfmt

theorem exec_lidarPacket_length (hlen : leAt fmt 0 2 ≠ 0 ∧ payload.length ≠ leAt fmt 0 2) :
    exec (.lidarPacket port (s.portAt port).lidarSrc (s.portAt port).udpPort tags payload) s = .next (countError port (noteData port s)) := by
  subst hfmt
  change execLidarPacket port (s.portAt port).lidarSrc (s.portAt port).udpPort tags payload s = _
  rw [execLidarPacket, hbind]
  exact (onTrigger_fires s _ (lidarPacket_trigger heth hst hip hfits)).trans (congrArg _ (if_pos hlen))

theorem exec_lidarPacket_sync (hlen : leAt fmt 0 2 = 0 ∨ payload.length = leAt fmt 0 2) (hsync : leAt fmt 13 1 = 1) (hseq : leAt fmt 58 1 = 0) :
    exec (.lidarPacket port (s.portAt port).lidarSrc (s.portAt port).udpPort tags payload) s = .next (packetJoined s n port bd fmt payload) := by
  subst hfmt
  have hmatches : ¬ (leAt (Tab.getD (s.ctxAt n).formats (leAt bd 1 1) {}).bytes 0 2 ≠ 0 ∧
      payload.length ≠ leAt (Tab.getD (s.ctxAt n).formats (leAt bd 1 1) {}).bytes 0 2) := by tauto
  change execLidarPacket port (s.portAt port).lidarSrc (s.portAt port).udpPort tags payload s = _
  rw [execLidarPacket, hbind]
  refine (onTrigger_fires s _ (lidarPacket_trigger heth hst hip hfits)).trans (congrArg _ ((if_neg hmatches).trans ?_))
  rw [hsync, hseq]
  rfl

end LidarPacket

theorem packetJoined_points (s : State) (n port k : Nat) (bd fmt payload : List Byte) : Tab.getD (packetJoined s n port bd fmt payload).lidars k {} =
    if k = port then (Tab.getD s.lidars port {}).joined (syncPoints s n port bd fmt payload) s.time.ticks else Tab.getD s.lidars k {} :=
  Tab.getD_upd s.lidars port k {} {} fun l => l.joined (syncPoints s n port bd fmt payload) s.time.ticks

/-! ### LIDAR_SWEEP_TIMEOUT -/

theorem exec_lidarSweepTimeout {s : State} {port k : Nat} (hfirst : (Tab.getD s.lidars port {}).firstTick = some k)
    (hlate : 100000000 ≤ s.time.ticks - k) : exec (.lidarSweepTimeout port) s = .next (closeSweep port s) := by
  change execLidarSweepTimeout port s = _
  rw [execLidarSweepTimeout, onTrigger_fires]
  simp [hfirst, msTicks, State.since, hlate]

/-- The sweep of a port that does not stream contributes nothing (R161). -/
theorem closeSweep_idle {s : State} {port : Nat} (h : (s.portAt port).state ≠ .streaming) : closeSweep port s =
    { s with lidars := Tab.put s.lidars port { latest := (Tab.getD s.lidars port {}).latest, taken := (Tab.getD s.lidars port {}).taken } } := if_pos h

/-- The closed sweep of a STREAMING port becomes its latest, and fusion may take it (R344, R345). -/
theorem closeSweep_streaming {s : State} {port : Nat} (h : (s.portAt port).state = .streaming) : closeSweep port s =
    { s with lidars := Tab.put s.lidars port { latest := (Tab.getD s.lidars port {}).points }, ctxs := (closeSweep port s).ctxs } := by
  unfold closeSweep
  extract_lets l u
  rw [if_neg (not_not.2 h)]
  split
  · rw [State.handSample_eq]
  · rfl

/-! ### FORMAT_WRITE -/

theorem exec_formatWrite {s : State} {c : CmdRef} {m : Cmd} {b : List Byte} (h : s.runs c 0x0206 m) (hkind : fld (m.w 3) 9 8 ≠ 3)
    (hfree : slotInUse s m.ctx (fld (m.w 3) 2 0) = false) (hb : sgIn m 4 s = .bytes b) (hok : formatOk (fld (m.w 3) 9 8) b = true) :
    exec (.formatWrite c) s = .next (((s.began c).updCtx m.ctx fun x =>
      { x with formats := Tab.put x.formats (fld (m.w 3) 2 0) { kind := fld (m.w 3) 9 8, bytes := b } }).done c) := by
  have huse : slotInUse (s.began c) m.ctx (fld (m.w 3) 2 0) = false := hfree
  change execFormatWrite c s = _
  rw [execFormatWrite, onCmd_runs _ h]
  simp only [if_neg hkind, huse, withSg, sgIn_began, hb, hok]
  rfl

/-! ### CAN_SIGNAL_STALE -/

@[simp] theorem State.raiseCtx_ctxAt (s : State) (n code detail k : Nat) : (s.raiseCtx n code detail).ctxAt k = s.ctxAt k := rfl

/-- A context with one CAN signal stored. -/
def CtxS.withSignal (x : CtxS) (k : Nat) (sig : CanSignal) : CtxS := { x with canSignals := Tab.put x.canSignals k sig }

theorem exec_canSignalStale {s : State} {port i n : Nat} {bd e : List Byte} {sig : CanSignal} (hbind : bindingOf s port = some (n, bd))
    (he : (signalEntries s port)[i]? = some e) (hcan : isCan port = true) (hsig : Tab.get? (s.ctxAt n).canSignals (port * 32 + i) = some sig)
    (hfresh : sig.stale = false) (hlate : leAt e 18 2 * 500000 ≤ s.time.ticks - sig.tick) :
    exec (.canSignalStale port i) s =
      .next ((s.updCtx n fun x => x.withSignal (port * 32 + i) { sig with stale := true }).raiseCtx n 0x8205 (port * 256 + i)) := by
  change execCanSignalStale port i s = _
  simp only [execCanSignalStale, hbind, he, hsig]
  rw [onTrigger_fires]
  · rfl
  · simp [hcan, hfresh, msTicks, State.since, hlate]

/-! ### CAN_FRAME -/

theorem owner_of_bindingOf {s : State} {port n : Nat} {bd : List Byte} (h : bindingOf s port = some (n, bd)) : (s.portAt port).owner.isSome = true := by
  unfold bindingOf at h
  split at h
  · exact absurd h (by simp)
  case h_2 hown => rw [hown]; rfl

theorem canAnswer_eq (port : Nat) (ack : Bool) (s : State) : canAnswer port ack s = { s with
    outbox := if (s.portAt port).canAck = true ∧ (s.portAt port).swapFault = false then .can port ack :: s.outbox else s.outbox } := by
  unfold canAnswer
  dsimp only
  split <;> rfl

/-- The signal that a valid value makes (R203). -/
def CanSignal.arrivedAs (e : List Byte) (v stamp tick : Nat) : CanSignal :=
  { raw := v, value := signalValue e v, stamp := stamp, tick := tick, stale := false, arrived := true }

/-- `t` is `s` with values of the signals with keys in `ks` taken. -/
structure SignalsTaken (n port : Nat) (ks : List Nat) (s t : State) : Prop where
  lastData : (t.portAt port).lastData = (s.portAt port).lastData
  others : ∀ k, k ∉ ks → Tab.get? (t.ctxAt n).canSignals k = Tab.get? (s.ctxAt n).canSignals k
  frame : t = { s with ports := t.ports, ctxs := t.ctxs }

theorem SignalsTaken.refl (n port : Nat) (ks : List Nat) (s : State) : SignalsTaken n port ks s s := ⟨rfl, fun _ _ => rfl, rfl⟩

theorem SignalsTaken.trans {n port : Nat} {ks ls : List Nat} {s t u : State} (h : SignalsTaken n port ks s t) (k : SignalsTaken n port ls t u) :
    SignalsTaken n port (ks ++ ls) s u where
  lastData := k.lastData.trans h.lastData
  others i hi := by
    obtain ⟨hks, hls⟩ := not_or.1 fun e => hi (List.mem_append.2 e)
    exact (k.others i hls).trans (h.others i hks)
  frame := by rw [k.frame, h.frame]

/-- A signal's value stored and handed to fusion. -/
def signalStored (n port i stamp : Nat) (e : List Byte) (v : Nat) (s : State) : State :=
  (s.updCtx n fun c => c.withSignal (port * 32 + i) (.arrivedAs e v stamp s.time.ticks)).handSample n
    (sensorKey port i) (Int.ofNat stamp) true (.can (leAt e 16 1) (signalValue e v) (leAt e 7 1 / 2 % 2 == 1))

theorem signalStored_canSignals (n port i stamp : Nat) (e : List Byte) (v : Nat) (s : State) (k : Nat) :
    Tab.get? ((signalStored n port i stamp e v s).ctxAt n).canSignals k =
      if k = port * 32 + i then some (CanSignal.arrivedAs e v stamp s.time.ticks) else Tab.get? (s.ctxAt n).canSignals k := by
  rw [signalStored, State.handSample_canSignals, State.ctxAt_updCtx, if_pos rfl, CtxS.withSignal, Tab.get?_put]

theorem takeSignal_taken (n port i stamp : Nat) (e payload : List Byte) (s : State) :
    SignalsTaken n port [port * 32 + i] s (takeSignal n port i stamp e payload s) := by
  unfold takeSignal
  split
  · refine ⟨?_, fun _ _ => rfl, rfl⟩
    rw [portAt_countError, if_pos rfl]
  · case h_2 v _ =>
    split
    · exact .refl ..
    · change SignalsTaken n port _ s (signalStored n port i stamp e v s)
      refine ⟨?_, fun k hk => ?_, ?_⟩
      · rw [signalStored, State.handSample_eq]
        rfl
      · rw [signalStored_canSignals, if_neg fun h => hk (List.mem_singleton.2 h)]
      · rw [signalStored, State.handSample_eq]
        rfl

/-- A value that lies in the payload and is not marked invalid is stored (R203, R204). -/
theorem takeSignal_stores {e payload : List Byte} {v : Nat} (hraw : signalRaw e payload = some v)
    (hvalid : ¬ (leAt e 7 1 / 4 % 2 = 1 ∧ v + 1 = 2 ^ leAt e 6 1)) (n port i stamp : Nat) (s : State) :
    takeSignal n port i stamp e payload s = signalStored n port i stamp e v s := by
  rw [takeSignal, hraw]
  exact if_neg hvalid

/-- The signals of a frame's identifier, each taken in turn. -/
def takeSignals (n port stamp : Nat) (id : Word) (payload : List Byte) (l : List (List Byte × Nat)) (s : State) : State :=
  l.foldl (fun s e => if wordAt e.1 0 = id then takeSignal n port e.2 stamp e.1 payload s else s) s

theorem takeSignals_taken (n port stamp : Nat) (id : Word) (payload : List Byte) (l : List (List Byte × Nat)) (s : State) :
    SignalsTaken n port (l.map fun e => port * 32 + e.2) s (takeSignals n port stamp id payload l s) := by
  induction l generalizing s with
  | nil => exact .refl ..
  | cons e l ih =>
    have hfirst : SignalsTaken n port [port * 32 + e.2] s (if wordAt e.1 0 = id then takeSignal n port e.2 stamp e.1 payload s else s) := by
      split
      · exact takeSignal_taken ..
      · exact .refl ..
    exact hfirst.trans (ih _)

theorem takeSignals_stores {n port stamp : Nat} {id : Word} {payload : List Byte} {l : List (List Byte × Nat)} (hl : (l.map (·.2)).Nodup)
    {e : List Byte} {i v : Nat} (he : (e, i) ∈ l) (hid : wordAt e 0 = id) (hraw : signalRaw e payload = some v)
    (hvalid : ¬ (leAt e 7 1 / 4 % 2 = 1 ∧ v + 1 = 2 ^ leAt e 6 1)) (s : State) :
    ∃ tick, Tab.get? ((takeSignals n port stamp id payload l s).ctxAt n).canSignals (port * 32 + i) = some (CanSignal.arrivedAs e v stamp tick) := by
  obtain ⟨l₁, l₂, rfl⟩ := List.append_of_mem he
  have hsplit : takeSignals n port stamp id payload (l₁ ++ (e, i) :: l₂) s =
      takeSignals n port stamp id payload l₂ (signalStored n port i stamp e v (takeSignals n port stamp id payload l₁ s)) := by
    rw [takeSignals, List.foldl_append, List.foldl_cons, if_pos hid, takeSignal_stores hraw hvalid]
    rfl
  have hlater : port * 32 + i ∉ l₂.map fun x => port * 32 + x.2 := by
    intro hmem
    obtain ⟨x, hx, hkey⟩ := List.mem_map.1 hmem
    simp only [List.map_append, List.map_cons] at hl
    have hnot := (List.nodup_cons.1 (List.Nodup.of_append_right hl)).1
    have hsame : x.2 = i := by omega
    exact hnot (hsame ▸ List.mem_map_of_mem hx)
  rw [hsplit, (takeSignals_taken ..).others _ hlater, signalStored_canSignals, if_pos rfl]
  exact ⟨_, rfl⟩

section CanFrame

variable {s : State} {port n : Nat} {bd : List Byte} (id : Word) {brs error : Bool} (payload : List Byte) (hbind : bindingOf s port = some (n, bd))
  (hcan : isCan port = true) (hst : (s.portAt port).state = .streaming)

/-- The answer to a frame of a port whose settings are those it has in `s` (R202). -/
theorem canAnswer_answers {u : State} (ack : Bool) (hack : (u.portAt port).canAck = (s.portAt port).canAck)
    (hswap : (u.portAt port).swapFault = (s.portAt port).swapFault) : canAnswer port ack u = { u with
      outbox := if (s.portAt port).canAck = true ∧ (s.portAt port).swapFault = false then .can port ack :: u.outbox else u.outbox } := by
  rw [canAnswer_eq, hack, hswap]

theorem canAnswer_countError : canAnswer port false (countError port s) = { countError port s with
    outbox := if (s.portAt port).canAck = true ∧ (s.portAt port).swapFault = false then .can port false :: s.outbox else s.outbox } :=
  canAnswer_answers false (by rw [portAt_countError, if_pos rfl]) (by rw [portAt_countError, if_pos rfl])

/-- A good frame is answered, and stamped by the firmware (R121). -/
def frameStamped (port : Nat) (s : State) : Nat × State := firmwareStamp (canAnswer port true (noteData port s))

theorem canAnswer_noteData : canAnswer port true (noteData port s) = { noteData port s with
    outbox := if (s.portAt port).canAck = true ∧ (s.portAt port).swapFault = false then .can port true :: s.outbox else s.outbox } :=
  canAnswer_answers true (by rw [portAt_noteData, if_pos rfl]) (by rw [portAt_noteData, if_pos rfl])

theorem frameStamped_eq : (frameStamped port s).2 = { noteData port s with
    outbox := if (s.portAt port).canAck = true ∧ (s.portAt port).swapFault = false then .can port true :: s.outbox else s.outbox
    free := s.free + 1 } := by
  rw [frameStamped, canAnswer_noteData]
  rfl

theorem bindingOf_answered : bindingOf (canAnswer port true (noteData port s)) port = bindingOf s port := by
  have hown : ((noteData port s).portAt port).owner = (s.portAt port).owner := by rw [portAt_noteData, if_pos rfl]
  rw [canAnswer_noteData]
  exact bindingOf_congr hown rfl

theorem signalEntries_answered : signalEntries (canAnswer port true (noteData port s)) port = signalEntries s port := by
  rw [signalEntries, bindingOf_answered, canAnswer_noteData]
  rfl

include hbind hcan hst

theorem canFrame_trigger : (isCan port && (s.portAt port).owner.isSome && ((s.portAt port).state == .detecting || (s.portAt port).state == .idle ||
    (s.portAt port).state == .streaming)) = true := by
  rw [hcan, owner_of_bindingOf hbind, hst]
  rfl

theorem exec_canFrame_counted (hbad : error = true ∨ (brs = true ∧ (s.portAt port).canData = 0)) :
    exec (.canFrame port id brs error payload) s = .next (canAnswer port false (countError port s)) := by
  change execCanFrame port id brs error payload s = _
  rw [execCanFrame, onTrigger_fires _ _ (canFrame_trigger hbind hcan hst)]
  exact congrArg _ (if_pos hbad)

theorem exec_canFrame_taken (hgood : ¬ (error = true ∨ (brs = true ∧ (s.portAt port).canData = 0))) :
    exec (.canFrame port id brs error payload) s = .next
      (takeSignals n port (frameStamped port s).1 id payload (signalEntries s port).zipIdx (frameStamped port s).2) := by
  change execCanFrame port id brs error payload s = _
  rw [execCanFrame, onTrigger_fires _ _ (canFrame_trigger hbind hcan hst)]
  refine congrArg _ ((if_neg hgood).trans ?_)
  change (match bindingOf (canAnswer port true (noteData port s)) port with
    | none => canAnswer port true (noteData port s)
    | some (n, _) => if (s.portAt port).state ≠ PortState.streaming then canAnswer port true (noteData port s) else
      takeSignals n port (frameStamped port s).1 id payload (signalEntries (canAnswer port true (noteData port s)) port).zipIdx (frameStamped port s).2) = _
  rw [bindingOf_answered, hbind, signalEntries_answered]
  exact if_neg (not_not.2 hst)

end CanFrame

/-! ### What the first burst leaves -/

/-- The first good burst of a port that no session binds feeds the channels of the port. -/
theorem firstBurst_good {s : State} {port : Nat} (hfirst : (s.portAt port).lastStamp = none) (value : Nat → Option (Int × Bool)) :
    let t := (burstGood port s).deliver port (imuStamp s port).1 value
    (t.portAt port).failedBursts = 0 ∧ (t.portAt port).lastData = s.time.ticks ∧
      (∀ ch, (s.chanAt ch).source.toNat = port → (s.chanAt ch).holder.isSome = true →
        t.chanAt ch = (s.chanAt ch).fed (imuStamp s port).1 (value (s.chanAt ch).axis)) ∧
      (∀ k, k ≠ port → t.portAt k = s.portAt k) ∧ t = { s with ports := t.ports, filters := t.filters, free := t.free } := by
  intro t
  have hports (k : Nat) : t.portAt k = (burstGood port s).portAt k := (PortsKept.deliver _ port _ value).portAt k
  have hframe := burstGood_first hfirst
  have hchan (ch : Nat) : (burstGood port s).chanAt ch = s.chanAt ch := by rw [hframe]; rfl
  refine ⟨?_, ?_, fun ch hsrc hheld => ?_, fun k hk => ?_, ?_⟩
  · rw [hports, portAt_burstGood, if_pos rfl]
  · rw [hports, portAt_burstGood, if_pos rfl]
  · exact (chanAt_deliver ..).trans (by rw [hchan]; exact if_pos ⟨hsrc, hheld⟩)
  · rw [hports, portAt_burstGood, if_neg hk]
  · unfold t
    rw [State.deliver_eq, hframe]

/-- The first failed burst of a port feeds its channels with their previous inputs. -/
theorem firstBurst_replaced {s : State} {port : Nat} (hfirst : (s.portAt port).lastStamp = none)
    (hidle : ∀ ch, (s.chanAt ch).source.toNat = port → (s.chanAt ch).due = none) : let t := burstReplaced port s
    (t.portAt port).failedBursts = (s.portAt port).failedBursts + 1 ∧ (t.portAt port).state = (s.portAt port).state ∧
      (∀ k, k ≠ port → t.portAt k = s.portAt k) ∧
      t = { s with ports := t.ports, filters := t.filters, events := t.events, tether := t.tether, eventLimit := t.eventLimit, free := t.free } := by
  intro t
  have hreplaced : t = (burstCounted port s).deliver port (imuStamp s port).1 fun _ => none := burstReplaced_first hfirst hidle
  have hports (k : Nat) : t.portAt k = (burstCounted port s).portAt k := by
    rw [hreplaced]
    exact (PortsKept.deliver ..).portAt k
  rw [hports]
  refine ⟨(portAt_burstCounted_self port s).1, (portAt_burstCounted_self port s).2, fun k hk => (hports k).trans (portAt_burstCounted_other s hk), ?_⟩
  rw [hreplaced, State.deliver_eq, burstCounted_first hfirst]

/-! ### The obligation -/

/-- Settles O16, row by row: what each arrival stores, counts or raises. -/
theorem lidarInertialAndCanSamplesArrive : Obligations.LidarInertialAndCanSamplesArrive := by
  unfold Obligations.LidarInertialAndCanSamplesArrive
  refine ⟨?format, ?lidar, ?sweep, ?firstBurst, ?burst, ?imu0, ?can, ?stale⟩
  case format =>
    intro s c m b h hkind hfree hb hok
    obtain ⟨hans, hctx, hctxs, hothers, hframe⟩ := updCtx_done_spec (fun x =>
      { x with formats := Tab.put x.formats (fld (m.w 3) 2 0) { kind := fld (m.w 3) 9 8, bytes := b } }) h
    refine ⟨_, exec_formatWrite h hkind hfree hb hok, hans, ?_, fun k hk => ?_, hctxs, hothers, hframe⟩
    · rw [hctx]
      exact (Tab.get?_put ..).trans (if_pos rfl)
    · rw [hctx]
      exact (Tab.get?_put ..).trans (if_neg hk)
  case lidar =>
    intro s port n tags bd fmt payload hbind heth hst hip hfits hfmt
    refine ⟨fun hlen => ?_, fun hlen hsync hseq => ?_⟩
    · refine ⟨_, exec_lidarPacket_length hbind heth hst hip hfits hfmt hlen, ?_, rfl, fun k hk => ?_, rfl⟩
      · rw [portAt_countError, if_pos rfl, portAt_noteData, if_pos rfl]
      · rw [portAt_countError, if_neg hk, portAt_noteData, if_neg hk]
    · refine ⟨_, (firmwareStamp s).1, exec_lidarPacket_sync hbind heth hst hip hfits hfmt hlen hsync hseq, firmwareStamp_near s, ?_, fun k hk => ?_, rfl⟩
      · rw [packetJoined_points, if_pos rfl]
        rfl
      · rw [packetJoined_points, if_neg hk]
  case sweep =>
    intro s port k hfirst hlate
    have hexec := exec_lidarSweepTimeout hfirst hlate
    by_cases hst : (s.portAt port).state = .streaming
    · rw [closeSweep_streaming hst] at hexec
      refine ⟨_, hexec, ?_, ?_, fun _ => ?_, fun hnot => absurd hst hnot, fun j hj => (Tab.getD_put ..).trans (if_neg hj), rfl⟩
      all_goals dsimp only; rw [Tab.getD_put_self]
    · rw [closeSweep_idle hst] at hexec
      refine ⟨_, hexec, ?_, ?_, fun hstream => absurd hstream hst, fun _ => ⟨?_, rfl⟩, fun j hj => (Tab.getD_put ..).trans (if_neg hj), rfl⟩
      all_goals dsimp only; rw [Tab.getD_put_self]
  case firstBurst =>
    intro s port fmt burst hfmt himu hst hbind hidle hfirst
    refine ⟨?good, ?failed⟩
    case good =>
      have hexec := exec_imuBurst_good burst hfmt himu hst
      rw [burstDelivered_first hfirst hidle hbind] at hexec
      obtain ⟨hcount, hdata, hchan, hothers, hframe⟩ := firstBurst_good hfirst fun a => some (burstValue fmt burst a)
      exact ⟨_, hexec, hcount, hdata, fun ch hsrc hheld => ⟨(imuStamp s port).1, by rw [hchan ch hsrc hheld]; rfl⟩, hothers, hframe⟩
    case failed =>
      have hexec := exec_imuBurst_failed burst hfmt himu hst
      obtain ⟨hcount, hstate, hothers, hframe⟩ := firstBurst_replaced hfirst hidle
      generalize burstReplaced port s = u at hexec hcount hstate hothers hframe
      rw [hcount] at hexec
      by_cases hten : 10 ≤ (s.portAt port).failedBursts + 1
      · have hgood : (u.portAt port).state ≠ .fault := by obtain hst | hst := hst <;> simp [hstate, hst]
        obtain ⟨hfault, hreason, -, -, hports, hentered⟩ := (enterFault_entered 3 hgood).spec
        rw [if_pos hten] at hexec
        refine ⟨_, hexec, fun _ => ⟨hfault, hreason⟩, fun hlt => absurd hlt (by omega), fun k hk => (hports k hk).1.trans (hothers k hk), ?_⟩
        rw [hentered, hframe]
      · rw [if_neg hten] at hexec
        exact ⟨u, hexec, fun hnine => absurd hnine (by omega), fun _ => ⟨hcount, hstate⟩, hothers, by rw [hframe]⟩
  case burst =>
    intro s port fmt burst hfmt himu hst
    have hcounted := burstGood_delivered port (fun a => some (burstValue fmt burst a)) s
    obtain ⟨e, hport⟩ := hcounted.counted
    rw [portAt_burstGood, if_pos rfl] at hport
    refine ⟨_, exec_imuBurst_good burst hfmt himu hst, ?_, ?_, ?_, ?_, fun k hk => ?_⟩
    · rw [hport]
    · rw [hport]
    · rw [hport]
      exact Option.some_ne_none _
    · rw [hport]
    · rw [hcounted.others k hk, portAt_burstGood, if_neg hk]
  case imu0 =>
    intro s raw hdue hon hidle
    obtain ⟨hlatched, hframe⟩ := imu0Latched_spec hidle
    obtain ⟨himu0, hports, htaken⟩ := takeImu0_spec raw (imu0Latched s)
    have hage : (imu0Latched s).age = s.age := by rw [hframe]
    have htime : (imu0Latched s).time = { s.time with imu0Due := false } := by rw [hframe]
    have hdev : (imu0Latched s).devNs = s.devNs := State.devNs_congr (by rw [htime]) (by rw [htime])
    have htakenTime : (takeImu0 raw (imu0Latched s)).time = (imu0Latched s).time := by rw [htaken]
    refine ⟨_, exec_imu0Sample raw hdue hon, ?_, ?_, fun p hp => ?_, ?_, ?_⟩
    · rw [himu0, imuRecord_congr hage hdev, imuRecord_congr hage hdev]
    · rw [htakenTime, htime]
    · have hne : p ≠ 32 := by
        rintro rfl
        exact absurd hp (by decide)
      rw [hports p hne]
      exact hlatched p hp
    · exact (State.devNs_congr (by rw [htakenTime]) (by rw [htakenTime])).trans hdev
    · rw [htaken, hframe]
  case can =>
    intro s port n bd id brs error payload hbind hcan hst
    refine ⟨fun hbad => ?_, fun hgood => ?_⟩
    · have hexec := exec_canFrame_counted id payload hbind hcan hst hbad
      rw [canAnswer_countError] at hexec
      exact ⟨_, hexec, (portAt_countError port port s).trans (if_pos rfl), fun k hk => (portAt_countError port k s).trans (if_neg hk), rfl, rfl⟩
    · obtain ⟨hclean, hrate⟩ := hgood
      have hgood : ¬ (error = true ∨ (brs = true ∧ (s.portAt port).canData = 0)) := by
        rintro (herror | ⟨hbrs, hzero⟩)
        · exact Bool.false_ne_true (hclean.symm.trans herror)
        · exact hrate hbrs hzero
      have hexec := exec_canFrame_taken id payload hbind hcan hst hgood
      have htaken := takeSignals_taken n port (frameStamped port s).1 id payload (signalEntries s port).zipIdx (frameStamped port s).2
      refine ⟨_, hexec, ?_, fun i e v he hid hraw hvalid => ?_, ?_, ?_⟩
      · rw [htaken.lastData, frameStamped_eq]
        exact congrArg PortS.lastData ((portAt_noteData port port s).trans (if_pos rfl))
      · obtain ⟨tick, hsig⟩ := takeSignals_stores (n := n) (port := port) (stamp := (frameStamped port s).1) (by simp [List.nodup_range'])
          (List.mem_zipIdx_iff_getElem?.2 he) hid hraw hvalid (frameStamped port s).2
        exact ⟨_, hsig, rfl, rfl, rfl, rfl⟩
      · rw [htaken.frame, frameStamped_eq]
      · rw [htaken.frame, frameStamped_eq]
        rfl
  case stale =>
    intro s port i n bd e sig hbind he hcan hsig hfresh hlate
    refine ⟨_, _, exec_canSignalStale hbind he hcan hsig hfresh hlate, ?_, rfl, rfl, fun k hk => ?_, rfl⟩
    · rw [State.raiseCtx_ctxAt, State.ctxAt_updCtx, if_pos rfl, CtxS.withSignal, Tab.get?_put, if_pos rfl]
    · rw [State.raiseCtx_ctxAt, State.ctxAt_updCtx, if_neg hk]

end Sys2Proof.Machine

/-! ## Filter channels: what their commands leave -/

namespace Sys2Proof.Machine

/-! ### A channel of the sender's updated -/

theorem State.chanAt_updChan_self (s : State) (ch : Nat) (f : ChannelS → ChannelS) : (s.updChan ch f).chanAt ch = f (s.chanAt ch) :=
  (s.chanAt_updChan ch ch f).trans (if_pos rfl)

/-- An update of one channel and its command's end. -/
theorem updChan_done_spec {s : State} {c : CmdRef} {op : Nat} {m : Cmd} (ch : Nat) (f : ChannelS → ChannelS) (body : List Word) (h : s.runs c op m) :
    ∃ t, ((s.began c).updChan ch f).done c OK 0 body = t ∧ t.answered c OK 0 body ∧ t.chanAt ch = f (s.chanAt ch) ∧
      (∀ k, k ≠ ch → t.chanAt k = s.chanAt k) ∧ otherCmds s t c ∧ t = { s with cmds := t.cmds, filters := t.filters } := by
  obtain ⟨hans, hothers⟩ := State.done_of_began (u := (s.began c).updChan ch f) OK 0 body [] h.isSome rfl
  refine ⟨_, rfl, hans, ?_, fun k hk => ?_, hothers, rfl⟩
  · exact (s.began c).chanAt_updChan_self ch f
  · exact ((s.began c).chanAt_updChan ch k f).trans (if_neg hk)

/-- A filter command goes on where the sender's context holds the channel (R209, R983). -/
theorem withChan_held {s : State} {m : Cmd} {ch : Nat} (k : ChannelS → State) (h : (s.chanAt ch).holder = some m.ctx) :
    withChan m s ch k = k (s.chanAt ch) := by
  simp only [withChan, h, if_true]

@[simp] theorem State.updCmd_chanAt (s : State) (c : CmdRef) (f : Cmd → Cmd) (ch : Nat) : (s.updCmd c f).chanAt ch = s.chanAt ch := rfl
theorem State.began_chanAt (s : State) (c : CmdRef) (ch : Nat) : (s.began c).chanAt ch = s.chanAt ch := rfl

theorem ChannelS.fadeOn_settled {q : ChannelS} (h : q.change = .none) : q.fadeOn = false := by rw [fadeOn, h]
theorem ChannelS.rateOn_settled {q : ChannelS} (h : q.change = .none) : q.rateOn = false := by rw [rateOn, h]

theorem ChannelS.runSet_of_running {q : ChannelS} (h : q.running = true) : q.runSet = q.instA q.activeB := if_pos h

/-! ### FILTER_BIND -/

/-- A new channel is the context's, on the source, axis and route asked for, whatever its preset (R208, R983). -/
theorem newChannel_bound (s : State) (n src axis route preset : Nat) (bySession : Bool) : let q := newChannel s n src axis route preset bySession
    q.holder = some n ∧ q.source = BitVec.ofNat 8 src ∧ q.axis = axis ∧ q.route = route ∧ q.filling = true := by
  unfold newChannel
  split <;> exact ⟨rfl, rfl, rfl, rfl, rfl⟩

/-- Where no change is under way, none is dropped. -/
theorem dropChange_settled {s : State} {ch : Nat} (h : (s.chanAt ch).change = .none) : dropChange ch s = s := by
  simp only [dropChange, h, decide_true]
  cases (s.chanAt ch).presetCmd with
  | none => rfl
  | some c => rfl

section FilterBind

variable {s : State} {c : CmdRef} {m : Cmd}

theorem exec_filterBind_imu0 (h : s.runs c 0x0400 m) (hbind : bit (m.w 3) 8 = false) (hany : bit (m.w 3) 9 = false) (hsrc : fld (m.w 4) 31 24 = 32)
    (haxis : fld (m.w 4) 23 20 ≤ 5) (hroute : fld (m.w 4) 19 18 ≠ 3) (hfree : (s.chanAt (fld (m.w 3) 4 0)).holder = none) :
    exec (.filterBind c) s = .next (((s.began c).updChan (fld (m.w 3) 4 0) fun _ =>
      newChannel (s.began c) m.ctx 32 (fld (m.w 4) 23 20) (fld (m.w 4) 19 18) 1 false).done c OK 0 [w32 (fld (m.w 3) 4 0)]) := by
  have himu : isExtImu 32 = false := by decide
  have hbegan : ((s.began c).chanAt (fld (m.w 3) 4 0)).holder = none := hfree
  change execFilterBind c s = _
  rw [execFilterBind, onCmd_runs _ h]
  simp only [hbind, hany, hsrc, himu, haxis, hroute, hbegan, Bool.false_eq_true, and_self, if_false, BEq.rfl, decide_true, Bool.or_false,
    Bool.and_self, Bool.true_or, Bool.not_true, Bool.false_or, beq_iff_eq, Bool.false_and, Option.isSome_none, if_true]
  rfl

theorem exec_filterBind_release (h : s.runs c 0x0400 m) (hrel : bit (m.w 3) 8 = true) (hany : bit (m.w 3) 9 = false)
    (hown : (s.chanAt (fld (m.w 3) 4 0)).holder = some m.ctx) (hbound : (s.chanAt (fld (m.w 3) 4 0)).bySession = false)
    (hstill : (s.chanAt (fld (m.w 3) 4 0)).change = .none) :
    exec (.filterBind c) s = .next (((s.began c).updChan (fld (m.w 3) 4 0) fun _ => {}).done c OK 0 [w32 (fld (m.w 3) 4 0)]) := by
  have hdrop : dropChange (fld (m.w 3) 4 0) (s.began c) = s.began c := dropChange_settled hstill
  have hbegan : (s.began c).chanAt (fld (m.w 3) 4 0) = s.chanAt (fld (m.w 3) 4 0) := rfl
  change execFilterBind c s = _
  rw [execFilterBind, onCmd_runs _ h]
  simp only [hrel, hany, hbegan, hown, hbound, ChannelS.fadeOn_settled hstill, ChannelS.rateOn_settled hstill, freeChannel, hdrop,
    Bool.false_eq_true, and_false, if_false, if_true, reduceCtorEq, bne_self_eq_false, Bool.or_self, Bool.and_false]
  rfl

end FilterBind

/-! ### FILTER_PRESET -/

/-- How a channel takes a preset's set (R230, R231, R981). -/
def ChannelS.presetChange (q : ChannelS) (p : Nat) (k : CoeffSet) : FilterChange :=
  match q.runSet with
  | none => .startWait k p
  | some r => if r.decim = k.decim then .swapWait (some (p, k)) else .rateWait k p

/-- The channel that FILTER_PRESET leaves waiting for its sample; one whose source the preset does not fit stays (R221). -/
def ChannelS.presetAsked (s : State) (c : CmdRef) (p : Nat) (q : ChannelS) : ChannelS :=
  match presetSet s p q.source.toNat with
  | none => q
  | some k => { q with presetCmd := some c, change := q.presetChange p k }

theorem ChannelS.presetAsked_fits {s : State} (c : CmdRef) {p : Nat} {q : ChannelS} {k : CoeffSet} (h : presetSet s p q.source.toNat = some k) :
    q.presetAsked s c p = { q with presetCmd := some c, change := q.presetChange p k } := by
  rw [presetAsked, h]

/-- A pass over channels whose step does not depend on the channels: each of them takes it once, and nothing else changes. -/
theorem forEach_updChan_spec {f : State → ChannelS → ChannelS} (hf : ∀ u ch g, f (u.updChan ch g) = f u) {l : List Nat} (hl : l.Nodup) (s : State) :
    ∃ t, forEach l (fun ch u => u.updChan ch (f u)) s = t ∧ t = { s with filters := t.filters } ∧
      ∀ k, t.chanAt k = if k ∈ l then f s (s.chanAt k) else s.chanAt k := by
  induction l generalizing s with
  | nil => exact ⟨s, rfl, rfl, fun k => by simp⟩
  | cons ch l ih =>
    obtain ⟨hch, hl⟩ := List.nodup_cons.1 hl
    obtain ⟨t, ht, hframe, hchans⟩ := ih hl (s.updChan ch (f s))
    refine ⟨t, ht, hframe, fun k => ?_⟩
    rw [hchans, hf, State.chanAt_updChan]
    by_cases hk : k = ch
    · subst hk; simp [hch]
    · simp [hk]

theorem setBits_nodup (n w : Nat) : (setBits n w).Nodup := List.nodup_range.filter _

theorem setBits_ne_nil {x : Word} (h : x ≠ 0) : setBits 32 x.toNat ≠ [] := by
  obtain ⟨i, hi⟩ := Nat.exists_testBit_of_ne_zero fun e => h (BitVec.eq_of_toNat_eq e)
  have hlt : i < 32 := Nat.lt_of_not_le fun hle => by simp [BitVec.testBit_toNat, BitVec.getLsbD_of_ge _ _ hle] at hi
  exact List.ne_nil_of_mem (List.mem_filter.2 ⟨List.mem_range.2 hlt, hi⟩)

/-- A channel of the context's with no change under way and a source the preset fits is not refused. -/
theorem presetRefusal_fits {s : State} {m : Cmd} {p ch : Nat} (hown : (s.chanAt ch).holder = some m.ctx) (hstill : (s.chanAt ch).change = .none)
    (hfits : (presetSet s p (s.chanAt ch).source.toNat).isSome = true) : presetRefusal m p s ch = none := by
  have hsome : (presetSet s p (s.chanAt ch).source.toNat).isNone = false := by rw [Option.isNone_eq_false_iff, hfits]
  simp only [presetRefusal, hown, ne_eq, not_true_eq_false, if_false, hsome, Bool.false_eq_true, hstill]

theorem exec_filterPreset {s : State} {c : CmdRef} {m : Cmd} (h : s.runs c 0x0401 m) (hmask : m.w 3 ≠ 0) (hpreset : fld (m.w 4) 2 0 ≤ 3)
    (hchans : ∀ ch ∈ setBits 32 (m.w 3).toNat, (s.chanAt ch).holder = some m.ctx ∧ (s.chanAt ch).change = .none ∧
      (presetSet s (fld (m.w 4) 2 0) (s.chanAt ch).source.toNat).isSome = true) :
    exec (.filterPreset c) s = .next (forEach (setBits 32 (m.w 3).toNat) (fun ch u => u.updChan ch (ChannelS.presetAsked u c (fld (m.w 4) 2 0)))
      ((s.began c).updCmd c fun x => { x with work := setBits 32 (m.w 3).toNat })) := by
  have hnone : ((setBits 32 (m.w 3).toNat).findSome? fun ch => presetRefusal m (fld (m.w 4) 2 0) (s.began c) ch) = none := by
    refine List.findSome?_eq_none_iff.2 fun ch hch => ?_
    obtain ⟨hown, hstill, hfits⟩ := hchans ch hch
    exact presetRefusal_fits hown hstill hfits
  change execFilterPreset c s = _
  rw [execFilterPreset, onCmd_runs _ h]
  simp only [if_neg (setBits_ne_nil hmask), if_neg (Nat.not_lt.2 hpreset), hnone]
  rfl

/-- What FILTER_PRESET leaves. -/
theorem filterPreset_spec {s : State} {c : CmdRef} {m : Cmd} (p : Nat) {l : List Nat} (hl : l.Nodup) (h : s.runs c 0x0401 m) :
    ∃ t, forEach l (fun ch u => u.updChan ch (ChannelS.presetAsked u c p)) ((s.began c).updCmd c fun x => { x with work := l }) = t ∧
      t.replyOf c = none ∧ (∀ ch, t.chanAt ch = if ch ∈ l then (s.chanAt ch).presetAsked s c p else s.chanAt ch) ∧ otherCmds s t c ∧
      t = { s with cmds := t.cmds, filters := t.filters } := by
  obtain ⟨hwaits, hothers⟩ := State.waits_of_updCmd (u := s.began c) (fun x => { x with work := l }) h rfl fun _ => ⟨rfl, rfl⟩
  obtain ⟨t, ht, hframe, hchans⟩ := forEach_updChan_spec (f := fun u => ChannelS.presetAsked u c p) (fun _ _ _ => rfl) hl
    ((s.began c).updCmd c fun x => { x with work := l })
  refine ⟨t, ht, ?_, hchans, ?_, ?_⟩
  · rw [hframe]; exact hwaits
  · rw [hframe]; exact hothers
  · rw [hframe]; rfl

/-! ### FILTER_LOAD -/

section HeldChannel

variable {s : State} {c : CmdRef} {m : Cmd}

theorem exec_filterLoad {d : List Byte} (h : s.runs c 0x0402 m) (hown : (s.chanAt (fld (m.w 3) 4 0)).holder = some m.ctx)
    (hstill : (s.chanAt (fld (m.w 3) 4 0)).change = .none)
    (hstopped : (s.chanAt (fld (m.w 3) 4 0)).running = false ∨ (s.chanAt (fld (m.w 3) 4 0)).activeB ≠ bit (m.w 3) 8) (hd : sgIn m 4 s = .bytes d)
    (hok : (parseCoeff d).ok = true) (hlen : 16 + 2 * (parseCoeff d).taps ≤ d.length) :
    exec (.filterLoad c) s =
      .next (((s.began c).updChan (fld (m.w 3) 4 0) fun q => q.putInst (bit (m.w 3) 8) (some (parseCoeff d))).done c) := by
  have hbusy : ((s.began c).chanAt (fld (m.w 3) 4 0)).rateOn = false := ChannelS.rateOn_settled hstill
  have hnotRunning : ¬ (((s.began c).chanAt (fld (m.w 3) 4 0)).fadeOn = true ∨
      ((s.began c).chanAt (fld (m.w 3) 4 0)).running = true ∧ ((s.began c).chanAt (fld (m.w 3) 4 0)).activeB = bit (m.w 3) 8) := by
    rw [State.began_chanAt, ChannelS.fadeOn_settled hstill]
    rintro (hfade | ⟨hrun, hactive⟩)
    · exact Bool.false_ne_true hfade
    · exact hstopped.elim (fun e => Bool.false_ne_true (e.symm.trans hrun)) fun e => e hactive
  have haccepted : ¬ ((parseCoeff d).ok = false ∨ d.length < 16 + 2 * (parseCoeff d).taps) := by
    rintro (hbad | hshort)
    · exact Bool.false_ne_true (hbad.symm.trans hok)
    · exact Nat.not_lt.2 hlen hshort
  change execFilterLoad c s = _
  rw [execFilterLoad, onCmd_runs _ h]
  simp only [withChan_held (s := s.began c) _ hown, hbusy, Bool.false_eq_true, if_false, if_neg hnotRunning, withSg, sgIn_began, hd, if_neg haccepted]

/-! ### FILTER_SWAP -/

theorem exec_filterSwap_waits {r k : CoeffSet} (h : s.runs c 0x0403 m) (hown : (s.chanAt (fld (m.w 3) 4 0)).holder = some m.ctx)
    (hstill : (s.chanAt (fld (m.w 3) 4 0)).change = .none) (hrun : (s.chanAt (fld (m.w 3) 4 0)).runSet = some r)
    (hstop : (s.chanAt (fld (m.w 3) 4 0)).stopSet = some k) (hdecim : k.decim = r.decim) :
    exec (.filterSwap c) s = .next (((s.began c).updChan (fld (m.w 3) 4 0) fun q => { q with change := .swapWait none, presetCmd := some c }).updCmd c
      fun x => { x with work := [fld (m.w 3) 4 0] }) := by
  change execFilterSwap c s = _
  rw [execFilterSwap, onCmd_runs _ h]
  simp only [withChan_held (s := s.began c) _ hown, State.began_chanAt, ChannelS.rateOn_settled hstill, ChannelS.fadeOn_settled hstill,
    Bool.false_eq_true, if_false, hstill, hrun, hstop, Option.any_some, hdecim, beq_self_eq_true, if_true]
  rfl

theorem exec_filterSwap_starts {k : CoeffSet} (h : s.runs c 0x0403 m) (hown : (s.chanAt (fld (m.w 3) 4 0)).holder = some m.ctx)
    (hstill : (s.chanAt (fld (m.w 3) 4 0)).change = .none) (hrun : (s.chanAt (fld (m.w 3) 4 0)).runSet = none)
    (hstop : (s.chanAt (fld (m.w 3) 4 0)).stopSet = some k) :
    exec (.filterSwap c) s = .next (((s.began c).updChan (fld (m.w 3) 4 0) fun q => q.start (!q.activeB) 4).done c) := by
  change execFilterSwap c s = _
  rw [execFilterSwap, onCmd_runs _ h]
  simp only [withChan_held (s := s.began c) _ hown, State.began_chanAt, ChannelS.rateOn_settled hstill, ChannelS.fadeOn_settled hstill,
    Bool.false_eq_true, if_false, hstill, hrun, hstop, Option.isSome_some, if_true]

/-! ### FILTER_THRESHOLD -/

/-- The channel with the threshold pair and the detector's parameters of a FILTER_THRESHOLD (R984). -/
def ChannelS.withThreshold (m : Cmd) (hold lw es : Nat) (q : ChannelS) : ChannelS :=
  { q with thrQuantity := fld (m.w 3) 9 8, thrCount := fld (m.w 3) 23 16, thrUpper := (m.w 4).toInt, thrLower := (m.w 5).toInt,
           peakWin := if q.hold = hold then q.peakWin else [], rmsWin := if q.log2W = lw then q.rmsWin else [],
           env := if q.envShift = es then q.env else 0, hold := hold, log2W := lw, envShift := es }.rearm

theorem exec_filterThreshold {hold lw es : Nat} (h : s.runs c 0x0404 m) (hown : (s.chanAt (fld (m.w 3) 4 0)).holder = some m.ctx)
    (hupper : s24Min ≤ (m.w 4).toInt ∧ (m.w 4).toInt ≤ s24Max) (hlower : s24Min ≤ (m.w 5).toInt ∧ (m.w 5).toInt ≤ s24Max)
    (hhold : withDefault (fld (m.w 6) 15 0) 1 65535 1600 = some hold) (hlw : withDefault (fld (m.w 6) 19 16) 4 12 8 = some lw)
    (hes : withDefault (fld (m.w 6) 27 24) 1 12 6 = some es) :
    exec (.filterThreshold c) s = .next (((s.began c).updChan (fld (m.w 3) 4 0) fun q => q.withThreshold m hold lw es).done c) := by
  change execFilterThreshold c s = _
  rw [execFilterThreshold, onCmd_runs _ h]
  simp only [withChan_held (s := s.began c) _ hown, decide_eq_true hupper, decide_eq_true hlower, Bool.true_eq_false, if_false,
    hhold, hlw, hes]
  rfl

end HeldChannel

/-! ### The obligation -/

/-- Settles O17: each command that completes updates its own channels alone, by `updChan_done_spec` where it ends at once. -/
theorem filterCommandsActOnHeldChannels : Obligations.FilterCommandsActOnHeldChannels := by
  unfold Obligations.FilterCommandsActOnHeldChannels
  refine ⟨?bind, ?release, ?preset, ?load, ?swap, ?threshold⟩
  case bind =>
    intro s c m h hbind hany hsrc haxis hroute hfree
    obtain ⟨t, ht, hans, hch, hkept, hothers, hframe⟩ := updChan_done_spec (fld (m.w 3) 4 0)
      (fun _ => newChannel (s.began c) m.ctx 32 (fld (m.w 4) 23 20) (fld (m.w 4) 19 18) 1 false) [w32 (fld (m.w 3) 4 0)] h
    obtain ⟨hholder, hsource, haxisIs, hrouteIs, hfilling⟩ :=
      newChannel_bound (s.began c) m.ctx 32 (fld (m.w 4) 23 20) (fld (m.w 4) 19 18) 1 false
    rw [← hch] at hholder hsource haxisIs hrouteIs hfilling
    exact ⟨t, (exec_filterBind_imu0 h hbind hany hsrc haxis hroute hfree).trans (congrArg _ ht), hans, hholder, hsource, haxisIs, hrouteIs, hfilling,
      hkept, hothers, hframe⟩
  case release =>
    intro s c m h hrel hany hown hbound hstill
    obtain ⟨t, ht, hleft⟩ := updChan_done_spec (fld (m.w 3) 4 0) (fun _ => {}) [w32 (fld (m.w 3) 4 0)] h
    exact ⟨t, (exec_filterBind_release h hrel hany hown hbound hstill).trans (congrArg _ ht), hleft⟩
  case preset =>
    intro s c m h hmask hpreset hfits
    obtain ⟨t, ht, hwaits, hchans, hothers, hframe⟩ := filterPreset_spec (fld (m.w 4) 2 0) (setBits_nodup 32 (m.w 3).toNat) h
    refine ⟨t, (exec_filterPreset h hmask hpreset hfits).trans (congrArg _ ht), hwaits, fun ch hch => ?_, fun ch hch => ?_, hothers, hframe⟩
    · obtain ⟨k, hk⟩ := Option.isSome_iff_exists.1 (hfits ch hch).2.2
      rw [hchans, if_pos hch, ChannelS.presetAsked_fits c hk]
      exact ⟨rfl, rfl, k, hk, rfl⟩
    · rw [hchans, if_neg hch]
  case load =>
    intro s c m d h hown hstill hstopped hd hok hlen
    obtain ⟨t, ht, hleft⟩ := updChan_done_spec (fld (m.w 3) 4 0) (fun q => q.putInst (bit (m.w 3) 8) (some (parseCoeff d))) [] h
    exact ⟨t, (exec_filterLoad h hown hstill hstopped hd hok hlen).trans (congrArg _ ht), hleft⟩
  case swap =>
    intro s c m h hown hstill
    refine ⟨fun r k hrun hstop hdecim => ?_, fun k hrun hstop => ?_⟩
    · obtain ⟨hwaits, hothers⟩ := State.waits_of_updCmd (fun x => { x with work := [fld (m.w 3) 4 0] }) h
        (u := (s.began c).updChan (fld (m.w 3) 4 0) fun q => { q with change := .swapWait none, presetCmd := some c }) rfl fun _ => ⟨rfl, rfl⟩
      refine ⟨_, exec_filterSwap_waits h hown hstill hrun hstop hdecim, hwaits, ?_, fun j hj => ?_, hothers, rfl⟩
      · rw [State.updCmd_chanAt, State.chanAt_updChan_self, State.began_chanAt]
      · rw [State.updCmd_chanAt, State.chanAt_updChan, if_neg hj, State.began_chanAt]
    · obtain ⟨t, ht, hans, hch, hkept, hothers, hframe⟩ := updChan_done_spec (fld (m.w 3) 4 0) (fun q => q.start (!q.activeB) 4) [] h
      refine ⟨t, (exec_filterSwap_starts h hown hstill hrun hstop).trans (congrArg _ ht), hans, ?_, ?_, ?_, hkept, hothers, hframe⟩
      · rw [hch]; exact (ChannelS.runSet_of_running rfl).trans hstop
      · rw [hch]; rfl
      · rw [hch]; rfl
  case threshold =>
    intro s c m hold lw es h hown hupper hlower hhold hlw hes
    obtain ⟨t, ht, hans, hch, hkept, hothers, hframe⟩ := updChan_done_spec (fld (m.w 3) 4 0) (fun q => q.withThreshold m hold lw es) [] h
    refine ⟨t, (exec_filterThreshold h hown hupper hlower hhold hlw hes).trans (congrArg _ ht), hans, ?_⟩
    rw [hch]
    exact ⟨rfl, rfl, rfl, rfl, rfl, rfl, rfl, rfl, rfl, hkept, hothers, hframe⟩

end Sys2Proof.Machine

/-! ## Filter channels: the outputs of a monitor channel -/

namespace Sys2Proof.Machine

/-! ### Steps on one channel -/

/-- A channel apart from its bookkeeping: the detector, the threshold pair and the saturation counts (R234, R235, R982). -/
def ChannelS.bare (q : ChannelS) : ChannelS :=
  { q with saturated := 0, satPending := 0, satLast := none, satReport := none, peakWin := [], rmsWin := [], env := 0,
           thrBeyond := 0, thrWithin := 0, thrArmed := true, thrLast := none }

/-- Apart from events and the bookkeeping of channel `ch`, `t` is `s` with that channel changed by `g`. -/
structure OnChannel (ch : Nat) (g : ChannelS → ChannelS) (s t : State) : Prop where
  frame : t = { s with filters := t.filters, events := t.events, tether := t.tether }
  others : ∀ j, j ≠ ch → t.chanAt j = s.chanAt j
  channel : (t.chanAt ch).bare = g (s.chanAt ch).bare

/-- `t` is `s` but for events and the bookkeeping of channel `ch`. -/
abbrev Reported (ch : Nat) (s t : State) : Prop := OnChannel ch id s t

namespace OnChannel

theorem refl (ch : Nat) (s : State) : Reported ch s s := ⟨rfl, fun _ _ => rfl, rfl⟩

theorem trans {ch : Nat} {g g' : ChannelS → ChannelS} {s t u : State} (h : OnChannel ch g s t) (k : OnChannel ch g' t u) :
    OnChannel ch (g' ∘ g) s u where
  frame := k.frame.trans (by rw [h.frame])
  others j hj := (k.others j hj).trans (h.others j hj)
  channel := k.channel.trans (congrArg g' h.channel)

theorem thenReported {ch : Nat} {g : ChannelS → ChannelS} {s t u : State} (h : OnChannel ch g s t) (k : Reported ch t u) : OnChannel ch g s u :=
  h.trans k

/-- What an update makes of a part `p` of the channel that is no bookkeeping. -/
theorem part {ch : Nat} {g : ChannelS → ChannelS} {s t : State} {α : Type} (h : OnChannel ch g s t) (p : ChannelS → α)
    (hp : ∀ q : ChannelS, p q.bare = p q) : p (t.chanAt ch) = p (g (s.chanAt ch).bare) := by
  rw [← hp, h.channel]

theorem ite {ch : Nat} {g : ChannelS → ChannelS} {p : Prop} [Decidable p] {s t u : State} (h : OnChannel ch g s t) (k : OnChannel ch g s u) :
    OnChannel ch g s (if p then t else u) := by
  split
  · exact h
  · exact k

/-- An update of the channel that does with its bare part what `g` does. -/
theorem updChan (ch : Nat) (s : State) {f g : ChannelS → ChannelS} (hf : ∀ q, (f q).bare = g q.bare) : OnChannel ch g s (s.updChan ch f) where
  frame := rfl
  others j hj := (s.chanAt_updChan ch j f).trans (if_neg hj)
  channel := by rw [State.chanAt_updChan_self, hf]

theorem raiseChan (ch code low : Nat) (s : State) : Reported ch s (raiseChan ch code low s) := by
  unfold Machine.raiseChan
  split
  · exact ⟨rfl, fun _ _ => rfl, rfl⟩
  · exact .refl ch s

theorem updChan_raiseChan (ch code low : Nat) (s : State) {f : ChannelS → ChannelS} (hf : ∀ q, (f q).bare = q.bare) :
    Reported ch s (Machine.raiseChan ch code low (s.updChan ch f)) :=
  (updChan ch s (g := id) hf).thenReported (.raiseChan ch code low _)

theorem countSaturation (ch : Nat) (input : Bool) (s : State) : Reported ch s (countSaturation ch input s) :=
  .ite (.updChan_raiseChan ch _ _ s fun _ => rfl) (.updChan ch s fun _ => rfl)

theorem threshold (ch : Nat) (v : Int) (s : State) : Reported ch s (threshold ch v s) :=
  .ite (.refl ch s) (.ite (.ite (.updChan ch s fun _ => rfl) (.updChan ch s fun _ => rfl))
    (.ite (.ite (.updChan_raiseChan ch _ _ s fun _ => rfl) (.updChan ch s fun _ => rfl)) (.updChan ch s fun _ => rfl)))

end OnChannel

/-! ### An output without a change of coefficients -/

theorem beginFade_settled {s : State} {ch : Nat} (stamp : Nat) (h : (s.chanAt ch).change = .none) : beginFade ch stamp s = s := by
  simp only [beginFade, h]

theorem afterOutput_settled {s : State} {ch : Nat} (stamp : Nat) (valid : Int) (h : (s.chanAt ch).change = .none) :
    afterOutput ch stamp valid s = s := by
  simp only [afterOutput, h]

/-- A monitor channel contributes nothing to fusion (R210). -/
theorem handOutput_monitor {s : State} {ch : Nat} (o : FilterOut) (prev : Option FilterOut) (h : (s.chanAt ch).route = 1) :
    handOutput ch o prev s = s := by
  unfold handOutput
  extract_lets
  split
  · rfl
  split
  · rfl
  exact if_pos (.inl h)

/-- Value, group delay and saturation of the output of a channel whose running set stands alone (R216, R217). -/
theorem outputOf_settled {q : ChannelS} {k : CoeffSet} (hz : Nat) (hrun : q.runSet = some k) (hstill : q.change = .none) :
    ∃ flags, outputOf q hz = ((firOut k q.history).1, k.group hz, flags, (firOut k q.history).2.1) := by
  simp only [outputOf, hrun, hstill]
  exact ⟨_, rfl⟩

/-- The value of an output: the sum of coefficient times sample, newest first, rounded and saturated (R214, R216). -/
theorem firOut_value (k : CoeffSet) (hist : List (Int × Bool × Bool)) : (firOut k hist).1 = clampInt (-8388608) 8388607
    (convergent ((k.coeff.zip (hist.take k.taps)).foldl (fun a p => a + p.1 * p.2.1) 0) k.outShift) := rfl

/-- The channel once its inputs are counted anew (R216, R219). -/
def ChannelS.recounted (q : ChannelS) : ChannelS := { q with filling := false, phase := 0 }

/-- The channel once it has handed on output `o`. -/
def ChannelS.handedOn (o : FilterOut) (q : ChannelS) : ChannelS :=
  { q with outIndex := q.outIndex + 1, outputs := q.outputs + 1, lastOut := some o, groupDelay := o.groupDelay }

/-- One output of a monitor channel with no change under way: it is handed on, and nothing else is left of it but events and bookkeeping. -/
theorem channelOutput_monitor {s : State} {ch : Nat} {k : CoeffSet} (stamp : Nat) (hrun : (s.chanAt ch).runSet = some k)
    (hstill : (s.chanAt ch).change = .none) (hroute : (s.chanAt ch).route = 1) (hsource : (s.chanAt ch).source ≠ 32) :
    ∃ o, OnChannel ch (ChannelS.handedOn o ∘ ChannelS.recounted) s (channelOutput ch stamp s) ∧ o.tInput = stamp ∧
      o.index = (s.chanAt ch).outIndex ∧ o.channel = ch ∧ o.value = (firOut k (s.chanAt ch).history).1 ∧
      o.groupDelay = k.group (inputHz s (s.chanAt ch).source.toNat) := by
  obtain ⟨flags, hout⟩ := outputOf_settled (inputHz s (s.chanAt ch).source.toNat) hrun hstill
  unfold channelOutput
  rw [beginFade_settled stamp hstill]
  extract_lets s1 c v valid s2 s3 gap primed s4 o prev s5 s6 s7 s8
  have hv : v = ((firOut k (s.chanAt ch).history).1, k.group (inputHz s (s.chanAt ch).source.toNat), flags, (firOut k (s.chanAt ch).history).2.1) :=
    hout
  have hgap : gap = none := by simp only [gap, c, s1, hstill]
  have hcounted : Reported ch s s2 := .ite (.countSaturation ch false s) (.refl ch s)
  have hrecounted : OnChannel ch ChannelS.recounted s2 s3 := .updChan ch s2 fun _ => rfl
  have hnoGap : s4 = s3 := by simp only [s4, hgap, Option.isSome_none, Bool.false_eq_true, if_false]
  have hhanded : OnChannel ch (ChannelS.handedOn o ∘ ChannelS.recounted) s s5 := by
    have hhanding : OnChannel ch (ChannelS.handedOn o) s4 s5 := .updChan ch s4 fun _ => rfl
    rw [hnoGap] at hhanding
    exact (hcounted.trans hrecounted).trans hhanding
  have hnoWrap : s6 = s5 := if_neg fun hwrap => hsource hwrap.2.1
  have htested : OnChannel ch (ChannelS.handedOn o ∘ ChannelS.recounted) s s7 := by
    unfold s7
    rw [hnoWrap]
    exact hhanded.thenReported (.threshold ch _ s5)
  have hmonitors : (s7.chanAt ch).route = 1 := (htested.part (·.route) fun _ => rfl).trans hroute
  have hsettled : (s7.chanAt ch).change = .none := (htested.part (·.change) fun _ => rfl).trans hstill
  have hnoFusion : s8 = s7 := handOutput_monitor o prev hmonitors
  rw [hgap, Option.any_none, if_neg Bool.false_ne_true, hnoFusion, afterOutput_settled stamp valid hsettled]
  exact ⟨o, htested, rfl, rfl, rfl, congrArg (·.1) hv, congrArg (·.2.1) hv⟩

/-! ### A delivered sample taken -/

/-- The channel once sample `v`, which did not saturate, has entered its history. -/
def ChannelS.taken (v : Int) (q : ChannelS) : ChannelS :=
  { q with due := none, lastInput := v, history := ((v, false, false) :: q.history).take 384, inputs := q.inputs + 1, phase := q.phase + 1 }

/-- Whether an output falls on the sample just taken (R216). -/
theorem dueNow_filled {q : ChannelS} {k : CoeffSet} (hrun : q.runSet = some k) (hfull : q.filling = false) :
    q.dueNow 0 = decide (k.decim ≤ q.phase) := by
  simp only [ChannelS.dueNow, hrun, hfull, Bool.false_eq_true, if_false, Nat.add_zero]

/-- A channel with no change under way takes a sample into its history, and makes an output where one is due (R216). -/
theorem exec_filterInputSample_settled {s : State} {ch : Nat} {v : Int} {stamp : Nat} (hch : ch < 32) (hstill : (s.chanAt ch).change = .none)
    (hdue : (s.chanAt ch).due = some (v, false, stamp, false)) :
    exec (.filterInputSample ch) s = .next (if ((s.chanAt ch).taken v).dueNow 0 = true then channelOutput ch stamp (s.updChan ch (ChannelS.taken v))
      else s.updChan ch (ChannelS.taken v)) := by
  have hrate : rateDue s ch = false := by simp only [rateDue, hstill]
  have htake : takeInput ch s = if ((s.updChan ch (ChannelS.taken v)).chanAt ch).dueNow 0 = true
      then channelOutput ch stamp (s.updChan ch (ChannelS.taken v)) else s.updChan ch (ChannelS.taken v) := by
    simp only [takeInput, hdue, hrate, hstill, Bool.and_false, Bool.or_self, Bool.false_eq_true, if_false, false_and, or_false]
    rfl
  change execFilterInputSample ch s = _
  rw [execFilterInputSample, onTrigger_fires s _ (by rw [decide_eq_true hch, hdue]; rfl), htake, State.chanAt_updChan_self]

/-! ### The obligation -/

/-- Settles O18: a taken sample enters the history (`ChannelS.taken`), and at DECIM inputs the output is handed on by
`channelOutput_monitor`. -/
theorem filterOutputsFollowTheCoefficients : Obligations.FilterOutputsFollowTheCoefficients := by
  unfold Obligations.FilterOutputsFollowTheCoefficients
  refine ⟨?short, ?reached⟩
  case short =>
    intro s ch k v stamp hch hrun hstill hdue hfull hshort
    have hnone : ((s.chanAt ch).taken v).dueNow 0 = false := by
      rw [dueNow_filled (q := (s.chanAt ch).taken v) (k := k) hrun hfull]
      exact decide_eq_false (Nat.not_le.2 hshort)
    rw [exec_filterInputSample_settled hch hstill hdue, hnone, if_neg Bool.false_ne_true]
    rfl
  case reached =>
    intro s ch k v stamp hch hrun hstill hdue hfull hreached hroute hsource
    have hnow : ((s.chanAt ch).taken v).dueNow 0 = true := by
      rw [dueNow_filled (q := (s.chanAt ch).taken v) (k := k) hrun hfull]
      exact decide_eq_true hreached
    have htaken : (s.updChan ch (ChannelS.taken v)).chanAt ch = (s.chanAt ch).taken v := s.chanAt_updChan_self ch _
    obtain ⟨o, hout, htime, hindex, hchannel, hvalue, hdelay⟩ := channelOutput_monitor (s := s.updChan ch (ChannelS.taken v)) (ch := ch) (k := k) stamp
      (by rw [htaken]; exact hrun) (by rw [htaken]; exact hstill) (by rw [htaken]; exact hroute) (by rw [htaken]; exact hsource)
    rw [htaken] at hindex hvalue hdelay
    have hexec := exec_filterInputSample_settled hch hstill hdue
    rw [if_pos hnow] at hexec
    have htakes : OnChannel ch (ChannelS.taken v) s (s.updChan ch (ChannelS.taken v)) := .updChan ch s fun _ => rfl
    have hstep := htakes.trans hout
    generalize channelOutput ch stamp (s.updChan ch (ChannelS.taken v)) = t at hexec hstep
    exact ⟨t, o, hexec, hstep.part (·.lastOut) fun _ => rfl, htime, hindex, hchannel, hvalue.trans (firOut_value ..), hdelay,
      hstep.part (·.outIndex) fun _ => rfl, hstep.part (·.phase) fun _ => rfl, hstep.part (·.due) fun _ => rfl, hstep.others, hstep.frame⟩

end Sys2Proof.Machine

/-! ## Vision: what one unit of an engine changes -/

namespace Sys2Proof.Machine

/-! ### The buffers of one stream -/

/-- A settling step of a stream: buffer `k` is freed where every reader has ended with it (R181, R303). -/
def StreamS.settleBuf (out : Bool) (x : StreamS) (k : Nat) : StreamS :=
  match Tab.get? x.bufs k with
  | some b =>
    if b.state ≠ .free ∧ x.prevBuf ≠ some k ∧ b.finished out then { x with bufs := Tab.put x.bufs k { order := x.clock }, clock := x.clock + 1 } else x
  | none => x

/-- A stream whose finished buffers are free. -/
def StreamS.settled (out : Bool) (x : StreamS) : StreamS := (List.range x.nbufs).foldl (StreamS.settleBuf out) x

theorem settleStream_eq (n : Nat) (s : State) : settleStream n s = s.updStream n (StreamS.settled (!s.inPool 2 0)) := rfl

/-- `y` is `x` but for buffers that were freed once every reader had ended with them. -/
structure StreamS.FreesIn (out : Bool) (x y : StreamS) : Prop where
  frame : y = { x with bufs := y.bufs, clock := y.clock }
  bufs : ∀ k b, Tab.get? x.bufs k = some b → Tab.get? y.bufs k = some b ∨ (b.finished out = true ∧ (Tab.getD y.bufs k {}).state = .free)

theorem StreamS.FreesIn.settleBuf {out : Bool} {x y : StreamS} (h : FreesIn out x y) (j : Nat) : FreesIn out x (y.settleBuf out j) := by
  unfold StreamS.settleBuf
  split
  case h_2 => exact h
  case h_1 c hc =>
    split
    case isFalse => exact h
    case isTrue hends =>
      obtain ⟨hheld, -, hfinished⟩ := hends
      refine ⟨by rw [h.frame], fun k b hb => ?_⟩
      by_cases hk : k = j
      · subst hk
        rcases h.bufs k b hb with hsame | ⟨-, hfree⟩
        · obtain rfl : c = b := Option.some.inj (hc.symm.trans hsame)
          exact .inr ⟨hfinished, by simp⟩
        · exact absurd (by simpa [Tab.getD, hc] using hfree) hheld
      · simpa [Tab.get?_put, Tab.getD_put, hk] using h.bufs k b hb

theorem StreamS.settled_frees (out : Bool) (x : StreamS) : FreesIn out x (x.settled out) := by
  suffices key : ∀ (l : List Nat) (y : StreamS), FreesIn out x y → FreesIn out x (l.foldl (StreamS.settleBuf out) y) from
    key _ x ⟨rfl, fun _ _ h => .inl h⟩
  intro l
  induction l with
  | nil => exact fun _ h => h
  | cons j l ih => exact fun y h => ih _ (h.settleBuf j)

/-! ### One stream changed -/

/-- `t` is `s` but for stream `n`, which is `x` in `t`. -/
structure StreamSet (n : Nat) (x : StreamS) (s t : State) : Prop where
  here : Tab.get? t.streams n = some x
  others : ∀ j, j ≠ n → Tab.get? t.streams j = Tab.get? s.streams j
  frame : t = { s with streams := t.streams }

theorem State.updStream_eq (s : State) (n : Nat) (f : StreamS → StreamS) : s.updStream n f = { s with streams := (s.updStream n f).streams } := by
  unfold State.updStream
  split <;> rfl

/-- A bound number's stream is what the table lists. -/
theorem State.get?_streamAt {s : State} {n : Nat} (h : Tab.has s.streams n = true) : Tab.get? s.streams n = some (s.streamAt n) := by
  obtain ⟨x, hx⟩ := Tab.has_eq_true.1 h
  rw [State.streamAt, Tab.getD, hx, Option.getD_some]

theorem State.streamAt_of_get? {s : State} {n : Nat} {x : StreamS} (h : Tab.get? s.streams n = some x) : s.streamAt n = x := by
  rw [State.streamAt, Tab.getD, h, Option.getD_some]

theorem StreamSet.updStream {s : State} {n : Nat} {x : StreamS} (f : StreamS → StreamS) (h : Tab.get? s.streams n = some x) :
    StreamSet n (f x) s (s.updStream n f) where
  here := by rw [State.get?_updStream, if_pos rfl, h, Option.map_some]
  others j hj := by rw [State.get?_updStream, if_neg hj]
  frame := s.updStream_eq n f

theorem StreamSet.trans {n : Nat} {x y : StreamS} {s t u : State} (h : StreamSet n x s t) (k : StreamSet n y t u) : StreamSet n y s u where
  here := k.here
  others j hj := (k.others j hj).trans (h.others j hj)
  frame := by rw [k.frame, h.frame]

theorem StreamSet.inPool {n : Nat} {x : StreamS} {s t : State} (h : StreamSet n x s t) (kind inst : Nat) : t.inPool kind inst = s.inPool kind inst := by
  rw [h.frame]
  rfl

/-- The stream settles after its change. -/
theorem StreamSet.settle {n : Nat} {x : StreamS} {s t : State} (h : StreamSet n x s t) :
    StreamSet n (x.settled (!s.inPool 2 0)) s (settleStream n t) := by
  have hsettled := StreamSet.updStream (StreamS.settled (!t.inPool 2 0)) h.here
  rw [h.inPool] at hsettled
  exact h.trans (settleStream_eq n t ▸ h.inPool 2 0 ▸ hsettled)

theorem StreamS.get?_updBuf {x : StreamS} {k : Nat} {b : FrameBuf} (f : FrameBuf → FrameBuf) (h : Tab.get? x.bufs k = some b) :
    Tab.get? (x.updBuf k f).bufs k = some (f b) := by
  rw [StreamS.updBuf, Tab.get?_upd, if_pos rfl, Tab.getD, h, Option.getD_some]

theorem StreamSet.updBuf {s : State} {n : Nat} {x : StreamS} (k : Nat) (f : FrameBuf → FrameBuf) (h : Tab.get? s.streams n = some x) :
    StreamSet n (x.updBuf k f) s (s.updBuf n k f) := .updStream (fun x => x.updBuf k f) h

/-- What a buffer of a settled stream holds. -/
theorem State.bufHolds_of_settled {t : State} {n k : Nat} {out : Bool} {x : StreamS} {b : FrameBuf} (h : Tab.get? t.streams n = some (x.settled out))
    (hout : out = !t.inPool 2 0) (hb : Tab.get? x.bufs k = some b) : t.bufHolds n k b := by
  rw [State.bufHolds, State.streamAt_of_get? h, ← hout]
  exact (x.settled_frees out).bufs k b hb

/-! ### One unit of work on a frame -/

/-- What a unit whose check passed changes: its stream, and the bookkeeping of the pools and of recoveries. -/
structure UnitStep (n : Nat) (x : StreamS) (s t : State) : Prop where
  here : Tab.get? t.streams n = some x
  others : ∀ j, j ≠ n → Tab.get? t.streams j = Tab.get? s.streams j
  frame : t = { s with streams := t.streams, power := t.power, events := t.events, tether := t.tether, free := t.free }

/-- A change of the stream once the unit's energy is spent. -/
theorem UnitStep.of_streamSet {n : Nat} {x : StreamS} {s u t : State} (h : StreamSet n x u t) (hu : u = { s with power := u.power, free := u.free }) :
    UnitStep n x s t where
  here := h.here
  others j hj := (h.others j hj).trans (by rw [hu])
  frame := by rw [h.frame, hu]

theorem UnitStep.recoveryEnd {n : Nat} {x : StreamS} {s t : State} (h : UnitStep n x s t) (id : Nat) : UnitStep n x s (t.recoveryEnd id) := by
  obtain ⟨-, -, hend⟩ := t.recoveryEnd_spec id
  have hstreams : (t.recoveryEnd id).streams = t.streams := by rw [hend]
  exact ⟨hstreams ▸ h.here, fun j hj => hstreams ▸ h.others j hj, by rw [hend, h.frame]⟩

/-- A unit whose check passes does its work once its energy is spent. -/
theorem engineUnit_step {n : Nat} {x : StreamS} {s u : State} {work : State → State} (kind inst stream unit : Nat)
    (h : StreamSet n x u (work (s.spend 16))) (hu : u = { s with power := u.power, free := u.free }) :
    UnitStep n x s (engineUnit kind inst stream unit false s work) :=
  (UnitStep.of_streamSet h hu).recoveryEnd (recUnit kind stream unit)

theorem UnitStep.inPool {n : Nat} {x : StreamS} {s t : State} (h : UnitStep n x s t) (kind inst : Nat) : t.inPool kind inst = s.inPool kind inst := by
  rw [h.frame]
  rfl

/-- An engine's row whose trigger holds does its unit. -/
theorem onTrigger_engineUnit {p : Bool} {n : Nat} {x : StreamS} {s u : State} {work : State → State} (kind inst stream unit : Nat) (hp : p = true)
    (h : StreamSet n x u (work (s.spend 16))) (hu : u = { s with power := u.power, free := u.free }) :
    ∃ t, onTrigger p s (engineUnit kind inst stream unit false · work) = .next t ∧ UnitStep n x s t :=
  ⟨_, onTrigger_fires s _ hp, engineUnit_step kind inst stream unit h hu⟩

/-- A unit of a bound stream that puts its result into the frame, and settles the stream. -/
theorem onTrigger_frameUnit {p : Bool} {s : State} {n k : Nat} {b b' : FrameBuf} (kind inst unit : Nat) (f : State → FrameBuf → FrameBuf) (hp : p = true)
    (hbuf : Tab.get? (s.streamAt n).bufs k = some b) (hbound : Tab.has s.streams n = true) (hf : f (s.spend 16) b = b') :
    ∃ t, onTrigger p s (engineUnit kind inst n unit false · fun s => settleStream n (s.updBuf n k (f s))) = .next t ∧ t.bufHolds n k b' ∧
      (∀ j, j ≠ n → Tab.get? t.streams j = Tab.get? s.streams j) ∧
      t = { s with streams := t.streams, power := t.power, events := t.events, tether := t.tether, free := t.free } := by
  subst hf
  have hspent : Tab.get? (s.spend 16).streams n = some (s.streamAt n) := State.get?_streamAt hbound
  have hset := (StreamSet.updBuf k (f (s.spend 16)) hspent).settle
  obtain ⟨t, ht, hstep⟩ := onTrigger_engineUnit (work := fun s => settleStream n (s.updBuf n k (f s))) kind inst n unit hp hset rfl
  exact ⟨t, ht, State.bufHolds_of_settled hstep.here (by rw [hstep.inPool]; rfl) (StreamS.get?_updBuf _ hbuf), hstep.others, hstep.frame⟩

/-! ### A unit whose check fails -/

theorem State.engineAt_raise (s : State) (code detail k : Nat) : (s.raise code detail).engineAt k = s.engineAt k := rfl

/-- The first failure of an engine within a day takes it out of its pool (R318). -/
theorem State.engineFails_first {s : State} {kind inst : Nat} (hkind : kind ≠ 2) (h : s.failedToday kind inst = false) :
    s.engineFails kind inst = ((s.updEngine (kind * 16 + inst) fun e => { e with lastFail := some s.age.opTicks }).updEngine (kind * 16 + inst)
      fun e => { e with out := true }).raise 0x8504 (kind * 4096 + inst * 256 + 1) := by
  simp only [State.engineFails, if_neg hkind, h, Bool.false_eq_true, if_false]

/-- Engine `inst` of a kind has left its pool, with event `e`, and no stream has changed. -/
structure EngineLeaves (kind inst : Nat) (e : Event) (s t : State) : Prop where
  streams : t.streams = s.streams
  out : (t.engineAt (kind * 16 + inst)).out = true
  retired : (t.engineAt (kind * 16 + inst)).retired = (s.engineAt (kind * 16 + inst)).retired
  others : ∀ j, j ≠ kind * 16 + inst → t.engineAt j = s.engineAt j
  events : t.events = s.events ++ [e]
  code : e.code = 0x8504
  detail : e.detail = BitVec.ofNat 16 (kind * 4096 + inst * 256 + 1)
  frame : t = { s with engines := t.engines, power := t.power, events := t.events, tether := t.tether, free := t.free }

theorem EngineLeaves.recoveryStart {kind inst : Nat} {e : Event} {s t : State} (h : EngineLeaves kind inst e s t) (id : Nat) :
    EngineLeaves kind inst e s (t.recoveryStart id) := by
  rw [State.recoveryStart_eq]
  exact ⟨h.streams, h.out, h.retired, h.others, h.events, h.code, h.detail, by rw [h.frame]⟩

theorem EngineLeaves.of_spent {kind inst : Nat} {e : Event} {s t : State} (h : EngineLeaves kind inst e (s.spend 16) t) :
    EngineLeaves kind inst e s t :=
  ⟨h.streams, h.out, h.retired, h.others, h.events, h.code, h.detail, by rw [h.frame]; rfl⟩

/-- An engine after its first failure within a day. -/
def EngineS.failed (t : Nat) (e : EngineS) : EngineS := { e with out := true, lastFail := some t }

theorem State.engineFails_leaves {s : State} {kind inst : Nat} (hkind : kind ≠ 2) (h : s.failedToday kind inst = false) :
    ∃ e, EngineLeaves kind inst e s (s.engineFails kind inst) := by
  have hfails := State.engineFails_first hkind h
  have hengine (j : Nat) : (s.engineFails kind inst).engineAt j =
      if j = kind * 16 + inst then (s.engineAt (kind * 16 + inst)).failed s.age.opTicks else s.engineAt j := by
    rw [hfails, State.engineAt_raise]
    simp only [State.engineAt_updEngine, if_true]
    split <;> rfl
  have hself := (hengine (kind * 16 + inst)).trans (if_pos rfl)
  refine ⟨{ code := BitVec.ofNat 16 0x8504, detail := BitVec.ofNat 16 (kind * 4096 + inst * 256 + 1), time := s.devTime },
    ?_, by rw [hself]; rfl, by rw [hself]; rfl, fun j hj => (hengine j).trans (if_neg hj), ?_, rfl, rfl, ?_⟩
  all_goals rw [hfails]; rfl

/-- A unit that fails so is discarded. -/
theorem engineUnit_fails {s : State} {kind inst : Nat} (stream unit : Nat) (work : State → State) (hkind : kind ≠ 2)
    (h : s.failedToday kind inst = false) : ∃ e, EngineLeaves kind inst e s (engineUnit kind inst stream unit true s work) := by
  obtain ⟨e, hleaves⟩ := State.engineFails_leaves (s := s.spend 16) hkind h
  exact ⟨e, (hleaves.recoveryStart _).of_spent⟩

/-! ### The statuses of a flow result (R310) -/

/-- What can end the iterations of a level: statuses 1 to 4. -/
def FlowRun.StatusOk (r : FlowRun) : Prop := ∀ st, r.status = some st → st ≤ 4

theorem FlowPair.blocked_le {v : FlowPair} {f : FeatCfg} {p : Int × Int} {st : Nat} (h : v.blocked f p = some st) : st ≤ 4 := by
  unfold FlowPair.blocked at h
  split at h
  · cases h; decide
  · split at h
    · cases h; decide
    · cases h

theorem FlowPair.iterate_statusOk (v : FlowPair) (f : FeatCfg) (n key : Nat) (guess : Int × Int) (k : Nat) (r : FlowRun) (hr : r.StatusOk) :
    (v.iterate f n key guess k r).StatusOk := by
  induction k generalizing r with
  | zero => exact fun _ h => FlowPair.blocked_le h
  | succ k ih =>
    unfold FlowPair.iterate
    split
    case h_1 st hst => rintro _ ⟨⟩; exact FlowPair.blocked_le hst
    case h_2 =>
      split
      · exact hr
      · split
        · rintro _ ⟨⟩; decide
        · extract_lets p q
          split
          · rintro _ ⟨⟩; decide
          · exact ih q hr

theorem trackFlow_statusOk (views : Nat → FlowView × FlowView) (f : FeatCfg) (key : Nat) (start guess : Int × Int) :
    (trackFlow views f key start guess).1.StatusOk := by
  unfold trackFlow
  extract_lets levels
  refine List.foldlRecOn levels _ (motive := fun a : FlowRun × Nat => a.1.StatusOk) (fun _ h => by cases h) fun a ha n _ => ?_
  split
  · exact ha
  · exact FlowPair.iterate_statusOk _ _ _ _ _ _ _ fun _ h => by cases h

/-- A result carries its point's ID; it is DROPPED, with no iteration, exactly where the hint says so. -/
theorem flowResult_status (views : Nat → FlowView × FlowView) (f : FeatCfg) (p : FlowPt) (free : Nat) :
    (flowResult views f p free).id = p.id ∧ (flowResult views f p free).status ≤ 8 ∧
      (bit p.hint 1 = true ↔ (flowResult views f p free).status = 8) ∧
      ((flowResult views f p free).status = 8 → (flowResult views f p free).iters = 0) := by
  unfold flowResult
  extract_lets start word open_ r scale res v sum area err found back
  by_cases hdrop : bit p.hint 1 = true
  · simp [hdrop]
  · have hres (st e : Nat) (hst : st < 8) : (res st e).id = p.id ∧ (res st e).status ≤ 8 ∧ (bit p.hint 1 = true ↔ (res st e).status = 8) ∧
        ((res st e).status = 8 → (res st e).iters = 0) := by
      have hid : (res st e).id = p.id ∧ (res st e).status = st := ⟨rfl, rfl⟩
      rw [hid.1, hid.2]
      exact ⟨rfl, hst.le, iff_of_false hdrop hst.ne, fun h => absurd h hst.ne⟩
    rw [if_neg hdrop]
    split
    case h_1 st hst => exact hres st _ (lt_of_le_of_lt (trackFlow_statusOk views f _ _ _ st hst) (by decide))
    case h_2 =>
      split
      · exact hres 5 err (by decide)
      · split
        · exact hres 6 err (by decide)
        · split
          · exact hres 0 err (by decide)
          · split
            · exact hres 7 err (by decide)
            · exact hres 0 err (by decide)

/-! ### Descriptor units and flow points -/

/-- What a descriptor unit stores for corner `c` of a frame of stream `n` (R297 to R301). -/
def State.describeCorner (s : State) (n : Nat) (b : FrameBuf) (c : Corner) : DescOut :=
  let w := b.descWork (s.descLevel n) c
  let o := if b.feat.descMode = 2 then (List.replicate 32 0, false) else describe (b.level b.feat.cornerLevel) (b.w b.feat.cornerLevel)
    (b.h b.feat.cornerLevel) (s.ctxAt (s.streamAt n).ctx).pattern w.bin c.x c.y
  let p := if b.feat.descMode < 2 then ([], false) else patchOf (b.virt w.level) (b.w w.level) (b.h w.level) b.g.u16 b.feat w.bin w.u w.v
  { bin := w.bin, desc := o.1, patch := p.1, hole := o.2 || p.2 }

section Describe

variable (s : State) (n : Nat) (b : FrameBuf) (c : Corner)

theorem State.describeCorner_bin : (s.describeCorner n b c).bin =
    orientBin (b.level b.feat.cornerLevel) (b.w b.feat.cornerLevel) (b.h b.feat.cornerLevel) c.x c.y := by
  rw [State.describeCorner, FrameBuf.descWork]

theorem State.describeCorner_desc : (s.describeCorner n b c).desc = if b.feat.descMode = 2 then List.replicate 32 0 else
    (describe (b.level b.feat.cornerLevel) (b.w b.feat.cornerLevel) (b.h b.feat.cornerLevel) (s.ctxAt (s.streamAt n).ctx).pattern
      (s.describeCorner n b c).bin c.x c.y).1 := by
  simp only [State.describeCorner, FrameBuf.descWork]
  split <;> rfl

theorem State.describeCorner_noPatch (h : b.feat.descMode < 2) : (s.describeCorner n b c).patch = [] := by
  rw [State.describeCorner, if_pos h]

theorem State.describeCorner_patch (h : 2 ≤ b.feat.descMode) {w : DescWork} (hw : w = b.descWork (s.descLevel n) c) :
    (s.describeCorner n b c).patch = (patchOf (b.virt w.level) (b.w w.level) (b.h w.level) b.g.u16 b.feat (s.describeCorner n b c).bin
      (atLevel c.x b.feat.cornerLevel w.level) (atLevel c.y b.feat.cornerLevel w.level)).1 := by
  subst hw
  simp only [State.describeCorner, FrameBuf.descWork, if_neg h.not_gt]

end Describe

section Frame

variable {s : State} {n i inst k : Nat} {b : FrameBuf} (hbuf : Tab.get? (s.streamAt n).bufs k = some b) (hbound : Tab.has s.streams n = true)
  (hpool : s.poolOk 16 = true)

include hbuf hbound hpool

theorem exec_descriptorUnit {c : Corner} (hnext : (s.streamAt n).descNext = some (k, b)) (hcorner : b.cornerAll[i]? = some c)
    (hfree : s.engineFree 4 inst = true) (hfirst : s.goesFirst descPending n = true) (hnew : Tab.has b.descs i = false)
    (hready : b.descReady (b.descWork (s.descLevel n) c) c = true) :
    ∃ t, exec (.descriptorUnit n i inst false) s = .next t ∧
      t.bufHolds n k { b with state := .held, patchLevel := some (b.descWork (s.descLevel n) c).level, descs := Tab.put b.descs i (s.describeCorner n b c) } ∧
      (∀ j, j ≠ n → Tab.get? t.streams j = Tab.get? s.streams j) ∧
      t = { s with streams := t.streams, power := t.power, events := t.events, tether := t.tether, free := t.free } := by
  change ∃ t, execDescriptorUnit n i inst false s = .next t ∧ _
  rw [execDescriptorUnit, hnext]
  simp only [hcorner]
  exact onTrigger_frameUnit 4 inst i _ (by simp [hfree, hpool, hnew, hready, hfirst]) hbuf hbound rfl

theorem exec_flowPoint {prev : FrameBuf} {p : FlowPt} (hnext : (s.streamAt n).flowNext = some (k, b, prev))
    (hpoint : (s.streamAt n).flowPoint b = some (i, p)) (hfree : s.engineFree 5 inst = true) (hfirst : s.goesFirst flowPending n = true)
    (hrows : b.flowRows p = true) :
    ∃ t, exec (.flowPoint n i inst false) s = .next t ∧
      Tab.get? (t.streamAt n).bufs k = some { b with state := .held, flowPair := some (s.streamAt n).pointsSet,
                                                     flow := Tab.put b.flow i (flowResult (flowViews prev b) b.feat p (s.spend 16).free) } ∧
      (∀ j, j ≠ n → Tab.get? t.streams j = Tab.get? s.streams j) ∧
      t = { s with streams := t.streams, power := t.power, events := t.events, tether := t.tether, free := t.free } := by
  have hspent : Tab.get? (s.spend 16).takeFree.2.streams n = some (s.streamAt n) := State.get?_streamAt hbound
  have hexec : ∃ t, exec (.flowPoint n i inst false) s = .next t ∧ UnitStep n ((s.streamAt n).updBuf k fun b => { b with
      state := .held, flowPair := some (s.streamAt n).pointsSet,
      flow := Tab.put b.flow i (flowResult (flowViews prev b) b.feat p (s.spend 16).free) }) s t := by
    change ∃ t, execFlowPoint n i inst false s = .next t ∧ _
    simp only [execFlowPoint, hnext, hpoint]
    exact onTrigger_engineUnit (u := (s.spend 16).takeFree.2) 5 inst n i (by simp [hfree, hpool, hrows, hfirst]) (.updBuf k _ hspent) rfl
  obtain ⟨t, hexec, hstep⟩ := hexec
  refine ⟨t, hexec, ?_, hstep.others, hstep.frame⟩
  rw [State.streamAt_of_get? hstep.here]
  exact StreamS.get?_updBuf _ hbuf

end Frame

/-! ### The obligation -/

/-- Settles O20: a unit that passes is one `onTrigger_frameUnit` (a flow point, which settles no stream, one `onTrigger_engineUnit`), and a failing
remap unit is `engineUnit_fails`. -/
theorem engineUnitsExtendTheFrame : Obligations.EngineUnitsExtendTheFrame := by
  unfold Obligations.EngineUnitsExtendTheFrame
  refine ⟨?remap, ?remapFails, ?pyramid, ?corner, ?descriptor, ?flow⟩
  case remap =>
    intro s n row inst k b b' hnext hbuf hbound hfree hpool hfirst hrow hlines hb'
    change ∃ t, execRemapCellRow n row inst false s = .next t ∧ _
    rw [execRemapCellRow, hnext]
    exact onTrigger_frameUnit 0 inst row _ (by simp [hfree, hpool, hrow, hlines, hfirst]) hbuf hbound hb'.symm
  case remapFails =>
    intro s n row inst k b hnext hfree hpool hfirst hrow hlines hfails
    change ∃ t e, execRemapCellRow n row inst true s = .next t ∧ _
    rw [execRemapCellRow, hnext]
    obtain ⟨e, hstreams, hout, hretired, hothers, hevents, hcode, hdetail, hframe⟩ := engineUnit_fails n row _ (by decide) hfails
    simp only [Nat.zero_mul, Nat.zero_add] at hout hretired hothers hdetail
    exact ⟨_, e, onTrigger_fires s _ (by simp [hfree, hpool, hrow, hlines, hfirst]), hstreams, hout, hretired, hothers, hevents, hcode, hdetail, hframe⟩
  case pyramid =>
    intro s n level row inst k b b' hnext hbuf hbound hfree hpool hlevel hfirst hrow hread hb'
    change ∃ t, execPyramidRow n level row inst false s = .next t ∧ _
    rw [execPyramidRow, hnext]
    exact onTrigger_frameUnit 1 inst (level * 65536 + row) _ (by simp [hfree, hpool, hlevel, hrow, hread, hfirst]) hbuf hbound hb'.symm
  case corner =>
    intro s n row inst k q b b' hnext hbuf hbound hfree hpool hfirst hrow hlines hq hb'
    subst hq
    have hready : b.hasRows b.feat.cornerLevel b.cornerLines = true := by rw [FrameBuf.cornerLines, hrow]; exact hlines
    change ∃ t, execCornerCellRow n row inst false s = .next t ∧ _
    rw [execCornerCellRow, hnext]
    exact onTrigger_frameUnit 3 inst row _ (by simp [hfree, hpool, hrow, hready, hfirst]) hbuf hbound hb'.symm
  case descriptor =>
    intro s n i inst k b c w hnext hbuf hbound hcorner hfree hpool hfirst hnew hw hready
    subst hw
    obtain ⟨t, hexec, hholds, hothers, hframe⟩ := exec_descriptorUnit hbuf hbound hpool hnext hcorner hfree hfirst hnew hready
    exact ⟨t, _, s.describeCorner n b c, hexec, hholds, rfl, rfl, s.describeCorner_bin n b c, s.describeCorner_desc n b c,
      s.describeCorner_noPatch n b c, fun hpatch => s.describeCorner_patch n b c hpatch rfl, hothers, hframe⟩
  case flow =>
    intro s n i inst k b prev p hnext hbuf hbound hpoint hfree hpool hfirst hrows
    obtain ⟨r, hr⟩ : ∃ r, r = flowResult (flowViews prev b) b.feat p (s.spend 16).free := ⟨_, rfl⟩
    obtain ⟨t, hexec, hholds, hothers, hframe⟩ := exec_flowPoint hbuf hbound hpool hnext hpoint hfree hfirst hrows
    have hstatus := flowResult_status (flowViews prev b) b.feat p (s.spend 16).free
    rw [← hr] at hstatus hholds
    obtain ⟨hid, hle, hdropped, hiters⟩ := hstatus
    exact ⟨t, _, r, _, hexec, hholds, hr, hid, hle, hdropped, hiters, rfl, hothers, hframe⟩

end Sys2Proof.Machine

/-! ## Vision: stereo strips and feature blocks -/

namespace Sys2Proof.Machine

/-! ### Disparity codes (R271 to R275) -/

theorem toNat_clampInt_le (hi : Nat) (x : Int) : (clampInt 0 hi x).toNat ≤ hi := by
  unfold clampInt
  split
  · exact Nat.zero_le _
  · split <;> omega

/-- A disparity is a value or one of the five special codes of Table 6-5. -/
theorem Views.disparity_code (v : Views) (c : PairCfg) (x y : Nat) :
    v.disparity c x y ≤ 0xFFF ∨ (0xFFFB ≤ v.disparity c x y ∧ v.disparity c x y ≤ 0xFFFF) := by
  have hspecial : ∀ code, 0xFFFB ≤ code → code ≤ 0xFFFF → code ≤ 0xFFF ∨ (0xFFFB ≤ code ∧ code ≤ 0xFFFF) := fun code hlo hhi => .inr ⟨hlo, hhi⟩
  unfold Views.disparity
  extract_lets costs sums
  split
  case h_1 => exact hspecial 0xFFFF (by decide) (by decide)
  case h_2 k _ =>
    extract_lets d
    split
    case isTrue => exact hspecial 0xFFFF (by decide) (by decide)
    split
    case isTrue => exact hspecial 0xFFFB (by decide) (by decide)
    split
    case isTrue => exact hspecial 0xFFFD (by decide) (by decide)
    split
    case isTrue => exact hspecial 0xFFFE (by decide) (by decide)
    split
    case isTrue => exact hspecial 0xFFFC (by decide) (by decide)
    case isFalse => exact .inl (toNat_clampInt_le 0xFFF _)

/-! ### What a strip changes -/

/-- What the steps of a strip leave: the left stream `l` is `x`, the right stream `r` may have changed, and the tile stores have changed only where the
lines are copied. -/
structure StripStep (l r : Nat) (copied : Bool) (x : StreamS) (s t : State) : Prop where
  here : Tab.get? t.streams l = some x
  others : ∀ j, j ≠ l → j ≠ r → Tab.get? t.streams j = Tab.get? s.streams j
  tiles : copied = false → t.tiles = s.tiles
  frame : t = { s with streams := t.streams, ctxs := t.ctxs, power := t.power, tiles := t.tiles, events := t.events, tether := t.tether, free := t.free }

namespace StripStep

variable {l r : Nat} {copied : Bool} {x : StreamS} {s t u : State}

theorem refl (hl : Tab.get? s.streams l = some x) : StripStep l r copied x s s := ⟨hl, fun _ _ _ => rfl, fun _ => rfl, rfl⟩

/-- A step that changes no stream. -/
theorem keeps (h : StripStep l r copied x s t) (htiles : copied = false → u.tiles = t.tiles)
    (hu : u = { t with ctxs := u.ctxs, power := u.power, tiles := u.tiles, events := u.events, tether := u.tether, free := u.free }) :
    StripStep l r copied x s u where
  here := by rw [hu]; exact h.here
  others j hjl hjr := by rw [hu]; exact h.others j hjl hjr
  tiles hcopied := (htiles hcopied).trans (h.tiles hcopied)
  frame := by rw [hu, h.frame]

theorem onLeft (h : StripStep l r copied x s t) (f : StreamS → StreamS) : StripStep l r copied (f x) s (t.updStream l f) := by
  have hset := StreamSet.updStream f h.here
  exact ⟨hset.here, fun j hjl hjr => (hset.others j hjl).trans (h.others j hjl hjr),
    fun hcopied => (congrArg State.tiles hset.frame).trans (h.tiles hcopied), by rw [hset.frame, h.frame]⟩

theorem onRight (h : StripStep l r copied x s t) (hlr : l ≠ r) (f : StreamS → StreamS) : StripStep l r copied x s (t.updStream r f) := by
  have hget (j : Nat) (hj : j ≠ r) : Tab.get? (t.updStream r f).streams j = Tab.get? t.streams j := by rw [State.get?_updStream, if_neg hj]
  have hframe := t.updStream_eq r f
  exact ⟨(hget l hlr).trans h.here, fun j hjl hjr => (hget j hjr).trans (h.others j hjl hjr),
    fun hcopied => (congrArg State.tiles hframe).trans (h.tiles hcopied), by rw [hframe, h.frame]⟩

theorem onLeftBuf (h : StripStep l r copied x s t) (k : Nat) (f : FrameBuf → FrameBuf) : StripStep l r copied (x.updBuf k f) s (t.updBuf l k f) :=
  h.onLeft fun x => x.updBuf k f

theorem onRightBuf (h : StripStep l r copied x s t) (hlr : l ≠ r) (k : Nat) (f : FrameBuf → FrameBuf) : StripStep l r copied x s (t.updBuf r k f) :=
  h.onRight hlr fun x => x.updBuf k f

theorem inPool (h : StripStep l r copied x s t) (kind inst : Nat) : t.inPool kind inst = s.inPool kind inst := by
  rw [h.frame]
  rfl

theorem settleLeft (h : StripStep l r copied x s t) : StripStep l r copied (x.settled (!s.inPool 2 0)) s (settleStream l t) := by
  rw [settleStream_eq, h.inPool]
  exact h.onLeft _

theorem settleRight (h : StripStep l r copied x s t) (hlr : l ≠ r) : StripStep l r copied x s (settleStream r t) := h.onRight hlr _

theorem updPairCfg (h : StripStep l r copied x s t) (n p : Nat) (f : PairCfg → PairCfg) : StripStep l r copied x s (t.updPairCfg n p f) := by
  unfold State.updPairCfg
  split
  · exact h.keeps (fun _ => rfl) rfl
  · exact h

theorem spend (h : StripStep l r copied x s t) : StripStep l r copied x s (t.spend 16) := h.keeps (fun _ => rfl) rfl

theorem recoveryEnd (h : StripStep l r copied x s t) (id : Nat) : StripStep l r copied x s (t.recoveryEnd id) := by
  obtain ⟨-, -, hend⟩ := t.recoveryEnd_spec id
  exact h.keeps (fun _ => by rw [hend]) (by rw [hend])

end StripStep

theorem copyTile_eq (n what row : Nat) (bytes : List Byte) (s : State) :
    copyTile n what row bytes s = { s with tiles := (copyTile n what row bytes s).tiles } := by
  unfold copyTile
  split <;> rfl

/-- Copies into tile stores change those alone. -/
theorem forEach_copyTile_eq {α : Type} (n what : Nat) (row : α → Nat) (bytes : α → List Byte) (l : List α) (s : State) :
    forEach l (fun a s => copyTile n what (row a) (bytes a) s) s =
      { s with tiles := (forEach l (fun a s => copyTile n what (row a) (bytes a) s) s).tiles } :=
  forEach_keeps (P := fun t => t = { s with tiles := t.tiles }) l _ (fun a _ t ht => by rw [copyTile_eq, ht]) rfl

/-! ### One strip -/

namespace StripStep

variable {l r : Nat} {copied : Bool} {x : StreamS} {s t : State}

/-- The copies of COPY_TILE (R262). -/
theorem copies {α : Type} (h : StripStep l r copied x s t) (n what : Nat) (row : α → Nat) (bytes : α → List Byte) (rows : List α) :
    StripStep l r copied x s (if copied = true then forEach rows (fun a s => copyTile n what (row a) (bytes a) s) t else t) := by
  cases copied with
  | false => exact h
  | true => exact h.keeps (fun hcopied => absurd hcopied (by decide)) (by rw [if_pos rfl, forEach_copyTile_eq])

end StripStep

/-- The left frame as the first strip of its frame set takes it. -/
def PairWork.takenFrame (w : PairWork) (b : FrameBuf) : FrameBuf :=
  { b with stereo := 1, state := .held,
           disp := some { level := w.level, minDisp := w.cfg.minDisp, numDisp := w.cfg.numDisp, gridLeft := w.bl.gridVersion, gridRight := w.br.gridVersion } }

/-- The left stream of a pair at a strip: the first strip of a frame set takes the frame (R262, R263). -/
def PairWork.startedLeft (w : PairWork) (strip : Nat) (x : StreamS) : StreamS := if strip = 0 then x.updBuf w.kl w.takenFrame else x

theorem StripStep.start {copied : Bool} {x : StreamS} {s : State} (w : PairWork) (ctx p strip : Nat) (hl : Tab.get? s.streams w.cfg.left = some x)
    (hlr : w.cfg.left ≠ w.cfg.right) : StripStep w.cfg.left w.cfg.right copied (w.startedLeft strip x) s
      (if strip = 0 then startPair ctx p w.kl w.kr w.level w.cfg w.bl w.br s else s) := by
  unfold PairWork.startedLeft
  split
  · exact (((StripStep.refl hl).updPairCfg ctx p _).onRightBuf hlr w.kr _).onLeftBuf w.kl _
  · exact .refl hl

/-- What the left frame holds at a strip: the image of its frame set. -/
theorem PairWork.startedLeft_buf {w : PairWork} {strip : Nat} {x : StreamS} (hbuf : Tab.get? x.bufs w.kl = some w.bl)
    (hdisp : strip ≠ 0 → w.bl.disp.isSome = true) :
    ∃ b d, Tab.get? (w.startedLeft strip x).bufs w.kl = some b ∧ b.disp = some d ∧
      (strip = 0 → d.level = w.level ∧ d.minDisp = w.cfg.minDisp ∧ d.numDisp = w.cfg.numDisp ∧ d.gridLeft = w.bl.gridVersion ∧
        d.gridRight = w.br.gridVersion) := by
  unfold PairWork.startedLeft
  split
  case isTrue => exact ⟨_, _, StreamS.get?_updBuf _ hbuf, rfl, fun _ => ⟨rfl, rfl, rfl, rfl, rfl⟩⟩
  case isFalse hlater =>
    obtain ⟨d, hd⟩ := Option.isSome_iff_exists.1 (hdisp hlater)
    exact ⟨_, d, hbuf, hd, fun hfirst => absurd hfirst hlater⟩

/-- The frame once lines `rows` stand in its disparity image. -/
def FrameBuf.withDisp (rows : Tab (List Nat)) (b : FrameBuf) : FrameBuf := { b with disp := b.disp.map fun d => { d with rows := rows } }

/-- The frame once its match has ended with image `rows` (R277). -/
def FrameBuf.matched (rows : Tab (List Nat)) (b : FrameBuf) : FrameBuf :=
  { b with stereo := 2, disp := b.disp.map fun d => { d with rows := rows, codes := codeCounts rows } }

theorem FrameBuf.withDisp_disp {b : FrameBuf} {d : DispImage} (rows : Tab (List Nat)) (h : b.disp = some d) :
    (b.withDisp rows).disp = some { d with rows := rows } := by
  simp only [FrameBuf.withDisp, h, Option.map_some]

theorem FrameBuf.matched_disp {b : FrameBuf} {d : DispImage} (rows : Tab (List Nat)) (h : b.disp = some d) :
    (b.matched rows).disp = some { d with rows := rows, codes := codeCounts rows } := by
  simp only [FrameBuf.matched, h, Option.map_some]

section Strip

variable {s : State} {ctx p strip : Nat} {w : PairWork} {v : Views} {rows : Tab (List Nat)} (hwork : stereoWork s ctx p = some w)
  (hbound : Tab.has s.streams w.cfg.left = true) (hlr : w.cfg.left ≠ w.cfg.right) (hready : w.ready = true) (hstrip : w.strip = strip)
  (hfree : s.engineFree 2 0 = true) (hpool : s.poolOk 16 = true) (hfirst : s.goesFirst stereoPending w.cfg.left = true)
  (hv : v = { left := w.bl.level w.level, right := w.br.level w.level, w := w.bl.w w.level, h := w.bl.h w.level })
  (hrows : rows = (if strip = 0 then [] else (w.bl.disp.getD {}).rows) ++ (List.range (min 8 (v.h - 8 * strip))).map (fun i =>
    (8 * strip + i, (List.range v.w).map fun u => v.disparity w.cfg u (8 * strip + i))))

include hwork hbound hlr hready hstrip hfree hpool hfirst hv hrows

theorem exec_stereoStrip_more (hmore : 8 * strip + 8 < v.h) : ∃ t, exec (.stereoStrip ctx p strip false) s = .next t ∧
    StripStep w.cfg.left w.cfg.right (bit w.cfg.flags 1) ((w.startedLeft strip (s.streamAt w.cfg.left)).updBuf w.kl (FrameBuf.withDisp rows)) s t := by
  change ∃ t, execStereoStrip ctx p strip false s = .next t ∧ _
  rw [execStereoStrip, hwork]
  refine ⟨_, onTrigger_fires s _ (by simp [hfree, hpool, hready, hstrip, hfirst]), StripStep.recoveryEnd ?_ _⟩
  have hstart := StripStep.start (copied := bit w.cfg.flags 1) w ctx p strip (State.get?_streamAt hbound) hlr
  subst hv hrows
  show StripStep _ _ _ _ _ (ite _ _ _)
  rw [if_neg hmore.not_ge]
  exact (hstart.spend.onLeftBuf w.kl _).copies ctx 1 _ _ _

theorem exec_stereoStrip_last (hlast : v.h ≤ 8 * strip + 8) {image : Tab (List Nat)} (himage : image = if bit w.cfg.flags 0 then medianImage rows else rows) :
    ∃ t, exec (.stereoStrip ctx p strip false) s = .next t ∧
    StripStep w.cfg.left w.cfg.right (bit w.cfg.flags 1)
      ((((w.startedLeft strip (s.streamAt w.cfg.left)).updBuf w.kl (FrameBuf.withDisp rows)).updBuf w.kl (FrameBuf.matched image)).settled
        (!s.inPool 2 0)) s t := by
  change ∃ t, execStereoStrip ctx p strip false s = .next t ∧ _
  rw [execStereoStrip, hwork]
  refine ⟨_, onTrigger_fires s _ (by simp [hfree, hpool, hready, hstrip, hfirst]), StripStep.recoveryEnd ?_ _⟩
  have hstart := StripStep.start (copied := bit w.cfg.flags 1) w ctx p strip (State.get?_streamAt hbound) hlr
  subst hv hrows himage
  show StripStep _ _ _ _ _ (ite _ _ _)
  rw [if_pos hlast]
  exact (((((hstart.spend.onLeftBuf w.kl _).onLeftBuf w.kl _).copies ctx 1 _ _ _).onRightBuf hlr w.kr _).updPairCfg ctx p _).settleLeft.settleRight hlr

end Strip

/-! ### Where a pair starts a frame set (R262, R263, R279) -/

/-- The frame that an engine takes satisfies what it is looked for by. -/
theorem StreamS.oldest_some {x : StreamS} {p : FrameBuf → Bool} {k : Nat} {b : FrameBuf} (h : x.oldest p = some (k, b)) : p b = true := by
  have hmem := (List.mem_filter.1 (mem_sortBy.1 (List.mem_of_mem_head? h))).2
  exact (Bool.and_eq_true_iff.1 hmem).2

/-- Nothing is found where no frame satisfies the test. -/
theorem StreamS.oldest_none {x : StreamS} {p : FrameBuf → Bool} (h : ∀ b, p b = false) : x.oldest p = none := by
  simp [StreamS.oldest, h, sortBy]

/-- Without a frame set under way a pair takes the configuration that waits, and latches the level of its session. -/
theorem stereoWork_starts {s : State} {ctx p : Nat} {c : PairCfg} {x : SessionS} {w : PairWork} (hcfg : s.pairCfgAt ctx p = some c)
    (hidle : c.frameSet = none) (hsession : s.sessionAt ctx = some x) (hwork : stereoWork s ctx p = some w) :
    w.strip = 0 ∧ w.cfg = (if c.next = [] then c else c.ofBytes c.next) ∧ w.br.frameSet = w.bl.frameSet ∧
      w.level = matchedLevel (x.level 0) x.lowStereo w.bl.chain.levelMask w.br.chain.levelMask := by
  have hnone : ∀ st, (s.streamAt c.left).oldest (fun b => b.begun && b.stereo == st && c.frameSet == some b.frameSet) = none :=
    fun st => StreamS.oldest_none fun b => by simp [hidle]
  simp only [stereoWork, hcfg, hnone, hsession, Option.getD_some, Option.map_eq_some_iff] at hwork
  obtain ⟨⟨kl, bl, kr, br⟩, hpick, rfl⟩ := hwork
  refine ⟨rfl, by simp, ?_, rfl⟩
  split at hpick
  · cases hpick
  · obtain ⟨e, he, heq⟩ := Option.map_eq_some_iff.1 hpick
    obtain ⟨-, rfl, -, rfl⟩ := heq
    have hsame := StreamS.oldest_some he
    simpa using (Bool.and_eq_true_iff.1 hsame).2

/-! ### What the end of a feature block changes -/

/-- What the steps of FEATURE_BLOCK_DONE leave: stream `n` is `x`, the events `raised` have been raised, and the tile stores have changed only where the
patches are copied. -/
structure BlockStep (n : Nat) (copied : Bool) (x : StreamS) (raised : List Event) (s t : State) : Prop where
  here : Tab.get? t.streams n = some x
  others : ∀ j, j ≠ n → Tab.get? t.streams j = Tab.get? s.streams j
  tiles : copied = false → t.tiles = s.tiles
  events : t.events = s.events ++ raised
  frame : t = { s with streams := t.streams, tiles := t.tiles, events := t.events, tether := t.tether }

namespace BlockStep

variable {n : Nat} {copied : Bool} {x : StreamS} {raised : List Event} {s t : State}

theorem copies {α : Type} (hn : Tab.get? s.streams n = some x) (ctx what : Nat) (row : α → Nat) (bytes : α → List Byte) (rows : List α) :
    BlockStep n copied x [] s (if copied = true then forEach rows (fun a s => copyTile ctx what (row a) (bytes a) s) s else s) := by
  cases copied with
  | false => exact ⟨hn, fun _ _ => rfl, fun _ => rfl, (List.append_nil _).symm, rfl⟩
  | true =>
    rw [if_pos rfl, forEach_copyTile_eq]
    exact ⟨hn, fun _ _ => rfl, fun hcopied => absurd hcopied (by decide), (List.append_nil _).symm, rfl⟩

theorem onStream {y : StreamS} {u : State} (h : BlockStep n copied x raised s t) (k : StreamSet n y t u) : BlockStep n copied y raised s u where
  here := k.here
  others j hj := (k.others j hj).trans (h.others j hj)
  tiles hcopied := (congrArg State.tiles k.frame).trans (h.tiles hcopied)
  events := (congrArg State.events k.frame).trans h.events
  frame := by rw [k.frame, h.frame]

theorem raises (h : BlockStep n copied x [] s t) (ctx code detail : Nat) :
    ∃ e, e.code = BitVec.ofNat 16 code ∧ BlockStep n copied x [e] s (t.raiseCtx ctx code detail) := by
  refine ⟨{ code := BitVec.ofNat 16 code, detail := BitVec.ofNat 16 detail, ctx := some ctx, mask := BitVec.ofNat 8 (2 ^ ctx), time := t.devTime }, rfl,
    h.here, h.others, h.tiles, ?_, ?_⟩
  · exact congrArg (· ++ _) (h.events.trans (List.append_nil _))
  · rw [State.raiseCtx, State.raiseEvent, h.frame]

theorem inPool (h : BlockStep n copied x raised s t) (kind inst : Nat) : t.inPool kind inst = s.inPool kind inst := by
  rw [h.frame]
  rfl

theorem settle (h : BlockStep n copied x raised s t) : BlockStep n copied (x.settled (!s.inPool 2 0)) raised s (settleStream n t) := by
  rw [settleStream_eq, h.inPool]
  exact h.onStream (.updStream _ h.here)

end BlockStep

/-! ### FEATURE_BLOCK_DONE -/

/-- The frame `b` of stream `x` once its feature block has closed (R295, R302, R312). -/
def StreamS.closedFrame (x : StreamS) (b : FrameBuf) (descs : Tab DescOut) (c : FrameBuf) : FrameBuf :=
  { c with corners := Tab.mapVals c.corners fun _ r => r.filter (cornerList (b.quota.getD 0) b.corners).contains, descs := descs, done := some c.frameSet,
           pairedSet := if b.usesFlow && x.paired b then x.pointsSet.getD 0xFFFFFFFF else 0xFFFFFFFF }

/-- Stream `y` with the point list that frame `b` of `x` in buffer `k` closes (R303 to R305). -/
def StreamS.closedPoints (x : StreamS) (k : Nat) (b : FrameBuf) (y : StreamS) : StreamS :=
  let l := buildPoints b.feat b.flow (cornerList (b.quota.getD 0) b.corners) x.flowId
  { y with points := l.1, flowId := l.2, pointsSet := some b.frameSet, pointsFrame := b.frame, prevBuf := some k }

/-- Only corners that QUOTA keeps are left. -/
theorem StreamS.mem_closedFrame {x : StreamS} {b : FrameBuf} {descs : Tab DescOut} {c : Corner} (h : c ∈ (x.closedFrame b descs b).cornerAll) :
    c ∈ cornerList (b.quota.getD 0) b.corners := by
  simp only [StreamS.closedFrame, FrameBuf.cornerAll, Tab.mapVals, List.mem_flatMap, List.mem_map] at h
  obtain ⟨-, ⟨r, -, rfl⟩, hc⟩ := h
  exact List.contains_iff_mem.1 (List.mem_filter.1 hc).2

/-- The descriptors of the corners that QUOTA keeps, in their order (R295, R302). -/
def FrameBuf.keptDescs (b : FrameBuf) : Tab DescOut :=
  let idx := (List.range b.cornerAll.length).filter fun i => match b.cornerAll[i]? with
    | some c => (cornerList (b.quota.getD 0) b.corners).contains c
    | none => false
  idx.zipIdx.filterMap fun e => (Tab.get? b.descs e.1).map fun d => (e.2, d)

/-- Once every list of the oldest frame is complete, its block closes, with its point list where flow runs. -/
theorem exec_featureBlockDone {s : State} {n k : Nat} {b : FrameBuf} (hbound : Tab.has s.streams n = true)
    (hnext : (s.streamAt n).oldest (fun b => b.featWanted && b.done.isNone) = some (k, b))
    (hready : (b.complete && b.levelsDone && b.cornersDone && (!b.usesDescs || decide (b.cornerAll.length ≤ b.descs.length)) &&
      (!(b.usesFlow && (s.streamAt n).paired b) || decide ((s.streamAt n).points.length ≤ b.flow.length))) = true) :
    ∃ u, BlockStep n (bit b.feat.patchFlags 2) ((s.streamAt n).updBuf k ((s.streamAt n).closedFrame b b.keptDescs)) [] s u ∧
      exec (.featureBlockDone n) s = .next (settleStream n (if b.usesFlow = true then
          if (b.usesFlow && (s.streamAt n).paired b) = true then u.updStream n ((s.streamAt n).closedPoints k b)
          else (u.updStream n ((s.streamAt n).closedPoints k b)).raiseCtx (s.streamAt n).ctx 0x8503
            (n * 256 + min 255 (b.frame - (s.streamAt n).pointsFrame))
        else u)) := by
  have hcopied := BlockStep.copies (copied := bit b.feat.patchFlags 2) (State.get?_streamAt hbound) (s.streamAt n).ctx 0
    (fun e : Nat × DescOut => e.1 * ceilDiv (b.feat.patchEdge * b.feat.patchEdge) 256) (fun e => patchBytes e.2) b.keptDescs
  refine ⟨_, hcopied.onStream (.updBuf k ((s.streamAt n).closedFrame b b.keptDescs) hcopied.here), ?_⟩
  change execFeatureBlockDone n s = _
  rw [execFeatureBlockDone, hnext]
  exact onTrigger_fires s _ hready

/-- Where flow runs the block's end closes the point list; without an earlier frame to pair with it raises FLOW_RESTARTED (R303). -/
theorem BlockStep.flowEnds {s u : State} {n k : Nat} {copied : Bool} {x y : StreamS} {b : FrameBuf} {o : Out} {code detail : Nat}
    (h : BlockStep n copied y [] s u) (ho : o = .next (settleStream n (if b.usesFlow = true then
        if (b.usesFlow && x.paired b) = true then u.updStream n (x.closedPoints k b)
        else (u.updStream n (x.closedPoints k b)).raiseCtx x.ctx code detail
      else u))) (hflow : b.usesFlow = true) :
    ∃ t raised, o = .next t ∧ BlockStep n copied ((x.closedPoints k b y).settled (!s.inPool 2 0)) raised s t ∧
      (x.paired b = false → ∃ e, raised = [e] ∧ e.code = BitVec.ofNat 16 code) := by
  have hlisted := h.onStream (.updStream (x.closedPoints k b) h.here)
  rw [if_pos hflow, hflow, Bool.true_and] at ho
  by_cases hpaired : x.paired b = true
  · rw [if_pos hpaired] at ho
    exact ⟨_, _, ho, hlisted.settle, fun hlone => absurd (hlone.symm.trans hpaired) (by decide)⟩
  · rw [if_neg hpaired] at ho
    obtain ⟨e, hcode, hraised⟩ := hlisted.raises x.ctx code detail
    exact ⟨_, _, ho, hraised.settle, fun _ => ⟨e, rfl, hcode⟩⟩

/-! ### The obligation -/

/-- What every closed block shows, whether flow runs or not. -/
theorem BlockStep.closed {s t : State} {n k : Nat} {copied : Bool} {x y : StreamS} {b : FrameBuf} {descs : Tab DescOut} {raised : List Event}
    (h : BlockStep n copied (y.settled (!s.inPool 2 0)) raised s t) (hb : Tab.get? y.bufs k = some (x.closedFrame b descs b)) :
    t.bufHolds n k (x.closedFrame b descs b) ∧ t.streamAt n = { y with bufs := (t.streamAt n).bufs, clock := (t.streamAt n).clock } ∧
      t = { s with streams := t.streams, ctxs := t.ctxs, tiles := t.tiles, events := t.events, tether := t.tether } := by
  refine ⟨State.bufHolds_of_settled h.here (by rw [h.inPool]) hb, ?_, by rw [h.frame]⟩
  rw [State.streamAt_of_get? h.here]
  exact (y.settled_frees _).frame

/-- Settles O21: `exec_stereoStrip_more` and `exec_stereoStrip_last` for the strips, `stereoWork_starts` for the latches, `exec_featureBlockDone` for the
blocks. -/
theorem stereoStripsAndFeatureBlocksComplete : Obligations.StereoStripsAndFeatureBlocksComplete := by
  unfold Obligations.StereoStripsAndFeatureBlocksComplete
  refine ⟨Views.disparity_code, ?strip, ?starts, ?block⟩
  case starts => exact fun s ctx p c x hcfg hidle hsession w hwork => stereoWork_starts hcfg hidle hsession hwork
  case strip =>
    intro s ctx p strip lv c w bl br v rows hwork hc hbl hbr hlv hbuf hbound hlr hready hstrip hdisp hfree hpool hfirst hv hrows
    subst hc hbl hbr hlv
    obtain ⟨b, d, hb, hd, htaken⟩ := PairWork.startedLeft_buf (strip := strip) hbuf hdisp
    by_cases hlast : v.h ≤ 8 * strip + 8
    · obtain ⟨t, hexec, hstep⟩ := exec_stereoStrip_last hwork hbound hlr hready hstrip hfree hpool hfirst hv hrows hlast rfl
      have hholds := State.bufHolds_of_settled hstep.here (by rw [hstep.inPool])
        (StreamS.get?_updBuf (FrameBuf.matched _) (StreamS.get?_updBuf (FrameBuf.withDisp rows) hb))
      refine ⟨t, _, _, hexec, hholds, FrameBuf.matched_disp _ (FrameBuf.withDisp_disp rows hd), fun hmore => absurd hlast hmore.not_ge,
        fun _ => ⟨rfl, rfl, rfl⟩, htaken, hstep.others, hstep.tiles, hstep.frame⟩
    · obtain ⟨t, hexec, hstep⟩ := exec_stereoStrip_more hwork hbound hlr hready hstrip hfree hpool hfirst hv hrows (Nat.lt_of_not_le hlast)
      have hholds : t.bufHolds w.cfg.left w.kl (b.withDisp rows) := .inl (by
        rw [State.streamAt_of_get? hstep.here]
        exact StreamS.get?_updBuf (FrameBuf.withDisp rows) hb)
      exact ⟨t, _, _, hexec, hholds, FrameBuf.withDisp_disp rows hd, fun _ => rfl, fun hend => absurd hend hlast, htaken, hstep.others, hstep.tiles,
        hstep.frame⟩
  case block =>
    intro s n k b hbuf hbound hnext hcomplete hlevels hcorners hdescs hpoints
    obtain ⟨u, hstep, hexec⟩ := exec_featureBlockDone hbound hnext (by
      simpa [hcomplete, hlevels, hcorners, Decidable.or_iff_not_imp_left] using ⟨hdescs, hpoints⟩)
    have hframe := StreamS.get?_updBuf ((s.streamAt n).closedFrame b b.keptDescs) hbuf
    by_cases hflow : b.usesFlow = true
    · obtain ⟨t, raised, hexec, hends, hraised⟩ := hstep.flowEnds hexec hflow
      obtain ⟨hholds, hstream, hrest⟩ := hends.closed hframe
      refine ⟨t, _, hexec, hholds, rfl, fun c => StreamS.mem_closedFrame, rfl, fun h => absurd (h.symm.trans hflow) (by decide), fun _ => ?_,
        hends.others, hends.tiles, hrest⟩
      refine ⟨by rw [hstream]; rfl, by rw [hstream]; rfl, by rw [hstream]; rfl, fun hlone => ?_⟩
      obtain ⟨e, rfl, hcode⟩ := hraised hlone
      exact ⟨e, hends.events, hcode⟩
    · have hends := hstep.settle
      obtain ⟨hholds, hstream, hrest⟩ := hends.closed hframe
      rw [if_neg hflow] at hexec
      exact ⟨_, _, hexec, hholds, rfl, fun c => StreamS.mem_closedFrame, rfl, fun _ => ⟨by rw [hstream]; rfl, by simpa using hends.events⟩, fun h => absurd h hflow,
        hends.others, hends.tiles, hrest⟩

end Sys2Proof.Machine

/-! ## Vision: the configuration commands -/

namespace Sys2Proof.Machine

/-! ### A stream of the sender's updated -/

/-- A stream command goes on where the sender's context has bound the stream. -/
theorem withStream_bound {s : State} {m : Cmd} {x : StreamS} (k : Nat → StreamS → State) (hx : Tab.get? s.streams (fld (m.w 3) 4 0) = some x)
    (hctx : x.ctx = m.ctx) : withStream m s k = k (fld (m.w 3) 4 0) x := by
  rw [withStream, hx]
  exact if_pos hctx

/-- An update of one stream and its command's end. -/
theorem updStream_done_spec {s : State} {c : CmdRef} {op : Nat} {m : Cmd} {n : Nat} {x : StreamS} (f : StreamS → StreamS) (h : s.runs c op m)
    (hx : Tab.get? s.streams n = some x) :
    ∃ t, ((s.began c).updStream n f).done c = t ∧ t.answered c OK 0 [] ∧ t.streamAt n = f x ∧
      (∀ j, j ≠ n → Tab.get? t.streams j = Tab.get? s.streams j) ∧ otherCmds s t c ∧ t = { s with cmds := t.cmds, streams := t.streams } := by
  have hset : StreamSet n (f x) (s.began c) ((s.began c).updStream n f) := .updStream f hx
  generalize (s.began c).updStream n f = u at hset ⊢
  obtain ⟨hans, hcmds⟩ := State.done_of_began (u := u) OK 0 [] [] h.isSome (by rw [hset.frame])
  exact ⟨_, rfl, hans, State.streamAt_of_get? hset.here, hset.others, hcmds, by rw [hset.frame]; rfl⟩

section Commands

variable {s : State} {c : CmdRef} {m : Cmd}

/-! ### REMAP_LOAD -/

theorem exec_remapLoad {x : StreamS} {b : List Byte} (h : s.runs c 0x0500 m) (hx : Tab.get? s.streams (fld (m.w 3) 4 0) = some x) (hctx : x.ctx = m.ctx)
    (hb : sgIn m 4 s = .bytes b) : exec (.remapLoad c) s = .next (if gridOk s (fld (m.w 3) 4 0) x b = false then (s.began c).badWord c 4
      else if x.shadow.isSome then (s.began c).refuseOpen c BUSY
      else ((s.began c).updStream (fld (m.w 3) 4 0) fun x => { x with shadow := some (parseGrid b, s.devNs) }).done c) := by
  change execRemapLoad c s = _
  rw [execRemapLoad, onCmd_runs _ h, withStream_bound (s := s.began c) _ hx hctx]
  simp only [withSg, sgIn_began, hb]
  rfl

/-- A header that R245 does not accept for the stream. -/
theorem gridOk_badHeader {n : Nat} {x : StreamS} {b : List Byte} (hbad : leAt b 0 2 ≠ x.width ∨ leAt b 2 2 ≠ x.height ∨ leAt b 4 2 < 64 ∨ 8192 < leAt b 4 2 ∨
    leAt b 4 2 % 16 ≠ 0 ∨ leAt b 6 2 < 64 ∨ 8192 < leAt b 6 2 ∨ leAt b 6 2 % 2 ≠ 0) : gridOk s n x b = false := by
  have hheader : (parseGrid b).srcW = leAt b 0 2 ∧ (parseGrid b).srcH = leAt b 2 2 ∧ (parseGrid b).outW = leAt b 4 2 ∧ (parseGrid b).outH = leAt b 6 2 :=
    ⟨rfl, rfl, rfl, rfl⟩
  obtain ⟨hsrcW, hsrcH, houtW, houtH⟩ := hheader
  by_contra hok
  simp only [gridOk, Bool.not_eq_false, Bool.and_eq_true, decide_eq_true_eq, hsrcW, hsrcH, houtW, houtH] at hok
  omega

/-! ### STEREO_CONFIG -/

theorem exec_stereoConfig {x : PairCfg} {b : List Byte} (h : s.runs c 0x0501 m) (hx : s.pairCfgAt m.ctx (fld (m.w 3) 2 0) = some x)
    (hb : b = zeroDefault (zeroDefault (zeroDefault (m.bytesAt 4 4) 4 1 8) 5 1 96) 12 2
      (s.streamAt (leAt (zeroDefault (zeroDefault (m.bytesAt 4 4) 4 1 8) 5 1 96) 0 1)).largest) :
    (∀ i, stereoBad s m.ctx b = some i → exec (.stereoConfig c) s = .next ((s.began c).badWord c i)) ∧
    (stereoBad s m.ctx b = none → exec (.stereoConfig c) s =
      .next (((s.began c).updCtx m.ctx fun y => { y with pairs := Tab.put y.pairs (fld (m.w 3) 2 0) { x with next := b } }).done c)) := by
  have hpair : (s.began c).pairCfgAt m.ctx (fld (m.w 3) 2 0) = some x := hx
  have hsame : stereoBad (s.began c) m.ctx b = stereoBad s m.ctx b := rfl
  have hblock : b = zeroDefault (zeroDefault (zeroDefault (m.bytesAt 4 4) 4 1 8) 5 1 96) 12 2
      ((s.began c).streamAt (leAt (zeroDefault (zeroDefault (m.bytesAt 4 4) 4 1 8) 5 1 96) 0 1)).largest := hb
  change (∀ i, _ → execStereoConfig c s = _) ∧ (_ → execStereoConfig c s = _)
  rw [execStereoConfig, onCmd_runs _ h]
  simp only [hpair, Option.isNone_some, Bool.false_eq_true, if_false, ← hblock, hsame, State.updPairCfg]
  exact ⟨fun i hbad => by simp only [hbad], fun hok => by simp only [hok]⟩

/-- The pairs of a context, read from its record. -/
theorem State.pairCfgAt_congr {s t : State} {n : Nat} (p : Nat) (h : t.ctxAt n = s.ctxAt n) : t.pairCfgAt n p = s.pairCfgAt n p := by
  rw [State.pairCfgAt, h, State.pairCfgAt]

theorem updPair_done_spec {op : Nat} (h : s.runs c op m) (p : Nat) (y : PairCfg) :
    ∃ t, ((s.began c).updCtx m.ctx fun x => { x with pairs := Tab.put x.pairs p y }).done c = t ∧ t.answered c OK 0 [] ∧
      t.pairCfgAt m.ctx p = some y ∧ (∀ k q, (k, q) ≠ (m.ctx, p) → t.pairCfgAt k q = s.pairCfgAt k q) ∧ otherCmds s t c ∧
      t = { s with cmds := t.cmds, ctxs := t.ctxs } := by
  obtain ⟨hans, hself, hctxs, hothers, hframe⟩ := updCtx_done_spec (fun x => { x with pairs := Tab.put x.pairs p y }) h
  refine ⟨_, rfl, hans, ?_, fun k q hne => ?_, hothers, hframe⟩
  · rw [State.pairCfgAt, hself, Tab.get?_put, if_pos rfl]
  · by_cases hk : k = m.ctx
    · subst hk
      rw [State.pairCfgAt, hself, Tab.get?_put, if_neg fun hq => hne (by rw [hq])]
      rfl
    · exact State.pairCfgAt_congr q (hctxs k hk)

/-! ### CHAIN_CONFIG and FEATURE_CONFIG -/

/-- The chain descriptor of Table 6-6 in bytes `b`. -/
def parseChain (b : List Byte) : ChainCfg :=
  { role := leAt b 1 1, pair := leAt b 2 1, remapEn := leAt b 3 1 % 2 == 1, levelMask := BitVec.ofNat 8 (leAt b 4 1 % 64),
    next := BitVec.ofNat 8 (leAt b 5 1 % 8) }

theorem exec_chainConfig {x : StreamS} (h : s.runs c 0x0502 m) (hx : Tab.get? s.streams (fld (m.w 3) 4 0) = some x) (hctx : x.ctx = m.ctx) :
    (∀ i, chainBad s (fld (m.w 3) 4 0) x (m.bytesAt 4 8) = some i → exec (.chainConfig c) s = .next ((s.began c).badWord c i)) ∧
    (chainBad s (fld (m.w 3) 4 0) x (m.bytesAt 4 8) = none → exec (.chainConfig c) s =
      .next (((s.began c).updStream (fld (m.w 3) 4 0) fun x => { x with chainNext := some (parseChain (m.bytesAt 4 8)) }).done c)) := by
  have hsame : chainBad (s.began c) (fld (m.w 3) 4 0) x (m.bytesAt 4 8) = chainBad s (fld (m.w 3) 4 0) x (m.bytesAt 4 8) := rfl
  change (∀ i, _ → execChainConfig c s = _) ∧ (_ → execChainConfig c s = _)
  rw [execChainConfig, onCmd_runs _ h, withStream_bound (s := s.began c) _ hx hctx]
  exact ⟨fun i hbad => by simp only [hsame, hbad], fun hok => by simp only [hsame, hok, parseChain]⟩

/-- Without level 0 in LEVEL_MASK a descriptor is refused, at the latest for that (R281). -/
theorem chainBad_noLevel0 {n : Nat} {x : StreamS} {b : List Byte} (hmask : leAt b 4 1 % 2 = 0) : ∃ i, (i = 4 ∨ i = 5) ∧ chainBad s n x b = some i := by
  have hbit : bit (BitVec.ofNat 8 (leAt b 4 1)) 0 = false := by
    rw [bit, BitVec.getLsbD_ofNat, Nat.testBit_zero, hmask]
    rfl
  unfold chainBad
  extract_lets role pair mask agrees
  split
  · exact ⟨4, .inl rfl, rfl⟩
  · exact ⟨5, .inr rfl, if_pos (.inl hbit)⟩

theorem exec_featureConfig {x : StreamS} (h : s.runs c 0x0503 m) (hx : Tab.get? s.streams (fld (m.w 3) 4 0) = some x) (hctx : x.ctx = m.ctx) :
    (∀ i, featBad x (leAt (m.bytesAt 4 8) 0 1) (parseFeat (m.bytesAt 4 8)) = some i → exec (.featureConfig c) s = .next ((s.began c).badWord c i)) ∧
    (featBad x (leAt (m.bytesAt 4 8) 0 1) (parseFeat (m.bytesAt 4 8)) = none → exec (.featureConfig c) s =
      .next (((s.began c).updStream (fld (m.w 3) 4 0) fun x => { x with featNext := some (parseFeat (m.bytesAt 4 8)) }).done c)) := by
  change (∀ i, _ → execFeatureConfig c s = _) ∧ (_ → execFeatureConfig c s = _)
  rw [execFeatureConfig, onCmd_runs _ h, withStream_bound (s := s.began c) _ hx hctx]
  exact ⟨fun i hbad => by simp only [hbad], fun hok => by simp only [hok]⟩

/-! ### DESC_PATTERN_LOAD -/

/-- Whether some point of a pattern lies outside radius 13 (R299). -/
def patternOutside (l : List Int) : Bool := (List.range 512).any fun i => decide (169 < l.getD (2 * i) 0 ^ 2 + l.getD (2 * i + 1) 0 ^ 2)

theorem patternOutside_iff {l : List Int} : patternOutside l = true ↔ ∃ i, i < 512 ∧ 169 < l.getD (2 * i) 0 ^ 2 + l.getD (2 * i + 1) 0 ^ 2 := by
  simp only [patternOutside, List.any_eq_true, List.mem_range, decide_eq_true_eq]

theorem exec_descPatternLoad_busy (h : s.runs c 0x0504 m) (hsession : (s.sessionAt m.ctx).isSome = true) :
    exec (.descPatternLoad c) s = .next ((s.began c).refuseOpen c BUSY) := by
  change execDescPatternLoad c s = _
  rw [execDescPatternLoad, onCmd_runs _ h]
  exact congrArg _ (if_pos hsession)

theorem exec_descPatternLoad_firmware (h : s.runs c 0x0504 m) (hsession : s.sessionAt m.ctx = none) (hfirmware : bit (m.w 3) 0 = true) :
    exec (.descPatternLoad c) s = .next (((s.began c).updCtx m.ctx fun x => { x with pattern := [] }).done c) := by
  have hidle : (s.began c).sessionAt m.ctx = none := hsession
  change execDescPatternLoad c s = _
  rw [execDescPatternLoad, onCmd_runs _ h]
  simp only [hidle, Option.isSome_none, Bool.false_eq_true, if_false, hfirmware, if_true]

theorem exec_descPatternLoad_bytes {b : List Byte} {l : List Int} (h : s.runs c 0x0504 m) (hsession : s.sessionAt m.ctx = none)
    (hhost : bit (m.w 3) 0 = false) (hb : sgIn m 4 s = .bytes b) (hlen : b.length = 1024)
    (hl : l = (List.range 1024).map fun i => sext 8 (leAt b i 1)) :
    exec (.descPatternLoad c) s = .next (if patternOutside l = true then (s.began c).badWord c 4
      else ((s.began c).updCtx m.ctx fun x => { x with pattern := l }).done c) := by
  have hidle : (s.began c).sessionAt m.ctx = none := hsession
  change execDescPatternLoad c s = _
  rw [execDescPatternLoad, onCmd_runs _ h, hl]
  simp only [hidle, Option.isSome_none, Bool.false_eq_true, if_false, hhost, withSg, sgIn_began, hb, hlen, ne_eq, not_true_eq_false]
  rfl

end Commands

/-! ### The obligation -/

/-- Settles O19: the `exec_` lemma of each command says what it checks and leaves, `updStream_done_spec` and `updCtx_done_spec` what stays. -/
theorem visionBlocksWaitForTheNextFrame : Obligations.VisionBlocksWaitForTheNextFrame := by
  unfold Obligations.VisionBlocksWaitForTheNextFrame
  refine ⟨?remap, ?stereo, ?chain, ?feature, ?pattern⟩
  case remap =>
    intro s c m n x b h hn hx hctx hb _
    subst hn
    have hexec := exec_remapLoad h hx hctx hb
    refine ⟨fun hbad => ?_, fun hok hwaits => ?_, fun hok hidle => ?_⟩
    · rw [hexec, if_pos (gridOk_badHeader hbad)]
    · rw [hexec, if_neg (by rw [hok]; decide), if_pos hwaits]
    · rw [if_neg (by rw [hok]; decide), hidle, if_neg (by decide)] at hexec
      obtain ⟨t, ht, hans, hself, hstreams, hothers, hframe⟩ := updStream_done_spec (fun x => { x with shadow := some (parseGrid b, s.devNs) }) h hx
      exact ⟨t, hexec.trans (congrArg _ ht), hans, by rw [hself], by rw [hself], hstreams, hothers, hframe⟩
  case stereo =>
    intro s c m p x b h hp hx hb
    subst hp
    obtain ⟨hbad, hgood⟩ := exec_stereoConfig h hx hb
    refine ⟨hbad, fun hok => ?_⟩
    obtain ⟨t, ht, hspec⟩ := updPair_done_spec h (fld (m.w 3) 2 0) { x with next := b }
    exact ⟨t, (hgood hok).trans (congrArg _ ht), hspec⟩
  case chain =>
    intro s c m n x h hn hx hctx
    subst hn
    obtain ⟨hbad, hgood⟩ := exec_chainConfig h hx hctx
    refine ⟨fun hmask => ?_, hbad, fun hok => ?_⟩
    · obtain ⟨i, hword, hi⟩ := chainBad_noLevel0 (s := s) (n := fld (m.w 3) 4 0) (x := x) hmask
      exact ⟨i, hword, hbad i hi⟩
    · obtain ⟨t, ht, hans, hself, hstays⟩ := updStream_done_spec (fun x => { x with chainNext := some (parseChain (m.bytesAt 4 8)) }) h hx
      exact ⟨t, parseChain (m.bytesAt 4 8), (hgood hok).trans (congrArg _ ht), hans, hself, rfl, rfl, rfl, rfl, hstays⟩
  case feature =>
    intro s c m n x h hn hx hctx
    subst hn
    obtain ⟨hbad, hgood⟩ := exec_featureConfig h hx hctx
    refine ⟨hbad, fun hok => ?_⟩
    obtain ⟨t, ht, hspec⟩ := updStream_done_spec (fun x => { x with featNext := some (parseFeat (m.bytesAt 4 8)) }) h hx
    exact ⟨t, (hgood hok).trans (congrArg _ ht), hspec⟩
  case pattern =>
    intro s c m h
    refine ⟨exec_descPatternLoad_busy h, fun hidle hfirmware => ?_, fun b l hidle hhost hb hlen hl => ?_⟩
    · exact ⟨_, exec_descPatternLoad_firmware h hidle hfirmware, updCtx_done_spec (fun x => { x with pattern := [] }) h⟩
    · have hexec := exec_descPatternLoad_bytes h hidle hhost hb hlen hl
      refine ⟨fun hout => by rw [hexec, if_pos (patternOutside_iff.2 hout)], fun hin => ?_⟩
      have hinside : ¬ patternOutside l = true := fun hout => by
        obtain ⟨i, hi, hfar⟩ := patternOutside_iff.1 hout
        exact absurd (hin i hi) hfar.not_ge
      rw [if_neg hinside] at hexec
      exact ⟨_, hexec, updCtx_done_spec (fun x => { x with pattern := l }) h⟩

end Sys2Proof.Machine

/-! ## Sensor entries, fusion and the calibration store -/

namespace Sys2Proof.Machine

/-! ### Grids made anew -/

/-- A bound stream takes the update; every other number, an unbound one included, reads as before. -/
theorem State.streamAt_updStream (s : State) (n k : Nat) (f : StreamS → StreamS) :
    (s.updStream n f).streamAt k = if k = n ∧ Tab.has s.streams n = true then f (s.streamAt n) else s.streamAt k := by
  by_cases hn : Tab.has s.streams n = true
  · by_cases hk : k = n
    · subst hk
      rw [if_pos ⟨rfl, hn⟩, State.streamAt_of_get? (StreamSet.updStream f (State.get?_streamAt hn)).here]
    · rw [if_neg fun h => hk h.1]
      exact Tab.getD_eq_of_get? (by rw [State.get?_updStream, if_neg hk]) _
  · rw [State.updStream, if_neg hn, if_neg fun h => hn h.2]

/-- A grid is made anew in the shadow slot of its stream, and takes one value of the free counter. -/
theorem regenerate_eq (st : Nat) (s : State) :
    ∃ e, regenerate st s = ({ s with free := s.free + 1 } : State).updStream st fun x => { x with shadow := some e } := ⟨_, rfl⟩

theorem shadow_regenerate {s : State} {st : Nat} (h : Tab.has s.streams st = true) : ((regenerate st s).streamAt st).shadow.isSome = true := by
  obtain ⟨e, he⟩ := regenerate_eq st s
  rw [he, State.streamAt_updStream, if_pos ⟨rfl, h⟩]
  rfl

theorem shadow_regenerate_of_shadow {s : State} {k : Nat} (st : Nat) (h : (s.streamAt k).shadow.isSome = true) :
    ((regenerate st s).streamAt k).shadow.isSome = true := by
  obtain ⟨e, he⟩ := regenerate_eq st s
  rw [he, State.streamAt_updStream]
  split
  · rfl
  · exact h

/-- `t` is `s` but for the shadow slots of streams among `l`, and the free counter. -/
structure ShadowStep (l : List Nat) (s t : State) : Prop where
  has : ∀ k, Tab.has t.streams k = Tab.has s.streams k
  stream : ∀ k, t.streamAt k = { s.streamAt k with shadow := (t.streamAt k).shadow }
  others : ∀ k, k ∉ l → Tab.get? t.streams k = Tab.get? s.streams k
  frame : t = { s with streams := t.streams, free := t.free }

theorem ShadowStep.refl (l : List Nat) (s : State) : ShadowStep l s s := ⟨fun _ => rfl, fun _ => rfl, fun _ _ => rfl, rfl⟩

theorem ShadowStep.trans {l : List Nat} {s t u : State} (h : ShadowStep l s t) (k : ShadowStep l t u) : ShadowStep l s u where
  has i := (k.has i).trans (h.has i)
  stream i := by rw [k.stream i, h.stream i]
  others i hi := (k.others i hi).trans (h.others i hi)
  frame := by rw [k.frame, h.frame]

theorem ShadowStep.regenerate {l : List Nat} {st : Nat} (s : State) (hst : st ∈ l) : ShadowStep l s (regenerate st s) := by
  obtain ⟨e, he⟩ := regenerate_eq st s
  rw [he]
  refine ⟨fun k => ?_, fun k => ?_, fun k hk => ?_, ?_⟩
  · simp only [Tab.has, State.get?_updStream]
    split
    case isTrue hk => rw [Option.isSome_map, hk]
    case isFalse => rfl
  · rw [State.streamAt_updStream]
    split
    case isTrue hk => rw [hk.1]; rfl
    case isFalse => rfl
  · rw [State.get?_updStream, if_neg fun (hkst : k = st) => hk (hkst ▸ hst)]
  · rw [State.updStream_eq]

/-- Grids made anew for a list of streams: only their shadow slots change, and each bound stream among them has one waiting. -/
theorem regenerateAll_spec (l : List Nat) (s : State) :
    ShadowStep l s (forEach l regenerate s) ∧
      ∀ k ∈ l, Tab.has s.streams k = true → ((forEach l regenerate s).streamAt k).shadow.isSome = true := by
  have hstep : ∀ k ∈ l, ∀ u, ShadowStep l s u → ShadowStep l s (regenerate k u) := fun k hk u hu => hu.trans (.regenerate u hk)
  refine ⟨forEach_keeps l regenerate hstep (.refl l s), fun k hk hbound => ?_⟩
  exact forEach_establishes (Q := fun u => (u.streamAt k).shadow.isSome = true) l regenerate hstep (fun j _ u _ h => shadow_regenerate_of_shadow j h) hk
    (fun u hu => shadow_regenerate ((hu.has k).trans hbound)) (.refl l s)

/-! ### RIG_WRITE -/

/-- Whether the session of context `n` binds the sensor under `key`. -/
def State.bindsSensor (s : State) (n key : Nat) : Bool := (s.sessionAt n).isSome && Tab.has (s.ctxAt n).inUse key

/-- The streams whose grids an entry of a sensor changes with it: those of a paired camera that the session binds. -/
def State.gridsOf (s : State) (n port index : Nat) : List Nat :=
  if s.bindsSensor n (sensorKey port index) && isCamera port then refinedPair s n port index else []

theorem State.mem_gridsOf {s : State} {n port index st : Nat} : st ∈ s.gridsOf n port index ↔
    s.bindsSensor n (sensorKey port index) = true ∧ isCamera port = true ∧ st ∈ refinedPair s n port index := by
  simp only [State.gridsOf, List.mem_ite_nil_right, Bool.and_eq_true, and_assoc]

/-- `t` is `s` with entry `e` written for a sensor of context `n`: a bound one also waits for its frame set, with the grids of its pair. -/
structure EntryWritten (n port index : Nat) (e : SensorEntry) (s t : State) : Prop where
  ctx : t.ctxAt n = { s.ctxAt n with
    rig := Tab.put (s.ctxAt n).rig (sensorKey port index) e,
    rigDue := (s.ctxAt n).rigDue ++ if s.bindsSensor n (sensorKey port index) then [(sensorKey port index, e, s.devNs)] else [] }
  ctxs : ∀ k, k ≠ n → t.ctxAt k = s.ctxAt k
  shadow : ∀ st ∈ s.gridsOf n port index, Tab.has s.streams st = true → (t.streamAt st).shadow.isSome = true
  stream : ∀ st, t.streamAt st = { s.streamAt st with shadow := (t.streamAt st).shadow }
  others : ∀ st, st ∉ s.gridsOf n port index → Tab.get? t.streams st = Tab.get? s.streams st
  frame : t = { s with ctxs := t.ctxs, streams := t.streams, free := t.free }

/-- `s` with an entry written into the RIG_WRITE entries of context `n`. -/
def State.putRig (s : State) (n key : Nat) (e : SensorEntry) : State := s.updCtx n fun x => { x with rig := Tab.put x.rig key e }

theorem State.ctxAt_putRig (s : State) (n key : Nat) (e : SensorEntry) :
    (s.putRig n key e).ctxAt n = { s.ctxAt n with rig := Tab.put (s.ctxAt n).rig key e } :=
  (s.ctxAt_updCtx n n _).trans (if_pos rfl)

theorem State.bindsSensor_putRig (s : State) (n key j : Nat) (e : SensorEntry) : (s.putRig n key e).bindsSensor n j = s.bindsSensor n j := by
  simp only [State.bindsSensor, State.sessionAt, State.ctxAt_putRig]

/-- The pair of a camera is found from the streams and the context's pairs, not from its entries. -/
theorem refinedPair_putRig (s : State) (n key port vc : Nat) (e : SensorEntry) :
    refinedPair (s.putRig n key e) n port vc = refinedPair s n port vc := by
  unfold refinedPair
  rw [State.ctxAt_putRig]
  rfl

theorem State.gridsOf_putRig (s : State) (n key port index : Nat) (e : SensorEntry) :
    (s.putRig n key e).gridsOf n port index = s.gridsOf n port index := by
  rw [State.gridsOf, s.bindsSensor_putRig, refinedPair_putRig, State.gridsOf]

theorem State.bindsSensor_idle {s : State} {n key : Nat} (h : s.sessionAt n = none) : s.bindsSensor n key = false := by
  rw [State.bindsSensor, h]
  rfl

theorem entryChanged_idle {s : State} {n port index : Nat} {e : SensorEntry} (h : s.bindsSensor n (sensorKey port index) = false) :
    entryChanged n port index e s = s := if_neg (by rw [← State.bindsSensor, h]; decide)

theorem entryChanged_bound {s : State} {n port index : Nat} {e : SensorEntry} (h : s.bindsSensor n (sensorKey port index) = true) :
    entryChanged n port index e s = forEach (s.gridsOf n port index) regenerate
      (s.updCtx n fun c => { c with rigDue := c.rigDue ++ [(sensorKey port index, e, s.devNs)] }) := by
  rw [State.gridsOf, h, Bool.true_and]
  exact if_pos h

theorem entryWritten (s : State) (n port index : Nat) (e : SensorEntry) :
    EntryWritten n port index e s (entryChanged n port index e (s.putRig n (sensorKey port index) e)) := by
  have hbinds := s.bindsSensor_putRig n (sensorKey port index) (sensorKey port index) e
  have hgrids := s.gridsOf_putRig n (sensorKey port index) port index e
  have hctx := s.ctxAt_putRig n (sensorKey port index) e
  have hctxs (k : Nat) (hk : k ≠ n) : (s.putRig n (sensorKey port index) e).ctxAt k = s.ctxAt k := (s.ctxAt_updCtx n k _).trans (if_neg hk)
  have hframe : s.putRig n (sensorKey port index) e = { s with ctxs := (s.putRig n (sensorKey port index) e).ctxs } := rfl
  generalize s.putRig n (sensorKey port index) e = v at *
  have hstreams : v.streams = s.streams := by rw [hframe]
  cases hb : s.bindsSensor n (sensorKey port index)
  case false =>
    have hnone : s.gridsOf n port index = [] := by rw [State.gridsOf, hb]; rfl
    rw [entryChanged_idle (hbinds.trans hb)]
    refine ⟨?_, hctxs, fun st hst => ?_, fun st => ?_, fun st _ => by rw [hstreams], by rw [hframe]⟩
    · rw [hctx, hb, if_neg Bool.false_ne_true, List.append_nil]
    · rw [hnone] at hst; exact absurd hst List.not_mem_nil
    · rw [State.streamAt, hstreams]; rfl
  case true =>
    rw [entryChanged_bound (hbinds.trans hb), hgrids]
    generalize hu : v.updCtx n (fun c => { c with rigDue := c.rigDue ++ [(sensorKey port index, e, v.devNs)] }) = u
    obtain ⟨hstep, hshadow⟩ := regenerateAll_spec (s.gridsOf n port index) u
    have hsame : u.streams = s.streams := by rw [← hu, State.updCtx_streams, hstreams]
    have hctxAt (k : Nat) : (forEach (s.gridsOf n port index) regenerate u).ctxAt k = u.ctxAt k := by
      rw [State.ctxAt, hstep.frame, State.ctxAt]
    refine ⟨?_, fun k hk => ?_, fun st hst hhas => hshadow st hst (hsame ▸ hhas), fun st => ?_, fun st hst => ?_, ?_⟩
    · rw [hctxAt, ← hu, State.ctxAt_updCtx, if_pos rfl, hctx, hb, hframe]; rfl
    · rw [hctxAt, ← hu, State.ctxAt_updCtx, if_neg hk, hctxs k hk]
    · rw [hstep.stream st, State.streamAt, hsame]; rfl
    · rw [hstep.others st hst, hsame]
    · rw [hstep.frame, ← hu, hframe]; rfl

/-- The entry that a RIG_WRITE carries, with ORIGIN 0 (R332). -/
def rigWriteEntry (m : Cmd) : SensorEntry := { SensorEntry.ofBytes (m.bytesAt 3 16) with origin := 0 }

section RigWrite

variable {s : State} {c : CmdRef} {m : Cmd} {port index : Nat}

theorem exec_rigWrite (h : s.runs c 0x0600 m) (hport : port = leAt (m.bytesAt 3 16) 0 1) (hindex : index = leAt (m.bytesAt 3 16) 1 1) :
    exec (.rigWrite c) s = .next (
      if rigKey port index = false ∨ privilegedPort port then (s.began c).badWord c 3
      else if isCamera port ∧ ((refinedPair s m.ctx port index).any fun st => (s.streamAt st).shadow.isSome) = true then (s.began c).refuseOpen c BUSY
      else (entryChanged m.ctx port index (rigWriteEntry m)
          ((s.began c).putRig m.ctx (sensorKey port index) (rigWriteEntry m))).done c) := by
  subst hport hindex
  change execRigWrite c s = _
  rw [execRigWrite, onCmd_runs _ h]
  rfl

/-- A RIG_WRITE that nothing refuses writes its entry. -/
theorem exec_rigWrite_written (h : s.runs c 0x0600 m) (hport : port = leAt (m.bytesAt 3 16) 0 1) (hindex : index = leAt (m.bytesAt 3 16) 1 1)
    (hkey : rigKey port index = true) (hpriv : privilegedPort port = false)
    (hfree : isCamera port = true → ∀ st ∈ refinedPair s m.ctx port index, (s.streamAt st).shadow = none) :
    exec (.rigWrite c) s = .next ((entryChanged m.ctx port index (rigWriteEntry m)
      ((s.began c).putRig m.ctx (sensorKey port index) (rigWriteEntry m))).done c) := by
  have hgrids : ¬ (isCamera port = true ∧ ((refinedPair s m.ctx port index).any fun st => (s.streamAt st).shadow.isSome) = true) := by
    rintro ⟨hcam, hany⟩
    obtain ⟨st, hst, hshadow⟩ := List.any_eq_true.1 hany
    rw [hfree hcam st hst] at hshadow
    exact absurd hshadow (by decide)
  rw [exec_rigWrite h hport hindex, if_neg (by simp [hkey, hpriv]), if_neg hgrids]

end RigWrite

/-! ### FUSION_CONFIG -/

/-- A field with a default that is taken lies in its range where the default does (R695). -/
theorem withDefault_range {x lo hi d y : Nat} (hlo : lo ≤ d) (hhi : d ≤ hi) (h : withDefault x lo hi d = some y) : lo ≤ y ∧ y ≤ hi := by
  unfold withDefault at h
  split_ifs at h with hin
  · exact Option.some.inj h ▸ hin
  · exact Option.some.inj h ▸ ⟨hlo, hhi⟩

/-- The ranges of Table 8-6 that a block which is accepted keeps. -/
theorem parseFusion_ranges {b : List Byte} {f : FusionCfg} (h : parseFusion b = .inr f) :
    10 ≤ f.retro ∧ f.retro ≤ 500 ∧ 100 ≤ f.gate ∧ f.gate ≤ 2500 ∧ 1 ≤ f.newCost ∧ f.newCost ≤ 32767 ∧ 8 ≤ f.alignSamples ∧ f.alignSamples ≤ 255 := by
  unfold parseFusion at h
  extract_lets field at h
  split at h
  case h_6 hretro hgate hcost _ _ =>
    split at h
    case h_6 _ _ halign _ _ =>
      split at h <;> cases h
      obtain ⟨hretroLo, hretroHi⟩ := withDefault_range (by decide) (by decide) hretro
      obtain ⟨hgateLo, hgateHi⟩ := withDefault_range (by decide) (by decide) hgate
      obtain ⟨hcostLo, hcostHi⟩ := withDefault_range (by decide) (by decide) hcost
      exact ⟨hretroLo, hretroHi, hgateLo, hgateHi, hcostLo, hcostHi, withDefault_range (by decide) (by decide) halign⟩
    all_goals cases h
  all_goals cases h

theorem State.updSession_of_session {s : State} {n : Nat} {x : SessionS} (f : SessionS → SessionS) (hx : s.sessionAt n = some x) :
    s.updSession n f = s.updCtx n fun y => { y with session := some (f x) } := by
  have hsession : (s.ctxAt n).session = some x := hx
  rw [State.updSession, hsession]

section FusionConfig

variable {s : State} {c : CmdRef} {m : Cmd} {x : SessionS} (h : s.runs c 0x0602 m) (hx : s.sessionAt m.ctx = some x)
  (hnumber : x.number.toNat = fld (m.w 3) 15 0)

include h hx hnumber

theorem exec_fusionConfig : exec (.fusionConfig c) s = .next (match parseFusion (m.bytesAt 4 8) with
    | .inl i => (s.began c).badWord c i
    | .inr f => ((s.began c).updCtx m.ctx fun y => { y with session := some { x with fusionNext := some f } }).done c) := by
  have hsession : (s.began c).sessionAt m.ctx = some x := hx
  change execFusionConfig c s = _
  rw [execFusionConfig, onCmd_runs _ h]
  simp only [hsession, if_neg (not_not.2 hnumber)]
  cases parseFusion (m.bytesAt 4 8) with
  | inl i => rfl
  | inr f => simp only [State.updSession_of_session _ hsession]

end FusionConfig

/-! ### CALIB_COMMIT -/

/-- The head that CALIB_COMMIT writes stands with ORIGIN 2, whatever the rest of the record is. -/
theorem leAt_origin (b x : List Byte) (port index flags : Nat) :
    leAt (overlay (overlay b 0 (leBytes 1 port ++ leBytes 1 index ++ leBytes 1 flags ++ leBytes 1 2)) 60 x) 3 1 = 2 := by
  simp [overlay, leAt, slice, leBytes, ofLe]

theorem commitRecord_origin {s : State} {port index : Nat} {b r : List Byte} (h : commitRecord s port index b = .inr r) : leAt r 3 1 = 2 := by
  unfold commitRecord at h
  extract_lets info head q q' at h
  split_ifs at h <;> cases h <;> exact leAt_origin ..

/-- The record of a key takes effect: it is stored with its time, and the ledger and the event name it (R841, R847). -/
def State.recordStored (s : State) (port index : Nat) (b : List Byte) : State :=
  let key := sensorKey port index
  let old := s.storeRec key
  let new : CalibRec := { bytes := b, time := s.devTime, effective := if port = 32 then s.devNs + 1000000 else 0 }
  let was := match old with | some o => leAt o.bytes 3 1 | none => 0
  ((s.mapAge fun a =>
    { a with store := Tab.put a.store key new, before := if port = 32 then Tab.put a.before key (old.getD {}) else a.before }).ledger
      { kind := 6, subject := port, subject2 := index + 256 * (was % 4) + 1024 * 2 }).raise 0x8605 key

section RecordStored

variable (s : State) (port index : Nat) (b : List Byte)

theorem State.store_recordStored (k : Nat) : Tab.get? (s.recordStored port index b).age.store k = if k = sensorKey port index then
    some { bytes := b, time := s.devTime, effective := if port = 32 then s.devNs + 1000000 else 0 } else Tab.get? s.age.store k := Tab.get?_put ..

theorem State.ledger_recordStored (hroom : s.age.ledger.length < 16384) : ∃ d, (s.recordStored port index b).age.ledger = s.age.ledger ++ [d] ∧
    d.kind = 6 ∧ d.subject = port := ⟨_, State.ledger_age (s := s.mapAge _) _ hroom, rfl, rfl⟩

theorem State.events_recordStored : ∃ e, (s.recordStored port index b).events = s.events ++ [e] ∧ e.code = 0x8605 := ⟨_, rfl, rfl⟩

end RecordStored

section CalibCommit

variable {s : State} {c : CmdRef} {m : Cmd}

theorem exec_calibCommit_owner (h : s.runs c 0x0604 m) (hctx : m.ctx ≠ 0) : exec (.calibCommit c) s = .next ((s.began c).refuseOpen c NOT_OWNER) := by
  change execCalibCommit c s = _
  rw [execCalibCommit, onCmd_runs _ h]
  exact congrArg _ (if_pos hctx)

variable {port index : Nat} (h : s.runs c 0x0604 m) (hctx : m.ctx = 0) (hrig : bit (m.w 3) 16 = false) (hport : port = fld (m.w 3) 7 0)
  (hindex : index = fld (m.w 3) 15 8) (hkey : storeKey port index = true)

include h hctx hrig hport hindex hkey

theorem exec_calibCommit : exec (.calibCommit c) s = .next (
    if (port = 0 ∨ port = 1) ∧ anchorWaits s then (s.began c).refuseOpen c BUSY
    else match commitRecord s port index (m.bytesAt 4 16) with
      | .inl off => (s.began c).badWord c (4 + off / 4)
      | .inr b => (if port < 2 then anchorChanged ((s.began c).recordStored port index b) else (s.began c).recordStored port index b).done c) := by
  have hanchor : anchorWaits (s.began c) = anchorWaits s := rfl
  have hrecord (b : List Byte) : commitRecord (s.began c) port index b = commitRecord s port index b := rfl
  change execCalibCommit c s = _
  subst hport hindex
  rw [execCalibCommit, onCmd_runs _ h]
  simp only [hctx, ne_eq, not_true_eq_false, if_false, hkey, Bool.true_eq_false, hrig, Bool.false_eq_true, hanchor, hrecord]
  rfl

end CalibCommit

/-! ### The obligation -/

/-- Settles O23: RIG_WRITE by its checks and `entryWritten`, FUSION_CONFIG by the ranges of its block, CALIB_COMMIT by its checks and what
`State.recordStored` changes. -/
theorem rigAndCalibrationEntriesFollowTheirCommits : Obligations.RigAndCalibrationEntriesFollowTheirCommits := by
  unfold Obligations.RigAndCalibrationEntriesFollowTheirCommits
  refine ⟨?rig, ?fusion, fun s c m h hctx => exec_calibCommit_owner h hctx, ?calib⟩
  case rig =>
    intro s c m port index h hport hindex
    refine ⟨fun hnamed => ?named, fun hkey hpriv hcam hwaits => ?waits, fun hkey hpriv hidle hfree => ?idle, fun e hkey hpriv hfree he => ?entry⟩
    case named =>
      have hpriv : privilegedPort port = true := by rcases hnamed with rfl | rfl | rfl <;> rfl
      rw [exec_rigWrite h hport hindex, if_pos (.inr hpriv)]
    case waits =>
      rw [exec_rigWrite h hport hindex, if_neg (by simp [hkey, hpriv]), if_pos ⟨hcam, List.any_eq_true.2 hwaits⟩]
    case idle =>
      have hexec := exec_rigWrite_written h hport hindex hkey hpriv hfree
      rw [entryChanged_idle (by rw [State.bindsSensor_putRig]; exact State.bindsSensor_idle hidle), State.putRig] at hexec
      obtain ⟨hans, hself, hctxs, hothers, hframe⟩ := updCtx_done_spec (fun x => { x with
        rig := Tab.put x.rig (sensorKey port index) (rigWriteEntry m) }) h
      exact ⟨_, _, hexec, hans, by rw [hself], by rw [hself, Tab.get?_put, if_pos rfl, rigWriteEntry], rfl,
        fun k hk => by rw [hself, Tab.get?_put, if_neg hk], hctxs, hothers, hframe⟩
    case entry =>
      obtain rfl : e = rigWriteEntry m := he
      have hexec := exec_rigWrite_written h hport hindex hkey hpriv hfree
      have hwritten := entryWritten (s.began c) m.ctx port index (rigWriteEntry m)
      generalize entryChanged m.ctx port index _ _ = u at hexec hwritten
      obtain ⟨hans, hothers⟩ := State.done_of_began (u := u) OK 0 [] [] h.isSome (by rw [hwritten.frame])
      have hself : (u.done c).ctxAt m.ctx = u.ctxAt m.ctx := rfl
      have hbinds (hsession : (s.sessionAt m.ctx).isSome = true) (huse : Tab.has (s.ctxAt m.ctx).inUse (sensorKey port index) = true) :
          (s.began c).bindsSensor m.ctx (sensorKey port index) = true := Bool.and_eq_true_iff.2 ⟨hsession, huse⟩
      refine ⟨_, hexec, hans, ?_, fun k hk => ?_, ?_, fun hsession huse => ⟨?_, fun hcam st hst hbound => ⟨?_, ?_⟩⟩,
        fun st hst => ?_, hwritten.ctxs, hothers, ?_⟩
      · rw [hself, hwritten.ctx, Tab.get?_put, if_pos rfl]
      · rw [hself, hwritten.ctx, Tab.get?_put, if_neg hk]; rfl
      · rw [hself, hwritten.ctx]; rfl
      · rw [hself, hwritten.ctx]
        exact congrArg _ (if_pos (hbinds hsession huse))
      · exact hwritten.shadow st (State.mem_gridsOf.2 ⟨hbinds hsession huse, hcam, hst⟩) hbound
      · exact hwritten.stream st
      · refine hwritten.others st fun hin => ?_
        obtain ⟨-, hcam, hpair⟩ := State.mem_gridsOf.1 hin
        exact hst.elim (fun h => absurd (h.symm.trans hcam) (by decide)) fun h => h hpair
      · rw [hwritten.frame]; rfl
  case fusion =>
    intro s c m x h hx hnumber
    have hexec := exec_fusionConfig h hx hnumber
    refine ⟨fun i hbad => by rw [hexec, hbad], fun f hok => ⟨parseFusion_ranges hok, ?_⟩⟩
    rw [hok] at hexec
    obtain ⟨hans, hself, hctxs, hothers, hframe⟩ := updCtx_done_spec (fun y => { y with session := some { x with fusionNext := some f } }) h
    exact ⟨_, hexec, hans, by rw [State.sessionAt, hself], hctxs, hothers, hframe⟩
  case calib =>
    intro s c m port index h hctx hrig hport hindex hkey
    have hexec := exec_calibCommit h hctx hrig hport hindex hkey
    refine ⟨fun hanchor hwaits => by rw [hexec, if_pos ⟨hanchor, hwaits⟩], fun off h0 h1 hbad => ?bad, fun b h0 h1 hok hroom => ?stored⟩
    case bad => rw [hexec, if_neg fun ha => ha.1.elim h0 h1, hbad]
    case stored =>
      rw [if_neg fun ha => ha.1.elim h0 h1, hok] at hexec
      simp only [if_neg (show ¬ port < 2 by omega)] at hexec
      obtain ⟨hans, hothers⟩ := State.done_of_began (u := (s.began c).recordStored port index b) OK 0 [] [] h.isSome rfl
      obtain ⟨d, hledger, hkind, hsubject⟩ := (s.began c).ledger_recordStored port index b hroom
      obtain ⟨e, hevents, hcode⟩ := (s.began c).events_recordStored port index b
      have hstore := (s.began c).store_recordStored port index b
      exact ⟨_, _, d, e, hexec, hans, (hstore _).trans (if_pos rfl), rfl, rfl, commitRecord_origin hok, fun k hk => (hstore k).trans (if_neg hk),
        hledger, hkind, hsubject, hevents, hcode, hothers, rfl⟩

end Sys2Proof.Machine

/-! ## Maps: who may use one, and what changes with it -/

namespace Sys2Proof.Machine

/-! ### An update of one map -/

theorem State.updMap_eq (s : State) (i : Nat) (f : MapS → MapS) : s.updMap i f = { s with maps := (s.updMap i f).maps } := by
  unfold State.updMap
  split <;> rfl

theorem State.get?_updMap_self {s : State} {i : Nat} {x : MapS} (f : MapS → MapS) (h : Tab.get? s.maps i = some x) :
    Tab.get? (s.updMap i f).maps i = some (f x) := by
  rw [State.get?_updMap, if_pos rfl, h, Option.map_some]

theorem State.get?_updMap_other (s : State) {i k : Nat} (f : MapS → MapS) (h : k ≠ i) : Tab.get? (s.updMap i f).maps k = Tab.get? s.maps k := by
  rw [State.get?_updMap, if_neg h]

/-- Changes of the map table alone compose. -/
theorem State.eq_of_maps {s t u : State} (h : t = { s with maps := t.maps }) (k : u = { t with maps := u.maps }) : u = { s with maps := u.maps } := by
  rw [k, h]

/-- An update of the one map that a command names, and its end. -/
theorem updMap_done_spec {s : State} {c : CmdRef} {op : Nat} {m : Cmd} {i : Nat} {x : MapS} (f : MapS → MapS) (h : s.runs c op m)
    (hget : Tab.get? s.maps i = some x) :
    ∃ t, ((s.began c).updMap i f).done c = t ∧ t.answered c OK 0 [] ∧ Tab.get? t.maps i = some (f x) ∧
      (∀ k, k ≠ i → Tab.get? t.maps k = Tab.get? s.maps k) ∧ otherCmds s t c ∧ t = { s with cmds := t.cmds, maps := t.maps } := by
  have hupd := (s.began c).updMap_eq i f
  have hself : Tab.get? ((s.began c).updMap i f).maps i = some (f x) := State.get?_updMap_self f hget
  have hothers : ∀ k, k ≠ i → Tab.get? ((s.began c).updMap i f).maps k = Tab.get? s.maps k := fun k hk => (s.began c).get?_updMap_other f hk
  generalize (s.began c).updMap i f = u at hupd hself hothers ⊢
  obtain ⟨hans, hcmds⟩ := State.done_of_began (u := u) OK 0 [] [] h.isSome (by rw [hupd])
  exact ⟨_, rfl, hans, hself, hothers, hcmds, by rw [hupd]; rfl⟩

/-- The list of commands and the table of maps are updated independently. -/
theorem State.updMap_updCmd (s : State) (c : CmdRef) (g : Cmd → Cmd) (i : Nat) (f : MapS → MapS) :
    (s.updCmd c g).updMap i f = (s.updMap i f).updCmd c g := by
  by_cases h : Tab.has s.maps i = true <;> simp [State.updMap, State.updCmd, h]

/-! ### The map that a command names -/

section WithMap

variable {m : Cmd} {s : State} {i : Nat} {x : MapS} {own : Bool} (word : Nat) (K : MapS → State) (hget : Tab.get? s.maps i = some x)
  (hlive : x.withdrawn = false)

include hget hlive

/-- A command that names a map its context may use continues with it (R404, R407). -/
theorem withMap_granted (huse : x.owner = m.ctx ∨ (own = false ∧ x.lent.getLsbD m.ctx = true)) : withMap m s i word own K = K x := by
  have hopen : ¬ ((own && x.owner != m.ctx) || !x.usable m.ctx) = true := by
    rcases huse with howner | ⟨hown, hlent⟩
    · simp [howner, MapS.usable]
    · simp [hown, hlent, MapS.usable, bit]
  simp only [withMap, hget, hlive, Bool.false_eq_true, if_false, if_neg hopen]

/-- One that names a map its context may not use is refused. -/
theorem withMap_notOwner (howner : x.owner ≠ m.ctx) (hlent : own = true ∨ x.lent.getLsbD m.ctx = false) :
    withMap m s i word own K = s.refuseOpen m.ref NOT_OWNER := by
  have hclosed : ((own && x.owner != m.ctx) || !x.usable m.ctx) = true := by
    rcases hlent with hown | hlent
    · simp [hown, howner]
    · simp [MapS.usable, bit, howner, hlent]
  simp only [withMap, hget, hlive, Bool.false_eq_true, if_false, if_pos hclosed]

end WithMap

section NotOwner

variable {s : State} {c : CmdRef} {m : Cmd} {x : MapS} (hget : Tab.get? s.maps (fld (m.w 3) 3 0) = some x) (hlive : x.withdrawn = false)
  (howner : x.owner ≠ m.ctx)

include hget hlive howner

/-- A row whose effect continues with that map refuses it (R404). -/
theorem onCmd_withMap_notOwner {op word : Nat} {own : Bool} {K : State → MapS → State} {k : Cmd → State → State}
    (hlent : own = true ∨ x.lent.getLsbD m.ctx = false) (hk : ∀ u, k m u = withMap m u (fld (m.w 3) 3 0) word own (K u)) (h : s.runs c op m) :
    onCmd op c s k = .next ((s.began c).refuseOpen c NOT_OWNER) := by
  rw [onCmd_runs _ h, hk, withMap_notOwner (s := s.began c) word _ hget hlive howner hlent, State.findCmd_ref h.1]

theorem exec_mapDestroy_notOwner (h : s.runs c 0x0701 m) : exec (.mapDestroy c) s = .next ((s.began c).refuseOpen c NOT_OWNER) := by
  change execMapDestroy c s = _
  exact onCmd_withMap_notOwner hget hlive howner (.inl rfl) (fun _ => rfl) h

theorem exec_mapEdit_notOwner (h : s.runs c 0x0703 m) : exec (.mapEdit c) s = .next ((s.began c).refuseOpen c NOT_OWNER) := by
  change execMapEdit c s = _
  exact onCmd_withMap_notOwner hget hlive howner (.inl rfl) (fun _ => rfl) h

theorem exec_mapLend_notOwner (h : s.runs c 0x0704 m) : exec (.mapLend c) s = .next ((s.began c).refuseOpen c NOT_OWNER) := by
  change execMapLend c s = _
  exact onCmd_withMap_notOwner hget hlive howner (.inl rfl) (fun _ => rfl) h

theorem exec_mapRecall_notOwner (h : s.runs c 0x0705 m) : exec (.mapRecall c) s = .next ((s.began c).refuseOpen c NOT_OWNER) := by
  change execMapRecall c s = _
  exact onCmd_withMap_notOwner hget hlive howner (.inl rfl) (fun _ => rfl) h

theorem exec_mapMerge_notOwner (h : s.runs c 0x0706 m) : exec (.mapMerge c) s = .next ((s.began c).refuseOpen c NOT_OWNER) := by
  change execMapMerge c s = _
  exact onCmd_withMap_notOwner hget hlive howner (.inl rfl) (fun _ => rfl) h

theorem exec_mapQuery_notOwner (h : s.runs c 0x0702 m) (hlent : x.lent.getLsbD m.ctx = false) : exec (.mapQuery c) s = .next ((s.began c).refuseOpen c NOT_OWNER) := by
  change execMapQuery c s = _
  exact onCmd_withMap_notOwner hget hlive howner (.inr hlent) (fun _ => rfl) h

theorem exec_mapExport_notOwner (h : s.runs c 0x0707 m) (hlent : x.lent.getLsbD m.ctx = false) : exec (.mapExport c) s = .next ((s.began c).refuseOpen c NOT_OWNER) := by
  change execMapExport c s = _
  exact onCmd_withMap_notOwner hget hlive howner (.inr hlent) (fun _ => rfl) h

end NotOwner

/-! ### MAP_DESTROY -/

/-- Granules that a map reserves (R379, R427). -/
def MapS.reserved (x : MapS) : Nat :=
  80 * (x.lmCap / 65536) + 36 * (x.kfCap / 16384) + 80 * (x.edgeCap / 65536) + x.featPool / 65536 + total (x.indexes.map fun y => y.2.granules)

section DropMap

variable {s : State} {i : Nat} {x : MapS} (hget : Tab.get? s.maps i = some x)

include hget

theorem State.dropMap_eq : s.dropMap i =
    { s with ctxs := (s.dropMap i).ctxs, maps := Tab.del s.maps i, jobs := (s.dropMap i).jobs } := by
  simp only [State.dropMap, hget]
  rfl

theorem State.ctxAt_dropMap (k : Nat) : (s.dropMap i).ctxAt k = ((s.credit x.owner 2 x.reserved).updCtx x.owner
    fun c => { c with hostFeatBytes := c.hostFeatBytes - x.hostBytes }).ctxAt k := by
  simp only [State.dropMap, hget]
  rfl

/-- Removing a map frees its number and credits its owner (R379). -/
theorem State.dropMap_spec : Tab.get? (s.dropMap i).maps i = none ∧ (∀ k, k ≠ i → Tab.get? (s.dropMap i).maps k = Tab.get? s.maps k) ∧
    (∀ k, k ≠ x.owner → (s.dropMap i).ctxAt k = s.ctxAt k) ∧ ((s.dropMap i).ctxAt x.owner).hbmUsed ≤ (s.ctxAt x.owner).hbmUsed := by
  have hmaps : (s.dropMap i).maps = Tab.del s.maps i := by rw [State.dropMap_eq hget]
  refine ⟨?_, fun k hk => ?_, fun k hk => ?_, ?_⟩
  · rw [hmaps, Tab.get?_del, if_pos rfl]
  · rw [hmaps, Tab.get?_del, if_neg hk]
  · rw [State.ctxAt_dropMap hget, State.ctxAt_updCtx, if_neg hk, State.credit, State.ctxAt_updCtx, if_neg hk]
  · rw [State.ctxAt_dropMap hget, State.ctxAt_updCtx, if_pos rfl, State.credit, State.ctxAt_updCtx, if_pos rfl]
    exact Nat.sub_le _ _

end DropMap

section Owned

variable {s : State} {c : CmdRef} {m : Cmd} {x : MapS} (hget : Tab.get? s.maps (fld (m.w 3) 3 0) = some x) (hlive : x.withdrawn = false)
  (howner : x.owner = m.ctx)

include hget hlive howner

theorem exec_mapDestroy (h : s.runs c 0x0701 m) : exec (.mapDestroy c) s = .next (
    if s.mapSessions (fld (m.w 3) 3 0) ≠ [] ∨ x.lent ≠ 0 ∨ s.mapInFlight (fld (m.w 3) 3 0) = true then (s.began c).refuseOpen c BUSY
    else ((s.began c).dropMap (fld (m.w 3) 3 0)).done c) := by
  change execMapDestroy c s = _
  rw [execMapDestroy, onCmd_runs _ h]
  dsimp only
  rw [withMap_granted (s := s.began c) 3 _ hget hlive (.inl howner)]
  have huse : (!((s.began c).mapSessions (fld (m.w 3) 3 0)).isEmpty) = true ↔ s.mapSessions (fld (m.w 3) 3 0) ≠ [] := by
    change (!(s.mapSessions (fld (m.w 3) 3 0)).isEmpty) = true ↔ _
    simp
  simp only [huse]
  rfl

/-! ### MAP_LEND and MAP_RECALL -/

theorem exec_mapLend (h : s.runs c 0x0704 m) (hown : (fld (m.w 4) 7 0).testBit x.owner = false) : exec (.mapLend c) s =
    .next (((s.began c).updMap (fld (m.w 3) 3 0) fun x => { x with lent := x.lent ||| BitVec.ofNat 8 (fld (m.w 4) 7 0) }).done c) := by
  change execMapLend c s = _
  rw [execMapLend, onCmd_runs _ h]
  dsimp only
  rw [withMap_granted (s := s.began c) 3 _ hget hlive (.inl howner), if_neg (by simp [hown])]

theorem exec_mapRecall (h : s.runs c 0x0705 m) (hown : (fld (m.w 4) 7 0).testBit x.owner = false) : exec (.mapRecall c) s = .next (
    if (s.mapSessions (fld (m.w 3) 3 0)).any (fld (m.w 4) 7 0).testBit then (s.began c).refuseOpen c BUSY
    else ((s.began c).updMap (fld (m.w 3) 3 0) fun x => { x with lent := x.lent &&& ~~~ BitVec.ofNat 8 (fld (m.w 4) 7 0) }).done c) := by
  change execMapRecall c s = _
  rw [execMapRecall, onCmd_runs _ h]
  dsimp only
  rw [withMap_granted (s := s.began c) 3 _ hget hlive (.inl howner), if_neg (by simp [hown])]
  rfl

end Owned

/-! ### MAP_EDIT -/

/-- `y` is `x` with numbers of its counters given out (R383). -/
def MapS.Numbered (x y : MapS) : Prop := y = { x with nextLm := y.nextLm, nextKf := y.nextKf, nextEdge := y.nextEdge }

theorem MapS.Numbered.refl (x : MapS) : x.Numbered x := rfl

theorem MapS.Numbered.trans {x y z : MapS} (h : x.Numbered y) (k : y.Numbered z) : x.Numbered z := by
  unfold MapS.Numbered at *
  rw [k, h]

/-- A pass that numbers an entry at each step numbers the map. -/
theorem MapS.Numbered.foldl {α β : Type} {x : MapS} {f : MapS × β → α → MapS × β} {l : List α} {a : MapS × β} (ha : x.Numbered a.1)
    (hf : ∀ (a : MapS × β) (y : α), a.1.Numbered (f a y).1) : x.Numbered (l.foldl f a).1 := by
  induction l generalizing a with
  | nil => exact ha
  | cons y l ih => exact ih (ha.trans (hf a y))

/-- Giving an item its IDs changes the map's counters alone (R383). -/
theorem MapS.assign_numbered (x : MapS) (ch : MapChange) : x.Numbered (x.assign ch).1 := by
  cases ch with
  | addKeyframe e feats vec lms edges =>
    have hkf : x.Numbered x.nextKfId.2 := rfl
    refine .foldl (a := (_, [])) (.foldl (a := (_, [])) hkf ?landmark) ?edge
    case landmark => exact fun _ _ => rfl
    case edge => exact fun _ _ => rfl
  | addLandmark | updateLandmark | deleteLandmark | updateKeyframe | deleteKeyframe | addEdge | deleteEdge => rfl

/-- Every OP below 7 names a change (R705). -/
theorem editChange_known {op : Byte} {e : List Byte} (h : op.toNat < 7) : ∃ ch, editChange (op :: e) = some ch := by
  have hop : leAt (op :: e) 0 1 = op.toNat := by simp [leAt, slice, ofLe]
  unfold editChange
  rw [hop]
  generalize op.toNat = n at h
  interval_cases n <;> exact ⟨_, rfl⟩

/-- A list of one piece's length is that piece. -/
theorem chunks_one {α : Type} {k fuel : Nat} {l : List α} (hl : l.length = k) (hk : k ≠ 0) : chunks k (fuel + 1) l = [l] := by
  cases l with
  | nil => exact absurd hl.symm hk
  | cons a l =>
    rw [chunks, List.take_of_length_le hl.le, List.drop_of_length_le hl.le]
    · cases fuel <;> rfl
    · nofun

/-- What the item `ch` of a MAP_EDIT waits as (R707). -/
def MapS.editItem (x : MapS) (ch : MapChange) (c : CmdRef) : QueuedChange := { op := .change (x.assign ch).2.1, origin := .command c 0 }

theorem exec_mapEdit_one {s : State} {c : CmdRef} {m : Cmd} {x : MapS} {b : List Byte} {ch : MapChange} (h : s.runs c 0x0703 m)
    (hget : Tab.get? s.maps (fld (m.w 3) 3 0) = some x) (hlive : x.withdrawn = false) (howner : x.owner = m.ctx) (hlen : m.sgTotal 4 = 136)
    (hb : sgIn m 4 s = .bytes b) (hblen : b.length = 136) (hch : editChange b = some ch) :
    exec (.mapEdit c) s = .next ((((s.began c).updMap (fld (m.w 3) 3 0) fun _ => (x.assign ch).1).enqueue (fld (m.w 3) 3 0) [x.editItem ch c]).updCmd c
      fun y => { y with work := [0, (x.assign ch).2.2.toNat] }) := by
  change execMapEdit c s = _
  rw [execMapEdit, onCmd_runs _ h]
  dsimp only
  rw [withMap_granted (s := s.began c) 3 _ hget hlive (.inl howner), if_neg (by simp [hlen]), withSg, sgIn_began, hb]
  simp only [chunks_one hblen (by decide), List.map_cons, List.map_nil, List.zipIdx_cons, List.zipIdx_nil, List.foldl_cons, List.foldl_nil, hch,
    List.nil_append, if_neg (List.cons_ne_nil _ _)]
  rw [State.enqueue, State.updMap_updCmd]
  rfl

/-! ### MAP_MERGE -/

section Merge

variable {s : State} {c : CmdRef} {m : Cmd} {x y : MapS} (h : s.runs c 0x0706 m)
  (hget : Tab.get? s.maps (fld (m.w 3) 3 0) = some x) (hlive : x.withdrawn = false) (howner : x.owner = m.ctx)

include h hget hlive howner

theorem exec_mapMerge_itself (hsame : fld (m.w 3) 11 8 = fld (m.w 3) 3 0) : exec (.mapMerge c) s = .next ((s.began c).badWord c 3) := by
  change execMapMerge c s = _
  rw [execMapMerge, onCmd_runs _ h]
  dsimp only
  rw [hsame, withMap_granted (s := s.began c) 3 _ hget hlive (.inl howner), withMap_granted (s := s.began c) 3 _ hget hlive (.inl howner), if_pos rfl]

/-- Whether a map has room for all that another shows at its current generation (R381, R412). -/
def MapS.takes (x y : MapS) : Bool :=
  x.roomFor x.lmCap x.lms.length (y.lmsAt y.gen).length 0 && x.roomFor x.kfCap x.kfs.length (y.kfsAt y.gen).length 0
    && x.roomFor x.edgeCap x.edges.length (y.edgesAt y.gen).length 0

/-- The item that a MAP_MERGE waits as. -/
def mergeItem (m : Cmd) (c : CmdRef) (y : MapS) (b : List Byte) : QueuedChange :=
  { op := .merge (fld (m.w 3) 11 8) y.gen ((List.range 7).map fun k => m.w (4 + k)) ((chunks 64 65 b).map edgeOf), origin := .command c 0 }

theorem exec_mapMerge {b : List Byte} (hne : fld (m.w 3) 11 8 ≠ fld (m.w 3) 3 0) (hsrc : Tab.get? s.maps (fld (m.w 3) 11 8) = some y)
    (hsrcLive : y.withdrawn = false) (huse : y.owner = m.ctx ∨ y.lent.getLsbD m.ctx = true) (hmod : m.sgTotal 11 % 64 = 0)
    (hmax : m.sgTotal 11 ≤ 4096) (hb : sgIn m 11 s = .bytes b) : exec (.mapMerge c) s = .next (
      if x.takes y = false then (s.began c).refuseOpen c NO_RESERVATION
      else (((s.began c).updMap (fld (m.w 3) 3 0) fun x => x.openSnap x.gen (.command c)).updMap (fld (m.w 3) 11 8)
        fun y => y.openSnap y.gen (.command c)).enqueue (fld (m.w 3) 3 0) [mergeItem m c y b]) := by
  change execMapMerge c s = _
  rw [execMapMerge, onCmd_runs _ h]
  dsimp only
  rw [withMap_granted (s := s.began c) 3 _ hget hlive (.inl howner),
    withMap_granted (s := s.began c) 3 _ hsrc hsrcLive (huse.imp_right fun hlent => ⟨rfl, hlent⟩), if_neg hne.symm,
    if_neg (by omega), withSg, sgIn_began, hb]
  rfl

end Merge

/-! ### MAP_QUERY and MAP_EXPORT -/

/-- Reading a block notes when, and changes nothing else of the map (R415). -/
theorem MapS.readBlock_eq (x : MapS) (kf : Word) : x.readBlock kf = { x with feats := (x.readBlock kf).feats, readClock := (x.readBlock kf).readClock } := by
  unfold MapS.readBlock
  split <;> rfl

theorem MapS.readBlocks_eq (l : List Word) (x : MapS) :
    l.foldl MapS.readBlock x = { x with feats := (l.foldl MapS.readBlock x).feats, readClock := (l.foldl MapS.readBlock x).readClock } := by
  induction l generalizing x with
  | nil => rfl
  | cons kf l ih =>
    rw [List.foldl_cons, ih, x.readBlock_eq kf]

section Used

variable {s : State} {c : CmdRef} {m : Cmd} {x : MapS} (hget : Tab.get? s.maps (fld (m.w 3) 3 0) = some x) (hlive : x.withdrawn = false)
  (huse : x.owner = m.ctx ∨ x.lent.getLsbD m.ctx = true)

include hget hlive huse

theorem exec_mapQuery_count (h : s.runs c 0x0702 m) (hcount : (m.w 5).toNat < 1 ∨ 65536 < (m.w 5).toNat) :
    exec (.mapQuery c) s = .next ((s.began c).badWord c 5) := by
  change execMapQuery c s = _
  rw [execMapQuery, onCmd_runs _ h]
  dsimp only
  rw [withMap_granted (s := s.began c) 3 _ hget hlive (huse.imp_right fun hlent => ⟨rfl, hlent⟩), if_pos hcount]

/-- A query in range ends with what it read, at the map's current generation (R391, R704). -/
theorem exec_mapQuery (h : s.runs c 0x0702 m) (hlow : 1 ≤ (m.w 5).toNat) (hhigh : (m.w 5).toNat ≤ 65536) : ∃ (read : List Word) (b : List Byte) (n : Word),
    exec (.mapQuery c) s = .next (((s.began c).updMap (fld (m.w 3) 3 0) fun y => read.foldl MapS.readBlock y).doneOut m 6 b
      [x.gen, n, w32 b.length]) := by
  change ∃ read b n, execMapQuery c s = _
  rw [execMapQuery, onCmd_runs _ h]
  dsimp only
  rw [withMap_granted (s := s.began c) 3 _ hget hlive (huse.imp_right fun hlent => ⟨rfl, hlent⟩), if_neg (by omega)]
  exact ⟨_, _, _, rfl⟩

theorem exec_mapExport (h : s.runs c 0x0707 m) : exec (.mapExport c) s = .next (
    if m.sgTotal 4 < (perraBytes s x x.gen (bit (m.w 3) 8)).length then (s.began c).refuse c BAD_PARAM 0x0014
    else (s.began c).doneOut m 4 (perraBytes s x x.gen (bit (m.w 3) 8))
      [w32 (perraBytes s x x.gen (bit (m.w 3) 8)).length, w32 (perraBytes s x x.gen (bit (m.w 3) 8)).length]) := by
  change execMapExport c s = _
  rw [execMapExport, onCmd_runs _ h]
  dsimp only
  rw [withMap_granted (s := s.began c) 3 _ hget hlive (huse.imp_right fun hlent => ⟨rfl, hlent⟩)]
  rfl

end Used

/-! ### MAP_CREATE and MAP_IMPORT -/

/-- A charge of tier 2 (R379). -/
theorem State.ctxAt_charge_hbm (s : State) (n g k : Nat) :
    (s.charge n 2 g).ctxAt k = if k = n then { s.ctxAt n with hbmUsed := (s.ctxAt n).hbmUsed + g } else s.ctxAt k := by
  rw [State.charge, State.ctxAt_updCtx]
  rfl

/-- A map as the request gives it to context `n`. -/
def MapReq.map (r : MapReq) (n : Nat) (x : MapS) : MapS :=
  { x with owner := n, lmCap := r.lm * 65536, kfCap := r.kf * 16384, edgeCap := r.edge * 65536, featPool := r.pool * 65536, headroom := r.headroom }

/-- What MAP_CREATE and MAP_IMPORT leave of the tables once they have ended: the map under its number, and its owner charged. -/
theorem addMap_done_spec {s u : State} {c : CmdRef} (n i : Nat) (r : MapReq) (x : MapS) (body : List Word) (h : (s.findCmd c).isSome)
    (hu : u = { s.began c with ctxs := u.ctxs }) : ∃ t, (u.addMap n i r x).done c OK 0 body = t ∧ t.answered c OK 0 body ∧
      Tab.get? t.maps i = some (r.map n x) ∧ (t.ctxAt n).hbmUsed = (u.ctxAt n).hbmUsed + r.granules ∧
      (∀ k, k ≠ i → Tab.get? t.maps k = Tab.get? s.maps k) ∧ (∀ k, k ≠ n → t.ctxAt k = u.ctxAt k) ∧ otherCmds s t c ∧
      t = { s with cmds := t.cmds, ctxs := t.ctxs, maps := t.maps } := by
  have hmaps : u.maps = s.maps := by rw [hu]; rfl
  have hctx : ∀ k, (u.addMap n i r x).ctxAt k = (u.charge n 2 r.granules).ctxAt k := fun _ => rfl
  have hput : (u.addMap n i r x).maps = Tab.put s.maps i (r.map n x) := by rw [← hmaps]; rfl
  obtain ⟨hans, hothers⟩ := State.done_of_began (u := u.addMap n i r x) OK 0 body [] h (by rw [State.addMap, hu]; rfl)
  refine ⟨_, rfl, hans, ?_, ?_, fun k hk => ?_, fun k hk => ?_, hothers, ?_⟩
  · change Tab.get? (u.addMap n i r x).maps i = _
    rw [hput, Tab.get?_put, if_pos rfl]
  · change ((u.addMap n i r x).ctxAt n).hbmUsed = _
    rw [hctx, State.ctxAt_charge_hbm, if_pos rfl]
  · change Tab.get? (u.addMap n i r x).maps k = _
    rw [hput, Tab.get?_put, if_neg hk]
  · change (u.addMap n i r x).ctxAt k = _
    rw [hctx, State.ctxAt_charge_hbm, if_neg hk]
  · rw [State.done_eq, State.addMap, hu]
    rfl

section MapReq

variable {s : State} {c : CmdRef} {m : Cmd} {i hr : Nat} {r : MapReq} (hi : i < 16)
  (hnum : (if fld (m.w 3) 7 0 = 0xFF then s.maps.lowestFree 16 else some (fld (m.w 3) 7 0)) = some i) (hpool : 1024 ≤ (m.w 7).toNat)
  (hroom : withDefault (fld (m.w 8) 6 0) 4 100 25 = some hr)
  (hreq : r = { lm := (m.w 4).toNat, kf := (m.w 5).toNat, edge := (m.w 6).toNat, pool := (m.w 7).toNat, headroom := hr })

include hi hnum hpool hroom hreq

/-- A request with every word in range continues with a number that is free (R378, R379). -/
theorem withMapReq_inRange (K : Nat → MapReq → State) :
    withMapReq m s K = if Tab.has s.maps i = true then s.refuseOpen m.ref BUSY else K i r := by
  have hlow : ¬ (m.w 7).toNat < 1024 := by omega
  have hhigh : ¬ 15 < i := by omega
  subst hreq
  simp only [withMapReq, if_neg hlow, hroom, hnum, if_neg hhigh]

theorem exec_mapCreate (h : s.runs c 0x0700 m) : exec (.mapCreate c) s = .next (
    if Tab.has s.maps i = true then (s.began c).refuseOpen c BUSY
    else if s.tierFits m.ctx 2 r.granules && s.tablesFit r then ((s.began c).addMap m.ctx i r {}).done c OK 0 [w32 i]
    else (s.began c).refuseOpen c NO_RESERVATION) := by
  change execMapCreate c s = _
  rw [execMapCreate, onCmd_runs _ h, withMapReq_inRange (s := s.began c) hi hnum hpool hroom hreq, State.findCmd_ref h.1]
  rfl

/-- Whether the tables of a container fit the capacities asked for. -/
def MapReq.holds (r : MapReq) (x : MapS) : Bool :=
  decide (x.lms.length ≤ r.lm * 65536) && decide (x.kfs.length ≤ r.kf * 16384) && decide (x.edges.length ≤ r.edge * 65536)
    && decide (x.poolUsed ≤ r.pool * 65536)

variable {b : List Byte} (hfree : Tab.has s.maps i = false) (hb : sgIn m 9 s = .bytes b)

include hfree hb

theorem exec_mapImport (h : s.runs c 0x0708 m) : exec (.mapImport c) s = .next (
    match importCheck b (bit (m.w 3) 8) with
    | some e => (s.began c).refuse c e.1 e.2
    | none =>
      if r.lm * 65536 < (readMap b).lms.length ∨ r.kf * 16384 < (readMap b).kfs.length ∨ r.edge * 65536 < (readMap b).edges.length ∨
          r.pool * 65536 < (readMap b).poolUsed then (s.began c).refuse c NO_RESERVATION 0
      else if s.tierFits m.ctx 2 (r.granules + total ((readMap b).indexes.map fun y => y.2.granules)) && s.tablesFit r
          && decide (s.vecCaps + total ((readMap b).indexes.map fun y => y.2.cap) ≤ 16777216) then
        (((s.began c).charge m.ctx 2 (total ((readMap b).indexes.map fun y => y.2.granules))).addMap m.ctx i r
          { readMap b with lastCommit := some s.time.ticks }).done c OK 0 [w32 i]
      else (s.began c).refuseOpen c NO_RESERVATION) := by
  have hopen : ¬ Tab.has (s.began c).maps i = true := by change ¬ Tab.has s.maps i = true; simp [hfree]
  change execMapImport c s = _
  rw [execMapImport, onCmd_runs _ h, withMapReq_inRange (s := s.began c) hi hnum hpool hroom hreq, if_neg hopen, withSg, sgIn_began, hb]
  dsimp only
  cases importCheck b (bit (m.w 3) 8) <;> rfl

end MapReq

/-- Every entry of an imported map is born at generation 1 (R422). -/
theorem readMap_born (b : List Byte) : (∀ e ∈ (readMap b).lms, e.genBorn = 1) ∧ (∀ e ∈ (readMap b).kfs, e.genBorn = 1) ∧
    (∀ e ∈ (readMap b).edges, e.genBorn = 1) := by
  refine ⟨?_, ?_, ?_⟩ <;>
  · intro e he
    obtain ⟨_, -, rfl⟩ := List.mem_map.1 he
    rfl

/-! ### What the commands that complete leave -/

/-- A MAP_MERGE that waits: both maps hold a snapshot of their current generation for it, and the target its item (R411, Table 9-6). -/
theorem mergeWaits_spec {s : State} {c : CmdRef} {i src : Nat} {x y : MapS} (q : QueuedChange) (hget : Tab.get? s.maps i = some x)
    (hsrc : Tab.get? s.maps src = some y) (hne : src ≠ i) :
    ∃ t, ((s.updMap i fun x => x.openSnap x.gen (.command c)).updMap src fun y => y.openSnap y.gen (.command c)).enqueue i [q] = t ∧
      Tab.get? t.maps i = some { x.openSnap x.gen (.command c) with queue := x.queue ++ [q] } ∧
      Tab.get? t.maps src = some (y.openSnap y.gen (.command c)) ∧ t = { s with maps := t.maps } := by
  have htarget := s.updMap_eq i fun x => x.openSnap x.gen (.command c)
  have hself : Tab.get? (s.updMap i fun x => x.openSnap x.gen (.command c)).maps i = some (x.openSnap x.gen (.command c)) :=
    State.get?_updMap_self _ hget
  have hother : Tab.get? (s.updMap i fun x => x.openSnap x.gen (.command c)).maps src = some y := (s.get?_updMap_other _ hne).trans hsrc
  generalize (s.updMap i fun x => x.openSnap x.gen (.command c)) = u at htarget hself hother ⊢
  have hsource := u.updMap_eq src fun y => y.openSnap y.gen (.command c)
  have hkept : Tab.get? (u.updMap src fun y => y.openSnap y.gen (.command c)).maps i = some (x.openSnap x.gen (.command c)) :=
    (u.get?_updMap_other _ hne.symm).trans hself
  have hsnap : Tab.get? (u.updMap src fun y => y.openSnap y.gen (.command c)).maps src = some (y.openSnap y.gen (.command c)) :=
    State.get?_updMap_self _ hother
  generalize (u.updMap src fun y => y.openSnap y.gen (.command c)) = v at hsource hkept hsnap ⊢
  exact ⟨_, rfl, State.get?_updMap_self _ hkept, (v.get?_updMap_other _ hne).trans hsnap,
    State.eq_of_maps (State.eq_of_maps htarget hsource) (v.updMap_eq i _)⟩

/-- A snapshot that is opened stands among the open ones. -/
theorem MapS.openSnap_mem (x : MapS) (g : Word) (holder : SnapHolder) : ∃ z ∈ (x.openSnap g holder).snaps, z.gen = g ∧ z.holder = holder :=
  ⟨_, List.mem_append_right _ (List.mem_singleton_self _), rfl, rfl⟩

/-- An item of MAP_EDIT that waits: the map's counters may have gone on, its entries stay (R705, R707). -/
theorem editWaits_spec {s : State} {i : Nat} {x : MapS} {ch : MapChange} (q : QueuedChange) (hget : Tab.get? s.maps i = some x) :
    ∃ t, (s.updMap i fun _ => (x.assign ch).1).enqueue i [q] = t ∧ Tab.get? t.maps i = some { (x.assign ch).1 with queue := x.queue ++ [q] } ∧
      (∀ k, k ≠ i → Tab.get? t.maps k = Tab.get? s.maps k) ∧ t = { s with maps := t.maps } := by
  have hqueue : (x.assign ch).1.queue = x.queue := by rw [x.assign_numbered ch]
  have hnumbered := s.updMap_eq i fun _ => (x.assign ch).1
  have hself : Tab.get? (s.updMap i fun _ => (x.assign ch).1).maps i = some (x.assign ch).1 := State.get?_updMap_self (fun _ => (x.assign ch).1) hget
  have hothers : ∀ k, k ≠ i → Tab.get? (s.updMap i fun _ => (x.assign ch).1).maps k = Tab.get? s.maps k := fun k hk => s.get?_updMap_other _ hk
  generalize (s.updMap i fun _ => (x.assign ch).1) = u at hnumbered hself hothers ⊢
  refine ⟨_, rfl, ?_, fun k hk => (u.get?_updMap_other _ hk).trans (hothers k hk), State.eq_of_maps hnumbered (u.updMap_eq i _)⟩
  rw [State.enqueue, State.get?_updMap_self _ hself, hqueue]

/-- A MAP_QUERY that has read: its answer, and that the map's entries stay (R704). -/
theorem queryDone_spec {s : State} {c : CmdRef} {m : Cmd} {op i : Nat} {x : MapS} (read : List Word) (b : List Byte) (body : List Word)
    (h : s.runs c op m) (hget : Tab.get? s.maps i = some x) :
    ∃ t y, ((s.began c).updMap i fun y => read.foldl MapS.readBlock y).doneOut m 6 b body = t ∧
      (t.answered c OK 0 body ∨ t.answered c OK_PARTIAL 0 body) ∧ Tab.get? t.maps i = some y ∧
      y = { x with feats := y.feats, readClock := y.readClock } ∧ (∀ k, k ≠ i → Tab.get? t.maps k = Tab.get? s.maps k) ∧ otherCmds s t c ∧
      t = { s with cmds := t.cmds, maps := t.maps, hostMem := t.hostMem } := by
  have hread := (s.began c).updMap_eq i fun y => read.foldl MapS.readBlock y
  have hself : Tab.get? ((s.began c).updMap i fun y => read.foldl MapS.readBlock y).maps i = some (read.foldl MapS.readBlock x) :=
    State.get?_updMap_self (fun y => read.foldl MapS.readBlock y) hget
  have hothers : ∀ k, k ≠ i → Tab.get? ((s.began c).updMap i fun y => read.foldl MapS.readBlock y).maps k = Tab.get? s.maps k :=
    fun k hk => (s.began c).get?_updMap_other _ hk
  generalize ((s.began c).updMap i fun y => read.foldl MapS.readBlock y) = u at hread hself hothers ⊢
  have hcmds : u.cmds = (s.began c).cmds := by rw [hread]
  have hfound : u.findCmd c = some { m with begun := true } := by
    rw [State.findCmd_congr hcmds, State.findCmd_began, if_pos rfl, h.1, Option.map_some]
  obtain ⟨hans, hkept, hframe⟩ := doneOut_spec 6 b body hfound
  have hcmd : u.doneOut { m with begun := true } 6 b body = u.doneOut m 6 b body := rfl
  rw [hcmd] at hans hkept hframe
  generalize u.doneOut m 6 b body = t at hans hkept hframe ⊢
  have hmaps : t.maps = u.maps := by rw [hframe]
  refine ⟨t, _, rfl, ?_, by rw [hmaps]; exact hself, MapS.readBlocks_eq read x, fun k hk => by rw [hmaps]; exact hothers k hk, ?_, ?_⟩
  · split at hans
    · exact .inl hans
    · exact .inr hans
  · exact fun d hd => (hkept d hd).trans ((State.findCmd_congr hcmds d).trans (otherCmds_began s c d hd))
  · rw [hframe, hread]; rfl

/-! ### The obligation -/

/-- Settles O26: each command by its refusals, then what it leaves of the maps, its context and the commands. -/
theorem mapCommandsByOwnerAndRoom : Obligations.MapCommandsByOwnerAndRoom := by
  unfold Obligations.MapCommandsByOwnerAndRoom
  refine ⟨?create, ?notOwner, ?owned, ?used, ?imported⟩
  case create =>
    intro s c m i hr r h href hi hnum hpool hroom hreq
    have hexec := exec_mapCreate hi hnum hpool hroom hreq h
    refine ⟨fun hused => by rw [hexec, if_pos hused], fun hfree hfull => ?_, fun hfree hfits => ?_⟩
    · rw [hexec, if_neg (by simp [hfree]), if_neg (by simp [hfull])]
    · rw [if_neg (by simp [hfree]), if_pos hfits] at hexec
      obtain ⟨t, ht, hans, hmap, hused, hmaps, hctxs, hothers, hframe⟩ :=
        addMap_done_spec (u := s.began c) m.ctx i r {} [w32 i] h.isSome rfl
      exact ⟨t, hexec.trans (congrArg _ ht), hans, hmap, hused, hmaps, hctxs, hothers, hframe⟩
  case notOwner =>
    rintro s c m _ x - rfl hget hlive howner
    exact ⟨exec_mapDestroy_notOwner hget hlive howner, exec_mapEdit_notOwner hget hlive howner, exec_mapLend_notOwner hget hlive howner,
      exec_mapRecall_notOwner hget hlive howner, exec_mapMerge_notOwner hget hlive howner, exec_mapQuery_notOwner hget hlive howner,
      exec_mapExport_notOwner hget hlive howner⟩
  case owned =>
    rintro s c m _ x - rfl hget hlive howner
    refine ⟨fun h huse => ?inUse, fun h hsessions hlent hflight => ?destroyed, fun h hown => ?lent, fun h hown hsession => ?recallBusy,
      fun h hown hsession => ?recalled, fun b op e h hlen hb hbe hblen hop => ?edit, fun h hsame => exec_mapMerge_itself h hget hlive howner hsame,
      fun src y b h hsrcIs hne hsrc hsrcLive huse hmod hmax hb => ?merge⟩
    case inUse => rw [exec_mapDestroy hget hlive howner h, if_pos huse]
    case destroyed =>
      have hexec := exec_mapDestroy hget hlive howner h
      rw [if_neg (by simp [hsessions, hlent, hflight])] at hexec
      have hgetBegan : Tab.get? (s.began c).maps (fld (m.w 3) 3 0) = some x := hget
      obtain ⟨hgone, hmaps, hctxs, hcredit⟩ := State.dropMap_spec hgetBegan
      have hframe := State.dropMap_eq hgetBegan
      generalize (s.began c).dropMap (fld (m.w 3) 3 0) = u at hexec hgone hmaps hctxs hcredit hframe
      obtain ⟨hans, hothers⟩ := State.done_of_began (u := u) OK 0 [] [] h.isSome (by rw [hframe])
      rw [howner] at hctxs hcredit
      exact ⟨_, hexec, hans, hgone, hmaps, hctxs, hcredit, hothers, by rw [hframe]; rfl⟩
    case lent =>
      obtain ⟨t, ht, hans, hmap, hmaps, hothers, hframe⟩ :=
        updMap_done_spec (fun x => { x with lent := x.lent ||| BitVec.ofNat 8 (fld (m.w 4) 7 0) }) h hget
      refine ⟨t, _, (exec_mapLend hget hlive howner h hown).trans (congrArg _ ht), hans, hmap, rfl, fun k hk => ?_, hmaps, hothers, hframe⟩
      rw [BitVec.getLsbD_or, getLsbD_lowByte _ hk]
    case recallBusy => rw [exec_mapRecall hget hlive howner h hown, if_pos (List.any_eq_true.2 hsession)]
    case recalled =>
      have hexec := exec_mapRecall hget hlive howner h hown
      rw [if_neg (by simpa using hsession)] at hexec
      obtain ⟨t, ht, hans, hmap, hmaps, hothers, hframe⟩ :=
        updMap_done_spec (fun x => { x with lent := x.lent &&& ~~~ BitVec.ofNat 8 (fld (m.w 4) 7 0) }) h hget
      refine ⟨t, _, hexec.trans (congrArg _ ht), hans, hmap, rfl, fun k hk => ?_, hmaps, hothers, hframe⟩
      rw [BitVec.getLsbD_and, BitVec.getLsbD_not, getLsbD_lowByte _ hk, decide_eq_true hk, Bool.true_and]
    case edit =>
      obtain ⟨ch, hch⟩ := editChange_known (e := e) hop
      have hexec := exec_mapEdit_one h hget hlive howner hlen hb hblen (hbe ▸ hch)
      obtain ⟨u, hu, hmap, hmaps, hframe⟩ := editWaits_spec (s := s.began c) (ch := ch) (x.editItem ch c) hget
      rw [hu] at hexec
      obtain ⟨hwaits, hothers⟩ := State.waits_of_updCmd (u := u) (fun y => { y with work := [0, (x.assign ch).2.2.toNat] }) h (by rw [hframe])
        fun _ => ⟨rfl, rfl⟩
      have hkept := x.assign_numbered ch
      refine ⟨_, _, _, hexec, hmap, rfl, rfl, ?_, ?_, ?_, ?_, hwaits, hmaps, hothers, by rw [hframe]; rfl⟩ <;> rw [hkept]
    case merge =>
      subst hsrcIs
      have hexec := exec_mapMerge h hget hlive howner hne hsrc hsrcLive huse hmod hmax hb
      refine ⟨fun hfull => hexec.trans (congrArg _ (if_pos hfull)), fun hroom => ?_⟩
      have htakes : x.takes y = true := hroom
      rw [if_neg (by simp [htakes])] at hexec
      obtain ⟨t, ht, htarget, hsource, hframe⟩ := mergeWaits_spec (s := s.began c) (c := c) (mergeItem m c y b) hget hsrc hne
      obtain ⟨hwaits, hothers⟩ := State.waits_of_began (u := t) h (by rw [hframe])
      exact ⟨t, _, _, hexec.trans (congrArg _ ht), htarget, hsource, List.length_append, rfl, rfl, rfl, x.openSnap_mem _ _, y.openSnap_mem _ _, rfl,
        hwaits, hothers, by rw [hframe]; rfl⟩
  case used =>
    rintro s c m _ x href rfl hget hlive huse
    refine ⟨fun h => exec_mapQuery_count hget hlive huse h, fun h hlow hhigh => ?query, fun h hsmall => ?small, fun h hfits => ?exported⟩
    case query =>
      obtain ⟨read, b, n, hexec⟩ := exec_mapQuery hget hlive huse h hlow hhigh
      obtain ⟨t, y, ht, hans, hmap, hentries, hmaps, hothers, hframe⟩ := queryDone_spec read b [x.gen, n, w32 b.length] h hget
      exact ⟨t, y, n, _, hexec.trans (congrArg _ ht), hans, hmap, hentries, hmaps, hothers, hframe⟩
    case small => rw [exec_mapExport hget hlive huse h, if_pos hsmall]
    case exported =>
      have hexec := exec_mapExport hget hlive huse h
      rw [if_neg (by omega)] at hexec
      obtain ⟨hans, -, -, hothers, hframe⟩ := doneOut_answers 4 (perraBytes s x x.gen (bit (m.w 3) 8))
        [w32 (perraBytes s x x.gen (bit (m.w 3) 8)).length, w32 (perraBytes s x x.gen (bit (m.w 3) 8)).length] h href
      rw [if_pos hfits] at hans
      exact ⟨_, hexec, hans, hothers, hframe⟩
  case imported =>
    intro s c m i hr r b h href hi hnum hfree hpool hroom hb hreq
    have hexec := exec_mapImport hi hnum hpool hroom hreq hfree hb h
    refine ⟨fun st d hbad => by rw [hexec, hbad], fun hok hlarge => ?large, fun hok hlms hkfs hedges hused htier htables hvecs => ?made⟩
    case large =>
      simp only [hok] at hexec
      rw [hexec, if_pos (hlarge.imp_right (Or.imp_right .inl))]
    case made =>
      simp only [hok] at hexec
      rw [if_neg (by omega), if_pos (by simp [htier, htables, hvecs])] at hexec
      obtain ⟨t, ht, hans, hmap, -, hmaps, hctxs, hothers, hframe⟩ := addMap_done_spec
        (u := (s.began c).charge m.ctx 2 (total ((readMap b).indexes.map fun y => y.2.granules))) m.ctx i r
        { readMap b with lastCommit := some s.time.ticks } [w32 i] h.isSome rfl
      obtain ⟨hlmsBorn, hkfsBorn, hedgesBorn⟩ := readMap_born b
      refine ⟨t, _, hexec.trans (congrArg _ ht), hans, hmap, rfl, rfl, rfl, hlmsBorn, hkfsBorn, hedgesBorn, rfl, rfl, rfl, hmaps, fun k hk => ?_,
        hothers, hframe⟩
      rw [hctxs k hk, State.ctxAt_charge_hbm, if_neg hk]
      rfl

end Sys2Proof.Machine

/-! ## Commits: what a map's entries become -/

namespace Sys2Proof.Machine

/-! ### Replacing a map -/

theorem State.putMap_eq (s : State) (i : Nat) (x : MapS) :
    s.putMap i x = { s with maps := (s.putMap i x).maps, ctxs := (s.putMap i x).ctxs } := by
  rw [State.putMap, s.updMap_eq i]
  rfl

theorem State.get?_putMap_self {s : State} {i : Nat} (x : MapS) (h : Tab.has s.maps i = true) : Tab.get? (s.putMap i x).maps i = some x := by
  obtain ⟨y, hy⟩ := Tab.has_eq_true.1 h
  exact State.get?_updMap_self (fun _ => x) hy

theorem State.get?_putMap_other (s : State) {i k : Nat} (x : MapS) (h : k ≠ i) : Tab.get? (s.putMap i x).maps k = Tab.get? s.maps k :=
  s.get?_updMap_other _ h

theorem State.mapAt_of_get? {s : State} {i : Nat} {x : MapS} (h : Tab.get? s.maps i = some x) : s.mapAt i = x := by
  rw [State.mapAt, Tab.getD, h, Option.getD_some]

theorem State.has_of_get? {s : State} {i : Nat} {x : MapS} (h : Tab.get? s.maps i = some x) : Tab.has s.maps i = true :=
  Tab.has_eq_true.2 ⟨x, h⟩

/-! ### TOMBSTONE_FREE -/

/-- A version stays while it is live, or dead after an open snapshot (R396). -/
theorem MapS.freeable_eq_false {x : MapS} {dead : Word} :
    x.freeable dead = false ↔ dead = 0xFFFFFFFF ∨ ∃ z ∈ x.snaps, z.gen ≠ dead ∧ follows z.gen dead = false := by
  simp only [MapS.freeable, Bool.and_eq_false_iff, bne_eq_false_iff_eq, List.all_eq_false, Bool.or_eq_true, beq_iff_eq, not_or, Bool.not_eq_true]
  rfl

theorem MapS.mem_freeTombstones (x : MapS) :
    (∀ e, e ∈ x.freeTombstones.lms ↔ e ∈ x.lms ∧ x.freeable e.genDead = false) ∧
      (∀ e, e ∈ x.freeTombstones.kfs ↔ e ∈ x.kfs ∧ x.freeable e.genDead = false) ∧
      (∀ e, e ∈ x.freeTombstones.edges ↔ e ∈ x.edges ∧ x.freeable e.genDead = false) := by
  refine ⟨fun e => ?_, fun e => ?_, fun e => ?_⟩ <;> simp [MapS.freeTombstones, List.mem_filter]

theorem exec_tombstoneFree {s : State} {i : Nat} {x : MapS} (h : Tab.get? s.maps i = some x) :
    exec (.tombstoneFree i) s = .next (s.putMap i x.freeTombstones) := by
  change execTombstoneFree i s = _
  rw [execTombstoneFree, onTrigger_fires _ _ (State.has_of_get? h), State.mapAt_of_get? h]

/-! ### GENERATION_SWEEP -/

/-- A map after a pass of the sweep (R400, R438). -/
def MapS.swept (x : MapS) : MapS :=
  { x with lms := x.lms.map fun e => { e with genBorn := sweptBorn x.gen e.genBorn },
           kfs := x.kfs.map fun e => { e with genBorn := sweptBorn x.gen e.genBorn },
           edges := x.edges.map fun e => { e with genBorn := sweptBorn x.gen e.genBorn },
           indexes := Tab.mapVals x.indexes fun _ y => y.mapEntries fun e => { e with genBorn := sweptBorn x.gen e.genBorn },
           sweepDue := x.gen }

theorem exec_generationSweep {s : State} {i : Nat} {x : MapS} (h : Tab.get? s.maps i = some x) :
    exec (.generationSweep i) s = .next (s.updMap i MapS.swept) := by
  change execGenerationSweep i s = _
  rw [execGenerationSweep, onTrigger_fires _ _ (State.has_of_get? h)]
  rfl

/-- An element of a mapped list is the image of the one at its place. -/
theorem eq_of_getElem?_map {α : Type} {f : α → α} {l : List α} {i : Nat} {e e' : α} (h : l[i]? = some e) (h' : (l.map f)[i]? = some e') : e' = f e := by
  rw [List.getElem?_map, h, Option.map_some] at h'
  exact (Option.some.inj h').symm

/-! ### Steps that leave maps' entries -/

/-- A map without its snapshots, its queue and the counts of its next events. -/
def MapS.stored (x : MapS) : MapS := { x with snaps := [], queue := [], dropped := 0, discarded := 0 }

/-- A step of a commit that leaves of every map for which `p` holds all that `MapS.stored` keeps, and of the rest of the state all but commands,
events, records, charges, queries and moves. -/
structure EntriesKept (p : Nat → Prop) (s t : State) : Prop where
  maps : ∀ k, p k → (Tab.get? t.maps k).map MapS.stored = (Tab.get? s.maps k).map MapS.stored
  state : t = { s with cmds := t.cmds, tether := t.tether, hostMem := t.hostMem, events := t.events, eventLimit := t.eventLimit, ctxs := t.ctxs,
                       held := t.held, maps := t.maps, queries := t.queries, jobs := t.jobs, jobSeq := t.jobSeq }

section EntriesKept

variable {p : Nat → Prop} (s : State)

theorem EntriesKept.refl : EntriesKept p s s := ⟨fun _ _ => rfl, rfl⟩

theorem EntriesKept.trans {s t u : State} (h : EntriesKept p s t) (k : EntriesKept p t u) : EntriesKept p s u where
  maps i hi := (k.maps i hi).trans (h.maps i hi)
  state := by rw [k.state, h.state]

theorem EntriesKept.mono {q : Nat → Prop} {s t : State} (h : EntriesKept p s t) (hq : ∀ k, q k → p k) : EntriesKept q s t :=
  ⟨fun k hk => h.maps k (hq k hk), h.state⟩

theorem EntriesKept.mapAt {s t : State} (h : EntriesKept p s t) {k : Nat} (hk : p k) : (t.mapAt k).stored = (s.mapAt k).stored := by
  have hmaps := h.maps k hk
  unfold State.mapAt Tab.getD
  cases hs : Tab.get? s.maps k <;> cases ht : Tab.get? t.maps k <;> rw [hs, ht] at hmaps
  case some.some => exact Option.some.inj hmaps
  case none.some => cases hmaps
  case some.none => cases hmaps

/-- What a map that was listed has become. -/
theorem EntriesKept.get? {s t : State} (h : EntriesKept p s t) {k : Nat} {x : MapS} (hk : p k) (hx : Tab.get? s.maps k = some x) :
    ∃ y, Tab.get? t.maps k = some y ∧ y.stored = x.stored := by
  have hmaps := h.maps k hk
  rw [hx, Option.map_some] at hmaps
  exact Option.map_eq_some_iff.1 hmaps

/-- A step that leaves the table of maps. -/
theorem EntriesKept.of_state {s t : State}
    (h : t = { s with cmds := t.cmds, tether := t.tether, hostMem := t.hostMem, events := t.events, eventLimit := t.eventLimit, ctxs := t.ctxs,
                      held := t.held, queries := t.queries, jobs := t.jobs, jobSeq := t.jobSeq }) : EntriesKept p s t :=
  ⟨fun k _ => by rw [h], by rw [h]⟩

theorem EntriesKept.updMap (i : Nat) {f : MapS → MapS} (hf : ∀ x, (f x).stored = x.stored) : EntriesKept p s (s.updMap i f) where
  maps k _ := by
    rw [State.get?_updMap]
    split
    case isTrue hk => rw [hk, Option.map_map]; exact congrArg (Option.map · _) (funext hf)
    case isFalse => rfl
  state := by rw [s.updMap_eq i f]

theorem EntriesKept.mapVals {f : Nat → MapS → MapS} (hf : ∀ k x, (f k x).stored = x.stored) :
    EntriesKept p s { s with maps := Tab.mapVals s.maps f } where
  maps k _ := by rw [Tab.get?_mapVals, Option.map_map]; exact congrArg (Option.map · _) (funext (hf k))
  state := rfl

theorem EntriesKept.forEach {α : Type} (l : List α) {f : α → State → State} (hf : ∀ x u, EntriesKept p u (f x u)) :
    EntriesKept p s (Machine.forEach l f s) :=
  forEach_keeps (P := EntriesKept p s) l f (fun x _ u hu => hu.trans (hf x u)) (.refl s)

theorem EntriesKept.putMap (i : Nat) (x : MapS) : EntriesKept (· ≠ i) s (s.putMap i x) where
  maps k hk := by rw [s.get?_putMap_other x hk]
  state := by rw [s.putMap_eq i x]

/-! #### The operations of a commit -/

theorem EntriesKept.raise (code detail : Nat) : EntriesKept p s (s.raise code detail) := .of_state rfl
theorem EntriesKept.raiseMap (i code detail : Nat) : EntriesKept p s (s.raiseMap i code detail) := .of_state rfl
theorem EntriesKept.updCmd (c : CmdRef) (f : Cmd → Cmd) : EntriesKept p s (s.updCmd c f) := .of_state rfl
theorem EntriesKept.refuse (c : CmdRef) (st d : Nat) : EntriesKept p s (s.refuse c st d) := .of_state rfl
theorem EntriesKept.closeSnap (h : SnapHolder) : EntriesKept p s (s.closeSnap h) := .mapVals s fun _ _ => rfl
theorem EntriesKept.dropQueued (c : CmdRef) : EntriesKept p s (s.dropQueued c) := .mapVals s fun _ _ => rfl
theorem EntriesKept.enqueue (i : Nat) (l : List QueuedChange) : EntriesKept p s (s.enqueue i l) := .updMap s i fun _ => rfl
theorem EntriesKept.requestMove (cls : Nat) (j : MoveJob) : EntriesKept p s (s.requestMove cls j) := .of_state (by rw [s.requestMove_eq cls j])

theorem EntriesKept.endSnapshot (i : Nat) (h : SnapHolder) (detail : Nat) : EntriesKept p s (s.endSnapshot i h detail) := by
  have hclosed : EntriesKept p s ((s.closeSnap h).raiseMap i 0x8704 detail) := (EntriesKept.closeSnap s h).trans (.raiseMap _ _ _ _)
  unfold State.endSnapshot
  generalize (s.closeSnap h).raiseMap i 0x8704 detail = u at hclosed ⊢
  cases h with
  | stage ctx n => exact hclosed
  | command c => exact hclosed.trans ((EntriesKept.dropQueued u c).trans (.refuse _ _ _ _))
  | query q =>
    refine hclosed.trans ?_
    dsimp only
    split
    · split <;> exact .of_state rfl
    · exact .of_state rfl

theorem EntriesKept.mapCounts (i : Nat) : EntriesKept p s (s.mapCounts i) := by
  unfold State.mapCounts
  extract_lets m raised t raised'
  have hdropped : EntriesKept p s t := by
    unfold t
    split
    · exact .trans (.of_state rfl) (.updMap _ i fun _ => rfl)
    · exact .refl s
  refine hdropped.trans ?_
  split
  · exact .trans (.of_state rfl) (.updMap _ i fun _ => rfl)
  · exact .refl t

theorem EntriesKept.sgOut (m : Cmd) (i : Nat) (b : List Byte) : EntriesKept p s (sgOut m i b s).1 := .of_state (by rw [(sgOut_fst m i b s).1])

theorem EntriesKept.done (c : CmdRef) (st d : Nat) (b : List Word) (o : List Byte) : EntriesKept p s (s.done c st d b o) := .of_state rfl

theorem EntriesKept.endItems (m : Cmd) (g : Word) : EntriesKept p s (s.endItems m g) := by
  unfold State.endItems
  dsimp only
  split
  · exact .done ..
  · exact .trans (.sgOut ..) (.done ..)

theorem EntriesKept.moveOut (i : Nat) (l : List (Nat × FeatBlock)) (used room : Nat) : EntriesKept p s (State.moveOut i l used room s) := by
  induction l generalizing s used room with
  | nil => exact .refl s
  | cons f l ih =>
    unfold State.moveOut
    dsimp only
    split
    · exact .refl s
    · split
      · exact ih ..
      · split
        · exact .trans (.requestMove ..) (ih ..)
        · exact .refl s

theorem EntriesKept.trimPool (i : Nat) : EntriesKept p s (s.trimPool i) := by
  unfold State.trimPool
  extract_lets m leaving used active cand ctx room waiting
  split
  · exact .refl s
  · split
    · split
      · exact .moveOut ..
      · split
        · exact .refl s
        · split
          · exact .enqueue ..
          · exact .refl s
    · exact .refl s

end EntriesKept

end Sys2Proof.Machine

namespace Sys2Proof.Machine

/-! ### Records of one session -/

/-- `t` is `s` with `y` as the session of context `n`, and records of it written or held. -/
structure RecordsAs (n : Nat) (y : SessionS) (s t : State) : Prop where
  state : t = { s with ctxs := t.ctxs, hostMem := t.hostMem, held := t.held, events := t.events, tether := t.tether }
  session : t.sessionAt n = some y
  others : ∀ i, i ≠ n → t.ctxAt i = s.ctxAt i

section RecordsAs

variable {n : Nat} {x y : SessionS} {s t u : State}

theorem RecordsAs.refl (hx : s.sessionAt n = some x) : RecordsAs n x s s := ⟨rfl, hx, fun _ _ => rfl⟩

theorem RecordsAs.trans (h : RecordsAs n x s t) (k : RecordsAs n y t u) : RecordsAs n y s u where
  state := by rw [k.state, h.state]
  session := k.session
  others i hi := (k.others i hi).trans (h.others i hi)

theorem RecordsAs.upd (h : RecordsAs n x s t) (f : SessionS → SessionS) : RecordsAs n (f x) s (t.updSession n f) :=
  h.trans ⟨by rw [t.updSession_eq n f], by rw [State.sessionAt_updSession, if_pos rfl, h.session, Option.map_some],
    (SessionStep.updSession t f).others⟩

theorem RecordsAs.raise (h : RecordsAs n x s t) (code detail : Nat) : RecordsAs n x s (t.raise code detail) := h.trans ⟨rfl, h.session, fun _ _ => rfl⟩

theorem RecordsAs.hold (h : RecordsAs n x s t) (l : List HeldRec) : RecordsAs n x s { t with held := l } := h.trans ⟨rfl, h.session, fun _ _ => rfl⟩

theorem RecordsAs.ringWrite (h : RecordsAs n x s t) (k : Nat) (b : List Byte) :
    RecordsAs n (x.withRing k ((x.rings.getD k {}).past (b.length / 64))) s (t.ringWrite n k b) := by
  obtain ⟨hstate, hsession, hothers⟩ := State.ringWrite_spec (k := k) b h.session
  exact h.trans ⟨by rw [hstate], hsession, hothers⟩

theorem RecordsAs.noteLatency (h : RecordsAs n x s t) (start : Option Nat) :
    ∃ w, RecordsAs n { x with worstLatency := w } s (t.noteLatency n start) := by
  cases start with
  | none => exact ⟨x.worstLatency, h⟩
  | some k => exact ⟨max x.worstLatency (t.devNs - k), h.upd fun y => { y with worstLatency := max y.worstLatency (t.devNs - k) }⟩

end RecordsAs

/-- A session once records of it went to ring `k`, which has given out `d` numbers for them (R87). -/
def SessionS.Recorded (k : Nat) (d : Word) (x y : SessionS) : Prop :=
  y = { x with rings := y.rings, worstLatency := y.worstLatency } ∧ (y.rings.getD k {}).seq = (x.rings.getD k {}).seq + d

theorem SessionS.Recorded.trans {k : Nat} {d e : Word} {x y z : SessionS} (h : x.Recorded k d y) (g : y.Recorded k e z) : x.Recorded k (d + e) z := by
  obtain ⟨hy, hseq⟩ := h
  obtain ⟨hz, hseq'⟩ := g
  exact ⟨by rw [hz, hy], by rw [hseq', hseq, BitVec.add_assoc]⟩

theorem SessionS.Recorded.numbered (x : SessionS) (k : Nat) : x.Recorded k 1 (x.withRing k (x.rings.getD k {}).numbered) :=
  ⟨rfl, by rw [SessionS.withRing_ring]; rfl⟩

theorem SessionS.Recorded.past (x : SessionS) (k n : Nat) : x.Recorded k 0 (x.withRing k ((x.rings.getD k {}).past n)) :=
  ⟨rfl, by rw [SessionS.withRing_ring]; exact (BitVec.add_zero _).symm⟩

theorem SessionS.Recorded.latency (x : SessionS) (k w : Nat) : x.Recorded k 0 { x with worstLatency := w } := ⟨rfl, (BitVec.add_zero _).symm⟩

/-- Committing a record to ring `k` takes one number of it, and is seen in nothing but the session, host memory or the records that are held, and the
event of a counter that wraps (R85, R87, R92). -/
theorem State.record_spec {s : State} {n : Nat} {x : SessionS} (k : Nat) (h : RecHead) (body : List Byte) (hx : s.sessionAt n = some x) :
    ∃ y, RecordsAs n y s (s.record n k h body) ∧ x.Recorded k 1 y := by
  unfold State.record
  rw [hx]
  dsimp -zeta only
  extract_lets r b numbered raised
  have hnumbered : RecordsAs n (x.withRing k r.numbered) s numbered := (RecordsAs.refl hx).upd fun y => y.withRing k r.numbered
  have hraised : RecordsAs n (x.withRing k r.numbered) s raised := by
    unfold raised
    split
    · exact hnumbered.raise _ _
    · exact hnumbered
  have hseq : x.Recorded k 1 (x.withRing k r.numbered) := .numbered x k
  generalize x.withRing k r.numbered = y at hraised hseq
  split
  case isTrue =>
    obtain ⟨w, hnoted⟩ := (hraised.ringWrite k b).noteLatency h.start
    exact ⟨_, hnoted, (hseq.trans (.past y k (b.length / 64))).trans (.latency _ k w)⟩
  case isFalse => exact ⟨y, hraised.hold _, hseq⟩

/-- So does committing one record for each of a list. -/
theorem forEach_record_spec {α : Type} {n : Nat} (k : Nat) (head : RecHead) (body : α → List Byte) (l : List α) {s : State} {x : SessionS}
    (hx : s.sessionAt n = some x) :
    ∃ y, RecordsAs n y s (forEach l (fun i s => s.record n k head (body i)) s) ∧ x.Recorded k (w32 l.length) y := by
  induction l generalizing s x with
  | nil => exact ⟨x, .refl hx, rfl, (BitVec.add_zero _).symm⟩
  | cons a l ih =>
    obtain ⟨y, hy, hfirst⟩ := State.record_spec k head (body a) hx
    obtain ⟨z, hz, hrest⟩ := ih hy.session
    have hcount : w32 (a :: l).length = 1 + w32 l.length := by
      rw [List.length_cons, Nat.add_comm, w32, BitVec.ofNat_add]
      rfl
    exact ⟨z, hy.trans hz, hcount ▸ hfirst.trans hrest⟩

/-- A record leaves the maps, whether or not its context runs a session. -/
theorem EntriesKept.record {p : Nat → Prop} (s : State) (n k : Nat) (h : RecHead) (body : List Byte) : EntriesKept p s (s.record n k h body) := by
  cases hx : s.sessionAt n with
  | none =>
    rw [State.record, hx]
    exact .refl s
  | some x =>
    obtain ⟨y, hy, -⟩ := State.record_spec k h body hx
    exact .of_state (by rw [hy.state])

theorem EntriesKept.loopEvent {p : Nat → Prop} (s : State) (i n : Nat) (kfQuery kfMatch gen : Word) (v : LoopVerdict) :
    EntriesKept p s (s.loopEvent i n kfQuery kfMatch gen v) := .record s ..

/-! ### MAP_DELTA_WRITE -/

/-- A session that has received `parts` records of ring 2 and stands at generation `g` (R402). -/
def deltaTold (n : Nat) (g : Word) (parts : Nat) (head : RecHead) (body : Nat → List Byte) (s : State) : State :=
  (forEach (List.range parts) (fun i s => s.record n 2 head (body i)) s).updSession n fun y => { y with deltaGen := g }

theorem deltaTold_spec {n : Nat} (g : Word) (parts : Nat) (head : RecHead) (body : Nat → List Byte) {s : State} {x : SessionS}
    (hx : s.sessionAt n = some x) : ∃ y, RecordsAs n y s (deltaTold n g parts head body s) ∧ y.deltaGen = g ∧ y.map = x.map ∧
      (y.rings.getD 2 {}).seq = (x.rings.getD 2 {}).seq + w32 parts := by
  obtain ⟨y, hy, hkept, hseq⟩ := forEach_record_spec 2 head body (List.range parts) hx
  rw [List.length_range] at hseq
  exact ⟨_, hy.upd fun y => { y with deltaGen := g }, rfl, by rw [hkept], hseq⟩

section MapDelta

variable {s : State} {n : Nat} {x : SessionS} {m : MapS} (hx : s.sessionAt n = some x) (hget : Tab.get? s.maps x.map = some m)

include hx hget

theorem exec_mapDeltaWrite_idle (hgen : m.gen = x.deltaGen) : exec (.mapDeltaWrite n) s = .next s := by
  change execMapDeltaWrite n s = _
  simp only [execMapDeltaWrite, hx]
  exact onTrigger_idle s _ (by simp [State.mapAt_of_get? hget, hgen])

/-- A session that the map's generation has passed is told in at least one part, and the log is cut (R402). -/
theorem exec_mapDeltaWrite (hlive : x.withdrawn = false) (hgen : m.gen ≠ x.deltaGen) :
    ∃ (parts : Nat) (head : RecHead) (body : Nat → List Byte) (keep : CommitLog → Bool), 1 ≤ parts ∧
      exec (.mapDeltaWrite n) s = .next ((deltaTold n m.gen parts head body s).updMap x.map fun m => { m with log := m.log.filter keep }) := by
  change ∃ parts head body keep, _ ∧ execMapDeltaWrite n s = _
  rw [execMapDeltaWrite, hx]
  dsimp -zeta only
  extract_lets m'
  have hm : m' = m := State.mapAt_of_get? hget
  rw [onTrigger_fires _ _ (by simp [hm, State.has_of_get? hget, hgen, hlive]), hm]
  exact ⟨_, _, _, _, Nat.le_max_left .., rfl⟩

end MapDelta

end Sys2Proof.Machine

namespace Sys2Proof.Machine

/-! ### The versions that a commit writes -/

/-- Every version of `l'` is one of `l`, or is born or dead at generation `g` (R386, R389). -/
def WrittenAt {α : Type} (born dead : α → Word) (g : Word) (l l' : List α) : Prop := ∀ e ∈ l', e ∈ l ∨ born e = g ∨ dead e = g

section WrittenAt

variable {α : Type} {born dead : α → Word} {g : Word} {l l' : List α}

theorem WrittenAt.refl : WrittenAt born dead g l l := fun _ he => .inl he

theorem WrittenAt.append {new : List α} (h : WrittenAt born dead g l l') (hnew : ∀ e ∈ new, born e = g) : WrittenAt born dead g l (l' ++ new) := by
  intro e he
  rcases List.mem_append.1 he with he | he
  · exact h e he
  · exact .inr (.inl (hnew e he))

/-- A pass that leaves a version or ends it at `g`. -/
theorem WrittenAt.map {f : α → α} (h : WrittenAt born dead g l l') (hf : ∀ e, f e = e ∨ dead (f e) = g) : WrittenAt born dead g l (l'.map f) := by
  intro e he
  obtain ⟨e', he', rfl⟩ := List.mem_map.1 he
  rcases hf e' with hkept | hdead
  · rw [hkept]
    exact h e' he'
  · exact .inr (.inr hdead)

theorem WrittenAt.mono {k : List α} (h : WrittenAt born dead g l l') (hk : l ⊆ k) : WrittenAt born dead g k l' :=
  fun e he => (h e he).imp_left fun hl => hk hl

end WrittenAt

/-- A commit under way that writes generation `g` over the entries of `x`. -/
structure CommitS.Writes (x : MapS) (g : Word) (a : CommitS) : Prop where
  gen : a.g = g
  lms : WrittenAt (·.genBorn) (·.genDead) g x.lms a.m.lms
  kfs : WrittenAt (·.genBorn) (·.genDead) g x.kfs a.m.kfs
  edges : WrittenAt (·.genBorn) (·.genDead) g x.edges a.m.edges

namespace CommitS.Writes

variable {x : MapS} {g : Word} {a : CommitS}

theorem congr {b : CommitS} (h : a.Writes x g) (hg : b.g = a.g) (hl : b.m.lms = a.m.lms) (hk : b.m.kfs = a.m.kfs) (he : b.m.edges = a.m.edges) :
    b.Writes x g :=
  ⟨hg.trans h.gen, hl ▸ h.lms, hk ▸ h.kfs, he ▸ h.edges⟩

theorem killLm (h : a.Writes x g) (p : Landmark → Bool) : WrittenAt (·.genBorn) (·.genDead) g x.lms (Machine.killLm a.g p a.m.lms) :=
  h.lms.map fun e => by split; exacts [.inr h.gen, .inl rfl]

theorem killKf (h : a.Writes x g) (p : Keyframe → Bool) : WrittenAt (·.genBorn) (·.genDead) g x.kfs (Machine.killKf a.g p a.m.kfs) :=
  h.kfs.map fun e => by split; exacts [.inr h.gen, .inl rfl]

theorem killEdge (h : a.Writes x g) (p : Edge → Bool) : WrittenAt (·.genBorn) (·.genDead) g x.edges (Machine.killEdge a.g p a.m.edges) :=
  h.edges.map fun e => by split; exacts [.inr h.gen, .inl rfl]

theorem newKfVersion (h : a.Writes x g) (old : Keyframe) (f : Keyframe → Keyframe) : (a.newKfVersion old f).Writes x g :=
  ⟨h.gen, h.lms, (h.killKf _).append (List.forall_mem_singleton.2 h.gen), h.edges⟩

theorem addLms (h : a.Writes x g) (l : List Landmark) : (a.addLms l).Writes x g := by
  refine ⟨h.gen, h.lms.append fun e he => ?_, h.kfs, h.edges⟩
  obtain ⟨_, -, rfl⟩ := List.mem_map.1 he
  exact h.gen

theorem addEdges (h : a.Writes x g) (l : List Edge) : (a.addEdges l).Writes x g := by
  refine ⟨h.gen, h.lms, h.kfs, h.edges.append fun e he => ?_⟩
  obtain ⟨_, -, rfl⟩ := List.mem_map.1 he
  exact h.gen

theorem putVector (h : a.Writes x g) (kf : Word) (kind : Nat) (tag : BitVec 64) (vec : List Word) : (a.putVector kf kind tag vec).1.Writes x g := by
  unfold CommitS.putVector
  split
  · split
    · exact h
    · split <;> exact h.congr rfl rfl rfl rfl
  · exact h

theorem addKeyframe (h : a.Writes x g) (e : Keyframe) (feats : List Byte) (vec : List Word) (lms : List Landmark) (edges : List Edge) :
    (a.addKeyframe e feats vec lms edges).Writes x g := by
  unfold CommitS.addKeyframe
  extract_lets block has room v m m' n len flags e' written log b
  have hv : v.1.Writes x g := h.putVector ..
  have hm : m'.lms = v.1.m.lms ∧ m'.kfs = v.1.m.kfs ∧ m'.edges = v.1.m.edges := by
    unfold m'
    split <;> exact ⟨rfl, rfl, rfl⟩
  obtain ⟨hlms, hkfs, hedges⟩ := hm
  have hb : b.Writes x g := ⟨hv.gen, hlms ▸ hv.lms, (hkfs ▸ hv.kfs).append (List.forall_mem_singleton.2 h.gen), hedges ▸ hv.edges⟩
  exact (hb.addLms lms).addEdges edges

end CommitS.Writes

/-- Ending a vector leaves a map's entries (R436). -/
theorem MapS.killVector_entries (x : MapS) (g : Word) (e : Keyframe) :
    (x.killVector g e).lms = x.lms ∧ (x.killVector g e).kfs = x.kfs ∧ (x.killVector g e).edges = x.edges := by
  unfold MapS.killVector
  split
  · split <;> exact ⟨rfl, rfl, rfl⟩
  · exact ⟨rfl, rfl, rfl⟩

namespace CommitS.Writes

variable {x : MapS} {g : Word} {a : CommitS}

theorem deleteKf (h : a.Writes x g) (k : Keyframe) : (a.deleteKf k).Writes x g := by
  obtain ⟨hlms, hkfs, hedges⟩ := a.m.killVector_entries a.g k
  unfold CommitS.deleteKf
  refine ⟨h.gen, ?_, ?_, ?_⟩
  · dsimp only
    exact hlms ▸ h.killLm _
  · dsimp only
    exact hkfs ▸ h.killKf _
  · dsimp only
    exact hedges ▸ h.killEdge _

/-- Applying a change writes at the commit's own generation alone (R386, R389, R393). -/
theorem apply (h : a.Writes x g) (c : MapChange) (command : Bool) : (a.apply c command).1.Writes x g := by
  cases c with
  | addLandmark e =>
    dsimp only [CommitS.apply]
    split
    · exact h
    · exact h.addLms _
  | updateLandmark e =>
    dsimp only [CommitS.apply]
    split
    · exact h
    · split
      · exact h
      · exact ⟨h.gen, (h.killLm _).append (List.forall_mem_singleton.2 h.gen), h.kfs, h.edges⟩
  | deleteLandmark id =>
    dsimp only [CommitS.apply]
    split
    · exact h
    · exact ⟨h.gen, h.killLm _, h.kfs, h.edges⟩
  | addKeyframe e feats vec lms edges => exact h.addKeyframe ..
  | updateKeyframe e =>
    dsimp only [CommitS.apply]
    split
    · exact h
    · dsimp only
      exact h.newKfVersion _ _
  | deleteKeyframe id =>
    dsimp only [CommitS.apply]
    split
    · exact h
    · split
      · exact h
      · exact h.deleteKf _
  | addEdge e =>
    dsimp only [CommitS.apply]
    split
    · exact h
    · exact h.addEdges _
  | deleteEdge id =>
    dsimp only [CommitS.apply]
    split
    · exact h
    · exact ⟨h.gen, h.lms, h.kfs, h.killEdge _⟩

theorem correct (h : a.Writes x g) (c : KfCorrection) : (a.correct c).Writes x g := by
  unfold CommitS.correct
  split
  · split
    · exact h
    · exact h.newKfVersion _ _
  · exact h

theorem corrections (h : a.Writes x g) (l : List KfCorrection) : (l.foldl CommitS.correct a).Writes x g := by
  induction l generalizing a with
  | nil => exact h
  | cons c l ih => exact ih (h.correct c)

/-- So does an item, whatever asked for it. -/
theorem item (h : a.Writes x g) (q : QueuedChange) : (a.item q).1.Writes x g := by
  obtain ⟨op, origin, valid, classical⟩ := q
  cases op with
  | change c =>
    have hc := fun command => h.apply c command
    cases origin with
    | command d i => exact hc true
    | pipeline n => exact (hc false).congr rfl rfl rfl rfl
    | internal => exact hc false
  | vector kf kind tag vec =>
    dsimp only [CommitS.item]
    split
    · split
      · split
        · exact h.putVector ..
        · dsimp only
          exact (h.putVector ..).newKfVersion _ _
      · exact h
    · exact h
  | dropVector kf kind =>
    dsimp only [CommitS.item]
    split
    · split
      · exact h.newKfVersion _ _
      · exact h
    · exact h
  | discard kf =>
    have hdiscards : ∀ b : CommitS, b.Writes x g →
        ({ b with m := { b.m with feats := Tab.del b.m.feats kf.toNat }, discarded := b.discarded + 1 } : CommitS).Writes x g :=
      fun b hb => hb.congr rfl rfl rfl rfl
    refine hdiscards _ ?_
    split
    · exact h.newKfVersion _ _
    · exact h
  | correct n kfQuery kfMatch v => exact h.corrections _
  | merge source gen t pairs => exact h

/-- And a batch of items. -/
theorem items (h : a.Writes x g) (l : List QueuedChange) (outs : List ItemOut) :
    (l.foldl (fun (r : CommitS × List ItemOut) q => ((r.1.item q).1, r.2 ++ (r.1.item q).2)) (a, outs)).1.Writes x g := by
  induction l generalizing a outs with
  | nil => exact h
  | cons q l ih => exact ih (h.item q) _

theorem init {s : State} {i : Nat} (hget : Tab.get? s.maps i = some x) (valid : Option Nat) (classical : Bool) :
    (CommitS.init s i valid classical).Writes x (x.gen + 1) := by
  have hx := State.mapAt_of_get? hget
  exact ⟨congrArg (·.gen + 1) hx, hx ▸ .refl, hx ▸ .refl, hx ▸ .refl⟩

end CommitS.Writes

/-! ### Room for a commit -/

/-- `y` is `x` with versions freed: a part of its entries at its generation (R396). -/
structure MapS.Thinned (x y : MapS) : Prop where
  gen : y.gen = x.gen
  lms : y.lms ⊆ x.lms
  kfs : y.kfs ⊆ x.kfs
  edges : y.edges ⊆ x.edges

theorem MapS.Thinned.trans {x y z : MapS} (h : x.Thinned y) (k : y.Thinned z) : x.Thinned z :=
  ⟨k.gen.trans h.gen, List.Subset.trans k.lms h.lms, List.Subset.trans k.kfs h.kfs, List.Subset.trans k.edges h.edges⟩

theorem MapS.eq_of_stored {x y : MapS} (h : y.stored = x.stored) :
    y.gen = x.gen ∧ y.lastCommit = x.lastCommit ∧ y.lms = x.lms ∧ y.kfs = x.kfs ∧ y.edges = x.edges :=
  ⟨(congrArg MapS.gen h :), (congrArg MapS.lastCommit h :), (congrArg MapS.lms h :), (congrArg MapS.kfs h :), (congrArg MapS.edges h :)⟩

theorem MapS.Thinned.of_stored {x y : MapS} (h : y.stored = x.stored) : x.Thinned y := by
  obtain ⟨hgen, -, hlms, hkfs, hedges⟩ := MapS.eq_of_stored h
  exact ⟨hgen, fun e he => hlms ▸ he, fun e he => hkfs ▸ he, fun e he => hedges ▸ he⟩

theorem MapS.thinned_freeTombstones (x : MapS) : x.Thinned x.freeTombstones := by
  obtain ⟨hlms, hkfs, hedges⟩ := x.mem_freeTombstones
  exact ⟨rfl, fun e he => ((hlms e).1 he).1, fun e he => ((hkfs e).1 he).1, fun e he => ((hedges e).1 he).1⟩

/-- Room is made for a commit of map `i`: its versions may have been freed, and no entry of another map has changed. -/
structure MakesRoom (i : Nat) (s t : State) : Prop where
  others : EntriesKept (· ≠ i) s t
  own : ∀ x, Tab.get? s.maps i = some x → ∃ y, Tab.get? t.maps i = some y ∧ x.Thinned y

section MakesRoom

variable {i : Nat}

theorem MakesRoom.trans {s t u : State} (h : MakesRoom i s t) (k : MakesRoom i t u) : MakesRoom i s u where
  others := h.others.trans k.others
  own x hx := by
    obtain ⟨y, hy, hxy⟩ := h.own x hx
    obtain ⟨z, hz, hyz⟩ := k.own y hy
    exact ⟨z, hz, hxy.trans hyz⟩

theorem MakesRoom.of_kept {s t : State} (h : EntriesKept (fun _ => True) s t) : MakesRoom i s t where
  others := h.mono fun _ _ => trivial
  own x hx := by
    obtain ⟨y, hy, hstored⟩ := h.get? trivial hx
    exact ⟨y, hy, .of_stored hstored⟩

theorem MakesRoom.freeTombstones (s : State) : MakesRoom i s (s.putMap i (s.mapAt i).freeTombstones) where
  others := .putMap s i _
  own _ hx := ⟨_, State.get?_putMap_self _ (State.has_of_get? hx), State.mapAt_of_get? hx ▸ MapS.thinned_freeTombstones _⟩

theorem MakesRoom.makeRoom (n : Need) (fuel : Nat) (s : State) : MakesRoom i s (State.makeRoom i n fuel s) := by
  induction fuel generalizing s with
  | zero => exact .of_kept (.refl s)
  | succ fuel ih =>
    unfold State.makeRoom
    split
    · exact .of_kept (.refl s)
    · split
      · exact (MakesRoom.of_kept (.endSnapshot s i _ 1)).trans ((MakesRoom.freeTombstones _).trans (ih _))
      · exact .of_kept (.refl s)

end MakesRoom

/-! ### MAP_COMMIT -/

/-- The map that a commit makes current (R386, R388). -/
def State.committed (s : State) (i : Nat) (a : CommitS) : MapS :=
  { a.m with gen := a.g, lastCommit := some s.time.ticks, log := if !(s.mapSessions i).isEmpty then a.m.log ++ [a.log] else [],
             dropped := a.m.dropped + a.dropped, discarded := a.m.discarded + a.discarded }

/-- What follows from a commit leaves the entries of all maps. -/
theorem EntriesKept.makeCurrent {p : Nat → Prop} (s : State) (i : Nat) (a : CommitS) (outs : List ItemOut) :
    EntriesKept p (s.putMap i (s.committed i a)) (s.makeCurrent i a outs) := by
  unfold State.makeCurrent
  extract_lets kept src m s1 s2 s3 s4 old s5 s6 s7
  have h2 : EntriesKept p s1 s2 := by
    unfold s2
    split
    · exact .raise _ _ _
    · exact .refl _
  have h3 : EntriesKept p s2 s3 := .forEach _ _ fun _ _ => .raiseMap ..
  have h4 : EntriesKept p s3 s4 := .mapCounts ..
  have h5 : EntriesKept p s4 s5 := .forEach _ _ fun _ _ => .endSnapshot ..
  have h6 : EntriesKept p s5 s6 := .forEach _ _ fun _ _ => .updCmd ..
  have h7 : EntriesKept p s6 s7 := .forEach _ _ fun _ _ => by
    split
    · exact .endItems ..
    · exact .refl _
  exact h2.trans (h3.trans (h4.trans (h5.trans (h6.trans (h7.trans (.trimPool ..))))))

/-- A batch of items becomes the next generation of its map. -/
theorem commitBatch_spec {s : State} {i : Nat} {x : MapS} (batch : List QueuedChange) (hget : Tab.get? s.maps i = some x) :
    EntriesKept (· ≠ i) s (s.commitBatch i batch) ∧ ∃ y, Tab.get? (s.commitBatch i batch).maps i = some y ∧ y.gen = x.gen + 1 ∧
      y.lastCommit = some s.time.ticks ∧ WrittenAt (·.genBorn) (·.genDead) (x.gen + 1) x.lms y.lms ∧
      WrittenAt (·.genBorn) (·.genDead) (x.gen + 1) x.kfs y.kfs ∧ WrittenAt (·.genBorn) (·.genDead) (x.gen + 1) x.edges y.edges := by
  unfold State.commitBatch
  extract_lets need s1 s2 m noAdds noVers keep s3 left valid r s4
  have h1 : MakesRoom i s s1 := by
    unfold s1
    split
    · exact .of_kept (.refl s)
    · exact .freeTombstones s
  have h3 : MakesRoom i s2 s3 := by
    unfold s3
    split
    · exact .of_kept (.refl _)
    · exact .of_kept (.raiseMap ..)
  have hroom : MakesRoom i s s3 := h1.trans ((MakesRoom.makeRoom _ _ s1).trans h3)
  obtain ⟨y, hy, hthin⟩ := hroom.own x hget
  have hwrites : r.1.Writes y (y.gen + 1) := (CommitS.Writes.init hy ..).items _ _
  have hcurrent : EntriesKept (fun _ => True) (s3.putMap i (s3.committed i r.1)) s4 := .makeCurrent ..
  have hloops : EntriesKept (fun _ => True) s4 (forEach keep (fun q s => match q.op with
      | .correct n a b v => s.loopEvent i n a b r.1.g v
      | _ => s) s4) := .forEach _ _ fun q u => by
    split
    · exact .loopEvent ..
    · exact .refl u
  have hafter := hcurrent.trans hloops
  refine ⟨hroom.others.trans ((EntriesKept.putMap s3 i _).trans (hafter.mono fun _ _ => trivial)), ?_⟩
  obtain ⟨z, hz, hstored⟩ := hafter.get? trivial (State.get?_putMap_self (s3.committed i r.1) (State.has_of_get? hy))
  have htime : s3.time = s.time := by rw [hroom.others.state]
  obtain ⟨hgen, hlast, hlms, hkfs, hedges⟩ := MapS.eq_of_stored hstored
  rw [hthin.gen] at hwrites
  refine ⟨z, hz, hgen.trans hwrites.gen, hlast.trans (by rw [State.committed, htime]), ?_, ?_, ?_⟩
  · rw [hlms]; exact hwrites.lms.mono hthin.lms
  · rw [hkfs]; exact hwrites.kfs.mono hthin.kfs
  · rw [hedges]; exact hwrites.edges.mono hthin.edges

end Sys2Proof.Machine

namespace Sys2Proof.Machine

/-- Whether an item is a merge, which a commit carries alone (R413). -/
def QueuedChange.isMerge (q : QueuedChange) : Bool := match q.op with
  | .merge _ _ _ _ => true
  | _ => false

section MapCommit

variable {s : State} {i : Nat} {x : MapS} (hget : Tab.get? s.maps i = some x)

include hget

/-- Within 1 ms of the last commit none starts (R387). -/
theorem exec_mapCommit_early {k : Nat} (hlast : x.lastCommit = some k) (hearly : s.time.ticks - k < 500000) : exec (.mapCommit i) s = .next s := by
  change execMapCommit i s = _
  unfold execMapCommit
  extract_lets m ready isMerge batch
  have hready : ready = false := by
    unfold ready m
    rw [State.mapAt_of_get? hget, hlast]
    exact decide_eq_false (Nat.not_le.2 hearly)
  exact onTrigger_idle s _ (by simp [hready])

/-- Past it, the items other than merges are committed as one batch (R386, R387, R413). -/
theorem exec_mapCommit_items (hon : s.mainOn = true) (hdue : ∀ k, x.lastCommit = some k → 500000 ≤ s.time.ticks - k)
    (hitem : ∃ q ∈ x.queue, q.isMerge = false) : exec (.mapCommit i) s =
      .next ((s.updMap i fun m => { m with queue := m.queue.filter QueuedChange.isMerge }).commitBatch i (x.queue.filter fun q => !q.isMerge)) := by
  obtain ⟨q, hq, hop⟩ := hitem
  change execMapCommit i s = _
  unfold execMapCommit
  extract_lets m ready isMerge batch
  have hm : m = x := State.mapAt_of_get? hget
  have hready : ready = true := by
    unfold ready
    rw [hm]
    split
    case h_1 k hk => exact decide_eq_true (hdue k hk)
    case h_2 => rfl
  have hqueue : m.queue.isEmpty = false := by
    rw [hm, List.isEmpty_eq_false_iff]
    exact List.ne_nil_of_mem hq
  have hbatch : batch ≠ [] := by
    unfold batch
    rw [hm]
    exact List.ne_nil_of_mem (List.mem_filter.2 ⟨hq, by change (!q.isMerge) = true; rw [hop]; rfl⟩)
  rw [onTrigger_fires _ _ (by simp [State.has_of_get? hget, hready, hqueue, hon]), if_pos hbatch]
  unfold batch
  rw [hm]
  rfl

end MapCommit

/-! ### The obligation -/

/-- Settles O27: a commit by `commitBatch_spec`, the freeing of tombstones and the sweep by what they make of each table, and MAP_DELTA_WRITE by
`deltaTold_spec`. -/
theorem commitsWriteTheNextGeneration : Obligations.CommitsWriteTheNextGeneration := by
  unfold Obligations.CommitsWriteTheNextGeneration
  refine ⟨?commit, ?tombstones, ?sweep, ?delta⟩
  case commit =>
    intro s i x hget hon
    refine ⟨fun k hlast hearly => exec_mapCommit_early hget hlast hearly, fun hdue hitems => ?_⟩
    obtain ⟨q, hq, hop⟩ := List.any_eq_true.1 hitems
    have hitem : q.isMerge = false := by
      rw [QueuedChange.isMerge]
      revert hop
      cases q.op with
      | merge => nofun
      | change | vector | dropVector | discard | correct => exact fun _ => rfl
    have hexec := exec_mapCommit_items hget hon hdue ⟨q, hq, hitem⟩
    have hqueue : EntriesKept (fun _ => True) s (s.updMap i fun m => { m with queue := m.queue.filter QueuedChange.isMerge }) := .updMap s i fun _ => rfl
    obtain ⟨hbatch, y, hy, hgen, hlast, hlms, hkfs, hedges⟩ := commitBatch_spec (x.queue.filter fun q => !q.isMerge)
      (State.get?_updMap_self (fun m => { m with queue := m.queue.filter QueuedChange.isMerge }) hget)
    have hkept : EntriesKept (· ≠ i) s _ := (hqueue.mono fun _ _ => trivial).trans hbatch
    generalize (s.updMap i fun m => { m with queue := m.queue.filter QueuedChange.isMerge }).commitBatch i _ = t at hexec hy hkept
    have hat : t.mapAt i = y := State.mapAt_of_get? hy
    have hstate := hkept.state
    refine ⟨t, hexec, by rw [hat, hgen], by rw [hat, hlast, State.updMap_time], by rw [hat]; exact hlms, by rw [hat]; exact hkfs,
      by rw [hat]; exact hedges, fun k hk => ?_, by rw [hstate], by rw [hstate], by rw [hstate], by rw [hstate], by rw [hstate], by rw [hstate]⟩
    obtain ⟨-, -, hk⟩ := MapS.eq_of_stored (hkept.mapAt hk)
    exact hk
  case tombstones =>
    intro s i x hget
    obtain ⟨hlms, hkfs, hedges⟩ := x.mem_freeTombstones
    simp only [MapS.freeable_eq_false] at hlms hkfs hedges
    exact ⟨_, _, exec_tombstoneFree hget, State.get?_putMap_self _ (State.has_of_get? hget), rfl, rfl, rfl, hlms, hkfs, hedges,
      fun k hk => s.get?_putMap_other _ hk, by rw [s.putMap_eq i x.freeTombstones]⟩
  case sweep =>
    intro s i x hget
    refine ⟨_, _, exec_generationSweep hget, State.get?_updMap_self MapS.swept hget, List.length_map .., ?_, ?_, ?_, List.length_map ..,
      List.length_map .., rfl, rfl, rfl, fun k hk => s.get?_updMap_other _ hk, s.updMap_eq i _⟩ <;>
    · intro j e e' he he'
      rw [eq_of_getElem?_map he he']
      exact ⟨rfl, rfl⟩
  case delta =>
    intro s n x m hx hlive hget
    refine ⟨exec_mapDeltaWrite_idle hx hget, fun hgen => ?_⟩
    obtain ⟨parts, head, body, keep, hparts, hexec⟩ := exec_mapDeltaWrite hx hget hlive hgen
    obtain ⟨y, hy, hbase, hmap, hseq⟩ := deltaTold_spec m.gen parts head body hx
    generalize deltaTold n m.gen parts head body s = u at hexec hy
    have hmaps : u.maps = s.maps := by rw [hy.state]
    have hcut := State.get?_updMap_self (s := u) (fun m => { m with log := m.log.filter keep }) (hmaps ▸ hget)
    have hframe := u.updMap_eq x.map fun m => { m with log := m.log.filter keep }
    have hsession : (u.updMap x.map fun m => { m with log := m.log.filter keep }).sessionAt n = some y := by rw [hframe]; exact hy.session
    have hctxs : ∀ k, k ≠ n → (u.updMap x.map fun m => { m with log := m.log.filter keep }).ctxAt k = s.ctxAt k := by
      rw [hframe]; exact hy.others
    refine ⟨_, y, _, parts, hexec, hsession, hbase, hparts, hseq, hcut, rfl, ?_, hctxs, by rw [hframe, hy.state]⟩
    exact exec_mapDeltaWrite_idle (m := { m with log := m.log.filter keep }) hsession (by rw [hmap]; exact hcut) hbase.symm

end Sys2Proof.Machine

/-! ## Commits of a map: what a generation is numbered -/

namespace Sys2Proof.Machine

/-- A table that lists map 3 twice: the entry that is read is at generation 5 and has a merge at the head of its queue, for which it has no room; the
one that it hides is withdrawn. -/
def mapListedTwice : State :=
  { State.reset.mapLife fun l => { l with main := .ready } with
    maps := [(3, { gen := 5, queue := [{ op := .merge 4 0 [] [{}], origin := .command ⟨.tether, 0⟩ 0 }] }), (3, { withdrawn := true })] }

/-- Refutes O25: the third clause does not ask that a map stands once in the table. In `mapListedTwice` the merge of map 3 ends without room, and
the withdrawn maps are then reaped (R407): by the hidden entry's number, which takes map 3 away as a whole, so that generation 0 is read. -/
theorem not_newMapsAndCommitsNumberTheGeneration : ¬ Obligations.NewMapsAndCommitsNumberTheGeneration := by
  unfold Obligations.NewMapsAndCommitsNumberTheGeneration
  rintro ⟨-, -, hstep, -⟩
  have hlisted : Tab.get? mapListedTwice.maps 3 = some { gen := 5, queue := [{ op := .merge 4 0 [] [{}], origin := .command ⟨.tether, 0⟩ 0 }] } := rfl
  obtain ⟨t, hexec, hgen⟩ : ∃ t, exec (.mapCommit 3) mapListedTwice = .next t ∧ (t.mapAt 3).gen = 0 := ⟨_, rfl, by decide⟩
  have hnext := hstep _ t 3 _ hlisted rfl hexec
  rw [hgen] at hnext
  exact absurd hnext (by decide)

end Sys2Proof.Machine

/-! ## Loop-closure queries: how often the rate level allows one -/

namespace Sys2Proof.Machine

/-- A level is twice a rate in queries per second (Table 17-4): until 2 s divided by it have passed since the session's last loop-closure query, no
other is issued (R77, R456). -/
theorem exec_loopQueryIssue_early {s : State} {n t : Nat} {x : SessionS} (kf : Word) (v : List Word) (hx : s.sessionAt n = some x)
    (hlast : x.loopLast = some t) (hearly : x.level 5 * s.since t < msTicks 2000) : exec (.loopQueryIssue n kf v) s = .next s := by
  have hwait : (x.loopLast.all fun t => decide (msTicks 2000 ≤ x.level 5 * s.since t)) = false := by
    rw [hlast]
    exact decide_eq_false hearly.not_ge
  change execLoopQueryIssue n kf v s = _
  unfold execLoopQueryIssue
  simp only [hx]
  split
  case h_1 => rfl
  case h_2 =>
    split
    case h_1 => rfl
    case h_2 => exact onTrigger_idle _ _ (by simp only [hwait, Bool.false_and])

/-- A VIO_STEREO session on map 3 with its loop-closure rate at level 1, half a query per second, whose last loop-closure query was issued at tick 0. -/
def loopSession : SessionS := { map := 3, levels := [1, 8, 1, 12, 2, 1, 32], loopLast := some 0 }

/-- That session in context 0, 2 ms after the query; map 3 has keyframe 1 and an EMBEDDING index for 16 values. -/
def loopQueriedJustNow : State :=
  { State.reset with
    life := { State.reset.life with main := .ready }
    time := { State.reset.time with ticks := msTicks 2 }
    maps := [(3, { kfs := [{ id := 1 }], indexes := [(0, { m := 16, d := 16 })] })]
    ctxs := [(0, { session := some loopSession })] }

/-- Refutes O28: the sixth clause takes a loop-closure query as due once the rate level times the ticks since the last one is 1,000,000, which is 2 ms
at level 1, where the level allows one query in 2 s (1,000,000,000 ticks). In `loopQueriedJustNow` every premise of the clause holds, and no query is
issued. -/
theorem not_searchIndexesAndQueries : ¬ Obligations.SearchIndexesAndQueries := by
  unfold Obligations.SearchIndexesAndQueries
  rintro ⟨-, -, -, -, -, hissue, -⟩
  have hsession : loopQueriedJustNow.sessionAt 0 = some loopSession := rfl
  have hearly : loopSession.level 5 * loopQueriedJustNow.since 0 < msTicks 2000 := by decide
  have hdue : ∀ t, loopSession.loopLast = some t → 1000000 ≤ loopSession.level 5 * loopQueriedJustNow.since t := by
    rintro t ⟨⟩
    decide
  have hvec : prepare 0 ((List.replicate 16 (0 : Word)).map (·.toNat)) = some (List.replicate 16 0) := rfl
  obtain ⟨t, q, hexec, hq, -⟩ := hissue loopQueriedJustNow 0 0 loopSession 1 (List.replicate 16 0) { id := 1 } { m := 16, d := 16 } _ hsession
    rfl rfl rfl hdue rfl rfl (by decide) rfl (by decide) hvec
  have hsame := exec_loopQueryIssue_early 1 (List.replicate 16 0) hsession rfl hearly
  obtain rfl : loopQueriedJustNow = t := Host.Outcome.next.inj (hsame.symm.trans hexec)
  have hnone : Tab.get? loopQueriedJustNow.queries loopQueriedJustNow.nextQuery = none := rfl
  exact absurd (hnone.symm.trans hq) nofun

end Sys2Proof.Machine

/-! ## The fabric: predicate 0, steps of a band, rendezvous, moves and loads -/

namespace Sys2Proof.Machine

/-! ### Predicate 0 -/

@[simp] theorem pReg_zero (t : TileS) (n : Nat) : pReg t n 0 = BitVec.allOnes 64 := if_pos rfl

@[simp] theorem View.p_zero (v : View) : v.p 0 = BitVec.allOnes 64 := pReg_zero v.t v.tile

@[simp] theorem applyLand_preg_zero (pair : Bool) (banks : List Nat) (n : Nat) (mask x : BitVec 64) (s : State) :
    applyLand pair banks (.preg n 0 mask x) s = s := by
  rw [applyLand, if_pos rfl]

/-- Settles O29: a read of register 0 never looks at what the tile lists, and landing tests the register's number first. -/
theorem predicateZeroReadsAllOnes : Obligations.PredicateZeroReadsAllOnes :=
  ⟨pReg_zero, fun s bn logical => (s.view bn logical).p_zero, fun s pair banks n mask x => applyLand_preg_zero pair banks n mask x s⟩

/-! ### Updates of one band and of one tile -/

/-- Writing a key twice leaves the second value. -/
theorem Tab.put_put {α : Type} (t : Tab α) (k : Nat) (x y : α) : Tab.put (Tab.put t k x) k y = Tab.put t k y := by
  induction t with
  | nil => simp [Tab.put]
  | cons e t ih =>
    obtain ⟨j, z⟩ := e
    rcases Nat.lt_trichotomy k j with h | h | h
    · simp [Tab.put, h]
    · simp [Tab.put, h]
    · have hlt : ¬ k < j := by omega
      have hne : k ≠ j := by omega
      simp [Tab.put, hlt, hne, ih]

theorem Tab.upd_upd {α : Type} (t : Tab α) (k : Nat) (d : α) (f g : α → α) : Tab.upd (Tab.upd t k d f) k d g = Tab.upd t k d fun x => g (f x) := by
  rw [Tab.upd, Tab.getD_upd_self, Tab.upd, Tab.put_put, Tab.upd]

/-- Two updates of one band are one. -/
theorem State.updBand_updBand (s : State) (n : Nat) (f g : BandS → BandS) : (s.updBand n f).updBand n g = s.updBand n fun x => g (f x) := by
  unfold State.updBand
  by_cases h : Tab.has s.bands n = true
  · have hhas : Tab.has (Tab.upd s.bands n {} f) n = true := by simp [Tab.has, Tab.get?_upd]
    simp only [h, hhas, if_true, Tab.upd_upd]
  · simp only [h, Bool.false_eq_true, if_false]

/-- An update is what it makes of the band that stands there. -/
theorem State.updBand_congr {s : State} {n : Nat} {f g : BandS → BandS} (h : f (s.bandAt n) = g (s.bandAt n)) : s.updBand n f = s.updBand n g := by
  have hupd : Tab.upd s.bands n {} f = Tab.upd s.bands n {} g := congrArg (Tab.put s.bands n) h
  simp only [State.updBand, hupd]

@[simp] theorem State.bandAt_updTile (s : State) (n b : Nat) (f : TileS → TileS) : (s.updTile n f).bandAt b = s.bandAt b := rfl

@[simp] theorem State.tileAt_updCtx (s : State) (n k : Nat) (f : CtxS → CtxS) : (s.updCtx n f).tileAt k = s.tileAt k := rfl
@[simp] theorem State.tileAt_updObj (s : State) (n k : Nat) (f : ObjS → ObjS) : (s.updObj n f).tileAt k = s.tileAt k := by
  rw [State.tileAt, State.updObj_tiles, State.tileAt]
@[simp] theorem State.bandAt_updObj (s : State) (n k : Nat) (f : ObjS → ObjS) : (s.updObj n f).bandAt k = s.bandAt k := by
  rw [State.bandAt, State.updObj_bands, State.bandAt]
@[simp] theorem State.tileAt_takeFree (s : State) (k : Nat) : s.takeFree.2.tileAt k = s.tileAt k := rfl
@[simp] theorem State.tileAt_served (s : State) (j : MoveJob) (k : Nat) : (s.served j).tileAt k = s.tileAt k := rfl
@[simp] theorem State.bandAt_served (s : State) (j : MoveJob) (k : Nat) : (s.served j).bandAt k = s.bandAt k := rfl

/-- Updates of a tile and of a band do not meet. -/
theorem State.updBand_updTile (s : State) (n b : Nat) (f : TileS → TileS) (g : BandS → BandS) :
    (s.updTile n f).updBand b g = (s.updBand b g).updTile n f := by
  by_cases h : Tab.has s.bands b = true
  · simp [State.updBand, State.updTile, h]
  · simp [State.updBand, State.updTile, h]

/-- The counter of open values and a band's update do not meet. -/
theorem State.takeFree_updBand (s : State) (n : Nat) (f : BandS → BandS) : (s.updBand n f).takeFree.2 = s.takeFree.2.updBand n f := by
  by_cases h : Tab.has s.bands n = true
  · simp [State.takeFree, State.updBand, h]
  · simp [State.takeFree, State.updBand, h]

/-- `t` is `s` with `y` as band `bn`. -/
structure BandAs (bn : Nat) (y : BandS) (s t : State) : Prop where
  band : t.bandAt bn = y
  others : ∀ k, k ≠ bn → t.bandAt k = s.bandAt k
  state : t = { s with bands := t.bands }

theorem BandAs.updBand {s : State} {bn : Nat} (f : BandS → BandS) (h : Tab.has s.bands bn = true) : BandAs bn (f (s.bandAt bn)) s (s.updBand bn f) where
  band := s.bandAt_updBand_self f h
  others _ hk := s.bandAt_updBand_other f hk
  state := s.updBand_eq bn f

theorem BandAs.tileAt {s t : State} {bn : Nat} {y : BandS} (h : BandAs bn y s t) (k : Nat) : t.tileAt k = s.tileAt k := by
  rw [h.state]
  rfl

/-- A band that lists anything is allocated. -/
theorem State.has_band_of_ne {s : State} {bn : Nat} (h : s.bandAt bn ≠ {}) : Tab.has s.bands bn = true := by
  by_contra hnot
  have hnone : Tab.get? s.bands bn = none := by simpa [Tab.has] using hnot
  exact h (by rw [State.bandAt, Tab.getD, hnone, Option.getD_none])

theorem State.has_of_canStep {s : State} {bn : Nat} (h : s.canStep bn = true) : Tab.has s.bands bn = true := by
  simp only [State.canStep, Bool.and_eq_true] at h
  obtain ⟨⟨⟨⟨⟨hhas, -⟩, -⟩, -⟩, -⟩, -⟩ := h
  exact hhas

/-! ### A step of a session's band -/

/-- A session's band once a step of its program has passed; `free` is the counter of open values (R470, R740). -/
def BandS.stagePassed (b : BandS) (bn free : Nat) : BandS :=
  { b with fails := [], started := true, step := b.step + 1, pool := b.pool - Int.ofNat (Config.openVal 28 (free * 16 + bn) % 65536) }

/-- A step that fails no check, reads no bad row and completes no stage moves the band on alone. -/
theorem exec_bandStep_stage {s : State} {bn : Nat} {io : StepIO} (hstep : s.canStep bn = true) (hown : (s.bandAt bn).program = false)
    (hfail : io.failing = []) (hrows : io.badRows = []) (hstage : io.stage = none) : exec (.bandStep bn io) s =
      .next ((s.mapDep fun d => { d with corrected := d.corrected + io.corrected }).takeFree.2.updBand bn fun b => b.stagePassed bn s.free) := by
  change execBandStep bn io s = _
  refine (onTrigger_fires s _ hstep).trans (congrArg _ ?_)
  rw [hown, if_neg Bool.false_ne_true, ← State.takeFree_updBand]
  simp only [stageStep, hfail, hrows, hstage, List.filter_nil, ne_eq, not_true_eq_false, if_false]
  rfl

/-! ### A column of one tile -/

/-- A column with a word in its S slot alone does what that slot does. -/
theorem tileColumn_sOnly (v : View) (w : Nat) : tileColumn v { s := w } = { acts := (sSlot v w).acts } := by
  have hm : mSlot v 0 = {} := rfl
  have hv : vSlot v 0 = {} := rfl
  have hg : gSlot v 0 = {} := rfl
  have hl (slot : Nat) : lSlot v slot 0 = {} := rfl
  have hx : xSlot v 0 = {} := rfl
  have hrest : (sSlot v w).faults = [] ∧ (sSlot v w).moves = [] ∧ (sSlot v w).banks = [] := ⟨rfl, rfl, rfl⟩
  obtain ⟨hf, hmv, hb⟩ := hrest
  simp only [tileColumn, hm, hv, hg, hl, hx, ColEff.join, hf, hmv, hb, List.append_nil]
  rfl

/-- The operations below 0x10 write a scalar register and nothing else (Table 12-5). -/
theorem sSlot_acts_of_value {v : View} {w : Nat} {x : Word} (hop : sl w 31 26 < 0x10) (hx : sValue v w = some x) :
    (sSlot v w).acts = [v.fly 0 1 (.sreg v.tile (sl w 25 21) x)] := by
  have hp : sPred v w = none := by
    unfold sPred
    split
    any_goals omega
    rfl
  have hc : ¬ (sl w 31 26 = 0x1E ∧ w % 2 = 1) := by omega
  simp only [sSlot, hx, hp, if_neg hc, List.append_nil]

/-- They order no control. -/
theorem control_of_value (s : State) (bn : Nat) (v : View) {w : Nat} (a : Nat) (hop : sl w 31 26 < 0x10) : control s bn v w a = {} := by
  unfold control
  extract_lets b imm sa target taken loop
  split
  any_goals omega
  rfl

/-- The S word of HALT. -/
def haltWord : Nat := 0x17 * 2 ^ 26

theorem sSlot_acts_halt (v : View) : (sSlot v haltWord).acts = [] := rfl

theorem control_halt (s : State) (bn : Nat) (v : View) (a : Nat) : control s bn v haltWord a = { halt := true } := rfl

/-! ### Landing, going on, and the step as a whole -/

theorem State.stretch_zero (s : State) (bn : Nat) : s.stretch bn 0 = s := if_pos rfl

theorem State.admitStarted_none {s : State} {n : Nat} (h : (s.ctxAt n).admitCmd = none) : s.admitStarted n = s := by
  simp only [State.admitStarted, h]

@[simp] theorem landOrder_nil (free : Nat) : landOrder free [] = [] := by
  unfold landOrder
  split <;> rfl

/-- One write alone has one order to land in (R511). -/
theorem landOrder_singleton (free : Nat) {a : InFlight} (h : a.slot < 6) : landOrder free [a] = [a] := by
  have hlate : ¬ 6 < a.slot := by omega
  have hx : a.slot ≠ 6 := by omega
  unfold landOrder
  simp [sortBy, insertBy, h, hlate, hx]

/-- A band with nothing in flight. -/
def BandS.landed (b : BandS) : BandS := { b with inflight := [] }

section Landing

variable {s : State} {bn n : Nat} (htiles : (s.bandAt bn).tiles = [n])

include htiles

/-- With nothing in flight a step lands nothing (R507). -/
theorem State.landStep_none (hfly : (s.bandAt bn).inflight = []) : s.landStep bn = s.updBand bn BandS.landed := by
  have hleft : s.updBand bn (fun b => { b with inflight := b.inflight.filter fun x => decide (b.step < x.land) }) =
      s.updBand bn BandS.landed := State.updBand_congr (by simp only [BandS.landed, hfly, List.filter_nil])
  have hquiet : maxD 0 ((s.bandAt bn).tiles.map fun n => (arrivalsAt [] n - 1) / 2) = 0 := by simp [htiles, maxD, arrivalsAt]
  simp only [State.landStep, hleft, hfly, List.filter_nil, hquiet, landOrder_nil, State.stretch_zero]
  rfl

/-- A scalar register's write that is due lands (R507). -/
theorem State.landStep_sreg {r : Nat} {x : Word} {a : InFlight} (hfly : (s.bandAt bn).inflight = [a]) (hact : a.act = .sreg n r x)
    (hslot : a.slot < 6) (hland : a.land ≤ (s.bandAt bn).step) :
    s.landStep bn = (s.updBand bn BandS.landed).updTile n fun t => { t with s := Tab.put t.s r x } := by
  have hlater : ¬ (s.bandAt bn).step < a.land := by omega
  have hleft : s.updBand bn (fun b => { b with inflight := b.inflight.filter fun x => decide (b.step < x.land) }) =
      s.updBand bn BandS.landed := State.updBand_congr (by simp [BandS.landed, hfly, hlater])
  have hdue : ((s.bandAt bn).inflight.filter fun x => decide (x.land ≤ (s.bandAt bn).step)) = [a] := by simp [hfly, hland]
  have hquiet : maxD 0 ((s.bandAt bn).tiles.map fun n => (arrivalsAt [a] n - 1) / 2) = 0 := by simp [htiles, maxD, arrivalsAt, hact]
  simp only [State.landStep, hleft, hdue, hquiet, landOrder_singleton _ hslot, State.stretch_zero, forEach, List.foldl_cons, List.foldl_nil, hact]
  rfl

end Landing

/-- A column without control outside every loop is followed by the next column (R519, R520). -/
theorem State.advance_next {s : State} {bn columns : Nat} (hloops : (s.bandAt bn).loops = []) (hdelay : (s.bandAt bn).delay = none)
    (hmore : (s.bandAt bn).pc + 1 < columns) :
    s.advance bn {} columns = s.updBand bn fun b => { b with pc := (s.bandAt bn).pc + 1, loops := [], delay := none, halted := false } := by
  have hpast : ¬ columns ≤ (s.bandAt bn).pc + 1 := by omega
  simp [State.advance, hloops, hdelay, loopNext, hpast]

/-- HALT halts the band, in a delay column or not (R524). -/
theorem State.advance_halt (s : State) (bn columns : Nat) : ∃ pc loops,
    s.advance bn { halt := true } columns = s.updBand bn fun b => { b with pc := pc, loops := loops, delay := none, halted := true } := by
  simp only [State.advance, Bool.not_true, Bool.and_false, Bool.false_and, Bool.or_false, Bool.false_eq_true, if_false]
  exact ⟨_, _, rfl⟩

/-- A program's band that has issued a column with these results; `free` is the counter of open values (R470, R740). -/
def BandS.issued (b : BandS) (acts : List InFlight) (bn free : Nat) : BandS :=
  { b with inflight := b.inflight ++ acts, stall := false, started := true, fails := [],
           pool := b.pool - Int.ofNat (Config.openVal 28 (free * 16 + bn) % 65536) }

/-- A one-tile band issues a column of an S operation that is neither CPAGE nor a rendezvous: what is due lands, control takes the band on, and the
step is counted (R470, R507). -/
theorem State.issue_sOnly {s : State} {bn pb : Nat} {img : ImageS} {col : Col} {acts : List InFlight} {c : Ctl}
    (hctl : control s bn (s.view bn 0) col.s (s.bandAt bn).pc = c) (hpage : c.cpage = none) (hrdv : c.rdv = none) {t : State}
    (ht : t = (((s.updBand bn fun b => b.issued acts bn s.free).landStep bn).advance bn c (img.columns pb)).updBand bn fun b =>
      { b with step := b.step + 1 }) (hadmit : (t.ctxAt (s.bandAt bn).ctx).admitCmd = none) :
    s.issue bn img pb [col] [{ acts := acts }] = t.takeFree.2 := by
  unfold State.issue
  extract_lets b e c' s1 s2 s3 s4 s5 s6 s7 s8 s9 s10
  have hc : c' = c := hctl
  have h1 : s1 = s.updBand bn fun b => b.issued acts bn s.free := rfl
  have h3 : s3 = s1 := rfl
  have h5 : s5 = s4 := State.stretch_zero s4 bn
  have h6 : s6 = s4 := by
    unfold s6
    rw [hc, hpage]
    exact h5
  have h9 : s9 = t := by
    unfold s9 s8 s7
    rw [hc, hrdv, h6, ht]
    unfold s4
    rw [h3, h1]
  have h10 : s10 = t := by
    unfold s10
    rw [h9]
    exact State.admitStarted_none hadmit
  rw [h10, h9]
  rfl

/-- A one-tile program band whose code page is loaded issues a column of an S word alone (R470, R530). -/
theorem exec_bandStep_sOnly {s : State} {bn n pb w : Nat} {img : ImageS} (hstep : s.canStep bn = true) (hown : (s.bandAt bn).program = true)
    (himg : s.program bn = some (img, pb)) (htiles : (s.bandAt bn).tiles = [n])
    (hpage : img.resident pb = true ∨ Tab.get? (s.bandAt bn).frames ((s.bandAt bn).pc / 1024 % 8) = some ((s.bandAt bn).pc / 1024))
    (hcol : img.col pb 0 (s.bandAt bn).pc = { s := w }) :
    exec (.bandStep bn {}) s = .next (s.issue bn img pb [{ s := w }] [{ acts := (sSlot (s.view bn 0) w).acts }]) := by
  change execBandStep bn {} s = _
  refine (onTrigger_fires s _ hstep).trans (congrArg _ ?_)
  rw [hown, if_pos rfl]
  have hcols : ((List.range 1).map fun t => img.col pb t (s.bandAt bn).pc) = [{ s := w }] := by simp [hcol]
  have heffs : ((List.range 1).map fun t => tileColumn (s.view bn t) (([{ s := w }] : List Col).getD t {})) =
      [{ acts := (sSlot (s.view bn 0) w).acts }] := by simp [tileColumn_sOnly]
  have hpresent : (!img.resident pb && Tab.get? (s.bandAt bn).frames ((s.bandAt bn).pc / 1024 % 8) != some ((s.bandAt bn).pc / 1024)) = false := by
    rcases hpage with h | h <;> simp [h]
  simp only [State.columnStep, himg, htiles, List.length_cons, List.length_nil, Nat.zero_add, hcols, heffs, hpresent]
  rfl

/-- A program's band once a step has passed that leaves it at address `pc` with nothing in flight and no delay column. -/
def BandS.passedTo (b : BandS) (bn free pc : Nat) (loops : List (Nat × Nat × Nat)) (halted : Bool) : BandS :=
  { (b.issued [] bn free).landed with pc := pc, loops := loops, delay := none, halted := halted, step := b.step + 1 }

section Column

variable {s : State} {bn n pb : Nat} {img : ImageS} (hstep : s.canStep bn = true) (hown : (s.bandAt bn).program = true)
  (himg : s.program bn = some (img, pb)) (htiles : (s.bandAt bn).tiles = [n]) (hfly : (s.bandAt bn).inflight = [])
  (hpage : img.resident pb = true ∨ Tab.get? (s.bandAt bn).frames ((s.bandAt bn).pc / 1024 % 8) = some ((s.bandAt bn).pc / 1024))
  (hadmit : (s.ctxAt (s.bandAt bn).ctx).admitCmd = none)

include hstep hown himg htiles hfly hpage hadmit

/-- A column of an S operation with a result writes that register of the tile at the end of its step, and the next column follows (R507). -/
theorem exec_bandStep_sWrite {w : Nat} {x : Word} (hloops : (s.bandAt bn).loops = []) (hdelay : (s.bandAt bn).delay = none)
    (hmore : (s.bandAt bn).pc + 1 < img.columns pb) (hcol : img.col pb 0 (s.bandAt bn).pc = { s := w }) (hop : sl w 31 26 < 0x10)
    (hx : sValue (s.view bn 0) w = some x) : exec (.bandStep bn {}) s =
      .next ((s.updBand bn fun b => b.passedTo bn s.free ((s.bandAt bn).pc + 1) [] false).updTile n fun t =>
        { t with s := Tab.put t.s (sl w 25 21) x }).takeFree.2 := by
  have hhas := State.has_of_canStep hstep
  have hissued := s.bandAt_updBand_self (fun b => b.issued (sSlot (s.view bn 0) w).acts bn s.free) hhas
  have hland : (s.updBand bn fun b => b.issued (sSlot (s.view bn 0) w).acts bn s.free).landStep bn =
      (s.updBand bn fun b => (b.issued [] bn s.free).landed).updTile n fun t => { t with s := Tab.put t.s (sl w 25 21) x } := by
    have htile : (s.view bn 0).tile = n := by simp [State.view, htiles]
    rw [State.landStep_sreg (n := n) (a := (s.view bn 0).fly 0 1 (.sreg n (sl w 25 21) x)) (by rw [hissued]; exact htiles)
      (by rw [hissued, BandS.issued, hfly, sSlot_acts_of_value hop hx, htile]; rfl) rfl (Nat.zero_lt_succ 5) (by rw [hissued]; exact le_rfl),
      State.updBand_updBand]
    rfl
  have hlanded := s.bandAt_updBand_self (fun b => (b.issued [] bn s.free).landed) hhas
  have hnext := State.advance_next (s := (s.updBand bn fun b => (b.issued [] bn s.free).landed).updTile n fun t =>
    { t with s := Tab.put t.s (sl w 25 21) x }) (bn := bn) (columns := img.columns pb) (by rw [State.bandAt_updTile, hlanded]; exact hloops)
    (by rw [State.bandAt_updTile, hlanded]; exact hdelay) (by rw [State.bandAt_updTile, hlanded]; exact hmore)
  rw [exec_bandStep_sOnly hstep hown himg htiles hpage hcol]
  refine congrArg _ (State.issue_sOnly (control_of_value s bn _ _ hop) rfl rfl ?_ ?_)
  · rw [hland, hnext, State.updBand_updTile, State.updBand_updBand, State.updBand_updTile, State.updBand_updBand, State.bandAt_updTile, hlanded]
    rfl
  · simpa [State.ctxAt] using hadmit

/-- A column of HALT halts the band and lands nothing (R524). -/
theorem exec_bandStep_halt (hcol : img.col pb 0 (s.bandAt bn).pc = { s := haltWord }) :
    ∃ pc loops, exec (.bandStep bn {}) s = .next (s.updBand bn fun b => b.passedTo bn s.free pc loops true).takeFree.2 := by
  have hhas := State.has_of_canStep hstep
  have hissued := s.bandAt_updBand_self (fun b => b.issued [] bn s.free) hhas
  have hland : (s.updBand bn fun b => b.issued [] bn s.free).landStep bn = s.updBand bn fun b => (b.issued [] bn s.free).landed := by
    rw [State.landStep_none (n := n) (by rw [hissued]; exact htiles) (by rw [hissued, BandS.issued, hfly]; rfl), State.updBand_updBand]
  obtain ⟨pc, loops, hhalt⟩ := State.advance_halt (s.updBand bn fun b => (b.issued [] bn s.free).landed) bn (img.columns pb)
  refine ⟨pc, loops, ?_⟩
  rw [exec_bandStep_sOnly hstep hown himg htiles hpage hcol]
  refine congrArg _ (State.issue_sOnly (control_halt s bn _ _) rfl rfl ?_ ?_)
  · rw [sSlot_acts_halt, hland, hhalt, State.updBand_updBand, State.updBand_updBand]
    rfl
  · simpa [State.ctxAt] using hadmit

end Column

/-! ### Rendezvous -/

/-- A pass that updates listed bands the same way, once or more often, leaves each with the update where once is as good as twice. -/
theorem State.bandAt_forEach_updBand {f : BandS → BandS} (hf : ∀ b, f (f b) = f b) (l : List Nat) (s : State) (k : Nat) :
    (forEach l (fun m u => u.updBand m f) s).bandAt k = if k ∈ l ∧ Tab.has s.bands k = true then f (s.bandAt k) else s.bandAt k := by
  induction l generalizing s with
  | nil => simp [forEach]
  | cons m l ih =>
    change (forEach l (fun m u => u.updBand m f) (s.updBand m f)).bandAt k = _
    rw [ih, State.has_updBand]
    by_cases hk : k = m
    · subst hk
      by_cases hhas : Tab.has s.bands k = true
      · simp [hhas, s.bandAt_updBand_self f hhas, hf]
      · simp [hhas, State.updBand]
    · simp [hk, s.bandAt_updBand_other f hk]

/-- A band let go from its rendezvous. -/
def BandS.leaves (b : BandS) : BandS := { b with waiting := none }

/-- The members that RENDEZVOUS_COMPLETE lets go: those that wait there and may leave (R493). -/
def State.letGo (s : State) (rv : Nat) : List Nat :=
  (Tab.getD s.rvs rv {}).members.filter fun m => decide ((s.bandAt m).waiting = some rv) && s.mayLeave rv m

theorem State.mem_letGo {s : State} {rv m : Nat} :
    m ∈ s.letGo rv ↔ m ∈ (Tab.getD s.rvs rv {}).members ∧ (s.bandAt m).waiting = some rv ∧ s.mayLeave rv m = true := by
  simp only [State.letGo, List.mem_filter, Bool.and_eq_true, decide_eq_true_eq]

theorem exec_rendezvousComplete {s : State} {rv m : Nat} (hrv : rv < 48) (hm : m ∈ s.letGo rv) :
    exec (.rendezvousComplete rv) s = .next (forEach (s.letGo rv) (fun m u => u.updBand m BandS.leaves) s) := by
  have hsome : (s.letGo rv).isEmpty = false := List.isEmpty_eq_false_iff.2 (List.ne_nil_of_mem hm)
  exact onTrigger_fires (p := !(s.letGo rv).isEmpty && decide (rv < 48)) s _ (by simp [hsome, hrv])

/-- What a band is after RENDEZVOUS_COMPLETE: a member that was let go waits no more. -/
theorem State.bandAt_letGo (s : State) (rv k : Nat) :
    (forEach (s.letGo rv) (fun m u => u.updBand m BandS.leaves) s).bandAt k = if k ∈ s.letGo rv then (s.bandAt k).leaves else s.bandAt k := by
  rw [State.bandAt_forEach_updBand (f := BandS.leaves) fun _ => rfl]
  by_cases hk : k ∈ s.letGo rv
  · obtain ⟨-, hwaits, -⟩ := State.mem_letGo.1 hk
    have hhas := State.has_band_of_ne (s := s) (bn := k) fun e => by rw [e] at hwaits; exact absurd hwaits nofun
    rw [if_pos ⟨hk, hhas⟩, if_pos hk]
  · rw [if_neg fun h => hk h.1, if_neg hk]

/-- The event of a rendezvous that a band has waited at for 1 ms (R497). -/
def rendezvousLateEvent (s : State) (bn rv : Nat) : Event :=
  { code := 0x8901, detail := BitVec.ofNat 16 (bn * 4096 + rv), ctx := some (s.bandAt bn).ctx, mask := BitVec.ofNat 8 (2 ^ (s.bandAt bn).ctx),
    time := s.devTime }

theorem exec_fabricRendezvousLate {s : State} {bn rv : Nat} (hhas : Tab.has s.bands bn = true) (hwait : (s.bandAt bn).waiting = some rv)
    (hnew : (s.bandAt bn).lateRaised = false) (hlong : msTicks 1 ≤ s.since (s.bandAt bn).waitSince) : exec (.fabricRendezvousLate bn) s =
      .next ((s.updBand bn fun b => { b with lateRaised := true }).raiseEvent (rendezvousLateEvent s bn rv)) := by
  change execFabricRendezvousLate bn s = _
  simp only [execFabricRendezvousLate, hwait]
  refine (onTrigger_fires s _ (by simp [hhas, hnew, hlong])).trans (congrArg _ ?_)
  rw [State.raiseCtx, State.devTime, State.devNs, State.updBand_time]
  rfl

/-- An arrival is reported once (R497). -/
theorem exec_fabricRendezvousLate_again {s : State} {bn : Nat} (h : (s.bandAt bn).lateRaised = true) : exec (.fabricRendezvousLate bn) s = .next s := by
  change execFabricRendezvousLate bn s = _
  unfold execFabricRendezvousLate
  extract_lets b
  split
  · exact onTrigger_idle s _ (by simp [b, h])
  · rfl

/-! ### Moves -/

/-- Rows written one after another where `p` allows: what a row is afterwards. -/
theorem get?_foldl_put_range {α : Type} (p : Nat → Bool) (g : Nat → α) (base n : Nat) (t : Tab α) (r : Nat) :
    Tab.get? ((List.range n).foldl (fun u k => if p k then Tab.put u (base + k) (g k) else u) t) r =
      if base ≤ r ∧ r < base + n ∧ p (r - base) = true then some (g (r - base)) else Tab.get? t r := by
  induction n with
  | zero =>
    have hnone : ¬ (base ≤ r ∧ r < base + 0 ∧ p (r - base) = true) := by omega
    rw [if_neg hnone]
    rfl
  | succ n ih =>
    rw [List.range_succ, List.foldl_append, List.foldl_cons, List.foldl_nil]
    by_cases hr : r = base + n
    · subst hr
      have hnone : ¬ (base ≤ base + n ∧ base + n < base + n ∧ p (base + n - base) = true) := by omega
      rw [if_neg hnone] at ih
      cases hp : p n <;> simp [hp, ih, Tab.get?_put]
    · have hlt : r < base + (n + 1) ↔ r < base + n := by omega
      simp only [hlt]
      rw [← ih]
      split
      · rw [Tab.get?_put, if_neg hr]
      · rfl

/-- The state once Promenade has served a move of a band, or dropped one that was suppressed: the move is gone and its flag one lower (R542). -/
def State.moveEnded (s : State) (bn tile flag seq : Nat) : State :=
  ((s.served (.bandMove bn seq)).updBand bn fun b => { b with moves := b.moves.filter fun x => x.seq != seq }).updTile
    ((s.bandAt bn).tiles.getD tile 0) fun t => { t with flags := Tab.upd t.flags flag 0 (· - 1) }

theorem State.moveEnded_eq (s : State) (bn tile flag seq : Nat) : s.moveEnded bn tile flag seq =
    { s with bands := (s.moveEnded bn tile flag seq).bands, tiles := (s.moveEnded bn tile flag seq).tiles,
             jobs := (s.moveEnded bn tile flag seq).jobs } := by
  rw [State.moveEnded, State.updBand_eq]
  rfl

theorem State.jobs_moveEnded (s : State) (bn tile flag seq : Nat) : (s.moveEnded bn tile flag seq).jobs = (s.served (.bandMove bn seq)).jobs := by
  rw [State.moveEnded, State.updTile_jobs, State.updBand_jobs]

theorem State.tileAt_moveEnded (s : State) (bn tile flag seq k : Nat) : (s.moveEnded bn tile flag seq).tileAt k =
    if k = (s.bandAt bn).tiles.getD tile 0 then { s.tileAt k with flags := Tab.upd (s.tileAt k).flags flag 0 (· - 1) } else s.tileAt k := by
  rw [State.moveEnded, State.updBand_eq, State.tileAt_updTile]
  split
  case isTrue h => rw [h]; rfl
  case isFalse => rfl

theorem State.moves_moveEnded {s : State} {bn : Nat} (h : (s.bandAt bn).moves ≠ []) (tile flag seq : Nat) :
    ((s.moveEnded bn tile flag seq).bandAt bn).moves = (s.bandAt bn).moves.filter fun x => x.seq != seq := by
  have hhas : Tab.has (s.served (.bandMove bn seq)).bands bn = true := State.has_band_of_ne fun e => h (by
    rw [State.bandAt_served] at e
    rw [e])
  rw [State.moveEnded, State.bandAt_updTile, State.bandAt_updBand_self _ hhas]
  rfl

/-- The move that MOVE_COMPLETE completes: the first on the flag that is suppressed or that Promenade serves next (R44, R542). -/
def State.movesNext (s : State) (bn tile flag : Nat) : Option MoveS :=
  (s.bandAt bn).moves.find? fun m => m.tile == tile && m.flag == flag && (m.suppressed || s.serves (.bandMove bn m.seq))

/-- The rows of a tile store once an MVIN has landed, without those of poisoned granules (R544, R636). -/
def MoveS.landIn (m : MoveS) (o : ObjS) (rows : Tab (List Word)) : Tab (List Word) :=
  (List.range m.nrows).foldl (fun u k =>
    if o.readable (256 * (m.offset + k)) 256 then Tab.put u (m.row + k) (bytesRow (o.bytes (256 * (m.offset + k)) 256)) else u) rows

theorem MoveS.get?_landIn (m : MoveS) (o : ObjS) (rows : Tab (List Word)) (r : Nat) : Tab.get? (m.landIn o rows) r =
    if m.row ≤ r ∧ r < m.row + m.nrows ∧ o.readable (256 * (m.offset + (r - m.row))) 256 = true then
      some (bytesRow (o.bytes (256 * (m.offset + (r - m.row))) 256)) else Tab.get? rows r :=
  get?_foldl_put_range (fun k => o.readable (256 * (m.offset + k)) 256) (fun k => bytesRow (o.bytes (256 * (m.offset + k)) 256)) m.row m.nrows rows r

section MoveComplete

variable {s : State} {bn tile flag : Nat} {m : MoveS} (hm : s.movesNext bn tile flag = some m)

include hm

theorem State.moves_moveEnded_subset : ∀ x ∈ ((s.moveEnded bn tile flag m.seq).bandAt bn).moves, x ∈ (s.bandAt bn).moves ∧ x.seq ≠ m.seq := by
  intro x hx
  rw [State.moves_moveEnded (List.ne_nil_of_mem (List.mem_of_find?_eq_some hm)), List.mem_filter, bne_iff_ne] at hx
  exact hx

theorem exec_moveComplete_suppressed (hsup : m.suppressed = true) : exec (.moveComplete bn tile flag) s = .next (s.moveEnded bn tile flag m.seq) := by
  change execMoveComplete bn tile flag s = _
  unfold State.movesNext at hm
  simp only [execMoveComplete, hm, hsup, if_true]
  rfl

variable (hsup : m.suppressed = false) {o : ObjS} (hobj : Tab.get? s.objs m.obj = some o)

include hsup hobj

theorem exec_moveComplete_in (hin : m.isIn = true) : exec (.moveComplete bn tile flag) s =
    .next ((s.moveEnded bn tile flag m.seq).updTile ((s.bandAt bn).tiles.getD tile 0) fun t => { t with rows := m.landIn o t.rows }) := by
  have hobjs : Tab.get? (s.moveEnded bn tile flag m.seq).objs m.obj = some o := by rw [State.moveEnded_eq]; exact hobj
  change execMoveComplete bn tile flag s = _
  unfold State.movesNext at hm
  unfold State.moveEnded at hobjs
  simp only [execMoveComplete, hm, hsup, Bool.false_eq_true, if_false, hobjs, hin, if_true]
  rfl

theorem exec_moveComplete_out (hout : m.isIn = false) : exec (.moveComplete bn tile flag) s =
    .next ((s.moveEnded bn tile flag m.seq).updObj m.obj fun o => o.write (256 * m.offset) (m.data.flatMap rowBytes)) := by
  have hobjs : Tab.get? (s.moveEnded bn tile flag m.seq).objs m.obj = some o := by rw [State.moveEnded_eq]; exact hobj
  change execMoveComplete bn tile flag s = _
  unfold State.movesNext at hm
  unfold State.moveEnded at hobjs
  simp only [execMoveComplete, hm, hsup, Bool.false_eq_true, if_false, hobjs, hout]
  rfl

end MoveComplete

/-! ### Code pages and stream fills -/

/-- A band whose load of a page has ended: the page has its frame (R527, R529). -/
def BandS.holding (b : BandS) (page : Nat) : BandS :=
  { b with loading := b.loading.filter (· != page), frames := Tab.put b.frames (page % 8) page }

/-- The state once Promenade has served the load of a code page. -/
def State.pageLoaded (s : State) (bn page : Nat) : State :=
  (s.served (.codePage bn page)).updBand bn fun b => b.holding page

theorem State.pageLoaded_as {s : State} {bn page : Nat} (h : (s.bandAt bn).loading.contains page = true) :
    BandAs bn ((s.bandAt bn).holding page) (s.served (.codePage bn page)) (s.pageLoaded bn page) := by
  have hhas : Tab.has s.bands bn = true := State.has_band_of_ne fun e => by rw [e] at h; exact absurd h nofun
  exact .updBand (fun b => b.holding page) (s := s.served (.codePage bn page)) hhas

/-- A read that failed is counted, raised and takes a region of the reserve (R630, R816). -/
def State.pageReadFailed (s : State) : State :=
  (({ s with free := s.free + 1, dep := { s.dep with uncorrectable := s.dep.uncorrectable + 1 } } : State).raise 0x8C05
    (0x8000 + Config.openVal 29 s.free % 16)).takeRegion

theorem exec_codePageLoaded {s : State} {bn page : Nat} (failed : Bool) (hload : (s.bandAt bn).loading.contains page = true)
    (hserves : s.serves (.codePage bn page) = true) : exec (.codePageLoaded bn page failed) s =
      .next (if failed then (s.pageLoaded bn page).pageReadFailed else s.pageLoaded bn page) := by
  change execCodePageLoaded bn page failed s = _
  refine (onTrigger_fires s _ (by rw [hload, hserves]; rfl)).trans (congrArg _ ?_)
  cases failed <;> rfl

/-- Taking a region changes the reserve, and may raise that it is low (R816, R817). -/
theorem State.takeRegion_spec (s : State) : ∃ l, s.takeRegion.events = s.events ++ l ∧
    s.takeRegion = { s with dep := s.takeRegion.dep, events := s.takeRegion.events, tether := s.takeRegion.tether } := by
  unfold State.takeRegion
  split
  · exact ⟨[], (List.append_nil _).symm, rfl⟩
  · extract_lets u
    split
    · exact ⟨[_], rfl, rfl⟩
    · exact ⟨[], (List.append_nil _).symm, rfl⟩

theorem State.pageReadFailed_spec (s : State) : (∃ e ∈ s.pageReadFailed.events, e.code = 0x8C05) ∧ s.pageReadFailed =
    { s with dep := s.pageReadFailed.dep, events := s.pageReadFailed.events, tether := s.pageReadFailed.tether, free := s.free + 1 } := by
  obtain ⟨l, hevents, hstate⟩ := State.takeRegion_spec (({ s with free := s.free + 1, dep := { s.dep with uncorrectable :=
    s.dep.uncorrectable + 1 } } : State).raise 0x8C05 (0x8000 + Config.openVal 29 s.free % 16))
  refine ⟨⟨{ code := 0x8C05, detail := BitVec.ofNat 16 (0x8000 + Config.openVal 29 s.free % 16), time := s.devTime }, ?_, rfl⟩, hstate⟩
  rw [State.pageReadFailed, hevents]
  exact List.mem_append_left _ (List.mem_append_right _ (List.mem_singleton_self _))

/-- A page that has been loaded stands in its frame, whether its first read failed or not; a failed read is raised (R529, R630). -/
theorem exec_codePageLoaded_spec {s : State} {bn page : Nat} (failed : Bool) (hload : (s.bandAt bn).loading.contains page = true)
    (hserves : s.serves (.codePage bn page) = true) : ∃ t, exec (.codePageLoaded bn page failed) s = .next t ∧
      t = { s.pageLoaded bn page with dep := t.dep, events := t.events, tether := t.tether, free := t.free } ∧
      (failed = true → ∃ e ∈ t.events, e.code = 0x8C05) ∧ (failed = false → t = s.pageLoaded bn page) := by
  have hexec := exec_codePageLoaded failed hload hserves
  cases failed with
  | true =>
    obtain ⟨hraised, hstate⟩ := (s.pageLoaded bn page).pageReadFailed_spec
    refine ⟨_, hexec, ?_, fun _ => hraised, nofun⟩
    rw [if_pos rfl, hstate]
  | false => exact ⟨_, hexec, rfl, nofun, fun _ => rfl⟩

/-- The rows of a tile store once a layer's slice of tile `tile` has landed in the buffer of fill `f` (R624). -/
def WStream.landFill (w : WStream) (f : Nat × Nat × List Nat) (tile : Nat) (o : ObjS) (rows : Tab (List Word)) : Tab (List Word) :=
  (List.range (w.layers.getD f.2.1 (0, 0)).2).foldl (fun u k => Tab.put u ((if f.1 = 0 then w.buf0 else w.buf1) + k)
    (bytesRow (o.bytes (256 * ((w.layers.getD f.2.1 (0, 0)).1 + tile * (w.layers.getD f.2.1 (0, 0)).2) + 256 * k) 256))) rows

theorem WStream.get?_landFill (w : WStream) (f : Nat × Nat × List Nat) (tile : Nat) (o : ObjS) (rows : Tab (List Word)) {r : Nat}
    (hr : r < (w.layers.getD f.2.1 (0, 0)).2) : Tab.get? (w.landFill f tile o rows) ((if f.1 = 0 then w.buf0 else w.buf1) + r) =
      some (bytesRow (o.bytes (256 * ((w.layers.getD f.2.1 (0, 0)).1 + tile * (w.layers.getD f.2.1 (0, 0)).2) + 256 * r) 256)) := by
  unfold WStream.landFill
  generalize (if f.1 = 0 then w.buf0 else w.buf1) = base
  generalize w.layers.getD f.2.1 (0, 0) = layer at hr ⊢
  have hrows := get?_foldl_put_range (fun _ => true) (fun k => bytesRow (o.bytes (256 * (layer.1 + tile * layer.2) + 256 * k) 256)) base layer.2 rows
    (base + r)
  rw [if_pos ⟨by omega, by omega, rfl⟩, Nat.add_sub_cancel_left] at hrows
  exact hrows

/-- A stream once the rows of one tile have landed: with the last one its buffer holds the layer (R625, R626). -/
def WStream.tileFilled (w : WStream) (f : Nat × Nat × List Nat) (tile : Nat) : WStream :=
  let left := f.2.2.filter (· != tile)
  { w with fills := if left.isEmpty then w.fills.filter (· != f) else w.fills.map fun x => if x = f then (f.1, f.2.1, left) else x,
           held := if left.isEmpty then setAt none w.held f.1 (some f.2.1) else w.held }

/-- STREAM_LAYER_RESIDENT lands the rows of one tile and leaves a stream with that tile filled (R624, R628). -/
theorem exec_streamLayerResident {s : State} {n st tile buf : Nat} {w : WStream} {f : Nat × Nat × List Nat} {o : ObjS}
    (hbuf : ([0, 1].find? fun b => s.serves (.streamFill n st b tile)) = some buf) (hfill : s.fillOf n st buf tile = some (w, f, o)) :
    exec (.streamLayerResident n st tile) s = .next (((s.served (.streamFill n st buf tile)).updTile ((s.bandAt w.band).tiles.getD tile 0) fun t =>
        { t with rows := w.landFill f tile o t.rows }).updCtx n fun c => { c with streams := Tab.put c.streams st (w.tileFilled f tile) }) := by
  change execStreamLayerResident n st tile s = _
  simp only [execStreamLayerResident, hbuf, hfill]
  rfl

/-- Settles O31: a session's step, a program's S slot and HALT, the rendezvous and its lateness, then what Promenade's moves, pages and layers land. -/
theorem bandStepsIssueAndLand : Obligations.BandStepsIssueAndLand := by
  unfold Obligations.BandStepsIssueAndLand
  refine ⟨?stage, ?write, ?halt, ?complete, ?late, ?move, ?suppressed, ?page, ?layer⟩
  case stage =>
    intro s bn io hstep hown hfail hrows hstage
    have hband := BandAs.updBand (s := (s.mapDep fun d => { d with corrected := d.corrected + io.corrected }).takeFree.2)
      (fun b => b.stagePassed bn s.free) (State.has_of_canStep hstep)
    refine ⟨_, exec_bandStep_stage hstep hown hfail hrows hstage, congrArg BandS.step hband.band, congrArg BandS.started hband.band, ?_,
      hband.others, ?_⟩
    · rw [hband.band]; rfl
    · rw [hband.state]; rfl
  case write =>
    intro s bn n pb w x img hstep hown himg htiles hfly hloops hdelay hpage hmore hcol hop hx hadmit
    have hband := BandAs.updBand (fun b => b.passedTo bn s.free ((s.bandAt bn).pc + 1) [] false) (State.has_of_canStep hstep)
    have hexec := exec_bandStep_sWrite hstep hown himg htiles hfly hpage hadmit hloops hdelay hmore hcol hop hx
    generalize (s.updBand bn fun b => b.passedTo bn s.free ((s.bandAt bn).pc + 1) [] false) = u at hband hexec
    refine ⟨_, hexec, ?_, fun r hr => ?_, ?_, ?_, congrArg BandS.pc hband.band, congrArg BandS.step hband.band, congrArg BandS.halted hband.band,
      fun k hk => ?_, hband.others, ?_⟩
    · rw [State.tileAt_takeFree, State.tileAt_updTile, if_pos rfl, Tab.get?_put, if_pos rfl]
    · rw [State.tileAt_takeFree, State.tileAt_updTile, if_pos rfl, Tab.get?_put, if_neg hr, hband.tileAt]
    · rw [State.tileAt_takeFree, State.tileAt_updTile, if_pos rfl, hband.tileAt]
    · rw [State.tileAt_takeFree, State.tileAt_updTile, if_pos rfl, hband.tileAt]
    · rw [State.tileAt_takeFree, State.tileAt_updTile, if_neg hk, hband.tileAt]
    · rw [hband.state]; rfl
  case halt =>
    intro s bn n pb img hstep hown himg htiles hfly hadmit hpage hcol
    obtain ⟨pc, loops, hexec⟩ := exec_bandStep_halt hstep hown himg htiles hfly hpage hadmit hcol
    have hband := BandAs.updBand (fun b => b.passedTo bn s.free pc loops true) (State.has_of_canStep hstep)
    generalize (s.updBand bn fun b => b.passedTo bn s.free pc loops true) = u at hband hexec
    refine ⟨_, hexec, congrArg BandS.halted hband.band, congrArg BandS.step hband.band, ?_, hband.others, ?_⟩
    · rw [hband.state]; rfl
    · rw [hband.state]; rfl
  case complete =>
    rintro s rv hrv ⟨m, hmem, hwait, hmay⟩
    refine ⟨_, exec_rendezvousComplete hrv (State.mem_letGo.2 ⟨hmem, hwait, hmay⟩), fun k => ?_, fun k => ?_,
      forEach_updBand_eq (fun _ => BandS.leaves) _ s⟩
    · rw [State.bandAt_letGo]
      by_cases hk : k ∈ s.letGo rv
      · rw [if_pos hk, if_pos (State.mem_letGo.1 hk)]; rfl
      · rw [if_neg hk, if_neg fun h => hk (State.mem_letGo.2 h)]
    · rw [State.bandAt_letGo]
      split <;> rfl
  case late =>
    intro s bn rv hhas hwait hnew hlong
    have hband := BandAs.updBand (fun b => { b with lateRaised := true }) hhas
    have hexec := exec_fabricRendezvousLate hhas hwait hnew hlong
    generalize (s.updBand bn fun b => { b with lateRaised := true }) = u at hband hexec
    refine ⟨_, rendezvousLateEvent s bn rv, hexec, hband.band, ?_, rfl, rfl,
      exec_fabricRendezvousLate_again (congrArg BandS.lateRaised hband.band), ?_⟩
    · rw [hband.state]; rfl
    · rw [hband.state]; rfl
  case move =>
    intro s bn tile flag m o hm hsup hobj
    have hmoves := State.moves_moveEnded_subset hm
    have hended := s.moveEnded_eq bn tile flag m.seq
    have hjobs := s.jobs_moveEnded bn tile flag m.seq
    have htile := s.tileAt_moveEnded bn tile flag m.seq ((s.bandAt bn).tiles.getD tile 0)
    rw [if_pos rfl] at htile
    cases hdir : m.isIn with
    | true =>
      have hexec := exec_moveComplete_in hm hsup hobj hdir
      generalize s.moveEnded bn tile flag m.seq = u at hmoves hended hexec htile hjobs
      refine ⟨_, hexec, hmoves, ?_, fun _ => ⟨fun k hk hread => ?_, fun r hr => ?_, ?_⟩, nofun, hjobs, ?_⟩
      · rw [State.tileAt_updTile, if_pos rfl, htile, Tab.getD_upd_self]
      · rw [State.tileAt_updTile, if_pos rfl, m.get?_landIn, if_pos ⟨by omega, by omega, by rwa [Nat.add_sub_cancel_left]⟩,
          Nat.add_sub_cancel_left]
      · rw [State.tileAt_updTile, if_pos rfl, m.get?_landIn, if_neg (by omega), htile]
      · rw [State.updTile_objs, hended]
      · rw [hended]; rfl
    | false =>
      have hexec := exec_moveComplete_out hm hsup hobj hdir
      generalize s.moveEnded bn tile flag m.seq = u at hmoves hended hexec htile hjobs
      refine ⟨_, hexec, ?_, ?_, nofun, fun _ => ⟨?_, fun k hk => ?_⟩, ?_, ?_⟩
      · rwa [State.bandAt_updObj]
      · rw [State.tileAt_updObj, htile, Tab.getD_upd_self]
      · rw [State.get?_updObj, if_pos rfl, hended, hobj, Option.map_some]
      · rw [State.get?_updObj, if_neg hk, hended]
      · rw [State.updObj_jobs]; exact hjobs
      · rw [State.updObj_eq, hended]
  case suppressed =>
    intro s bn tile flag m hm hsup
    refine ⟨_, exec_moveComplete_suppressed hm hsup, State.moves_moveEnded_subset hm, fun k => ?_, ?_, s.moveEnded_eq bn tile flag m.seq⟩
    · rw [State.tileAt_moveEnded]
      split <;> rfl
    · rw [State.tileAt_moveEnded, if_pos rfl, Tab.getD_upd_self]
  case page =>
    intro s bn page failed hload hserves
    obtain ⟨t, hexec, ht, hlost, hintact⟩ := exec_codePageLoaded_spec failed hload hserves
    have hband := State.pageLoaded_as hload
    have hat : ∀ k, t.bandAt k = (s.pageLoaded bn page).bandAt k := fun k => by rw [ht]; rfl
    refine ⟨t, hexec, ?_, fun f hf => ?_, ?_, ?_, fun k hk => (hat k).trans (hband.others k hk), ?_, ?_, ?_, ?_, hlost, fun h => ?_⟩
    · rw [hat, hband.band]; exact (Tab.get?_put ..).trans (if_pos rfl)
    · rw [hat, hband.band]; exact (Tab.get?_put ..).trans (if_neg hf)
    · rw [hat, hband.band]; simp [BandS.holding]
    · rw [hat, hband.band]; rfl
    · rw [ht, hband.state]; rfl
    · rw [ht, hband.state]; rfl
    · rw [ht, hband.state]; rfl
    · rw [ht, hband.state]; rfl
    · rw [hintact h, hband.state]; rfl
  case layer =>
    intro s n st tile buf w f o hbuf hfill
    refine ⟨_, exec_streamLayerResident hbuf hfill, fun r hr => ?_, fun j hj => ?_, fun k hk => ?_, rfl⟩
    · rw [State.tileAt_updCtx, State.tileAt_updTile, if_pos rfl]
      exact w.get?_landFill f tile o _ hr
    · rw [State.tileAt_updCtx, State.tileAt_updTile, if_neg hj, State.tileAt_served]
    · exact (State.ctxAt_updCtx ..).trans (if_neg hk)

end Sys2Proof.Machine

/-! ## Pairs: the commit rendezvous, carriers and cover records (R500 to R503, R797 to R808) -/

namespace Sys2Proof.Machine

/-! ### Changes to a pair -/

theorem State.get?_updPair (s : State) (n k : Nat) (f : PairS → PairS) :
    Tab.get? (s.updPair n f).pairs k = if k = n then (Tab.get? s.pairs n).map f else Tab.get? s.pairs k := by
  have hpairs : (s.updPair n f).pairs = if Tab.has s.pairs n then Tab.upd s.pairs n {} f else s.pairs := by
    unfold State.updPair
    split <;> rfl
  rw [hpairs]
  exact Tab.get?_updIf ..

/-- The event PAIR_STATE (Table 19-6). -/
def State.pairEvent (s : State) (n state cause : Nat) (carrier : Option Nat) : Event :=
  { code := 0x8C03, detail := BitVec.ofNat 16 (n * 4096 + carrier.getD 15 * 256 + cause * 16 + state), ctx := some n,
    mask := BitVec.ofNat 8 (2 ^ n), time := s.devTime }

/-- PAIR_STATE is raised with the pair's new state (Table 19-6). -/
theorem State.pairState_eq (s : State) (n state cause : Nat) (carrier : Option Nat) : s.pairState n state cause carrier =
    { s with pairs := (s.updPair n fun p => { p with state := state, carrier := carrier }).pairs,
             events := s.events ++ [s.pairEvent n state cause carrier], tether := s.tether.pushEvent (s.pairEvent n state cause carrier) } := by
  rw [State.pairState, State.updPair_eq]
  rfl

/-- A band that comes to wait for its copy changes that of its pair alone. -/
theorem State.get?_needsCopy {s : State} {k : Nat} {q : PairS} (b : Nat) (h : Tab.get? s.pairs k = some q) :
    ∃ l, Tab.get? (s.needsCopy b).pairs k = some { q with needCopy := l } := by
  unfold State.needsCopy
  split
  · rename_i n p _
    rw [State.get?_updPair]
    split
    case isTrue hk => subst hk; exact ⟨_, by rw [h, Option.map_some]⟩
    case isFalse => exact ⟨_, h⟩
  · exact ⟨_, h⟩

/-! ### A record of the pair is written -/

/-- A pair whose bands have left the commit rendezvous of a record. -/
def PairS.dropped (p : PairS) (isOpt : Bool) (key : Nat) : PairS :=
  { p with bufA := p.bufA.filter fun e => !(e.isOpt == isOpt && e.key == key), bufB := p.bufB.filter fun e => !(e.isOpt == isOpt && e.key == key) }

/-- `t` is `s` with `y` as the session of context `n` and `p` as its pair, records of it written or held, and bands let go from their rendezvous. -/
structure PairStep (n : Nat) (y : SessionS) (p : PairS) (s t : State) : Prop where
  state : t = { s with ctxs := t.ctxs, pairs := t.pairs, bands := t.bands, hostMem := t.hostMem, held := t.held, events := t.events, tether := t.tether }
  session : t.sessionAt n = some y
  pair : Tab.get? t.pairs n = some p
  ctxs : ∀ k, k ≠ n → t.ctxAt k = s.ctxAt k
  pairs : ∀ k, k ≠ n → Tab.get? t.pairs k = Tab.get? s.pairs k
  stopped : ∀ k, (t.bandAt k).stopped = (s.bandAt k).stopped
  has : ∀ k, Tab.has t.bands k = Tab.has s.bands k

/-- Letting a band go leaves whether each band stands still. -/
theorem State.stopped_updBand_leaves (s : State) (b k : Nat) : ((s.updBand b BandS.leaves).bandAt k).stopped = (s.bandAt k).stopped := by
  simp only [State.bandAt, Tab.getD, State.get?_updBand]
  split
  case isTrue h => subst h; cases Tab.get? s.bands k <;> rfl
  case isFalse => rfl

/-- `t` is `s` with bands let go from their rendezvous. -/
structure BandsLetGo (s t : State) : Prop where
  state : t = { s with bands := t.bands }
  stopped : ∀ k, (t.bandAt k).stopped = (s.bandAt k).stopped
  has : ∀ k, Tab.has t.bands k = Tab.has s.bands k

theorem BandsLetGo.refl (s : State) : BandsLetGo s s := ⟨rfl, fun _ => rfl, fun _ => rfl⟩

theorem BandsLetGo.leaves {s t : State} (h : BandsLetGo s t) (b : Nat) : BandsLetGo s (t.updBand b BandS.leaves) where
  state := by rw [State.updBand_eq, h.state]
  stopped k := (State.stopped_updBand_leaves t b k).trans (h.stopped k)
  has k := (State.has_updBand ..).trans (h.has k)

/-- Once the session's part is done, the bands that hold the record leave the rendezvous. -/
theorem RecordsAs.dropEntry {n : Nat} {y : SessionS} {s t : State} {p : PairS} (h : RecordsAs n y s t) (hp : Tab.get? s.pairs n = some p)
    (isOpt : Bool) (key : Nat) : PairStep n y (p.dropped isOpt key) s (dropEntry n isOpt key t) := by
  have hpt : Tab.get? t.pairs n = some p := by rw [h.state]; exact hp
  unfold Machine.dropEntry
  extract_lets keep
  rw [hpt]
  dsimp -zeta only
  extract_lets u
  have hu : BandsLetGo t u := forEach_keeps (P := BandsLetGo t) _ _ (fun b _ v hv => by
    split
    · exact hv
    · exact hv.leaves b) (.refl t)
  generalize u = u at hu
  have hbands : ∀ f k, (u.updPair n f).bandAt k = u.bandAt k := fun f k => by rw [State.bandAt, State.updPair_bands, State.bandAt]
  have hpairs : u.pairs = s.pairs := by rw [hu.state, h.state]
  have hctxs : ∀ f k, (u.updPair n f).ctxAt k = t.ctxAt k := fun f k => by rw [State.ctxAt, State.updPair_ctxs, hu.state, State.ctxAt]
  constructor
  case state => rw [State.updPair_eq, hu.state, h.state]
  case session => rw [State.sessionAt, hctxs]; exact h.session
  case pair => rw [State.get?_updPair, if_pos rfl, hpairs, hp]; rfl
  case ctxs => exact fun k hk => (hctxs _ k).trans (h.others k hk)
  case pairs => exact fun k hk => by rw [State.get?_updPair, if_neg hk, hpairs]
  case stopped => exact fun k => by rw [hbands, hu.stopped, h.state]; rfl
  case has => exact fun k => by rw [State.updPair_bands, hu.has, h.state]

/-- A committed record carries the ring's next SEQ (R87). -/
theorem State.record_lastSeq {s : State} {n : Nat} {x : SessionS} (k : Nat) (h : RecHead) (body : List Byte) (hx : s.sessionAt n = some x) :
    ∃ y, (s.record n k h body).sessionAt n = some y ∧ (y.rings.getD k {}).lastSeq = (x.rings.getD k {}).seq := by
  unfold State.record
  rw [hx]
  dsimp -zeta only
  extract_lets r b numbered raised
  have hnumbered : RecordsAs n (x.withRing k r.numbered) s numbered := (RecordsAs.refl hx).upd fun y => y.withRing k r.numbered
  have hraised : RecordsAs n (x.withRing k r.numbered) s raised := by
    unfold raised
    split
    · exact hnumbered.raise _ _
    · exact hnumbered
  have hlast : ((x.withRing k r.numbered).rings.getD k {}).lastSeq = r.seq := by rw [SessionS.withRing_ring]; rfl
  split
  case isTrue =>
    obtain ⟨w, hnoted⟩ := (hraised.ringWrite k b).noteLatency h.start
    refine ⟨_, hnoted.session, ?_⟩
    generalize x.withRing k r.numbered = z at hlast
    change ((z.withRing k ((z.rings.getD k {}).past (b.length / 64))).rings.getD k {}).lastSeq = _
    rw [SessionS.withRing_ring]
    exact hlast
  case isFalse => exact ⟨_, hraised.session, hlast⟩

/-- A POSE_FAST that is due is written and settled; whether it is or not, the bands that hold it leave the rendezvous (R81, R500, R502). -/
theorem writeFast_spec {s : State} {n : Nat} {x : SessionS} {p : PairS} (hx : s.sessionAt n = some x) (hp : Tab.get? s.pairs n = some p)
    (key : Nat) (pose : PoseFast) (single degraded : Bool) : ∃ y, PairStep n y (p.dropped false key) s (writeFast n key pose single degraded s) ∧
      (x.stopped = false → (∃ d ∈ x.fastDue, d.1 = key) → y.fastDue = x.fastDue.filter (fun d => d.1 != key) ∧
        (y.rings.getD 0 {}).lastSeq = (x.rings.getD 0 {}).seq) := by
  unfold writeFast
  rw [hx]
  dsimp -zeta only
  split
  case h_1 hnone =>
    refine ⟨x, (RecordsAs.refl hx).dropEntry hp false key, fun _ ⟨d, hd, hkey⟩ => ?_⟩
    exact absurd (List.find?_eq_none.1 hnone d hd) (by simp [hkey])
  case h_2 d _ =>
    split
    case isTrue hstopped => exact ⟨x, (RecordsAs.refl hx).dropEntry hp false key, fun hrun => absurd (hrun.symm.trans hstopped) nofun⟩
    case isFalse =>
      extract_lets oldest flags u
      obtain ⟨y, hrecord, hy, -⟩ := State.record_spec 0 { type := 1, tValid := d.2.1, oldest := oldest, flags := flags, source := key }
        (fastBody pose) hx
      obtain ⟨z, hz, hlast⟩ := State.record_lastSeq 0 { type := 1, tValid := d.2.1, oldest := oldest, flags := flags, source := key }
        (fastBody pose) hx
      obtain rfl : y = z := Option.some.inj (hrecord.session.symm.trans hz)
      refine ⟨_, (hrecord.upd fun x => { x with fastDue := x.fastDue.filter fun e => e.1 != key }).dropEntry hp false key, fun _ _ => ⟨?_, hlast⟩⟩
      rw [hy]

/-! ### The commit rendezvous -/

/-- Equal buffers that follow from the inputs agree (R502). -/
theorem CompareBuf.agrees_self {a : CompareBuf} (h : a.differs = false) : a.agrees a = true := by simp [CompareBuf.agrees, h]

theorem arrivedEntry_bandA {s : State} {p : PairS} (h : (s.bandAt p.bandA).stopped = false) : arrivedEntry s p p.bandA = p.bufA.head? := by
  rw [arrivedEntry, h, PairS.buf, if_pos rfl, if_neg Bool.false_ne_true]

theorem arrivedEntry_bandB {s : State} {p : PairS} (hne : p.bandA ≠ p.bandB) (h : (s.bandAt p.bandB).stopped = false) :
    arrivedEntry s p p.bandB = p.bufB.head? := by
  rw [arrivedEntry, h, PairS.buf, if_neg hne.symm, if_neg Bool.false_ne_true]

/-- A band without a buffer has not arrived. -/
theorem arrivedEntry_none {s : State} {p : PairS} (b : Nat) (hA : p.bufA = []) (hB : p.bufB = []) : arrivedEntry s p b = none := by
  have hbuf : p.buf b = [] := by
    unfold PairS.buf
    split
    · exact hA
    · exact hB
  rw [arrivedEntry, hbuf, List.head?_nil, ite_self]

section PairCommit

variable {s : State} {n : Nat} {p : PairS} {x : SessionS} {a b : CompareBuf} (hp : Tab.get? s.pairs n = some p) (hx : s.sessionAt n = some x)

include hp hx

/-- With the same record in both bands' buffers the two are compared (R502). -/
theorem exec_pairCommit_both (near : Bool) (hon : s.life.main ≠ .off) (ha : arrivedEntry s p p.bandA = some a) (hb : arrivedEntry s p p.bandB = some b)
    (hopt : a.isOpt = b.isOpt) (hkey : a.key = b.key) : exec (.pairCommit n near) s = .next (compareBufs n p a b near s) := by
  change execPairCommit n near s = _
  simp only [execPairCommit, hp]
  refine (onTrigger_fires s _ (by simp [State.mainOn, hon, hx])).trans (congrArg _ ?_)
  simp only [ha, hb]
  exact if_pos ⟨hopt, hkey⟩

end PairCommit

/-- In lockstep, buffers that agree write one record (R502). -/
theorem compareBufs_agree {p : PairS} {a b : CompareBuf} (n : Nat) (near : Bool) (s : State) (h : a.agrees b = true) (hstate : p.state = 0) :
    compareBufs n p a b near s = writeEntry n a false s := by
  simp only [compareBufs, h, if_true, hstate, true_or]


theorem writeEntry_fast {a : CompareBuf} (h : a.isOpt = false) (n : Nat) (single : Bool) (s : State) :
    writeEntry n a single s = writeFast n a.key a.fast single false s := by rw [writeEntry, h, if_neg Bool.false_ne_true]

/-- Buffers of one POSE_FAST that differ: the band that the reference names good writes its record, and the other is named suspect (R800). -/
theorem compareBufs_fast {a b : CompareBuf} (n : Nat) (p : PairS) (near : Bool) (s : State) (h : a.agrees b = false) (ha : a.isOpt = false) :
    compareBufs n p a b near s = nameSuspect n (if near then p.bandA else p.bandB) (if near then p.bandB else p.bandA) 1 (differingTile a b)
      (writeEntry n (if near then b else a) true s) := by
  have hgood : goodSecond a b near = some near := by simp [goodSecond, ha]
  simp only [compareBufs, h, Bool.false_eq_true, if_false, hgood]

/-! ### A band is named suspect -/

/-- A band that stands still, as a suspect does until it has its copy (R801). -/
def BandS.stands (b : BandS) : BandS := { b with stopped := true }


/-- A pair whose band `bad` is named suspect while `good` carries (R801). -/
def State.suspected (s : State) (n bad good cause : Nat) : State :=
  (s.updPair n fun p => { p with suspects := p.suspects.filter (fun e => decide (s.since e.2 ≤ msTicks 10000)) ++ [(bad, s.time.ticks)] }).pairState
    n 1 cause (some good)

theorem State.suspected_eq (s : State) (n bad good cause : Nat) : s.suspected n bad good cause =
    { s with pairs := (s.suspected n bad good cause).pairs, events := (s.suspected n bad good cause).events,
             tether := (s.suspected n bad good cause).tether } := by
  rw [State.suspected, State.pairState_eq, State.updPair_eq]

theorem State.get?_suspected {s : State} {n : Nat} {p : PairS} (bad good cause : Nat) (hp : Tab.get? s.pairs n = some p) :
    ∃ q, Tab.get? (s.suspected n bad good cause).pairs n = some q ∧ q.state = 1 ∧ q.carrier = some good := by
  rw [State.suspected, State.pairState_eq, State.get?_updPair, if_pos rfl, State.get?_updPair, if_pos rfl, hp]
  exact ⟨_, rfl, rfl, rfl⟩

/-- The first suspect of a pair stops and waits for a copy of the carrier's state (R801). -/
theorem nameSuspect_first {s : State} {n : Nat} {p : PairS} (bad good cause tile : Nat) (hp : Tab.get? s.pairs n = some p)
    (hfirst : p.suspects = []) : nameSuspect n bad good cause tile s =
      (((s.suspected n bad good cause).updBand bad BandS.stands).recoveryStart (recPair n)).needsCopy bad := by
  have hagain : (p.suspects.any fun e => e.1 == bad && decide (s.since e.2 ≤ msTicks 10000)) = false := by rw [hfirst]; rfl
  simp only [nameSuspect, hp, hagain, Bool.false_eq_true, if_false]
  rfl

/-- After that the pair is in state 1 with its carrier, the suspect stands still, and the other bands stay as they are. -/
theorem nameSuspect_first_spec {s : State} {n bad : Nat} {p : PairS} (good cause tile : Nat) (hp : Tab.get? s.pairs n = some p)
    (hfirst : p.suspects = []) (hbad : Tab.has s.bands bad = true) {t : State} (ht : nameSuspect n bad good cause tile s = t) :
    (∃ q, Tab.get? t.pairs n = some q ∧ q.state = 1 ∧ q.carrier = some good) ∧ BandAs bad (s.bandAt bad).stands s { s with bands := t.bands } ∧
      t = { s with bands := t.bands, power := t.power, pairs := t.pairs, events := t.events, tether := t.tether } := by
  rw [nameSuspect_first bad good cause tile hp hfirst] at ht
  obtain ⟨q, hq, hstate, hcarrier⟩ := State.get?_suspected bad good cause hp
  have hsuspected := s.suspected_eq n bad good cause
  generalize s.suspected n bad good cause = u at ht hq hsuspected
  have hband : BandAs bad (u.bandAt bad).stands u (u.updBand bad BandS.stands) := .updBand (s := u) _ (by rw [hsuspected]; exact hbad)
  have hrecovery := State.recoveryStart_eq (u.updBand bad BandS.stands) (recPair n)
  generalize (u.updBand bad BandS.stands).recoveryStart (recPair n) = v at ht hrecovery
  obtain ⟨l, hl⟩ := State.get?_needsCopy (s := v) bad (k := n) (q := q) (by rw [hrecovery, hband.state]; exact hq)
  have hcopy := v.needsCopy_eq bad
  rw [ht] at hl hcopy
  have hbands : t.bands = (u.updBand bad BandS.stands).bands := by rw [hcopy, hrecovery]
  have hat : ∀ k, u.bandAt k = s.bandAt k := fun k => by rw [hsuspected]; rfl
  refine ⟨⟨_, hl, hstate, hcarrier⟩, ⟨?_, fun k hk => ?_, rfl⟩, ?_⟩
  · rw [← hat, ← hband.band]
    exact congrArg (fun b => Tab.getD b bad {}) hbands
  · rw [← hat, ← hband.others k hk]
    exact congrArg (fun b => Tab.getD b k {}) hbands
  · rw [hcopy, hrecovery, hband.state, hsuspected]

/-! ### Carriers -/

/-- With no band able to carry a POSE_FAST the pair enters state 3 (R806, R807). -/
theorem noCarrier_fast {s : State} {n : Nat} {p : PairS} (key : Nat) (hp : Tab.get? s.pairs n = some p) (hstate : p.state ≠ 3)
    (hcopy : p.needCopy = []) : noCarrier n false key s = s.pairState n 3 4 none := by
  simp [noCarrier, hp, hstate, hcopy]

theorem exec_carrierDeadline_none {s : State} {n key : Nat} {p : PairS} {x : SessionS} (hp : Tab.get? s.pairs n = some p)
    (hx : s.sessionAt n = some x) (hrun : x.stopped = false) (hon : s.life.main ≠ .off) (hlate : overdue s x = some (false, key))
    (hA : p.bufA = []) (hB : p.bufB = []) (hstate : p.state ≠ 3) : exec (.carrierDeadline n) s = .next (noCarrier n false key s) := by
  change execCarrierDeadline n s = _
  simp only [execCarrierDeadline, hp, hx, hlate]
  refine (onTrigger_fires s _ (by simp [State.mainOn, hon, hrun])).trans (congrArg _ ?_)
  simp only [arrivedEntry_none _ hA hB, Option.filter_none]
  exact if_neg fun h => hstate h.1

/-- The stewards write the oldest POSE_FAST that is due (R806). -/
theorem exec_degradedRecord {s : State} {n : Nat} {p : PairS} {x : SessionS} {d : Nat × Int × Nat} {l : List (Nat × Int × Nat)} (pose : PoseFast)
    (hp : Tab.get? s.pairs n = some p) (hx : s.sessionAt n = some x) (hrun : x.stopped = false) (hon : s.life.main ≠ .off) (hstate : p.state = 3)
    (hdue : x.fastDue = d :: l) : exec (.degradedRecord n pose) s = .next (writeFast n d.1 pose false true s) := by
  change execDegradedRecord n pose s = _
  simp only [execDegradedRecord, hp, hx, hdue]
  exact onTrigger_fires s _ (by simp [State.mainOn, hon, hstate, hrun])

/-! ### Cover records -/

/-- On a session's own map the propagated state is published as it is. -/
theorem firstPose_old {x : SessionS} (w : WindowState) (h : x.newMap = false) : firstPose x w = w := by simp [firstPose, h]

/-- The first pose on a new map lies in the map's origin (R330). -/
theorem firstPose_new {x : SessionS} (w : WindowState) (h : x.newMap = true) : (firstPose x w).pos = [0, 0, 0] := by
  unfold firstPose
  extract_lets yaw turn
  rw [h, if_neg (by decide)]
  split <;> rfl

/-- A cover is counted, or raised with those counted before it (R799). -/
theorem noteCovered_spec {s : State} {n : Nat} {x : SessionS} (hx : s.sessionAt n = some x) : ∃ count last,
    (noteCovered n s).sessionAt n = some { x with coveredCount := count, coveredLast := last } ∧
      (∀ k, k ≠ n → (noteCovered n s).ctxAt k = s.ctxAt k) ∧
      noteCovered n s = { s with ctxs := (noteCovered n s).ctxs, events := (noteCovered n s).events, tether := (noteCovered n s).tether } := by
  unfold noteCovered
  rw [hx]
  dsimp -zeta only
  extract_lets k
  split
  · have h := (SessionAs.refl hx).upd fun x => { x with coveredCount := 0, coveredLast := some s.time.ticks }
    refine ⟨_, _, h.session, h.others, ?_⟩
    rw [h.state]; rfl
  · have h := (SessionAs.refl hx).upd fun x => { x with coveredCount := k }
    refine ⟨_, x.coveredLast, h.session, h.others, ?_⟩
    rw [h.state]

/-- A frame set with a cover in place of a window state (R797, R798). -/
def FrameSet.coveredBy (f : FrameSet) (w : WindowState) (gen : Word) : FrameSet :=
  { f with covered := true, published := some w, kfId := 0xFFFFFFFF, mapGen := gen }

/-- A session whose frame set `k` got the cover with state `w`. -/
def SessionS.covers (x : SessionS) (k : Nat) (f : FrameSet) (w : WindowState) : SessionS :=
  { x with sets := Tab.put x.sets k (f.coveredBy (firstPose x w) x.optGen), newMap := false }

theorem exec_poseCoverDeadline {s : State} {n k at' : Nat} {x : SessionS} {f : FrameSet} (w : WindowState) (hx : s.sessionAt n = some x)
    (hf : Tab.get? x.sets k = some f) (hpose : x.prof.pose = true) (hon : s.life.main ≠ .off) (hnone : f.published = none)
    (hopen : f.committed = false) (hkept : f.abandoned = false) (hclosed : f.closed = some at') (hlate : at' + 1400000 ≤ s.devNs) :
    exec (.poseCoverDeadline n k w) s = .next (noteCovered n (s.updSession n fun _ => x.covers k f w)) := by
  have hupd : s.updSession n (fun y => { y with sets := Tab.put y.sets k (f.coveredBy (firstPose x w) x.optGen), newMap := false }) =
      s.updSession n fun _ => x.covers k f w := by
    simp only [State.updSession, show (s.ctxAt n).session = some x from hx]
    rfl
  have htrigger : (s.mainOn && x.prof.pose && f.published.isNone && !f.committed && !f.abandoned &&
      f.closed.any fun t => decide (t + 1400000 ≤ s.devNs)) = true := by
    have hover : (f.closed.any fun t => decide (t + 1400000 ≤ s.devNs)) = true := by
      rw [hclosed, Option.any_some, decide_eq_true hlate]
    rw [hover]
    simp [State.mainOn, hon, hpose, hnone, hopen, hkept]
  change execPoseCoverDeadline n k w s = _
  simp only [execPoseCoverDeadline, hx, hf, htrigger]
  refine congrArg Host.Outcome.next ?_
  exact congrArg (noteCovered n) hupd

/-- Settles O24: buffers that agree and that differ by what the comparison does with them, the deadline by `noCarrier_fast`, the degraded record by
what `writeFast` settles, the cover by its frame set and `noteCovered_spec`. -/
theorem pairRecordsAreComparedOrCarried : Obligations.PairRecordsAreComparedOrCarried := by
  unfold Obligations.PairRecordsAreComparedOrCarried
  refine ⟨?agree, ?differ, ?deadline, ?degraded, ?cover⟩
  case agree =>
    intro s n near p x a d hp hon hx hrun hne hstate hA hB hbufA hbufB hfast hdiff hdue hkey
    have hexec := exec_pairCommit_both hp hx near hon ((arrivedEntry_bandA hA).trans (by rw [hbufA]; rfl))
      ((arrivedEntry_bandB hne hB).trans (by rw [hbufB]; rfl)) rfl rfl
    rw [compareBufs_agree n near s (CompareBuf.agrees_self hdiff) hstate, writeEntry_fast hfast] at hexec
    obtain ⟨y, hstep, hsettled⟩ := writeFast_spec hx hp a.key a.fast false false
    obtain ⟨hleft, hseq⟩ := hsettled hrun ⟨d, by rw [hdue]; exact List.mem_singleton_self d, hkey.symm⟩
    refine ⟨_, y, _, hexec, hstep.session, ?_, hseq, hstep.pair, hstate, ?_, ?_, hstep.ctxs, hstep.pairs, hstep.state⟩
    · simp [hleft, hdue, hkey]
    · simp [PairS.dropped, hbufA, hfast]
    · simp [PairS.dropped, hbufB, hfast]
  case differ =>
    intro s n near p x a b hp hon hx hne hnew hhasA hhasB hA hB hbufA hbufB ha hb hkey hdiff
    have hexec := exec_pairCommit_both hp hx near hon ((arrivedEntry_bandA hA).trans hbufA) ((arrivedEntry_bandB hne hB).trans hbufB)
      (ha.trans hb.symm) hkey
    have hgood : (if near then b else a).isOpt = false := by cases near <;> assumption
    rw [compareBufs_fast n p near s hdiff ha, writeEntry_fast hgood] at hexec
    obtain ⟨y, hstep, -⟩ := writeFast_spec hx hp (if near then b else a).key (if near then b else a).fast true false
    generalize writeFast n (if near then b else a).key (if near then b else a).fast true false s = u at hexec hstep
    have hbad : Tab.has u.bands (if near then p.bandA else p.bandB) = true := by rw [hstep.has]; cases near <;> assumption
    obtain ⟨⟨q, hq, hone, hcarrier⟩, hband, hframe⟩ := nameSuspect_first_spec (if near then p.bandB else p.bandA) 1 (differingTile a b)
      hstep.pair hnew hbad rfl
    refine ⟨_, q, hexec, hq, hone, hcarrier, congrArg BandS.stopped hband.band, ?_, ?_, ?_, ?_⟩
    · refine (congrArg BandS.stopped (hband.others _ (by cases near <;> [exact hne; exact hne.symm]))).trans ?_
      rw [hstep.stopped]
      cases near <;> assumption
    · rw [hframe, hstep.state]
    · rw [hframe, hstep.state]
    · rw [hframe, hstep.state]
  case deadline =>
    intro s n p x key hp hx hrun hon hlate hA hB hstate hcopy
    have hexec := exec_carrierDeadline_none hp hx hrun hon hlate hA hB hstate
    rw [noCarrier_fast key hp hstate hcopy] at hexec
    refine ⟨_, { p with state := 3, carrier := none }, s.pairEvent n 3 4 none, hexec, ?_, rfl, ?_, rfl, ?_, fun k hk => ?_, ?_⟩
    · rw [State.pairState_eq, State.get?_updPair, if_pos rfl, hp]; rfl
    · rw [State.pairState_eq]
    · simp only [State.pairEvent, Option.getD_none, fld, BitVec.toNat_setWidth, BitVec.toNat_ofNat]
      omega
    · rw [State.pairState_eq, State.get?_updPair, if_neg hk]
    · rw [State.pairState_eq]
  case degraded =>
    intro s n pose p x d hp hx hrun hon hstate hdue
    have hexec := exec_degradedRecord pose hp hx hrun hon hstate hdue
    obtain ⟨y, hstep, hsettled⟩ := writeFast_spec hx hp d.1 pose false true
    obtain ⟨hleft, hseq⟩ := hsettled hrun ⟨d, by rw [hdue]; exact List.mem_singleton_self d, rfl⟩
    refine ⟨_, y, hexec, hstep.session, ?_, hseq, hstep.ctxs, hstep.state⟩
    simp [hleft, hdue]
  case cover =>
    intro s n k at' w x f hx hf hpose hon hnone hopen hkept hclosed hlate
    have hexec := exec_poseCoverDeadline w hx hf hpose hon hnone hopen hkept hclosed hlate
    have hcover := (SessionAs.refl hx).upd fun _ => x.covers k f w
    obtain ⟨count, last, hsession, hctxs, hframe⟩ := noteCovered_spec hcover.session
    refine ⟨_, _, hexec, hsession, (Tab.get?_put ..).trans (if_pos rfl), firstPose_old w, firstPose_new w, rfl,
      fun j hj => (Tab.get?_put ..).trans (if_neg hj), fun j hj => (hctxs j hj).trans (hcover.others j hj), ?_⟩
    rw [hframe, hcover.state]

end Sys2Proof.Machine

/-! ## What no command may undo

`State.guarded` is the part of the state that `Keeps` speaks of. Nearly every operation leaves it as it is, which is an equation for
`simp` (those that hold by unfolding are proved `by rfl`, not by the term `rfl`: as side goals of `simp` they need a proof of their
own); the few that write host memory or raise the fused SVN are treated one by one after them. -/

namespace Sys2Proof.Machine

/-- The queue of waiting commands, host memory and the fused SVN. -/
def State.guarded (s : State) : List Instr × Tab Byte × Nat := (s.pending, s.hostMem, s.sec.svn)

theorem State.guarded_of_eq {s t : State} (h1 : t.pending = s.pending) (h2 : t.hostMem = s.hostMem) (h3 : t.sec.svn = s.sec.svn) :
    t.guarded = s.guarded := by
  simp only [State.guarded, h1, h2, h3]

/-- The three parts of one state are what that state guards. -/
@[simp] theorem State.guarded_parts (s : State) : (s.pending, s.hostMem, s.sec.svn) = s.guarded := rfl

/-- A state written out by its fields: the other fields do not matter. -/
@[simp] theorem State.guarded_mk : ∀ pending cmds fns tether outbox hostMem hostBad life outputs events eventLimit time reel targets
    ports lidars filters imu0 streams engines quad ctxs nextSession held linkDownTick maps queries nextQuery tiles bands rvs commons
    objs reuse jobs jobSeq pairs power sources islands dep age sec epoch free,
    (State.mk pending cmds fns tether outbox hostMem hostBad life outputs events eventLimit time reel targets ports lidars filters imu0
      streams engines quad ctxs nextSession held linkDownTick maps queries nextQuery tiles bands rvs commons objs reuse jobs jobSeq pairs
      power sources islands dep age sec epoch free).guarded = (pending, hostMem, sec.svn) := by
  intros; rfl

theorem Keeps.of_guarded {s t : State} (h : t.guarded = s.guarded) : Keeps s t := by
  simp only [State.guarded, Prod.mk.injEq] at h
  obtain ⟨hpending, hmem, hsvn⟩ := h
  exact .of_eq hpending hmem hsvn

@[simp] theorem onCmd_guarded {op : Nat} {c : CmdRef} {s : State} {k : Cmd → State → State} (h : ∀ m u, (k m u).guarded = u.guarded) :
    Out.keeps s (onCmd op c s k) :=
  onCmd_keeps _ _ _ _ fun m u => .of_guarded (h m u)

@[simp] theorem onTrigger_guarded {p : Bool} {s : State} {k : State → State} (h : (k s).guarded = s.guarded) :
    Out.keeps s (onTrigger p s k) :=
  onTrigger_keeps _ _ _ (.of_guarded h)

@[simp] theorem next_guarded {s t : State} (h : t.guarded = s.guarded) : Out.keeps s (.next t) := ⟨t, rfl, .of_guarded h⟩

@[simp] theorem foldl_guarded {α : Type} {l : List α} {f : State → α → State} {s : State} (h : ∀ u x, (f u x).guarded = u.guarded) :
    (l.foldl f s).guarded = s.guarded := by
  induction l generalizing s with
  | nil => rfl
  | cons x l ih => exact ih.trans (h s x)

theorem Out.keeps.after {s t : State} {o : Out} (e : t.guarded = s.guarded) (h : Out.keeps t o) : Out.keeps s o := by
  obtain ⟨u, hu, hkeeps⟩ := h
  exact ⟨u, hu, (Keeps.of_guarded e).trans hkeeps⟩

/-! ### Elementary updates, events, commands -/

@[simp] theorem State.updFn_guarded (s : State) (n : Nat) (f : FnRegs → FnRegs) : (s.updFn n f).guarded = s.guarded := by rfl
@[simp] theorem State.updCtx_guarded (s : State) (n : Nat) (f : CtxS → CtxS) : (s.updCtx n f).guarded = s.guarded := by rfl
@[simp] theorem State.updPort_guarded (s : State) (n : Nat) (f : PortS → PortS) : (s.updPort n f).guarded = s.guarded := by rfl
@[simp] theorem State.updChan_guarded (s : State) (n : Nat) (f : ChannelS → ChannelS) : (s.updChan n f).guarded = s.guarded := by rfl
@[simp] theorem State.updReel_guarded (s : State) (n : Nat) (f : ReelEntry → ReelEntry) : (s.updReel n f).guarded = s.guarded := by rfl

@[simp] theorem State.updStream_guarded (s : State) (n : Nat) (f : StreamS → StreamS) : (s.updStream n f).guarded = s.guarded :=
  State.guarded_of_eq (by simp) (by simp) (by simp)

@[simp] theorem State.updTile_guarded (s : State) (n : Nat) (f : TileS → TileS) : (s.updTile n f).guarded = s.guarded := by rfl

@[simp] theorem State.updBand_guarded (s : State) (n : Nat) (f : BandS → BandS) : (s.updBand n f).guarded = s.guarded :=
  State.guarded_of_eq (by simp) (by simp) (by simp)

@[simp] theorem State.updMap_guarded (s : State) (n : Nat) (f : MapS → MapS) : (s.updMap n f).guarded = s.guarded :=
  State.guarded_of_eq (by simp) (by simp) (by simp)

@[simp] theorem State.updObj_guarded (s : State) (n : Nat) (f : ObjS → ObjS) : (s.updObj n f).guarded = s.guarded :=
  State.guarded_of_eq (by simp) (by simp) (by simp)

@[simp] theorem State.updIsland_guarded (s : State) (n : Nat) (f : IslandS → IslandS) : (s.updIsland n f).guarded = s.guarded := by rfl
@[simp] theorem State.updOutput_guarded (s : State) (n : Nat) (f : OutputS → OutputS) : (s.updOutput n f).guarded = s.guarded := by rfl
@[simp] theorem State.updEngine_guarded (s : State) (k : Nat) (f : EngineS → EngineS) : (s.updEngine k f).guarded = s.guarded := by rfl

@[simp] theorem State.updSession_guarded (s : State) (n : Nat) (f : SessionS → SessionS) : (s.updSession n f).guarded = s.guarded :=
  State.guarded_of_eq (by simp) (by simp) (by simp)

@[simp] theorem State.mapLife_guarded (s : State) (f : LifeS → LifeS) : (s.mapLife f).guarded = s.guarded := by rfl
@[simp] theorem State.mapTime_guarded (s : State) (f : TimeS → TimeS) : (s.mapTime f).guarded = s.guarded := by rfl
@[simp] theorem State.mapPower_guarded (s : State) (f : PowerS → PowerS) : (s.mapPower f).guarded = s.guarded := by rfl
@[simp] theorem State.mapDep_guarded (s : State) (f : DepS → DepS) : (s.mapDep f).guarded = s.guarded := by rfl
@[simp] theorem State.mapAge_guarded (s : State) (f : AgeS → AgeS) : (s.mapAge f).guarded = s.guarded := by rfl

@[simp] theorem State.mapSec_guarded {s : State} {f : SecS → SecS} (h : ∀ x, (f x).svn = x.svn) : (s.mapSec f).guarded = s.guarded :=
  State.guarded_of_eq rfl rfl (h _)

@[simp] theorem State.mapTether_guarded (s : State) (f : TetherS → TetherS) : (s.mapTether f).guarded = s.guarded := by rfl

@[simp] theorem forEach_guarded {α : Type} {l : List α} {f : α → State → State} {s : State} (h : ∀ x u, (f x u).guarded = u.guarded) :
    (forEach l f s).guarded = s.guarded :=
  forEach_keeps (P := fun u => u.guarded = s.guarded) l f (fun x _ u hu => (h x u).trans hu) rfl

@[simp] theorem State.takeFree_guarded (s : State) : s.takeFree.2.guarded = s.guarded := by rfl
@[simp] theorem State.spend_guarded (s : State) (consumer : Nat) : (s.spend consumer).guarded = s.guarded := by rfl
@[simp] theorem State.raiseEvent_guarded (s : State) (e : Event) : (s.raiseEvent e).guarded = s.guarded := by rfl
@[simp] theorem State.raise_guarded (s : State) (code detail : Nat) : (s.raise code detail).guarded = s.guarded := by rfl
@[simp] theorem State.raiseCtx_guarded (s : State) (n code detail : Nat) : (s.raiseCtx n code detail).guarded = s.guarded := by rfl
@[simp] theorem State.raiseMask_guarded (s : State) (mask code detail : Nat) : (s.raiseMask mask code detail).guarded = s.guarded := by rfl
@[simp] theorem State.raiseTether_guarded (s : State) (code detail : Nat) : (s.raiseTether code detail).guarded = s.guarded := by rfl

@[simp] theorem State.raiseOncePerSecond_guarded {s : State} {key code detail : Nat} {ctx : Option Nat} {other : State → State}
    (h : (other s).guarded = s.guarded) : (s.raiseOncePerSecond key ctx code detail other).guarded = s.guarded := by
  unfold State.raiseOncePerSecond
  split
  · cases ctx <;> rfl
  · exact h

@[simp] theorem State.updCmd_guarded (s : State) (c : CmdRef) (f : Cmd → Cmd) : (s.updCmd c f).guarded = s.guarded := by rfl
@[simp] theorem State.delCmd_guarded (s : State) (c : CmdRef) : (s.delCmd c).guarded = s.guarded := by rfl
@[simp] theorem State.endCmd_guarded (s : State) (c : CmdRef) (r : Reply) : (s.endCmd c r).guarded = s.guarded := by rfl
@[simp] theorem State.commit_guarded (s : State) (c : CmdRef) : (s.commit c).guarded = s.guarded := by rfl

@[simp] theorem State.done_guarded (s : State) (c : CmdRef) (status detail : Nat) (body : List Word) (inlineOut : List Byte) :
    (s.done c status detail body inlineOut).guarded = s.guarded := by
  rfl

@[simp] theorem State.refuse_guarded (s : State) (c : CmdRef) (status detail : Nat) : (s.refuse c status detail).guarded = s.guarded := by rfl
@[simp] theorem State.refuseOpen_guarded (s : State) (c : CmdRef) (status : Nat) : (s.refuseOpen c status).guarded = s.guarded := by rfl
@[simp] theorem State.badWord_guarded (s : State) (c : CmdRef) (i : Nat) : (s.badWord c i).guarded = s.guarded := by rfl

@[simp] theorem withSg_guarded {m : Cmd} {i : Nat} {s : State} {k : List Byte → State} (h : ∀ b, (k b).guarded = s.guarded) :
    (withSg m i s k).guarded = s.guarded := by
  unfold withSg
  split <;> simp [h]

@[simp] theorem State.send_guarded (s : State) (x : OutMsg) : (s.send x).guarded = s.guarded := by rfl
@[simp] theorem State.msix_guarded (s : State) (fn v : Nat) : (s.msix fn v).guarded = s.guarded := by simp [State.msix, apply_ite State.guarded]

/-! ### Frequency requests -/

@[simp] theorem State.requestFreq_guarded (s : State) (island mhz : Nat) : (s.requestFreq island mhz).guarded = s.guarded := by
  simp [State.requestFreq, apply_ite State.guarded]

/-! ### Latencies and the ledger -/

@[simp] theorem State.noteLatency_guarded (s : State) (n : Nat) (start : Option Nat) : (s.noteLatency n start).guarded = s.guarded := by
  unfold State.noteLatency
  split <;> simp

@[simp] theorem State.ledger_guarded (s : State) (e : LedgerEntry) : (s.ledger e).guarded = s.guarded := by rfl

/-! ### Margin re-planning -/

@[simp] theorem requestReplan_guarded (apply : Bool) (l : List CmdRef) (s : State) : (requestReplan apply l s).guarded = s.guarded := by rfl

@[simp] theorem lowRateEpisode_guarded (band rate : Nat) (s : State) : (lowRateEpisode band rate s).guarded = s.guarded := by
  unfold lowRateEpisode
  dsimp only
  (repeat' split) <;> simp

@[simp] theorem measureCadence_guarded (r : IntervalReport) (s : State) : (measureCadence r s).guarded = s.guarded := by rfl
@[simp] theorem vSetStep_guarded (s : State) : (vSetStep s).guarded = s.guarded := by rfl
theorem execMarginReplan_keeps (c : CmdRef) (s : State) : Out.keeps s (execMarginReplan c s) := by simp [execMarginReplan, apply_ite State.guarded]
theorem execMarginReplanDaily_keeps (s : State) : Out.keeps s (execMarginReplanDaily s) := by simp [execMarginReplanDaily]
@[simp] theorem marginLow_guarded (s : State) : (marginLow s).guarded = s.guarded := by simp [marginLow, apply_ite State.guarded]
@[simp] theorem applyReplan_guarded (r : MarginReport) (s : State) : (applyReplan r s).guarded = s.guarded := by simp [applyReplan]

theorem execMarginReplanned_keeps (r : MarginReport) (s : State) : Out.keeps s (execMarginReplanned r s) := by
  unfold execMarginReplanned
  (repeat' split) <;> simp

/-! ### Timebase -/

@[simp] theorem firmwareStamp_guarded (s : State) : (firmwareStamp s).2.guarded = s.guarded := by rfl

theorem execTimebaseTick_keeps (s : State) : Out.keeps s (execTimebaseTick s) := by
  refine onTrigger_guarded ?_
  dsimp only
  (repeat' split) <;> simp

theorem execPpsOutRise_keeps (s : State) : Out.keeps s (execPpsOutRise s) := by simp [execPpsOutRise]
theorem execPpsOutFall_keeps (s : State) : Out.keeps s (execPpsOutFall s) := by simp [execPpsOutFall]
@[simp] theorem stepTime_guarded (step : Int) (s : State) : (stepTime step s).guarded = s.guarded := by simp [stepTime, apply_ite State.guarded]
@[simp] theorem enterHoldover_guarded (cause : Nat) (s : State) : (enterHoldover cause s).guarded = s.guarded := by rfl
@[simp] theorem slew_guarded (f : Int) (s : State) : (slew f s).guarded = s.guarded := by rfl
@[simp] theorem stepCorrect_guarded (f : Int) (s : State) : (stepCorrect f s).guarded = s.guarded := by simp [stepCorrect]
@[simp] theorem declareLock_guarded (s : State) : (declareLock s).guarded = s.guarded := by rfl

@[simp] theorem correctWithin_guarded (f : Int) (s : State) : (correctWithin f s).guarded = s.guarded := by
  unfold correctWithin
  dsimp only
  (repeat' split) <;> simp

@[simp] theorem servoEvaluate_guarded (f : Int) (s : State) : (servoEvaluate f s).guarded = s.guarded := by
  unfold servoEvaluate
  dsimp only
  (repeat' split) <;> simp

@[simp] theorem seeGrandmaster_guarded (gm : BitVec 64) (cls : Nat) (s : State) : (seeGrandmaster gm cls s).guarded = s.guarded := by
  simp [seeGrandmaster, apply_ite State.guarded]

theorem execPpsInEdge_keeps (s : State) : Out.keeps s (execPpsInEdge s) := by simp [execPpsInEdge, apply_ite State.guarded]
theorem execSyncTimeout_keeps (s : State) : Out.keeps s (execSyncTimeout s) := by simp [execSyncTimeout]
@[simp] theorem stampPtp_guarded (port : Nat) (k : PtpKind) (sent : Bool) (s : State) : (stampPtp port k sent s).guarded = s.guarded := by rfl

theorem execPtpSyncReceived_keeps (port : Nat) (gm : BitVec 64) (clockClass : Nat) (offset : Int) (udp : Bool) (s : State) :
    Out.keeps s (execPtpSyncReceived port gm clockClass offset udp s) := by
  simp [execPtpSyncReceived, apply_ite State.guarded]

theorem execPtpMessageReceived_keeps (port : Nat) (kind : PtpKind) (udp : Bool) (s : State) :
    Out.keeps s (execPtpMessageReceived port kind udp s) := by
  unfold execPtpMessageReceived
  (repeat' split) <;> simp [apply_ite State.guarded]

theorem execPtpMessageSent_keeps (port : Nat) (kind : PtpKind) (udp : Bool) (s : State) : Out.keeps s (execPtpMessageSent port kind udp s) := by
  unfold execPtpMessageSent
  refine onTrigger_guarded ?_
  dsimp only
  split <;> simp

theorem execTimeGet_keeps (c : CmdRef) (s : State) : Out.keeps s (execTimeGet c s) := by simp [execTimeGet]

@[simp] theorem hostStep_guarded (c : CmdRef) (step : Int) (s : State) : (hostStep c step s).guarded = s.guarded := by
  simp [hostStep, apply_ite State.guarded]

theorem execTimeSet_keeps (c : CmdRef) (s : State) : Out.keeps s (execTimeSet c s) := by
  refine onCmd_guarded fun m u => ?_
  split <;> simp

theorem execTimeAdjust_keeps (c : CmdRef) (s : State) : Out.keeps s (execTimeAdjust c s) := by simp [execTimeAdjust]

theorem execTimeSetIncrement_keeps (c : CmdRef) (s : State) : Out.keeps s (execTimeSetIncrement c s) := by
  simp [execTimeSetIncrement, apply_ite State.guarded]

@[simp] theorem resetReel_guarded (s : State) : (resetReel s).guarded = s.guarded := by rfl
@[simp] theorem servoRestart_guarded (fromFree : Bool) (s : State) : (servoRestart fromFree s).guarded = s.guarded := by rfl

theorem execClockReset_keeps (c : CmdRef) (s : State) : Out.keeps s (execClockReset c s) := by
  refine onCmd_guarded fun m u => ?_
  dsimp only
  (repeat' split) <;> simp

theorem execPtpConfig_keeps (c : CmdRef) (s : State) : Out.keeps s (execPtpConfig c s) := by
  refine onCmd_guarded fun m u => ?_
  dsimp only
  split <;> simp

/-! ### The Reel -/

theorem execReelWrite_keeps (c : CmdRef) (s : State) : Out.keeps s (execReelWrite c s) := by
  refine onCmd_guarded fun m u => ?_
  dsimp only
  (repeat' split) <;> simp

theorem execReelArm_keeps (c : CmdRef) (s : State) : Out.keeps s (execReelArm c s) := by
  refine onCmd_guarded fun m u => ?_
  dsimp only
  (repeat' split) <;> simp

theorem execReelDisarm_keeps (c : CmdRef) (s : State) : Out.keeps s (execReelDisarm c s) := by simp [execReelDisarm, apply_ite State.guarded]
theorem execReelRead_keeps (c : CmdRef) (s : State) : Out.keeps s (execReelRead c s) := by simp [execReelRead]
theorem execTriggerClaim_keeps (c : CmdRef) (s : State) : Out.keeps s (execTriggerClaim c s) := by simp [execTriggerClaim, apply_ite State.guarded]
theorem execReelPulseFall_keeps (entry : Nat) (s : State) : Out.keeps s (execReelPulseFall entry s) := by simp [execReelPulseFall]

/-! ### Sensor ports -/

@[simp] theorem setSupply_guarded (p : Nat) (s : State) : (setSupply p s).guarded = s.guarded := by rfl

@[simp] theorem raisePort_guarded (p code detail : Nat) (s : State) : (raisePort p code detail s).guarded = s.guarded := by
  unfold raisePort
  split <;> simp

@[simp] theorem countError_guarded (p : Nat) (s : State) : (countError p s).guarded = s.guarded := by rfl

@[simp] theorem raisePortLimited_guarded (p code detail : Nat) (s : State) : (raisePortLimited p code detail s).guarded = s.guarded := by
  simp [raisePortLimited]

@[simp] theorem raisePinLimited_guarded (code detail : Nat) (s : State) : (raisePinLimited code detail s).guarded = s.guarded := by
  simp [raisePinLimited]

@[simp] theorem enterFault_guarded (p reason : Nat) (s : State) : (enterFault p reason s).guarded = s.guarded := by
  simp [enterFault, apply_ite State.guarded]

@[simp] theorem enterDetecting_guarded (p : Nat) (s : State) : (enterDetecting p s).guarded = s.guarded := by rfl
@[simp] theorem portReady_guarded (p : Nat) (s : State) : (portReady p s).guarded = s.guarded := by simp [portReady, apply_ite State.guarded]

theorem execSensorDetected_keeps (port : Nat) (s : State) : Out.keeps s (execSensorDetected port s) := by
  simp [execSensorDetected, apply_ite State.guarded]

theorem execDetectTimeout_keeps (port : Nat) (s : State) : Out.keeps s (execDetectTimeout port s) := by simp [execDetectTimeout]
theorem execRetryPeriod_keeps (port : Nat) (s : State) : Out.keeps s (execRetryPeriod port s) := by simp [execRetryPeriod, apply_ite State.guarded]

theorem execTrainingDone_keeps (port : Nat) (lp10 sync47 offset : BitVec 4) (s : State) :
    Out.keeps s (execTrainingDone port lp10 sync47 offset s) := by
  simp [execTrainingDone, apply_ite State.guarded]

theorem execTrainingTimeout_keeps (port : Nat) (s : State) : Out.keeps s (execTrainingTimeout port s) := by simp [execTrainingTimeout]
theorem execPortStall_keeps (port : Nat) (s : State) : Out.keeps s (execPortStall port s) := by simp [execPortStall]

theorem execPortClaim_keeps (c : CmdRef) (s : State) : Out.keeps s (execPortClaim c s) := by
  refine onCmd_guarded fun m u => ?_
  dsimp only
  (repeat' split) <;> simp

theorem execPortRelease_keeps (c : CmdRef) (s : State) : Out.keeps s (execPortRelease c s) := by
  refine onCmd_guarded fun m u => ?_
  dsimp only
  (repeat' split) <;> simp

theorem portSetRefusal_guarded {m : Cmd} {p : Nat} {s u : State} {f : State → State} (h : portSetRefusal m p s = some f) :
    (f u).guarded = u.guarded := by
  unfold portSetRefusal at h
  (repeat' split at h) <;> cases h <;> rfl

theorem execPortConfig_keeps (c : CmdRef) (s : State) : Out.keeps s (execPortConfig c s) := by
  refine onCmd_guarded fun m u => ?_
  dsimp only
  split
  · exact portSetRefusal_guarded ‹_›
  · (repeat' split) <;> simp

theorem execPortStatus_keeps (c : CmdRef) (s : State) : Out.keeps s (execPortStatus c s) := by simp [execPortStatus, apply_ite State.guarded]

theorem execPortTiming_keeps (c : CmdRef) (s : State) : Out.keeps s (execPortTiming c s) := by
  refine onCmd_guarded fun m u => ?_
  dsimp only
  split
  · exact portSetRefusal_guarded ‹_›
  · (repeat' split) <;> simp

theorem execCamI2cXfer_keeps (c : CmdRef) (acked : Nat) (dataIn : List Byte) (s : State) : Out.keeps s (execCamI2cXfer c acked dataIn s) := by
  simp [execCamI2cXfer, apply_ite State.guarded]

@[simp] theorem supplyTrip_guarded (p cause : Nat) (s : State) : (supplyTrip p cause s).guarded = s.guarded := by
  simp [supplyTrip, apply_ite State.guarded]

theorem execSupplyOvercurrent_keeps (port : Nat) (s : State) : Out.keeps s (execSupplyOvercurrent port s) := by simp [execSupplyOvercurrent]
theorem execSupplyShort_keeps (port : Nat) (s : State) : Out.keeps s (execSupplyShort port s) := by simp [execSupplyShort]
theorem execSupplyOpenLoad_keeps (port : Nat) (s : State) : Out.keeps s (execSupplyOpenLoad port s) := by simp [execSupplyOpenLoad]
theorem execSupplyBackFeed_keeps (port : Nat) (s : State) : Out.keeps s (execSupplyBackFeed port s) := by simp [execSupplyBackFeed]
theorem execTripCountClear_keeps (port : Nat) (s : State) : Out.keeps s (execTripCountClear port s) := by simp [execTripCountClear]

theorem execVsensOutOfRange_keeps (high : Bool) (s : State) : Out.keeps s (execVsensOutOfRange high s) := by
  simp [execVsensOutOfRange, apply_ite State.guarded]

theorem execVsensBackInRange_keeps (s : State) : Out.keeps s (execVsensBackInRange s) := by simp [execVsensBackInRange]
theorem execInputReversed_keeps (input : Nat) (s : State) : Out.keeps s (execInputReversed input s) := by simp [execInputReversed]
@[simp] theorem pollReversed_guarded (s : State) : (pollReversed s).guarded = s.guarded := by simp [pollReversed]
theorem execSupplyFlagPoll_keeps (s : State) : Out.keeps s (execSupplyFlagPoll s) := by simp [execSupplyFlagPoll]

@[simp] theorem outputFails_guarded (o : Nat) (s : State) : (outputFails o s).guarded = s.guarded := by
  unfold outputFails
  dsimp only
  (repeat' split) <;> simp

theorem execOutputCompare_keeps (output : Nat) (pin : Bool) (s : State) : Out.keeps s (execOutputCompare output pin s) := by
  simp [execOutputCompare, apply_ite State.guarded]

theorem execOutputRestoreTry_keeps (output : Nat) (pin : Bool) (s : State) : Out.keeps s (execOutputRestoreTry output pin s) := by
  simp [execOutputRestoreTry, apply_ite State.guarded]

@[simp] theorem lineFault_guarded (p pin cause : Nat) (s : State) : (lineFault p pin cause s).guarded = s.guarded := by simp [lineFault]
theorem execDphyLineStuck_keeps (port pin : Nat) (s : State) : Out.keeps s (execDphyLineStuck port pin s) := by simp [execDphyLineStuck]
theorem execEncoderLineOpen_keeps (port pin : Nat) (s : State) : Out.keeps s (execEncoderLineOpen port pin s) := by simp [execEncoderLineOpen]
theorem execCanLineOpen_keeps (port pin : Nat) (s : State) : Out.keeps s (execCanLineOpen port pin s) := by simp [execCanLineOpen]
theorem execCanPairSwapped_keeps (port : Nat) (s : State) : Out.keeps s (execCanPairSwapped port s) := by simp [execCanPairSwapped]

theorem execLineHeldLow_keeps (line : HeldLine) (s : State) : Out.keeps s (execLineHeldLow line s) := by
  unfold execLineHeldLow
  (repeat' split) <;> simp

theorem execQuadratureEdge_keeps (port : Nat) (lineB level : Bool) (pulseNs : Nat) (s : State) :
    Out.keeps s (execQuadratureEdge port lineB level pulseNs s) := by
  simp [execQuadratureEdge]

theorem execEncoderStandstill_keeps (port : Nat) (s : State) : Out.keeps s (execEncoderStandstill port s) := by simp [execEncoderStandstill]

theorem execEncoderVerifyWindow_keeps (port agree disagree : Nat) (s : State) : Out.keeps s (execEncoderVerifyWindow port agree disagree s) := by
  simp [execEncoderVerifyWindow, apply_ite State.guarded]

theorem execArpIcmpRequest_keeps (port : Nat) (icmp : Bool) (target : Word) (s : State) : Out.keeps s (execArpIcmpRequest port icmp target s) := by
  simp [execArpIcmpRequest]

/-! ### Samples -/

@[simp] theorem State.handSample_guarded (s : State) (n key : Nat) (stamp : Int) (firmware : Bool) (data : SampleData) :
    (s.handSample n key stamp firmware data).guarded = s.guarded := by
  unfold State.handSample
  dsimp only
  (repeat' split) <;> simp

@[simp] theorem State.alignSample_guarded (s : State) (n port index stamp : Nat) : (s.alignSample n port index stamp).1.guarded = s.guarded := by
  unfold State.alignSample
  dsimp only
  (repeat' split) <;> simp

@[simp] theorem State.deliver_guarded (s : State) (port stamp : Nat) (value : Nat → Option (Int × Bool)) :
    (s.deliver port stamp value).guarded = s.guarded := by
  rfl

/-! ### Filter chain -/

@[simp] theorem raiseChan_guarded (ch code low : Nat) (s : State) : (raiseChan ch code low s).guarded = s.guarded := by
  unfold raiseChan
  split <;> simp

@[simp] theorem threshold_guarded (ch : Nat) (v : Int) (s : State) : (threshold ch v s).guarded = s.guarded := by
  unfold threshold
  dsimp only
  (repeat' split) <;> simp

@[simp] theorem countSaturation_guarded (ch : Nat) (input : Bool) (s : State) : (countSaturation ch input s).guarded = s.guarded := by
  simp [countSaturation, apply_ite State.guarded]

@[simp] theorem handOutput_guarded (ch : Nat) (o : FilterOut) (prev : Option FilterOut) (s : State) :
    (handOutput ch o prev s).guarded = s.guarded := by
  unfold handOutput
  dsimp only
  (repeat' split) <;> simp

@[simp] theorem channelChanged_guarded (ch stamp : Nat) (s : State) : (channelChanged ch stamp s).guarded = s.guarded := by
  unfold channelChanged
  dsimp only
  (repeat' split) <;> simp

@[simp] theorem beginFade_guarded (ch stamp : Nat) (s : State) : (beginFade ch stamp s).guarded = s.guarded := by
  unfold beginFade
  dsimp only
  (repeat' split) <;> simp

@[simp] theorem afterOutput_guarded (ch stamp : Nat) (valid : Int) (s : State) : (afterOutput ch stamp valid s).guarded = s.guarded := by
  unfold afterOutput
  dsimp only
  (repeat' split) <;> simp

@[simp] theorem channelOutput_guarded (ch stamp : Nat) (s : State) : (channelOutput ch stamp s).guarded = s.guarded := by
  simp [channelOutput, apply_ite State.guarded]

@[simp] theorem takeInput_guarded (ch : Nat) (s : State) : (takeInput ch s).guarded = s.guarded := by
  unfold takeInput
  dsimp only
  (repeat' split) <;> simp

theorem execFilterInputSample_keeps (channel : Nat) (s : State) : Out.keeps s (execFilterInputSample channel s) := by simp [execFilterInputSample]

@[simp] theorem takeWaiting_guarded (port : Nat) (s : State) : (takeWaiting port s).guarded = s.guarded :=
  forEach_guarded fun _ _ => by simp [apply_ite State.guarded]

@[simp] theorem withChan_guarded {m : Cmd} {s : State} {ch : Nat} {k : ChannelS → State} (h : ∀ q, (k q).guarded = s.guarded) :
    (withChan m s ch k).guarded = s.guarded := by
  unfold withChan
  (repeat' split) <;> simp [h]

@[simp] theorem dropChange_guarded (ch : Nat) (s : State) : (dropChange ch s).guarded = s.guarded := by
  unfold dropChange
  dsimp only
  (repeat' split) <;> simp

@[simp] theorem freeChannel_guarded (ch : Nat) (s : State) : (freeChannel ch s).guarded = s.guarded := by simp [freeChannel]

theorem execFilterBind_keeps (c : CmdRef) (s : State) : Out.keeps s (execFilterBind c s) := by
  refine onCmd_guarded fun m u => ?_
  dsimp only
  (repeat' split) <;> simp

theorem presetRefusal_guarded {m : Cmd} {p ch : Nat} {s u : State} {f : State → State} (h : presetRefusal m p s ch = some f) :
    (f u).guarded = u.guarded := by
  unfold presetRefusal at h
  dsimp only at h
  (repeat' split at h) <;> cases h <;> rfl

theorem execFilterPreset_keeps (c : CmdRef) (s : State) : Out.keeps s (execFilterPreset c s) := by
  refine onCmd_guarded fun m u => ?_
  dsimp only
  (repeat' split)
  · rfl
  · rfl
  · obtain ⟨ch, -, hf⟩ := List.exists_of_findSome?_eq_some ‹_›
    exact presetRefusal_guarded hf
  · simp

theorem execFilterLoad_keeps (c : CmdRef) (s : State) : Out.keeps s (execFilterLoad c s) := by
  refine onCmd_guarded fun m u => withChan_guarded fun q => ?_
  simp [apply_ite State.guarded]

theorem execFilterSwap_keeps (c : CmdRef) (s : State) : Out.keeps s (execFilterSwap c s) := by
  refine onCmd_guarded fun m u => withChan_guarded fun q => ?_
  (repeat' split) <;> simp

@[simp] theorem abortFilter_guarded (c : CmdRef) (s : State) : (abortFilter c s).guarded = s.guarded := by rfl

theorem execFilterThreshold_keeps (c : CmdRef) (s : State) : Out.keeps s (execFilterThreshold c s) := by
  refine onCmd_guarded fun m u => ?_
  dsimp only
  (repeat' split) <;> simp

theorem execFilterRead_keeps (c : CmdRef) (s : State) : Out.keeps s (execFilterRead c s) := by simp [execFilterRead]

/-! ### Sensor entries -/

@[simp] theorem regenerate_guarded (st : Nat) (s : State) : (regenerate st s).guarded = s.guarded := by simp [regenerate]

@[simp] theorem entryChanged_guarded (n port index : Nat) (e : SensorEntry) (s : State) : (entryChanged n port index e s).guarded = s.guarded := by
  simp [entryChanged, apply_ite State.guarded]

/-! ### Repairs -/

@[simp] theorem State.recoveryStart_guarded (s : State) (id : Nat) : (s.recoveryStart id).guarded = s.guarded := by
  simp [State.recoveryStart, apply_ite State.guarded]

@[simp] theorem State.recoveryEnd_guarded (s : State) (id : Nat) : (s.recoveryEnd id).guarded = s.guarded := by
  unfold State.recoveryEnd
  split <;> simp

@[simp] theorem State.updPair_guarded (s : State) (n : Nat) (f : PairS → PairS) : (s.updPair n f).guarded = s.guarded :=
  State.guarded_of_eq (by simp) (by simp) (by simp)

@[simp] theorem State.needsCopy_guarded (s : State) (b : Nat) : (s.needsCopy b).guarded = s.guarded := by
  unfold State.needsCopy
  split <;> simp

@[simp] theorem State.copyMade_guarded (s : State) (b : Nat) : (s.copyMade b).guarded = s.guarded := by
  unfold State.copyMade
  split <;> simp

@[simp] theorem State.pairState_guarded (s : State) (n state cause : Nat) (carrier : Option Nat) :
    (s.pairState n state cause carrier).guarded = s.guarded := by
  simp [State.pairState]

@[simp] theorem State.partnerCarries_guarded (s : State) (b : Nat) : (s.partnerCarries b).guarded = s.guarded := by
  unfold State.partnerCarries
  (repeat' split) <;> simp

@[simp] theorem State.resumeBand_guarded (s : State) (b : Nat) : (s.resumeBand b).guarded = s.guarded := by
  simp [State.resumeBand, apply_ite State.guarded]

@[simp] theorem State.assignReplacement_guarded (s : State) (t : Nat) : (s.assignReplacement t).guarded = s.guarded := by
  unfold State.assignReplacement
  split <;> simp

@[simp] theorem State.tileRepair_guarded (s : State) (b logical cause : Nat) : (s.tileRepair b logical cause).guarded = s.guarded := by
  unfold State.tileRepair
  dsimp only
  (repeat' split) <;> simp

@[simp] theorem State.persistentFailure_guarded (s : State) (b logical lane : Nat) : (s.persistentFailure b logical lane).guarded = s.guarded := by
  simp [State.persistentFailure, apply_ite State.guarded]

theorem execLaneSubstitutionDone_keeps (tile : Nat) (s : State) : Out.keeps s (execLaneSubstitutionDone tile s) := by
  unfold execLaneSubstitutionDone
  dsimp only
  (repeat' split) <;> simp

@[simp] theorem State.restoreCheckpoint_guarded (s : State) (b : Nat) : (s.restoreCheckpoint b).guarded = s.guarded := by
  simp [State.restoreCheckpoint]

@[simp] theorem State.meetFirmware_guarded (s : State) (rv : Nat) (members : List Nat) : (s.meetFirmware rv members).guarded = s.guarded := by
  simp [State.meetFirmware]

theorem execTileRepairDone_keeps (tile : Nat) (s : State) : Out.keeps s (execTileRepairDone tile s) := by
  unfold execTileRepairDone
  (repeat' split) <;> simp [apply_ite State.guarded]

theorem execCheckpointRollback_keeps (band : Nat) (s : State) : Out.keeps s (execCheckpointRollback band s) := by simp [execCheckpointRollback]
theorem execStepTimeout_keeps (band tile : Nat) (s : State) : Out.keeps s (execStepTimeout band tile s) := by simp [execStepTimeout]

@[simp] theorem State.badRow_guarded (s : State) (b logical : Nat) (testFails : Bool) : (s.badRow b logical testFails).guarded = s.guarded := by
  unfold State.badRow
  dsimp only
  (repeat' split) <;> simp

@[simp] theorem State.requestMove_guarded (s : State) (cls : Nat) (j : MoveJob) : (s.requestMove cls j).guarded = s.guarded := by
  simp [State.requestMove, apply_ite State.guarded]

@[simp] theorem State.served_guarded (s : State) (j : MoveJob) : (s.served j).guarded = s.guarded := by rfl

theorem execPatrolRead_keeps (place : PatrolPlace) (result : ReadResult) (s : State) : Out.keeps s (execPatrolRead place result s) := by
  refine onTrigger_guarded ?_
  dsimp only
  (repeat' split) <;> simp

@[simp] theorem State.takeRegion_guarded (s : State) : s.takeRegion.guarded = s.guarded := by simp [State.takeRegion, apply_ite State.guarded]

theorem execHbmRowRetired_keeps (channel region row : Nat) (pprFree : Bool) (s : State) :
    Out.keeps s (execHbmRowRetired channel region row pprFree s) := by
  simp [execHbmRowRetired, apply_ite State.guarded]

theorem execStewardFault_keeps (core : Nat) (s : State) : Out.keeps s (execStewardFault core s) := by
  refine onTrigger_guarded ?_
  dsimp only
  split <;> simp

theorem execStewardRejoin_keeps (core : Nat) (s : State) : Out.keeps s (execStewardRejoin core s) := by simp [execStewardRejoin]

/-! ### Resources -/

@[simp] theorem State.charge_guarded (s : State) (n tier g : Nat) : (s.charge n tier g).guarded = s.guarded := by rfl
@[simp] theorem State.credit_guarded (s : State) (n tier g : Nat) : (s.credit n tier g).guarded = s.guarded := by rfl

@[simp] theorem State.allocBands_guarded (s : State) (n : Nat) (req : List (Nat × Nat × Nat)) (place : List (List Nat)) (program : Bool) :
    (s.allocBands n req place program).guarded = s.guarded := by
  unfold State.allocBands
  dsimp only
  split <;> simp

@[simp] theorem State.freeBandsOf_guarded (s : State) (n : Nat) : (s.freeBandsOf n).guarded = s.guarded := by simp [State.freeBandsOf]

@[simp] theorem State.releaseAdmission_guarded (s : State) (n : Nat) : (s.releaseAdmission n).guarded = s.guarded := by
  simp [State.releaseAdmission]

@[simp] theorem State.wake_guarded (s : State) : s.wake.guarded = s.guarded := by simp [State.wake, apply_ite State.guarded]
@[simp] theorem State.noteIdle_guarded (s : State) : s.noteIdle.guarded = s.guarded := by simp [State.noteIdle, apply_ite State.guarded]

/-! ### Vision -/

@[simp] theorem State.retireEngine_guarded (s : State) (kind inst : Nat) : (s.retireEngine kind inst).guarded = s.guarded := by rfl

@[simp] theorem State.engineFails_guarded (s : State) (kind inst : Nat) : (s.engineFails kind inst).guarded = s.guarded := by
  simp [State.engineFails, apply_ite State.guarded]

@[simp] theorem engineUnit_guarded {kind inst stream unit : Nat} {b : Bool} {s : State} {k : State → State} (h : ∀ u, (k u).guarded = u.guarded) :
    (engineUnit kind inst stream unit b s k).guarded = s.guarded := by
  unfold engineUnit
  dsimp only
  split <;> simp [h]

theorem execEngineRecoveryGraph_keeps (kind inst : Nat) (passed : Bool) (s : State) : Out.keeps s (execEngineRecoveryGraph kind inst passed s) := by
  simp [execEngineRecoveryGraph, apply_ite State.guarded]

@[simp] theorem State.updBuf_guarded (s : State) (n k : Nat) (f : FrameBuf → FrameBuf) : (s.updBuf n k f).guarded = s.guarded := by
  simp [State.updBuf]

@[simp] theorem settleStream_guarded (n : Nat) (s : State) : (settleStream n s).guarded = s.guarded := by simp [settleStream]

theorem execRemapCellRow_keeps (stream row inst : Nat) (checkFails : Bool) (s : State) :
    Out.keeps s (execRemapCellRow stream row inst checkFails s) := by
  unfold execRemapCellRow
  split <;> simp

theorem execPyramidRow_keeps (stream level row inst : Nat) (checkFails : Bool) (s : State) :
    Out.keeps s (execPyramidRow stream level row inst checkFails s) := by
  unfold execPyramidRow
  split <;> simp

@[simp] theorem State.updPairCfg_guarded (s : State) (n p : Nat) (f : PairCfg → PairCfg) : (s.updPairCfg n p f).guarded = s.guarded := by
  unfold State.updPairCfg
  split <;> simp

@[simp] theorem startPair_guarded (n p : Nat) (kl kr lv : Nat) (c : PairCfg) (bl br : FrameBuf) (s : State) :
    (startPair n p kl kr lv c bl br s).guarded = s.guarded := by
  simp [startPair]

@[simp] theorem copyTile_guarded (n what row : Nat) (bytes : List Byte) (s : State) : (copyTile n what row bytes s).guarded = s.guarded := by
  unfold copyTile
  dsimp only
  split <;> simp

theorem execStereoStrip_keeps (ctx pair strip : Nat) (checkFails : Bool) (s : State) : Out.keeps s (execStereoStrip ctx pair strip checkFails s) := by
  unfold execStereoStrip
  split
  · simp
  · refine onTrigger_guarded ((engineUnit_guarded fun u => ?_).trans ?_)
    · simp [apply_ite State.guarded]
    · simp [apply_ite State.guarded]

theorem execCornerCellRow_keeps (stream row inst : Nat) (checkFails : Bool) (s : State) :
    Out.keeps s (execCornerCellRow stream row inst checkFails s) := by
  unfold execCornerCellRow
  split <;> simp

theorem execDescriptorUnit_keeps (stream corner inst : Nat) (checkFails : Bool) (s : State) :
    Out.keeps s (execDescriptorUnit stream corner inst checkFails s) := by
  unfold execDescriptorUnit
  (repeat' split) <;> simp

theorem execFlowPoint_keeps (stream point inst : Nat) (checkFails : Bool) (s : State) :
    Out.keeps s (execFlowPoint stream point inst checkFails s) := by
  unfold execFlowPoint
  dsimp only
  (repeat' split) <;> simp

theorem execFeatureBlockDone_keeps (stream : Nat) (s : State) : Out.keeps s (execFeatureBlockDone stream s) := by
  unfold execFeatureBlockDone
  dsimp only
  (repeat' split) <;> simp

@[simp] theorem withStream_guarded {m : Cmd} {s : State} {k : Nat → StreamS → State} (h : ∀ n x, (k n x).guarded = s.guarded) :
    (withStream m s k).guarded = s.guarded := by
  unfold withStream
  dsimp only
  (repeat' split) <;> simp [h]

theorem execRemapLoad_keeps (c : CmdRef) (s : State) : Out.keeps s (execRemapLoad c s) := by
  refine onCmd_guarded fun m u => withStream_guarded fun n x => ?_
  simp [apply_ite State.guarded]

theorem execStereoConfig_keeps (c : CmdRef) (s : State) : Out.keeps s (execStereoConfig c s) := by
  refine onCmd_guarded fun m u => ?_
  dsimp only
  (repeat' split) <;> simp

theorem execChainConfig_keeps (c : CmdRef) (s : State) : Out.keeps s (execChainConfig c s) := by
  refine onCmd_guarded fun m u => withStream_guarded fun n x => ?_
  dsimp only
  split <;> simp

theorem execFeatureConfig_keeps (c : CmdRef) (s : State) : Out.keeps s (execFeatureConfig c s) := by
  refine onCmd_guarded fun m u => withStream_guarded fun n x => ?_
  dsimp only
  split <;> simp

theorem execDescPatternLoad_keeps (c : CmdRef) (s : State) : Out.keeps s (execDescPatternLoad c s) := by
  simp [execDescPatternLoad, apply_ite State.guarded]

theorem execVisionRead_keeps (c : CmdRef) (s : State) : Out.keeps s (execVisionRead c s) := by
  refine onCmd_guarded fun m u => ?_
  dsimp only
  (repeat' split) <;> simp

theorem execQuadrilleLoad_keeps (c : CmdRef) (s : State) : Out.keeps s (execQuadrilleLoad c s) := by
  simp [execQuadrilleLoad, apply_ite State.guarded]

theorem execQuadrilleRun_keeps (c : CmdRef) (s : State) : Out.keeps s (execQuadrilleRun c s) := by simp [execQuadrilleRun, apply_ite State.guarded]

@[simp] theorem State.abortGraph_guarded (s : State) (c : CmdRef) : (s.abortGraph c).guarded = s.guarded := by
  unfold State.abortGraph
  dsimp only
  (repeat' split) <;> simp

/-! ### Arrivals -/

@[simp] theorem unpair_guarded (n p : Nat) (set : Word) (s : State) : (unpair n p set s).guarded = s.guarded := by
  unfold unpair
  dsimp only
  split <;> simp

@[simp] theorem lateFeatures_guarded (n st : Nat) (s : State) : (lateFeatures n st s).guarded = s.guarded := by
  simp [lateFeatures, apply_ite State.guarded]

@[simp] theorem missStream_guarded (n : Nat) (set : Word) (st : Nat) (s : State) : (missStream n set st s).guarded = s.guarded := by
  simp [missStream]

@[simp] theorem closeSet_guarded (n k : Nat) (s : State) : (closeSet n k s).guarded = s.guarded := by
  unfold closeSet
  dsimp only
  split <;> simp

@[simp] theorem landStream_guarded (n k st : Nat) (s : State) : (landStream n k st s).guarded = s.guarded := by
  unfold landStream
  dsimp only
  (repeat' split) <;> simp

theorem execCloseDeadline_keeps (ctx : Nat) (s : State) : Out.keeps s (execCloseDeadline ctx s) := by
  unfold execCloseDeadline
  (repeat' split) <;> simp

@[simp] theorem applyAtSet_guarded (n instant : Nat) (s : State) : (applyAtSet n instant s).guarded = s.guarded := by
  refine (State.updCtx_guarded ..).trans (forEach_guarded fun e u => ?_)
  split <;> simp

@[simp] theorem beginSet_guarded (n k : Nat) (s : State) : (beginSet n k s).guarded = s.guarded := by
  unfold beginSet
  dsimp only
  (repeat' split) <;> simp

theorem execReelPulseRise_keeps (entry : Nat) (s : State) : Out.keeps s (execReelPulseRise entry s) := by
  simp [execReelPulseRise, apply_ite State.guarded]

@[simp] theorem dropFrame_guarded (st k cause : Nat) (s : State) : (dropFrame st k cause s).guarded = s.guarded := by simp [dropFrame]
@[simp] theorem countHeaders_guarded (p k : Nat) (s : State) : (countHeaders p k s).guarded = s.guarded := by rfl

theorem execFrameStart_keeps (port vc headerErrors : Nat) (s : State) : Out.keeps s (execFrameStart port vc headerErrors s) := by
  unfold execFrameStart
  split
  · simp
  · refine Out.keeps.after (countHeaders_guarded port headerErrors s) (onTrigger_guarded ?_)
    next x _ =>
      cases x.cur
      all_goals
        dsimp only
        (repeat' split) <;> simp

@[simp] theorem firstStrip_guarded (st k : Nat) (s : State) : (firstStrip st k s).guarded = s.guarded := by simp [firstStrip]

theorem execStripLanded_keeps (stream : Nat) (lines : List VideoLine) (headerErrors : Nat) (s : State) :
    Out.keeps s (execStripLanded stream lines headerErrors s) := by
  unfold execStripLanded
  dsimp only
  (repeat' split) <;> simp

theorem execFrameEnd_keeps (stream : Nat) (lines : List VideoLine) (embedded : List (List Byte)) (headerErrors : Nat) (bad : Bool) (s : State) :
    Out.keeps s (execFrameEnd stream lines embedded headerErrors bad s) := by
  unfold execFrameEnd
  dsimp only
  (repeat' split) <;> simp

@[simp] theorem addLoss_guarded (p k : Nat) (s : State) : (addLoss p k s).guarded = s.guarded := by rfl

theorem execLidarPacket_keeps (port : Nat) (source : Word) (udpPort : BitVec 16) (tags : Nat) (payload : List Byte) (s : State) :
    Out.keeps s (execLidarPacket port source udpPort tags payload s) := by
  unfold execLidarPacket
  dsimp only
  split
  · simp
  · refine onTrigger_guarded ?_
    simp [apply_ite State.guarded, apply_ite Prod.fst]

@[simp] theorem closeSweep_guarded (port : Nat) (s : State) : (closeSweep port s).guarded = s.guarded := by
  unfold closeSweep
  dsimp only
  (repeat' split) <;> simp

theorem execLidarSweepTimeout_keeps (port : Nat) (s : State) : Out.keeps s (execLidarSweepTimeout port s) := by simp [execLidarSweepTimeout]

@[simp] theorem latchEncoder_guarded (p : Nat) (s : State) : (latchEncoder p s).guarded = s.guarded := by
  simp [latchEncoder, apply_ite State.guarded]

@[simp] theorem imuEntry_guarded (s : State) : (imuEntry s).guarded = s.guarded := by simp [imuEntry, apply_ite State.guarded]
@[simp] theorem takeImu0_guarded (raw : List Word) (s : State) : (takeImu0 raw s).guarded = s.guarded := by simp [takeImu0, apply_ite State.guarded]

theorem execImu0Sample_keeps (raw : List Word) (delivered : Bool) (s : State) : Out.keeps s (execImu0Sample raw delivered s) := by
  simp [execImu0Sample, apply_ite State.guarded]

@[simp] theorem missedSamples_guarded (port stamp : Nat) (s : State) : (missedSamples port stamp s).guarded = s.guarded := by
  unfold missedSamples
  dsimp only
  split <;> simp

theorem execImuBurst_keeps (port : Nat) (ok : Bool) (burst : List Byte) (s : State) : Out.keeps s (execImuBurst port ok burst s) := by
  unfold execImuBurst
  dsimp only
  split
  · simp
  · refine onTrigger_guarded ?_
    (repeat' split) <;> simp

@[simp] theorem takeSignal_guarded (n port i stamp : Nat) (e payload : List Byte) (s : State) :
    (takeSignal n port i stamp e payload s).guarded = s.guarded := by
  unfold takeSignal
  dsimp only
  (repeat' split) <;> simp

@[simp] theorem canAnswer_guarded (port : Nat) (ack : Bool) (s : State) : (canAnswer port ack s).guarded = s.guarded := by
  simp [canAnswer, apply_ite State.guarded]

theorem execCanFrame_keeps (port : Nat) (id : Word) (brs error : Bool) (payload : List Byte) (s : State) :
    Out.keeps s (execCanFrame port id brs error payload s) := by
  unfold execCanFrame
  refine onTrigger_guarded ?_
  split
  · simp
  · dsimp only
    split
    · simp
    · simp [apply_ite State.guarded]

theorem execCanSignalStale_keeps (port signal : Nat) (s : State) : Out.keeps s (execCanSignalStale port signal s) := by
  unfold execCanSignalStale
  (repeat' split) <;> simp

theorem execFormatWrite_keeps (c : CmdRef) (s : State) : Out.keeps s (execFormatWrite c s) := by simp [execFormatWrite, apply_ite State.guarded]

/-! ### Landing -/

@[simp] theorem applyLand_guarded (pair : Bool) (banks : List Nat) (a : LandAct) (s : State) : (applyLand pair banks a s).guarded = s.guarded := by
  unfold applyLand
  dsimp only
  (repeat' split) <;> simp

/-! ### Bands -/

@[simp] theorem State.stretch_guarded (s : State) (bn k : Nat) : (s.stretch bn k).guarded = s.guarded := by
  unfold State.stretch
  dsimp only
  (repeat' split) <;> simp

@[simp] theorem State.advance_guarded (s : State) (bn : Nat) (c : Ctl) (columns : Nat) : (s.advance bn c columns).guarded = s.guarded := by
  simp [State.advance, apply_ite State.guarded]

@[simp] theorem State.loadPage_guarded (s : State) (bn page : Nat) : (s.loadPage bn page).guarded = s.guarded := by simp [State.loadPage]

@[simp] theorem State.putStream_guarded (s : State) (n st : Nat) (old w : WStream) : (s.putStream n st old w).guarded = s.guarded := by
  simp [State.putStream]

@[simp] theorem State.advanceStreams_guarded (s : State) (bn rv : Nat) : (s.advanceStreams bn rv).guarded = s.guarded := by
  simp [State.advanceStreams, apply_ite State.guarded]

@[simp] theorem State.arrive_guarded (s : State) (bn rv : Nat) : (s.arrive bn rv).guarded = s.guarded := by simp [State.arrive]
theorem execRendezvousComplete_keeps (rv : Nat) (s : State) : Out.keeps s (execRendezvousComplete rv s) := by simp [execRendezvousComplete]

theorem execFabricRendezvousLate_keeps (band : Nat) (s : State) : Out.keeps s (execFabricRendezvousLate band s) := by
  unfold execFabricRendezvousLate
  dsimp only
  (repeat' split) <;> simp

@[simp] theorem State.noteCkpt_guarded (s : State) (bn logical row : Nat) : (s.noteCkpt bn logical row).guarded = s.guarded := by
  unfold State.noteCkpt
  dsimp only
  (repeat' split) <;> simp

@[simp] theorem State.validateCkpt_guarded (s : State) (bn pc : Nat) : (s.validateCkpt bn pc).guarded = s.guarded := by simp [State.validateCkpt]

@[simp] theorem State.startMove_guarded (s : State) (bn : Nat) (m : MoveS) : (s.startMove bn m).guarded = s.guarded := by
  simp [State.startMove, apply_ite State.guarded]

@[simp] theorem State.landStep_guarded (s : State) (bn : Nat) : (s.landStep bn).guarded = s.guarded := by
  refine (State.stretch_guarded ..).trans ((forEach_guarded fun x u => ?_).trans (State.updBand_guarded ..))
  dsimp only
  split <;> simp

@[simp] theorem State.admitStarted_guarded (s : State) (n : Nat) : (s.admitStarted n).guarded = s.guarded := by
  unfold State.admitStarted
  dsimp only
  (repeat' split) <;> simp

@[simp] theorem State.issue_guarded (s : State) (bn : Nat) (img : ImageS) (pb : Nat) (cols : List Col) (effs : List ColEff) :
    (s.issue bn img pb cols effs).guarded = s.guarded := by
  unfold State.issue
  dsimp only
  (repeat' split) <;> simp

@[simp] theorem State.retryStep_guarded (s : State) (bn : Nat) (failing : List (Nat × Nat)) : (s.retryStep bn failing).guarded = s.guarded := by
  simp [State.retryStep]

@[simp] theorem State.columnStep_guarded (s : State) (bn : Nat) (io : StepIO) : (s.columnStep bn io).guarded = s.guarded := by
  unfold State.columnStep
  dsimp only
  (repeat' split) <;> simp

theorem execMoveComplete_keeps (band tile flag : Nat) (s : State) : Out.keeps s (execMoveComplete band tile flag s) := by
  unfold execMoveComplete
  dsimp only
  (repeat' split) <;> simp

theorem execCodePageLoaded_keeps (band page : Nat) (failed : Bool) (s : State) : Out.keeps s (execCodePageLoaded band page failed s) := by
  simp [execCodePageLoaded, apply_ite State.guarded]

theorem execStreamLayerResident_keeps (ctx stream tile : Nat) (s : State) : Out.keeps s (execStreamLayerResident ctx stream tile s) := by
  unfold execStreamLayerResident
  (repeat' split) <;> simp

/-! ### Contexts -/

theorem execContextAdmit_keeps (c : CmdRef) (s : State) : Out.keeps s (execContextAdmit c s) := by
  refine onCmd_guarded fun m u => ?_
  dsimp only
  split
  · simp
  · refine withSg_guarded fun b => ?_
    (repeat' split) <;> simp

@[simp] theorem State.releaseContext_guarded (s : State) (n : Nat) : (s.releaseContext n).guarded = s.guarded := by
  unfold State.releaseContext
  dsimp only
  (repeat' split) <;> simp

theorem execContextStatus_keeps (c : CmdRef) (s : State) : Out.keeps s (execContextStatus c s) := by simp [execContextStatus]

theorem execDiagTileStatus_keeps (c : CmdRef) (s : State) : Out.keeps s (execDiagTileStatus c s) := by
  simp [execDiagTileStatus, apply_ite State.guarded]

theorem execDiagBandStatus_keeps (c : CmdRef) (s : State) : Out.keeps s (execDiagBandStatus c s) := by
  simp [execDiagBandStatus, apply_ite State.guarded]

theorem execDiagCounters_keeps (c : CmdRef) (s : State) : Out.keeps s (execDiagCounters c s) := by simp [execDiagCounters]

/-! ### Objects -/

theorem execHostWindowSet_keeps (c : CmdRef) (s : State) : Out.keeps s (execHostWindowSet c s) := by
  refine onCmd_guarded fun m u => ?_
  dsimp only
  (repeat' split) <;> simp

@[simp] theorem withObj_guarded {m : Cmd} {s : State} {own lost : Bool} {k : Nat → ObjS → State} (h : ∀ i o, (k i o).guarded = s.guarded) :
    (withObj m s own lost k).guarded = s.guarded := by
  unfold withObj
  (repeat' split) <;> simp [h]

theorem execObjCreate_keeps (c : CmdRef) (s : State) : Out.keeps s (execObjCreate c s) := by
  refine onCmd_guarded fun m u => ?_
  dsimp only
  (repeat' split) <;> simp

@[simp] theorem State.dropObj_guarded (s : State) (k : Nat) : (s.dropObj k).guarded = s.guarded := by
  unfold State.dropObj
  dsimp only
  (repeat' split) <;> simp [apply_ite State.guarded]

theorem execObjDestroy_keeps (c : CmdRef) (s : State) : Out.keeps s (execObjDestroy c s) := by simp [execObjDestroy, apply_ite State.guarded]

theorem execObjWrite_keeps (c : CmdRef) (s : State) : Out.keeps s (execObjWrite c s) := by
  refine onCmd_guarded fun m u => ?_
  simp [apply_ite State.guarded]

theorem execObjSeal_keeps (c : CmdRef) (s : State) : Out.keeps s (execObjSeal c s) := by simp [execObjSeal, apply_ite State.guarded]
theorem execObjShare_keeps (c : CmdRef) (s : State) : Out.keeps s (execObjShare c s) := by simp [execObjShare, apply_ite State.guarded]
theorem execObjUnshare_keeps (c : CmdRef) (s : State) : Out.keeps s (execObjUnshare c s) := by simp [execObjUnshare, apply_ite State.guarded]

theorem execObjMove_keeps (c : CmdRef) (s : State) : Out.keeps s (execObjMove c s) := by
  refine onCmd_guarded fun m u => ?_
  simp [apply_ite State.guarded]

@[simp] theorem State.moveBackObj_guarded (s : State) (k status : Nat) : (s.moveBackObj k status).guarded = s.guarded := by
  unfold State.moveBackObj
  dsimp only
  (repeat' split) <;> simp

@[simp] theorem State.fillCopy_guarded (s : State) (k tier : Nat) : (s.fillCopy k tier).guarded = s.guarded := by
  unfold State.fillCopy
  split <;> simp

@[simp] theorem State.claim_guarded (s : State) (k tier n : Nat) : (s.claim k tier n).guarded = s.guarded := by
  unfold State.claim
  dsimp only
  (repeat' split) <;> simp

@[simp] theorem State.unclaim_guarded (s : State) (k tier n : Nat) : (s.unclaim k tier n).guarded = s.guarded := by
  unfold State.unclaim
  dsimp only
  (repeat' split) <;> simp

@[simp] theorem State.dropClaims_guarded (s : State) (n : Nat) : (s.dropClaims n).guarded = s.guarded := by
  simp [State.dropClaims, apply_ite State.guarded]

theorem execObjPromote_keeps (c : CmdRef) (s : State) : Out.keeps s (execObjPromote c s) := by simp [execObjPromote, apply_ite State.guarded]
theorem execObjEvict_keeps (c : CmdRef) (s : State) : Out.keeps s (execObjEvict c s) := by simp [execObjEvict, apply_ite State.guarded]
theorem execObjPin_keeps (c : CmdRef) (s : State) : Out.keeps s (execObjPin c s) := by simp [execObjPin, apply_ite State.guarded]
theorem execObjUnpin_keeps (c : CmdRef) (s : State) : Out.keeps s (execObjUnpin c s) := by simp [execObjUnpin, apply_ite State.guarded]

theorem execWindowBind_keeps (c : CmdRef) (s : State) : Out.keeps s (execWindowBind c s) := by
  refine onCmd_guarded fun m u => ?_
  dsimp only
  (repeat' split) <;> simp

theorem execStreamBind_keeps (c : CmdRef) (s : State) : Out.keeps s (execStreamBind c s) := by
  refine onCmd_guarded fun m u => ?_
  dsimp only
  split
  · simp
  · refine withSg_guarded fun b => ?_
    (repeat' split) <;> simp

theorem execObjQuery_keeps (c : CmdRef) (s : State) : Out.keeps s (execObjQuery c s) := by simp [execObjQuery]
@[simp] theorem refreshLost_guarded (n : Nat) (s : State) : (refreshLost n s).guarded = s.guarded := by simp [refreshLost]
@[simp] theorem State.claimWeights_guarded (s : State) (n : Nat) : (s.claimWeights n).guarded = s.guarded := by simp [State.claimWeights]

@[simp] theorem State.dropWeights_guarded (s : State) (n : Nat) (l : List (Nat × Bool)) : (s.dropWeights n l).guarded = s.guarded := by
  simp [State.dropWeights]

theorem execObjReload_keeps (c : CmdRef) (s : State) : Out.keeps s (execObjReload c s) := by
  refine onCmd_guarded fun m u => withObj_guarded fun k o => ?_
  simp [apply_ite State.guarded]

theorem execContextRelease_keeps (c : CmdRef) (s : State) : Out.keeps s (execContextRelease c s) := by
  simp [execContextRelease, apply_ite State.guarded]

@[simp] theorem State.loseObj_guarded (s : State) (k : Nat) : (s.loseObj k).guarded = s.guarded := by
  unfold State.loseObj
  dsimp only
  (repeat' split) <;> simp [apply_ite State.guarded]

@[simp] theorem State.homeFails_guarded (s : State) (k g : Nat) : (s.homeFails k g).guarded = s.guarded := by
  unfold State.homeFails
  dsimp only
  (repeat' split) <;> simp

@[simp] theorem State.memError_guarded (s : State) (kind : Nat) : (s.memError kind).guarded = s.guarded := by rfl

theorem execObjectRestreamed_keeps (obj tier granule : Nat) (homeReadFails : Bool) (s : State) :
    Out.keeps s (execObjectRestreamed obj tier granule homeReadFails s) := by
  unfold execObjectRestreamed
  (repeat' split) <;> simp [apply_ite State.guarded]

theorem execCopyGranuleFree_keeps (obj tier : Nat) (s : State) : Out.keeps s (execCopyGranuleFree obj tier s) := by
  unfold execCopyGranuleFree
  split <;> simp

@[simp] theorem State.featMoved_guarded (s : State) (map : Nat) (kf : Word) (host : Bool) : (s.featMoved map kf host).guarded = s.guarded := by
  unfold State.featMoved
  dsimp only
  (repeat' split) <;> simp

@[simp] theorem State.jobDone_guarded (s : State) (j : MoveJob) : (s.jobDone j).guarded = s.guarded := by
  unfold State.jobDone
  dsimp only
  (repeat' split) <;> simp [apply_ite State.guarded]

@[simp] theorem State.jobFails_guarded (s : State) (j : MoveJob) : (s.jobFails j).guarded = s.guarded := by
  unfold State.jobFails
  dsimp only
  (repeat' split) <;> simp

theorem execGranuleMove_keeps (result : ReadResult) (retryFails : Bool) (s : State) : Out.keeps s (execGranuleMove result retryFails s) := by
  unfold execGranuleMove
  (repeat' split) <;> simp

/-! ### Maps -/

@[simp] theorem State.closeSnap_guarded (s : State) (h : SnapHolder) : (s.closeSnap h).guarded = s.guarded := by rfl

@[simp] theorem State.enqueue_guarded (s : State) (map : Nat) (l : List QueuedChange) : (s.enqueue map l).guarded = s.guarded := by
  simp [State.enqueue]

/-! ### Commits -/

@[simp] theorem State.putMap_guarded (s : State) (map : Nat) (m : MapS) : (s.putMap map m).guarded = s.guarded := by simp [State.putMap]
@[simp] theorem State.raiseMap_guarded (s : State) (map code detail : Nat) : (s.raiseMap map code detail).guarded = s.guarded := by rfl
@[simp] theorem State.dropQueued_guarded (s : State) (c : CmdRef) : (s.dropQueued c).guarded = s.guarded := by rfl

@[simp] theorem State.endSnapshot_guarded (s : State) (map : Nat) (h : SnapHolder) (detail : Nat) :
    (s.endSnapshot map h detail).guarded = s.guarded := by
  unfold State.endSnapshot
  dsimp only
  (repeat' split) <;> simp

@[simp] theorem State.makeRoom_guarded (map : Nat) (n : Need) (fuel : Nat) (s : State) : (s.makeRoom map n fuel).guarded = s.guarded := by
  induction fuel generalizing s with
  | zero => rfl
  | succ fuel ih =>
    unfold State.makeRoom
    dsimp only
    split
    · rfl
    · split
      · simp [ih]
      · rfl

@[simp] theorem State.mapCounts_guarded (s : State) (map : Nat) : (s.mapCounts map).guarded = s.guarded := by
  simp [State.mapCounts, apply_ite State.guarded]

@[simp] theorem State.moveOut_guarded (map : Nat) (l : List (Nat × FeatBlock)) (used room : Nat) (s : State) :
    (State.moveOut map l used room s).guarded = s.guarded := by
  induction l generalizing used room s with
  | nil => rfl
  | cons e l ih =>
    unfold State.moveOut
    dsimp only
    (repeat' split) <;> simp [ih]

@[simp] theorem State.trimPool_guarded (s : State) (map : Nat) : (s.trimPool map).guarded = s.guarded := by
  unfold State.trimPool
  dsimp only
  (repeat' split) <;> simp

@[simp] theorem State.dropMap_guarded (s : State) (i : Nat) : (s.dropMap i).guarded = s.guarded := by
  unfold State.dropMap
  dsimp only
  split <;> simp

@[simp] theorem State.reapMaps_guarded (s : State) : s.reapMaps.guarded = s.guarded := by simp [State.reapMaps, apply_ite State.guarded]
theorem execTombstoneFree_keeps (map : Nat) (s : State) : Out.keeps s (execTombstoneFree map s) := by simp [execTombstoneFree]
theorem execGenerationSweep_keeps (map : Nat) (s : State) : Out.keeps s (execGenerationSweep map s) := by simp [execGenerationSweep]

/-! ### Search -/

@[simp] theorem withMap_guarded {m : Cmd} {s : State} {id word : Nat} {own : Bool} {k : MapS → State} (h : ∀ x, (k x).guarded = s.guarded) :
    (withMap m s id word own k).guarded = s.guarded := by
  unfold withMap
  (repeat' split) <;> simp [h]

@[simp] theorem State.addIndex_guarded (s : State) (map kind : Nat) (x : IndexS) : (s.addIndex map kind x).guarded = s.guarded := by
  simp [State.addIndex]

theorem execIndexCreate_keeps (c : CmdRef) (s : State) : Out.keeps s (execIndexCreate c s) := by
  refine onCmd_guarded fun m u => ?_
  dsimp only
  split
  · simp
  · refine withMap_guarded fun x => ?_
    simp [apply_ite State.guarded]

theorem execIndexDestroy_keeps (c : CmdRef) (s : State) : Out.keeps s (execIndexDestroy c s) := by
  refine onCmd_guarded fun m u => withMap_guarded fun x => ?_
  (repeat' split) <;> simp [apply_ite State.guarded]

theorem execSearchInsert_keeps (c : CmdRef) (s : State) : Out.keeps s (execSearchInsert c s) := by
  refine onCmd_guarded fun m u => withMap_guarded fun x => ?_
  split
  · simp
  · simp [apply_ite State.guarded]

@[simp] theorem State.addQuery_guarded (s : State) (q : QueryS) : (s.addQuery q).guarded = s.guarded := by rfl

theorem execSearchQuery_keeps (c : CmdRef) (s : State) : Out.keeps s (execSearchQuery c s) := by
  refine onCmd_guarded fun m u => withSg_guarded fun b => ?_
  dsimp only
  split
  · simp
  · refine withMap_guarded fun x => ?_
    (repeat' split) <;> simp

@[simp] theorem State.losePage_guarded (s : State) (map kind l page : Nat) : (s.losePage map kind l page).guarded = s.guarded := by
  unfold State.losePage
  dsimp only
  split <;> simp

theorem execSearchScan_keeps (badPages : List (Nat × Nat × Nat × Nat)) (s : State) : Out.keeps s (execSearchScan badPages s) := by
  unfold execSearchScan
  refine onTrigger_guarded ?_
  refine (forEach_guarded fun k u => ?_).trans (by simp)
  dsimp only
  split <;> simp [apply_ite State.guarded]

theorem execLoopQueryIssue_keeps (n : Nat) (kf : Word) (vector : List Word) (s : State) : Out.keeps s (execLoopQueryIssue n kf vector s) := by
  unfold execLoopQueryIssue
  dsimp only
  (repeat' split) <;> simp

theorem execLoopVerify_keeps (n : Nat) (verdict : LoopVerdict) (s : State) : Out.keeps s (execLoopVerify n verdict s) := by
  unfold execLoopVerify
  (repeat' split)
  · simp
  · simp
  · refine onTrigger_guarded ?_
    dsimp only
    (repeat' split) <;> simp

/-! ### Map commands -/

@[simp] theorem withMapReq_guarded {m : Cmd} {s : State} {k : Nat → MapReq → State} (h : ∀ n x, (k n x).guarded = s.guarded) :
    (withMapReq m s k).guarded = s.guarded := by
  unfold withMapReq
  dsimp only
  (repeat' split) <;> simp [h]

@[simp] theorem State.addMap_guarded (s : State) (n i : Nat) (r : MapReq) (m : MapS) : (s.addMap n i r m).guarded = s.guarded := by rfl
theorem execMapCreate_keeps (c : CmdRef) (s : State) : Out.keeps s (execMapCreate c s) := by simp [execMapCreate, apply_ite State.guarded]
theorem execMapDestroy_keeps (c : CmdRef) (s : State) : Out.keeps s (execMapDestroy c s) := by simp [execMapDestroy, apply_ite State.guarded]
theorem execMapLend_keeps (c : CmdRef) (s : State) : Out.keeps s (execMapLend c s) := by simp [execMapLend, apply_ite State.guarded]
theorem execMapRecall_keeps (c : CmdRef) (s : State) : Out.keeps s (execMapRecall c s) := by simp [execMapRecall, apply_ite State.guarded]

theorem execMapMerge_keeps (c : CmdRef) (s : State) : Out.keeps s (execMapMerge c s) := by
  refine onCmd_guarded fun m u => withMap_guarded fun x => withMap_guarded fun y => ?_
  simp [apply_ite State.guarded]

theorem execMapImport_keeps (c : CmdRef) (s : State) : Out.keeps s (execMapImport c s) := by
  refine onCmd_guarded fun m u => withMapReq_guarded fun i r => withSg_guarded fun b => ?_
  dsimp only
  (repeat' split) <;> simp

/-! ### Sessions -/

@[simp] theorem bindStreams_guarded (n : Nat) (a : Admission) (want : List (Nat × Nat × Bool)) (cams : List Bind) (s : State) :
    (bindStreams n a want cams s).guarded = s.guarded := by
  simp [bindStreams]

@[simp] theorem bindPairs_guarded (n : Nat) (a : Admission) (cams : List Bind) (s : State) : (bindPairs n a cams s).guarded = s.guarded := by
  simp [bindPairs]

@[simp] theorem armEntries_guarded (n : Nat) (a : Admission) (want : List (Nat × Nat × Bool)) (s : State) :
    (armEntries n a want s).guarded = s.guarded := by
  simp [armEntries]

@[simp] theorem bindPort_guarded (p : Nat) (s : State) : (bindPort p s).guarded = s.guarded := by
  unfold bindPort
  dsimp only
  split <;> simp

@[simp] theorem bindSignals_guarded (n : Nat) (b : Bind) (s : State) : (bindSignals n b s).guarded = s.guarded := by
  simp [bindSignals, apply_ite State.guarded]

@[simp] theorem bindEntries_guarded (n : Nat) (l : List Bind) (s : State) : (bindEntries n l s).guarded = s.guarded := by
  refine forEach_guarded fun b u => forEach_guarded fun i v => ?_
  split <;> simp

@[simp] theorem beginSession_guarded (n : Nat) (r : StartReq) (l : List Bind) (a : Admission) (s : State) :
    (beginSession n r l a s).guarded = s.guarded := by
  simp [beginSession]

theorem execStartSession_keeps (c : CmdRef) (s : State) : Out.keeps s (execStartSession c s) := by
  refine onCmd_guarded fun m u => ?_
  dsimp only
  split
  · simp
  · split
    · simp
    · split
      · simp
      · refine withSg_guarded fun b => ?_
        (repeat' split) <;> simp

@[simp] theorem endSession_guarded (n : Nat) (s : State) : (endSession n s).guarded = s.guarded := by
  unfold endSession
  dsimp only
  (repeat' split) <;> simp [apply_ite State.guarded]

@[simp] theorem settleStop_guarded (n : Nat) (s : State) : (settleStop n s).guarded = s.guarded := by
  unfold settleStop
  dsimp only
  (repeat' split) <;> simp

theorem execStopSession_keeps (c : CmdRef) (s : State) : Out.keeps s (execStopSession c s) := by
  refine onCmd_guarded fun m u => ?_
  (repeat' split) <;> simp

theorem execSetStageMode_keeps (c : CmdRef) (s : State) : Out.keeps s (execSetStageMode c s) := by
  refine onCmd_guarded fun m u => ?_
  dsimp only
  (repeat' split) <;> simp

theorem execSessionStatus_keeps (c : CmdRef) (s : State) : Out.keeps s (execSessionStatus c s) := by
  refine onCmd_guarded fun m u => ?_
  split <;> simp

theorem execHeldRecordExpiry_keeps (s : State) : Out.keeps s (execHeldRecordExpiry s) := by
  unfold execHeldRecordExpiry
  split <;> simp

/-! ### Aborts -/

@[simp] theorem State.dropQuery_guarded (s : State) (k : Nat) : (s.dropQuery k).guarded = s.guarded := by simp [State.dropQuery]

@[simp] theorem abortQuery_guarded (c : CmdRef) (s : State) : (abortQuery c s).guarded = s.guarded := by
  unfold abortQuery
  (repeat' split) <;> simp

@[simp] theorem abortMove_guarded (c : CmdRef) (s : State) : (abortMove c s).guarded = s.guarded := by
  unfold abortMove
  split <;> simp

@[simp] theorem abortPromote_guarded (m : Cmd) (s : State) : (abortPromote m s).guarded = s.guarded := by
  unfold abortPromote
  dsimp only
  split <;> simp

@[simp] theorem abortStop_guarded (c : CmdRef) (s : State) : (abortStop c s).guarded = s.guarded := by simp [abortStop]
@[simp] theorem abortReplan_guarded (c : CmdRef) (s : State) : (abortReplan c s).guarded = s.guarded := by rfl

@[simp] theorem endRunning_guarded (m : Cmd) (s : State) : (endRunning m s).guarded = s.guarded := by
  unfold endRunning
  dsimp only
  (repeat' split) <;> simp

@[simp] theorem endAborted_guarded (m : Cmd) (s : State) : (endAborted m s).guarded = s.guarded := by simp [endAborted, apply_ite State.guarded]

theorem execAbort_keeps (c : CmdRef) (s : State) : Out.keeps s (execAbort c s) := by
  refine onCmd_guarded fun m u => ?_
  (repeat' split) <;> simp

/-! ### Calibration -/

theorem execRigWrite_keeps (c : CmdRef) (s : State) : Out.keeps s (execRigWrite c s) := by simp [execRigWrite, apply_ite State.guarded]

theorem execRigRead_keeps (c : CmdRef) (s : State) : Out.keeps s (execRigRead c s) := by
  refine onCmd_guarded fun m u => ?_
  split <;> simp

theorem execFusionConfig_keeps (c : CmdRef) (s : State) : Out.keeps s (execFusionConfig c s) := by
  refine onCmd_guarded fun m u => ?_
  (repeat' split) <;> simp

theorem execCalibRead_keeps (c : CmdRef) (s : State) : Out.keeps s (execCalibRead c s) := by
  refine onCmd_guarded fun m u => ?_
  split <;> simp

@[simp] theorem anchorChanged_guarded (s : State) : (anchorChanged s).guarded = s.guarded := by
  refine forEach_guarded fun e u => ?_
  dsimp only
  split <;> simp

theorem execCalibCommit_keeps (c : CmdRef) (s : State) : Out.keeps s (execCalibCommit c s) := by
  refine onCmd_guarded fun m u => ?_
  dsimp only
  (repeat' split) <;> simp

/-! ### Clocks -/

@[simp] theorem linkDown_guarded (s : State) : (linkDown s).guarded = s.guarded := by simp [linkDown, apply_ite State.guarded]
theorem execHostLinkDown_keeps (s : State) : Out.keeps s (execHostLinkDown s) := by simp [execHostLinkDown]
@[simp] theorem scaleIncrement_guarded (s : State) : (scaleIncrement s).guarded = s.guarded := by rfl

@[simp] theorem switchIslands_guarded (l : List Nat) (s : State) : (switchIslands l s).guarded = s.guarded := by
  simp [switchIslands, apply_ite State.guarded]

@[simp] theorem raiseSwitched_guarded (l : List Nat) (alt : Bool) (s : State) : (raiseSwitched l alt s).guarded = s.guarded := by
  simp [raiseSwitched, apply_ite State.guarded]

@[simp] theorem parkIsland_guarded (i : Nat) (s : State) : (parkIsland i s).guarded = s.guarded := by
  unfold parkIsland
  dsimp only
  split
  · simp
  · refine (forEach_guarded fun st u => ?_).trans (State.updIsland_guarded ..)
    split <;> simp
  · split <;> simp
  · simp

@[simp] theorem parkIslands_guarded (l : List Nat) (s : State) : (parkIslands l s).guarded = s.guarded := by
  simp [parkIslands, apply_ite State.guarded]

@[simp] theorem State.updSource_guarded (s : State) (k : Nat) (f : SourceS → SourceS) : (s.updSource k f).guarded = s.guarded := by rfl
theorem execClockSourceLost_keeps (source : Nat) (s : State) : Out.keeps s (execClockSourceLost source s) := by simp [execClockSourceLost]

theorem execClockSourceStable_keeps (source : Nat) (s : State) : Out.keeps s (execClockSourceStable source s) := by
  refine onTrigger_guarded ?_
  dsimp only
  split <;> simp

theorem execClockSourceReturn_keeps (island : Nat) (s : State) : Out.keeps s (execClockSourceReturn island s) := by simp [execClockSourceReturn]
theorem execPllLockLost_keeps (island : Nat) (s : State) : Out.keeps s (execPllLockLost island s) := by simp [execPllLockLost]

theorem execIslandResume_keeps (island : Nat) (s : State) : Out.keeps s (execIslandResume island s) := by
  simp [execIslandResume, apply_ite State.guarded]

theorem execVoltageTransition_keeps (island : Nat) (s : State) : Out.keeps s (execVoltageTransition island s) := by
  unfold execVoltageTransition
  dsimp only
  (repeat' split) <;> simp

theorem execVfCurveLoad_keeps (c : CmdRef) (s : State) : Out.keeps s (execVfCurveLoad c s) := by simp [execVfCurveLoad, apply_ite State.guarded]

/-! ### Carriers and protocol -/

@[simp] theorem slotLost_guarded (fn : Nat) (s : State) : (slotLost fn s).guarded = s.guarded := by rfl

@[simp] theorem armSlot_guarded (fn slot : Nat) (word0 : Word) (s : State) : (armSlot fn slot word0 s).guarded = s.guarded := by
  simp [armSlot, apply_ite State.guarded]

@[simp] theorem writeSlotWord_guarded (fn slot index : Nat) (value : Word) (s : State) :
    (writeSlotWord fn slot index value s).guarded = s.guarded := by
  simp [writeSlotWord, apply_ite State.guarded]

@[simp] theorem writeMsix_guarded (fn i : Nat) (value : Word) (s : State) : (writeMsix fn i value s).guarded = s.guarded := by
  simp [writeMsix, apply_ite State.guarded]

@[simp] theorem writeReg_guarded (fn offset : Nat) (value : Word) (s : State) : (writeReg fn offset value s).guarded = s.guarded := by
  simp [writeReg, apply_ite State.guarded]

@[simp] theorem ransaMessage_guarded (eid : Byte) (peer : BitVec 7) (tag : BitVec 3) (body : List Byte) (s : State) :
    (ransaMessage eid peer tag body s).guarded = s.guarded := by
  rfl

theorem execMctpMessageReceived_keeps (eid : Byte) (peer address : BitVec 7) (khz : Nat) (packets : List SmbusPacket) (s : State) :
    Out.keeps s (execMctpMessageReceived eid peer address khz packets s) := by
  unfold execMctpMessageReceived
  split <;> simp

@[simp] theorem mctpControl_guarded (dst : Byte) (body : List Byte) (s : State) : (mctpControl dst body s).guarded = s.guarded := by rfl

theorem execSetEndpointId_keeps (_force : Bool) (eid : Byte) (s : State) : Out.keeps s (execSetEndpointId _force eid s) := by
  simp [execSetEndpointId, apply_ite State.guarded]

theorem execGetEndpointId_keeps (src : Byte) (s : State) : Out.keeps s (execGetEndpointId src s) := by simp [execGetEndpointId]

theorem execGetMctpVersionSupport_keeps (src msgType : Byte) (s : State) : Out.keeps s (execGetMctpVersionSupport src msgType s) := by
  simp [execGetMctpVersionSupport, apply_ite State.guarded]

theorem execGetMessageTypeSupport_keeps (src : Byte) (s : State) : Out.keeps s (execGetMessageTypeSupport src s) := by
  simp [execGetMessageTypeSupport]

theorem execGetVendorDefinedMessageSupport_keeps (src selector : Byte) (s : State) :
    Out.keeps s (execGetVendorDefinedMessageSupport src selector s) := by
  simp [execGetVendorDefinedMessageSupport, apply_ite State.guarded]

theorem execCommandStart_keeps (who : Sender) (s : State) : Out.keeps s (execCommandStart who s) := by
  unfold execCommandStart
  (repeat' split) <;> simp

@[simp] theorem carryReply_guarded (m : Cmd) (r : Reply) (s : State) : (carryReply m r s).guarded = s.guarded := by
  unfold carryReply
  dsimp only
  (repeat' split) <;> simp

theorem execCommandReply_keeps (c : CmdRef) (s : State) : Out.keeps s (execCommandReply c s) := by
  unfold execCommandReply
  (repeat' split) <;> simp

@[simp] theorem openSender_guarded (m : Cmd) (s : State) : (openSender m s).guarded = s.guarded := by
  unfold openSender
  (repeat' split) <;> simp

theorem execHello_keeps (c : CmdRef) (s : State) : Out.keeps s (execHello c s) := by simp [execHello, apply_ite State.guarded]
theorem execQueryCaps_keeps (c : CmdRef) (s : State) : Out.keeps s (execQueryCaps c s) := by simp [execQueryCaps]

@[simp] theorem claimDomains_guarded (mask : BitVec 16) (s : State) : (claimDomains mask s).guarded = s.guarded := by
  simp [claimDomains, apply_ite State.guarded]

@[simp] theorem releaseDomains_guarded (mask : BitVec 16) (s : State) : (releaseDomains mask s).guarded = s.guarded := by
  simp [releaseDomains, apply_ite State.guarded]

theorem execDomainClaim_keeps (c : CmdRef) (s : State) : Out.keeps s (execDomainClaim c s) := by simp [execDomainClaim, apply_ite State.guarded]

theorem execDomainRelease_keeps (c : CmdRef) (s : State) : Out.keeps s (execDomainRelease c s) := by
  simp [execDomainRelease, apply_ite State.guarded]

@[simp] theorem setExpert_guarded (who : Sender) (g : BitVec 16 → BitVec 16) (s : State) : (setExpert who g s).guarded = s.guarded := by
  unfold setExpert
  split <;> simp

theorem execExpertEnable_keeps (c : CmdRef) (s : State) : Out.keeps s (execExpertEnable c s) := by
  refine onCmd_guarded fun m u => ?_
  dsimp only
  split <;> simp

theorem execExpertDisable_keeps (c : CmdRef) (s : State) : Out.keeps s (execExpertDisable c s) := by simp [execExpertDisable]

theorem execExpertPolicy_keeps (c : CmdRef) (s : State) : Out.keeps s (execExpertPolicy c s) := by
  refine onCmd_guarded fun m u => ?_
  dsimp only
  (repeat' split) <;> simp

/-! ### Resets -/

@[simp] theorem withdrawMap_guarded (n map : Nat) (s : State) : (withdrawMap n map s).guarded = s.guarded := by
  simp [withdrawMap, apply_ite State.guarded]

@[simp] theorem withdrawMaps_guarded (n : Nat) (s : State) : (withdrawMaps n s).guarded = s.guarded := by simp [withdrawMaps]
@[simp] theorem dropHostCmds_guarded (n : Nat) (s : State) : (dropHostCmds n s).guarded = s.guarded := by simp [dropHostCmds]
@[simp] theorem dropWork_guarded (n : Nat) (s : State) : (dropWork n s).guarded = s.guarded := by simp [dropWork]
@[simp] theorem dropHoldings_guarded (n : Nat) (s : State) : (dropHoldings n s).guarded = s.guarded := by simp [dropHoldings]

@[simp] theorem resetFunction_guarded (n : Nat) (s : State) : (resetFunction n s).guarded = s.guarded :=
  (State.updFn_guarded ..).trans ((dropHoldings_guarded ..).trans ((dropWork_guarded ..).trans (dropHostCmds_guarded ..)))

@[simp] theorem raiseReset_guarded (detail : Nat) (s : State) : (raiseReset detail s).guarded = s.guarded := by rfl

@[simp] theorem resetFunctions_guarded (l : List Nat) (s : State) : (resetFunctions l s).guarded = s.guarded := by
  simp [resetFunctions, apply_ite State.guarded]

@[simp] theorem functionReset_guarded (fn : Nat) (kind : FunctionResetKind) (s : State) : (functionReset fn kind s).guarded = s.guarded := by
  unfold functionReset
  dsimp only
  split <;> simp

@[simp] theorem perstFunctions_guarded (s : State) : (perstFunctions s).guarded = s.guarded := by simp [perstFunctions]

@[simp] theorem endUpdateCmd_guarded (s : State) : (endUpdateCmd s).guarded = s.guarded := by
  unfold endUpdateCmd
  (repeat' split) <;> simp

@[simp] theorem stopMain_guarded (s : State) : (stopMain s).guarded = s.guarded := endUpdateCmd_guarded s

@[simp] theorem runHeldReset_guarded (k : Nat) (s : State) : (runHeldReset k s).guarded = s.guarded := by
  simp [runHeldReset, apply_ite State.guarded]

@[simp] theorem resetOrHold_guarded (k : Nat) (s : State) : (resetOrHold k s).guarded = s.guarded := by simp [resetOrHold, apply_ite State.guarded]

theorem execFunctionReset_keeps (fn : Nat) (kind : FunctionResetKind) (s : State) : Out.keeps s (execFunctionReset fn kind s) := by
  simp [execFunctionReset]

theorem execPerstAssert_keeps (s : State) : Out.keeps s (execPerstAssert s) := by simp [execPerstAssert, apply_ite State.guarded]

theorem execPerstDeassert_keeps (s : State) : Out.keeps s (execPerstDeassert s) := by
  refine onTrigger_guarded ?_
  dsimp only
  split <;> simp

theorem execPcieConfigRequest_keeps (fn reg : Nat) (write : Option Word) (s : State) : Out.keeps s (execPcieConfigRequest fn reg write s) := by
  refine onTrigger_guarded ?_
  dsimp only
  (repeat' split) <;> simp

/-! ### SPDM and identity -/

@[simp] theorem setSpdm_guarded (via : Carrier) (n : Nat) (s : State) : (setSpdm via n s).guarded = s.guarded := by rfl

@[simp] theorem spdmSend_guarded (via : Carrier) (code p1 p2 : Nat) (rest : List Byte) (s : State) :
    (spdmSend via code p1 p2 rest s).guarded = s.guarded := by
  rfl

@[simp] theorem spdmError_guarded (via : Carrier) (code : Nat) (s : State) : (spdmError via code s).guarded = s.guarded := by rfl

theorem spdmRequest_keeps {via : Carrier} {least : Nat} {s : State} {k : State → State} (h : ∀ u, (k u).guarded = u.guarded) :
    Out.keeps s (spdmRequest via least s k) := by
  refine onTrigger_guarded ?_; split <;> simp [h]

theorem execGetVersion_keeps (via : Carrier) (s : State) : Out.keeps s (execGetVersion via s) :=
  spdmRequest_keeps fun _ => by simp

theorem execGetCapabilities_keeps (via : Carrier) (s : State) : Out.keeps s (execGetCapabilities via s) :=
  spdmRequest_keeps fun _ => by simp

theorem execNegotiateAlgorithms_keeps (via : Carrier) (baseAsym baseHash _measHash measSpec : Word) (s : State) :
    Out.keeps s (execNegotiateAlgorithms via baseAsym baseHash _measHash measSpec s) :=
  spdmRequest_keeps fun _ => by simp [apply_ite State.guarded]

theorem execGetDigests_keeps (via : Carrier) (s : State) : Out.keeps s (execGetDigests via s) :=
  spdmRequest_keeps fun _ => spdmSend_guarded ..

theorem execGetCertificate_keeps (via : Carrier) (slot offset length : Nat) (s : State) :
    Out.keeps s (execGetCertificate via slot offset length s) :=
  spdmRequest_keeps fun _ => by simp [apply_ite State.guarded]

@[simp] theorem freshNonce_guarded (s : State) : (freshNonce s).2.guarded = s.guarded := by rfl

theorem execChallenge_keeps (via : Carrier) (slot : Nat) (nonce : List Byte) (summary : Nat) (s : State) :
    Out.keeps s (execChallenge via slot nonce summary s) :=
  spdmRequest_keeps fun _ => by simp [apply_ite State.guarded]

theorem execGetMeasurements_keeps (via : Carrier) (index : Nat) (signed : Bool) (nonce : List Byte) (s : State) :
    Out.keeps s (execGetMeasurements via index signed nonce s) :=
  spdmRequest_keeps fun _ => by simp [apply_ite State.guarded]

theorem execOwnerKeyTransfer_keeps (c : CmdRef) (s : State) : Out.keeps s (execOwnerKeyTransfer c s) := by
  refine onCmd_guarded fun m u => withSg_guarded fun b => ?_
  simp [apply_ite State.guarded]

/-! ### Firmware -/

@[simp] theorem setStage_guarded (n : Nat) (s : State) : (setStage n s).guarded = s.guarded := by simp [setStage, apply_ite State.guarded]
@[simp] theorem discardStaged_guarded (s : State) : (discardStaged s).guarded = s.guarded := by rfl
theorem execFwStatus_keeps (c : CmdRef) (s : State) : Out.keeps s (execFwStatus c s) := by simp [execFwStatus]

@[simp] theorem takeChunk_guarded (m : Cmd) (b : List Byte) (s : State) : (takeChunk m b s).guarded = s.guarded := by
  unfold takeChunk
  dsimp only
  (repeat' split) <;> simp

theorem execFwStage_keeps (c : CmdRef) (s : State) : Out.keeps s (execFwStage c s) := by
  refine onCmd_guarded fun m u => ?_
  simp [apply_ite State.guarded]

theorem execFwActivate_keeps (c : CmdRef) (s : State) : Out.keeps s (execFwActivate c s) := by
  refine onCmd_guarded fun m u => ?_
  dsimp only
  (repeat' split) <;> simp

@[simp] theorem advanceSwap_guarded (s : State) : (advanceSwap s).guarded = s.guarded := by
  unfold advanceSwap
  (repeat' split) <;> simp

theorem execFwCoreRebootDone_keeps (core : Nat) (s : State) : Out.keeps s (execFwCoreRebootDone core s) := by
  unfold execFwCoreRebootDone
  refine onTrigger_guarded ?_
  dsimp only
  split <;> simp

theorem execFwSwitchPoint_keeps (s : State) : Out.keeps s (execFwSwitchPoint s) := by simp [execFwSwitchPoint]
theorem execFwBandSwap_keeps (band : Nat) (s : State) : Out.keeps s (execFwBandSwap band s) := by simp [execFwBandSwap, apply_ite State.guarded]

theorem execFwUpdateRolledBack_keeps (s : State) : Out.keeps s (execFwUpdateRolledBack s) := by
  refine onTrigger_guarded ?_
  dsimp only
  (repeat' split) <;> simp

@[simp] theorem carryNow_guarded (c : CmdRef) (s : State) : (carryNow c s).guarded = s.guarded := by
  unfold carryNow
  (repeat' split) <;> simp

theorem execRecoveryWriteDone_keeps (ok : Bool) (s : State) : Out.keeps s (execRecoveryWriteDone ok s) := by
  refine onTrigger_guarded ?_
  dsimp only
  (repeat' split) <;> simp

/-! ### Fusion -/

@[simp] theorem dropEntry_guarded (n : Nat) (isOpt : Bool) (key : Nat) (s : State) : (dropEntry n isOpt key s).guarded = s.guarded := by
  unfold dropEntry
  dsimp only
  (repeat' split) <;> simp [apply_ite State.guarded]

@[simp] theorem abandonSet_guarded (n key : Nat) (s : State) : (abandonSet n key s).guarded = s.guarded := by simp [abandonSet]

@[simp] theorem nameSuspect_guarded (n bad good cause tile : Nat) (s : State) : (nameSuspect n bad good cause tile s).guarded = s.guarded := by
  unfold nameSuspect
  dsimp only
  (repeat' split) <;> simp

@[simp] theorem resyncCopy_guarded (n carrier other : Nat) (s : State) : (resyncCopy n carrier other s).guarded = s.guarded := by
  simp [resyncCopy, apply_ite State.guarded]

@[simp] theorem noCarrier_guarded (n : Nat) (isOpt : Bool) (key : Nat) (s : State) : (noCarrier n isOpt key s).guarded = s.guarded := by
  unfold noCarrier
  dsimp only
  (repeat' split) <;> simp

@[simp] theorem noteCovered_guarded (n : Nat) (s : State) : (noteCovered n s).guarded = s.guarded := by
  unfold noteCovered
  dsimp only
  (repeat' split) <;> simp

theorem execPoseCoverDeadline_keeps (ctx frameSet : Nat) (propagated : WindowState) (s : State) :
    Out.keeps s (execPoseCoverDeadline ctx frameSet propagated s) := by
  unfold execPoseCoverDeadline
  (repeat' split) <;> simp

/-! ### Power -/

theorem execPowerCapSet_keeps (c : CmdRef) (s : State) : Out.keeps s (execPowerCapSet c s) := by
  refine onCmd_guarded fun m u => ?_
  dsimp only
  (repeat' split) <;> simp

theorem execEnergyAccountSet_keeps (c : CmdRef) (s : State) : Out.keeps s (execEnergyAccountSet c s) := by
  simp [execEnergyAccountSet, apply_ite State.guarded]

theorem execBallastSet_keeps (c : CmdRef) (s : State) : Out.keeps s (execBallastSet c s) := by
  refine onCmd_guarded fun m u => ?_
  split <;> simp

theorem execWorklevelLoad_keeps (c : CmdRef) (s : State) : Out.keeps s (execWorklevelLoad c s) := by
  simp [execWorklevelLoad, apply_ite State.guarded]

theorem execEnergyStatus_keeps (c : CmdRef) (s : State) : Out.keeps s (execEnergyStatus c s) := by simp [execEnergyStatus]

@[simp] theorem planSession_guarded (n : Nat) (r : IntervalReport) (allot : Nat) (s : State) : (planSession n r allot s).guarded = s.guarded := by
  unfold planSession
  dsimp only
  split <;> simp

@[simp] theorem runPlanner_guarded (r : IntervalReport) (s : State) : (runPlanner r s).guarded = s.guarded := by
  simp [runPlanner, apply_ite State.guarded]

theorem execPlanningIntervalEnd_keeps (r : IntervalReport) (s : State) : Out.keeps s (execPlanningIntervalEnd r s) := by
  simp [execPlanningIntervalEnd, apply_ite State.guarded]

theorem execEnergyHorizonPassed_keeps (s : State) : Out.keeps s (execEnergyHorizonPassed s) := by
  unfold execEnergyHorizonPassed
  split <;> simp

theorem execBridleGrantPeriod_keeps (draws : List (Nat × Nat)) (unmeteredMw : Nat) (s : State) :
    Out.keeps s (execBridleGrantPeriod draws unmeteredMw s) := by
  simp [execBridleGrantPeriod]

@[simp] theorem droop_guarded (mask : BitVec 3) (s : State) : (droop mask s).guarded = s.guarded := by
  unfold droop
  dsimp only
  split <;> simp

theorem execPowerDroop_keeps (mask : BitVec 3) (s : State) : Out.keeps s (execPowerDroop mask s) := by simp [execPowerDroop]
theorem execDroopRecovery_keeps (s : State) : Out.keeps s (execDroopRecovery s) := by simp [execDroopRecovery]

theorem execAutoIdle_keeps (s : State) : Out.keeps s (execAutoIdle s) := by
  unfold execAutoIdle
  split <;> simp

/-! ### Health -/

theorem execHealthStatus_keeps (c : CmdRef) (s : State) : Out.keeps s (execHealthStatus c s) := by simp [execHealthStatus]

theorem execEventRead_keeps (c : CmdRef) (s : State) : Out.keeps s (execEventRead c s) := by
  refine onCmd_guarded fun m u => ?_
  dsimp only
  split <;> simp

/-! ### Power states, safe stop, fault injection -/

@[simp] theorem enterPower_guarded (n : Nat) (s : State) : (enterPower n s).guarded = s.guarded := by simp [enterPower, apply_ite State.guarded]
@[simp] theorem orderOff_guarded (s : State) : (orderOff s).guarded = s.guarded := by simp [orderOff]

theorem execPowerStateSet_keeps (c : CmdRef) (s : State) : Out.keeps s (execPowerStateSet c s) := by
  refine onCmd_guarded fun m u => ?_
  dsimp only
  (repeat' split) <;> simp

@[simp] theorem stopReel_guarded (s : State) : (stopReel s).guarded = s.guarded := by rfl
@[simp] theorem stopSupply_guarded (p : Nat) (s : State) : (stopSupply p s).guarded = s.guarded := by simp [stopSupply, apply_ite State.guarded]

theorem execSafeStopClear_keeps (c : CmdRef) (s : State) : Out.keeps s (execSafeStopClear c s) := by
  simp [execSafeStopClear, apply_ite State.guarded]

@[simp] theorem injectTile_guarded (target t lane : Nat) (persistent : Bool) (s : State) :
    (injectTile target t lane persistent s).guarded = s.guarded := by
  unfold injectTile
  dsimp only
  (repeat' split) <;> simp

@[simp] theorem injectEngine_guarded (kind inst : Nat) (persistent : Bool) (s : State) :
    (injectEngine kind inst persistent s).guarded = s.guarded := by
  simp [injectEngine, apply_ite State.guarded]

theorem execDiagFaultInject_keeps (c : CmdRef) (s : State) : Out.keeps s (execDiagFaultInject c s) := by
  simp [execDiagFaultInject, apply_ite State.guarded]

/-! ### Stages -/

@[simp] theorem State.updSet_guarded (s : State) (n k : Nat) (g : FrameSet → FrameSet) : (s.updSet n k g).guarded = s.guarded := by
  simp [State.updSet]

@[simp] theorem stageDepth_guarded (n k stream : Nat) (resident : Bool) (points : List ProjPoint) (s : State) :
    (stageDepth n k stream resident points s).guarded = s.guarded := by
  unfold stageDepth
  dsimp only
  (repeat' split) <;> simp

@[simp] theorem stageAssociate_guarded (n k stream : Nat) (resident : Bool) (rows : List AssocRow) (limit : Option Nat) (s : State) :
    (stageAssociate n k stream resident rows limit s).guarded = s.guarded := by
  unfold stageAssociate
  dsimp only
  (repeat' split) <;> simp

@[simp] theorem stageLidar_guarded (n port : Nat) (features : List LidarFeature) (s : State) :
    (stageLidar n port features s).guarded = s.guarded := by
  unfold stageLidar
  dsimp only
  (repeat' split) <;> simp

@[simp] theorem stageStart_guarded (n k : Nat) (cands : List (Word × Nat)) (s : State) : (stageStart n k cands s).guarded = s.guarded := by
  unfold stageStart
  dsimp only
  (repeat' split) <;> simp

@[simp] theorem queueChanges_guarded (n map : Nat) (f : FrameSet) (classical : Bool) (l : List PipeChange) (s : State) :
    (queueChanges n map f classical l s).1.guarded = s.guarded := by
  simp [queueChanges]

@[simp] theorem stageTracks_guarded (n k : Nat) (obs : List TrackObs) (joins : List JoinMeasure) (groups : List (Word × List JoinMeasure))
    (seen : List ObjectObs) (s : State) :
    (stageTracks n k obs joins groups seen s).guarded = s.guarded := by
  unfold stageTracks
  dsimp only
  (repeat' split) <;> simp

@[simp] theorem stageRefine_guarded (n port index posUm rotUrad : Nat) (beyond : Bool) (position rotation : List Word) (s : State) :
    (stageRefine n port index posUm rotUrad beyond position rotation s).guarded = s.guarded := by
  unfold stageRefine
  dsimp only
  (repeat' split) <;> simp

@[simp] theorem stageWheel_guarded (n port index chi2 : Nat) (s : State) : (stageWheel n port index chi2 s).guarded = s.guarded := by
  unfold stageWheel
  dsimp only
  (repeat' split) <;> simp

@[simp] theorem stageHint_guarded (n stream point : Nat) (du dv : BitVec 16) (hint : Byte) (s : State) :
    (stageHint n stream point du dv hint s).guarded = s.guarded := by
  simp [stageHint, apply_ite State.guarded]

@[simp] theorem stageRelease_guarded (n k : Nat) (s : State) : (stageRelease n k s).guarded = s.guarded := by simp [stageRelease]

@[simp] theorem stageSweep_guarded (n port : Nat) (s : State) : (stageSweep n port s).guarded = s.guarded := by
  simp [stageSweep, apply_ite State.guarded]

@[simp] theorem placeEntry_guarded (bn n : Nat) (e : CompareBuf) (s : State) : (placeEntry bn n e s).guarded = s.guarded := by simp [placeEntry]

@[simp] theorem stagePlace_guarded (bn n : Nat) (e : StageEvent) (s : State) : (stagePlace bn n e s).guarded = s.guarded := by
  unfold stagePlace
  (repeat' split) <;> simp

/-! ### Startup -/

@[simp] theorem startClocks_guarded (ok : Bool) (s : State) : (startClocks ok s).guarded = s.guarded := by
  simp [startClocks, apply_ite State.guarded]

@[simp] theorem startStore_guarded (bad : List Nat) (s : State) : (startStore bad s).guarded = s.guarded := by rfl
@[simp] theorem failTile_guarded (t : Nat) (s : State) : (failTile t s).guarded = s.guarded := by simp [failTile, apply_ite State.guarded]
@[simp] theorem failLane_guarded (t lane : Nat) (s : State) : (failLane t lane s).guarded = s.guarded := by simp [failLane, apply_ite State.guarded]
@[simp] theorem assignHalf_guarded (first : Nat) (s : State) : (assignHalf first s).guarded = s.guarded := by simp [assignHalf]

@[simp] theorem startTiles_guarded (lanes : List (Nat × Nat)) (fails : List Nat) (s : State) : (startTiles lanes fails s).guarded = s.guarded := by
  unfold startTiles
  dsimp only
  have hif : ∀ {p : Prop} [Decidable p] (u : State), (if p then u.raise 0x8C09 2 else u).guarded = u.guarded := by
    intro p _ u
    split <;> simp
  refine (hif _).trans ((assignHalf_guarded ..).trans ((assignHalf_guarded ..).trans ?_))
  simp [apply_ite State.guarded]

@[simp] theorem startEngines_guarded (fails : List (Nat × Nat)) (s : State) : (startEngines fails s).guarded = s.guarded := by
  simp [startEngines, apply_ite State.guarded]

@[simp] theorem startFailed_guarded (cause field : Nat) (s : State) : (startFailed cause field s).guarded = s.guarded := by rfl
@[simp] theorem startPower_guarded (s : State) : (startPower s).guarded = s.guarded := by rfl

@[simp] theorem startRest_guarded (r : StartReport) (s : State) : (startRest r s).guarded = s.guarded := by
  unfold startRest
  dsimp only
  (repeat' split) <;> simp

theorem execStartupDone_keeps (s : State) : Out.keeps s (execStartupDone s) := by simp [execStartupDone]

theorem execVauxApplied_keeps (s : State) : Out.keeps s (execVauxApplied s) := by
  refine onTrigger_guarded ?_
  dsimp only
  split
  · exact (State.raise_guarded ..).trans (pollReversed_guarded _)
  · exact pollReversed_guarded _

theorem execVauxLow_keeps (s : State) : Out.keeps s (execVauxLow s) := by simp [execVauxLow]

theorem execMainSupplyOutOfRange_keeps (high : Bool) (s : State) : Out.keeps s (execMainSupplyOutOfRange high s) := by
  refine onTrigger_guarded ?_
  dsimp only
  (repeat' split) <;> simp

theorem execMainSupplyReturn_keeps (s : State) : Out.keeps s (execMainSupplyReturn s) := by simp [execMainSupplyReturn]
theorem execMainSupplyDropout_keeps (s : State) : Out.keeps s (execMainSupplyDropout s) := by simp [execMainSupplyDropout]

@[simp] theorem thermalEffect_guarded (sensor cause : Nat) (s : State) : (thermalEffect sensor cause s).guarded = s.guarded := by
  unfold thermalEffect
  (repeat' split) <;> simp

theorem execThermalWarning_keeps (sensor : Byte) (cause : Nat) (s : State) : Out.keeps s (execThermalWarning sensor cause s) := by
  simp [execThermalWarning]

theorem execThermalShutdown_keeps (sensor : Byte) (temperature : Byte) (s : State) : Out.keeps s (execThermalShutdown sensor temperature s) := by
  simp [execThermalShutdown, apply_ite State.guarded]

/-! ### What writes host memory or raises the fused SVN -/

/-- A step that keeps them, before or after one that leaves them as they are. -/
theorem Keeps.andThen {s t u : State} (h : Keeps s t) (e : u.guarded = t.guarded) : Keeps s u := h.trans (.of_guarded e)
theorem Keeps.after {s t u : State} (e : t.guarded = s.guarded) (h : Keeps t u) : Keeps s u := (Keeps.of_guarded e).trans h

theorem Keeps.ite {s t u : State} {p : Prop} [Decidable p] (h : Keeps s t) (k : Keeps s u) : Keeps s (if p then t else u) := by
  split
  · exact h
  · exact k

theorem Keeps.ringWrite (s : State) (n k : Nat) (bytes : List Byte) : Keeps s (s.ringWrite n k bytes) := by
  unfold State.ringWrite
  split
  · exact .refl s
  · exact (((Keeps.refl s).ite (.hostWrite ..)).trans ((Keeps.hostWrite ..).trans (.hostWrite ..))).trans (.updSession ..)

theorem Keeps.record (s : State) (n k : Nat) (h : RecHead) (body : List Byte) : Keeps s (s.record n k h body) := by
  unfold State.record
  split
  · exact .refl s
  · refine Keeps.after (t := if _ then _ else _) ?_ (.ite ((Keeps.ringWrite ..).andThen (State.noteLatency_guarded ..)) (.of_guarded (by simp)))
    simp [apply_ite State.guarded]

theorem Keeps.flushHeld (s : State) : Keeps s s.flushHeld := by
  refine Keeps.after (t := { s with held := [] }) rfl (.forEach _ _ (fun h u => ?_) _)
  exact (Keeps.ringWrite ..).andThen (State.noteLatency_guarded ..)

theorem Keeps.withMap {m : Cmd} {s : State} {id word : Nat} {own : Bool} {k : MapS → State} (h : ∀ x, Keeps s (k x)) :
    Keeps s (withMap m s id word own k) := by
  unfold Sys2Proof.Machine.withMap
  split
  · exact .badWord ..
  · exact .ite (.badWord ..) (.ite (.refuseOpen ..) (h _))

theorem Keeps.withObj {m : Cmd} {s : State} {own lost : Bool} {k : Nat → ObjS → State} (h : ∀ i o, Keeps s (k i o)) :
    Keeps s (withObj m s own lost k) := by
  unfold Sys2Proof.Machine.withObj
  split
  · exact .badWord ..
  · exact .ite (.refuseOpen ..) (.ite (.refuseOpen ..) (h _ _))

theorem execAgeingRead_keeps (c : CmdRef) (s : State) : Out.keeps s (execAgeingRead c s) :=
  onCmd_keeps _ _ _ _ fun _ u => .doneOut u ..

theorem execIdentityRead_keeps (c : CmdRef) (s : State) : Out.keeps s (execIdentityRead c s) :=
  onCmd_keeps _ _ _ _ fun _ u => .ite (.badWord ..) (.doneOut u ..)

theorem Keeps.endGraph (s : State) (slot : Nat) (c : CmdRef) (g : List QNode) : Keeps s (s.endGraph slot c g) := by
  unfold State.endGraph
  dsimp only
  split
  · exact Keeps.after (by simp) (.doneOut ..)
  · exact .of_guarded (by simp)

theorem execQuadrilleNode_keeps (node : Nat) (output : List Byte) (checkFails : Bool) (s : State) :
    Out.keeps s (execQuadrilleNode node output checkFails s) := by
  unfold execQuadrilleNode
  split
  · exact ⟨s, rfl, .refl s⟩
  · refine onTrigger_keeps _ _ _ (.ite (.of_guarded ?_) (Keeps.after ?_ (.endGraph ..))) <;> simp [apply_ite State.guarded]

theorem execObjRead_keeps (c : CmdRef) (s : State) : Out.keeps s (execObjRead c s) :=
  onCmd_keeps _ _ _ _ fun _ _ => .withObj fun _ _ => .ite (.badWord ..) (.ite (.refuseOpen ..) (.doneOut ..))

theorem Keeps.loopEvent (s : State) (map n : Nat) (kfQuery kfMatch gen : Word) (v : LoopVerdict) :
    Keeps s (s.loopEvent map n kfQuery kfMatch gen v) := .record ..

theorem Keeps.endItems (s : State) (m : Cmd) (g : Word) : Keeps s (s.endItems m g) :=
  .ite (.done ..) ((Keeps.sgOut ..).trans (.done ..))

theorem Keeps.makeCurrent (s : State) (map : Nat) (a : CommitS) (outs : List ItemOut) : Keeps s (s.makeCurrent map a outs) := by
  refine (Keeps.after ?_ (.forEach _ _ (fun c u => ?_) _)).andThen (State.trimPool_guarded ..)
  · simp [apply_ite State.guarded]
  · split
    · exact .endItems ..
    · exact .refl u

theorem Keeps.commitBatch (s : State) (map : Nat) (batch : List QueuedChange) : Keeps s (s.commitBatch map batch) := by
  refine Keeps.after ?_ ((Keeps.makeCurrent ..).trans (.forEach _ _ (fun q u => ?_) _))
  · simp [apply_ite State.guarded]
  · dsimp only
    split
    · exact .loopEvent ..
    · exact .refl u

theorem Keeps.commitMerge (s : State) (map : Nat) (c : CmdRef) (source : Nat) (g : Word) (t : List Word) (pairs : List Edge) :
    Keeps s (s.commitMerge map c source g t pairs) := by
  refine .ite (.of_guarded (by simp [apply_ite State.guarded])) ?_
  split
  · exact (Keeps.after (by simp [apply_ite State.guarded]) (.makeCurrent ..)).trans (.doneOut ..)
  · exact Keeps.after (by simp [apply_ite State.guarded]) (.makeCurrent ..)

theorem execMapCommit_keeps (map : Nat) (s : State) : Out.keeps s (execMapCommit map s) := by
  unfold execMapCommit
  refine onTrigger_keeps _ _ _ ?_
  dsimp only
  split
  · exact Keeps.after (State.updMap_guarded ..) (.commitBatch ..)
  split
  · split
    · refine (Keeps.after ?_ (.commitMerge ..)).andThen (State.reapMaps_guarded _)
      simp
    · exact .of_guarded (by simp)
  · exact .refl s

theorem execMapDeltaWrite_keeps (n : Nat) (s : State) : Out.keeps s (execMapDeltaWrite n s) := by
  unfold execMapDeltaWrite
  split
  · exact ⟨s, rfl, .refl s⟩
  · exact onTrigger_keeps _ _ _ 
      (((Keeps.forEach _ _ (fun _ u => .record u ..) _).trans (.updSession ..)).trans (.updMap ..))

theorem Keeps.endQuery (s : State) (k : Nat) (q : QueryS) : Keeps s (s.endQuery k q) := by
  unfold State.endQuery
  dsimp only
  split
  · split
    · refine Keeps.after ?_ ((Keeps.sgOut ..).trans (.done ..))
      simp
    · exact .of_guarded (by simp)
  · exact .of_guarded (by simp)

theorem execSearchPassEnd_keeps (query : Nat) (s : State) : Out.keeps s (execSearchPassEnd query s) := by
  unfold execSearchPassEnd
  split
  · exact ⟨s, rfl, .refl s⟩
  · refine onTrigger_keeps _ _ _ (.ite (.of_guarded ?_) (.ite (.of_guarded (by simp)) (.endQuery ..)))
    dsimp only
    split <;> simp

theorem execMapQuery_keeps (c : CmdRef) (s : State) : Out.keeps s (execMapQuery c s) :=
  onCmd_keeps _ _ _ _ fun _ _ => .withMap fun _ => .ite (.badWord ..) (Keeps.after (State.updMap_guarded ..) (.doneOut ..))

theorem execMapEdit_keeps (c : CmdRef) (s : State) : Out.keeps s (execMapEdit c s) := by
  refine onCmd_keeps _ _ _ _ fun m u => .withMap fun x => .ite (.badWord ..) (.withSg _ _ _ _ fun b => .ite ?_ (.of_guarded (by simp)))
  split
  · exact Keeps.after (by simp) (.endItems ..)
  · exact .of_guarded (by simp)

theorem execMapExport_keeps (c : CmdRef) (s : State) : Out.keeps s (execMapExport c s) :=
  onCmd_keeps _ _ _ _ fun _ _ => .withMap fun _ => .ite (.refuse ..) (.doneOut ..)

theorem execHostLinkUp_keeps (s : State) : Out.keeps s (execHostLinkUp s) :=
  onTrigger_keeps _ _ _ ((Keeps.after (t := { s.mapLife fun l => { l with linkUp := true } with linkDownTick := none })
    (by simp) (.flushHeld _)).andThen (by simp))

theorem Keeps.writeFast (s : State) (n key : Nat) (pose : PoseFast) (single degraded : Bool) : Keeps s (writeFast n key pose single degraded s) := by
  unfold Sys2Proof.Machine.writeFast
  split
  · exact .refl s
  · split
    · exact .of_guarded (by simp)
    · exact .ite (.of_guarded (by simp)) (((Keeps.record ..).trans (.updSession ..)).andThen (dropEntry_guarded ..))

theorem Keeps.writeOpt (s : State) (n key : Nat) (single : Bool) : Keeps s (writeOpt n key single s) := by
  unfold Sys2Proof.Machine.writeOpt
  split
  · exact .refl s
  · split
    · exact .of_guarded (by simp)
    · exact .ite (.of_guarded (by simp)) 
        ((((Keeps.record ..).trans (.updSession ..)).andThen (dropEntry_guarded ..)).andThen (settleStop_guarded ..))

theorem Keeps.writeEntry (s : State) (n : Nat) (e : CompareBuf) (single : Bool) : Keeps s (writeEntry n e single s) :=
  .ite (.writeOpt ..) (.writeFast ..)

theorem Keeps.carry (s : State) (n band other : Nat) (e : CompareBuf) (late : Bool) : Keeps s (carry n band other e late s) := by
  refine (Keeps.writeEntry s n e true).andThen ?_
  unfold Sys2Proof.Machine.carry
  dsimp only
  split <;> simp [apply_ite State.guarded]

theorem Keeps.compareBufs (s : State) (n : Nat) (p : PairS) (a b : CompareBuf) (refNearerSecond : Bool) :
    Keeps s (compareBufs n p a b refNearerSecond s) := by
  unfold Sys2Proof.Machine.compareBufs
  split
  · exact (Keeps.writeEntry s n a false).andThen (by simp [apply_ite State.guarded])
  · split
    · exact (Keeps.writeEntry ..).andThen (nameSuspect_guarded ..)
    · exact .of_guarded (by simp)

theorem execPairCommit_keeps (ctx : Nat) (refNearerSecond : Bool) (s : State) : Out.keeps s (execPairCommit ctx refNearerSecond s) := by
  unfold execPairCommit
  split
  · exact ⟨s, rfl, .refl s⟩
  · refine onTrigger_keeps _ _ _ ?_
    split
    · exact .ite (.compareBufs ..) (.refl s)
    · exact .ite (.carry ..) (.refl s)
    · exact .ite (.carry ..) (.refl s)
    · exact .refl s

theorem execCarrierDeadline_keeps (ctx : Nat) (s : State) : Out.keeps s (execCarrierDeadline ctx s) := by
  unfold execCarrierDeadline
  split
  · split
    · exact ⟨s, rfl, .refl s⟩
    · refine onTrigger_keeps _ _ _ ?_
      dsimp only
      split
      · exact .refl s
      · exact .carry ..
      · exact .carry ..
      · exact .ite (.refl s) (.of_guarded (by simp))
  · exact ⟨s, rfl, .refl s⟩

theorem execDegradedRecord_keeps (ctx : Nat) (pose : PoseFast) (s : State) : Out.keeps s (execDegradedRecord ctx pose s) := by
  unfold execDegradedRecord
  split
  · split
    · exact onTrigger_keeps _ _ _ (.writeFast ..)
    · exact ⟨s, rfl, .refl s⟩
  · exact ⟨s, rfl, .refl s⟩

theorem Keeps.healthRecord (s : State) (n code detail : Nat) (fin : Int) : Keeps s (healthRecord n code detail fin s) :=
  .ite (.refl s) (.ite ((Keeps.record ..).trans (.updSession ..)) (((Keeps.record ..).trans (.updSession ..)).trans (.msix ..)))

theorem execHealthPeriod_keeps (ctx : Nat) (s : State) : Out.keeps s (execHealthPeriod ctx s) := by
  unfold execHealthPeriod
  split
  · exact ⟨s, rfl, .refl s⟩
  · exact onTrigger_keeps _ _ _ ((Keeps.healthRecord ..).trans (.updSession ..))

theorem Keeps.reportEvent (s : State) (e : Event) : Keeps s (reportEvent e s) :=
  .forEach _ _ (fun _ u => .ite (.healthRecord ..) (.refl u)) s

theorem execEventHealthRecord_keeps (s : State) : Out.keeps s (execEventHealthRecord s) := by
  unfold execEventHealthRecord
  split
  · exact ⟨s, rfl, .refl s⟩
  next e rest _ => exact ⟨_, rfl, Keeps.after (t := { s with events := rest }) rfl (.reportEvent ..)⟩

theorem Keeps.stopSession (s : State) (detail n : Nat) : Keeps s (stopSession detail n s) :=
  .ite (.refl s) (((Keeps.healthRecord ..).trans (.updSession ..)).andThen (settleStop_guarded ..))

theorem Keeps.safeStopActions (s : State) (detail : Nat) : Keeps s (safeStopActions detail s) := by
  have hsessions : Keeps s (Machine.forEach s.sessionCtxs (Machine.stopSession detail) (stopReel s)) :=
    Keeps.after (stopReel_guarded s) (.forEach _ _ (fun n u => .stopSession u detail n) _)
  exact hsessions.andThen (by simp [Machine.safeStopActions])

theorem execSafeStop_keeps (c : CmdRef) (s : State) : Out.keeps s (execSafeStop c s) := by
  refine onCmd_keeps _ _ _ _ fun m u => .ite (.of_guarded (by simp [apply_ite State.guarded])) ?_
  refine ((Keeps.after ?_ (.ite (.safeStopActions ..) (.refl _))).trans (.raise ..)).trans (.done ..)
  simp [apply_ite State.guarded]

theorem Keeps.stagePublish (s : State) (n k : Nat) (w : WindowState) (kf : KeyframeMeasure) (changes : List PipeChange) (embedded : Bool) :
    Keeps s (stagePublish n k w kf changes embedded s) := by
  unfold Sys2Proof.Machine.stagePublish
  split
  · exact .refl s
  · split
    · exact .refl s
    · refine .ite (.of_guarded (by simp)) (Keeps.after ?_ (.record ..))
      simp [apply_ite State.guarded, apply_ite Prod.fst]

theorem Keeps.runStage (s : State) (bn n : Nat) (e : StageEvent) : Keeps s (runStage bn n e s) := by
  refine .ite (.of_guarded (by simp)) (.ite (.refl s) ?_)
  split
  case h_3 => exact .stagePublish ..
  all_goals exact .of_guarded (by simp)

theorem Keeps.stageStep (s : State) (bn : Nat) (io : StepIO) : Keeps s (stageStep bn io s) := by
  refine .ite (.of_guarded (by simp)) (.ite (.of_guarded (by simp)) ?_)
  split
  · exact Keeps.after (by simp) (.runStage ..)
  · exact .of_guarded (by simp)

theorem execBandStep_keeps (band : Nat) (io : StepIO) (s : State) : Out.keeps s (execBandStep band io s) :=
  onTrigger_keeps _ _ _ (.ite (.of_guarded (State.columnStep_guarded ..)) (.stageStep ..))

theorem Keeps.startCores (s : State) (votes : List Bool) : Keeps s (startCores votes s) := by
  unfold Machine.startCores
  refine Keeps.after (forEach_guarded fun i u => ?_) (.mapSec _ _ ?_)
  · simp
  split
  · exact le_rfl
  · exact le_max_left ..

theorem Keeps.startMain (s : State) (r : StartReport) : Keeps s (startMain r s) := by
  refine .ite (.of_guarded (by simp)) (.ite (Keeps.after ?_ ((Keeps.startCores ..).andThen (startRest_guarded ..))) (.of_guarded (by simp)))
  simp

theorem execMainSideStart_keeps (r : StartReport) (s : State) : Out.keeps s (execMainSideStart r s) :=
  onTrigger_keeps _ _ _ (.startMain ..)

theorem execFwFlashVerified_keeps (s : State) : Out.keeps s (execFwFlashVerified s) := by
  refine onTrigger_keeps _ _ _ ?_
  dsimp only
  split
  · refine (((((Keeps.mapSec s _ ?_).andThen (discardStaged_guarded _)).trans (.done ..)).andThen (setStage_guarded ..)).trans (.raise ..)).andThen
      (forEach_guarded fun _ _ => runHeldReset_guarded ..)
    exact le_max_left ..
  · refine ((((Keeps.mapSec s _ ?_).andThen (discardStaged_guarded _)).andThen (setStage_guarded ..)).trans (.raise ..)).andThen
      (forEach_guarded fun _ _ => runHeldReset_guarded ..)
    exact le_max_left ..

/-- An arming inside BAR0 places the host's bytes and nothing else of host memory. -/
theorem execSlotArm_keeps {fn slot : Nat} (word0 : Word) (placed : List (Nat × Byte)) (s : State) (h : ¬ (8 ≤ fn ∨ 32 ≤ slot)) :
    Out.keeps s (execSlotArm fn slot word0 placed s) := by
  have hplace : Keeps s { s with hostMem := placed.foldl (fun m e => Tab.write 0 m e.1 e.2) s.hostMem } :=
    ⟨rfl, canonical_place placed s.hostMem, le_rfl⟩
  rw [execSlotArm, if_neg h]
  dsimp only
  split
  · exact ⟨_, rfl, hplace.andThen (armSlot_guarded ..)⟩
  · exact ⟨_, rfl, hplace⟩
theorem execSlotWriteLost_keeps {fn slot index : Nat} (value : Word) (s : State) (h : ¬ (8 ≤ fn ∨ 32 ≤ slot ∨ 128 ≤ index)) :
    Out.keeps s (execSlotWriteLost fn slot index value s) := by
  rw [execSlotWriteLost, if_neg h]
  exact onTrigger_guarded (writeSlotWord_guarded ..)

theorem execRegisterWrite_keeps {fn offset : Nat} (value : Word) (s : State) (h : ¬ (8 ≤ fn ∨ 0x8000 ≤ offset)) :
    Out.keeps s (execRegisterWrite fn offset value s) := by
  rw [execRegisterWrite, if_neg h]
  exact onTrigger_guarded (writeReg_guarded ..)

/-! ### Every command -/

/-- A host access that names nothing of BAR0 (Table 15-1, R46). -/
def outsideBar0 : Instr → Prop
  | .slotArm fn slot _ _ => 8 ≤ fn ∨ 32 ≤ slot
  | .slotWriteLost fn slot index _ => 8 ≤ fn ∨ 32 ≤ slot ∨ 128 ≤ index
  | .registerWrite fn offset _ => 8 ≤ fn ∨ 0x8000 ≤ offset
  | _ => False

theorem exec_keeps (i : Instr) (s : State) (h : ¬ outsideBar0 i) : Out.keeps s (exec i s) := by
  cases i with
  | hello c => exact execHello_keeps c s
  | queryCaps c => exact execQueryCaps_keeps c s
  | abort c => exact execAbort_keeps c s
  | domainClaim c => exact execDomainClaim_keeps c s
  | domainRelease c => exact execDomainRelease_keeps c s
  | expertEnable c => exact execExpertEnable_keeps c s
  | expertDisable c => exact execExpertDisable_keeps c s
  | expertPolicy c => exact execExpertPolicy_keeps c s
  | startSession c => exact execStartSession_keeps c s
  | stopSession c => exact execStopSession_keeps c s
  | setStageMode c => exact execSetStageMode_keeps c s
  | sessionStatus c => exact execSessionStatus_keeps c s
  | portClaim c => exact execPortClaim_keeps c s
  | portRelease c => exact execPortRelease_keeps c s
  | portConfig c => exact execPortConfig_keeps c s
  | portStatus c => exact execPortStatus_keeps c s
  | portTiming c => exact execPortTiming_keeps c s
  | camI2cXfer c acked dataIn => exact execCamI2cXfer_keeps c acked dataIn s
  | formatWrite c => exact execFormatWrite_keeps c s
  | triggerClaim c => exact execTriggerClaim_keeps c s
  | timeGet c => exact execTimeGet_keeps c s
  | timeSet c => exact execTimeSet_keeps c s
  | timeAdjust c => exact execTimeAdjust_keeps c s
  | timeSetIncrement c => exact execTimeSetIncrement_keeps c s
  | clockReset c => exact execClockReset_keeps c s
  | ptpConfig c => exact execPtpConfig_keeps c s
  | reelWrite c => exact execReelWrite_keeps c s
  | reelArm c => exact execReelArm_keeps c s
  | reelDisarm c => exact execReelDisarm_keeps c s
  | reelRead c => exact execReelRead_keeps c s
  | filterBind c => exact execFilterBind_keeps c s
  | filterPreset c => exact execFilterPreset_keeps c s
  | filterLoad c => exact execFilterLoad_keeps c s
  | filterSwap c => exact execFilterSwap_keeps c s
  | filterThreshold c => exact execFilterThreshold_keeps c s
  | filterRead c => exact execFilterRead_keeps c s
  | remapLoad c => exact execRemapLoad_keeps c s
  | stereoConfig c => exact execStereoConfig_keeps c s
  | chainConfig c => exact execChainConfig_keeps c s
  | featureConfig c => exact execFeatureConfig_keeps c s
  | descPatternLoad c => exact execDescPatternLoad_keeps c s
  | quadrilleLoad c => exact execQuadrilleLoad_keeps c s
  | quadrilleRun c => exact execQuadrilleRun_keeps c s
  | visionRead c => exact execVisionRead_keeps c s
  | rigWrite c => exact execRigWrite_keeps c s
  | rigRead c => exact execRigRead_keeps c s
  | fusionConfig c => exact execFusionConfig_keeps c s
  | calibRead c => exact execCalibRead_keeps c s
  | calibCommit c => exact execCalibCommit_keeps c s
  | mapCreate c => exact execMapCreate_keeps c s
  | mapDestroy c => exact execMapDestroy_keeps c s
  | mapQuery c => exact execMapQuery_keeps c s
  | mapEdit c => exact execMapEdit_keeps c s
  | mapLend c => exact execMapLend_keeps c s
  | mapRecall c => exact execMapRecall_keeps c s
  | mapMerge c => exact execMapMerge_keeps c s
  | mapExport c => exact execMapExport_keeps c s
  | mapImport c => exact execMapImport_keeps c s
  | indexCreate c => exact execIndexCreate_keeps c s
  | indexDestroy c => exact execIndexDestroy_keeps c s
  | searchInsert c => exact execSearchInsert_keeps c s
  | searchQuery c => exact execSearchQuery_keeps c s
  | contextAdmit c => exact execContextAdmit_keeps c s
  | contextRelease c => exact execContextRelease_keeps c s
  | contextStatus c => exact execContextStatus_keeps c s
  | hostWindowSet c => exact execHostWindowSet_keeps c s
  | objCreate c => exact execObjCreate_keeps c s
  | objDestroy c => exact execObjDestroy_keeps c s
  | objWrite c => exact execObjWrite_keeps c s
  | objRead c => exact execObjRead_keeps c s
  | objSeal c => exact execObjSeal_keeps c s
  | objShare c => exact execObjShare_keeps c s
  | objUnshare c => exact execObjUnshare_keeps c s
  | objMove c => exact execObjMove_keeps c s
  | objPromote c => exact execObjPromote_keeps c s
  | objEvict c => exact execObjEvict_keeps c s
  | objPin c => exact execObjPin_keeps c s
  | objUnpin c => exact execObjUnpin_keeps c s
  | windowBind c => exact execWindowBind_keeps c s
  | streamBind c => exact execStreamBind_keeps c s
  | objQuery c => exact execObjQuery_keeps c s
  | objReload c => exact execObjReload_keeps c s
  | powerCapSet c => exact execPowerCapSet_keeps c s
  | energyAccountSet c => exact execEnergyAccountSet_keeps c s
  | ballastSet c => exact execBallastSet_keeps c s
  | worklevelLoad c => exact execWorklevelLoad_keeps c s
  | vfCurveLoad c => exact execVfCurveLoad_keeps c s
  | powerStateSet c => exact execPowerStateSet_keeps c s
  | energyStatus c => exact execEnergyStatus_keeps c s
  | safeStop c => exact execSafeStop_keeps c s
  | safeStopClear c => exact execSafeStopClear_keeps c s
  | healthStatus c => exact execHealthStatus_keeps c s
  | marginReplan c => exact execMarginReplan_keeps c s
  | ageingRead c => exact execAgeingRead_keeps c s
  | eventRead c => exact execEventRead_keeps c s
  | identityRead c => exact execIdentityRead_keeps c s
  | fwStatus c => exact execFwStatus_keeps c s
  | fwStage c => exact execFwStage_keeps c s
  | fwActivate c => exact execFwActivate_keeps c s
  | ownerKeyTransfer c => exact execOwnerKeyTransfer_keeps c s
  | diagTileStatus c => exact execDiagTileStatus_keeps c s
  | diagBandStatus c => exact execDiagBandStatus_keeps c s
  | diagCounters c => exact execDiagCounters_keeps c s
  | diagFaultInject c => exact execDiagFaultInject_keeps c s
  | slotArm fn slot word0 placed => exact execSlotArm_keeps word0 placed s h
  | slotWriteLost fn slot index value => exact execSlotWriteLost_keeps value s h
  | registerWrite fn offset value => exact execRegisterWrite_keeps value s h
  | commandStart who => exact execCommandStart_keeps who s
  | commandReply c => exact execCommandReply_keeps c s
  | mctpMessageReceived eid peer address khz packets => exact execMctpMessageReceived_keeps eid peer address khz packets s
  | setEndpointId force eid => exact execSetEndpointId_keeps force eid s
  | getEndpointId src => exact execGetEndpointId_keeps src s
  | getMctpVersionSupport src msgType => exact execGetMctpVersionSupport_keeps src msgType s
  | getMessageTypeSupport src => exact execGetMessageTypeSupport_keeps src s
  | getVendorDefinedMessageSupport src selector => exact execGetVendorDefinedMessageSupport_keeps src selector s
  | getVersion via => exact execGetVersion_keeps via s
  | getCapabilities via => exact execGetCapabilities_keeps via s
  | negotiateAlgorithms via baseAsym baseHash measHash measSpec => exact execNegotiateAlgorithms_keeps via baseAsym baseHash measHash measSpec s
  | getDigests via => exact execGetDigests_keeps via s
  | getCertificate via slot offset length => exact execGetCertificate_keeps via slot offset length s
  | challenge via slot nonce summary => exact execChallenge_keeps via slot nonce summary s
  | getMeasurements via index signed nonce => exact execGetMeasurements_keeps via index signed nonce s
  | pcieConfigRequest fn reg write => exact execPcieConfigRequest_keeps fn reg write s
  | perstAssert => exact execPerstAssert_keeps s
  | perstDeassert => exact execPerstDeassert_keeps s
  | functionReset fn kind => exact execFunctionReset_keeps fn kind s
  | vauxApplied => exact execVauxApplied_keeps s
  | vauxLow => exact execVauxLow_keeps s
  | mainSideStart r => exact execMainSideStart_keeps r s
  | startupDone => exact execStartupDone_keeps s
  | mainSupplyOutOfRange high => exact execMainSupplyOutOfRange_keeps high s
  | mainSupplyReturn => exact execMainSupplyReturn_keeps s
  | mainSupplyDropout => exact execMainSupplyDropout_keeps s
  | inputReversed input => exact execInputReversed_keeps input s
  | supplyFlagPoll => exact execSupplyFlagPoll_keeps s
  | vsensOutOfRange high => exact execVsensOutOfRange_keeps high s
  | vsensBackInRange => exact execVsensBackInRange_keeps s
  | supplyOvercurrent port => exact execSupplyOvercurrent_keeps port s
  | supplyShort port => exact execSupplyShort_keeps port s
  | supplyOpenLoad port => exact execSupplyOpenLoad_keeps port s
  | supplyBackFeed port => exact execSupplyBackFeed_keeps port s
  | tripCountClear port => exact execTripCountClear_keeps port s
  | outputCompare output pin => exact execOutputCompare_keeps output pin s
  | outputRestoreTry output pin => exact execOutputRestoreTry_keeps output pin s
  | lineHeldLow line => exact execLineHeldLow_keeps line s
  | dphyLineStuck port pin => exact execDphyLineStuck_keeps port pin s
  | encoderLineOpen port pin => exact execEncoderLineOpen_keeps port pin s
  | canLineOpen port pin => exact execCanLineOpen_keeps port pin s
  | canPairSwapped port => exact execCanPairSwapped_keeps port s
  | thermalWarning sensor cause => exact execThermalWarning_keeps sensor cause s
  | thermalShutdown sensor temperature => exact execThermalShutdown_keeps sensor temperature s
  | timebaseTick => exact execTimebaseTick_keeps s
  | imu0Sample raw delivered => exact execImu0Sample_keeps raw delivered s
  | ppsInEdge => exact execPpsInEdge_keeps s
  | ppsOutRise => exact execPpsOutRise_keeps s
  | ppsOutFall => exact execPpsOutFall_keeps s
  | reelPulseRise entry => exact execReelPulseRise_keeps entry s
  | reelPulseFall entry => exact execReelPulseFall_keeps entry s
  | ptpSyncReceived port gm clockClass offset udp => exact execPtpSyncReceived_keeps port gm clockClass offset udp s
  | ptpMessageReceived port kind udp => exact execPtpMessageReceived_keeps port kind udp s
  | ptpMessageSent port kind udp => exact execPtpMessageSent_keeps port kind udp s
  | syncTimeout => exact execSyncTimeout_keeps s
  | arpIcmpRequest port icmp target => exact execArpIcmpRequest_keeps port icmp target s
  | clockSourceLost source => exact execClockSourceLost_keeps source s
  | clockSourceStable source => exact execClockSourceStable_keeps source s
  | clockSourceReturn island => exact execClockSourceReturn_keeps island s
  | pllLockLost island => exact execPllLockLost_keeps island s
  | islandResume island => exact execIslandResume_keeps island s
  | voltageTransition island => exact execVoltageTransition_keeps island s
  | sensorDetected port => exact execSensorDetected_keeps port s
  | detectTimeout port => exact execDetectTimeout_keeps port s
  | retryPeriod port => exact execRetryPeriod_keeps port s
  | trainingDone port lp10 sync47 offset => exact execTrainingDone_keeps port lp10 sync47 offset s
  | trainingTimeout port => exact execTrainingTimeout_keeps port s
  | portStall port => exact execPortStall_keeps port s
  | frameStart port vc headerErrors => exact execFrameStart_keeps port vc headerErrors s
  | stripLanded stream lines headerErrors => exact execStripLanded_keeps stream lines headerErrors s
  | frameEnd stream lines embedded headerErrors bad => exact execFrameEnd_keeps stream lines embedded headerErrors bad s
  | closeDeadline ctx => exact execCloseDeadline_keeps ctx s
  | lidarPacket port source udpPort tags payload => exact execLidarPacket_keeps port source udpPort tags payload s
  | lidarSweepTimeout port => exact execLidarSweepTimeout_keeps port s
  | imuBurst port ok burst => exact execImuBurst_keeps port ok burst s
  | canFrame port id brs error payload => exact execCanFrame_keeps port id brs error payload s
  | canSignalStale port signal => exact execCanSignalStale_keeps port signal s
  | encoderStandstill port => exact execEncoderStandstill_keeps port s
  | encoderVerifyWindow port agree disagree => exact execEncoderVerifyWindow_keeps port agree disagree s
  | filterInputSample channel => exact execFilterInputSample_keeps channel s
  | remapCellRow stream row inst checkFails => exact execRemapCellRow_keeps stream row inst checkFails s
  | pyramidRow stream level row inst checkFails => exact execPyramidRow_keeps stream level row inst checkFails s
  | stereoStrip ctx pair strip checkFails => exact execStereoStrip_keeps ctx pair strip checkFails s
  | cornerCellRow stream row inst checkFails => exact execCornerCellRow_keeps stream row inst checkFails s
  | descriptorUnit stream corner inst checkFails => exact execDescriptorUnit_keeps stream corner inst checkFails s
  | flowPoint stream point inst checkFails => exact execFlowPoint_keeps stream point inst checkFails s
  | featureBlockDone stream => exact execFeatureBlockDone_keeps stream s
  | engineRecoveryGraph kind inst passed => exact execEngineRecoveryGraph_keeps kind inst passed s
  | quadrilleNode node output checkFails => exact execQuadrilleNode_keeps node output checkFails s
  | bandStep band io => exact execBandStep_keeps band io s
  | moveComplete band tile flag => exact execMoveComplete_keeps band tile flag s
  | codePageLoaded band page failed => exact execCodePageLoaded_keeps band page failed s
  | rendezvousComplete rv => exact execRendezvousComplete_keeps rv s
  | streamLayerResident ctx stream tile => exact execStreamLayerResident_keeps ctx stream tile s
  | fabricRendezvousLate band => exact execFabricRendezvousLate_keeps band s
  | pairCommit ctx refNearerSecond => exact execPairCommit_keeps ctx refNearerSecond s
  | carrierDeadline ctx => exact execCarrierDeadline_keeps ctx s
  | degradedRecord ctx pose => exact execDegradedRecord_keeps ctx pose s
  | poseCoverDeadline ctx frameSet propagated => exact execPoseCoverDeadline_keeps ctx frameSet propagated s
  | stepTimeout band tile => exact execStepTimeout_keeps band tile s
  | laneSubstitutionDone tile => exact execLaneSubstitutionDone_keeps tile s
  | tileRepairDone tile => exact execTileRepairDone_keeps tile s
  | checkpointRollback band => exact execCheckpointRollback_keeps band s
  | patrolRead place result => exact execPatrolRead_keeps place result s
  | hbmRowRetired channel region row pprFree => exact execHbmRowRetired_keeps channel region row pprFree s
  | stewardFault core => exact execStewardFault_keeps core s
  | stewardRejoin core => exact execStewardRejoin_keeps core s
  | granuleMove result retryFails => exact execGranuleMove_keeps result retryFails s
  | copyGranuleFree obj tier => exact execCopyGranuleFree_keeps obj tier s
  | objectRestreamed obj tier granule homeReadFails => exact execObjectRestreamed_keeps obj tier granule homeReadFails s
  | heldRecordExpiry => exact execHeldRecordExpiry_keeps s
  | mapCommit map => exact execMapCommit_keeps map s
  | tombstoneFree map => exact execTombstoneFree_keeps map s
  | generationSweep map => exact execGenerationSweep_keeps map s
  | mapDeltaWrite ctx => exact execMapDeltaWrite_keeps ctx s
  | loopQueryIssue ctx kf vector => exact execLoopQueryIssue_keeps ctx kf vector s
  | loopVerify ctx verdict => exact execLoopVerify_keeps ctx verdict s
  | searchScan badPages => exact execSearchScan_keeps badPages s
  | searchPassEnd query => exact execSearchPassEnd_keeps query s
  | planningIntervalEnd r => exact execPlanningIntervalEnd_keeps r s
  | energyHorizonPassed => exact execEnergyHorizonPassed_keeps s
  | bridleGrantPeriod draws unmeteredMw => exact execBridleGrantPeriod_keeps draws unmeteredMw s
  | powerDroop mask => exact execPowerDroop_keeps mask s
  | droopRecovery => exact execDroopRecovery_keeps s
  | autoIdle => exact execAutoIdle_keeps s
  | marginReplanDaily => exact execMarginReplanDaily_keeps s
  | marginReplanned r => exact execMarginReplanned_keeps r s
  | healthPeriod ctx => exact execHealthPeriod_keeps ctx s
  | eventHealthRecord => exact execEventHealthRecord_keeps s
  | fwCoreRebootDone core => exact execFwCoreRebootDone_keeps core s
  | fwSwitchPoint => exact execFwSwitchPoint_keeps s
  | fwBandSwap band => exact execFwBandSwap_keeps band s
  | fwFlashVerified => exact execFwFlashVerified_keeps s
  | fwUpdateRolledBack => exact execFwUpdateRolledBack_keeps s
  | recoveryWriteDone ok => exact execRecoveryWriteDone_keeps ok s
  | quadratureEdge port lineB level pulseNs => exact execQuadratureEdge_keeps port lineB level pulseNs s
  | hostLinkDown => exact execHostLinkDown_keeps s
  | hostLinkUp => exact execHostLinkUp_keeps s

/-- An access outside BAR0 faults, and it is an arming, a slot write or a register write. -/
theorem exec_outsideBar0 {i : Instr} (s : State) (h : outsideBar0 i) :
    exec i s = .fault .outsideBar0 ∧
      ((∃ fn slot w p, i = .slotArm fn slot w p ∧ (8 ≤ fn ∨ 32 ≤ slot)) ∨
       (∃ fn slot k w, i = .slotWriteLost fn slot k w ∧ (8 ≤ fn ∨ 32 ≤ slot ∨ 128 ≤ k)) ∨
       (∃ fn off w, i = .registerWrite fn off w ∧ (8 ≤ fn ∨ 0x8000 ≤ off))) := by
  unfold outsideBar0 at h
  split at h
  · exact ⟨if_pos h, .inl ⟨_, _, _, _, rfl, h⟩⟩
  · exact ⟨if_pos h, .inr (.inl ⟨_, _, _, _, rfl, h⟩)⟩
  · exact ⟨if_pos h, .inr (.inr ⟨_, _, _, rfl, h⟩)⟩
  · exact h.elim

/-- Settles O60: a command inside BAR0 answers a state that keeps the queue and the fused SVN, one outside it faults. -/
theorem everyCommandCompletesAndFusesNeverFall : Obligations.EveryCommandCompletesAndFusesNeverFall := by
  intro i s
  by_cases h : outsideBar0 i
  · exact .inr (exec_outsideBar0 s h)
  · obtain ⟨t, ht, hkeeps⟩ := exec_keeps i s h
    exact .inl ⟨t, ht, hkeeps.pending, hkeeps.svn⟩

/-- Settles O59: what a step runs keeps the form of the host memory it starts with. -/
theorem everyStepKeepsTheMemoryForm : Obligations.EveryStepKeepsTheMemoryForm := by
  intro s t hs hstep
  unfold step at hstep
  split at hstep
  · cases hstep; exact hs
  next i rest _ =>
    by_cases h : outsideBar0 i
    · rw [(exec_outsideBar0 _ h).1] at hstep
      cases hstep
    · obtain ⟨u, hu, hkeeps⟩ := exec_keeps i { s with pending := rest } h
      rw [hu] at hstep
      cases hstep
      exact hkeeps.memory hs

end Sys2Proof.Machine

/-! ## The queue of commands and the end of a command -/

namespace Sys2Proof.Machine

/-- Settles O1: by the queue's two forms. -/
theorem frontCommandRuns : Obligations.FrontCommandRuns := by
  refine ⟨fun i s => rfl, fun s h => ?_⟩
  rw [step, h]

/-- The commit time of a command that has just committed (R657). -/
theorem State.commitTimeOf_commit {s : State} {c : CmdRef} {m : Cmd} (h : s.findCmd c = some m) :
    (s.commit c).commitTimeOf c = if m.committed then m.commitTime else s.devTime := by
  cases hm : m.committed <;> simp [State.commitTimeOf, h, hm]

/-- Settles O2: what `done` and `refuse` store, and that they change the list of commands alone. -/
theorem commandEndsWithOneReply : Obligations.CommandEndsWithOneReply := by
  refine ⟨?done, ?refuse⟩
  case done =>
    intro s c m status detail body out h
    have hfound : (s.findCmd c).isSome := by simp [h]
    refine ⟨State.answered_done status detail body out hfound, fun r hr => ?_, otherCmds_done s c status detail body out,
      State.done_eq s c status detail body out⟩
    have hreply : (s.done c status detail body out).replyOf c = some _ := State.replyOf_endCmd _ (by simpa using hfound)
    rw [hreply] at hr
    cases hr
    exact State.commitTimeOf_commit h
  case refuse =>
    intro s c m status detail h
    have hfound : (s.findCmd c).isSome := by simp [h]
    refine ⟨State.answered_refuse status detail hfound, fun r hr => ?_, otherCmds_refuse s c status detail, State.refuse_eq s c status detail⟩
    have hreply : (s.refuse c status detail).replyOf c = some _ := State.replyOf_endCmd _ hfound
    rw [hreply] at hr
    cases hr
    rfl

/-- Settles O58: every table of a new module is empty, so that each number reads as its default. -/
theorem resetStateOfThePowerOn : Obligations.ResetStateOfThePowerOn := by
  refine ⟨rfl, rfl, rfl, rfl, rfl, rfl, rfl, ?functions, rfl, rfl, rfl, rfl, rfl, ?reel, ?ports, ?contexts, rfl, rfl, rfl, rfl, rfl, rfl, rfl, rfl,
    rfl, rfl, rfl, rfl, rfl, rfl, rfl, rfl, rfl, ?memory⟩
  case functions => exact fun n => ⟨rfl, rfl, rfl, rfl, rfl⟩
  case reel => exact fun k => ⟨rfl, rfl⟩
  case ports => exact fun p => rfl
  case contexts => exact fun n => ⟨rfl, rfl, rfl⟩
  case memory => exact fun a => rfl

end Sys2Proof.Machine

/-! ## Domains and expert enables -/

namespace Sys2Proof.Machine

/-- The mask names no other domain than the claimable ones exactly when the bits of the others are clear. -/
theorem claimable_iff (mask : BitVec 16) : mask &&& ~~~ claimable &&& 0xFFFE = 0 ↔ mask &&& 0x57FE = 0 := by
  rw [BitVec.and_assoc]
  exact Iff.rfl

/-- What is fresh is empty exactly when the claims do not change. -/
theorem fresh_eq_zero_iff (mask claims : BitVec 16) : mask &&& ~~~ claims = 0 ↔ claims ||| mask = claims := by
  constructor <;> intro h <;> ext i hi <;> have hbit := congrArg (fun w => w.getLsbD i) h <;> simp [hi] at hbit ⊢ <;> exact hbit

/-- What is released is empty exactly when the claims do not change. -/
theorem gone_eq_zero_iff (mask claims : BitVec 16) : mask &&& claims = 0 ↔ claims &&& ~~~ mask = claims := by
  constructor <;> intro h <;> ext i hi <;> have hbit := congrArg (fun w => w.getLsbD i) h <;> simp [hi] at hbit ⊢ <;>
    cases hm : mask[i] <;> simp_all

/-- The claims after a change, with the one event it raises, `fresh` telling whether anything changes (R670). -/
theorem claimsChanged_spec (s : State) (claims fresh : BitVec 16) (code detail : Nat) (h : fresh = 0 ↔ claims = s.tether.claims) :
    ∀ t, t = (if fresh = 0 then s.mapTether fun x => { x with claims := claims }
      else (s.mapTether fun x => { x with claims := claims }).raise code detail) →
    t.tether.claims = claims ∧ t.tether.expert = s.tether.expert ∧
    (t.tether.claims ≠ s.tether.claims → ∃ e, t.events = s.events ++ [e] ∧ e.code = BitVec.ofNat 16 code) ∧
    (t.tether.claims = s.tether.claims → t.events = s.events) ∧ t = { s with tether := t.tether, events := t.events } := by
  rintro t rfl
  by_cases hf : fresh = 0
  · rw [if_pos hf]
    exact ⟨rfl, rfl, fun hne => absurd (h.1 hf) hne, fun _ => rfl, rfl⟩
  · rw [if_neg hf]
    have hclaims : ((s.mapTether fun x => { x with claims := claims }).raise code detail).tether.claims = claims := by simp
    refine ⟨hclaims, by simp, fun _ => ⟨_, rfl, rfl⟩, fun heq => absurd (hclaims.symm.trans heq) (h.not.1 hf), rfl⟩

/-- What DOMAIN_CLAIM and DOMAIN_RELEASE answer once the claims have changed from `s` to `u`. -/
theorem State.domains_answered {s u : State} {c : CmdRef} {op : Nat} {m : Cmd} (h : s.runs c op m)
    (hu : u = { s.began c with tether := u.tether, events := u.events }) :
    (u.done c OK 0 [domainOwner u]).answered c OK 0 [u.tether.claims.setWidth 32] ∧ otherCmds s (u.done c OK 0 [domainOwner u]) c ∧
    u.done c OK 0 [domainOwner u] = { s with cmds := (u.done c OK 0 [domainOwner u]).cmds, tether := u.tether, events := u.events } := by
  obtain ⟨hans, hothers⟩ := State.done_of_began (u := u) OK 0 [domainOwner u] [] h.isSome (by rw [hu])
  refine ⟨hans, hothers, ?_⟩
  generalize hcmds : (u.done c OK 0 [domainOwner u]).cmds = l
  rw [State.done_eq, hcmds]
  generalize u.tether = x at hu ⊢
  generalize u.events = e at hu ⊢
  rw [hu]
  rfl

/-- Settles O40: a mask of claimable domains changes the claims as `claimsChanged_spec` says. -/
theorem domainsChangeControlByTheTether : Obligations.DomainsChangeControlByTheTether := by
  refine ⟨?claim, ?release, ?claimOther, ?releaseOther⟩
  case claim =>
    intro s c m h hm
    obtain ⟨hclaims, hexpert, hraised, hquiet, hframe⟩ := claimsChanged_spec (s.began c) _ _ 0x8000 _
      (fresh_eq_zero_iff ((m.w 3).setWidth 16 &&& claimable) s.tether.claims) (claimDomains ((m.w 3).setWidth 16 &&& claimable) (s.began c)) rfl
    obtain ⟨hans, hothers, hrest⟩ := State.domains_answered h hframe
    have hexec : exec (.domainClaim c) s = .next ((claimDomains ((m.w 3).setWidth 16 &&& claimable) (s.began c)).done c OK 0
        [domainOwner (claimDomains ((m.w 3).setWidth 16 &&& claimable) (s.began c))]) := by
      rw [exec, execDomainClaim, onCmd_runs _ h]
      exact congrArg _ (if_neg (not_not.2 ((claimable_iff _).2 hm)))
    exact ⟨_, hexec, hclaims, hans, hraised, hquiet, hothers, hrest, hexpert⟩
  case release =>
    intro s c m h hm
    obtain ⟨hclaims, hexpert, hraised, hquiet, hframe⟩ := claimsChanged_spec (s.began c) _ _ 0x8001 _
      (gone_eq_zero_iff ((m.w 3).setWidth 16 &&& claimable) s.tether.claims) (releaseDomains ((m.w 3).setWidth 16 &&& claimable) (s.began c)) rfl
    obtain ⟨hans, hothers, hrest⟩ := State.domains_answered h hframe
    have hexec : exec (.domainRelease c) s = .next ((releaseDomains ((m.w 3).setWidth 16 &&& claimable) (s.began c)).done c OK 0
        [domainOwner (releaseDomains ((m.w 3).setWidth 16 &&& claimable) (s.began c))]) := by
      rw [exec, execDomainRelease, onCmd_runs _ h]
      exact congrArg _ (if_neg (not_not.2 ((claimable_iff _).2 hm)))
    exact ⟨_, hexec, hclaims, hans, hraised, hquiet, hothers, hrest, hexpert⟩
  case claimOther =>
    intro s c m h hm
    rw [exec, execDomainClaim, onCmd_runs _ h]
    exact congrArg _ (if_pos ((claimable_iff _).not.2 hm))
  case releaseOther =>
    intro s c m h hm
    rw [exec, execDomainRelease, onCmd_runs _ h]
    exact congrArg _ (if_pos ((claimable_iff _).not.2 hm))

/-- The policy forbids a domain of the mask exactly when the mask names a domain outside it. -/
theorem policyForbids_eq_none_iff (n : Nat) (mask : BitVec 16) (s : State) :
    policyForbids (.host n) mask s = none ↔ n = 0 ∨ mask &&& ~~~ (s.fnAt n).policy = 0 := by
  rw [policyForbids]
  split_ifs with hn
  · simp [hn]
  · simp only [List.find?_eq_none, hn, false_or, List.mem_range, bit]
    constructor
    · intro h
      ext i hi
      have := h i hi
      simp [hi] at this ⊢
      exact this
    · intro h i hi
      have := congrArg (fun w => w.getLsbD i) h
      simp [hi] at this ⊢
      exact this

/-- A domain that the policy forbids is one of the 16 of a mask. -/
theorem policyForbids_lt {who : Sender} {mask : BitVec 16} {s : State} {d : Nat} (h : policyForbids who mask s = some d) : d < 16 := by
  unfold policyForbids at h
  split at h
  · cases h
  · split_ifs at h
    exact List.mem_range.1 (List.mem_of_find?_eq_some h)

/-- Setting the enables of a function and answering them touches that function and the command alone. -/
theorem setExpert_host_answered {s : State} {c : CmdRef} {op : Nat} {m : Cmd} (h : s.runs c op m) (n : Nat) (g : BitVec 16 → BitVec 16) :
    ∀ t, t = (setExpert (.host n) g (s.began c)).done c OK 0 [expertState (setExpert (.host n) g (s.began c)) (.host n)] →
    t.fnAt n = { s.fnAt n with expert := g (s.fnAt n).expert } ∧ t.answered c OK 0 [(t.fnAt n).expert.setWidth 32] ∧
    (∀ k, k ≠ n → t.fnAt k = s.fnAt k) ∧ otherCmds s t c ∧ t = { s with cmds := t.cmds, fns := t.fns } := by
  rintro t rfl
  obtain ⟨hans, hothers⟩ := State.done_of_began (u := setExpert (.host n) g (s.began c)) OK 0
    [expertState (setExpert (.host n) g (s.began c)) (.host n)] [] h.isSome rfl
  have hfn (k : Nat) : (setExpert (.host n) g (s.began c)).fnAt k = if k = n then { s.fnAt n with expert := g (s.fnAt n).expert } else s.fnAt k :=
    State.fnAt_updFn ..
  exact ⟨(hfn n).trans (if_pos rfl), hans, fun k hk => (hfn k).trans (if_neg hk), hothers, rfl⟩

/-- EXPERT_POLICY changes the functions it names, and no other. -/
theorem fnAt_forEach_updFn (f : FnRegs → FnRegs) {l : List Nat} (hl : l.Nodup) (s : State) (k : Nat) :
    (forEach l (fun v s => s.updFn v f) s).fnAt k = if k ∈ l then f (s.fnAt k) else s.fnAt k := by
  induction l generalizing s with
  | nil => rfl
  | cons v l ih =>
    obtain ⟨hv, hl⟩ := List.nodup_cons.1 hl
    refine (ih hl _).trans ?_
    rw [State.fnAt_updFn]
    by_cases hk : k = v
    · simp [hk, hv]
    · simp [hk]

theorem forEach_updFn_eq (f : FnRegs → FnRegs) (l : List Nat) (s : State) :
    forEach l (fun v s => s.updFn v f) s = { s with fns := (forEach l (fun v s => s.updFn v f) s).fns } := by
  refine forEach_keeps (P := fun u => u = { s with fns := u.fns }) l _ (fun v _ u hu => ?_) rfl
  rw [hu]; rfl

/-- The functions that EXPERT_POLICY names: the VFs of its mask. -/
def namedVfs (w : Word) : List Nat := (List.range 8).filter fun v => v ≠ 0 ∧ bit w v

theorem nodup_namedVfs (w : Word) : (namedVfs w).Nodup := List.nodup_range.filter _

theorem mem_namedVfs {w : Word} {v : Nat} : v ∈ namedVfs w ↔ 1 ≤ v ∧ v ≤ 7 ∧ bit w v = true := by
  simp only [namedVfs, List.mem_filter, List.mem_range, decide_eq_true_eq]
  constructor
  · rintro ⟨hlt, hne, hb⟩
    exact ⟨by omega, by omega, hb⟩
  · rintro ⟨hge, hle, hb⟩
    exact ⟨by omega, by omega, hb⟩

/-- What EXPERT_POLICY makes of a function it names. -/
def FnRegs.withPolicy (mask : BitVec 16) (f : FnRegs) : FnRegs := { f with policy := mask, expert := f.expert &&& mask }

/-- Settles O41: by the sender and, for a VF, by its policy. -/
theorem expertEnablesFollowThePolicy : Obligations.ExpertEnablesFollowThePolicy := by
  refine ⟨?enable, ?locked, ?enableTether, ?disableTether, ?disable, ?policy, ?policyVf, ?policyTether⟩
  case enable =>
    intro s c m n h hc hmask
    have hfree : policyForbids (.host n) (expertMask (m.w 3)) (s.began c) = none := (policyForbids_eq_none_iff n _ _).2 hmask
    refine ⟨_, ?_, setExpert_host_answered h n (· ||| expertMask (m.w 3)) _ rfl⟩
    rw [exec, execExpertEnable, onCmd_runs _ h]
    simp only [hc]
    rw [hfree]
  case locked =>
    intro s c m n h hc hn hmask
    obtain ⟨d, hd⟩ := Option.ne_none_iff_exists'.1 fun hnone =>
      ((policyForbids_eq_none_iff n (expertMask (m.w 3)) (s.began c)).1 hnone).elim hn hmask
    obtain ⟨r, hr, hstatus, hdetail, -⟩ := State.answered_refuse (s := s.began c) (c := c) EXPERT_LOCKED (d * 256 + 1) (by simpa using h.isSome)
    refine ⟨_, r, ?_, hr, hstatus, ?_, (otherCmds_began s c).trans (otherCmds_refuse _ c _ _), rfl⟩
    · rw [exec, execExpertEnable, onCmd_runs _ h]
      simp only [hc]
      rw [hd]
    · have hlt := policyForbids_lt hd
      rw [hdetail]
      interval_cases d <;> rfl
  case enableTether =>
    intro s c m h hc
    rw [exec, execExpertEnable, onCmd_runs _ h]
    simp only [hc, policyForbids]
    rfl
  case disableTether =>
    intro s c m h hc
    rw [exec, execExpertDisable, onCmd_runs _ h]
    simp only [hc]
    rfl
  case disable =>
    intro s c m n h hc
    refine ⟨_, ?_, setExpert_host_answered h n (· &&& ~~~ expertMask (m.w 3)) _ rfl⟩
    rw [exec, execExpertDisable, onCmd_runs _ h]
    simp only [hc]
  case policy =>
    intro s c m h hc
    have hframe := forEach_updFn_eq (FnRegs.withPolicy (expertMask (m.w 4))) (namedVfs (m.w 3)) (s.began c)
    obtain ⟨hans, hothers⟩ := State.done_of_began
      (u := forEach (namedVfs (m.w 3)) (fun v s => s.updFn v (FnRegs.withPolicy (expertMask (m.w 4)))) (s.began c)) OK 0 [] [] h.isSome
      (by rw [hframe])
    refine ⟨_, ?_, hans, hothers, ?_, fun v => (fnAt_forEach_updFn _ (nodup_namedVfs _) _ v).trans (if_congr mem_namedVfs rfl rfl)⟩
    · rw [exec, execExpertPolicy, onCmd_runs _ h]
      simp only [hc]
      rfl
    · rw [State.done_eq, hframe]
      rfl
  case policyVf =>
    intro s c m n h hc hn
    rw [exec, execExpertPolicy, onCmd_runs _ h]
    simp only [hc]
    exact congrArg _ (if_pos hn)
  case policyTether =>
    intro s c m h hc
    rw [exec, execExpertPolicy, onCmd_runs _ h]
    simp only [hc]

end Sys2Proof.Machine

/-! ## The side band -/

namespace Sys2Proof.Machine

/-- A packet that fails PEC, no packet and a first packet without SOM assemble into no message (R681). -/
theorem assembled_eq_none {ps : List SmbusPacket} (h : (∃ p ∈ ps, p.pecOk = false) ∨ ps = [] ∨ (ps.headD {}).som = false) :
    assembled ps = none := by
  refine if_neg ?_
  rintro ⟨hne, hall⟩
  rw [List.all_eq_true] at hall
  rcases h with ⟨p, hp, hpec⟩ | hnil | hsom
  · obtain ⟨i, hi, rfl⟩ := List.getElem_of_mem hp
    have hok := hall i (List.mem_range.2 hi)
    simp [hi, hpec] at hok
  · exact hne hnil
  · have hok := hall 0 (List.mem_range.2 (List.length_pos_iff.2 hne))
    cases ps with
    | nil => exact hne rfl
    | cons p ps => simp_all

/-- Settles O38: by what assembles and reaches the responder, and the control request by its row. -/
theorem sideBandMessages : Obligations.SideBandMessages := by
  refine ⟨?armed, fun _ => assembled_eq_none, ?discarded, ?setId, ?setIdBad, ?getId, ?version, ?types, ?vendor⟩
  case armed =>
    intro eid peer khz packets body s hvaux hkhz howner hlen hasm
    have hexec : exec (.mctpMessageReceived eid peer 0x6A khz packets) s = .next (ransaMessage eid peer (packets.headD {}).tag body s) := by
      rw [exec, execMctpMessageReceived, hasm]
      refine onTrigger_fires s _ ?_
      have hsize : 4 + body.length < 4096 := by omega
      rw [hvaux, howner]
      rcases hkhz with rfl | rfl | rfl <;> simp [hsize, ransaHead]
    exact ⟨_, _, hexec, rfl, rfl, rfl, rfl, rfl, rfl, rfl, rfl, rfl, rfl⟩
  case discarded =>
    intro eid peer address khz packets s h
    rw [exec, execMctpMessageReceived]
    rcases hasm : assembled packets with _ | b
    · rfl
    · refine onTrigger_idle s _ ?_
      rcases h with h | h | h
      · rw [hasm] at h; cases h
      · rw [beq_eq_false_iff_ne.2 h]
        simp
      · rw [h]
        rfl
  case setId =>
    intro force eid s hvaux h0 hFF
    rw [exec, execSetEndpointId, onTrigger_fires s _ hvaux, if_neg (not_or.2 ⟨h0, hFF⟩)]
    rfl
  case setIdBad =>
    intro force eid s hvaux h
    rw [exec, execSetEndpointId, onTrigger_fires s _ hvaux, if_pos h]
    rfl
  case getId => exact fun src s hvaux => onTrigger_fires s _ hvaux
  case version =>
    rintro src msgType s b hvaux rfl
    rw [exec, execGetMctpVersionSupport, onTrigger_fires s _ hvaux]
    by_cases hm : msgType = 0xFF ∨ msgType = 0x00 ∨ msgType = 0x05 ∨ msgType = 0x7F
    · rw [if_pos hm, if_pos (by simpa using hm)]
      rfl
    · rw [if_neg hm, if_neg (by simpa using hm)]
      rfl
  case types => exact fun src s hvaux => onTrigger_fires s _ hvaux
  case vendor =>
    rintro src selector s b hvaux rfl
    rw [exec, execGetVendorDefinedMessageSupport, onTrigger_fires s _ hvaux]
    split_ifs <;> rfl

end Sys2Proof.Machine

/-! ## Slots, the start of commands and their replies -/

namespace Sys2Proof.Machine

/-- Setting bit `v` sets that bit alone. -/
theorem bit_orPow {n : Nat} (x : BitVec n) (v k : Nat) :
    bit (x ||| BitVec.ofNat n (2 ^ v)) k = (bit x k || (decide (k < n) && decide (k = v))) := by
  simp only [bit, BitVec.getLsbD_or, BitVec.getLsbD_ofNat, Nat.testBit_two_pow]
  by_cases hv : v = k <;> simp [hv, Ne.symm]

/-- Bytes placed elsewhere leave a byte of host memory as it is. -/
theorem getD_place (l : List (Nat × Byte)) (m : Tab Byte) (a : Nat) (h : l.all (fun e => e.1 != a) = true) :
    Tab.getD (l.foldl (fun m e => Tab.write 0 m e.1 e.2) m) a 0 = Tab.getD m a 0 := by
  induction l generalizing m with
  | nil => rfl
  | cons e l ih =>
    obtain ⟨he, hl⟩ : e.1 ≠ a ∧ l.all (fun e => e.1 != a) = true := by simpa using h
    rw [List.foldl_cons, ih _ hl, Tab.getD_write, if_neg (Ne.symm he)]

/-- The first word of an armed command is the word that armed it. -/
theorem head?_map_range {α : Type} {n : Nat} (hn : 0 < n) (f : Nat → α) : ((List.range n).map f).head? = some (f 0) := by
  obtain ⟨k, rfl⟩ := Nat.exists_eq_succ_of_ne_zero (Nat.ne_of_gt hn)
  simp [List.range_succ_eq_map]

/-- What a slot that belongs to the host holds once it is armed. -/
theorem fnAt_armSlot {fn slot : Nat} {s : State} (word0 : Word) (h : bit (s.fnAt fn).slotBusy slot = false) (k : Nat) :
    (armSlot fn slot word0 s).fnAt k = if k = fn then
      { s.fnAt fn with slots := Tab.write 0 (s.fnAt fn).slots (slot * 128) word0,
                       slotBusy := (s.fnAt fn).slotBusy ||| BitVec.ofNat 32 (2 ^ slot) }
    else s.fnAt k := by
  rw [armSlot, if_neg (by simp [h])]
  exact State.fnAt_updFn s fn k fun f => { f with slots := Tab.write 0 f.slots (slot * 128) word0,
                                                  slotBusy := f.slotBusy ||| BitVec.ofNat 32 (2 ^ slot) }

/-- An armed slot appends one armed command that begins with the word that armed it (R639). -/
theorem armSlot_spec {fn slot : Nat} {s : State} (word0 : Word) (h : bit (s.fnAt fn).slotBusy slot = false) :
    ∃ x, (armSlot fn slot word0 s).cmds = s.cmds ++ [x] ∧ x.ref = ⟨.host fn, slot⟩ ∧ x.phase = .armed ∧ x.words.head? = some word0 ∧
      x.reply = none ∧ armSlot fn slot word0 s = { s with cmds := (armSlot fn slot word0 s).cmds, fns := (armSlot fn slot word0 s).fns } := by
  rw [armSlot, if_neg (by simp [h])]
  refine ⟨_, rfl, rfl, rfl, ?_, rfl, rfl⟩
  rw [head?_map_range (by omega), State.fnAt_updFn, if_pos rfl]
  simp [Tab.getD_write]

/-- A write to a word of a slot inside BAR0 is taken as `writeSlotWord` says. -/
theorem exec_slotWriteLost_inside {fn slot index : Nat} {s : State} (value : Word) (hfn : fn < 8) (hslot : slot < 32) (hindex : index < 128)
    (hreach : fnReachable s fn = true) : exec (.slotWriteLost fn slot index value) s = .next (writeSlotWord fn slot index value s) := by
  rw [exec, execSlotWriteLost, if_neg (by omega), onTrigger_fires s _ hreach]

/-- Settles O35: by the slot's owner. -/
theorem slotWritesArmOrAreLost : Obligations.SlotWritesArmOrAreLost := by
  refine ⟨?arm, ?lost, ?taken⟩
  case arm =>
    intro fn slot word0 placed s hfn hslot hreach hbusy
    have hexec : exec (.slotArm fn slot word0 placed) s =
        .next (armSlot fn slot word0 { s with hostMem := placed.foldl (fun m e => Tab.write 0 m e.1 e.2) s.hostMem }) := by
      rw [exec, execSlotArm, if_neg (by omega)]
      exact if_pos hreach
    obtain ⟨x, hcmds, href, hphase, hwords, hreply, hframe⟩ :=
      armSlot_spec (s := { s with hostMem := placed.foldl (fun m e => Tab.write 0 m e.1 e.2) s.hostMem }) word0 hbusy
    have hfn := fnAt_armSlot (s := { s with hostMem := placed.foldl (fun m e => Tab.write 0 m e.1 e.2) s.hostMem }) word0 hbusy
    have hself := (hfn fn).trans (if_pos rfl)
    refine ⟨_, x, hexec, hcmds, href, hphase, hwords, hreply, ?_, ?_, ?_, ?_, fun k hk => (hfn k).trans (if_neg hk), ?_, hframe⟩
    · rw [hself, bit_orPow]
      simp [hslot]
    · intro k hk
      rw [hself, bit_orPow]
      simp [hk]
      rfl
    · intro k
      rw [hself]
      exact Tab.getD_write ..
    · rw [hself]
      rfl
    · intro a ha
      rw [hframe]
      exact getD_place placed _ a ha
  case lost =>
    intro fn slot index value s hfn hslot hindex hreach hbusy
    rw [exec_slotWriteLost_inside value hfn hslot hindex hreach, writeSlotWord, if_pos hbusy]
    rfl
  case taken =>
    intro fn slot index value s hfn hslot hpos hindex hreach hbusy
    rw [exec_slotWriteLost_inside value hfn hslot hindex hreach, writeSlotWord, if_neg (by simp [hbusy]), if_neg (by omega)]

/-- A command that is taken off the list is found no more; every other one is found as before. -/
theorem State.findCmd_delCmd (s : State) (c d : CmdRef) : (s.delCmd c).findCmd d = if d = c then none else s.findCmd d := by
  rw [State.findCmd, State.delCmd, List.find?_filter]
  split_ifs with h
  · subst h
    simp
  · refine List.find?_congr fun m _ => ?_
    have hne : m.ref = d → m.ref ≠ c := fun hm => hm ▸ h
    simpa using hne

theorem getD_putSlot (l : List Word) (t : Tab Word) (base k : Nat) :
    Tab.getD (putSlot t base l) k 0 = if base ≤ k ∧ k < base + l.length then l.getD (k - base) 0 else Tab.getD t k 0 := by
  induction l generalizing t base with
  | nil => simp [putSlot]
  | cons w l ih =>
    rw [putSlot, ih, Tab.getD_write]
    rcases Nat.lt_trichotomy k base with h | h | h
    · rw [if_neg (by omega), if_neg (by omega), if_neg (by omega)]
    · simp [h]
    · obtain ⟨j, rfl⟩ := Nat.exists_eq_add_of_lt h
      rw [show base + j + 1 - base = j + 1 by omega, show base + j + 1 - (base + 1) = j by omega, if_neg (by omega : ¬ base + j + 1 = base)]
      refine if_congr ?_ rfl rfl
      simp only [List.length_cons]
      omega

/-- What a host's slot holds once its reply is there (R642, R643). -/
def FnRegs.replied (f : FnRegs) (slot : Nat) (words : List Word) : FnRegs :=
  { f with slots := putSlot f.slots (slot * 128) (words.take 128), slotDone := f.slotDone ||| BitVec.ofNat 32 (2 ^ slot),
           slotBusy := f.slotBusy &&& ~~~ (BitVec.ofNat 32 (2 ^ slot)) }

theorem FnRegs.replied_done (f : FnRegs) {slot : Nat} (words : List Word) (h : slot < 32) : bit (f.replied slot words).slotDone slot = true := by
  rw [FnRegs.replied, bit_orPow]
  simp [h]

theorem FnRegs.replied_busy (f : FnRegs) (slot : Nat) (words : List Word) : bit (f.replied slot words).slotBusy slot = false := by
  rw [FnRegs.replied, bit_clearBit]
  simp

/-- The words of a reply that fits its slot stand in it. -/
theorem FnRegs.replied_word (f : FnRegs) (slot : Nat) {words : List Word} {i : Nat} (hi : i < words.length) (hlen : words.length ≤ 128) :
    Tab.getD (f.replied slot words).slots (slot * 128 + i) 0 = words.getD i 0 := by
  rw [FnRegs.replied, getD_putSlot, List.take_of_length_le hlen, if_pos (by omega), Nat.add_sub_cancel_left]

/-- Where IRQ is set vector 0 is sent, or pending while it is masked; nothing else changes (R652, R653). -/
theorem State.msix_spec (s : State) (n : Nat) :
    (bit ((s.fnAt n).msixWord 3) 0 = false → s.msix n 0 = s.send (.msix n 0)) ∧
    (bit ((s.fnAt n).msixWord 3) 0 = true → s.msix n 0 = s.updFn n fun f => { f with pba := f.pba ||| BitVec.ofNat 8 (2 ^ 0) }) := by
  constructor <;> intro h <;> simp [State.msix, h]

/-- The reply to a host's command, before its interrupt. -/
theorem exec_commandReply_host {s : State} {n slot : Nat} {m : Cmd} {r : Reply} (h : s.findCmd ⟨.host n, slot⟩ = some m)
    (hended : m.phase = .ended) (hr : m.reply = some r) : exec (.commandReply ⟨.host n, slot⟩) s = .next (
      let u := (s.delCmd ⟨.host n, slot⟩).updFn n fun f => f.replied slot (replyWords (s.minorOf (.host n)) m r)
      if m.irq then u.msix n 0 else u) := by
  rw [exec, execCommandReply, h]
  simp only [hended, hr, carryReply, State.findCmd_ref h]
  rfl

/-- Settles O37: the start by its checks, the reply by its carrier. -/
theorem commandsStartInOrderAndReply : Obligations.CommandsStartInOrderAndReply := by
  refine ⟨?starts, ?refused, ?slot, ?interrupt, ?tether⟩
  case starts =>
    intro who s m hfirst hheld hcheck
    rw [exec, execCommandStart, hfirst]
    simp only [hheld, hcheck]
    rfl
  case refused =>
    intro who s m status detail hfirst hheld hcheck
    have hfound : (s.findCmd m.ref).isSome := by
      rw [State.findCmd, List.find?_isSome]
      exact ⟨m, List.mem_of_find?_eq_some hfirst, by simp⟩
    refine ⟨_, ?_, State.answered_refuse status detail hfound, otherCmds_refuse s m.ref status detail, State.refuse_eq s m.ref status detail⟩
    rw [exec, execCommandStart, hfirst]
    simp only [hheld, hcheck]
    rfl
  case slot =>
    intro s n slot m r h hended hr hslot hirq hlen
    have hfn (k : Nat) := State.fnAt_updFn (s.delCmd ⟨.host n, slot⟩) n k fun f => f.replied slot (replyWords (s.minorOf (.host n)) m r)
    have hself := (hfn n).trans (if_pos rfl)
    have hwords : (replyWords (s.minorOf (.host n)) m r).length = 5 + r.body.length := by simp [replyWords]; omega
    have hexec := exec_commandReply_host h hended hr
    simp only [hirq] at hexec
    refine ⟨_, hexec, (State.findCmd_delCmd ..).trans (if_pos rfl), ?_, ?_, ?_, fun k hk => (hfn k).trans (if_neg hk),
      fun d hd => (State.findCmd_delCmd ..).trans (if_neg hd), rfl⟩
    · intro i hi
      exact (congrArg (fun f => Tab.getD f.slots (slot * 128 + i) 0) hself).trans (FnRegs.replied_word _ _ (by omega) (by omega))
    · exact (congrArg (fun f => bit f.slotDone slot) hself).trans (FnRegs.replied_done _ _ hslot)
    · exact (congrArg (fun f => bit f.slotBusy slot) hself).trans (FnRegs.replied_busy _ _ _)
  case interrupt =>
    intro s n slot m r h hended hr hslot hirq
    obtain ⟨u, hu⟩ : ∃ u, u = (s.delCmd ⟨.host n, slot⟩).updFn n fun f => f.replied slot (replyWords (s.minorOf (.host n)) m r) :=
      ⟨_, rfl⟩
    have hfn (k : Nat) : u.fnAt k = if k = n then (s.fnAt n).replied slot (replyWords (s.minorOf (.host n)) m r) else s.fnAt k :=
      hu ▸ State.fnAt_updFn ..
    have hcmds (d : CmdRef) : u.findCmd d = if d = ⟨.host n, slot⟩ then none else s.findCmd d := hu ▸ State.findCmd_delCmd ..
    have hrest : u = { s with cmds := u.cmds, fns := u.fns } := hu ▸ rfl
    have houtbox : u.outbox = s.outbox := hu ▸ rfl
    have hexec : exec (.commandReply ⟨.host n, slot⟩) s = .next (u.msix n 0) := by
      rw [exec_commandReply_host h hended hr, hu]
      simp only [hirq, if_true]
    have hself := (hfn n).trans (if_pos rfl)
    obtain ⟨hsent, hpending⟩ := State.msix_spec u n
    rw [hself] at hsent hpending
    cases hmask : bit ((s.fnAt n).msixWord 3) 0 with
    | false =>
      rw [hsent hmask] at hexec
      refine ⟨_, hexec, (hcmds _).trans (if_pos rfl), ?_, ?_, fun _ => ⟨?_, ?_⟩, fun h => by simp at h,
        fun k hk => (hfn k).trans (if_neg hk), fun d hd => (hcmds d).trans (if_neg hd), ?_⟩
      · exact (congrArg (fun f => bit f.slotDone slot) hself).trans (FnRegs.replied_done _ _ hslot)
      · exact (congrArg (fun f => bit f.slotBusy slot) hself).trans (FnRegs.replied_busy _ _ _)
      · exact congrArg (OutMsg.msix n 0 :: ·) houtbox
      · exact (congrArg FnRegs.pba hself :)
      · rw [hrest]
        rfl
    | true =>
      rw [hpending hmask] at hexec
      have hfn' (k : Nat) := State.fnAt_updFn u n k fun f => { f with pba := f.pba ||| BitVec.ofNat 8 (2 ^ 0) }
      have hself' := (hfn' n).trans (if_pos rfl)
      refine ⟨_, hexec, (hcmds _).trans (if_pos rfl), ?_, ?_, fun h => by simp at h, fun _ => ⟨?_, ?_⟩,
        fun k hk => (hfn' k).trans ((if_neg hk).trans ((hfn k).trans (if_neg hk))), fun d hd => (hcmds d).trans (if_neg hd), ?_⟩
      · rw [hself']
        change bit (u.fnAt n).slotDone slot = true
        rw [hself]
        exact FnRegs.replied_done _ _ hslot
      · rw [hself']
        change bit (u.fnAt n).slotBusy slot = false
        rw [hself]
        exact FnRegs.replied_busy _ _ _
      · exact (State.updFn_outbox ..).trans houtbox
      · rw [hself', bit_orPow]
        exact Bool.or_true _
      · rw [hrest]
        rfl
  case tether =>
    intro s key m r h hended hr
    have hexec : exec (.commandReply ⟨.tether, key⟩) s = .next ((s.delCmd ⟨.tether, key⟩).send (.ransaReply m.eid m.peer
        (smbusSplit m.mtag (ransaHead ++ wordsBytes (replyWords (s.minorOf .tether) m r) ++ r.inlineOut)))) := by
      rw [exec, execCommandReply, h]
      simp only [hended, hr, carryReply, State.findCmd_ref h]
    exact ⟨_, hexec, (State.findCmd_delCmd ..).trans (if_pos rfl), rfl, fun d hd => (State.findCmd_delCmd ..).trans (if_neg hd), rfl⟩

end Sys2Proof.Machine

/-! ## Power commands, droops and their events -/

namespace Sys2Proof.Machine

/-- What an event row leaves: the state as it was, or its effect. -/
theorem onTrigger_next {p : Bool} {s t : State} {k : State → State} (h : onTrigger p s k = .next t) : t = s ∨ t = k s := by
  cases p with
  | false => rw [onTrigger_idle s k rfl] at h; exact .inl (Host.Outcome.next.inj h).symm
  | true => rw [onTrigger_fires s k rfl] at h; exact .inr (Host.Outcome.next.inj h).symm

/-- What a command leaves: the state as it was, or its effect on the state with the command marked as begun. -/
theorem onCmd_next {op : Nat} {c : CmdRef} {s t : State} {k : Cmd → State → State} (h : onCmd op c s k = .next t) :
    t = s ∨ ∃ m, t = k m (s.began c) := by
  by_cases hruns : ∃ m, s.runs c op m
  · obtain ⟨m, hm⟩ := hruns
    rw [onCmd_runs k hm] at h
    exact .inr ⟨m, (Host.Outcome.next.inj h).symm⟩
  · rw [onCmd_idle k (fun m hm => hruns ⟨m, hm⟩)] at h
    exact .inl (Host.Outcome.next.inj h).symm

/-! ### The tick of the last POWER_DROOP -/

/-- The tick at which POWER_DROOP was last raised (R744). -/
def State.droopTick (s : State) : Option Nat := s.power.droopRaised

theorem grantPeriod_droopTick (draws : List (Nat × Nat)) (mw : Nat) {s t : State} (h : exec (.bridleGrantPeriod draws mw) s = .next t) :
    t.droopTick = s.droopTick := by
  rw [exec, execBridleGrantPeriod] at h
  rcases onTrigger_next h with rfl | rfl
  · rfl
  · refine forEach_keeps (P := fun u => u.droopTick = s.droopTick) _ _ (fun b _ u hu => ?_) rfl
    rw [← hu, State.updBand]
    split <;> rfl

theorem noteEmpty_droopTick (e : Option (Nat × Nat)) (s : State) : (noteEmpty e s).droopTick = s.droopTick := by
  unfold noteEmpty
  split <;> rfl

theorem runPlanner_droopTick (r : IntervalReport) (s : State) : (runPlanner r s).droopTick = s.droopTick := by
  obtain ⟨mw, lowered, tooMuch, h⟩ : ∃ mw lowered tooMuch, runPlanner r s =
      noteLowest tooMuch (noteLowered lowered ((planAll r (allotAll r s)).mapPower fun p => { p with predictedMw := mw })) :=
    ⟨_, _, _, rfl⟩
  have hlowered (b : Bool) (u : State) : (noteLowered b u).droopTick = u.droopTick := by unfold noteLowered; split <;> rfl
  have hlowest (b : Bool) (u : State) : (noteLowest b u).droopTick = u.droopTick := by unfold noteLowest; split_ifs <;> rfl
  rw [h, hlowest, hlowered, planAll_eq]
  rfl

theorem planningInterval_droopTick (r : IntervalReport) {s t : State} (h : exec (.planningIntervalEnd r) s = .next t) :
    t.droopTick = s.droopTick := by
  rw [exec, execPlanningIntervalEnd] at h
  rcases onTrigger_next h with rfl | ht
  · rfl
  · have hrates := (storeRates_rates r (vSetStep (closeInterval r s))).state
    calc t.droopTick
        = (runPlanner r (intervalMeasured r s)).droopTick := congrArg State.droopTick ht
      _ = (intervalMeasured r s).droopTick := runPlanner_droopTick ..
      _ = (storeRates r (vSetStep (closeInterval r s))).droopTick := noteEmpty_droopTick ..
      _ = s.droopTick := by rw [hrates]; rfl

theorem worklevelLoad_droopTick (c : CmdRef) {s t : State} (h : exec (.worklevelLoad c) s = .next t) : t.droopTick = s.droopTick := by
  rw [exec, execWorklevelLoad] at h
  rcases onCmd_next h with rfl | ⟨m, rfl⟩
  · rfl
  · simp only [withSg]
    split_ifs
    · rfl
    · split
      · split <;> rfl
      · rfl
      · rfl

theorem powerCapSet_droopTick (c : CmdRef) {s t : State} (h : exec (.powerCapSet c) s = .next t) : t.droopTick = s.droopTick := by
  rw [exec, execPowerCapSet] at h
  rcases onCmd_next h with rfl | ⟨m, rfl⟩
  · rfl
  · dsimp only
    split
    · rfl
    · split_ifs <;> rfl

theorem ballastSet_droopTick (c : CmdRef) {s t : State} (h : exec (.ballastSet c) s = .next t) : t.droopTick = s.droopTick := by
  rw [exec, execBallastSet] at h
  rcases onCmd_next h with rfl | ⟨m, rfl⟩
  · rfl
  · split <;> rfl

theorem energyAccountSet_droopTick (c : CmdRef) {s t : State} (h : exec (.energyAccountSet c) s = .next t) : t.droopTick = s.droopTick := by
  rw [exec, execEnergyAccountSet] at h
  rcases onCmd_next h with rfl | ⟨m, rfl⟩
  · rfl
  · dsimp only
    split_ifs <;> rfl

theorem droopRecovery_droopTick {s t : State} (h : exec .droopRecovery s = .next t) : t.droopTick = s.droopTick := by
  rw [exec, execDroopRecovery] at h
  rcases onTrigger_next h with rfl | rfl <;> rfl

theorem energyHorizonPassed_droopTick {s t : State} (h : exec .energyHorizonPassed s = .next t) : t.droopTick = s.droopTick := by
  rw [exec, execEnergyHorizonPassed] at h
  split at h
  · cases h; rfl
  · rcases onTrigger_next h with rfl | rfl <;> rfl

theorem autoIdle_droopTick {s t : State} (h : exec .autoIdle s = .next t) : t.droopTick = s.droopTick := by
  rw [exec, execAutoIdle] at h
  split at h
  · cases h; rfl
  · rcases onTrigger_next h with rfl | rfl <;> rfl

/-! ### A droop -/

/-- The power state of a droop: every metered grant at its floor grant or below (R742). -/
def PowerS.drooped (p : PowerS) (tick : Nat) : PowerS :=
  { p with droop := true, droopAt := tick, ramping := false, grants := p.grants.map fun e => (e.1, min e.2 (Tab.getD p.floors e.1 0)) }

/-- A droop while the main side is on. -/
theorem exec_powerDroop {s : State} {mask : BitVec 3} (hon : s.mainOn = true) (hmask : mask ≠ 0) :
    exec (.powerDroop mask) s = .next (droop mask s) := by
  rw [exec, execPowerDroop, onTrigger_fires]
  rw [hon, bne_iff_ne.2 hmask]
  rfl

/-- A droop raises its event when none was raised in the last second (R744). -/
theorem droop_raises {s : State} (mask : BitVec 3) (hfree : ∀ k, s.power.droopRaised = some k → 500000000 ≤ s.time.ticks - k) :
    droop mask s = (s.mapPower fun p => { p.drooped s.time.ticks with droopRaised := some s.time.ticks }).raise 0x8B02 mask.toNat := by
  refine if_pos ?_
  change s.power.droopRaised.all _ = true
  cases hk : s.power.droopRaised with
  | none => rfl
  | some k => exact decide_eq_true (hfree k hk)

/-- Within a second of it a droop raises nothing. -/
theorem droop_quiet {s : State} (mask : BitVec 3) {k : Nat} (hk : s.power.droopRaised = some k) (hrecent : s.time.ticks - k < 500000000) :
    droop mask s = s.mapPower fun p => p.drooped s.time.ticks := by
  refine if_neg ?_
  change ¬ s.power.droopRaised.all _ = true
  rw [hk]
  exact fun h => Nat.not_le.2 hrecent (of_decide_eq_true h)

/-- Settles O42: the horizon by its row; no power command but a droop touches the tick of the last POWER_DROOP. -/
theorem horizonAndDroopEventsAsStated : Obligations.HorizonAndDroopEventsAsStated := by
  refine ⟨?horizon, ?droops, ?keeps⟩
  case horizon =>
    intro s e h hacc hpassed
    refine ⟨(s.mapPower fun p => { p with account := none, lowestRaised := false }).raise 0x8B00 4, ?_, rfl, rfl⟩
    rw [exec, execEnergyHorizonPassed, hacc]
    exact onTrigger_fires s _ (decide_eq_true hpassed)
  case droops =>
    intro s mask hon hmask
    have hexec := exec_powerDroop hon hmask
    refine ⟨fun hfree => ?_, fun k hk hrecent => ?_⟩
    · rw [droop_raises mask hfree] at hexec
      exact ⟨_, _, hexec, rfl, rfl, BitVec.ofNat_toNat 16 mask, rfl⟩
    · rw [droop_quiet mask hk hrecent] at hexec
      exact ⟨_, hexec, rfl, hk⟩
  case keeps =>
    rintro s t (h | ⟨d, u, h⟩ | ⟨r, h⟩ | h | h | ⟨c, h | h | h | h⟩)
    · exact droopRecovery_droopTick h
    · exact grantPeriod_droopTick d u h
    · exact planningInterval_droopTick r h
    · exact energyHorizonPassed_droopTick h
    · exact autoIdle_droopTick h
    · exact powerCapSet_droopTick c h
    · exact ballastSet_droopTick c h
    · exact energyAccountSet_droopTick c h
    · exact worklevelLoad_droopTick c h

/-! ### The budget -/

theorem withDefault_in {x lo hi d : Nat} (hlo : lo ≤ x) (hhi : x ≤ hi) : withDefault x lo hi d = some x := if_pos ⟨hlo, hhi⟩

theorem withDefault_zero {lo hi d : Nat} (hlo : 0 < lo) : withDefault 0 lo hi d = some d := by
  rw [withDefault, if_neg (by omega), if_pos rfl]

theorem withDefault_out {x lo hi d : Nat} (hx : x ≠ 0) (h : x < lo ∨ hi < x) : withDefault x lo hi d = none := by
  rw [withDefault, if_neg (by omega), if_neg hx]

/-- A parameter with a default, read as the value it stands for. -/
theorem withDefault_eq {x lo hi d v : Nat} (hlo : 0 < lo) (hv : v = if x = 0 then d else x) (h1 : lo ≤ v) (h2 : v ≤ hi) :
    withDefault x lo hi d = some v := by
  subst hv
  by_cases hx : x = 0
  · rw [hx, withDefault_zero hlo, if_pos rfl]
  · rw [if_neg hx] at h1 h2 ⊢
    exact withDefault_in h1 h2

/-- No session runs exactly when no context has one. -/
theorem sessionCtxs_eq_nil_iff (s : State) : s.sessionCtxs = [] ↔ ∀ n, n < 8 → s.sessionAt n = none := by
  simp [State.sessionCtxs, List.filter_eq_nil_iff]

/-- The power state with the account that ENERGY_ACCOUNT_SET sets (R724). -/
def PowerS.withAccount (tick : Nat) (a : Option (Nat × Nat)) (p : PowerS) : PowerS :=
  { p with account := a, accountTick := tick, history := [], emptyRaised := false, lowestRaised := false }

/-- A droop, whether its event is raised or not, changes the power state as `PowerS.drooped` says (R742, R743). -/
theorem droop_drooped (mask : BitVec 3) (s : State) :
    (∃ k, (droop mask s).power = { s.power.drooped s.time.ticks with droopRaised := k }) ∧
    droop mask s = { s with power := (droop mask s).power, events := (droop mask s).events, tether := (droop mask s).tether } := by
  unfold droop
  dsimp only
  split
  · exact ⟨⟨_, rfl⟩, rfl⟩
  · exact ⟨⟨_, rfl⟩, rfl⟩

/-- What AUTO_IDLE leaves when its trigger holds (R749). -/
theorem exec_autoIdle {s : State} {k : Nat} (hk : s.life.idleSince = some k) (hon : s.mainOn = true) (hactive : s.life.powerState = 0)
    (hlong : 500000000 ≤ s.time.ticks - k) (hnone : ∀ n, n < 8 → (s.ctxAt n).admitted = false) :
    exec .autoIdle s = .next ((s.mapLife fun l => { l with powerState := 1, idleSince := none }).raise 0x8B04 1) := by
  rw [exec, execAutoIdle, hk]
  refine onTrigger_fires s _ ?_
  simp only [Bool.and_eq_true, List.all_eq_true, List.mem_range, Bool.not_eq_true', beq_iff_eq]
  exact ⟨⟨⟨hon, hactive⟩, decide_eq_true hlong⟩, hnone⟩

theorem exec_autoIdle_waits {s : State} {k : Nat} (hk : s.life.idleSince = some k) (hshort : s.time.ticks - k < 500000000) :
    exec .autoIdle s = .next s := by
  rw [exec, execAutoIdle, hk]
  refine onTrigger_idle s _ ?_
  have hnot : decide (msTicks 1000 ≤ s.since k) = false := decide_eq_false (Nat.not_le.2 hshort)
  rw [hnot]
  simp

/-- Settles O43: each command by its range, the droop by its effect. -/
theorem powerCommandsSetTheBudget : Obligations.PowerCommandsSetTheBudget := by
  refine ⟨?cap, ?account, ?ballast, ?levels, ?droop, fun s => ⟨?recovers, ?recoversLater⟩, ?idle⟩
  case cap =>
    rintro s c m cap u h hcap rfl
    have hzero : m.w 3 = 0 ↔ (m.w 3).toNat = 0 := by rw [← BitVec.toNat_inj]; rfl
    rw [if_congr hzero rfl rfl] at hcap
    refine ⟨fun hout => ?_, fun hlo hhi hfits => ?_, fun hlo hhi hunmet => ?_⟩
    · have hw : withDefault (m.w 3).toNat 10000 75000 75000 = none := withDefault_out (by rintro h0; simp [h0] at hcap; omega) (by
        rw [hcap] at hout; split at hout <;> omega)
      rw [exec, execPowerCapSet, onCmd_runs _ h, hw]
    · have hw := withDefault_eq (by decide) hcap hlo hhi
      obtain ⟨hans, hothers⟩ := State.done_of_began
        (u := (s.began c).mapPower fun p => { p with cap := cap, tetherCap := if m.isTether then cap else p.tetherCap }) OK 0 [] [] h.isSome rfl
      refine ⟨_, ?_, hans, hothers, rfl⟩
      rw [exec, execPowerCapSet, onCmd_runs _ h, hw]
      exact congrArg _ (if_neg fun hunmet => Nat.not_lt.2 hfits (of_decide_eq_true hunmet))
    · have hw := withDefault_eq (by decide) hcap hlo hhi
      obtain ⟨hans, hothers⟩ := State.done_of_began
        (u := ((s.began c).mapPower fun p => { p with cap := cap, tetherCap := if m.isTether then cap else p.tetherCap }).raise 0x8B01
          ((cap - cap * s.power.ballast / 1000) / 1000)) OK_DEGRADED 0 [] [] h.isSome rfl
      refine ⟨_, _, ?_, hans, rfl, rfl, rfl, hothers, rfl⟩
      rw [exec, execPowerCapSet, onCmd_runs _ h, hw]
      exact congrArg _ (if_pos (decide_eq_true hunmet))
  case account =>
    rintro s c m h hruns rfl
    have hzero : m.w 3 = 0 ↔ (m.w 3).toNat = 0 := by rw [← BitVec.toNat_inj]; rfl
    refine ⟨fun hne hpast => ?_, fun hset => ?_⟩
    · rw [exec, execEnergyAccountSet, onCmd_runs _ hruns]
      exact congrArg _ ((if_neg (hzero.not.1 hne)).trans (if_pos hpast))
    · obtain ⟨hans, hothers⟩ := State.done_of_began (u := (s.began c).mapPower (PowerS.withAccount s.time.ticks
        (if m.w 3 = 0 then none else some ((m.w 3).toNat * 1000000, (m.w 4).toNat + 2 ^ 32 * (m.w 5).toNat)))) OK 0 [] [] hruns.isSome rfl
      refine ⟨_, ?_, hans, rfl, rfl, rfl, rfl, rfl, rfl, hothers, rfl⟩
      rw [exec, execEnergyAccountSet, onCmd_runs _ hruns]
      by_cases h0 : m.w 3 = 0
      · rw [if_pos h0]
        exact congrArg _ (if_pos (hzero.1 h0))
      · rw [if_neg h0]
        exact congrArg _ ((if_neg (hzero.not.1 h0)).trans (if_neg (Nat.not_le.2 (hset.resolve_left h0))))
  case ballast =>
    intro s c m h
    refine ⟨fun hne hout => ?_, fun b hb hlo hhi => ?_⟩
    · rw [exec, execBallastSet, onCmd_runs _ h, withDefault_out hne hout]
    · obtain ⟨hans, hothers⟩ := State.done_of_began
        (u := (s.began c).mapPower fun p => { p with ballast := b, tetherBallast := if m.isTether then b else p.tetherBallast })
        OK 0 [] [] h.isSome rfl
      refine ⟨_, ?_, hans, rfl, Nat.div_mul_le_self .., rfl, hothers, rfl⟩
      rw [exec, execBallastSet, onCmd_runs _ h, withDefault_eq (by decide) hb hlo hhi]
      rfl
  case levels =>
    intro s c m h href
    refine ⟨fun ⟨n, hn, hsome⟩ => ?_, fun b hnone hb => ⟨fun hbad => ?_, fun hok => ?_⟩⟩
    · rw [exec, execWorklevelLoad, onCmd_runs _ h]
      refine congrArg _ (if_pos fun hnil => ?_)
      simp [(sessionCtxs_eq_nil_iff s).1 hnil n hn] at hsome
    · have hsg : sgIn m 3 (s.began c) = .bytes b := by rw [sgIn_began, hb]
      rw [exec, execWorklevelLoad, onCmd_runs _ h, if_neg (not_not.2 ((sessionCtxs_eq_nil_iff (s.began c)).2 hnone)), withSg, hsg]
      exact congrArg _ (if_neg (by simp [hbad]))
    · obtain ⟨hans, hothers⟩ := State.done_of_began (u := (s.began c).mapPower fun p => { p with table := b }) OK 0 [] [] h.isSome rfl
      have hsg : sgIn m 3 (s.began c) = .bytes b := by rw [sgIn_began, hb]
      refine ⟨_, ?_, hans, rfl, hothers, rfl⟩
      rw [exec, execWorklevelLoad, onCmd_runs _ h, if_neg (not_not.2 ((sessionCtxs_eq_nil_iff (s.began c)).2 hnone)), withSg, hsg]
      exact congrArg _ (if_pos hok)
  case droop =>
    intro s mask hon hmask
    obtain ⟨⟨k, hpower⟩, hframe⟩ := droop_drooped mask s
    refine ⟨_, exec_powerDroop hon hmask, ?_, ?_, ?_, fun i g hg => ?_, ?_, ?_, ?_, hframe⟩ <;> rw [hpower]
    · rfl
    · rfl
    · rfl
    · exact (Tab.get?_mapVals s.power.grants (fun i g => min g (Tab.getD s.power.floors i 0)) i).trans (by rw [hg]; rfl)
    · rfl
    · rfl
    · rfl
  case recovers =>
    intro hd ht
    rw [exec, execDroopRecovery, onTrigger_fires]
    · rfl
    · rw [hd]
      exact decide_eq_true ht
  case recoversLater =>
    intro h
    rw [exec, execDroopRecovery, onTrigger_idle]
    rcases h with h | h
    · rw [h]; rfl
    · rw [Bool.and_eq_false_iff]
      exact .inr (decide_eq_false (Nat.not_le.2 h))
  case idle =>
    intro s k hk hon hactive
    exact ⟨fun hlong hnone => ⟨_, _, exec_autoIdle hk hon hactive hlong hnone, rfl, rfl, rfl, rfl, rfl⟩, exec_autoIdle_waits hk⟩

end Sys2Proof.Machine

/-! ## Memory and steward faults -/

namespace Sys2Proof.Machine

/-! ### The vote -/

/-- Replacing an entry of a list that has it. -/
theorem setAt_eq_set {α : Type} {d : α} {l : List α} {i : Nat} {x : α} (hi : i < l.length) : setAt d l i x = l.set i x := by
  refine List.ext_getElem? fun j => ?_
  by_cases hj : j < l.length
  · have hmax : j < max l.length (i + 1) := by omega
    by_cases hij : i = j
    · subst hij; simp [setAt, hj]
    · simp [setAt, hmax, hj, hij, Ne.symm hij]
  · have hmax : ¬ j < max l.length (i + 1) := by omega
    simp [setAt, hmax, hj]

theorem getD_setAt {α : Type} (d d' : α) (l : List α) (i : Nat) (x : α) : (setAt d l i x).getD i d' = x := by
  rw [List.getD_eq_getElem?_getD, getElem?_setAt_self, Option.getD_some]

/-- A core that leaves the vote makes it one less. -/
theorem votes_leave {l : List Bool} {i : Nat} (hi : i < l.length) (h : l.getD i false = true) :
    ((setAt false l i false).filter id).length + 1 = (l.filter id).length := by
  have hin : l[i] = true := by simpa [hi] using h
  have hpos : 0 < l.countP id := List.countP_pos_iff.2 ⟨l[i], List.getElem_mem hi, hin⟩
  rw [setAt_eq_set hi, ← List.countP_eq_length_filter, ← List.countP_eq_length_filter, List.countP_set hi, hin]
  simp only [id, if_true]
  simp
  omega

/-- A core that rejoins makes it one more. -/
theorem votes_rejoin {l : List Bool} {i : Nat} (hi : i < l.length) (h : l.getD i true = false) :
    ((setAt false l i true).filter id).length = (l.filter id).length + 1 := by
  have hin : l[i] = false := by simpa [hi] using h
  rw [setAt_eq_set hi, ← List.countP_eq_length_filter, ← List.countP_eq_length_filter, List.countP_set hi, hin]
  simp

/-! ### Patrol reads and retired rows -/

/-- A patrol read while the main side is on. -/
theorem exec_patrolRead {s : State} (place : PatrolPlace) (hon : s.life.main ≠ .off) :
    exec (.patrolRead place .intact) s = .next s ∧
    exec (.patrolRead place .corrected) s = .next (match place with
      | .hbm ch reg row loc =>
        let u := s.mapDep fun d => { d with corrected := d.corrected + 1, rowHistory := d.rowHistory ++ [(ch, reg, row, loc, s.time.ticks)] }
        if rowWorn u.dep.rowHistory ch reg row s.time.ticks then u.requestMove 1 (.regionMove ch reg row) else u
      | _ => s.mapDep fun d => { d with corrected := d.corrected + 1 }) ∧
    exec (.patrolRead place .uncorrectable) s = .next (
      let u := s.mapDep fun d => { d with uncorrectable := d.uncorrectable + 1 }
      match place with
      | .tileRow t _ => u.raise 0x8C05 t
      | .commonsRow b _ => u.raise 0x8C05 (0x4000 + b)
      | .hbm ch reg row _ => (u.raise 0x8C05 (0x8000 + ch)).requestMove 1 (.regionMove ch reg row)) := by
  have hmain : s.mainOn = true := decide_eq_true hon
  refine ⟨onTrigger_fires s (fun s => s) hmain, ?_, ?_⟩ <;> rw [exec, execPatrolRead, onTrigger_fires s _ hmain] <;> cases place <;> rfl

theorem State.ledger_eq_age (s : State) (e : LedgerEntry) : s.ledger e = { s with age := (s.ledger e).age } := rfl

/-- What HBM_ROW_RETIRED makes of a row to be retired, `dep` being the repair state it leaves. -/
def rowRetired (ch second cause : Nat) (s : State) : State :=
  (s.ledger { kind := 4, subject := ch, subject2 := second }).raise 0x8C06 (ch * 4096 + cause)

/-- A retired row appends one ledger entry and raises its event (R816, R833). -/
theorem rowRetired_spec {s : State} (ch second cause : Nat) (hroom : s.age.ledger.length < 16384) :
    ∃ e d, (rowRetired ch second cause s).dep = s.dep ∧ (rowRetired ch second cause s).events = s.events ++ [e] ∧ e.code = 0x8C06 ∧
      e.detail = BitVec.ofNat 16 (ch * 4096 + cause) ∧ (rowRetired ch second cause s).age.ledger = s.age.ledger ++ [d] ∧ d.kind = 4 ∧
      rowRetired ch second cause s = { s with age := (rowRetired ch second cause s).age, events := (rowRetired ch second cause s).events,
                                              tether := (rowRetired ch second cause s).tether } := by
  have hledger := State.ledger_age { kind := 4, subject := ch, subject2 := second } hroom
  have hframe := State.ledger_eq_age s { kind := 4, subject := ch, subject2 := second }
  unfold rowRetired
  generalize s.ledger { kind := 4, subject := ch, subject2 := second } = u at hledger hframe
  generalize u.age = a at hledger hframe
  subst hframe
  exact ⟨_, _, rfl, rfl, rfl, rfl, hledger, rfl, rfl⟩

/-- What each outcome of a retired row is (R815, R816). -/
theorem exec_hbmRowRetired {s : State} {ch reg row : Nat} (h : s.dep.toRetire.contains (ch, reg, row) = true) :
    exec (.hbmRowRetired ch reg row false) s = .next (rowRetired ch (32768 + reg % 32768) 1 (s.mapDep fun d =>
      { d with toRetire := d.toRetire.filter (· != (ch, reg, row)), hbmRetired := d.hbmRetired ++ [(ch, reg)], retiredHbm := d.retiredHbm + 1 })) ∧
    exec (.hbmRowRetired ch reg row true) s = .next (rowRetired ch (0 + reg % 32768) 0 (s.mapDep fun d =>
      { d with toRetire := d.toRetire.filter (· != (ch, reg, row)), reserve := min 4096 (d.reserve + 1) })) := by
  constructor <;> rw [exec, execHbmRowRetired, onTrigger_fires s _ h] <;> rfl

/-- A transient store codeword counts one correction, of a tile in a band or of none. -/
theorem injectTile_codeword (t lane : Nat) (s : State) :
    injectTile 1 t lane false s = s.mapDep fun d => { d with corrected := d.corrected + 1 } := by
  cases hband : (s.tileAt t).band <;> simp [injectTile, hband]

/-- A fault of a tile in no band has no step to disturb. -/
theorem injectTile_unbound (lane : Nat) (p : Bool) {s : State} {t : Nat} (h : (s.tileAt t).band = none) : injectTile 2 t lane p s = s := by
  simp [injectTile, h]

/-- The state with core `core` out of the vote. -/
def coreOut (core : Nat) (s : State) : State := s.mapDep fun d => { d with voting := setAt false d.voting core false }

/-- The core voted out, in an update of its stages 3 to 6 with the rollback that it starts (R590, R810). -/
theorem exec_stewardFault {s : State} {core : Nat} (h : (s.mainOn && s.dep.voting.getD core false) = true) :
    exec (.stewardFault core) s = .next ((if 3 ≤ s.sec.stage ∧ s.sec.stage ≤ 6 then
      (coreOut core s).mapSec fun x => { x with rolling := true, faultRollback := true } else coreOut core s).raise 0x8C08
        (core * 16 + (coreOut core s).votingCount)) := by
  rw [exec, execStewardFault, onTrigger_fires s _ h]
  by_cases hstage : 3 ≤ s.sec.stage ∧ s.sec.stage ≤ 6
  · simp only [State.mapDep_sec, hstage, and_self, if_true]
    rfl
  · simp only [State.mapDep_sec, hstage, if_false]
    rfl

/-- Settles O47: by the result of a patrol read, the repair resource of a row, the core's vote and the fault injected. -/
theorem memoryAndStewardFaultsAreCounted : Obligations.MemoryAndStewardFaultsAreCounted := by
  refine ⟨?patrol, ?retired, ?steward, ?inject⟩
  case patrol =>
    intro s place hon
    obtain ⟨hintact, hcorrected, huncorrectable⟩ := exec_patrolRead place hon
    refine ⟨hintact, ⟨_, hcorrected, ?_⟩, ?_⟩
    · cases place with
      | tileRow t r => exact ⟨rfl, rfl, rfl, rfl⟩
      | commonsRow b r => exact ⟨rfl, rfl, rfl, rfl⟩
      | hbm ch reg row loc =>
        dsimp only
        split
        · rw [State.requestMove_eq]
          exact ⟨rfl, rfl, rfl, rfl⟩
        · exact ⟨rfl, rfl, rfl, rfl⟩
    · cases place with
      | tileRow t r => exact ⟨_, _, huncorrectable, rfl, rfl, rfl, rfl, rfl⟩
      | commonsRow b r => exact ⟨_, _, huncorrectable, rfl, rfl, rfl, rfl, rfl⟩
      | hbm ch reg row loc =>
        simp only at huncorrectable
        rw [State.requestMove_eq] at huncorrectable
        exact ⟨_, _, huncorrectable, rfl, rfl, rfl, rfl, rfl⟩
  case retired =>
    intro s ch reg row hlisted hroom
    have hgone : (s.dep.toRetire.filter (· != (ch, reg, row))).contains (ch, reg, row) = false := by simp
    obtain ⟨hretired, hrepaired⟩ := exec_hbmRowRetired hlisted
    constructor
    · obtain ⟨e, d, hdep, hevents, hcode, hdetail, hledger, hkind, hframe⟩ := rowRetired_spec (s := s.mapDep fun d =>
        { d with toRetire := d.toRetire.filter (· != (ch, reg, row)), hbmRetired := d.hbmRetired ++ [(ch, reg)], retiredHbm := d.retiredHbm + 1 })
        ch (32768 + reg % 32768) 1 hroom
      refine ⟨_, e, d, hretired, ?_, ?_, ?_, ?_, hevents, hcode, hdetail, hledger, hkind, ?_⟩
      · rw [hdep]; exact hgone
      · rw [hdep]; rfl
      · rw [hdep]; rfl
      · rw [hdep]; rfl
      · rw [hdep]; exact hframe
    · obtain ⟨e, d, hdep, hevents, hcode, hdetail, hledger, hkind, hframe⟩ := rowRetired_spec (s := s.mapDep fun d =>
        { d with toRetire := d.toRetire.filter (· != (ch, reg, row)), reserve := min 4096 (d.reserve + 1) }) ch (0 + reg % 32768) 0 hroom
      refine ⟨_, e, d, hrepaired, ?_, ?_, ?_, ?_, hevents, hcode, by rw [hdetail, Nat.add_zero], hledger, hkind, ?_⟩
      · rw [hdep]; exact hgone
      · rw [hdep]; rfl
      · rw [hdep]; rfl
      · rw [hdep]; rfl
      · rw [hdep]; exact hframe
  case steward =>
    intro s core hon hcore hthree
    have hmain : s.mainOn = true := decide_eq_true hon
    have hi : core < s.dep.voting.length := by omega
    refine ⟨fun hvotes => ?_, fun hout hstage => ?_⟩
    · have hfires : (s.mainOn && s.dep.voting.getD core false) = true := by rw [hmain, hvotes]; rfl
      have hexec := exec_stewardFault hfires
      by_cases hstage : 3 ≤ s.sec.stage ∧ s.sec.stage ≤ 6
      · rw [if_pos hstage] at hexec
        exact ⟨_, _, hexec, getD_setAt .., votes_leave hi hvotes, rfl, rfl, rfl, fun h => absurd hstage.1 (Nat.not_le.2 h), rfl⟩
      · rw [if_neg hstage] at hexec
        exact ⟨_, _, hexec, getD_setAt .., votes_leave hi hvotes, rfl, rfl, rfl, fun _ => rfl, rfl⟩
    · have hfires : (s.mainOn && decide (core < 3) && !s.dep.voting.getD core true && !decide (3 ≤ s.sec.stage ∧ s.sec.stage ≤ 5)) = true := by
        rw [hmain, hout, decide_eq_true hcore, decide_eq_false hstage]
        rfl
      rw [exec, execStewardRejoin, onTrigger_fires s _ hfires]
      exact ⟨_, _, rfl, getD_setAt .., votes_rejoin hi hout, rfl, rfl, rfl, rfl⟩
  case inject =>
    intro s c m h
    rw [exec, execDiagFaultInject, onCmd_runs _ h]
    have halone : (∀ n ∈ s.sessionCtxs, n = 0) → ¬ ((s.began c).sessionCtxs.any (· ≠ 0)) = true := by
      intro hall hany
      obtain ⟨n, hn, hne⟩ := List.any_eq_true.1 hany
      exact of_decide_eq_true hne (hall n hn)
    refine ⟨fun hctx => congrArg _ (if_pos hctx), fun hctx ⟨n, hn, hne⟩ => ?busy, fun hctx hall hbad => ?bad,
      fun hctx hall htarget hunit hp => ?store, fun hctx hall htarget hunit hfree => ?tile⟩
    case busy =>
      refine congrArg _ ((if_neg (not_not.2 hctx)).trans (if_pos ?_))
      exact List.any_eq_true.2 ⟨n, hn, decide_eq_true hne⟩
    case bad =>
      refine congrArg _ ((if_neg (not_not.2 hctx)).trans ((if_neg (halone hall)).trans ((if_neg ?_).trans (if_pos ?_)))) <;> omega
    case store =>
      obtain ⟨hans, hothers⟩ :=
        State.done_of_began (u := (s.began c).mapDep fun d => { d with corrected := d.corrected + 1 }) OK 0 [] [] h.isSome rfl
      refine ⟨_, congrArg _ ((if_neg (not_not.2 hctx)).trans ((if_neg (halone hall)).trans ((if_neg ?_).trans ((if_neg ?_).trans ?_)))),
        hans, rfl, hothers, rfl⟩
      · omega
      · omega
      · rw [htarget, hp, injectTile_codeword]
        rfl
    case tile =>
      refine congrArg _ ((if_neg (not_not.2 hctx)).trans ((if_neg (halone hall)).trans ((if_neg ?_).trans ((if_neg ?_).trans ?_))))
      · omega
      · omega
      · rw [htarget, injectTile_unbound _ _ (s := s.began c) hfree]

end Sys2Proof.Machine

/-! ## Re-planning of the margin -/

namespace Sys2Proof.Machine

/-- Events of code MARGIN_LOW and the thresholds reached are all that MARGIN_LOW touches (R831). -/
structure MarginNoted (s t : State) : Prop where
  state : t = { s with age := t.age, events := t.events, tether := t.tether }
  age : t.age = { s.age with lowRaised := t.age.lowRaised }
  events : s.events <+: t.events

theorem marginLow_noted (s : State) : MarginNoted s (marginLow s) := by
  refine forEach_keeps (P := MarginNoted s) _ _ (fun x _ u hu => ?_) ⟨rfl, rfl, List.prefix_rfl⟩
  obtain ⟨hstate, hage, hevents⟩ := hu
  split
  · refine ⟨?_, ?_, hevents.trans (List.prefix_append ..)⟩
    · rw [hstate]; rfl
    · change ({ u.age with lowRaised := x :: u.age.lowRaised } : AgeS) = _
      rw [hage]
      rfl
  · exact ⟨hstate, hage, hevents⟩

/-- The ordered supply is within its range, and V_REQ where that is (R827, R828). -/
theorem vSetOf_range (v : Int) : 800 ≤ vSetOf v ∧ vSetOf v ≤ 880 ∧ (800 ≤ v → v ≤ 880 → Int.ofNat (vSetOf v) = v) := by
  unfold vSetOf
  refine ⟨by omega, by omega, fun h1 h2 => ?_⟩
  rw [Int.ofNat_eq_natCast]
  omega

/-- V_REQ is rounded up: the lost speed over the sensitivity, rounded down, comes off 810 mV (Table 20-1). -/
theorem vReq_rounds {r : MarginReport} (h : 0 < r.s1000) :
    (810 - MarginReport.vReq r) * r.s1000 ≤ (Int.ofNat r.rSlow - 1050) * 1000 ∧
    (Int.ofNat r.rSlow - 1050) * 1000 < (811 - MarginReport.vReq r) * r.s1000 := by
  have hpos : (0 : Int) < Int.ofNat r.s1000 := Int.natCast_pos.2 h
  have hlow := Int.ediv_mul_le ((Int.ofNat r.rSlow - 1050) * 1000) (Int.ne_of_gt hpos)
  have hhigh := Int.lt_ediv_add_one_mul_self ((Int.ofNat r.rSlow - 1050) * 1000) hpos
  unfold MarginReport.vReq
  rw [Int.sub_sub_self]
  exact ⟨hlow, lt_of_lt_of_eq hhigh (by congr 1; omega)⟩

/-- An applied result before MARGIN_LOW: V_SET and the margin set, the entry written, the event raised (R827, R832). -/
def marginEntry (r : MarginReport) (s : State) : State :=
  ((s.mapAge fun a => { a with vTarget := vSetOf (MarginReport.vReq r), margin := 880 - MarginReport.vReq r }).ledger
    { kind := 1, subject := r.tile, vReq := MarginReport.vReq r, vSet := vSetOf (MarginReport.vReq r), rSlow := r.rSlow, tjMean := r.tjMean,
      tjMax := r.tjMax }).raise 0x8C10 ((880 - MarginReport.vReq r) % 65536).toNat

theorem applyReplan_eq (r : MarginReport) (s : State) : applyReplan r s = marginLow (marginEntry r s) := rfl

/-- What an applied result leaves (R827, R831, R832). -/
theorem applyReplan_spec (r : MarginReport) (s : State) :
    (applyReplan r s).age.vTarget = vSetOf (MarginReport.vReq r) ∧ (applyReplan r s).age.margin = 880 - MarginReport.vReq r ∧
    (applyReplan r s).age.replan = s.age.replan ∧ (applyReplan r s).age.vSet = s.age.vSet ∧ (applyReplan r s).age.store = s.age.store ∧
    (∃ e ∈ (applyReplan r s).events, e.code = 0x8C10) ∧
    (s.age.ledger.length < 16384 → ∃ e, (applyReplan r s).age.ledger = s.age.ledger ++ [e] ∧ e.kind = 1 ∧ e.subject = r.tile ∧
      e.vReq = MarginReport.vReq r ∧ e.rSlow = r.rSlow ∧ e.deviceTime = s.devTime) ∧
    applyReplan r s = { s with age := (applyReplan r s).age, events := (applyReplan r s).events, tether := (applyReplan r s).tether } := by
  obtain ⟨hstate, hage, hevents⟩ := marginLow_noted (marginEntry r s)
  rw [applyReplan_eq]
  generalize marginLow (marginEntry r s) = t at hstate hage hevents
  refine ⟨?_, ?_, ?_, ?_, ?_, ⟨_, hevents.subset (List.mem_append_right _ (List.mem_singleton_self _)), rfl⟩, fun hroom => ?_, ?_⟩
  · rw [hage]; rfl
  · rw [hage]; rfl
  · rw [hage]; rfl
  · rw [hage]; rfl
  · rw [hage]; rfl
  · have hledger := State.ledger_age (s := s.mapAge fun a => { a with vTarget := vSetOf (MarginReport.vReq r), margin := 880 - MarginReport.vReq r })
      { kind := 1, subject := r.tile, vReq := MarginReport.vReq r, vSet := vSetOf (MarginReport.vReq r), rSlow := r.rSlow, tjMean := r.tjMean,
        tjMax := r.tjMax } hroom
    rw [hage]
    exact ⟨_, hledger, rfl, rfl, rfl, rfl, rfl⟩
  · rw [hstate]; rfl

/-- What a command was answered does not change while the command stays as it is. -/
theorem State.answered_of_findCmd {s t : State} {c : CmdRef} {st d : Nat} {b : List Word} (h : t.findCmd c = s.findCmd c)
    (hans : s.answered c st d b) : t.answered c st d b := by
  have hreply : t.replyOf c = s.replyOf c := by rw [State.replyOf, State.replyOf, h]
  rw [State.answered, hreply]
  exact hans

/-- Ending each of a list of commands answers those that are outstanding and leaves the others. -/
theorem forEach_done_spec (l : List CmdRef) (st d : Nat) (b : List Word) (s : State) :
    (∀ c, c ∈ l → (s.findCmd c).isSome = true → (forEach l (fun c s => s.done c st d b) s).answered c st d b) ∧
    (∀ e, e ∉ l → (forEach l (fun c s => s.done c st d b) s).findCmd e = s.findCmd e) ∧
    forEach l (fun c s => s.done c st d b) s = { s with cmds := (forEach l (fun c s => s.done c st d b) s).cmds } := by
  refine ⟨fun c hc hsome => ?_, fun e he => ?_, ?_⟩
  · refine forEach_establishes (P := fun u => (u.findCmd c).isSome = true) (Q := fun u => u.answered c st d b) l _ (fun x _ u hu => ?_)
      (fun x _ u hu hans => ?_) hc (fun u hu => State.answered_done st d b [] hu) hsome
    · by_cases hx : c = x
      · subst hx
        simpa [State.done] using hu
      · rw [otherCmds_done u x st d b [] c hx]
        exact hu
    · by_cases hx : c = x
      · subst hx
        exact State.answered_done st d b [] hu
      · exact State.answered_of_findCmd (otherCmds_done u x st d b [] c hx) hans
  · refine forEach_keeps (P := fun u => u.findCmd e = s.findCmd e) l _ (fun x hx u hu => ?_) rfl
    exact (otherCmds_done u x st d b [] e (fun h => he (h ▸ hx))).trans hu
  · refine forEach_keeps (P := fun u => u = { s with cmds := u.cmds }) l _ (fun x _ u hu => ?_) rfl
    rw [State.done_eq, hu]

theorem requestReplan_none {s : State} (apply : Bool) (l : List CmdRef) (h : s.age.replan = none) :
    requestReplan apply l s = s.mapAge fun a => { a with replan := some (apply, l) } := by
  simp [requestReplan, State.mapAge, h]

theorem requestReplan_some {s : State} {a : Bool} {k : List CmdRef} (apply : Bool) (l : List CmdRef) (h : s.age.replan = some (a, k)) :
    requestReplan apply l s = s.mapAge fun x => { x with replan := some (a || apply, k ++ l) } := by
  simp [requestReplan, State.mapAge, h]

/-- The request of an operating day, `day` being its length (R825). -/
theorem requestReplan_day (s : State) (day : Nat) :
    ∃ t l, requestReplan true [] (s.mapAge fun a => { a with sinceDaily := a.sinceDaily - day }) = t ∧ t.age.replan = some (true, l) ∧
      (∀ a k, s.age.replan = some (a, k) → l = k) ∧ (s.age.replan = none → l = []) ∧ t.age.sinceDaily = s.age.sinceDaily - day ∧
      t.age.ledger = s.age.ledger ∧ t.age.vTarget = s.age.vTarget ∧ t = { s with age := t.age } := by
  cases hreplan : s.age.replan with
  | none =>
    rw [requestReplan_none (s := s.mapAge fun a => { a with sinceDaily := a.sinceDaily - day }) _ _ hreplan]
    exact ⟨_, [], rfl, rfl, fun a k h => (nomatch h), fun _ => rfl, rfl, rfl, rfl, rfl⟩
  | some p =>
    obtain ⟨a, k⟩ := p
    rw [requestReplan_some (s := s.mapAge fun a => { a with sinceDaily := a.sinceDaily - day }) _ _ hreplan]
    refine ⟨_, k, rfl, ?_, fun a' k' h => ?_, fun h => (nomatch h), rfl, rfl, rfl, rfl⟩
    · exact congrArg some (Prod.ext (Bool.or_true a) (List.append_nil k))
    · cases h; rfl

/-- The state in which a re-planning that has completed answers its commands. -/
def replanApplied (apply : Bool) (r : MarginReport) (s : State) : State :=
  if apply then applyReplan r (s.mapAge fun a => { a with replan := none }) else s.mapAge fun a => { a with replan := none }

/-- The projected life, of which fewer than 7 margin entries say nothing (R829). -/
def lifeOf (r : MarginReport) (s : State) : Nat := if (s.age.ledger.filter fun e => e.kind == 1).length < 7 then 0xFFFFFFFF else r.life

/-- A result that is only reported ends the re-planning and changes nothing else; an applied one is as `applyReplan_spec` says. -/
theorem replanApplied_spec (apply : Bool) (r : MarginReport) (s : State) :
    (replanApplied apply r s).cmds = s.cmds ∧ (replanApplied apply r s).age.replan = none ∧ (replanApplied apply r s).age.vSet = s.age.vSet ∧
    (replanApplied apply r s).age.store = s.age.store ∧
    (apply = false → (replanApplied apply r s).age = { s.age with replan := none } ∧ (replanApplied apply r s).events = s.events) ∧
    (apply = true → 800 ≤ (replanApplied apply r s).age.vTarget ∧ (replanApplied apply r s).age.vTarget ≤ 880 ∧
      (800 ≤ MarginReport.vReq r → MarginReport.vReq r ≤ 880 → Int.ofNat (replanApplied apply r s).age.vTarget = MarginReport.vReq r) ∧
      (replanApplied apply r s).age.margin = 880 - MarginReport.vReq r ∧ (∃ e ∈ (replanApplied apply r s).events, e.code = 0x8C10) ∧
      (s.age.ledger.length < 16384 → ∃ e, (replanApplied apply r s).age.ledger = s.age.ledger ++ [e] ∧ e.kind = 1 ∧ e.subject = r.tile ∧
        e.vReq = MarginReport.vReq r ∧ e.rSlow = r.rSlow ∧ e.deviceTime = s.devTime)) ∧
    replanApplied apply r s = { s with age := (replanApplied apply r s).age, events := (replanApplied apply r s).events,
                                       tether := (replanApplied apply r s).tether } := by
  cases apply with
  | false => exact ⟨rfl, rfl, rfl, rfl, fun _ => ⟨rfl, rfl⟩, fun h => (nomatch h), rfl⟩
  | true =>
    obtain ⟨htarget, hmargin, hreplan, hset, hstore, hraised, hentry, hstate⟩ := applyReplan_spec r (s.mapAge fun a => { a with replan := none })
    obtain ⟨hlo, hhi, hin⟩ := vSetOf_range (MarginReport.vReq r)
    have happly : replanApplied true r s = applyReplan r (s.mapAge fun a => { a with replan := none }) := rfl
    rw [happly]
    generalize applyReplan r (s.mapAge fun a => { a with replan := none }) = u at *
    rw [← htarget] at hlo hhi hin
    exact ⟨by rw [hstate]; rfl, hreplan, hset, hstore, fun h => (nomatch h), fun _ => ⟨hlo, hhi, hin, hmargin, hraised, hentry⟩,
      by rw [hstate]; rfl⟩

/-- Settles O48: by the request, the day and the result. -/
theorem marginReplanningJoinsAndApplies : Obligations.MarginReplanningJoinsAndApplies := by
  refine ⟨?request, ?daily, ?completes⟩
  case request =>
    intro s c m h
    rw [exec, execMarginReplan, onCmd_runs _ h]
    refine ⟨fun hctx => congrArg _ (if_pos hctx), fun hctx hnone => ?_, fun a l hctx hsome => ?_⟩
    · refine congrArg _ ((if_neg (not_not.2 hctx)).trans ?_)
      rw [requestReplan_none (s := s.began c) _ _ hnone]
    · refine congrArg _ ((if_neg (not_not.2 hctx)).trans ?_)
      rw [requestReplan_some (s := s.began c) _ _ hsome]
  case daily =>
    intro s hon
    refine ⟨fun hshort => ?_, fun hlong => ?_⟩
    · rw [exec, execMarginReplanDaily, onTrigger_idle]
      rw [hon]
      exact decide_eq_false (Nat.not_le.2 hshort)
    · have hfires : (s.mainOn && decide (opDay ≤ s.age.sinceDaily)) = true := by
        rw [hon]
        exact decide_eq_true hlong
      rw [exec, execMarginReplanDaily, onTrigger_fires s _ hfires]
      obtain ⟨t, l, ht, hreplan, hjoined, hfresh, hsince, hledger, htarget, hframe⟩ := requestReplan_day s opDay
      exact ⟨t, l, congrArg _ ht, hreplan, hjoined, hfresh, hsince, hledger, htarget, hframe⟩
  case completes =>
    rintro s r apply l v hreplan hpos rfl
    obtain ⟨hlow, hhigh⟩ := vReq_rounds hpos
    refine ⟨hlow, hhigh, ?_⟩
    have hexec : exec (.marginReplanned r) s = .next (forEach l (fun c u => u.done c OK 0 [wInt (880 - MarginReport.vReq r), w32 (lifeOf r
        (replanApplied apply r s))]) (replanApplied apply r s)) := by
      rw [exec, execMarginReplanned, hreplan]
      dsimp only
      rw [onTrigger_fires s _ (decide_eq_true hpos)]
      rfl
    obtain ⟨hcmds, hreplanned, hset, hstore, hreported, happlied, hstate⟩ := replanApplied_spec apply r s
    generalize replanApplied apply r s = u at hexec hcmds hreplanned hset hstore hreported happlied hstate
    obtain ⟨hans, hothers, hframe⟩ := forEach_done_spec l OK 0 [wInt (880 - MarginReport.vReq r), w32 (lifeOf r u)] u
    generalize forEach l (fun c s => s.done c OK 0 [wInt (880 - MarginReport.vReq r), w32 (lifeOf r u)]) u = t at hexec hans hothers hframe
    have hage : t.age = u.age := by rw [hframe]
    have hevents : t.events = u.events := by rw [hframe]
    have hfind (d : CmdRef) : u.findCmd d = s.findCmd d := State.findCmd_congr hcmds d
    refine ⟨t, w32 (lifeOf r u), hexec, ?_, ?_, ?_, ?_, ?_, ?_, fun c hc hsome => hans c hc (by rw [hfind]; exact hsome),
      fun d hd => (hothers d hd).trans (hfind d), ?_⟩ <;> (try rw [hage]) <;> (try rw [hevents])
    · exact hreplanned
    · exact hreported
    · exact happlied
    · exact hset
    · exact hstore
    · rw [lifeOf, apply_ite w32]
      rfl
    · rw [hframe, hstate]

end Sys2Proof.Machine

/-! ## What the end of work leaves standing

`State.standing` is the part of the state that no end of a session, program, query, map or command of a context touches: the clocks, the
claims of the Tether and of the ports, the configuration of power and firmware, the records held for the link. A few operations touch one
field of it; for them the lemma speaks of the others. -/

namespace Sys2Proof.Machine

/-- The life state without the two fields that the end of a program may change (R749, R753). -/
def LifeS.steady (l : LifeS) : LifeS := { l with idleSince := none, powerState := 0 }

/-- The power state without the recoveries that are reported when they end (R717, Table 17-8). -/
def PowerS.steady (p : PowerS) : PowerS := { p with recoveries := [] }

/-- What resets and safe stop leave of the module's scope. -/
structure Lasting where
  time : TimeS
  sources : List SourceS
  islands : Tab IslandS
  linkDownTick : Option Nat
  claims : BitVec 16
  endpoint : Option Byte
  life : LifeS
  power : PowerS
  flash : List Byte
  stage : Nat
  store : Tab CalibRec

structure Standing where
  pending : List Instr
  lasting : Lasting
  owners : Nat → Option Nat
  held : List HeldRec
  sec : SecS
  age : AgeS
  fns : Tab FnRegs
  refs : List CmdRef
  running : Nat → Bool
  loaded : Nat → Bool

def State.lasting (s : State) : Lasting :=
  { time := s.time, sources := s.sources, islands := s.islands, linkDownTick := s.linkDownTick, claims := s.tether.claims,
    endpoint := s.tether.endpoint, life := s.life.steady, power := s.power.steady, flash := s.sec.flash, stage := s.sec.stage, store := s.age.store }

/-- Who claims each port (R163). -/
def portOwners (t : Tab PortS) (p : Nat) : Option Nat := (Tab.getD t p {}).owner

/-- Where the outstanding commands stand. -/
def cmdRefs (l : List Cmd) : List CmdRef := l.map (·.ref)

/-- Which contexts have a session, and which an image. -/
def runningIn (t : Tab CtxS) (n : Nat) : Bool := (Tab.getD t n {}).session.isSome
def loadedIn (t : Tab CtxS) (n : Nat) : Bool := (Tab.getD t n {}).image.isSome

def State.standing (s : State) : Standing :=
  { pending := s.pending, lasting := s.lasting, owners := portOwners s.ports, held := s.held, sec := s.sec, age := s.age, fns := s.fns,
    refs := cmdRefs s.cmds, running := runningIn s.ctxs, loaded := loadedIn s.ctxs }

/-- A state written out by its fields: the other fields do not matter. -/
@[simp] theorem State.standing_mk : ∀ pending cmds fns tether outbox hostMem hostBad life outputs events eventLimit time reel targets
    ports lidars filters imu0 streams engines quad ctxs nextSession held linkDownTick maps queries nextQuery tiles bands rvs commons
    objs reuse jobs jobSeq pairs power sources islands dep age sec epoch free,
    (State.mk pending cmds fns tether outbox hostMem hostBad life outputs events eventLimit time reel targets ports lidars filters imu0
      streams engines quad ctxs nextSession held linkDownTick maps queries nextQuery tiles bands rvs commons objs reuse jobs jobSeq pairs
      power sources islands dep age sec epoch free).standing =
    ⟨pending, ⟨time, sources, islands, linkDownTick, tether.claims, tether.endpoint, life.steady, power.steady, sec.flash, sec.stage, age.store⟩,
      portOwners ports, held, sec, age, fns, cmdRefs cmds, runningIn ctxs, loadedIn ctxs⟩ := by
  intros; rfl

@[simp] theorem State.standing_parts (s : State) :
    (⟨s.pending, ⟨s.time, s.sources, s.islands, s.linkDownTick, s.tether.claims, s.tether.endpoint, s.life.steady, s.power.steady, s.sec.flash,
      s.sec.stage, s.age.store⟩, portOwners s.ports, s.held, s.sec, s.age, s.fns, cmdRefs s.cmds, runningIn s.ctxs, loadedIn s.ctxs⟩ : Standing) =
    s.standing := rfl

/-- What stands where an image, or a session and its image, may go. -/
def Standing.unloaded (x : Standing) : Standing := { x with loaded := fun _ => false }
def Standing.untenanted (x : Standing) : Standing := { x with running := fun _ => false, loaded := fun _ => false }

theorem untenanted_of_unloaded {x y : Standing} (h : x.unloaded = y.unloaded) : x.untenanted = y.untenanted :=
  congrArg (fun z : Standing => { z with running := fun _ => false }) h

/-! ### Elementary updates, events, commands -/

/-- An update of a context that keeps its session and its image. -/
@[simp] theorem State.updCtx_standing {s : State} {n : Nat} {f : CtxS → CtxS} (h : (f (s.ctxAt n)).session.isSome = (s.ctxAt n).session.isSome)
    (h' : (f (s.ctxAt n)).image.isSome = (s.ctxAt n).image.isSome) : (s.updCtx n f).standing = s.standing := by
  have hrunning : runningIn (s.updCtx n f).ctxs = runningIn s.ctxs := by
    funext k
    change ((s.updCtx n f).ctxAt k).session.isSome = (s.ctxAt k).session.isSome
    rw [State.ctxAt_updCtx]
    split
    case isTrue e => rw [h, e]
    case isFalse => rfl
  have hloaded : loadedIn (s.updCtx n f).ctxs = loadedIn s.ctxs := by
    funext k
    change ((s.updCtx n f).ctxAt k).image.isSome = (s.ctxAt k).image.isSome
    rw [State.ctxAt_updCtx]
    split
    case isTrue e => rw [h', e]
    case isFalse => rfl
  rw [State.standing, hrunning, hloaded]
  rfl

/-- An update of a context that keeps its session. -/
theorem State.updCtx_unloaded {s : State} {n : Nat} {f : CtxS → CtxS} (h : (f (s.ctxAt n)).session.isSome = (s.ctxAt n).session.isSome) :
    (s.updCtx n f).standing.unloaded = s.standing.unloaded := by
  have hrunning : runningIn (s.updCtx n f).ctxs = runningIn s.ctxs := by
    funext k
    change ((s.updCtx n f).ctxAt k).session.isSome = (s.ctxAt k).session.isSome
    rw [State.ctxAt_updCtx]
    split
    case isTrue e => rw [h, e]
    case isFalse => rfl
  rw [State.standing, hrunning]
  rfl

theorem State.updCtx_untenanted (s : State) (n : Nat) (f : CtxS → CtxS) : (s.updCtx n f).standing.untenanted = s.standing.untenanted := rfl

@[simp] theorem State.updChan_standing (s : State) (n : Nat) (f : ChannelS → ChannelS) : (s.updChan n f).standing = s.standing := by rfl
@[simp] theorem State.updReel_standing (s : State) (n : Nat) (f : ReelEntry → ReelEntry) : (s.updReel n f).standing = s.standing := by rfl
@[simp] theorem State.updTile_standing (s : State) (n : Nat) (f : TileS → TileS) : (s.updTile n f).standing = s.standing := by rfl
/-- An update of a command that leaves it in its place. -/
@[simp] theorem State.updCmd_standing {s : State} {c : CmdRef} {f : Cmd → Cmd} (h : ∀ m, (f m).ref = m.ref) : (s.updCmd c f).standing = s.standing := by
  have hrefs : cmdRefs (s.updCmd c f).cmds = cmdRefs s.cmds := by
    rw [cmdRefs, cmdRefs, State.updCmd, List.map_map]
    refine List.map_congr_left fun m _ => ?_
    rw [Function.comp_apply]
    split
    · exact h m
    · rfl
  rw [State.standing, hrefs]
  rfl

@[simp] theorem State.send_standing (s : State) (x : OutMsg) : (s.send x).standing = s.standing := by rfl
@[simp] theorem State.mapDep_standing (s : State) (f : DepS → DepS) : (s.mapDep f).standing = s.standing := by rfl
@[simp] theorem State.closeSnap_standing (s : State) (h : SnapHolder) : (s.closeSnap h).standing = s.standing := by rfl
@[simp] theorem State.endCmd_standing (s : State) (c : CmdRef) (r : Reply) : (s.endCmd c r).standing = s.standing :=
  State.updCmd_standing fun _ => rfl
@[simp] theorem State.commit_standing (s : State) (c : CmdRef) : (s.commit c).standing = s.standing :=
  State.updCmd_standing fun m => by split <;> rfl
@[simp] theorem State.done_standing (s : State) (c : CmdRef) (status detail : Nat) (body : List Word) (inlineOut : List Byte) :
    (s.done c status detail body inlineOut).standing = s.standing :=
  (State.endCmd_standing ..).trans (State.commit_standing ..)
@[simp] theorem State.refuse_standing (s : State) (c : CmdRef) (status detail : Nat) : (s.refuse c status detail).standing = s.standing :=
  State.endCmd_standing ..
@[simp] theorem State.refuseOpen_standing (s : State) (c : CmdRef) (status : Nat) : (s.refuseOpen c status).standing = s.standing :=
  State.endCmd_standing ..
@[simp] theorem State.credit_standing (s : State) (n tier g : Nat) : (s.credit n tier g).standing = s.standing :=
  State.updCtx_standing (by split_ifs <;> rfl) (by split_ifs <;> rfl)
@[simp] theorem State.dropQueued_standing (s : State) (c : CmdRef) : (s.dropQueued c).standing = s.standing := by rfl
@[simp] theorem State.updMap_standing (s : State) (n : Nat) (f : MapS → MapS) : (s.updMap n f).standing = s.standing := by
  unfold State.updMap; split <;> rfl

@[simp] theorem State.updObj_standing (s : State) (n : Nat) (f : ObjS → ObjS) : (s.updObj n f).standing = s.standing := by
  unfold State.updObj; split <;> rfl

@[simp] theorem State.updSession_standing (s : State) (n : Nat) (f : SessionS → SessionS) : (s.updSession n f).standing = s.standing := by
  unfold State.updSession
  split
  · next x hx => exact State.updCtx_standing (by rw [hx]; rfl) rfl
  · rfl

@[simp] theorem State.updPort_standing {s : State} {n : Nat} {f : PortS → PortS} (h : ∀ q, (f q).owner = q.owner) :
    (s.updPort n f).standing = s.standing := by
  have howners : portOwners (s.updPort n f).ports = portOwners s.ports := by
    funext p
    change ((s.updPort n f).portAt p).owner = (s.portAt p).owner
    rw [State.portAt_updPort]
    split
    case isTrue e => rw [h, e]
    case isFalse => rfl
  rw [State.standing, howners]
  rfl

@[simp] theorem State.mapLife_standing {s : State} {f : LifeS → LifeS} (h : ∀ l, (f l).steady = l.steady) :
    (s.mapLife f).standing = s.standing := by
  rw [State.standing, State.lasting, State.mapLife_life, h]
  rfl

@[simp] theorem State.mapPower_standing {s : State} {f : PowerS → PowerS} (h : ∀ p, (f p).steady = p.steady) :
    (s.mapPower f).standing = s.standing := by
  rw [State.standing, State.lasting, State.mapPower_power, h]
  rfl

@[simp] theorem forEach_standing {α : Type} {l : List α} {f : α → State → State} {s : State} (h : ∀ x u, (f x u).standing = u.standing) :
    (forEach l f s).standing = s.standing :=
  forEach_keeps (P := fun u => u.standing = s.standing) l f (fun x _ u hu => (h x u).trans hu) rfl

@[simp] theorem State.raiseEvent_standing (s : State) (e : Event) : (s.raiseEvent e).standing = s.standing := by
  rw [State.standing, State.lasting, State.raiseEvent_tether, TetherS.pushEvent_claims, TetherS.pushEvent_endpoint]
  rfl

@[simp] theorem State.raise_standing (s : State) (code detail : Nat) : (s.raise code detail).standing = s.standing := State.raiseEvent_standing ..
@[simp] theorem State.raiseCtx_standing (s : State) (n code detail : Nat) : (s.raiseCtx n code detail).standing = s.standing :=
  State.raiseEvent_standing ..
@[simp] theorem State.raiseMask_standing (s : State) (mask code detail : Nat) : (s.raiseMask mask code detail).standing = s.standing :=
  State.raiseEvent_standing ..

/-! ### The ends of work -/

@[simp] theorem State.requestMove_standing (s : State) (cls : Nat) (j : MoveJob) : (s.requestMove cls j).standing = s.standing := by
  simp [State.requestMove, apply_ite State.standing]

@[simp] theorem State.recoveryEnd_standing (s : State) (id : Nat) : (s.recoveryEnd id).standing = s.standing := by
  unfold State.recoveryEnd
  split
  · rw [State.raise_standing]
    exact State.mapPower_standing fun _ => rfl
  · rfl

@[simp] theorem State.freeBandsOf_standing (s : State) (n : Nat) : (s.freeBandsOf n).standing = s.standing := by simp [State.freeBandsOf]

theorem State.releaseAdmission_unloaded (s : State) (n : Nat) : (s.releaseAdmission n).standing.unloaded = s.standing.unloaded :=
  (State.updCtx_unloaded rfl).trans (congrArg Standing.unloaded (State.freeBandsOf_standing s n))

@[simp] theorem State.noteIdle_standing (s : State) : s.noteIdle.standing = s.standing := by
  unfold State.noteIdle
  split
  · exact State.mapLife_standing fun _ => rfl
  · rfl

@[simp] theorem State.unclaim_standing (s : State) (k tier n : Nat) : (s.unclaim k tier n).standing = s.standing := by
  unfold State.unclaim
  dsimp only
  (repeat' split) <;> simp

@[simp] theorem State.dropWeights_standing (s : State) (n : Nat) (l : List (Nat × Bool)) : (s.dropWeights n l).standing = s.standing := by
  simp [State.dropWeights]

@[simp] theorem State.abortGraph_standing (s : State) (c : CmdRef) : (s.abortGraph c).standing = s.standing := by
  unfold State.abortGraph
  dsimp only
  (repeat' split) <;> simp

/-- A context released loses its image alone. -/
theorem State.releaseContext_unloaded (s : State) (n : Nat) : (s.releaseContext n).standing.unloaded = s.standing.unloaded := by
  unfold State.releaseContext
  split
  · rfl
  · extract_lets s1 s2
    have h1 : s1.standing = s.standing := by
      unfold s1
      split
      · exact State.refuseOpen_standing ..
      · rfl
    have h2 : s2.standing = s1.standing := rfl
    rw [State.noteIdle_standing, State.releaseAdmission_unloaded, State.credit_standing, h2, h1]

@[simp] theorem State.dropMap_standing (s : State) (i : Nat) : (s.dropMap i).standing = s.standing := by
  unfold State.dropMap
  split
  · rfl
  · extract_lets s1 s2
    have h1 : s1.standing = s.standing := State.credit_standing ..
    have h2 : s2.standing = s1.standing := State.updCtx_standing rfl rfl
    exact h2.trans h1

@[simp] theorem State.reapMaps_standing (s : State) : s.reapMaps.standing = s.standing := by simp [State.reapMaps, apply_ite State.standing]

@[simp] theorem State.dropQuery_standing (s : State) (k : Nat) : (s.dropQuery k).standing = s.standing := by simp [State.dropQuery]

@[simp] theorem dropChange_standing (ch : Nat) (s : State) : (dropChange ch s).standing = s.standing := by
  unfold dropChange
  dsimp only
  (repeat' split) <;> simp

@[simp] theorem freeChannel_standing (ch : Nat) (s : State) : (freeChannel ch s).standing = s.standing := by simp [freeChannel]

/-- What stands once context `n` has no session. -/
def Standing.sessionless (x : Standing) (n : Nat) : Standing := { x with running := fun k => decide (k ≠ n) && x.running k }

theorem Standing.sessionless_eq {x : Standing} {n : Nat} (h : x.running n = false) : x.sessionless n = x := by
  have hrunning : (fun k => decide (k ≠ n) && x.running k) = x.running := by
    funext k
    by_cases hk : k = n
    · rw [hk, h, Bool.and_false]
    · rw [decide_eq_true hk, Bool.true_and]
  rw [Standing.sessionless, hrunning]

/-- A session that ends goes alone, with its image. -/
theorem endSession_unloaded (n : Nat) (s : State) : (endSession n s).standing.unloaded = (s.standing.sessionless n).unloaded := by
  unfold endSession
  split
  · next hnone => rw [Standing.sessionless_eq (congrArg Option.isSome hnone)]
  · next x _ =>
    extract_lets s1 s2 s3 s4 mine s5 s6 loops s7 s8 s9
    have h1 : s1.standing = s.standing := State.dropWeights_standing ..
    have h2 : s2.standing = s1.standing := forEach_standing fun _ _ => rfl
    have h3 : s3.standing = s2.standing := forEach_standing fun ch u => by simp [apply_ite State.standing]
    have h4 : s4.standing = s3.standing := forEach_standing fun p u => State.updPort_standing fun _ => rfl
    have h5 : s5.standing = s4.standing := State.credit_standing ..
    have h6 : s6.standing = s5.standing := rfl
    have h7 : s7.standing = s6.standing := forEach_standing fun _ _ => rfl
    have h8 : s8.standing = s7.standing := rfl
    have hrunning : runningIn s9.ctxs = fun k => decide (k ≠ n) && runningIn s8.ctxs k := by
      funext k
      change (s9.ctxAt k).session.isSome = (decide (k ≠ n) && (s8.ctxAt k).session.isSome)
      rw [State.ctxAt_updCtx]
      split
      case isTrue e => simp [e]
      case isFalse e => rw [decide_eq_true e, Bool.true_and]
    have h9 : s9.standing.unloaded = (s8.standing.sessionless n).unloaded := by
      rw [State.standing, hrunning]
      rfl
    rw [State.noteIdle_standing, State.releaseAdmission_unloaded, h9, h8, h7, h6, h5, h4, h3, h2, h1]

theorem endSession_untenanted (n : Nat) (s : State) : (endSession n s).standing.untenanted = s.standing.untenanted :=
  (untenanted_of_unloaded (endSession_unloaded n s)).trans rfl

/-- A pass whose steps keep what stands but for sessions and images. -/
theorem forEach_untenanted {α : Type} {l : List α} {f : α → State → State} {s : State}
    (h : ∀ x u, (f x u).standing.untenanted = u.standing.untenanted) : (forEach l f s).standing.untenanted = s.standing.untenanted :=
  forEach_keeps (P := fun u => u.standing.untenanted = s.standing.untenanted) l f (fun x _ u hu => (h x u).trans hu) rfl

theorem settleStop_untenanted (n : Nat) (s : State) : (settleStop n s).standing.untenanted = s.standing.untenanted := by
  unfold settleStop
  split
  · rfl
  · next x _ =>
    split
    · rfl
    · extract_lets s1 s2 s3
      have h2 : s2.standing = s.standing := by
        unfold s2
        split
        · rfl
        · exact Eq.trans (forEach_standing fun e u => u.updReel_standing e _) (State.updSession_standing ..)
      have h3 : s3.standing = s.standing := (forEach_standing fun c u => u.commit_standing c).trans h2
      split
      · rw [h3]
      · rw [forEach_standing (s := endSession n s3) (fun c u => u.done_standing c 0 0 [] []), endSession_untenanted, h3]

@[simp] theorem State.dropObj_standing (s : State) (k : Nat) : (s.dropObj k).standing = s.standing := by
  unfold State.dropObj
  dsimp only
  (repeat' split) <;> simp [apply_ite State.standing]

@[simp] theorem State.dropClaims_standing (s : State) (n : Nat) : (s.dropClaims n).standing = s.standing := by
  simp [State.dropClaims, apply_ite State.standing]

@[simp] theorem State.raiseMap_standing (s : State) (map code detail : Nat) : (s.raiseMap map code detail).standing = s.standing :=
  State.raiseMask_standing ..

@[simp] theorem withdrawMap_standing (n map : Nat) (s : State) : (withdrawMap n map s).standing = s.standing := by
  simp [withdrawMap, apply_ite State.standing]

@[simp] theorem withdrawMaps_standing (n : Nat) (s : State) : (withdrawMaps n s).standing = s.standing := by simp [withdrawMaps]

@[simp] theorem State.moveBackObj_standing (s : State) (k status : Nat) : (s.moveBackObj k status).standing = s.standing := by
  unfold State.moveBackObj
  dsimp only
  (repeat' split) <;> simp

@[simp] theorem abortFilter_standing (c : CmdRef) (s : State) : (abortFilter c s).standing = s.standing :=
  State.refuseOpen_standing ..

@[simp] theorem abortQuery_standing (c : CmdRef) (s : State) : (abortQuery c s).standing = s.standing := by
  unfold abortQuery
  (repeat' split) <;> simp

@[simp] theorem abortMove_standing (c : CmdRef) (s : State) : (abortMove c s).standing = s.standing := by
  unfold abortMove
  split <;> simp

@[simp] theorem abortPromote_standing (m : Cmd) (s : State) : (abortPromote m s).standing = s.standing := by
  unfold abortPromote
  dsimp only
  split <;> simp

@[simp] theorem abortStop_standing (c : CmdRef) (s : State) : (abortStop c s).standing = s.standing := by simp [abortStop]

@[simp] theorem State.noteLatency_standing (s : State) (n : Nat) (start : Option Nat) : (s.noteLatency n start).standing = s.standing := by
  unfold State.noteLatency
  split <;> simp

@[simp] theorem stopReel_standing (s : State) : (stopReel s).standing = s.standing := by rfl

@[simp] theorem stopSupply_standing (p : Nat) (s : State) : (stopSupply p s).standing = s.standing := by simp [stopSupply, apply_ite State.standing]

/-! ### Operations that leave all but one field standing -/

/-- What stands through the end of any command: all but the records held, the stage flags of firmware, the re-planning and images. -/
def Standing.outer (x : Standing) : List Instr × Lasting × (Nat → Option Nat) × Tab FnRegs × List CmdRef × (Nat → Bool) :=
  (x.pending, x.lasting, x.owners, x.fns, x.refs, x.running)

/-- What stands also through a record, its interrupt and the end of a session. -/
def Standing.calm (x : Standing) : List Instr × Lasting × (Nat → Option Nat) × List CmdRef := (x.pending, x.lasting, x.owners, x.refs)

theorem calm_of_outer {x y : Standing} (h : x.outer = y.outer) : x.calm = y.calm := by
  simp only [Standing.outer, Prod.mk.injEq] at h
  obtain ⟨hpending, hlasting, howners, -, hrefs, -⟩ := h
  rw [Standing.calm, hpending, hlasting, howners, hrefs]
  rfl

theorem outer_of_unloaded {x y : Standing} (h : x.unloaded = y.unloaded) : x.outer = y.outer :=
  (congrArg Standing.outer h : x.unloaded.outer = y.unloaded.outer)
theorem calm_of_untenanted {x y : Standing} (h : x.untenanted = y.untenanted) : x.calm = y.calm :=
  (congrArg Standing.calm h : x.untenanted.calm = y.untenanted.calm)

/-- A pass whose steps each leave the outer fields standing. -/
theorem forEach_outer {α : Type} {l : List α} {f : α → State → State} {s : State} (h : ∀ x u, (f x u).standing.outer = u.standing.outer) :
    (forEach l f s).standing.outer = s.standing.outer :=
  forEach_keeps (P := fun u => u.standing.outer = s.standing.outer) l f (fun x _ u hu => (h x u).trans hu) rfl

theorem forEach_calm {α : Type} {l : List α} {f : α → State → State} {s : State} (h : ∀ x u, (f x u).standing.calm = u.standing.calm) :
    (forEach l f s).standing.calm = s.standing.calm :=
  forEach_keeps (P := fun u => u.standing.calm = s.standing.calm) l f (fun x _ u hu => (h x u).trans hu) rfl

theorem abortReplan_outer (c : CmdRef) (s : State) : (abortReplan c s).standing.outer = s.standing.outer := by
  unfold abortReplan
  rw [State.refuseOpen_standing]
  rfl

theorem endRunning_outer (m : Cmd) (s : State) : (endRunning m s).standing.outer = s.standing.outer := by
  unfold endRunning
  dsimp only
  split
  · rw [abortStop_standing]
  · rw [abortFilter_standing]
  · rw [abortFilter_standing]
  · rw [State.abortGraph_standing]
  · rw [State.refuseOpen_standing, State.reapMaps_standing, State.closeSnap_standing, State.dropQueued_standing]
  · rw [abortQuery_standing]
  · split
    · exact outer_of_unloaded (State.releaseContext_unloaded ..)
    · rw [State.refuseOpen_standing]
  · rw [abortMove_standing]
  · rw [abortPromote_standing]
  · exact abortReplan_outer ..
  · split
    · rfl
    · rw [State.refuseOpen_standing]
  · rw [State.refuseOpen_standing, State.dropQueued_standing]

theorem endAborted_outer (m : Cmd) (s : State) : (endAborted m s).standing.outer = s.standing.outer := by
  unfold endAborted
  split
  · rfl
  · split
    · rw [State.refuseOpen_standing]
    · exact endRunning_outer m s

theorem State.msix_calm (s : State) (fn v : Nat) : (s.msix fn v).standing.calm = s.standing.calm := by
  unfold State.msix
  split <;> rfl

@[simp] theorem State.hostWrite_standing (s : State) (a : Nat) (b : List Byte) : (s.hostWrite a b).standing = s.standing := by rfl

@[simp] theorem State.ringWrite_standing (s : State) (n k : Nat) (b : List Byte) : (s.ringWrite n k b).standing = s.standing := by
  unfold State.ringWrite
  dsimp only
  split
  · rfl
  · rw [State.updSession_standing, State.hostWrite_standing, State.hostWrite_standing]
    split
    · rfl
    · rw [State.hostWrite_standing]

/-- A record goes to its ring or to the records held, and its session's figures follow. -/
theorem State.record_outer (s : State) (n k : Nat) (h : RecHead) (body : List Byte) : (s.record n k h body).standing.outer = s.standing.outer := by
  have hring (u : State) (r : Nat) (b : List Byte) (hu : u.standing = s.standing) :
      (if u.life.linkUp then (u.ringWrite n r b).noteLatency n h.start
        else { u with held := u.held ++ [{ ctx := n, ring := r, tick := u.time.ticks, start := h.start, bytes := b }] }).standing.outer =
      s.standing.outer := by
    split
    · rw [State.noteLatency_standing, State.ringWrite_standing, hu]
    · rw [← congrArg Standing.outer hu]
      rfl
  unfold State.record
  split
  · rfl
  · refine hring _ k _ ?_
    split
    · rw [State.raise_standing, State.updSession_standing]
    · rw [State.updSession_standing]

theorem healthRecord_calm (n code detail : Nat) (fin : Int) (s : State) : (healthRecord n code detail fin s).standing.calm = s.standing.calm := by
  unfold healthRecord
  split
  · rfl
  · extract_lets s1 s2
    have h1 : s1.standing.calm = s.standing.calm := calm_of_outer (State.record_outer ..)
    have h2 : s2.standing = s1.standing := State.updSession_standing ..
    split
    · rw [h2, h1]
    · rw [State.msix_calm, h2, h1]

theorem stopSession_calm (detail n : Nat) (s : State) : (stopSession detail n s).standing.calm = s.standing.calm := by
  unfold stopSession
  split
  · rfl
  · rw [calm_of_untenanted (settleStop_untenanted ..), State.updSession_standing, healthRecord_calm]

end Sys2Proof.Machine

/-! ## Clock sources, islands and the host link -/

namespace Sys2Proof.Machine

/-- Replacing an entry leaves the others. -/
theorem getD_setAt_ne {α : Type} (d : α) (l : List α) {i j : Nat} (x : α) (h : j ≠ i) : (setAt d l i x).getD j d = l.getD j d := by
  rw [List.getD_eq_getElem?_getD, List.getD_eq_getElem?_getD]
  by_cases hj : j < max l.length (i + 1)
  · simp [setAt, hj, h]
  · have hl : l.length ≤ j := by omega
    simp [setAt, hj, List.getElem?_eq_none hl]

/-! ### What parking an island touches -/

/-- `t` is `s` with islands switched or parked: the stores, firmware, ports and sources stay, and the clock goes on. -/
structure IslandsMoved (s t : State) : Prop where
  state : t = { s with islands := t.islands, life := t.life, linkDownTick := t.linkDownTick, streams := t.streams, ctxs := t.ctxs,
                       events := t.events, tether := t.tether, reel := t.reel, time := t.time, free := t.free }
  ticks : t.time.ticks = s.time.ticks

theorem IslandsMoved.refl (s : State) : IslandsMoved s s := ⟨rfl, rfl⟩

theorem IslandsMoved.trans {s t u : State} (h : IslandsMoved s t) (k : IslandsMoved t u) : IslandsMoved s u :=
  ⟨by rw [k.state, h.state], k.ticks.trans h.ticks⟩

theorem IslandsMoved.updIsland (s : State) (i : Nat) (f : IslandS → IslandS) : IslandsMoved s (s.updIsland i f) := ⟨rfl, rfl⟩
theorem IslandsMoved.raise (s : State) (code detail : Nat) : IslandsMoved s (s.raise code detail) := ⟨rfl, rfl⟩

theorem IslandsMoved.linkDown (s : State) : IslandsMoved s (linkDown s) := by
  unfold Machine.linkDown
  split <;> exact ⟨rfl, rfl⟩

/-- `t` is `s` with streams and the contexts' pairs changed. -/
def StreamsChanged (s t : State) : Prop := t = { s with streams := t.streams, ctxs := t.ctxs }

theorem StreamsChanged.trans {s t u : State} (h : StreamsChanged s t) (k : StreamsChanged t u) : StreamsChanged s u := by
  unfold StreamsChanged at *
  rw [k, h]

theorem StreamsChanged.updStream (s : State) (n : Nat) (f : StreamS → StreamS) : StreamsChanged s (s.updStream n f) := by
  unfold State.updStream
  split <;> rfl

theorem StreamsChanged.updPairCfg (s : State) (n p : Nat) (f : PairCfg → PairCfg) : StreamsChanged s (s.updPairCfg n p f) := by
  unfold State.updPairCfg
  split <;> rfl

theorem StreamsChanged.unpair (n p : Nat) (set : Word) (s : State) : StreamsChanged s (unpair n p set s) := by
  unfold Machine.unpair
  split
  · rfl
  · exact ((((StreamsChanged.updStream ..).trans (.updStream ..)).trans (.updPairCfg ..)).trans (.updStream ..)).trans (.updStream ..)

theorem StreamsChanged.moved {s t : State} (h : StreamsChanged s t) : IslandsMoved s t ∧ t.islands = s.islands := by
  unfold StreamsChanged at h
  rw [h]
  exact ⟨⟨rfl, rfl⟩, rfl⟩

/-- A dropped frame moves no island. -/
theorem dropFrame_moved (st k cause : Nat) (s : State) :
    IslandsMoved s (dropFrame st k cause s) ∧ (dropFrame st k cause s).islands = s.islands := by
  unfold dropFrame
  extract_lets x b s1 s2
  obtain ⟨h1, hi1⟩ := (StreamsChanged.updStream s st fun x =>
    { x with bufs := Tab.put x.bufs k { order := x.clock }, clock := x.clock + 1, cur := none, dropEvents := x.dropEvents + 1 }).moved
  have h2 : IslandsMoved s s2 ∧ s2.islands = s.islands := ⟨h1.trans ⟨rfl, rfl⟩, hi1⟩
  refine forEach_keeps (P := fun u => IslandsMoved s u ∧ u.islands = s.islands) _ _ (fun p _ u hu => ?_) h2
  obtain ⟨h3, hi3⟩ := (StreamsChanged.unpair x.ctx p b.frameSet u).moved
  exact ⟨hu.1.trans h3, hi3.trans hu.2⟩

/-- An island that parks: its clock stops at this tick, the other islands stay (R768). -/
theorem parkIsland_spec (i : Nat) (s : State) : IslandsMoved s (parkIsland i s) ∧
    ∀ j, (parkIsland i s).islandAt j = if j = i then { s.islandAt i with parked := true, lostAt := s.time.ticks } else s.islandAt j := by
  have hmoved : IslandsMoved s (s.updIsland i fun x => { x with parked := true, lostAt := s.time.ticks }) := .updIsland ..
  have hat := fun j => s.islandAt_updIsland i j fun x => { x with parked := true, lostAt := s.time.ticks }
  unfold parkIsland
  extract_lets s1
  have h1 : IslandsMoved s s1 := hmoved
  have hafter {t : State} (h : IslandsMoved s1 t ∧ t.islands = s1.islands) : IslandsMoved s t ∧
      ∀ j, t.islandAt j = if j = i then { s.islandAt i with parked := true, lostAt := s.time.ticks } else s.islandAt j := by
    refine ⟨h1.trans h.1, fun j => ?_⟩
    rw [State.islandAt, h.2]
    exact hat j
  split
  · refine hafter ?_
    unfold linkDown
    split <;> exact ⟨⟨rfl, rfl⟩, rfl⟩
  · refine hafter (forEach_keeps (P := fun u => IslandsMoved s1 u ∧ u.islands = s1.islands) _ _ (fun st _ u hu => ?_) ⟨.refl _, rfl⟩)
    split
    · rename_i k hk
      obtain ⟨hd, hid⟩ := dropFrame_moved st k 3 u
      exact ⟨hu.1.trans hd, hid.trans hu.2⟩
    · exact hu
  · refine hafter ?_
    split <;> exact ⟨⟨rfl, rfl⟩, rfl⟩
  · exact hafter ⟨.refl _, rfl⟩

/-- A pass that changes the islands of a list, each once. -/
theorem islandAt_forEach {f : Nat → State → State} {g : Nat → IslandS → IslandS} {s : State}
    (hf : ∀ i u, u.time.ticks = s.time.ticks → IslandsMoved u (f i u) ∧
      ∀ j, (f i u).islandAt j = if j = i then g i (u.islandAt i) else u.islandAt j)
    {l : List Nat} (hl : l.Nodup) {u : State} (hu : IslandsMoved s u) :
    IslandsMoved s (forEach l f u) ∧ ∀ j, (forEach l f u).islandAt j = if j ∈ l then g j (u.islandAt j) else u.islandAt j := by
  induction l generalizing u with
  | nil => exact ⟨hu, fun j => rfl⟩
  | cons i l ih =>
    obtain ⟨hi, hl⟩ := List.nodup_cons.1 hl
    obtain ⟨hmoved, hat⟩ := hf i u hu.ticks
    obtain ⟨hrest, hall⟩ := ih hl (hu.trans hmoved)
    refine ⟨hrest, fun j => (hall j).trans ?_⟩
    rw [hat]
    by_cases hj : j = i
    · subst hj; simp [hi]
    · simp [hj]

/-- Parking islands: each stops at this tick, and one event names them (R768, Table 18-6). -/
theorem parkIslands_spec {l : List Nat} (hl : l.Nodup) (s : State) : IslandsMoved s (parkIslands l s) ∧
    ∀ j, (parkIslands l s).islandAt j = if j ∈ l then { s.islandAt j with parked := true, lostAt := s.time.ticks } else s.islandAt j := by
  unfold parkIslands
  split
  case isTrue hnil => subst hnil; exact ⟨.refl s, fun j => rfl⟩
  case isFalse =>
    obtain ⟨hmoved, hat⟩ := islandAt_forEach (g := fun _ x => { x with parked := true, lostAt := s.time.ticks }) (s := s) (f := parkIsland)
      (fun i u hu => by rw [← hu]; exact parkIsland_spec i u) hl (.refl s)
    exact ⟨hmoved.trans (.raise ..), hat⟩

/-- Switching islands: each runs on its other source (R764, R766). -/
theorem switchIslands_spec {l : List Nat} (hl : l.Nodup) (s : State) : IslandsMoved s (switchIslands l s) ∧
    ∀ j, (switchIslands l s).islandAt j = if j ∈ l then { s.islandAt j with alt := !(s.islandAt j).alt } else s.islandAt j := by
  obtain ⟨hmoved, hat⟩ := islandAt_forEach (g := fun _ x => { x with alt := !x.alt }) (s := s)
    (f := fun i s => s.updIsland i fun x => { x with alt := !x.alt })
    (fun i u _ => ⟨.updIsland .., fun j => State.islandAt_updIsland ..⟩) hl (.refl s)
  unfold switchIslands
  dsimp only
  split
  · exact ⟨hmoved.trans ⟨rfl, rfl⟩, hat⟩
  · exact ⟨hmoved, hat⟩

theorem raiseSwitched_spec (l : List Nat) (alt : Bool) (s : State) :
    IslandsMoved s (raiseSwitched l alt s) ∧ ∀ j, (raiseSwitched l alt s).islandAt j = s.islandAt j := by
  unfold raiseSwitched
  dsimp only
  split
  · exact ⟨.refl s, fun j => rfl⟩
  · exact ⟨.raise .., fun j => rfl⟩

/-! ### Sources -/

/-- The islands that run on a source, each once. -/
theorem nodup_runningOn (s : State) (k : Nat) : (s.runningOn k).Nodup := List.nodup_range.filter _

theorem mem_runningOn {s : State} {k i : Nat} :
    i ∈ s.runningOn k ↔ i < 8 ∧ s.clocked i = true ∧ (s.islandAt i).parked = false ∧ s.sourceOf i = k := by
  simp [State.runningOn, and_assoc]

/-- The other source of an island is not the one it lost, so that the loss of that one says nothing of it (R764). -/
theorem stableSource_other {s : State} {k : Nat} (i : Nat) (f : SourceS → SourceS) (hk : k < 2) :
    (s.updSource k f).stableSource (otherSource i k) = s.stableSource (otherSource i k) := by
  have hne : otherSource i k ≠ k := by
    unfold otherSource
    split_ifs <;> omega
  unfold State.stableSource
  rw [State.updSource_sources, getD_setAt_ne _ _ _ hne]

/-- The loss of a source, once it is known which islands switch (`go`) and which park. -/
theorem sourceLost_islands {s : State} {go park : List Nat} (hgo : go.Nodup) (hpark : park.Nodup) (hdisjoint : ∀ i ∈ park, i ∉ go) :
    ∀ t, t = parkIslands park (raiseSwitched go false (raiseSwitched go true (switchIslands go s))) → IslandsMoved s t ∧
      ∀ j, t.islandAt j = if j ∈ go then { s.islandAt j with alt := !(s.islandAt j).alt }
        else if j ∈ park then { s.islandAt j with parked := true, lostAt := s.time.ticks } else s.islandAt j := by
  rintro t rfl
  obtain ⟨h1, a1⟩ := switchIslands_spec hgo s
  obtain ⟨h2, a2⟩ := raiseSwitched_spec go true (switchIslands go s)
  obtain ⟨h3, a3⟩ := raiseSwitched_spec go false (raiseSwitched go true (switchIslands go s))
  obtain ⟨h4, a4⟩ := parkIslands_spec hpark (raiseSwitched go false (raiseSwitched go true (switchIslands go s)))
  have hbefore := (h1.trans h2).trans h3
  refine ⟨hbefore.trans h4, fun j => ?_⟩
  rw [a4, a3, a2, a1, hbefore.ticks]
  by_cases hj : j ∈ park
  · simp [hj, hdisjoint j hj]
  · simp [hj]

/-- CLOCK_SOURCE_LOST with its trigger: the islands on the source whose other one is stable switch, the rest of them park. -/
theorem exec_clockSourceLost {s : State} {k : Nat} (h : (decide (k < 2) && (s.sources.getD k {}).present && (k == 1 || s.mainOn)) = true) :
    exec (.clockSourceLost k) s = .next (
      let go := (s.runningOn k).filter fun i => s.stableSource (otherSource i k)
      parkIslands ((s.runningOn k).filter fun i => !go.contains i) (raiseSwitched go false (raiseSwitched go true (switchIslands go
        (s.updSource k fun x => { x with present := false, stable := false }))))) := by
  have hk : k < 2 := by simp at h; omega
  rw [exec, execClockSourceLost, onTrigger_fires s _ h]
  simp only [stableSource_other _ _ hk]

/-- An island parks when its PLL loses lock (R768). -/
theorem exec_pllLockLost {s : State} {i : Nat} (hi : i < 7) (hon : s.mainOn = true) (hrun : (s.islandAt i).parked = false) :
    exec (.pllLockLost i) s = .next (parkIslands [i] (s.updIsland i fun x => { x with pllLost := true })) := by
  refine onTrigger_fires s (fun s => parkIslands [i] (s.updIsland i fun x => { x with pllLost := true })) ?_
  rw [decide_eq_true hi, hon, hrun]
  rfl

/-- With island 0 the host link goes (Table 18-2). -/
theorem parkIsland_link (s : State) : (parkIsland 0 s).life.linkUp = false := by
  change (linkDown _).life.linkUp = false
  unfold linkDown
  split
  case isTrue => rfl
  case isFalse h => exact Bool.not_eq_true _ |>.mp h

/-- With island 4 device time is held, in HOLDOVER (Table 18-2). -/
theorem parkIsland_time (s : State) : (parkIsland 4 s).time.state = .holdover ∧ (parkIsland 4 s).time.held = true := by
  simp only [parkIsland]
  split
  case isTrue h => exact ⟨h, rfl⟩
  case isFalse => exact ⟨rfl, rfl⟩

theorem scaleIncrement_eq (s : State) : scaleIncrement s = { s with time := (scaleIncrement s).time, free := (scaleIncrement s).free } := rfl

theorem switchIslands_eq (l : List Nat) (s : State) : switchIslands l s =
    { s with islands := (switchIslands l s).islands, time := (switchIslands l s).time, free := (switchIslands l s).free } := by
  have hpass : forEach l (fun i s => s.updIsland i fun x => { x with alt := !x.alt }) s =
      { s with islands := (forEach l (fun i s => s.updIsland i fun x => { x with alt := !x.alt }) s).islands } :=
    forEach_keeps (P := fun u => u = { s with islands := u.islands }) l _ (fun i _ u hu => by rw [hu]; rfl) rfl
  unfold switchIslands
  split
  · rw [scaleIncrement_eq, hpass]
  · rw [hpass]

/-- INCREMENT is scaled by a ratio within 50 ppm of 1 (R765). -/
theorem scaleIncrement_inc (s : State) : ∃ d, d ≤ 2 * (s.time.inc.toNat * 50 / 1000000) ∧
    (scaleIncrement s).time.inc = BitVec.ofNat 40 (s.time.inc.toNat + d - s.time.inc.toNat * 50 / 1000000) :=
  ⟨_, Nat.lt_succ_iff.1 (Nat.mod_lt (Config.openVal 51 s.free) (Nat.succ_pos _)), rfl⟩

/-- Island 4 takes device time along (R765). -/
theorem switchIslands_inc (s : State) : ∃ d, d ≤ 2 * (s.time.inc.toNat * 50 / 1000000) ∧
    (switchIslands [4] s).time.inc = BitVec.ofNat 40 (s.time.inc.toNat + d - s.time.inc.toNat * 50 / 1000000) := by
  obtain ⟨d, hd, hinc⟩ := scaleIncrement_inc (s.updIsland 4 fun x => { x with alt := !x.alt })
  rw [State.updIsland_time] at hd hinc
  exact ⟨d, hd, hinc⟩

/-- One island that has switched raises its event (R767). -/
theorem raiseSwitched_one {s : State} {i : Nat} {alt : Bool} (h : (s.islandAt i).alt = alt) :
    raiseSwitched [i] alt s = s.raise 0x8B10 (maskOf [i] * 256 + if alt then 1 else 0) := by
  have hlist : ([i].filter fun i => (s.islandAt i).alt == alt) = [i] := by simp [h]
  simp [raiseSwitched, hlist]

/-- The frequency at which a parked island goes on: the lower one of a transition under way (R775). -/
def IslandS.resumeMhz (x : IslandS) : Nat :=
  match x.target with
  | some g => min x.mhz g.1
  | none => x.mhz

/-- VF_CURVE_LOAD once its data have come (R776 to R778). -/
theorem exec_vfCurveLoad {s : State} {c : CmdRef} {m : Cmd} {b : List Byte} (h : s.runs c 0x0B04 m) (hb : sgIn m 4 s = .bytes b) :
    exec (.vfCurveLoad c) s = .next (
      let i := fld (m.w 3) 3 0
      if !([0, 2, 5].contains i) then (s.began c).badWord c 3
      else if curveOk i b = false then (s.began c).badWord c 4
      else if (curvePoints b).any (fun e => decide (e.2 < s.minVolt i e.1)) ∨ ((curvePoints b).getLastD (0, 0)).1 < topFreq i then
        (s.began c).refuse c BAD_PARAM 0x0050
      else if (s.islandAt i).target.isSome ∨ (i = 2 ∧ (List.range 12).any fun q => decide ((s.portAt q).state = .streaming)) then
        (s.began c).refuseOpen c BUSY
      else ((s.began c).updIsland i fun x => { x with curve := curvePoints b }).done c) := by
  rw [exec, execVfCurveLoad, onCmd_runs _ h, withSg, sgIn_began, hb]
  rfl

theorem IslandS.resumeMhz_spec (x : IslandS) :
    (x.target = none → x.resumeMhz = x.mhz) ∧ ∀ g, x.target = some g → x.resumeMhz = min x.mhz g.1 :=
  ⟨fun h => by rw [IslandS.resumeMhz, h], fun g h => by rw [IslandS.resumeMhz, h]⟩

/-- An island that goes on, with its primary stable or not (R769, R771). -/
def IslandS.resumed (primary : Bool) (x : IslandS) : IslandS :=
  { x with parked := false, pllLost := false, alt := !primary, mhz := x.resumeMhz }

theorem exec_islandResume {s : State} {i : Nat} (h : (decide (i < 7) && s.mainOn && (s.islandAt i).parked &&
    (s.stableSource (primarySource i) || s.stableSource (1 - primarySource i))) = true) :
    exec (.islandResume i) s = .next ((if i = 4 then
      (s.updIsland i (IslandS.resumed (s.stableSource (primarySource i)))).mapTime fun t => { t with held := false }
      else s.updIsland i (IslandS.resumed (s.stableSource (primarySource i)))).raise 0x8B12
        (2 ^ i * 256 + min 255 (s.since (s.islandAt i).lostAt / msTicks 1))) := by
  rw [exec, execIslandResume, onTrigger_fires s _ h]
  by_cases h4 : i = 4
  · simp only [if_pos h4]
    rfl
  · simp only [if_neg h4]
    rfl

theorem flushHeld_standing (s : State) : s.flushHeld.standing = { s.standing with held := [] } :=
  forEach_standing fun h u => by rw [State.noteLatency_standing, State.ringWrite_standing]

/-- Settles O45: islands by `parkIslands_spec` and `switchIslands_spec`, the link by what stands through the stops that it ends. -/
theorem clockSourcesIslandsAndLink : Obligations.ClockSourcesIslandsAndLink := by
  refine ⟨?lost, ?lostAgain, ?stable, ?returns, ?pll, ?resumes, ?transition, ?curve, ?linkDown, ?linkUp⟩
  case lost =>
    intro s k hk hpresent hon
    have hfires : (decide (k < 2) && (s.sources.getD k {}).present && (k == 1 || s.mainOn)) = true := by
      rw [decide_eq_true hk, hpresent]
      rcases hon with rfl | hon
      · rfl
      · rw [hon]; simp
    have hexec := exec_clockSourceLost hfires
    obtain ⟨hmoved, hat⟩ := sourceLost_islands (s := s.updSource k fun x => { x with present := false, stable := false })
      (List.Nodup.filter (fun i => s.stableSource (otherSource i k)) (nodup_runningOn s k))
      (List.Nodup.filter (fun i => !((s.runningOn k).filter fun i => s.stableSource (otherSource i k)).contains i) (nodup_runningOn s k))
      (fun i hi hgo => by
        have hnot := (List.mem_filter.1 hi).2
        simp only [List.contains_iff_mem.2 hgo] at hnot
        cases hnot) _ rfl
    have hsources : _ = setAt {} s.sources k _ := (congrArg State.sources hmoved.state :)
    refine ⟨_, hexec, ?_, ?_, ?_, fun i hi hclocked hparked hsource => ?_, fun i hi hstays => ?_, ?_⟩
    · rw [hsources, getD_setAt]
    · rw [hsources, getD_setAt]
    · rw [hsources, getD_setAt_ne _ _ _ (by omega)]
    · have hmem := mem_runningOn.2 ⟨hi, hclocked, hparked, hsource⟩
      refine ⟨fun hstable => (hat i).trans ?_, fun hunstable => (hat i).trans ?_⟩
      · rw [if_pos (List.mem_filter.2 ⟨hmem, hstable⟩)]
        rfl
      · rw [if_neg (by simp [hunstable]), if_pos (by simp [hmem, hunstable])]
        rfl
    · have hmem : i ∉ s.runningOn k := by
        rw [mem_runningOn]
        rintro ⟨-, hclocked, hparked, hsource⟩
        rcases hstays with h | h | h
        · rw [h] at hclocked; cases hclocked
        · rw [h] at hparked; cases hparked
        · exact h hsource
      refine (hat i).trans ?_
      rw [if_neg (by simp [hmem]), if_neg (by simp [hmem])]
      rfl
    · have hstate := hmoved.state
      exact ⟨by rw [hstate]; rfl, by rw [hstate]; rfl, by rw [hstate]; rfl, by rw [hstate]; rfl, by rw [hstate]; rfl, by rw [hstate]; rfl⟩
  case lostAgain =>
    intro s k hk habsent
    rw [exec, execClockSourceLost, onTrigger_idle]
    rw [habsent]
    simp
  case stable =>
    intro s k hk hunstable hon
    have hfires : (decide (k < 2) && !(s.sources.getD k {}).stable && (k == 1 || s.mainOn)) = true := by
      rw [decide_eq_true hk, hunstable]
      rcases hon with rfl | hon
      · rfl
      · rw [hon]; simp
    rw [exec, execClockSourceStable, onTrigger_fires s _ hfires]
    dsimp only
    split
    case isTrue hfirst =>
      obtain ⟨rfl, htaken⟩ := hfirst
      have hat := fun i => s.islandAt_updIsland 7 i fun x => { x with alt := false }
      exact ⟨_, rfl, getD_setAt .., getD_setAt_ne _ _ _ (by decide), fun i hi => (hat i).trans (if_neg hi),
        fun _ _ => ⟨congrArg IslandS.alt ((hat 7).trans (if_pos rfl)), rfl⟩, rfl⟩
    case isFalse hlater =>
      exact ⟨_, rfl, getD_setAt .., getD_setAt_ne _ _ _ (by omega), fun i hi => rfl, fun hk htaken => absurd ⟨hk, htaken⟩ hlater, rfl⟩
  case returns =>
    intro s i hi hclocked halt hrun
    refine ⟨fun hstable hlong => ?_, fun hnot => ?_⟩
    · have hfires : (decide (i < 8) && s.clocked i && (s.islandAt i).alt && !(s.islandAt i).parked && (s.sources.getD (primarySource i) {}).stable &&
          decide (msTicks 10000 ≤ s.since (s.sources.getD (primarySource i) {}).since)) = true := by
        rw [decide_eq_true hi, hclocked, halt, hrun, hstable]
        exact decide_eq_true hlong
      rw [exec, execClockSourceReturn, onTrigger_fires s _ hfires]
      have hat := (switchIslands_spec (List.nodup_singleton i) s).2
      have hself : (switchIslands [i] s).islandAt i = { s.islandAt i with alt := false } := by
        rw [hat, if_pos (List.mem_singleton_self i), halt]
        rfl
      have hothers : ∀ j, j ≠ i → (switchIslands [i] s).islandAt j = s.islandAt j := fun j hj => by
        rw [hat, if_neg (by simpa using hj)]
      have hraised := raiseSwitched_one (alt := false) (congrArg IslandS.alt hself)
      by_cases h4 : i = 4
      · subst h4
        obtain ⟨d, hd, hinc⟩ := switchIslands_inc s
        have hframe := switchIslands_eq [4] s
        rw [hraised]
        generalize switchIslands [4] s = u at hself hothers hinc hframe
        have hevents : u.events = s.events := by rw [hframe]
        exact ⟨_, _, rfl, hself, hothers, (congrArg (fun l => l ++ [_]) hevents :), rfl, fun h => absurd rfl h, ⟨d, hd, fun _ => hinc⟩,
          by rw [hframe]; rfl⟩
      · have hswitch : switchIslands [i] s = s.updIsland i fun x => { x with alt := !x.alt } := if_neg (by simpa using Ne.symm h4)
        rw [hraised, hswitch]
        rw [hswitch] at hself hothers
        exact ⟨_, _, rfl, hself, hothers, rfl, rfl, fun _ => rfl, ⟨0, Nat.zero_le _, fun h => absurd h h4⟩, rfl⟩
    · rw [exec, execClockSourceReturn, onTrigger_idle]
      rcases hnot with h | h
      · rw [h]
        simp
      · have hshort : decide (msTicks 10000 ≤ s.since (s.sources.getD (primarySource i) {}).since) = false := decide_eq_false (Nat.not_le.2 h)
        rw [hshort]
        simp
  case pll =>
    intro s i hi hon hrun
    obtain ⟨hmoved, hat⟩ := parkIslands_spec (List.nodup_singleton i) (s.updIsland i fun x => { x with pllLost := true })
    have hstate := hmoved.state
    have hself := s.islandAt_updIsland i i fun x => { x with pllLost := true }
    refine ⟨_, exec_pllLockLost hi hon hrun, ?_, fun j hj => ?_, ?_, ?_, ?_, ?_, ?_, ?_⟩
    · rw [hat, if_pos (List.mem_singleton_self i), hself, if_pos rfl]
      rfl
    · rw [hat, if_neg (by simpa using hj), State.islandAt_updIsland, if_neg hj]
    · exact ⟨_, List.mem_append_right _ (List.mem_singleton_self _), rfl⟩
    · rintro rfl
      exact parkIsland_link _
    · rintro rfl
      exact parkIsland_time _
    · rw [hstate]; rfl
    · rw [hstate]; rfl
    · rw [hstate]; rfl
  case resumes =>
    rintro s i x hi hon rfl hparked hsource
    have hfires : (decide (i < 7) && s.mainOn && (s.islandAt i).parked &&
        (s.stableSource (primarySource i) || s.stableSource (1 - primarySource i))) = true := by
      rw [decide_eq_true hi, hon, hparked]
      rcases hsource with h | h <;> rw [h]
      · rfl
      · simp
    have hexec := exec_islandResume hfires
    have hat := fun j => s.islandAt_updIsland i j (IslandS.resumed (s.stableSource (primarySource i)))
    have hself := (hat i).trans (if_pos rfl)
    obtain ⟨hnone, hsome⟩ := IslandS.resumeMhz_spec (s.islandAt i)
    have halt : ((s.updIsland i (IslandS.resumed (s.stableSource (primarySource i)))).islandAt i).alt = false ↔
        s.stableSource (primarySource i) = true := by
      rw [hself]
      exact (Bool.not_eq_false' _).to_iff
    have hothers : ∀ j, j ≠ i → (s.updIsland i (IslandS.resumed (s.stableSource (primarySource i)))).islandAt j = s.islandAt j :=
      fun j hj => (hat j).trans (if_neg hj)
    by_cases h4 : i = 4
    · rw [if_pos h4] at hexec
      exact ⟨_, _, hexec, (congrArg IslandS.parked hself :), (congrArg IslandS.pllLost hself :), halt,
        fun h => (congrArg IslandS.mhz hself :).trans (hnone h), fun g h => (congrArg IslandS.mhz hself :).trans (hsome g h),
        (congrArg IslandS.target hself :), hothers, rfl, rfl, fun _ => rfl, rfl⟩
    · rw [if_neg h4] at hexec
      exact ⟨_, _, hexec, (congrArg IslandS.parked hself :), (congrArg IslandS.pllLost hself :), halt,
        fun h => (congrArg IslandS.mhz hself :).trans (hnone h), fun g h => (congrArg IslandS.mhz hself :).trans (hsome g h),
        (congrArg IslandS.target hself :), hothers, rfl, rfl, fun h => absurd h h4, rfl⟩
  case transition =>
    intro s i g hon hrun htarget
    have hfires : (s.mainOn && !(s.islandAt i).parked) = true := by rw [hon, hrun]; rfl
    have hat := fun j => s.islandAt_updIsland i j fun x => { x with mhz := g.1, mv := g.2, target := x.waiting, waiting := none }
    refine ⟨_, ?_, (hat i).trans (if_pos rfl), fun j hj => (hat j).trans (if_neg hj), rfl⟩
    rw [exec, execVoltageTransition]
    rw [htarget]
    exact onTrigger_fires s _ hfires
  case curve =>
    rintro s c m i b h - rfl hb
    have hexec := exec_vfCurveLoad h hb
    refine ⟨fun h0 h2 h5 => ?_, fun hi hbad => ?_, fun hi hok => ⟨fun hlow => ?_, fun hvolts htop => ?_⟩⟩
    · rw [hexec, if_pos (by simp [h0, h2, h5])]
    · rw [hexec, if_neg (by simp [hi]), if_pos hbad]
    · rw [hexec, if_neg (by simp [hi]), if_neg (by simp [hok]), if_pos (by simpa using hlow)]
    have hgood : ¬ ((curvePoints b).any (fun e => decide (e.2 < s.minVolt (fld (m.w 3) 3 0) e.1)) = true ∨
        ((curvePoints b).getLastD (0, 0)).1 < topFreq (fld (m.w 3) 3 0)) :=
      not_or.2 ⟨by simpa using fun f v => hvolts (f, v), Nat.not_lt.2 htop⟩
    rw [if_neg (by simp [hi]), if_neg (by simp [hok]), if_neg hgood] at hexec
    refine ⟨fun hbusy => ?_, fun hidle hcameras => ?_⟩
    · rw [hexec, if_pos (.inl hbusy)]
    · rw [if_neg (by simpa [hidle] using hcameras)] at hexec
      obtain ⟨hans, hothers⟩ := State.done_of_began (u := (s.began c).updIsland (fld (m.w 3) 3 0) fun x => { x with curve := curvePoints b })
        OK 0 [] [] h.isSome rfl
      have hat := fun j => s.islandAt_updIsland (fld (m.w 3) 3 0) j fun x => { x with curve := curvePoints b }
      exact ⟨_, hexec, hans, (hat _).trans (if_pos rfl), fun j hj => (hat j).trans (if_neg hj), hothers, rfl⟩
  case linkDown =>
    intro s
    refine ⟨fun hup => ?_, fun hdown => ?_⟩
    · rw [exec, execHostLinkDown, onTrigger_fires s _ hup, linkDown, if_pos hup]
      rfl
    · rw [exec, execHostLinkDown, onTrigger_idle s _ hdown]
  case linkUp =>
    intro s hdown hon hperst hclocked
    have hfires : (!s.life.linkUp && s.mainOn && !s.life.perst && !(s.islandAt 0).parked) = true := by
      rw [hdown, hon, hperst, hclocked]
      rfl
    rw [exec, execHostLinkUp, onTrigger_fires s _ hfires]
    generalize hs1 : ({ s.mapLife fun l => { l with linkUp := true } with linkDownTick := none } : State) = s1
    dsimp only
    have hsettled : (forEach s1.sessionCtxs settleStop (s1.flushHeld.requestFreq 0 1000)).standing.untenanted =
        (s1.flushHeld.requestFreq 0 1000).standing.untenanted := forEach_untenanted settleStop_untenanted
    have hfreq := requestFreq_eq s1.flushHeld 0 1000
    have hflushed := flushHeld_standing s1
    generalize s1.flushHeld = s2 at hsettled hfreq hflushed
    generalize s2.requestFreq 0 1000 = s3 at hsettled hfreq
    generalize forEach s1.sessionCtxs settleStop s3 = t at hsettled
    have hkept : t.time = s1.time ∧ t.sec = s1.sec ∧ t.age = s1.age ∧ t.held = [] ∧ t.linkDownTick = s1.linkDownTick ∧
        t.life.steady = s1.life.steady := by
      have hs3 : s3.time = s2.time ∧ s3.sec = s2.sec ∧ s3.age = s2.age ∧ s3.held = s2.held ∧ s3.linkDownTick = s2.linkDownTick ∧
        s3.life = s2.life := by rw [hfreq]; exact ⟨rfl, rfl, rfl, rfl, rfl, rfl⟩
      obtain ⟨time3, sec3, age3, held3, tick3, life3⟩ := hs3
      exact ⟨(congrArg (·.lasting.time) hsettled :).trans (time3.trans (congrArg (·.lasting.time) hflushed :)),
        (congrArg (·.sec) hsettled :).trans (sec3.trans (congrArg (·.sec) hflushed :)),
        (congrArg (·.age) hsettled :).trans (age3.trans (congrArg (·.age) hflushed :)),
        (congrArg (·.held) hsettled :).trans (held3.trans (congrArg (·.held) hflushed :)),
        (congrArg (·.lasting.linkDownTick) hsettled :).trans (tick3.trans (congrArg (·.lasting.linkDownTick) hflushed :)),
        (congrArg (·.lasting.life) hsettled :).trans ((congrArg LifeS.steady life3).trans (congrArg (·.lasting.life) hflushed :))⟩
    obtain ⟨htime, hsec, hage, hheld, htick, hlife⟩ := hkept
    refine ⟨t, rfl, ?_, hheld, htick.trans (hs1 ▸ rfl), htime.trans (hs1 ▸ rfl), hsec.trans (hs1 ▸ rfl), hage.trans (hs1 ▸ rfl)⟩
    exact (congrArg LifeS.linkUp hlife).trans (hs1 ▸ rfl)

end Sys2Proof.Machine

/-! ## Faults of supplies and signals -/

namespace Sys2Proof.Machine

/-! ### What a fault of one port touches -/

/-- `t` is `s` with port `p` changed, its channels and sweep dropped and events raised. -/
structure PortTouched (p : Nat) (s t : State) : Prop where
  others : ∀ k, k ≠ p → t.portAt k = s.portAt k ∧ Tab.get? t.lidars k = Tab.get? s.lidars k
  frame : t = { s with ports := t.ports, filters := t.filters, lidars := t.lidars, events := t.events, tether := t.tether, eventLimit := t.eventLimit }

/-- Of those, what leaves channels and sweeps alone. -/
structure PortNoted (p : Nat) (s t : State) : Prop where
  others : ∀ k, k ≠ p → t.portAt k = s.portAt k
  frame : t = { s with ports := t.ports, events := t.events, tether := t.tether, eventLimit := t.eventLimit }

section PortFaults

variable {p : Nat} {s t u : State}

theorem PortTouched.refl (p : Nat) (s : State) : PortTouched p s s := ⟨fun _ _ => ⟨rfl, rfl⟩, rfl⟩

theorem PortTouched.trans (h : PortTouched p s t) (k : PortTouched p t u) : PortTouched p s u :=
  ⟨fun j hj => ⟨(k.others j hj).1.trans (h.others j hj).1, (k.others j hj).2.trans (h.others j hj).2⟩, by rw [k.frame, h.frame]⟩

theorem PortNoted.trans (h : PortNoted p s t) (k : PortNoted p t u) : PortNoted p s u :=
  ⟨fun j hj => (k.others j hj).trans (h.others j hj), by rw [k.frame, h.frame]⟩

theorem PortNoted.touched (h : PortNoted p s t) : PortTouched p s t :=
  ⟨fun k hk => ⟨h.others k hk, by rw [h.frame]⟩, by rw [h.frame]⟩

theorem PortTouched.time (h : PortTouched p s t) : t.time = s.time := by rw [h.frame]
theorem PortTouched.life (h : PortTouched p s t) : t.life = s.life := by rw [h.frame]

theorem PortNoted.updPort (p : Nat) (s : State) (f : PortS → PortS) : PortNoted p s (s.updPort p f) :=
  ⟨fun _ hk => State.portAt_updPort_other s f hk, rfl⟩

theorem PortNoted.raisePort (p code detail : Nat) (s : State) : PortNoted p s (raisePort p code detail s) := by
  obtain ⟨e, -, he⟩ := raisePort_event p code detail s
  rw [he]
  exact ⟨fun _ _ => rfl, rfl⟩

/-- A fault is reported at most once per second; where it is not, it counts as an error of its port (R951). -/
theorem raisePortLimited_noted (p code detail : Nat) (s : State) : PortNoted p s (raisePortLimited p code detail s) ∧
    ∃ n, (raisePortLimited p code detail s).portAt p = { s.portAt p with errors := n } := by
  unfold raisePortLimited State.raiseOncePerSecond
  split
  · split
    · exact ⟨⟨fun _ _ => rfl, rfl⟩, _, rfl⟩
    · exact ⟨⟨fun _ _ => rfl, rfl⟩, _, rfl⟩
  · exact ⟨.updPort .., _, State.portAt_updPort_self ..⟩

/-- A port that enters FAULT, or is there. -/
theorem enterFault_touched (p reason : Nat) (s : State) : PortTouched p s (enterFault p reason s) ∧ (enterFault p reason s).portAt p =
    if (s.portAt p).state = .fault then s.portAt p else (s.portAt p).inFault reason s.time.ticks := by
  by_cases h : (s.portAt p).state = .fault
  · rw [enterFault, if_pos h, if_pos h]
    exact ⟨.refl p s, rfl⟩
  · obtain ⟨hport, -, hothers, hframe⟩ := enterFault_entered reason h
    rw [if_neg h]
    exact ⟨⟨hothers, by rw [hframe]⟩, hport⟩

/-- A port entered into FAULT, whatever it was: its configuration and its supply are as they were. -/
def PortS.faulty (q : PortS) (reason now : Nat) : PortS := if q.state = .fault then q else q.inFault reason now

theorem PortS.faulty_state (q : PortS) (reason now : Nat) : (q.faulty reason now).state = .fault := by
  unfold PortS.faulty
  split
  · assumption
  · rfl

theorem PortS.faulty_reason {q : PortS} (reason now : Nat) (h : q.state ≠ .fault) : (q.faulty reason now).reason = reason := by
  rw [PortS.faulty, if_neg h]
  rfl

/-- The fields of a port that an entry into FAULT leaves. -/
theorem PortS.faulty_keeps (q : PortS) (reason now : Nat) : (q.faulty reason now).supplyOn = q.supplyOn ∧ (q.faulty reason now).trips = q.trips ∧
    (q.faulty reason now).latched = q.latched ∧ (q.faulty reason now).faultSignal = q.faultSignal ∧
    (q.faulty reason now).swapFault = q.swapFault ∧ (q.faulty reason now).swap = q.swap ∧ (q.faulty reason now).verifying = q.verifying := by
  unfold PortS.faulty
  split <;> exact ⟨rfl, rfl, rfl, rfl, rfl, rfl, rfl⟩

/-! ### Supplies -/

/-- The port of a supply that has tripped, before its trips are counted. -/
def tripped (p cause : Nat) (s : State) : State :=
  enterFault p 4 (raisePortLimited p 0x8F01 (p * 256 + cause) (s.updPort p fun q => { q with supplyOn := false, restoreDue := true }))

/-- A trip turns the supply off and leaves its port in FAULT (R930, R934). -/
theorem tripped_spec (p cause : Nat) (s : State) : PortTouched p s (tripped p cause s) ∧ ((tripped p cause s).portAt p).supplyOn = false ∧
    ((tripped p cause s).portAt p).state = .fault ∧ ((s.portAt p).state ≠ .fault → ((tripped p cause s).portAt p).reason = 4) ∧
    ((tripped p cause s).portAt p).trips = (s.portAt p).trips ∧ ((tripped p cause s).portAt p).latched = (s.portAt p).latched := by
  have h1 : PortNoted p s (s.updPort p fun q => { q with supplyOn := false, restoreDue := true }) := .updPort ..
  obtain ⟨h2, n, hn⟩ := raisePortLimited_noted p 0x8F01 (p * 256 + cause) (s.updPort p fun q => { q with supplyOn := false, restoreDue := true })
  obtain ⟨h3, hport⟩ := enterFault_touched p 4
    (raisePortLimited p 0x8F01 (p * 256 + cause) (s.updPort p fun q => { q with supplyOn := false, restoreDue := true }))
  rw [State.portAt_updPort_self] at hn
  change ((tripped p cause s).portAt p) = PortS.faulty _ 4 _ at hport
  rw [hn] at hport
  refine ⟨(h1.trans h2).touched.trans h3, ?_, ?_, fun hne => ?_, ?_, ?_⟩ <;> rw [hport]
  · exact (PortS.faulty_keeps ..).1
  · exact PortS.faulty_state ..
  · exact PortS.faulty_reason _ _ hne
  · exact (PortS.faulty_keeps ..).2.1
  · exact (PortS.faulty_keeps ..).2.2.1

/-- A trip, and its count where it is counted (R935, R939). -/
theorem supplyTrip_eq (p cause : Nat) (s : State) : supplyTrip p cause s =
    if tripCounts s = true then
      let recent := s.time.ticks :: (s.portAt p).trips.filter fun k => decide (s.time.ticks - k < 30000000000)
      let t := (tripped p cause s).updPort p fun q => { q with trips := recent }
      if 3 ≤ recent.length then raisePort p 0x8F01 (p * 256 + 4) (t.updPort p fun q => { q with latched := true }) else t
    else tripped p cause s := by
  obtain ⟨htouched, -, -, -, htrips, -⟩ := tripped_spec p cause s
  have hcounts : tripCounts (tripped p cause s) = tripCounts s := by rw [htouched.frame]; rfl
  rw [← hcounts, ← htouched.time, ← htrips]
  rfl

theorem portAt_raisePort (p code detail k : Nat) (s : State) : (raisePort p code detail s).portAt k = s.portAt k := by
  obtain ⟨e, -, he⟩ := raisePort_event p code detail s
  rw [he]
  rfl

/-- The supply after a trip, whether counted or not. -/
theorem supplyTrip_spec (p cause : Nat) (s : State) : PortTouched p s (supplyTrip p cause s) ∧ ((supplyTrip p cause s).portAt p).supplyOn = false ∧
    ((supplyTrip p cause s).portAt p).state = .fault ∧ ((s.portAt p).state ≠ .fault → ((supplyTrip p cause s).portAt p).reason = 4) := by
  obtain ⟨htouched, hoff, hfault, hreason, -, -⟩ := tripped_spec p cause s
  rw [supplyTrip_eq]
  split
  · dsimp only
    split
    · refine ⟨((htouched.trans (PortNoted.updPort ..).touched).trans (PortNoted.updPort ..).touched).trans (PortNoted.raisePort ..).touched, ?_⟩
      rw [portAt_raisePort, State.portAt_updPort_self, State.portAt_updPort_self]
      exact ⟨hoff, hfault, hreason⟩
    · refine ⟨htouched.trans (PortNoted.updPort ..).touched, ?_⟩
      rw [State.portAt_updPort_self]
      exact ⟨hoff, hfault, hreason⟩
  · exact ⟨htouched, hoff, hfault, hreason⟩

theorem supplyTrip_counted (cause : Nat) (h : tripCounts s = true) :
    ((supplyTrip p cause s).portAt p).trips = s.time.ticks :: (s.portAt p).trips.filter (fun k => decide (s.time.ticks - k < 30000000000)) ∧
    (3 ≤ ((supplyTrip p cause s).portAt p).trips.length → ((supplyTrip p cause s).portAt p).latched = true) := by
  rw [supplyTrip_eq, if_pos h]
  dsimp only
  split
  · rw [portAt_raisePort, State.portAt_updPort_self, State.portAt_updPort_self]
    exact ⟨rfl, fun _ => rfl⟩
  · next hfew =>
    rw [State.portAt_updPort_self]
    exact ⟨rfl, fun h => absurd h hfew⟩

theorem supplyTrip_uncounted (cause : Nat) (h : tripCounts s = false) :
    ((supplyTrip p cause s).portAt p).trips = (s.portAt p).trips ∧ ((supplyTrip p cause s).portAt p).latched = (s.portAt p).latched := by
  obtain ⟨-, -, -, -, htrips, hlatched⟩ := tripped_spec p cause s
  rw [supplyTrip_eq, if_neg (by simp [h])]
  exact ⟨htrips, hlatched⟩

theorem exec_supplyOvercurrent (hsupply : hasSupply p = true) (hon : (s.portAt p).supplyOn = true) :
    exec (.supplyOvercurrent p) s = .next (supplyTrip p 1 s) := by
  rw [exec, execSupplyOvercurrent, onTrigger_fires s _ (by simp [hsupply, hon])]

theorem exec_supplyShort (hsupply : hasSupply p = true) (hon : (s.portAt p).supplyOn = true) :
    exec (.supplyShort p) s = .next (supplyTrip p 2 s) := by
  rw [exec, execSupplyShort, onTrigger_fires s _ (by simp [hsupply, hon])]

/-! ### VSENS -/

/-- What the loss of VSENS does to the supply of one port (R933, R934). -/
def vsensLost (p : Nat) (s : State) : State :=
  let t := s.updPort p fun q => { q with supplyOn := false }
  if s.mainOn ∧ (s.portAt p).owner.isSome ∧ (s.portAt p).supplyStop = false then enterFault p 4 (t.updPort p fun q => { q with restoreDue := true })
  else t

theorem vsensLost_spec (p : Nat) (s : State) : PortTouched p s (vsensLost p s) ∧ ((vsensLost p s).portAt p).supplyOn = false ∧
    (s.mainOn = true → (s.portAt p).owner.isSome = true → (s.portAt p).supplyStop = false → ((vsensLost p s).portAt p).state = .fault) := by
  unfold vsensLost
  dsimp only
  split
  · obtain ⟨htouched, hport⟩ := enterFault_touched p 4
      ((s.updPort p fun q => { q with supplyOn := false }).updPort p fun q => { q with restoreDue := true })
    change _ = PortS.faulty _ 4 _ at hport
    rw [State.portAt_updPort_self, State.portAt_updPort_self] at hport
    refine ⟨((PortNoted.updPort ..).trans (PortNoted.updPort ..)).touched.trans htouched, ?_, fun _ _ _ => ?_⟩ <;> rw [hport]
    · exact (PortS.faulty_keeps ..).1
    · exact PortS.faulty_state ..
  · next hno =>
    refine ⟨(PortNoted.updPort ..).touched, ?_, fun hmain howner hstop => absurd ⟨hmain, howner, hstop⟩ hno⟩
    rw [State.portAt_updPort_self]

/-- A pass over different ports touches each of them once. -/
theorem forEach_touched {f : Nat → State → State} {Q : Nat → PortS → Prop} (hf : ∀ p u, PortTouched p u (f p u))
    (hQ : ∀ p u, u.life = s.life → u.portAt p = s.portAt p → Q p ((f p u).portAt p)) {l : List Nat} (hl : l.Nodup)
    (hs : t.life = s.life) (hports : ∀ p ∈ l, t.portAt p = s.portAt p) :
    (∀ p ∈ l, Q p ((forEach l f t).portAt p)) ∧ (∀ p, p ∉ l → (forEach l f t).portAt p = t.portAt p) ∧
    forEach l f t = { t with
      ports := (forEach l f t).ports, filters := (forEach l f t).filters, lidars := (forEach l f t).lidars, events := (forEach l f t).events,
      tether := (forEach l f t).tether, eventLimit := (forEach l f t).eventLimit } := by
  induction l generalizing t with
  | nil => exact ⟨fun p hp => absurd hp List.not_mem_nil, fun _ _ => rfl, rfl⟩
  | cons k l ih =>
    obtain ⟨hk, hl⟩ := List.nodup_cons.1 hl
    have hstep := hf k t
    have hne : ∀ p ∈ l, p ≠ k := fun p hp e => hk (e ▸ hp)
    obtain ⟨hin, hout, hframe⟩ := ih hl (hstep.life.trans hs) fun p hp => (hstep.others p (hne p hp)).1.trans (hports p (List.mem_cons_of_mem _ hp))
    refine ⟨fun p hp => ?_, fun p hp => ?_, ?_⟩
    · rcases List.mem_cons.1 hp with rfl | hp
      · exact (congrArg (Q p) (hout p hk)).mpr (hQ p t hs (hports p (List.mem_cons_self ..)))
      · exact hin p hp
    · rw [List.mem_cons, not_or] at hp
      obtain ⟨hpk, hpl⟩ := hp
      exact (hout p hpl).trans (hstep.others p hpk).1
    · change forEach l f (f k t) = { t with
        ports := (forEach l f (f k t)).ports, filters := (forEach l f (f k t)).filters, lidars := (forEach l f (f k t)).lidars,
        events := (forEach l f (f k t)).events, tether := (forEach l f (f k t)).tether, eventLimit := (forEach l f (f k t)).eventLimit }
      generalize forEach l f (f k t) = v at hframe ⊢
      rw [hframe, hstep.frame]

theorem mem_supplyPorts : p ∈ supplyPorts ↔ hasSupply p = true := by
  simp only [supplyPorts, hasSupply, isCamera, isEncoder, isExtImu, List.mem_append, List.mem_map, List.mem_range, List.mem_cons,
    List.not_mem_nil, Bool.or_eq_true, Bool.and_eq_true, decide_eq_true_eq, beq_iff_eq, or_false]
  constructor
  · rintro ((h | h) | ⟨k, hk, rfl⟩)
    · exact .inl (.inl h)
    · exact .inr h
    · exact .inl (.inr ⟨by omega, by omega⟩)
  · rintro ((h | ⟨hlow, hhigh⟩) | h)
    · exact .inl (.inl h)
    · exact .inr ⟨p - 48, by omega, by omega⟩
    · exact .inl (.inr h)

theorem supplyPorts_nodup : supplyPorts.Nodup := by decide

/-- The state once VSENS is marked as out of range and its fault reported. -/
def vsensOut (high : Bool) (s : State) : State := raisePinLimited 0x8F00 (if high then 5 else 4) (s.mapLife fun l => { l with vsensOk := false })

/-- A fault of no port is reported or nothing. -/
theorem raisePinLimited_eq (code detail : Nat) (s : State) : raisePinLimited code detail s = { s with
    events := (raisePinLimited code detail s).events, tether := (raisePinLimited code detail s).tether,
    eventLimit := (raisePinLimited code detail s).eventLimit } :=
  State.raiseOncePerSecond_eq ..

theorem exec_vsensOutOfRange (high : Bool) (hok : s.life.vsensOk = true) (hvaux : s.life.vaux = true) :
    exec (.vsensOutOfRange high) s = .next (forEach supplyPorts vsensLost (vsensOut high s)) := by
  rw [exec, execVsensOutOfRange, onTrigger_fires s _ (by simp [hok, hvaux])]
  rfl

/-- VSENS out of range turns every switched supply off. -/
theorem vsensOutOfRange_supplies (high : Bool) (hok : s.life.vsensOk = true) (hvaux : s.life.vaux = true) :
    ∃ t, exec (.vsensOutOfRange high) s = .next t ∧ t.life = { s.life with vsensOk := false } ∧
      (∀ p, hasSupply p = true → (t.portAt p).supplyOn = false) ∧
      (∀ p, hasSupply p = true → s.mainOn = true → (s.portAt p).owner.isSome = true → (s.portAt p).supplyStop = false → (t.portAt p).state = .fault) ∧
      (∀ p, hasSupply p = false → t.portAt p = s.portAt p) ∧
      t = { s with
        life := t.life, ports := t.ports, filters := t.filters, lidars := t.lidars, events := t.events, tether := t.tether,
        eventLimit := t.eventLimit } := by
  have hout := raisePinLimited_eq 0x8F00 (if high then 5 else 4) (s.mapLife fun l => { l with vsensOk := false })
  have hlife : (vsensOut high s).life = { s.life with vsensOk := false } := congrArg State.life hout
  have hport (p : Nat) : (vsensOut high s).portAt p = s.portAt p := (congrArg (·.portAt p) hout :)
  have hmain : (vsensOut high s).mainOn = s.mainOn := (congrArg State.mainOn hout :)
  obtain ⟨hin, hrest, hframe⟩ := forEach_touched (s := vsensOut high s)
    (Q := fun p q => q.supplyOn = false ∧
      (s.mainOn = true → (s.portAt p).owner.isSome = true → (s.portAt p).supplyStop = false → q.state = .fault))
    (fun p u => (vsensLost_spec p u).1)
    (fun p u hu hp => by
      have hon : u.mainOn = s.mainOn := by rw [← hmain, State.mainOn, State.mainOn, hu]
      obtain ⟨-, hoff, hfault⟩ := vsensLost_spec p u
      rw [hon, hp, hport] at hfault
      exact ⟨hoff, hfault⟩)
    supplyPorts_nodup rfl (fun _ _ => rfl)
  refine ⟨_, exec_vsensOutOfRange high hok hvaux, (congrArg State.life hframe).trans hlife, fun p hp => (hin p (mem_supplyPorts.2 hp)).1,
    fun p hp => (hin p (mem_supplyPorts.2 hp)).2, fun p hp => ?_, ?_⟩
  · rw [hrest p (fun hmem => by simp [mem_supplyPorts.1 hmem] at hp), hport]
  · change vsensOut high s = _ at hout
    generalize vsensOut high s = u at hframe hout ⊢
    generalize forEach supplyPorts vsensLost u = v at hframe ⊢
    rw [hframe, hout]
    rfl

/-- A read of the flags reports and clears them (R931). -/
theorem pollReversed_spec (s : State) : (s.life.reversed = [] → (pollReversed s).events = s.events) ∧ pollReversed s = { s with
    life := { s.life with reversed := [] }, events := (pollReversed s).events, tether := (pollReversed s).tether,
    eventLimit := (pollReversed s).eventLimit } := by
  constructor
  · intro h
    have hnone : (List.range 3).filter s.life.reversed.contains = [] := by rw [h]; rfl
    rw [pollReversed, hnone]
    rfl
  · exact forEach_keeps (P := fun u => u = { s with
      life := { s.life with reversed := [] }, events := u.events, tether := u.tether, eventLimit := u.eventLimit }) _ _
      (fun i _ u hu => by rw [raisePinLimited_eq, hu]) rfl

end PortFaults

/-- Settles O12: a trip, a lost VSENS and the flags of the protection controller each act on supplies and ports by their own rule. -/
theorem switchedSupplyFaultsAreHandled : Obligations.SwitchedSupplyFaultsAreHandled := by
  unfold Obligations.SwitchedSupplyFaultsAreHandled
  refine ⟨fun s p hsupply hon => ?_, fun s p hsupply hon => ?_, fun s p hsupply hon => ?_, fun s p hsupply hmain => ?_,
    fun s p htrips hlatched hold => ?_, fun s high hok hvaux => vsensOutOfRange_supplies high hok hvaux, fun s hok hvaux => ?_,
    fun s i hi hreversed => ?_, fun s hvaux => ?_⟩
  · obtain ⟨htouched, hoff, hfault, hreason⟩ := supplyTrip_spec p 1 s
    exact ⟨_, exec_supplyOvercurrent hsupply hon, hoff, hfault, hreason, supplyTrip_counted 1, htouched.others, htouched.frame⟩
  · obtain ⟨htouched, hoff, hfault, -⟩ := supplyTrip_spec p 2 s
    exact ⟨_, exec_supplyShort hsupply hon, hoff, hfault, supplyTrip_uncounted 2, htouched.others, htouched.frame⟩
  · obtain ⟨hnoted, n, hn⟩ := raisePortLimited_noted p 0x8F01 (p * 256 + 3)
      (s.updPort p fun q => { q with openLoad := q.openLoad || q.state == .detecting })
    rw [State.portAt_updPort_self] at hn
    have hall := (PortNoted.updPort ..).trans hnoted
    rw [exec, execSupplyOpenLoad, onTrigger_fires s _ (by simp [hsupply, hon])]
    refine ⟨_, rfl, ?_, ?_, fun hdet => ?_, hall.others, hall.frame⟩ <;> rw [hn]
    · exact hon
    · simp [hdet]
  · obtain ⟨hnoted, n, hn⟩ := raisePortLimited_noted p 0x8F01 (p * 256 + 6) s
    rw [exec, execSupplyBackFeed, onTrigger_fires s _ (by simp [hsupply, hmain])]
    refine ⟨_, rfl, ?_, ?_, hnoted.others, hnoted.frame⟩ <;> rw [hn]
  · have hall : ((s.portAt p).trips.all fun k => decide (msTicks 60000 ≤ s.since k)) = true :=
      List.all_eq_true.2 fun k hk => decide_eq_true (hold k hk)
    rw [exec, execTripCountClear, onTrigger_fires s _ (by simp [htrips, hlatched, hall])]
  · have hback := raisePinLimited_eq 0x8F00 6 (s.mapLife fun l => { l with vsensOk := true, vsensBack := some s.time.ticks })
    rw [exec, execVsensBackInRange, onTrigger_fires s _ (by simp [hok, hvaux])]
    refine ⟨_, rfl, congrArg State.life hback, ?_⟩
    rw [hback]
    rfl
  · rw [exec, execInputReversed, onTrigger_fires s _ (by rw [decide_eq_true hi, hreversed]; rfl)]
  · obtain ⟨hquiet, hframe⟩ := pollReversed_spec s
    rw [exec, execSupplyFlagPoll, onTrigger_fires s _ hvaux]
    refine ⟨_, rfl, congrArg State.life hframe, hquiet, ?_⟩
    rw [hframe]

end Sys2Proof.Machine

/-! ## Signal faults -/

namespace Sys2Proof.Machine

section SignalFaults

variable {p o : Nat} {s : State} {pin : Bool}

/-! ### Compared outputs -/

theorem State.updOutput_eq (s : State) (o : Nat) (f : OutputS → OutputS) :
    s.updOutput o f = { s with outputs := (s.updOutput o f).outputs } := rfl

/-- An output that fails is off; an IMU port behind it enters FAULT (R945). -/
theorem outputFails_spec (o : Nat) (s : State) : ((outputFails o s).outputAt o).off = true ∧
    (∀ k, k ≠ o → (outputFails o s).outputAt k = s.outputAt k) ∧
    outputFails o s = { s with
      outputs := (outputFails o s).outputs, ports := (outputFails o s).ports, filters := (outputFails o s).filters,
      lidars := (outputFails o s).lidars, events := (outputFails o s).events, tether := (outputFails o s).tether,
      eventLimit := (outputFails o s).eventLimit } := by
  obtain ⟨q, htouched⟩ : ∃ q, PortTouched q (raisePinLimited 0x8F02 (outputPin o * 16 + 1) (s.updOutput o fun x => { x with off := true, mismatches := 0 }))
      (outputFails o s) := by
    unfold outputFails
    dsimp only
    split
    · next q _ =>
      split
      · exact ⟨q, (enterFault_touched ..).1⟩
      · exact ⟨q, .refl ..⟩
    · exact ⟨0, .refl ..⟩
  have hframe := htouched.frame
  rw [raisePinLimited_eq] at hframe
  have houtput (k : Nat) : (outputFails o s).outputAt k = (s.updOutput o fun x => { x with off := true, mismatches := 0 }).outputAt k :=
    (congrArg (·.outputAt k) hframe :)
  refine ⟨?_, fun k hk => ?_, ?_⟩
  · rw [houtput, State.outputAt_updOutput, if_pos rfl]
  · rw [houtput, State.outputAt_updOutput, if_neg hk]
  · rw [hframe]
    rfl

theorem exec_outputCompare (ho : o < 31) (hon : (s.outputAt o).off = false) (hmain : s.mainOn = true) :
    exec (.outputCompare o pin) s = .next (if pin = drivenLevel s o then s.updOutput o fun x => { x with mismatches := 0 }
      else if (s.outputAt o).mismatches = 2 then outputFails o s else s.updOutput o fun x => { x with mismatches := x.mismatches + 1 }) := by
  have hwatched : (decide (o < 32) && !(s.outputAt o).off && (s.mainOn || o == 31)) = true := by
    rw [decide_eq_true (show o < 32 by omega), hon, hmain]
    rfl
  rw [exec, execOutputCompare, onTrigger_fires s _ hwatched, if_neg (by omega)]

/-- A comparison that disagrees counts, and the third in a row turns the output off (R944, R945). -/
theorem outputCompare_disagrees (ho : o < 31) (hon : (s.outputAt o).off = false) (hmain : s.mainOn = true) (hpin : pin ≠ drivenLevel s o) :
    ∃ t, exec (.outputCompare o pin) s = .next t ∧
      ((s.outputAt o).mismatches = 2 → (t.outputAt o).off = true) ∧
      ((s.outputAt o).mismatches ≠ 2 → t = s.updOutput o fun x => { x with mismatches := x.mismatches + 1 }) ∧
      (∀ k, k ≠ o → t.outputAt k = s.outputAt k) ∧ t.reel = s.reel ∧
      t = { s with
        outputs := t.outputs, ports := t.ports, filters := t.filters, lidars := t.lidars, events := t.events, tether := t.tether,
        eventLimit := t.eventLimit } := by
  have hexec := exec_outputCompare (pin := pin) ho hon hmain
  rw [if_neg hpin] at hexec
  by_cases hthird : (s.outputAt o).mismatches = 2
  · obtain ⟨hoff, hothers, hframe⟩ := outputFails_spec o s
    rw [if_pos hthird] at hexec
    exact ⟨_, hexec, fun _ => hoff, fun h => absurd hthird h, hothers, by rw [hframe], hframe⟩
  · rw [if_neg hthird] at hexec
    exact ⟨_, hexec, fun h => absurd h hthird, fun _ => rfl, fun k hk => by rw [State.outputAt_updOutput, if_neg hk], rfl, rfl⟩

/-- The cause is the low four bits of a DETAIL (Table 23-9). -/
theorem cause_of_detail (pin cause : Nat) (h : cause < 16) : (BitVec.ofNat 16 (pin * 16 + cause)) &&& 15 = BitVec.ofNat 16 cause := by
  apply BitVec.eq_of_toNat_eq
  have hmask : ∀ n : Nat, n &&& 15 = n % 16 := fun n => Nat.and_two_pow_sub_one_eq_mod n 4
  rw [BitVec.toNat_and, BitVec.toNat_ofNat, BitVec.toNat_ofNat, show (15 : BitVec 16).toNat = 15 from rfl, hmask]
  omega

/-- An output whose level agrees in its restore try is restored, and that is reported with cause 5 (R945). -/
theorem outputRestoreTry_agrees (ho : o < 32) (hoff : (s.outputAt o).off = true) (hpin : pin = wouldDrive s o) :
    ∃ t, exec (.outputRestoreTry o pin) s = .next t ∧ t.outputAt o = {} ∧ (∀ k, k ≠ o → t.outputAt k = s.outputAt k) ∧
      (∃ e, t.events = s.events ++ [e] ∧ e.code = 0x8F02 ∧ e.detail &&& 15 = 5) ∧
      t = { s with outputs := t.outputs, events := t.events, tether := t.tether } := by
  have hexec : exec (.outputRestoreTry o pin) s = .next ((s.updOutput o fun _ => {}).raise 0x8F02 (outputPin o * 16 + 5)) := by
    rw [exec, execOutputRestoreTry, onTrigger_fires s _ (by rw [hoff, decide_eq_true ho]; rfl), if_pos hpin]
  refine ⟨_, hexec, ?_, fun k hk => ?_, ⟨_, rfl, rfl, ?_⟩, rfl⟩
  · exact (State.outputAt_updOutput s o o fun _ => {}).trans (if_pos rfl)
  · exact (State.outputAt_updOutput s o k fun _ => {}).trans (if_neg hk)
  · exact cause_of_detail (outputPin o) 5 (by decide)

/-! ### Lines -/

/-- A line fault puts its port into FAULT and is remembered for the recovery (R947). -/
theorem lineFault_spec (p pin cause : Nat) (s : State) : PortTouched p s (lineFault p pin cause s) ∧
    ((lineFault p pin cause s).portAt p).state = .fault ∧ ((lineFault p pin cause s).portAt p).faultSignal = true ∧
    ((lineFault p pin cause s).portAt p).swapFault = (s.portAt p).swapFault ∧ ((lineFault p pin cause s).portAt p).swap = (s.portAt p).swap ∧
    ((lineFault p pin cause s).portAt p).verifying = (s.portAt p).verifying := by
  obtain ⟨hnoted, n, hn⟩ := raisePortLimited_noted p 0x8F02 (pin * 16 + cause)
    (s.updPort p fun q => { q with faultSignal := true, faultPin := pin, faultAt := s.time.ticks })
  obtain ⟨htouched, hport⟩ := enterFault_touched p 4 (raisePortLimited p 0x8F02 (pin * 16 + cause)
    (s.updPort p fun q => { q with faultSignal := true, faultPin := pin, faultAt := s.time.ticks }))
  rw [State.portAt_updPort_self] at hn
  change (lineFault p pin cause s).portAt p = PortS.faulty _ 4 _ at hport
  rw [hn] at hport
  refine ⟨((PortNoted.updPort ..).trans hnoted).touched.trans htouched, ?_⟩
  rw [hport]
  obtain ⟨-, -, -, hsignal, hswapFault, hswap, hverifying⟩ := PortS.faulty_keeps
    { s.portAt p with faultSignal := true, faultPin := pin, faultAt := s.time.ticks, errors := n } 4
    (raisePortLimited p 0x8F02 (pin * 16 + cause)
      (s.updPort p fun q => { q with faultSignal := true, faultPin := pin, faultAt := s.time.ticks })).time.ticks
  exact ⟨PortS.faulty_state .., hsignal, hswapFault, hswap, hverifying⟩

theorem lineWatched_eq (howner : (s.portAt p).owner.isSome = true) (hstate : (s.portAt p).state ≠ .off) : lineWatched s p = true := by
  simp [lineWatched, howner, hstate]

/-- A held line of a camera ends the transfer that waits for it (Table 23-8). -/
theorem cameraHeldLow (sda : Bool) {m : Cmd} (hcamera : isCamera p = true)
    (hm : s.cmds.find? (fun x => x.phase == .running && x.opcode == 0x0205 && !x.begun && fld (x.w 3) 7 0 == p) = some m) :
    ∃ t r, exec (.lineHeldLow (.cameraI2c p sda)) s = .next t ∧ t.replyOf m.ref = some r ∧ r.status = BitVec.ofNat 16 OK_PARTIAL ∧
      t.outbox = .i2cFree p :: s.outbox ∧ otherCmds s t m.ref ∧ (t.portAt p).state = (s.portAt p).state ∧
      t = { s with
        cmds := t.cmds, ports := t.ports, outbox := t.outbox, events := t.events, tether := t.tether, eventLimit := t.eventLimit,
        free := t.free } := by
  have hfound : (s.findCmd m.ref).isSome := List.find?_isSome.2 ⟨m, List.mem_of_find?_eq_some hm, decide_eq_true rfl⟩
  obtain ⟨r, hreply, ⟨hstatus, -, -⟩, -⟩ := State.replyOf_done OK_PARTIAL (Config.openVal 4 s.free % 65536) [] [] hfound
  have hothers := otherCmds_done s m.ref OK_PARTIAL (Config.openVal 4 s.free % 65536) [] []
  have hexec : exec (.lineHeldLow (.cameraI2c p sda)) s = .next ((raisePortLimited p 0x8F02 (((p + 4) * 128 + (if sda then 20 else 19)) * 16 + 2)
      { s.done m.ref OK_PARTIAL (Config.openVal 4 s.free % 65536) with free := s.free + 1 }).send (.i2cFree p)) := by
    rw [exec, execLineHeldLow, hm]
    exact if_pos hcamera
  obtain ⟨hnoted, n, hn⟩ := raisePortLimited_noted p 0x8F02 (((p + 4) * 128 + (if sda then 20 else 19)) * 16 + 2)
    { s.done m.ref OK_PARTIAL (Config.openVal 4 s.free % 65536) with free := s.free + 1 }
  have hframe := hnoted.frame
  generalize raisePortLimited _ _ _ _ = u at hexec hn hframe
  refine ⟨_, r, hexec, ?_, hstatus, ?_, ?_, ?_, ?_⟩
  · exact (congrArg (·.replyOf m.ref) hframe :).trans hreply
  · exact congrArg (.i2cFree p :: ·) (congrArg State.outbox hframe)
  · exact fun d hd => (congrArg (·.findCmd d) hframe :).trans (hothers d hd)
  · exact (congrArg PortS.state hn :)
  · rw [hframe]
    rfl

end SignalFaults

/-- Settles O13: a comparison counts or fails its output, a line fault goes through `lineFault`, and a held line ends what waits on it. -/
theorem signalFaultsAreHandled : Obligations.SignalFaultsAreHandled := by
  unfold Obligations.SignalFaultsAreHandled
  refine ⟨fun s o pin ho hon hmain hpin => ?_, fun s o pin ho hon hmain hpin => outputCompare_disagrees ho hon hmain hpin,
    fun s o pin ho hoff hpin => outputRestoreTry_agrees ho hoff hpin, fun s p pin howner hstate => ⟨fun hp => ?_, fun hp => ?_, fun hp => ?_, fun hp => ?_⟩,
    fun s p sda m hcamera hm => cameraHeldLow sda hcamera hm, fun s dat hvaux => ?_⟩
  · rw [exec_outputCompare ho hon hmain, if_pos hpin]
  · obtain ⟨htouched, hfault, hsignal, -⟩ := lineFault_spec p ((p + 4) * 128 + pin) 4 s
    rw [exec, execDphyLineStuck, onTrigger_fires s _ (by rw [hp, lineWatched_eq howner hstate]; rfl)]
    exact ⟨_, rfl, hfault, hsignal, htouched.others, htouched.frame⟩
  · obtain ⟨htouched, hfault, hsignal, -, hswap, hverifying⟩ := lineFault_spec p (20 * 128 + pin) 3 s
    rw [exec, execEncoderLineOpen, onTrigger_fires s _ (by rw [hp, lineWatched_eq howner hstate]; rfl)]
    exact ⟨_, rfl, hfault, hsignal, hswap, hverifying, htouched.others, htouched.frame⟩
  · obtain ⟨htouched, hfault, hsignal, -⟩ := lineFault_spec p (20 * 128 + pin) 3 s
    rw [exec, execCanLineOpen, onTrigger_fires s _ (by rw [hp, lineWatched_eq howner hstate]; rfl)]
    exact ⟨_, rfl, hfault, hsignal, htouched.others, htouched.frame⟩
  · obtain ⟨htouched, hfault, -, hswapped, -⟩ := lineFault_spec p (20 * 128 + (if p = 64 then 17 else 20)) 6
      (s.updPort p fun q => { q with swapFault := true })
    have hall := (PortNoted.updPort p s fun q => { q with swapFault := true }).touched.trans htouched
    rw [State.portAt_updPort_self] at hswapped
    rw [exec, execCanPairSwapped, onTrigger_fires s _ (by rw [hp, lineWatched_eq howner hstate]; rfl)]
    exact ⟨_, rfl, hfault, hswapped, hall.others, hall.frame⟩
  · have hframe := raisePinLimited_eq 0x8F02 ((3 * 128 + (if dat then 2 else 1)) * 16 + 2) s
    rw [exec, execLineHeldLow, onTrigger_fires s _ hvaux]
    generalize raisePinLimited _ _ _ = u at hframe ⊢
    refine ⟨_, rfl, (congrArg (fun v => OutMsg.smbusReset :: v.outbox) hframe :), ?_⟩
    rw [hframe]
    rfl

end Sys2Proof.Machine

/-! ## SPDM -/

namespace Sys2Proof.Machine

section Spdm

variable {s : State} {via : Carrier}

/-! ### Responses -/

/-- A response is its four leading bytes and the rest. -/
theorem spdmSend_eq (via : Carrier) (code p1 p2 : Nat) (rest : List Byte) (s : State) : spdmSend via code p1 p2 rest s =
    s.send (.spdm via ([0x12, BitVec.ofNat 8 code, BitVec.ofNat 8 p1, BitVec.ofNat 8 p2] ++ rest)) := rfl

theorem spdmError_eq (via : Carrier) (code : Nat) (s : State) :
    spdmError via code s = s.send (.spdm via [0x12, 0x7F, BitVec.ofNat 8 code, 0]) := rfl

theorem length_leBytes (n x : Nat) : (leBytes n x).length = n := by
  induction n generalizing x with
  | zero => rfl
  | succ n ih => rw [leBytes, List.length_cons, ih]

theorem length_signature (n : Nat) (b : List Byte) : (signature n b).length = n := by
  rw [signature, List.length_map, List.length_range]

/-! ### The state of a connection (R864) -/

/-- A new state of one connection. -/
theorem setSpdm_spec (via : Carrier) (n : Nat) (s : State) : spdmState (setSpdm via n s) via = n ∧
    (∀ w, w ≠ via → spdmState (setSpdm via n s) w = spdmState s w) ∧ setSpdm via n s = { s with tether := (setSpdm via n s).tether } := by
  cases via with
  | doe => exact ⟨rfl, fun w hw => by cases w with | doe => exact absurd rfl hw | mctp => rfl, rfl⟩
  | mctp => exact ⟨rfl, fun w hw => by cases w with | doe => rfl | mctp => exact absurd rfl hw, rfl⟩

theorem spdmRequest_unreached (least : Nat) (k : State → State) (h : spdmReached s via = false) : spdmRequest via least s k = .next s :=
  onTrigger_idle s _ h

theorem spdmRequest_early {least : Nat} (k : State → State) (h : spdmReached s via = true) (hstate : spdmState s via < least) :
    spdmRequest via least s k = .next (s.send (.spdm via [0x12, 0x7F, 0x04, 0])) := by
  rw [spdmRequest, onTrigger_fires s _ h, if_neg (by omega)]
  rfl

theorem spdmRequest_runs {least : Nat} (k : State → State) (h : spdmReached s via = true) (hstate : least ≤ spdmState s via) :
    spdmRequest via least s k = .next (k s) := by
  rw [spdmRequest, onTrigger_fires s _ h, if_pos hstate]

/-- A response after which the connection has a new state. -/
theorem spdm_moves (n : Nat) (m : List Byte) : ∃ t, Host.Outcome.next ((setSpdm via n s).send (.spdm via m)) = (.next t : Out) ∧ spdmState t via = n ∧
    (∀ w, w ≠ via → spdmState t w = spdmState s w) ∧ t.outbox = .spdm via m :: s.outbox ∧ t = { s with tether := t.tether, outbox := t.outbox } := by
  obtain ⟨hstate, hothers, hframe⟩ := setSpdm_spec via n s
  refine ⟨_, rfl, ?_, fun w hw => ?_, ?_, ?_⟩
  · rw [← hstate]
    cases via <;> rfl
  · rw [← hothers w hw]
    cases w <;> rfl
  · exact (congrArg (fun u => OutMsg.spdm via m :: u.outbox) hframe :)
  · rw [hframe]
    rfl

/-! ### Requests -/

theorem getCapabilities_moves (h : spdmReached s via = true) (hstate : 1 ≤ spdmState s via) :
    ∃ t ct size, exec (.getCapabilities via) s = .next t ∧ spdmState t via = 2 ∧ (∀ w, w ≠ via → spdmState t w = spdmState s w) ∧
      t.outbox = .spdm via ([0x12, 0x61, 0, 0, 0, ct, 0, 0, 0x16, 0, 0, 0] ++ size) :: s.outbox ∧ size.length = 8 ∧
      t = { s with tether := t.tether, outbox := t.outbox } := by
  have hexec : exec (.getCapabilities via) s = .next ((setSpdm via 2 s).send (.spdm via ([0x12, 0x61, 0, 0, 0,
      BitVec.ofNat 8 (Config.openVal 57 0), 0, 0, 0x16, 0, 0, 0] ++ (leBytes 4 (Config.openVal 57 1) ++ leBytes 4 (Config.openVal 57 1))))) := by
    rw [exec, execGetCapabilities, spdmRequest_runs _ h hstate]
    dsimp only
    rw [spdmSend_eq, List.append_assoc _ (leBytes 4 _) (leBytes 4 _)]
    rfl
  obtain ⟨t, ht, hnew, hothers, hout, hframe⟩ := spdm_moves 2 _
  exact ⟨t, _, _, hexec.trans ht, hnew, hothers, hout, by rw [List.length_append, length_leBytes], hframe⟩

theorem negotiateAlgorithms_moves (a h mh ms : Word) (hreached : spdmReached s via = true) (hstate : 2 ≤ spdmState s via) :
    (bit a 6 = true → bit h 2 = true → bit ms 0 = true →
      ∃ t, exec (.negotiateAlgorithms via a h mh ms) s = .next t ∧ spdmState t via = 3 ∧ (∀ w, w ≠ via → spdmState t w = spdmState s w) ∧
        t.outbox = .spdm via ([0x12, 0x63, 0, 0, 36, 0, 1, 0, 8, 0, 0, 0, 0x40, 0, 0, 0, 4, 0, 0, 0] ++ zeros 16) :: s.outbox ∧
        t = { s with tether := t.tether, outbox := t.outbox }) ∧
    (bit a 6 = false ∨ bit h 2 = false ∨ bit ms 0 = false →
      ∃ t code, exec (.negotiateAlgorithms via a h mh ms) s = .next t ∧ spdmState t via = 2 ∧ (∀ w, w ≠ via → spdmState t w = spdmState s w) ∧
        t.outbox = .spdm via [0x12, 0x7F, code, 0] :: s.outbox ∧ t = { s with tether := t.tether, outbox := t.outbox }) := by
  have hexec : exec (.negotiateAlgorithms via a h mh ms) s = .next (if bit a 6 && bit h 2 && bit ms 0 then
      (setSpdm via 3 s).send (.spdm via ([0x12, 0x63, 0, 0, 36, 0, 1, 0, 8, 0, 0, 0, 0x40, 0, 0, 0, 4, 0, 0, 0] ++ zeros 16))
      else (setSpdm via 2 s).send (.spdm via [0x12, 0x7F, BitVec.ofNat 8 (Config.openVal 57 2), 0])) := by
    rw [exec, execNegotiateAlgorithms, spdmRequest_runs _ hreached hstate]
    rfl
  constructor
  · intro ha hh hms
    rw [if_pos (by rw [ha, hh, hms]; rfl)] at hexec
    obtain ⟨t, ht, hmoves⟩ := spdm_moves 3 _
    exact ⟨t, hexec.trans ht, hmoves⟩
  · intro hmissing
    rw [if_neg (by rcases hmissing with e | e | e <;> simp [e])] at hexec
    obtain ⟨t, ht, hmoves⟩ := spdm_moves 2 _
    exact ⟨t, _, hexec.trans ht, hmoves⟩

theorem getCertificate_sends (off n : Nat) (h : spdmReached s via = true) (hstate : 3 ≤ spdmState s via) (hoff : off < spdmChain.length) :
    exec (.getCertificate via 0 off n) s = .next (s.send (.spdm via ([0x12, 0x02, 0, 0] ++ leBytes 2 (slice spdmChain off n).length ++
      leBytes 2 (spdmChain.length - off - (slice spdmChain off n).length) ++ slice spdmChain off n))) := by
  have hhere : ¬ (0 ≠ 0 ∨ spdmChain.length ≤ off) := by omega
  rw [exec, execGetCertificate, spdmRequest_runs _ h hstate, if_neg hhere, spdmSend_eq]
  simp only [List.append_assoc]
  rfl

theorem getCertificate_refused {slot off : Nat} (n : Nat) (h : spdmReached s via = true) (hstate : 3 ≤ spdmState s via)
    (hbad : slot ≠ 0 ∨ spdmChain.length ≤ off) :
    exec (.getCertificate via slot off n) s = .next (s.send (.spdm via [0x12, 0x7F, 0x01, 0])) := by
  rw [exec, execGetCertificate, spdmRequest_runs _ h hstate, if_pos hbad, spdmError_eq]
  rfl

theorem length_freshNonce (s : State) : (freshNonce s).1.length = 32 := by
  rw [freshNonce, List.length_map, List.length_range]

theorem challenge_sends (sum : Nat) (nonce : List Byte) (h : spdmReached s via = true) (hstate : 3 ≤ spdmState s via) :
    ∃ t n rest, exec (.challenge via 0 nonce sum) s = .next t ∧
      t.outbox = .spdm via ([0x12, 0x03, 0, 1] ++ sha512 spdmChain ++ n ++ rest) :: s.outbox ∧ n.length = 32 ∧ t.free = s.free + 1 ∧
      t = { s with outbox := t.outbox, free := t.free } := by
  obtain ⟨rest, hexec⟩ : ∃ rest, exec (.challenge via 0 nonce sum) s =
      .next ((freshNonce s).2.send (.spdm via ([0x12, 0x03, 0, 1] ++ sha512 spdmChain ++ (freshNonce s).1 ++ rest))) := by
    rw [exec, execChallenge, spdmRequest_runs _ h hstate, if_neg (by simp)]
    dsimp only
    simp only [spdmSend_eq, List.append_assoc]
    exact ⟨_, rfl⟩
  exact ⟨_, _, _, hexec, rfl, length_freshNonce s, rfl, rfl⟩

/-- The blocks that a GET_MEASUREMENTS asks for (R865). -/
theorem getMeasurements_sends {ix : Nat} (sg : Bool) (nonce : List Byte) {l : List Nat} (h : spdmReached s via = true) (hstate : 3 ≤ spdmState s via)
    (hl : l = (if ix = 0 then [] else if ix = 255 then [1, 2, 3, 4, 5, 6, 7, 8, 9, 10, 11, 12, 13] else [ix])) (hix : ix ≤ 13 ∨ ix = 255) :
    ∃ t n sig, exec (.getMeasurements via ix sg nonce) s = .next t ∧ n.length = 32 ∧ t.free = s.free + 1 ∧
      t.outbox = .spdm via ([0x12, 0x60, if ix = 0 then 13 else 0, 0] ++ leBytes 1 l.length ++ leBytes 3 (l.flatMap (measurementBlock s)).length
        ++ l.flatMap (measurementBlock s) ++ n ++ [0, 0] ++ sig) :: s.outbox ∧ sig.length = (if sg then 512 else 0) ∧
      t = { s with outbox := t.outbox, free := t.free } := by
  have hcount : BitVec.ofNat 8 (if ix = 0 then 13 else 0) = if ix = 0 then 13 else 0 := by split <;> rfl
  obtain ⟨b, hexec⟩ : ∃ b, exec (.getMeasurements via ix sg nonce) s =
      .next ((freshNonce s).2.send (.spdm via ([0x12, 0x60, if ix = 0 then 13 else 0, 0] ++ leBytes 1 l.length ++
        leBytes 3 (l.flatMap (measurementBlock s)).length ++ l.flatMap (measurementBlock s) ++ (freshNonce s).1 ++ [0, 0] ++
        if sg then signature 512 b else []))) := by
    have hl' : (if ix = 0 then [] else if ix = 255 then (List.range 13).map (· + 1) else [ix]) = l := hl.symm
    rw [exec, execGetMeasurements, spdmRequest_runs _ h hstate, if_neg (by omega), hl']
    dsimp only
    simp only [spdmSend_eq, hcount, List.append_assoc]
    exact ⟨_, rfl⟩
  refine ⟨_, _, _, hexec, length_freshNonce s, rfl, rfl, ?_, rfl⟩
  rw [apply_ite List.length, length_signature]
  rfl

theorem getMeasurements_refused {ix : Nat} (sg : Bool) (nonce : List Byte) (h : spdmReached s via = true) (hstate : 3 ≤ spdmState s via)
    (hix : 13 < ix) (hall : ix ≠ 255) : exec (.getMeasurements via ix sg nonce) s = .next (s.send (.spdm via [0x12, 0x7F, 0x01, 0])) := by
  rw [exec, execGetMeasurements, spdmRequest_runs _ h hstate, if_pos ⟨hix, hall⟩, spdmError_eq]
  rfl

end Spdm

/-- Settles O49: every request goes through `spdmRequest`, which looks at its own carrier's state alone. -/
theorem spdmCarriersKeepTheirOwnState : Obligations.SpdmCarriersKeepTheirOwnState := by
  unfold Obligations.SpdmCarriersKeepTheirOwnState
  refine ⟨fun s via h => ⟨?_, ?_, ?_, fun slot off n => ?_⟩, fun s via h => ?_, fun s via slot off n a hw mh ms nonce sum ix sg h => ⟨?_, ?_, ?_⟩,
    fun s via h hstate => getCapabilities_moves h hstate, fun s via a hw mh ms h hstate => negotiateAlgorithms_moves a hw mh ms h hstate,
    fun s via slot off n h hstate => ⟨?_, fun hbad => getCertificate_refused n h hstate hbad, ?_⟩,
    fun s via slot sum nonce h hstate => ⟨fun hslot => ?_, ?_⟩,
    fun s via ix sg nonce h hstate => ⟨fun hix hall => getMeasurements_refused sg nonce h hstate hix hall, fun l hl hix => ?_⟩⟩
  · rw [exec, execGetVersion, spdmRequest_unreached _ _ h]
  · rw [exec, execGetCapabilities, spdmRequest_unreached _ _ h]
  · rw [exec, execGetDigests, spdmRequest_unreached _ _ h]
  · rw [exec, execGetCertificate, spdmRequest_unreached _ _ h]
  · rw [exec, execGetVersion, spdmRequest_runs _ h (Nat.zero_le _)]
    exact spdm_moves 1 _
  · intro hstate
    rw [exec, execGetCapabilities, spdmRequest_early _ h hstate]
  · intro hstate
    rw [exec, execNegotiateAlgorithms, spdmRequest_early _ h hstate]
  · intro hstate
    refine ⟨?_, ?_, ?_, ?_⟩
    · rw [exec, execGetDigests, spdmRequest_early _ h hstate]
    · rw [exec, execGetCertificate, spdmRequest_early _ h hstate]
    · rw [exec, execChallenge, spdmRequest_early _ h hstate]
    · rw [exec, execGetMeasurements, spdmRequest_early _ h hstate]
  · rw [exec, execGetDigests, spdmRequest_runs _ h hstate, spdmSend_eq]
    rfl
  · rintro rfl hoff
    exact ⟨_, rfl, getCertificate_sends off n h hstate hoff⟩
  · rw [exec, execChallenge, spdmRequest_runs _ h hstate, if_pos hslot, spdmError_eq]
    rfl
  · rintro rfl
    exact challenge_sends sum nonce h hstate
  · exact getMeasurements_sends sg nonce h hstate hl hix

end Sys2Proof.Machine

/-! ## Staging of firmware and the owner slot -/

namespace Sys2Proof.Machine

section Staging

variable {s u : State} {c : CmdRef} {m : Cmd} {b : List Byte}

/-! ### Stages -/

/-- `t` is `s` with its security state changed and events raised. -/
def SecMoved (s t : State) : Prop := t = { s with sec := t.sec, events := t.events, tether := t.tether }

theorem SecMoved.trans {s t u : State} (h : SecMoved s t) (k : SecMoved t u) : SecMoved s u := by
  rw [SecMoved, k, h]

theorem SecMoved.mapSec (s : State) (f : SecS → SecS) : SecMoved s (s.mapSec f) := rfl

/-- A new stage is the stage, and is reported where it is new. -/
theorem setStage_spec (n : Nat) (s : State) : (setStage n s).sec = { s.sec with stage := n } ∧ SecMoved s (setStage n s) := by
  unfold setStage
  split
  · next h => exact ⟨by rw [← h], rfl⟩
  · exact ⟨rfl, rfl⟩

theorem SecMoved.cmds {s t : State} (h : SecMoved s t) : t.cmds = s.cmds := by rw [h]

/-! ### Chunks (R713, R714, R872) -/

/-- The state with a chunk taken, before it is looked at. -/
def chunkTaken (b : List Byte) (s : State) : State :=
  setStage 1 (s.mapSec fun x => { x with staged := x.staged ++ b, stagedNext := s.sec.stagedNext + b.length })

theorem chunkTaken_spec (b : List Byte) (s : State) :
    (chunkTaken b s).sec = { s.sec with staged := s.sec.staged ++ b, stagedNext := s.sec.stagedNext + b.length, stage := 1 } ∧
    SecMoved s (chunkTaken b s) := by
  obtain ⟨hsec, hmoved⟩ := setStage_spec 1 (s.mapSec fun x => { x with staged := x.staged ++ b, stagedNext := s.sec.stagedNext + b.length })
  exact ⟨hsec, (SecMoved.mapSec s _).trans hmoved⟩

/-- The check of an image looks at the owner slot and at the fused SVN alone. -/
theorem stagedCheck_congr {t : State} (hhash : t.sec.ownerHash = s.sec.ownerHash) (hsvn : t.sec.svn = s.sec.svn) (b : List Byte) :
    stagedCheck t b = stagedCheck s b := by
  rw [stagedCheck, hhash, hsvn]
  rfl

theorem stagedCheck_detail {d : Nat} (h : stagedCheck s b = some d) : d = 0x41 ∨ d = 0x43 ∨ d = 0x44 := by
  unfold stagedCheck at h
  split_ifs at h
  · exact .inl (Option.some.inj h).symm
  · exact .inr (.inl (Option.some.inj h).symm)
  · exact .inr (.inr (Option.some.inj h).symm)

theorem stagedCheck_chunkTaken (b img : List Byte) (s : State) : stagedCheck (chunkTaken b s) img = stagedCheck s img := by
  obtain ⟨hsec, -⟩ := chunkTaken_spec b s
  exact stagedCheck_congr (by rw [hsec]) (by rw [hsec]) img

/-- What becomes of a chunk. -/
theorem takeChunk_eq (m : Cmd) (b : List Byte) (s : State) : takeChunk m b s =
    if s.sec.stagedBanks.length * 524288 < s.sec.stagedNext + b.length then
      (setStage 0 (discardStaged (chunkTaken b s))).refuse m.ref BAD_PARAM 0x0041
    else if bit (m.w 4) 0 = false then (chunkTaken b s).done m.ref OK 0 [w32 (s.sec.stagedNext + b.length)]
    else match stagedCheck s (s.sec.staged ++ b) with
      | some d => (setStage 0 (discardStaged (chunkTaken b s))).refuse m.ref BAD_PARAM d
      | none => (setStage 2 ((chunkTaken b s).mapSec fun x => { x with stagedOk := true })).done m.ref OK 0 [w32 (s.sec.stagedNext + b.length)] := by
  obtain ⟨hsec, -⟩ := chunkTaken_spec b s
  rw [← stagedCheck_chunkTaken b]
  have hstaged : (chunkTaken b s).sec.staged = s.sec.staged ++ b := by rw [hsec]
  have hbanks : (chunkTaken b s).sec.stagedBanks = s.sec.stagedBanks := by rw [hsec]
  rw [← hstaged, ← hbanks]
  rfl

/-- A discarded image leaves stage 0. -/
theorem discarded_spec (b : List Byte) (s : State) : (setStage 0 (discardStaged (chunkTaken b s))).sec =
      { s.sec with staged := [], stagedOk := false, stagedNext := 0, stagedBanks := [], stage := 0 } ∧
    SecMoved s (setStage 0 (discardStaged (chunkTaken b s))) := by
  obtain ⟨hsec, hmoved⟩ := chunkTaken_spec b s
  obtain ⟨hsec', hmoved'⟩ := setStage_spec 0 (discardStaged (chunkTaken b s))
  refine ⟨?_, (hmoved.trans (SecMoved.mapSec _ _)).trans hmoved'⟩
  rw [hsec', discardStaged, State.mapSec, hsec]

/-- The state from which a chunk is taken: the command has begun, and the image so far, its place and its banks are these. -/
structure ChunkAt (s : State) (c : CmdRef) (old : List Byte) (off : Nat) (banks : List Nat) (u : State) : Prop where
  sec : u.sec = { s.sec with staged := old, stagedOk := u.sec.stagedOk, stagedNext := off, stagedBanks := banks }
  frame : u = { s.began c with sec := u.sec }

theorem ChunkAt.image {old : List Byte} {off : Nat} {banks : List Nat} (h : ChunkAt s c old off banks u) :
    u.sec.staged = old ∧ u.sec.stagedNext = off ∧ u.sec.stagedBanks = banks :=
  ⟨by rw [h.sec], by rw [h.sec], by rw [h.sec]⟩

variable {old : List Byte} {off : Nat} {banks : List Nat}

/-- The end of a command after its chunk moved the security state. -/
theorem ChunkAt.others {t v : State} (h : ChunkAt s c old off banks u) (hv : SecMoved u v) (hothers : otherCmds v t c)
    (ht : t = { v with cmds := t.cmds }) :
    otherCmds s t c ∧ t = { s with cmds := t.cmds, sec := t.sec, events := t.events, tether := t.tether } := by
  have hcmds : v.cmds = (s.began c).cmds := by rw [hv, h.frame]
  refine ⟨fun d hd => (hothers d hd).trans ((State.findCmd_congr hcmds d).trans (otherCmds_began s c d hd)), ?_⟩
  rw [ht, hv, h.frame]
  rfl

theorem ChunkAt.found {v : State} (h : ChunkAt s c old off banks u) (hv : SecMoved u v) (hruns : s.runs c 0x0D02 m) : (v.findCmd c).isSome := by
  have hcmds : v.cmds = (s.began c).cmds := by rw [hv, h.frame]
  rw [State.findCmd_congr hcmds]
  simpa using hruns.isSome

theorem ChunkAt.check {img : List Byte} (h : ChunkAt s c old off banks u) : stagedCheck u img = stagedCheck s img :=
  stagedCheck_congr (by rw [h.sec]) (by rw [h.sec]) img

/-- A chunk that is too much or completes a bad image is refused, and the image is discarded. -/
theorem ChunkAt.refused (h : ChunkAt s c old off banks u) (hruns : s.runs c 0x0D02 m) (href : m.ref = c)
    (hbad : banks.length * 524288 < off + b.length ∨ (bit (m.w 4) 0 = true ∧ ∃ d, stagedCheck s (old ++ b) = some d)) :
    ∃ d, (takeChunk m b u).answered c BAD_PARAM d [] ∧ (d = 0x41 ∨ d = 0x43 ∨ d = 0x44) ∧ (takeChunk m b u).sec.staged = [] ∧
      (takeChunk m b u).sec.stagedBanks = [] ∧ (takeChunk m b u).sec.stage = 0 ∧ (takeChunk m b u).sec.flash = s.sec.flash ∧
      otherCmds s (takeChunk m b u) c ∧ takeChunk m b u = { s with
        cmds := (takeChunk m b u).cmds, sec := (takeChunk m b u).sec, events := (takeChunk m b u).events, tether := (takeChunk m b u).tether } := by
  obtain ⟨hsec, hmoved⟩ := discarded_spec b u
  obtain ⟨d, htake, hd⟩ : ∃ d, takeChunk m b u = (setStage 0 (discardStaged (chunkTaken b u))).refuse m.ref BAD_PARAM d ∧
      (d = 0x41 ∨ d = 0x43 ∨ d = 0x44) := by
    obtain ⟨hold, hoff, hbanks⟩ := h.image
    rw [takeChunk_eq, h.check, hold, hoff, hbanks]
    by_cases hlarge : banks.length * 524288 < off + b.length
    · exact ⟨0x41, if_pos hlarge, .inl rfl⟩
    · obtain ⟨hlast, d, hd⟩ := hbad.resolve_left hlarge
      exact ⟨d, by rw [if_neg hlarge, if_neg (by simp [hlast]), hd], stagedCheck_detail hd⟩
  rw [htake, href]
  obtain ⟨hothers, hframe⟩ := h.others hmoved (otherCmds_refuse _ c BAD_PARAM d) rfl
  have hnew : ((setStage 0 (discardStaged (chunkTaken b u))).refuse c BAD_PARAM d).sec = _ := hsec
  exact ⟨d, State.answered_refuse _ _ (h.found hmoved hruns), hd, by rw [hnew], by rw [hnew], by rw [hnew], by rw [hnew, h.sec], hothers, hframe⟩

/-- A chunk that fits and is not the last is kept, and the answer is the next offset. -/
theorem ChunkAt.kept (h : ChunkAt s c old off banks u) (hruns : s.runs c 0x0D02 m) (href : m.ref = c)
    (hfits : off + b.length ≤ banks.length * 524288) (hmore : bit (m.w 4) 0 = false) :
    (takeChunk m b u).answered c OK 0 [w32 (off + b.length)] ∧
      (takeChunk m b u).sec = { s.sec with
        staged := old ++ b, stagedOk := (takeChunk m b u).sec.stagedOk, stagedNext := off + b.length, stagedBanks := banks, stage := 1 } ∧
      otherCmds s (takeChunk m b u) c ∧ takeChunk m b u = { s with
        cmds := (takeChunk m b u).cmds, sec := (takeChunk m b u).sec, events := (takeChunk m b u).events, tether := (takeChunk m b u).tether } := by
  obtain ⟨hsec, hmoved⟩ := chunkTaken_spec b u
  have htake : takeChunk m b u = (chunkTaken b u).done c OK 0 [w32 (off + b.length)] := by
    obtain ⟨hold, hoff, hbanks⟩ := h.image
    rw [takeChunk_eq, href, hoff, hbanks, if_neg hfits.not_gt, if_pos hmore]
  rw [htake]
  obtain ⟨hothers, hframe⟩ := h.others hmoved (otherCmds_done _ c OK 0 [w32 (off + b.length)] []) rfl
  have hnew : ((chunkTaken b u).done c OK 0 [w32 (off + b.length)]).sec = _ := hsec
  exact ⟨State.answered_done _ _ _ _ (h.found hmoved hruns), by rw [hnew, h.sec], hothers, hframe⟩

/-- The last chunk of a good image stages it. -/
theorem ChunkAt.staged (h : ChunkAt s c old off banks u) (hruns : s.runs c 0x0D02 m) (href : m.ref = c)
    (hfits : off + b.length ≤ banks.length * 524288) (hlast : bit (m.w 4) 0 = true) (hgood : stagedCheck s (old ++ b) = none) :
    (takeChunk m b u).answered c OK 0 [w32 (off + b.length)] ∧
      (takeChunk m b u).sec = { s.sec with staged := old ++ b, stagedOk := true, stagedNext := off + b.length, stagedBanks := banks, stage := 2 } ∧
      otherCmds s (takeChunk m b u) c ∧ takeChunk m b u = { s with
        cmds := (takeChunk m b u).cmds, sec := (takeChunk m b u).sec, events := (takeChunk m b u).events, tether := (takeChunk m b u).tether } := by
  obtain ⟨hsec, hmoved⟩ := chunkTaken_spec b u
  obtain ⟨hsec', hmoved'⟩ := setStage_spec 2 ((chunkTaken b u).mapSec fun x => { x with stagedOk := true })
  have hall := (hmoved.trans (SecMoved.mapSec _ _)).trans hmoved'
  have htake : takeChunk m b u =
      (setStage 2 ((chunkTaken b u).mapSec fun x => { x with stagedOk := true })).done c OK 0 [w32 (off + b.length)] := by
    obtain ⟨hold, hoff, hbanks⟩ := h.image
    rw [takeChunk_eq, href, h.check, hold, hoff, hbanks, hgood, if_neg hfits.not_gt, if_neg (by simp [hlast])]
  rw [htake]
  obtain ⟨hothers, hframe⟩ := h.others hall (otherCmds_done _ c OK 0 [w32 (off + b.length)] []) rfl
  have hnew : ((setStage 2 ((chunkTaken b u).mapSec fun x => { x with stagedOk := true })).done c OK 0 [w32 (off + b.length)]).sec = _ := hsec'
  exact ⟨State.answered_done _ _ _ _ (h.found hall hruns), by rw [hnew, State.mapSec, hsec, h.sec], hothers, hframe⟩

/-! ### FW_STAGE -/

theorem exec_fwStage (h : s.runs c 0x0D02 m) (halign : (m.w 3).toNat % 4 = 0) (hstage : s.sec.stage < 3) (hsg : sgIn m 5 s = .bytes b) :
    exec (.fwStage c) s = .next (
      if (m.w 3).toNat = 0 then
        if (discardStaged s).freeBanks.length < ceilDiv (stagedSize b) 524288 then (s.began c).refuseOpen c NO_RESERVATION
        else takeChunk m b ((discardStaged (s.began c)).mapSec fun x =>
          { x with stagedBanks := (discardStaged s).freeBanks.reverse.take (ceilDiv (stagedSize b) 524288) })
      else if s.sec.stage ≠ 1 ∨ (m.w 3).toNat ≠ s.sec.stagedNext then (s.began c).refuse c BAD_PARAM 0x0040
      else takeChunk m b (s.began c)) := by
  have hbanks : (discardStaged (s.began c)).freeBanks = (discardStaged s).freeBanks := rfl
  have hclosed : ¬ 3 ≤ (s.began c).sec.stage := hstage.not_ge
  rw [exec, execFwStage, onCmd_runs _ h]
  dsimp only
  rw [if_neg (not_not.2 halign), if_neg hclosed, withSg, sgIn_began, hsg, hbanks]
  dsimp only
  rw [List.length_reverse]
  rfl

/-- The state from which a chunk is taken is the staged image so far, or nothing. -/
theorem fwStage_takes (h : s.runs c 0x0D02 m) (halign : (m.w 3).toNat % 4 = 0) (hstage : s.sec.stage < 3) (hsg : sgIn m 5 s = .bytes b)
    (hfrom : ((m.w 3).toNat ≠ 0 ∧ s.sec.stage = 1 ∧ (m.w 3).toNat = s.sec.stagedNext ∧ old = s.sec.staged ∧ banks = s.sec.stagedBanks) ∨
      ((m.w 3).toNat = 0 ∧ old = [] ∧ banks = (discardStaged s).freeBanks.reverse.take (ceilDiv (stagedSize b) 524288) ∧
        ceilDiv (stagedSize b) 524288 ≤ (discardStaged s).freeBanks.length)) :
    ∃ u, exec (.fwStage c) s = .next (takeChunk m b u) ∧ ChunkAt s c old (m.w 3).toNat banks u := by
  rw [exec_fwStage h halign hstage hsg]
  rcases hfrom with ⟨hoff, hone, hnext, rfl, rfl⟩ | ⟨hoff, rfl, rfl, hroom⟩
  · rw [if_neg hoff, if_neg (by simp [hone, hnext])]
    exact ⟨_, rfl, by rw [hnext]; rfl, rfl⟩
  · rw [if_pos hoff, if_neg hroom.not_gt]
    exact ⟨_, rfl, by rw [hoff]; rfl, rfl⟩

/-! ### The owner slot (R867, R868) -/

theorem ofLe_lt (b : List Byte) : ofLe b < 256 ^ b.length := by
  induction b with
  | nil => exact Nat.one_pos
  | cons x b ih =>
    have hx := x.isLt
    rw [ofLe, List.length_cons, pow_succ]
    omega

theorem length_slice (b : List Byte) (i n : Nat) : (slice b i n).length = n := by
  rw [slice, List.length_append, List.length_take, List.length_replicate]
  omega

/-- A slice inside its list has no padding. -/
theorem slice_inside {i n : Nat} (h : i + n ≤ b.length) : slice b i n = (b.drop i).take n := by
  rw [slice, Nat.sub_eq_zero_of_le (by rw [List.length_drop]; omega)]
  exact List.append_nil _

theorem toNat_wordAt (b : List Byte) (i : Nat) : (wordAt b i).toNat = leAt b i 4 := by
  have hlt := ofLe_lt (slice b i 4)
  rw [length_slice] at hlt
  rw [wordAt, w32, BitVec.toNat_ofNat]
  exact Nat.mod_eq_of_lt hlt

/-- What an accepted record has. -/
theorem transferOk_spec (h : transferOk s b = true) : b.length = 1152 ∧ b.take 8 = ownerMagic ∧ s.sec.ownerSeq.toNat < leAt b 8 4 ∧
    sha512 ((b.drop 128).take 512) = if s.sec.ownerHash = [] then (b.drop 32).take 64 else s.sec.ownerHash := by
  simp only [transferOk, Bool.and_eq_true, beq_iff_eq, decide_eq_true_eq] at h
  obtain ⟨⟨⟨⟨⟨hlen, hmagic⟩, -⟩, hcount⟩, -⟩, hsigner⟩ := h
  rw [slice_inside (by omega), slice_inside (by omega)] at hsigner
  exact ⟨hlen, hmagic, hcount, hsigner⟩

theorem exec_ownerKeyTransfer (h : s.runs c 0x0D04 m) (hsg : sgIn m 3 s = .bytes b) : exec (.ownerKeyTransfer c) s = .next (
    if transferOk s b = false then (s.began c).refuseOpen c BAD_PARAM
    else (((s.began c).mapSec fun x =>
      { x with ownerHash := if (slice b 32 64).all (· == 0) then [] else slice b 32 64, ownerSeq := wordAt b 8 }).raise 0x8D04 (leAt b 8 2)).done c) := by
  rw [exec, execOwnerKeyTransfer, onCmd_runs _ h]
  dsimp only
  rw [withSg, sgIn_began, hsg]
  rfl

theorem all_zero_iff {l : List Byte} : (l.all (· == 0)) = true ↔ l = zeros l.length := by
  rw [zeros, List.eq_replicate_iff, List.all_eq_true]
  simp

end Staging

/-- Settles O50: a chunk is taken from the image so far, and an owner record is one that `transferOk` accepts. -/
theorem firmwareIsStagedChecked : Obligations.FirmwareIsStagedChecked := by
  unfold Obligations.FirmwareIsStagedChecked
  refine ⟨fun s c m b off hruns href hoff => ?_, fun s c m b h hruns href hsg hh => ⟨fun hbad => ?_, fun hok => ?_⟩⟩
  · subst hoff
    refine ⟨fun halign => ?_, fun halign hstage => ?_, fun halign hstage hsg => ⟨fun hoff hnext => ?_, fun hoff hfull => ?_, fun old banks hfrom => ?_⟩⟩
    · rw [exec, execFwStage, onCmd_runs _ hruns]
      exact congrArg _ (if_pos halign)
    · rw [exec, execFwStage, onCmd_runs _ hruns]
      exact congrArg _ ((if_neg (not_not.2 halign)).trans (if_pos hstage))
    · rw [exec_fwStage hruns halign hstage hsg, if_neg hoff, if_pos hnext]
    · rw [exec_fwStage hruns halign hstage hsg, if_pos hoff, if_pos hfull]
    · obtain ⟨u, hexec, hat⟩ := fwStage_takes hruns halign hstage hsg hfrom
      refine ⟨fun hbad => ?_, fun hfits hmore => ?_, fun hfits hlast hgood => ?_⟩
      · obtain ⟨d, hrest⟩ := hat.refused hruns href hbad
        exact ⟨_, d, hexec, hrest⟩
      · obtain ⟨hans, hsec, hothers, hframe⟩ := hat.kept hruns href hfits hmore
        exact ⟨_, hexec, hans, by rw [hsec], by rw [hsec], by rw [hsec], by rw [hsec], by rw [hsec], by rw [hsec], hothers, hframe⟩
      · obtain ⟨hans, hsec, hothers, hframe⟩ := hat.staged hruns href hfits hlast hgood
        exact ⟨_, hexec, hans, by rw [hsec], by rw [hsec], by rw [hsec], by rw [hsec], by rw [hsec], hothers, hframe⟩
  · have hrefused : transferOk s b = false := by
      refine Bool.eq_false_iff.2 fun hok => ?_
      obtain ⟨hlen, hmagic, hcount, hsigner⟩ := transferOk_spec hok
      subst hh
      rcases hbad with hbad | hbad | hbad | ⟨hslot, hbad⟩ | ⟨hslot, hbad⟩
      · exact hbad hlen
      · exact hbad hmagic
      · omega
      · exact hbad (hsigner.trans (if_neg hslot))
      · exact hbad (hsigner.trans (if_pos hslot))
    rw [exec_ownerKeyTransfer hruns hsg, if_pos hrefused]
  · obtain ⟨hlen, -, hcount, -⟩ := transferOk_spec hok
    have hexec := exec_ownerKeyTransfer hruns hsg
    have hslice : slice b 32 64 = h := by rw [hh, slice_inside (by omega)]
    have hzero : (if (h.all (· == 0)) = true then [] else h) = if h = zeros 64 then [] else h := by
      refine if_congr ?_ rfl rfl
      rw [all_zero_iff, ← hslice, length_slice]
    rw [if_neg (by simp [hok]), hslice, hzero] at hexec
    obtain ⟨hans, hothers⟩ := State.done_of_began (u := ((s.began c).mapSec fun x =>
      { x with ownerHash := if h = zeros 64 then [] else h, ownerSeq := wordAt b 8 }).raise 0x8D04 (leAt b 8 2)) OK 0 [] [] hruns.isSome rfl
    refine ⟨_, _, hexec, hans, rfl, rfl, rfl, ?_, hothers, rfl⟩
    change _ < (wordAt b 8).toNat
    rw [toNat_wordAt]
    exact hcount

end Sys2Proof.Machine

/-! ## The stages of an update -/

namespace Sys2Proof.Machine

section Update

variable {s u : State} {c : CmdRef} {m : Cmd} {b : Nat}

/-! ### What an update moves -/

theorem SecMoved.raise (s : State) (code detail : Nat) : SecMoved s (s.raise code detail) := rfl

/-- A new stage after a change of the security state and the vote. -/
theorem SecMoved.voted {t : State} (h : SecMoved t u) (ht : t = { s with sec := t.sec, dep := t.dep, events := t.events, tether := t.tether }) :
    u = { s with sec := u.sec, dep := u.dep, events := u.events, tether := u.tether } := by
  rw [h, ht]

/-- The same where a command has moved. -/
theorem SecMoved.ordered {t : State} (h : SecMoved t u)
    (ht : t = { s with cmds := t.cmds, sec := t.sec, dep := t.dep, events := t.events, tether := t.tether }) :
    u = { s with cmds := u.cmds, sec := u.sec, dep := u.dep, events := u.events, tether := u.tether } := by
  rw [h, ht]

/-! ### FW_ACTIVATE -/

/-- A command that has begun and not ended has no reply. -/
theorem State.replyOf_began {op : Nat} (h : s.runs c op m) : (s.began c).replyOf c = none := by
  obtain ⟨hfound, hrunning, -, -⟩ := h
  simp [State.replyOf, hfound, hrunning]

theorem State.replyOf_congr {t : State} (h : t.cmds = s.cmds) (c : CmdRef) : t.replyOf c = s.replyOf c := by
  rw [State.replyOf, State.replyOf, State.findCmd_congr h]

/-- The state of an update that is about to start. -/
def activating (c : CmdRef) (s : State) : State :=
  s.mapSec fun x => { x with actCmd := some c, coresNew := [false, false, false], swapped := [], faultRollback := false, rolling := false }

theorem exec_fwActivate (h : s.runs c 0x0D03 m) : exec (.fwActivate c) s = .next (
    if s.sec.stagedOk = false then (s.began c).refuseOpen c BAD_PARAM
    else if 3 ≤ s.sec.stage then (s.began c).refuseOpen c BUSY
    else if s.life.main = .recovery then setStage 8 (activating c (s.began c))
    else setStage 3 ((activating c (s.began c)).mapDep fun d => { d with voting := setAt false d.voting 2 false })) := by
  rw [exec, execFwActivate, onCmd_runs _ h]
  rfl

theorem fwActivate_starts (h : s.runs c 0x0D03 m) (hstaged : s.sec.stagedOk = true) (hstage : s.sec.stage < 3) :
    ∃ t, exec (.fwActivate c) s = .next t ∧ t.sec.actCmd = some c ∧ t.sec.stage = (if s.life.main = .recovery then 8 else 3) ∧
      (∀ x y z, s.life.main ≠ .recovery → s.dep.voting = [x, y, z] → t.dep.voting = [x, y, false]) ∧
      t.sec.staged = s.sec.staged ∧ t.sec.flash = s.sec.flash ∧ t.replyOf c = none ∧ otherCmds s t c ∧
      t = { s with cmds := t.cmds, sec := t.sec, dep := t.dep, events := t.events, tether := t.tether } := by
  have hexec := exec_fwActivate h
  rw [if_neg (by simp [hstaged]), if_neg hstage.not_ge] at hexec
  by_cases hmain : s.life.main = .recovery
  · obtain ⟨hsec, hmoved⟩ := setStage_spec 8 (activating c (s.began c))
    rw [if_pos hmain] at hexec
    refine ⟨_, hexec, by rw [hsec]; rfl, by rw [hsec, if_pos hmain], fun _ _ _ hno => absurd hmain hno, by rw [hsec]; rfl, by rw [hsec]; rfl,
      (State.replyOf_congr hmoved.cmds c).trans (State.replyOf_began h), fun d hd => ?_, ?_⟩
    · exact (State.findCmd_congr hmoved.cmds d).trans (otherCmds_began s c d hd)
    · exact hmoved.ordered rfl
  · obtain ⟨hsec, hmoved⟩ := setStage_spec 3 ((activating c (s.began c)).mapDep fun d => { d with voting := setAt false d.voting 2 false })
    rw [if_neg hmain] at hexec
    have hvoting := congrArg (fun t => t.dep.voting) hmoved
    refine ⟨_, hexec, by rw [hsec]; rfl, by rw [hsec, if_neg hmain], fun x y z _ hvotes => ?_, by rw [hsec]; rfl, by rw [hsec]; rfl,
      (State.replyOf_congr hmoved.cmds c).trans (State.replyOf_began h), fun d hd => ?_, ?_⟩
    · refine hvoting.trans ?_
      change setAt false s.dep.voting 2 false = _
      rw [hvotes]
      rfl
    · exact (State.findCmd_congr hmoved.cmds d).trans (otherCmds_began s c d hd)
    · exact hmoved.ordered rfl

/-! ### Bands to swap (R882, R884) -/

theorem toSwap_congr {t : State} (hbands : t.bands = s.bands) (hctxs : t.ctxs = s.ctxs) (hstaged : t.sec.staged = s.sec.staged)
    (hswapped : t.sec.swapped = s.sec.swapped) : toSwap t = toSwap s := by
  simp only [toSwap, State.bandAt, State.sessionAt, State.ctxAt, hbands, hctxs, hstaged, hswapped]

/-- A band to be swapped is allocated and not among the swapped. -/
theorem mem_toSwap (h : b ∈ toSwap s) : Tab.has s.bands b = true ∧ b ∉ s.sec.swapped := by
  unfold toSwap at h
  split at h
  · exact absurd h List.not_mem_nil
  · have hb := (List.mem_filter.1 h).2
    simp only [Bool.and_eq_true, Bool.not_eq_true', List.contains_eq_mem, decide_eq_false_iff_not] at hb
    obtain ⟨⟨⟨hhas, -⟩, -⟩, hnew⟩ := hb
    exact ⟨hhas, hnew⟩

theorem advanceSwap_waits (h : toSwap s ≠ []) : advanceSwap s = s := by
  rw [advanceSwap, if_pos h]

/-- With no band left, stage 7 starts. -/
theorem advanceSwap_ends (h : toSwap s = []) : (advanceSwap s).sec = { s.sec with stage := 7 } ∧
    advanceSwap s = { s with
      cmds := (advanceSwap s).cmds, sec := (advanceSwap s).sec, events := (advanceSwap s).events, tether := (advanceSwap s).tether } := by
  rw [advanceSwap, if_neg (not_not.2 h)]
  cases s.sec.actCmd with
  | some c =>
    obtain ⟨hsec, hmoved⟩ := setStage_spec 7 (s.commit c)
    exact ⟨hsec, by dsimp only; rw [hmoved]; rfl⟩
  | none =>
    obtain ⟨hsec, hmoved⟩ := setStage_spec 7 s
    exact ⟨hsec, by dsimp only; rw [hmoved]⟩

/-- The update's command commits as stage 7 starts (R877). -/
theorem advanceSwap_commits (h : toSwap s = []) (hact : s.sec.actCmd = some c) (hm : s.findCmd c = some m) :
    ((advanceSwap s).findCmd c).any (·.committed) = true := by
  obtain ⟨-, hmoved⟩ := setStage_spec 7 (s.commit c)
  have hadvance : advanceSwap s = setStage 7 (s.commit c) := by
    rw [advanceSwap, if_neg (not_not.2 h), hact]
  rw [hadvance, State.findCmd_congr hmoved.cmds, State.findCmd_commit, if_pos rfl, hm]
  by_cases hcommitted : m.committed = true
  · simp [hcommitted]
  · simp [hcommitted]

/-! ### The reboots of the cores (Table 21-6) -/

/-- The core marked as rebooted on the new image. -/
def coreMarked (core : Nat) (s : State) : State := s.mapSec fun x => { x with coresNew := setAt false x.coresNew core true }

/-- Where the reboot of a core leads. -/
def coreRebooted (core : Nat) (s : State) : State :=
  match s.sec.stage, core with
  | 3, 2 => setStage 4 ((coreMarked core s).mapDep fun d => { d with voting := [true, false, false] })
  | 4, 1 => coreMarked core s
  | 5, 0 => advanceSwap (setStage 6 ((coreMarked core s).mapDep fun d => { d with voting := [true, true, true] }))
  | _, _ => s

theorem exec_fwCoreRebootDone {core : Nat} (hrolling : s.sec.rolling = false) (hold : s.sec.coresNew.getD core true = false) :
    exec (.fwCoreRebootDone core) s = .next (coreRebooted core s) := by
  rw [exec, execFwCoreRebootDone, onTrigger_fires s _ (by rw [hrolling, hold]; rfl)]
  rfl

/-- Core 0 rebooted: the bands are to be swapped. -/
def swapping (s : State) : State := setStage 6 ((coreMarked 0 s).mapDep fun d => { d with voting := [true, true, true] })

theorem swapping_spec (s : State) : (swapping s).sec = { s.sec with coresNew := setAt false s.sec.coresNew 0 true, stage := 6 } ∧
    (swapping s).dep.voting = [true, true, true] ∧ toSwap (swapping s) = toSwap s ∧
    swapping s = { s with sec := (swapping s).sec, dep := (swapping s).dep, events := (swapping s).events, tether := (swapping s).tether } := by
  obtain ⟨hsec, hmoved⟩ := setStage_spec 6 ((coreMarked 0 s).mapDep fun d => { d with voting := [true, true, true] })
  change (swapping s).sec = _ at hsec
  change SecMoved _ (swapping s) at hmoved
  have hframe : swapping s =
      { s with sec := (swapping s).sec, dep := (swapping s).dep, events := (swapping s).events, tether := (swapping s).tether } := by
    exact hmoved.voted rfl
  refine ⟨hsec, (congrArg (fun t => t.dep.voting) hmoved :), toSwap_congr ?_ ?_ (by rw [hsec]; rfl) (by rw [hsec]; rfl), hframe⟩
  · rw [hframe]
  · rw [hframe]

theorem coreZero_ends (hrolling : s.sec.rolling = false) (hstage : s.sec.stage = 5) (hold : s.sec.coresNew.getD 0 true = false) :
    exec (.fwCoreRebootDone 0) s = .next (advanceSwap (swapping s)) := by
  rw [exec_fwCoreRebootDone hrolling hold]
  simp only [coreRebooted, hstage]
  rfl

/-! ### The switch point (R880, R881) -/

/-- Cores 1 and 2 take over on the staged image. -/
def switchedOver (s : State) : State :=
  ((s.mapSec fun x => { x with prev := some (x.runVersion, x.runMinor), runVersion := imageVersion s.sec.staged, runMinor := imageMinor x.staged }).mapDep
    fun d => { d with voting := [false, true, true] }).raise 0x8D01 ((imageVersion s.sec.staged).toNat % 65536)

theorem exec_fwSwitchPoint (hwait : s.switchWait = true) (hdone : ∀ m ∈ s.cmds, m.phase = .running → s.sec.actCmd = some m.ref) :
    exec .fwSwitchPoint s = .next (setStage 5 (switchedOver s)) := by
  have hall : (s.cmds.all fun m => decide (m.phase ≠ .running ∨ some m.ref = s.sec.actCmd)) = true :=
    List.all_eq_true.2 fun m hm => decide_eq_true (by
      by_cases hrunning : m.phase = .running
      · exact .inr (hdone m hm hrunning).symm
      · exact .inl hrunning)
  rw [exec, execFwSwitchPoint, onTrigger_fires s _ (by rw [hwait, hall]; rfl)]
  rfl

theorem fwSwitchPoint_waits (hm : m ∈ s.cmds) (hrunning : m.phase = .running) (hother : s.sec.actCmd ≠ some m.ref) :
    exec .fwSwitchPoint s = .next s := by
  have hall : (s.cmds.all fun m => decide (m.phase ≠ .running ∨ some m.ref = s.sec.actCmd)) = false :=
    List.all_eq_false.2 ⟨m, hm, by simp [hrunning, Ne.symm hother]⟩
  rw [exec, execFwSwitchPoint, onTrigger_idle s _ (by rw [hall, Bool.and_false])]

/-- Events raised stay as a stage is entered. -/
theorem setStage_events (n : Nat) {s : State} {e : Event} (h : e ∈ s.events) : e ∈ (setStage n s).events := by
  unfold setStage
  split
  · exact h
  · exact List.mem_append_left _ h

theorem setWidth_of_mod (w : Word) : BitVec.ofNat 16 (w.toNat % 65536) = w.setWidth 16 := by
  apply BitVec.eq_of_toNat_eq
  simp

theorem fwSwitchPoint_switches (hwait : s.switchWait = true) (hdone : ∀ m ∈ s.cmds, m.phase = .running → s.sec.actCmd = some m.ref) :
    ∃ t, exec .fwSwitchPoint s = .next t ∧ t.sec.stage = 5 ∧ t.dep.voting = [false, true, true] ∧ t.sec.runVersion = imageVersion s.sec.staged ∧
      t.sec.runMinor = imageMinor s.sec.staged ∧ t.sec.prev = some (s.sec.runVersion, s.sec.runMinor) ∧
      (∃ e ∈ t.events, e.code = 0x8D01 ∧ e.detail = (imageVersion s.sec.staged).setWidth 16) ∧
      t = { s with sec := t.sec, dep := t.dep, events := t.events, tether := t.tether } := by
  have hexec := exec_fwSwitchPoint hwait hdone
  obtain ⟨hsec, hmoved⟩ := setStage_spec 5 (switchedOver s)
  obtain ⟨e, he, hcode, hdetail⟩ : ∃ e ∈ (switchedOver s).events, e.code = 0x8D01 ∧ e.detail = (imageVersion s.sec.staged).setWidth 16 := by
    rw [switchedOver, State.raise_events]
    exact ⟨_, List.mem_append_right _ (List.mem_singleton_self _), rfl, setWidth_of_mod _⟩
  have hevent := setStage_events 5 he
  have hvoting : (setStage 5 (switchedOver s)).dep.voting = [false, true, true] := (congrArg (·.dep.voting) hmoved :)
  have hframe := ((SecMoved.raise _ _ _).trans hmoved).voted (s := s) rfl
  generalize setStage 5 (switchedOver s) = t at hexec hsec hevent hvoting hframe
  exact ⟨t, hexec, by rw [hsec], hvoting, by rw [hsec]; rfl, by rw [hsec]; rfl, by rw [hsec]; rfl, ⟨e, hevent, hcode, hdetail⟩, hframe⟩

/-! ### The swap of a band (R882, R883) -/

/-- Whether a band stands at a time of its swap. -/
def swapReady (s : State) (b : Nat) : Bool := !s.inRecovery b && swapTime s (s.bandAt b)

/-- The band swapped: it met the firmware and resumes from its checkpoint. -/
def bandSwapped (s : State) (b : Nat) : State :=
  ((s.mapSec fun x => { x with swapped := x.swapped ++ [b] }).meetFirmware (60 + b % 4) [b]).restoreCheckpoint b

theorem meetFirmware_mapSec (s : State) (rv b : Nat) (f : SecS → SecS) : (s.meetFirmware rv [b]).mapSec f = (s.mapSec f).meetFirmware rv [b] := by
  rw [State.meetFirmware_one, State.meetFirmware_one, State.updBand, State.updBand]
  exact apply_ite (fun u : State => u.mapSec f) ..

theorem exec_fwBandSwap (hstage : s.sec.stage = 6) (hrolling : s.sec.rolling = false) (hnext : (toSwap s).head? = some b)
    (hsingle : (s.bandAt b).isPair = false) :
    exec (.fwBandSwap b) s = .next (if swapReady s b = true then advanceSwap (bandSwapped s b) else s) := by
  have hsome : (toSwap s).isEmpty = false := by
    cases hl : toSwap s with
    | nil => rw [hl] at hnext; exact absurd hnext (by simp)
    | cons k l => rfl
  have hready : ((toSwap s).head? == some b && ([b].all fun x => !s.inRecovery x) && swapTime s (s.bandAt b)) = swapReady s b := by
    rw [hnext, List.all_cons, List.all_nil, Bool.and_true, beq_self_eq_true, Bool.true_and]
    rfl
  rw [exec, execFwBandSwap]
  simp only [hsingle, Bool.false_eq_true, if_false, hready]
  cases hr : swapReady s b with
  | false => rw [onTrigger_idle s _ (by simp [hsome]), if_neg Bool.false_ne_true]
  | true => rw [onTrigger_fires s _ (by simp [hstage, hrolling]), if_pos rfl, if_pos rfl, bandSwapped, meetFirmware_mapSec]; rfl

theorem bandAt_restoredMet_other (s : State) (rv : Nat) {b k : Nat} (hk : k ≠ b) :
    ((s.meetFirmware rv [b]).restoreCheckpoint b).bandAt k = s.bandAt k := by
  have hkept : (tilesRestored (s.meetFirmware rv [b]) b).bands = (s.meetFirmware rv [b]).bands := by rw [tilesRestored_eq]
  rw [State.restoreCheckpoint_def, State.bandAt_updBand_other _ _ hk, State.bandAt, hkept]
  exact State.bandAt_updBand_other _ _ hk

/-- What the swap of a band leaves. -/
theorem bandSwapped_spec (hb : Tab.has s.bands b = true) : (bandSwapped s b).sec = { s.sec with swapped := s.sec.swapped ++ [b] } ∧
    ((bandSwapped s b).bandAt b).pc = (s.bandAt b).restorePc ∧ ((bandSwapped s b).bandAt b).lastRv = 60 + b % 4 ∧
    (∀ k, k ≠ b → (bandSwapped s b).bandAt k = s.bandAt k) ∧
    bandSwapped s b = { s with
      sec := (bandSwapped s b).sec, tiles := (bandSwapped s b).tiles, bands := (bandSwapped s b).bands, epoch := (bandSwapped s b).epoch,
      rvs := (bandSwapped s b).rvs } := by
  have hframe := restoredMet_eq (s.mapSec fun x => { x with swapped := x.swapped ++ [b] }) (60 + b % 4) b
  have hband := bandAt_restoredMet (s := s.mapSec fun x => { x with swapped := x.swapped ++ [b] }) (60 + b % 4) hb
  change bandSwapped s b = _ at hframe
  change (bandSwapped s b).bandAt b = _ at hband
  refine ⟨by rw [hframe]; rfl, by rw [hband]; rfl, by rw [hband]; rfl, fun k hk => ?_, ?_⟩
  · exact bandAt_restoredMet_other _ _ hk
  · rw [hframe]
    rfl

theorem fwBandSwap_swaps (hstage : s.sec.stage = 6) (hb : b ∈ toSwap s) :
    (advanceSwap (bandSwapped s b)).sec.swapped = s.sec.swapped ++ [b] ∧ b ∉ toSwap (advanceSwap (bandSwapped s b)) ∧
      ((advanceSwap (bandSwapped s b)).bandAt b).pc = (s.bandAt b).restorePc ∧ ((advanceSwap (bandSwapped s b)).bandAt b).lastRv = 60 + b % 4 ∧
      (∀ k, k ≠ b → (advanceSwap (bandSwapped s b)).bandAt k = s.bandAt k) ∧
      ((advanceSwap (bandSwapped s b)).sec.stage = 6 ∧ toSwap (advanceSwap (bandSwapped s b)) ≠ [] ∨
        (advanceSwap (bandSwapped s b)).sec.stage = 7 ∧ toSwap (advanceSwap (bandSwapped s b)) = []) ∧
      ∃ t, t = advanceSwap (bandSwapped s b) ∧ t = { s with
        sec := t.sec, cmds := t.cmds, bands := t.bands, tiles := t.tiles, rvs := t.rvs, epoch := t.epoch, events := t.events, tether := t.tether } := by
  obtain ⟨hhas, -⟩ := mem_toSwap hb
  obtain ⟨hsec, hpc, hrv, hothers, hframe⟩ := bandSwapped_spec hhas
  have hout : b ∉ toSwap (bandSwapped s b) := fun h => (mem_toSwap h).2 (by rw [hsec]; exact List.mem_append_right _ (List.mem_singleton_self b))
  generalize bandSwapped s b = u at *
  by_cases hleft : toSwap u = []
  · obtain ⟨hended, hmoved⟩ := advanceSwap_ends hleft
    have hswap : toSwap (advanceSwap u) = toSwap u :=
      toSwap_congr (by rw [hmoved]) (by rw [hmoved]) (by rw [hended]) (by rw [hended])
    have hband (k : Nat) : (advanceSwap u).bandAt k = u.bandAt k := (congrArg (·.bandAt k) hmoved :)
    refine ⟨by rw [hended, hsec], hswap ▸ hout, by rw [hband, hpc], by rw [hband, hrv], fun k hk => (hband k).trans (hothers k hk),
      .inr ⟨by rw [hended], hswap.trans hleft⟩, _, rfl, ?_⟩
    rw [hmoved, hframe]
  · rw [advanceSwap_waits hleft]
    exact ⟨by rw [hsec], hout, hpc, hrv, hothers, .inl ⟨by rw [hsec]; exact hstage, hleft⟩, _, rfl, by rw [hframe]⟩

/-- A working band with a frame set at work in it stands between no two (R883). -/
theorem swapTime_of_atWork {x : SessionS} {f : FrameSet} {k : Nat} (hsingle : (s.bandAt b).isPair = false)
    (hx : s.sessionAt (s.bandAt b).ctx = some x) (hf : (k, f) ∈ x.sets) (hstarted : f.started = true) (hpublished : f.published.isNone = true)
    (hcommitted : f.committed = false) (habandoned : f.abandoned = false) (hcovered : f.covered = false) : swapTime s (s.bandAt b) = false := by
  have hwork : betweenSets x = false := by
    refine List.all_eq_false.2 ⟨(k, f), hf, ?_⟩
    rw [Option.isNone_iff_eq_none] at hpublished
    simp [hpublished, hstarted, hcommitted, habandoned, hcovered]
  simp [swapTime, hsingle, hx, hwork]

/-! ### The end of an update -/

/-- The verified image in flash, and the update over. -/
def flashed (s : State) : State :=
  discardStaged (s.mapSec fun x =>
    { x with flash := s.sec.staged, flashValid := true, svn := max x.svn (imageSvn s.sec.staged), actCmd := none, prev := none,
             coresNew := [false, false, false], swapped := [], heldReset := [] })

theorem exec_fwFlashVerified (hstage : s.sec.stage = 7) (hact : s.sec.actCmd = some c) (hheld : s.sec.heldReset = []) :
    exec .fwFlashVerified s = .next ((setStage 0 ((flashed s).done c)).raise 0x8D02 ((flashed s).done c).sec.svn) := by
  rw [exec, execFwFlashVerified, onTrigger_fires s _ (by simp [hstage])]
  dsimp only
  rw [hact, hheld]
  rfl

/-- What the verified write changes. -/
theorem flashed_done_eq (c : CmdRef) (s : State) : (flashed s).done c =
    { s with cmds := ((flashed s).done c).cmds, sec := (flashed s).sec } := rfl

theorem fwFlashVerified_ends (hstage : s.sec.stage = 7) (hact : s.sec.actCmd = some c) (hm : s.findCmd c = some m) (hheld : s.sec.heldReset = []) :
    ∃ t, exec .fwFlashVerified s = .next t ∧ t.answered c OK 0 [] ∧ t.sec.flash = s.sec.staged ∧ t.sec.flashValid = true ∧ t.sec.stage = 0 ∧
      t.sec.svn = max s.sec.svn (imageSvn s.sec.staged) ∧ t.sec.staged = [] ∧ t.sec.stagedBanks = [] ∧ t.sec.ownerHash = s.sec.ownerHash ∧
      (∃ e ∈ t.events, e.code = 0x8D02) ∧ t.age = s.age ∧ otherCmds s t c ∧
      t = { s with cmds := t.cmds, sec := t.sec, events := t.events, tether := t.tether } := by
  obtain ⟨hsec, hmoved⟩ := setStage_spec 0 ((flashed s).done c)
  have hans := State.answered_done (s := flashed s) (c := c) OK 0 [] [] (by rw [show (flashed s).findCmd c = s.findCmd c from rfl, hm]; rfl)
  have hothers := otherCmds_done (flashed s) c OK 0 [] []
  have hexec := exec_fwFlashVerified hstage hact hheld
  have hcmds := hmoved.cmds
  generalize setStage 0 ((flashed s).done c) = u at hexec hsec hmoved hcmds
  have hnew : (u.raise 0x8D02 ((flashed s).done c).sec.svn).sec = _ := hsec
  refine ⟨_, hexec, State.answered_of_findCmd (State.findCmd_congr hcmds c) hans, by rw [hnew]; rfl, by rw [hnew]; rfl, by rw [hnew], by rw [hnew]; rfl,
    by rw [hnew]; rfl, by rw [hnew]; rfl, by rw [hnew]; rfl, ⟨_, List.mem_append_right _ (List.mem_singleton_self _), rfl⟩,
    (congrArg State.age hmoved :), fun d hd => (State.findCmd_congr hcmds d).trans (hothers d hd), ?_⟩
  rw [hmoved, flashed_done_eq]
  rfl

/-- The cores and the swapped bands back on the image in flash (R887). -/
def rolledBackImage (s : State) : State :=
  (s.mapDep fun d => { d with voting := [true, true, true] }).mapSec fun x =>
    { x with rolling := false, faultRollback := false, actCmd := none, coresNew := [false, false, false], swapped := [], prev := none,
             runVersion := (x.prev.map (·.1)).getD x.runVersion, runMinor := (x.prev.map (·.2)).getD x.runMinor }

theorem exec_fwUpdateRolledBack (hrolling : s.sec.rolling = true) (hact : s.sec.actCmd = some c) :
    exec .fwUpdateRolledBack s = .next ((setStage 2 (if s.sec.faultRollback then (rolledBackImage s).refuse c ABORTED 0x0042
      else (rolledBackImage s).refuseOpen c ABORTED)).raise 0x8D03 (s.sec.stage + if s.sec.faultRollback then 256 else 0)) := by
  rw [exec, execFwUpdateRolledBack, onTrigger_fires s _ hrolling]
  dsimp only
  rw [hact]
  rfl

/-- A command refused, after a fault or not. -/
theorem rolledBack_refused (s : State) (hm : s.findCmd c = some m) (fault : Bool) :
    ∃ v r, (if fault then (rolledBackImage s).refuse c ABORTED 0x0042 else (rolledBackImage s).refuseOpen c ABORTED) = v ∧ v.replyOf c = some r ∧
      r.status = BitVec.ofNat 16 ABORTED ∧ (fault = true → r.detail = 0x42) ∧ otherCmds s v c ∧
      v = { rolledBackImage s with cmds := v.cmds } := by
  have hfound : ((rolledBackImage s).findCmd c).isSome := by rw [show (rolledBackImage s).findCmd c = s.findCmd c from rfl, hm]; rfl
  cases fault with
  | true =>
    obtain ⟨r, hr, hstatus, hdetail, -⟩ := State.answered_refuse (s := rolledBackImage s) (c := c) ABORTED 0x0042 hfound
    exact ⟨_, r, rfl, hr, hstatus, fun _ => hdetail, otherCmds_refuse (rolledBackImage s) c ABORTED 0x0042, rfl⟩
  | false =>
    obtain ⟨⟨r, hr, hstatus⟩, hothers⟩ := State.refuseOpen_of_found (s := rolledBackImage s) (c := c) ABORTED hm
    exact ⟨_, r, rfl, hr, hstatus, nofun, hothers, rfl⟩

theorem fwUpdateRolledBack_ends (hrolling : s.sec.rolling = true) (hact : s.sec.actCmd = some c) (hm : s.findCmd c = some m) :
    ∃ t r, exec .fwUpdateRolledBack s = .next t ∧ t.replyOf c = some r ∧ r.status = BitVec.ofNat 16 ABORTED ∧
      (s.sec.faultRollback = true → r.detail = 0x42) ∧ t.sec.stage = 2 ∧ t.sec.rolling = false ∧ t.sec.staged = s.sec.staged ∧ t.sec.flash = s.sec.flash ∧
      t.sec.svn = s.sec.svn ∧ t.dep.voting = [true, true, true] ∧ (∃ e ∈ t.events, e.code = 0x8D03) ∧ otherCmds s t c ∧
      t = { s with cmds := t.cmds, sec := t.sec, dep := t.dep, events := t.events, tether := t.tether } := by
  have hexec := exec_fwUpdateRolledBack hrolling hact
  obtain ⟨v, r, hv, hr, hstatus, hdetail, hothers, hframe⟩ := rolledBack_refused s hm s.sec.faultRollback
  rw [hv] at hexec
  obtain ⟨hsec, hmoved⟩ := setStage_spec 2 v
  have hcmds := hmoved.cmds
  have hdep : (setStage 2 v).dep = v.dep := (congrArg State.dep hmoved :)
  generalize setStage 2 v = u at hexec hsec hmoved hcmds hdep
  have hnew : (u.raise 0x8D03 (s.sec.stage + if s.sec.faultRollback then 256 else 0)).sec = _ := hsec
  have hvsec : v.sec = (rolledBackImage s).sec := by rw [hframe]
  refine ⟨_, r, hexec, (State.replyOf_congr hcmds c).trans hr, hstatus, hdetail, by rw [hnew], by rw [hnew, hvsec]; rfl, by rw [hnew, hvsec]; rfl,
    by rw [hnew, hvsec]; rfl, by rw [hnew, hvsec]; rfl, ?_, ⟨_, List.mem_append_right _ (List.mem_singleton_self _), rfl⟩,
    fun d hd => (State.findCmd_congr hcmds d).trans (hothers d hd), ?_⟩
  · refine (congrArg DepS.voting hdep).trans ?_
    rw [hframe]
    rfl
  · rw [hmoved, hframe]
    rfl

/-! ### The stop of the main side (R898) -/

/-- What a stop of the main side leaves, with the commands that are left. -/
def mainStopped (cmds : List Cmd) (s : State) : State :=
  { pending := s.pending, cmds := cmds, tether := { s.tether with spdmDoe := 0 }, outbox := s.outbox, hostMem := s.hostMem, hostBad := s.hostBad,
    eventLimit := s.eventLimit,
    life := { s.life with main := .off, linkUp := false, powerState := 3, idleSince := none, fabricHot := false, hbmHot := false, vfEnable := false,
                          perstReset := false, bootTick := 0, imageVotes := [], vsensBack := none },
    time := { ticks := s.time.ticks },
    power := { cap := s.power.cap, ballast := s.power.ballast, tetherCap := s.power.tetherCap, tetherBallast := s.power.tetherBallast },
    sources := [{}, s.sources.getD 1 {}], islands := [(7, s.islandAt 7)], tiles := keptTiles s.tiles, dep := keptDep s.dep, age := keptAge s.age,
    sec := keptSec s.sec, epoch := s.epoch, free := s.free, reuse := [] }

/-- The end of the update's command is a matter of the commands alone. -/
theorem endUpdateCmd_eq (s : State) : endUpdateCmd s = { s with cmds := (endUpdateCmd s).cmds } := by
  unfold endUpdateCmd
  split
  · split <;> rfl
  · rfl

theorem stopMain_eq (s : State) : stopMain s = mainStopped (stopMain s).cmds s := by
  unfold stopMain
  rw [endUpdateCmd_eq]
  rfl

/-! ### The write of recovery mode (R875) -/

theorem carryReply_eq (m : Cmd) (r : Reply) (s : State) : carryReply m r s =
    { s with cmds := (carryReply m r s).cmds, fns := (carryReply m r s).fns, outbox := (carryReply m r s).outbox } := by
  unfold carryReply
  dsimp only
  split
  · rfl
  · split
    · unfold State.msix
      split <;> rfl
    · rfl

theorem carryNow_eq (c : CmdRef) (s : State) : carryNow c s =
    { s with cmds := (carryNow c s).cmds, fns := (carryNow c s).fns, outbox := (carryNow c s).outbox } := by
  unfold carryNow
  split
  · split
    · exact carryReply_eq ..
    · rfl
  · rfl

theorem setStage_standing (n : Nat) (s : State) : (setStage n s).tether.claims = s.tether.claims ∧ (setStage n s).tether.endpoint = s.tether.endpoint := by
  unfold setStage
  split
  · exact ⟨rfl, rfl⟩
  · exact ⟨congrArg (·.lasting.claims) (State.raise_standing ..), congrArg (·.lasting.endpoint) (State.raise_standing ..)⟩

/-- The image of recovery mode as written. -/
def recoveryWritten (ok : Bool) (s : State) : State :=
  s.mapSec fun x => { x with actCmd := none, flashValid := ok, flash := if ok then x.staged else x.flash }

theorem exec_recoveryWriteDone (ok : Bool) (hmain : s.life.main = .recovery) (hstage : s.sec.stage = 8) (hact : s.sec.actCmd = some c) :
    exec (.recoveryWriteDone ok) s = .next (if ok then
        (stopMain (carryNow c ((setStage 0 (recoveryWritten ok s)).done c))).mapLife fun l =>
          { l with needOrder := false, startKind := 2, startTick := (carryNow c ((setStage 0 (recoveryWritten ok s)).done c)).time.ticks }
      else (setStage 2 (recoveryWritten ok s)).refuseOpen c ABORTED) := by
  rw [exec, execRecoveryWriteDone, onTrigger_fires s _ (by rw [hmain, hstage]; rfl)]
  dsimp only
  rw [hact]
  rfl

theorem recoveryWriteDone_restarts (hmain : s.life.main = .recovery) (hstage : s.sec.stage = 8) (hact : s.sec.actCmd = some c) :
    ∃ t, exec (.recoveryWriteDone true) s = .next t ∧ t.life.main = .off ∧ t.life.startKind = 2 ∧ t.life.needOrder = false ∧
      t.sec.flash = s.sec.staged ∧ t.sec.flashValid = true ∧ t.sec.staged = [] ∧ t.sec.stage = 0 ∧ t.maps = [] ∧ t.objs = [] ∧
      t.sec.svn = s.sec.svn ∧ t.sec.ownerHash = s.sec.ownerHash ∧ t.age.ledger = s.age.ledger ∧ t.tether.claims = s.tether.claims := by
  have hexec := exec_recoveryWriteDone true hmain hstage hact
  rw [if_pos rfl] at hexec
  obtain ⟨hsec, hmoved⟩ := setStage_spec 0 (recoveryWritten true s)
  obtain ⟨hclaims, -⟩ := setStage_standing 0 (recoveryWritten true s)
  have hage : (setStage 0 (recoveryWritten true s)).age = s.age := (congrArg State.age hmoved :)
  generalize setStage 0 (recoveryWritten true s) = u at hexec hsec hclaims hage
  have hcarried := carryNow_eq c (u.done c)
  generalize carryNow c (u.done c) = v at hexec hcarried
  have hvsec : v.sec = _ := (congrArg State.sec hcarried).trans hsec
  have hvage : v.age = s.age := (congrArg State.age hcarried).trans hage
  have hvclaims : v.tether.claims = s.tether.claims := (congrArg (·.tether.claims) hcarried).trans hclaims
  have hstop := stopMain_eq v
  generalize stopMain v = w at hexec hstop
  have hwsec : w.sec = keptSec v.sec := congrArg State.sec hstop
  rw [hvsec] at hwsec
  have hwage : w.age = keptAge v.age := congrArg State.age hstop
  rw [hvage] at hwage
  refine ⟨_, hexec, (congrArg (·.life.main) hstop :), rfl, rfl, ?_, ?_, ?_, ?_, (congrArg State.maps hstop :), (congrArg State.objs hstop :), ?_, ?_, ?_,
    (congrArg (·.tether.claims) hstop).trans hvclaims⟩
  · exact (congrArg SecS.flash hwsec :)
  · exact (congrArg SecS.flashValid hwsec :)
  · exact (congrArg SecS.staged hwsec :)
  · exact (congrArg SecS.stage hwsec :)
  · exact (congrArg SecS.svn hwsec :)
  · exact (congrArg SecS.ownerHash hwsec :)
  · exact (congrArg AgeS.ledger hwage :)

theorem recoveryWriteDone_fails (hmain : s.life.main = .recovery) (hstage : s.sec.stage = 8) (hact : s.sec.actCmd = some c) (hm : s.findCmd c = some m) :
    ∃ t r, exec (.recoveryWriteDone false) s = .next t ∧ t.replyOf c = some r ∧ r.status = BitVec.ofNat 16 ABORTED ∧ t.life = s.life ∧
      t.sec.flash = s.sec.flash ∧ t.sec.flashValid = false ∧ t.sec.staged = s.sec.staged := by
  obtain ⟨hsec, hmoved⟩ := setStage_spec 2 (recoveryWritten false s)
  have hfound : (setStage 2 (recoveryWritten false s)).findCmd c = some m := (State.findCmd_congr hmoved.cmds c).trans hm
  obtain ⟨⟨r, hr, hstatus⟩, -⟩ := State.refuseOpen_of_found ABORTED hfound
  have hexec := exec_recoveryWriteDone false hmain hstage hact
  rw [if_neg Bool.false_ne_true] at hexec
  refine ⟨_, r, hexec, hr, hstatus, (congrArg State.life hmoved :), ?_, ?_, ?_⟩
  · exact (congrArg SecS.flash hsec :)
  · exact (congrArg SecS.flashValid hsec :)
  · exact (congrArg SecS.staged hsec :)

end Update

/-- Settles O51: each row moves the stage as it says, and the flash changes only with a verified write. -/
theorem updatesRunTheirStages : Obligations.UpdatesRunTheirStages := by
  unfold Obligations.UpdatesRunTheirStages
  refine ⟨fun s c m h => ⟨fun hnone => ?_, fun hstaged hbusy => ?_, fun hstaged hstage => fwActivate_starts h hstaged hstage⟩,
    fun s hrolling => ⟨fun hstage hold => ?_, fun hstage hold => ?_, fun hstage hold hleft => ?_, fun hstage hold hnone => ?_⟩,
    fun s hwait => ⟨fun ⟨m, hm, hrunning, hother⟩ => fwSwitchPoint_waits hm hrunning hother, fun hdone => fwSwitchPoint_switches hwait hdone⟩,
    fun s b hstage hrolling hnext hsingle => ⟨fun hnot => ?_, ?_, fun hrec htime => ?_⟩,
    fun s c m hstage hact hm hheld => fwFlashVerified_ends hstage hact hm hheld, fun s hstage => ?_,
    fun s c m hrolling hact hm => fwUpdateRolledBack_ends hrolling hact hm,
    fun s c m hmain hstage hact hm => ⟨recoveryWriteDone_restarts hmain hstage hact, recoveryWriteDone_fails hmain hstage hact hm⟩⟩
  · rw [exec_fwActivate h, if_pos hnone]
  · rw [exec_fwActivate h, if_neg (by simp [hstaged]), if_pos hbusy]
  · have hexec : exec (.fwCoreRebootDone 2) s = .next (setStage 4 ((coreMarked 2 s).mapDep fun d => { d with voting := [true, false, false] })) := by
      rw [exec_fwCoreRebootDone hrolling hold]
      simp only [coreRebooted, hstage]
    obtain ⟨hsec, hmoved⟩ := setStage_spec 4 ((coreMarked 2 s).mapDep fun d => { d with voting := [true, false, false] })
    refine ⟨_, hexec, by rw [hsec], (congrArg (·.dep.voting) hmoved :), by rw [hsec]; rfl, hmoved.cmds, hmoved.voted rfl⟩
  · have hexec : exec (.fwCoreRebootDone 1) s = .next (coreMarked 1 s) := by
      rw [exec_fwCoreRebootDone hrolling (by rw [hold]; rfl)]
      simp only [coreRebooted, hstage]
    have hsec : (coreMarked 1 s).sec = { s.sec with coresNew := [false, true, true] } := by
      rw [coreMarked, State.mapSec, hold]
      rfl
    exact ⟨_, hexec, hsec, by rw [State.switchWait, hsec]; simp [hstage, hrolling], rfl⟩
  · obtain ⟨hsec, hvoting, hswap, hframe⟩ := swapping_spec s
    refine ⟨_, coreZero_ends hrolling hstage hold, ?_⟩
    rw [advanceSwap_waits (hswap ▸ hleft)]
    exact ⟨by rw [hsec], hvoting, by rw [hframe], hframe⟩
  · obtain ⟨hsec, hvoting, hswap, hframe⟩ := swapping_spec s
    obtain ⟨hended, hmoved⟩ := advanceSwap_ends (hswap.trans hnone)
    refine ⟨_, coreZero_ends hrolling hstage hold, by rw [hended], by rw [hmoved]; exact hvoting, fun c m hact hm => ?_, ?_⟩
    · refine advanceSwap_commits (m := m) (hswap.trans hnone) ?_ ?_
      · rw [hsec]
        exact hact
      · rw [hframe]
        exact hm
    · rw [hmoved, hframe]
  · rw [exec_fwBandSwap hstage hrolling hnext hsingle, if_neg]
    rcases hnot with h | h <;> simp [swapReady, h]
  · rintro ⟨x, f, k, hx, hf, hstarted, hpublished, hcommitted, habandoned, hcovered⟩
    exact swapTime_of_atWork hsingle hx hf hstarted hpublished hcommitted habandoned hcovered
  · have hready : swapReady s b = true := by rw [swapReady, hrec, htime]; rfl
    obtain ⟨hswapped, hout, hpc, hrv, hothers, hends, t, ht, hframe⟩ := fwBandSwap_swaps hstage (List.mem_of_mem_head? hnext)
    rw [exec_fwBandSwap hstage hrolling hnext hsingle, if_pos hready]
    subst ht
    exact ⟨_, rfl, hswapped, hout, hpc, hrv, hothers, hends, hframe⟩
  · rw [exec, execFwFlashVerified, onTrigger_idle s _ (by simp [hstage])]

end Sys2Proof.Machine

/-! ## The start of the main side -/

namespace Sys2Proof.Machine

/-! ### The ledger's newest margin entry (R834) -/

/-- The ledger with every second margin entry below number `half` dropped, the next of which has number `i`. -/
def thinned (half : Nat) : Nat → List LedgerEntry → List LedgerEntry
  | _, [] => []
  | i, e :: l =>
    if e.kind = 1 ∧ i < half then (if i % 2 = 1 then thinned half (i + 1) l else e :: thinned half (i + 1) l)
    else e :: thinned half i l

theorem thinLedger_eq (l : List LedgerEntry) : (thinLedger l).1 = thinned ((l.filter fun e => e.kind == 1).length / 2) 0 l := by
  suffices h : ∀ (half : Nat) (l acc : List LedgerEntry) (i d : Nat), (l.foldl (fun (a : List LedgerEntry × Nat × Nat) e =>
      if e.kind = 1 ∧ a.2.1 < half then
        (if a.2.1 % 2 = 1 then (a.1, a.2.1 + 1, a.2.2 + 1) else (a.1 ++ [e], a.2.1 + 1, a.2.2))
      else (a.1 ++ [e], a.2.1, a.2.2)) (acc, i, d)).1 = acc ++ thinned half i l from (h _ l [] 0 0).trans (List.nil_append _)
  intro half l
  induction l with
  | nil => exact fun acc _ _ => (List.append_nil acc).symm
  | cons e l ih =>
    intro acc i d
    rw [List.foldl_cons, thinned]
    split_ifs with hmargin hodd
    · exact ih ..
    · rw [ih, List.append_assoc]; rfl
    · rw [ih, List.append_assoc]; rfl

theorem thinned_sublist (half i : Nat) (l : List LedgerEntry) : (thinned half i l).Sublist l := by
  induction l generalizing i with
  | nil => exact List.Sublist.slnil
  | cons e l ih =>
    rw [thinned]
    split_ifs with hmargin hodd
    · exact (ih _).cons e
    · exact (ih _).cons_cons e
    · exact (ih _).cons_cons e

/-- Beyond the oldest half nothing is dropped. -/
theorem thinned_of_le {half i : Nat} (h : half ≤ i) (l : List LedgerEntry) : thinned half i l = l := by
  induction l with
  | nil => rfl
  | cons e l ih => rw [thinned, if_neg (by omega), ih]

/-- The margin entries of a ledger. -/
def margins (l : List LedgerEntry) : List LedgerEntry := l.filter fun e => e.kind == 1

/-- Thinning keeps the newest margin entry where it lies beyond the oldest half. -/
theorem margins_thinned {half i : Nat} {l : List LedgerEntry} (h : half < i + (margins l).length) :
    (margins (thinned half i l)).getLast? = (margins l).getLast? := by
  induction l generalizing i with
  | nil => rfl
  | cons e l ih =>
    by_cases hmargin : e.kind = 1
    · have hcons (r : List LedgerEntry) : margins (e :: r) = e :: margins r := List.filter_cons_of_pos (by simp [hmargin])
      rw [hcons, List.length_cons] at h
      by_cases hold : i < half
      · have hlast := ih (i := i + 1) (by omega)
        have hne : (margins l) ≠ [] := fun hnil => by rw [hnil, List.length_nil] at h; omega
        obtain ⟨x, hx⟩ := Option.ne_none_iff_exists'.1 (mt List.getLast?_eq_none_iff.1 hne)
        rw [thinned, if_pos ⟨hmargin, hold⟩, hcons, List.getLast?_cons, hx]
        split
        · rw [hlast, hx]; rfl
        · rw [hcons, List.getLast?_cons, hlast, hx]
      · rw [thinned_of_le (by omega)]
    · have hcons (r : List LedgerEntry) : margins (e :: r) = margins r := List.filter_cons_of_neg (by simp [hmargin])
      rw [thinned, if_neg (fun hboth => hmargin hboth.1), hcons, hcons]
      exact ih (by rwa [hcons] at h)

/-- An entry of another kind leaves the newest margin entry, thinned or not. -/
theorem margins_ledger (s : State) {e : LedgerEntry} (he : e.kind ≠ 1) :
    (margins (s.ledger e).age.ledger).getLast? = (margins s.age.ledger).getLast? := by
  have happend (l : List LedgerEntry) (e : LedgerEntry) (he : e.kind ≠ 1) : margins (l ++ [e]) = margins l := by
    rw [margins, List.filter_append, List.filter_cons_of_neg (by simpa using he), List.filter_nil, List.append_nil]
    rfl
  obtain ⟨e', hkind, hledger⟩ : ∃ e', e'.kind = e.kind ∧
      (s.ledger e).age.ledger = (if s.age.ledger.length < 16384 then (s.age.ledger, 0) else thinLedger s.age.ledger).1 ++ [e'] := ⟨_, rfl, rfl⟩
  rw [hledger, happend _ _ (hkind ▸ he)]
  split
  · rfl
  · rw [thinLedger_eq]
    by_cases hnone : (margins s.age.ledger).length = 0
    · rw [thinned_of_le]
      exact Nat.le_of_eq (by rw [show (s.age.ledger.filter fun e => e.kind == 1).length = 0 from hnone])
    · refine margins_thinned ?_
      change (margins s.age.ledger).length / 2 < _
      omega

/-- An entry appended leaves nothing new but itself. -/
theorem mem_ledger {s : State} {e x : LedgerEntry} (h : x ∈ (s.ledger e).age.ledger) : x ∈ s.age.ledger ∨ x.kind = e.kind := by
  obtain ⟨e', hkind, hledger⟩ : ∃ e', e'.kind = e.kind ∧
      (s.ledger e).age.ledger = (if s.age.ledger.length < 16384 then (s.age.ledger, 0) else thinLedger s.age.ledger).1 ++ [e'] := ⟨_, rfl, rfl⟩
  rw [hledger, List.mem_append, List.mem_singleton] at h
  rcases h with h | rfl
  · refine .inl ?_
    split at h
    · exact h
    · rw [thinLedger_eq] at h
      exact (thinned_sublist ..).mem h
  · exact .inr hkind

section Boot

variable {s t u : State} {r : StartReport}

/-! ### Clocks at a start -/

/-- `t` is `s` with its claims, and its life but for the link. -/
structure SideKept (s t : State) : Prop where
  life : t.life = { s.life with linkUp := t.life.linkUp }
  claims : t.tether.claims = s.tether.claims

theorem SideKept.refl (s : State) : SideKept s s := ⟨rfl, rfl⟩

theorem SideKept.trans (h : SideKept s t) (k : SideKept t u) : SideKept s u := ⟨by rw [k.life, h.life], k.claims.trans h.claims⟩

theorem SideKept.raise (s : State) (code detail : Nat) : SideKept s (s.raise code detail) :=
  ⟨rfl, congrArg (·.lasting.claims) (State.raise_standing ..)⟩

theorem SideKept.raiseCtx (s : State) (n code detail : Nat) : SideKept s (s.raiseCtx n code detail) :=
  ⟨rfl, congrArg (·.lasting.claims) (State.raiseCtx_standing ..)⟩

theorem StreamsChanged.side (h : StreamsChanged s t) : SideKept s t := by
  rw [h]
  exact ⟨rfl, rfl⟩

theorem forEach_side {α : Type} (l : List α) {f : α → State → State} (hf : ∀ x u, SideKept u (f x u)) (s : State) : SideKept s (forEach l f s) :=
  forEach_keeps (P := SideKept s) l f (fun x _ u hu => hu.trans (hf x u)) (.refl s)

theorem dropFrame_side (st k cause : Nat) (s : State) : SideKept s (dropFrame st k cause s) := by
  unfold dropFrame
  extract_lets x b s1 s2
  have h1 : SideKept s s1 := (StreamsChanged.updStream ..).side
  have h2 : SideKept s1 s2 := .raiseCtx ..
  exact (h1.trans h2).trans (forEach_side _ (fun p u => (StreamsChanged.unpair x.ctx p b.frameSet u).side) s2)

theorem parkIsland_side (i : Nat) (s : State) : SideKept s (parkIsland i s) := by
  unfold parkIsland
  extract_lets s1
  have h1 : SideKept s s1 := ⟨rfl, rfl⟩
  refine h1.trans ?_
  split
  · unfold linkDown
    split
    · exact ⟨rfl, rfl⟩
    · exact .refl _
  · refine forEach_side _ (fun st u => ?_) _
    split
    · exact dropFrame_side ..
    · exact .refl u
  · have h2 (u : State) : SideKept u (enterHoldover 3 u) := ⟨rfl, (SideKept.raise _ _ _).claims⟩
    split
    · exact ⟨rfl, rfl⟩
    · refine SideKept.trans ?_ (h2 _)
      exact ⟨rfl, rfl⟩
  · exact .refl _

theorem parkIslands_side (l : List Nat) (s : State) : SideKept s (parkIslands l s) := by
  unfold parkIslands
  split
  · exact .refl s
  · exact (forEach_side l parkIsland_side s).trans (.raise ..)

theorem switchIslands_side (l : List Nat) (s : State) : SideKept s (switchIslands l s) := by
  have h : SideKept s (forEach l (fun i s => s.updIsland i fun x => { x with alt := !x.alt }) s) :=
    forEach_side l (f := fun i s => s.updIsland i fun x => { x with alt := !x.alt }) (fun i u => ⟨rfl, rfl⟩) s
  unfold switchIslands
  dsimp only
  split
  · exact h.trans ⟨rfl, rfl⟩
  · exact h

theorem raiseSwitched_side (l : List Nat) (alt : Bool) (s : State) : SideKept s (raiseSwitched l alt s) := by
  unfold raiseSwitched
  dsimp only
  split
  · exact .refl s
  · exact .raise ..

/-- Step 2 settles the sources and islands (R764). -/
theorem startClocks_spec (ok : Bool) (s : State) : SideKept s (startClocks ok s) ∧ startClocks ok s = { s with
    sources := (startClocks ok s).sources, islands := (startClocks ok s).islands, life := (startClocks ok s).life,
    linkDownTick := (startClocks ok s).linkDownTick, streams := (startClocks ok s).streams, ctxs := (startClocks ok s).ctxs,
    events := (startClocks ok s).events, tether := (startClocks ok s).tether, reel := (startClocks ok s).reel, time := (startClocks ok s).time,
    free := (startClocks ok s).free } := by
  have hnodup : [0, 1, 2, 4].Nodup := by decide
  have hsource : SideKept s (s.updSource 0 fun _ => { present := true, stable := ok, since := s.time.ticks }) := ⟨rfl, rfl⟩
  have hframe {t : State} (h : IslandsMoved (s.updSource 0 fun _ => { present := true, stable := ok, since := s.time.ticks }) t) : t = { s with
      sources := t.sources, islands := t.islands, life := t.life, linkDownTick := t.linkDownTick, streams := t.streams, ctxs := t.ctxs,
      events := t.events, tether := t.tether, reel := t.reel, time := t.time, free := t.free } := by
    rw [h.state]
    rfl
  unfold startClocks
  dsimp only
  split
  · exact ⟨hsource, rfl⟩
  · split
    · exact ⟨hsource.trans ((switchIslands_side ..).trans (raiseSwitched_side ..)),
        hframe ((switchIslands_spec hnodup _).1.trans (raiseSwitched_spec ..).1)⟩
    · exact ⟨hsource.trans (parkIslands_side ..), hframe (parkIslands_spec hnodup _).1⟩

/-- With a stable reference nothing but its source changes. -/
theorem startClocks_stable (s : State) : startClocks true s = { s with sources := (startClocks true s).sources } := rfl

/-! ### Cores, stores and self-tests -/

/-- What the self-tests change, once the supply is set. -/
structure SelfTested (s t : State) : Prop where
  frame : t = { s with tiles := t.tiles, dep := t.dep, age := t.age, engines := t.engines, events := t.events, tether := t.tether }
  claims : t.tether.claims = s.tether.claims
  supply : t.age.vSet = s.age.vSet ∧ t.age.vTarget = s.age.vTarget

theorem SelfTested.refl (s : State) : SelfTested s s := ⟨rfl, rfl, rfl, rfl⟩

theorem SelfTested.trans (h : SelfTested s t) (k : SelfTested t u) : SelfTested s u :=
  ⟨by rw [k.frame, h.frame], k.claims.trans h.claims, k.supply.1.trans h.supply.1, k.supply.2.trans h.supply.2⟩

theorem SelfTested.updTile (s : State) (n : Nat) (f : TileS → TileS) : SelfTested s (s.updTile n f) := ⟨rfl, rfl, rfl, rfl⟩
theorem SelfTested.ledger (s : State) (e : LedgerEntry) : SelfTested s (s.ledger e) := ⟨rfl, rfl, rfl, rfl⟩
theorem SelfTested.raise (s : State) (code detail : Nat) : SelfTested s (s.raise code detail) := ⟨rfl, (SideKept.raise ..).claims, rfl, rfl⟩
theorem SelfTested.mapDep (s : State) (f : DepS → DepS) : SelfTested s (s.mapDep f) := ⟨rfl, rfl, rfl, rfl⟩
theorem SelfTested.updEngine (s : State) (n : Nat) (f : EngineS → EngineS) : SelfTested s (s.updEngine n f) := ⟨rfl, rfl, rfl, rfl⟩

theorem SelfTested.ite {p : Prop} [Decidable p] (h : SelfTested s t) (k : SelfTested s u) : SelfTested s (if p then t else u) := by
  split
  · exact h
  · exact k

theorem forEach_tested {α : Type} (l : List α) {f : α → State → State} (hf : ∀ x u, SelfTested u (f x u)) (s : State) : SelfTested s (forEach l f s) :=
  forEach_keeps (P := SelfTested s) l f (fun x _ u hu => hu.trans (hf x u)) (.refl s)

theorem failTile_tested (n : Nat) (s : State) : SelfTested s (failTile n s) :=
  .ite (.refl s) ((SelfTested.updTile ..).trans (.ledger ..))

theorem failLane_tested (n lane : Nat) (s : State) : SelfTested s (failLane n lane s) :=
  .ite (.refl s) (.ite (failTile_tested n s) ((((SelfTested.updTile ..).trans (.mapDep ..)).trans (.raise ..)).trans (.ledger ..)))

theorem assignHalf_tested (first : Nat) (s : State) : SelfTested s (assignHalf first s) :=
  forEach_tested _ (fun _ u => .updTile u ..) s

theorem startEngines_tested (fails : List (Nat × Nat)) (s : State) : SelfTested s (startEngines fails s) :=
  forEach_tested _ (fun _ u => .ite (((SelfTested.updEngine ..).trans (.raise ..)).trans (.ledger ..)) (.refl u)) s

/-- The supply of the newest margin entry (R899). -/
def bootSupply (l : List LedgerEntry) : Nat := ((margins l).getLast?.map (·.vSet)).getD 800

/-- The state in which the tiles are tested: the supply is set. -/
def supplySet (s : State) : State := s.mapAge fun a => { a with vSet := bootSupply s.age.ledger, vTarget := bootSupply s.age.ledger }

theorem startTiles_tested (lanes : List (Nat × Nat)) (fails : List Nat) (s : State) : SelfTested (supplySet s) (startTiles lanes fails s) := by
  unfold startTiles
  extract_lets v s1 s2 s3 s4 s5
  have h2 : SelfTested s1 s2 := forEach_tested _ (fun _ u => .ite (.updTile ..) (.refl u)) s1
  have h3 : SelfTested s2 s3 := forEach_tested _ (fun _ u => .ite (failLane_tested ..) (.refl u)) s2
  have h4 : SelfTested s3 s4 := forEach_tested _ (fun _ u => .ite (failTile_tested ..) (.refl u)) s3
  have h5 : SelfTested s4 s5 := (assignHalf_tested 0 s4).trans (assignHalf_tested 28 _)
  exact ((h2.trans h3).trans (h4.trans h5)).trans (.ite (.raise ..) (.refl s5))

/-- The torn final entry of a ledger is none (R833). -/
def untorn (l : List LedgerEntry) : List LedgerEntry := if l.getLast?.any (·.torn) then l.dropLast else l

theorem startStore_spec (bad : List Nat) (s : State) : startStore bad s = { s with age := (startStore bad s).age, sec := (startStore bad s).sec } ∧
    (startStore bad s).sec = { s.sec with atBoot := (startStore bad s).sec.atBoot } ∧
    bootSupply (startStore bad s).age.ledger = bootSupply (untorn s.age.ledger) ∧
    ∀ e ∈ (startStore bad s).age.ledger, e ∈ s.age.ledger ∨ e.kind = 7 := by
  obtain ⟨u, hu, hledger⟩ : ∃ u : State, u.age.ledger = untorn s.age.ledger ∧ (startStore bad s).age.ledger = (u.ledger { kind := 7 }).age.ledger :=
    ⟨_, rfl, rfl⟩
  refine ⟨rfl, rfl, ?_, fun e he => ?_⟩
  · rw [bootSupply, bootSupply, hledger, margins_ledger u (by decide), hu]
  · rw [hledger] at he
    rcases mem_ledger he with he | he
    · refine .inl ?_
      rw [hu, untorn] at he
      split at he
      · exact List.mem_of_mem_dropLast he
      · exact he
    · exact .inr he

/-- Step 3 leaves cores out of the vote and raises the fused SVN (R856, R810). -/
theorem startCores_spec (votes : List Bool) (s : State) : (startCores votes s).tether.claims = s.tether.claims ∧
    s.sec.svn ≤ (startCores votes s).sec.svn ∧ startCores votes s = { s with
      dep := (startCores votes s).dep, sec := (startCores votes s).sec, events := (startCores votes s).events, tether := (startCores votes s).tether } := by
  unfold startCores
  extract_lets s1
  have h1 : SelfTested s s1 := forEach_tested _ (fun _ u => (SelfTested.mapDep ..).trans (.raise ..)) s
  have hframe : s1 = { s with dep := s1.dep, events := s1.events, tether := s1.tether } :=
    forEach_keeps (P := fun u => u = { s with dep := u.dep, events := u.events, tether := u.tether }) _ _ (fun i _ u hu => by rw [hu]; rfl) rfl
  have hsec : s1.sec = s.sec := by rw [h1.frame]
  refine ⟨h1.claims, ?_, ?_⟩
  · change s.sec.svn ≤ (if s1.sec.flash = [] then s1.sec
      else { s1.sec with svn := max s1.sec.svn (imageSvn s1.sec.flash), runVersion := imageVersion s1.sec.flash, runMinor := imageMinor s1.sec.flash }).svn
    rw [hsec]
    split
    · exact Nat.le_refl _
    · exact Nat.le_max_left ..
  · rw [hframe]
    rfl

/-- Steps 4 to 8: the main side is starting, or the start has failed. -/
theorem startRest_spec (r : StartReport) (s : State) : (startRest r s).life = { s.life with main := (startRest r s).life.main } ∧
    (startRest r s).power = s.power ∧ (startRest r s).tether.claims = s.tether.claims ∧
    (startRest r s).age.vSet = bootSupply (untorn s.age.ledger) ∧ (startRest r s).age.vTarget = bootSupply (untorn s.age.ledger) := by
  obtain ⟨hstore, -, hsupply, -⟩ := startStore_spec r.badCalib s
  unfold startRest
  dsimp only
  generalize startStore r.badCalib s = v at *
  have htiles := startTiles_tested r.laneFails r.tileFails v
  generalize startTiles r.laneFails r.tileFails v = w at *
  have hall {t u : State} (ht : SelfTested w t)
      (hlife : u.life = { t.life with main := u.life.main }) (hpower : u.power = t.power) (hclaims : u.tether.claims = t.tether.claims)
      (hage : u.age = t.age) : u.life = { s.life with main := u.life.main } ∧ u.power = s.power ∧ u.tether.claims = s.tether.claims ∧
        u.age.vSet = bootSupply (untorn s.age.ledger) ∧ u.age.vTarget = bootSupply (untorn s.age.ledger) := by
    have h := htiles.trans ht
    have hl : t.life = s.life := by
      rw [h.frame]
      exact (congrArg State.life hstore :)
    have hp : t.power = s.power := by
      rw [h.frame]
      exact (congrArg State.power hstore :)
    refine ⟨by rw [hlife, hl], hpower.trans hp, hclaims.trans (h.claims.trans ?_), ?_, ?_⟩
    · exact (congrArg (·.tether.claims) hstore :)
    · rw [hage, h.supply.1]
      exact hsupply
    · rw [hage, h.supply.2]
      exact hsupply
  have hfailed (cause field : Nat) (t : State) : (startFailed cause field t).tether.claims = t.tether.claims := (SideKept.raise ..).claims
  split
  · exact hall (.refl _) rfl rfl (hfailed ..) rfl
  · split
    · exact hall (startEngines_tested ..) rfl rfl (hfailed ..) rfl
    · exact hall (startEngines_tested ..) rfl rfl rfl rfl

/-! ### The start (Table 22-1) -/

/-- The main side reset for a start. -/
def mainReset (s : State) : State :=
  let f := (stopMain s).takeFree
  f.2.mapLife fun l =>
    { l with v12 := true, needOrder := false, startTick := if !s.life.v12 then s.time.ticks else l.startTick,
             startKind := if !s.life.v12 then 2 else l.startKind, bootTick := s.time.ticks + Config.openVal 59 f.1 % (msTicks 93 + 1) }

/-- The main side powered, before its clocks. -/
def powered (r : StartReport) (s : State) : State := startPower ((mainReset s).mapLife fun l => { l with main := .starting, imageVotes := r.imageVotes })

theorem startMain_eq (r : StartReport) (s : State) : startMain r s =
    if r.railsOk = false then ((mainReset s).mapLife fun l => { l with needOrder := true }).raise 0x8E01 1
    else if (startClocks r.refStable (powered r s)).sec.flashValid && decide (2 ≤ (r.imageVotes.filter id).length) then
      startRest r (startCores r.imageVotes (startClocks r.refStable (powered r s)))
    else ((startClocks r.refStable (powered r s)).mapLife fun l => { l with main := .recovery }).raiseTether 0x8D05
      (if (startClocks r.refStable (powered r s)).sec.flashValid then 1 else 0) := rfl

theorem mainReset_eq (s : State) : mainReset s =
    { mainStopped (stopMain s).cmds s with life := (mainReset s).life, free := (mainReset s).free } := by
  unfold mainReset State.takeFree
  rw [stopMain_eq]
  rfl

theorem powered_eq (r : StartReport) (s : State) : powered r s =
    { mainStopped (stopMain s).cmds s with life := (powered r s).life, power := (powered r s).power, free := (powered r s).free } := by
  unfold powered startPower
  rw [mainReset_eq]
  rfl

theorem powered_life (r : StartReport) (s : State) : (powered r s).life.safeStop = bit s.tether.claims 0x0F ∧ (powered r s).life.main = .starting ∧
    (powered r s).life.v12 = true := by
  have hclaims : (mainReset s).tether.claims = s.tether.claims := (congrArg (·.tether.claims) (mainReset_eq s) :)
  exact ⟨congrArg (bit · 0x0F) hclaims, rfl, rfl⟩

theorem powered_power (r : StartReport) (s : State) :
    (powered r s).power.cap = (if bit s.tether.claims 0x0B then s.power.tetherCap else 75000) ∧
    (powered r s).power.ballast = (if bit s.tether.claims 0x0B then s.power.tetherBallast else 50) := by
  have hclaims : (mainReset s).tether.claims = s.tether.claims := (congrArg (·.tether.claims) (mainReset_eq s) :)
  have hcap : (mainReset s).power.tetherCap = s.power.tetherCap := (congrArg (·.power.tetherCap) (mainReset_eq s) :)
  have hballast : (mainReset s).power.tetherBallast = s.power.tetherBallast := (congrArg (·.power.tetherBallast) (mainReset_eq s) :)
  rw [← hclaims, ← hcap, ← hballast]
  exact ⟨rfl, rfl⟩

/-- The main side once its clocks stand. -/
def clocksUp (r : StartReport) (s : State) : State := startClocks r.refStable (powered r s)

theorem clocksUp_spec (r : StartReport) (s : State) : SideKept (powered r s) (clocksUp r s) ∧ (clocksUp r s).tether.claims = s.tether.claims ∧
    (clocksUp r s).power = (powered r s).power ∧ (clocksUp r s).sec = keptSec s.sec ∧ (clocksUp r s).age = keptAge s.age := by
  obtain ⟨hside, hframe⟩ := startClocks_spec r.refStable (powered r s)
  have hp := powered_eq r s
  change clocksUp r s = _ at hframe
  exact ⟨hside, hside.claims.trans (congrArg (·.tether.claims) hp), (congrArg State.power hframe :),
    (congrArg State.sec hframe :).trans (congrArg State.sec hp), (congrArg State.age hframe :).trans (congrArg State.age hp)⟩

theorem exec_mainSideStart (r : StartReport) (hvaux : s.life.vaux = true) (hoff : s.life.main = .off)
    (horder : s.life.v12 = false ∨ s.life.needOrder = false) (hcold : s.life.coldHold = false) :
    exec (.mainSideStart r) s = .next (startMain r s) := by
  have hready : (s.life.vaux && !s.mainOn && !(s.life.v12 && s.life.needOrder) && !s.life.coldHold) = true := by
    rw [hvaux, hcold, State.mainOn, hoff]
    rcases horder with h | h <;> simp [h]
  rw [exec, execMainSideStart, onTrigger_fires s _ hready]

/-- What every start with its rails up sets. -/
theorem startMain_sets (r : StartReport) (s : State) (hrails : r.railsOk = true) :
    (startMain r s).life.safeStop = bit s.tether.claims 0x0F ∧ (startMain r s).power = (powered r s).power ∧
    (s.sec.flashValid = true → s.sec.stage < 7 → 2 ≤ (r.imageVotes.filter id).length →
      (startMain r s).age.vSet = bootSupply (untorn s.age.ledger) ∧ (startMain r s).age.vTarget = bootSupply (untorn s.age.ledger)) := by
  obtain ⟨hside, -, hpower, hsec, hage⟩ := clocksUp_spec r s
  have hsafe : (clocksUp r s).life.safeStop = bit s.tether.claims 0x0F := (congrArg LifeS.safeStop hside.life).trans (powered_life r s).1
  have heq := startMain_eq r s
  change startMain r s = if r.railsOk = false then _ else if (clocksUp r s).sec.flashValid && decide (2 ≤ (r.imageVotes.filter id).length) then
    startRest r (startCores r.imageVotes (clocksUp r s)) else ((clocksUp r s).mapLife fun l => { l with main := .recovery }).raiseTether 0x8D05
      (if (clocksUp r s).sec.flashValid then 1 else 0) at heq
  rw [if_neg (by simp [hrails])] at heq
  rw [heq]
  split
  · obtain ⟨-, -, hcores⟩ := startCores_spec r.imageVotes (clocksUp r s)
    obtain ⟨hlife, hpower', -, hset, htarget⟩ := startRest_spec r (startCores r.imageVotes (clocksUp r s))
    have hledger : (startCores r.imageVotes (clocksUp r s)).age.ledger = s.age.ledger := by
      rw [hcores]
      exact (congrArg AgeS.ledger hage :)
    rw [hledger] at hset htarget
    refine ⟨?_, hpower'.trans ((congrArg State.power hcores).trans hpower), fun _ _ _ => ⟨hset, htarget⟩⟩
    rw [hlife, hcores]
    exact hsafe
  · next hno =>
    refine ⟨hsafe, hpower, fun hvalid hstage hvotes => absurd ?_ hno⟩
    rw [hsec, keptSec, hvalid, decide_eq_true hstage, decide_eq_true hvotes]
    rfl

end Boot

end Sys2Proof.Machine

/-! ## Resets of functions -/

namespace Sys2Proof.Machine

section Resets

variable {s t u : State} {n : Nat}

/-! ### What a reset leaves of maps and objects -/

/-- Every map and object of `t` stood in `s` with its owner, and a map withdrawn in `s` is still withdrawn. -/
structure StoresKept (s t : State) : Prop where
  maps : ∀ k x, Tab.get? t.maps k = some x → ∃ y, Tab.get? s.maps k = some y ∧ x.owner = y.owner ∧ (y.withdrawn = true → x.withdrawn = true)
  objs : ∀ k o, Tab.get? t.objs k = some o → ∃ y, Tab.get? s.objs k = some y ∧ o.owner = y.owner

theorem StoresKept.of_eq (hmaps : t.maps = s.maps) (hobjs : t.objs = s.objs) : StoresKept s t :=
  ⟨fun _ x hx => ⟨x, hmaps ▸ hx, rfl, id⟩, fun _ o ho => ⟨o, hobjs ▸ ho, rfl⟩⟩

theorem StoresKept.refl (s : State) : StoresKept s s := .of_eq rfl rfl

theorem StoresKept.trans (h : StoresKept s t) (k : StoresKept t u) : StoresKept s u where
  maps i x hx := by
    obtain ⟨y, hy, howner, hwithdrawn⟩ := k.maps i x hx
    obtain ⟨z, hz, howner', hwithdrawn'⟩ := h.maps i y hy
    exact ⟨z, hz, howner.trans howner', fun hw => hwithdrawn (hwithdrawn' hw)⟩
  objs i o ho := by
    obtain ⟨y, hy, howner⟩ := k.objs i o ho
    obtain ⟨z, hz, howner'⟩ := h.objs i y hy
    exact ⟨z, hz, howner.trans howner'⟩

theorem forEach_stores {α : Type} (l : List α) {f : α → State → State} (hf : ∀ x u, StoresKept u (f x u)) (s : State) :
    StoresKept s (forEach l f s) :=
  forEach_keeps (P := StoresKept s) l f (fun x _ u hu => hu.trans (hf x u)) (.refl s)

/-- A change of every map that keeps owners and withdrawals. -/
theorem StoresKept.mapVals {f : Nat → MapS → MapS} (howner : ∀ k x, (f k x).owner = x.owner)
    (hwithdrawn : ∀ k x, x.withdrawn = true → (f k x).withdrawn = true) : StoresKept s { s with maps := Tab.mapVals s.maps f } where
  maps k x hx := by
    rw [show ({ s with maps := Tab.mapVals s.maps f } : State).maps = Tab.mapVals s.maps f from rfl, Tab.get?_mapVals] at hx
    obtain ⟨y, hy, rfl⟩ := Option.map_eq_some_iff.1 hx
    exact ⟨y, hy, howner k y, hwithdrawn k y⟩
  objs k o ho := ⟨o, ho, rfl⟩

theorem StoresKept.closeSnap (s : State) (h : SnapHolder) : StoresKept s (s.closeSnap h) := .mapVals (fun _ _ => rfl) fun _ _ hw => hw

theorem StoresKept.updMap (s : State) (i : Nat) {f : MapS → MapS} (howner : ∀ x, (f x).owner = x.owner)
    (hwithdrawn : ∀ x, x.withdrawn = true → (f x).withdrawn = true) : StoresKept s (s.updMap i f) where
  maps k x hx := by
    rw [State.get?_updMap] at hx
    split at hx
    · next e =>
      obtain ⟨y, hy, rfl⟩ := Option.map_eq_some_iff.1 hx
      exact ⟨y, e ▸ hy, howner y, hwithdrawn y⟩
    · exact ⟨x, hx, rfl, id⟩
  objs k o ho := ⟨o, by rwa [State.updMap_objs] at ho, rfl⟩

theorem StoresKept.updObj (s : State) (i : Nat) {f : ObjS → ObjS} (howner : ∀ o, (f o).owner = o.owner) : StoresKept s (s.updObj i f) where
  maps k x hx := ⟨x, by rwa [State.updObj_maps] at hx, rfl, id⟩
  objs k o ho := by
    rw [State.get?_updObj] at ho
    split at ho
    · next e =>
      obtain ⟨y, hy, rfl⟩ := Option.map_eq_some_iff.1 ho
      exact ⟨y, e ▸ hy, howner y⟩
    · exact ⟨o, ho, rfl⟩

theorem StoresKept.updSession (s : State) (i : Nat) (f : SessionS → SessionS) : StoresKept s (s.updSession i f) := by
  unfold State.updSession
  split
  · exact .of_eq rfl rfl
  · exact .refl s

/-! ### Maps (R407) -/

theorem dropMap_stores (s : State) (i : Nat) : StoresKept s (s.dropMap i) := by
  unfold State.dropMap
  split
  · exact .refl s
  · refine ⟨fun k x hx => ?_, fun k o ho => ⟨o, ho, rfl⟩⟩
    rw [Tab.get?_del] at hx
    split at hx
    · exact absurd hx (by simp)
    · exact ⟨x, hx, rfl, id⟩

theorem reapMaps_stores (s : State) : StoresKept s s.reapMaps :=
  forEach_stores _ (fun (e : Nat × MapS) u => by
    split
    · exact dropMap_stores u e.1
    · exact .refl u) s

/-- A map withdrawn: it is so, and no other is less withdrawn. -/
theorem withdrawMap_spec (n i : Nat) (s : State) : StoresKept s (withdrawMap n i s) ∧
    ∀ x, Tab.get? (withdrawMap n i s).maps i = some x → x.withdrawn = true := by
  unfold withdrawMap
  extract_lets users s1 loops s2 s3
  have h1 : StoresKept s s1 := forEach_stores _ (fun k u => .updSession u k _) s
  have h2 : StoresKept s1 s2 := forEach_stores loops
    (f := fun q s => { s.closeSnap (.query q.1) with queries := Tab.del s.queries q.1 })
    (fun q u => (StoresKept.closeSnap u (.query q.1)).trans (.of_eq rfl rfl)) s1
  have h3 : StoresKept s2 s3 := .updMap s2 i (fun _ => rfl) fun _ _ => rfl
  have hself (x : MapS) (hx : Tab.get? s3.maps i = some x) : x.withdrawn = true := by
    rw [show s3.maps = (s2.updMap i _).maps from rfl, State.get?_updMap, if_pos rfl] at hx
    obtain ⟨y, -, rfl⟩ := Option.map_eq_some_iff.1 hx
    rfl
  have hall := (h1.trans h2).trans h3
  split
  · exact ⟨hall, hself⟩
  · exact ⟨hall.trans (.of_eq rfl rfl), hself⟩

/-- The maps of a context are withdrawn or gone. -/
theorem withdrawMaps_spec (n : Nat) (s : State) : StoresKept s (withdrawMaps n s) ∧
    ∀ k x, Tab.get? (withdrawMaps n s).maps k = some x → x.owner = n → x.withdrawn = true := by
  have hpass : StoresKept s (forEach (s.maps.filter fun e => e.2.owner == n) (fun e s => withdrawMap n e.1 s) s) :=
    forEach_stores _ (fun (e : Nat × MapS) u => (withdrawMap_spec n e.1 u).1) s
  have hreap := reapMaps_stores (forEach (s.maps.filter fun e => e.2.owner == n) (fun e s => withdrawMap n e.1 s) s)
  refine ⟨hpass.trans hreap, fun k x hx howner => ?_⟩
  obtain ⟨y, hy, howner', hstays⟩ := hreap.maps k x hx
  refine hstays ?_
  obtain ⟨z, hz, howner'', -⟩ := hpass.maps k y hy
  have hmine : (k, z) ∈ s.maps.filter fun e => e.2.owner == n :=
    List.mem_filter.2 ⟨Tab.mem_of_get? hz, beq_iff_eq.2 ((howner''.symm.trans howner'.symm).trans howner)⟩
  exact forEach_establishes (P := fun _ => True) (Q := fun u => ∀ y, Tab.get? u.maps k = some y → y.withdrawn = true) _
    (fun (e : Nat × MapS) s => withdrawMap n e.1 s) (fun _ _ _ _ => trivial)
    (fun e _ u _ hu y hy => by
      obtain ⟨w, hw, -, hkept⟩ := (withdrawMap_spec n e.1 u).1.maps k y hy
      exact hkept (hu w hw))
    hmine (fun u _ => (withdrawMap_spec n k u).2) trivial y hy

/-! ### Objects (R605) -/

/-- What is not of maps or objects leaves both. -/
def StoresSame (s t : State) : Prop := t.maps = s.maps ∧ t.objs = s.objs

theorem StoresSame.trans (h : StoresSame s t) (k : StoresSame t u) : StoresSame s u := ⟨k.1.trans h.1, k.2.trans h.2⟩

theorem forEach_same {α : Type} (l : List α) {f : α → State → State} (hf : ∀ x u, StoresSame u (f x u)) (s : State) :
    StoresSame s (forEach l f s) :=
  forEach_keeps (P := StoresSame s) l f (fun x _ u hu => hu.trans (hf x u)) ⟨rfl, rfl⟩

/-- An object dropped is gone, and nothing else of the stores changes. -/
theorem dropObj_objs (s : State) (k : Nat) : (s.dropObj k).maps = s.maps ∧ ∀ j, Tab.get? (s.dropObj k).objs j =
    if j = k then none else Tab.get? s.objs j := by
  unfold State.dropObj
  split
  · next hnone => exact ⟨rfl, fun j => by split; · next e => rw [e, hnone]
                                          · rfl⟩
  · next o _ =>
    extract_lets s1 s2 s3 s4 s5
    have h1 : StoresSame s s1 := ⟨rfl, rfl⟩
    have h2 : StoresSame s1 s2 := forEach_same _ (fun (x : Nat × CopyS) u =>
      forEach_same _ (f := fun n s => s.credit n x.1 o.granules) (fun n v => ⟨rfl, rfl⟩) u) s1
    have h3 : StoresSame s2 s3 := forEach_same _
      (f := fun n s => s.updCtx n fun x =>
        { x with windows := Tab.keep x.windows (fun _ i => i != o.id), streams := Tab.keep x.streams fun _ w => w.obj != o.id })
      (fun n u => ⟨rfl, rfl⟩) s2
    have h4 : StoresSame s3 s4 := by
      unfold s4
      split <;> exact ⟨rfl, rfl⟩
    have h5 : StoresSame s4 s5 := forEach_same _ (fun m u => by split <;> exact ⟨rfl, rfl⟩) s4
    obtain ⟨hmaps, hobjs⟩ := (((h1.trans h2).trans h3).trans h4).trans h5
    refine ⟨hmaps, fun j => ?_⟩
    rw [← hobjs]
    exact Tab.get?_del ..

theorem dropObj_stores (s : State) (k : Nat) : StoresKept s (s.dropObj k) := by
  obtain ⟨hmaps, hobjs⟩ := dropObj_objs s k
  refine ⟨fun i x hx => ⟨x, hmaps ▸ hx, rfl, id⟩, fun j o ho => ?_⟩
  rw [hobjs] at ho
  split at ho
  · exact absurd ho (by simp)
  · exact ⟨o, ho, rfl⟩

/-- The objects of a context are gone. -/
theorem dropObjs_spec (n : Nat) (s : State) :
    StoresKept s (forEach (s.objs.filter fun o => o.2.owner == n) (fun o s => s.dropObj o.1) s) ∧
    ∀ k o, Tab.get? (forEach (s.objs.filter fun o => o.2.owner == n) (fun o s => s.dropObj o.1) s).objs k = some o → o.owner ≠ n := by
  have hpass : StoresKept s (forEach (s.objs.filter fun o => o.2.owner == n) (fun o s => s.dropObj o.1) s) :=
    forEach_stores _ (fun (o : Nat × ObjS) u => dropObj_stores u o.1) s
  refine ⟨hpass, fun k o ho howner => ?_⟩
  obtain ⟨y, hy, hsame⟩ := hpass.objs k o ho
  have hmine : (k, y) ∈ s.objs.filter fun o => o.2.owner == n := List.mem_filter.2 ⟨Tab.mem_of_get? hy, beq_iff_eq.2 (hsame.symm.trans howner)⟩
  have hgone : Tab.get? (forEach (s.objs.filter fun o => o.2.owner == n) (fun o s => s.dropObj o.1) s).objs k = none :=
    forEach_establishes (P := fun _ => True) (Q := fun u => Tab.get? u.objs k = none) _ (fun (o : Nat × ObjS) (s : State) => s.dropObj o.1)
      (fun _ _ _ _ => trivial)
      (fun e _ u _ hu => by rw [(dropObj_objs u e.1).2, hu, ite_self])
      hmine (fun u _ => by rw [(dropObj_objs u k).2, if_pos rfl]) trivial
  rw [hgone] at ho
  cases ho

theorem unclaim_stores (s : State) (k tier n : Nat) : StoresKept s (s.unclaim k tier n) := by
  unfold State.unclaim
  split
  · extract_lets s1 s2
    have h1 : StoresKept s s1 := by
      unfold s1
      split
      · exact .of_eq rfl rfl
      · exact .refl s
    have h2 : StoresKept s1 s2 := .updObj s1 k fun _ => rfl
    split
    · refine (h1.trans h2).trans ?_
      unfold State.requestMove
      split <;> exact .of_eq rfl rfl
    · exact h1.trans h2
  · exact .refl s

theorem dropClaims_stores (s : State) (n : Nat) : StoresKept s (s.dropClaims n) :=
  forEach_stores _ (fun e u => forEach_stores _ (fun x v => by
    split
    · refine StoresKept.trans (.updObj v e.1 fun o => ?_) (unclaim_stores _ _ _ _)
      rfl
    · exact .refl v) u) s

theorem freeChannel_stores (ch : Nat) (s : State) : StoresKept s (freeChannel ch s) := by
  unfold freeChannel dropChange
  dsimp only
  split
  · split
    · split
      · exact .of_eq rfl rfl
      · split <;> exact .of_eq rfl rfl
    · exact .of_eq rfl rfl
  · exact .of_eq rfl rfl

/-! ### Ports (R163) -/

/-- A pass that releases the ports of a context: none is left, and nothing but ports changes. -/
theorem releasePorts_spec (n : Nat) (s : State) : (∀ p, ((forEach (s.ports.filter fun p => p.2.owner == some n)
      (fun p s => s.updPort p.1 fun q => q.released s.time.ticks) s).portAt p).owner ≠ some n) ∧
    forEach (s.ports.filter fun p => p.2.owner == some n) (fun p s => s.updPort p.1 fun q => q.released s.time.ticks) s = { s with
      ports := (forEach (s.ports.filter fun p => p.2.owner == some n) (fun p s => s.updPort p.1 fun q => q.released s.time.ticks) s).ports } := by
  refine ⟨fun p => ?_, forEach_keeps (P := fun u => u = { s with ports := u.ports }) _ _ (fun p _ u hu => by rw [hu]; rfl) rfl⟩
  have hstep (e : Nat × PortS) (u : State) (hu : (u.portAt p).owner ≠ some n) :
      ((u.updPort e.1 fun q => q.released u.time.ticks).portAt p).owner ≠ some n := by
    rw [State.portAt_updPort]
    split
    · simp [PortS.released]
    · exact hu
  by_cases hmine : (s.portAt p).owner = some n
  · obtain ⟨q, hq⟩ : ∃ q, Tab.get? s.ports p = some q := by
      cases hget : Tab.get? s.ports p with
      | none => simp [State.portAt, Tab.getD, hget] at hmine
      | some q => exact ⟨q, rfl⟩
    have howner : q.owner = some n := by simpa [State.portAt, Tab.getD, hq] using hmine
    have hmem : (p, q) ∈ s.ports.filter fun p => p.2.owner == some n := List.mem_filter.2 ⟨Tab.mem_of_get? hq, beq_iff_eq.2 howner⟩
    exact forEach_establishes (P := fun _ => True) (Q := fun u => (u.portAt p).owner ≠ some n) _
      (fun (e : Nat × PortS) (s : State) => s.updPort e.1 fun q => q.released s.time.ticks) (fun _ _ _ _ => trivial) (fun e _ u _ hu => hstep e u hu)
      hmem
      (fun u _ => by rw [State.portAt_updPort_self]; simp [PortS.released]) trivial
  · exact forEach_keeps (P := fun u => (u.portAt p).owner ≠ some n) _ _ (fun e _ u hu => hstep e u hu) hmine

/-! ### What a context holds -/

/-- What dropping the holdings of a context leaves standing, and what is gone. -/
structure HoldingsDropped (n : Nat) (s t : State) : Prop where
  standing : t.standing = { s.standing with owners := t.standing.owners }
  maps : ∀ k x, Tab.get? t.maps k = some x → x.owner = n → x.withdrawn = true
  objs : ∀ k o, Tab.get? t.objs k = some o → o.owner ≠ n
  ports : ∀ p, (t.portAt p).owner ≠ some n
  windows : (t.ctxAt n).window = [] ∧ (t.ctxAt n).windows = []

theorem dropHoldings_spec (n : Nat) (s : State) : HoldingsDropped n s (dropHoldings n s) := by
  unfold dropHoldings
  extract_lets s1 s2 s3 s4 s5 s6
  have hmaps1 : ∀ k x, Tab.get? s1.maps k = some x → x.owner = n → x.withdrawn = true := (withdrawMaps_spec n s).2
  obtain ⟨h12, hobjs2⟩ : StoresKept s1 s2 ∧ ∀ k o, Tab.get? s2.objs k = some o → o.owner ≠ n := dropObjs_spec n s1
  have h23 : StoresKept s2 s3 := dropClaims_stores s2 n
  have h34 : StoresKept s3 s4 := forEach_stores _ (fun (q : Nat × ChannelS) u => freeChannel_stores q.1 u) s3
  obtain ⟨hports5, h45⟩ := releasePorts_spec n s4
  change ∀ p, (s5.portAt p).owner ≠ some n at hports5
  change s5 = { s4 with ports := s5.ports } at h45
  have hstanding : s4.standing = s.standing := by
    calc s4.standing = s3.standing := forEach_standing fun q u => freeChannel_standing q.1 u
      _ = s2.standing := State.dropClaims_standing s2 n
      _ = s1.standing := forEach_standing fun o u => u.dropObj_standing o.1
      _ = s.standing := withdrawMaps_standing n s
  clear_value s1 s2 s3 s4 s5
  have hmaps5 : s5.maps = s4.maps := by rw [h45]
  have hobjs5 : s5.objs = s4.objs := by rw [h45]
  have hstanding5 : s5.standing = { s.standing with owners := s5.standing.owners } := by rw [← hstanding, h45]; rfl
  have h6 : (s6.updCtx n fun c => { c with window := [], windows := [] }).standing = s5.standing := (State.updCtx_standing rfl rfl).trans rfl
  refine ⟨by rw [h6]; exact hstanding5, fun k x hx howner => ?_, fun k o ho => ?_, hports5, ?_⟩
  · obtain ⟨y, hy, howner', hkept⟩ := ((h12.trans h23).trans h34).maps k x (hmaps5 ▸ hx)
    exact hkept (hmaps1 k y hy (howner'.symm.trans howner))
  · obtain ⟨y, hy, howner'⟩ := (h23.trans h34).objs k o (hobjs5 ▸ ho)
    rw [howner']
    exact hobjs2 k y hy
  · rw [State.ctxAt_updCtx, if_pos rfl]
    exact ⟨rfl, rfl⟩

/-! ### Commands and work -/

/-- The commands of a function are gone, and the others stand where they stood. -/
theorem dropHostCmds_spec (n : Nat) (s : State) : (∀ c ∈ (dropHostCmds n s).standing.refs, c.sender ≠ .host n) ∧
    (dropHostCmds n s).standing.outer = { s.standing with refs := (dropHostCmds n s).standing.refs }.outer := by
  have hpass : (forEach (s.cmds.filter fun m => decide (m.ref.sender = .host n)) endAborted s).standing.outer = s.standing.outer :=
    forEach_outer endAborted_outer
  refine ⟨fun c hc => ?_, ?_⟩
  · obtain ⟨m, hm, rfl⟩ := List.mem_map.1 hc
    exact of_decide_eq_true (List.mem_filter.1 hm).2
  · exact congrArg (fun x : List Instr × Lasting × (Nat → Option Nat) × Tab FnRegs × List CmdRef × (Nat → Bool) =>
      (x.1, x.2.1, x.2.2.1, x.2.2.2.1, (dropHostCmds n s).standing.refs, x.2.2.2.2.2)) hpass

/-- A context released has no image. -/
theorem releaseContext_loaded (s : State) (n : Nat) : (s.releaseContext n).standing.loaded n = false := by
  unfold State.releaseContext
  split
  · next hnone => exact congrArg Option.isSome hnone
  · extract_lets s1 s2
    rw [State.noteIdle_standing]
    change (((_ : State).updCtx n _).ctxAt n).image.isSome = false
    rw [State.ctxAt_updCtx, if_pos rfl]
    rfl

/-- The work of a context ends with its session and its image, and no record of it is held. -/
theorem dropWork_spec (n : Nat) (s : State) : (∀ h ∈ (dropWork n s).standing.held, h.ctx ≠ n) ∧ (dropWork n s).standing.loaded n = false ∧
    (dropWork n s).standing.outer = (s.standing.sessionless n).outer := by
  unfold dropWork
  extract_lets s1 s2
  have h1 : s1.standing.unloaded =
      (({ s with held := s.held.filter fun h => h.ctx != n } : State).standing.sessionless n).unloaded := endSession_unloaded ..
  have h2 : s2.standing = s1.standing := forEach_standing fun q u => u.dropQuery_standing q.1
  have h3 : (s2.releaseContext n).standing.unloaded = s1.standing.unloaded := by rw [State.releaseContext_unloaded, h2]
  have hall := h3.trans h1
  refine ⟨fun h hh => ?_, releaseContext_loaded s2 n, (outer_of_unloaded hall).trans rfl⟩
  have hheld : (s2.releaseContext n).standing.held = s.held.filter fun h => h.ctx != n := (congrArg Standing.held hall :)
  rw [hheld] at hh
  exact bne_iff_ne.1 (List.mem_filter.1 hh).2

/-! ### The reset of a function (R910, R911) -/

/-- What the reset of function `n` leaves and what it ends. -/
structure FunctionReset (n : Nat) (s t : State) : Prop where
  pending : t.pending = s.pending
  lasting : t.lasting = s.lasting
  own : t.fnAt n = { policy := (s.fnAt n).policy }
  others : ∀ k, k ≠ n → t.fnAt k = s.fnAt k
  running : ∀ k, t.standing.running k = (decide (k ≠ n) && s.standing.running k)
  loaded : t.standing.loaded n = false
  refs : ∀ c ∈ t.standing.refs, c.sender ≠ .host n
  held : ∀ h ∈ t.held, h.ctx ≠ n
  maps : ∀ k x, Tab.get? t.maps k = some x → x.owner = n → x.withdrawn = true
  objs : ∀ k o, Tab.get? t.objs k = some o → o.owner ≠ n
  ports : ∀ p, (t.portAt p).owner ≠ some n
  windows : (t.ctxAt n).window = [] ∧ (t.ctxAt n).windows = []

theorem resetFunction_spec (n : Nat) (s : State) : FunctionReset n s (resetFunction n s) := by
  obtain ⟨hrefs, houter⟩ := dropHostCmds_spec n s
  obtain ⟨hheld, hloaded, houter'⟩ := dropWork_spec n (dropHostCmds n s)
  have hdropped := dropHoldings_spec n (dropWork n (dropHostCmds n s))
  have hstanding := hdropped.standing
  unfold resetFunction
  generalize dropHoldings n (dropWork n (dropHostCmds n s)) = v at *
  generalize dropWork n (dropHostCmds n s) = w at *
  generalize dropHostCmds n s = u at *
  simp only [Standing.outer, Standing.sessionless, Prod.mk.injEq] at houter houter'
  obtain ⟨hpending, hlasting, -, hfns, -, hrunning⟩ := houter
  obtain ⟨hpending', hlasting', -, hfns', hrefs', hrunning'⟩ := houter'
  have hvfns : v.fns = s.fns := (congrArg Standing.fns hstanding :).trans (hfns'.trans hfns)
  have hvrefs : v.standing.refs = u.standing.refs := (congrArg Standing.refs hstanding :).trans hrefs'
  have hvrunning : v.standing.running = fun k => decide (k ≠ n) && s.standing.running k := by
    rw [← hrunning]
    exact (congrArg Standing.running hstanding :).trans hrunning'
  have hfnAt (k : Nat) : v.fnAt k = s.fnAt k := congrArg (fun t => Tab.getD t k ({} : FnRegs)) hvfns
  refine ⟨(congrArg Standing.pending hstanding :).trans (hpending'.trans hpending), (congrArg Standing.lasting hstanding :).trans (hlasting'.trans hlasting),
    ?_, fun k hk => ?_, fun k => congrFun hvrunning k, (congrFun (congrArg Standing.loaded hstanding :) n).trans hloaded,
    fun c hc => hrefs c (hvrefs ▸ hc), fun h hh => hheld h ((congrArg Standing.held hstanding :) ▸ hh), hdropped.maps, hdropped.objs, hdropped.ports,
    hdropped.windows⟩
  · rw [State.fnAt_updFn, if_pos rfl, hfnAt]
  · rw [State.fnAt_updFn, if_neg hk, hfnAt]

end Resets

end Sys2Proof.Machine

/-! ## Resets of the module's functions -/

namespace Sys2Proof.Machine

section Resets

variable {s t u : State} {n : Nat}

/-! ### A pass of resets -/

/-- Resetting functions one after the other: each of them is without a session, the registers of the others stay, and so does the module's scope. -/
theorem resetPass_spec (l : List Nat) (s : State) : (forEach l resetFunction s).lasting = s.lasting ∧
    ∀ n ∈ l, ((forEach l resetFunction s).sessionAt n) = none := by
  refine ⟨forEach_keeps (P := fun u => u.lasting = s.lasting) l _ (fun k _ u hu => (resetFunction_spec k u).lasting.trans hu) rfl, fun n hn => ?_⟩
  have hrunning (u : State) : u.standing.running n = false ↔ u.sessionAt n = none := Option.isSome_eq_false_iff.trans Option.isNone_iff_eq_none
  refine (hrunning _).1 (forEach_establishes (P := fun _ => True) (Q := fun u => u.standing.running n = false) l _ (fun _ _ _ _ => trivial)
    (fun k _ u _ hu => ?_) hn (fun u _ => ?_) trivial)
  · rw [(resetFunction_spec k u).running, hu, Bool.and_false]
  · rw [(resetFunction_spec n u).running, decide_eq_false (not_not.2 rfl), Bool.false_and]

/-- The whole-module resets: VF Enable and the masks are cleared, and nothing else of the module's scope changes. -/
structure AllReset (s t : State) : Prop where
  lasting : t.lasting = { s.lasting with life := { s.lasting.life with vfEnable := false } }
  sessions : ∀ n, n < 8 → t.sessionAt n = none
  policies : ∀ n, (t.fnAt n).policy = 0

theorem resetFunctions_all (s : State) : AllReset s (resetFunctions (List.range 8) s) := by
  obtain ⟨hlasting, hsessions⟩ := resetPass_spec (List.range 8) s
  unfold resetFunctions
  generalize forEach (List.range 8) resetFunction s = u at *
  refine ⟨?_, fun n hn => hsessions n (List.mem_range.2 hn), fun n => ?_⟩
  · rw [← hlasting]
    rfl
  · change (Tab.getD (Tab.mapVals u.fns fun _ f => { f with policy := 0 }) n {}).policy = 0
    rw [Tab.getD, Tab.get?_mapVals]
    cases Tab.get? u.fns n <;> rfl

/-- Resets that do not reach the PF are the resets of their functions. -/
theorem resetFunctions_vfs {l : List Nat} (h : l.contains 0 = false) (s : State) : resetFunctions l s = forEach l resetFunction s :=
  if_neg (by rw [h]; exact Bool.false_ne_true)

/-- RESET_CAUSE for every function of a list: events are appended, and each function has its own. -/
theorem raiseResets_spec (l : List Nat) (s : State) :
    (forEach l (fun n s => raiseReset (4 + 256 * n) s) s).standing = s.standing ∧
    (∃ ev te, forEach l (fun n s => raiseReset (4 + 256 * n) s) s = { s with events := ev, tether := te }) ∧
    ∀ n ∈ l, ∃ e ∈ (forEach l (fun n s => raiseReset (4 + 256 * n) s) s).events, e.code = 0x8E02 ∧ e.detail = BitVec.ofNat 16 (4 + 256 * n) := by
  refine ⟨forEach_standing fun n u => State.raise_standing .., ?_, fun n hn => ?_⟩
  · exact forEach_keeps (P := fun u => ∃ ev te, u = { s with events := ev, tether := te }) l _
      (fun n _ u hu => by obtain ⟨ev, te, rfl⟩ := hu; exact ⟨_, _, rfl⟩) ⟨s.events, s.tether, rfl⟩
  · exact forEach_establishes (P := fun _ => True)
      (Q := fun u => ∃ e ∈ u.events, e.code = 0x8E02 ∧ e.detail = BitVec.ofNat 16 (4 + 256 * n)) l _ (fun _ _ _ _ => trivial)
      (fun k _ u _ ⟨e, he, h⟩ => ⟨e, List.mem_append_left _ he, h⟩) hn
      (fun u _ => ⟨_, List.mem_append_right _ (List.mem_singleton.2 rfl), rfl, rfl⟩) trivial

/-! ### The rows -/

theorem exec_functionReset_vf (hmain : s.life.main ≠ .off) (hlink : s.life.linkUp = true) (hn : n < 8) (hvf : s.life.vfEnable = true) :
    exec (.functionReset n .flr) s = .next (resetOrHold n s) := by
  rw [exec, execFunctionReset]
  refine onTrigger_fires s _ ?_
  simp [State.mainOn, hmain, hlink, hn, hvf]

theorem exec_functionReset_pf (hmain : s.life.main ≠ .off) (hlink : s.life.linkUp = true) :
    exec (.functionReset 0 .flr) s = .next (resetOrHold 0 s) := by
  rw [exec, execFunctionReset]
  refine onTrigger_fires s _ ?_
  simp [State.mainOn, hmain, hlink]

theorem resetOrHold_waits (h : s.sec.stage = 7) (k : Nat) : resetOrHold k s = { s with sec := { s.sec with heldReset := s.sec.heldReset ++ [k] } } :=
  if_pos h

theorem resetOrHold_resets (h : s.sec.stage ≠ 7) (k : Nat) : resetOrHold k s = runHeldReset k s := if_neg h

/-- The reset of one VF. -/
theorem runHeldReset_vf (hpos : 0 < n) (hn : n < 8) (s : State) :
    runHeldReset n s = raiseReset (4 + 256 * n) (resetFunction n s) := by
  have hl : ([n] : List Nat).contains 0 = false := by simpa using hpos.ne
  rw [runHeldReset, if_pos hn, functionReset]
  simp only [if_neg hpos.ne']
  rw [resetFunctions_vfs hl]
  rfl

theorem runHeldReset_pf (s : State) :
    runHeldReset 0 s = forEach (List.range 8) (fun n s => raiseReset (4 + 256 * n) s) (resetFunctions (List.range 8) s) := rfl

/-! ### PERST# (R913 to R918) -/

/-- What PERST# ends and keeps. -/
structure PerstReset (s t : State) : Prop where
  lasting : ∃ down, t.lasting = { s.lasting with
    linkDownTick := down, life := { s.lasting.life with vfEnable := false, linkUp := false, perstReset := true } }
  sessions : ∀ n, n < 8 → t.sessionAt n = none
  policies : ∀ n, (t.fnAt n).policy = 0

/-- The link down, at once or before. -/
theorem linkDown_eq (s : State) : linkDown s = { s with
    life := { s.life with linkUp := false }
    linkDownTick := if s.life.linkUp then some s.time.ticks else s.linkDownTick } := by
  unfold linkDown
  split
  · rfl
  · next h =>
    have hdown : s.life = { s.life with linkUp := false } := by rw [← Bool.eq_false_of_not_eq_true h]
    exact congrArg (fun l => { s with life := l }) hdown

theorem PerstReset.asserted (h : PerstReset s t) : t.life.perst = s.life.perst := by
  obtain ⟨_, hlasting⟩ := h.lasting
  exact (congrArg (·.life.perst) hlasting :)

theorem perstFunctions_spec (s : State) : PerstReset s (perstFunctions s) := by
  obtain ⟨hlasting, hsessions, hpolicies⟩ := resetFunctions_all s
  unfold perstFunctions
  generalize resetFunctions (List.range 8) s = u at *
  rw [linkDown_eq]
  refine ⟨⟨if u.life.linkUp then some u.time.ticks else u.linkDownTick, ?_⟩, hsessions, hpolicies⟩
  calc _ = { u.lasting with
          linkDownTick := if u.life.linkUp then some u.time.ticks else u.linkDownTick
          life := { u.lasting.life with linkUp := false, perstReset := true } } := rfl
    _ = _ := by rw [hlasting]

theorem exec_perstAssert (h : s.life.perst = false) : exec .perstAssert s = .next
    (if s.mainOn then resetOrHold 9 (s.mapLife fun l => { l with perst := true }) else s.mapLife fun l => { l with perst := true }) := by
  rw [exec, execPerstAssert]
  refine (onTrigger_fires s _ ?_).trans rfl
  rw [h]
  rfl

/-- PERST# asserted again waits for its end before RESET_CAUSE. -/
theorem runHeldReset_perst (h : (perstFunctions s).life.perst = true) : runHeldReset 9 s = perstFunctions s := by
  rw [runHeldReset, if_neg (by decide), if_neg (by decide)]
  exact if_pos h

theorem exec_perstDeassert (h : s.life.perst = true) : exec .perstDeassert s = .next (if s.life.perstReset = true
    then raiseReset 3 (s.mapLife fun l => { l with perst := false, perstReset := false }) else s.mapLife fun l => { l with perst := false }) := by
  rw [exec, execPerstDeassert]
  exact onTrigger_fires s _ h

theorem exec_pcieConfigRequest_retry {reg : Nat} {w : Option Word} (hlink : s.life.linkUp = true) (hn : n < 8) (hstarting : s.life.main = .starting)
    (hearly : s.time.ticks < s.life.bootTick) :
    exec (.pcieConfigRequest n reg w) s = .next (s.send (.pcieCompletion n reg true)) := by
  have hcrs : (decide (s.life.main = .starting) && !s.step3Ended) = true := by simp [State.step3Ended, hstarting, hearly]
  rw [exec, execPcieConfigRequest]
  refine (onTrigger_fires s _ (by simp [hlink, hn])).trans ?_
  simp only [hcrs]
  cases w with
  | none => rfl
  | some w => exact congrArg _ (if_pos (.inl trivial))

theorem exec_pcieConfigRequest_read {reg : Nat} (hlink : s.life.linkUp = true) (hn : n < 8)
    (hlate : s.life.main ≠ .starting ∨ s.life.bootTick ≤ s.time.ticks) :
    exec (.pcieConfigRequest n reg none) s = .next (s.send (.pcieCompletion n reg false)) := by
  have hcrs : (decide (s.life.main = .starting) && !s.step3Ended) = false := by
    simp only [State.step3Ended, Bool.and_eq_false_iff, decide_eq_false_iff_not, Bool.not_eq_false', decide_eq_true_eq]
    exact hlate
  rw [exec, execPcieConfigRequest]
  refine (onTrigger_fires s _ (by simp [hlink, hn])).trans ?_
  simp only [hcrs]

/-- The FLR of a VF. -/
theorem functionReset_vf_spec (hmain : s.life.main ≠ .off) (hlink : s.life.linkUp = true) (hpos : 0 < n) (hn : n < 8) (hvf : s.life.vfEnable = true)
    (hstage : s.sec.stage ≠ 7) :
    ∃ t e, exec (.functionReset n .flr) s = .next t ∧ t.sessionAt n = none ∧ (t.ctxAt n).image = none ∧ (t.ctxAt n).window = [] ∧
      (t.ctxAt n).windows = [] ∧ t.fnAt n = { policy := (s.fnAt n).policy } ∧ (∀ k, k ≠ n → t.fnAt k = s.fnAt k) ∧
      (∀ m ∈ t.cmds, m.ref.sender ≠ .host n) ∧ (∀ k x, Tab.get? t.maps k = some x → x.owner = n → x.withdrawn = true) ∧
      (∀ k o, Tab.get? t.objs k = some o → o.owner ≠ n) ∧ (∀ p, (t.portAt p).owner ≠ some n) ∧ (∀ h ∈ t.held, h.ctx ≠ n) ∧ e ∈ t.events ∧
      e.code = 0x8E02 ∧ e.detail = BitVec.ofNat 16 (4 + 256 * n) ∧
      t.time = s.time ∧ t.tether.claims = s.tether.claims ∧ t.tether.endpoint = s.tether.endpoint ∧ t.life.vfEnable = true ∧ t.life.linkUp = true ∧
      t.power.cap = s.power.cap ∧ t.sec.flash = s.sec.flash := by
  have hexec := exec_functionReset_vf hmain hlink hn hvf
  rw [resetOrHold_resets hstage, runHeldReset_vf hpos hn] at hexec
  obtain ⟨-, hlasting, hown, hothers, hrunning, hloaded, hrefs, hheld, hmaps, hobjs, hports, hwindow, hwindows⟩ := resetFunction_spec n s
  generalize resetFunction n s = t at *
  have hsession : t.sessionAt n = none :=
    Option.isNone_iff_eq_none.1 (Option.isSome_eq_false_iff.1 ((hrunning n).trans (by rw [decide_eq_false (not_not.2 rfl), Bool.false_and])))
  refine ⟨_, _, hexec, hsession, Option.isNone_iff_eq_none.1 (Option.isSome_eq_false_iff.1 hloaded), hwindow, hwindows, hown, hothers,
    fun m hm => hrefs m.ref (List.mem_map_of_mem hm), hmaps, hobjs, hports, hheld, List.mem_append_right _ (List.mem_singleton.2 rfl), rfl, rfl,
    (congrArg Lasting.time hlasting :), ?_, ?_, ((congrArg (·.life.vfEnable) hlasting :) : t.life.vfEnable = s.life.vfEnable).trans hvf,
    ((congrArg (·.life.linkUp) hlasting :) : t.life.linkUp = s.life.linkUp).trans hlink, (congrArg (·.power.cap) hlasting :),
    (congrArg Lasting.flash hlasting :)⟩
  · exact (TetherS.pushEvent_claims ..).trans (congrArg Lasting.claims hlasting :)
  · exact (TetherS.pushEvent_endpoint ..).trans (congrArg Lasting.endpoint hlasting :)

/-- The FLR of the PF. -/
theorem functionReset_pf_spec (hmain : s.life.main ≠ .off) (hlink : s.life.linkUp = true) (hstage : s.sec.stage ≠ 7) :
    ∃ t, exec (.functionReset 0 .flr) s = .next t ∧ t.life.vfEnable = false ∧ (∀ n, n < 8 → t.sessionAt n = none ∧ (t.fnAt n).policy = 0) ∧
      (∀ n, n < 8 → ∃ e ∈ t.events, e.code = 0x8E02 ∧ e.detail = BitVec.ofNat 16 (4 + 256 * n)) ∧ t.time = s.time := by
  have hexec := exec_functionReset_pf hmain hlink
  rw [resetOrHold_resets hstage, runHeldReset_pf] at hexec
  obtain ⟨hlasting, hsessions, hpolicies⟩ := resetFunctions_all s
  generalize resetFunctions (List.range 8) s = u at *
  obtain ⟨-, ⟨ev, te, heq⟩, hevents⟩ := raiseResets_spec (List.range 8) u
  refine ⟨_, hexec, ?_, ?_, fun n hn => hevents n (List.mem_range.2 hn), ?_⟩ <;> rw [heq]
  · exact (congrArg (·.life.vfEnable) hlasting :)
  · exact fun n hn => ⟨hsessions n hn, hpolicies n⟩
  · exact (congrArg Lasting.time hlasting :)

/-- PERST# asserted on a running main side. -/
theorem perstAssert_spec (hperst : s.life.perst = false) (hmain : s.life.main ≠ .off) (hstage : s.sec.stage ≠ 7) :
    ∃ t, exec .perstAssert s = .next t ∧ t.life.perst = true ∧ t.life.linkUp = false ∧ t.life.vfEnable = false ∧ t.life.perstReset = true ∧
      (∀ n, n < 8 → t.sessionAt n = none ∧ (t.fnAt n).policy = 0) ∧ t.time = s.time ∧ t.tether.claims = s.tether.claims ∧
      t.power.cap = s.power.cap ∧ t.power.ballast = s.power.ballast ∧ t.power.account = s.power.account ∧ t.power.table = s.power.table ∧
      (∀ i, (t.islandAt i).curve = (s.islandAt i).curve) ∧ t.age.store = s.age.store := by
  have hexec := exec_perstAssert hperst
  rw [if_pos (by simpa [State.mainOn] using hmain)] at hexec
  generalize hv : (s.mapLife fun l => { l with perst := true }) = v at hexec
  have hv' : v.sec.stage ≠ 7 := by rw [← hv]; exact hstage
  have hspec := perstFunctions_spec v
  have hasserted : (perstFunctions v).life.perst = true := hspec.asserted.trans (by rw [← hv]; rfl)
  rw [resetOrHold_resets hv', runHeldReset_perst hasserted] at hexec
  generalize perstFunctions v = t at *
  subst hv
  obtain ⟨⟨down, hlasting⟩, hsessions, hpolicies⟩ := hspec
  refine ⟨_, hexec, hasserted, (congrArg (·.life.linkUp) hlasting :), (congrArg (·.life.vfEnable) hlasting :), (congrArg (·.life.perstReset) hlasting :),
    fun n hn => ⟨hsessions n hn, hpolicies n⟩, (congrArg Lasting.time hlasting :), (congrArg Lasting.claims hlasting :),
    (congrArg (·.power.cap) hlasting :), (congrArg (·.power.ballast) hlasting :), (congrArg (·.power.account) hlasting :),
    (congrArg (·.power.table) hlasting :), fun i => (congrArg (fun l => (Tab.getD l.islands i ({} : IslandS)).curve) hlasting :),
    (congrArg Lasting.store hlasting :)⟩

end Resets

/-- Settles O54: a reset is a pass over its functions, each of which ends what belongs to its context and leaves the module's scope. -/
theorem resetsEndWhatTheTableSays : Obligations.ResetsEndWhatTheTableSays := by
  unfold Obligations.ResetsEndWhatTheTableSays
  refine ⟨fun s n hmain hlink hpos hn hvf => ⟨fun hstage => ?_, functionReset_vf_spec hmain hlink hpos hn hvf⟩,
    fun s hmain hlink hstage => functionReset_pf_spec hmain hlink hstage, fun s hperst => ⟨fun hoff => ?_, perstAssert_spec hperst⟩,
    fun s hperst => ⟨fun hnone => ?_, fun hreset => ?_⟩,
    fun s n reg hlink hn => ⟨fun hstarting hearly w => exec_pcieConfigRequest_retry hlink hn hstarting hearly,
      fun hlate => exec_pcieConfigRequest_read hlink hn hlate⟩⟩
  · rw [exec_functionReset_vf hmain hlink hn hvf, resetOrHold_waits hstage]
  · rw [exec_perstAssert hperst]
    exact congrArg _ (if_neg (by simp [State.mainOn, hoff]))
  · rw [exec_perstDeassert hperst, if_neg (by rw [hnone]; exact Bool.false_ne_true)]
    rfl
  · have hexec := exec_perstDeassert hperst
    rw [if_pos hreset] at hexec
    exact ⟨_, _, hexec, rfl, rfl, rfl, rfl, rfl⟩

end Sys2Proof.Machine

/-! ## Safe stop over starts and resets -/

namespace Sys2Proof.Machine

section SafeStop

variable {s t : State}

theorem resetFunctions_safeStop (l : List Nat) (s : State) : (resetFunctions l s).life.safeStop = s.life.safeStop := by
  have hpass : (forEach l resetFunction s).life.safeStop = s.life.safeStop := (congrArg (·.life.safeStop) (resetPass_spec l s).1 :)
  unfold resetFunctions
  generalize forEach l resetFunction s = u at *
  dsimp only
  split <;> exact hpass

theorem functionReset_safeStop (n : Nat) (kind : FunctionResetKind) (s : State) : (functionReset n kind s).life.safeStop = s.life.safeStop := by
  have hraised (l : List Nat) (u : State) : (forEach l (fun n s => raiseReset (4 + 256 * n) s) u).life.safeStop = u.life.safeStop := by
    obtain ⟨ev, te, h⟩ := (raiseResets_spec l u).2.1
    rw [h]
  cases kind <;> unfold functionReset <;> dsimp only <;> rw [hraised]
  · exact resetFunctions_safeStop _ s
  · generalize (List.range 7).map (· + 1) = l
    exact resetFunctions_safeStop l s

theorem perstFunctions_safeStop (s : State) : (perstFunctions s).life.safeStop = s.life.safeStop := by
  obtain ⟨_, hlasting⟩ := (perstFunctions_spec s).lasting
  generalize perstFunctions s = t at *
  exact (congrArg (·.life.safeStop) hlasting :)

theorem resetOrHold_safeStop (k : Nat) (s : State) : (resetOrHold k s).life.safeStop = s.life.safeStop := by
  unfold resetOrHold runHeldReset
  split
  · rfl
  · split
    · exact functionReset_safeStop ..
    · split
      · exact functionReset_safeStop ..
      · have hsafe := perstFunctions_safeStop s
        generalize perstFunctions s = t at *
        dsimp only
        split <;> exact hsafe

end SafeStop

/-- Settles O52: the start sets its values from the claims and the ledger, and no reset writes safe stop. -/
theorem startSetsSupplyCapAndSafeStop : Obligations.StartSetsSupplyCapAndSafeStop := by
  unfold Obligations.StartSetsSupplyCapAndSafeStop
  refine ⟨fun s r hvaux hoff horder hcold hrails => ?_, fun s t h => ?_, fun s t n kind h => ?_, fun s t h => ?_⟩
  · obtain ⟨hsafe, hpower, hsupply⟩ := startMain_sets r s hrails
    obtain ⟨hcap, hballast⟩ := powered_power r s
    refine ⟨_, exec_mainSideStart r hvaux hoff horder hcold, hsafe, fun h => ?_, fun h => ?_, fun hvalid hstage hvotes l hl => ?_⟩
    · rw [hpower, hcap, hballast, bit, h]
      exact ⟨rfl, rfl⟩
    · rw [hpower, hcap, hballast, bit, h]
      exact ⟨rfl, rfl⟩
    · obtain ⟨hset, htarget⟩ := hsupply hvalid hstage hvotes
      exact ⟨hset.trans (by rw [hl]; rfl), htarget.trans hset.symm⟩
  · rw [exec, execStartupDone] at h
    rcases onTrigger_next h with rfl | rfl <;> rfl
  · rw [exec, execFunctionReset.eq_def] at h
    rcases onTrigger_next h with rfl | rfl
    · rfl
    · exact resetOrHold_safeStop ..
  · rcases h with h | h
    · rw [exec, execPerstAssert] at h
      rcases onTrigger_next h with rfl | rfl
      · rfl
      · dsimp only
        split
        · exact resetOrHold_safeStop ..
        · rfl
    · rw [exec, execPerstDeassert] at h
      rcases onTrigger_next h with rfl | rfl
      · rfl
      · dsimp only
        split <;> rfl

end Sys2Proof.Machine

/-! ## Start-up, supplies and heat -/

namespace Sys2Proof.Machine

section Startup

variable {s t : State} {r : StartReport}

/-! ### Events of the protection controller -/

/-- Whether an event may come out is a matter of the limits and of time. -/
theorem eventFree_congr (hlimit : t.eventLimit = s.eventLimit) (hticks : t.time.ticks = s.time.ticks) (k : Nat) : t.eventFree k = s.eventFree k := by
  unfold State.eventFree State.since
  rw [hlimit, hticks]

/-- Two octets side by side are one word of 16 bits. -/
theorem ofNat_octets (a b : Byte) : BitVec.ofNat 16 (a.toNat * 256 + b.toNat) = a ++ b := by
  have ha := a.isLt
  have hb := b.isLt
  refine BitVec.eq_of_toNat_eq ?_
  rw [BitVec.toNat_append, BitVec.toNat_ofNat, ← Nat.shiftLeft_add_eq_or_of_lt hb, Nat.shiftLeft_eq]
  omega

/-- A limited event comes out when its key is free. -/
theorem raisePinLimited_fires {code detail : Nat} (h : s.eventFree (code * 65536 + detail) = true) :
    ∃ e ∈ (raisePinLimited code detail s).events, e.code = BitVec.ofNat 16 code ∧ e.detail = BitVec.ofNat 16 detail := by
  unfold raisePinLimited State.raiseOncePerSecond
  rw [if_pos h]
  exact ⟨_, List.mem_append_right _ (List.mem_singleton.2 rfl), rfl, rfl⟩

theorem raisePinLimited_claims (code detail : Nat) (s : State) : (raisePinLimited code detail s).tether.claims = s.tether.claims := by
  unfold raisePinLimited State.raiseOncePerSecond
  split
  · exact (SideKept.raise ..).claims
  · rfl

/-- The newest event stands in the Tether's queue. -/
theorem mem_pushEvent (x : TetherS) (e : Event) : e ∈ (x.pushEvent e).queue := by
  unfold TetherS.pushEvent
  split <;> exact List.mem_append_right _ (List.mem_singleton.2 rfl)

/-- Device time at its start. -/
theorem devNs_zero (h : s.time = { ticks := s.time.ticks }) : s.devNs = 0 := by
  rw [State.devNs, h]
  simp

/-! ### VAUX (R668, R670, R892) -/

/-- The power-on reset, before the protection controller is polled. -/
def vauxOn (s : State) : State :=
  { pending := s.pending, outbox := s.outbox, hostMem := s.hostMem, hostBad := s.hostBad
    life := { v12 := s.life.v12, vsensOk := s.life.vsensOk, reversed := s.life.reversed, perst := s.life.perst, orderCodeA := s.life.orderCodeA }
    tiles := keptTiles s.tiles, dep := keptDep s.dep, age := keptAge s.age, sec := { keptSec s.sec with atBoot := [] }, epoch := s.epoch, free := s.free }

theorem pollReversed_claims (s : State) : (pollReversed s).tether.claims = s.tether.claims :=
  forEach_keeps (P := fun u => u.tether.claims = s.tether.claims) _ _ (fun _ _ _ hu => (raisePinLimited_claims ..).trans hu) rfl

theorem exec_vauxApplied (h : s.life.vaux = false) : exec .vauxApplied s = .next
    (match s.life.thermalPending with
    | some p => (pollReversed (vauxOn s)).raise 0x8F04 (p.1.toNat * 256 + p.2.toNat)
    | none => pollReversed (vauxOn s)) := by
  rw [exec, execVauxApplied]
  exact onTrigger_fires s _ (by rw [h]; rfl)

/-- The main side and the tether core off. -/
def vauxOff (s : State) : State :=
  { (stopMain s).mapLife fun l => { l with vaux := false } with tether := {}, cmds := [], islands := [] }

theorem exec_vauxLow (h : s.life.vaux = true) : exec .vauxLow s = .next (vauxOff s) := by
  rw [exec, execVauxLow]
  exact onTrigger_fires s _ h

/-! ### A start that fails, and one that succeeds (Table 22-1) -/

theorem startMain_railsFail (h : r.railsOk = false) : startMain r s = ((mainReset s).mapLife fun l => { l with needOrder := true }).raise 0x8E01 1 :=
  (startMain_eq r s).trans (if_pos h)

/-- Without two votes for an image the main side is in recovery mode. -/
theorem startMain_recovers (hrails : r.railsOk = true) (hvotes : (r.imageVotes.filter id).length < 2) :
    startMain r s = ((clocksUp r s).mapLife fun l => { l with main := .recovery }).raiseTether 0x8D05
      (if (clocksUp r s).sec.flashValid then 1 else 0) := by
  refine (startMain_eq r s).trans ((if_neg (by simp [hrails])).trans (if_neg ?_))
  simp [hvotes]

theorem startMain_boots (hrails : r.railsOk = true) (hvotes : 2 ≤ (r.imageVotes.filter id).length) (hvalid : s.sec.flashValid = true)
    (hstage : s.sec.stage < 7) : startMain r s = startRest r (startCores r.imageVotes (clocksUp r s)) := by
  obtain ⟨-, -, -, hsec, -⟩ := clocksUp_spec r s
  refine (startMain_eq r s).trans ((if_neg (by simp [hrails])).trans (if_pos ?_))
  change ((clocksUp r s).sec.flashValid && _) = true
  rw [hsec, keptSec, hvalid, decide_eq_true hstage, decide_eq_true hvotes]
  rfl

/-- With every engine in its pool, no kind is short (R908). -/
theorem shortKind_fresh (h : s.engines = []) : shortKind s = none := by
  have heq : shortKind s = shortKind ({} : State) := by
    unfold shortKind State.poolSize State.inPool State.engineAt
    rw [h]
  rw [heq]
  decide

/-- The tiles of the ledger retired, none having failed its test. -/
def retirePass (s : State) : State :=
  forEach (List.range 56) (fun t s => if s.ledgerRetired t then s.updTile t fun x => { x with state := 2 } else s) s

/-- A pass over tiles changes only tiles. -/
theorem forEach_tiles {α : Type} (l : List α) {f : α → State → State} (hf : ∀ x u, f x u = { u with tiles := (f x u).tiles }) (s : State) :
    forEach l f s = { s with tiles := (forEach l f s).tiles } :=
  forEach_keeps (P := fun u => u = { s with tiles := u.tiles }) l f (fun x _ u hu => by rw [hf, hu]) rfl

theorem retirePass_tiles (s : State) : retirePass s = { s with tiles := (retirePass s).tiles } :=
  forEach_tiles _ (fun _ _ => by split <;> rfl) s

theorem assignHalf_tiles (first : Nat) (s : State) : assignHalf first s = { s with tiles := (assignHalf first s).tiles } :=
  forEach_tiles _ (fun _ _ => rfl) s

/-- The tiles with their roles, where no lane and no tile fails its test. -/
def tileRoles (s : State) : State := assignHalf 28 (assignHalf 0 (retirePass (supplySet s)))

theorem startTiles_passing (s : State) : startTiles [] [] s =
    if (tilesIn (tileRoles s) 0).length < 52 then (tileRoles s).raise 0x8C09 2 else tileRoles s := by
  unfold startTiles
  extract_lets v s1 s2 s3 s4 s5
  have h2 : s2 = retirePass (supplySet s) := rfl
  clear_value s2
  have h5 : s5 = tileRoles s := by
    rw [tileRoles, ← h2]
    rfl
  rw [h5]

theorem retirePass_engines (s : State) : (retirePass s).engines = s.engines := by
  have h := retirePass_tiles s
  generalize retirePass s = u at *
  rw [h]

theorem assignHalf_engines (first : Nat) (s : State) : (assignHalf first s).engines = s.engines := by
  have h := assignHalf_tiles first s
  generalize assignHalf first s = u at *
  rw [h]

theorem tileRoles_engines (s : State) : (tileRoles s).engines = s.engines := by
  rw [tileRoles, assignHalf_engines, assignHalf_engines, retirePass_engines]
  rfl

/-- A start in which nothing fails ends with its tiles assigned. -/
theorem startRest_passes (hlanes : r.laneFails = []) (htiles : r.tileFails = []) (hhbm : r.hbmFail = none) (hengines : r.engineFails = [])
    (hfresh : s.engines = []) : startRest r s = startTiles [] [] (startStore r.badCalib s) := by
  have hpool : (startTiles [] [] (startStore r.badCalib s)).engines = [] := by
    have hassigned : (tileRoles (startStore r.badCalib s)).engines = [] := (tileRoles_engines _).trans hfresh
    rw [startTiles_passing]
    generalize tileRoles (startStore r.badCalib s) = u at *
    split <;> exact hassigned
  unfold startRest
  rw [hlanes, htiles, hhbm, hengines]
  generalize startTiles [] [] (startStore r.badCalib s) = u at *
  dsimp only
  rw [show startEngines [] u = u from rfl, shortKind_fresh hpool]

/-! ### Roles of the tiles (R905) -/

/-- With no entry of a retired tile the pass changes nothing. -/
theorem retirePass_none (h : ∀ e ∈ s.age.ledger, e.kind ≠ 3) : retirePass s = s := by
  have hnone (u : State) (hu : u = s) (n : Nat) : u.ledgerRetired n = false := by
    rw [State.ledgerRetired, List.any_eq_false]
    intro e he
    simp [h e (hu ▸ he)]
  exact forEach_keeps (P := fun u => u = s) _ _ (fun n _ u hu => by
    rw [if_neg (by rw [hnone u hu]; exact Bool.false_ne_true), hu]) rfl

/-- A half whose 28 tiles pass: 26 in service, two spare; the other half is left. -/
theorem assignHalf_states (first : Nat) (h : ∀ i, i < 28 → (s.tileAt (i + first)).state ≠ 2) :
    (∀ i, i < 28 → ((assignHalf first s).tileAt (i + first)).state = if i < 26 then 0 else 1) ∧
    ∀ k, (∀ i, i < 28 → k ≠ i + first) → (assignHalf first s).tileAt k = s.tileAt k := by
  have hall : (((List.range 28).map (· + first)).filter fun t => (s.tileAt t).state != 2) = (List.range 28).map (· + first) := by
    refine List.filter_eq_self.2 fun k hk => ?_
    obtain ⟨i, hi, rfl⟩ := List.mem_map.1 hk
    exact bne_iff_ne.2 (h i (List.mem_range.1 hi))
  have hpairs : ((List.range 28).map (· + first)).zip (List.range 28) = (List.range 28).map fun i => (i + first, i) := by
    simpa using List.zip_map' (f := (· + first)) (g := id) (l := List.range 28)
  rw [assignHalf, hall, hpairs]
  refine ⟨fun i hi => ?_, fun k hk => ?_⟩
  · refine forEach_establishes (P := fun _ => True) (Q := fun u => (u.tileAt (i + first)).state = if i < 26 then 0 else 1) _ _
      (fun _ _ _ _ => trivial) (fun e he u _ hu => ?_) (List.mem_map.2 ⟨i, List.mem_range.2 hi, rfl⟩) (fun u _ => ?_) trivial
    · obtain ⟨j, -, rfl⟩ := List.mem_map.1 he
      dsimp only
      rw [State.tileAt_updTile]
      split
      · next hsame => rw [Nat.add_right_cancel hsame]
      · exact hu
    · dsimp only
      rw [State.tileAt_updTile, if_pos rfl]
  · refine forEach_keeps (P := fun u => u.tileAt k = s.tileAt k) _ _ (fun e he u hu => ?_) rfl
    obtain ⟨j, hj, rfl⟩ := List.mem_map.1 he
    dsimp only
    rw [State.tileAt_updTile, if_neg (hk j (List.mem_range.1 hj))]
    exact hu

/-- Every tile having passed, 26 of each half are in service. -/
theorem tilesIn_assigned (h : ∀ k, k < 56 → (s.tileAt k).state ≠ 2) :
    tilesIn (assignHalf 28 (assignHalf 0 s)) 0 = List.range 26 ++ (List.range 26).map (· + 28) := by
  obtain ⟨hlow, hkept⟩ := assignHalf_states (s := s) 0 fun i hi => h (i + 0) (by omega)
  obtain ⟨hhigh, hkept'⟩ := assignHalf_states (s := assignHalf 0 s) 28 fun i hi => by
    rw [hkept (i + 28) fun j hj => by omega]
    exact h (i + 28) (by omega)
  have hstate (k : Nat) (hk : k ∈ List.range 56) :
      (((assignHalf 28 (assignHalf 0 s)).tileAt k).state == 0) = decide (k < 26 ∨ 28 ≤ k ∧ k < 54) := by
    have hlt := List.mem_range.1 hk
    rcases Nat.lt_or_ge k 28 with hk | hk
    · rw [hkept' k fun j _ => by omega, show k = k + 0 from rfl, hlow k hk]
      rcases Nat.lt_or_ge k 26 with h26 | h26
      · simp [h26]
      · rw [if_neg (by omega), decide_eq_false (by omega)]
        rfl
    · obtain ⟨i, rfl⟩ := Nat.exists_eq_add_of_le' hk
      rw [hhigh i (by omega)]
      rcases Nat.lt_or_ge i 26 with h26 | h26
      · rw [if_pos h26, decide_eq_true (by omega)]
        rfl
      · rw [if_neg (by omega), decide_eq_false (by omega)]
        rfl
  rw [tilesIn, List.filter_congr hstate]
  decide

/-- What flash keeps of a tile that is not in repair. -/
theorem tileAt_keptTiles {k : Nat} (h : (s.tileAt k).state < 2) : (Tab.getD (keptTiles s.tiles) k {}).state ≠ 2 := by
  rw [keptTiles, Tab.getD, Tab.get?_mapVals]
  rw [State.tileAt, Tab.getD] at h
  cases hk : Tab.get? s.tiles k with
  | none => exact Nat.zero_ne_add_one 1
  | some x =>
    rw [hk] at h
    change x.state < 2 at h
    change (if x.state = 3 then 2 else x.state) ≠ 2
    rw [if_neg (by omega)]
    omega

/-- The clocks of a start with a stable reference. -/
theorem clocksUp_stable (h : r.refStable = true) (s : State) : clocksUp r s = { powered r s with sources := (clocksUp r s).sources } := by
  rw [clocksUp, h]
  exact startClocks_stable _

/-- The state whose tiles a start tests. -/
def testedState (r : StartReport) (s : State) : State := startStore r.badCalib (startCores r.imageVotes (clocksUp r s))

theorem testedState_eq (h : r.refStable = true) (s : State) : testedState r s = { mainStopped (stopMain s).cmds s with
    life := (powered r s).life, power := (powered r s).power, free := (powered r s).free, sources := (clocksUp r s).sources
    dep := (testedState r s).dep, sec := (testedState r s).sec, events := (testedState r s).events, tether := (testedState r s).tether
    age := (testedState r s).age } := by
  obtain ⟨-, -, hcores⟩ := startCores_spec r.imageVotes (clocksUp r s)
  obtain ⟨hstore, -⟩ := startStore_spec r.badCalib (startCores r.imageVotes (clocksUp r s))
  have hclocks := clocksUp_stable h s
  have hpowered := powered_eq r s
  unfold testedState
  generalize startStore r.badCalib (startCores r.imageVotes (clocksUp r s)) = v at *
  generalize startCores r.imageVotes (clocksUp r s) = c at *
  generalize clocksUp r s = k at *
  generalize powered r s = p at *
  rw [hstore, hcores, hclocks, hpowered]

theorem testedState_claims (r : StartReport) (s : State) : (testedState r s).tether.claims = s.tether.claims := by
  obtain ⟨hclaims, -, -⟩ := startCores_spec r.imageVotes (clocksUp r s)
  exact (congrArg (·.tether.claims) (startStore_spec r.badCalib _).1 :).trans (hclaims.trans (clocksUp_spec r s).2.1)

theorem testedState_svn (r : StartReport) (s : State) : s.sec.svn ≤ (testedState r s).sec.svn := by
  obtain ⟨-, hsvn, -⟩ := startCores_spec r.imageVotes (clocksUp r s)
  obtain ⟨-, -, -, hsec, -⟩ := clocksUp_spec r s
  have hstore : (testedState r s).sec.svn = (startCores r.imageVotes (clocksUp r s)).sec.svn := (congrArg SecS.svn (startStore_spec r.badCalib _).2.1 :)
  rw [hstore]
  rw [hsec] at hsvn
  exact hsvn

theorem testedState_kinds (r : StartReport) (s : State) : ∀ e ∈ (testedState r s).age.ledger, e ∈ s.age.ledger ∨ e.kind = 7 := by
  intro e he
  obtain ⟨-, -, hcores⟩ := startCores_spec r.imageVotes (clocksUp r s)
  obtain ⟨-, -, -, -, hage⟩ := clocksUp_spec r s
  refine ((startStore_spec r.badCalib (startCores r.imageVotes (clocksUp r s))).2.2.2 e he).imp_left fun h => ?_
  rw [hcores] at h
  change e ∈ (clocksUp r s).age.ledger at h
  rw [hage] at h
  exact h

/-- A start in which nothing fails is the test of its tiles. -/
theorem startMain_tests (hrails : r.railsOk = true) (href : r.refStable = true) (hvotes : 2 ≤ (r.imageVotes.filter id).length)
    (hvalid : s.sec.flashValid = true) (hstage : s.sec.stage < 7) (hlanes : r.laneFails = []) (htiles : r.tileFails = []) (hhbm : r.hbmFail = none)
    (hengines : r.engineFails = []) : startMain r s = startTiles [] [] (testedState r s) := by
  have hfresh : (startCores r.imageVotes (clocksUp r s)).engines = [] := by
    have h := testedState_eq href s
    have hstore := (startStore_spec r.badCalib (startCores r.imageVotes (clocksUp r s))).1
    exact (congrArg State.engines hstore :).symm.trans (congrArg State.engines h :)
  rw [startMain_boots hrails hvotes hvalid hstage, startRest_passes hlanes htiles hhbm hengines hfresh]
  rfl

/-- Without a retired tile the tested tiles take the roles of 26 in service in each half. -/
theorem tilesIn_startTiles (hpass : ∀ k, k < 56 → (s.tileAt k).state ≠ 2) (hledger : ∀ e ∈ s.age.ledger, e.kind ≠ 3) :
    tilesIn (startTiles [] [] s) 0 = List.range 26 ++ (List.range 26).map (· + 28) := by
  have hroles : tileRoles s = assignHalf 28 (assignHalf 0 (supplySet s)) :=
    congrArg (fun u => assignHalf 28 (assignHalf 0 u)) (retirePass_none (s := supplySet s) hledger)
  have hin := tilesIn_assigned (s := supplySet s) hpass
  rw [← hroles] at hin
  rw [startTiles_passing]
  generalize tileRoles s = u at *
  split <;> exact hin

/-- The main side ready. -/
def readied (s : State) : State := (raiseReset s.life.startKind (s.mapLife fun l => { l with main := .ready })).raise 0x8E00
  (min 65535 (s.since s.life.startTick / msTicks 1))

theorem exec_startupDone (hstarting : s.life.main = .starting) (hstep : s.life.bootTick ≤ s.time.ticks) : exec .startupDone s = .next (readied s) := by
  rw [exec, execStartupDone]
  exact onTrigger_fires s _ (by rw [hstarting, State.step3Ended, decide_eq_true hstep]; rfl)

/-! ### 12 V and heat -/

/-- 12 V gone: the main side is off. -/
def supplyOut (s : State) : State := (if s.mainOn then stopMain s else s).mapLife fun l => { l with v12 := false, coldHold := false }

/-- Stopping a main side that is off is no step. -/
theorem stopped_eq (s : State) : (if s.mainOn then stopMain s else s).life.main = .off ∧
    (if s.mainOn then stopMain s else s).life.vaux = s.life.vaux ∧ (if s.mainOn then stopMain s else s).sec.flash = s.sec.flash ∧
    (if s.mainOn then stopMain s else s).hostMem = s.hostMem ∧ (if s.mainOn then stopMain s else s).eventLimit = s.eventLimit ∧
    (if s.mainOn then stopMain s else s).time.ticks = s.time.ticks := by
  split
  · rw [stopMain_eq]
    exact ⟨rfl, rfl, rfl, rfl, rfl, rfl⟩
  · next hon => exact ⟨by simpa [State.mainOn] using hon, rfl, rfl, rfl, rfl, rfl⟩

theorem exec_mainSupplyOutOfRange {high : Bool} (h : s.life.v12 = true) : exec (.mainSupplyOutOfRange high) s = .next
    (if (supplyOut s).life.vaux then raisePinLimited 0x8F00 (if high then 8 else 7) (supplyOut s) else supplyOut s) := by
  rw [exec, execMainSupplyOutOfRange]
  exact onTrigger_fires s _ h

theorem exec_mainSupplyReturn (h : s.life.v12 = false) : exec .mainSupplyReturn s =
    .next { s with life := { s.life with v12 := true, needOrder := false, startKind := 2, startTick := s.time.ticks } } := by
  rw [exec, execMainSupplyReturn, onTrigger_fires s _ (by rw [h]; rfl)]
  rfl

theorem exec_mainSupplyDropout (h : s.life.v12 = true) (hon : s.mainOn = true) : exec .mainSupplyDropout s = .next (droop 1 s) := by
  rw [exec, execMainSupplyDropout]
  exact onTrigger_fires s _ (by rw [h, hon]; rfl)

/-- A hot tile holds the lowest levels. -/
def fabricHeat (s : State) : State := (s.mapLife fun l => { l with fabricHot := true }).mapPower fun p => { p with hotHold := true }

theorem exec_thermalWarning_hot {sensor : Byte} (hvaux : s.life.vaux = true) (hsensor : sensor.toNat < 56) (hon : s.life.main ≠ .off) :
    exec (.thermalWarning sensor 1) s = .next (raisePinLimited 0x8F03 (sensor.toNat * 256 + 1) (fabricHeat s)) := by
  rw [exec, execThermalWarning, onTrigger_fires]
  · rfl
  · simp [thermalApplies, hvaux, hsensor, State.mainOn, hon]

theorem exec_thermalWarning_none {sensor : Byte} {cause : Nat} (h : 3 < cause) : exec (.thermalWarning sensor cause) s = .next s := by
  rw [exec, execThermalWarning, onTrigger_idle]
  obtain ⟨n, rfl⟩ := Nat.exists_eq_add_of_lt h
  rw [Nat.add_comm 3 n]
  exact Bool.and_false _

theorem exec_thermalShutdown_on {sensor temp : Byte} (hvaux : s.life.vaux = true) (hon : s.life.main ≠ .off) : exec (.thermalShutdown sensor temp) s =
    .next (((stopMain s).mapLife fun l => { l with needOrder := true }).raise 0x8F04 (sensor.toNat * 256 + temp.toNat)) := by
  rw [exec, execThermalShutdown, onTrigger_fires s _ (by simp [State.mainOn, hon])]
  exact congrArg _ (if_pos hvaux)

theorem exec_thermalShutdown_off {sensor temp : Byte} (hvaux : s.life.vaux = false) (hv12 : s.life.v12 = true) : exec (.thermalShutdown sensor temp) s =
    .next { s with life := { s.life with thermalPending := some (sensor, temp) } } := by
  rw [exec, execThermalShutdown, onTrigger_fires s _ (by simp [hvaux, hv12])]
  exact congrArg _ (if_neg (by simp [hvaux]))

/-! ### The rows -/

/-- The power-on reset. -/
theorem vauxApplied_spec (hvaux : s.life.vaux = false) :
    ∃ t, exec .vauxApplied s = .next t ∧ t.life.vaux = true ∧ t.life.main = .off ∧ t.tether.claims = 0 ∧ t.cmds = [] ∧ t.maps = [] ∧ t.objs = [] ∧
      t.devNs = 0 ∧ t.sec.flash = s.sec.flash ∧ t.sec.svn = s.sec.svn ∧ t.sec.ownerHash = s.sec.ownerHash ∧ t.age.ledger = s.age.ledger ∧
      t.hostMem = s.hostMem ∧ (∀ p, s.life.thermalPending = some p → ∃ e ∈ t.events, e.code = 0x8F04 ∧ e.detail = p.1 ++ p.2) := by
  have hexec := exec_vauxApplied hvaux
  have hclaims := pollReversed_claims (vauxOn s)
  obtain ⟨-, hframe⟩ := pollReversed_spec (vauxOn s)
  generalize pollReversed (vauxOn s) = t at *
  have hraised := (SideKept.raise t 0x8F04 ((s.life.thermalPending.getD (0, 0)).1.toNat * 256 + (s.life.thermalPending.getD (0, 0)).2.toNat)).claims
  cases hpending : s.life.thermalPending with
  | none =>
    rw [hpending] at hexec
    refine ⟨_, hexec, ?_, ?_, hclaims, ?_, ?_, ?_, devNs_zero ?_, ?_, ?_, ?_, ?_, ?_, fun p hp => by cases hp⟩ <;> rw [hframe] <;> rfl
  | some p =>
    rw [hpending] at hexec hraised
    refine ⟨_, hexec, ?_, ?_, hraised.trans hclaims, ?_, ?_, ?_, devNs_zero ?_, ?_, ?_, ?_, ?_, ?_, fun q hq =>
      ⟨_, List.mem_append_right _ (List.mem_singleton.2 rfl), rfl, by cases hq; exact ofNat_octets p.1 p.2⟩⟩ <;> rw [hframe] <;> rfl

/-- A start in which nothing fails. -/
theorem mainSideStart_passes (hvaux : s.life.vaux = true) (hoff : s.life.main = .off) (horder : s.life.v12 = false ∨ s.life.needOrder = false)
    (hcold : s.life.coldHold = false) (hrails : r.railsOk = true) (href : r.refStable = true) (hvotes : r.imageVotes = [true, true, true])
    (hlanes : r.laneFails = []) (htiles : r.tileFails = []) (hhbm : r.hbmFail = none) (hengines : r.engineFails = [])
    (hvalid : s.sec.flashValid = true) (hstage : s.sec.stage < 7) :
    ∃ t, exec (.mainSideStart r) s = .next t ∧ t.life.main = .starting ∧ t.life.v12 = true ∧ t.maps = [] ∧ t.objs = [] ∧ t.devNs = 0 ∧
      t.tether.claims = s.tether.claims ∧ t.hostMem = s.hostMem ∧ s.sec.svn ≤ t.sec.svn ∧
      ((∀ k, k < 56 → (s.tileAt k).state < 2) → (∀ e ∈ s.age.ledger, e.kind ≠ 3) → tilesIn t 0 = List.range 26 ++ (List.range 26).map (· + 28)) := by
  have hexec := exec_mainSideStart r hvaux hoff horder hcold
  rw [startMain_tests hrails href (by rw [hvotes]; decide) hvalid hstage hlanes htiles hhbm hengines] at hexec
  have htested := startTiles_tested [] [] (testedState r s)
  have hstate := testedState_eq href s
  have hclaims := testedState_claims r s
  have hsvn := testedState_svn r s
  have hkinds := testedState_kinds r s
  obtain ⟨-, hstarting, hv12⟩ := powered_life r s
  have hroles := tilesIn_startTiles (s := testedState r s)
  generalize testedState r s = v at *
  generalize powered r s = p at *
  have hframe := htested.frame
  have hclaims' := htested.claims
  generalize startTiles [] [] v = t at *
  refine ⟨_, hexec, ?_, ?_, ?_, ?_, devNs_zero ?_, hclaims'.trans hclaims, ?_, ?_, fun hpass hledger => hroles (fun k hk => ?_) fun e he => ?_⟩
  · rw [hframe]
    exact (congrArg (·.life.main) hstate :).trans hstarting
  · rw [hframe]
    exact (congrArg (·.life.v12) hstate :).trans hv12
  · rw [hframe]
    exact (congrArg State.maps hstate :)
  · rw [hframe]
    exact (congrArg State.objs hstate :)
  · rw [hframe]
    rw [hstate]
    rfl
  · rw [hframe]
    exact (congrArg State.hostMem hstate :)
  · rw [hframe]
    exact hsvn
  · rw [hstate]
    exact tileAt_keptTiles (hpass k hk)
  · rcases hkinds e he with he | he
    · exact hledger e he
    · rw [he]
      decide

/-- 12 V out of range. -/
theorem mainSupplyOutOfRange_spec (high : Bool) (hv12 : s.life.v12 = true) :
    ∃ t, exec (.mainSupplyOutOfRange high) s = .next t ∧ t.life.v12 = false ∧ t.life.main = .off ∧ t.sec.flash = s.sec.flash ∧ t.hostMem = s.hostMem ∧
      (s.life.vaux = true → s.eventFree (0x8F00 * 65536 + if high then 8 else 7) = true →
        ∃ e ∈ t.events, e.code = 0x8F00 ∧ e.detail = if high then 8 else 7) := by
  have hexec := exec_mainSupplyOutOfRange (high := high) hv12
  obtain ⟨hoff, hvaux, hflash, hmem, hlimit, hticks⟩ := stopped_eq s
  have hfree := eventFree_congr (s := s) (t := supplyOut s) hlimit hticks (0x8F00 * 65536 + if high then 8 else 7)
  change (supplyOut s).life.main = .off at hoff
  change (supplyOut s).life.vaux = s.life.vaux at hvaux
  change (supplyOut s).sec.flash = s.sec.flash at hflash
  change (supplyOut s).hostMem = s.hostMem at hmem
  have hlost : (supplyOut s).life.v12 = false := rfl
  generalize supplyOut s = u at *
  rw [hvaux] at hexec
  cases hon : s.life.vaux with
  | false =>
    rw [hon] at hexec
    exact ⟨_, hexec, hlost, hoff, hflash, hmem, fun h => by cases h⟩
  | true =>
    rw [hon, if_pos rfl] at hexec
    have hout := raisePinLimited_eq 0x8F00 (if high then 8 else 7) u
    refine ⟨_, hexec, (congrArg (·.life.v12) hout :).trans hlost, (congrArg (·.life.main) hout :).trans hoff,
      (congrArg (·.sec.flash) hout :).trans hflash, (congrArg State.hostMem hout :).trans hmem, fun _ h => ?_⟩
    obtain ⟨e, he, hcode, hdetail⟩ := raisePinLimited_fires (hfree.trans h)
    exact ⟨e, he, hcode, hdetail.trans (by cases high <;> rfl)⟩

/-- A thermal shutdown of a running main side. -/
theorem thermalShutdown_spec (sensor temp : Byte) (hvaux : s.life.vaux = true) (hon : s.life.main ≠ .off) :
    ∃ t, exec (.thermalShutdown sensor temp) s = .next t ∧ t.life.main = .off ∧ t.life.needOrder = true ∧ t.life.vaux = true ∧ t.maps = [] ∧
      (∃ e ∈ t.events, e.code = 0x8F04 ∧ e.detail = sensor ++ temp) ∧ t.sec.flash = s.sec.flash ∧ t.tether.claims = s.tether.claims := by
  refine ⟨_, exec_thermalShutdown_on hvaux hon, ?_, rfl, ?_, ?_, ⟨_, List.mem_append_right _ (List.mem_singleton.2 rfl), rfl, ofNat_octets ..⟩, ?_, ?_⟩
  · change (stopMain s).life.main = .off
    rw [stopMain_eq]
    rfl
  · change (stopMain s).life.vaux = true
    rw [stopMain_eq]
    exact hvaux
  · change (stopMain s).maps = []
    rw [stopMain_eq]
    rfl
  · change (stopMain s).sec.flash = s.sec.flash
    rw [stopMain_eq]
    rfl
  · refine (SideKept.raise ..).claims.trans ?_
    change (stopMain s).tether.claims = s.tether.claims
    rw [stopMain_eq]
    rfl

end Startup

/-- Settles O53: each row is a stop of the main side, a start by its steps, or an event with the record of its cause. -/
theorem startupSuppliesAndHeat : Obligations.StartupSuppliesAndHeat := by
  unfold Obligations.StartupSuppliesAndHeat
  refine ⟨fun s hvaux => vauxApplied_spec hvaux, fun s hvaux => ⟨?_, ?_⟩, fun s r hvaux hoff horder hcold => ⟨fun hrails => ?_, fun hrails hvotes => ?_,
      mainSideStart_passes hvaux hoff horder hcold⟩, fun s hstarting hstep => ?_, fun s high => mainSupplyOutOfRange_spec high,
    fun s hv12 => exec_mainSupplyReturn hv12, fun s hv12 hon => ?_, fun s sensor cause hvaux => ⟨fun hcause hsensor hon => ?_, exec_thermalWarning_none⟩,
    fun s sensor temp hvaux hon => thermalShutdown_spec sensor temp hvaux hon, fun s sensor temp => exec_thermalShutdown_off⟩
  · rw [exec, execVauxApplied]
    exact onTrigger_idle s _ (by rw [hvaux]; rfl)
  · refine ⟨_, exec_vauxLow hvaux, rfl, ?_, rfl, rfl, ?_, ?_, ?_⟩ <;> rw [vauxOff, stopMain_eq] <;> rfl
  · have hexec := exec_mainSideStart r hvaux hoff horder hcold
    rw [startMain_railsFail hrails] at hexec
    refine ⟨_, _, hexec, ?_, rfl, List.mem_append_right _ (List.mem_singleton.2 rfl), rfl, rfl, ?_⟩
    · change (stopMain s).life.main = .off
      rw [stopMain_eq]
      rfl
    · exact (SideKept.raise ..).claims.trans (congrArg (·.tether.claims) (mainReset_eq s) :)
  · have hexec := exec_mainSideStart r hvaux hoff horder hcold
    rw [startMain_recovers hrails hvotes] at hexec
    obtain ⟨-, hclaims, -, hsec, -⟩ := clocksUp_spec r s
    generalize clocksUp r s = t at *
    exact ⟨_, _, hexec, rfl, mem_pushEvent _ _, rfl, (congrArg SecS.svn hsec :), (TetherS.pushEvent_claims ..).trans hclaims⟩
  · exact ⟨_, _, _, exec_startupDone hstarting hstep, rfl, List.append_assoc .., rfl, rfl, rfl, rfl, rfl⟩
  · have hmain : s.mainOn = true := decide_eq_true hon
    have hexec := exec_mainSupplyDropout hv12 hmain
    obtain ⟨⟨k, hpower⟩, hframe⟩ := droop_drooped 1 s
    refine ⟨hexec.trans (exec_powerDroop hmain (by decide)).symm, _, hexec, ?_, ?_⟩
    · rw [hpower]
      rfl
    · exact (congrArg State.life hframe :)
  · subst hcause
    have hout := raisePinLimited_eq 0x8F03 (sensor.toNat * 256 + 1) (fabricHeat s)
    refine ⟨_, exec_thermalWarning_hot hvaux hsensor hon, (congrArg State.life hout :), (congrArg State.power hout :), fun hfree => ?_, ?_⟩
    · obtain ⟨e, he, hcode, hdetail⟩ := raisePinLimited_fires (s := fabricHeat s) hfree
      exact ⟨e, he, hcode, hdetail.trans (ofNat_octets sensor 1)⟩
    · generalize raisePinLimited 0x8F03 (sensor.toNat * 256 + 1) (fabricHeat s) = t at *
      rw [hout]
      rfl

end Sys2Proof.Machine

/-! ## Power states and safe stop -/

namespace Sys2Proof.Machine

/-! ### The Reel at a safe stop (Table 17-7) -/

section Reel

variable {s t u : State}

theorem forEach_reel {α : Type} {l : List α} {f : α → State → State} {s : State} (h : ∀ x u, (f x u).reel = u.reel) : (forEach l f s).reel = s.reel :=
  forEach_keeps (P := fun u => u.reel = s.reel) l f (fun x _ u hu => (h x u).trans hu) rfl

@[simp] theorem State.requestMove_reel (s : State) (cls : Nat) (j : MoveJob) : (s.requestMove cls j).reel = s.reel := by
  unfold State.requestMove
  split <;> rfl

@[simp] theorem State.unclaim_reel (s : State) (k tier n : Nat) : (s.unclaim k tier n).reel = s.reel := by
  unfold State.unclaim State.credit
  dsimp only
  (repeat' split) <;> simp

@[simp] theorem State.dropWeights_reel (s : State) (n : Nat) (l : List (Nat × Bool)) : (s.dropWeights n l).reel = s.reel :=
  forEach_reel fun w u => by
    dsimp only
    split <;> simp

@[simp] theorem freeChannel_reel (ch : Nat) (s : State) : (freeChannel ch s).reel = s.reel := by
  unfold freeChannel dropChange
  dsimp only
  (repeat' split) <;> rfl

@[simp] theorem State.recoveryEnd_reel (s : State) (id : Nat) : (s.recoveryEnd id).reel = s.reel := by
  unfold State.recoveryEnd
  split <;> rfl

@[simp] theorem State.freeBandsOf_reel (s : State) (n : Nat) : (s.freeBandsOf n).reel = s.reel := by
  have h := (State.freeBandsOf_spec s n).state
  generalize s.freeBandsOf n = t at *
  rw [h]

@[simp] theorem State.noteIdle_reel (s : State) : s.noteIdle.reel = s.reel := by
  unfold State.noteIdle
  split <;> rfl

@[simp] theorem State.releaseAdmission_reel (s : State) (n : Nat) : (s.releaseAdmission n).reel = s.reel := State.freeBandsOf_reel s n

@[simp] theorem State.ringWrite_reel (s : State) (n k : Nat) (b : List Byte) : (s.ringWrite n k b).reel = s.reel := by
  unfold State.ringWrite
  split
  · rfl
  · dsimp only
    rw [State.updSession_reel]
    split <;> rfl

@[simp] theorem State.noteLatency_reel (s : State) (n : Nat) (start : Option Nat) : (s.noteLatency n start).reel = s.reel := by
  unfold State.noteLatency
  split <;> simp

@[simp] theorem State.record_reel (s : State) (n k : Nat) (h : RecHead) (body : List Byte) : (s.record n k h body).reel = s.reel := by
  unfold State.record
  split
  · rfl
  · extract_lets r b s1 s2
    have h1 : s1.reel = s.reel := State.updSession_reel ..
    have h2 : s2.reel = s.reel := by
      unfold s2
      split <;> exact h1
    split
    · rw [State.noteLatency_reel, State.ringWrite_reel, h2]
    · exact h2

@[simp] theorem State.msix_reel (s : State) (fn v : Nat) : (s.msix fn v).reel = s.reel := by
  unfold State.msix
  split <;> rfl

@[simp] theorem healthRecord_reel (n code detail : Nat) (fin : Int) (s : State) : (healthRecord n code detail fin s).reel = s.reel := by
  unfold healthRecord
  split
  · rfl
  · dsimp only
    split <;> simp

/-- No entry is armed and no pulse is high. -/
def State.ReelQuiet (s : State) : Prop := ∀ k r, Tab.get? s.reel k = some r → r.state ≠ 2 ∧ r.pulses = []

theorem State.ReelQuiet.of_eq (hs : s.ReelQuiet) (h : t.reel = s.reel) : t.ReelQuiet := fun k r hr => hs k r (h ▸ hr)

/-- A change of every entry that leaves it, or frees it. -/
theorem State.ReelQuiet.mapVals (hs : s.ReelQuiet) {f : Nat → ReelEntry → ReelEntry} (hf : ∀ k r, f k r = r ∨ f k r = r.freed)
    (ht : t.reel = Tab.mapVals s.reel f) : t.ReelQuiet := by
  intro k r hr
  rw [ht, Tab.get?_mapVals] at hr
  obtain ⟨y, hy, rfl⟩ := Option.map_eq_some_iff.1 hr
  obtain ⟨hstate, hpulses⟩ := hs k y hy
  rcases hf k y with h | h <;> rw [h]
  · exact ⟨hstate, hpulses⟩
  · exact ⟨Nat.zero_ne_add_one 1, hpulses⟩

/-- The entries of a session freed. -/
theorem State.ReelQuiet.freeEntries (hs : s.ReelQuiet) (n : Nat) (l : List Nat) :
    (forEach l (fun e s => s.updReel e fun r => if r.session && r.owner == n then r.freed else r) s).ReelQuiet := by
  refine forEach_keeps (P := State.ReelQuiet) l _ (fun e _ u hu k r hr => ?_) hs
  have hquiet : (Tab.getD u.reel e {}).state ≠ 2 ∧ (Tab.getD u.reel e {}).pulses = [] := by
    rw [Tab.getD]
    cases hget : Tab.get? u.reel e with
    | none => exact ⟨Nat.zero_ne_add_one 1, rfl⟩
    | some y => exact hu e y hget
  change Tab.get? (Tab.upd u.reel e {} _) k = some r at hr
  rw [Tab.get?_upd] at hr
  split at hr
  · cases hr
    split
    · exact ⟨Nat.zero_ne_add_one 1, hquiet.2⟩
    · exact hquiet
  · exact hu k r hr

theorem endSession_quiet (n : Nat) (hs : s.ReelQuiet) : (endSession n s).ReelQuiet := by
  unfold endSession
  split
  · exact hs
  · next x _ =>
    extract_lets s1 s2 s3 s4 mine s5 s6 loops s7 s8 s9
    have h2 : s2.ReelQuiet := (hs.of_eq (State.dropWeights_reel ..) : s1.ReelQuiet).freeEntries n x.entries
    have h3 : s3.reel = s2.reel := forEach_reel fun ch u => by split <;> simp
    have h4 : s4.reel = s3.reel := forEach_reel fun _ _ => rfl
    have h7 : s7.reel = s4.reel := forEach_reel fun _ _ => rfl
    refine h2.of_eq ((State.noteIdle_reel _).trans ((State.releaseAdmission_reel ..).trans ?_))
    exact h7.trans (h4.trans h3)

theorem settleStop_quiet (n : Nat) (hs : s.ReelQuiet) : (settleStop n s).ReelQuiet := by
  unfold settleStop
  split
  · exact hs
  · next x _ =>
    split
    · exact hs
    · extract_lets s1 s2 s3
      have h2 : s2.ReelQuiet := by
        unfold s2
        split
        · exact hs
        · exact (hs.of_eq (State.updSession_reel ..) : s1.ReelQuiet).freeEntries n x.entries
      have h3 : s3.ReelQuiet := h2.of_eq (forEach_reel fun _ _ => rfl)
      split
      · exact h3
      · exact (endSession_quiet n h3).of_eq (forEach_reel fun _ _ => rfl)

theorem stopSession_quiet (detail n : Nat) (hs : s.ReelQuiet) : (stopSession detail n s).ReelQuiet := by
  unfold stopSession
  split
  · exact hs
  · exact settleStop_quiet n (hs.of_eq ((State.updSession_reel ..).trans (healthRecord_reel ..)))

theorem State.ReelQuiet.releaseContext_quiet (n : Nat) (hs : s.ReelQuiet) : (s.releaseContext n).ReelQuiet := by
  unfold State.releaseContext
  split
  · exact hs
  · extract_lets s1 s2
    have h1 : s1.reel = s.reel := by
      unfold s1
      split <;> rfl
    have h2 : s2.ReelQuiet := hs.mapVals (f := fun _ e => if e.owner = n ∧ e.state ≠ 0 then e.freed else e)
      (fun _ _ => (ite_eq_or_eq _ _ _).symm) (by rw [← h1])
    exact h2.of_eq ((State.noteIdle_reel _).trans (State.releaseAdmission_reel ..))

theorem stopReel_quiet (s : State) : (stopReel s).ReelQuiet := by
  intro k r hr
  rw [stopReel, Tab.get?_mapVals] at hr
  obtain ⟨y, -, rfl⟩ := Option.map_eq_some_iff.1 hr
  refine ⟨?_, rfl⟩
  dsimp only
  split <;> omega

/-! ### What a safe stop does to the main side -/

@[simp] theorem enterPower_standing (n : Nat) (s : State) : (enterPower n s).standing = s.standing := by
  unfold enterPower
  split
  · rfl
  · exact (State.raise_standing ..).trans (State.mapLife_standing fun _ => rfl)

theorem enterPower_state (n : Nat) (s : State) : (enterPower n s).life.powerState = n := by
  unfold enterPower
  split
  · assumption
  · rfl

theorem enterPower_eq (n : Nat) (s : State) : enterPower n s = { s with
    life := (enterPower n s).life, events := (enterPower n s).events, tether := (enterPower n s).tether } := by
  unfold enterPower
  split <;> rfl

theorem stopSupplies_eq (l : List Nat) (s : State) : forEach l stopSupply s = { s with ports := (forEach l stopSupply s).ports } := by
  refine forEach_keeps (P := fun u => u = { s with ports := u.ports }) l stopSupply (fun p _ u hu => ?_) rfl
  unfold stopSupply
  dsimp only
  split
  · rw [hu]
    rfl
  · exact hu

/-- The reel is quiet, the module idle, and what stands stands. -/
structure SafelyStopped (s t : State) : Prop where
  calm : t.standing.calm = s.standing.calm
  power : t.life.powerState = 1
  reel : t.ReelQuiet

theorem safeStopActions_spec (detail : Nat) (s : State) : SafelyStopped s (safeStopActions detail s) := by
  unfold safeStopActions
  extract_lets s1 s2 s3
  have h1 : s1.standing.calm = s.standing.calm := (forEach_calm fun n u => stopSession_calm detail n u).trans (congrArg Standing.calm (stopReel_standing s))
  have h2 : s2.standing.calm = s1.standing.calm :=
    forEach_calm (f := fun n s => s.releaseContext n) fun n u => calm_of_outer (outer_of_unloaded (State.releaseContext_unloaded u n))
  have h3 : s3.standing = s2.standing := forEach_standing fun p u => stopSupply_standing p u
  have q1 : s1.ReelQuiet := forEach_keeps _ _ (fun n _ _ hu => stopSession_quiet detail n hu) (stopReel_quiet s)
  have q2 : s2.ReelQuiet := forEach_keeps (f := fun n s => s.releaseContext n) _ (fun n _ _ hu => hu.releaseContext_quiet n) q1
  have q3 : s3.ReelQuiet := by
    have hports : s3 = { s2 with ports := s3.ports } := stopSupplies_eq supplyPorts s2
    clear_value s3
    exact q2.of_eq (by rw [hports])
  clear_value s3
  exact ⟨by rw [enterPower_standing, h3, h2, h1], enterPower_state 1 s3, q3.of_eq (congrArg State.reel (enterPower_eq 1 s3) :)⟩

/-- Where no context has a session or a program, only the Reel, the supplies and the power state are touched. -/
theorem safeStopActions_idle (detail : Nat) (h : ∀ k, k < 8 → s.sessionAt k = none ∧ (s.ctxAt k).image = none) : safeStopActions detail s = { s with
    reel := (safeStopActions detail s).reel, ports := (safeStopActions detail s).ports, life := (safeStopActions detail s).life
    events := (safeStopActions detail s).events, tether := (safeStopActions detail s).tether } := by
  have hsessions : s.sessionCtxs = [] := (sessionCtxs_eq_nil_iff s).2 fun n hn => (h n hn).1
  have hrelease (u : State) (hu : u.ctxs = s.ctxs) : forEach (List.range 8) (fun n s => s.releaseContext n) u = u := by
    refine forEach_keeps (P := fun v => v = u) _ _ (fun n hn v hv => ?_) rfl
    have hnone : (v.ctxAt n).image = none := by
      rw [hv]
      exact (congrArg (fun t => (Tab.getD t n ({} : CtxS)).image) hu).trans (h n (List.mem_range.1 hn)).2
    rw [State.releaseContext, hnone, hv]
  unfold safeStopActions
  rw [hsessions]
  extract_lets s1 s2 s3
  have h1 : s1 = stopReel s := rfl
  have h2 : s2 = s1 := hrelease s1 rfl
  clear_value s2
  have h3 : s3 = { s2 with ports := s3.ports } := stopSupplies_eq supplyPorts s2
  have h4 := enterPower_eq 1 s3
  generalize enterPower 1 s3 = t at *
  clear_value s1 s3
  rw [h4, h3, h2, h1]
  rfl

end Reel

/-! ### SAFE_STOP (R672 to R674) -/

section SafeStop

variable {s t u : State} {c : CmdRef} {m : Cmd}

/-- The host commands other than one that have neither committed nor ended. -/
def State.openOthers (s : State) (c : CmdRef) : List Cmd := s.cmds.filter fun x => !x.isTether && x.open_ && decide (x.ref ≠ c)

theorem State.openOthers_eq (s : State) (c : CmdRef) : s.openHost.filter (fun x => decide (x.ref ≠ c)) = s.openOthers c := by
  rw [State.openHost, List.filter_filter, State.openOthers]
  exact List.filter_congr fun x _ => Bool.and_comm ..

/-- A change of the one command leaves the others as they are. -/
theorem State.openOthers_updCmd (s : State) (c : CmdRef) {f : Cmd → Cmd} (hf : ∀ m, (f m).ref = m.ref) : (s.updCmd c f).openOthers c = s.openOthers c := by
  have hsame (x : Cmd) : ((!(if x.ref = c then f x else x).isTether && (if x.ref = c then f x else x).open_ &&
      decide ((if x.ref = c then f x else x).ref ≠ c)) = (!x.isTether && x.open_ && decide (x.ref ≠ c))) := by
    split
    · next h => rw [hf, h, decide_eq_false (not_not.2 rfl), Bool.and_false, Bool.and_false]
    · rfl
  rw [State.openOthers, State.updCmd, List.filter_map, Function.comp_def]
  simp only [hsame]
  refine (List.map_congr_left fun x hx => ?_).trans (List.map_id _)
  obtain ⟨-, hne⟩ := Bool.and_eq_true_iff.1 (List.mem_filter.1 hx).2
  exact if_neg (of_decide_eq_true hne)

/-- The state of a safe stop once its sender's claim is made. -/
def stopClaimed (m : Cmd) (c : CmdRef) (s : State) : State := (if m.isTether then claimDomains 0x8000 (s.began c) else s.began c).commit c

/-- The claim of a safe stop (R672). -/
structure StopClaimed (m : Cmd) (c : CmdRef) (s t : State) : Prop where
  frame : t = { s with cmds := t.cmds, tether := t.tether, events := t.events }
  cmds : t.cmds = ((s.began c).commit c).cmds
  tether : m.isTether = true → t.tether.claims = s.tether.claims ||| 0x8000
  host : m.isTether = false → t.tether = s.tether ∧ t.events = s.events

theorem stopClaimed_spec (m : Cmd) (c : CmdRef) (s : State) : StopClaimed m c s (stopClaimed m c s) := by
  unfold stopClaimed
  cases hm : m.isTether with
  | false => exact ⟨rfl, rfl, fun h => absurd (hm.symm.trans h) Bool.false_ne_true, fun _ => ⟨rfl, rfl⟩⟩
  | true =>
    obtain ⟨hclaims, -, -, -, hframe⟩ := claimsChanged_spec (s.began c) ((s.began c).tether.claims ||| 0x8000) (0x8000 &&& ~~~ (s.began c).tether.claims)
      0x8000 (claimDetail (0x8000 &&& ~~~ (s.began c).tether.claims)) (fresh_eq_zero_iff ..) (claimDomains 0x8000 (s.began c)) rfl
    rw [if_pos rfl]
    generalize claimDomains 0x8000 (s.began c) = u at *
    refine ⟨?_, ?_, fun _ => hclaims, fun h => nomatch hm.symm.trans h⟩
    · rw [hframe]
      rfl
    · rw [hframe]
      rfl

/-- The DETAIL of SAFE_STOP_ENTERED: who sent it, and how many host commands it ended. -/
def stopDetail (m : Cmd) (c : CmdRef) (s : State) : Nat := (if m.isTether then 256 else 0) + min 255 (s.openOthers c).length

/-- The state once the host's commands have ended. -/
def stopEnded (m : Cmd) (c : CmdRef) (s : State) : State :=
  forEach (s.openOthers c) endAborted ((stopClaimed m c s).mapLife fun x => { x with safeStop := true })

def stopActed (m : Cmd) (c : CmdRef) (s : State) : State :=
  if (stopEnded m c s).mainOn then safeStopActions (stopDetail m c s) (stopEnded m c s) else stopEnded m c s

theorem exec_safeStop_again (h : s.runs c 0x0C00 m) (hstop : s.life.safeStop = true) :
    exec (.safeStop c) s = .next ((stopClaimed m c s).done c OK 0x0001) := by
  rw [exec, execSafeStop, onCmd_runs _ h]
  exact congrArg _ (if_pos hstop)

theorem exec_safeStop_first (h : s.runs c 0x0C00 m) (hstop : s.life.safeStop = false) :
    exec (.safeStop c) s = .next (((stopActed m c s).raise 0x8002 (stopDetail m c s)).done c) := by
  have hopen : (stopClaimed m c s).openHost.filter (fun x => decide (x.ref ≠ c)) = s.openOthers c := by
    rw [State.openOthers_eq]
    have hcmds : (stopClaimed m c s).openOthers c = ((s.began c).commit c).openOthers c :=
      congrArg (List.filter fun x : Cmd => !x.isTether && x.open_ && decide (x.ref ≠ c)) (stopClaimed_spec m c s).cmds
    exact hcmds.trans ((State.openOthers_updCmd _ c fun m => by split <;> rfl).trans (State.openOthers_updCmd s c fun _ => rfl))
  have hstop' : (s.began c).life.safeStop = false := hstop
  rw [exec, execSafeStop, onCmd_runs _ h]
  refine (congrArg _ (if_neg (by rw [hstop']; exact Bool.false_ne_true)) : _).trans ?_
  rw [stopActed, stopEnded, stopDetail, ← hopen]
  rfl

theorem findCmd_isSome_iff (s : State) (c : CmdRef) : (s.findCmd c).isSome ↔ c ∈ s.standing.refs := by
  simp [State.findCmd, State.standing, cmdRefs, List.find?_isSome]

/-- What stands through a first safe stop. -/
theorem stopActed_spec (m : Cmd) (c : CmdRef) (s : State) :
    (stopActed m c s).standing.calm = ((stopClaimed m c s).mapLife fun x => { x with safeStop := true }).standing.calm ∧
    (s.mainOn = true → (stopActed m c s).life.powerState = 1 ∧ (stopActed m c s).ReelQuiet) := by
  have hended : (stopEnded m c s).standing.calm = ((stopClaimed m c s).mapLife fun x => { x with safeStop := true }).standing.calm :=
    calm_of_outer (forEach_outer endAborted_outer)
  have hclaimed := stopClaimed_spec m c s
  have hon : (stopEnded m c s).mainOn = s.mainOn := by
    have hmain := congrArg (fun x : List Instr × Lasting × (Nat → Option Nat) × List CmdRef => decide (x.2.1.life.main ≠ .off)) hended
    generalize stopEnded m c s = u at *
    generalize stopClaimed m c s = v at *
    exact Eq.trans hmain (by rw [hclaimed.frame]; rfl)
  have hstopped := safeStopActions_spec (stopDetail m c s) (stopEnded m c s)
  rw [stopActed, hon]
  split
  · exact ⟨hstopped.calm.trans hended, fun _ => ⟨hstopped.power, hstopped.reel⟩⟩
  · next hoff => exact ⟨hended, fun h => absurd h hoff⟩

/-- A first safe stop. -/
theorem safeStop_stops (h : s.runs c 0x0C00 m) (hstop : s.life.safeStop = false) :
    ∃ t pre e, exec (.safeStop c) s = .next t ∧ t.answered c OK 0 [] ∧ t.life.safeStop = true ∧ t.events = pre ++ [e] ∧
      e.code = 0x8002 ∧ (m.isTether = true → 256 ≤ e.detail.toNat ∧ t.tether.claims = s.tether.claims ||| 0x8000) ∧
      e.detail.toNat % 256 = min 255 (s.openOthers c).length ∧
      (s.mainOn = true → t.life.powerState = 1 ∧ ∀ k r, Tab.get? t.reel k = some r → r.state ≠ 2 ∧ r.pulses = []) ∧
      t.time = s.time ∧ t.sources = s.sources ∧ t.pending = s.pending ∧ ∀ p, (t.portAt p).owner = (s.portAt p).owner := by
  have hexec := exec_safeStop_first h hstop
  obtain ⟨hcalm, hacted⟩ := stopActed_spec m c s
  have hclaimed := stopClaimed_spec m c s
  have hdetail : (BitVec.ofNat 16 (stopDetail m c s)).toNat = stopDetail m c s := by
    rw [BitVec.toNat_ofNat, stopDetail]
    split <;> omega
  have hfound : c ∈ ((stopClaimed m c s).mapLife fun x => { x with safeStop := true }).standing.refs := by
    refine (findCmd_isSome_iff _ c).1 ?_
    have hcmds : (stopClaimed m c s).findCmd c = ((s.began c).commit c).findCmd c := State.findCmd_congr hclaimed.cmds c
    change ((stopClaimed m c s).findCmd c).isSome = true
    rw [hcmds]
    simp [h.1]
  generalize stopClaimed m c s = v at *
  have hclaims := (SideKept.raise (stopActed m c s) 0x8002 (stopDetail m c s)).claims
  generalize stopActed m c s = u at *
  simp only [Standing.calm, Prod.mk.injEq] at hcalm
  obtain ⟨hpending, hlasting, howners, hrefs⟩ := hcalm
  have hcmd : ((u.raise 0x8002 (stopDetail m c s)).findCmd c).isSome := (findCmd_isSome_iff u c).2 (hrefs ▸ hfound)
  refine ⟨_, _, _, hexec, State.answered_done OK 0 [] [] hcmd, (congrArg (·.life.safeStop) hlasting :), rfl, rfl, fun htether => ⟨?_, ?_⟩, ?_, hacted,
    ?_, ?_, ?_, fun p => ?_⟩
  · change 256 ≤ (BitVec.ofNat 16 (stopDetail m c s)).toNat
    rw [hdetail, stopDetail, if_pos htether]
    omega
  · exact hclaims.trans ((congrArg Lasting.claims hlasting :).trans (hclaimed.tether htether))
  · change (BitVec.ofNat 16 (stopDetail m c s)).toNat % 256 = _
    rw [hdetail, stopDetail]
    split <;> omega
  · exact (congrArg Lasting.time hlasting :).trans (congrArg State.time hclaimed.frame :)
  · exact (congrArg Lasting.sources hlasting :).trans (congrArg State.sources hclaimed.frame :)
  · exact Eq.trans hpending (congrArg State.pending hclaimed.frame :)
  · exact Eq.trans (congrFun howners p) (congrArg (fun u => (u.portAt p).owner) hclaimed.frame :)

/-- Commands that have only been armed end with ABORTED, and nothing else changes. -/
theorem endArmed_spec {l : List Cmd} (hl : ∀ x ∈ l, x.open_ = true ∧ x.phase = .armed) (s : State) :
    forEach l endAborted s = { s with cmds := (forEach l endAborted s).cmds } ∧
    ∀ x ∈ l, (s.findCmd x.ref).isSome → ∃ r, (forEach l endAborted s).replyOf x.ref = some r ∧ r.status = 0x0300 := by
  have hstep (x : Cmd) (hx : x ∈ l) (u : State) : endAborted x u = u.refuseOpen x.ref ABORTED := by
    obtain ⟨hopen, harmed⟩ := hl x hx
    rw [endAborted, if_neg (by rw [hopen]; exact Bool.false_ne_true.symm), if_pos harmed]
  refine ⟨forEach_keeps (P := fun u => u = { s with cmds := u.cmds }) l _ (fun x hx u hu => ?_) rfl, fun x hx hfound => ?_⟩
  · rw [hstep x hx u]
    exact Eq.trans rfl (congrArg (fun v : State => { v with cmds := (u.refuseOpen x.ref ABORTED).cmds }) hu)
  · refine forEach_establishes (P := fun u => (u.findCmd x.ref).isSome) (Q := fun u => ∃ r, u.replyOf x.ref = some r ∧ r.status = 0x0300) l _
      (fun y hy u hu => ?_) (fun y hy u hu hreply => ?_) hx (fun u hu => ?_) hfound
    · rw [hstep y hy u]
      exact (findCmd_isSome_iff _ _).2 ((congrArg Standing.refs (u.refuseOpen_standing y.ref ABORTED)).symm ▸ (findCmd_isSome_iff _ _).1 hu)
    · rw [hstep y hy u]
      by_cases hsame : x.ref = y.ref
      · rw [hsame] at hu ⊢
        exact ⟨_, State.replyOf_endCmd _ hu, rfl⟩
      · obtain ⟨r, hr, hstatus⟩ := hreply
        refine ⟨r, ?_, hstatus⟩
        rw [State.replyOf, State.refuseOpen, State.findCmd_endCmd, if_neg hsame]
        exact hr
    · rw [hstep x hx u]
      exact ⟨_, State.replyOf_endCmd _ hu, rfl⟩

/-- A first safe stop with no session and no program, and no host command started. -/
theorem safeStop_idle (h : s.runs c 0x0C00 m) (hstop : s.life.safeStop = false) (hidle : ∀ k, k < 8 → s.sessionAt k = none ∧ (s.ctxAt k).image = none)
    (harmed : ∀ x ∈ s.cmds, x.ref ≠ c → x.isTether = false → x.open_ = true → x.phase = .armed) :
    ∃ t, exec (.safeStop c) s = .next t ∧
      (∀ d x, d ≠ c → x.ref = d → s.findCmd d = some x → x.isTether = false → x.open_ = true → ∃ r, t.replyOf d = some r ∧ r.status = 0x0300) ∧
      t = { s with cmds := t.cmds, life := t.life, reel := t.reel, ports := t.ports, events := t.events, tether := t.tether } := by
  have hexec := exec_safeStop_first h hstop
  have hclaimed := stopClaimed_spec m c s
  obtain ⟨hended, hreplies⟩ := endArmed_spec (l := s.openOthers c) (fun x hx => by
    obtain ⟨hmem, hopen⟩ := List.mem_filter.1 hx
    simp only [Bool.and_eq_true, Bool.not_eq_true', decide_eq_true_eq] at hopen
    obtain ⟨⟨hhost, hopen⟩, hne⟩ := hopen
    exact ⟨hopen, harmed x hmem hne hhost hopen⟩) ((stopClaimed m c s).mapLife fun x => { x with safeStop := true })
  change stopEnded m c s = _ at hended
  have hidle' := safeStopActions_idle (s := stopEnded m c s) (stopDetail m c s) fun k hk => by
    have hctxs : (stopEnded m c s).ctxs = s.ctxs := (congrArg State.ctxs hended :).trans (congrArg State.ctxs hclaimed.frame :)
    have hctx : (stopEnded m c s).ctxAt k = s.ctxAt k := congrArg (fun t => Tab.getD t k ({} : CtxS)) hctxs
    rw [State.sessionAt, hctx]
    exact hidle k hk
  have hacted : stopActed m c s = { stopEnded m c s with
      reel := (stopActed m c s).reel, ports := (stopActed m c s).ports, life := (stopActed m c s).life
      events := (stopActed m c s).events, tether := (stopActed m c s).tether } := by
    rw [stopActed]
    split
    · exact hidle'
    · rfl
  have hfound (d : CmdRef) (hd : d ≠ c) : (stopClaimed m c s).findCmd d = s.findCmd d := by
    rw [State.findCmd_congr hclaimed.cmds]
    simp [hd]
  change ∀ x ∈ s.openOthers c, ((stopClaimed m c s).findCmd x.ref).isSome → ∃ r, (stopEnded m c s).replyOf x.ref = some r ∧ r.status = 0x0300 at hreplies
  refine ⟨_, hexec, fun d x hd hx hget hhost hopen => ?_, ?_⟩
  · subst hx
    have hmem : x ∈ s.openOthers c := List.mem_filter.2 ⟨List.mem_of_find?_eq_some hget, by simp [hhost, hopen, hd]⟩
    obtain ⟨r, hr, hstatus⟩ := hreplies x hmem (by rw [hfound _ hd, hget]; rfl)
    refine ⟨r, ?_, hstatus⟩
    have hcmds : ((stopActed m c s).raise 0x8002 (stopDetail m c s)).cmds = (stopEnded m c s).cmds := (congrArg State.cmds hacted :)
    rw [State.replyOf, otherCmds_done _ c 0 0 [] [] _ hd, State.findCmd_congr hcmds]
    exact hr
  · generalize stopActed m c s = u at *
    generalize stopEnded m c s = v at *
    generalize stopClaimed m c s = w at *
    rw [hacted, hended, hclaimed.frame]
    rfl

/-- A safe stop while one stands. -/
theorem safeStop_again (h : s.runs c 0x0C00 m) (hstop : s.life.safeStop = true) :
    ∃ t, exec (.safeStop c) s = .next t ∧ t.answered c OK 1 [] ∧ otherCmds s t c ∧
      (m.isTether = true → t.tether.claims = s.tether.claims ||| 0x8000) ∧ (m.isTether = false → t.tether = s.tether ∧ t.events = s.events) ∧
      t = { s with cmds := t.cmds, tether := t.tether, events := t.events } := by
  have hexec := exec_safeStop_again h hstop
  obtain ⟨hframe, hcmds, htether, hhost⟩ := stopClaimed_spec m c s
  generalize stopClaimed m c s = u at *
  have hfound : (u.findCmd c).isSome := by
    rw [State.findCmd_congr hcmds]
    simp [h.1]
  have hothers : otherCmds s u c := fun d hd => by
    rw [State.findCmd_congr hcmds]
    simp [hd]
  obtain ⟨hans, hothers'⟩ := State.done_of_others OK 1 [] [] hfound hothers
  refine ⟨_, hexec, hans, hothers', htether, hhost, ?_⟩
  rw [State.done_eq, hframe]

/-- The end of a safe stop. -/
def stopCleared (m : Cmd) (c : CmdRef) (s : State) : State :=
  ((s.began c).mapLife fun x => { x with safeStop := false }).raise 0x8003 (if m.isTether then 256 else 0)

theorem exec_safeStopClear (h : s.runs c 0x0C01 m) :
    exec (.safeStopClear c) s = .next (if s.life.safeStop then (stopCleared m c s).done c else (s.began c).done c) := by
  rw [exec, execSafeStopClear, onCmd_runs _ h]
  rfl

theorem safeStopClear_spec (h : s.runs c 0x0C01 m) :
    (s.life.safeStop = true → ∃ t e, exec (.safeStopClear c) s = .next t ∧ t.answered c OK 0 [] ∧ t.life = { s.life with safeStop := false } ∧
      t.events = s.events ++ [e] ∧ e.code = 0x8003 ∧ e.detail = (if m.isTether then 256 else 0) ∧ otherCmds s t c ∧
      t = { s with cmds := t.cmds, life := t.life, events := t.events, tether := t.tether }) ∧
    (s.life.safeStop = false → ∃ t, exec (.safeStopClear c) s = .next t ∧ t.answered c OK 0 [] ∧ otherCmds s t c ∧ t = { s with cmds := t.cmds }) := by
  have hexec := exec_safeStopClear h
  refine ⟨fun hstop => ?_, fun hstop => ?_⟩
  · rw [if_pos hstop] at hexec
    obtain ⟨hans, hothers⟩ := State.done_of_began (u := stopCleared m c s) OK 0 [] [] h.isSome rfl
    exact ⟨_, _, hexec, hans, rfl, rfl, rfl, by cases m.isTether <;> rfl, hothers, rfl⟩
  · rw [if_neg (by simp [hstop])] at hexec
    obtain ⟨hans, hothers, hframe⟩ := h.answers []
    exact ⟨_, hexec, hans, hothers, hframe⟩

end SafeStop

/-! ### POWER_STATE_SET (R748 to R752) -/

section PowerState

variable {s t u : State} {c : CmdRef} {m : Cmd}

theorem State.anyAdmitted_iff (s : State) : s.anyAdmitted = true ↔ ∃ k, k < 8 ∧ (s.ctxAt k).admitted = true := by
  simp [State.anyAdmitted, List.any_eq_true]

/-- POWER_STATE_SET of a state that is one, on a main side that is ready. -/
def powerOrdered (c : CmdRef) (n : Nat) (s : State) : State :=
  if n ≠ 0 ∧ s.anyAdmitted then s.refuseOpen c BUSY
  else if n < 3 then (enterPower n s).done c OK 0 [w32 n]
  else if s.sec.stage = 7 then s.refuseOpen c BUSY
  else orderOff ((s.raise 0x8B04 3).done c OK 0 [w32 3])

theorem exec_powerStateSet_bad (h : s.runs c 0x0B05 m) (hn : 3 < fld (m.w 3) 3 0) :
    exec (.powerStateSet c) s = .next ((s.began c).badWord c 3) := by
  rw [exec, execPowerStateSet, onCmd_runs _ h]
  exact congrArg _ (if_pos hn)

theorem exec_powerStateSet_ready (h : s.runs c 0x0B05 m) (hn : fld (m.w 3) 3 0 ≤ 3) (hready : s.life.main = .ready) :
    exec (.powerStateSet c) s = .next (powerOrdered c (fld (m.w 3) 3 0) (s.began c)) := by
  have hmain : (s.began c).life.main = .ready := hready
  rw [exec, execPowerStateSet, onCmd_runs _ h]
  refine congrArg _ ((if_neg hn.not_gt).trans ?_)
  rw [hmain]
  rfl

theorem exec_powerStateSet_on (h : s.runs c 0x0B05 m) (hn : fld (m.w 3) 3 0 = 0) (hoff : s.life.main = .off) (hv12 : s.life.v12 = true)
    (htether : m.isTether = true) : exec (.powerStateSet c) s = .next (((s.began c).mapLife fun l =>
      { l with needOrder := false, startKind := 2, startTick := s.time.ticks }).done c OK 0 [0]) := by
  have hmain : (s.began c).life.main = .off := hoff
  rw [exec, execPowerStateSet, onCmd_runs _ h, hn]
  refine congrArg _ ((if_neg (by decide)).trans ?_)
  rw [hmain]
  exact (if_neg (by decide)).trans (if_pos ⟨rfl, hv12, htether⟩)

/-- A power state of a running main side. -/
theorem powerOrdered_enters {n : Nat} (h : s.runs c 0x0B05 m) (hn : n < 3) (hmain : s.life.main = .ready)
    (hidle : n = 0 ∨ ∀ k, k < 8 → (s.ctxAt k).admitted = false) : ∃ t, powerOrdered c n (s.began c) = t ∧
      t.answered c OK 0 [BitVec.ofNat 32 n] ∧ t.life.powerState = n ∧ t.life.main = .ready ∧
      (s.life.powerState = n → t.events = s.events ∧ t.life = s.life) ∧
      (s.life.powerState ≠ n → ∃ e, t.events = s.events ++ [e] ∧ e.code = 0x8B04 ∧ e.detail = BitVec.ofNat 16 n) ∧
      otherCmds s t c ∧ t = { s with cmds := t.cmds, life := t.life, events := t.events, tether := t.tether } := by
  have hordered : powerOrdered c n (s.began c) = (enterPower n (s.began c)).done c OK 0 [w32 n] := by
    refine (if_neg fun hbusy => ?_).trans (if_pos hn)
    obtain ⟨hne, hany⟩ := hbusy
    obtain ⟨k, hk, hadmitted⟩ := (State.anyAdmitted_iff _).1 hany
    rcases hidle with hzero | hnone
    · exact hne hzero
    · exact Bool.false_ne_true ((hnone k hk).symm.trans hadmitted)
  have hframe := enterPower_eq n (s.began c)
  obtain ⟨hans, hothers⟩ := State.done_of_began (u := enterPower n (s.began c)) OK 0 [w32 n] [] h.isSome (congrArg State.cmds hframe :)
  refine ⟨_, rfl, ?_⟩
  rw [hordered]
  refine ⟨hans, enterPower_state n (s.began c), ?_, fun hsame => ?_, fun hnew => ?_, hothers, ?_⟩
  · have hlife : (enterPower n (s.began c)).standing.lasting.life.main = (s.began c).standing.lasting.life.main := by rw [enterPower_standing]
    exact hlife.trans hmain
  · have hkept : enterPower n (s.began c) = s.began c := if_pos hsame
    rw [hkept]
    exact ⟨rfl, rfl⟩
  · have hentered : enterPower n (s.began c) = ((s.began c).mapLife fun l => { l with powerState := n, idleSince := none }).raise 0x8B04 n := if_neg hnew
    rw [hentered]
    exact ⟨_, rfl, rfl, rfl⟩
  · generalize enterPower n (s.began c) = u at *
    rw [State.done_eq, hframe]
    rfl

/-- The commands that outlast a stop of the main side are the Tether's. -/
theorem stopMain_cmds (s : State) : (stopMain s).cmds =
    (endUpdateCmd s).cmds.filter fun m => m.isTether && !decide (some m.ref = (endUpdateCmd s).sec.actCmd ∧ m.phase = .running) := rfl

/-- Without an update every command of the Tether outlasts it. -/
theorem findCmd_stopMain (hact : s.sec.actCmd = none) (htether : c.sender = .tether) : (stopMain s).findCmd c = s.findCmd c := by
  have hsame : endUpdateCmd s = s := by rw [endUpdateCmd, hact]
  rw [State.findCmd, stopMain_cmds, hsame, hact, List.find?_filter, State.findCmd]
  refine List.find?_congr fun x _ => ?_
  by_cases hx : x.ref = c
  · simp [hx, Cmd.isTether, htether]
  · simp [hx]

/-- MAIN_OFF of a main side without work. -/
theorem powerOrdered_off (h : s.runs c 0x0B05 m) (hidle : ∀ k, k < 8 → (s.ctxAt k).admitted = false) (hstage : s.sec.stage ≠ 7) :
    ∃ t, powerOrdered c 3 (s.began c) = t ∧ t.life.main = .off ∧ t.life.linkUp = false ∧ t.life.needOrder = true ∧ (∀ x ∈ t.cmds, x.isTether = true) ∧
      (m.ref = c → m.isTether = true → s.sec.actCmd = none → t.answered c OK 0 [3]) ∧ t.hostMem = s.hostMem ∧ t.tether.claims = s.tether.claims ∧
      t.life.safeStop = s.life.safeStop ∧ t.life.v12 = s.life.v12 ∧ t.time.ticks = s.time.ticks ∧ t.maps = [] ∧ t.objs = [] := by
  have hordered : powerOrdered c 3 (s.began c) = orderOff (((s.began c).raise 0x8B04 3).done c OK 0 [w32 3]) := by
    refine (if_neg fun hbusy => ?_).trans ((if_neg (by decide)).trans (if_neg hstage))
    obtain ⟨k, hk, hadmitted⟩ := (State.anyAdmitted_iff _).1 hbusy.2
    exact Bool.false_ne_true ((hidle k hk).symm.trans hadmitted)
  have hclaims := (SideKept.raise (s.began c) 0x8B04 3).claims
  obtain ⟨hans, -⟩ := State.done_of_began (u := (s.began c).raise 0x8B04 3) OK 0 [w32 3] [] h.isSome rfl
  rw [hordered]
  generalize hv : ((s.began c).raise 0x8B04 3).done c OK 0 [w32 3] = v at *
  have hstop := stopMain_eq v
  have hcmds := stopMain_cmds v
  have hfind (hact : v.sec.actCmd = none) (htether : c.sender = .tether) := findCmd_stopMain hact htether
  unfold orderOff
  generalize stopMain v = t at *
  refine ⟨_, rfl, ?_, ?_, rfl, fun x hx => ?_, fun href htether hact => ?_, ?_, ?_, ?_, ?_, ?_, ?_, ?_⟩
  · exact (congrArg (·.life.main) hstop :)
  · exact (congrArg (·.life.linkUp) hstop :)
  · change x ∈ t.cmds at hx
    rw [hcmds] at hx
    exact (Bool.and_eq_true_iff.1 (List.mem_filter.1 hx).2).1
  · refine State.answered_of_findCmd (hfind ?_ ?_) hans
    · rw [← hv]
      exact hact
    · rw [← href]
      exact of_decide_eq_true htether
  · exact (congrArg State.hostMem hstop :).trans (by rw [← hv]; rfl)
  · exact (congrArg (·.tether.claims) hstop :).trans ((by rw [← hv]; rfl : v.tether.claims = ((s.began c).raise 0x8B04 3).tether.claims).trans hclaims)
  · exact (congrArg (·.life.safeStop) hstop :).trans (by rw [← hv]; rfl)
  · exact (congrArg (·.life.v12) hstop :).trans (by rw [← hv]; rfl)
  · exact (congrArg (·.time.ticks) hstop :).trans (by rw [← hv]; rfl)
  · exact (congrArg State.maps hstop :)
  · exact (congrArg State.objs hstop :)

end PowerState

/-- Settles O55: an order enters its power state once no work stands, and a safe stop ends the work and keeps what stands. -/
theorem powerStatesAndSafeStop : Obligations.PowerStatesAndSafeStop := by
  unfold Obligations.PowerStatesAndSafeStop
  refine ⟨fun s c m n h hn => ?_, fun s c m h href => ⟨safeStop_again h, safeStop_stops h, safeStop_idle h⟩, fun s c m h => safeStopClear_spec h⟩
  subst hn
  refine ⟨exec_powerStateSet_bad h, fun hn hne hmain hbusy => ?_, fun hn hmain hidle => ?_, fun hn hmain hidle hstage => ?_,
    fun hn hoff hv12 htether => ?_⟩
  · rw [exec_powerStateSet_ready h hn hmain]
    exact congrArg _ (if_pos ⟨hne, (State.anyAdmitted_iff _).2 hbusy⟩)
  · rw [exec_powerStateSet_ready h (by omega) hmain]
    obtain ⟨t, hordered, hspec⟩ := powerOrdered_enters h hn hmain hidle
    exact ⟨t, congrArg _ hordered, hspec⟩
  · rw [exec_powerStateSet_ready h (by omega) hmain, hn]
    obtain ⟨t, hordered, hspec⟩ := powerOrdered_off h hidle hstage
    exact ⟨t, congrArg _ hordered, hspec⟩
  · obtain ⟨hans, hothers⟩ := State.done_of_began (u := (s.began c).mapLife fun l =>
      { l with needOrder := false, startKind := 2, startTick := s.time.ticks }) OK 0 [0] [] h.isSome rfl
    exact ⟨_, exec_powerStateSet_on h hn hoff hv12 htether, hans, rfl, hothers, rfl⟩

end Sys2Proof.Machine

/-! ## A step with a failing check -/

namespace Sys2Proof.Machine

section FailedStep

variable {s t u : State} {bn : Nat} {io : StepIO} {failing : List (Nat × Nat)}

/-- What a tile holds of a program's values. -/
def TileS.held (x : TileS) : Tab Word × Tab Word × Tab (BitVec 64) × Tab Word × Tab LongAcc × Tab (List Word) × Tab (List Word) × BitVec 5 :=
  (x.v, x.s, x.p, x.acc, x.la, x.weights, x.rows, x.arith)

/-- Where a band stands in its program. -/
def BandS.place (b : BandS) : Nat × Nat × List InFlight := (b.step, b.pc, b.inflight)

/-- Nothing has landed between `s` and `t`, and no attempt has been counted: retries and recoveries change other fields. -/
structure Unlanded (s t : State) : Prop where
  tiles : ∀ n, (t.tileAt n).held = (s.tileAt n).held
  bands : ∀ b, (t.bandAt b).place = (s.bandAt b).place
  retries : t.dep.retries = s.dep.retries
  stores : t.commons = s.commons ∧ t.objs = s.objs ∧ t.hostMem = s.hostMem ∧ t.maps = s.maps

namespace Unlanded

theorem refl (s : State) : Unlanded s s := ⟨fun _ => rfl, fun _ => rfl, rfl, rfl, rfl, rfl, rfl⟩

theorem trans (h : Unlanded s t) (k : Unlanded t u) : Unlanded s u := by
  obtain ⟨hc, ho, hm, hp⟩ := h.stores
  obtain ⟨kc, ko, km, kp⟩ := k.stores
  exact ⟨fun n => (k.tiles n).trans (h.tiles n), fun b => (k.bands b).trans (h.bands b), k.retries.trans h.retries, kc.trans hc, ko.trans ho, km.trans hm,
    kp.trans hp⟩

theorem ite {p : Prop} [Decidable p] (h : Unlanded s t) (k : Unlanded s u) : Unlanded s (if p then t else u) := by
  split
  · exact h
  · exact k

theorem forEach {α : Type} (l : List α) {f : α → State → State} (hf : ∀ x u, Unlanded u (f x u)) (s : State) :
    Unlanded s (Machine.forEach l f s) :=
  forEach_keeps (P := Unlanded s) l f (fun x _ u hu => hu.trans (hf x u)) (.refl s)

theorem updTile (s : State) (n : Nat) {f : TileS → TileS} (hf : ∀ x, (f x).held = x.held) : Unlanded s (s.updTile n f) where
  tiles k := by
    rw [State.tileAt_updTile]
    split
    · next h => rw [hf, h]
    · rfl
  bands _ := rfl
  retries := rfl
  stores := ⟨rfl, rfl, rfl, rfl⟩

theorem updBand (s : State) (n : Nat) {f : BandS → BandS} (hf : ∀ b, (f b).place = b.place) : Unlanded s (s.updBand n f) := by
  have hframe := s.updBand_eq n f
  refine ⟨fun k => ?_, fun b => ?_, ?_, ?_⟩
  · exact (congrArg (fun u : State => (u.tileAt k).held) hframe :)
  · by_cases hb : b = n
    · subst hb
      cases hhas : Tab.has s.bands b with
      | true => rw [State.bandAt_updBand_self f hhas, hf]
      | false =>
        rw [State.updBand, hhas]
        rfl
    · rw [State.bandAt_updBand_other s f hb]
  · exact (congrArg (·.dep.retries) hframe :)
  · exact ⟨(congrArg State.commons hframe :), (congrArg State.objs hframe :), (congrArg State.hostMem hframe :), (congrArg State.maps hframe :)⟩

theorem mapDep (s : State) {f : DepS → DepS} (hf : ∀ d, (f d).retries = d.retries) : Unlanded s (s.mapDep f) :=
  ⟨fun _ => rfl, fun _ => rfl, hf _, rfl, rfl, rfl, rfl⟩

/-- A change of what no step computes with: events, pairs, power, the ledger. -/
theorem of_eq (h : t = { s with pairs := t.pairs, power := t.power, age := t.age, events := t.events, tether := t.tether }) : Unlanded s t := by
  rw [h]
  exact ⟨fun _ => rfl, fun _ => rfl, rfl, rfl, rfl, rfl, rfl⟩

theorem raise (s : State) (code detail : Nat) : Unlanded s (s.raise code detail) := .of_eq rfl

theorem ledger (s : State) (e : LedgerEntry) : Unlanded s (s.ledger e) := .of_eq rfl

theorem updPair (s : State) (n : Nat) (f : PairS → PairS) : Unlanded s (s.updPair n f) := .of_eq (by
  unfold State.updPair
  split <;> rfl)

theorem needsCopy (s : State) (b : Nat) : Unlanded s (s.needsCopy b) := by
  unfold State.needsCopy
  split
  · exact .updPair ..
  · exact .refl s

theorem partnerCarries (s : State) (b : Nat) : Unlanded s (s.partnerCarries b) := by
  unfold State.partnerCarries
  split
  · exact .ite (.refl s) ((Unlanded.updPair s _ _).trans (.of_eq rfl))
  · exact .refl s

theorem recoveryStart (s : State) (id : Nat) : Unlanded s (s.recoveryStart id) := .ite (.refl s) (.of_eq rfl)

theorem assignReplacement (s : State) (n : Nat) : Unlanded s (s.assignReplacement n) := by
  unfold State.assignReplacement
  split
  · exact .mapDep s fun _ => rfl
  · exact .raise ..

theorem tileRepair (s : State) (b logical cause : Nat) : Unlanded s (s.tileRepair b logical cause) := by
  unfold State.tileRepair
  extract_lets n s1 s2 s3 s4 r
  have h1 : Unlanded s s1 := by
    refine .trans (.updTile s n ?_) (.ledger _ _)
    exact fun _ => rfl
  have h2 : Unlanded s1 s2 := .mapDep s1 fun _ => rfl
  have h3 : Unlanded s2 s3 := by
    refine .trans (.trans (.updBand s2 b ?_) (.recoveryStart _ _)) (.needsCopy _ _)
    exact fun _ => rfl
  have h4 : Unlanded s3 s4 := .assignReplacement ..
  split
  · split
    · next x _ =>
      extract_lets v
      have hv : Unlanded s v := by
        refine .trans (.updTile s x ?_) (.ledger _ _)
        exact fun _ => rfl
      refine hv.trans (.trans (.trans (.mapDep v ?_) (.needsCopy _ _)) (.assignReplacement _ _))
      exact fun _ => rfl
    · exact .refl s
  · exact ((h1.trans h2).trans (h3.trans h4)).trans ((Unlanded.raise ..).trans (.partnerCarries ..))

theorem persistentFailure (s : State) (b logical lane : Nat) : Unlanded s (s.persistentFailure b logical lane) := by
  unfold State.persistentFailure
  extract_lets n s1
  have h1 : Unlanded s s1 := .mapDep s fun _ => rfl
  refine .ite (.refl s) (.ite (.tileRepair ..) (.ite ((Unlanded.raise ..).trans (.tileRepair ..)) (h1.trans ?_)))
  refine .trans (.trans (.updBand s1 b ?_) (.recoveryStart _ _)) (.partnerCarries _ _)
  exact fun _ => rfl

end Unlanded

/-- A retried attempt counts once, and nothing lands (R588). -/
theorem retryStep_spec (s : State) (bn : Nat) (failing : List (Nat × Nat)) :
    ∃ u, Unlanded s u ∧ Unlanded (u.mapDep fun d => { d with retries := d.retries + 1 }) (s.retryStep bn failing) := by
  unfold State.retryStep
  extract_lets b fails s1 s2 s3
  have h1 : Unlanded s s1 := .updBand s bn fun _ => rfl
  have h2 : Unlanded s1 s2 := .forEach _ (f := fun l s => s.updTile (b.tiles.getD l 0) fun t => { t with retry := min 16383 (t.retry + 1) })
    (fun l u => .updTile u _ fun _ => rfl) s1
  exact ⟨s2, h1.trans h2, .forEach _ (fun f u => .persistentFailure ..) s3⟩

/-- What of an attempt's checks and rows belongs to the band. -/
theorem failing_ne_nil {n : Nat} (h : ∃ u ∈ io.failing, u.1 < n ∧ u.2 ≤ 64) : io.failing.filter (fun u => decide (u.1 < n ∧ u.2 ≤ 64)) ≠ [] := by
  obtain ⟨x, hx, hunit⟩ := h
  exact List.ne_nil_of_mem (List.mem_filter.2 ⟨hx, decide_eq_true hunit⟩)

theorem badRows_eq_nil {n : Nat} (h : ∀ u ∈ io.badRows, n ≤ u.1) : io.badRows.filter (fun u => decide (u.1 < n)) = [] :=
  List.filter_eq_nil_iff.2 fun x hx => by simpa using h x hx

/-- The attempt of a band is a retry: its state is that of a retry of some failing units. -/
theorem bandStep_retries (hstep : s.canStep bn = true) (hfailing : ∃ u ∈ io.failing, u.1 < (s.bandAt bn).tiles.length ∧ u.2 ≤ 64)
    (hbad : ∀ u ∈ io.badRows, (s.bandAt bn).tiles.length ≤ u.1)
    (hprogram : (s.bandAt bn).program = true → ∃ img pb, s.program bn = some (img, pb) ∧
      (img.resident pb = true ∨ Tab.get? (s.bandAt bn).frames ((s.bandAt bn).pc / 1024 % 8) = some ((s.bandAt bn).pc / 1024)) ∧
      ∀ t < (s.bandAt bn).tiles.length, (tileColumn (s.view bn t) (img.col pb t (s.bandAt bn).pc)).moves = []) :
    exec (.bandStep bn io) s = .next ((s.mapDep fun d => { d with corrected := d.corrected + io.corrected }).retryStep bn
      (io.failing.filter fun u => decide (u.1 < (s.bandAt bn).tiles.length ∧ u.2 ≤ 64))) := by
  have hunits := failing_ne_nil hfailing
  have hrows := badRows_eq_nil hbad
  rw [exec, execBandStep, onTrigger_fires s _ hstep]
  refine congrArg _ ?_
  split
  · next hrun =>
    obtain ⟨img, pb, hcode, hpage, hmoves⟩ := hprogram hrun
    unfold State.columnStep
    rw [hcode]
    dsimp only
    refine (if_neg fun hwait => ?_).trans ((if_neg (not_not.2 hrows)).trans (if_pos hunits))
    rcases hwait with hmissing | hfull
    · rcases hpage with hpage | hpage <;> simp [hpage] at hmissing
    · obtain ⟨k, hk, hany⟩ := List.any_eq_true.1 hfull
      have hlt := List.mem_range.1 hk
      simp [hlt, hmoves k hlt] at hany
  · unfold stageStep
    dsimp only
    rw [if_neg (not_not.2 hrows), if_pos hunits]

end FailedStep

/-- Settles O30: the attempt is a retry, whose recoveries touch no value of a tile and no place of a band. -/
theorem failedStepLandsNothing : Obligations.FailedStepLandsNothing := by
  unfold Obligations.FailedStepLandsNothing
  intro s bn io hstep hfailing hbad hprogram
  obtain ⟨u, hbefore, hafter⟩ := retryStep_spec (s.mapDep fun d => { d with corrected := d.corrected + io.corrected }) bn
    (io.failing.filter fun u => decide (u.1 < (s.bandAt bn).tiles.length ∧ u.2 ≤ 64))
  refine ⟨_, bandStep_retries hstep hfailing hbad hprogram, ?_⟩
  generalize ((s.mapDep fun d => { d with corrected := d.corrected + io.corrected }).retryStep bn _) = t at *
  have hcorrected : Unlanded s (s.mapDep fun d => { d with corrected := d.corrected + io.corrected }) := .mapDep s fun _ => rfl
  have hall := hcorrected.trans hbefore
  obtain ⟨hcommons, hobjs, hmem, hmaps⟩ := hafter.stores
  obtain ⟨hcommons', hobjs', hmem', hmaps'⟩ := hall.stores
  have hplace : (t.bandAt bn).place = (s.bandAt bn).place := (hafter.bands bn).trans (hall.bands bn)
  have htile (n : Nat) : (t.tileAt n).held = (s.tileAt n).held := (hafter.tiles n).trans (hall.tiles n)
  simp only [BandS.place, TileS.held, Prod.mk.injEq] at hplace htile
  obtain ⟨hsteps, hpc, hinflight⟩ := hplace
  exact ⟨htile, hsteps, hpc, hinflight, hafter.retries.trans (congrArg (· + 1) hall.retries), hcommons.trans hcommons', hobjs.trans hobjs', hmem.trans hmem',
    hmaps.trans hmaps'⟩

end Sys2Proof.Machine
